-- ==== Sys2Proof/Word.lean ====
section
/-! DEFINITION. The byte, the word types and the sparse tables every other file is written with. -/

namespace Sys2Proof

/-- A byte as the device stores and transfers it (spec/00 R12). -/
abbrev Byte := BitVec 8

/-- A 64-bit value: the widest fixed-size dictionary type and a scalar register (R45, R179). -/
abbrev U64 := BitVec 64

/-- A sparse table: keys strictly rising, each with its entry. -/
abbrev Tab (α : Type) := List (Nat × α)

namespace Tab

variable {α : Type}

/-- The entry at a key, if the table lists one. -/
def find? : Tab α → Nat → Option α
  | [], _ => none
  | (k, v) :: t, a => if a < k then none else if a = k then some v else find? t a

/-- The entry at a key, or a default. -/
def get (d : α) (t : Tab α) (a : Nat) : α := (t.find? a).getD d

/-- List an entry at a key, in key order. -/
def put : Tab α → Nat → α → Tab α
  | [], a, v => [(a, v)]
  | (k, w) :: t, a, v =>
    if a < k then (a, v) :: (k, w) :: t
    else if a = k then (k, v) :: t
    else (k, w) :: put t a v

/-- Unlist a key. -/
def del : Tab α → Nat → Tab α
  | [], _ => []
  | (k, w) :: t, a => if a < k then (k, w) :: t else if a = k then t else (k, w) :: del t a

/-- Keys strictly rising. -/
def sorted : Tab α → Bool
  | [] => true
  | [_] => true
  | (k, _) :: (k', v') :: t => (k < k') && sorted ((k', v') :: t)

end Tab

end Sys2Proof
end

