-- ==== Sys2Proof/Syntax.lean ====
section
/-! DEFINITION. The commands the block takes: one constructor of `Instr` for each row of
spec/opcode_table.json, with the operands that row needs, and the operand types. A command stands for
one indivisible step of spec/95_what_each_step_holds.md: a message from outside, or the instant at which
an engine of the device takes its next step. Operands carry what comes from outside the block. -/

namespace Sys2Proof

/-- Cabinet number (R19). -/
abbrev Cab := Fin 8
/-- Global tile number g = 150 c + t (R19). -/
abbrev Tile := Fin 1200
/-- Thread context of a tile, which names its drawer (R142). -/
abbrev Ctx := Fin 16
/-- Stream number within a cabinet (R216). -/
abbrev StreamNo := Fin 512
/-- Port index of the port arrays: 0–15 peer ports, 16–23 target ports (R456). -/
abbrev PortNo := Fin 24

/-- A master, by claimant ID (R98). -/
inductive Master where
  | host
  | node (n : BitVec 7)
  | peer
  | jtag
deriving DecidableEq, Repr

/-- The transports that carry OAP segments (R85, R98). -/
inductive Transport where
  | pcie | fna | fnb | vc2 | jtag
deriving DecidableEq, Repr

/-- How a write of one object reaches the dictionary: as an OAP WRITE, or through the linear map (R53). -/
inductive Via where
  | oap (m : Master) (tr : Transport) (seq : BitVec 16)
  | linear
deriving DecidableEq, Repr

/-- A request for one object that has its own row: how it came, and the instant (ns since the last M or D
reset) at which it reached the dictionary service. -/
structure Req where
  via : Via
  t   : Nat
deriving DecidableEq, Repr

/-- An object subentry, index.subindex (R43). -/
structure ObjId where
  idx : BitVec 16
  sub : BitVec 8
deriving DecidableEq, Repr

/-- One field-network port (R89). -/
inductive CanPort where
  | fna | fnb
deriving DecidableEq, Repr

/-- Where error confinement of ISO 11898-1 takes a port (R89): a recovery from bus-off ends in error active. -/
inductive CanConfinement where
  | active | passive | busOff
deriving DecidableEq, Repr

/-- What a memory request returns (R17, R37, R251, R258). -/
inductive MemStatus where
  | ok | decode | uncorrectable | cabinetLost | farTier
deriving DecidableEq, Repr

/-- A detected fault as its mechanism reports it (R159, R270–R272, R285). -/
structure FaultInfo where
  structureCode : BitVec 8
  mechanism     : BitVec 8
  tile          : Option Tile
  shelf         : Option (Fin 16)
  site          : Option (Fin 17)
  ctx           : Option Ctx
  /-- the pass named, counted from the start of the operation (R159) -/
  pass          : Nat
  cellI         : BitVec 8
  cellJ         : BitVec 8
  syndrome      : BitVec 32
  address       : BitVec 64
  cabinet       : Option Cab
  /-- found on a pepper operation (R164) -/
  pepper        : Bool
  /-- the job whose data the fault reaches, when no drawer names it -/
  jobId         : BitVec 32
deriving DecidableEq, Repr

/-- The requester classes of a GDDR7 channel, in the order of R247. -/
inductive ChanClass where
  | stream | fabricDma | migration | config | bar2 | peer
deriving DecidableEq, Repr

/-- A request offered to a cabinet's GDDR7: its class, whether it is a real-time stream's within its
reservation, whether it writes, and its offset in the cabinet's slot (R37, R38, R247). -/
structure ChanReq where
  cls      : ChanClass
  realTime : Bool
  isWrite  : Bool
  offset   : BitVec 35
  tag      : Nat
deriving DecidableEq, Repr

/-- How a GDDR7 read ends on the channel (R251). -/
inductive ReadOutcome where
  /-- good after this many CRC retries (0–2); on-die ECC corrected it or not -/
  | good (retries : Fin 3) (corrected : Bool)
  /-- still failing CRC after two retries -/
  | crcFailed
  /-- on-die ECC reports it uncorrectable, after this many CRC retries -/
  | onDieUncorrectable (retries : Fin 3)
deriving DecidableEq, Repr

/-- What the slave configuration port sees at one edge of its clock (R369). -/
inductive SlaveEdge where
  /-- one rising SPCLK edge with these data lines -/
  | data (spd : BitVec 32)
deriving DecidableEq, Repr

/-- Reset sources of R480 that a release can name. -/
inductive ResetSource where
  | powerOn | supply | rstIn | perst | thermal | field | software
  | pllDevice (dom : Fin 9)
  | pllCabinet (c : Cab)
  | fieldCabinet (c : Cab)
  | softCabinet (c : Cab)
  | critical
deriving DecidableEq, Repr

/-- How a scrubbed frame reads against its check (R380, R382). -/
inductive FrameCheck where
  | clean
  /-- one bit, at this bit number of the frame -/
  | single (bit : Fin 3072)
  | double
  /-- three or more bits: outside the guarantee (R380) -/
  | more
deriving DecidableEq, Repr

/-- A cut flit header with its payload, the last flit's padding left out (R394). -/
structure CutFlit where
  step        : BitVec 48
  source      : BitVec 12
  kind        : BitVec 4
  dest        : BitVec 12
  flit        : BitVec 7
  last        : Bool
  freezeValid : Bool
  cause       : BitVec 3
  delta       : BitVec 32
  payload     : List Byte
deriving DecidableEq, Repr

/-- A drawer in a gap without work, and whether this step is the first of a ramp-down (R166). -/
structure RampGap where
  ctx   : Ctx
  first : Bool
deriving DecidableEq, Repr

/-- A cycle of a cabinet's collector, and the residue errors that its additions meet (R174, R176). -/
structure CollectorCycle where
  cab           : Cab
  residueFaults : Nat
deriving DecidableEq, Repr

/-- An edge of a queue's read side: the ECC error that the entry read meets, `some true` an uncorrectable one (R324), and how
many of the other side's accesses its side sees at this edge (R326). -/
structure ReadEdge where
  eccFault : Option Bool
  seen     : Nat
deriving DecidableEq, Repr

/-- An edge of a queue's write side, with a read in the same edge if asked. -/
structure WriteEdge where
  alsoRead : Bool
  read     : ReadEdge
deriving DecidableEq, Repr

/-- Lanes of a port that lost CDR lock, and whether a lane missed two markers in succession (R438). -/
structure LaneLoss where
  cdrLost : List (Fin 8)
  markers : Bool
deriving DecidableEq, Repr

/-- The commands, in the order of spec/opcode_table.json but for eight without operands, which come last. -/
inductive Instr where
  -- the object dictionary (spec/02, spec/03)
  | read (m : Master) (tr : Transport) (t : Nat) (seq : BitVec 16) (o : ObjId)
  | readGroup (m : Master) (tr : Transport) (t : Nat) (seq : BitVec 16) (list : List Byte)
  | write (m : Master) (tr : Transport) (t : Nat) (seq : BitVec 16) (o : ObjId) (val : List Byte) (sets : U64)
  | linearMapWrite (t : Nat) (offset : BitVec 27) (data : List Byte) (sets : U64)
  | groupBegin (m : Master) (tr : Transport) (t : Nat) (seq : BitVec 16)
  | groupStage (m : Master) (tr : Transport) (t : Nat) (seq : BitVec 16) (o : ObjId) (val : List Byte)
  | groupCommit (m : Master) (tr : Transport) (t : Nat) (seq : BitVec 16) (sets : U64)
  | groupAbort (m : Master) (tr : Transport) (t : Nat) (seq : BitVec 16)
  | groupTimeout (m : Master)
  | claim (m : Master) (tr : Transport) (t : Nat) (seq : BitVec 16) (prio : Byte)
  | claimWindowClose
  | leaseEnd
  | release (m : Master) (tr : Transport) (t : Nat) (seq : BitVec 16)
  | handover (m : Master) (tr : Transport) (t : Nat) (seq : BitVec 16) (successor : Byte)
  | handoverAccept (m : Master) (tr : Transport) (t : Nat) (seq : BitVec 16)
  | segmentReceive (m : Master) (tr : Transport) (t : Nat) (bytes : List Byte)
  | segmentGapTimeout (m : Master) (tr : Transport)
  | eventDelivery (m : Master)
  | recordCommitDone (failedAttempts : Fin 4)
  | storeSync (q : Req) (val : List Byte)
  | storeSynced
  | forgetPersisted (q : Req) (val : List Byte)
  | compactionComplete (eraseFailed : Bool)
  | canOapFrame (port : CanPort) (t : Nat) (id : BitVec 29) (data : List Byte)
  | resetCommandFrame (port : CanPort) (t : Nat) (id : BitVec 29) (data : List Byte)
  | canBusOff (port : CanPort) (conf : CanConfinement)
  | reqTailWrite (q : Req) (val : List Byte) (slots : List (List Byte))
  | rspHeadWrite (q : Req) (val : List Byte)
  | oapRingConfigWrite (q : Req) (sub : BitVec 8) (val : List Byte)
  | peerOapSegment (t : Nat) (dev : BitVec 12) (bytes : List Byte)
  | oapsegCapture
  | oapsegUpdate (t : Nat) (bytes : List Byte)
  -- drawers, ramps, collector (spec/05)
  | drawerRelease (g : Tile) (x : Ctx)
  | passCommit (g : Tile) (x : Ctx)
  | outputWritten (g : Tile) (x : Ctx)
  | preemptionRequest (g : Tile) (x : Ctx)
  | faultReport (t : Nat) (f : FaultInfo)
  | steeringHold (g : Tile) (row : Fin 16)
  | steeringRelease (g : Tile) (row : Fin 16)
  | rampDownStep (g : Tile) (gap : RampGap)
  | rampUpStep (g : Tile) (x : Ctx)
  | capDescentStep (g : Tile) (x : Ctx)
  | realtimeRiseStep (g : Tile) (x : Ctx)
  | throttleTargetArrival (g : Tile) (target : Fin 9)
  | benchSelection (g : Tile) (selection : List (Fin 17)) (failing : List (Fin 16 × Fin 17))
  | collectorSlotOpen (c : Cab) (slot : Fin 256) (n : Fin 151) (len : Nat) (dest : BitVec 48) (jobId : BitVec 32)
  | collectorAdmit (cycle : CollectorCycle)
  | chainCombine (c : Cab) (slot : Fin 256) (offset : BitVec 24) (residueFaults : Nat)
  -- operation words: w holds bits [127:8] of the word, the opcode is the constructor's (spec/06 R189, R190)
  | nop (g : Tile) (x : Ctx) (w : BitVec 120)
  | halt (g : Tile) (x : Ctx) (w : BitVec 120)
  | jmp (g : Tile) (x : Ctx) (w : BitVec 120)
  | br (g : Tile) (x : Ctx) (w : BitVec 120)
  | loop (g : Tile) (x : Ctx) (w : BitVec 120)
  | sli (g : Tile) (x : Ctx) (w : BitVec 120)
  | sadd (g : Tile) (x : Ctx) (w : BitVec 120)
  | sshf (g : Tile) (x : Ctx) (w : BitVec 120)
  | sag (g : Tile) (x : Ctx) (w : BitVec 120)
  | slm (g : Tile) (x : Ctx) (w : BitVec 120)
  | scr (g : Tile) (x : Ctx) (w : BitVec 120)
  | yield (g : Tile) (x : Ctx) (w : BitVec 120)
  | smovv (g : Tile) (x : Ctx) (w : BitVec 120)
  | fence (g : Tile) (x : Ctx) (w : BitVec 120)
  | semaadd (g : Tile) (x : Ctx) (w : BitVec 120)
  | semawait (g : Tile) (x : Ctx) (w : BitVec 120)
  | sopen (g : Tile) (x : Ctx) (w : BitVec 120)
  | swait (g : Tile) (x : Ctx) (w : BitVec 120)
  | sfree (g : Tile) (x : Ctx) (w : BitVec 120)
  | sclose (g : Tile) (x : Ctx) (w : BitVec 120)
  | mma (g : Tile) (x : Ctx) (w : BitVec 120)
  | vld (g : Tile) (x : Ctx) (w : BitVec 120) (lostToArbitration : Nat)
  | vst (g : Tile) (x : Ctx) (w : BitVec 120) (lostToArbitration : Nat)
  | vfadd (g : Tile) (x : Ctx) (w : BitVec 120)
  | vfmul (g : Tile) (x : Ctx) (w : BitVec 120)
  | vfma (g : Tile) (x : Ctx) (w : BitVec 120)
  | vtof (g : Tile) (x : Ctx) (w : BitVec 120)
  | vtox (g : Tile) (x : Ctx) (w : BitVec 120)
  | vclra (g : Tile) (x : Ctx) (w : BitVec 120)
  | vimac (g : Tile) (x : Ctx) (w : BitVec 120)
  | vmova (g : Tile) (x : Ctx) (w : BitVec 120)
  | vnar (g : Tile) (x : Ctx) (w : BitVec 120)
  | vmax (g : Tile) (x : Ctx) (w : BitVec 120)
  | vmin (g : Tile) (x : Ctx) (w : BitVec 120)
  | vamax (g : Tile) (x : Ctx) (w : BitVec 120)
  | vsrd (g : Tile) (x : Ctx) (w : BitVec 120)
  | vmask (g : Tile) (x : Ctx) (w : BitVec 120)
  | resultLanding (g : Tile)
  | blockCleared (g : Tile) (x : Ctx)
  | contextEviction (g : Tile) (incoming : Ctx)
  | contextSwapComplete (g : Tile) (bank : Fin 4)
  -- streams (spec/07)
  | unitRequest (c : Cab) (engine : Fin 4)
  | unitDelivered (c : Cab) (s : StreamNo) (receiver : Fin 64) (status : MemStatus) (data : List Byte)
  | unitVisible (c : Cab) (s : StreamNo) (n : BitVec 32) (status : MemStatus)
  | rateWindow (c : Cab)
  | streamHaltComplete (c : Cab) (s : StreamNo)
  | streamResume (c : Cab) (s : StreamNo)
  | streamPinComplete (c : Cab) (s : StreamNo)
  | streamCloseComplete (c : Cab) (s : StreamNo)
  -- memory tiers (spec/08)
  | channelAdmit (c : Cab) (k : Fin 24) (offers : List ChanReq)
  | channelReadServed (c : Cab) (k : Fin 24) (tag : Nat) (outcome : ReadOutcome)
  | channelWriteComplete (c : Cab) (k : Fin 24) (tag : Nat) (replays : Nat)
  | bankRefresh (c : Cab) (k : Fin 24) (bank : Fin 16)
  | operatingPointWrite (q : Req) (val : List Byte)
  | cabinetPointChangeDone
  | cxlReadResponse (port : Fin 4) (tag : Nat) (poison : Bool) (data : List Byte)
  | cxlCompletionTimeout (port : Fin 4) (tag : Nat)
  | cxlLinkDown (port : Fin 4)
  | serveFault (t : Nat)
  | migrationComplete (t : Nat) (asn : Byte) (va : BitVec 48) (c : Cab) (status : MemStatus) (data : List Byte)
  | frameFreed (c : Cab) (asn : Byte) (large : Bool)
  -- hidden failures (spec/09)
  | coreFenceWithSpare (t : Nat) (g : Tile) (shelf : Fin 16) (site : Fin 17) (failing : List (Fin 16 × Fin 17))
  | rowRemoval (t : Nat) (g : Tile) (shelf : Fin 16) (site : Fin 17)
  | pendingSpareTest (g : Tile) (shelf : Fin 16) (site : Fin 17) (pass : Bool)
  | replicaTakeover (t : Nat) (jobId : BitVec 32) (shard : Byte) (replica : Fin 4)
  | cabinetLost (t : Nat) (c : Cab) (railFault : Bool)
  | shardRestore (t : Nat) (jobId : BitVec 32) (readable : Bool)
  | readmitTile (q : Req) (val : List Byte)
  | readmission (g : Tile) (failing1 failing2 : List (Fin 16 × Fin 17))
  -- jobs (spec/10)
  | subTailWrite (q : Req) (ring : Fin 8) (val : List Byte)
  | cplHeadWrite (q : Req) (ring : Fin 8) (val : List Byte)
  | jobRingConfigWrite (q : Req) (ring : Fin 8) (sub : BitVec 8) (val : List Byte)
  | pollInterval (t : Nat) (hostBytes : List (Nat × Byte))
  | completionRecordWrite (t : Nat) (ring : Fin 8)
  | jobPlacement (t : Nat) (jobId : BitVec 32) (asn : Byte) (hostBytes : List (Nat × Byte))
  | jobPreemptSaveDone (t : Nat) (jobId : BitVec 32)
  | jobRestore (t : Nat) (jobId : BitVec 32)
  | checkpointDue (jobId : BitVec 32)
  | checkpointCommit (t : Nat) (jobId : BitVec 32) (status : MemStatus)
  | checkpointGapHold (jobId : BitVec 32)
  | cancelJob (q : Req) (val : List Byte)
  | jobEnd (t : Nat) (jobId : BitVec 32)
  | throttleWindow (watts : BitVec 16) (junctions : List Int)
  | collectiveMessage (t : Nat) (source : BitVec 12) (body : List Byte)
  -- fabric (spec/11)
  | fabricQueueWrite (c : Cab) (block : Fin 8192) (entry : BitVec 80) (edge : WriteEdge)
  | fabricQueueRead (c : Cab) (block : Fin 8192) (edge : ReadEdge)
  | queueReset (c : Cab) (block : Fin 8192) (phase : Fin 4)
  | clockLoopLockLost (c : Cab) (loop : Fin 16)
  | clockLoopLocked (c : Cab) (loop : Fin 16)
  | fabricPortBeat (g : Tile) (out : Bool) (data : List Byte)
  | targetWordReceive (port : Cab) (word : List Byte) (kind : Bool) (uncorrectable : Bool)
  | probeSelectApply
  -- fabric DMA (spec/12)
  | channelStart (q : Req) (val : List Byte)
  | descriptorFetchDone (c : Cab) (ch : Fin 32) (status : MemStatus) (hostBytes : List Byte)
  | burstStart (c : Cab) (ch : Fin 32) (len : BitVec 6)
  | beatGrant (c : Cab) (isWrite : Bool) (hostBytes : List Byte)
  | burstEnd (c : Cab) (ch : Fin 32)
  | arrivalConfirmed (c : Cab) (ch : Fin 32)
  | lateWithdrawal (c : Cab) (ch : Fin 32)
  | dmaBusError (c : Cab) (ch : Fin 32) (offset : BitVec 64) (cause : BitVec 4)
  | resume (q : Req)
  | abort (q : Req)
  -- configuration and scrubbing (spec/13)
  | loadFromMemory (q : Req) (val : List Byte)
  | slavePortData (edges : List SlaveEdge)
  | spselRise
  | loadHeader (hostBytes : List (Nat × Byte)) (memFail : Option (MemStatus × BitVec 64))
  | packetNop
  | writeFar
  | writeStartseq
  | writeStartdly
  | packetFrames (memFail : Option (MemStatus × BitVec 64))
  | packetEnd
  | startUpStep
  | lockTimeout
  | loadIdleTimeout
  | loadAbort (q : Req) (val : List Byte)
  | targetCleared
  | autoloadStore (q : Req) (val : List Byte)
  | autoloadStoreDone
  | scrubFrameRead (check : FrameCheck)
  | scrubReload
  | scrubPauseEnd
  | settingsUpset (copyB : Bool)
  | scrubCriticalReset
  -- lockstep (spec/14)
  | stepStart (edge : Nat)
  | stepEnd (edge : Nat) (step : Nat)
  | cutFrameReceive (edge : Nat) (flit : CutFlit)
  | deadlineMiss (edge : Nat)
  | freezeNotice (flit : CutFlit)
  | snapshotAt (q : Req) (val : List Byte)
  | run (q : Req)
  | abandon (q : Req)
  | drefLost
  -- trace and checking (spec/15)
  | traceRecordDelivered (c : Cab) (f : Fin 16)
  | verdictPortRead (c : Cab) (f : Fin 16)
  | verdictTaken (c : Cab) (f : Fin 16) (edge : Nat)
  | verdictDeadline (c : Cab) (f : Fin 16) (edge : Nat)
  | captureArm (q : Req) (val : List Byte)
  -- serial lanes (spec/16)
  | portEnable (q : Req) (p : PortNo) (val : List Byte)
  | bringUpDone (p : PortNo) (fecField : BitVec 4)
  | qualifyWindow (p : PortNo) (corrected : Nat) (uncorrectable : Nat)
  | linkLoss (p : PortNo) (lanes : LaneLoss) (corrected : Nat) (uncorrectable : Nat)
  | portDownLimit (t : Nat) (p : PortNo)
  | laneTest (q : Req) (lane : Fin 192) (val : List Byte)
  | eyeSweep (lane : Fin 192) (margin : BitVec 16)
  | linkBlockReceive (t : Nat) (p : Fin 16) (block : List Byte) (uncorrectable : Bool)
  | nak (p : Fin 16) (ackSeq : BitVec 12)
  | replayTimeout (p : Fin 16)
  | remoteRequest (source : BitVec 12)
  | remoteResponse (source : BitVec 12)
  | remoteTimeout (tag : BitVec 12)
  | targetBlockReceive (port : Cab) (block : List Byte) (uncorrectable : Bool)
  -- host interface (spec/17)
  | bar2Read (offset : BitVec 38) (len : Nat) (errors : List (Nat × MemStatus))
  | bar2Write (offset : BitVec 38) (data : List Byte) (errors : List (Nat × MemStatus))
  | bar2ApertureWrite (q : Req) (val : List Byte)
  | msixUnmask (vector : Fin 2048)
  | hostReadCompletion (tag : Nat) (status : MemStatus) (timedOut : Bool) (data : List Byte)
  | hostLinkDown
  | busMasterEnable (on : Bool)
  | windowWrite (offset : BitVec 23) (data : List Byte)
  | windowRestart (q : Req) (val : List Byte)
  -- reset, power, start-up (spec/18)
  | supplyFault (rail : Option Cab)
  | rstIn (lowNs : Nat)
  | softwareResetD (q : Req) (val : List Byte)
  | softwareResetC (q : Req) (val : List Byte)
  | softwareResetB (q : Req) (val : List Byte)
  | releaseReset (q : Req) (val : List Byte)
  | pllLockLoss (dom : Fin 25)
  | clockControllerUpset (spine : Cab) (bothBad : Bool)
  | steeringParityError (g : Tile)
  | routeEntryParityError (multicast : Bool) (table : Fin 17) (entry : BitVec 12)
  | complexCriticalError (primary : Bool)
  | resetRelease (src : ResetSource)
  | deviceExit (step : Fin 11) (failures : List Nat)
  | cabinetExit (c : Cab) (step : Fin 6) (failures : List Nat)
  | cabinetPark (c : Cab)
  | cabinetWake (c : Cab)
  -- identity, update (spec/19)
  | begin (q : Req)
  | updateEraseDone
  | updateChunk (q : Req) (val : List Byte) (programFailed : Bool)
  | updateFromMemory (q : Req) (val : List Byte) (programFailed : Bool)
  | verify (q : Req)
  | activate (q : Req) (bootFailed : Bool)
  | cancel (q : Req)
  | keyEnroll (q : Req) (val : List Byte)
  | keyRevoke (q : Req) (val : List Byte)
  | attestNonce (q : Req) (val : List Byte)
  -- the rows added at the end of the table
  | passBoundary (g : Tile) (x : Ctx) (cycles : Nat)
  | linkReplay (t : Nat) (link : Byte)
  | hostLinkUp (width : BitVec 8) (rate : BitVec 16)
  | spselFall
  | prbsLock (lane : Fin 192) (wrongSymbols : Nat)
  | linkBlockSend (p : Fin 16)
  | updateIr (opcode : Byte)
  | boundaryRegisterUpdate (bits : BitVec 2069)
  -- commands without operands (spec/17, spec/18, spec/20), out of the order of the table
  | hotReset
  | powerOn
  | perst
  | thermalTrip
  | watchdogExpiry
  | fenceStoreError
  | standbyMirrored
  | testLogicReset
deriving DecidableEq, Repr

end Sys2Proof
end

