-- ==== Sys2Proof/WellFormed.lean ====
section
/-! DEFINITION. When a command's operands are ones that can come from outside: sizes of segments, frames, pieces
and blocks. Register and table numbers are bounded by their types. -/

namespace Sys2Proof

/-- A segment carries a header and at most the transport's payload (R79, R85). -/
def segOk (tr : Transport) (l : List Byte) : Bool :=
  match tr with
  | .fna | .fnb => l.length ≤ 64
  | _ => l.length ≤ 256

/-- A fault report names a pass only with its drawer (R159). -/
def FaultInfo.ok (f : FaultInfo) : Bool :=
  (f.ctx.isNone || f.tile.isSome) && (f.shelf.isNone || f.tile.isSome) && (f.site.isNone || f.shelf.isSome)

/-- A cut flit carries at most 240 payload bytes (R394). -/
def CutFlit.ok (f : CutFlit) : Bool := f.payload.length ≤ 240

/-- The operands of a command are well formed. -/
def Instr.wellFormed : Instr → Bool
  | .readGroup _ _ _ _ l => l.length ≤ 65536
  | .write _ _ _ _ _ v _ => v.length ≤ 65536
  | .linearMapWrite _ _ d _ => 1 ≤ d.length && d.length ≤ 4096
  | .groupStage _ _ _ _ _ v => v.length ≤ 65536
  | .segmentReceive _ tr _ b => segOk tr b
  | .canOapFrame _ _ _ d => d.length ≤ 64
  | .resetCommandFrame _ _ _ d => d.length ≤ 64
  | .reqTailWrite _ _ slots => slots.all (·.length = 256)
  | .peerOapSegment _ _ b => b.length ≤ 256
  | .oapsegUpdate _ b => b.length = 256
  | .faultReport _ f => f.ok
  | .benchSelection _ sel _ => sel.length = 16
  | .channelAdmit _ _ offers => offers.length ≤ 64
  | .cxlReadResponse _ _ _ d => d.length = 64
  | .fabricPortBeat _ _ d => d.length = 64
  | .targetWordReceive _ w _ _ => w.length = 64
  | .burstStart _ _ len => len.toNat ≤ 32
  | .cutFrameReceive _ f => f.ok
  | .freezeNotice f => f.ok
  | .linkBlockReceive _ _ b _ => b.length = 272
  | .targetBlockReceive _ b _ => b.length = 68
  | .bar2Read _ n _ => 1 ≤ n && n ≤ 4096
  | .bar2Write _ d _ => 1 ≤ d.length && d.length ≤ 4096
  | .windowWrite _ d => 1 ≤ d.length && d.length ≤ 4096
  | _ => true

end Sys2Proof
end

