-- ==== Sys2Proof/Config.lean ====
section
/-! DEFINITION. What an implementation or one manufactured device fixes (fuses, straps, keys), the
algorithms the spec names without giving their arithmetic, and the free values: opaque constants, so that no
proof can see what they are. -/

namespace Sys2Proof

/-- Free values: the n-th value that the spec leaves open (log 1). -/
opaque Config.freeValue : Nat → BitVec 64

/-- Fuse: the device is a TMN-8150-192L, else a TMN-8150-144L (R1, R56). -/
opaque Config.is192L : Bool
/-- Fuse constants of R56 and of spec/19: values set at manufacture. -/
opaque Config.serialNumber : List Byte
opaque Config.siliconStepping : BitVec 16
opaque Config.manufactureDate : BitVec 32
opaque Config.bootRomVersion : BitVec 32
opaque Config.identityCertificate : List Byte
opaque Config.vendorPublicKey : List Byte
opaque Config.rollbackFloor : BitVec 16
/-- Layout version of the dictionary that the running firmware serves, by its image (R56). -/
opaque Config.dictionaryVersion : List Byte → BitVec 16

/-- Ordering number (R56): ASCII of TMN-8150-192L or TMN-8150-144L. -/
def Config.orderingNumber : List Byte :=
  [0x54, 0x4D, 0x4E, 0x2D, 0x38, 0x31, 0x35, 0x30, 0x2D] ++
    (if Config.is192L then [0x31, 0x39, 0x32] else [0x31, 0x34, 0x34]) ++ [0x4C]
/-- Density of each GDDR7 device in Gbit (R56). -/
def Config.gddrDensity : Nat := if Config.is192L then 32 else 24
/-- Populated GDDR7 of one cabinet in bytes: 24 or 18 GiB (R37). -/
def Config.gddrPerCabinet : Nat := if Config.is192L then 0x600000000 else 0x480000000
/-- Populated GDDR7 in bytes (R56). -/
def Config.gddrCapacity : Nat := 8 * Config.gddrPerCabinet

/-- Where the memory service places things in a cabinet's GDDR7, in units of their size: a translation table by
cabinet, ASN, level and prefix; a frame by cabinet, ASN, size and number (log 25). -/
opaque Config.tableAt : Nat → Nat → Nat → Nat → BitVec 64
opaque Config.frameAt : Nat → Nat → Bool → Nat → BitVec 64

/-- Order of the spilled accumulators in the spill area of an operation, by h, w, M blocks, N blocks and cell: cells stand
by rising key, equal keys by cell (R150, R192, log 5). -/
opaque Config.spillOrder : Nat → Nat → Nat → Nat → Nat → Nat

/-- SHAKE256 with an output length in bytes (R502). -/
opaque Config.shake256 : List Byte → Nat → List Byte
/-- Ed448 verification: public key, message, signature (R502). -/
opaque Config.ed448Verify : List Byte → List Byte → List Byte → Bool
/-- Ed448 public key of a private key, and the signature by one over a message (R502, R503). -/
opaque Config.ed448Public : List Byte → List Byte
opaque Config.ed448Sign : List Byte → List Byte → List Byte
/-- The 57-byte seed fused at manufacture (R503). -/
opaque Config.seed : List Byte
/-- The identity keys and the storage key, from the seed with TMN-ID or TMN-STORE before it (R503). The two secrets are used
by the signature engine alone: no object and no JTAG register shows them. -/
def Config.identityPrivateKey : List Byte := Config.shake256 ([0x54, 0x4D, 0x4E, 0x2D, 0x49, 0x44] ++ Config.seed) 57
def Config.storageKey : List Byte :=
  Config.shake256 ([0x54, 0x4D, 0x4E, 0x2D, 0x53, 0x54, 0x4F, 0x52, 0x45] ++ Config.seed) 32
def Config.identityPublicKey : List Byte := Config.ed448Public Config.identityPrivateKey
/-- Signature by the identity key over a message (R514). -/
def Config.identitySign (m : List Byte) : List Byte := Config.ed448Sign Config.identityPrivateKey m
/-- AES-256-GCM: the plaintext bytes of ciphertext so far, by key and IV; and the tag, by key, IV, associated data and
ciphertext (R364). -/
opaque Config.gcmStream : List Byte → List Byte → List Byte → List Byte
opaque Config.gcmTag : List Byte → List Byte → List Byte → List Byte → List Byte
/-- An Ed448 public key decodes to a valid point (R502). -/
opaque Config.ed448Point : List Byte → Bool

/-- The record of an operating point for a cabinet in the manufacturing data area, by cabinet and point 0–3 for 28, 32, 36
and 40 Gbit/s: delays and timing set; and the CRC-32C written beside it (R245). The spec gives them no layout. -/
opaque Config.pointRecord : Nat → Nat → List Byte
opaque Config.pointCrc : Nat → Nat → BitVec 32
/-- Capacity in bytes of the expander on a CXL port, 0 where there is none (R256). -/
opaque Config.cxlExpander : Nat → Nat

/-- Qorben's PCI-SIG vendor identifier, and the revision in configuration space (R459). -/
opaque Config.pciVendor : BitVec 16
opaque Config.pciRevision : BitVec 8
/-- Qorben's JEP106 manufacturer code and the stepping's index, in the TAP's identification register (R536). -/
opaque Config.jep106 : BitVec 11
opaque Config.steppingIndex : BitVec 4

/-! ## The programmable fabric of a cabinet (spec/11)

The spec gives each frame type its subject (R361) and no bit layout within it, and no list of a multiplexer's sources: both
are opaque here (log 28). -/

/-- A source of routing multiplexers (R316, R318, R323–R327, R331, R332, R336, R391). -/
inductive FabSource where
  | wire (n : Nat)
  | o6 (cell : Nat)
  | o5 (cell : Nat)
  | flipFlop (n : Nat)
  /-- bit i of the data output of port A or B of a memory block -/
  | blockData (b : Nat) (portB : Bool) (i : Nat)
  /-- 0 FULL, 1 ALMOST_FULL, 2 EMPTY, 3 ALMOST_EMPTY, 4 OVERFLOW, 5 UNDERFLOW, 6 ERR -/
  | blockFlag (b i : Nat)
  /-- of local tile t: 0 OUT VALID, 1 IN READY, 2 + i OUT DATA bit i -/
  | tilePort (t i : Nat)
  /-- of word w of the target bridge's RX: 0 VALID, 1 KIND, 2 GAP, 3 + i DATA bit i -/
  | bridgeRx (w i : Nat)
  | bridgeTxReady
  /-- bit i of the deserialiser of pin n of the cabinet's first or second bank -/
  | pin (bank n i : Nat)
  /-- bit i of cut input register r -/
  | cutInput (r i : Nat)
deriving DecidableEq, Repr

/-- What one multiplexer drives: a wire, or an input of a cell, a cluster, a memory block or a hardened port (R317, R318,
R321, R322). -/
inductive FabSink where
  | wire (n : Nat)
  | cellInput (cell i : Nat)
  | bypass (flipFlop : Nat)
  | clockEnable (cluster i : Nat)
  | setReset (cluster i : Nat)
  | writeData (cluster : Nat)
  | blockAddress (b : Nat) (portB : Bool) (i : Nat)
  | blockInput (b : Nat) (portB : Bool) (i : Nat)
  | blockWrite (b : Nat) (portB : Bool)
  | blockRead (b : Nat) (portB : Bool)
  | pinData (bank n i : Nat)
  | pinEnable (bank n : Nat)
deriving DecidableEq, Repr

/-- The sources of a multiplexer, in the order of their numbers 1 to n. -/
opaque Config.sources : FabSink → List FabSource
/-- Where bit i of a multiplexer's select field stands: FAR within the cabinet, and bit of the frame. -/
opaque Config.selectBit : FabSink → Nat → Nat × Nat
/-- Where a setting's bit stands among the frames of its column segment: for cluster z of a logic segment, for block b of a
memory segment, for a port, for the target bridge; for loops 0–15 and networks 16–47 of the clock column. -/
opaque Config.clusterBit : Nat → Nat → Nat
opaque Config.blockBit : Nat → Nat → Nat
opaque Config.portBit : Nat → Nat
opaque Config.bridgeBit : Nat → Nat
opaque Config.clockBit : Nat → Nat → Nat
/-- The I/O frame that holds a pin's settings, and where their bits stand in it. -/
opaque Config.pinMinor : Nat → Nat
opaque Config.pinBit : Nat → Nat → Nat
/-- Position of a wire's driver; and the wire whose boundary cell stands at an edge between positions, by row and number of
the crossing (R340, R365). -/
opaque Config.wirePos : Nat → Nat
opaque Config.crossing : Nat → Nat → Nat
/-- Value of a signal in a combinational loop, at an instant (R320). -/
opaque Config.unsettled : Nat → Nat → FabSource → Bool
/-- Level that what is outside puts on a pin, by bank, pin and instant; also what an input buffer that is off gives. -/
opaque Config.outside : Nat → Nat → Nat → Bool
/-- What the eight bits beside 32 data bits store with ECC enabled (R324): the code is not given. -/
opaque Config.checkBits : BitVec 32 → BitVec 8
/-- The 13-bit SEC-DED check of a frame's bits (R359): the code is not given. -/
opaque Config.frameCode : List Bool → BitVec 13
/-- Straps tied on the carrier: NODE_ID, BOOT_SEL, DEBUG_EN (R519, log 29). -/
opaque Config.strapNodeId : BitVec 7
opaque Config.strapBootSel : BitVec 2
opaque Config.strapDebugEn : Bool

end Sys2Proof
end

