-- ==== Sys2Proof/Machine/State.lean ====
section
/-! DEFINITION. The state of the block: plain data holding every register, buffer, queue, mode and pin the
spec gives the device, the commands waiting for it, and the state after reset. Sparse tables hold only what
differs from the reset value; INVENTORY.md says which rule names each piece. -/

namespace Sys2Proof.Machine

/-! ## The object dictionary (spec/02) -/

/-- A value of the dictionary: a number in its type's two's complement or unsigned bits, or bytes (R45). -/
inductive Val where
  | num (n : Nat)
  | bytes (l : List Byte)
deriving DecidableEq, Repr

/-- The types of R45. -/
inductive ObjType where
  | bool | u8 | u16 | u32 | u64 | i8 | vstr | octets
deriving DecidableEq, Repr

/-- The access rights of R47. -/
inductive Access where
  | const | ro | rw | wo | rwp | w1c
deriving DecidableEq, Repr

/-- The allowed values of a meaning column (R46). -/
inductive Allow where
  | any
  | range (lo hi : Nat)
  | oneOf (l : List Nat)
  | within (mask : Nat)
  /-- 0, or a power of two within the bounds -/
  | ring (lo hi : Nat)
  | aligned (n : Nat)
  | len (lo hi : Nat)
  /-- decided by `allowedByRule` (Operands) -/
  | rule
deriving DecidableEq, Repr

/-- One row of an object table: `subs` subindices from `key`, at `reps` indices `stride` apart. -/
structure Row where
  key     : Nat
  subs    : Nat
  reps    : Nat
  stride  : Nat
  ty      : ObjType
  acc     : Access
  pers    : Bool
  /-- the name ends in State (R66) -/
  isState : Bool
  dflt    : Val
  allow   : Allow
deriving DecidableEq, Repr

/-- A pending event of one master (R65). -/
structure Event where
  key   : Nat
  bits  : Nat
  count : Nat
  val   : Val
  time  : Nat
deriving DecidableEq, Repr

/-- A master's event queue and transport bookkeeping (R67, R83, R93, R96). -/
structure MasterQ where
  q         : List Event
  /-- events dropped since the last overflow event -/
  dropped   : Nat
  firstDrop : Nat
  /-- events sent, the SEQUENCE of the next -/
  sent      : Nat
  lastPort  : CanPort
  vc2Dev    : Option Nat
deriving DecidableEq, Repr

/-- An open commit group (R57, R58). -/
structure Group where
  openedAt : Nat
  staged   : List (Nat × List Byte)
  failed   : Option (Nat × Nat)
deriving DecidableEq, Repr

/-- A partial message of R86: the first segment's header, the SEGMENT expected next, the payload so far. -/
structure Partial where
  head : List Byte
  next : Nat
  pay  : List Byte
  last : Nat
deriving DecidableEq, Repr

/-- A segment on its way to a master: claimant, transport, port, and whether it carries an event. -/
structure OutSeg where
  master  : Nat
  tr      : Transport
  port    : CanPort
  isEvent : Bool
  bytes   : List Byte
deriving DecidableEq, Repr

/-- What has left the device, newest first. -/
inductive Out where
  | can (port : CanPort) (id : Nat) (data : List Byte)
  | hostWrite (addr : Nat) (data : List Byte)
  | msix (vector : Nat)
  /-- the answer of a linear-map or BAR2 read (R53, R464) -/
  | hostData (data : List Byte)
  | completerAbort
  /-- the segment that a capture of OAPSEG loads (R97) -/
  | jtag (bytes : List Byte)
  /-- a link block or an idle block on a peer port (R441) -/
  | block (port : Nat) (bytes : List Byte)
  /-- PAM4 symbols that a lane sends, by their index before the polarity of LaneInvert (R431–R434) -/
  | symbols (lane : Nat) (indices : List (BitVec 2))
  /-- a beat that fabric logic takes from a tile's fabric port (R331) -/
  | fabricOut (tile : Nat) (data : List Byte)
  /-- a word that fabric logic takes from a target bridge: KIND, GAP (R337) -/
  | bridgeOut (port : Nat) (kind gap : Bool) (data : List Byte)
  /-- a signal of a fabric DMA request port (R351) -/
  | dmaPort (chan kind len : Nat)
deriving DecidableEq, Repr

structure DictState where
  /-- event queues by claimant ID -/
  queues   : Tab MasterQ
  groups   : Tab Group
  /-- masters whose group the dictionary aborted: the DETAIL of GROUP_ABORTED -/
  aborted  : Tab Nat
  /-- partial messages by claimant ID × 8 + transport -/
  partials : Tab Partial
  /-- segments held until their transport has room, oldest first -/
  held     : List OutSeg
  /-- segments waiting for a JTAG capture, oldest first (R97) -/
  jtagOut  : List (List Byte)
deriving DecidableEq, Repr

/-! ## Ownership (spec/03) -/

/-- A claim taking part in the open window (R100). -/
structure Claim where
  id   : Nat
  prio : Nat
  tr   : Transport
  port : CanPort
  seq  : Nat
deriving DecidableEq, Repr

structure OwnState where
  leaseEnd   : Nat
  window     : Option (Nat × List Claim)
  /-- the instant by which the named successor must accept (R104) -/
  acceptBy   : Option Nat
deriving DecidableEq, Repr

/-! ## Persistent store (spec/02) -/

/-- A record waiting for the flash: INDEX, SUBINDEX, FLAGS, PAYLOAD (R69). -/
structure PendRec where
  idx   : Nat
  sub   : Nat
  flags : Nat
  pay   : List Byte
deriving DecidableEq, Repr

structure StoreState where
  /-- byte addresses of the SPI flash; an unlisted byte reads 0xFF -/
  flash    : List Host.Cell
  queue    : List PendRec
  nextSeq  : Nat
  /-- offset in the active area at which the next record starts -/
  writePos : Nat
  /-- for each StoreSync not yet answered, the records still to become durable -/
  syncs    : List Nat
  /-- a compaction copy into the other area is running (R76), or the copy of R75 into the active area -/
  copying  : Bool
  loadCopy : Bool
  /-- the complex whose SPI controller drives the flash, 0 or 4; the other holds its outputs at high impedance (R28) -/
  driver   : Nat
  /-- failed attempts at the record in front of the queue (R71) -/
  tries    : Nat
deriving DecidableEq, Repr

/-! ## Tiles (spec/05, spec/06) -/

/-- A vector register: lanes and block exponent (R179, R199). -/
structure VReg where
  lanes : List (BitVec 32)
  bexp  : Int
deriving DecidableEq, Repr

/-- An integer accumulator: 80-bit lanes, exponent, EMPTY (R179, R200). -/
structure MAcc where
  lanes : List Int
  ema   : Int
  empty : Bool
deriving DecidableEq, Repr

/-- An address generator (R179, R203). -/
structure AGen where
  base    : BitVec 20
  ptr     : BitVec 20
  stride  : BitVec 24
  lstride : BitVec 24
  clog2   : BitVec 5
deriving DecidableEq, Repr

/-- The search state (R179, R204). -/
structure Search where
  value : BitVec 32
  bexp  : Int
  index : BitVec 32
  fix   : Bool
  nan   : Bool
  empty : Bool
deriving DecidableEq, Repr

/-- The save image of a thread context (R179). -/
structure Image where
  v        : Tab VReg
  ma       : Tab MAcc
  s        : Tab U64
  ag       : Tab AGen
  lm       : Tab (BitVec 128)
  search   : Search
  pc       : Nat
  ringBase : Nat
  ringLog2 : Nat
  ringNext : Nat
  seq      : Nat
  semaSet  : BitVec 32
deriving DecidableEq, Repr

/-- Thread states of R184, in code order. -/
inductive ThreadSt where
  | idle | loading | ready | running | blocked | parked | parkedReady | halted | stopped | refused
deriving DecidableEq, Repr

/-- Drawer states of R163. -/
inductive DrawerSt where
  | free | assigned | issuing | draining | stopping | discarding | holding | stopped
deriving DecidableEq, Repr

/-- An array operation in a drawer: the fields of R191 with the scalars read at issue. -/
structure ArrayOp where
  word    : BitVec 120
  seq     : Nat
  fmtA : Nat
  fmtB : Nat
  fmtAcc : Nat
  fmtOut : Nat
  stat : Nat
  init : Bool
  dest : Bool
  outdim : Bool
  denorm : Bool
  record : Bool
  aOff : Nat
  aFs : Nat
  bOff : Nat
  bFs : Nat
  cOff : Nat
  cFs : Nat
  spill : Nat
  m : Nat
  n : Nat
  k : Nat
  sclA : BitVec 32
  sclB : BitVec 32
  sclC : BitVec 32
  slot : Nat
  order : Nat
  offBase : Nat
  /-- a coarse-scale check of R114 failed -/
  badScale : Bool
deriving DecidableEq, Repr

/-- Counts and sticky flags of an operation (R135): INVALID 1, OVERFLOW 2, FLUSHED 4, SATURATED 8. -/
structure Counts where
  sat   : Nat
  flush : Nat
  flags : Nat
deriving DecidableEq, Repr

/-- Totals of a job (R136). -/
structure JobTotals where
  ops : Nat
  cnt : Counts
deriving DecidableEq, Repr

/-- A collector entry (R172). -/
structure Entry where
  slot   : Nat
  order  : Nat
  offset : Nat
  fmt    : Nat
  sticky : Nat
  valid  : BitVec 32
  data   : List (BitVec 32)
deriving DecidableEq, Repr

/-- The lines of one operand over one K-group, rows of A or columns of B: element codes and fine-scale bytes by line.
A stationary set of a drawer holds such lines (R137, R147, R148). -/
structure Lines where
  blk   : Nat
  kg    : Nat
  codes : List (List Nat)
  fines : List (List Nat)
deriving DecidableEq, Repr

/-- What a pass past its boundary holds until it commits (R137, R154): the working accumulators, what they counted, the
input elements read flushed, and the blocks skipped. -/
structure PassWork where
  pass    : Nat
  acc     : List (BitVec 32)
  cnt     : Counts
  flushed : List Nat
  skips   : Nat
deriving DecidableEq, Repr

/-- The drawer bound to a thread context (R142, R163, R165). -/
structure Drawer where
  st      : DrawerSt
  r0 : Nat
  c0 : Nat
  h  : Nat
  w  : Nat
  jobId   : Nat
  rt      : Bool
  rtLevel : Nat
  level   : Nat
  /-- a ramp-down is in progress (R166) -/
  ramping : Bool
  /-- a pre-emption request is pending (R158) -/
  preempt : Bool
  /-- a stop for recovery is pending, or the drawer is Stopped for recovery alone (R275–R277) -/
  recover : Bool
  /-- rows whose steering hold covers the drawer (R162) -/
  hold    : List Nat
  op      : Option ArrayOp
  pendOp  : Option ArrayOp
  /-- the pass issuing, or the next to issue -/
  pass    : Nat
  /-- that pass has begun issuing: what it reads stays locked until it commits, through a discard and a stop (R155) -/
  begun   : Bool
  /-- the stationary sets (R137, R148) -/
  sets    : List Lines
  /-- passes past their boundary and not yet committed, oldest first -/
  await   : List PassWork
  /-- signatures of faults found on uncommitted passes: pass, place, mechanism, cell, syndrome (R273) -/
  sigs    : List (List Nat)
  /-- committed accumulators by C block; with a stationary operand they stand in the spill area instead (R137, R150) -/
  accs    : Tab (List (BitVec 32))
  /-- counts of the committed passes of the running operation -/
  cnt     : Counts
  /-- input elements of the operation already counted as flushed (R135) -/
  counted : List Nat
  /-- converted collector entries not yet in the output queue -/
  outList : List Entry
  converted : Bool
  /-- the drawer's totals (R136), and the operations that they count -/
  total   : Counts
  ops     : Nat
deriving DecidableEq, Repr

/-- Thread control of one context (R178, R182–R184). -/
structure Thread where
  st        : ThreadSt
  winBase   : Nat
  winLen    : Nat
  /-- the operation word that blocks the context -/
  blockedOn : Option (BitVec 128)
  blockedAt : Nat
  lastIssue : Nat
  nextIssue : Nat
  yielded   : Bool
  /-- an array operation that had not started returned at a stop, to be issued again first (R209) -/
  again     : Option ArrayOp
deriving DecidableEq, Repr

/-- One thread context: save image, thread, drawer. -/
structure Context where
  img : Image
  th  : Thread
  dr  : Drawer
deriving DecidableEq, Repr

/-- What a result in flight writes when it lands (R185, R188). -/
inductive Landing where
  | scalar (i : Nat) (v : U64)
  | agen (i : Nat) (a : AGen)
  | mask (i : Nat) (m : BitVec 128)
  | ring (base log2 : Nat)
  | sema (i : Nat) (add : BitVec 32)
  | vreg (i : Nat) (v : VReg)
  | macc (i : Nat) (a : MAcc)
  | mem (writes : List (Nat × Byte))
  | search (x : Search)
  | srd (i : Nat) (v : U64) (j : Nat) (w : U64)
deriving DecidableEq, Repr

/-- A result in flight: its context, landing cycle, and completion record (opcode, RECORD, counts), if any. -/
structure Flight where
  ctx  : Nat
  due  : Nat
  what : Landing
  seq  : Nat
  rec? : Option (Nat × Bool × Counts)
deriving DecidableEq, Repr

/-- A shadow register bank: its context and whether it is swapping (R180). -/
structure Bank where
  ctx      : Option Nat
  swapping : Bool
deriving DecidableEq, Repr

/-- One tile. -/
structure TileS where
  /-- advancing cycles of the sequencer (R185, R186) -/
  acyc     : Nat
  /-- the context that issued last, and its consecutive issues -/
  issuer   : Option Nat
  runLen   : Nat
  lastRt   : Nat
  banks    : List Bank
  ctxs     : Tab Context
  flight   : List Flight
  /-- program store by word index (R178) -/
  prog     : Tab (BitVec 128)
  sema     : Tab (BitVec 32)
  /-- output queue: entry, context, BCLK cycles its head has waited (R171) -/
  queue    : List (Entry × Nat × Nat)
  /-- fabric port: beats toward user logic and from it (R331) -/
  portOut  : List (List Byte)
  portIn   : List (List Byte)
  /-- first bench selection's failing sites, while the second runs (R146) -/
  bench    : Option (List (Nat × Nat))
deriving DecidableEq, Repr

/-- A chain of a collector slot (R173): combined so far, next ORDER, flags. -/
structure Chain where
  acc   : Option Entry
  next  : Nat
  cnt   : Counts
deriving DecidableEq, Repr

structure Slot where
  n      : Nat
  len    : Nat
  dest   : Nat
  jobId  : Nat
  chains : Tab Chain
deriving DecidableEq, Repr

/-- The reduction collector of a cabinet (R173–R177). -/
structure Collector where
  slots   : Tab Slot
  staging : List Entry
deriving DecidableEq, Repr

/-! ## Streams (spec/07) -/

/-- Stream states of R239, in code order. -/
inductive StreamSt where
  | closed | opening | running | halted | saved | done | closing | error
deriving DecidableEq, Repr

/-- The fields of a stream descriptor (R217). -/
structure StreamDesc where
  base     : Nat
  dir      : Nat
  rt       : Bool
  mcast    : Bool
  ringLog2 : Nat
  ringOff  : Nat
  counts   : List Nat
  strides  : List Int
  rate     : Nat
  winLog2  : Nat
deriving DecidableEq, Repr

/-- A receiver of a multicast (R229–R232); receiver 0 stands for the stream itself. -/
structure Recv where
  tile      : Nat
  delivered : Nat
  freed     : Nat
  attached  : Bool
deriving DecidableEq, Repr

/-- A unit requested and not settled: its number, device address, and the bytes read from local memory (read) or
from the ring (write). -/
structure OutUnit where
  n    : Nat
  pa   : Nat
  data : List Byte
deriving DecidableEq, Repr

/-- One open stream (R212–R241). -/
structure StreamS where
  st      : StreamSt
  jobId   : Nat
  tile    : Nat
  ctx     : Nat
  descOff : Nat
  desc    : StreamDesc
  total   : Nat
  /-- units requested -/
  issued  : Nat
  /-- units translated, up to 32 ahead of issue (R222) -/
  looked  : Nat
  /-- multicast: the head h, units fetched into the window (R229) -/
  fetched : Nat
  delivered : Nat
  freed   : Nat
  outst   : List OutUnit
  recv    : List Recv
  /-- window base device address -/
  window  : Nat
  /-- the stream halts at unit `haltAt` once the units below it have settled: cause and virtual address (R234, R235) -/
  halting : Option (Nat × Nat)
  haltAt  : Nat
  /-- cause of the last record -/
  cause   : Nat
  record  : List Byte
  error   : Nat
  halts   : Nat
  /-- units issued in this window within the drawer's reservation (R302) -/
  rtTaken : Nat
  /-- units freed in the running and in the previous measuring window (R225) -/
  freedNow  : Nat
  freedPrev : Nat
  /-- the multicast source is stalled by a refused detach, and by a full window (R231) -/
  stallLag : Bool
  stallWin : Bool
  /-- beats of the fabric-in unit being assembled, or left to send of the fabric-out unit (R227) -/
  beats   : List Byte
  /-- an SOPEN that came during Closing takes effect at its end (R239) -/
  reopen  : Option (Nat × Nat × Nat)
deriving DecidableEq, Repr

/-! ## Die-to-die bridges (spec/01) -/

/-- The arbiter of one direction of a bridge (R41, R42): flits sent since the last bulk flit, and since the last
management flit. -/
structure DieBridge where
  sinceBulk : Nat
  sinceMgmt : Nat
deriving DecidableEq, Repr

/-! ## Memory service (spec/08) -/

/-- A request in a channel queue (R247, R248), with its bank and row. -/
structure ChanEnt where
  tag  : Nat
  isWrite : Bool
  realTime : Bool
  bank : Nat
  row  : Nat
deriving DecidableEq, Repr

/-- A GDDR7 channel (R247–R252). -/
structure Chan where
  /-- queued requests, oldest first -/
  queue   : List ChanEnt
  /-- banks in in-order mode, each with the tags of the writes matched at entry -/
  inOrder : List (Nat × List Nat)
  /-- open row of each bank -/
  open?   : Tab Nat
  /-- class whose turn it is, and the admissions left of its weight -/
  turn    : Nat
  credit  : Nat
  draining : Bool
  refreshed : Tab Nat
deriving DecidableEq, Repr

/-- How far a page fault is served (R263). -/
inductive FaultStage where
  | queued
  /-- waiting for the eviction of `page` from frame number `frame` of its quota (R264) -/
  | evicting (frame page : Nat)
  /-- being copied into frame number `frame` of its quota -/
  | copying (frame : Nat)
  /-- no frame and no victim (QUOTA_WAIT) -/
  | waiting
deriving DecidableEq, Repr

/-- A fault in the hands of the memory service: leaf, cabinet, instant, and whether it only pins (R266). -/
structure PageFault where
  asn   : Nat
  va    : Nat
  cab   : Nat
  at?   : Nat
  stage : FaultStage
  pin   : Bool
deriving DecidableEq, Repr

structure MmState where
  faults  : List PageFault
  /-- order in which leaves were last filled into a translation cache: asn × 2^48 + va -/
  fills   : Tab Nat
  nextFill : Nat
  /-- leaves held by the translation caches, newest first: cabinet × 2^56 + asn × 2^48 + page, the leaf, a 2 MiB page -/
  cached  : List (Nat × Nat × Bool)
  /-- frames in use: cabinet, ASN, size, frame number, page -/
  frames  : List (Nat × Nat × Bool × Nat × Nat)
  /-- backing addresses: asn × 2^48 + va of the page -/
  backing : Tab Nat
  /-- pins: stream key and page -/
  pins    : List (Nat × Nat)
  chans   : Tab Chan
  /-- cabinets whose operating point is still to change -/
  changing : List Nat
  /-- register sets of a cabinet's controllers, active and shadow: the record that each holds (R245, R254) -/
  sets    : Tab (List Byte × List Byte)
  /-- interleave set and granularity in force (R257) -/
  cxlSet  : Nat
  cxlGran : Nat
deriving DecidableEq, Repr

/-! ## Health (spec/09) -/

/-- What a rung still has to do. -/
inductive RungWork where
  /-- persistent fault at a site: rung 2 or 3 (R274) -/
  | site (g shelf site : Nat)
  /-- rung 3 for a row that a failed spare test removed (R275) -/
  | row (g shelf : Nat)
  /-- lost drawer state or a retired tile: rung 4 for a job's shard and replica -/
  | replica (jobId shard replica : Nat)
  /-- rung 5 for a job -/
  | shard (jobId : Nat)
deriving DecidableEq, Repr

/-- The fields of a fault record but SEQUENCE, RUNG and DURATION (R285). -/
structure FaultRec where
  t       : Nat
  code    : Nat
  mech    : Nat
  flags   : Nat
  tile    : Nat
  shelf   : Nat
  site    : Nat
  ctx     : Nat
  cab     : Nat
  ci      : Nat
  cj      : Nat
  job     : Nat
  syn     : Nat
  addr    : Nat
  count   : Nat
deriving DecidableEq, Repr

/-- A rung waiting or in progress, with the record it will form. -/
structure Rung where
  work : RungWork
  record : FaultRec
deriving DecidableEq, Repr

structure HealthState where
  /-- fault log, newest first: sequence, record, and whether a master has read it (R285) -/
  log     : List (Nat × List Byte × Bool)
  /-- instants of the faults of the last 1,000 ms at a site or a tile's shared part, newest first (R273) -/
  marks   : Tab (List Nat)
  rungs   : List Rung
  /-- tiles queued for re-admission, oldest first -/
  readmit : List Nat
  /-- steering registers: sites out of service, by 16 × tile + shelf (R20, R282) -/
  steer   : Tab Nat
deriving DecidableEq, Repr

/-! ## Jobs (spec/10) -/

/-- A job descriptor (R294). -/
structure JobDesc where
  id       : Nat
  prio     : Nat
  resume   : Bool
  layout   : Nat
  bytes    : Nat
  ckpt     : Nat
  slot     : Nat
  interval : Nat
  /-- per cabinet: 64 KiB frames and 2 MiB frames, in MiB -/
  quotas   : List (Nat × Nat)
deriving DecidableEq, Repr

/-- A drawer entry of a layout (R299). -/
structure LDrawer where
  ctx  : Nat
  rt   : Bool
  replica : Nat
  tile : Nat
  row  : Nat
  col  : Nat
  h : Nat
  w : Nat
  fallback : Nat
  rtLevel : Nat
  item : Nat
  shard : Nat
  alt  : Nat
  words : Nat
  prog : Nat
  semas : Nat
  rtUnits : Nat
  omOff : Nat
  omSize : Nat
deriving DecidableEq, Repr

/-- A segment entry (R299) and its index among the entries. -/
structure LSegment where
  idx : Nat
  writable : Bool
  large : Bool
  pinned : Bool
  va : Nat
  backing : Nat
  bytes : Nat
deriving DecidableEq, Repr

/-- A layout record (R298, R299). -/
structure Layout where
  groupSize : Nat
  granules  : List Nat
  drawers   : List LDrawer
  segs      : List LSegment
  /-- cabinet, stream, FALLBACK_FOR -/
  streams   : List (Nat × Nat × Nat)
  /-- device, rank -/
  members   : List (Nat × Nat)
deriving DecidableEq, Repr

/-- Job states of R311. -/
inductive JobSt where
  | queued | placing | running | checkpointing | preempting | recovering | ending
deriving DecidableEq, Repr

/-- A saved drawer: its entry where it stood, image, thread, drawer, operand region and semaphores. -/
structure SavedDrawer where
  entry : LDrawer
  ctx   : Context
  om    : List (Nat × Byte)
  semas : List (Nat × BitVec 32)
deriving DecidableEq, Repr

/-- What a pre-emption or a checkpoint keeps of a job: drawers, streams, open collector slots, totals. -/
structure Saved where
  drawers : List SavedDrawer
  streams : List (Nat × StreamS)
  slots   : List (Nat × Nat × Slot × List Entry)
  totals  : JobTotals
deriving DecidableEq, Repr

/-- A checkpoint slot's contents besides the bytes the spec lays out: n, the job, what was saved and the writable
segments (log 6). -/
structure Ckpt where
  n     : Nat
  jobId : Nat
  saved : Saved
  segs  : List (Nat × List (Nat × Byte))
  /-- run time of the job at the checkpoint -/
  runNs : Nat
  committed : Bool
deriving DecidableEq, Repr

/-- A remote access of a checkpoint or a restore, waiting or under way (R308, R309, R449): a write of its data, or a read
into a segment's copy at an offset. -/
structure Xfer where
  n    : Nat
  dev  : Nat
  addr : Nat
  seg  : Option (Nat × Nat)
  len  : Nat
  data : List Byte
  sent : Bool
deriving DecidableEq, Repr

/-- A job (R290–R312). -/
structure JobS where
  desc   : JobDesc
  layout : Layout
  ring   : Nat
  st     : JobSt
  /-- order of reading (R303) -/
  order  : Nat
  asn    : Nat
  /-- the job holds its ASN and tables: placed once and not yet freed -/
  mapped : Bool
  /-- drawers as placed now -/
  placed : List LDrawer
  /-- when it was placed, for R304 -/
  placedAt : Nat
  /-- streams assigned: keys -/
  streams : List Nat
  /-- granules of stream buffer held: cabinet, first granule, count -/
  granules : List (Nat × Nat × Nat)
  saved  : Option Saved
  /-- a cabinet that held part of its save area was lost or reset since (R312) -/
  saveLost : Bool
  /-- pre-emption chosen while checkpointing (R312) -/
  preemptNext : Bool
  runNs  : Nat
  runFrom : Option Nat
  ckptNs : Nat
  /-- newest committed checkpoint; none before checkpoint 0 -/
  newest : Option Nat
  /-- checkpoint being written -/
  writing : Option Nat
  /-- the hold of R308 at 8,000 ms -/
  gapHold : Bool
  ckptAt : Nat
  /-- status and detail of the end, once it has one -/
  status : Option (Nat × Nat)
  /-- phase of R451 last reported for this device and not yet released -/
  reported : Option Nat
  /-- the group has released the writing of the checkpoint under way (R308) -/
  released : Bool
  /-- step of the checkpoint being written: 0 none yet, 1 COMMIT overwritten, 2 sections written, 3 COMMIT written (R308);
  4 while a restore is under way (R309) -/
  ckptStep : Nat
  /-- its remote accesses still to complete, the number of the next, whether one failed, and what reads brought: segment,
  offset and byte -/
  xfers    : List Xfer
  nextXfer : Nat
  xferBad  : Bool
  gathered : List (Nat × Nat × Byte)
  /-- program and layout bytes read from host memory -/
  hostImg : List (Nat × Byte)
deriving DecidableEq, Repr

structure JobsState where
  jobs    : Tab JobS
  next    : Nat
  /-- completion records waiting, by ring, oldest first: job (0 when none), DONE, bytes -/
  waiting : Tab (List (Nat × Bool × List Byte))
  /-- checkpoint slots by device address -/
  ckpts   : Tab Ckpt
  /-- consecutive low throttle windows (R307) -/
  lowWins : Nat
  /-- group phases reported by members: job × 4096 + rank, phase -/
  phases  : List (Nat × Nat × Nat)
deriving DecidableEq, Repr

/-! ## Peer links and remote access (spec/16) -/

/-- A flit with its envelope (R441). -/
structure Flit where
  vc     : Nat
  mcast  : Bool
  dest   : Nat
  source : Nat
  ttl    : Nat
  body   : List Byte
deriving DecidableEq, Repr

/-- A peer port's link layer (R441–R443) and training (R437, R438). -/
structure PeerPort where
  /-- flits waiting for the port with the input they came by (16: this device), oldest first -/
  queue   : List (Nat × Flit)
  /-- sent and not acknowledged, in SEQ order -/
  retry   : List (Nat × Flit)
  /-- SEQ numbers still to resend -/
  resend  : List Nat
  txSeq   : Nat
  txFresh : Bool
  credits : List Nat
  /-- input served last on each channel -/
  turn    : List Nat
  /-- channel served last of VC3 and VC0, and blocks since the last VC2 block -/
  lastData : Nat
  sinceVc2 : Nat
  rxNext  : Nat
  rxFresh : Bool
  /-- blocks with RESYNC are arriving -/
  rxSync  : Bool
  /-- a NAK is owed, and one has been sent for this loss -/
  nakDue  : Bool
  nakSent : Bool
  /-- buffers freed and not yet returned, by channel -/
  give    : List Nat
deriving DecidableEq, Repr

/-- Training of a port (R437, R438), peer or target. -/
structure PortTrain where
  /-- the port was Up and its link layer's state is kept -/
  kept    : Bool
  /-- since when it has not been Up -/
  downAt  : Nat
  failedWindows : Nat
deriving DecidableEq, Repr

/-- What a peer port's transmitter has on the way to its lanes (R431–R434). -/
structure LineS where
  /-- the last 58 scrambled bits, the latest in bit 0 -/
  scrambler : BitVec 58
  /-- scrambled bits that fill no codeword yet -/
  bits      : List Bool
  /-- codewords sent since the last marker, modulo 4,096 -/
  count     : Nat
  /-- index sent last on each lane -/
  last      : List (BitVec 2)
deriving DecidableEq, Repr

/-- A remote request outstanding (R449): device, READ or WRITE, local tag's requester. -/
structure RemoteReq where
  dev  : Nat
  read : Bool
  who  : Nat
deriving DecidableEq, Repr

structure NetState where
  ports : Tab PeerPort
  train : Tab PortTrain
  lines : Tab LineS
  /-- VC0 flits delivered and not yet acted on, oldest first: source and body -/
  inbox : List (Nat × List Byte)
  reqs  : Tab RemoteReq
  nextTag : Nat
  /-- finished remote requests by requester -/
  done  : Tab (MemStatus × List Byte)
deriving DecidableEq, Repr
/-! ## Lockstep (spec/14) -/

/-- A cut frame being received or held: source device, step, flits so far, payload, and the DSCLK edge at which it
was complete (R394, R395). -/
structure CutFrame where
  dev     : Nat
  step    : Nat
  flits   : Nat
  payload : List Byte
  edge    : Option Nat
deriving DecidableEq, Repr

structure LockState where
  /-- a step has been started since Idle -/
  started : Bool
  /-- the last started step has not been evaluated yet -/
  evaluating : Bool
  /-- DSCLK edge of its start -/
  startEdge : Nat
  /-- first step after RUN, and the edge E0 (R398) -/
  first  : Nat
  e0     : Option Nat
  /-- proposals met in Idle, applied at the next RUN: F, origin, cause -/
  held   : List (Nat × Nat × Nat)
  frames : List CutFrame
  /-- cut input registers by word (R391) -/
  inRegs : Tab U64
  /-- sampled multiplexer outputs by word (R392) -/
  samples : Tab U64
  /-- committed probe selects waiting for their step: cabinet, step, value (R343) -/
  selects : List (Nat × Nat × List Byte)
  /-- probe selects in effect by cabinet, where they differ from 0 -/
  inEffect : Tab (List Byte)
  /-- DSCLK comes from DREF: the StepMode that took effect at the last RUN (R388) -/
  bound  : Bool
deriving DecidableEq, Repr

/-! ## Trace and checking (spec/15) -/

/-- A trace feed (R411–R426). -/
structure FeedS where
  /-- 0 Off, 1 Waiting, 2 Running, 3 Recovering, 4 Lost -/
  st       : Nat
  /-- tile and context in force -/
  place    : Option (Nat × Nat)
  /-- key of the stream the packer has open -/
  key      : Nat
  /-- its checker ended: Running again only at a RUN (R423) -/
  ended    : Bool
  /-- records formed and not delivered, oldest first: step, whether it is decided already, bytes -/
  queue    : List (Nat × Bool × List Byte)
  /-- delivered and undecided steps, and whether a fault report has named the drawer since (R421) -/
  undecided : List (Nat × Bool)
  gap      : Bool
  first    : Bool
  /-- records formed since RUN -/
  formed   : Nat
  lastStep : Nat
  /-- verdicts read since RUN, and those on their way to the step controller -/
  posted   : Nat
  verdicts : List (List Byte)
  onTime   : Nat
  misses   : Nat
  unknown  : Nat
  late     : Nat
  lost     : Nat
  minSlack : Nat
  /-- capture ring: 0 Off, 1 Armed, 2 Closing, 3 Held; its end E; newest step written -/
  capSt    : Nat
  capEnd   : Nat
  capNewest : Option Nat
  capFirst : Nat
  capLast  : Nat
deriving DecidableEq, Repr

structure TraceState where
  /-- feeds by 16 × cabinet + feed -/
  feeds : Tab FeedS
  /-- mark log, newest first: sequence and record -/
  marks : List (Nat × List Byte)
deriving DecidableEq, Repr


/-! ## Fabric (spec/11) -/

/-- A memory block's queue controller (R323–R327). -/
structure QueueS where
  /-- entries, oldest first -/
  entries   : List (BitVec 80)
  /-- read data last presented -/
  data      : BitVec 80
  overflow  : Bool
  underflow : Bool
  /-- the block's ERR output (R324) -/
  err       : Bool
  /-- reads that the write side has not seen yet, and writes that the read side has not, each with the edges of that side
  since, oldest first; a dual-clock queue only (R326) -/
  lateReads  : List Nat
  lateWrites : List Nat
  /-- RST; and the write side, the read side still held by it (R327) -/
  rst       : Bool
  heldW     : Bool
  heldR     : Bool
deriving DecidableEq, Repr

/-- A memory block in mode 0, 1 or 2 (R323): entries written since its frames were loaded, the data that each port
presents, and its output register. -/
structure BlockS where
  words : Tab (BitVec 80)
  outA  : BitVec 80
  outB  : BitVec 80
  regA  : BitVec 80
  regB  : BitVec 80
deriving DecidableEq, Repr

/-- RX of a target-port bridge (R337): words with KIND and GAP, and whether a loss awaits its GAP. -/
structure BridgeS where
  rx  : List (Bool × Bool × List Byte)
  gap : Bool
deriving DecidableEq, Repr

/-- A region of the fabric, or the static part of all cabinets (R374–R376, R381, R386). -/
structure RegionS where
  image    : Nat
  hdrDig   : List Byte
  bodyDig  : List Byte
  loads    : Nat
  reloads  : Nat
  /-- last loaded by the full configuration -/
  fromFull : Bool
  /-- key slots of its last load: SIGN_SLOT, and ENC_SLOT under ENC -/
  signSlot : Option Nat
  encSlot  : Option Nat
  isoDflt  : Nat
  iso      : List Nat
  /-- boundary outputs with code 0b10 that hold 1 (R340) -/
  latched  : List Nat
  /-- start-up steps in force, by code (R376) -/
  steps    : List Nat
deriving DecidableEq, Repr

structure FabState where
  /-- frames by FAR, 384 bytes each; an unlisted frame is zero -/
  frames  : Tab (List Byte)
  /-- queue controllers by 8192 × cabinet + block -/
  queues  : Tab QueueS
  /-- flip-flops that hold 1, by 5,120,000 × cabinet + number (R315, R317) -/
  ffs     : List Nat
  /-- tables that shift registers and cell RAM have changed since their frames were loaded, by 2,560,000 × cabinet + cell (R316) -/
  cells   : Tab U64
  /-- memory blocks in modes 0 to 2, by 8192 × cabinet + block -/
  blocks  : Tab BlockS
  bridges : Tab BridgeS
  /-- regions by 8 × cabinet + region -/
  regions : Tab RegionS
  /-- the static part -/
  whole   : RegionS
  /-- cabinets whose fabric a C reset has cleared since the last full load: their static part is not configured -/
  bare    : List Nat
  /-- voltages of the GPIO banks in force, tenths of a volt (R334) -/
  volts   : List Nat
deriving DecidableEq, Repr

/-! ## Fabric DMA (spec/12) -/

/-- Channel states of R356, in code order. -/
inductive DmaSt where
  | idle | fetching | running | halted | aborting | lost
deriving DecidableEq, Repr

/-- A descriptor (R347). -/
structure DmaDesc where
  addr    : Nat
  len     : Nat
  queue   : Nat
  dir     : Nat
  trigger : Bool
  confirm : Bool
  event   : Bool
  prio    : Nat
  bufLog2 : Nat
  burst   : Nat
  next    : Nat
deriving DecidableEq, Repr

/-- A beat in a channel buffer: its number in the descriptor, the remote request that will bring its data, its bytes. -/
structure DmaBeat where
  i    : Nat
  who  : Nat
  data : List Byte
deriving DecidableEq, Repr

/-- A channel of a fabric DMA engine (R345–R357). -/
structure DmaChan where
  st     : DmaSt
  cur    : Nat
  desc   : Option DmaDesc
  /-- beats issued to memory -/
  issued : Nat
  /-- first beat and length of the started burst; length 0 with none started -/
  first  : Nat
  burst  : Nat
  /-- channel buffer, in beat order -/
  buf    : List DmaBeat
  /-- write beats that left, newest 32, kept for RESUME (R355) -/
  kept   : List DmaBeat
  /-- remote writes not yet acknowledged (R353), with their beats -/
  acks   : List (Nat × Nat)
  /-- the last burst has ended and arrival is awaited -/
  confirming : Bool
  /-- the burst repeats beats of an ended one: no DONE is given for it -/
  silent : Bool
  /-- REQ as last seen (R351) -/
  req    : Bool
  errAddr : Nat
  errInfo : Nat
  beats  : Nat
  late   : Nat
  /-- remote requests made, for their requester numbers -/
  asked  : Nat
deriving DecidableEq, Repr

structure DmaState where
  /-- channels by 32 × cabinet + channel -/
  chans : Tab DmaChan
  /-- channel granted last, by cabinet, direction and level (`grantKey`); 32 more once a new burst of it has started (R352) -/
  last  : Tab Nat
deriving DecidableEq, Repr

/-! ## Configuration and scrubbing (spec/13) -/

/-- The bitstream the loader serves (R363–R373). -/
structure LoadS where
  src    : Nat
  /-- KIND, cabinet and region of the target, once known -/
  kind   : Nat
  cab    : Nat
  reg    : Nat
  /-- address of SYNC: device memory for sources 4 and 6, flash for source 5 -/
  addr   : Nat
  /-- bytes read from host memory for a source in the host window -/
  host   : List (Nat × Byte)
  /-- bytes of a port or of the window taken and not yet processed -/
  raw    : List Byte
  /-- header, descriptor and signature: bytes 0 to 211 + D -/
  hdr    : List Byte
  /-- body bytes processed -/
  pos    : Nat
  /-- body bytes taken, for the digest and the tag -/
  cipher : List Byte
  /-- scrub reload of one region from the full image: 8 × cabinet + region (R382) -/
  only   : Option Nat
  far    : Nat
  seq    : Nat
  dly    : Nat
  /-- frames left of the FRAMES packet being processed -/
  left   : Nat
  /-- start-up steps begun -/
  stepNo : Nat
  /-- cabinets whose frames are no longer written: lost, or in C reset, since the load began (R378) -/
  gone   : List Nat
  /-- result of a failure, while its target is being cleared -/
  failed : Bool
deriving DecidableEq, Repr

/-- The slave port (R369). -/
structure SlavePort where
  selected : Bool
  /-- bits of a byte still being received, first first -/
  bits     : List Bool
  /-- bytes received and not yet given to the loader -/
  buf      : List Byte
  /-- edges taken since SPBUSY rose -/
  excess     : Nat
  /-- the loader has taken SYNC from the port's stream -/
  synced   : Bool
  spdone   : Bool
  sperr    : Bool
deriving DecidableEq, Repr

structure CfgState where
  load   : Option LoadS
  port   : SlavePort
  /-- flash offset of the next bitstream of an autoload, and whether one has been loaded (R371) -/
  auto   : Option (Nat × Bool)
  /-- slot, source and length of an AutoloadStore in progress -/
  storing : Option (Nat × Nat × Nat)
  /-- next frame of the scrub pass -/
  scrubAt : Nat
  /-- regions skipped for the rest of the pass (R385) -/
  skip   : List Nat
  /-- reloads that the scrubber still has to start: regions, 64 for the whole fabric, 128 + region for one that follows a
  reload of the whole fabric -/
  reloads : List Nat
  /-- the reload under way is the scrubber's -/
  reloading : Bool
  /-- the two copies of the scrubber's settings: enable, pause, mask (R384) -/
  copyA  : Nat × Nat × Nat
  copyB  : Nat × Nat × Nat
  /-- step OUTPUTS of a full load has come since the last M or D reset (R485) -/
  driven : Bool
deriving DecidableEq, Repr

/-! ## Security and JTAG (spec/19, spec/20) -/

structure SecState where
  /-- header bytes 0–127 of the images that the complexes run: primary, standby -/
  primary : List Byte
  standby : List Byte
  /-- step 3 of an ACTIVATE is done: the standby has taken over and the old primary is to be mirrored (R508) -/
  taken   : Bool
  /-- straps sampled at the last release: NODE_ID, BOOT_SEL, DEBUG_EN (R519) -/
  nodeId  : Nat
  bootSel : Nat
  debugEn : Bool
deriving DecidableEq, Repr

/-- The TAP (R535–R537): instruction in force, and the boundary register as last updated. -/
structure JtagState where
  ir       : Byte
  boundary : BitVec 2069
deriving DecidableEq, Repr

/-! ## Reset (spec/18) -/

/-- What the dictionary serves (R489, R490). -/
inductive Serve where
  | none
  /-- ranges 0x1000 and 0x2000, until the store has loaded -/
  | boot
  /-- the boot ROM's recovery service: 0x1000, 0x2000, 0xA000 -/
  | recovery
  | full
deriving DecidableEq, Repr

structure RstState where
  /-- sources asserted whose reach is M, D or C (R480, R484) -/
  asserted   : List ResetSource
  /-- the exit in progress or to come starts at step 1 (M) -/
  module     : Bool
  /-- cause latch of the spine 0 reset controller (R491) -/
  causes     : Nat
  releasedAt : Nat
  serve      : Serve
  /-- last step of R488 completed; 0 in reset -/
  exitDone   : Nat
  storeLoaded : Bool
  /-- cabinets in C reset or in its exit: last step of R492 completed -/
  cabExit    : Tab Nat
  /-- block codes held by SoftwareReset (R481) -/
  heldBlocks : List Nat
  /-- a SoftwareReset accepted and about to be answered: it is asserted after the answer (R481) -/
  soft       : Option Nat
  /-- thermal trips and supply faults not yet added to their persisted counts -/
  trips      : Nat
  faults     : Nat
  /-- cabinets whose rail faulted before the health service ran: they are declared lost once it does (R278, R493) -/
  rails      : List Nat
deriving DecidableEq, Repr

/-! ## Host interface (spec/17) -/

structure HostState where
  busMaster  : Bool
  msixEnable : Bool
  /-- MSI-X table dwords that differ from 0, vector control apart (R460) -/
  table      : Tab Nat
  /-- vectors whose mask bit is 0 -/
  unmasked   : List Nat
  /-- pending bit array -/
  pendingVec : List Nat
  /-- configuration window buffer (R474), and the bytes of a failed load still to discard -/
  window     : List Byte
  discard    : Nat
deriving DecidableEq, Repr

/-- Reasons a command stops the block. No meaning of this model raises one: the spec gives every command an
effect, and a command whose step cannot occur leaves the block as it is (log 2). -/
inductive Fault where
  /-- Raised by nobody; it keeps the type inhabited. Safe. -/
  | none
deriving DecidableEq, Repr

/-- Reasons a command is refused. -/
inductive Refusal where
  /-- Raised by `exec` for a command whose meaning is not written; its argument is the row's mnemonic. Safe. -/
  | notModelled (mnemonic : String)
deriving DecidableEq, Repr

/-- What the objects of lost cabinets last held, where a value is derived from tiles or streams (R25). -/
structure GoneState where
  tiles   : Tab TileS
  streams : Tab StreamS
  /-- bytes of stream buffer allocated to jobs, by cabinet -/
  buffers : Tab Nat
deriving DecidableEq, Repr

/-- The block: what the dictionary and the chapters' engines hold, and the commands waiting for it. -/
structure State where
  /-- commands waiting, first in first out -/
  pending : List Instr
  /-- ns since the last M or D reset (R67) -/
  now     : Nat
  /-- free values used so far (the model's own field, log 1) -/
  free    : Nat
  /-- what has left the device, newest first (the model's own field) -/
  out     : List Out
  /-- dictionary values that differ from their defaults, by index × 256 + subindex -/
  obj     : Tab Val
  dict    : DictState
  own     : OwnState
  store   : StoreState
  rst     : RstState
  /-- device memory by device address (R37); an unlisted byte reads 0 -/
  mem     : List Host.Cell
  tiles   : Tab TileS
  colls   : Tab Collector
  jobTotals : Tab JobTotals
  host    : HostState
  /-- open streams by 512 × cabinet + number -/
  streams : Tab StreamS
  /-- directions of the die-to-die bridges, by 16 × base die + next base die -/
  bridges : Tab DieBridge
  mm      : MmState
  health  : HealthState
  jobs    : JobsState
  net     : NetState
  lock    : LockState
  trace   : TraceState
  fab     : FabState
  dma     : DmaState
  cfg     : CfgState
  sec     : SecState
  jtag    : JtagState
  gone    : GoneState
deriving DecidableEq, Repr

/-! ## Reset (R47, R480, R488) -/

/-- After power-on: an M reset asserted and not yet released. Every dictionary value is at its default but
DeviceState, 1 (Starting), and StartupStep, 1 (R490); nothing is served yet. -/
def State.reset : State where
  pending := []
  now := 0
  free := 0
  out := []
  obj := []
  dict := ⟨[], [], [], [], [], []⟩
  own := ⟨0, none, none⟩
  store := ⟨[], [], 0, 0, [], false, false, 0, 0⟩
  rst := ⟨[.powerOn], true, 1, 0, .none, 0, false, [], [], none, 0, 0, []⟩
  mem := []
  tiles := []
  colls := []
  jobTotals := []
  host := ⟨false, false, [], [], [], [], 0⟩
  streams := []
  bridges := []
  mm := ⟨[], [], 0, [], [], [], [], [], [], [], 0, 0⟩
  health := ⟨[], [], [], [], []⟩
  jobs := ⟨[], 0, [], [], 0, []⟩
  net := ⟨[], [], [], [], [], 0, []⟩
  lock := ⟨false, false, 0, 0, none, [], [], [], [], [], [], false⟩
  trace := ⟨[], []⟩
  fab := ⟨[], [], [], [], [], [], [], ⟨0, [], [], 0, 0, false, none, none, 0, [], [], []⟩, [], List.replicate 10 12⟩
  dma := ⟨[], []⟩
  cfg := ⟨none, ⟨false, [], [], 0, false, false, false⟩, none, none, 0, [], [], false, (1, 100, 255), (1, 100, 255), false⟩
  sec := ⟨[], [], false, 0, 0, false⟩
  jtag := ⟨2, 0⟩
  gone := ⟨[], [], []⟩

end Sys2Proof.Machine
end

