-- ==== Sys2Proof/Machine/Catalog.lean ====
section
/-! DEFINITION. The object catalogue: every row of the object tables of spec/02 to spec/19 (R51), made by
reading the tables' columns. A key is index × 256 + subindex. Where one row stands for several indices
(R43, R107, R141, R241, R313, R429) it carries how many and their stride. -/

namespace Sys2Proof.Machine

/-! Names of the objects: the key of the first element. -/

/-- VendorName, 0x1000.01 (R56). -/
abbrev Obj.vendorName : Nat := 0x100001
/-- FamilyName, 0x1000.02 (R56). -/
abbrev Obj.familyName : Nat := 0x100002
/-- OrderingNumber, 0x1000.03 (R56). -/
abbrev Obj.orderingNumber : Nat := 0x100003
/-- PartCode, 0x1000.04 (R56). -/
abbrev Obj.partCode : Nat := 0x100004
/-- GddrDensity, 0x1000.05 (R56). -/
abbrev Obj.gddrDensity : Nat := 0x100005
/-- GddrCapacity, 0x1000.06 (R56). -/
abbrev Obj.gddrCapacity : Nat := 0x100006
/-- SerialNumber, 0x1000.07 (R56). -/
abbrev Obj.serialNumber : Nat := 0x100007
/-- SiliconStepping, 0x1000.08 (R56). -/
abbrev Obj.siliconStepping : Nat := 0x100008
/-- ManufactureDate, 0x1000.09 (R56). -/
abbrev Obj.manufactureDate : Nat := 0x100009
/-- FirmwareVersion, 0x1001.01 (R56). -/
abbrev Obj.firmwareVersion : Nat := 0x100101
/-- FirmwareDigest, 0x1001.02 (R56). -/
abbrev Obj.firmwareDigest : Nat := 0x100102
/-- ActiveSlot, 0x1001.03 (R56). -/
abbrev Obj.activeSlot : Nat := 0x100103
/-- ActiveComplex, 0x1001.04 (R56). -/
abbrev Obj.activeComplex : Nat := 0x100104
/-- BootRomVersion, 0x1001.05 (R56). -/
abbrev Obj.bootRomVersion : Nat := 0x100105
/-- DictionaryVersion, 0x1002.01 (R56). -/
abbrev Obj.dictionaryVersion : Nat := 0x100201
/-- GroupStageLimit, 0x1002.02 (R56). -/
abbrev Obj.groupStageLimit : Nat := 0x100202
/-- ReadGroupLimit, 0x1002.03 (R56). -/
abbrev Obj.readGroupLimit : Nat := 0x100203
/-- EventQueueDepth, 0x1002.04 (R56). -/
abbrev Obj.eventQueueDepth : Nat := 0x100204
/-- StoreState, 0x1200.01 (R78). -/
abbrev Obj.storeState : Nat := 0x120001
/-- PendingRecords, 0x1200.02 (R78). -/
abbrev Obj.pendingRecords : Nat := 0x120002
/-- ActiveArea, 0x1200.03 (R78). -/
abbrev Obj.activeArea : Nat := 0x120003
/-- LastSequence, 0x1200.04 (R78). -/
abbrev Obj.lastSequence : Nat := 0x120004
/-- FreeBytes, 0x1200.05 (R78). -/
abbrev Obj.freeBytes : Nat := 0x120005
/-- InvalidAtLoad, 0x1200.06 (R78). -/
abbrev Obj.invalidAtLoad : Nat := 0x120006
/-- StoreFlags, 0x1200.07 (R78). -/
abbrev Obj.storeFlags : Nat := 0x120007
/-- StoreSync, 0x1201.01 (R78). -/
abbrev Obj.storeSync : Nat := 0x120101
/-- ForgetPersisted, 0x1201.02 (R78). -/
abbrev Obj.forgetPersisted : Nat := 0x120102
/-- CompactThreshold, 0x1201.03 (R78). -/
abbrev Obj.compactThreshold : Nat := 0x120103
/-- EraseAhead, 0x1201.04 (R78). -/
abbrev Obj.eraseAhead : Nat := 0x120104
/-- OwnerState, 0x1100.01 (R107). -/
abbrev Obj.ownerState : Nat := 0x110001
/-- Owner, 0x1100.02 (R107). -/
abbrev Obj.owner : Nat := 0x110002
/-- OwnerPriority, 0x1100.03 (R107). -/
abbrev Obj.ownerPriority : Nat := 0x110003
/-- LeaseRemaining, 0x1100.04 (R107). -/
abbrev Obj.leaseRemaining : Nat := 0x110004
/-- HandoverSuccessor, 0x1100.05 (R107). -/
abbrev Obj.handoverSuccessor : Nat := 0x110005
/-- OwnershipChanges, 0x1100.06 (R107). -/
abbrev Obj.ownershipChanges : Nat := 0x110006
/-- ResetCommandsIgnored, 0x1100.07 (R107). -/
abbrev Obj.resetCommandsIgnored : Nat := 0x110007
/-- LeasePeriod, 0x1102.01 (R107). -/
abbrev Obj.leasePeriod : Nat := 0x110201
/-- PeerManagerDevice, 0x1102.02 (R107). -/
abbrev Obj.peerManagerDevice : Nat := 0x110202
/-- LastErrorCode, 0x1103.01 (R107). -/
abbrev Obj.lastErrorCode : Nat := 0x110301
/-- LastErrorObject, 0x1103.02 (R107). -/
abbrev Obj.lastErrorObject : Nat := 0x110302
/-- DroppedWrites, 0x1103.03 (R107). -/
abbrev Obj.droppedWrites : Nat := 0x110303
/-- Subscription, 0x11xx.01–.08 (R107). -/
abbrev Obj.subscription : Nat := 0x110001
/-- EventPort, 0x11xx.09 (R107). -/
abbrev Obj.eventPort : Nat := 0x110009
/-- ReqRingBase, 0x11xx.0A (R107). -/
abbrev Obj.reqRingBase : Nat := 0x11000a
/-- RspRingBase, 0x11xx.0B (R107). -/
abbrev Obj.rspRingBase : Nat := 0x11000b
/-- RingSlots, 0x11xx.0C (R107). -/
abbrev Obj.ringSlots : Nat := 0x11000c
/-- ReqTail, 0x11xx.0D (R107). -/
abbrev Obj.reqTail : Nat := 0x11000d
/-- ReqHead, 0x11xx.0E (R107). -/
abbrev Obj.reqHead : Nat := 0x11000e
/-- RspTail, 0x11xx.0F (R107). -/
abbrev Obj.rspTail : Nat := 0x11000f
/-- RspHead, 0x11xx.10 (R107). -/
abbrev Obj.rspHead : Nat := 0x110010
/-- MsixVector, 0x11xx.11 (R107). -/
abbrev Obj.oapMsixVector : Nat := 0x110011
/-- EventsDropped, 0x11xx.12 (R107). -/
abbrev Obj.eventsDropped : Nat := 0x110012
/-- NodeIdSource, 0x9100.01 (R108). -/
abbrev Obj.nodeIdSource : Nat := 0x910001
/-- NodeId, 0x9100.02 (R108). -/
abbrev Obj.nodeId : Nat := 0x910002
/-- NodeIdOverride, 0x9100.03 (R108). -/
abbrev Obj.nodeIdOverride : Nat := 0x910003
/-- DataRate, 0x9100.04 (R108). -/
abbrev Obj.dataRate : Nat := 0x910004
/-- ArbSamplePoint, 0x9100.05 (R108). -/
abbrev Obj.arbSamplePoint : Nat := 0x910005
/-- DataSamplePoint, 0x9100.06 (R108). -/
abbrev Obj.dataSamplePoint : Nat := 0x910006
/-- FnaState, 0x9100.07 (R108). -/
abbrev Obj.fnaState : Nat := 0x910007
/-- FnbState, 0x9100.08 (R108). -/
abbrev Obj.fnbState : Nat := 0x910008
/-- FnaBusOffs, 0x9100.09 (R108). -/
abbrev Obj.fnaBusOffs : Nat := 0x910009
/-- FnbBusOffs, 0x9100.0A (R108). -/
abbrev Obj.fnbBusOffs : Nat := 0x91000a
/-- SegmentsDiscarded, 0x9100.0B (R108). -/
abbrev Obj.segmentsDiscarded : Nat := 0x91000b
/-- DeviceSatCount, 0x3800.01 (R136). -/
abbrev Obj.deviceSatCount : Nat := 0x380001
/-- DeviceFlushCount, 0x3800.02 (R136). -/
abbrev Obj.deviceFlushCount : Nat := 0x380002
/-- DeviceNumericFlags, 0x3800.03 (R136). -/
abbrev Obj.deviceNumericFlags : Nat := 0x380003
/-- InvalidCoarseScales, 0x3800.04 (R136). -/
abbrev Obj.invalidCoarseScales : Nat := 0x380004
/-- SelectTile, 0x3801.01 (R136). -/
abbrev Obj.selectTile : Nat := 0x380101
/-- SelectDrawer, 0x3801.02 (R136). -/
abbrev Obj.selectDrawer : Nat := 0x380102
/-- DrawerValid, 0x3802.01 (R136). -/
abbrev Obj.drawerValid : Nat := 0x380201
/-- DrawerJobId, 0x3802.02 (R136). -/
abbrev Obj.drawerJobId : Nat := 0x380202
/-- DrawerSatCount, 0x3802.03 (R136). -/
abbrev Obj.drawerSatCount : Nat := 0x380203
/-- DrawerFlushCount, 0x3802.04 (R136). -/
abbrev Obj.drawerFlushCount : Nat := 0x380204
/-- DrawerFlags, 0x3802.05 (R136). -/
abbrev Obj.drawerFlags : Nat := 0x380205
/-- SelectJobId, 0x3803.01 (R136). -/
abbrev Obj.selectJobId : Nat := 0x380301
/-- JobValid, 0x3804.01 (R136). -/
abbrev Obj.jobValid : Nat := 0x380401
/-- JobOperations, 0x3804.02 (R136). -/
abbrev Obj.jobOperations : Nat := 0x380402
/-- JobSatCount, 0x3804.03 (R136). -/
abbrev Obj.jobSatCount : Nat := 0x380403
/-- JobFlushCount, 0x3804.04 (R136). -/
abbrev Obj.jobFlushCount : Nat := 0x380404
/-- JobFlags, 0x3804.05 (R136). -/
abbrev Obj.jobFlags : Nat := 0x380405
/-- TileState, 0x3000.01–.96 (R141). -/
abbrev Obj.tileState : Nat := 0x300001
/-- DrawerCount, 0x3001.01–.96 (R141). -/
abbrev Obj.drawerCount : Nat := 0x300101
/-- DrawerOccupancy, 0x3002.01–.96 (R141). -/
abbrev Obj.drawerOccupancy : Nat := 0x300201
/-- RealTimeContexts, 0x3003.01–.96 (R141). -/
abbrev Obj.realTimeContexts : Nat := 0x300301
/-- SpareFree, 0x3004.01–.96 (R141). -/
abbrev Obj.spareFree : Nat := 0x300401
/-- RowsRemoved, 0x3005.01–.96 (R141). -/
abbrev Obj.rowsRemoved : Nat := 0x300501
/-- PassesCommitted, 0x3006.01–.96 (R141). -/
abbrev Obj.passesCommitted : Nat := 0x300601
/-- PassesDiscarded, 0x3007.01–.96 (R141). -/
abbrev Obj.passesDiscarded : Nat := 0x300701
/-- PreemptionsTaken, 0x3008.01–.96 (R141). -/
abbrev Obj.preemptionsTaken : Nat := 0x300801
/-- PreemptLatencyMax, 0x3009.01–.96 (R141). -/
abbrev Obj.preemptLatencyMax : Nat := 0x300901
/-- ThrottleHeldCycles, 0x300A.01–.96 (R141). -/
abbrev Obj.throttleHeldCycles : Nat := 0x300a01
/-- PepperCycles, 0x300B.01–.96 (R141). -/
abbrev Obj.pepperCycles : Nat := 0x300b01
/-- RampDowns, 0x300C.01–.96 (R141). -/
abbrev Obj.rampDowns : Nat := 0x300c01
/-- SkippedBlocks, 0x300D.01–.96 (R141). -/
abbrev Obj.skippedBlocks : Nat := 0x300d01
/-- OutputQueueFullCycles, 0x300E.01–.96 (R141). -/
abbrev Obj.outputQueueFullCycles : Nat := 0x300e01
/-- BankConflictCycles, 0x300F.01–.96 (R141). -/
abbrev Obj.bankConflictCycles : Nat := 0x300f01
/-- ThrottleTarget, 0x3010.01–.96 (R141). -/
abbrev Obj.throttleTarget : Nat := 0x301001
/-- BenchResult, 0x3011.01–.96 (R141). -/
abbrev Obj.benchResult : Nat := 0x301101
/-- CollectorState, 0x30F0.01 (R141). -/
abbrev Obj.collectorState : Nat := 0x30f001
/-- OpenSlots, 0x30F0.02 (R141). -/
abbrev Obj.openSlots : Nat := 0x30f002
/-- EntriesAdmitted, 0x30F0.03 (R141). -/
abbrev Obj.entriesAdmitted : Nat := 0x30f003
/-- StagingHighWater, 0x30F0.04 (R141). -/
abbrev Obj.stagingHighWater : Nat := 0x30f004
/-- HeadWaitMax, 0x30F0.05 (R141). -/
abbrev Obj.headWaitMax : Nat := 0x30f005
/-- CombineReplays, 0x30F0.06 (R141). -/
abbrev Obj.combineReplays : Nat := 0x30f006
/-- PepperFillCycles, 0x30F1.01 (R141). -/
abbrev Obj.pepperFillCycles : Nat := 0x30f101
/-- RampStepCycles, 0x30F1.02 (R141). -/
abbrev Obj.rampStepCycles : Nat := 0x30f102
/-- RampLevels, 0x30F1.03 (R141). -/
abbrev Obj.rampLevels : Nat := 0x30f103
/-- PreemptIssueBound, 0x30F1.04 (R141). -/
abbrev Obj.preemptIssueBound : Nat := 0x30f104
/-- ThreadStates, 0x3020.01–.96 (R211). -/
abbrev Obj.threadStates : Nat := 0x302001
/-- BankMap, 0x3021.01–.96 (R211). -/
abbrev Obj.bankMap : Nat := 0x302101
/-- IssuedOperations, 0x3022.01–.96 (R211). -/
abbrev Obj.issuedOperations : Nat := 0x302201
/-- SwitchCycles, 0x3023.01–.96 (R211). -/
abbrev Obj.switchCycles : Nat := 0x302301
/-- Swaps, 0x3024.01–.96 (R211). -/
abbrev Obj.swaps : Nat := 0x302401
/-- FreezeCycles, 0x3025.01–.96 (R211). -/
abbrev Obj.freezeCycles : Nat := 0x302501
/-- LandingConflicts, 0x3026.01–.96 (R211). -/
abbrev Obj.landingConflicts : Nat := 0x302601
/-- IssueRefusals, 0x3027.01–.96 (R211). -/
abbrev Obj.issueRefusals : Nat := 0x302701
/-- LastRefusal, 0x3028.01–.96 (R211). -/
abbrev Obj.lastRefusal : Nat := 0x302801
/-- EnginesPerCabinet, 0x4000.01 (R241). -/
abbrev Obj.enginesPerCabinet : Nat := 0x400001
/-- OutstandingPerEngine, 0x4000.02 (R241). -/
abbrev Obj.outstandingPerEngine : Nat := 0x400002
/-- StreamsPerCabinet, 0x4000.03 (R241). -/
abbrev Obj.streamsPerCabinet : Nat := 0x400003
/-- UnitBytes, 0x4000.04 (R241). -/
abbrev Obj.unitBytes : Nat := 0x400004
/-- LagWindowBytes, 0x4000.05 (R241). -/
abbrev Obj.lagWindowBytes : Nat := 0x400005
/-- MaxDetached, 0x4000.06 (R241). -/
abbrev Obj.maxDetached : Nat := 0x400006
/-- ReattachLagBytes, 0x4000.07 (R241). -/
abbrev Obj.reattachLagBytes : Nat := 0x400007
/-- RateWindowCycles, 0x4000.08 (R241). -/
abbrev Obj.rateWindowCycles : Nat := 0x400008
/-- LandingBytes, 0x4000.09 (R241). -/
abbrev Obj.landingBytes : Nat := 0x400009
/-- PageFaultHalts, 0x4001.01 (R241). -/
abbrev Obj.pageFaultHalts : Nat := 0x400101
/-- Resumes, 0x4001.02 (R241). -/
abbrev Obj.resumes : Nat := 0x400102
/-- Detaches, 0x4001.03 (R241). -/
abbrev Obj.detaches : Nat := 0x400103
/-- Reattaches, 0x4001.04 (R241). -/
abbrev Obj.reattaches : Nat := 0x400104
/-- SourceStallCycles, 0x4001.05 (R241). -/
abbrev Obj.sourceStallCycles : Nat := 0x400105
/-- DetachLimitStalls, 0x4001.06 (R241). -/
abbrev Obj.detachLimitStalls : Nat := 0x400106
/-- StreamErrors, 0x4001.07 (R241). -/
abbrev Obj.streamErrors : Nat := 0x400107
/-- OverFrees, 0x4001.08 (R241). -/
abbrev Obj.overFrees : Nat := 0x400108
/-- CabinetLostHalts, 0x4001.09 (R241). -/
abbrev Obj.cabinetLostHalts : Nat := 0x400109
/-- StreamEventFlags, 0x4001.0A (R241). -/
abbrev Obj.streamEventFlags : Nat := 0x40010a
/-- SelectCabinet, 0x4010.01 (R241). -/
abbrev Obj.selectCabinet : Nat := 0x401001
/-- SelectStream, 0x4010.02 (R241). -/
abbrev Obj.selectStream : Nat := 0x401002
/-- StreamState, 0x4011.01 (R241). -/
abbrev Obj.streamState : Nat := 0x401101
/-- StreamJobId, 0x4011.02 (R241). -/
abbrev Obj.streamJobId : Nat := 0x401102
/-- StreamDirection, 0x4011.03 (R241). -/
abbrev Obj.streamDirection : Nat := 0x401103
/-- StreamKind, 0x4011.04 (R241). -/
abbrev Obj.streamKind : Nat := 0x401104
/-- UnitsTotal, 0x4011.05 (R241). -/
abbrev Obj.unitsTotal : Nat := 0x401105
/-- UnitsIssued, 0x4011.06 (R241). -/
abbrev Obj.unitsIssued : Nat := 0x401106
/-- UnitsDelivered, 0x4011.07 (R241). -/
abbrev Obj.unitsDelivered : Nat := 0x401107
/-- UnitsFreed, 0x4011.08 (R241). -/
abbrev Obj.unitsFreed : Nat := 0x401108
/-- UnitsOutstanding, 0x4011.09 (R241). -/
abbrev Obj.unitsOutstanding : Nat := 0x401109
/-- PositionRecord, 0x4011.0A (R241). -/
abbrev Obj.positionRecord : Nat := 0x40110a
/-- ErrorCause, 0x4011.0B (R241). -/
abbrev Obj.errorCause : Nat := 0x40110b
/-- Halts, 0x4011.0C (R241). -/
abbrev Obj.halts : Nat := 0x40110c
/-- ReceiversAttached, 0x4011.0D (R241). -/
abbrev Obj.receiversAttached : Nat := 0x40110d
/-- ReceiversDetached, 0x4011.0E (R241). -/
abbrev Obj.receiversDetached : Nat := 0x40110e
/-- WindowHeld, 0x4011.0F (R241). -/
abbrev Obj.windowHeld : Nat := 0x40110f
/-- OpenStreams, 0x4020.01 (R241). -/
abbrev Obj.openStreams : Nat := 0x402001
/-- HaltedStreams, 0x4020.02 (R241). -/
abbrev Obj.haltedStreams : Nat := 0x402002
/-- RealTimeStreams, 0x4020.03 (R241). -/
abbrev Obj.realTimeStreams : Nat := 0x402003
/-- OutstandingNow, 0x4020.04 (R241). -/
abbrev Obj.outstandingNow : Nat := 0x402004
/-- OutstandingHighWater, 0x4020.05 (R241). -/
abbrev Obj.outstandingHighWater : Nat := 0x402005
/-- JobBufferAllocated, 0x4020.06 (R241). -/
abbrev Obj.jobBufferAllocated : Nat := 0x402006
/-- LandingHighWater, 0x4020.07 (R241). -/
abbrev Obj.landingHighWater : Nat := 0x402007
/-- OperatingPoint, 0x4100.01 (R268). -/
abbrev Obj.operatingPoint : Nat := 0x410001
/-- ActiveOperatingPoint, 0x4100.02 (R268). -/
abbrev Obj.activeOperatingPoint : Nat := 0x410002
/-- ChangeState, 0x4100.03 (R268). -/
abbrev Obj.changeState : Nat := 0x410003
/-- ChangingCabinet, 0x4100.04 (R268). -/
abbrev Obj.changingCabinet : Nat := 0x410004
/-- ArbWeights, 0x4100.05 (R268). -/
abbrev Obj.arbWeights : Nat := 0x410005
/-- WriteDrainMarks, 0x4100.06 (R268). -/
abbrev Obj.writeDrainMarks : Nat := 0x410006
/-- AvailablePoints, 0x4100.07 (R268). -/
abbrev Obj.availablePoints : Nat := 0x410007
/-- ReadCrcRetries, 0x4101.01 (R268). -/
abbrev Obj.readCrcRetries : Nat := 0x410101
/-- WriteCrcReplays, 0x4101.02 (R268). -/
abbrev Obj.writeCrcReplays : Nat := 0x410102
/-- OnDieCorrected, 0x4101.03 (R268). -/
abbrev Obj.onDieCorrected : Nat := 0x410103
/-- Uncorrectable, 0x4101.04 (R268). -/
abbrev Obj.gddrUncorrectable : Nat := 0x410104
/-- InOrderEntries, 0x4101.05 (R268). -/
abbrev Obj.inOrderEntries : Nat := 0x410105
/-- OperatingPointChanges, 0x4101.06 (R268). -/
abbrev Obj.operatingPointChanges : Nat := 0x410106
/-- GddrFlags, 0x4101.07 (R268). -/
abbrev Obj.gddrFlags : Nat := 0x410107
/-- GddrCabinetState, 0x4110.01–.08 (R268). -/
abbrev Obj.gddrCabinetState : Nat := 0x411001
/-- GddrHottest, 0x4111.01–.08 (R268). -/
abbrev Obj.gddrHottest : Nat := 0x411101
/-- AddressSpaces, 0x4180.01 (R268). -/
abbrev Obj.addressSpaces : Nat := 0x418001
/-- CachedLeaves, 0x4180.02 (R268). -/
abbrev Obj.cachedLeaves : Nat := 0x418002
/-- ConcurrentFaults, 0x4180.03 (R268). -/
abbrev Obj.concurrentFaults : Nat := 0x418003
/-- InvalidateBoundNs, 0x4180.04 (R268). -/
abbrev Obj.invalidateBoundNs : Nat := 0x418004
/-- FaultsServed, 0x4181.01 (R268). -/
abbrev Obj.faultsServed : Nat := 0x418101
/-- FaultsJoined, 0x4181.02 (R268). -/
abbrev Obj.faultsJoined : Nat := 0x418102
/-- PagesIn, 0x4181.03 (R268). -/
abbrev Obj.pagesIn : Nat := 0x418103
/-- PagesEvicted, 0x4181.04 (R268). -/
abbrev Obj.pagesEvicted : Nat := 0x418104
/-- WriteBacks, 0x4181.05 (R268). -/
abbrev Obj.writeBacks : Nat := 0x418105
/-- FaultLatencyMax, 0x4181.06 (R268). -/
abbrev Obj.faultLatencyMax : Nat := 0x418106
/-- TranslationErrors, 0x4181.07 (R268). -/
abbrev Obj.translationErrors : Nat := 0x418107
/-- MigrationFlags, 0x4181.08 (R268). -/
abbrev Obj.migrationFlags : Nat := 0x418108
/-- CxlPortState, 0x4200.01–.04 (R269). -/
abbrev Obj.cxlPortState : Nat := 0x420001
/-- CxlLinkWidth, 0x4201.01–.04 (R269). -/
abbrev Obj.cxlLinkWidth : Nat := 0x420101
/-- CxlLinkRate, 0x4202.01–.04 (R269). -/
abbrev Obj.cxlLinkRate : Nat := 0x420201
/-- CxlCapacity, 0x4203.01–.04 (R269). -/
abbrev Obj.cxlCapacity : Nat := 0x420301
/-- InterleaveSet, 0x4204.01 (R269). -/
abbrev Obj.interleaveSet : Nat := 0x420401
/-- InterleaveGranularity, 0x4204.02 (R269). -/
abbrev Obj.interleaveGranularity : Nat := 0x420402
/-- LinkReplays, 0x4205.01 (R269). -/
abbrev Obj.cxlLinkReplays : Nat := 0x420501
/-- PoisonedReads, 0x4205.02 (R269). -/
abbrev Obj.poisonedReads : Nat := 0x420502
/-- CompletionTimeouts, 0x4205.03 (R269). -/
abbrev Obj.completionTimeouts : Nat := 0x420503
/-- CxlFlags, 0x4205.04 (R269). -/
abbrev Obj.cxlFlags : Nat := 0x420504
/-- HealthState, 0x4800.01 (R288). -/
abbrev Obj.healthState : Nat := 0x480001
/-- FaultsRecorded, 0x4800.02 (R288). -/
abbrev Obj.faultsRecorded : Nat := 0x480002
/-- CorrectedErrors, 0x4800.03 (R288). -/
abbrev Obj.correctedErrors : Nat := 0x480003
/-- LinkReplays, 0x4800.04 (R288). -/
abbrev Obj.linkReplays : Nat := 0x480004
/-- SitesFenced, 0x4800.05 (R288). -/
abbrev Obj.sitesFenced : Nat := 0x480005
/-- SparesPending, 0x4800.06 (R288). -/
abbrev Obj.sparesPending : Nat := 0x480006
/-- RowsRemovedTotal, 0x4800.07 (R288). -/
abbrev Obj.rowsRemovedTotal : Nat := 0x480007
/-- TilesRetired, 0x4800.08 (R288). -/
abbrev Obj.tilesRetired : Nat := 0x480008
/-- JobsEndedFarTier, 0x4800.09 (R288). -/
abbrev Obj.jobsEndedFarTier : Nat := 0x480009
/-- HealthFlags, 0x4800.0A (R288). -/
abbrev Obj.healthFlags : Nat := 0x48000a
/-- CabinetHealth, 0x4801.01–.08 (R288). -/
abbrev Obj.cabinetHealth : Nat := 0x480101
/-- RungCounts, 0x4802.01–.06 (R288). -/
abbrev Obj.rungCounts : Nat := 0x480201
/-- RungTimeMax, 0x4803.01–.06 (R288). -/
abbrev Obj.rungTimeMax : Nat := 0x480301
/-- TileFenceMap, 0x4808.01–.08 (R288). -/
abbrev Obj.tileFenceMap : Nat := 0x480801
/-- FenceMapDigest, 0x4809.00 (R288). -/
abbrev Obj.fenceMapDigest : Nat := 0x480900
/-- ReadmitTile, 0x480A.01 (R288). -/
abbrev Obj.readmitTile : Nat := 0x480a01
/-- ReadmitQueued, 0x480A.02 (R288). -/
abbrev Obj.readmitQueued : Nat := 0x480a02
/-- FaultSelect, 0x4810.00 (R288). -/
abbrev Obj.faultSelect : Nat := 0x481000
/-- SelectedFault, 0x4811.00 (R288). -/
abbrev Obj.selectedFault : Nat := 0x481100
/-- LastFault, 0x4812.00 (R288). -/
abbrev Obj.lastFault : Nat := 0x481200
/-- PersistentWindowMs, 0x4818.01 (R288). -/
abbrev Obj.persistentWindowMs : Nat := 0x481801
/-- FaultLogDepth, 0x4818.02 (R288). -/
abbrev Obj.faultLogDepth : Nat := 0x481802
/-- RecoveryReserveBytes, 0x4818.03 (R288). -/
abbrev Obj.recoveryReserveBytes : Nat := 0x481803
/-- CheckpointGapMaxMs, 0x4818.04 (R288). -/
abbrev Obj.checkpointGapMaxMs : Nat := 0x481804
/-- Rings, 0x5000.01 (R313). -/
abbrev Obj.rings : Nat := 0x500001
/-- PlacedJobsMax, 0x5000.02 (R313). -/
abbrev Obj.placedJobsMax : Nat := 0x500002
/-- QueuedJobsMax, 0x5000.03 (R313). -/
abbrev Obj.queuedJobsMax : Nat := 0x500003
/-- RtCoreEighthsLimit, 0x5000.04 (R313). -/
abbrev Obj.rtCoreEighthsLimit : Nat := 0x500004
/-- RtUnitsLimit, 0x5000.05 (R313). -/
abbrev Obj.rtUnitsLimit : Nat := 0x500005
/-- PollInterval, 0x5001.01 (R313). -/
abbrev Obj.pollInterval : Nat := 0x500101
/-- CheckpointInterval, 0x5001.02 (R313). -/
abbrev Obj.checkpointInterval : Nat := 0x500102
/-- CancelJob, 0x5001.03 (R313). -/
abbrev Obj.cancelJob : Nat := 0x500103
/-- ThrottleMargin, 0x5001.04 (R313). -/
abbrev Obj.throttleMargin : Nat := 0x500104
/-- PlacedJobs, 0x5002.01 (R313). -/
abbrev Obj.placedJobs : Nat := 0x500201
/-- QueuedJobs, 0x5002.02 (R313). -/
abbrev Obj.queuedJobs : Nat := 0x500202
/-- JobsDone, 0x5002.03 (R313). -/
abbrev Obj.jobsDone : Nat := 0x500203
/-- JobsEnded, 0x5002.04 (R313). -/
abbrev Obj.jobsEnded : Nat := 0x500204
/-- Preemptions, 0x5002.05 (R313). -/
abbrev Obj.jobPreemptions : Nat := 0x500205
/-- CheckpointsCommitted, 0x5002.06 (R313). -/
abbrev Obj.checkpointsCommitted : Nat := 0x500206
/-- CheckpointTimeMax, 0x5002.07 (R313). -/
abbrev Obj.checkpointTimeMax : Nat := 0x500207
/-- DeviceThrottleTarget, 0x5002.08 (R313). -/
abbrev Obj.deviceThrottleTarget : Nat := 0x500208
/-- RtCoreEighthsUsed, 0x5002.09 (R313). -/
abbrev Obj.rtCoreEighthsUsed : Nat := 0x500209
/-- SubBase, 0x5010.01 (R313). -/
abbrev Obj.subBase : Nat := 0x501001
/-- SubSlots, 0x5010.02 (R313). -/
abbrev Obj.subSlots : Nat := 0x501002
/-- SubTail, 0x5010.03 (R313). -/
abbrev Obj.subTail : Nat := 0x501003
/-- SubHead, 0x5010.04 (R313). -/
abbrev Obj.subHead : Nat := 0x501004
/-- CplBase, 0x5010.05 (R313). -/
abbrev Obj.cplBase : Nat := 0x501005
/-- CplSlots, 0x5010.06 (R313). -/
abbrev Obj.cplSlots : Nat := 0x501006
/-- CplTail, 0x5010.07 (R313). -/
abbrev Obj.cplTail : Nat := 0x501007
/-- CplHead, 0x5010.08 (R313). -/
abbrev Obj.cplHead : Nat := 0x501008
/-- MsixVector, 0x5010.09 (R313). -/
abbrev Obj.jobMsixVector : Nat := 0x501009
/-- RecordsWaiting, 0x5010.0A (R313). -/
abbrev Obj.recordsWaiting : Nat := 0x50100a
/-- JobSelect, 0x5020.00 (R313). -/
abbrev Obj.jobSelect : Nat := 0x502000
/-- JobState, 0x5021.01 (R313). -/
abbrev Obj.jobState : Nat := 0x502101
/-- JobPriority, 0x5021.02 (R313). -/
abbrev Obj.jobPriority : Nat := 0x502102
/-- JobKind, 0x5021.03 (R313). -/
abbrev Obj.jobKind : Nat := 0x502103
/-- NewestCheckpoint, 0x5021.04 (R313). -/
abbrev Obj.newestCheckpoint : Nat := 0x502104
/-- RunTimeMs, 0x5021.05 (R313). -/
abbrev Obj.runTimeMs : Nat := 0x502105
/-- SinceCheckpointMs, 0x5021.06 (R313). -/
abbrev Obj.sinceCheckpointMs : Nat := 0x502106
/-- CellsPerCabinet, 0x6000.01 (R344). -/
abbrev Obj.cellsPerCabinet : Nat := 0x600001
/-- FlipFlopsPerCabinet, 0x6000.02 (R344). -/
abbrev Obj.flipFlopsPerCabinet : Nat := 0x600002
/-- Positions, 0x6000.03 (R344). -/
abbrev Obj.positions : Nat := 0x600003
/-- Rows, 0x6000.04 (R344). -/
abbrev Obj.rows : Nat := 0x600004
/-- MemoryBlocksPerCabinet, 0x6000.05 (R344). -/
abbrev Obj.memoryBlocksPerCabinet : Nat := 0x600005
/-- ProbeMuxesPerCabinet, 0x6000.06 (R344). -/
abbrev Obj.probeMuxesPerCabinet : Nat := 0x600006
/-- ClockLoopsPerCabinet, 0x6000.07 (R344). -/
abbrev Obj.clockLoopsPerCabinet : Nat := 0x600007
/-- RegionsPerCabinet, 0x6000.08 (R344). -/
abbrev Obj.regionsPerCabinet : Nat := 0x600008
/-- QueueOverflows, 0x6001.01 (R344). -/
abbrev Obj.queueOverflows : Nat := 0x600101
/-- QueueUnderflows, 0x6001.02 (R344). -/
abbrev Obj.queueUnderflows : Nat := 0x600102
/-- MemoryCorrected, 0x6001.03 (R344). -/
abbrev Obj.memoryCorrected : Nat := 0x600103
/-- MemoryUncorrectable, 0x6001.04 (R344). -/
abbrev Obj.memoryUncorrectable : Nat := 0x600104
/-- ClockLockLosses, 0x6001.05 (R344). -/
abbrev Obj.clockLockLosses : Nat := 0x600105
/-- TargetRxDropped, 0x6001.06 (R344). -/
abbrev Obj.targetRxDropped : Nat := 0x600106
/-- TargetRxErrors, 0x6001.07 (R344). -/
abbrev Obj.targetRxErrors : Nat := 0x600107
/-- FabricFlags, 0x6001.08 (R344). -/
abbrev Obj.fabricFlags : Nat := 0x600108
/-- RegionMap, 0x6010.01–.08 (R344). -/
abbrev Obj.regionMap : Nat := 0x601001
/-- ClockLoopState, 0x6020.01–.10 (R344). -/
abbrev Obj.clockLoopState : Nat := 0x602001
/-- GpioBankVoltage, 0x6030.01–.0A (R344). -/
abbrev Obj.gpioBankVoltage : Nat := 0x603001
/-- GpioBankState, 0x6031.01–.0A (R344). -/
abbrev Obj.gpioBankState : Nat := 0x603101
/-- TargetBridgeState, 0x6040.01–.08 (R344). -/
abbrev Obj.targetBridgeState : Nat := 0x604001
/-- TargetFrozenTx, 0x6041.01–.08 (R344). -/
abbrev Obj.targetFrozenTx : Nat := 0x604101
/-- ProbeSelects, 0x6060.00–0x6067.00 (R344). -/
abbrev Obj.probeSelects : Nat := 0x606000
/-- ProbeApplyStep, 0x6068.00 (R344). -/
abbrev Obj.probeApplyStep : Nat := 0x606800
/-- ChannelsPerEngine, 0x6100.01 (R358). -/
abbrev Obj.channelsPerEngine : Nat := 0x610001
/-- PriorityLevels, 0x6100.02 (R358). -/
abbrev Obj.priorityLevels : Nat := 0x610002
/-- BeatBytes, 0x6100.03 (R358). -/
abbrev Obj.beatBytes : Nat := 0x610003
/-- ChannelBufferBeats, 0x6100.04 (R358). -/
abbrev Obj.channelBufferBeats : Nat := 0x610004
/-- OutstandingReadBeats, 0x6100.05 (R358). -/
abbrev Obj.outstandingReadBeats : Nat := 0x610005
/-- BeatsMoved, 0x6101.01 (R358). -/
abbrev Obj.beatsMoved : Nat := 0x610101
/-- DescriptorsDone, 0x6101.02 (R358). -/
abbrev Obj.descriptorsDone : Nat := 0x610102
/-- BusErrors, 0x6101.03 (R358). -/
abbrev Obj.busErrors : Nat := 0x610103
/-- LateWithdrawals, 0x6101.04 (R358). -/
abbrev Obj.lateWithdrawals : Nat := 0x610104
/-- Preemptions, 0x6101.05 (R358). -/
abbrev Obj.dmaPreemptions : Nat := 0x610105
/-- Aborts, 0x6101.06 (R358). -/
abbrev Obj.aborts : Nat := 0x610106
/-- FabricDmaFlags, 0x6101.07 (R358). -/
abbrev Obj.fabricDmaFlags : Nat := 0x610107
/-- SelectCabinet, 0x6110.01 (R358). -/
abbrev Obj.dmaSelectCabinet : Nat := 0x611001
/-- SelectChannel, 0x6110.02 (R358). -/
abbrev Obj.selectChannel : Nat := 0x611002
/-- ChannelState, 0x6111.01 (R358). -/
abbrev Obj.channelState : Nat := 0x611101
/-- CurrentDescriptor, 0x6111.02 (R358). -/
abbrev Obj.currentDescriptor : Nat := 0x611102
/-- NextAddress, 0x6111.03 (R358). -/
abbrev Obj.nextAddress : Nat := 0x611103
/-- BeatsLeft, 0x6111.04 (R358). -/
abbrev Obj.beatsLeft : Nat := 0x611104
/-- BufferedBeats, 0x6111.05 (R358). -/
abbrev Obj.bufferedBeats : Nat := 0x611105
/-- ErrorAddress, 0x6111.06 (R358). -/
abbrev Obj.errorAddress : Nat := 0x611106
/-- ErrorInfo, 0x6111.07 (R358). -/
abbrev Obj.errorInfo : Nat := 0x611107
/-- ChannelBeats, 0x6111.08 (R358). -/
abbrev Obj.channelBeats : Nat := 0x611108
/-- ChannelLateWithdrawals, 0x6111.09 (R358). -/
abbrev Obj.channelLateWithdrawals : Nat := 0x611109
/-- ChannelStart, 0x6112.01 (R358). -/
abbrev Obj.channelStart : Nat := 0x611201
/-- ChannelCommand, 0x6112.02 (R358). -/
abbrev Obj.channelCommand : Nat := 0x611202
/-- FrameWords, 0x6200.01 (R386). -/
abbrev Obj.frameWords : Nat := 0x620001
/-- SyncWord, 0x6200.02 (R386). -/
abbrev Obj.syncWord : Nat := 0x620002
/-- ClearCyclesPerFrame, 0x6200.03 (R386). -/
abbrev Obj.clearCyclesPerFrame : Nat := 0x620003
/-- IsoEntriesMax, 0x6200.04 (R386). -/
abbrev Obj.isoEntriesMax : Nat := 0x620004
/-- FabricState, 0x6201.01 (R386). -/
abbrev Obj.fabricState : Nat := 0x620101
/-- LoaderState, 0x6201.02 (R386). -/
abbrev Obj.loaderState : Nat := 0x620102
/-- LoadSource, 0x6201.03 (R386). -/
abbrev Obj.loadSource : Nat := 0x620103
/-- LoadTarget, 0x6201.04 (R386). -/
abbrev Obj.loadTarget : Nat := 0x620104
/-- FramesWritten, 0x6201.05 (R386). -/
abbrev Obj.framesWritten : Nat := 0x620105
/-- LoadResult, 0x6201.06 (R386). -/
abbrev Obj.loadResult : Nat := 0x620106
/-- LoadFailAddress, 0x6201.07 (R386). -/
abbrev Obj.loadFailAddress : Nat := 0x620107
/-- LoadFailMemoryAddress, 0x6201.08 (R386). -/
abbrev Obj.loadFailMemoryAddress : Nat := 0x620108
/-- SlavePortWidth, 0x6202.01 (R386). -/
abbrev Obj.slavePortWidth : Nat := 0x620201
/-- SlavePortsEnabled, 0x6202.02 (R386). -/
abbrev Obj.slavePortsEnabled : Nat := 0x620202
/-- LoadIdleTimeoutMs, 0x6202.03 (R386). -/
abbrev Obj.loadIdleTimeoutMs : Nat := 0x620203
/-- LoadFromMemory, 0x6202.04 (R386). -/
abbrev Obj.loadFromMemory : Nat := 0x620204
/-- LoadAbort, 0x6202.05 (R386). -/
abbrev Obj.loadAbort : Nat := 0x620205
/-- AutoloadImage, 0x6202.06 (R386). -/
abbrev Obj.autoloadImage : Nat := 0x620206
/-- LoadsCompleted, 0x6203.01 (R386). -/
abbrev Obj.loadsCompleted : Nat := 0x620301
/-- LoadsFailed, 0x6203.02 (R386). -/
abbrev Obj.loadsFailed : Nat := 0x620302
/-- FramesLoaded, 0x6203.03 (R386). -/
abbrev Obj.framesLoaded : Nat := 0x620303
/-- ConfigFlags, 0x6203.04 (R386). -/
abbrev Obj.configFlags : Nat := 0x620304
/-- AutoloadSource, 0x6204.01 (R386). -/
abbrev Obj.autoloadSource : Nat := 0x620401
/-- AutoloadLength, 0x6204.02 (R386). -/
abbrev Obj.autoloadLength : Nat := 0x620402
/-- AutoloadStore, 0x6204.03 (R386). -/
abbrev Obj.autoloadStore : Nat := 0x620403
/-- AutoloadSlots, 0x6204.04 (R386). -/
abbrev Obj.autoloadSlots : Nat := 0x620404
/-- RegionState, 0x6210.01–.08 (R386). -/
abbrev Obj.regionState : Nat := 0x621001
/-- RegionSelect, 0x6220.00 (R386). -/
abbrev Obj.regionSelect : Nat := 0x622000
/-- StoredImage, 0x6221.01 (R386). -/
abbrev Obj.storedImage : Nat := 0x622101
/-- RegionHeaderDigest, 0x6221.02 (R386). -/
abbrev Obj.regionHeaderDigest : Nat := 0x622102
/-- RegionBodyDigest, 0x6221.03 (R386). -/
abbrev Obj.regionBodyDigest : Nat := 0x622103
/-- RegionLoads, 0x6221.04 (R386). -/
abbrev Obj.regionLoads : Nat := 0x622104
/-- RegionScrubReloads, 0x6221.05 (R386). -/
abbrev Obj.regionScrubReloads : Nat := 0x622105
/-- FullImage, 0x6222.01 (R386). -/
abbrev Obj.fullImage : Nat := 0x622201
/-- FullHeaderDigest, 0x6222.02 (R386). -/
abbrev Obj.fullHeaderDigest : Nat := 0x622202
/-- FullBodyDigest, 0x6222.03 (R386). -/
abbrev Obj.fullBodyDigest : Nat := 0x622203
/-- ScrubEnable, 0x6240.01 (R386). -/
abbrev Obj.scrubEnable : Nat := 0x624001
/-- ScrubPauseMs, 0x6240.02 (R386). -/
abbrev Obj.scrubPauseMs : Nat := 0x624002
/-- ScrubCabinetMask, 0x6240.03 (R386). -/
abbrev Obj.scrubCabinetMask : Nat := 0x624003
/-- ScrubState, 0x6241.01 (R386). -/
abbrev Obj.scrubState : Nat := 0x624101
/-- ScrubPasses, 0x6241.02 (R386). -/
abbrev Obj.scrubPasses : Nat := 0x624102
/-- ScrubCorrected, 0x6241.03 (R386). -/
abbrev Obj.scrubCorrected : Nat := 0x624103
/-- ScrubDoubleErrors, 0x6241.04 (R386). -/
abbrev Obj.scrubDoubleErrors : Nat := 0x624104
/-- ScrubReloads, 0x6241.05 (R386). -/
abbrev Obj.scrubReloads : Nat := 0x624105
/-- ScrubReloadFailures, 0x6241.06 (R386). -/
abbrev Obj.scrubReloadFailures : Nat := 0x624106
/-- SettingsUpsets, 0x6241.07 (R386). -/
abbrev Obj.settingsUpsets : Nat := 0x624107
/-- ScrubCriticalResets, 0x6241.08 (R386). -/
abbrev Obj.scrubCriticalResets : Nat := 0x624108
/-- LastScrubFrame, 0x6241.09 (R386). -/
abbrev Obj.lastScrubFrame : Nat := 0x624109
/-- ScrubFlags, 0x6241.0A (R386). -/
abbrev Obj.scrubFlags : Nat := 0x62410a
/-- DiameterMax, 0x7000.01 (R410). -/
abbrev Obj.diameterMax : Nat := 0x700001
/-- CutHeaderBytes, 0x7000.02 (R410). -/
abbrev Obj.cutHeaderBytes : Nat := 0x700002
/-- CutInputWordsPerCabinet, 0x7000.03 (R410). -/
abbrev Obj.cutInputWordsPerCabinet : Nat := 0x700003
/-- NeighboursMax, 0x7000.04 (R410). -/
abbrev Obj.neighboursMax : Nat := 0x700004
/-- DrefTimeoutNs, 0x7000.05 (R410). -/
abbrev Obj.drefTimeoutNs : Nat := 0x700005
/-- StepMode, 0x7001.01 (R410). -/
abbrev Obj.stepMode : Nat := 0x700101
/-- StepPeriod, 0x7001.02 (R410). -/
abbrev Obj.stepPeriod : Nat := 0x700102
/-- ElasticDivisor, 0x7001.03 (R410). -/
abbrev Obj.elasticDivisor : Nat := 0x700103
/-- SystemDiameter, 0x7001.04 (R410). -/
abbrev Obj.systemDiameter : Nat := 0x700104
/-- StartStep, 0x7001.05 (R410). -/
abbrev Obj.startStep : Nat := 0x700105
/-- StepCommand, 0x7001.06 (R410). -/
abbrev Obj.stepCommand : Nat := 0x700106
/-- SnapshotAt, 0x7001.07 (R410). -/
abbrev Obj.snapshotAt : Nat := 0x700107
/-- StepControllerState, 0x7002.01 (R410). -/
abbrev Obj.stepControllerState : Nat := 0x700201
/-- CurrentStep, 0x7002.02 (R410). -/
abbrev Obj.currentStep : Nat := 0x700202
/-- FreezeAt, 0x7002.03 (R410). -/
abbrev Obj.freezeAt : Nat := 0x700203
/-- FrozenStep, 0x7002.04 (R410). -/
abbrev Obj.frozenStep : Nat := 0x700204
/-- FreezeOrigin, 0x7002.05 (R410). -/
abbrev Obj.freezeOrigin : Nat := 0x700205
/-- FreezeCause, 0x7002.06 (R410). -/
abbrev Obj.freezeCause : Nat := 0x700206
/-- MinSlack, 0x7002.07 (R410). -/
abbrev Obj.minSlack : Nat := 0x700207
/-- LastMissStep, 0x7002.08 (R410). -/
abbrev Obj.lastMissStep : Nat := 0x700208
/-- ArmUntilStep, 0x7002.09 (R410). -/
abbrev Obj.armUntilStep : Nat := 0x700209
/-- DrefPeriodNs, 0x7002.0A (R410). -/
abbrev Obj.drefPeriodNs : Nat := 0x70020a
/-- FailCause, 0x7002.0B (R410). -/
abbrev Obj.failCause : Nat := 0x70020b
/-- DeadlineMisses, 0x7003.01 (R410). -/
abbrev Obj.deadlineMisses : Nat := 0x700301
/-- FreezesCompleted, 0x7003.02 (R410). -/
abbrev Obj.freezesCompleted : Nat := 0x700302
/-- CutFramesSent, 0x7003.03 (R410). -/
abbrev Obj.cutFramesSent : Nat := 0x700303
/-- CutFramesReceived, 0x7003.04 (R410). -/
abbrev Obj.cutFramesReceived : Nat := 0x700304
/-- CutFramesDiscarded, 0x7003.05 (R410). -/
abbrev Obj.cutFramesDiscarded : Nat := 0x700305
/-- FreezesPassed, 0x7003.06 (R410). -/
abbrev Obj.freezesPassed : Nat := 0x700306
/-- LockstepFlags, 0x7003.07 (R410). -/
abbrev Obj.lockstepFlags : Nat := 0x700307
/-- StepNetworks, 0x7004.01–.08 (R410). -/
abbrev Obj.stepNetworks : Nat := 0x700401
/-- CutNeighbours, 0x7010.01–.40 (R410). -/
abbrev Obj.cutNeighbours : Nat := 0x701001
/-- NeighbourSlack, 0x7011.01–.40 (R410). -/
abbrev Obj.neighbourSlack : Nat := 0x701101
/-- FeedsPerCabinet, 0x7100.01 (R429). -/
abbrev Obj.feedsPerCabinet : Nat := 0x710001
/-- RecordHeaderBytes, 0x7100.02 (R429). -/
abbrev Obj.recordHeaderBytes : Nat := 0x710002
/-- TelemetrySlots, 0x7100.03 (R429). -/
abbrev Obj.telemetrySlots : Nat := 0x710003
/-- UnitsPerStepMax, 0x7100.04 (R429). -/
abbrev Obj.unitsPerStepMax : Nat := 0x710004
/-- FeedQueueRecords, 0x7100.05 (R429). -/
abbrev Obj.feedQueueRecords : Nat := 0x710005
/-- VerdictSlots, 0x7100.06 (R429). -/
abbrev Obj.verdictSlots : Nat := 0x710006
/-- MarkLogDepth, 0x7100.07 (R429). -/
abbrev Obj.markLogDepth : Nat := 0x710007
/-- RecordsDelivered, 0x7101.01 (R429). -/
abbrev Obj.recordsDelivered : Nat := 0x710101
/-- RecordsDropped, 0x7101.02 (R429). -/
abbrev Obj.recordsDropped : Nat := 0x710102
/-- VerdictsOnTime, 0x7101.03 (R429). -/
abbrev Obj.verdictsOnTime : Nat := 0x710103
/-- VerdictMisses, 0x7101.04 (R429). -/
abbrev Obj.verdictMisses : Nat := 0x710104
/-- UnknownVerdicts, 0x7101.05 (R429). -/
abbrev Obj.unknownVerdicts : Nat := 0x710105
/-- Marks, 0x7101.06 (R429). -/
abbrev Obj.marks : Nat := 0x710106
/-- Captures, 0x7101.07 (R429). -/
abbrev Obj.captures : Nat := 0x710107
/-- VerdictFreezes, 0x7101.08 (R429). -/
abbrev Obj.verdictFreezes : Nat := 0x710108
/-- FeedStreamMisuse, 0x7101.09 (R429). -/
abbrev Obj.feedStreamMisuse : Nat := 0x710109
/-- TraceFlags, 0x7101.0A (R429). -/
abbrev Obj.traceFlags : Nat := 0x71010a
/-- CaptureArm, 0x7102.00 (R429). -/
abbrev Obj.captureArm : Nat := 0x710200
/-- MarkSelect, 0x7108.00 (R429). -/
abbrev Obj.markSelect : Nat := 0x710800
/-- SelectedMark, 0x7109.00 (R429). -/
abbrev Obj.selectedMark : Nat := 0x710900
/-- LastMark, 0x710A.00 (R429). -/
abbrev Obj.lastMark : Nat := 0x710a00
/-- FeedSelect, 0x7110.00 (R429). -/
abbrev Obj.feedSelect : Nat := 0x711000
/-- FeedState, 0x7111.01 (R429). -/
abbrev Obj.feedState : Nat := 0x711101
/-- TileInForce, 0x7111.02 (R429). -/
abbrev Obj.tileInForce : Nat := 0x711102
/-- LastRecordStep, 0x7111.03 (R429). -/
abbrev Obj.lastRecordStep : Nat := 0x711103
/-- RecordUnits, 0x7111.04 (R429). -/
abbrev Obj.recordUnits : Nat := 0x711104
/-- FeedVerdictsOnTime, 0x7111.05 (R429). -/
abbrev Obj.feedVerdictsOnTime : Nat := 0x711105
/-- FeedVerdictMisses, 0x7111.06 (R429). -/
abbrev Obj.feedVerdictMisses : Nat := 0x711106
/-- FeedUnknownVerdicts, 0x7111.07 (R429). -/
abbrev Obj.feedUnknownVerdicts : Nat := 0x711107
/-- FeedLateVerdicts, 0x7111.08 (R429). -/
abbrev Obj.feedLateVerdicts : Nat := 0x711108
/-- FeedRecordsDropped, 0x7111.09 (R429). -/
abbrev Obj.feedRecordsDropped : Nat := 0x711109
/-- MinVerdictSlack, 0x7111.0A (R429). -/
abbrev Obj.minVerdictSlack : Nat := 0x71110a
/-- CaptureState, 0x7111.0B (R429). -/
abbrev Obj.captureState : Nat := 0x71110b
/-- CaptureFirstStep, 0x7111.0C (R429). -/
abbrev Obj.captureFirstStep : Nat := 0x71110c
/-- CaptureLastStep, 0x7111.0D (R429). -/
abbrev Obj.captureLastStep : Nat := 0x71110d
/-- FeedEnable, 0x7180.01 (R429). -/
abbrev Obj.feedEnable : Nat := 0x718001
/-- FeedTile, 0x7180.02 (R429). -/
abbrev Obj.feedTile : Nat := 0x718002
/-- FeedContext, 0x7180.03 (R429). -/
abbrev Obj.feedContext : Nat := 0x718003
/-- FeedStream, 0x7180.04 (R429). -/
abbrev Obj.feedStream : Nat := 0x718004
/-- FeedRing, 0x7180.05 (R429). -/
abbrev Obj.feedRing : Nat := 0x718005
/-- FeedProbeMask, 0x7180.06 (R429). -/
abbrev Obj.feedProbeMask : Nat := 0x718006
/-- FeedTelemetry, 0x7180.07 (R429). -/
abbrev Obj.feedTelemetry : Nat := 0x718007
/-- VerdictLatency, 0x7180.08 (R429). -/
abbrev Obj.verdictLatency : Nat := 0x718008
/-- VerdictArea, 0x7180.09 (R429). -/
abbrev Obj.verdictArea : Nat := 0x718009
/-- VerdictSemaphore, 0x7180.0A (R429). -/
abbrev Obj.verdictSemaphore : Nat := 0x71800a
/-- MissPolicy, 0x7180.0B (R429). -/
abbrev Obj.missPolicy : Nat := 0x71800b
/-- CaptureBase, 0x7180.0C (R429). -/
abbrev Obj.captureBase : Nat := 0x71800c
/-- CaptureSteps, 0x7180.0D (R429). -/
abbrev Obj.captureSteps : Nat := 0x71800d
/-- CapturePost, 0x7180.0E (R429). -/
abbrev Obj.capturePost : Nat := 0x71800e
/-- LaneState, 0x8000.01–.C0 (R455). -/
abbrev Obj.laneState : Nat := 0x800001
/-- TxFfe, 0x8001.01–.C0 (R455). -/
abbrev Obj.txFfe : Nat := 0x800101
/-- LaneInvert, 0x8002.01–.C0 (R455). -/
abbrev Obj.laneInvert : Nat := 0x800201
/-- LaneTest, 0x8003.01–.C0 (R455). -/
abbrev Obj.laneTest : Nat := 0x800301
/-- PrbsErrors, 0x8004.01–.C0 (R455). -/
abbrev Obj.prbsErrors : Nat := 0x800401
/-- PrbsLocked, 0x8005.01–.C0 (R455). -/
abbrev Obj.prbsLocked : Nat := 0x800501
/-- EyeMargin, 0x8006.01–.C0 (R455). -/
abbrev Obj.eyeMargin : Nat := 0x800601
/-- CtlePeaking, 0x8007.01–.C0 (R455). -/
abbrev Obj.ctlePeaking : Nat := 0x800701
/-- DfeTaps, 0x8008.01–.C0 (R455). -/
abbrev Obj.dfeTaps : Nat := 0x800801
/-- CdrLockLosses, 0x8009.01–.C0 (R455). -/
abbrev Obj.cdrLockLosses : Nat := 0x800901
/-- CorrectedSymbols, 0x800A.01–.C0 (R455). -/
abbrev Obj.correctedSymbols : Nat := 0x800a01
/-- PortState, 0x8040.01–.18 (R456). -/
abbrev Obj.portState : Nat := 0x804001
/-- PortEnable, 0x8041.01–.18 (R456). -/
abbrev Obj.portEnable : Nat := 0x804101
/-- PortRate, 0x8042.01–.18 (R456). -/
abbrev Obj.portRate : Nat := 0x804201
/-- PortFec, 0x8043.01–.18 (R456). -/
abbrev Obj.portFec : Nat := 0x804301
/-- PortPrecode, 0x8044.01–.18 (R456). -/
abbrev Obj.portPrecode : Nat := 0x804401
/-- CodewordsCorrected, 0x8045.01–.18 (R456). -/
abbrev Obj.codewordsCorrected : Nat := 0x804501
/-- CodewordsUncorrectable, 0x8046.01–.18 (R456). -/
abbrev Obj.codewordsUncorrectable : Nat := 0x804601
/-- FlitReplays, 0x8047.01–.18 (R456). -/
abbrev Obj.flitReplays : Nat := 0x804701
/-- FlitCrcErrors, 0x8048.01–.18 (R456). -/
abbrev Obj.flitCrcErrors : Nat := 0x804801
/-- Retrains, 0x8049.01–.18 (R456). -/
abbrev Obj.retrains : Nat := 0x804901
/-- FlitsSent, 0x804A.01–.18 (R456). -/
abbrev Obj.flitsSent : Nat := 0x804a01
/-- FlitsReceived, 0x804B.01–.18 (R456). -/
abbrev Obj.flitsReceived : Nat := 0x804b01
/-- QualifyCodewords, 0x8080.01 (R456). -/
abbrev Obj.qualifyCodewords : Nat := 0x808001
/-- RetryBufferBlocks, 0x8080.02 (R456). -/
abbrev Obj.retryBufferBlocks : Nat := 0x808002
/-- ReplayTimeoutNs, 0x8080.03 (R456). -/
abbrev Obj.replayTimeoutNs : Nat := 0x808003
/-- RemoteTimeoutMs, 0x8080.04 (R456). -/
abbrev Obj.remoteTimeoutMs : Nat := 0x808004
/-- LinkUpMaxCorrected, 0x8081.01 (R456). -/
abbrev Obj.linkUpMaxCorrected : Nat := 0x808101
/-- LinkDownUncorrectable, 0x8081.02 (R456). -/
abbrev Obj.linkDownUncorrectable : Nat := 0x808102
/-- PortDownLimitMs, 0x8081.03 (R456). -/
abbrev Obj.portDownLimitMs : Nat := 0x808103
/-- TtlExpired, 0x8082.01 (R456). -/
abbrev Obj.ttlExpired : Nat := 0x808201
/-- RouteDiscards, 0x8082.02 (R456). -/
abbrev Obj.routeDiscards : Nat := 0x808202
/-- LateResponses, 0x8082.03 (R456). -/
abbrev Obj.lateResponses : Nat := 0x808203
/-- RemoteTimeouts, 0x8082.04 (R456). -/
abbrev Obj.remoteTimeouts : Nat := 0x808204
/-- LinkFlags, 0x8082.05 (R456). -/
abbrev Obj.linkFlags : Nat := 0x808205
/-- DeviceNumber, 0x8100.01 (R457). -/
abbrev Obj.deviceNumber : Nat := 0x810001
/-- DeviceNumberInForce, 0x8100.02 (R457). -/
abbrev Obj.deviceNumberInForce : Nat := 0x810002
/-- RouteTable, 0x8110.00–0x8120.00 (R457). -/
abbrev Obj.routeTable : Nat := 0x811000
/-- MulticastTable, 0x8130.00 (R457). -/
abbrev Obj.multicastTable : Nat := 0x813000
/-- HostLinkState, 0x9000.01 (R477). -/
abbrev Obj.hostLinkState : Nat := 0x900001
/-- HostLinkWidth, 0x9000.02 (R477). -/
abbrev Obj.hostLinkWidth : Nat := 0x900002
/-- HostLinkRate, 0x9000.03 (R477). -/
abbrev Obj.hostLinkRate : Nat := 0x900003
/-- HostLinkDowns, 0x9000.04 (R477). -/
abbrev Obj.hostLinkDowns : Nat := 0x900004
/-- HotResets, 0x9000.05 (R477). -/
abbrev Obj.hotResets : Nat := 0x900005
/-- HostWindowBase, 0x9001.01 (R477). -/
abbrev Obj.hostWindowBase : Nat := 0x900101
/-- Bar2Aperture, 0x9001.02 (R477). -/
abbrev Obj.bar2Aperture : Nat := 0x900102
/-- Bar2Errors, 0x9002.01 (R477). -/
abbrev Obj.bar2Errors : Nat := 0x900201
/-- HostReadTimeouts, 0x9002.02 (R477). -/
abbrev Obj.hostReadTimeouts : Nat := 0x900202
/-- HostUncorrectable, 0x9002.03 (R477). -/
abbrev Obj.hostUncorrectable : Nat := 0x900203
/-- MsixDropped, 0x9002.04 (R477). -/
abbrev Obj.msixDropped : Nat := 0x900204
/-- WindowWritesDropped, 0x9002.05 (R477). -/
abbrev Obj.windowWritesDropped : Nat := 0x900205
/-- HostFlags, 0x9002.06 (R477). -/
abbrev Obj.hostFlags : Nat := 0x900206
/-- WindowFree, 0x9003.01 (R477). -/
abbrev Obj.windowFree : Nat := 0x900301
/-- WindowBytesTaken, 0x9003.02 (R477). -/
abbrev Obj.windowBytesTaken : Nat := 0x900302
/-- WindowRestart, 0x9003.03 (R477). -/
abbrev Obj.windowRestart : Nat := 0x900303
/-- DeviceState, 0x2000.01 (R499). -/
abbrev Obj.deviceState : Nat := 0x200001
/-- StartupStep, 0x2000.02 (R499). -/
abbrev Obj.startupStep : Nat := 0x200002
/-- FailedStep, 0x2000.03 (R499). -/
abbrev Obj.failedStep : Nat := 0x200003
/-- ResetCause, 0x2000.04 (R499). -/
abbrev Obj.resetCause : Nat := 0x200004
/-- ResetCount, 0x2000.05 (R499). -/
abbrev Obj.resetCount : Nat := 0x200005
/-- TrimLoads, 0x2000.06 (R499). -/
abbrev Obj.trimLoads : Nat := 0x200006
/-- StartupTimeUs, 0x2000.07 (R499). -/
abbrev Obj.startupTimeUs : Nat := 0x200007
/-- SoftwareReset, 0x2001.01 (R499). -/
abbrev Obj.softwareReset : Nat := 0x200101
/-- ReleaseReset, 0x2001.02 (R499). -/
abbrev Obj.releaseReset : Nat := 0x200102
/-- FieldResetReach, 0x2001.03 (R499). -/
abbrev Obj.fieldResetReach : Nat := 0x200103
/-- HeldResets, 0x2001.04 (R499). -/
abbrev Obj.heldResets : Nat := 0x200104
/-- ResetRequestsRefused, 0x2001.05 (R499). -/
abbrev Obj.resetRequestsRefused : Nat := 0x200105
/-- CabinetResets, 0x2002.01 (R499). -/
abbrev Obj.cabinetResets : Nat := 0x200201
/-- BlockResets, 0x2002.02 (R499). -/
abbrev Obj.blockResets : Nat := 0x200202
/-- ClockControllerResets, 0x2002.03 (R499). -/
abbrev Obj.clockControllerResets : Nat := 0x200203
/-- SteeringReloads, 0x2002.04 (R499). -/
abbrev Obj.steeringReloads : Nat := 0x200204
/-- FenceStoreReloads, 0x2002.05 (R499). -/
abbrev Obj.fenceStoreReloads : Nat := 0x200205
/-- RouteEntryReloads, 0x2002.06 (R499). -/
abbrev Obj.routeEntryReloads : Nat := 0x200206
/-- ComplexResets, 0x2002.07 (R499). -/
abbrev Obj.complexResets : Nat := 0x200207
/-- ClockFrequency, 0x2100.01–.19 (R500). -/
abbrev Obj.clockFrequency : Nat := 0x210001
/-- ClockState, 0x2101.01–.19 (R500). -/
abbrev Obj.clockState : Nat := 0x210101
/-- OscillatorState, 0x2102.01 (R500). -/
abbrev Obj.oscillatorState : Nat := 0x210201
/-- PllLockLosses, 0x2102.02 (R500). -/
abbrev Obj.pllLockLosses : Nat := 0x210202
/-- ClockFlags, 0x2102.03 (R500). -/
abbrev Obj.clockFlags : Nat := 0x210203
/-- PowerLimit, 0x2200.01 (R501). -/
abbrev Obj.powerLimit : Nat := 0x220001
/-- InputPower, 0x2200.02 (R501). -/
abbrev Obj.inputPower : Nat := 0x220002
/-- InputPowerPeak, 0x2200.03 (R501). -/
abbrev Obj.inputPowerPeak : Nat := 0x220003
/-- InputVoltage, 0x2200.04 (R501). -/
abbrev Obj.inputVoltage : Nat := 0x220004
/-- ThermalThrottleC, 0x2200.05 (R501). -/
abbrev Obj.thermalThrottleC : Nat := 0x220005
/-- HottestJunction, 0x2200.06 (R501). -/
abbrev Obj.hottestJunction : Nat := 0x220006
/-- ThermalTrips, 0x2200.07 (R501). -/
abbrev Obj.thermalTrips : Nat := 0x220007
/-- SupplyFaults, 0x2200.08 (R501). -/
abbrev Obj.supplyFaults : Nat := 0x220008
/-- PowerFlags, 0x2200.09 (R501). -/
abbrev Obj.powerFlags : Nat := 0x220009
/-- CabinetPowerState, 0x2201.01–.08 (R501). -/
abbrev Obj.cabinetPowerState : Nat := 0x220101
/-- JunctionTemperature, 0x2202.01–.08 (R501). -/
abbrev Obj.junctionTemperature : Nat := 0x220201
/-- IdentityPublicKey, 0xA000.01 (R515). -/
abbrev Obj.identityPublicKey : Nat := 0xa00001
/-- IdentityCertificate, 0xA000.02 (R515). -/
abbrev Obj.identityCertificate : Nat := 0xa00002
/-- VendorKeyDigest, 0xA000.03 (R515). -/
abbrev Obj.vendorKeyDigest : Nat := 0xa00003
/-- RollbackFloor, 0xA000.04 (R515). -/
abbrev Obj.rollbackFloor : Nat := 0xa00004
/-- DebugEnabled, 0xA000.05 (R515). -/
abbrev Obj.debugEnabled : Nat := 0xa00005
/-- KeyEnroll, 0xA001.01 (R515). -/
abbrev Obj.keyEnroll : Nat := 0xa00101
/-- KeyRevoke, 0xA001.02 (R515). -/
abbrev Obj.keyRevoke : Nat := 0xa00102
/-- KeySlot, 0xA010.01–.08 (R515). -/
abbrev Obj.keySlot : Nat := 0xa01001
/-- UpdateState, 0xA020.01 (R515). -/
abbrev Obj.updateState : Nat := 0xa02001
/-- UpdateCommand, 0xA020.02 (R515). -/
abbrev Obj.updateCommand : Nat := 0xa02002
/-- UpdateChunk, 0xA020.03 (R515). -/
abbrev Obj.updateChunk : Nat := 0xa02003
/-- UpdateOffset, 0xA020.04 (R515). -/
abbrev Obj.updateOffset : Nat := 0xa02004
/-- UpdateFromMemory, 0xA020.05 (R515). -/
abbrev Obj.updateFromMemory : Nat := 0xa02005
/-- BootSlot, 0xA020.06 (R515). -/
abbrev Obj.bootSlot : Nat := 0xa02006
/-- UpdateResult, 0xA020.07 (R515). -/
abbrev Obj.updateResult : Nat := 0xa02007
/-- StagedVersion, 0xA020.08 (R515). -/
abbrev Obj.stagedVersion : Nat := 0xa02008
/-- StandbyState, 0xA020.09 (R515). -/
abbrev Obj.standbyState : Nat := 0xa02009
/-- Takeovers, 0xA021.01 (R515). -/
abbrev Obj.takeovers : Nat := 0xa02101
/-- UpdatesActivated, 0xA021.02 (R515). -/
abbrev Obj.updatesActivated : Nat := 0xa02102
/-- UpdatesRejected, 0xA021.03 (R515). -/
abbrev Obj.updatesRejected : Nat := 0xa02103
/-- AttestationsSigned, 0xA021.04 (R515). -/
abbrev Obj.attestationsSigned : Nat := 0xa02104
/-- SecurityFlags, 0xA021.05 (R515). -/
abbrev Obj.securityFlags : Nat := 0xa02105
/-- AttestNonce, 0xA030.01 (R515). -/
abbrev Obj.attestNonce : Nat := 0xa03001
/-- AttestReport, 0xA030.02 (R515). -/
abbrev Obj.attestReport : Nat := 0xa03002

/-- Rows of the object tables, group A, part 0. -/
def rowsA0 : List Row := [
  ⟨0x100000, 1, 1, 0, .u8, .const, false, false, .num 0x09, .any⟩,
  ⟨0x100001, 1, 1, 0, .vstr, .const, false, false, .bytes [81, 111, 114, 98, 101, 110], .any⟩,
  ⟨0x100002, 1, 1, 0, .vstr, .const, false, false, .bytes [84, 97, 109, 101, 110, 97, 99, 105, 97], .any⟩,
  ⟨0x100003, 1, 1, 0, .vstr, .const, false, false, .bytes Config.orderingNumber, .any⟩,
  ⟨0x100004, 1, 1, 0, .u32, .const, false, false, .num 0x00008150, .any⟩,
  ⟨0x100005, 1, 1, 0, .u8, .const, false, false, .num Config.gddrDensity, .any⟩,
  ⟨0x100006, 1, 1, 0, .u64, .const, false, false, .num Config.gddrCapacity, .any⟩,
  ⟨0x100007, 1, 1, 0, .vstr, .const, false, false, .bytes Config.serialNumber, .any⟩,
  ⟨0x100008, 1, 1, 0, .u16, .const, false, false, .num Config.siliconStepping.toNat, .any⟩,
  ⟨0x100009, 1, 1, 0, .u32, .const, false, false, .num Config.manufactureDate.toNat, .any⟩,
  ⟨0x100100, 1, 1, 0, .u8, .const, false, false, .num 0x05, .any⟩,
  ⟨0x100101, 1, 1, 0, .u32, .ro, false, false, .num 0, .any⟩,
  ⟨0x100102, 1, 1, 0, .octets, .ro, false, false, .bytes [], .any⟩,
  ⟨0x100103, 1, 1, 0, .u8, .ro, false, false, .num 0, .any⟩,
  ⟨0x100104, 1, 1, 0, .u8, .ro, false, false, .num 0, .any⟩,
  ⟨0x100105, 1, 1, 0, .u32, .const, false, false, .num Config.bootRomVersion.toNat, .any⟩,
  ⟨0x100200, 1, 1, 0, .u8, .const, false, false, .num 0x04, .any⟩,
  ⟨0x100201, 1, 1, 0, .u16, .ro, false, false, .num 0, .any⟩,
  ⟨0x100202, 1, 1, 0, .u16, .const, false, false, .num 256, .any⟩,
  ⟨0x100203, 1, 1, 0, .u16, .const, false, false, .num 64, .any⟩,
  ⟨0x100204, 1, 1, 0, .u16, .const, false, false, .num 1024, .any⟩,
  ⟨0x110000, 1, 1, 0, .u8, .const, false, false, .num 0x07, .any⟩,
  ⟨0x110001, 1, 1, 0, .u8, .ro, false, true, .num 0, .any⟩,
  ⟨0x110002, 1, 1, 0, .u8, .ro, false, false, .num 0x00, .any⟩,
  ⟨0x110003, 1, 1, 0, .u8, .ro, false, false, .num 0, .any⟩,
  ⟨0x110004, 1, 1, 0, .u32, .ro, false, false, .num 0, .any⟩,
  ⟨0x110005, 1, 1, 0, .u8, .ro, false, false, .num 0x00, .any⟩,
  ⟨0x110006, 1, 1, 0, .u32, .ro, false, false, .num 0, .any⟩,
  ⟨0x110007, 1, 1, 0, .u32, .ro, false, false, .num 0, .any⟩,
  ⟨0x110100, 1, 1, 0, .u8, .const, false, false, .num 0x12, .any⟩,
  ⟨0x110101, 8, 1, 0, .u64, .rw, false, false, .num 0, .rule⟩,
  ⟨0x110109, 1, 1, 0, .u8, .rw, false, false, .num 0, .range 0 2⟩,
  ⟨0x11010a, 1, 1, 0, .u64, .rw, false, false, .num 0, .aligned 4096⟩,
  ⟨0x11010b, 1, 1, 0, .u64, .rw, false, false, .num 0, .aligned 4096⟩,
  ⟨0x11010c, 1, 1, 0, .u16, .rw, false, false, .num 0, .ring 16 4096⟩,
  ⟨0x11010d, 1, 1, 0, .u16, .rw, false, false, .num 0, .rule⟩,
  ⟨0x11010e, 1, 1, 0, .u16, .ro, false, false, .num 0, .any⟩,
  ⟨0x11010f, 1, 1, 0, .u16, .ro, false, false, .num 0, .any⟩,
  ⟨0x110110, 1, 1, 0, .u16, .rw, false, false, .num 0, .rule⟩,
  ⟨0x110111, 1, 1, 0, .u16, .rw, false, false, .num 0, .range 0 2047⟩]

/-- Rows of the object tables, group A, part 1. -/
def rowsA1 : List Row := [
  ⟨0x110112, 1, 1, 0, .u32, .ro, false, false, .num 0, .any⟩,
  ⟨0x110200, 1, 1, 0, .u8, .const, false, false, .num 0x02, .any⟩,
  ⟨0x110201, 1, 1, 0, .u32, .rwp, true, false, .num 1000, .range 100 60000⟩,
  ⟨0x110202, 1, 1, 0, .u16, .rwp, true, false, .num 0xFFFF, .rule⟩,
  ⟨0x110300, 1, 1, 0, .u8, .const, false, false, .num 0x03, .any⟩,
  ⟨0x110301, 1, 1, 0, .u16, .ro, false, false, .num 0x0000, .any⟩,
  ⟨0x110302, 1, 1, 0, .u32, .ro, false, false, .num 0x00000000, .any⟩,
  ⟨0x110303, 1, 1, 0, .u32, .ro, false, false, .num 0, .any⟩,
  ⟨0x114100, 1, 127, 1, .u8, .const, false, false, .num 0x12, .any⟩,
  ⟨0x114101, 8, 127, 1, .u64, .rw, false, false, .num 0, .rule⟩,
  ⟨0x114109, 1, 127, 1, .u8, .rw, false, false, .num 0, .range 0 2⟩,
  ⟨0x11410a, 1, 127, 1, .u64, .rw, false, false, .num 0, .aligned 4096⟩,
  ⟨0x11410b, 1, 127, 1, .u64, .rw, false, false, .num 0, .aligned 4096⟩,
  ⟨0x11410c, 1, 127, 1, .u16, .rw, false, false, .num 0, .ring 16 4096⟩,
  ⟨0x11410d, 1, 127, 1, .u16, .rw, false, false, .num 0, .rule⟩,
  ⟨0x11410e, 1, 127, 1, .u16, .ro, false, false, .num 0, .any⟩,
  ⟨0x11410f, 1, 127, 1, .u16, .ro, false, false, .num 0, .any⟩,
  ⟨0x114110, 1, 127, 1, .u16, .rw, false, false, .num 0, .rule⟩,
  ⟨0x114111, 1, 127, 1, .u16, .rw, false, false, .num 0, .range 0 2047⟩,
  ⟨0x114112, 1, 127, 1, .u32, .ro, false, false, .num 0, .any⟩,
  ⟨0x11c000, 1, 1, 0, .u8, .const, false, false, .num 0x12, .any⟩,
  ⟨0x11c001, 8, 1, 0, .u64, .rw, false, false, .num 0, .rule⟩,
  ⟨0x11c009, 1, 1, 0, .u8, .rw, false, false, .num 0, .range 0 2⟩,
  ⟨0x11c00a, 1, 1, 0, .u64, .rw, false, false, .num 0, .aligned 4096⟩,
  ⟨0x11c00b, 1, 1, 0, .u64, .rw, false, false, .num 0, .aligned 4096⟩,
  ⟨0x11c00c, 1, 1, 0, .u16, .rw, false, false, .num 0, .ring 16 4096⟩,
  ⟨0x11c00d, 1, 1, 0, .u16, .rw, false, false, .num 0, .rule⟩,
  ⟨0x11c00e, 1, 1, 0, .u16, .ro, false, false, .num 0, .any⟩,
  ⟨0x11c00f, 1, 1, 0, .u16, .ro, false, false, .num 0, .any⟩,
  ⟨0x11c010, 1, 1, 0, .u16, .rw, false, false, .num 0, .rule⟩,
  ⟨0x11c011, 1, 1, 0, .u16, .rw, false, false, .num 0, .range 0 2047⟩,
  ⟨0x11c012, 1, 1, 0, .u32, .ro, false, false, .num 0, .any⟩,
  ⟨0x11fe00, 1, 1, 0, .u8, .const, false, false, .num 0x12, .any⟩,
  ⟨0x11fe01, 8, 1, 0, .u64, .rw, false, false, .num 0, .rule⟩,
  ⟨0x11fe09, 1, 1, 0, .u8, .rw, false, false, .num 0, .range 0 2⟩,
  ⟨0x11fe0a, 1, 1, 0, .u64, .rw, false, false, .num 0, .aligned 4096⟩,
  ⟨0x11fe0b, 1, 1, 0, .u64, .rw, false, false, .num 0, .aligned 4096⟩,
  ⟨0x11fe0c, 1, 1, 0, .u16, .rw, false, false, .num 0, .ring 16 4096⟩,
  ⟨0x11fe0d, 1, 1, 0, .u16, .rw, false, false, .num 0, .rule⟩,
  ⟨0x11fe0e, 1, 1, 0, .u16, .ro, false, false, .num 0, .any⟩]

/-- Rows of the object tables, group A, part 2. -/
def rowsA2 : List Row := [
  ⟨0x11fe0f, 1, 1, 0, .u16, .ro, false, false, .num 0, .any⟩,
  ⟨0x11fe10, 1, 1, 0, .u16, .rw, false, false, .num 0, .rule⟩,
  ⟨0x11fe11, 1, 1, 0, .u16, .rw, false, false, .num 0, .range 0 2047⟩,
  ⟨0x11fe12, 1, 1, 0, .u32, .ro, false, false, .num 0, .any⟩,
  ⟨0x120000, 1, 1, 0, .u8, .const, false, false, .num 0x07, .any⟩,
  ⟨0x120001, 1, 1, 0, .u8, .ro, false, true, .num 4, .any⟩,
  ⟨0x120002, 1, 1, 0, .u32, .ro, false, false, .num 0, .any⟩,
  ⟨0x120003, 1, 1, 0, .u8, .ro, false, false, .num 0, .any⟩,
  ⟨0x120004, 1, 1, 0, .u64, .ro, false, false, .num 0, .any⟩,
  ⟨0x120005, 1, 1, 0, .u32, .ro, false, false, .num 0, .any⟩,
  ⟨0x120006, 1, 1, 0, .u32, .ro, false, false, .num 0, .any⟩,
  ⟨0x120007, 1, 1, 0, .u32, .w1c, false, false, .num 0x00000000, .any⟩,
  ⟨0x120100, 1, 1, 0, .u8, .const, false, false, .num 0x04, .any⟩,
  ⟨0x120101, 1, 1, 0, .u8, .wo, false, false, .num 0, .oneOf [1]⟩,
  ⟨0x120102, 1, 1, 0, .u32, .wo, false, false, .num 0, .oneOf [0xF0F0]⟩,
  ⟨0x120103, 1, 1, 0, .u8, .rwp, true, false, .num 75, .range 50 95⟩,
  ⟨0x120104, 1, 1, 0, .bool, .rwp, true, false, .num 1, .any⟩]

/-- Rows of group A. -/
def rowsA : List Row := rowsA0 ++ rowsA1 ++ rowsA2

/-- Rows of the object tables, group B, part 0. -/
def rowsB0 : List Row := [
  ⟨0x200000, 1, 1, 0, .u8, .const, false, false, .num 0x07, .any⟩,
  ⟨0x200001, 1, 1, 0, .u8, .ro, false, true, .num 1, .any⟩,
  ⟨0x200002, 1, 1, 0, .u8, .ro, false, false, .num 1, .any⟩,
  ⟨0x200003, 1, 1, 0, .u8, .ro, false, false, .num 0, .any⟩,
  ⟨0x200004, 1, 1, 0, .u16, .ro, true, false, .num 0x0001, .any⟩,
  ⟨0x200005, 1, 1, 0, .u32, .ro, true, false, .num 0, .any⟩,
  ⟨0x200006, 1, 1, 0, .u8, .ro, false, false, .num 1, .any⟩,
  ⟨0x200007, 1, 1, 0, .u32, .ro, false, false, .num 0, .any⟩,
  ⟨0x200100, 1, 1, 0, .u8, .const, false, false, .num 0x05, .any⟩,
  ⟨0x200101, 1, 1, 0, .u32, .wo, false, false, .num 0, .rule⟩,
  ⟨0x200102, 1, 1, 0, .u8, .wo, false, false, .num 0, .rule⟩,
  ⟨0x200103, 1, 1, 0, .u16, .rwp, true, false, .num 0x0001, .rule⟩,
  ⟨0x200104, 1, 1, 0, .u8, .ro, false, false, .num 0, .any⟩,
  ⟨0x200105, 1, 1, 0, .u32, .ro, false, false, .num 0, .any⟩,
  ⟨0x200200, 1, 1, 0, .u8, .const, false, false, .num 0x07, .any⟩,
  ⟨0x200201, 1, 1, 0, .u32, .ro, false, false, .num 0, .any⟩,
  ⟨0x200202, 1, 1, 0, .u32, .ro, false, false, .num 0, .any⟩,
  ⟨0x200203, 1, 1, 0, .u32, .ro, false, false, .num 0, .any⟩,
  ⟨0x200204, 1, 1, 0, .u32, .ro, false, false, .num 0, .any⟩,
  ⟨0x200205, 1, 1, 0, .u32, .ro, false, false, .num 0, .any⟩,
  ⟨0x200206, 1, 1, 0, .u32, .ro, false, false, .num 0, .any⟩,
  ⟨0x200207, 1, 1, 0, .u32, .ro, false, false, .num 0, .any⟩,
  ⟨0x210000, 1, 1, 0, .u8, .const, false, false, .num 0x19, .any⟩,
  ⟨0x210001, 25, 1, 0, .u32, .ro, false, false, .num 0, .any⟩,
  ⟨0x210100, 1, 1, 0, .u8, .const, false, false, .num 0x19, .any⟩,
  ⟨0x210101, 25, 1, 0, .u8, .ro, false, true, .num 0, .any⟩,
  ⟨0x210200, 1, 1, 0, .u8, .const, false, false, .num 0x03, .any⟩,
  ⟨0x210201, 1, 1, 0, .u8, .ro, false, true, .num 0, .any⟩,
  ⟨0x210202, 1, 1, 0, .u32, .ro, false, false, .num 0, .any⟩,
  ⟨0x210203, 1, 1, 0, .u8, .w1c, false, false, .num 0x00, .any⟩,
  ⟨0x220000, 1, 1, 0, .u8, .const, false, false, .num 0x09, .any⟩,
  ⟨0x220001, 1, 1, 0, .u16, .rwp, true, false, .num 4200, .range 1800 4200⟩,
  ⟨0x220002, 1, 1, 0, .u16, .ro, false, false, .num 0, .any⟩,
  ⟨0x220003, 1, 1, 0, .u16, .ro, false, false, .num 0, .any⟩,
  ⟨0x220004, 1, 1, 0, .u32, .ro, false, false, .num 0, .any⟩,
  ⟨0x220005, 1, 1, 0, .u8, .rwp, true, false, .num 100, .range 85 105⟩,
  ⟨0x220006, 1, 1, 0, .i8, .ro, false, false, .num 0, .any⟩,
  ⟨0x220007, 1, 1, 0, .u32, .ro, true, false, .num 0, .any⟩,
  ⟨0x220008, 1, 1, 0, .u32, .ro, true, false, .num 0, .any⟩,
  ⟨0x220009, 1, 1, 0, .u8, .w1c, false, false, .num 0x00, .any⟩]

/-- Rows of the object tables, group B, part 1. -/
def rowsB1 : List Row := [
  ⟨0x220100, 1, 1, 0, .u8, .const, false, false, .num 0x08, .any⟩,
  ⟨0x220101, 8, 1, 0, .u8, .ro, false, true, .num 0, .any⟩,
  ⟨0x220200, 1, 1, 0, .u8, .const, false, false, .num 0x08, .any⟩,
  ⟨0x220201, 8, 1, 0, .i8, .ro, false, false, .num 0, .any⟩]

/-- Rows of group B. -/
def rowsB : List Row := rowsB0 ++ rowsB1

/-- Rows of the object tables, group C, part 0. -/
def rowsC0 : List Row := [
  ⟨0x300000, 1, 8, 256, .u8, .const, false, false, .num 0x96, .any⟩,
  ⟨0x300100, 1, 8, 256, .u8, .const, false, false, .num 0x96, .any⟩,
  ⟨0x300200, 1, 8, 256, .u8, .const, false, false, .num 0x96, .any⟩,
  ⟨0x300300, 1, 8, 256, .u8, .const, false, false, .num 0x96, .any⟩,
  ⟨0x300400, 1, 8, 256, .u8, .const, false, false, .num 0x96, .any⟩,
  ⟨0x300500, 1, 8, 256, .u8, .const, false, false, .num 0x96, .any⟩,
  ⟨0x300600, 1, 8, 256, .u8, .const, false, false, .num 0x96, .any⟩,
  ⟨0x300700, 1, 8, 256, .u8, .const, false, false, .num 0x96, .any⟩,
  ⟨0x300800, 1, 8, 256, .u8, .const, false, false, .num 0x96, .any⟩,
  ⟨0x300900, 1, 8, 256, .u8, .const, false, false, .num 0x96, .any⟩,
  ⟨0x300a00, 1, 8, 256, .u8, .const, false, false, .num 0x96, .any⟩,
  ⟨0x300b00, 1, 8, 256, .u8, .const, false, false, .num 0x96, .any⟩,
  ⟨0x300c00, 1, 8, 256, .u8, .const, false, false, .num 0x96, .any⟩,
  ⟨0x300d00, 1, 8, 256, .u8, .const, false, false, .num 0x96, .any⟩,
  ⟨0x300e00, 1, 8, 256, .u8, .const, false, false, .num 0x96, .any⟩,
  ⟨0x300f00, 1, 8, 256, .u8, .const, false, false, .num 0x96, .any⟩,
  ⟨0x301000, 1, 8, 256, .u8, .const, false, false, .num 0x96, .any⟩,
  ⟨0x301100, 1, 8, 256, .u8, .const, false, false, .num 0x96, .any⟩,
  ⟨0x300001, 150, 8, 256, .u8, .ro, false, true, .num 0, .any⟩,
  ⟨0x300101, 150, 8, 256, .u8, .ro, false, false, .num 0, .any⟩,
  ⟨0x300201, 150, 8, 256, .u64, .ro, false, false, .num 0, .any⟩,
  ⟨0x300301, 150, 8, 256, .u16, .ro, false, false, .num 0x0000, .any⟩,
  ⟨0x300401, 150, 8, 256, .u16, .ro, false, false, .num 0xFFFF, .any⟩,
  ⟨0x300501, 150, 8, 256, .u16, .ro, false, false, .num 0x0000, .any⟩,
  ⟨0x300601, 150, 8, 256, .u64, .ro, false, false, .num 0, .any⟩,
  ⟨0x300701, 150, 8, 256, .u32, .ro, false, false, .num 0, .any⟩,
  ⟨0x300801, 150, 8, 256, .u32, .ro, false, false, .num 0, .any⟩,
  ⟨0x300901, 150, 8, 256, .u16, .ro, false, false, .num 0, .any⟩,
  ⟨0x300a01, 150, 8, 256, .u64, .ro, false, false, .num 0, .any⟩,
  ⟨0x300b01, 150, 8, 256, .u64, .ro, false, false, .num 0, .any⟩,
  ⟨0x300c01, 150, 8, 256, .u32, .ro, false, false, .num 0, .any⟩,
  ⟨0x300d01, 150, 8, 256, .u64, .ro, false, false, .num 0, .any⟩,
  ⟨0x300e01, 150, 8, 256, .u64, .ro, false, false, .num 0, .any⟩,
  ⟨0x300f01, 150, 8, 256, .u64, .ro, false, false, .num 0, .any⟩,
  ⟨0x301001, 150, 8, 256, .u8, .ro, false, false, .num 8, .any⟩,
  ⟨0x301101, 150, 8, 256, .u32, .ro, false, false, .num 0x00000000, .any⟩,
  ⟨0x302000, 1, 8, 256, .u8, .const, false, false, .num 0x96, .any⟩,
  ⟨0x302100, 1, 8, 256, .u8, .const, false, false, .num 0x96, .any⟩,
  ⟨0x302200, 1, 8, 256, .u8, .const, false, false, .num 0x96, .any⟩,
  ⟨0x302300, 1, 8, 256, .u8, .const, false, false, .num 0x96, .any⟩]

/-- Rows of the object tables, group C, part 1. -/
def rowsC1 : List Row := [
  ⟨0x302400, 1, 8, 256, .u8, .const, false, false, .num 0x96, .any⟩,
  ⟨0x302500, 1, 8, 256, .u8, .const, false, false, .num 0x96, .any⟩,
  ⟨0x302600, 1, 8, 256, .u8, .const, false, false, .num 0x96, .any⟩,
  ⟨0x302700, 1, 8, 256, .u8, .const, false, false, .num 0x96, .any⟩,
  ⟨0x302800, 1, 8, 256, .u8, .const, false, false, .num 0x96, .any⟩,
  ⟨0x302001, 150, 8, 256, .u64, .ro, false, false, .num 0x0000000000000000, .any⟩,
  ⟨0x302101, 150, 8, 256, .u32, .ro, false, false, .num 0x00000000, .any⟩,
  ⟨0x302201, 150, 8, 256, .u64, .ro, false, false, .num 0, .any⟩,
  ⟨0x302301, 150, 8, 256, .u64, .ro, false, false, .num 0, .any⟩,
  ⟨0x302401, 150, 8, 256, .u32, .ro, false, false, .num 0, .any⟩,
  ⟨0x302501, 150, 8, 256, .u64, .ro, false, false, .num 0, .any⟩,
  ⟨0x302601, 150, 8, 256, .u32, .ro, false, false, .num 0, .any⟩,
  ⟨0x302701, 150, 8, 256, .u32, .ro, false, false, .num 0, .any⟩,
  ⟨0x302801, 150, 8, 256, .u32, .ro, false, false, .num 0x00000000, .any⟩,
  ⟨0x30f000, 1, 8, 256, .u8, .const, false, false, .num 0x06, .any⟩,
  ⟨0x30f001, 1, 8, 256, .u8, .ro, false, true, .num 0, .any⟩,
  ⟨0x30f002, 1, 8, 256, .u16, .ro, false, false, .num 0, .any⟩,
  ⟨0x30f003, 1, 8, 256, .u64, .ro, false, false, .num 0, .any⟩,
  ⟨0x30f004, 1, 8, 256, .u16, .ro, false, false, .num 0, .any⟩,
  ⟨0x30f005, 1, 8, 256, .u16, .ro, false, false, .num 0, .any⟩,
  ⟨0x30f006, 1, 8, 256, .u32, .ro, false, false, .num 0, .any⟩,
  ⟨0x30f100, 1, 8, 256, .u8, .const, false, false, .num 0x04, .any⟩,
  ⟨0x30f101, 1, 8, 256, .u16, .const, false, false, .num 48, .any⟩,
  ⟨0x30f102, 1, 8, 256, .u16, .const, false, false, .num 32, .any⟩,
  ⟨0x30f103, 1, 8, 256, .u8, .const, false, false, .num 8, .any⟩,
  ⟨0x30f104, 1, 8, 256, .u16, .const, false, false, .num 4096, .any⟩]

/-- Rows of group C. -/
def rowsC : List Row := rowsC0 ++ rowsC1

/-- Rows of the object tables, group D, part 0. -/
def rowsD0 : List Row := [
  ⟨0x380000, 1, 1, 0, .u8, .const, false, false, .num 0x04, .any⟩,
  ⟨0x380001, 1, 1, 0, .u64, .ro, false, false, .num 0, .any⟩,
  ⟨0x380002, 1, 1, 0, .u64, .ro, false, false, .num 0, .any⟩,
  ⟨0x380003, 1, 1, 0, .u8, .w1c, false, false, .num 0x00, .any⟩,
  ⟨0x380004, 1, 1, 0, .u32, .ro, false, false, .num 0, .any⟩,
  ⟨0x380100, 1, 1, 0, .u8, .const, false, false, .num 0x02, .any⟩,
  ⟨0x380101, 1, 1, 0, .u16, .rw, false, false, .num 0, .range 0 1199⟩,
  ⟨0x380102, 1, 1, 0, .u8, .rw, false, false, .num 0, .range 0 15⟩,
  ⟨0x380200, 1, 1, 0, .u8, .const, false, false, .num 0x05, .any⟩,
  ⟨0x380201, 1, 1, 0, .bool, .ro, false, false, .num 0, .any⟩,
  ⟨0x380202, 1, 1, 0, .u32, .ro, false, false, .num 0, .any⟩,
  ⟨0x380203, 1, 1, 0, .u64, .ro, false, false, .num 0, .any⟩,
  ⟨0x380204, 1, 1, 0, .u64, .ro, false, false, .num 0, .any⟩,
  ⟨0x380205, 1, 1, 0, .u8, .ro, false, false, .num 0x00, .any⟩,
  ⟨0x380300, 1, 1, 0, .u8, .const, false, false, .num 0x01, .any⟩,
  ⟨0x380301, 1, 1, 0, .u32, .rw, false, false, .num 0, .any⟩,
  ⟨0x380400, 1, 1, 0, .u8, .const, false, false, .num 0x05, .any⟩,
  ⟨0x380401, 1, 1, 0, .bool, .ro, false, false, .num 0, .any⟩,
  ⟨0x380402, 1, 1, 0, .u64, .ro, false, false, .num 0, .any⟩,
  ⟨0x380403, 1, 1, 0, .u64, .ro, false, false, .num 0, .any⟩,
  ⟨0x380404, 1, 1, 0, .u64, .ro, false, false, .num 0, .any⟩,
  ⟨0x380405, 1, 1, 0, .u8, .ro, false, false, .num 0x00, .any⟩,
  ⟨0x400000, 1, 1, 0, .u8, .const, false, false, .num 0x09, .any⟩,
  ⟨0x400001, 1, 1, 0, .u8, .const, false, false, .num 4, .any⟩,
  ⟨0x400002, 1, 1, 0, .u16, .const, false, false, .num 1024, .any⟩,
  ⟨0x400003, 1, 1, 0, .u16, .const, false, false, .num 512, .any⟩,
  ⟨0x400004, 1, 1, 0, .u16, .const, false, false, .num 256, .any⟩,
  ⟨0x400005, 1, 1, 0, .u32, .const, false, false, .num 65536, .any⟩,
  ⟨0x400006, 1, 1, 0, .u8, .const, false, false, .num 8, .any⟩,
  ⟨0x400007, 1, 1, 0, .u32, .const, false, false, .num 32768, .any⟩,
  ⟨0x400008, 1, 1, 0, .u16, .const, false, false, .num 1024, .any⟩,
  ⟨0x400009, 1, 1, 0, .u32, .const, false, false, .num 1048576, .any⟩,
  ⟨0x400100, 1, 1, 0, .u8, .const, false, false, .num 0x0A, .any⟩,
  ⟨0x400101, 1, 1, 0, .u64, .ro, false, false, .num 0, .any⟩,
  ⟨0x400102, 1, 1, 0, .u64, .ro, false, false, .num 0, .any⟩,
  ⟨0x400103, 1, 1, 0, .u32, .ro, false, false, .num 0, .any⟩,
  ⟨0x400104, 1, 1, 0, .u32, .ro, false, false, .num 0, .any⟩,
  ⟨0x400105, 1, 1, 0, .u64, .ro, false, false, .num 0, .any⟩,
  ⟨0x400106, 1, 1, 0, .u32, .ro, false, false, .num 0, .any⟩,
  ⟨0x400107, 1, 1, 0, .u32, .ro, false, false, .num 0, .any⟩]

/-- Rows of the object tables, group D, part 1. -/
def rowsD1 : List Row := [
  ⟨0x400108, 1, 1, 0, .u32, .ro, false, false, .num 0, .any⟩,
  ⟨0x400109, 1, 1, 0, .u32, .ro, false, false, .num 0, .any⟩,
  ⟨0x40010a, 1, 1, 0, .u8, .w1c, false, false, .num 0x00, .any⟩,
  ⟨0x401000, 1, 1, 0, .u8, .const, false, false, .num 0x02, .any⟩,
  ⟨0x401001, 1, 1, 0, .u8, .rw, false, false, .num 0, .range 0 7⟩,
  ⟨0x401002, 1, 1, 0, .u16, .rw, false, false, .num 0, .range 0 511⟩,
  ⟨0x401100, 1, 1, 0, .u8, .const, false, false, .num 0x0F, .any⟩,
  ⟨0x401101, 1, 1, 0, .u8, .ro, false, true, .num 0, .any⟩,
  ⟨0x401102, 1, 1, 0, .u32, .ro, false, false, .num 0, .any⟩,
  ⟨0x401103, 1, 1, 0, .u8, .ro, false, false, .num 0, .any⟩,
  ⟨0x401104, 1, 1, 0, .u8, .ro, false, false, .num 0x00, .any⟩,
  ⟨0x401105, 1, 1, 0, .u32, .ro, false, false, .num 0, .any⟩,
  ⟨0x401106, 1, 1, 0, .u32, .ro, false, false, .num 0, .any⟩,
  ⟨0x401107, 1, 1, 0, .u32, .ro, false, false, .num 0, .any⟩,
  ⟨0x401108, 1, 1, 0, .u32, .ro, false, false, .num 0, .any⟩,
  ⟨0x401109, 1, 1, 0, .u16, .ro, false, false, .num 0, .any⟩,
  ⟨0x40110a, 1, 1, 0, .octets, .ro, false, false, .bytes [], .any⟩,
  ⟨0x40110b, 1, 1, 0, .u8, .ro, false, false, .num 0, .any⟩,
  ⟨0x40110c, 1, 1, 0, .u32, .ro, false, false, .num 0, .any⟩,
  ⟨0x40110d, 1, 1, 0, .u64, .ro, false, false, .num 0, .any⟩,
  ⟨0x40110e, 1, 1, 0, .u64, .ro, false, false, .num 0, .any⟩,
  ⟨0x40110f, 1, 1, 0, .u32, .ro, false, false, .num 0, .any⟩,
  ⟨0x402000, 1, 8, 1, .u8, .const, false, false, .num 0x07, .any⟩,
  ⟨0x402001, 1, 8, 1, .u16, .ro, false, false, .num 0, .any⟩,
  ⟨0x402002, 1, 8, 1, .u16, .ro, false, false, .num 0, .any⟩,
  ⟨0x402003, 1, 8, 1, .u16, .ro, false, false, .num 0, .any⟩,
  ⟨0x402004, 1, 8, 1, .u16, .ro, false, false, .num 0, .any⟩,
  ⟨0x402005, 1, 8, 1, .u16, .ro, false, false, .num 0, .any⟩,
  ⟨0x402006, 1, 8, 1, .u32, .ro, false, false, .num 0, .any⟩,
  ⟨0x402007, 1, 8, 1, .u32, .ro, false, false, .num 0, .any⟩,
  ⟨0x410000, 1, 1, 0, .u8, .const, false, false, .num 0x07, .any⟩,
  ⟨0x410001, 1, 1, 0, .u8, .rwp, true, false, .num 40, .oneOf [28, 32, 36, 40]⟩,
  ⟨0x410002, 1, 1, 0, .u8, .ro, false, false, .num 40, .any⟩,
  ⟨0x410003, 1, 1, 0, .u8, .ro, false, true, .num 0, .any⟩,
  ⟨0x410004, 1, 1, 0, .u8, .ro, false, false, .num 0xFF, .any⟩,
  ⟨0x410005, 1, 1, 0, .u64, .rwp, true, false, .num 0x0000010101020208, .rule⟩,
  ⟨0x410006, 1, 1, 0, .u16, .rwp, true, false, .num 0x0818, .rule⟩,
  ⟨0x410007, 1, 1, 0, .u8, .ro, false, false, .num 15, .any⟩,
  ⟨0x410100, 1, 1, 0, .u8, .const, false, false, .num 0x07, .any⟩,
  ⟨0x410101, 1, 1, 0, .u64, .ro, false, false, .num 0, .any⟩]

/-- Rows of the object tables, group D, part 2. -/
def rowsD2 : List Row := [
  ⟨0x410102, 1, 1, 0, .u64, .ro, false, false, .num 0, .any⟩,
  ⟨0x410103, 1, 1, 0, .u64, .ro, false, false, .num 0, .any⟩,
  ⟨0x410104, 1, 1, 0, .u32, .ro, false, false, .num 0, .any⟩,
  ⟨0x410105, 1, 1, 0, .u64, .ro, false, false, .num 0, .any⟩,
  ⟨0x410106, 1, 1, 0, .u32, .ro, false, false, .num 0, .any⟩,
  ⟨0x410107, 1, 1, 0, .u8, .w1c, false, false, .num 0x00, .any⟩,
  ⟨0x411000, 1, 1, 0, .u8, .const, false, false, .num 0x08, .any⟩,
  ⟨0x411001, 8, 1, 0, .u8, .ro, false, true, .num 0, .any⟩,
  ⟨0x411100, 1, 1, 0, .u8, .const, false, false, .num 0x08, .any⟩,
  ⟨0x411101, 8, 1, 0, .i8, .ro, false, false, .num 0, .any⟩,
  ⟨0x418000, 1, 1, 0, .u8, .const, false, false, .num 0x04, .any⟩,
  ⟨0x418001, 1, 1, 0, .u16, .const, false, false, .num 256, .any⟩,
  ⟨0x418002, 1, 1, 0, .u16, .const, false, false, .num 16384, .any⟩,
  ⟨0x418003, 1, 1, 0, .u8, .const, false, false, .num 16, .any⟩,
  ⟨0x418004, 1, 1, 0, .u32, .const, false, false, .num 2000, .any⟩,
  ⟨0x418100, 1, 1, 0, .u8, .const, false, false, .num 0x08, .any⟩,
  ⟨0x418101, 1, 1, 0, .u64, .ro, false, false, .num 0, .any⟩,
  ⟨0x418102, 1, 1, 0, .u64, .ro, false, false, .num 0, .any⟩,
  ⟨0x418103, 1, 1, 0, .u64, .ro, false, false, .num 0, .any⟩,
  ⟨0x418104, 1, 1, 0, .u64, .ro, false, false, .num 0, .any⟩,
  ⟨0x418105, 1, 1, 0, .u64, .ro, false, false, .num 0, .any⟩,
  ⟨0x418106, 1, 1, 0, .u32, .ro, false, false, .num 0, .any⟩,
  ⟨0x418107, 1, 1, 0, .u32, .ro, false, false, .num 0, .any⟩,
  ⟨0x418108, 1, 1, 0, .u8, .w1c, false, false, .num 0x00, .any⟩,
  ⟨0x420000, 1, 1, 0, .u8, .const, false, false, .num 0x04, .any⟩,
  ⟨0x420001, 4, 1, 0, .u8, .ro, false, true, .num 0, .any⟩,
  ⟨0x420100, 1, 1, 0, .u8, .const, false, false, .num 0x04, .any⟩,
  ⟨0x420101, 4, 1, 0, .u8, .ro, false, false, .num 0, .any⟩,
  ⟨0x420200, 1, 1, 0, .u8, .const, false, false, .num 0x04, .any⟩,
  ⟨0x420201, 4, 1, 0, .u8, .ro, false, false, .num 0, .any⟩,
  ⟨0x420300, 1, 1, 0, .u8, .const, false, false, .num 0x04, .any⟩,
  ⟨0x420301, 4, 1, 0, .u64, .ro, false, false, .num 0, .any⟩,
  ⟨0x420400, 1, 1, 0, .u8, .const, false, false, .num 0x02, .any⟩,
  ⟨0x420401, 1, 1, 0, .u8, .rwp, true, false, .num 0, .range 0 2⟩,
  ⟨0x420402, 1, 1, 0, .u8, .rwp, true, false, .num 0, .range 0 1⟩,
  ⟨0x420500, 1, 1, 0, .u8, .const, false, false, .num 0x04, .any⟩,
  ⟨0x420501, 1, 1, 0, .u64, .ro, false, false, .num 0, .any⟩,
  ⟨0x420502, 1, 1, 0, .u32, .ro, false, false, .num 0, .any⟩,
  ⟨0x420503, 1, 1, 0, .u32, .ro, false, false, .num 0, .any⟩,
  ⟨0x420504, 1, 1, 0, .u8, .w1c, false, false, .num 0x00, .any⟩]

/-- Rows of group D. -/
def rowsD : List Row := rowsD0 ++ rowsD1 ++ rowsD2

/-- Rows of the object tables, group E, part 0. -/
def rowsE0 : List Row := [
  ⟨0x480000, 1, 1, 0, .u8, .const, false, false, .num 0x0A, .any⟩,
  ⟨0x480001, 1, 1, 0, .u8, .ro, false, true, .num 0, .any⟩,
  ⟨0x480002, 1, 1, 0, .u64, .ro, false, false, .num 0, .any⟩,
  ⟨0x480003, 1, 1, 0, .u64, .ro, false, false, .num 0, .any⟩,
  ⟨0x480004, 1, 1, 0, .u64, .ro, false, false, .num 0, .any⟩,
  ⟨0x480005, 1, 1, 0, .u32, .ro, false, false, .num 0, .any⟩,
  ⟨0x480006, 1, 1, 0, .u16, .ro, false, false, .num 0, .any⟩,
  ⟨0x480007, 1, 1, 0, .u16, .ro, false, false, .num 0, .any⟩,
  ⟨0x480008, 1, 1, 0, .u16, .ro, false, false, .num 0, .any⟩,
  ⟨0x480009, 1, 1, 0, .u32, .ro, false, false, .num 0, .any⟩,
  ⟨0x48000a, 1, 1, 0, .u16, .w1c, false, false, .num 0x0000, .any⟩,
  ⟨0x480100, 1, 1, 0, .u8, .const, false, false, .num 0x08, .any⟩,
  ⟨0x480101, 8, 1, 0, .u8, .ro, false, false, .num 0, .any⟩,
  ⟨0x480200, 1, 1, 0, .u8, .const, false, false, .num 0x06, .any⟩,
  ⟨0x480201, 6, 1, 0, .u64, .ro, false, false, .num 0, .any⟩,
  ⟨0x480300, 1, 1, 0, .u8, .const, false, false, .num 0x06, .any⟩,
  ⟨0x480301, 6, 1, 0, .u32, .ro, false, false, .num 0, .any⟩,
  ⟨0x480800, 1, 1, 0, .u8, .const, false, false, .num 0x08, .any⟩,
  ⟨0x480801, 8, 1, 0, .octets, .ro, true, false, .bytes (List.replicate 10220 0x00), .any⟩,
  ⟨0x480900, 1, 1, 0, .octets, .ro, false, false, .bytes [], .any⟩,
  ⟨0x480a00, 1, 1, 0, .u8, .const, false, false, .num 0x02, .any⟩,
  ⟨0x480a01, 1, 1, 0, .u16, .wo, false, false, .num 0xFFFF, .range 0 1199⟩,
  ⟨0x480a02, 1, 1, 0, .u16, .ro, false, false, .num 0, .any⟩,
  ⟨0x481000, 1, 1, 0, .u32, .rw, false, false, .num 0, .any⟩,
  ⟨0x481100, 1, 1, 0, .octets, .ro, false, false, .bytes [], .any⟩,
  ⟨0x481200, 1, 1, 0, .octets, .ro, false, false, .bytes [], .any⟩,
  ⟨0x481800, 1, 1, 0, .u8, .const, false, false, .num 0x04, .any⟩,
  ⟨0x481801, 1, 1, 0, .u16, .const, false, false, .num 1000, .any⟩,
  ⟨0x481802, 1, 1, 0, .u16, .const, false, false, .num 1024, .any⟩,
  ⟨0x481803, 1, 1, 0, .u32, .const, false, false, .num 67108864, .any⟩,
  ⟨0x481804, 1, 1, 0, .u16, .const, false, false, .num 8000, .any⟩,
  ⟨0x500000, 1, 1, 0, .u8, .const, false, false, .num 0x05, .any⟩,
  ⟨0x500001, 1, 1, 0, .u8, .const, false, false, .num 8, .any⟩,
  ⟨0x500002, 1, 1, 0, .u16, .const, false, false, .num 256, .any⟩,
  ⟨0x500003, 1, 1, 0, .u16, .const, false, false, .num 1024, .any⟩,
  ⟨0x500004, 1, 1, 0, .u32, .const, false, false, .num 245760, .any⟩,
  ⟨0x500005, 1, 1, 0, .u16, .const, false, false, .num 600, .any⟩,
  ⟨0x500100, 1, 1, 0, .u8, .const, false, false, .num 0x04, .any⟩,
  ⟨0x500101, 1, 1, 0, .u8, .rwp, true, false, .num 2, .range 1 100⟩,
  ⟨0x500102, 1, 1, 0, .u16, .rwp, true, false, .num 4000, .range 1000 8000⟩]

/-- Rows of the object tables, group E, part 1. -/
def rowsE1 : List Row := [
  ⟨0x500103, 1, 1, 0, .u32, .wo, false, false, .num 0, .rule⟩,
  ⟨0x500104, 1, 1, 0, .u8, .rwp, true, false, .num 5, .range 1 20⟩,
  ⟨0x500200, 1, 1, 0, .u8, .const, false, false, .num 0x09, .any⟩,
  ⟨0x500201, 1, 1, 0, .u16, .ro, false, false, .num 0, .any⟩,
  ⟨0x500202, 1, 1, 0, .u16, .ro, false, false, .num 0, .any⟩,
  ⟨0x500203, 1, 1, 0, .u64, .ro, false, false, .num 0, .any⟩,
  ⟨0x500204, 1, 1, 0, .u32, .ro, false, false, .num 0, .any⟩,
  ⟨0x500205, 1, 1, 0, .u32, .ro, false, false, .num 0, .any⟩,
  ⟨0x500206, 1, 1, 0, .u64, .ro, false, false, .num 0, .any⟩,
  ⟨0x500207, 1, 1, 0, .u32, .ro, false, false, .num 0, .any⟩,
  ⟨0x500208, 1, 1, 0, .u8, .ro, false, false, .num 8, .any⟩,
  ⟨0x500209, 1, 1, 0, .u32, .ro, false, false, .num 0, .any⟩,
  ⟨0x501000, 1, 8, 1, .u8, .const, false, false, .num 0x0A, .any⟩,
  ⟨0x501001, 1, 8, 1, .u64, .rw, false, false, .num 0, .rule⟩,
  ⟨0x501002, 1, 8, 1, .u16, .rw, false, false, .num 0, .ring 16 4096⟩,
  ⟨0x501003, 1, 8, 1, .u16, .rw, false, false, .num 0, .rule⟩,
  ⟨0x501004, 1, 8, 1, .u16, .ro, false, false, .num 0, .any⟩,
  ⟨0x501005, 1, 8, 1, .u64, .rw, false, false, .num 0, .rule⟩,
  ⟨0x501006, 1, 8, 1, .u16, .rw, false, false, .num 0, .ring 16 4096⟩,
  ⟨0x501007, 1, 8, 1, .u16, .ro, false, false, .num 0, .any⟩,
  ⟨0x501008, 1, 8, 1, .u16, .rw, false, false, .num 0, .rule⟩,
  ⟨0x501009, 1, 8, 1, .u16, .rw, false, false, .num 0, .range 0 2047⟩,
  ⟨0x50100a, 1, 8, 1, .u16, .ro, false, false, .num 0, .any⟩,
  ⟨0x502000, 1, 1, 0, .u32, .rw, false, false, .num 0, .any⟩,
  ⟨0x502100, 1, 1, 0, .u8, .const, false, false, .num 0x06, .any⟩,
  ⟨0x502101, 1, 1, 0, .u8, .ro, false, true, .num 0, .any⟩,
  ⟨0x502102, 1, 1, 0, .u8, .ro, false, false, .num 0, .any⟩,
  ⟨0x502103, 1, 1, 0, .u8, .ro, false, false, .num 0, .any⟩,
  ⟨0x502104, 1, 1, 0, .u64, .ro, false, false, .num 0, .any⟩,
  ⟨0x502105, 1, 1, 0, .u64, .ro, false, false, .num 0, .any⟩,
  ⟨0x502106, 1, 1, 0, .u32, .ro, false, false, .num 0, .any⟩]

/-- Rows of group E. -/
def rowsE : List Row := rowsE0 ++ rowsE1

/-- Rows of the object tables, group F, part 0. -/
def rowsF0 : List Row := [
  ⟨0x600000, 1, 1, 0, .u8, .const, false, false, .num 0x08, .any⟩,
  ⟨0x600001, 1, 1, 0, .u32, .const, false, false, .num 2560000, .any⟩,
  ⟨0x600002, 1, 1, 0, .u32, .const, false, false, .num 5120000, .any⟩,
  ⟨0x600003, 1, 1, 0, .u16, .const, false, false, .num 480, .any⟩,
  ⟨0x600004, 1, 1, 0, .u8, .const, false, false, .num 16, .any⟩,
  ⟨0x600005, 1, 1, 0, .u16, .const, false, false, .num 8192, .any⟩,
  ⟨0x600006, 1, 1, 0, .u16, .const, false, false, .num 256, .any⟩,
  ⟨0x600007, 1, 1, 0, .u8, .const, false, false, .num 16, .any⟩,
  ⟨0x600008, 1, 1, 0, .u8, .const, false, false, .num 8, .any⟩,
  ⟨0x600100, 1, 1, 0, .u8, .const, false, false, .num 0x08, .any⟩,
  ⟨0x600101, 1, 1, 0, .u64, .ro, false, false, .num 0, .any⟩,
  ⟨0x600102, 1, 1, 0, .u64, .ro, false, false, .num 0, .any⟩,
  ⟨0x600103, 1, 1, 0, .u64, .ro, false, false, .num 0, .any⟩,
  ⟨0x600104, 1, 1, 0, .u32, .ro, false, false, .num 0, .any⟩,
  ⟨0x600105, 1, 1, 0, .u32, .ro, false, false, .num 0, .any⟩,
  ⟨0x600106, 1, 1, 0, .u64, .ro, false, false, .num 0, .any⟩,
  ⟨0x600107, 1, 1, 0, .u64, .ro, false, false, .num 0, .any⟩,
  ⟨0x600108, 1, 1, 0, .u8, .w1c, false, false, .num 0x00, .any⟩,
  ⟨0x601000, 1, 8, 1, .u8, .const, false, false, .num 0x08, .any⟩,
  ⟨0x601001, 8, 8, 1, .u32, .ro, false, false, .num 0x00000000, .any⟩,
  ⟨0x602000, 1, 8, 1, .u8, .const, false, false, .num 0x10, .any⟩,
  ⟨0x602001, 16, 8, 1, .u8, .ro, false, true, .num 0, .any⟩,
  ⟨0x603000, 1, 1, 0, .u8, .const, false, false, .num 0x0A, .any⟩,
  ⟨0x603001, 10, 1, 0, .u8, .rwp, true, false, .num 12, .oneOf [12, 15, 18]⟩,
  ⟨0x603100, 1, 1, 0, .u8, .const, false, false, .num 0x0A, .any⟩,
  ⟨0x603101, 10, 1, 0, .u8, .ro, false, true, .num 0, .any⟩,
  ⟨0x604000, 1, 1, 0, .u8, .const, false, false, .num 0x08, .any⟩,
  ⟨0x604001, 8, 1, 0, .u8, .ro, false, true, .num 0, .any⟩,
  ⟨0x604100, 1, 1, 0, .u8, .const, false, false, .num 0x08, .any⟩,
  ⟨0x604101, 8, 1, 0, .u8, .rwp, true, false, .num 0, .range 0 1⟩,
  ⟨0x606000, 1, 8, 1, .octets, .rw, false, false, .bytes (List.replicate 20480 0x00), .rule⟩,
  ⟨0x606800, 1, 1, 0, .u64, .ro, false, false, .num 0, .any⟩,
  ⟨0x610000, 1, 1, 0, .u8, .const, false, false, .num 0x05, .any⟩,
  ⟨0x610001, 1, 1, 0, .u8, .const, false, false, .num 32, .any⟩,
  ⟨0x610002, 1, 1, 0, .u8, .const, false, false, .num 4, .any⟩,
  ⟨0x610003, 1, 1, 0, .u8, .const, false, false, .num 64, .any⟩,
  ⟨0x610004, 1, 1, 0, .u8, .const, false, false, .num 32, .any⟩,
  ⟨0x610005, 1, 1, 0, .u16, .const, false, false, .num 512, .any⟩,
  ⟨0x610100, 1, 1, 0, .u8, .const, false, false, .num 0x07, .any⟩,
  ⟨0x610101, 1, 1, 0, .u64, .ro, false, false, .num 0, .any⟩]

/-- Rows of the object tables, group F, part 1. -/
def rowsF1 : List Row := [
  ⟨0x610102, 1, 1, 0, .u64, .ro, false, false, .num 0, .any⟩,
  ⟨0x610103, 1, 1, 0, .u32, .ro, false, false, .num 0, .any⟩,
  ⟨0x610104, 1, 1, 0, .u32, .ro, false, false, .num 0, .any⟩,
  ⟨0x610105, 1, 1, 0, .u64, .ro, false, false, .num 0, .any⟩,
  ⟨0x610106, 1, 1, 0, .u32, .ro, false, false, .num 0, .any⟩,
  ⟨0x610107, 1, 1, 0, .u8, .w1c, false, false, .num 0x00, .any⟩,
  ⟨0x611000, 1, 1, 0, .u8, .const, false, false, .num 0x02, .any⟩,
  ⟨0x611001, 1, 1, 0, .u8, .rw, false, false, .num 0, .range 0 7⟩,
  ⟨0x611002, 1, 1, 0, .u8, .rw, false, false, .num 0, .range 0 31⟩,
  ⟨0x611100, 1, 1, 0, .u8, .const, false, false, .num 0x09, .any⟩,
  ⟨0x611101, 1, 1, 0, .u8, .ro, false, true, .num 0, .any⟩,
  ⟨0x611102, 1, 1, 0, .u64, .ro, false, false, .num 0, .any⟩,
  ⟨0x611103, 1, 1, 0, .u64, .ro, false, false, .num 0, .any⟩,
  ⟨0x611104, 1, 1, 0, .u32, .ro, false, false, .num 0, .any⟩,
  ⟨0x611105, 1, 1, 0, .u8, .ro, false, false, .num 0, .any⟩,
  ⟨0x611106, 1, 1, 0, .u64, .ro, false, false, .num 0, .any⟩,
  ⟨0x611107, 1, 1, 0, .u8, .ro, false, false, .num 0x00, .any⟩,
  ⟨0x611108, 1, 1, 0, .u64, .ro, false, false, .num 0, .any⟩,
  ⟨0x611109, 1, 1, 0, .u32, .ro, false, false, .num 0, .any⟩,
  ⟨0x611200, 1, 1, 0, .u8, .const, false, false, .num 0x02, .any⟩,
  ⟨0x611201, 1, 1, 0, .u64, .wo, false, false, .num 0, .rule⟩,
  ⟨0x611202, 1, 1, 0, .u8, .wo, false, false, .num 0, .oneOf [1, 2]⟩,
  ⟨0x620000, 1, 1, 0, .u8, .const, false, false, .num 0x04, .any⟩,
  ⟨0x620001, 1, 1, 0, .u8, .const, false, false, .num 96, .any⟩,
  ⟨0x620002, 1, 1, 0, .u32, .const, false, false, .num 0x9B2E71D4, .any⟩,
  ⟨0x620003, 1, 1, 0, .u8, .const, false, false, .num 8, .any⟩,
  ⟨0x620004, 1, 1, 0, .u16, .const, false, false, .num 4096, .any⟩,
  ⟨0x620100, 1, 1, 0, .u8, .const, false, false, .num 0x08, .any⟩,
  ⟨0x620101, 1, 1, 0, .u8, .ro, false, true, .num 0, .any⟩,
  ⟨0x620102, 1, 1, 0, .u8, .ro, false, true, .num 0, .any⟩,
  ⟨0x620103, 1, 1, 0, .u8, .ro, false, false, .num 0, .any⟩,
  ⟨0x620104, 1, 1, 0, .u8, .ro, false, false, .num 0x00, .any⟩,
  ⟨0x620105, 1, 1, 0, .u32, .ro, false, false, .num 0, .any⟩,
  ⟨0x620106, 1, 1, 0, .u8, .ro, false, false, .num 0x00, .any⟩,
  ⟨0x620107, 1, 1, 0, .u32, .ro, false, false, .num 0x00000000, .any⟩,
  ⟨0x620108, 1, 1, 0, .u64, .ro, false, false, .num 0, .any⟩,
  ⟨0x620200, 1, 1, 0, .u8, .const, false, false, .num 0x06, .any⟩,
  ⟨0x620201, 1, 1, 0, .u8, .rwp, true, false, .num 4, .oneOf [1, 4, 32]⟩,
  ⟨0x620202, 1, 1, 0, .bool, .rwp, true, false, .num 1, .any⟩,
  ⟨0x620203, 1, 1, 0, .u16, .rwp, true, false, .num 1000, .range 10 60000⟩]

/-- Rows of the object tables, group F, part 2. -/
def rowsF2 : List Row := [
  ⟨0x620204, 1, 1, 0, .u64, .wo, false, false, .num 0, .aligned 4⟩,
  ⟨0x620205, 1, 1, 0, .u8, .wo, false, false, .num 0, .oneOf [1]⟩,
  ⟨0x620206, 1, 1, 0, .u8, .rwp, true, false, .num 0, .range 0 1⟩,
  ⟨0x620300, 1, 1, 0, .u8, .const, false, false, .num 0x04, .any⟩,
  ⟨0x620301, 1, 1, 0, .u32, .ro, false, false, .num 0, .any⟩,
  ⟨0x620302, 1, 1, 0, .u32, .ro, false, false, .num 0, .any⟩,
  ⟨0x620303, 1, 1, 0, .u64, .ro, false, false, .num 0, .any⟩,
  ⟨0x620304, 1, 1, 0, .u8, .w1c, false, false, .num 0x00, .any⟩,
  ⟨0x620400, 1, 1, 0, .u8, .const, false, false, .num 0x04, .any⟩,
  ⟨0x620401, 1, 1, 0, .u64, .rw, false, false, .num 0, .any⟩,
  ⟨0x620402, 1, 1, 0, .u32, .rw, false, false, .num 0, .range 0 25165760⟩,
  ⟨0x620403, 1, 1, 0, .u8, .wo, false, false, .num 0, .range 1 2⟩,
  ⟨0x620404, 1, 1, 0, .u8, .ro, false, false, .num 0, .any⟩,
  ⟨0x621000, 1, 8, 1, .u8, .const, false, false, .num 0x08, .any⟩,
  ⟨0x621001, 8, 8, 1, .u8, .ro, false, true, .num 0, .any⟩,
  ⟨0x622000, 1, 1, 0, .u8, .rw, false, false, .num 0x00, .within 0x3F⟩,
  ⟨0x622100, 1, 1, 0, .u8, .const, false, false, .num 0x05, .any⟩,
  ⟨0x622101, 1, 1, 0, .u64, .rw, false, false, .num 0, .any⟩,
  ⟨0x622102, 1, 1, 0, .octets, .ro, false, false, .bytes [], .any⟩,
  ⟨0x622103, 1, 1, 0, .octets, .ro, false, false, .bytes [], .any⟩,
  ⟨0x622104, 1, 1, 0, .u32, .ro, false, false, .num 0, .any⟩,
  ⟨0x622105, 1, 1, 0, .u32, .ro, false, false, .num 0, .any⟩,
  ⟨0x622200, 1, 1, 0, .u8, .const, false, false, .num 0x03, .any⟩,
  ⟨0x622201, 1, 1, 0, .u64, .rw, false, false, .num 0, .any⟩,
  ⟨0x622202, 1, 1, 0, .octets, .ro, false, false, .bytes [], .any⟩,
  ⟨0x622203, 1, 1, 0, .octets, .ro, false, false, .bytes [], .any⟩,
  ⟨0x624000, 1, 1, 0, .u8, .const, false, false, .num 0x03, .any⟩,
  ⟨0x624001, 1, 1, 0, .bool, .rwp, true, false, .num 1, .any⟩,
  ⟨0x624002, 1, 1, 0, .u16, .rwp, true, false, .num 100, .range 0 60000⟩,
  ⟨0x624003, 1, 1, 0, .u8, .rwp, true, false, .num 0xFF, .any⟩,
  ⟨0x624100, 1, 1, 0, .u8, .const, false, false, .num 0x0A, .any⟩,
  ⟨0x624101, 1, 1, 0, .u8, .ro, false, true, .num 0, .any⟩,
  ⟨0x624102, 1, 1, 0, .u64, .ro, false, false, .num 0, .any⟩,
  ⟨0x624103, 1, 1, 0, .u64, .ro, false, false, .num 0, .any⟩,
  ⟨0x624104, 1, 1, 0, .u32, .ro, false, false, .num 0, .any⟩,
  ⟨0x624105, 1, 1, 0, .u32, .ro, false, false, .num 0, .any⟩,
  ⟨0x624106, 1, 1, 0, .u32, .ro, false, false, .num 0, .any⟩,
  ⟨0x624107, 1, 1, 0, .u32, .ro, false, false, .num 0, .any⟩,
  ⟨0x624108, 1, 1, 0, .u32, .ro, false, false, .num 0, .any⟩,
  ⟨0x624109, 1, 1, 0, .u32, .ro, false, false, .num 0x00000000, .any⟩]

/-- Rows of the object tables, group F, part 3. -/
def rowsF3 : List Row := [
  ⟨0x62410a, 1, 1, 0, .u8, .w1c, false, false, .num 0x00, .any⟩]

/-- Rows of group F. -/
def rowsF : List Row := rowsF0 ++ rowsF1 ++ rowsF2 ++ rowsF3

/-- Rows of the object tables, group G, part 0. -/
def rowsG0 : List Row := [
  ⟨0x700000, 1, 1, 0, .u8, .const, false, false, .num 0x05, .any⟩,
  ⟨0x700001, 1, 1, 0, .u8, .const, false, false, .num 64, .any⟩,
  ⟨0x700002, 1, 1, 0, .u8, .const, false, false, .num 16, .any⟩,
  ⟨0x700003, 1, 1, 0, .u16, .const, false, false, .num 256, .any⟩,
  ⟨0x700004, 1, 1, 0, .u8, .const, false, false, .num 64, .any⟩,
  ⟨0x700005, 1, 1, 0, .u16, .const, false, false, .num 2500, .any⟩,
  ⟨0x700100, 1, 1, 0, .u8, .const, false, false, .num 0x07, .any⟩,
  ⟨0x700101, 1, 1, 0, .u8, .rw, false, false, .num 0, .range 0 1⟩,
  ⟨0x700102, 1, 1, 0, .u16, .rw, false, false, .num 1, .range 1 4096⟩,
  ⟨0x700103, 1, 1, 0, .u16, .rwp, true, false, .num 40, .range 40 1000⟩,
  ⟨0x700104, 1, 1, 0, .u8, .rw, false, false, .num 64, .range 1 64⟩,
  ⟨0x700105, 1, 1, 0, .u64, .rw, false, false, .num 0, .range 0 0xFFFFFFFFFFFF⟩,
  ⟨0x700106, 1, 1, 0, .u8, .wo, false, false, .num 0, .oneOf [1, 2]⟩,
  ⟨0x700107, 1, 1, 0, .u64, .wo, false, false, .num 0, .rule⟩,
  ⟨0x700200, 1, 1, 0, .u8, .const, false, false, .num 0x0B, .any⟩,
  ⟨0x700201, 1, 1, 0, .u8, .ro, false, true, .num 0, .any⟩,
  ⟨0x700202, 1, 1, 0, .u64, .ro, false, false, .num 0, .any⟩,
  ⟨0x700203, 1, 1, 0, .u64, .ro, false, false, .num 0xFFFFFFFFFFFFFFFF, .any⟩,
  ⟨0x700204, 1, 1, 0, .u64, .ro, false, false, .num 0xFFFFFFFFFFFFFFFF, .any⟩,
  ⟨0x700205, 1, 1, 0, .u16, .ro, false, false, .num 0xFFFF, .any⟩,
  ⟨0x700206, 1, 1, 0, .u8, .ro, false, false, .num 0, .any⟩,
  ⟨0x700207, 1, 1, 0, .u16, .ro, false, false, .num 0xFFFF, .any⟩,
  ⟨0x700208, 1, 1, 0, .u64, .ro, false, false, .num 0, .any⟩,
  ⟨0x700209, 1, 1, 0, .u64, .ro, false, false, .num 0, .any⟩,
  ⟨0x70020a, 1, 1, 0, .u32, .ro, false, false, .num 0, .any⟩,
  ⟨0x70020b, 1, 1, 0, .u8, .ro, false, false, .num 0, .any⟩,
  ⟨0x700300, 1, 1, 0, .u8, .const, false, false, .num 0x07, .any⟩,
  ⟨0x700301, 1, 1, 0, .u64, .ro, false, false, .num 0, .any⟩,
  ⟨0x700302, 1, 1, 0, .u32, .ro, false, false, .num 0, .any⟩,
  ⟨0x700303, 1, 1, 0, .u64, .ro, false, false, .num 0, .any⟩,
  ⟨0x700304, 1, 1, 0, .u64, .ro, false, false, .num 0, .any⟩,
  ⟨0x700305, 1, 1, 0, .u32, .ro, false, false, .num 0, .any⟩,
  ⟨0x700306, 1, 1, 0, .u32, .ro, false, false, .num 0, .any⟩,
  ⟨0x700307, 1, 1, 0, .u8, .w1c, false, false, .num 0x00, .any⟩,
  ⟨0x700400, 1, 1, 0, .u8, .const, false, false, .num 0x08, .any⟩,
  ⟨0x700401, 8, 1, 0, .u32, .rw, false, false, .num 0x00000000, .any⟩,
  ⟨0x701000, 1, 1, 0, .u8, .const, false, false, .num 0x40, .any⟩,
  ⟨0x701001, 64, 1, 0, .u64, .rw, false, false, .num 0, .rule⟩,
  ⟨0x701100, 1, 1, 0, .u8, .const, false, false, .num 0x40, .any⟩,
  ⟨0x701101, 64, 1, 0, .u16, .ro, false, false, .num 0xFFFF, .any⟩]

/-- Rows of the object tables, group G, part 1. -/
def rowsG1 : List Row := [
  ⟨0x710000, 1, 1, 0, .u8, .const, false, false, .num 0x07, .any⟩,
  ⟨0x710001, 1, 1, 0, .u8, .const, false, false, .num 16, .any⟩,
  ⟨0x710002, 1, 1, 0, .u8, .const, false, false, .num 16, .any⟩,
  ⟨0x710003, 1, 1, 0, .u8, .const, false, false, .num 8, .any⟩,
  ⟨0x710004, 1, 1, 0, .u8, .const, false, false, .num 64, .any⟩,
  ⟨0x710005, 1, 1, 0, .u8, .const, false, false, .num 4, .any⟩,
  ⟨0x710006, 1, 1, 0, .u8, .const, false, false, .num 16, .any⟩,
  ⟨0x710007, 1, 1, 0, .u16, .const, false, false, .num 1024, .any⟩,
  ⟨0x710100, 1, 1, 0, .u8, .const, false, false, .num 0x0A, .any⟩,
  ⟨0x710101, 1, 1, 0, .u64, .ro, false, false, .num 0, .any⟩,
  ⟨0x710102, 1, 1, 0, .u64, .ro, false, false, .num 0, .any⟩,
  ⟨0x710103, 1, 1, 0, .u64, .ro, false, false, .num 0, .any⟩,
  ⟨0x710104, 1, 1, 0, .u64, .ro, false, false, .num 0, .any⟩,
  ⟨0x710105, 1, 1, 0, .u64, .ro, false, false, .num 0, .any⟩,
  ⟨0x710106, 1, 1, 0, .u32, .ro, false, false, .num 0, .any⟩,
  ⟨0x710107, 1, 1, 0, .u32, .ro, false, false, .num 0, .any⟩,
  ⟨0x710108, 1, 1, 0, .u32, .ro, false, false, .num 0, .any⟩,
  ⟨0x710109, 1, 1, 0, .u32, .ro, false, false, .num 0, .any⟩,
  ⟨0x71010a, 1, 1, 0, .u8, .w1c, false, false, .num 0x00, .any⟩,
  ⟨0x710200, 1, 1, 0, .u8, .wo, false, false, .num 0, .range 0 127⟩,
  ⟨0x710800, 1, 1, 0, .u32, .rw, false, false, .num 0, .any⟩,
  ⟨0x710900, 1, 1, 0, .octets, .ro, false, false, .bytes [], .any⟩,
  ⟨0x710a00, 1, 1, 0, .octets, .ro, false, false, .bytes [], .any⟩,
  ⟨0x711000, 1, 1, 0, .u8, .rw, false, false, .num 0x00, .within 0x7F⟩,
  ⟨0x711100, 1, 1, 0, .u8, .const, false, false, .num 0x0D, .any⟩,
  ⟨0x711101, 1, 1, 0, .u8, .ro, false, true, .num 0, .any⟩,
  ⟨0x711102, 1, 1, 0, .u8, .ro, false, false, .num 0xFF, .any⟩,
  ⟨0x711103, 1, 1, 0, .u64, .ro, false, false, .num 0, .any⟩,
  ⟨0x711104, 1, 1, 0, .u8, .ro, false, false, .num 0, .any⟩,
  ⟨0x711105, 1, 1, 0, .u64, .ro, false, false, .num 0, .any⟩,
  ⟨0x711106, 1, 1, 0, .u32, .ro, false, false, .num 0, .any⟩,
  ⟨0x711107, 1, 1, 0, .u32, .ro, false, false, .num 0, .any⟩,
  ⟨0x711108, 1, 1, 0, .u32, .ro, false, false, .num 0, .any⟩,
  ⟨0x711109, 1, 1, 0, .u32, .ro, false, false, .num 0, .any⟩,
  ⟨0x71110a, 1, 1, 0, .u16, .ro, false, false, .num 0xFFFF, .any⟩,
  ⟨0x71110b, 1, 1, 0, .u8, .ro, false, true, .num 0, .any⟩,
  ⟨0x71110c, 1, 1, 0, .u64, .ro, false, false, .num 0, .any⟩,
  ⟨0x71110d, 1, 1, 0, .u64, .ro, false, false, .num 0, .any⟩,
  ⟨0x718000, 1, 128, 1, .u8, .const, false, false, .num 0x0E, .any⟩,
  ⟨0x718001, 1, 128, 1, .bool, .rw, false, false, .num 0, .any⟩]

/-- Rows of the object tables, group G, part 2. -/
def rowsG2 : List Row := [
  ⟨0x718002, 1, 128, 1, .u8, .rw, false, false, .num 0, .range 0 149⟩,
  ⟨0x718003, 1, 128, 1, .u8, .rw, false, false, .num 0, .range 0 15⟩,
  ⟨0x718004, 1, 128, 1, .u16, .rw, false, false, .num 0, .range 0 511⟩,
  ⟨0x718005, 1, 128, 1, .u32, .rw, false, false, .num 0, .rule⟩,
  ⟨0x718006, 1, 128, 1, .octets, .rw, false, false, .bytes (List.replicate 32 0x00), .len 32 32⟩,
  ⟨0x718007, 1, 128, 1, .octets, .rw, false, false, .bytes (List.replicate 16 0xFF), .rule⟩,
  ⟨0x718008, 1, 128, 1, .u16, .rw, false, false, .num 16, .range 16 4096⟩,
  ⟨0x718009, 1, 128, 1, .u32, .rw, false, false, .num 0, .rule⟩,
  ⟨0x71800a, 1, 128, 1, .u8, .rw, false, false, .num 0, .range 0 31⟩,
  ⟨0x71800b, 1, 128, 1, .u8, .rw, false, false, .num 0, .range 0 1⟩,
  ⟨0x71800c, 1, 128, 1, .u64, .rw, false, false, .num 0, .rule⟩,
  ⟨0x71800d, 1, 128, 1, .u32, .rw, false, false, .num 1024, .rule⟩,
  ⟨0x71800e, 1, 128, 1, .u16, .rw, false, false, .num 0, .rule⟩]

/-- Rows of group G. -/
def rowsG : List Row := rowsG0 ++ rowsG1 ++ rowsG2

/-- Rows of the object tables, group H, part 0. -/
def rowsH0 : List Row := [
  ⟨0x800000, 1, 11, 1, .u8, .const, false, false, .num 0xC0, .any⟩,
  ⟨0x800001, 192, 1, 0, .u8, .ro, false, true, .num 0, .any⟩,
  ⟨0x800101, 192, 1, 0, .u32, .rwp, true, false, .num 0x0070F800, .rule⟩,
  ⟨0x800201, 192, 1, 0, .u8, .rwp, true, false, .num 0x00, .within 3⟩,
  ⟨0x800301, 192, 1, 0, .u8, .rw, false, false, .num 0x00, .rule⟩,
  ⟨0x800401, 192, 1, 0, .u64, .ro, false, false, .num 0, .any⟩,
  ⟨0x800501, 192, 1, 0, .bool, .ro, false, false, .num 0, .any⟩,
  ⟨0x800601, 192, 1, 0, .u16, .ro, false, false, .num 0, .any⟩,
  ⟨0x800701, 192, 1, 0, .u8, .ro, false, false, .num 0, .any⟩,
  ⟨0x800801, 192, 1, 0, .u64, .ro, false, false, .num 0, .any⟩,
  ⟨0x800901, 192, 1, 0, .u32, .ro, false, false, .num 0, .any⟩,
  ⟨0x800a01, 192, 1, 0, .u64, .ro, false, false, .num 0, .any⟩,
  ⟨0x804000, 1, 12, 1, .u8, .const, false, false, .num 0x18, .any⟩,
  ⟨0x804001, 24, 1, 0, .u8, .ro, false, true, .num 0, .any⟩,
  ⟨0x804101, 24, 1, 0, .bool, .rwp, true, false, .num 0, .any⟩,
  ⟨0x804201, 24, 1, 0, .u8, .rwp, true, false, .num 112, .rule⟩,
  ⟨0x804301, 24, 1, 0, .u8, .rwp, true, false, .num 0, .range 0 1⟩,
  ⟨0x804401, 24, 1, 0, .bool, .rwp, true, false, .num 0, .any⟩,
  ⟨0x804501, 24, 1, 0, .u64, .ro, false, false, .num 0, .any⟩,
  ⟨0x804601, 24, 1, 0, .u64, .ro, false, false, .num 0, .any⟩,
  ⟨0x804701, 24, 1, 0, .u64, .ro, false, false, .num 0, .any⟩,
  ⟨0x804801, 24, 1, 0, .u64, .ro, false, false, .num 0, .any⟩,
  ⟨0x804901, 24, 1, 0, .u32, .ro, false, false, .num 0, .any⟩,
  ⟨0x804a01, 24, 1, 0, .u64, .ro, false, false, .num 0, .any⟩,
  ⟨0x804b01, 24, 1, 0, .u64, .ro, false, false, .num 0, .any⟩,
  ⟨0x808000, 1, 1, 0, .u8, .const, false, false, .num 0x04, .any⟩,
  ⟨0x808001, 1, 1, 0, .u16, .const, false, false, .num 4096, .any⟩,
  ⟨0x808002, 1, 1, 0, .u16, .const, false, false, .num 512, .any⟩,
  ⟨0x808003, 1, 1, 0, .u16, .const, false, false, .num 4000, .any⟩,
  ⟨0x808004, 1, 1, 0, .u8, .const, false, false, .num 10, .any⟩,
  ⟨0x808100, 1, 1, 0, .u8, .const, false, false, .num 0x03, .any⟩,
  ⟨0x808101, 1, 1, 0, .u32, .rwp, true, false, .num 4096, .range 0 65536⟩,
  ⟨0x808102, 1, 1, 0, .u16, .rwp, true, false, .num 16, .range 1 4096⟩,
  ⟨0x808103, 1, 1, 0, .u16, .rwp, true, false, .num 1000, .range 100 60000⟩,
  ⟨0x808200, 1, 1, 0, .u8, .const, false, false, .num 0x05, .any⟩,
  ⟨0x808201, 1, 1, 0, .u32, .ro, false, false, .num 0, .any⟩,
  ⟨0x808202, 1, 1, 0, .u64, .ro, false, false, .num 0, .any⟩,
  ⟨0x808203, 1, 1, 0, .u32, .ro, false, false, .num 0, .any⟩,
  ⟨0x808204, 1, 1, 0, .u32, .ro, false, false, .num 0, .any⟩,
  ⟨0x808205, 1, 1, 0, .u8, .w1c, false, false, .num 0x00, .any⟩]

/-- Rows of the object tables, group H, part 1. -/
def rowsH1 : List Row := [
  ⟨0x810000, 1, 1, 0, .u8, .const, false, false, .num 0x02, .any⟩,
  ⟨0x810001, 1, 1, 0, .u16, .rwp, true, false, .num 0, .range 0 4095⟩,
  ⟨0x810002, 1, 1, 0, .u16, .ro, false, false, .num 0, .any⟩,
  ⟨0x811000, 1, 17, 1, .octets, .rwp, true, false, .bytes (List.replicate 4096 0x20), .rule⟩,
  ⟨0x813000, 1, 1, 0, .octets, .rwp, true, false, .bytes (List.replicate 1024 0x00), .rule⟩]

/-- Rows of group H. -/
def rowsH : List Row := rowsH0 ++ rowsH1

/-- Rows of the object tables, group I, part 0. -/
def rowsI0 : List Row := [
  ⟨0x900000, 1, 1, 0, .u8, .const, false, false, .num 0x05, .any⟩,
  ⟨0x900001, 1, 1, 0, .u8, .ro, false, true, .num 0, .any⟩,
  ⟨0x900002, 1, 1, 0, .u8, .ro, false, false, .num 0, .any⟩,
  ⟨0x900003, 1, 1, 0, .u16, .ro, false, false, .num 0, .any⟩,
  ⟨0x900004, 1, 1, 0, .u32, .ro, false, false, .num 0, .any⟩,
  ⟨0x900005, 1, 1, 0, .u32, .ro, false, false, .num 0, .any⟩,
  ⟨0x900100, 1, 1, 0, .u8, .const, false, false, .num 0x02, .any⟩,
  ⟨0x900101, 1, 1, 0, .u64, .rw, false, false, .num 0, .rule⟩,
  ⟨0x900102, 1, 1, 0, .u64, .rw, false, false, .num 0, .rule⟩,
  ⟨0x900200, 1, 1, 0, .u8, .const, false, false, .num 0x06, .any⟩,
  ⟨0x900201, 1, 1, 0, .u32, .ro, false, false, .num 0, .any⟩,
  ⟨0x900202, 1, 1, 0, .u32, .ro, false, false, .num 0, .any⟩,
  ⟨0x900203, 1, 1, 0, .u32, .ro, false, false, .num 0, .any⟩,
  ⟨0x900204, 1, 1, 0, .u32, .ro, false, false, .num 0, .any⟩,
  ⟨0x900205, 1, 1, 0, .u32, .ro, false, false, .num 0, .any⟩,
  ⟨0x900206, 1, 1, 0, .u8, .w1c, false, false, .num 0x00, .any⟩,
  ⟨0x900300, 1, 1, 0, .u8, .const, false, false, .num 0x03, .any⟩,
  ⟨0x900301, 1, 1, 0, .u32, .ro, false, false, .num 65536, .any⟩,
  ⟨0x900302, 1, 1, 0, .u64, .ro, false, false, .num 0, .any⟩,
  ⟨0x900303, 1, 1, 0, .u8, .wo, false, false, .num 0, .oneOf [1]⟩,
  ⟨0x910000, 1, 1, 0, .u8, .const, false, false, .num 0x0B, .any⟩,
  ⟨0x910001, 1, 1, 0, .u8, .ro, false, false, .num 0, .any⟩,
  ⟨0x910002, 1, 1, 0, .u8, .ro, false, false, .num 0, .any⟩,
  ⟨0x910003, 1, 1, 0, .u8, .rwp, true, false, .num 0, .range 0 127⟩,
  ⟨0x910004, 1, 1, 0, .u8, .rwp, true, false, .num 8, .oneOf [2, 4, 5, 8]⟩,
  ⟨0x910005, 1, 1, 0, .u8, .rwp, true, false, .num 80, .range 70 90⟩,
  ⟨0x910006, 1, 1, 0, .u8, .rwp, true, false, .num 75, .range 60 85⟩,
  ⟨0x910007, 1, 1, 0, .u8, .ro, false, true, .num 0, .any⟩,
  ⟨0x910008, 1, 1, 0, .u8, .ro, false, true, .num 0, .any⟩,
  ⟨0x910009, 1, 1, 0, .u32, .ro, false, false, .num 0, .any⟩,
  ⟨0x91000a, 1, 1, 0, .u32, .ro, false, false, .num 0, .any⟩,
  ⟨0x91000b, 1, 1, 0, .u32, .ro, false, false, .num 0, .any⟩,
  ⟨0xa00000, 1, 1, 0, .u8, .const, false, false, .num 0x05, .any⟩,
  ⟨0xa00001, 1, 1, 0, .octets, .const, false, false, .bytes Config.identityPublicKey, .any⟩,
  ⟨0xa00002, 1, 1, 0, .octets, .const, false, false, .bytes Config.identityCertificate, .any⟩,
  ⟨0xa00003, 1, 1, 0, .octets, .const, false, false, .bytes (Config.shake256 Config.vendorPublicKey 64), .any⟩,
  ⟨0xa00004, 1, 1, 0, .u16, .const, false, false, .num Config.rollbackFloor.toNat, .any⟩,
  ⟨0xa00005, 1, 1, 0, .bool, .ro, false, false, .num 0, .any⟩,
  ⟨0xa00100, 1, 1, 0, .u8, .const, false, false, .num 0x02, .any⟩,
  ⟨0xa00101, 1, 1, 0, .octets, .wo, false, false, .bytes [], .len 96 96⟩]

/-- Rows of the object tables, group I, part 1. -/
def rowsI1 : List Row := [
  ⟨0xa00102, 1, 1, 0, .u8, .wo, false, false, .num 0, .range 0 7⟩,
  ⟨0xa01000, 1, 1, 0, .u8, .const, false, false, .num 0x08, .any⟩,
  ⟨0xa01001, 8, 1, 0, .octets, .ro, true, false, .bytes [], .any⟩,
  ⟨0xa02000, 1, 1, 0, .u8, .const, false, false, .num 0x09, .any⟩,
  ⟨0xa02001, 1, 1, 0, .u8, .ro, false, true, .num 0, .any⟩,
  ⟨0xa02002, 1, 1, 0, .u8, .wo, false, false, .num 0, .range 1 4⟩,
  ⟨0xa02003, 1, 1, 0, .octets, .wo, false, false, .bytes [], .len 0 65536⟩,
  ⟨0xa02004, 1, 1, 0, .u32, .ro, false, false, .num 0, .any⟩,
  ⟨0xa02005, 1, 1, 0, .u64, .wo, false, false, .num 0, .aligned 256⟩,
  ⟨0xa02006, 1, 1, 0, .u8, .ro, true, false, .num 0, .any⟩,
  ⟨0xa02007, 1, 1, 0, .u8, .ro, false, false, .num 0, .any⟩,
  ⟨0xa02008, 1, 1, 0, .u32, .ro, false, false, .num 0, .any⟩,
  ⟨0xa02009, 1, 1, 0, .u8, .ro, false, true, .num 0, .any⟩,
  ⟨0xa02100, 1, 1, 0, .u8, .const, false, false, .num 0x05, .any⟩,
  ⟨0xa02101, 1, 1, 0, .u32, .ro, false, false, .num 0, .any⟩,
  ⟨0xa02102, 1, 1, 0, .u32, .ro, false, false, .num 0, .any⟩,
  ⟨0xa02103, 1, 1, 0, .u32, .ro, false, false, .num 0, .any⟩,
  ⟨0xa02104, 1, 1, 0, .u32, .ro, false, false, .num 0, .any⟩,
  ⟨0xa02105, 1, 1, 0, .u8, .w1c, false, false, .num 0x00, .any⟩,
  ⟨0xa03000, 1, 1, 0, .u8, .const, false, false, .num 0x02, .any⟩,
  ⟨0xa03001, 1, 1, 0, .octets, .wo, false, false, .bytes [], .len 32 32⟩,
  ⟨0xa03002, 1, 1, 0, .octets, .ro, false, false, .bytes [], .any⟩]

/-- Rows of group I. -/
def rowsI : List Row := rowsI0 ++ rowsI1

/-- The rows in whose range an index lies. -/
def rowsFor (idx : Nat) : List Row :=
  if idx < 0x2000 then rowsA else if idx < 0x3000 then rowsB else if idx < 0x3800 then rowsC
  else if idx < 0x4800 then rowsD else if idx < 0x6000 then rowsE else if idx < 0x7000 then rowsF
  else if idx < 0x8000 then rowsG else if idx < 0x9000 then rowsH else rowsI

/-- All rows. -/
def rowsAll : List Row := rowsA ++ rowsB ++ rowsC ++ rowsD ++ rowsE ++ rowsF ++ rowsG ++ rowsH ++ rowsI

end Sys2Proof.Machine
end

