-- ==== Sys2Proof/Machine/Flags.lean ====
section
/-! DEFINITION. Objects, W1C flags and events: every read and write that the device makes of its own
dictionary values goes through these operations (R23, R44, R47, R64–R67). -/

namespace Sys2Proof.Machine

/-! ## Objects -/

/-- The key of an object. -/
def keyOf (o : ObjId) : Nat := o.idx.toNat * 256 + o.sub.toNat

/-- The row covers an index. -/
def Row.hasIdx (r : Row) (idx : Nat) : Bool :=
  let b := r.key / 256
  b ≤ idx && (if r.stride = 0 then idx = b else (idx - b) % r.stride = 0 && (idx - b) / r.stride < r.reps)

/-- The row covers a key. -/
def Row.hasKey (r : Row) (k : Nat) : Bool :=
  r.hasIdx (k / 256) && r.key % 256 ≤ k % 256 && k % 256 < r.key % 256 + r.subs

/-- An index has an object (R44). -/
def idxExists (idx : Nat) : Bool := (rowsFor idx).any (·.hasIdx idx)

/-- The row of a subentry. -/
def rowOf (k : Nat) : Option Row := (rowsFor (k / 256)).find? (·.hasKey k)

/-- The default of a subentry. -/
def dfltOf (k : Nat) : Val := ((rowOf k).map (·.dflt)).getD (.num 0)

/-- All-ones value of a type: where counters saturate. -/
def ObjType.max : ObjType → Nat
  | .bool => 1
  | .u8 | .i8 => 0xFF
  | .u16 => 0xFFFF
  | .u32 => 0xFFFFFFFF
  | .u64 => 0xFFFFFFFFFFFFFFFF
  | .vstr | .octets => 0

/-- Size in bytes of a fixed-size type (R45). -/
def ObjType.size : ObjType → Nat
  | .bool | .u8 | .i8 => 1
  | .u16 => 2
  | .u32 => 4
  | .u64 => 8
  | .vstr | .octets => 0

/-- The type is a number. -/
def ObjType.fixed : ObjType → Bool
  | .vstr | .octets => false
  | _ => true

/-- All-ones value of a subentry's type. -/
def maxOf (k : Nat) : Nat := ((rowOf k).map (·.ty.max)).getD 0

def Val.toNat : Val → Nat
  | .num n => n
  | .bytes l => l.length

def Val.toBytes : Val → List Byte
  | .num _ => []
  | .bytes l => l

/-- The stored value of a subentry. -/
def State.val (s : State) (k : Nat) : Val := (s.obj.find? k).getD (dfltOf k)
/-- The stored number of a subentry. -/
def State.num (s : State) (k : Nat) : Nat := (s.val k).toNat
/-- The stored bytes of a subentry. -/
def State.bytes (s : State) (k : Nat) : List Byte := (s.val k).toBytes

def State.setVal (k : Nat) (v : Val) (s : State) : State := { s with obj := s.obj.put k v }
def State.setNum (k n : Nat) (s : State) : State := s.setVal k (.num n)
def State.setBytes (k : Nat) (l : List Byte) (s : State) : State := s.setVal k (.bytes l)
/-- Return a subentry to its default. -/
def State.unset (k : Nat) (s : State) : State := { s with obj := s.obj.del k }

/-- Count in an object, saturating at the all-ones value of its type. -/
def State.bump (k : Nat) (n : Nat) (s : State) : State := s.setNum k (min (s.num k + n) (maxOf k))
/-- Lower an object by one, not below 0. -/
def State.drop1 (k : Nat) (s : State) : State := s.setNum k (s.num k - 1)
/-- Keep the largest value seen, within the type. -/
def State.high (k n : Nat) (s : State) : State := s.setNum k (min (max (s.num k) n) (maxOf k))

/-! ## Time and free values -/

/-- Move to an instant, never backwards. -/
def State.upto (t : Nat) (s : State) : State := { s with now := max s.now t }

/-- Take the next free value (log 1). -/
def State.fresh (s : State) : BitVec 64 × State := (Config.freeValue s.free, { s with free := s.free + 1 })

/-- n free bytes. -/
def State.freshBytes (n : Nat) (s : State) : List Byte × State :=
  ((List.range n).map fun i => (Config.freeValue (s.free + i)).truncate 8, { s with free := s.free + n })

/-- Something leaves the device. -/
def State.emit (o : Out) (s : State) : State := { s with out := o :: s.out }

/-! ## Events (R65–R67) -/

/-- Claimant ID of a master (R98). -/
def masterId : Master → Nat
  | .host => 1
  | .node n => 0x40 + n.toNat
  | .peer => 0xC0
  | .jtag => 0xFE

/-- A claimant ID is one of R98. -/
def validClaimant (i : Nat) : Bool := i = 1 || (0x41 ≤ i && i ≤ 0xBF) || i = 0xC0 || i = 0xFE

/-- Key of a subentry of a master record (R107). -/
def mrKey (base claimant : Nat) : Nat := base + 256 * claimant

def MasterQ.empty : MasterQ := ⟨[], 0, 0, 0, .fna, none⟩

/-- A subscription value covers a key (R107): FIRST, LAST, SUBINDEX, SINGLE, ENABLE. -/
def subCovers (v k : Nat) : Bool :=
  v.testBit 41 &&
    (if v.testBit 40 then v % 0x10000 = k / 256 && v / 2^32 % 256 = k % 256
     else v % 0x10000 ≤ k / 256 && k / 256 ≤ v / 0x10000 % 0x10000)

/-- Masters that subscribe to a key. -/
def State.subscribers (s : State) (k : Nat) : List Nat :=
  ((s.obj.filter fun (a, v) =>
      (0x110100 ≤ a && a < 0x11FF00) && (1 ≤ a % 256 && a % 256 ≤ 8) && validClaimant (a / 256 - 0x1100)
        && subCovers v.toNat k).map fun (a, _) => a / 256 - 0x1100).eraseDups

/-- Queue an event for a master: coalesced, appended, or dropped and counted (R65, R67). -/
def MasterQ.add (q : MasterQ) (e : Event) : MasterQ :=
  if q.q.any (·.key = e.key) then
    { q with q := q.q.map fun p =>
        if p.key = e.key then
          { p with bits := p.bits ||| e.bits, count := min (p.count + e.count) 65535, val := e.val, time := e.time }
        else p }
  else if q.q.length < 1024 then { q with q := q.q ++ [e] }
  else { q with dropped := q.dropped + 1, firstDrop := if q.dropped = 0 then e.time else q.firstDrop }

/-- The event was dropped by the queue. -/
def MasterQ.drops (q : MasterQ) (e : Event) : Bool := !q.q.any (·.key = e.key) && 1024 ≤ q.q.length

/-- Queue an event for one master, counting a drop in its EventsDropped. -/
def State.queueEvent (e : Event) (m : Nat) (s : State) : State :=
  let q := s.dict.queues.get MasterQ.empty m
  let s := { s with dict := { s.dict with queues := s.dict.queues.put m (q.add e) } }
  if q.drops e then s.bump (mrKey Obj.eventsDropped m) 1 else s

/-- Raise an event on a subentry with the W1C bits set, or 0 (R65, R66). -/
def State.raiseVal (k bits : Nat) (v : Val) (s : State) : State :=
  (s.subscribers k).foldl (fun s m => s.queueEvent ⟨k, bits, 1, v, s.now⟩ m) s

/-- Raise an event carrying the subentry's stored value. -/
def State.raise (k bits : Nat) (s : State) : State := s.raiseVal k bits (s.val k)

/-- A hardware set of bits of a W1C object: the bits stay 1 and one event is raised (R64, R65). -/
def State.setFlag (k bits : Nat) (s : State) : State := (s.setNum k (s.num k ||| bits)).raise k bits

/-- A write to a W1C object, with the sets that arrive in the same MGCLK cycle: the set wins (R64). -/
def State.clearFlag (k w sets : Nat) (s : State) : State :=
  let s := s.setNum k (s.num k &&& (maxOf k - (w &&& maxOf k)))
  if sets = 0 then s else s.setFlag k sets

/-- Give a State object a value; a change raises an event (R66). -/
def State.setState (k v : Nat) (s : State) : State :=
  if s.num k = v then s else (s.setNum k v).raise k 0

end Sys2Proof.Machine
end

