-- ==== Sys2Proof/Machine/Operands.lean ====
section
/-! DEFINITION. Operand forms: the byte encodings of values (R12, R45), OAP segments (R79–R85), the
cyclic checks the spec names, and the allowed values of writable objects (R46). -/

namespace Sys2Proof.Machine

/-! ## Bytes -/

/-- n little-endian bytes of a number (R12). -/
def leBytes : Nat → Nat → List Byte
  | 0, _ => []
  | n + 1, v => BitVec.ofNat 8 v :: leBytes n (v / 256)

/-- The number of little-endian bytes. -/
def leNat : List Byte → Nat
  | [] => 0
  | b :: r => b.toNat + 256 * leNat r

/-- The bytes from an offset, short at the end. -/
def slice (l : List Byte) (off n : Nat) : List Byte := (l.drop off).take n

/-- The little-endian number in n bytes from an offset. -/
def field (l : List Byte) (off n : Nat) : Nat := leNat (slice l off n)

/-- Bits [lo + n − 1 : lo] of a number. -/
def bits (v lo n : Nat) : Nat := v / 2 ^ lo % 2 ^ n

/-- Least multiple of m at or above n. -/
def roundUp (n m : Nat) : Nat := (n + m - 1) / m * m

/-- n / m rounded up. -/
def ceilDiv (n m : Nat) : Nat := (n + m - 1) / m

/-- Pad with zero bytes to a multiple of m. -/
def padTo (m : Nat) (l : List Byte) : List Byte := l ++ List.replicate (roundUp l.length m - l.length) 0

/-- One step of a reflected 32-bit CRC over a byte. -/
def crcByte (poly : BitVec 32) (c : BitVec 32) (b : Byte) : BitVec 32 :=
  (List.range 8).foldl (fun c _ => if c.getLsbD 0 then (c >>> 1) ^^^ poly else c >>> 1)
    (c ^^^ b.zeroExtend 32)

/-- CRC-32C (Castagnoli, reflected, initial and final all ones: the family's parameters, log 13). -/
def crc32c (l : List Byte) : Nat := (~~~ (l.foldl (crcByte 0x82F63B78) 0xFFFFFFFF)).toNat

/-! ## Values (R45, R81) -/

/-- A value in its type's encoding. -/
def encodeVal (ty : ObjType) (v : Val) : List Byte :=
  if ty.fixed then leBytes ty.size v.toNat else v.toBytes

/-- A value from its type's encoding; none where the length does not fit (R81). -/
def decodeVal (ty : ObjType) (l : List Byte) : Option Val :=
  if ty.fixed then (if l.length = ty.size then some (.num (leNat l)) else none)
  else if l.length ≤ 65536 then some (.bytes l) else none

/-- The linear-map form of a value as a 64-bit number (R45). -/
def linearForm (ty : ObjType) (v : Val) : Nat :=
  match ty with
  | .i8 => if v.toNat < 128 then v.toNat else 0x10000000000000000 - 256 + v.toNat
  | _ => v.toNat

/-! ## Claimants, transports and error codes (R84, R98) -/

def transportCode : Transport → Nat
  | .pcie => 0 | .fna => 1 | .fnb => 2 | .vc2 => 3 | .jtag => 4

/-- Largest segment payload of a transport (R85). -/
def segMax : Transport → Nat
  | .fna | .fnb => 56
  | _ => 248

abbrev Err.noObject : Nat := 0x0101
abbrev Err.noSubindex : Nat := 0x0102
abbrev Err.badLength : Nat := 0x0103
abbrev Err.outOfRange : Nat := 0x0104
abbrev Err.readDenied : Nat := 0x0105
abbrev Err.writeDenied : Nat := 0x0106
abbrev Err.notOwner : Nat := 0x0107
abbrev Err.cabinetLost : Nat := 0x0108
abbrev Err.refusedInState : Nat := 0x0109
abbrev Err.groupNotOpen : Nat := 0x0201
abbrev Err.groupOpen : Nat := 0x0202
abbrev Err.groupFull : Nat := 0x0203
abbrev Err.groupAborted : Nat := 0x0204
abbrev Err.readGroupSize : Nat := 0x0205
abbrev Err.claimLost : Nat := 0x0301
abbrev Err.noHandover : Nat := 0x0302
abbrev Err.badSuccessor : Nat := 0x0303
abbrev Err.badVersion : Nat := 0x0401
abbrev Err.badType : Nat := 0x0402
abbrev Err.badFlags : Nat := 0x0403
abbrev Err.segmentLost : Nat := 0x0404
abbrev Err.tooMany : Nat := 0x0405
abbrev Err.debugDisabled : Nat := 0x0406
abbrev Err.peerNotAccepted : Nat := 0x0407

/-- Message types (R80). -/
abbrev Oap.read : Nat := 0
abbrev Oap.write : Nat := 1
abbrev Oap.groupBegin : Nat := 2
abbrev Oap.groupStage : Nat := 3
abbrev Oap.groupCommit : Nat := 4
abbrev Oap.groupAbort : Nat := 5
abbrev Oap.claim : Nat := 6
abbrev Oap.release : Nat := 7
abbrev Oap.handover : Nat := 8
abbrev Oap.event : Nat := 9
abbrev Oap.error : Nat := 10

/-! ## Segments (R79, R85) -/

/-- The 8-byte header of R79; `flags` holds bits [3:0] of byte 1. -/
def segHead (type flags seg seq k len : Nat) : List Byte :=
  leBytes 1 (1 + 16 * type) ++ leBytes 1 (flags + 16 * (seg % 16)) ++ leBytes 2 seq ++ leBytes 2 (k / 256)
    ++ leBytes 1 (k % 256) ++ leBytes 1 len

/-- Cut a payload into pieces of n bytes; an empty payload is one empty piece. -/
def pieces (n : Nat) : Nat → List Byte → List (List Byte)
  | 0, l => [l]
  | f + 1, l => if l.length ≤ n then [l] else l.take n :: pieces n f (l.drop n)

/-- The segments of a message from the device: RESPONSE set, MORE in all but the last, GROUP as in `flags`. -/
def segments (tr : Transport) (type flags seq k : Nat) (pay : List Byte) : List (List Byte) :=
  let ps := pieces (segMax tr) 2000 pay
  (ps.zip (List.range ps.length)).map fun (p, i) =>
    segHead type (1 + (if i + 1 < ps.length then 2 else 0) + flags) i seq k p.length ++ p

/-- CAN FD identifier of R90. -/
def canId (function dest source : Nat) : Nat := function * 2 ^ 25 + dest * 2 ^ 18 + source * 2 ^ 11

/-- Smallest CAN FD data length that holds n bytes (R91). -/
def canLen (n : Nat) : Nat :=
  ([8, 12, 16, 20, 24, 32, 48, 64].find? (n ≤ ·)).getD 64

/-- Pad a segment to a CAN FD length (R91). -/
def canPad (l : List Byte) : List Byte := l ++ List.replicate (canLen l.length - l.length) 0

end Sys2Proof.Machine
end

