-- ==== Sys2Proof/Machine/Ops.lean ====
section
/-! DEFINITION. The operations that every family shares: memory (R36–R40, R539), what a cabinet's state does
to an access (R17, R479), posted writes and interrupts to the host (R461, R462, R466). -/

namespace Sys2Proof.Machine

/-! ## Memory -/

/-- What a cell list holds at an address, `d` where it lists nothing. -/
def Mem.read (d : Byte) (m : List Host.Cell) (a : Nat) : Byte := (Tab.find? m a).getD d

/-- Write a byte; writing `d` unlists the address. -/
def Mem.write (d : Byte) (m : List Host.Cell) (a : Nat) (b : Byte) : List Host.Cell :=
  if b = d then Tab.del m a else Tab.put m a b

/-- Write consecutive bytes. -/
def Mem.writes (d : Byte) : List Host.Cell → Nat → List Byte → List Host.Cell
  | m, _, [] => m
  | m, a, b :: r => Mem.writes d (Mem.write d m a b) (a + 1) r

/-- The canonical form: addresses strictly rising, no entry equal to what an unlisted address reads as. -/
def Memory.wf (d : Byte) (m : List Host.Cell) : Bool := Tab.sorted m && m.all (·.2 ≠ d)

/-- A byte of device memory (R246: reads 0 until written). -/
def State.byte (s : State) (a : Nat) : Byte := Mem.read 0 s.mem a
/-- n bytes of device memory. -/
def State.read (s : State) (a n : Nat) : List Byte := (List.range n).map fun i => s.byte (a + i)
/-- Little-endian number of n bytes of device memory. -/
def State.readNat (s : State) (a n : Nat) : Nat := leNat (s.read a n)
/-- Write bytes to device memory. -/
def State.poke (a : Nat) (l : List Byte) (s : State) : State := { s with mem := Mem.writes 0 s.mem a l }
/-- Write bytes at listed addresses. -/
def State.pokes (l : List (Nat × Byte)) (s : State) : State :=
  { s with mem := l.foldl (fun m (a, b) => Mem.write 0 m a b) s.mem }

/-! ## The address map (R36, R37) -/

/-- Where a device address leads. -/
inductive Place where
  | gddr (c off : Nat)
  | buffer (c off : Nat)
  | operand (g off : Nat)
  | cxl (p off : Nat)
  | host (off : Nat)
  | remote (dev addr : Nat)
  /-- reserved or unpopulated -/
  | none
deriving DecidableEq, Repr

/-- Base of a tile's operand memory (R37). -/
def operandBase (g : Nat) : Nat := 0x4100000000 + 0x10000000 * (g / 150) + 0x100000 * (g % 150)
/-- Base of a cabinet's stream buffer (R37). -/
def bufferBase (c : Nat) : Nat := 0x4000000000 + 0x10000000 * c
/-- Base of a cabinet's GDDR7 (R37). -/
def gddrBase (c : Nat) : Nat := 0x800000000 * c

/-- Ports of the interleave set in force: W (R257). -/
def State.cxlWays (s : State) : Nat := if s.mm.cxlSet = 1 then 2 else if s.mm.cxlSet = 2 then 4 else 1

/-- Granularity of the interleave in force: G (R257). -/
def State.cxlG (s : State) : Nat := if s.mm.cxlGran = 1 then 4096 else 256

/-- Port and expander offset of an offset in the CXL windows, in sets of w ports with granularity g (R257). -/
def cxlPort (w g o : Nat) : Nat × Nat :=
  let p0 := o / 0x20000000000 / w * w
  let x := o - p0 * 0x20000000000
  (p0 + x / g % w, g * (x / (g * w)) + x % g)

/-- The offset in the CXL windows of an expander's byte. -/
def cxlOffset (w g p off : Nat) : Nat := p / w * w * 0x20000000000 + off / g * (g * w) + p % w * g + off % g

/-- An offset in the CXL windows: port and expander offset of the set it lies in, W times the smallest member's
capacity being populated (R257). -/
def State.placeCxl (s : State) (o : Nat) : Place :=
  let w := s.cxlWays
  let p0 := o / 0x20000000000 / w * w
  let x := o - p0 * 0x20000000000
  let small := (List.range w).foldl (fun m i => min m (s.num (Obj.cxlCapacity + (p0 + i)))) 0x20000000000
  if x < w * small then .cxl (cxlPort w s.cxlG o).1 (cxlPort w s.cxlG o).2 else .none

/-- A device address lies in a CXL window (R37). -/
def inCxl (a : Nat) : Bool := 0x10000000000 ≤ a && a < 0x90000000000

/-- A new interleave is in force: expanders keep their bytes, which now stand at other device addresses (R257). -/
def State.interleave (set gran : Nat) (s : State) : State :=
  let t := { s with mm := { s.mm with cxlSet := set, cxlGran := gran } }
  if s.cxlWays = t.cxlWays && s.cxlG = t.cxlG then t
  else
    let move (a : Nat) : Nat :=
      if inCxl a then
        let (p, off) := cxlPort s.cxlWays s.cxlG (a - 0x10000000000)
        0x10000000000 + cxlOffset t.cxlWays t.cxlG p off
      else a
    { t with mem := s.mem.foldl (fun m (a, b) => Mem.write 0 m (move a) b) [] }

/-- The physical space of R37; CXL windows hold what R256 and R257 program. 0x0040_8000_0000 to 0x0040_FFFF_FFFF stands
in no row of R37's table: it answers as a reserved range does (log 109, DESIGN CHOICE). -/
def State.placePhys (s : State) (a : Nat) : Place :=
  if a < 0x4000000000 then
    let c := a / 0x800000000; let o := a % 0x800000000
    if o < Config.gddrPerCabinet then .gddr c o else .none
  else if a < 0x4080000000 then
    let o := a - 0x4000000000
    if o % 0x10000000 < 0x100000 then .none else .buffer (o / 0x10000000) (o % 0x10000000)
  else if a < 0x4100000000 then .none
  else if a < 0x4180000000 then
    let o := a - 0x4100000000
    if o % 0x10000000 / 0x100000 < 150 then .operand (150 * (o / 0x10000000) + o % 0x10000000 / 0x100000) (o % 0x100000)
    else .none
  else if a < 0x10000000000 then .none
  else if a < 0x90000000000 then
    s.placeCxl (a - 0x10000000000)
  else if a < 0x400000000000 then .none
  else if a < 0x800000000000 then .host (a - 0x400000000000)
  else .none

/-- Channel of a slot offset, and the address within it (R38). -/
def slotChannel (o : Nat) : Nat := o / 256 % 24
def slotChanAddr (o : Nat) : Nat := 256 * (o / 6144) + o % 256

/-- A 64-bit device address (R36, R40). -/
def State.place (s : State) (a : Nat) : Place :=
  let phys := a % 0x1000000000000
  let dev := a / 0x1000000000000 % 0x1000
  if a / 0x1000000000000000 % 8 ≠ 0 then .none
  else if a / 0x8000000000000000 % 2 = 1 then
    if dev = s.num Obj.deviceNumberInForce then
      s.placePhys phys
    else .remote dev phys
  else if dev ≠ 0 then .none
  else s.placePhys phys

/-! ## Cabinets -/

/-- A device address lies in a cabinet's GDDR7, stream buffer or operand memories. -/
def cabHolds (c a : Nat) : Bool :=
  (gddrBase c ≤ a && a < gddrBase c + 0x800000000) || (bufferBase c ≤ a && a < bufferBase c + 0x10000000) ||
    (operandBase (150 * c) ≤ a && a < operandBase (150 * c) + 0x10000000)

/-- The cabinet is lost (R17, R278). -/
def State.lost (s : State) (c : Nat) : Bool := s.num (Obj.cabinetHealth + c) = 3
/-- The cabinet is in C reset or its exit (R479, R492). -/
def State.inCReset (s : State) (c : Nat) : Bool := (s.rst.cabExit.find? c).isSome

/-- A block is held in reset by SoftwareReset (R481). -/
def State.blockHeld (s : State) (code : Nat) : Bool := s.rst.heldBlocks.contains code

/-- A request to this address waits: its cabinet's GDDR7 changes operating point (R254). -/
def State.changing (s : State) (a : Nat) : Bool := match s.place a with
  | .gddr c _ => s.num (Obj.gddrCabinetState + c) = 3
  | _ => false

/-- How a cabinet answers a request to its memories (R17, R479). -/
def State.cabStatus (s : State) (c : Nat) : MemStatus := if s.lost c || s.inCReset c then .cabinetLost else .ok

/-- How the place of a local access answers, before what the medium itself reports. -/
def State.placeStatus (s : State) : Place → MemStatus
  | .gddr c _ | .buffer c _ => s.cabStatus c
  | .operand g _ => s.cabStatus (g / 150)
  | .cxl p _ =>
    let p0 := p / s.cxlWays * s.cxlWays
    if (List.range s.cxlWays).any fun i => s.num (Obj.cxlPortState + (p0 + i)) = 4 then .uncorrectable else .ok
  | .host _ => if s.host.busMaster && s.num Obj.hostLinkState = 2 then .ok else .uncorrectable
  | .remote _ _ => .ok
  | .none => .decode

/-- How an access to an address answers, given what the medium reports. -/
def State.access (s : State) (a : Nat) (medium : MemStatus) : MemStatus :=
  match s.placeStatus (s.place a) with
  | .ok => medium
  | e => e

/-- Work that needs a Parked cabinet finds it Active again, ACLKc running (R495). -/
def State.unpark (c : Nat) (s : State) : State :=
  if s.num (Obj.cabinetPowerState + c) = 2 then (s.setState (Obj.cabinetPowerState + c) 1).setState (Obj.clockState + c) 2 else s

/-! ## The host link (R461, R462, R466) -/

/-- The device's requests to host memory are carried (R471). -/
def State.hostUp (s : State) : Bool := s.host.busMaster && s.num Obj.hostLinkState = 2

/-- Signal an MSI-X vector (R462). -/
def State.signal (vector : Nat) (s : State) : State :=
  if !(s.host.msixEnable && s.host.busMaster) then s.bump Obj.msixDropped 1
  else if s.host.unmasked.contains vector then s.emit (.msix vector)
  else if s.host.pendingVec.contains vector then s
  else { s with host := { s.host with pendingVec := vector :: s.host.pendingVec } }

/-- Host bus address of a device address in the host window (R37); only ADDR, bits 47:0, counts (R36, R40). -/
def State.hostAddr (s : State) (a : Nat) : Nat := s.num Obj.hostWindowBase + (a % 0x1000000000000 - 0x400000000000)

/-- Write bytes to a device address: into device memory, or as a posted write to the host (R466). -/
def State.storeAt (a : Nat) (l : List Byte) (s : State) : State :=
  match s.place a with
  | .host _ => s.emit (.hostWrite (s.hostAddr a) l)
  | .none | .remote _ _ => s
  | _ => s.poke (a % 0x1000000000000) l

/-! ## Small helpers -/

/-- Cabinet of a tile (R19). -/
def cabOf (g : Nat) : Nat := g / 150
/-- Key of a tile array's element (R141). -/
def tileKey (base g : Nat) : Nat := base + 0x10000 * (g / 150) + g % 150
/-- Set or clear bit i. -/
def putBit (v i : Nat) (b : Bool) : Nat := if v.testBit i = b then v else v ^^^ 2 ^ i
/-- Number of a Bool. -/
def b2n (b : Bool) : Nat := if b then 1 else 0
/-- Put a value in place i of a list. -/
def setAt {α : Type} (l : List α) (i : Nat) (a : α) : List α := l.set i a
/-- Sum of a list. -/
def sumBy {α : Type} (l : List α) (f : α → Nat) : Nat := l.foldl (fun n a => n + f a) 0

/-- An outcome that goes on. -/
abbrev Res := Host.Outcome State Fault Refusal

end Sys2Proof.Machine
end

