-- ==== Sys2Proof/Machine/Link.lean ====
section
/-! DEFINITION. Routing of flits and remote requests (R40, R445–R449): what every chapter that sends to another
device uses. The commands of the links stand in Lanes.lean. -/

namespace Sys2Proof.Machine

/-- A link layer after an M or D reset or PortEnable 1 (R442, R443). -/
def PeerPort.fresh : PeerPort :=
  ⟨[], [], [], 0, true, [448, 160, 32, 128], [16, 16, 16, 16], 0, 16, 0, true, false, false, false, [0, 0, 0, 0]⟩

def State.port (s : State) (p : Nat) : PeerPort := s.net.ports.get PeerPort.fresh p
def State.setPort (p : Nat) (q : PeerPort) (s : State) : State :=
  { s with net := { s.net with ports := s.net.ports.put p q } }

def PortTrain.new : PortTrain := ⟨false, 0, 0⟩
def State.train (s : State) (p : Nat) : PortTrain := s.net.train.get PortTrain.new p
def State.setTrain (p : Nat) (q : PortTrain) (s : State) : State :=
  { s with net := { s.net with train := s.net.train.put p q } }

/-- This device's number (R445). -/
def State.device (s : State) : Nat := s.num Obj.deviceNumberInForce

/-- Entry of a route table: OUT_PORT and ACTION (R446). -/
def State.routeEntry (s : State) (table dest : Nat) : Nat × Nat :=
  let e := ((s.bytes (Obj.routeTable + 256 * table)).getD dest 0x20).toNat
  (e % 16, e / 16 % 4)

/-- A flit goes to a port: it waits if the port is Up or retraining, else it is discarded (R446). -/
def State.toPort (inp p : Nat) (f : Flit) (s : State) : State :=
  let st := s.num (Obj.portState + p)
  if st = 3 || st = 4 || ((s.train p).kept && (st = 1 || st = 2)) then
    let q := s.port p
    s.setPort p { q with queue := q.queue ++ [(inp, f)] }
  else (s.bump Obj.routeDiscards 1).setFlag Obj.linkFlags 8

/-- A VC0 flit for this device joins the inbox; flits of the other channels are handed to their services, whose
own commands act on them (log 26). -/
def State.deliver (f : Flit) (s : State) : State :=
  if f.vc = 0 then { s with net := { s.net with inbox := s.net.inbox ++ [(f.source, f.body)] } } else s

/-- Forward a flit that leaves for a port: the originator sends with TTL 127, a device in transit lowers it (R446). -/
def State.leave (inp p : Nat) (f : Flit) (s : State) : State :=
  if inp = 16 then s.toPort inp p f
  else if f.ttl ≤ 1 then (s.bump Obj.ttlExpired 1).setFlag Obj.linkFlags 4
  else s.toPort inp p { f with ttl := f.ttl - 1 }

/-- Route a flit that came by an input, 16 for one that originates here (R446, R447). -/
def State.route (inp : Nat) (f : Flit) (s : State) : State :=
  if f.mcast then
    let e := leNat (slice (s.bytes Obj.multicastTable) (4 * (f.dest % 256)) 4)
    let s := (List.range 16).foldl (fun s p => if e.testBit p then s.leave inp p f else s) s
    if e.testBit 16 then s.deliver f else s
  else if f.dest = s.device then s.deliver f
  else
    let (p, act) := s.routeEntry inp f.dest
    if act = 0 then s.leave inp p f
    else if act = 1 then s.deliver f
    else (s.bump Obj.routeDiscards 1).setFlag Obj.linkFlags 8

/-- Send a flit from this device. -/
def State.sendFlit (vc : Nat) (mcast : Bool) (dest : Nat) (body : List Byte) (s : State) : State :=
  s.route 16 ⟨vc, mcast, dest, s.device, 127, body ++ List.replicate (256 - body.length) 0⟩

/-- Header body of a VC0 message (R449). -/
def vc0Header (op len tag status addr : Nat) : List Byte :=
  leBytes 1 op ++ leBytes 1 len ++ leBytes 2 tag ++ leBytes 1 status ++ leBytes 3 0 ++ leBytes 8 addr

/-- Put a remote request to another device, if fewer than 4,096 are outstanding; n is a multiple of 64 bytes, at
most 256 (R449). -/
def State.remoteAsk (dev addr n : Nat) (read : Bool) (data : List Byte) (who : Nat) (s : State) : State :=
  if 4096 ≤ s.net.reqs.length then s
  else
    let tag := ((List.range 4096).map fun i => (s.net.nextTag + i) % 4096).find? (fun t => (s.net.reqs.find? t).isNone) |>.getD 0
    let s := { s with net := { s.net with reqs := s.net.reqs.put tag ⟨dev, read, who⟩, nextTag := (tag + 1) % 4096 } }
    let s := s.sendFlit 0 false dev (vc0Header (if read then 1 else 2) (n / 64 - 1) tag 0 (addr % 2 ^ 48))
    if read then s else s.sendFlit 0 false dev data

/-- Take the finished request of a requester. -/
def State.takeDone (who : Nat) (s : State) : Option (MemStatus × List Byte) × State :=
  match s.net.done.find? who with
  | none => (none, s)
  | some r => (some r, { s with net := { s.net with done := s.net.done.del who } })

/-- Code of a status in an ERROR response (R449). -/
def statusCode : MemStatus → Nat
  | .ok => 0
  | .decode => 1
  | .cabinetLost => 3
  | _ => 2

end Sys2Proof.Machine
end

