-- ==== Sys2Proof/Machine/StreamOps.lean ====
section
/-! DEFINITION. Open streams as other services see them (R216, R239): the table of streams and their states. -/

namespace Sys2Proof.Machine

/-! ## Access and states -/

/-- Codes of R239. -/
def StreamSt.code : StreamSt → Nat
  | .closed => 0 | .opening => 1 | .running => 2 | .halted => 3 | .saved => 4 | .done => 5 | .closing => 6 | .error => 7

/-- Key of a stream. -/
def streamKey (c n : Nat) : Nat := 512 * c + n

def State.stream (s : State) (k : Nat) : Option StreamS := s.streams.find? k
def State.putStream (k : Nat) (m : StreamS) (s : State) : State := { s with streams := s.streams.put k m }

/-- StreamState's event, while the selectors name the stream (R66, R239). -/
def State.streamEvent (k code : Nat) (s : State) : State :=
  if s.num Obj.selectCabinet = k / 512 && s.num Obj.selectStream = k % 512 then s.raiseVal Obj.streamState 0 (.num code)
  else s

/-- A stream changes state. -/
def State.setStreamSt (k : Nat) (st : StreamSt) (s : State) : State :=
  match s.stream k with
  | none => s
  | some m => if m.st = st then s else (s.putStream k { m with st := st }).streamEvent k st.code

/-- Beats in the IN queue of a fabric-in stream that closes are discarded (R332). -/
def State.discardIn (m : StreamS) (s : State) : State :=
  match s.tiles.find? m.tile with
  | some t => if m.desc.dir = 2 then { s with tiles := s.tiles.put m.tile { t with portIn := [] } } else s
  | none => s

/-- A stream is gone. -/
def State.dropStream (k : Nat) (s : State) : State :=
  match s.stream k with
  | none => s
  | some m => (({ s with streams := s.streams.del k } : State).discardIn m).streamEvent k 0

end Sys2Proof.Machine
end

