-- ==== Sys2Proof/Machine/LockOps.lean ====
section
/-! DEFINITION. The step controller as other services see it (R393, R394, R401, R408): its states, cut flits, and the
proposal of a freeze. -/

namespace Sys2Proof.Machine

/-- Codes of R408. -/
abbrev Lock.idle : Nat := 0
abbrev Lock.elastic : Nat := 1
abbrev Lock.arming : Nat := 2
abbrev Lock.bound : Nat := 3
abbrev Lock.freezing : Nat := 4
abbrev Lock.frozen : Nat := 5
abbrev Lock.stalled : Nat := 6
abbrev Lock.failed : Nat := 7

def State.lockSt (s : State) : Nat := s.num Obj.stepControllerState
def State.setLockSt (v : Nat) (s : State) : State := s.setState Obj.stepControllerState v

/-- No freeze step held. -/
abbrev noStep : Nat := 0xFFFFFFFFFFFFFFFF

/-- The last started step; before the first step after Idle, the one before StartStep. -/
def State.lastStarted (s : State) : Nat := if s.lock.started then s.num Obj.currentStep else s.num Obj.startStep - 1

/-- A neighbour entry (R393). -/
structure Neighbour where
  entry    : Nat
  dev      : Nat
  outFirst : Nat
  outWords : Nat
  inFirst  : Nat
  inWords  : Nat
deriving DecidableEq, Repr

/-- The enabled entries, in order (R393). -/
def State.neighbours (s : State) : List Neighbour :=
  (List.range 64).filterMap fun k =>
    let v := s.num (Obj.cutNeighbours + k)
    if v.testBit 12 then some ⟨k, bits v 0 12, bits v 16 12, bits v 28 12, bits v 40 12, bits v 52 12⟩ else none

/-- The body of a cut flit (R394). -/
def cutBody (f : CutFlit) : List Byte :=
  leBytes 6 f.step.toNat ++ leBytes 2 (f.source.toNat + 4096 * f.kind.toNat) ++ leBytes 2 f.dest.toNat ++
    leBytes 1 (f.flit.toNat + 128 * b2n f.last) ++ leBytes 1 (b2n f.freezeValid + 2 * f.cause.toNat) ++
    leBytes 4 f.delta.toNat ++ f.payload ++ List.replicate (240 - f.payload.length) 0

/-- A flit from this device to another on VC1. -/
def State.sendCut (f : CutFlit) (s : State) : State := s.sendFlit 1 false f.dest.toNat (cutBody f)

/-- The header fields of a flit that this device sends: step, kind, destination, and the freeze it holds. -/
def State.cutFlit (s : State) (step kind dest flit : Nat) (last : Bool) (payload : List Byte) : CutFlit :=
  let f := s.num Obj.freezeAt
  let valid := f ≠ noStep
  { step := BitVec.ofNat 48 step, source := BitVec.ofNat 12 s.device, kind := BitVec.ofNat 4 kind,
    dest := BitVec.ofNat 12 dest, flit := BitVec.ofNat 7 flit, last := last, freezeValid := valid,
    cause := if valid then BitVec.ofNat 3 (s.num Obj.freezeCause) else 0,
    delta := if valid then BitVec.ofInt 32 ((f : Int) - step) else 0, payload := payload }

/-- Freeze notices to every enabled neighbour but the device itself (R401). -/
def State.sendNotices (s : State) : State :=
  (s.neighbours.filter fun n => n.dev ≠ s.device).foldl (fun s n =>
    s.sendCut (s.cutFlit s.lastStarted 2 n.dev 0 true (leBytes 2 (s.num Obj.freezeOrigin % 4096)))) s

/-- The controller fails (R408). -/
def State.failLock (cause : Nat) (s : State) : State :=
  ((s.setNum Obj.failCause cause).setLockSt Lock.failed).setFlag Obj.lockstepFlags 0x10

/-- A cabinet holds a stepped network. -/
def State.steppedCab (s : State) (c : Nat) : Bool := s.num (Obj.stepNetworks + c) ≠ 0

/-- Step F has been finished: Frozen, with the target bridges of stepped cabinets (R401, R404). -/
def State.enterFrozen (s : State) : State :=
  let f := s.num Obj.freezeAt
  let s := ((s.setNum Obj.frozenStep f).setLockSt Lock.frozen).setFlag Obj.lockstepFlags 2
  let s := s.bump Obj.freezesCompleted 1
  (List.range 8).foldl (fun s c =>
    if s.steppedCab c && s.num (Obj.targetBridgeState + c) = 1 then s.setState (Obj.targetBridgeState + c) 2 else s) s

/-- propose of R401: the lowest F wins; one already passed fails the prototype. A proposal met in Idle waits for RUN;
a notice of the F held supplies an origin not yet known. -/
def State.propose (f origin cause : Nat) (s : State) : State :=
  if s.lockSt = Lock.idle then { s with lock := { s.lock with held := s.lock.held ++ [(f, origin, cause)] } }
  else if s.lockSt = Lock.failed then s
  else if s.num Obj.freezeAt ≠ noStep && s.num Obj.freezeAt ≤ f then
    if s.num Obj.freezeAt = f && s.num Obj.freezeOrigin = 0xFFFF then s.setNum Obj.freezeOrigin origin else s
  else if f < s.lastStarted then
    ((s.setFlag Obj.lockstepFlags 8).bump Obj.freezesPassed 1).failLock 1
  else
    let s := ((s.setNum Obj.freezeAt f).setNum Obj.freezeOrigin
      (if origin = 0xFFFF then s.num Obj.freezeOrigin else origin)).setNum Obj.freezeCause cause
    let s := s.sendNotices
    if s.lockSt = Lock.stalled then s
    else
      let s := s.setLockSt Lock.freezing
      if s.lock.started && s.num Obj.currentStep = f && !s.lock.evaluating then s.enterFrozen else s

/-- A proposal of this device at S + D (R401). -/
def State.proposeHere (cause : Nat) (s : State) : State :=
  s.propose (s.lastStarted + s.num Obj.systemDiameter) s.device cause

end Sys2Proof.Machine
end

