-- ==== Sys2Proof/Machine/FeedOps.lean ====
section
/-! DEFINITION. Trace feeds as the tiles and the job service see them (R421–R426): their steps' verdicts, and what
becomes of a feed when its checker stops, moves or ends. -/

namespace Sys2Proof.Machine

def FeedS.off : FeedS :=
  ⟨0, none, 0, false, [], [], false, false, 0, 0, 0, [], 0, 0, 0, 0, 0, 0xFFFF, 0, 0, none, 0, 0⟩

/-- Feed q = 16 × cabinet + feed. -/
def State.feed (s : State) (q : Nat) : FeedS := s.trace.feeds.get FeedS.off q
def State.setFeed (q : Nat) (f : FeedS) (s : State) : State :=
  { s with trace := { s.trace with feeds := s.trace.feeds.put q f } }
def State.modFeed (q : Nat) (f : FeedS → FeedS) (s : State) : State := s.setFeed q (f (s.feed q))

/-- An object of a feed's configuration record. -/
def feedObj (k q : Nat) : Nat := k + 256 * q

/-- FeedSelect names the feed. -/
def State.feedSelected (s : State) (q : Nat) : Bool :=
  16 * bits (s.num Obj.feedSelect) 4 3 + bits (s.num Obj.feedSelect) 0 4 = q

/-- A feed changes state, with the event of FeedState while it is selected (R66). -/
def State.setFeedSt (q v : Nat) (s : State) : State :=
  if (s.feed q).st = v then s
  else
    let s := s.modFeed q fun f => { f with st := v }
    if s.feedSelected q then s.raiseVal Obj.feedState 0 (.num v) else s

/-- The capture ring changes state, with its event (R66, R426). -/
def State.setCapture (q v : Nat) (s : State) : State :=
  if (s.feed q).capSt = v then s
  else
    let s := s.modFeed q fun f => { f with capSt := v }
    if s.feedSelected q then s.raiseVal Obj.captureState 0 (.num v) else s

/-- Saturating 32-bit count. -/
def sat32 (n : Nat) : Nat := min n 0xFFFFFFFF

/-- A freeze by verdict or policy (R424). -/
def State.verdictFreeze (s : State) : State := (s.bump Obj.verdictFreezes 1).proposeHere 3

/-- One step of a feed takes UNKNOWN (R422, R424). -/
def State.takeUnknown (q : Nat) (s : State) : State :=
  let s := s.modFeed q fun f => { f with unknown := sat32 (f.unknown + 1) }
  let s := (s.bump Obj.unknownVerdicts 1).setFlag Obj.traceFlags 2
  if s.num (feedObj Obj.missPolicy q) = 1 then s.verdictFreeze else s

/-- One step of a feed takes MISSED (R421, R424). -/
def State.takeMissed (q : Nat) (s : State) : State :=
  let s := s.modFeed q fun f => { f with misses := sat32 (f.misses + 1) }
  let s := (s.bump Obj.verdictMisses 1).setFlag Obj.traceFlags 1
  if s.num (feedObj Obj.missPolicy q) = 1 then s.verdictFreeze else s

/-- A record of a feed is dropped (R416): counted, and the next one delivered carries GAP. -/
def State.dropRecord (q : Nat) (s : State) : State :=
  let s := s.modFeed q fun f => { f with lost := sat32 (f.lost + 1), gap := true }
  (s.bump Obj.recordsDropped 1).setFlag Obj.traceFlags 4

/-- Every delivered and undecided step of a feed takes UNKNOWN (R422). -/
def State.unknownAll (q : Nat) (s : State) : State :=
  let n := (s.feed q).undecided.length
  let s := s.modFeed q fun f => { f with undecided := [] }
  (List.range n).foldl (fun s _ => s.takeUnknown q) s

/-- Records waiting in a feed's queue are dropped, and their steps take UNKNOWN. -/
def State.flushFeed (q : Nat) (s : State) : State :=
  let l := (s.feed q).queue
  let s := s.modFeed q fun f => { f with queue := [] }
  l.foldl (fun s e => let s := s.dropRecord q; if e.2.1 then s else s.takeUnknown q) s

/-- Feeds that serve a context of a tile. -/
def State.feedsOf (s : State) (g x : Nat) : List Nat :=
  (s.trace.feeds.filter fun (_, f) => f.place = some (g, x) && (f.st = 2 || f.st = 3)).map (·.1)

/-- The checker's context enters Halted, Refused or Stopped (R422). -/
def State.checkerStops (g x : Nat) (s : State) : State := (s.feedsOf g x).foldl (fun s q => s.unknownAll q) s

/-- A fault report named the checker's drawer (R421). -/
def State.checkerFault (g x : Nat) (s : State) : State :=
  (s.feedsOf g x).foldl (fun s q => s.modFeed q fun f => { f with undecided := f.undecided.map fun p => (p.1, true) }) s

/-- The checker's drawer is stopped for recovery: its feeds are Recovering (R422). -/
def State.feedRecover (g x : Nat) (s : State) : State :=
  (s.feedsOf g x).foldl (fun s q => ((s.setFeedSt q 3).unknownAll q).flushFeed q) s

/-- Key of the stream that a feed has open. -/
def State.feedKey (s : State) (q : Nat) : Nat := (s.feed q).key

/-- Close the stream of a feed with a place. -/
def State.dropFeedStream (q : Nat) (s : State) : State :=
  if (s.feed q).place.isSome then s.dropStream (s.feedKey q) else s

/-- The feeds of a moved drawer follow it: the new ring starts empty and the next record carries GAP (R422). -/
def State.feedMoved (g x g' x' : Nat) (s : State) : State :=
  (s.feedsOf g x).foldl (fun s q =>
    let s := s.modFeed q fun f => { f with place := some (g', x'), gap := true, verdicts := f.verdicts }
    let s := match s.stream (s.feedKey q) with
      | some m => s.putStream (s.feedKey q) { m with tile := g', ctx := x', delivered := 0, freed := 0 }
      | none => s
    s.setFeedSt q 2) s

/-- The checker of a Running feed ends (R423): the stream is closed, queued records are discarded, the capture ring is
released and the feed is Waiting. -/
def State.feedEnds (q : Nat) (s : State) : State :=
  let s := (s.unknownAll q).flushFeed q
  let s := s.dropFeedStream q
  let s := s.modFeed q fun f => { f with place := none, ended := true, verdicts := [], capNewest := none, capFirst := 0, capLast := 0 }
  (s.setCapture q 0).setFeedSt q 1

/-- The feeds whose stream is one of a job's. -/
def State.feedsOfJob (s : State) (j : JobS) : List Nat :=
  (s.trace.feeds.filter fun (q, f) => (f.st = 2 || f.st = 3) && j.streams.contains (s.feedKey q)).map (·.1)

/-- A checker job enters Ending (R423). -/
def State.checkerEnds (j : JobS) (s : State) : State := (s.feedsOfJob j).foldl (fun s q => s.feedEnds q) s

end Sys2Proof.Machine
end

