-- ==== Sys2Proof/Machine/Numeric.lean ====
section
/-! DEFINITION. Number formats, scales, rounding and reduction (spec/04). Values are exact: a magnitude
times a power of two, rounded once where the spec rounds. Counts and flags of R135 travel with results. -/

namespace Sys2Proof.Machine

/-! ## Counts (R135) -/

def Counts.zero : Counts := ⟨0, 0, 0⟩
def Counts.invalid : Counts := ⟨0, 0, 1⟩
def Counts.overflow : Counts := ⟨0, 0, 2⟩
def Counts.flushed : Counts := ⟨0, 1, 4⟩
def Counts.saturated : Counts := ⟨1, 0, 8⟩
/-- Counts add and flags OR. -/
def Counts.add (a b : Counts) : Counts := ⟨a.sat + b.sat, a.flush + b.flush, a.flags ||| b.flags⟩

/-! ## Formats (R109, R111) -/

/-- A floating-point format: exponent and mantissa bits, bias, whether it has infinities, whether it has NaN,
largest finite value as m × 2^e, and whether DENORM governs its subnormals (R123, R124). -/
structure Fmt where
  eb   : Nat
  mb   : Nat
  bias : Int
  inf  : Bool
  nan  : Bool
  maxM : Nat
  maxE : Int
  gov  : Bool
deriving DecidableEq, Repr

def fp32 : Fmt := ⟨8, 23, 127, true, true, 0xFFFFFF, 104, true⟩
def bf16 : Fmt := ⟨8, 7, 127, true, true, 0xFF, 120, true⟩
def fp16 : Fmt := ⟨5, 10, 15, true, true, 0x7FF, 5, true⟩
def e5m2 : Fmt := ⟨5, 2, 15, true, true, 7, 13, true⟩
def e4m3 : Fmt := ⟨4, 3, 7, false, true, 7, 6, true⟩
def e3m2 : Fmt := ⟨3, 2, 3, false, false, 7, 2, false⟩
def e2m3 : Fmt := ⟨2, 3, 1, false, false, 15, -1, false⟩
def e2m1 : Fmt := ⟨2, 1, 1, false, false, 3, 1, false⟩

/-- The floating-point format of a code. -/
def fmtOf : Nat → Option Fmt
  | 0 => some fp32 | 1 => some bf16 | 2 => some fp16 | 3 => some e5m2
  | 4 => some e4m3 | 5 => some e3m2 | 6 => some e2m3 | 7 => some e2m1
  | _ => none

/-- Bits per element of a format code. -/
def fmtBits : Nat → Nat
  | 0 | 10 => 32
  | 1 | 2 => 16
  | 3 | 4 | 8 => 8
  | 5 | 6 => 6
  | _ => 4

/-- The format is scaled (R109). -/
def fmtScaled (f : Nat) : Bool := 3 ≤ f && f ≤ 9

/-- An exact value. -/
inductive FVal where
  | nan
  | inf (neg : Bool)
  /-- ± m × 2^e -/
  | fin (neg : Bool) (m : Nat) (e : Int)
deriving DecidableEq, Repr

/-- Decode an element of a floating-point format (R111). -/
def Fmt.decode (f : Fmt) (code : Nat) : FVal :=
  let neg := code.testBit (f.eb + f.mb)
  let e := bits code f.mb f.eb
  let m := bits code 0 f.mb
  if e = 0 then .fin neg m (1 - f.bias - f.mb)
  else if f.inf && e = 2 ^ f.eb - 1 then (if m = 0 then .inf neg else .nan)
  else if f.nan && e = 2 ^ f.eb - 1 && m = 2 ^ f.mb - 1 then .nan
  else .fin neg (m + 2 ^ f.mb) (e - f.bias - f.mb)

/-- The value is non-zero and below the smallest normal of a format. -/
def Fmt.subnormal (f : Fmt) (code : Nat) : Bool := bits code f.mb f.eb = 0 && bits code 0 f.mb ≠ 0

/-- An integer element of n bits (R111). -/
def decodeInt (n code : Nat) : FVal :=
  if code.testBit (n - 1) then .fin true (2 ^ n - bits code 0 n) 0 else .fin false (bits code 0 n) 0

/-- Decode an element of any operand format. -/
def decodeElem (f code : Nat) : FVal :=
  match fmtOf f with
  | some x => x.decode code
  | none => if f = 8 then decodeInt 8 code else if f = 9 then decodeInt 4 code else decodeInt 32 code

/-- An input element read under DENORM: a governed subnormal becomes a zero of its sign when DENORM is 0, and
the second result says so (R123). -/
def readElem (f : Nat) (denorm : Bool) (code : Nat) : FVal × Bool :=
  match fmtOf f with
  | some x =>
    if !denorm && x.gov && x.subnormal code then (.fin (code.testBit (x.eb + x.mb)) 0 0, true)
    else (x.decode code, false)
  | none => (decodeElem f code, false)

/-- Canonical NaN of a floating-point format that has one (R120). -/
def Fmt.canonical (f : Fmt) : Nat :=
  if f.inf && f.mb ≠ 2 then (2 ^ f.eb - 1) * 2 ^ f.mb + 2 ^ (f.mb - 1) else 2 ^ (f.eb + f.mb) - 1

/-! ## Exact arithmetic -/

/-- m × 2^e as an integer multiple of 2^q, for q ≤ e. -/
def scaleTo (m : Int) (e q : Int) : Int := m * 2 ^ (e - q).toNat

/-- m × 2^e compared with m' × 2^e'. -/
def dyLe (m : Nat) (e : Int) (m' : Nat) (e' : Int) : Bool :=
  let q := min e e'
  m * 2 ^ (e - q).toNat ≤ m' * 2 ^ (e' - q).toNat

/-- Signed magnitude as an integer. -/
def signed (neg : Bool) (m : Nat) : Int := if neg then -(m : Int) else m

/-- Exact product; NaN sets INVALID (R121). -/
def FVal.mul : FVal → FVal → FVal × Counts
  | .nan, _ => (.nan, .invalid)
  | _, .nan => (.nan, .invalid)
  | .inf a, .inf b => (.inf (a != b), .zero)
  | .inf a, .fin b m _ => if m = 0 then (.nan, .invalid) else (.inf (a != b), .zero)
  | .fin a m _, .inf b => if m = 0 then (.nan, .invalid) else (.inf (a != b), .zero)
  | .fin a m e, .fin b n f => (.fin (a != b) (m * n) (e + f), .zero)

/-- Exact sum; an exact zero is +0 unless both addends are −0 (R129). -/
def FVal.add : FVal → FVal → FVal × Counts
  | .nan, _ => (.nan, .invalid)
  | _, .nan => (.nan, .invalid)
  | .inf a, .inf b => if a = b then (.inf a, .zero) else (.nan, .invalid)
  | .inf a, _ => (.inf a, .zero)
  | _, .inf b => (.inf b, .zero)
  | .fin a m e, .fin b n f =>
    let q := min e f
    let v := scaleTo (signed a m) e q + scaleTo (signed b n) f q
    if v = 0 then (.fin (a && b && m = 0 && n = 0) 0 0, .zero) else (.fin (v < 0) v.natAbs q, .zero)

/-- x < y on values that are not NaN; zeros are equal (R204). -/
def FVal.lt : FVal → FVal → Bool
  | .nan, _ => false
  | _, .nan => false
  | .inf a, .inf b => a && !b
  | .inf a, _ => a
  | _, .inf b => !b
  | .fin a m e, .fin b n f =>
    let q := min e f
    scaleTo (signed a m) e q < scaleTo (signed b n) f q

/-- Magnitude. -/
def FVal.abs : FVal → FVal
  | .nan => .nan
  | .inf _ => .inf false
  | .fin _ m e => .fin false m e

/-! ## Rounding (R116, R117) -/

/-- n / d rounded to the nearest integer, ties to even. -/
def roundDiv (n d : Nat) : Nat :=
  let q := n / d
  let r := n % d
  if 2 * r < d then q else if 2 * r > d then q + 1 else q + q % 2

/-- num / den × 2^e as a multiple of 2^q, rounded half to even. -/
def roundAt (num den : Nat) (e q : Int) : Nat :=
  if q ≤ e then roundDiv (num * 2 ^ (e - q).toNat) den else roundDiv num (den * 2 ^ (q - e).toNat)

/-- Exponent of the leading bit of num / den × 2^e, for num ≠ 0. -/
def leadExp (num den : Nat) (e : Int) : Int :=
  let l : Int := (Nat.log2 num : Int) - Nat.log2 den
  let ge := if 0 ≤ l then den * 2 ^ l.toNat ≤ num else den ≤ num * 2 ^ (-l).toNat
  (if ge then l else l - 1) + e

/-- Round ± num/den × 2^e to a floating-point format (R116, R117, R123): code and counts. -/
def Fmt.round (f : Fmt) (denorm neg : Bool) (num den : Nat) (e : Int) : Nat × Counts :=
  let sign := if neg then 2 ^ (f.eb + f.mb) else 0
  if num = 0 then (sign, .zero)
  else
    let lead := leadExp num den e
    let q := lead - f.mb
    let m := roundAt num den e q
    let lead' := if m = 2 ^ (f.mb + 1) then lead + 1 else lead
    if !dyLe m q f.maxM f.maxE then
      if f.inf then (sign + (2 ^ f.eb - 1) * 2 ^ f.mb, .overflow)
      else
        let maxCode := if f.nan then 2 ^ (f.eb + f.mb) - 2 else 2 ^ (f.eb + f.mb) - 1
        (sign + maxCode, .saturated)
    else if 1 - f.bias ≤ lead' then
      let frac := if m = 2 ^ (f.mb + 1) then 0 else m - 2 ^ f.mb
      (sign + (lead' + f.bias).toNat * 2 ^ f.mb + frac, .zero)
    else if denorm || !f.gov then (sign + roundAt num den e (1 - f.bias - f.mb), .zero)
    else (sign, .flushed)

/-- Convert a value, divided by `den`, to a floating-point format (R116–R118, R120). -/
def Fmt.convert (f : Fmt) (denorm : Bool) (v : FVal) (den : Nat) : Nat × Counts :=
  match v with
  | .nan => (f.canonical, .zero)
  | .inf neg =>
    let sign := if neg then 2 ^ (f.eb + f.mb) else 0
    if f.inf then (sign + (2 ^ f.eb - 1) * 2 ^ f.mb, .zero)
    else (sign + (if f.nan then 2 ^ (f.eb + f.mb) - 2 else 2 ^ (f.eb + f.mb) - 1), .saturated)
  | .fin neg m e => f.round denorm neg m den e

/-- Round to FP32. -/
def round32 (denorm : Bool) (v : FVal) : BitVec 32 × Counts :=
  let (c, k) := fp32.convert denorm v 1
  (BitVec.ofNat 32 c, k)

/-- Round to a symmetric integer range ± max (R116, R117). -/
def roundInt (max : Nat) (neg : Bool) (num den : Nat) (e : Int) : Int × Counts :=
  let n := roundAt num den e 0
  if max < n then (signed neg max, .saturated) else (signed neg n, .zero)

/-- FP32 value of a register or accumulator. -/
def val32 (b : BitVec 32) : FVal := fp32.decode b.toNat

/-- FP32 input element under DENORM, with its count (R123). -/
def in32 (denorm : Bool) (b : BitVec 32) : FVal × Counts :=
  let (v, fl) := readElem 0 denorm b.toNat
  (v, if fl then .flushed else .zero)

/-- FP32 sum, rounded once. -/
def add32 (denorm : Bool) (a b : FVal) : BitVec 32 × Counts :=
  let (v, k) := a.add b
  let (r, k') := round32 denorm v
  (r, k.add k')

/-- FP32 product, rounded once. -/
def mul32 (denorm : Bool) (a b : FVal) : BitVec 32 × Counts :=
  let (v, k) := a.mul b
  let (r, k') := round32 denorm v
  (r, k.add k')

/-- FP32 fused multiply-add, rounded once. -/
def fma32 (denorm : Bool) (a b c : FVal) : BitVec 32 × Counts :=
  let (p, k) := a.mul b
  let (v, k') := p.add c
  let (r, k'') := round32 denorm v
  (r, (k.add k').add k'')

/-! ## Fine scales (R115) -/

/-- Value of an FS8 code from 0x01 to 0xFE, as m × 2^e. -/
def fs8 (code : Nat) : Nat × Int :=
  if code < 8 then (code, -17) else (8 + code % 8, (code / 8 : Nat) - 18)

/-- The coarse scale is finite, positive and normal (R113). -/
def coarseOk (b : BitVec 32) : Bool := 0x00800000 ≤ b.toNat && b.toNat ≤ 0x7F7FFFFF

/-- A coarse scale as m × 2^e. -/
def coarse (b : BitVec 32) : Nat × Int :=
  match val32 b with
  | .fin _ m e => (m, e)
  | _ => (0, 0)

/-! ## Block reduction (R122, R125–R129) -/

/-- The exact sum of a block's products in the fixed-point accumulator (R125). -/
def blockSum (ps : List (FVal × Counts)) : FVal × Counts :=
  let ks := ps.foldl (fun k p => k.add p.2) .zero
  let hasNan := ps.any fun p => p.1 = .nan
  let posInf := ps.any fun p => p.1 = .inf false
  let negInf := ps.any fun p => p.1 = .inf true
  if hasNan then (.nan, ks.add .invalid)
  else if posInf && negInf then (.nan, ks.add .invalid)
  else if posInf then (.inf false, ks)
  else if negInf then (.inf true, ks)
  else
    match ps with
    | [] => (.fin false 0 0, ks)
    | p :: r => (r.foldl (fun (a : FVal) (p : FVal × Counts) => (a.add p.1).1) p.1, ks)

/-- One block of scaled operands into an FP32 accumulator (R125): fine scales fa, fb; coarse scales. -/
def accScaled (denorm : Bool) (fa fb : Nat) (ca cb : BitVec 32) (xs : List (FVal × FVal)) (acc : BitVec 32) :
    BitVec 32 × Counts :=
  if fa = 0 || fb = 0 then (acc, .zero)
  else
    let (s, k) := if fa = 255 || fb = 255 then (FVal.nan, Counts.invalid)
      else blockSum (xs.map fun (a, b) => a.mul b)
    let (ma, ea) := fs8 fa
    let (mb, eb) := fs8 fb
    let (mca, eca) := coarse ca
    let (mcb, ecb) := coarse cb
    let v := match s with
      | .fin n m e => .fin n (m * ma * mb * mca * mcb) (e + ea + eb + eca + ecb)
      | x => x
    let (r, k1) := round32 denorm v
    let (a, k2) := add32 denorm (val32 acc) (val32 r)
    (a, (k.add k1).add k2)

/-- One block of scaled integers into an INT32 accumulator (R126). -/
def accInt (fa fb : Nat) (xs : List (FVal × FVal)) (acc : BitVec 32) : BitVec 32 × Counts :=
  if fa = 0 || fb = 0 then (acc, .zero)
  else if fa = 255 || fb = 255 then (0x80000000, .invalid)
  else if acc = 0x80000000 then (acc, .zero)
  else
    let sum : Int := xs.foldl (fun t (a, b) => match a, b with
      | .fin na ma _, .fin nb mb _ => t + signed na ma * signed nb mb
      | _, _ => t) acc.toInt
    if sum > 0x7FFFFFFF then (0x7FFFFFFF, .saturated)
    else if sum < -0x7FFFFFFF then (0x80000001, .saturated)
    else (BitVec.ofInt 32 sum, .zero)

/-- One level of the tree of R127. -/
def treeLevel (denorm : Bool) : List FVal → List FVal × Counts
  | a :: b :: r =>
    let (v, k) := add32 denorm a b
    let (vs, k') := treeLevel denorm r
    (val32 v :: vs, k.add k')
  | l => (l, .zero)

/-- One block of BF16 or FP16 operands (R127). -/
def accHalf (denorm : Bool) (xs : List (FVal × FVal)) (acc : BitVec 32) : BitVec 32 × Counts :=
  let ps := xs.map fun (a, b) => mul32 denorm a b
  let k0 : Counts := ps.foldl (fun k p => k.add p.2) Counts.zero
  let (l1, k1) := treeLevel denorm (ps.map fun p => val32 p.1)
  let (l2, k2) := treeLevel denorm l1
  let (l3, k3) := treeLevel denorm l2
  let (l4, k4) := treeLevel denorm l3
  let sum := l4.headD (.fin false 0 0)
  let (r, k5) := add32 denorm (val32 acc) sum
  (r, ((((k0.add k1).add k2).add k3).add k4).add k5)

/-- FP32 operands: fused multiply-adds in increasing k (R128). -/
def accFull (denorm : Bool) (xs : List (FVal × FVal)) (acc : BitVec 32) : BitVec 32 × Counts :=
  xs.foldl (fun (p : BitVec 32 × Counts) (a, b) =>
    let (r, k) := fma32 denorm a b (val32 p.1)
    (r, p.2.add k)) (acc, .zero)

/-! ## Output (R132–R134) -/

/-- Largest finite magnitude of a scaled format (R132), as m × 2^e. -/
def emax : Nat → Nat × Int
  | 3 => (7, 13) | 4 => (7, 6) | 5 => (7, 2) | 6 => (15, -1) | 7 => (3, 1) | 8 => (127, 0) | _ => (7, 0)

/-- The fine scale of an output block (R132). -/
def selectFs8 (f : Nat) (c : BitVec 32) (xs : List FVal) : Nat :=
  let anyNan := xs.any (· = .nan)
  let anyInf := xs.any fun x => x = .inf false || x = .inf true
  if f ≠ 3 && f ≠ 4 && anyNan then 0xFF
  else
    let fins := xs.filterMap fun x => match x with | .fin _ m e => some (m, e) | _ => none
    let m := fins.foldl (fun (a : Nat × Int) b => if dyLe a.1 a.2 b.1 b.2 then b else a) (0, 0)
    if f ≠ 3 && anyInf then 0xFE
    else if m.1 = 0 then (if anyNan || anyInf then 0x78 else 0x00)
    else
      let (cm, ce) := coarse c
      let (xm, xe) := emax f
      (((List.range 255).drop 1).find? fun code =>
        let (fm, fe) := fs8 code
        dyLe m.1 m.2 (fm * xm * cm) (fe + xe + ce)).getD 0xFE

/-- One element of a scaled output block with fine scale fs (R133). -/
def quantise (f : Nat) (denorm : Bool) (fs : Nat) (c : BitVec 32) (x : FVal) : Nat × Counts :=
  if fs = 0 || fs = 0xFF then (0, .zero)
  else
    let (fm, fe) := fs8 fs
    let (cm, ce) := coarse c
    let den := fm * cm
    let v := match x with
      | .fin n m e => .fin n m (e - fe - ce)
      | y => y
    match fmtOf f with
    | some g => g.convert denorm v den
    | none =>
      let max := if f = 8 then 127 else 7
      let width := if f = 8 then 256 else 16
      match v with
      | .fin n m e =>
        let (i, k) := roundInt max n m den e
        ((i % width).toNat, k)
      | .inf n => ((signed n max % width).toNat, .saturated)
      | .nan => (0, .zero)

/-- The value an accumulator holds: FP32, or INT32 with 0x8000_0000 invalid. -/
def accVal (fmtAcc : Nat) (a : BitVec 32) : FVal :=
  if fmtAcc = 0 then val32 a else if a = 0x80000000 then .nan else .fin (a.toInt < 0) a.toInt.natAbs 0

/-- One element of an unscaled output (R134). -/
def convertOut (fmtAcc f : Nat) (denorm : Bool) (a : BitVec 32) : Nat × Counts :=
  if f = 10 then (a.toNat, .zero)
  else match fmtOf f with
    | some g => g.convert denorm (accVal fmtAcc a) 1
    | none => (a.toNat, .zero)

/-- Pack element codes of a format into bytes (R112). -/
def packElems (f : Nat) (codes : List Nat) : List Byte :=
  let b := fmtBits f
  let n := codes.foldr (fun c acc => c % 2 ^ b + 2 ^ b * acc) 0
  leBytes (ceilDiv (b * codes.length) 8) n

/-- Bytes of n packed elements. -/
def packedSize (f n : Nat) : Nat := ceilDiv (fmtBits f * n) 8

/-- Element i of bytes that start at an address. -/
def State.elem (s : State) (f base i : Nat) : Nat :=
  let b := fmtBits f
  let bit := b * i
  bits (s.readNat (base + bit / 8) 5) (bit % 8) b

end Sys2Proof.Machine
end

