-- ==== Sys2Proof/Machine/Tiles.lean ====
section
/-! DEFINITION. Tiles, thread contexts and drawers: the shared operations of spec/05 and spec/06 — access to
their state, passes and commits (R147–R156), completion records (R135, R136, R197), landings (R185–R188),
banks (R180, R181) and drawer states (R163). -/

namespace Sys2Proof.Machine

/-! ## Reset values and access -/

def VReg.zero : VReg := ⟨List.replicate 128 0, 0⟩
def MAcc.zero : MAcc := ⟨List.replicate 128 0, 0, true⟩
def AGen.zero : AGen := ⟨0, 0, 0, 0, 0⟩
def Search.clear : Search := ⟨0, 0, 0, false, false, true⟩
def Image.zero : Image := ⟨[], [], [], [], [], Search.clear, 0, 0, 0, 0, 0, 0⟩
def Drawer.none : Drawer :=
  ⟨.free, 0, 0, 0, 0, 0, false, 0, 0, false, false, false, [], .none, .none, 0, false, [], [], [], [], Counts.zero, [], [], false,
    Counts.zero, 0⟩
def Thread.idle : Thread := ⟨.idle, 0, 0, .none, 0, 0, 0, false, .none⟩
def Context.none : Context := ⟨Image.zero, Thread.idle, Drawer.none⟩
def Bank.empty : Bank := ⟨.none, false⟩
def TileS.empty : TileS :=
  ⟨0, .none, 0, 0, List.replicate 4 Bank.empty, [], [], [], [], [], [], [], .none⟩

def State.tile (s : State) (g : Nat) : TileS := s.tiles.get TileS.empty g
def State.setTile (g : Nat) (t : TileS) (s : State) : State := { s with tiles := s.tiles.put g t }
def State.modTile (g : Nat) (f : TileS → TileS) (s : State) : State := s.setTile g (f (s.tile g))

def TileS.ctx (t : TileS) (x : Nat) : Context := t.ctxs.get Context.none x
def TileS.setCtx (x : Nat) (c : Context) (t : TileS) : TileS := { t with ctxs := t.ctxs.put x c }

def State.ctx (s : State) (g x : Nat) : Context := (s.tile g).ctx x
def State.setCtx (g x : Nat) (c : Context) (s : State) : State := s.modTile g (TileS.setCtx x c)
def State.dr (s : State) (g x : Nat) : Drawer := (s.ctx g x).dr
def State.th (s : State) (g x : Nat) : Thread := (s.ctx g x).th
def State.img (s : State) (g x : Nat) : Image := (s.ctx g x).img
def State.modDr (g x : Nat) (f : Drawer → Drawer) (s : State) : State :=
  let c := s.ctx g x
  s.setCtx g x { c with dr := f c.dr }
def State.modTh (g x : Nat) (f : Thread → Thread) (s : State) : State :=
  let c := s.ctx g x
  s.setCtx g x { c with th := f c.th }
def State.modImg (g x : Nat) (f : Image → Image) (s : State) : State :=
  let c := s.ctx g x
  s.setCtx g x { c with img := f c.img }

def Image.reg (i : Image) (n : Nat) : U64 := i.s.get 0 n
def Image.vec (i : Image) (n : Nat) : VReg := i.v.get VReg.zero n
def Image.acc (i : Image) (n : Nat) : MAcc := i.ma.get MAcc.zero n
def Image.gen (i : Image) (n : Nat) : AGen := i.ag.get AGen.zero n
def Image.mask (i : Image) (n : Nat) : BitVec 128 := i.lm.get 0 n

/-- Code of a thread state (R184). -/
def ThreadSt.code : ThreadSt → Nat
  | .idle => 0 | .loading => 1 | .ready => 2 | .running => 3 | .blocked => 4
  | .parked => 5 | .parkedReady => 6 | .halted => 7 | .stopped => 8 | .refused => 9

/-! ## Drawers (R142, R163, R165) -/

/-- A drawer is bound. -/
def Drawer.bound (d : Drawer) : Bool := d.st ≠ .free

/-- The drawer covers a logical row. -/
def Drawer.covers (d : Drawer) (row : Nat) : Bool := d.bound && d.r0 ≤ row && row < d.r0 + d.h

/-- A stop is pending: the drawer starts no new pass and its context issues nothing (R158, R209, R276). -/
def Drawer.asked (d : Drawer) : Bool := d.preempt || d.recover

/-- Contexts of a tile with a drawer. -/
def TileS.bound (t : TileS) : List Nat := (List.range 16).filter fun x => (t.ctx x).dr.bound

/-- DrawerOccupancy (R141): the 2 × 2 quads that lie in a drawer. -/
def TileS.occupancy (t : TileS) : Nat :=
  (List.range 64).foldl (fun v q =>
    let row := 2 * (q / 8); let col := 2 * (q % 8)
    if t.bound.any fun x =>
        let d := (t.ctx x).dr
        d.r0 ≤ row && row < d.r0 + d.h && d.c0 ≤ col && col < d.c0 + d.w
    then v + 2 ^ q else v) 0

/-- The cap of a drawer's level: the throttle target, or the reserved level if that is larger (R168). -/
def State.capOf (s : State) (g x : Nat) : Nat :=
  let t := s.num (tileKey Obj.throttleTarget g)
  let d := s.dr g x
  if d.rt then max t d.rtLevel else t

/-! ## Passes (R147, R153) -/

/-- K-groups of an operation. -/
def ArrayOp.groups (o : ArrayOp) : Nat := ceilDiv o.k 256
/-- C blocks along M and N for a drawer. -/
def Drawer.mBlocks (d : Drawer) (o : ArrayOp) : Nat := ceilDiv o.m (8 * d.h)
def Drawer.nBlocks (d : Drawer) (o : ArrayOp) : Nat := ceilDiv o.n (8 * d.w)
/-- Passes of an operation on a drawer. -/
def Drawer.passes (d : Drawer) (o : ArrayOp) : Nat := d.mBlocks o * d.nBlocks o * o.groups

/-- M block, N block and K-group of pass p, in the order of the stationary mode (R147). -/
def Drawer.passAt (d : Drawer) (o : ArrayOp) (p : Nat) : Nat × Nat × Nat :=
  let mb := d.mBlocks o; let nb := d.nBlocks o; let kg := o.groups
  if o.stat = 0 then (p / kg / nb, p / kg % nb, p % kg)
  else if o.stat = 1 then (p % mb, p / mb / kg, p / mb % kg)
  else (p / nb / kg, p % nb, p / nb % kg)

/-- Number of a C block. -/
def Drawer.block (d : Drawer) (o : ArrayOp) (mb nb : Nat) : Nat := mb * d.nBlocks o + nb

/-- Bytes between rows of A or columns of B (R192). -/
def ArrayOp.pitch (o : ArrayOp) (f : Nat) : Nat := packedSize f (o.groups * 256)

/-- Fine-scale byte of row i (or column j) for block b. -/
def State.fine (s : State) (g off : Nat) (o : ArrayOp) (i b : Nat) : Nat :=
  (s.byte (operandBase g + off + 16 * o.groups * i + b)).toNat

/-- The blocks of a K-group that hold elements. -/
def ArrayOp.blocks (o : ArrayOp) (kg : Nat) : List Nat :=
  (List.range 16).filterMap fun b => if 16 * kg + b < ceilDiv o.k 16 then some (16 * kg + b) else .none

/-- Format, offset, fine-scale offset and number of lines of an operand: A, or B. -/
def ArrayOp.fmtOf (o : ArrayOp) (b : Bool) : Nat := if b then o.fmtB else o.fmtA
def ArrayOp.offOf (o : ArrayOp) (b : Bool) : Nat := if b then o.bOff else o.aOff
def ArrayOp.fsOf (o : ArrayOp) (b : Bool) : Nat := if b then o.bFs else o.aFs
def ArrayOp.linesOf (o : ArrayOp) (b : Bool) : Nat := if b then o.n else o.m

/-- The lines blk × span to blk × span + span − 1 of an operand over K-group kg, read from operand memory (R192); K is
padded with zero elements (R129). -/
def State.loadLines (s : State) (g : Nat) (o : ArrayOp) (b : Bool) (blk kg span : Nat) : Lines :=
  let f := o.fmtOf b
  let ls := ((List.range span).map (blk * span + ·)).filter (· < o.linesOf b)
  { blk := blk, kg := kg
    codes := ls.map fun i => (List.range (16 * (o.blocks kg).length)).map fun e =>
      if 256 * kg + e < o.k then s.elem f (operandBase g + o.offOf b + i * o.pitch f) (256 * kg + e) else 0
    fines := if fmtScaled f then ls.map fun i => (o.blocks kg).map (s.fine g (o.fsOf b) o i) else [] }

/-- Element e of line r: value and whether it was flushed (R123). -/
def Lines.elem (l : Lines) (f : Nat) (dn : Bool) (r e : Nat) : FVal × Bool := readElem f dn ((l.codes.getD r []).getD e 0)

/-- Fine scale of line r for the group's block b; unscaled formats read as 1.0. -/
def Lines.fine (l : Lines) (r b : Nat) : Nat := if l.fines.isEmpty then 0x78 else (l.fines.getD r []).getD b 0

/-- Every line has FS8 0x00 for block b (R152). -/
def Lines.zero (l : Lines) (b : Nat) : Bool := !l.fines.isEmpty && l.fines.all fun x => x.getD b 0 = 0

/-- The element pairs of the group's block b for row r of A and column c of B. -/
def ArrayOp.pairs (o : ArrayOp) (la lb : Lines) (r c b : Nat) : List ((FVal × Bool) × (FVal × Bool)) :=
  (List.range 16).map fun e => (la.elem o.fmtA o.denorm r (16 * b + e), lb.elem o.fmtB o.denorm c (16 * b + e))

/-- One block into an accumulator (R125–R128). -/
def ArrayOp.accBlock (o : ArrayOp) (la lb : Lines) (r c b : Nat) (acc : BitVec 32) : BitVec 32 × Counts :=
  let fa := la.fine r b; let fb := lb.fine c b
  let xs := (o.pairs la lb r c b).map fun (p, q) => (p.1, q.1)
  if o.fmtAcc = 10 then accInt fa fb xs acc
  else if fmtScaled o.fmtA then accScaled o.denorm fa fb o.sclA o.sclB xs acc
  else if o.fmtA = 0 then accFull o.denorm xs acc
  else accHalf o.denorm xs acc

/-- Positions of the input elements that row i and column j read flushed in the group's block b (R122, R135). -/
def ArrayOp.flushesAt (o : ArrayOp) (la lb : Lines) (r c i j b : Nat) : List Nat :=
  if la.fine r b = 0 || lb.fine c b = 0 then []
  else ((o.pairs la lb r c b).zip (List.range 16)).flatMap fun ((p, q), e) =>
    let k := 256 * la.kg + 16 * b + e
    (if p.2 then [2 * (i * 2 ^ 32 + k)] else []) ++ (if q.2 then [2 * (j * 2 ^ 32 + k) + 1] else [])

/-- Address and element number of element (i, j) of C (R192). -/
def ArrayOp.cPos (o : ArrayOp) (i j : Nat) : Nat :=
  if o.outdim then j * (16 * ceilDiv o.m 16) + i else i * (16 * ceilDiv o.n 16) + j

/-- Initial accumulator of cell (i, j): +0, or C with its checks (R121, R123, R129). -/
def State.initAcc (s : State) (g : Nat) (o : ArrayOp) (i j : Nat) : BitVec 32 × Counts :=
  if !o.init then (0, .zero)
  else
    let c := BitVec.ofNat 32 (s.elem o.fmtOut (operandBase g + o.cOff) (o.cPos i j))
    if o.fmtAcc = 10 then (c, if c = 0x80000000 then .invalid else .zero)
    else
      let (v, fl) := readElem 0 o.denorm c.toNat
      match v with
      | .nan => (0x7FC00000, .invalid)
      | _ => if fl then (c &&& 0x80000000, .flushed) else (c, .zero)

/-- The accumulator of a cell after the blocks of a K-group. -/
def ArrayOp.reduceCell (o : ArrayOp) (la lb : Lines) (r c : Nat) (acc : BitVec 32) : BitVec 32 × Counts :=
  (List.range (o.blocks la.kg).length).foldl (fun (p : BitVec 32 × Counts) b =>
    let (a, k) := o.accBlock la lb r c b p.1
    (a, p.2.add k)) (acc, .zero)

/-! ### The spill area (R150, R192) -/

/-- Cells of a drawer. -/
def Drawer.cells (d : Drawer) : Nat := 64 * d.h * d.w

/-- Operand-memory offset of the spilled accumulator of cell n of C block b: 4 bytes, least significant first, in an order
that the spec leaves open (log 5). -/
def Drawer.spillAt (d : Drawer) (o : ArrayOp) (b n : Nat) : Nat :=
  let key := Config.spillOrder d.h d.w (d.mBlocks o) (d.nBlocks o)
  let c := d.cells * b + n
  o.spill + 4 * ((List.range (d.cells * (d.mBlocks o * d.nBlocks o))).filter fun e =>
    key e < key c || (key e = key c && e < c)).length

/-- The committed accumulators of a C block: in the cells, or reloaded from the spill area. -/
def State.committed (s : State) (g : Nat) (d : Drawer) (o : ArrayOp) (b : Nat) : List (BitVec 32) :=
  if o.stat = 0 then d.accs.get [] b
  else (List.range d.cells).map fun n => BitVec.ofNat 32 (s.readNat (operandBase g + d.spillAt o b n) 4)

/-- The committed accumulators of a C block are kept: in the cells, or written back to the spill area. -/
def State.putCommitted (g x : Nat) (o : ArrayOp) (b : Nat) (acc : List (BitVec 32)) (s : State) : State :=
  let d := s.dr g x
  if o.stat = 0 then s.modDr g x fun d => { d with accs := d.accs.put b acc }
  else (List.range d.cells).foldl (fun s n => s.poke (operandBase g + d.spillAt o b n) (leBytes 4 (acc.getD n 0).toNat)) s

/-! ### One pass -/

/-- The stationary operand of pass p: which operand, block and K-group (R147). -/
def Drawer.stationary (d : Drawer) (o : ArrayOp) (p : Nat) : Option (Bool × Nat × Nat) :=
  let (mb, nb, kg) := d.passAt o p
  if o.stat = 1 then some (true, nb, kg) else if o.stat = 2 then some (false, mb, kg) else .none

/-- A set that holds a block and K-group. -/
def Drawer.set? (d : Drawer) (blk kg : Nat) : Option Lines := d.sets.find? fun l => l.blk = blk && l.kg = kg

/-- The drawer with the stationary operand of pass p in one of its two sets (R148, log 44). -/
def State.withSet (s : State) (g : Nat) (d : Drawer) (o : ArrayOp) (p : Nat) : Drawer :=
  match d.stationary o p with
  | .none => d
  | some (b, blk, kg) =>
    if d.passes o ≤ p || (d.set? blk kg).isSome then d
    else { d with sets := d.sets.drop (d.sets.length - 1) ++ [s.loadLines g o b blk kg (8 * (if b then d.w else d.h))] }

/-- The lines that a pass takes from a set, or reads from operand memory. -/
def State.passLines (s : State) (g : Nat) (d : Drawer) (o : ArrayOp) (b : Bool) (blk kg : Nat) : Lines :=
  (if o.stat = (if b then 1 else 2) then d.set? blk kg else .none).getD
    (s.loadLines g o b blk kg (8 * (if b then d.w else d.h)))

/-- The accumulators that pass p continues: of the latest uncommitted pass of its C block, else the committed ones
(R150, R154). -/
def State.startAccs (s : State) (g : Nat) (d : Drawer) (o : ArrayOp) (p : Nat) : List (BitVec 32) :=
  let (mb, nb, _) := d.passAt o p
  match d.await.reverse.find? fun w => (d.passAt o w.pass).1 = mb && (d.passAt o w.pass).2.1 = nb with
  | some w => w.acc
  | .none => s.committed g d o (d.block o mb nb)

/-- Blocks that a pass skips (R152). -/
def ArrayOp.skips (o : ArrayOp) (la lb : Lines) : Nat :=
  ((List.range (o.blocks la.kg).length).filter fun b => la.zero b || lb.zero b).length

/-- The working accumulators that pass p leaves, cell by cell in row order, and what it counts. -/
def State.runPass (s : State) (g : Nat) (d : Drawer) (o : ArrayOp) (p : Nat) : PassWork :=
  let (mb, nb, kg) := d.passAt o p
  let la := s.passLines g d o false mb kg
  let lb := s.passLines g d o true nb kg
  let old := if kg = 0 then [] else s.startAccs g d o p
  let cells := (List.range d.cells).map fun n =>
    let r := n / (8 * d.w); let c := n % (8 * d.w)
    let i := mb * (8 * d.h) + r; let j := nb * (8 * d.w) + c
    if i < o.m && j < o.n && !o.badScale then
      let (a0, k0) := if kg = 0 then s.initAcc g o i j else (old.getD n 0, .zero)
      let (a, k) := o.reduceCell la lb r c a0
      (a, k0.add k, (List.range (o.blocks kg).length).flatMap (o.flushesAt la lb r c i j))
    else (0, Counts.zero, [])
  { pass := p, acc := cells.map (·.1), cnt := cells.foldl (fun k c => k.add c.2.1) .zero
    flushed := (cells.flatMap (·.2.2)).eraseDups, skips := o.skips la lb }

/-- Operand-memory offset ranges (start, length) that pass p reads: locked until it commits (R155). A stationary operand
is read when its set is loaded, not by the pass (R147). -/
def Drawer.reads (d : Drawer) (o : ArrayOp) (p : Nat) : List (Nat × Nat) :=
  let (mb, nb, kg) := d.passAt o p
  let side (b : Bool) (blk span : Nat) : List (Nat × Nat) := (List.range span).flatMap fun r =>
    let i := blk * span + r
    let f := o.fmtOf b
    if i < o.linesOf b then [(o.offOf b + i * o.pitch f + packedSize f (256 * kg), packedSize f 256)] ++
      (if fmtScaled f then [(o.fsOf b + 16 * o.groups * i + 16 * kg, 16)] else [])
    else []
  -- C as the initial accumulators, and the spilled accumulators of the block (R150, R192)
  let c : List (Nat × Nat) := if o.init && kg = 0 then
      (if o.outdim then (List.range (8 * d.w)).filterMap fun r =>
          let j := nb * (8 * d.w) + r
          if j < o.n then some (o.cOff + 4 * o.cPos (mb * (8 * d.h)) j, 4 * min (8 * d.h) (o.m - mb * (8 * d.h))) else .none
        else (List.range (8 * d.h)).filterMap fun r =>
          let i := mb * (8 * d.h) + r
          if i < o.m then some (o.cOff + 4 * o.cPos i (nb * (8 * d.w)), 4 * min (8 * d.w) (o.n - nb * (8 * d.w))) else .none)
    else []
  let spilled : List (Nat × Nat) := if o.stat = 0 || kg = 0 then []
    else (List.range d.cells).map fun n => (d.spillAt o (d.block o mb nb) n, 4)
  (if o.stat = 2 then [] else side false mb (8 * d.h)) ++ (if o.stat = 1 then [] else side true nb (8 * d.w)) ++ c ++ spilled

/-- Passes of a drawer that have begun issuing and not committed, oldest first. -/
def Drawer.uncommitted (d : Drawer) : List Nat := d.await.map (·.pass) ++ (if d.begun then [d.pass] else [])

/-- The ranges that a drawer's uncommitted passes lock. -/
def Drawer.locks (d : Drawer) : List (Nat × Nat) := match d.op with
  | .none => []
  | some o => d.uncommitted.flatMap (d.reads o)

/-- A range of operand memory meets one locked for a drawer other than `but` (R155). -/
def TileS.lockedBut (t : TileS) (but : Option Nat) (off n : Nat) : Bool :=
  t.bound.any fun x => but ≠ some x && ((t.ctx x).dr.locks).any fun (a, m) => a < off + n && off < a + m

/-- An operand-memory offset of the tile lies in a range locked under R155. -/
def TileS.locked (t : TileS) (off : Nat) : Bool := t.lockedBut .none off 1

/-- Bytes at a device address meet a locked range of operand memory: a write there waits (R155). -/
def State.lockedAt (s : State) (a n : Nat) : Bool := match s.place a with
  | .operand g off => (s.tile g).lockedBut .none off n
  | _ => false

/-! ## Completion (R135, R136, R197) -/

/-- The 16 bytes of a completion record. -/
def completionRecord (seq opcode : Nat) (k : Counts) : List Byte :=
  leBytes 2 seq ++ leBytes 1 opcode ++ leBytes 1 k.flags ++ leBytes 4 (min k.sat 0xFFFFFFFF) ++
    leBytes 4 (min k.flush 0xFFFFFFFF) ++ leBytes 4 0

/-- Count an operation of a job in its totals. -/
def State.countJob (job : Nat) (k : Counts) (s : State) : State :=
  let t := s.jobTotals.get ⟨0, Counts.zero⟩ job
  { s with jobTotals := s.jobTotals.put job ⟨t.ops + 1, t.cnt.add k⟩ }

/-- Count an operation in the device's totals (R136). -/
def State.countDevice (k : Counts) (s : State) : State :=
  let s := (s.bump Obj.deviceSatCount k.sat).bump Obj.deviceFlushCount k.flush
  if k.flags = 0 then s else s.setFlag Obj.deviceNumericFlags k.flags

/-- An operation of context x completes: totals, and its record in the ring if asked for. -/
def State.complete (g x seq opcode : Nat) (record : Bool) (k : Counts) (s : State) : State :=
  let k : Counts := ⟨min k.sat 0xFFFFFFFF, min k.flush 0xFFFFFFFF, k.flags⟩
  let s := (s.countJob (s.dr g x).jobId k).countDevice k
  let s := s.modDr g x fun d => { d with total := d.total.add k, ops := d.ops + 1 }
  if record then
    let i := s.img g x
    let s := s.poke (operandBase g + i.ringBase + 16 * i.ringNext) (completionRecord seq opcode k)
    s.modImg g x fun i => { i with ringNext := (i.ringNext + 1) % 2 ^ i.ringLog2 }
  else s

/-! ## Landings (R185, R187, R188) -/

/-- A landing writes its destination. -/
def State.land (g : Nat) (f : Flight) (s : State) : State :=
  let s := match f.what with
    | .scalar i v => s.modImg g f.ctx fun m => { m with s := m.s.put i v }
    | .agen i a => s.modImg g f.ctx fun m => { m with ag := m.ag.put i a }
    | .mask i v => s.modImg g f.ctx fun m => { m with lm := m.lm.put i v }
    | .ring b l => s.modImg g f.ctx fun m => { m with ringBase := b, ringLog2 := l, ringNext := 0 }
    | .sema i a => s.modTile g fun t => { t with sema := t.sema.put i (t.sema.get 0 i + a) }
    | .vreg i v => s.modImg g f.ctx fun m => { m with v := m.v.put i v }
    | .macc i a => s.modImg g f.ctx fun m => { m with ma := m.ma.put i a }
    | .mem l => s.pokes l
    | .search x => s.modImg g f.ctx fun m => { m with search := x }
    | .srd i v j w => s.modImg g f.ctx fun m => { m with s := (m.s.put i v).put j w, search := Search.clear }
  match f.rec? with
  | .none => s
  | some (op, r, k) => s.complete g f.ctx f.seq op r k

/-- Two landings write one register. -/
def Landing.sameDest : Landing → Landing → Bool
  | .scalar i _, .scalar j _ => i = j
  | .scalar i _, .srd j _ k _ | .srd j _ k _, .scalar i _ => i = j || i = k
  | .srd _ _ _ _, .srd _ _ _ _ => true
  | .agen i _, .agen j _ => i = j
  | .mask i _, .mask j _ => i = j
  | .ring _ _, .ring _ _ => true
  | .vreg i _, .vreg j _ => i = j
  | .macc i _, .macc j _ => i = j
  | .search _, .search _ => true
  | .search _, .srd _ _ _ _ | .srd _ _ _ _, .search _ => true
  | _, _ => false

/-- Pairs of a list's elements, earlier first. -/
def pairsOf {α : Type} : List α → List (α × α)
  | [] => []
  | a :: r => r.map (fun b => (a, b)) ++ pairsOf r

/-- A store in flight waits for a locked range (R155). -/
def TileS.waits (t : TileS) (g : Nat) (f : Flight) : Bool := match f.what with
  | .mem l => l.any fun e => t.locked (e.1 - operandBase g)
  | _ => false

/-- All results of a tile due in cycle c land, in issue order: the later-issued is kept (R187). -/
def State.landAt (g c : Nat) (s : State) : State :=
  let t := s.tile g
  let now := t.flight.filter fun f => f.due = c && !t.waits g f
  let s := s.setTile g { t with flight := t.flight.filter fun f => f.due ≠ c || t.waits g f }
  let clashes := ((pairsOf now).filter fun (a, b) => a.ctx = b.ctx && a.what.sameDest b.what).length
  let s := now.foldl (fun s f => s.land g f) s
  if clashes = 0 then s else s.bump (tileKey Obj.landingConflicts g) clashes

/-- The earliest landing cycle of the results that can land. -/
def State.nextLanding (s : State) (g : Nat) : Option Nat :=
  let t := s.tile g
  ((t.flight.filter fun f => !t.waits g f).map (·.due)).min?

/-- Everything due before cycle c lands, cycle by cycle; at most ten cycles hold results. -/
def State.landBefore (g c : Nat) : Nat → State → State
  | 0, s => s
  | n + 1, s =>
    match s.nextLanding g with
    | .none => s
    | some d => if d < c then State.landBefore g c n (s.landAt g d) else s

/-- Advancing cycles pass until the results of a context in flight have landed, each in its cycle (R181, R209). A store
that waits for a locked range stays in flight. -/
def State.landCtx (g x : Nat) (s : State) : State :=
  let c := ((s.tile g).flight.filter (·.ctx = x)).foldl (fun c f => max c (f.due + 1)) (s.tile g).acyc
  (s.landBefore g c 64).modTile g fun t => { t with acyc := max t.acyc c }

/-- The same, and what waits for a locked range lands with its context's release. -/
def State.landAll (g x : Nat) (s : State) : State :=
  let s := s.landCtx g x
  let mine := (s.tile g).flight.filter (·.ctx = x)
  (mine.foldl (fun s f => s.land g f) s).modTile g fun t => { t with flight := t.flight.filter (·.ctx ≠ x) }

/-! ## Banks (R180, R181) -/

/-- The bank that holds a context. -/
def TileS.bankOf (t : TileS) (x : Nat) : Option Nat :=
  (List.range 4).find? fun b => (t.banks.getD b Bank.empty).ctx = some x

/-- The context is resident and its bank is not swapping. -/
def TileS.resident (t : TileS) (x : Nat) : Bool :=
  match t.bankOf x with
  | .none => false
  | some b => !(t.banks.getD b Bank.empty).swapping

/-- Take a context out of its bank. -/
def TileS.unbank (x : Nat) (t : TileS) : TileS :=
  { t with banks := t.banks.map fun b => if b.ctx = some x then Bank.empty else b }

/-- A bank begins to load a context (R180). -/
def State.startLoad (g b x : Nat) (s : State) : State :=
  let s := s.modTile g fun t => { t with banks := t.banks.set b ⟨some x, true⟩ }
  s.modTh g x fun h => { h with st := .loading }

/-- A context that may run gets a free bank, or is ready to run and waits for one (R181, R184). -/
def State.grantBank (g x : Nat) (s : State) : State :=
  match (List.range 4).find? fun b => ((s.tile g).banks.getD b Bank.empty).ctx.isNone with
  | some b => s.startLoad g b x
  | .none => s.modTh g x fun h => { h with st := .parkedReady }

/-- The program ends and the drawer goes (R163, R184): release by the job service. -/
def State.releaseCtx (g x : Nat) (s : State) : State :=
  let s := s.landAll g x
  let s := s.modTile g (TileS.unbank x)
  s.setCtx g x Context.none

/-- A drawer enters Stopped and its context with it (R163, R184, R209): an array operation that has not started returns
to the context. -/
def State.stopCtx (g x : Nat) (s : State) : State :=
  let s := s.landCtx g x
  let s := s.modTile g (TileS.unbank x)
  let back := (s.dr g x).pendOp
  let s := s.modTh g x fun h => { h with
    st := if h.st = ThreadSt.halted || h.st = ThreadSt.refused then h.st else .stopped, blockedOn := .none,
    again := if back.isSome then back else h.again }
  let s := s.modDr g x fun d => { d with
    st := .stopped, pendOp := .none, preempt := false, recover := d.recover && !d.preempt }
  let s := s.bump (tileKey Obj.preemptionsTaken g) 1
  -- stopped for recovery, a checker's feeds recover (R422)
  if (s.dr g x).recover then s.feedRecover g x else s.checkerStops g x

/-- A drawer is asked to stop: for recovery, or as a pre-emption (R158, R161, R276). With no pass issuing and no drain it
stops at once; a hold completes first; a drawer already Stopped is held as pre-empted (R286). -/
def State.askStop (g x : Nat) (recovery : Bool) (s : State) : State :=
  let d := s.dr g x
  let s' := s.modDr g x fun d => if recovery then { d with recover := true } else { d with preempt := true }
  match d.st with
  | .free => s
  | .stopped => if recovery then s else s.modDr g x fun d => { d with recover := false }
  | .assigned => s'.stopCtx g x
  | .discarding => if d.await.isEmpty then s'.stopCtx g x else s'.modDr g x fun d => { d with st := .stopping }
  | _ => s'

/-- Where a drawer goes on: a hold, a pass of its operation, its output, a pending operation, or Assigned. -/
def Drawer.goOn (d : Drawer) : Drawer :=
  if !d.hold.isEmpty then { d with st := .holding }
  else match d.op, d.pendOp with
  | some o, _ => if d.pass < d.passes o then { d with st := .issuing, begun := true } else { d with st := .draining }
  | .none, some o => { d with op := some o, pendOp := .none, st := .issuing, begun := true }
  | .none, .none => { d with st := .assigned }

/-- The stationary operand of the pass to issue is in a set. -/
def State.loadSet (g x : Nat) (s : State) : State :=
  s.modDr g x fun d => match d.op with
    | .none => d
    | some o => s.withSet g d o d.pass

/-- The drawer goes on. -/
def State.goOn (g x : Nat) (s : State) : State := (s.modDr g x Drawer.goOn).loadSet g x

/-- The drawer's operation is over. -/
def Drawer.endOp (d : Drawer) : Drawer :=
  { d with op := .none, pass := 0, begun := false, sets := [], await := [], sigs := [], accs := [], cnt := Counts.zero, counted := [], outList := [],
           converted := false }

end Sys2Proof.Machine
end

