-- ==== Sys2Proof/Machine/Drawers.lean ====
section
/-! DEFINITION. Drawers, ramps, bench mode and the reduction collector: the commands of spec/05. A command
whose step cannot occur in the present state leaves the block as it is (log 2). -/

namespace Sys2Proof.Machine

/-- DRAWER_RELEASE (R163): an Assigned or Stopped drawer becomes Free and its thread Idle. -/
def execDrawerRelease (g : Tile) (x : Ctx) (s : State) : Res :=
  let d := s.dr g x
  if d.st = .assigned || d.st = .stopped then .next (s.releaseCtx g x) else .next s

/-- The working values of a pass become the committed ones, with its counts (R150, R152, R154). -/
def State.commitPass (g x : Nat) (o : ArrayOp) (w : PassWork) (s : State) : State :=
  let d := s.dr g x
  let new := w.flushed.filter fun f => !d.counted.contains f
  let k := w.cnt.add ⟨0, new.length, if new.isEmpty then 0 else 4⟩
  let (mb, nb, _) := d.passAt o w.pass
  let s := s.modDr g x fun d => { d with
    cnt := d.cnt.add k
    counted := new ++ d.counted
    await := d.await.tail
    sigs := d.sigs.filter fun l => l.head? ≠ some w.pass }
  let s := (s.bump (tileKey Obj.passesCommitted g) 1).bump (tileKey Obj.skippedBlocks g) w.skips
  s.putCommitted g x o (d.block o mb nb) w.acc

/-- The spill area of a pass's C block is locked for another drawer: its write waits (R155, log 44). -/
def State.spillLocked (s : State) (g x : Nat) (o : ArrayOp) (w : PassWork) : Bool :=
  let d := s.dr g x
  let (mb, nb, _) := d.passAt o w.pass
  o.stat ≠ 0 && (List.range d.cells).any fun n => (s.tile g).lockedBut (some x) (d.spillAt o (d.block o mb nb) n) 4

/-- The oldest pass past its boundary commits (R154); a Stopping drawer with none left stops. Stores in flight that waited
for what it read land (R155). -/
def State.commitOldest (g x : Nat) (s : State) : State :=
  let d := s.dr g x
  match d.op, d.await with
  | some o, w :: rest =>
    if s.spillLocked g x o w then s
    else
      let s := s.commitPass g x o w
      let s := if d.st = .stopping && rest.isEmpty then s.stopCtx g x else s
      s.landBefore g (s.tile g).acyc 64
  | _, _ => s

/-- The committed accumulator of element (i, j). -/
def State.accAt (s : State) (g : Nat) (d : Drawer) (o : ArrayOp) (i j : Nat) : BitVec 32 :=
  if o.badScale then (if o.fmtAcc = 10 then 0x80000000 else 0x7FC00000)
  else
    let mb := i / (8 * d.h); let nb := j / (8 * d.w)
    let b := d.block o mb nb
    let n := i % (8 * d.h) * (8 * d.w) + j % (8 * d.w)
    if o.stat = 0 then (d.accs.get [] b).getD n 0
    else BitVec.ofNat 32 (s.readNat (operandBase g + d.spillAt o b n) 4)

/-- One output block of 16 elements along the output dimension, at line `u`, block `b` (R132–R134, R192). -/
def State.writeBlock (g x : Nat) (o : ArrayOp) (u b : Nat) (sk : State × Counts) : State × Counts :=
  let (s, k) := sk
  let d := s.dr g x
  let lim := if o.outdim then o.m else o.n
  let pos := u * (16 * ceilDiv lim 16) + 16 * b
  let base := operandBase g + o.cOff
  let at16 (e : Nat) : Option (BitVec 32) :=
    if 16 * b + e < lim then some (if o.outdim then s.accAt g d o (16 * b + e) u else s.accAt g d o u (16 * b + e)) else .none
  let accs := (List.range 16).map at16
  let old := (List.range 16).map fun e => s.elem o.fmtOut base (pos + e)
  let scaled := fmtScaled o.fmtOut
  let xs := accs.map fun a => match a with
    | some a => if o.badScale then FVal.nan else accVal o.fmtAcc a
    | .none => .fin false 0 0
  let fs := if scaled then selectFs8 o.fmtOut o.sclC xs else 0
  let outs := (accs.zip xs).map fun (a, v) => match a with
    | some a => if scaled then quantise o.fmtOut o.denorm fs o.sclC v else convertOut o.fmtAcc o.fmtOut o.denorm a
    | .none => (0, Counts.zero)
  let codes := ((accs.zip outs).zip old).map fun ((a, c), p) => if a.isSome then c.1 else p
  let s := s.poke (base + packedSize o.fmtOut pos) (packElems o.fmtOut codes)
  let s := if scaled then s.poke (operandBase g + o.cFs + pos / 16) (leBytes 1 fs) else s
  (s, outs.foldl (fun k c => k.add c.2) k)

/-- The whole output to operand memory, with what it counts (R156). -/
def State.writeC (g x : Nat) (o : ArrayOp) (s : State) : State × Counts :=
  let lines := if o.outdim then o.n else o.m
  let lim := if o.outdim then o.m else o.n
  (List.range (lines * ceilDiv lim 16)).foldl (fun sk q =>
    State.writeBlock g x o (q / ceilDiv lim 16) (q % ceilDiv lim 16) sk) (s, Counts.zero)

/-- The collector entries of the output, in increasing OFFSET (R172, R193). -/
def State.entries (s : State) (g : Nat) (d : Drawer) (o : ArrayOp) (k : Counts) : List Entry :=
  let w := ceilDiv o.n 32
  (List.range (o.m * w)).map fun q =>
    let i := q / w; let jb := q % w
    let lanes := (List.range 32).filter fun l => 32 * jb + l < o.n
    { slot := o.slot, order := o.order, offset := (o.offBase + q) % 2 ^ 24, fmt := o.fmtOut, sticky := k.flags,
      valid := BitVec.ofNat 32 (2 ^ lanes.length - 1),
      data := (List.range 32).map fun l => if 32 * jb + l < o.n then s.accAt g d o i (32 * jb + l) else 0 }

/-- Entries move from the drawer to the 2-entry output queue while it has room (R171). -/
def State.fillQueue (g x : Nat) (s : State) : State :=
  let t := s.tile g
  let d := s.dr g x
  let room := 2 - t.queue.length
  let s := s.modTile g fun t => { t with queue := t.queue ++ (d.outList.take room).map fun e => (e, x, 0) }
  s.modDr g x fun d => { d with outList := d.outList.drop room }

/-- The operation is complete: record, totals, then the hold, the stop or the next operation that waits (R136, R156,
R158, R161, R163). -/
def State.finishOp (g x : Nat) (o : ArrayOp) (s : State) : State :=
  let s := if o.badScale then s.bump Obj.invalidCoarseScales 1 else s
  let d := s.dr g x
  let k := if o.badScale then d.cnt.add Counts.invalid else d.cnt
  let s := s.complete g x o.seq 0x60 o.record k
  let s := s.modDr g x Drawer.endOp
  let d := s.dr g x
  if d.asked && d.hold.isEmpty then s.stopCtx g x else s.goOn g x

/-- The bytes that an operation's output writes in operand memory: C, and its fine scales (R192). -/
def ArrayOp.outRanges (o : ArrayOp) : List (Nat × Nat) :=
  let n := (if o.outdim then o.n else o.m) * (16 * ceilDiv (if o.outdim then o.m else o.n) 16)
  (o.cOff, packedSize o.fmtOut n) :: (if fmtScaled o.fmtOut then [(o.cFs, n / 16)] else [])

/-- OUTPUT_WRITTEN (R156): with every pass committed, the output is converted and written, to operand memory or
entry by entry to the output queue; then the operation completes. Output into a range locked for another drawer waits
(R155). -/
def execOutputWritten (g : Tile) (x : Ctx) (s : State) : Res :=
  let d := s.dr g x
  match d.op with
  | .none => .next s
  | some o =>
    if d.st = .draining && d.await.isEmpty then
      if o.dest then
        let s := if d.converted then s
          else s.modDr g x fun _ => { d with
            converted := true
            outList := s.entries g d o (if o.badScale then d.cnt.add Counts.invalid else d.cnt) }
        let s := s.fillQueue g x
        if (s.dr g x).outList.isEmpty then .next (s.finishOp g x o) else .next s
      else if o.outRanges.any fun (a, n) => (s.tile g).lockedBut (some x) a n then .next s
      else
        let (s, k) := s.writeC g x o
        -- the output path borrows the search unit to choose fine scales (R186)
        let s := if fmtScaled o.fmtOut then s.bump (tileKey Obj.freezeCycles g) (ceilDiv (o.m * o.n) 128) else s
        let s := s.modDr g x fun d => { d with cnt := d.cnt.add k }
        .next (s.finishOp g x o)
    else .next s

/-- PREEMPTION_REQUEST (R158, R161, R209): ignored for a real-time drawer; a drawer with no pass issuing and no drain
stops at once. -/
def execPreemptionRequest (g : Tile) (x : Ctx) (s : State) : Res :=
  if (s.dr g x).rt then .next s else .next (s.askStop g x false)

/-- The issuing pass is past its boundary (R153, R158, R163): its working accumulators wait for its commit, and the
stationary operand of the next K-group has been loaded meanwhile (R148). -/
def State.passEnds (g x : Nat) (o : ArrayOp) (s : State) : State :=
  let d := s.withSet g (s.dr g x) o (s.dr g x).pass
  let w := s.runPass g d o d.pass
  let d := { s.withSet g d o (d.pass + 1) with await := d.await ++ [w], pass := d.pass + 1 }
  let last := d.pass = d.passes o
  let st := if d.asked then (if !d.hold.isEmpty && !last then DrawerSt.holding else .stopping)
    else if last then .draining
    else if !d.hold.isEmpty then .holding
    else .issuing
  s.modDr g x fun _ => { d with st := st, begun := st = .issuing }

/-- A pass takes no issue cycle: all its blocks are skipped (R152). -/
def State.passFree (s : State) (g : Nat) (d : Drawer) (o : ArrayOp) : Bool :=
  (s.runPass g d o d.pass).skips = (o.blocks (d.passAt o d.pass).2.2).length

/-- PASS_BOUNDARY (R153, R157, R158, R163, R165): the issuing pass reaches its boundary; `cycles` ACLK cycles have passed
since a pending pre-emption request. At level 0 nothing issues, and no boundary is reached but of a pass without issue
cycles. -/
def execPassBoundary (g : Tile) (x : Ctx) (cycles : Nat) (s : State) : Res :=
  let d := s.dr g x
  match d.st, d.op with
  | .issuing, some o =>
    if d.level = 0 && !s.passFree g d o then .next s
    else
      let s := s.passEnds g x o
      .next (if d.preempt then s.high (tileKey Obj.preemptLatencyMax g) cycles else s)
  | _, _ => .next s

/-- STEERING_HOLD (R162): every drawer covering the row holds, at once if it is idle, else at its boundary. -/
def State.holdRow (g row : Nat) (s : State) : State :=
  ((s.tile g).bound.filter fun x => (s.dr g x).covers row).foldl (fun s x =>
    s.modDr g x fun d => { d with hold := if d.hold.contains row then d.hold else row :: d.hold,
                                  st := if d.st = .assigned then .holding else d.st }) s

def execSteeringHold (g : Tile) (row : Fin 16) (s : State) : Res := .next (s.holdRow g row)

/-- Release one drawer from its hold for a row: with no other, it goes on, or stops for a pending request (R161, R162). -/
def State.unhold (g row x : Nat) (s : State) : State :=
  let d := s.dr g x
  let s := s.modDr g x fun d => { d with hold := d.hold.filter (· ≠ row) }
  let d' := s.dr g x
  if d.st = .holding && d'.hold.isEmpty then
    if !d.asked then s.goOn g x
    else if d.await.isEmpty then s.stopCtx g x
    else s.modDr g x fun d => { d with st := .stopping }
  else s

/-- Release the drawers that hold for a row. -/
def State.releaseRow (g row : Nat) (s : State) : State :=
  ((s.tile g).bound.filter fun x => (s.dr g x).hold.contains row).foldl (fun s x => s.unhold g row x) s

/-- Every drawer of a tile holds while its steering registers are reloaded, and is then released; one that replays a pass
holds before its first block (R140, R162, R483). The reload's hold has number 16, beside the rows'. -/
def State.underHold (g : Nat) (reload : State → State) (s : State) : State :=
  let xs := (s.tile g).bound
  let s := xs.foldl (fun s x => s.modDr g x fun d => { d with
    hold := 16 :: d.hold
    st := if d.st = .assigned || d.st = .issuing || d.st = .discarding then .holding else d.st }) s
  xs.foldl (fun s x => s.unhold g 16 x) (reload s)

/-- STEERING_RELEASE (R162): held drawers of the row resume. -/
def execSteeringRelease (g : Tile) (row : Fin 16) (s : State) : Res := .next (s.releaseRow g row)

/-! ## Levels (R165–R169) -/

/-- RAMP_DOWN_STEP (R166): in a gap longer than 48 cycles the level falls by one; the first step of a ramp-down counts
in RampDowns. A later step needs a ramp-down that real work has not ended. -/
def execRampDownStep (g : Tile) (gap : RampGap) (s : State) : Res :=
  let x := gap.ctx
  let d := s.dr g x
  if d.bound && !d.rt && 0 < d.level && (gap.first || d.ramping) then
    let s := if gap.first then s.bump (tileKey Obj.rampDowns g) 1 else s
    .next (s.modDr g x fun d => { d with level := d.level - 1, ramping := true })
  else .next s

/-- RAMP_UP_STEP (R157, R161, R167): while real work issues, or the replay of a discarded pass waits for density, the
level rises by one up to 8 or the cap; a replay that waited issues. -/
def execRampUpStep (g : Tile) (x : Ctx) (s : State) : Res :=
  let d := s.dr g x
  if d.bound && !d.rt && (d.st = .issuing || d.st = .discarding) && d.level < min 8 (s.capOf g x) then
    .next (s.modDr g x fun d => { d with level := d.level + 1, ramping := false, st := .issuing })
  else .next s

/-- CAP_DESCENT_STEP (R168): a level above the cap falls by one. -/
def execCapDescentStep (g : Tile) (x : Ctx) (s : State) : Res :=
  let d := s.dr g x
  if d.bound && s.capOf g x < d.level then .next (s.modDr g x fun d => { d with level := d.level - 1 }) else .next s

/-- REALTIME_RISE_STEP (R169): a real-time drawer rises by one up to 8 or its cap, with or without work. -/
def execRealtimeRiseStep (g : Tile) (x : Ctx) (s : State) : Res :=
  let d := s.dr g x
  if d.bound && d.rt && d.level < min 8 (s.capOf g x) then
    .next (s.modDr g x fun d => { d with level := d.level + 1, st := if d.st = .discarding then .issuing else d.st })
  else .next s

/-- THROTTLE_TARGET_ARRIVAL (R168): the target is applied to the tile; each drawer's cap follows from it. -/
def execThrottleTargetArrival (g : Tile) (target : Fin 9) (s : State) : Res :=
  .next (if s.lost (cabOf g) then s else s.setNum (tileKey Obj.throttleTarget g) target)

/-! ## Bench mode (R145, R146) -/

/-- BenchResult of a set of failing sites (R146). -/
def benchWord (failing : List (Nat × Nat)) : Nat :=
  2 ^ 31 + (if failing.isEmpty then 2 ^ 30 else 0) + min failing.length 63 * 2 ^ 16 +
    (List.range 16).foldl (fun v sh => if failing.any (·.1 = sh) then v + 2 ^ sh else v) 0

/-- One selection of a bench run: `left` names, shelf by shelf, the site left out. -/
def State.benchRun (g : Nat) (left : List (Fin 17)) (failing : List (Fin 16 × Fin 17)) (s : State) : State :=
  let bad := (failing.map fun (a, b) => (a.val, b.val)).filter fun (a, b) => (left.map (·.val)).getD a 17 ≠ b
  let all := (((s.tile g).bench.getD []) ++ bad).eraseDups
  let s := s.setNum (tileKey Obj.benchResult g) (benchWord all)
  s.modTile g fun t => { t with bench := if t.bench.isSome then .none else some bad }

/-- BENCH_SELECTION (R145, R146): an empty tile that is Offline, in Bench, or queued for re-admission runs one
selection; the second of two leaves their combined result. -/
def execBenchSelection (g : Tile) (selection : List (Fin 17)) (failing : List (Fin 16 × Fin 17)) (s : State) : Res :=
  if (s.tile g).bound.isEmpty && s.num (tileKey Obj.tileState g) < 2 && !s.lost (cabOf g) then
    .next ((s.setState (tileKey Obj.tileState g) 1).benchRun g selection failing)
  else .next s

/-! ## The reduction collector (R171–R177) -/

def Collector.empty : Collector := ⟨[], []⟩
def Chain.empty : Chain := ⟨.none, 0, Counts.zero⟩
def State.coll (s : State) (c : Nat) : Collector := s.colls.get Collector.empty c

/-- CollectorState and OpenSlots follow the collector (R141, R174). -/
def State.setColl (c : Nat) (q : Collector) (s : State) : State :=
  let s := { s with colls := s.colls.put c q }
  let s := s.setNum (Obj.openSlots + 0x10000 * c) q.slots.length
  let s := s.high (Obj.stagingHighWater + 0x10000 * c) q.staging.length
  s.setState (Obj.collectorState + 0x10000 * c)
    (if 1024 ≤ q.staging.length then 2 else if q.slots.isEmpty then 0 else 1)

/-- The collector of a cabinet works: its cabinet is neither lost nor in C reset, and it is not held (R177, R481). -/
def State.collUp (s : State) (c : Nat) : Bool := !s.blockHeld (0x10 + c) && !s.lost c && !s.inCReset c

/-- COLLECTOR_SLOT_OPEN (R173, R177): a closed slot opens with N contributors, a length in elements and a destination in
the cabinet's stream buffer. -/
def execCollectorSlotOpen (c : Cab) (slot : Fin 256) (n : Fin 151) (len : Nat) (dest : BitVec 48) (jobId : BitVec 32)
    (s : State) : Res :=
  let q := s.coll c
  let inBuffer := match s.place dest.toNat with | .buffer c' _ => c' = c.val | _ => false
  if s.collUp c && (q.slots.find? slot).isNone && 1 ≤ n.val && 0 < len && inBuffer then
    .next ((s.unpark c).setColl c { q with slots := q.slots.put slot ⟨n, len, dest.toNat, jobId.toNat, []⟩ })
  else .next s

/-- Add an entry to its chain (R173, R176): FP32 sums round, INT32 sums saturate, NaN and 0x8000_0000 stay. -/
def Chain.combine (h : Chain) (e : Entry) : Chain :=
  match h.acc with
  | .none => ⟨some e, h.next + 1, h.cnt.add ⟨0, 0, e.sticky⟩⟩
  | some a =>
    let lanes := (a.data.zip e.data).zip (List.range 32) |>.map fun ((p, q), l) =>
      if !e.valid.getLsbD l then (p, Counts.zero)
      else if e.fmt = 10 then
        if p = 0x80000000 || q = 0x80000000 then (0x80000000, Counts.invalid)
        else
          let v := p.toInt + q.toInt
          if v > 0x7FFFFFFF then (0x7FFFFFFF, Counts.saturated)
          else if v < -0x7FFFFFFF then (0x80000001, Counts.saturated) else (BitVec.ofInt 32 v, Counts.zero)
      else add32 true (val32 p) (val32 q)
    ⟨some { a with data := lanes.map (·.1) }, h.next + 1,
      lanes.foldl (fun k l => k.add l.2) (h.cnt.add ⟨0, 0, e.sticky⟩)⟩

/-- Every chain of a slot holds N contributions. -/
def Slot.complete (t : Slot) : Bool :=
  (List.range (ceilDiv t.len 32)).all fun o => (t.chains.get Chain.empty o).next = t.n

/-- The next-ORDER entry joins its chain; a complete slot writes its results and counts as an operation (R176). -/
def State.combine (c : Nat) (e : Entry) (s : State) : State :=
  let q := s.coll c
  match q.slots.find? e.slot with
  | .none => s
  | some t =>
    let h := (t.chains.get Chain.empty e.offset).combine e
    let t := { t with chains := t.chains.put e.offset h }
    if t.complete then
      let s := t.chains.foldl (fun s (o, h) => match h.acc with
        | .none => s
        | some a => (List.range 32).foldl (fun s l =>
            if a.valid.getLsbD l then s.poke (t.dest + 128 * o + 4 * l) (leBytes 4 (a.data.getD l 0).toNat) else s) s) s
      let k := t.chains.foldl (fun k (_, h) => k.add h.cnt) Counts.zero
      ((s.setColl c { q with slots := q.slots.del e.slot }).countJob t.jobId k).countDevice k
    else s.setColl c { q with slots := q.slots.put e.slot t }

/-- The entry is the next of its chain. -/
def Collector.isNext (q : Collector) (e : Entry) : Bool :=
  match q.slots.find? e.slot with
  | .none => false
  | some t => (t.chains.get Chain.empty e.offset).next = e.order

/-- The queue heads of a cabinet's tiles whose slot is open: local tile and entry. -/
def State.heads (s : State) (c : Nat) : List (Nat × Entry) :=
  (List.range 150).filterMap fun t => match (s.tile (150 * c + t)).queue with
    | [] => .none
    | (e, _, _) :: _ => if ((s.coll c).slots.find? e.slot).isSome then some (t, e) else .none

/-- Sort by (ORDER, tile). -/
def insertHead (h : Nat × Entry) : List (Nat × Entry) → List (Nat × Entry)
  | [] => [h]
  | a :: r => if h.2.order < a.2.order || (h.2.order = a.2.order && h.1 ≤ a.1) then h :: a :: r else a :: insertHead h r

/-- A head leaves its queue, noting how long it waited (R171). -/
def State.takeHead (g : Nat) (s : State) : State :=
  match (s.tile g).queue with
  | [] => s
  | (_, _, w) :: r =>
    (s.modTile g fun t => { t with queue := r }).high (Obj.headWaitMax + 0x10000 * (g / 150)) w

/-- The heads of a cabinet's queues wait one BCLK cycle more, but for tiles whose head is admitted (R141). -/
def State.headsWait (c : Nat) (admitted : List Nat) (s : State) : State :=
  ((List.range 150).filter fun t => !admitted.contains t).foldl (fun s t =>
    match (s.tile (150 * c + t)).queue with
    | [] => s
    | (e, x, w) :: r => s.modTile (150 * c + t) fun t => { t with queue := (e, x, w + 1) :: r }) s

/-- COLLECTOR_ADMIT (R174): one BCLK cycle admits up to four heads: next-ORDER heads first, which are combined, then
others while staging has room; each residue fault of an addition repeats it (R176). -/
def execCollectorAdmit (cycle : CollectorCycle) (s : State) : Res :=
  let c := cycle.cab
  if !s.collUp c then .next s else
  let q := s.coll c
  let hs := s.heads c
  let first := (hs.filter fun h => q.isNext h.2).take 4
  let others := (hs.filter fun h => !q.isNext h.2).foldr insertHead []
  let second := others.take (min (4 - first.length) (1024 - q.staging.length))
  let s := s.headsWait c ((first ++ second).map (·.1))
  let s := (first ++ second).foldl (fun s h => s.takeHead (150 * c + h.1)) s
  let s := s.setColl c { q with staging := q.staging ++ second.map (·.2) }
  let s := first.foldl (fun s h => s.combine c h.2) s
  let s := s.bump (Obj.combineReplays + 0x10000 * c) (if first.isEmpty then 0 else cycle.residueFaults)
  .next (s.bump (Obj.entriesAdmitted + 0x10000 * c) (first.length + second.length))

/-- CHAIN_COMBINE (R176): the staged next-ORDER entry of a chain is added; each residue fault repeats it. -/
def execChainCombine (c : Cab) (slot : Fin 256) (offset : BitVec 24) (residueFaults : Nat) (s : State) : Res :=
  let q := s.coll c
  match q.staging.find? fun e => e.slot = slot.val && e.offset = offset.toNat && q.isNext e with
  | .none => .next s
  | some e =>
    let s := s.bump (Obj.combineReplays + 0x10000 * c) residueFaults
    .next ((s.setColl c { q with staging := q.staging.erase e }).combine c e)

end Sys2Proof.Machine
end

