-- ==== Sys2Proof/Machine/Bridges.lean ====
section
/-! DEFINITION. The die-to-die bridges: where the base dies lie, the fixed path between two cabinets, and the arbitration
of each bridge (R13–R15, R41, R42). -/

namespace Sys2Proof.Machine

/-! ## The base dies and their bridges (R13, R14) -/

/-- Row and column of a base die (R13). -/
def dieRow (d : Nat) : Nat := d / 4
def dieCol (d : Nat) : Nat := d % 4

/-- A bridge joins the two base dies: neighbours in a row, or dies in the same column (R14). -/
def bridged (a b : Nat) : Bool :=
  (dieRow a = dieRow b && (dieCol a + 1 = dieCol b || dieCol b + 1 = dieCol a)) ||
    (dieCol a = dieCol b && dieRow a ≠ dieRow b)

/-! ## The fixed path (R15) -/

/-- The base die after `a` on the way to another, `b`: along the own row to the column of `b`, then across the rows. -/
def nextDie (a b : Nat) : Nat :=
  if dieCol a < dieCol b then a + 1
  else if dieCol b < dieCol a then a - 1
  else if dieRow a < dieRow b then a + 4
  else a - 4

/-- The path from `a` to `b` in at most `n` hops, each hop a bridge crossed. -/
def pathWithin : Nat → Nat → Nat → List (Nat × Nat)
  | 0, _, _ => []
  | n + 1, a, b => if a = b then [] else (a, nextDie a b) :: pathWithin n (nextDie a b) b

/-- The bridges crossed from one base die to another; the longest path is four hops. -/
def bridgePath (a b : Nat) : List (Nat × Nat) := pathWithin 4 a b

/-- Base die of the port or memory where an address leads (R16, R26); none for what no local block holds. -/
def State.dieOf (s : State) : Place → Option Nat
  | .gddr c _ | .buffer c _ => some c
  | .operand g _ => some (g / 150)
  | .cxl p _ => some ([1, 2, 5, 6].getD p 1)
  | .host _ => some 0
  | .remote dev _ => some ((s.routeEntry 16 dev).1 / 2)
  | .none => none

/-! ## Arbitration (R41, R42) -/

/-- Classes of traffic on a bridge, in order of precedence. -/
inductive BridgeClass where
  | management | realTime | bulk
deriving DecidableEq, Repr

/-- A bridge direction that has sent nothing: no share is owed, and a management flit may go. -/
def DieBridge.fresh : DieBridge := ⟨0, 63⟩

/-- The class that sends the next flit, of those that wait: bulk once 15 flits went without it, management at most once
in 64 flits, then real-time, then bulk. What a drawer's streams have in real-time traffic is within its reservation, so
that the sum of those routed over the bridge is its cap (R302). -/
def DieBridge.grant (b : DieBridge) (waits : BridgeClass → Bool) : Option BridgeClass :=
  if waits .bulk && 15 ≤ b.sinceBulk then some .bulk
  else if waits .management && 63 ≤ b.sinceMgmt then some .management
  else if waits .realTime then some .realTime
  else if waits .bulk then some .bulk
  else none

/-- A flit of a class has gone. -/
def DieBridge.sent (b : DieBridge) : BridgeClass → DieBridge
  | .management => ⟨b.sinceBulk + 1, 0⟩
  | .realTime => ⟨b.sinceBulk + 1, b.sinceMgmt + 1⟩
  | .bulk => ⟨0, b.sinceMgmt + 1⟩

/-- A flit crosses one bridge, alone there or with bulk traffic waiting beside it. -/
def State.crossBridge (cls : BridgeClass) (h : Nat × Nat) (s : State) : State :=
  let b := s.bridges.get DieBridge.fresh (16 * h.1 + h.2)
  { s with bridges := s.bridges.put (16 * h.1 + h.2) (b.sent cls) }

/-- Traffic of a class goes from one base die to another, over every bridge of the path. -/
def State.cross (cls : BridgeClass) (a b : Nat) (s : State) : State := (bridgePath a b).foldl (fun s h => s.crossBridge cls h) s

end Sys2Proof.Machine
end

