-- ==== Sys2Proof/Machine/Paging.lean ====
section
/-! DEFINITION. Device virtual memory and page migration (R259–R267): the tables in memory and their walk, the
memory service's table writes, frames, eviction, migration and pins. -/

namespace Sys2Proof.Machine

/-! ## Tables (R259–R262) -/

/-- Where a table of an address space lies in a cabinet's GDDR7: the service's choice (log 25). -/
def tableAddr (c asn level vaHigh : Nat) : Nat :=
  let size := if level = 0 then 256 else 4096
  gddrBase c + size * ((Config.tableAt c asn level vaHigh).toNat % (Config.gddrPerCabinet / size))

/-- Bytes of a page. -/
def pageSize (large : Bool) : Nat := if large then 0x200000 else 0x10000

/-- Where a frame of a job's quota lies: the service's choice (log 25). -/
def frameAddr (c asn : Nat) (large : Bool) (n : Nat) : Nat :=
  gddrBase c + pageSize large * ((Config.frameAt c asn large n).toNat % (Config.gddrPerCabinet / pageSize large))

/-- Lowest VA bit indexed at a level, and the number of bits. -/
def levelBits : Nat → Nat × Nat
  | 0 => (16, 5)
  | 1 => (21, 9)
  | 2 => (30, 9)
  | _ => (39, 9)

/-- What a translation gives (R261): an address, a page fault on a page, or a decode error. -/
inductive Xlat where
  | ok (pa : Nat) (page : Nat) (large : Bool)
  | fault (page : Nat) (large : Bool)
  | decode
deriving DecidableEq, Repr

/-- Bits of an entry (R260). -/
abbrev pteValid (e : Nat) : Bool := e.testBit 0
abbrev pteLeaf (e : Nat) : Bool := e.testBit 1
abbrev ptePresent (e : Nat) : Bool := e.testBit 2
abbrev pteWritable (e : Nat) : Bool := e.testBit 3
abbrev ptePinned (e : Nat) : Bool := e.testBit 4
abbrev pteMigrating (e : Nat) : Bool := e.testBit 5
abbrev pteRemote (e : Nat) : Bool := e.testBit 63

/-- Form a leaf; the bits of ADDR below the least page size are 0, and every address put here is aligned to its page
(R260, R301). -/
def mkLeaf (present writable pinned migrating : Bool) (addr : Nat) : Nat :=
  3 + 4 * b2n present + 8 * b2n writable + 16 * b2n pinned + 32 * b2n migrating + addr / 0x10000 * 0x10000

/-- Entry of a level's table for an address. -/
def entryAddr (table level va : Nat) : Nat :=
  let (lo, n) := levelBits level
  table + 8 * bits va lo n

/-- An entry of level 0, which is always a leaf: its address, value and level. -/
def State.atLeaf (s : State) (a : Nat) : Option (Nat × Nat × Nat) :=
  let e := s.readNat a 8
  if !pteValid e || bits e 6 2 ≠ 0 || bits e 60 3 ≠ 0 || !pteLeaf e then none else some (a, e, 0)

/-- Walk from a table at a level: the leaf's address in memory, its value and its level; none for a decode error
of R261. -/
def State.walk (s : State) (va : Nat) : Nat → Nat → Option (Nat × Nat × Nat)
  | 0, table => s.atLeaf (entryAddr table 0 va)
  | l + 1, table =>
    let a := entryAddr table (l + 1) va
    let e := s.readNat a 8
    if !pteValid e || bits e 6 2 ≠ 0 || bits e 60 3 ≠ 0 then none
    else if pteLeaf e then (if l = 0 then some (a, e, 1) else none)
    else if bits e 48 16 ≠ 0 then none
    else State.walk s va l (bits e 8 40 * 256)

/-- Root table of an address space in a cabinet. -/
def rootOf (c asn : Nat) : Nat := tableAddr c asn 3 0

/-- Key of a page in the service's tables. -/
def leafKey (asn page : Nat) : Nat := asn * 2 ^ 48 + page

/-- The page of a size that holds an address. -/
def pageOf (large : Bool) (v : Nat) : Nat := v / pageSize large * pageSize large

/-- The leaf that a cabinet's translation unit caches for an address (R262), and whether it maps a 2 MiB page. -/
def State.cachedLeaf (s : State) (c asn v : Nat) : Option (Nat × Bool) :=
  (s.mm.cached.find? fun e => e.1 = c * 2 ^ 56 + leafKey asn (pageOf e.2.2 v)).map (·.2)

/-- The leaf of an address in a cabinet: cached, or found by a walk of the local copy (R259, R262). -/
def State.leafFor (s : State) (c asn v : Nat) : Option (Nat × Bool) :=
  (s.cachedLeaf c asn v).or ((s.walk v 3 (rootOf c asn)).map fun (_, e, level) => (e, level = 1))

/-- Translate an address in a cabinet (R259–R262); a write to a page with WRITABLE 0 is a decode error. -/
def State.translate (s : State) (c asn : Nat) (va : Int) (write : Bool) : Xlat :=
  if va < 0 || 2 ^ 48 ≤ va then .decode
  else
    let v := va.toNat
    match s.leafFor c asn v with
    | none => .decode
    | some (e, large) =>
      let size := pageSize large
      if write && !pteWritable e then .decode
      else if !ptePresent e || pteMigrating e then .fault (pageOf large v) large
      else .ok (bits e 8 40 * 256 / size * size + v % size + bits e 48 12 * 2 ^ 48 + b2n (pteRemote e) * 2 ^ 63)
        (pageOf large v) large

/-- A cabinet's cached leaves with one more: of 16,384, the one filled first makes room (R262, log 127). -/
def withLeaf (e : Nat × Nat × Bool) (l : List (Nat × Nat × Bool)) : List (Nat × Nat × Bool) :=
  let mine := l.filter fun q => q.1 / 2 ^ 56 = e.1 / 2 ^ 56
  e :: (if mine.length < 16384 then l else match mine.getLast? with
    | some q => l.erase q
    | none => l)

/-- A translation that succeeds fills the cabinet's cache if the leaf is not there (R262, R263). -/
def State.fill (c asn v : Nat) (s : State) : State :=
  if (s.cachedLeaf c asn v).isSome then s
  else match s.leafFor c asn v with
    | none => s
    | some (e, large) =>
      let k := leafKey asn (pageOf large v)
      { s with mm := { s.mm with
        cached := withLeaf (c * 2 ^ 56 + k, e, large) s.mm.cached
        fills := s.mm.fills.put k s.mm.nextFill
        nextFill := s.mm.nextFill + 1 } }

/-- A page's leaves leave every cache (R264). -/
def State.invalidate (asn page : Nat) (s : State) : State :=
  { s with mm := { s.mm with cached := s.mm.cached.filter fun e => e.1 % 2 ^ 56 ≠ leafKey asn page } }

/-- The service writes a leaf into one cabinet's copy, with the tables above it (R262). -/
def State.putLeaf (c asn page : Nat) (large : Bool) (leaf : Nat) (s : State) : State :=
  let t1 := tableAddr c asn 1 (page / 2 ^ 30)
  let t2 := tableAddr c asn 2 (page / 2 ^ 39)
  let t0 := tableAddr c asn 0 (page / 2 ^ 21)
  let s := s.poke (entryAddr (rootOf c asn) 3 page) (leBytes 8 (1 + t2))
  let s := s.poke (entryAddr t2 2 page) (leBytes 8 (1 + t1))
  if large then s.poke (entryAddr t1 1 page) (leBytes 8 leaf)
  else (s.poke (entryAddr t1 1 page) (leBytes 8 (1 + t0))).poke (entryAddr t0 0 page) (leBytes 8 leaf)

/-! ## The job of an address space -/

/-- The job that holds an ASN. -/
def State.jobOfAsn (s : State) (asn : Nat) : Option (Nat × JobS) :=
  List.find? (fun (_, j) => j.mapped && j.asn = asn) s.jobs.jobs

/-- Cabinets in which a job has tiles, in increasing order (R262). -/
def JobS.cabs (j : JobS) : List Nat := (List.range 8).filter fun c => j.placed.any fun d => d.tile / 150 = c

/-- Cabinets of an address space. -/
def State.cabsOf (s : State) (asn : Nat) : List Nat :=
  ((s.jobOfAsn asn).map fun (_, j) => j.cabs.filter fun c => !s.lost c && !s.inCReset c).getD []

/-- Write a leaf in every copy, cabinets in increasing order. -/
def State.putLeaves (asn page : Nat) (large : Bool) (leaf : Nat) (s : State) : State :=
  (s.cabsOf asn).foldl (fun s c => s.putLeaf c asn page large leaf) s

/-- The leaf of a page, in the first copy. -/
def State.leafOf (s : State) (asn page : Nat) : Option Nat :=
  match s.cabsOf asn with
  | [] => none
  | c :: _ => (s.walk page 3 (rootOf c asn)).map (·.2.1)

/-- The segment that holds a page. -/
def JobS.segOf (j : JobS) (page : Nat) : Option LSegment :=
  j.layout.segs.find? fun g => g.va ≤ page && page < g.va + g.bytes

/-! ## Bulk moves -/

/-- Copy n bytes of device memory; unlisted bytes read 0. -/
def State.copyMem (src dst n : Nat) (s : State) : State :=
  let src' := (s.mem.filter fun (a, _) => src ≤ a && a < src + n).map fun (a, b) => (a - src + dst, b)
  { s with mem := src'.foldl (fun m (a, b) => Mem.write 0 m a b) (s.mem.filter fun (a, _) => a < dst || dst + n ≤ a) }

/-- Listed cells of a region, relative to its start. -/
def State.cells (s : State) (a n : Nat) : List (Nat × Byte) :=
  (s.mem.filter fun (b, _) => a ≤ b && b < a + n).map fun (b, v) => (b - a, v)

/-- Give a region the contents of cells relative to its start. -/
def State.setCells (a n : Nat) (l : List (Nat × Byte)) (s : State) : State :=
  let rest := s.mem.filter fun (b, _) => b < a || a + n ≤ b
  { s with mem := l.foldl (fun m (o, v) => Mem.write 0 m (o + a) v) rest }

/-- Whether an address lies in the host window. -/
def State.isHost (s : State) (a : Nat) : Bool := match s.place a with | .host _ => true | _ => false

/-- Copy a frame to its backing address: into device memory, or as posted writes to the host (R264, R466). -/
def State.copyOut (frame backing n : Nat) (s : State) : State :=
  if s.isHost backing then s.emit (.hostWrite (s.hostAddr backing) (s.read frame n))
  else s.copyMem frame backing n

/-! ## Frames (R263, R264) -/

/-- Frames of a size in a job's quota of a cabinet. -/
def JobS.quota (j : JobS) (c : Nat) (large : Bool) : Nat :=
  let q := j.desc.quotas.getD c (0, 0)
  if large then q.2 / 2 else q.1 * 16

/-- Frame numbers in use. -/
def State.framesUsed (s : State) (c asn : Nat) (large : Bool) : List Nat :=
  (s.mm.frames.filter fun (c', a, l, _, _) => c' = c && a = asn && l = large).map (·.2.2.2.1)

/-- Frame numbers being copied into. -/
def State.framesBusy (s : State) (c asn : Nat) (large : Bool) : List Nat :=
  s.mm.faults.filterMap fun f => match f.stage with
    | .copying n =>
      if f.cab = c && f.asn = asn && (((s.jobOfAsn asn).bind fun (_, j) => j.segOf f.va).map (·.large)).getD false = large
      then some n else none
    | _ => none

/-- A free frame of a job's quota. -/
def State.freeFrame (s : State) (j : JobS) (c : Nat) (large : Bool) : Option Nat :=
  let used := s.framesUsed c j.asn large ++ s.framesBusy c j.asn large
  (List.range (j.quota c large)).find? fun n => !used.contains n

/-- The victim page: unpinned, resident, same size and cabinet, least recently filled, then lowest VA (R263). -/
def State.victim (s : State) (j : JobS) (c : Nat) (large : Bool) : Option (Nat × Nat) :=
  let cands := (s.mm.frames.filter fun (c', a, l, _, p) => c' = c && a = j.asn && l = large &&
      !(((s.leafOf a p).map fun e => ptePinned e || pteMigrating e).getD false)).map fun (_, _, _, n, p) => (n, p)
  cands.foldl (fun b (n, p) => match b with
    | none => some (n, p)
    | some (n', p') =>
      let t := s.mm.fills.get 0 (leafKey j.asn p); let t' := s.mm.fills.get 0 (leafKey j.asn p')
      if t < t' || (t = t' && p < p') then some (n, p) else some (n', p')) none

/-- Steps 1 and 2 of R264: the page is MIGRATING in every copy, and in no cache. -/
def State.beginEvict (c asn page : Nat) (large : Bool) (n : Nat) (s : State) : State :=
  let e := (s.leafOf asn page).getD 0
  (s.putLeaves asn page large (mkLeaf true (pteWritable e) false true (frameAddr c asn large n))).invalidate asn page

/-- Step 3 of R264: a unit translated before is still to be delivered, or to reach its point of visibility. -/
def State.frameBusy (s : State) (c asn : Nat) (large : Bool) (n : Nat) : Bool :=
  let a := frameAddr c asn large n
  s.streams.any fun (_, m) => m.outst.any fun u => a ≤ u.pa && u.pa < a + pageSize large

/-- Steps 4 and 5 of R264: the contents of a writable page go back, visible there at once (log 81), and its leaf names the
backing. -/
def State.endEvict (c asn page : Nat) (large : Bool) (n : Nat) (s : State) : State :=
  let w := ((s.leafOf asn page).map fun e => pteWritable e).getD false
  let back := s.mm.backing.get 0 (leafKey asn page)
  let s := if w then (s.copyOut (frameAddr c asn large n) back (pageSize large)).bump Obj.writeBacks 1 else s
  let s := s.putLeaves asn page large (mkLeaf false w false false back)
  let s := { s with mm := { s.mm with frames := s.mm.frames.filter fun (_, a, _, _, p) => !(a = asn && p = page) } }
  s.bump Obj.pagesEvicted 1

/-- A page becomes resident in a frame (R263). -/
def State.makeResident (c asn page : Nat) (large : Bool) (n : Nat) (pinned : Bool) (s : State) : State :=
  let w := (((s.jobOfAsn asn).bind fun (_, j) => j.segOf page).map (·.writable)).getD false
  let s := s.putLeaves asn page large (mkLeaf true w pinned false (frameAddr c asn large n))
  let s := { s with mm := { s.mm with frames := (c, asn, large, n, page) :: s.mm.frames } }
  s.bump Obj.pagesIn 1

/-- Set or clear PINNED of a resident page. -/
def State.setPinned (asn page : Nat) (large pin : Bool) (s : State) : State :=
  match s.leafOf asn page with
  | none => s
  | some e => s.putLeaves asn page large (if pin then e ||| 16 else if ptePinned e then e - 16 else e)

/-! ## Faults (R263, R267) -/

/-- A fault joins the migration of its page (R263, R267); a pin that joins one without a frame is blocked with it
(R266). -/
def State.joinFault (asn page : Nat) (pin : Bool) (s : State) : State :=
  let blocked := pin && s.mm.faults.any fun f => f.asn = asn && f.va = page && f.stage = .waiting
  let joined := s.mm.faults.map fun f =>
    if f.asn = asn && f.va = page && f.stage ≠ .queued then { f with pin := f.pin || pin } else f
  let s := ({ s with mm := { s.mm with faults := joined } }).bump Obj.faultsJoined 1
  if blocked then s.setFlag Obj.migrationFlags 2 else s

/-- A page fault is put to the memory service (R234, R263). -/
def State.raiseFault (c asn page : Nat) (pin : Bool) (s : State) : State :=
  if s.mm.faults.any fun f => f.asn = asn && f.va = page && f.stage ≠ .queued then s.joinFault asn page pin
  else { s with mm := { s.mm with faults := s.mm.faults ++ [⟨asn, page, c, s.now, .queued, pin⟩] } }

/-- A page that a fault's service evicts. -/
def PageFault.evicts (f : PageFault) (asn page : Nat) : Bool := match f.stage with
  | .evicting _ p => f.asn = asn && p = page
  | _ => false

/-- A fault reaches a stage. -/
def State.setStage (f : PageFault) (st : FaultStage) (s : State) : State :=
  { s with mm := { s.mm with faults := s.mm.faults.set (s.mm.faults.idxOf f) { f with stage := st } } }

/-- Evictions whose accesses have settled end, and the migrations that wait for their frames begin (R263, R264). -/
def State.evictionsGoOn (s : State) : State :=
  s.mm.faults.foldl (fun s f => match f.stage with
    | .evicting n p =>
      let large := (((s.jobOfAsn f.asn).bind fun (_, j) => j.segOf f.va).map (·.large)).getD false
      if s.frameBusy f.cab f.asn large n then s
      else (s.setStage f (.copying n)).endEvict f.cab f.asn p large n
    | _ => s) s

/-- The page is resident and usable. -/
def State.resident (s : State) (asn page : Nat) : Bool :=
  ((s.leafOf asn page).map fun e => ptePresent e && !pteMigrating e).getD false

/-- A fault finds its frame: a free one, or a victim's; none means QUOTA_WAIT, or PIN_BLOCKED for a pin. -/
def State.findFrame (f : PageFault) (s : State) : State :=
  match s.jobOfAsn f.asn with
  | none => { s with mm := { s.mm with faults := s.mm.faults.erase f } }
  | some (_, j) =>
    let large := ((j.segOf f.va).map (·.large)).getD false
    match s.freeFrame j f.cab large with
    | some n => s.setStage f (.copying n)
    | none => match s.victim j f.cab large with
      | some (n, p) => ((s.setStage f (.evicting n p)).beginEvict f.cab f.asn p large n).evictionsGoOn
      | none =>
        let s := if f.stage = .waiting then s
          else s.setFlag Obj.migrationFlags (if f.pin then 2 else 1)
        s.setStage f .waiting

/-- SERVE_FAULT (R263): the oldest queued fault whose page is not being evicted is taken, with at most 16 in progress; a
page already resident needs nothing, one being migrated in is joined. -/
def execServeFault (t : Nat) (s : State) : Res :=
  let s := s.upto t
  match s.mm.faults.find? fun f => f.stage = .queued && !(s.mm.faults.any fun g => g.evicts f.asn f.va) with
  | none => .next s
  | some f =>
    if 16 ≤ (s.mm.faults.filter fun g => g.stage ≠ .queued).length then .next s
    else if s.resident f.asn f.va && !f.pin then
      .next { s with mm := { s.mm with faults := s.mm.faults.erase f } }
    else if s.resident f.asn f.va then
      let large := (((s.jobOfAsn f.asn).bind fun (_, j) => j.segOf f.va).map (·.large)).getD false
      .next ({ s with mm := { s.mm with faults := s.mm.faults.erase f } }.setPinned f.asn f.va large true)
    else if s.mm.faults.any fun g => g ≠ f && g.asn = f.asn && g.va = f.va && g.stage ≠ .queued then
      .next ({ s with mm := { s.mm with faults := s.mm.faults.erase f } }.joinFault f.asn f.va f.pin)
    else .next (s.findFrame f)

/-- FRAME_FREED (R263, R266): the first fault waiting for a frame of this cabinet, job and size looks again. -/
def execFrameFreed (c : Cab) (asn : Byte) (large : Bool) (s : State) : Res :=
  match s.mm.faults.find? fun f => f.stage = .waiting && f.cab = c.val && f.asn = asn.toNat &&
      (((s.jobOfAsn f.asn).bind fun (_, j) => j.segOf f.va).map (·.large)).getD false = large with
  | none => .next s
  | some f => .next (s.findFrame f)

end Sys2Proof.Machine
end

