-- ==== Sys2Proof/Machine/JobOps.lean ====
section
/-! DEFINITION. Jobs as every other service sees them (R296, R311–R313): their states, how they end, and the
messages to the other members of their group (R451). -/

namespace Sys2Proof.Machine

/-- Codes of R311; 0 for no job. -/
def JobSt.code : JobSt → Nat
  | .queued => 1 | .placing => 2 | .running => 3 | .checkpointing => 4 | .preempting => 5 | .recovering => 6
  | .ending => 7

/-- Status codes of R296. -/
abbrev Status.done : Nat := 0
abbrev Status.cancelled : Nat := 1
abbrev Status.badDescriptor : Nat := 0x0101
abbrev Status.duplicateId : Nat := 0x0102
abbrev Status.layoutRefused : Nat := 0x0103
abbrev Status.noCheckpoint : Nat := 0x0104
abbrev Status.operationRefused : Nat := 0x0201
abbrev Status.streamError : Nat := 0x0202
abbrev Status.farTier : Nat := 0x0301
abbrev Status.checkpointFailed : Nat := 0x0302
abbrev Status.groupEnded : Nat := 0x0303
abbrev Status.noPlacement : Nat := 0x0304

def State.job (s : State) (id : Nat) : Option JobS := s.jobs.jobs.find? id

/-- The job is placed: states 2–6 (R313). -/
def JobS.isPlaced (j : JobS) : Bool := j.st ≠ .queued && j.st ≠ .ending

/-- The job is a checker job (R289). -/
def JobS.checker (j : JobS) : Bool := j.layout.drawers.any (·.rt)

/-- PlacedJobs, QueuedJobs and RtCoreEighthsUsed follow the jobs (R313). -/
def State.recountJobs (s : State) : State :=
  let js := s.jobs.jobs.map (·.2)
  let s := s.setNum Obj.placedJobs (js.filter JobS.isPlaced).length
  let s := s.setNum Obj.queuedJobs (js.filter fun j => j.st = .queued).length
  s.setNum Obj.rtCoreEighthsUsed
    (sumBy (js.filter JobS.isPlaced) fun j => sumBy (j.placed.filter (·.rt)) fun d => d.h * d.w * d.rtLevel)

/-- Bytes of a cabinet's stream buffer allocated to jobs (R226, R241). -/
def State.bufferHeld (s : State) (c : Nat) : Nat :=
  sumBy s.jobs.jobs fun e => sumBy e.2.granules fun g => if g.1 = c then 0x10000 * g.2.2 else 0

/-- Put a job, or remove it. -/
def State.putJob (id : Nat) (j : JobS) (s : State) : State :=
  { s with jobs := { s.jobs with jobs := s.jobs.jobs.put id j } }.recountJobs
def State.delJob (id : Nat) (s : State) : State :=
  { s with jobs := { s.jobs with jobs := s.jobs.jobs.del id } }.recountJobs

/-- Run time of a job in ns (R308). -/
def JobS.runTime (j : JobS) (now : Nat) : Nat := j.runNs + (match j.runFrom with | some t => now - t | none => 0)

/-- A job changes state: run time counts in Running, and JobState raises its event while JobSelect names the job
(R66, R311). -/
def State.setJobSt (id : Nat) (st : JobSt) (s : State) : State :=
  match s.job id with
  | none => s
  | some j =>
    if j.st = st then s
    else
      let j := { j with runNs := j.runTime s.now, runFrom := if st = .running then some s.now else none, st := st }
      let s := s.putJob id j
      if s.num Obj.jobSelect = id then s.raiseVal Obj.jobState 0 (.num st.code) else s

/-- Rank of this device in a job's group. -/
def State.rankOf (s : State) (j : JobS) : Nat :=
  ((j.layout.members.find? fun m => m.1 = s.device).map (·.2)).getD 0

/-- Body of a collective message (R451). -/
def groupBody (phase job epoch rank : Nat) : List Byte :=
  leBytes 1 phase ++ leBytes 3 0 ++ leBytes 4 job ++ leBytes 8 epoch ++ leBytes 2 rank

/-- Send a collective message on VC3. -/
def State.sendGroup (dev phase job epoch rank : Nat) (s : State) : State :=
  s.sendFlit 3 false dev (groupBody phase job epoch rank)

/-- Devices of a job's group other than this one. -/
def State.others (s : State) (j : JobS) : List Nat := (j.layout.members.map (·.1)).filter (· ≠ s.device)

/-- Device of rank 0. -/
def JobS.leader (j : JobS) : Nat := ((j.layout.members.find? fun m => m.2 = 0).map (·.1)).getD 0

/-- A member's end, whatever its status, reaches the others through rank 0, which passes ENDED on (R312, R451, log 130). -/
def State.tellGroup (id : Nat) (j : JobS) (s : State) : State :=
  if j.layout.groupSize ≤ 1 then s
  else
    let rank := s.rankOf j
    let n := j.newest.getD 0
    if rank = 0 then (s.others j).foldl (fun s d => s.sendGroup d 4 id n 0) s
    else s.sendGroup j.leader 4 id n rank

/-- A job ends with a status: it enters Ending once (R311). -/
def State.endJob (id status detail : Nat) (s : State) : State :=
  match s.job id with
  | none => s
  | some j =>
    if j.st = .ending then s
    else
      let s := s.putJob id { j with status := some (status, detail), writing := none }
      -- a checkpoint lost in the far tier is a far-tier failure too (R270, R279)
      let s := if status = Status.farTier || status = Status.checkpointFailed then (s.bump Obj.jobsEndedFarTier 1).setFlag Obj.healthFlags 0x20 else s
      ((s.setJobSt id .ending).checkerEnds j).tellGroup id j

end Sys2Proof.Machine
end

