-- ==== Sys2Proof/Machine/Values.lean ====
section
/-! DEFINITION. Allowed values (R46): the type's own, and those of the meaning column; which objects exist and
which are persisted (R44, R50). -/

namespace Sys2Proof.Machine

/-! ## Well-formed UTF-8 (R45) -/

/-- A continuation byte within bounds. -/
def contIn (lo hi : Nat) (b : Byte) : Bool := lo ≤ b.toNat && b.toNat ≤ hi

/-- Number of bytes of a leading byte and the bounds of its first continuation. -/
def utf8Lead (b : Nat) : Option (Nat × Nat × Nat) :=
  if b < 0x80 then some (0, 0, 0)
  else if 0xC2 ≤ b && b ≤ 0xDF then some (1, 0x80, 0xBF)
  else if b = 0xE0 then some (2, 0xA0, 0xBF)
  else if b = 0xED then some (2, 0x80, 0x9F)
  else if 0xE1 ≤ b && b ≤ 0xEF then some (2, 0x80, 0xBF)
  else if b = 0xF0 then some (3, 0x90, 0xBF)
  else if 0xF1 ≤ b && b ≤ 0xF3 then some (3, 0x80, 0xBF)
  else if b = 0xF4 then some (3, 0x80, 0x8F)
  else none

/-- The bytes are well-formed UTF-8; `want` continuation bytes are owed, the next within bounds. -/
def utf8Ok : List Byte → Nat → Nat → Nat → Bool
  | [], want, _, _ => want = 0
  | b :: r, 0, _, _ => match utf8Lead b.toNat with
    | none => false
    | some (n, lo, hi) => utf8Ok r n lo hi
  | b :: r, n + 1, lo, hi => contIn lo hi b && utf8Ok r n 0x80 0xBF

/-! ## Allowed values -/

/-- The value fits its type (R45, R46). -/
def typeOk (ty : ObjType) (v : Val) : Bool :=
  match ty, v with
  | .bool, .num n => n ≤ 1
  | .vstr, .bytes l => l.length ≤ 255 && utf8Ok l 0 0 0
  | .octets, .bytes l => l.length ≤ 65536
  | .vstr, .num _ | .octets, .num _ => false
  | ty, .num n => n ≤ ty.max
  | _, .bytes _ => false

/-- A power of two. -/
def isPow2 (n : Nat) : Bool := 0 < n && 2 ^ Nat.log2 n = n

/-- A field of a CutNeighbours value and of a Subscription value. -/
def rangeIn (first n total : Nat) : Bool := n ≤ total && (n = 0 || first + n ≤ total)

/-- A local device address aligned to n (R36). -/
def localAligned (a n : Nat) : Bool := a < 2 ^ 48 && a % n = 0

/-- Sum of the magnitudes of a TxFfe value (R429). -/
def ffeSum (v : Nat) : Nat :=
  let m (b : Nat) : Nat := (BitVec.ofNat 8 b).toInt.natAbs
  m (bits v 0 8) + m (bits v 8 8) + bits v 16 8 + m (bits v 24 8)

/-- Every entry of n bytes of a table meets a condition. -/
def allEntries (l : List Byte) (n : Nat) (p : Nat → Bool) : Bool :=
  (List.range (l.length / n)).all fun i => p (field l (n * i) n)

/-- A telemetry source of R418. -/
def telemetrySource (v : Nat) : Bool :=
  (v < 0x28 && v % 16 < 8) || v = 0x30 || v = 0x31 || (0x40 ≤ v && v < 0x58 && v % 16 < 8) || (0x100 ≤ v && v < 0x1C0)

/-- The used slots of a FeedTelemetry value name listed sources (R418). -/
def telemetryOk (l : List Byte) : Nat → Bool
  | 0 => true
  | n + 1 =>
    let v := field l (2 * (7 - n)) 2
    v = 0xFFFF || (telemetrySource v && telemetryOk l n)

/-- The codes of the blocks that a B reset names (R482). -/
def blockCodes : List Nat :=
  (List.range 24).map (8 + ·) ++ [0x20, 0x28, 0x30, 0x38, 0x39]

/-- The value of FieldResetReach and of the low half of SoftwareReset (R481). -/
def reachOk (level target : Nat) : Bool :=
  (level = 1 && target = 0) || (level = 2 && target < 8) || (level = 3 && blockCodes.contains target)

/-- The objects whose allowed values are a rule of their own. -/
def State.allowedByRule (s : State) (k : Nat) (v : Val) : Bool :=
  let n := v.toNat
  let sub := k % 256
  let idx := k / 256
  if 0x1101 ≤ idx && idx ≤ 0x11FE && idx ≠ 0x1102 && idx ≠ 0x1103 then
    if sub ≤ 8 then n % 0x10000 ≤ n / 0x10000 % 0x10000 && n < 2 ^ 42
    else n < s.num (mrKey Obj.ringSlots (idx - 0x1100))
  else if k = Obj.peerManagerDevice then n ≤ 4095 || n = 0xFFFF
  else if k = Obj.softwareReset then
    n / 0x10000 = 0x5AA5 && bits n 3 5 = 0 && reachOk (bits n 0 2) (bits n 8 8) && (bits n 2 1 = 0 || bits n 0 2 = 3)
  else if k = Obj.releaseReset then s.rst.heldBlocks.contains n
  else if k = Obj.fieldResetReach then bits n 2 6 = 0 && reachOk (bits n 0 2) (bits n 8 8)
  else if k = Obj.arbWeights then
    n < 2 ^ 48 && (List.range 6).all fun i => 1 ≤ bits n (8 * i) 8 && bits n (8 * i) 8 ≤ 15
  else if k = Obj.writeDrainMarks then 9 ≤ bits n 0 8 && bits n 0 8 ≤ 32 && bits n 8 8 < bits n 0 8
  else if k = Obj.cancelJob then (s.jobs.jobs.find? n).isSome
  else if idx / 8 = 0x5010 / 8 && (sub = 1 || sub = 5) then localAligned n 4096
  else if idx / 8 = 0x5010 / 8 && sub = 3 then n < s.num (k - 1)
  else if idx / 8 = 0x5010 / 8 && sub = 8 then n < s.num (k - 2)
  else if 0x6060 ≤ idx && idx ≤ 0x6067 then n = 20480
  else if k = Obj.channelStart then n % 32 = 0
  else if k = Obj.snapshotAt then
    let last := if s.lock.started then s.num Obj.currentStep else s.num Obj.startStep - 1
    (s.num Obj.stepControllerState = 4 && s.num Obj.freezeAt ≤ n) ||
      (last + s.num Obj.systemDiameter ≤ n && n ≤ last + 2 ^ 31)
  else if idx = 0x7010 then
    bits n 13 3 = 0 && bits n 28 12 ≤ 2048 && rangeIn (bits n 16 12) (bits n 28 12) 2048
      && rangeIn (bits n 40 12) (bits n 52 12) 2048
  else if idx / 0x80 = 0x7180 / 0x80 then
    if sub = 5 then
      n < 2 ^ 24 && 4 ≤ bits n 20 4 && bits n 20 4 ≤ 11 && bits n 0 20 % (256 * 2 ^ bits n 20 4) = 0
    else if sub = 7 then n = 16 && telemetryOk v.toBytes 8
    else if sub = 9 then n < 0x100000 && n % 16 = 0
    else if sub = 0xC then
      n = 0 || (n % 256 = 0 && (match s.place n with | .buffer _ _ => true | _ => false))
    else if sub = 0xD then 16 ≤ n && n ≤ 65536 && isPow2 n
    else n < s.num (k - 1)
  else if idx = 0x8001 then ffeSum n ≤ 127
  else if idx = 0x8003 then n < 16 && bits n 2 2 ≠ 3
  else if idx = 0x8042 then n = 112 || n = 56 || (n = 224 && sub ≤ 16)
  else if 0x8110 ≤ idx && idx ≤ 0x8120 then n = 4096 && allEntries v.toBytes 1 fun e => e < 64 && e / 16 ≠ 3
  else if k = Obj.multicastTable then n = 1024 && allEntries v.toBytes 4 fun e => e < 2 ^ 17
  else if k = Obj.hostWindowBase then n % 2 ^ 40 = 0
  else if k = Obj.bar2Aperture then n % 2 ^ 30 = 0 && n + 2 ^ 38 ≤ 0x400000000000
  else true

/-- The meaning column allows the value (R46). -/
def State.allowed (s : State) (r : Row) (k : Nat) (v : Val) : Bool :=
  typeOk r.ty v &&
    (match r.allow with
     | .any => true
     | .range lo hi => lo ≤ v.toNat && v.toNat ≤ hi
     | .oneOf l => l.contains v.toNat
     | .within m => v.toNat &&& m = v.toNat
     | .ring lo hi => v.toNat = 0 || (lo ≤ v.toNat && v.toNat ≤ hi && isPow2 v.toNat)
     | .aligned n => v.toNat % n = 0
     | .len lo hi => lo ≤ v.toNat && v.toNat ≤ hi
     | .rule => s.allowedByRule k v)

/-! ## Existence (R44) -/

/-- The subentry is kept by the persistent store (R50). -/
def isPersisted (k : Nat) : Bool := ((rowOf k).map (·.pers)).getD false

/-- Keys that a row covers. -/
def Row.keys (r : Row) : List Nat :=
  (List.range r.reps).flatMap fun i => (List.range r.subs).map fun j => r.key + 256 * (r.stride * i) + j

/-- Every subentry of RWP objects (R78). -/
def rwpKeys : List Nat := (rowsAll.filter fun r => r.acc = .rwp).flatMap Row.keys

end Sys2Proof.Machine
end

