-- ==== Sys2Proof/Machine/Store.lean ====
section
/-! DEFINITION. The persistent store (R50, R68–R78, R540): records, programming, the load's scan and the
compaction copy. -/

namespace Sys2Proof.Machine

/-! ## Records (R69, R70) -/

abbrev recMagic : Nat := 0x7A3CE15B
abbrev recCommit : Nat := 0xC3A50F96
/-- Bytes of a log area (R68). -/
abbrev areaSize : Nat := 0x4000000
/-- Flash address of a log area (R68). -/
def areaBase (i : Nat) : Nat := 0x5000000 + areaSize * i

/-- MAGIC to the end of PAD. -/
def recHead (seq idx sub flags : Nat) (pay : List Byte) : List Byte :=
  padTo 4 (leBytes 4 recMagic ++ leBytes 4 pay.length ++ leBytes 8 seq ++ leBytes 2 idx ++ leBytes 1 sub ++
    leBytes 1 flags ++ List.replicate 12 0 ++ pay)

/-- A whole record. -/
def recBytes (seq : Nat) (r : PendRec) : List Byte :=
  let h := recHead seq r.idx r.sub r.flags r.pay
  h ++ leBytes 4 (crc32c h) ++ leBytes 4 recCommit

/-- Bytes a record takes, to the next 16-byte boundary. -/
def recSize (r : PendRec) : Nat := roundUp (32 + roundUp r.pay.length 4 + 8) 16

/-- An entry of a group record (R70). -/
def groupEntry (k : Nat) (dflt : Bool) (v : List Byte) : List Byte :=
  padTo 4 (leBytes 2 (k / 256) ++ leBytes 1 (k % 256) ++ leBytes 1 (b2n dflt) ++ leBytes 4 v.length ++ v)

/-- The record of one subentry's value. -/
def oneRec (k : Nat) (v : Val) : PendRec :=
  ⟨k / 256, k % 256, 0, match rowOf k with | some r => encodeVal r.ty v | none => v.toBytes⟩

/-- A group record. -/
def groupRec (l : List (Nat × Bool × List Byte)) : PendRec :=
  ⟨0xFFFF, 0xFF, 2, l.flatMap fun (k, d, v) => groupEntry k d v⟩

/-! ## Queueing (R50, R71, R72) -/

/-- PendingRecords follows the queue. -/
def State.setQueue (q : List PendRec) (s : State) : State :=
  ({ s with store := { s.store with queue := q } }).setNum Obj.pendingRecords q.length

/-! ## The flash (R28, R68) -/

/-- A byte of the flash; erased flash reads ones. -/
def State.flashByte (s : State) (a : Nat) : Byte := Mem.read 0xFF s.store.flash a
def State.flashRead (s : State) (a n : Nat) : List Byte := (List.range n).map fun i => s.flashByte (a + i)
/-- Program bytes: bits can only turn from 1 to 0. -/
def State.program (a : Nat) (l : List Byte) (s : State) : State :=
  let l' := (l.zip (List.range l.length)).map fun (b, i) => b &&& s.flashByte (a + i)
  { s with store := { s.store with flash := Mem.writes 0xFF s.store.flash a l' } }
/-- Erase a range. -/
def State.erase (a n : Nat) (s : State) : State :=
  { s with store := { s.store with flash := s.store.flash.filter fun c => c.1 < a || a + n ≤ c.1 } }

/-- 16-byte boundaries of an area with a non-erased byte, rising. -/
def State.granules (s : State) (area : Nat) : List Nat :=
  (((s.store.flash.filter fun c => areaBase area ≤ c.1 && c.1 < areaBase area + areaSize).map fun c =>
    (c.1 - areaBase area) / 16 * 16)).eraseDups

/-! ## When compaction starts (R76, R540) -/

/-- Room left in the active area. -/
def State.roomLeft (s : State) : Nat := areaSize - s.store.writePos

/-- Compaction starts (R76): into the other area, which is erased first if it holds anything. -/
def State.startCompaction (s : State) : State :=
  if s.store.copying || s.store.loadCopy || s.num Obj.storeState = 3 then s
  else
    let other := 1 - s.num Obj.activeArea
    let s := { s with store := { s.store with copying := true } }
    s.setState Obj.storeState (if (s.granules other).isEmpty then 1 else 2)

/-- The active area is filled beyond CompactThreshold (R76). -/
def State.overThreshold (s : State) : Bool := s.num Obj.compactThreshold * areaSize < 100 * s.store.writePos

/-- The record in front of the queue does not fit in the space left (R540). -/
def State.headWaits (s : State) : Bool := match s.store.queue with
  | [] => false
  | r :: _ => s.roomLeft < recSize r

/-- Compaction begins at once where the area is filled beyond the threshold or a record waits for room. -/
def State.checkFill (s : State) : State :=
  if s.rst.storeLoaded && (s.overThreshold || s.headWaits) then s.startCompaction else s

/-! ## Persisting (R50, R71) -/

/-- A record waits for the flash; in Fault writes are no longer persisted (R71). -/
def State.queueRecord (r : PendRec) (s : State) : State :=
  if s.num Obj.storeState = 3 then s else (s.setQueue (s.store.queue ++ [r])).checkFill

/-- Persist a subentry's value in force. -/
def State.persist (k : Nat) (s : State) : State := s.queueRecord (oneRec k (s.val k))

/-- An owning service changes a persisted RO object (R50). -/
def State.setPersisted (k : Nat) (v : Val) (s : State) : State := (s.setVal k v).persist k

/-- A persisted counter counts. -/
def State.bumpPersisted (k n : Nat) (s : State) : State := (s.bump k n).persist k

/-! ## The scan (R74, R75) -/

/-- What a valid record or entry names: sequence, area, key, DEFAULT, value. -/
structure Named where
  seq  : Nat
  area : Nat
  key  : Nat
  dflt : Bool
  val  : List Byte
deriving DecidableEq, Repr

/-- The entries of a group record, if they fill its payload exactly. -/
def groupEntries (seq area : Nat) : Nat → List Byte → Option (List Named)
  | _, [] => some []
  | 0, _ => none
  | f + 1, l =>
    let n := field l 4 4
    let size := roundUp (8 + n) 4
    if l.length < size then none
    else
      match groupEntries seq area f (l.drop size) with
      | none => none
      | some r => some (⟨seq, area, field l 0 3 % 0x10000 * 256 + field l 2 1, (field l 3 1).testBit 0, slice l 8 n⟩ :: r)

/-- The record at an offset of an area, if it is valid (R74): its size, sequence and what it names. -/
def State.recordAt (s : State) (area off : Nat) : Option (Nat × Nat × List Named) :=
  let a := areaBase area + off
  let h := s.flashRead a 32
  let n := field h 4 4
  let group := (field h 19 1).testBit 1
  let body := 32 + roundUp n 4
  if field h 0 4 ≠ recMagic || (if group then 69632 < n else 65536 < n) || areaSize < off + body + 8 then none
  else
    let b := s.flashRead a body
    let seq := field h 8 8
    if leNat (s.flashRead (a + body) 4) ≠ crc32c b || leNat (s.flashRead (a + body + 4) 4) ≠ recCommit then none
    else
      let size := roundUp (body + 8) 16
      if group then (groupEntries seq area (n / 8 + 1) (slice b 32 n)).map fun e => (size, seq, e)
      else some (size, seq, [⟨seq, area, field h 16 2 * 256 + field h 18 1, (field h 19 1).testBit 0, slice b 32 n⟩])

/-- The scan of one area over its 16-byte boundaries that hold a non-erased byte: valid records' sequences, what
they name, and the invalid records counted. `pos` is where the scan stands, `search` that it looks for MAGIC. -/
def State.scanFrom (s : State) (area : Nat) : List Nat → Nat → Bool → List Nat × List Named × Nat
  | [], _, _ => ([], [], 0)
  | g :: r, pos, search =>
    if g < pos then State.scanFrom s area r pos search
    else match s.recordAt area g with
      | some (size, seq, e) =>
        let (q, n, i) := State.scanFrom s area r (g + size) false
        (seq :: q, e ++ n, i)
      | none =>
        let counts := !search || leNat (s.flashRead (areaBase area + g) 4) = recMagic
        let (q, n, i) := State.scanFrom s area r (g + 16) true
        (q, n, i + b2n counts)

/-- Scan of one area. -/
def State.scan (s : State) (area : Nat) : List Nat × List Named × Nat := s.scanFrom area (s.granules area) 0 false

/-- The value an entry gives its subentry; none where it is unfit (R74). -/
def State.fitVal (s : State) (e : Named) : Option Val :=
  match rowOf e.key with
  | none => none
  | some r =>
    if e.dflt then some r.dflt
    else match decodeVal r.ty e.val with
      | none => none
      | some v => if s.allowed r e.key v then some v else none

/-- Everything both areas name of persisted subentries, oldest first within each area. -/
def State.named (s : State) : List Named :=
  ((s.scan 0).2.1 ++ (s.scan 1).2.1).filter fun e => isPersisted e.key

/-- The winners of R74: for each persisted subentry the newest fit record or entry, later ones first among equals. -/
def State.winners (s : State) : Tab Named :=
  (s.named.filter fun e => (s.fitVal e).isSome).foldl (fun t e => match t.find? e.key with
    | none => t.put e.key e
    | some o => if o.seq ≤ e.seq then t.put e.key e else t) []

/-- Records as a compaction copies them: one for each winner, in key order. -/
def State.copies (s : State) (p : Named → Bool) : List PendRec :=
  (s.winners.filter fun (_, e) => p e).map fun (_, e) => ⟨e.key / 256, e.key % 256, b2n e.dflt, e.val⟩

/-! ## Appending (R71, R540) -/

/-- FreeBytes follows the write position. -/
def State.setWritePos (p : Nat) (s : State) : State :=
  ({ s with store := { s.store with writePos := p } }).setNum Obj.freeBytes (areaSize - p)

/-- Program a record at the write position with the next sequence number. -/
def State.appendRec (r : PendRec) (s : State) : State :=
  let seq := s.store.nextSeq
  let s := s.program (areaBase (s.num Obj.activeArea) + s.store.writePos) (recBytes seq r)
  let s := s.setWritePos (s.store.writePos + recSize r)
  { s with store := { s.store with nextSeq := seq + 1 } }.setNum Obj.lastSequence seq

/-- A failed attempt leaves what it programmed, free bits among the record's, and COMMIT incomplete (R71, R73). -/
def State.tornRec (r : PendRec) (s : State) : State :=
  let b := recBytes s.store.nextSeq r
  let (f, s) := s.freshBytes b.length
  let torn := (b.zip f).map fun (x, y) => x ||| y
  -- bits not programmed read 1; COMMIT keeps at least one of its zero bits at 1
  let at' := 32 + roundUp r.pay.length 4 + 4
  let torn := torn.set at' (torn.getD at' 0 ||| 1)
  let s := s.program (areaBase (s.num Obj.activeArea) + s.store.writePos) torn
  s.setWritePos (s.store.writePos + recSize r)

/-- The failed attempts at the record in front of the queue. -/
def State.setTries (n : Nat) (s : State) : State := { s with store := { s.store with tries := n } }

/-- A record at the head of the queue: programmed after `n` further failed attempts; one that does not fit waits for
compaction, its attempts so far kept. The third failure in all is a fault of the store. -/
def State.writeHead (r : PendRec) : Nat → State → State
  | n, s =>
    if s.roomLeft < recSize r then s.checkFill
    else match n with
      | 0 =>
        let s := (s.appendRec r).setTries 0
        let s := s.setQueue s.store.queue.tail
        { s with store := { s.store with syncs := s.store.syncs.map (· - 1) } }.checkFill
      | n + 1 =>
        let s := ((s.tornRec r).setFlag Obj.storeFlags 1).setTries (s.store.tries + 1)
        if 3 ≤ s.store.tries then s.setState Obj.storeState 3 else State.writeHead r n s.checkFill

/-- RECORD_COMMIT_DONE (R71, R72, R540). -/
def execRecordCommitDone (failedAttempts : Fin 4) (s : State) : Res :=
  match s.store.queue with
  | [] => .next s
  | r :: _ => if s.num Obj.storeState = 3 || !s.rst.storeLoaded then .next s else .next (s.writeHead r failedAttempts)

/-- STORE_SYNCED (R72): every record pending at the write is durable; the event carries the value 1. -/
def execStoreSynced (s : State) : Res :=
  match s.store.syncs with
  | 0 :: r => .next ({ s with store := { s.store with syncs := r } }.raiseVal Obj.storeSync 0 (.num 1))
  | _ => .next s

/-- Copy records into an area from a position. -/
def State.copyInto (l : List PendRec) (s : State) : State := l.foldl (fun s r => s.appendRec r) s

/-- COMPACTION_COMPLETE (R75, R76, R540): the winners stand in the other area with new sequence numbers and it
becomes active; the old area is erased if EraseAhead is 1. The copy that finishes an interrupted compaction goes
into the active area. -/
def execCompactionComplete (eraseFailed : Bool) (s : State) : Res :=
  if s.num Obj.storeState = 3 then .next s
  else if s.store.loadCopy then
    let s := s.copyInto (s.copies fun e => e.area ≠ s.num Obj.activeArea)
    .next ({ s with store := { s.store with loadCopy := false } }.setState Obj.storeState 0).checkFill
  else if !s.store.copying then .next s
  else
    let old := s.num Obj.activeArea
    let new := 1 - old
    let dirty := !(s.granules new).isEmpty
    let done (s : State) : State := { s with store := { s.store with copying := false } }
    if dirty && eraseFailed then .next ((done (s.setFlag Obj.storeFlags 2)).setState Obj.storeState 3)
    else
      let s := s.erase (areaBase new) areaSize
      let s := s.setState Obj.storeState 1
      let l := s.copies fun _ => true
      let s := ((s.setNum Obj.activeArea new).setWritePos 0).copyInto l
      let s := (done s).setFlag Obj.storeFlags 4
      if s.num Obj.eraseAhead = 1 then
        let s := s.setState Obj.storeState 2
        if eraseFailed then .next ((s.setFlag Obj.storeFlags 2).setState Obj.storeState 3)
        else .next ((s.erase (areaBase old) areaSize).setState Obj.storeState 0).checkFill
      else .next (s.setState Obj.storeState 0).checkFill

/-! ## The load (R75) -/

/-- The first 4 KiB boundary after the last non-erased byte of an area. -/
def State.appendPoint (s : State) (area : Nat) : Nat :=
  match (s.store.flash.filter fun c => areaBase area ≤ c.1 && c.1 < areaBase area + areaSize).getLast? with
  | none => 0
  | some c => roundUp (c.1 - areaBase area + 1) 4096

/-- The load of step 4: values of persisted subentries, the next sequence number, the active area and where
appending resumes; a winner in the other area starts the copy that completes a compaction, and an area filled beyond
the threshold is compacted. -/
def State.loadStore (s : State) : State :=
  let (q0, _, i0) := s.scan 0
  let (q1, _, i1) := s.scan 1
  let unfit := (s.named.filter fun e => (rowOf e.key).isSome && (s.fitVal e).isNone).length
  let top (l : List Nat) : Nat := l.foldl max 0
  let active := if !q1.isEmpty && (q0.isEmpty || top q0 < top q1) then 1 else 0
  let w := s.winners
  let s := w.foldl (fun s (k, e) => match s.fitVal e with | some v => s.setVal k v | none => s) s
  let s := s.setNum Obj.invalidAtLoad (min (i0 + i1 + unfit) 0xFFFFFFFF)
  let s := (s.setNum Obj.activeArea active).setNum Obj.lastSequence (top (q0 ++ q1))
  let s := s.setWritePos (s.appendPoint active)
  let next := if q0.isEmpty && q1.isEmpty then 1 else top (q0 ++ q1) + 1
  let copy := w.any fun (_, e) => e.area ≠ active
  let s := { s with store := { s.store with nextSeq := next, copying := false, loadCopy := copy, tries := 0 } }
  let s := { s with rst := { s.rst with storeLoaded := true } }
  (s.setState Obj.storeState (if copy then 1 else 0)).checkFill

/-- A compaction copy is cut short after a free number of its records, before its erase or after it (R76, log 111). -/
def State.loseCopy (s : State) : State :=
  let (v, s) := s.fresh
  if s.store.loadCopy then
    let l := s.copies fun e => e.area ≠ s.num Obj.activeArea
    s.copyInto (l.take (v.toNat % (l.length + 1)))
  else if !s.store.copying || v.getLsbD 63 then s
  else
    let new := 1 - s.num Obj.activeArea
    let l := s.copies fun _ => true
    (((s.erase (areaBase new) areaSize).setNum Obj.activeArea new).setWritePos 0).copyInto (l.take (v.toNat % (l.length + 1)))

/-- A reset or power loss drops the records not yet durable; the one being programmed may be torn (R73), and so may a
copy that runs (R76). -/
def State.loseQueue (s : State) : State :=
  let s := match s.store.queue with
    | [] => s
    | r :: _ => if s.rst.storeLoaded && recSize r ≤ s.roomLeft && s.num Obj.storeState ≠ 3 then s.tornRec r else s
  let s := if s.store.copying || s.store.loadCopy then s.loseCopy else s
  { s with store := { s.store with queue := [], syncs := [], copying := false, loadCopy := false, tries := 0 } }

end Sys2Proof.Machine
end

