-- ==== Sys2Proof/Machine/Records.lean ====
section
/-! DEFINITION. Fault records and the health status (R281–R288): forming a record, the fence map's codes and the
counts derived from them. -/

namespace Sys2Proof.Machine

/-! ## The fault log (R285) -/

/-- A record naming no place. -/
def FaultRec.device (t code mech : Nat) : FaultRec :=
  ⟨t, code, mech, 0, 0xFFFF, 0xFF, 0xFF, 0xFF, 0xFF, 0xFF, 0xFF, 0, 0, 0, 1⟩

/-- The 64 bytes of a record (R285). -/
def FaultRec.bytes (f : FaultRec) (seq rung dur : Nat) : List Byte :=
  leBytes 8 f.t ++ leBytes 4 seq ++ leBytes 1 f.code ++ leBytes 1 f.mech ++ leBytes 1 rung ++ leBytes 1 f.flags ++
    leBytes 2 f.tile ++ leBytes 1 f.shelf ++ leBytes 1 f.site ++ leBytes 1 f.ctx ++ leBytes 1 f.cab ++
    leBytes 1 f.ci ++ leBytes 1 f.cj ++ leBytes 4 f.job ++ leBytes 4 f.syn ++ leBytes 8 f.addr ++ leBytes 4 dur ++
    leBytes 4 f.count ++ leBytes 16 0

/-- Microseconds from an instant to now, rounded up. -/
def State.since (s : State) (t : Nat) : Nat := ceilDiv (s.now - t) 1000

/-- Form a record when its response completes: it joins the log, LastFault changes, and a record that falls out
unread sets LOG_OVERRUN; rungs 0–5 count and keep their longest time (R285, R288). -/
def State.logFault (f : FaultRec) (rung : Nat) (s : State) : State :=
  let seq := s.num Obj.faultsRecorded + 1
  let dur := s.since f.t
  let r := f.bytes seq rung dur
  let s := (s.bump Obj.faultsRecorded 1).setBytes Obj.lastFault r
  let s := s.raise Obj.lastFault 0
  let old := s.health.log
  let lost := 1024 ≤ old.length && !((old.getLast?.map fun e => e.2.2).getD true)
  let s := { s with health := { s.health with log := (seq, r, false) :: old.take 1023 } }
  let s := if lost then s.setFlag Obj.healthFlags 0x100 else s
  if rung ≤ 5 then (s.bump (Obj.rungCounts + rung) 1).high (Obj.rungTimeMax + rung) dur else s

/-! ## Health state -/

/-- HealthState (R288): Recovering while a rung of 2–5 waits or runs, else Degraded with a cabinet lost or after a
complex reset while the standby is not Mirrored, else Normal (order of the first two: log 27). -/
def State.healthNow (s : State) : Nat :=
  if !s.health.rungs.isEmpty then 1
  else if (List.range 8).any s.lost || (s.num Obj.complexResets ≠ 0 && s.num Obj.standbyState ≠ 3) then 2
  else 0

/-- Bring HealthState up to date, with its event (R66). -/
def State.updateHealth (s : State) : State := s.setState Obj.healthState s.healthNow

/-- A rung is to be taken: it waits, and the job concerned recovers (R311). Each fault waits for itself, and is recorded
when its response completes (R285). -/
def State.queueRung (w : RungWork) (r : FaultRec) (s : State) : State :=
  { s with health := { s.health with rungs := s.health.rungs ++ [Rung.mk w r] } }.updateHealth

/-- Rungs leave the queue. -/
def State.dropRungs (p : Rung → Bool) (s : State) : State :=
  { s with health := { s.health with rungs := s.health.rungs.filter fun q => !p q } }.updateHealth

/-- The response to some work is complete: every fault that waited for it is recorded with its rung, 0xFF where no rung
ran for it (R285, R286). -/
def State.closeRungs (w : RungWork) (rung : Nat) (s : State) : State :=
  (s.health.rungs.filter (·.work = w)).foldl (fun s q => s.logFault q.record rung) (s.dropRungs (·.work = w))

/-- Rungs that something supersedes are recorded without a rung (R286). -/
def State.supersede (p : Rung → Bool) (s : State) : State :=
  (s.health.rungs.filter p).foldl (fun s q => s.logFault q.record 0xFF) (s.dropRungs p)

/-- A job begins to recover under a rung (R311); with no such job, or one that ends already, the fault is only
recorded (R285). -/
def State.recoverJob (w : RungWork) (r : FaultRec) (id : Nat) (s : State) : State :=
  match s.job id with
  | none => s.logFault r 0xFF
  | some j =>
    if j.st = .ending then s.logFault r 0xFF
    else
      let s := s.queueRung w r
      if j.st = .queued then s else s.setJobSt id .recovering

/-! ## The fence map (R20, R143, R281, R282) -/

/-- Cabinet-local site number. -/
def siteNo (g shelf site : Nat) : Nat := 272 * (g % 150) + 17 * shelf + site

/-- The codes of a tile's sites in a map: two bits each, 68 bytes (R281). -/
def State.tileCodes (s : State) (g : Nat) : List Byte :=
  ((s.bytes (Obj.tileFenceMap + g / 150)).drop (20 + 68 * (g % 150))).take 68

/-- Code of a site in a tile's codes: 0 in service, 1 Fenced, 2 Pending. -/
def codeIn (l : List Byte) (shelf site : Nat) : Nat :=
  let q := 17 * shelf + site
  bits (l.getD (q / 4) 0).toNat (2 * (q % 4)) 2

/-- Code of a physical site. -/
def State.siteCode (s : State) (g shelf site : Nat) : Nat := codeIn (s.tileCodes g) shelf site

/-- A tile is retired. -/
def State.retired (s : State) (g : Nat) : Bool :=
  ((s.bytes (Obj.tileFenceMap + g / 150)).getD (g % 150 / 8) 0).toNat.testBit (g % 150 % 8)

/-- Sites of a shelf that its steering register takes, in order (R20): site k serves logical column by rank. -/
def State.sites (s : State) (g shelf : Nat) : List Nat :=
  (List.range 17).filter fun k => !(s.health.steer.get 0 (16 * g + shelf)).testBit k

/-- Steer a shelf. -/
def State.setSteer (g shelf v : Nat) (s : State) : State :=
  { s with health := { s.health with steer := s.health.steer.put (16 * g + shelf) v } }

/-- The steering registers of a tile are loaded from its fence map (R282, R283). -/
def State.loadSteer (g : Nat) (s : State) : State :=
  let l := s.tileCodes g
  (List.range 16).foldl (fun s sh => s.setSteer g sh
    ((List.range 17).foldl (fun v k => if codeIn l sh k = 0 then v else v + 2 ^ k) 0)) s

/-- A logical row is removed when its shelf keeps fewer than 16 sites (R143). -/
def State.rowRemoved (s : State) (g shelf : Nat) : Bool := (s.sites g shelf).length < 16

/-- Bit mask over the shelves of a tile. -/
def shelfMask (p : Nat → Bool) : Nat := (List.range 16).foldl (fun v i => if p i then v + 2 ^ i else v) 0

/-- Codes of one cabinet's map. -/
def codesIn (l : List Byte) (code : Nat) : Nat :=
  sumBy (l.drop 20) fun b => ((List.range 4).filter fun i => bits b.toNat (2 * i) 2 = code).length

/-- SpareFree and RowsRemoved follow a tile's steering (R141, R282). -/
def State.recountRows (g : Nat) (s : State) : State :=
  let rows := shelfMask (s.rowRemoved g)
  let old := s.num (tileKey Obj.rowsRemoved g)
  let s := s.setNum (tileKey Obj.spareFree g) (shelfMask fun i => (s.sites g i).length = 17)
  let s := s.setNum (tileKey Obj.rowsRemoved g) rows
  let n (v : Nat) : Nat := ((List.range 16).filter (v.testBit ·)).length
  s.setNum Obj.rowsRemovedTotal (s.num Obj.rowsRemovedTotal + n rows - n old)

/-- The device counts and the digest follow the fence maps (R288, R514). -/
def State.recountMaps (s : State) : State :=
  let maps := (List.range 8).map fun c => s.bytes (Obj.tileFenceMap + c)
  let s := s.setNum Obj.sitesFenced (sumBy maps (codesIn · 1))
  let s := s.setNum Obj.sparesPending (sumBy maps (codesIn · 2))
  let ret := sumBy maps fun m => sumBy (m.take 19) fun b => ((List.range 8).filter (b.toNat.testBit ·)).length
  let s := s.setNum Obj.tilesRetired ret
  let digest := Config.shake256 (maps.flatten) 64
  s.setBytes Obj.fenceMapDigest digest

/-- Both, after a change to one tile. -/
def State.recountTile (g : Nat) (s : State) : State := (s.recountRows g).recountMaps

/-- Give sites of a tile new codes: in steering and in the map (R281, R282). -/
def State.putCodes (g : Nat) (l : List (Nat × Nat)) (code : Nat) (s : State) : State :=
  let k := Obj.tileFenceMap + g / 150
  let s := l.foldl (fun s (sh, st) => s.setSteer g sh (putBit (s.health.steer.get 0 (16 * g + sh)) st (code ≠ 0))) s
  let m := l.foldl (fun m (sh, st) =>
    let q := siteNo g sh st
    let b := (m.getD (20 + q / 4) 0).toNat
    m.set (20 + q / 4) (BitVec.ofNat 8 (b - bits b (2 * (q % 4)) 2 * 4 ^ (q % 4) + code * 4 ^ (q % 4)))) (s.bytes k)
  s.setBytes k m

/-- The same, with what is counted from it. -/
def State.setSites (g : Nat) (l : List (Nat × Nat)) (code : Nat) (s : State) : State := (s.putCodes g l code).recountTile g

/-- Set or clear a tile's retirement bit. -/
def State.setRetired (g : Nat) (b : Bool) (s : State) : State :=
  let k := Obj.tileFenceMap + g / 150
  let m := s.bytes k
  let v := putBit (m.getD (g % 150 / 8) 0).toNat (g % 150 % 8) b
  let s := (s.setBytes k (m.set (g % 150 / 8) (BitVec.ofNat 8 v))).recountTile g
  let st := if b || s.num (tileKey Obj.rowsRemoved g) = 0xFFFF then 3 else 2
  s.setState (tileKey Obj.tileState g) st

end Sys2Proof.Machine
end

