-- ==== Sys2Proof/Machine/TileControl.lean ====
section
/-! DEFINITION. Issue of operation words (R178, R182–R189, R196, R209) and the operations of the control and
fence classes (R190, R206, R207), with banks and blocking (R180, R181, R183, R184). -/

namespace Sys2Proof.Machine

/-! ## Choosing the context (R182) -/

/-- The context can be chosen: resident, Ready or Running, its drawer bound and not asked to stop (R209). -/
def State.canIssue (s : State) (g x : Nat) : Bool :=
  let t := s.tile g
  let c := t.ctx x
  t.resident x && (c.th.st = .ready || c.th.st = .running) && c.dr.bound && !c.dr.asked

/-- The first of n numbers after `start`, rotating, with a property. -/
def rotating (start n : Nat) (p : Nat → Bool) : Option Nat :=
  ((List.range n).map fun i => (start + 1 + i) % n).find? p

/-- The context that issues in the next advancing cycle (R182). -/
def State.select (s : State) (g : Nat) : Option Nat :=
  let t := s.tile g
  let rt (x : Nat) : Bool := s.canIssue g x && (s.dr g x).rt
  let pick : Option Nat :=
    match rotating t.lastRt 16 rt with
    | some x => some x
    | none => rotating (t.issuer.getD 15) 16 (s.canIssue g)
  match t.issuer with
  | some y =>
    if s.canIssue g y && !(t.ctx y).th.yielded && (t.ctx y).th.lastIssue + 1 = t.acyc && t.runLen < 256 &&
        !((List.range 16).any fun z => z ≠ y && rt z)
    then some y else pick
  | none => pick

/-! ## What an operation does at issue -/

/-- What an operation does when it reaches issue: refused with a cause of R196, blocked under R183, or issued:
the state, the next PC if it branches, the freeze cycles it needs, and its results in flight. -/
inductive Iss where
  | refuse (cause : Nat)
  | block
  | go (s : State) (pc : Option Nat) (freeze : Nat) (fl : List Flight)

/-- An operation with one result, landing `lat` cycles after cycle c, that forms no completion record. -/
def Iss.one (s : State) (x c lat : Nat) (w : Landing) : Iss := .go s none 0 [⟨x, c + lat, w, 0, none⟩]

/-- Field of an operation word: `n` bits from bit `lo`. -/
abbrev opf (v lo n : Nat) : Nat := bits v lo n

/-- Opcodes of R190. -/
def opListed (op : Nat) : Bool :=
  op ≤ 0x0C || (0x20 ≤ op && op ≤ 0x22) || (0x40 ≤ op && op ≤ 0x43) || op = 0x60 || (0x80 ≤ op && op ≤ 0x8F)

/-- Reserved bits of a class that must be 0, DENORM and RECORD outside array and vector among them (R189, R191,
R194, R195). -/
def reservedBits (op v : Nat) : Bool :=
  opf v 11 5 ≠ 0 ||
    (match op / 32 with
     | 0 => opf v 8 2 ≠ 0 || opf v 31 1 ≠ 0 || opf v 44 20 ≠ 0
     | 1 => opf v 8 2 ≠ 0 || opf v 21 3 ≠ 0 || opf v 29 35 ≠ 0 || opf v 96 32 ≠ 0
     | 2 => opf v 8 2 ≠ 0 || opf v 25 7 ≠ 0 || opf v 36 28 ≠ 0 || opf v 96 32 ≠ 0
     | 3 => opf v 37 3 ≠ 0 || opf v 64 64 ≠ 0
     | _ => opf v 43 5 ≠ 0 || opf v 63 1 ≠ 0 || opf v 96 32 ≠ 0)

/-- Cycle in which the context issues next: after its jump (R188), after a switch cycle if another context issued
last (R182), and with SYNC after its earlier results have landed (R189). -/
def State.issueCycle (s : State) (g x : Nat) (sync : Bool) : Nat :=
  let t := s.tile g
  let c := if t.issuer = none || t.issuer = some x then t.acyc else t.acyc + 1
  let c := max c (t.ctx x).th.nextIssue
  if sync then (t.flight.filter (·.ctx = x)).foldl (fun c f => max c (f.due + 1)) c else c

/-- The bank of a non-real-time context is given back (DEDUCED, log 20). -/
def State.freeBank (g x : Nat) (s : State) : State :=
  if (s.dr g x).rt then s else s.modTile g (TileS.unbank x)

/-- A refusal at issue in cycle c (R196); the job service ends the job (R296). -/
def State.refuseOp (g x c cause op : Nat) (s : State) : State :=
  let s := s.modTile g fun t => { t with acyc := max t.acyc c }
  let pc := (s.img g x).pc
  let s := s.bump (tileKey Obj.issueRefusals g) 1
  let s := s.setNum (tileKey Obj.lastRefusal g) (2 ^ 31 + x * 2 ^ 24 + cause * 2 ^ 20 + op * 2 ^ 12 + pc)
  let s := s.modTh g x fun h => { h with st := .refused, blockedOn := none }
  ((s.freeBank g x).checkerStops g x).endJob (s.dr g x).jobId Status.operationRefused cause

/-- The context blocks in cycle c (R183); it is not the one that goes on issuing. -/
def State.blockOp (g x c : Nat) (v : BitVec 128) (s : State) : State :=
  (s.modTile g fun t => { t with acyc := max t.acyc c }).modTh g x fun h => { h with
    st := .blocked, blockedOn := some v, blockedAt := c, yielded := true }

/-- The state after the operation issues in cycle c (R182, R184, R186, R211). -/
def State.issued (g x c : Nat) (pc : Option Nat) (freeze : Nat) (fl : List Flight) (s : State) : State :=
  let t := s.tile g
  let switched := t.issuer.isSome && t.issuer ≠ some x
  let s := if switched then s.bump (tileKey Obj.switchCycles g) 1 else s
  let s := match t.issuer with
    | some y => if y ≠ x && (s.th g y).st = ThreadSt.running then s.modTh g y fun h => { h with st := .ready } else s
    | none => s
  let s := if freeze = 0 then s else s.bump (tileKey Obj.freezeCycles g) freeze
  let s := s.modTile g fun t => { t with
    acyc := c + 1, issuer := some x, runLen := if switched || (t.ctx x).th.lastIssue + 1 ≠ c then 1 else t.runLen + 1,
    lastRt := if (t.ctx x).dr.rt then x else t.lastRt, flight := t.flight ++ fl }
  let s := s.modTh g x fun h => { h with
    st := if h.st = ThreadSt.halted then .halted else .running, blockedOn := none, lastIssue := c,
    nextIssue := if pc.isSome then c + 2 else c + 1, again := none }
  -- an array operation issued again does not move the PC (R209)
  let s := if (t.ctx x).th.again.isSome then s else s.modImg g x fun i => { i with pc := pc.getD (i.pc + 1) }
  s.bump (tileKey Obj.issuedOperations g) 1

/-- The word that a context issues next: an array operation returned at a stop (R209), else the word that the program
store holds at its PC; a word never written reads 0 (R178). -/
def State.fetch (s : State) (g x : Nat) : BitVec 128 := match (s.th g x).again with
  | some o => BitVec.ofNat 128 (o.word.toNat * 256 + 0x60)
  | none => (s.tile g).prog.get 0 ((s.th g x).winBase + (s.img g x).pc)

/-- One operation reaches issue on context x of tile g. The command stands for the word at the context's PC: where
the context is not the one R182 chooses, its PC has run past its window, or the store holds another word,
nothing happens (log 2); a reserved opcode in the store is refused with cause OPCODE. -/
def State.issue (g x op : Nat) (w : BitVec 120) (body : State → Nat → Iss) (s : State) : Res :=
  let word := s.fetch g x
  let fop := word.toNat % 256
  if s.select g ≠ some x || ((s.th g x).winLen ≤ (s.img g x).pc && (s.th g x).again.isNone) then .next s
  else
    let v := word.toNat
    -- with SYNC an array operation that is not complete blocks before the results in flight are waited for
    let busy := v.testBit 10 && ((s.dr g x).op.isSome || (s.dr g x).pendOp.isSome)
    let c := s.issueCycle g x (v.testBit 10 && !busy)
    let s1 := s.landBefore g c 64
    if !opListed fop then .next (s1.refuseOp g x c 1 fop)
    else if fop ≠ op || w ≠ (word >>> 8).truncate 120 then .next s
    else if reservedBits op v then .next (s1.refuseOp g x c 2 op)
    else if busy then .next (s1.blockOp g x c word)
    else match body s1 c with
      | .refuse cause => .next (s1.refuseOp g x c cause op)
      | .block => .next (s1.blockOp g x c word)
      | .go s2 pc freeze fl =>
        .next ((s2.modTh g x fun h => { h with yielded := op = 0x0B }).issued g x c pc freeze fl)

/-! ## Control class (R190) -/

/-- Control fields of R195. -/
abbrev fSdst (v : Nat) : Nat := opf v 16 4
abbrev fSsrc1 (v : Nat) : Nat := opf v 20 4
abbrev fSsrc2 (v : Nat) : Nat := opf v 24 4
abbrev fTarget (v : Nat) : Nat := opf v 32 12
abbrev fImm64 (v : Nat) : U64 := BitVec.ofNat 64 (opf v 64 64)

/-- The operation word of a command: its bits above the opcode. -/
abbrev wordOf (w : BitVec 120) : Nat := w.toNat * 256

/-- NOP. -/
def bodyNop (s : State) (_ : Nat) : Iss := .go s none 0 []

/-- HALT blocks while an array operation of the context is not complete, then ends the program (R183). -/
def bodyHalt (g x : Nat) (s : State) (_ : Nat) : Iss :=
  let d := s.dr g x
  if d.op.isSome || d.pendOp.isSome then .block
  else .go (((s.modTh g x fun h => { h with st := .halted }).freeBank g x).checkerStops g x) none 0 []

/-- The branch target lies in the window. -/
def State.targetOk (s : State) (g x v : Nat) : Bool := fTarget v < (s.th g x).winLen

/-- JMP. -/
def bodyJmp (g x v : Nat) (s : State) (_ : Nat) : Iss :=
  if s.targetOk g x v then .go s (some (fTarget v)) 0 [] else .refuse 8

/-- The scalar comparisons of COND codes 0–5. -/
def condHolds (k : Nat) (a b : U64) : Bool :=
  match k with
  | 0 => a = b
  | 1 => a ≠ b
  | 2 => a.toInt < b.toInt
  | 3 => b.toInt ≤ a.toInt
  | 4 => a.toNat < b.toNat
  | _ => b.toNat ≤ a.toNat

/-- BR. A reserved COND is refused with RESERVED (DEDUCED, log 21). -/
def bodyBr (g x v : Nat) (s : State) (_ : Nat) : Iss :=
  let k := opf v 28 3
  if 6 ≤ k then .refuse 2
  else if !s.targetOk g x v then .refuse 8
  else
    let i := s.img g x
    .go s (if condHolds k (i.reg (fSsrc1 v)) (i.reg (fSsrc2 v)) then some (fTarget v) else none) 0 []

/-- LOOP. -/
def bodyLoop (g x v : Nat) (s : State) (c : Nat) : Iss :=
  if !s.targetOk g x v then .refuse 8
  else
    let r := (s.img g x).reg (fSdst v) - 1
    .go s (if r = 0 then none else some (fTarget v)) 0 [⟨x, c + 1, .scalar (fSdst v) r, 0, none⟩]

/-- SLI. -/
def bodySli (x v : Nat) (s : State) (c : Nat) : Iss := Iss.one s x c 1 (.scalar (fSdst v) (fImm64 v))

/-- SADD. -/
def bodySadd (g x v : Nat) (s : State) (c : Nat) : Iss :=
  let i := s.img g x
  Iss.one s x c 1 (.scalar (fSdst v) (i.reg (fSsrc1 v) + i.reg (fSsrc2 v) + fImm64 v))

/-- Shift by a signed amount: positive left, negative arithmetic right. -/
def shiftSigned (a : U64) (k : BitVec 8) : U64 :=
  if k.toInt < 0 then a.sshiftRight (-k.toInt).toNat else a <<< k.toNat

/-- SSHF. -/
def bodySshf (g x v : Nat) (s : State) (c : Nat) : Iss :=
  Iss.one s x c 1 (.scalar (fSdst v) (shiftSigned ((s.img g x).reg (fSsrc1 v)) (BitVec.ofNat 8 (opf v 64 8))))

/-- SAG: cause GENERATOR for a CLOG2 of 1–5 or above 20, or a BASE not aligned to 2^CLOG2 (R196, R203). -/
def bodySag (g x v : Nat) (s : State) (c : Nat) : Iss :=
  let i := s.img g x
  let a := (i.reg (fSsrc1 v)).toNat
  let b := (i.reg (fSsrc2 v)).toNat
  let base := bits a 0 20
  let k := bits a 20 5
  if (1 ≤ k && k ≤ 5) || 20 < k || base % 2 ^ k ≠ 0 then .refuse 0xC
  else Iss.one s x c 1 (.agen (opf v 64 2)
    ⟨BitVec.ofNat 20 base, 0, BitVec.ofNat 24 (bits b 0 24), BitVec.ofNat 24 (bits b 24 24), BitVec.ofNat 5 k⟩)

/-- SLM. -/
def bodySlm (g x v : Nat) (s : State) (c : Nat) : Iss :=
  let i := s.img g x
  Iss.one s x c 1 (.mask (opf v 64 2) (i.reg (fSsrc2 v) ++ i.reg (fSsrc1 v)))

/-- SCR: cause RANGE for a ring that is misaligned or lies beyond operand memory (R196). -/
def bodyScr (g x v : Nat) (s : State) (c : Nat) : Iss :=
  let a := ((s.img g x).reg (fSsrc1 v)).toNat
  let base := bits a 0 20
  let k := bits a 20 4
  if base % 16 ≠ 0 || 8 < k || 0x100000 < base + 16 * 2 ^ k then .refuse 6
  else Iss.one s x c 1 (.ring base k)

/-- SMOVV. -/
def bodySmovv (g x v : Nat) (s : State) (c : Nat) : Iss :=
  let r := (s.img g x).vec (fSsrc1 v)
  let lane := r.lanes.getD (opf v 64 7) 0
  Iss.one s x c 3 (.scalar (fSdst v) ((BitVec.ofInt 16 r.bexp).zeroExtend 32 ++ lane))

def execNop (g : Tile) (x : Ctx) (w : BitVec 120) (s : State) : Res := s.issue g x 0x00 w bodyNop
def execHalt (g : Tile) (x : Ctx) (w : BitVec 120) (s : State) : Res := s.issue g x 0x01 w (bodyHalt g x)
def execJmp (g : Tile) (x : Ctx) (w : BitVec 120) (s : State) : Res := s.issue g x 0x02 w (bodyJmp g x (wordOf w))
def execBr (g : Tile) (x : Ctx) (w : BitVec 120) (s : State) : Res := s.issue g x 0x03 w (bodyBr g x (wordOf w))
def execLoop (g : Tile) (x : Ctx) (w : BitVec 120) (s : State) : Res := s.issue g x 0x04 w (bodyLoop g x (wordOf w))
def execSli (g : Tile) (x : Ctx) (w : BitVec 120) (s : State) : Res := s.issue g x 0x05 w (bodySli x (wordOf w))
def execSadd (g : Tile) (x : Ctx) (w : BitVec 120) (s : State) : Res := s.issue g x 0x06 w (bodySadd g x (wordOf w))
def execSshf (g : Tile) (x : Ctx) (w : BitVec 120) (s : State) : Res := s.issue g x 0x07 w (bodySshf g x (wordOf w))
def execSag (g : Tile) (x : Ctx) (w : BitVec 120) (s : State) : Res := s.issue g x 0x08 w (bodySag g x (wordOf w))
def execSlm (g : Tile) (x : Ctx) (w : BitVec 120) (s : State) : Res := s.issue g x 0x09 w (bodySlm g x (wordOf w))
def execScr (g : Tile) (x : Ctx) (w : BitVec 120) (s : State) : Res := s.issue g x 0x0A w (bodyScr g x (wordOf w))
/-- YIELD: the issue marks the context so that step 1 of R182 does not choose it next. -/
def execYield (g : Tile) (x : Ctx) (w : BitVec 120) (s : State) : Res := s.issue g x 0x0B w bodyNop
def execSmovv (g : Tile) (x : Ctx) (w : BitVec 120) (s : State) : Res := s.issue g x 0x0C w (bodySmovv g x (wordOf w))

/-! ## Fence class (R206, R207) -/

/-- Full units of the context's write streams not yet at their point of visibility (R206, R228). -/
def State.writesLeft (s : State) (g x : Nat) : Bool :=
  s.streams.any fun (_, m) => m.tile = g && m.ctx = x && m.desc.dir % 2 = 1 &&
    (m.issued < m.freed || !m.outst.isEmpty)

/-- Fabric-out units of the context not yet past the tile side of the port's queue (R206, R227). -/
def State.fabricLeft (s : State) (g x : Nat) : Bool :=
  s.streams.any fun (_, m) => m.tile = g && m.ctx = x && m.desc.dir = 3 && m.issued < m.freed

/-- The conditions of a FENCE hold: bits OM, ARRAY, STREAM, COLLECTOR, FABRIC of SCOPE (R206). -/
def State.fenceHolds (s : State) (g x scope : Nat) : Bool :=
  let t := s.tile g
  let d := t.ctx x |>.dr
  (!scope.testBit 0 || t.flight.all fun f => f.ctx ≠ x || (match f.what with | .mem _ => false | _ => true)) &&
  (!scope.testBit 1 || (d.op.isNone && d.pendOp.isNone)) &&
  (!scope.testBit 2 || !s.writesLeft g x) &&
  (!scope.testBit 3 || (t.queue.all fun (_, y, _) => y ≠ x)) &&
  (!scope.testBit 4 || !s.fabricLeft g x)

def bodyFence (g x v : Nat) (s : State) (_ : Nat) : Iss :=
  let scope := opf v 16 5
  if scope = 0 then .refuse 2 else if s.fenceHolds g x scope then .go s none 0 [] else .block

/-- The semaphore named is in the context's set. -/
def State.semaOk (s : State) (g x v : Nat) : Bool := (s.img g x).semaSet.getLsbD (opf v 24 5)

def bodySemaadd (g x v : Nat) (s : State) (c : Nat) : Iss :=
  if s.semaOk g x v then Iss.one s x c 1 (.sema (opf v 24 5) (BitVec.ofNat 32 (opf v 64 32))) else .refuse 0xA

/-- SEMAWAIT issues only when the semaphore holds at least VALUE, and subtracts it in that cycle (R207). -/
def bodySemawait (g x v : Nat) (s : State) (_ : Nat) : Iss :=
  let k := opf v 24 5
  let n := BitVec.ofNat 32 (opf v 64 32)
  if !s.semaOk g x v then .refuse 0xA
  else
    let h := (s.tile g).sema.get 0 k
    if h.toNat < n.toNat then .block
    else .go (s.modTile g fun t => { t with sema := t.sema.put k (h - n) }) none 0 []

/-- FENCE (R206). -/
def execFence (g : Tile) (x : Ctx) (w : BitVec 120) (s : State) : Res := s.issue g x 0x20 w (bodyFence g x (wordOf w))
/-- SEMAADD (R207). -/
def execSemaadd (g : Tile) (x : Ctx) (w : BitVec 120) (s : State) : Res :=
  s.issue g x 0x21 w (bodySemaadd g x (wordOf w))
/-- SEMAWAIT (R207). -/
def execSemawait (g : Tile) (x : Ctx) (w : BitVec 120) (s : State) : Res :=
  s.issue g x 0x22 w (bodySemawait g x (wordOf w))

/-! ## Landings and residence -/

/-- RESULT_LANDING (R185, R187, R197): the results due next land, in issue order, and the tile's advancing cycle
passes theirs; a store into a locked range waits for the commit (R155). -/
def execResultLanding (g : Tile) (s : State) : Res :=
  match s.nextLanding g with
  | none => .next s
  | some d => .next ((s.landAt g d).modTile g fun t => { t with acyc := max t.acyc (d + 1) })

/-- CONTEXT_EVICTION (R181): a runnable context gets a bank. A free bank is loaded at once; otherwise a real-time
context takes the bank of the non-real-time context that issued least recently, once its results have landed,
and another context that of the non-real-time context Blocked longest with no result in flight. -/
def execContextEviction (g : Tile) (incoming : Ctx) (s : State) : Res :=
  let t := s.tile g
  let y := incoming.val
  let c := t.ctx y
  let runnable := c.dr.bound && (t.bankOf y).isNone && (c.th.st = .idle || c.th.st = .parkedReady ||
    (c.dr.rt && c.th.st = .parked))
  if !runnable then .next s
  else match (List.range 4).find? fun b => (t.banks.getD b Bank.empty).ctx.isNone with
  | some b => .next (s.startLoad g b y)
  | none =>
    let cands := (List.range 16).filter fun x =>
      t.resident x && !(t.ctx x).dr.rt &&
        (c.dr.rt || ((t.ctx x).th.st = .blocked && t.flight.all (·.ctx ≠ x)))
    let age (x : Nat) : Nat := if c.dr.rt then (t.ctx x).th.lastIssue else (t.ctx x).th.blockedAt
    match cands.foldl (fun (b : Option Nat) x => match b with
        | none => some x
        | some z => if age x < age z then some x else some z) none with
    | none => .next s
    | some x =>
      match t.bankOf x with
      | none => .next s
      | some b =>
        let s := s.landCtx g x
        let s := s.modTh g x fun h => { h with
          st := match h.st with
            | .ready | .running => .parkedReady
            | .blocked => .parked
            | z => z }
        .next (s.startLoad g b y)

/-- CONTEXT_SWAP_COMPLETE (R180, R184): the bank's load ends and its context is Ready, or Blocked as it was. -/
def execContextSwapComplete (g : Tile) (bank : Fin 4) (s : State) : Res :=
  let t := s.tile g
  let b := t.banks.getD bank.val Bank.empty
  match b.ctx with
  | none => .next s
  | some x =>
    if !b.swapping then .next s
    else
      let s := s.modTile g fun t => { t with banks := t.banks.set bank.val ⟨some x, false⟩ }
      let s := s.modTh g x fun h => { h with st := if h.blockedOn.isSome then .blocked else .ready }
      .next (s.bump (tileKey Obj.swaps g) 1)

end Sys2Proof.Machine
end

