-- ==== Sys2Proof/Machine/TileVector.lean ====
section
/-! DEFINITION. Array operations (R191–R193) and the vector engine (R194, R198–R204): what each operation does at
issue and what its result lands. -/

namespace Sys2Proof.Machine

/-! ## MMA (R109, R110, R114, R191–R193, R196) -/

/-- The array operation that a word names, with the scalars read in the issue cycle (R191). -/
def State.arrayOp (s : State) (g x v : Nat) : ArrayOp :=
  let i := s.img g x
  let a := (i.reg (opf v 40 4)).toNat
  let b := (i.reg (opf v 44 4)).toNat
  let c := (i.reg (opf v 48 4)).toNat
  let d := (i.reg (opf v 52 4)).toNat
  let sc := (i.reg (opf v 56 4)).toNat
  let o := (i.reg (opf v 60 4)).toNat
  let fa := opf v 16 4
  let fo := opf v 28 4
  let sclA := BitVec.ofNat 32 (bits sc 0 32)
  let sclB := BitVec.ofNat 32 (bits sc 32 32)
  let sclC := BitVec.ofNat 32 (bits o 0 32)
  { word := BitVec.ofNat 120 (v / 256), seq := i.seq, fmtA := fa, fmtB := opf v 20 4, fmtAcc := opf v 24 4, fmtOut := fo,
    stat := opf v 32 2, init := v.testBit 34, dest := v.testBit 35, outdim := v.testBit 36,
    denorm := v.testBit 8, record := v.testBit 9,
    aOff := bits a 0 20, aFs := bits a 20 20, bOff := bits b 0 20, bFs := bits b 20 20,
    cOff := bits c 0 20, cFs := bits c 20 20, spill := bits c 40 20,
    m := bits d 0 16, n := bits d 16 16, k := bits d 32 32, sclA := sclA, sclB := sclB, sclC := sclC,
    slot := bits o 32 8, order := bits o 40 8, offBase := bits o 48 16,
    badScale := (fmtScaled fa && opf v 24 4 = 0 && !(coarseOk sclA && coarseOk sclB)) ||
      (fmtScaled fo && !coarseOk sclC) }

/-- Formats in roles they can take (R109). -/
def ArrayOp.formatsOk (o : ArrayOp) : Bool :=
  o.fmtA ≤ 9 && o.fmtB ≤ 9 && (o.fmtAcc = 0 || o.fmtAcc = 10) && o.fmtOut ≤ 10 && (o.fmtOut ≠ 10 || o.fmtAcc = 10)

/-- Accepted pairings (R110). -/
def ArrayOp.pairingOk (o : ArrayOp) : Bool :=
  let both (lo hi : Nat) : Bool := lo ≤ o.fmtA && o.fmtA ≤ hi && lo ≤ o.fmtB && o.fmtB ≤ hi
  if o.fmtAcc = 10 then both 8 9 else both 3 9 || both 1 2 || both 0 0

/-- STAT, INIT and DEST within R147, R192 and R193. -/
def ArrayOp.modeOk (o : ArrayOp) : Bool :=
  o.stat ≠ 3 && (!o.init || o.fmtOut = o.fmtAcc) && (!o.dest || (o.fmtOut = o.fmtAcc && !o.outdim))

/-- A region that is aligned and lies in operand memory. -/
def inOperand (off size align : Nat) : Bool := off % align = 0 && off + size ≤ 0x100000

/-- Every region the operation touches is aligned and lies in operand memory (R192, R196). -/
def ArrayOp.rangeOk (o : ArrayOp) (d : Drawer) : Bool :=
  let kg := o.groups
  let lines := if o.outdim then o.n else o.m
  let pitch := 16 * ceilDiv (if o.outdim then o.m else o.n) 16
  let usesC := !o.dest || o.init
  inOperand o.aOff (o.m * o.pitch o.fmtA) 64 && inOperand o.bOff (o.n * o.pitch o.fmtB) 64 &&
  (!fmtScaled o.fmtA || (inOperand o.aFs (16 * kg * o.m) 16 && inOperand o.bFs (16 * kg * o.n) 16)) &&
  (!usesC || inOperand o.cOff (packedSize o.fmtOut (lines * pitch)) 64) &&
  (!(usesC && fmtScaled o.fmtOut) || inOperand o.cFs (lines * pitch / 16) 16) &&
  (o.stat = 0 || inOperand o.spill (4 * (8 * d.h * d.mBlocks o) * (8 * d.w * d.nBlocks o)) 64)

/-- MMA: refused for the first cause that holds, blocked while the drawer cannot take it, else accepted. One that a stop
returned is issued again as it was, with its scalars and SEQ (R209, log 47). -/
def bodyMma (g x v : Nat) (s : State) (_ : Nat) : Iss :=
  let back := (s.th g x).again
  let o := back.getD (s.arrayOp g x v)
  let d := s.dr g x
  if !o.formatsOk then .refuse 3
  else if !o.pairingOk then .refuse 4
  else if !o.modeOk then .refuse 5
  else if !o.rangeOk d then .refuse 6
  else if o.m = 0 || o.n = 0 || o.k = 0 then .refuse 7
  else if (d.op.isSome && d.pendOp.isSome) || d.st = DrawerSt.holding || d.st = DrawerSt.stopping ||
      d.st = DrawerSt.stopped then .block
  else
    let s := if back.isSome then s else s.modImg g x fun i => { i with seq := (i.seq + 1) % 65536 }
    let s := s.modDr g x fun d => { d with pendOp := some o }
    .go (if d.op.isNone && d.st = DrawerSt.assigned then (s.modDr g x fun d => { d with pendOp := none, op := some o, st := .issuing, begun := true }).loadSet g x
      else s)
      none 0 []

/-- MMA (R191). -/
def execMma (g : Tile) (x : Ctx) (w : BitVec 120) (s : State) : Res := s.issue g x 0x60 w (bodyMma g x (wordOf w))

/-! ## Vector operations (R194, R198) -/

abbrev fVd (v : Nat) : Nat := opf v 16 4
abbrev fVa (v : Nat) : Nat := opf v 20 4
abbrev fVb (v : Nat) : Nat := opf v 24 4
abbrev fVc (v : Nat) : Nat := opf v 28 4
abbrev fMai (v : Nat) : Nat := opf v 32 2
abbrev fWidth (v : Nat) : Nat := opf v 40 2
abbrev fDenorm (v : Nat) : Bool := v.testBit 8
abbrev fFix (v : Nat) : Bool := v.testBit 39

/-- The lane takes part (R198). -/
def Image.lane (i : Image) (v l : Nat) : Bool := !v.testBit 36 || (i.mask (opf v 34 2)).getLsbD l

/-- A vector operation that issues in cycle c and lands after `lat` cycles: its result, counts and record. -/
def Iss.vec (s : State) (g x v c lat : Nat) (freeze : Nat) (w : Landing) (k : Counts) : Iss :=
  let seq := (s.img g x).seq
  .go (s.modImg g x fun i => { i with seq := (i.seq + 1) % 65536 }) none freeze
    [⟨x, c + lat, w, seq, some (v % 256, v.testBit 9, k)⟩]

/-- Word of a vector operation with its opcode. -/
abbrev vwordOf (op : Nat) (w : BitVec 120) : Nat := w.toNat * 256 + op

/-! ### Memory (R203) -/

/-- Bytes of a lane in memory. -/
def widthBytes (w : Nat) : Nat := if w = 0 then 4 else if w = 1 then 2 else 1

/-- Lane address before the check, in strided or circular mode. -/
def AGen.laneAddr (a : AGen) (l : Nat) : Int :=
  let off : Int := a.ptr.toNat + l * a.lstride.toInt
  if a.clog2 = 0 then a.base.toNat + off else a.base.toNat + off % (2 ^ a.clog2.toNat : Nat)

/-- PTR after an access; it holds 20 bits (log 22). -/
def AGen.advance (a : AGen) : AGen :=
  let p : Int := a.ptr.toNat + a.stride.toInt
  { a with ptr := BitVec.ofInt 20 (if a.clog2 = 0 then p else p % (2 ^ a.clog2.toNat : Nat)) }

/-- Participating lanes of a memory operation with their addresses. -/
def Image.laneAddrs (i : Image) (v : Nat) : List (Nat × Int) :=
  ((List.range 128).filter (i.lane v)).map fun l => (l, (i.gen (opf v 37 2)).laneAddr l)

/-- Every lane address lies in operand memory and is aligned to the lane width. -/
def lanesOk (w : Nat) (l : List (Nat × Int)) : Bool :=
  l.all fun (_, a) => 0 ≤ a && a + widthBytes w ≤ 0x100000 && a % widthBytes w = 0

/-- Freeze cycles of an access: lines in the busiest bank less one (R138, R186). -/
def bankFreeze (l : List (Nat × Int)) : Nat :=
  let lines := (l.map fun (_, a) => a.toNat / 64).eraseDups
  ((List.range 16).map fun b => (lines.filter (· % 16 = b)).length).foldl max 0 - 1

/-- Sign-extend the low 8 × n bits of a number to a lane. -/
def signLane (n v : Nat) : BitVec 32 :=
  if v.testBit (8 * n - 1) then BitVec.ofInt 32 ((v : Int) - 2 ^ (8 * n)) else BitVec.ofNat 32 v

/-- VLD reads memory at issue (log 23). -/
def bodyVld (g x v lost : Nat) (s : State) (c : Nat) : Iss :=
  let i := s.img g x
  let w := fWidth v
  let l := i.laneAddrs v
  if w = 3 then .refuse 3
  else if !lanesOk w l then .refuse 6
  else
    let k := opf v 37 2
    let lanes := (List.range 128).map fun n => match l.find? (·.1 = n) with
      | some (_, a) => signLane (widthBytes w) (s.readNat (operandBase g + a.toNat) (widthBytes w))
      | none => 0
    let s := s.modImg g x fun i => { i with ag := i.ag.put k (i.gen k).advance }
    Iss.vec s g x v c 9 (bankFreeze l + lost) (.vreg (fVd v) ⟨lanes, (BitVec.ofNat 16 (opf v 64 16)).toInt⟩) Counts.zero

/-- VST blocks while a lane address lies in a range locked under R155. -/
def bodyVst (g x v lost : Nat) (s : State) (c : Nat) : Iss :=
  let i := s.img g x
  let w := fWidth v
  let l := i.laneAddrs v
  let n := widthBytes w
  let t := s.tile g
  if w = 3 then .refuse 3
  else if !lanesOk w l then .refuse 6
  else if l.any fun (_, a) => (List.range n).any fun b => t.locked (a.toNat + b) then .block
  else
    let k := opf v 37 2
    let r := i.vec (fVa v)
    let writes := l.flatMap fun (lane, a) =>
      (List.range n).map fun b => (operandBase g + a.toNat + b, ((r.lanes.getD lane 0) >>> (8 * b)).truncate 8)
    let s := s.modImg g x fun i => { i with ag := i.ag.put k (i.gen k).advance }
    Iss.vec s g x v c 3 (bankFreeze l + lost) (.mem writes) Counts.zero

/-- VLD (R203). -/
def execVld (g : Tile) (x : Ctx) (w : BitVec 120) (lostToArbitration : Nat) (s : State) : Res :=
  s.issue g x 0x80 w (bodyVld g x (vwordOf 0x80 w) lostToArbitration)
/-- VST (R203). -/
def execVst (g : Tile) (x : Ctx) (w : BitVec 120) (lostToArbitration : Nat) (s : State) : Res :=
  s.issue g x 0x81 w (bodyVst g x (vwordOf 0x81 w) lostToArbitration)

/-! ### FP32 (R131, R198) -/

/-- A lane-wise FP32 operation on up to three sources, writing BEXP 0; masked-off lanes keep their values. -/
def laneOp (g x v : Nat) (lat : Nat) (f : BitVec 32 → BitVec 32 → BitVec 32 → BitVec 32 × Counts) (s : State) (c : Nat) :
    Iss :=
  let i := s.img g x
  let a := i.vec (fVa v)
  let b := i.vec (fVb v)
  let d := i.vec (fVc v)
  let old := i.vec (fVd v)
  let rs := (List.range 128).map fun l =>
    if i.lane v l then f (a.lanes.getD l 0) (b.lanes.getD l 0) (d.lanes.getD l 0)
    else (old.lanes.getD l 0, Counts.zero)
  Iss.vec s g x v c lat 0 (.vreg (fVd v) ⟨rs.map (·.1), 0⟩) (rs.foldl (fun k r => k.add r.2) Counts.zero)

def faddLane (dn : Bool) (a b _c : BitVec 32) : BitVec 32 × Counts :=
  let (p, k) := in32 dn a
  let (q, k') := in32 dn b
  let (r, k'') := add32 dn p q
  (r, (k.add k').add k'')

def fmulLane (dn : Bool) (a b _c : BitVec 32) : BitVec 32 × Counts :=
  let (p, k) := in32 dn a
  let (q, k') := in32 dn b
  let (r, k'') := mul32 dn p q
  (r, (k.add k').add k'')

def fmaLane (dn : Bool) (a b c : BitVec 32) : BitVec 32 × Counts :=
  let (p, k) := in32 dn a
  let (q, k') := in32 dn b
  let (z, k'') := in32 dn c
  let (r, k3) := fma32 dn p q z
  (r, ((k.add k').add k'').add k3)

/-- VFADD. -/
def execVfadd (g : Tile) (x : Ctx) (w : BitVec 120) (s : State) : Res :=
  let v := vwordOf 0x82 w
  s.issue g x 0x82 w (laneOp g x v 4 (faddLane (fDenorm v)))
/-- VFMUL. -/
def execVfmul (g : Tile) (x : Ctx) (w : BitVec 120) (s : State) : Res :=
  let v := vwordOf 0x83 w
  s.issue g x 0x83 w (laneOp g x v 4 (fmulLane (fDenorm v)))
/-- VFMA. -/
def execVfma (g : Tile) (x : Ctx) (w : BitVec 120) (s : State) : Res :=
  let v := vwordOf 0x84 w
  s.issue g x 0x84 w (laneOp g x v 6 (fmaLane (fDenorm v)))

/-! ### Fixed point (R199–R202) -/

/-- A lane as ± m × 2^e, with what its conversion counts and whether it is infinite. -/
structure Scalar where
  neg : Bool
  m   : Nat
  e   : Int
  inf : Bool
  k   : Counts

/-- round_half_even(v / 2^s), saturated to ± (2^W − 1) and counted. -/
def Scalar.shiftTo (v : Scalar) (w : Nat) (s : Int) : Int × Counts :=
  if v.inf then (signed v.neg (2 ^ w - 1), v.k)
  else
    let (r, k) := roundInt (2 ^ w - 1) v.neg v.m 1 (v.e - s)
    (r, v.k.add k)

/-- bitlen of m × 2^e: the least n with m × 2^e < 2^n, for m ≠ 0. -/
def bitlen (m : Nat) (e : Int) : Int := Nat.log2 m + 1 + e

/-- choose_shift of R201 over the participating lanes. -/
def chooseShift (w : Nat) (auto : Bool) (shift : Int) (vs : List Scalar) : Int :=
  if !auto then shift
  else
    match ((vs.filter fun v => !v.inf && v.m ≠ 0).map fun v => bitlen v.m v.e).max? with
    | none => 0
    | some n =>
      let s := n - w
      if vs.any fun v => !v.inf && roundAt v.m 1 (v.e - s) 0 = 2 ^ w then s + 1 else s

/-- A fixed-point vector result, lane by lane with what it counted, with its exponent brought into range (R199): above,
the non-zero lanes count as saturated, those that had saturated once only (R135); below, every lane that takes part is 0
and counts as flushed. -/
def clampExp (on : List Bool) (rs : List (Int × Counts)) (e : Int) (max : Int) : List Int × Int × Counts :=
  let lanes := rs.zip on
  if e > 32767 then
    let n := (lanes.filter fun (r, o) => o && r.1 ≠ 0 && r.2.sat = 0).length
    (lanes.map fun (r, o) => if o && r.1 ≠ 0 then (if r.1 < 0 then -max else max) else r.1, 32767,
      ⟨n, 0, if n = 0 then 0 else 8⟩)
  else if e < -32768 then
    let n := (lanes.filter fun (r, o) => o && r.2.flush = 0).length
    (lanes.map fun (r, o) => if o then 0 else r.1, -32768, ⟨0, n, if n = 0 then 0 else 4⟩)
  else (rs.map (·.1), e, Counts.zero)

/-- A conversion that chooses a shift: lanes as scalars, target width W, source exponent E. Masked-off lanes are
written 0 (R198). -/
def shiftOp (g x v lat w : Nat) (e : Int) (vs : List Scalar) (s : State) (c : Nat) : Iss :=
  let i := s.img g x
  let on := (List.range 128).map (i.lane v)
  let part := ((vs.zip on).filter (·.2)).map (·.1)
  let sh := chooseShift w (v.testBit 42) (BitVec.ofNat 8 (opf v 48 8)).toInt part
  let rs := (vs.zip on).map fun (a, o) => if o then a.shiftTo w sh else (0, Counts.zero)
  let k := rs.foldl (fun k r => k.add r.2) Counts.zero
  let (ls, be, k') := clampExp on rs (e + sh) (2 ^ 31 - 1)
  Iss.vec s g x v c lat 0 (.vreg (fVd v) ⟨ls.map (BitVec.ofInt 32 ·), be⟩) (k.add k')

/-- VTOF: q × 2^BEXP to FP32; the destination's BEXP keeps its value (log 24). -/
def bodyVtof (g x v : Nat) (s : State) (c : Nat) : Iss :=
  let i := s.img g x
  let a := i.vec (fVa v)
  let old := i.vec (fVd v)
  let rs := (List.range 128).map fun l =>
    if i.lane v l then
      let q := (a.lanes.getD l 0).toInt
      round32 (fDenorm v) (.fin (q < 0) q.natAbs a.bexp)
    else (old.lanes.getD l 0, Counts.zero)
  Iss.vec s g x v c 4 0 (.vreg (fVd v) ⟨rs.map (·.1), old.bexp⟩) (rs.foldl (fun k r => k.add r.2) Counts.zero)

/-- An FP32 lane for VTOX: NaN is 0 with INVALID, infinity saturates, subnormals follow DENORM (R202). -/
def toxScalar (dn : Bool) (b : BitVec 32) : Scalar :=
  let (v, k) := in32 dn b
  match v with
  | .nan => ⟨false, 0, 0, false, Counts.invalid⟩
  | .inf n => ⟨n, 0, 0, true, Counts.saturated⟩
  | .fin n m e => ⟨n, m, e, false, k⟩

def bodyVtox (g x v : Nat) (s : State) (c : Nat) : Iss :=
  let a := (s.img g x).vec (fVa v)
  shiftOp g x v 6 31 0 (a.lanes.map (toxScalar (fDenorm v))) s c

/-- An integer lane as a scalar. -/
def intScalar (q : Int) : Scalar := ⟨q < 0, q.natAbs, 0, false, Counts.zero⟩

def bodyVmova (g x v : Nat) (s : State) (c : Nat) : Iss :=
  let a := (s.img g x).acc (fMai v)
  shiftOp g x v 5 31 a.ema (a.lanes.map intScalar) s c

/-- VNAR narrows to 15 or 7 bits; WIDTH 0 and 3 are refused with FORMAT. -/
def bodyVnar (g x v : Nat) (s : State) (c : Nat) : Iss :=
  let a := (s.img g x).vec (fVa v)
  if fWidth v = 0 || fWidth v = 3 then .refuse 3
  else shiftOp g x v 4 (if fWidth v = 1 then 15 else 7) a.bexp (a.lanes.map fun b => intScalar b.toInt) s c

/-- VCLRA. -/
def bodyVclra (g x v : Nat) (s : State) (c : Nat) : Iss :=
  let i := s.img g x
  let a := i.acc (fMai v)
  Iss.vec s g x v c 1 0 (.macc (fMai v)
    ⟨(a.lanes.zip (List.range 128)).map fun (q, l) => if i.lane v l then 0 else q, if v.testBit 36 then a.ema else 0, true⟩)
    Counts.zero

/-- Add a product to an 80-bit lane, saturating at ± (2^79 − 1) (R200). -/
def addMac (acc p : Int) : Int × Counts :=
  let t := acc + p
  if t > 2 ^ 79 - 1 then (2 ^ 79 - 1, Counts.saturated)
  else if t < -(2 ^ 79 - 1) then (-(2 ^ 79 - 1), Counts.saturated)
  else (t, Counts.zero)

/-- A product brought to the accumulator's exponent: × 2^d, or divided with convergent rounding (R200). -/
def alignProduct (p d : Int) : Int :=
  if 0 ≤ d then p * 2 ^ d.toNat else signed (p < 0) (roundDiv p.natAbs (2 ^ (-d).toNat))

/-- VIMAC. -/
def bodyVimac (g x v : Nat) (s : State) (c : Nat) : Iss :=
  let i := s.img g x
  let m := i.acc (fMai v)
  let a := i.vec (fVa v)
  let b := i.vec (fVb v)
  let e := a.bexp + b.bexp
  let d := if m.empty then 0 else e - m.ema
  let on := (List.range 128).map (i.lane v)
  let rs := (List.range 128).map fun l =>
    let old := m.lanes.getD l 0
    if i.lane v l then addMac old (alignProduct ((a.lanes.getD l 0).toInt * (b.lanes.getD l 0).toInt) d)
    else (old, Counts.zero)
  let k := rs.foldl (fun k r => k.add r.2) Counts.zero
  let (ls, ema, k') := clampExp on rs (if m.empty then e else m.ema) (2 ^ 31 - 1)
  Iss.vec s g x v c 5 0 (.macc (fMai v) ⟨ls, ema, false⟩) (k.add k')

/-- VTOF (R202). -/
def execVtof (g : Tile) (x : Ctx) (w : BitVec 120) (s : State) : Res := s.issue g x 0x85 w (bodyVtof g x (vwordOf 0x85 w))
/-- VTOX (R202). -/
def execVtox (g : Tile) (x : Ctx) (w : BitVec 120) (s : State) : Res := s.issue g x 0x86 w (bodyVtox g x (vwordOf 0x86 w))
/-- VCLRA (R190). -/
def execVclra (g : Tile) (x : Ctx) (w : BitVec 120) (s : State) : Res := s.issue g x 0x87 w (bodyVclra g x (vwordOf 0x87 w))
/-- VIMAC (R200). -/
def execVimac (g : Tile) (x : Ctx) (w : BitVec 120) (s : State) : Res := s.issue g x 0x88 w (bodyVimac g x (vwordOf 0x88 w))
/-- VMOVA (R201). -/
def execVmova (g : Tile) (x : Ctx) (w : BitVec 120) (s : State) : Res := s.issue g x 0x89 w (bodyVmova g x (vwordOf 0x89 w))
/-- VNAR (R201). -/
def execVnar (g : Tile) (x : Ctx) (w : BitVec 120) (s : State) : Res := s.issue g x 0x8A w (bodyVnar g x (vwordOf 0x8A w))

/-! ### Search and masks (R204, R190) -/

/-- Value of a lane for comparison, with its count. -/
def laneVal (fix dn : Bool) (bexp : Int) (b : BitVec 32) : FVal × Counts :=
  if fix then (.fin (b.toInt < 0) b.toInt.natAbs bexp, Counts.zero) else in32 dn b

/-- A candidate beats the winner so far: NaN first, then the order of the search, then the lower index. -/
def beats (order : FVal → FVal → Bool) (v : FVal) (idx : Nat) (w : FVal) (widx : Nat) : Bool :=
  match v, w with
  | .nan, .nan => idx < widx
  | .nan, _ => true
  | _, .nan => false
  | _, _ => order v w || (!order w v && idx < widx)

/-- The winner recorded in the search state. -/
def Search.winner (h : Search) : FVal :=
  if h.nan then .nan
  else if h.fix then .fin (h.value.toInt < 0) h.value.toInt.natAbs h.bexp else val32 h.value

/-- A search over the participating lanes; refused with SEARCH when FIX differs from the TYPE of a non-empty
state. -/
def searchOp (order : FVal → FVal → Bool) (g x v : Nat) (s : State) (c : Nat) : Iss :=
  let i := s.img g x
  let fix := fFix v
  let h := i.search
  if !h.empty && h.fix != fix then .refuse 0xB
  else
    let a := i.vec (fVa v)
    let base := bits (i.reg (opf v 56 4)).toNat 0 32
    let lanes := (List.range 128).filter (i.lane v)
    let start : Search := { h with fix := if h.empty then fix else h.fix }
    let (r, k) := lanes.foldl (fun (p : Search × Counts) l =>
      let b := a.lanes.getD l 0
      let (q, k) := laneVal fix (fDenorm v) a.bexp b
      let idx := (base + l) % 2 ^ 32
      -- a flushed subnormal is kept as the zero it was read as
      let b := if k.flush = 0 then b else b &&& 0x80000000
      let k := if q = FVal.nan then k.add Counts.invalid else k
      let win := p.1.empty || beats order q idx p.1.winner p.1.index.toNat
      let new : Search :=
        ⟨if q = FVal.nan then 0x7FC00000 else b, if fix then a.bexp else 0, BitVec.ofNat 32 idx, fix, q = FVal.nan, false⟩
      (if win then new else p.1, p.2.add k)) (start, Counts.zero)
    Iss.vec s g x v c 7 0 (.search r) k

/-- VMAX (R204). -/
def execVmax (g : Tile) (x : Ctx) (w : BitVec 120) (s : State) : Res :=
  s.issue g x 0x8B w (searchOp (fun a b => b.lt a) g x (vwordOf 0x8B w))
/-- VMIN (R204). -/
def execVmin (g : Tile) (x : Ctx) (w : BitVec 120) (s : State) : Res :=
  s.issue g x 0x8C w (searchOp (fun a b => a.lt b) g x (vwordOf 0x8C w))
/-- VAMAX (R204). -/
def execVamax (g : Tile) (x : Ctx) (w : BitVec 120) (s : State) : Res :=
  s.issue g x 0x8D w (searchOp (fun a b => b.abs.lt a.abs) g x (vwordOf 0x8D w))

/-- VSRD blocks while an earlier search of the context has not landed (R183). -/
def bodyVsrd (g x v : Nat) (s : State) (c : Nat) : Iss :=
  let busy := (s.tile g).flight.any fun f => f.ctx = x && (match f.what with | .search _ => true | _ => false)
  if busy then .block
  else
    let h := (s.img g x).search
    let hi := (BitVec.ofInt 16 h.bexp).toNat + b2n h.fix * 2 ^ 16 + b2n h.nan * 2 ^ 17 + b2n h.empty * 2 ^ 18
    Iss.vec s g x v c 2 0 (.srd (opf v 56 4) (h.index ++ h.value) (opf v 64 4) (BitVec.ofNat 64 hi)) Counts.zero

/-- VSRD (R190). -/
def execVsrd (g : Tile) (x : Ctx) (w : BitVec 120) (s : State) : Res := s.issue g x 0x8E w (bodyVsrd g x (vwordOf 0x8E w))

/-- VMASK comparison of two lanes: false with NaN, but for "not equal". -/
def maskHolds (k : Nat) (a b : FVal) : Bool :=
  let anyNan := a = FVal.nan || b = FVal.nan
  let lt := a.lt b
  let gt := b.lt a
  match k with
  | 0 => !anyNan && !lt && !gt
  | 1 => anyNan || lt || gt
  | 2 => lt
  | _ => !anyNan && !lt

/-- VMASK; LMEN set, or a COND above 3, is refused with RESERVED. -/
def bodyVmask (g x v : Nat) (s : State) (c : Nat) : Iss :=
  let k := opf v 60 3
  if v.testBit 36 || 4 ≤ k then .refuse 2
  else
    let i := s.img g x
    let a := i.vec (fVa v)
    let b := i.vec (fVb v)
    let rs := (List.range 128).map fun l =>
      let (p, k1) := laneVal (fFix v) (fDenorm v) a.bexp (a.lanes.getD l 0)
      let (q, k2) := laneVal (fFix v) (fDenorm v) b.bexp (b.lanes.getD l 0)
      let k3 := if p = FVal.nan || q = FVal.nan then Counts.invalid else Counts.zero
      (maskHolds k p q, (k1.add k2).add k3)
    let m := (rs.zip (List.range 128)).foldl (fun (m : Nat) (r, l) => if r.1 then m + 2 ^ l else m) 0
    Iss.vec s g x v c 2 0 (.mask (opf v 34 2) (BitVec.ofNat 128 m)) (rs.foldl (fun k r => k.add r.2) Counts.zero)

/-- VMASK (R190). -/
def execVmask (g : Tile) (x : Ctx) (w : BitVec 120) (s : State) : Res := s.issue g x 0x8F w (bodyVmask g x (vwordOf 0x8F w))

end Sys2Proof.Machine
end

