-- ==== Sys2Proof/Machine/Streams.lean ====
section
/-! DEFINITION. Streams (R212–R241): descriptors, the stream operations of a program, deadline arbitration,
deliveries, multicast, halts and resumption; and the clearing of blocks (R183, R184). -/

namespace Sys2Proof.Machine

/-! ## Descriptors (R217, R218) -/

def StreamDesc.mk' (b : List Byte) : StreamDesc where
  base := field b 0 6
  dir := bits (field b 6 1) 0 2
  rt := (field b 6 1).testBit 2
  mcast := (field b 6 1).testBit 3
  ringLog2 := bits (field b 7 1) 0 4
  ringOff := bits (field b 8 4) 0 20
  counts := (List.range 5).map fun i => field b (12 + 4 * i) 4
  strides := (List.range 5).map fun i => (BitVec.ofNat 32 (field b (32 + 4 * i) 4)).toInt
  rate := field b 52 2
  winLog2 := bits (field b 55 1) 0 5

/-- Total units (R218). -/
def StreamDesc.total (d : StreamDesc) : Nat := d.counts.foldl (· * ·) 1
/-- Units of the ring. -/
def StreamDesc.ring (d : StreamDesc) : Nat := 2 ^ d.ringLog2
/-- The ring is filled by the engine: DIR 0, 2, or a trace feed. -/
def StreamDesc.isRead (d : StreamDesc) : Bool := d.dir % 2 = 0

/-- Index i of unit n. -/
def StreamDesc.index (d : StreamDesc) (n i : Nat) : Nat :=
  let below := (d.counts.take i).foldl (· * ·) 1
  if i = 4 then n / max 1 below else n / max 1 below % max 1 (d.counts.getD i 1)

/-- unit_va(n) of R218. -/
def StreamDesc.va (d : StreamDesc) (n : Nat) : Int :=
  (List.range 5).foldl (fun a i => a + 256 * (d.index n i : Int) * d.strides.getD i 0) (d.base : Int)

/-- Least and greatest unit address (R237). -/
def StreamDesc.extent (d : StreamDesc) : Int × Int :=
  (List.range 5).foldl (fun (lo, hi) i =>
    let e := 256 * ((d.counts.getD i 1 : Int) - 1) * d.strides.getD i 0
    if e < 0 then (lo + e, hi) else (lo, hi + e)) ((d.base : Int), (d.base : Int))

/-- Memory address of a ring slot in a tile (R212). -/
def StreamDesc.slot (d : StreamDesc) (g n : Nat) : Nat := operandBase g + d.ringOff + 256 * (n % d.ring)

/-- Fields that must be 0 (R217). -/
def descReserved (b : List Byte) : Bool :=
  bits (field b 6 1) 4 4 ≠ 0 || bits (field b 7 1) 4 4 ≠ 0 || bits (field b 8 4) 20 12 ≠ 0 ||
    (field b 54 1).testBit 7 || bits (field b 55 1) 5 3 ≠ 0 || bits (field b 56 4) 20 12 ≠ 0 || field b 60 4 ≠ 0

/-- Tiles of a job in a cabinet. -/
def JobS.tilesIn (j : JobS) (c : Nat) : List Nat := (j.placed.filter fun d => d.tile / 150 = c).map (·.tile)

/-- The receivers of a list, or none where cause RECEIVER_LIST applies (R219, R220). -/
def State.receivers (s : State) (g : Nat) (j : JobS) (b : List Byte) : Option (List Nat) :=
  let n := bits (field b 54 1) 0 7
  let off := bits (field b 56 4) 0 20
  let l := (s.read (operandBase g + off) 64).map (·.toNat)
  let ts := (l.take n).map fun t => 150 * (g / 150) + t
  if n < 1 || 64 < n || off % 64 ≠ 0 || !((l.take n).all (· < 150)) || !((l.drop n).all (· = 0xFF)) then none
  else if ts.head? ≠ some g || ts.eraseDups.length ≠ n || !(ts.all fun t => (j.tilesIn (g / 150)).contains t) then none
  else some ts

/-- Windows of a job's open multicasts in a cabinet: base and bytes. -/
def State.windows (s : State) (jobId c : Nat) : List (Nat × Nat) :=
  (s.streams.filter fun (k, m) => k / 512 = c && m.jobId = jobId && m.desc.mcast && m.st ≠ .error).map
    fun (_, m) => (m.window, 2 ^ m.desc.winLog2)

/-- A window in the job's granules: the lowest place clear of its other windows (R226, R229). -/
def State.findWindow (s : State) (j : JobS) (jobId c size : Nat) : Option Nat :=
  let used := s.windows jobId c
  (j.granules.filter (·.1 = c)).findSome? fun (_, first, n) =>
    ((List.range n).map fun i => bufferBase c + 0x10000 * (first + i)).find? fun a =>
      a + size ≤ bufferBase c + 0x10000 * (first + n) && used.all fun (b, z) => a + size ≤ b || b + z ≤ a

/-- The checks of SOPEN in cause order (R220): the descriptor, its receivers and its window, or the cause. -/
def State.checkDesc (s : State) (g x k off : Nat) (j : JobS) : Except Nat (StreamDesc × List Nat × Nat) :=
  let b := s.read (operandBase g + off) 64
  let d := StreamDesc.mk' b
  let zeroPlace := d.dir < 2 || (d.base = 0 && d.strides.all (· = 0))
  if off % 64 ≠ 0 || descReserved b || d.counts.any (· = 0) || 0xFFFFFFFF < d.total || d.base % 256 ≠ 0 ||
      (d.mcast && d.dir ≠ 0) || !zeroPlace then .error 1
  else if d.ringLog2 < 1 || 11 < d.ringLog2 || d.ringOff % (256 * d.ring) ≠ 0 || 0x100000 < d.ringOff + 256 * d.ring then
    .error 2
  else if d.rt && !(s.dr g x).rt then .error 3
  else if !d.mcast then
    if bits (field b 54 1) 0 7 ≠ 0 || d.winLog2 ≠ 0 || bits (field b 56 4) 0 20 ≠ 0 then .error 4
    else if 2 ≤ d.dir && (s.streams.any fun (i, m) => i ≠ k && m.tile = g && m.desc.dir = d.dir && m.st ≠ .error) then
      .error 6
    else .ok (d, [], 0)
  else if d.winLog2 < 18 || 26 < d.winLog2 then .error 4
  else match s.receivers g j b with
    | none => .error 4
    | some ts => match s.findWindow j (s.dr g x).jobId (g / 150) (2 ^ d.winLog2) with
      | none => .error 5
      | some w => .ok (d, ts, w)

/-! ## Errors and completion -/

/-- A stream goes to Error; the job service ends the job (R220, R296). -/
def State.streamError (k cause : Nat) (s : State) : State :=
  match s.stream k with
  | none => s
  | some m =>
    let s := s.putStream k { m with error := cause, outst := [], halting := none }
    let s := (s.setStreamSt k .error).bump Obj.streamErrors 1
    (s.setFlag Obj.streamEventFlags 1).endJob m.jobId Status.streamError cause

/-- Nothing left to transfer: every unit delivered, or visible (R239). -/
def StreamS.finished (m : StreamS) : Bool :=
  if m.desc.mcast then m.recv.all fun r => r.delivered = m.total
  else if m.desc.isRead then m.delivered = m.total
  else m.issued = m.total && m.outst.isEmpty

/-- A Running stream with nothing left is Done. -/
def State.checkDone (k : Nat) (s : State) : State :=
  match s.stream k with
  | none => s
  | some m => if m.st = .running && m.desc.dir ≠ 4 && m.finished then s.setStreamSt k .done else s

/-- Empty slots delivered by a write stream: the ring's, and one more for every unit whose bytes have been read out of
the ring (R214). -/
def StreamS.slots (m : StreamS) : Nat := min m.total (m.desc.ring + m.issued)

/-- Store a write stream with its delivered count brought up to date. -/
def State.putWrite (k : Nat) (m : StreamS) (s : State) : State :=
  (s.putStream k { m with delivered := if m.st = .running || m.st = .halted then max m.delivered m.slots else m.delivered }).checkDone k

/-! ## Fabric-port streams (R227, R331, R332) -/

/-- The open stream of a tile in a direction. -/
def State.portStream (s : State) (g dir : Nat) : Option (Nat × StreamS) :=
  List.find? (fun (_, m) => m.tile = g && m.desc.dir = dir && (m.st = StreamSt.running || m.st = StreamSt.closing)) s.streams

/-- Beats of the IN queue move into the ring while a slot is free and no pass locks it (R155); the fourth beat delivers the
unit. -/
def State.drainIn (g : Nat) : Nat → State → State
  | 0, s => s
  | f + 1, s => match s.portStream g 2 with
    | none => s
    | some (k, m) =>
      if !(m.st = .running && m.delivered < m.total && m.delivered - m.freed < m.desc.ring &&
          !s.lockedAt (m.desc.slot g m.delivered) 256) then s
      else if 256 ≤ m.beats.length then
        State.drainIn g f (((s.poke (m.desc.slot g m.delivered) (m.beats.take 256)).putStream k
          { m with beats := m.beats.drop 256, delivered := m.delivered + 1, issued := m.issued + 1 }).checkDone k)
      else match (s.tile g).portIn with
        | [] => s
        | b :: r => State.drainIn g f ((s.modTile g fun t => { t with portIn := r }).putStream k { m with beats := m.beats ++ b })

/-- Beats of freed units enter the OUT queue of 16 while it has room; a unit whose fourth beat has entered has left
the tile side and its slot returns empty. -/
def State.fillOut (g : Nat) : Nat → State → State
  | 0, s => s
  | f + 1, s => match s.portStream g 3 with
    | some (k, m) =>
      if (s.tile g).portOut.length < 16 && m.issued < m.freed then
        let left := if m.beats.isEmpty then s.read (m.desc.slot g m.issued) 256 else m.beats
        let s := s.modTile g fun t => { t with portOut := t.portOut ++ [left.take 64] }
        let rest := left.drop 64
        let s := if rest.isEmpty then s.putWrite k { m with beats := [], issued := m.issued + 1 }
          else s.putStream k { m with beats := rest }
        State.fillOut g f s
      else s
    | none => s

/-- Both directions of a tile's port move what they can. -/
def State.movePort (g : Nat) (s : State) : State := (s.drainIn g 64).fillOut g 64

/-! ## SOPEN, SWAIT, SFREE, SCLOSE -/

/-- The stream number is assigned to the context's job (R216). -/
def State.streamOk (s : State) (g x n : Nat) : Bool :=
  match s.job (s.dr g x).jobId with
  | none => false
  | some j => j.streams.contains (streamKey (g / 150) n)

/-- The enabled feed that uses a stream number (R412). -/
def State.feedUsing (s : State) (c n : Nat) : Option Nat :=
  (List.range 16).find? fun f =>
    let o := 256 * (16 * c + f)
    s.num (Obj.feedEnable + o) = 1 && s.num (Obj.feedStream + o) = n

/-- Pages of a job between two addresses, those of remote segments apart: page and size (R237). -/
def JobS.pagesIn (j : JobS) (lo hi : Int) : List (Nat × Bool) :=
  j.layout.segs.flatMap fun g =>
    let z := pageSize g.large
    if pteRemote g.backing then []
    else (List.range (g.bytes / z)).filterMap fun i =>
      let p := g.va + z * i
      if (p : Int) + z > lo && (p : Int) ≤ hi then some (p, g.large) else none

/-- A real-time stream pins what it can reach: resident pages at once, the others through the memory service. -/
def State.pinReach (k : Nat) (m : StreamS) (j : JobS) (s : State) : State :=
  let (lo, hi) := m.desc.extent
  (j.pagesIn lo hi).foldl (fun s (p, large) =>
    let s := { s with mm := { s.mm with pins := (k, p) :: s.mm.pins } }
    if s.resident j.asn p then s.setPinned j.asn p large true else s.raiseFault (k / 512) j.asn p true) s

/-- A stream enters Running: a write stream's empty slots are delivered at once (R214). -/
def State.startStream (k : Nat) (s : State) : State :=
  let s := s.setStreamSt k .running
  match s.stream k with
  | none => s
  | some m =>
    let m := { m with halting := none, looked := m.issued }
    let s := if m.desc.isRead then s.putStream k m else s.putWrite k m
    s.movePort m.tile

/-- A new stream of a context. -/
def StreamS.new (jobId g x off : Nat) (d : StreamDesc) (ts : List Nat) (w : Nat) : StreamS where
  st := .opening
  jobId := jobId
  tile := g
  ctx := x
  descOff := off
  desc := d
  total := d.total
  issued := 0
  looked := 0
  fetched := 0
  delivered := 0
  freed := 0
  outst := []
  recv := ts.map fun t => ⟨t, 0, 0, true⟩
  window := w
  halting := none
  haltAt := 0
  cause := 0
  record := []
  error := 0
  halts := 0
  rtTaken := 0
  freedNow := 0
  freedPrev := 0
  stallLag := false
  stallWin := false
  beats := []
  reopen := none

/-- SOPEN takes effect (R220, R237). -/
def State.openStream (g x k off : Nat) (s : State) : State :=
  let jobId := (s.dr g x).jobId
  match s.job jobId with
  | none => s
  | some j =>
    let d := StreamDesc.mk' (s.read (operandBase g + off) 64)
    let begin' (d : StreamDesc) (ts : List Nat) (w : Nat) (s : State) : State :=
      (s.putStream k (StreamS.new jobId g x off d ts w)).streamEvent k 1
    match s.checkDesc g x k off j with
    | .error e => (begin' d [] 0 s).streamError k e
    | .ok (d, ts, w) =>
      let m := StreamS.new jobId g x off d ts w
      let s := begin' d ts w s
      if d.rt && d.dir < 2 then s.pinReach k m j else s.startStream k

/-- SOPEN. A number whose feed is enabled is the packer's (R412); one already open stays as it is, and one Closing
opens again once it is Closed (R239). -/
def bodySopen (g x v : Nat) (s : State) (_ : Nat) : Iss :=
  let n := opf v 16 9
  let k := streamKey (g / 150) n
  let off := (((s.img g x).reg (opf v 32 4)).toNat) % 0x100000
  if !s.streamOk g x n then .refuse 9
  else if (s.feedUsing (g / 150) n).isSome then .go (s.bump Obj.feedStreamMisuse 1) none 0 []
  else match s.stream k with
    | none => .go (s.openStream g x k off) none 0 []
    | some m => if m.st = .closing then .go (s.putStream k { m with reopen := some (g, x, off) }) none 0 [] else .go s none 0 []

/-- The receiver a tile is in a multicast. -/
def StreamS.recvOf (m : StreamS) (g : Nat) : Option Nat := (List.range m.recv.length).find? fun i => (m.recv[i]?.map (·.tile)) = some g

/-- Units of a stream that a tile's program holds (R213–R215). -/
def State.held (s : State) (g k : Nat) : Nat :=
  match s.stream k with
  | none => 0
  | some m =>
    if m.desc.mcast then match m.recvOf g with
      | none => 0
      | some i => match m.recv[i]? with
        | some r => r.delivered - r.freed
        | none => 0
    else if m.tile = g then m.delivered - m.freed else 0

/-- SWAIT issues once QUANTITY units are held. -/
def bodySwait (g x v : Nat) (s : State) (_ : Nat) : Iss :=
  let n := opf v 16 9
  if !s.streamOk g x n then .refuse 9
  else if opf v 64 32 ≤ s.held g (streamKey (g / 150) n) then .go s none 0 [] else .block

/-- Free the oldest q units a tile holds. -/
def State.freeUnits (g k q : Nat) (s : State) : State :=
  match s.stream k with
  | none => s
  | some m =>
    if m.desc.mcast then match m.recvOf g with
      | none => s
      | some i => s.putStream k { m with
          recv := m.recv.modify i fun r => { r with freed := r.freed + q }
          freedNow := if i = 0 then m.freedNow + q else m.freedNow }
    else
      (s.putStream k { m with freed := m.freed + q, freedNow := m.freedNow + q }).movePort g

/-- SFREE (R215). -/
def bodySfree (g x v : Nat) (s : State) (_ : Nat) : Iss :=
  let n := opf v 16 9
  let k := streamKey (g / 150) n
  let q := opf v 64 32
  if !s.streamOk g x n then .refuse 9
  else
    let h := s.held g k
    let s := if h < q then s.bump Obj.overFrees 1 else s
    .go (s.freeUnits g k (min q h)) none 0 []

/-- A stream begins to close (R233, R239, R332). -/
def State.closeStream (k : Nat) (s : State) : State :=
  match s.stream k with
  | none => s
  | some m =>
    let s := s.putStream k { m with halting := none, looked := m.issued, beats := if m.desc.dir = 2 then [] else m.beats }
    (s.discardIn m).setStreamSt k .closing

/-- SCLOSE, by the opener's tile. -/
def bodySclose (g x v : Nat) (s : State) (_ : Nat) : Iss :=
  let n := opf v 16 9
  let k := streamKey (g / 150) n
  if !s.streamOk g x n then .refuse 9
  else if (s.feedUsing (g / 150) n).isSome then .go (s.bump Obj.feedStreamMisuse 1) none 0 []
  else match s.stream k with
    | none => .go s none 0 []
    | some m =>
      if m.tile = g && (m.st = .opening || m.st = .running || m.st = .halted || m.st = .done) then
        .go (s.closeStream k) none 0 []
      else .go s none 0 []

/-- SOPEN (R220). -/
def execSopen (g : Tile) (x : Ctx) (w : BitVec 120) (s : State) : Res := s.issue g x 0x40 w (bodySopen g x (wordOf w))
/-- SWAIT (R213, R214). -/
def execSwait (g : Tile) (x : Ctx) (w : BitVec 120) (s : State) : Res := s.issue g x 0x41 w (bodySwait g x (wordOf w))
/-- SFREE (R213–R215). -/
def execSfree (g : Tile) (x : Ctx) (w : BitVec 120) (s : State) : Res := s.issue g x 0x42 w (bodySfree g x (wordOf w))
/-- SCLOSE (R239). -/
def execSclose (g : Tile) (x : Ctx) (w : BitVec 120) (s : State) : Res := s.issue g x 0x43 w (bodySclose g x (wordOf w))

/-! ## Blocks clear (R183, R184) -/

/-- A word that blocked still blocks. -/
def State.stillBlocked (s : State) (g x : Nat) (word : BitVec 128) : Bool :=
  let v := word.toNat
  let d := s.dr g x
  let blocks (i : Iss) : Bool := match i with | .block => true | _ => false
  (v.testBit 10 && (d.op.isSome || d.pendOp.isSome)) ||
    (match v % 256 with
     | 0x01 => blocks (bodyHalt g x s 0)
     | 0x20 => blocks (bodyFence g x v s 0)
     | 0x22 => blocks (bodySemawait g x v s 0)
     | 0x41 => blocks (bodySwait g x v s 0)
     | 0x60 => blocks (bodyMma g x v s 0)
     | 0x81 => blocks (bodyVst g x v 0 s 0)
     | 0x8E => blocks (bodyVsrd g x v s 0)
     | _ => false)

/-- BLOCK_CLEARED (R183, R184): the condition of a Blocked or Parked context has cleared. -/
def execBlockCleared (g : Tile) (x : Ctx) (s : State) : Res :=
  let h := s.th g x
  match h.blockedOn with
  | none => .next s
  | some w =>
    if s.stillBlocked g x w then .next s
    else if h.st = .blocked then .next (s.modTh g x fun h => { h with st := .ready, blockedOn := none })
    else if h.st = .parked then .next (s.modTh g x fun h => { h with st := .parkedReady, blockedOn := none })
    else .next s

/-! ## Arbitration (R221–R225, R231) -/

/-- P of R225 for a stream: units held by the program; for a multicast, at its fullest attached receiver. With `room`, a
full ring counts only where every attached receiver's is full: the worked example of R232 fetches on past one (log 79). -/
def StreamS.heldMost (m : StreamS) (room : Bool) : Nat :=
  if m.desc.mcast then
    let held := (m.recv.filter (·.attached)).map fun r => r.delivered - r.freed
    let some' := held.filter (· < m.desc.ring)
    (if room && !some'.isEmpty then some' else held).foldl max 0
  else m.delivered - m.freed

/-- F of R225. -/
def StreamS.inFlight (m : StreamS) : Nat := if m.desc.isRead then m.outst.length else m.freed - m.issued

/-- R of R225. -/
def StreamS.rateOf (m : StreamS) : Nat := if m.desc.rate ≠ 0 then m.desc.rate else max 1 m.freedPrev

/-- Receivers whose lag would exceed 256 units after the next fetch (R231). -/
def StreamS.excess (m : StreamS) : List Nat :=
  (List.range m.recv.length).filter fun i => match m.recv[i]? with
    | some r => r.attached && 256 < m.issued + 1 - r.delivered
    | none => false

def StreamS.detached (m : StreamS) : Nat := (m.recv.filter fun r => !r.attached).length

/-- The window has room for the next unit (R229, R231). -/
def StreamS.windowRoom (m : StreamS) : Bool :=
  let low := (m.recv.map (·.delivered)).foldl min m.issued
  m.issued + 1 - low ≤ 2 ^ m.desc.winLog2 / 256

/-- The lag rule lets the next fetch go: nothing would exceed, or what would may be detached. -/
def StreamS.lagOk (m : StreamS) : Bool := m.excess.isEmpty || m.detached + m.excess.length ≤ 8

/-- The ordinary conditions of R224, room in the engine apart; a halt leaves the units below it to issue (R234, R240). -/
def StreamS.ordinary (m : StreamS) : Bool :=
  m.outst.length < min 1024 m.desc.ring && (m.halting.isNone || m.issued < m.haltAt) &&
    (if m.desc.isRead then m.st = .running && m.issued < m.total && m.heldMost true + m.inFlight < m.desc.ring
     else (m.st = .running || m.st = .closing) && m.issued < m.freed)

/-- A stream may issue (R224, R231). -/
def StreamS.eligible (m : StreamS) : Bool :=
  m.desc.dir < 2 && m.ordinary && (!m.desc.mcast || (m.lagOk && m.windowRoom))

/-- Units that the streams of a drawer took within its reservation in this window (R302). -/
def State.rtUsed (s : State) (g x : Nat) : Nat :=
  sumBy (s.streams.filter fun (_, m) => m.tile = g && m.ctx = x) fun (_, m) => m.rtTaken

/-- RT_UNITS of the drawer of a context. -/
def State.rtUnits (s : State) (jobId g x : Nat) : Nat :=
  match s.job jobId with
  | none => 0
  | some j => ((j.placed.find? fun d => d.tile = g && d.ctx = x).map (·.rtUnits)).getD 0

/-- A real-time stream within its drawer's reservation goes first (R224, R302). -/
def State.rtFirst (s : State) (m : StreamS) : Bool := m.desc.rt && s.rtUsed m.tile m.ctx < s.rtUnits m.jobId m.tile m.ctx

/-- The order of R224: a before b, for keys a < b at equal times. -/
def State.before (s : State) (a b : StreamS) : Bool :=
  let ra := s.rtFirst a; let rb := s.rtFirst b
  if ra ≠ rb then ra
  else (a.heldMost false + a.inFlight) * b.rateOf ≤ (b.heldMost false + b.inFlight) * a.rateOf

/-- The streams of an engine. -/
def State.engineStreams (s : State) (c e : Nat) : List (Nat × StreamS) :=
  s.streams.filter fun (k, _) => k / 128 = 4 * c + e

/-- The stream that an engine serves next. -/
def State.pickStream (s : State) (c e : Nat) : Option (Nat × StreamS) :=
  ((s.engineStreams c e).filter fun p => p.2.eligible).foldl (fun b p => match b with
    | none => some p
    | some q => if s.before q.2 p.2 then some q else some p) none

/-- Multicast receivers beyond the lag limit are detached (R231). -/
def State.detach (k : Nat) (s : State) : State :=
  match s.stream k with
  | none => s
  | some m =>
    let o := m.excess
    if o.isEmpty || 8 < m.detached + o.length then s
    else
      let recv := (m.recv.zip (List.range m.recv.length)).map fun (r, i) => if o.contains i then { r with attached := false } else r
      (s.putStream k { m with recv := recv }).bump Obj.detaches o.length

/-- One cycle of an engine's stalled multicasts: counts, and flags where a stall begins (R231, R240). -/
def State.stallCycle (c e : Nat) (s : State) : State :=
  ((s.engineStreams c e).filter fun p => p.2.desc.mcast && p.2.st = .running).foldl (fun s (k, m) =>
    let lag := m.ordinary && !m.lagOk
    let win := m.ordinary && !m.windowRoom
    let s := if win && m.lagOk then s.detach k else s
    match s.stream k with
    | none => s
    | some m' =>
      let s := s.putStream k { m' with stallLag := lag, stallWin := win }
      let s := if lag || win then s.bump Obj.sourceStallCycles 1 else s
      let s := if lag && !m.stallLag then (s.bump Obj.detachLimitStalls 1).setFlag Obj.streamEventFlags 2 else s
      if win && !m.stallWin then s.setFlag Obj.streamEventFlags 4 else s) s

/-- Requester of a stream unit's remote request. -/
def streamWho (k n : Nat) : Nat := (k + 1) * 2 ^ 33 + n

/-- Units outstanding in a cabinet. -/
def State.outstandingIn (s : State) (c : Nat) : Nat :=
  sumBy (s.streams.filter fun (k, _) => k / 512 = c) fun (_, m) => m.outst.length

/-- The unit's request goes out (R221, R222), over the bridges if another base die holds the place (R15, R41, R42): a
read's local bytes and a write's ring bytes are taken now, and a write's slot returns empty (R214). -/
def State.issueUnit (k : Nat) (m : StreamS) (pa : Nat) (s : State) : State :=
  let c := k / 512
  let n := m.issued
  let place := s.place pa
  let ring := s.read (m.desc.slot m.tile n) 256
  let data := if m.desc.isRead then (match place with
      | .host _ | .remote _ _ | .none => []
      | _ => s.read (pa % 2 ^ 48) 256)
    else ring
  let s := match place with
    | .remote dev addr => s.remoteAsk dev addr 256 m.desc.isRead (if m.desc.isRead then [] else ring) (streamWho k n)
    | _ => s
  let first := s.rtFirst m
  let s := match s.dieOf place with
    | some d => s.cross (if first then .realTime else .bulk) c d
    | none => s
  let m := { m with issued := n + 1, outst := m.outst ++ [⟨n, pa, data⟩], rtTaken := m.rtTaken + b2n first }
  let s := if m.desc.isRead then s.putStream k m else s.putWrite k m
  let now := s.outstandingIn c
  (s.high (Obj.outstandingHighWater + 256 * c) now).high (Obj.landingHighWater + 256 * c) (256 * now)

/-- A unit of a stream is translated: its address, or none where the stream stops there (R220, R222, R234, R237). A fault
is put to the memory service at once, and the stream halts at that unit; a Closing one waits there (log 126). -/
def State.translateUnit (k : Nat) (m : StreamS) (j : JobS) (n : Nat) (s : State) : Option Nat × State :=
  let c := k / 512
  match s.translate c j.asn (m.desc.va n) (!m.desc.isRead) with
  | .decode => (none, (s.bump Obj.translationErrors 1).streamError k 7)
  | .fault page _ =>
    if m.desc.rt then (none, s.putStream k { m with halting := some (3, 0), haltAt := n })
    else (none, (s.putStream k { m with halting := some (1, (m.desc.va n).toNat), haltAt := n }).raiseFault c j.asn page false)
  | .ok pa _ _ =>
    if s.place pa = .none then (none, s.streamError k 7) else (some pa, s.fill c j.asn (m.desc.va n).toNat)

/-- Units are translated in increasing n, up to 32 ahead of issue (R222). -/
def State.lookAhead (k : Nat) (j : JobS) : Nat → State → State
  | 0, s => s
  | f + 1, s => match s.stream k with
    | none => s
    | some m =>
      let last := min (m.issued + 32) (if m.st = .closing then m.freed else m.total)
      if m.halting.isSome || last ≤ m.looked || (m.st ≠ .running && m.st ≠ .closing) then s
      else match s.translateUnit k m j m.looked with
        | (none, s) => s
        | (some _, s) => State.lookAhead k j f (s.putStream k { m with looked := m.looked + 1 })

/-- The next unit of a stream is requested. Its page may have been evicted since it was translated ahead: then it is a
fault there (log 126). -/
def State.requestUnit (k : Nat) (m : StreamS) (s : State) : State :=
  match s.job m.jobId with
  | none => s
  | some j =>
    let s := s.lookAhead k j 33
    match s.stream k with
    | none => s
    | some m =>
      if m.looked ≤ m.issued || (m.st ≠ .running && m.st ≠ .closing) then s
      else match s.translateUnit k m j m.issued with
        | (none, s) => s
        | (some pa, s) =>
          if (match s.place pa with | .remote _ _ => decide (4096 ≤ s.net.reqs.length) | _ => false) then s
          else s.issueUnit k m pa

/-- UNIT_REQUEST (R221, R224, R231): one BCLK cycle of an engine. -/
def execUnitRequest (c : Cab) (engine : Fin 4) (s : State) : Res :=
  let used := sumBy (s.engineStreams c engine) fun (_, m) => m.outst.length
  if 1024 ≤ used || s.lost c || s.inCReset c then .next s
  else
    let s := s.stallCycle c engine
    match s.pickStream c engine with
    | none => .next s
    | some (k, _) =>
      let s := s.detach k
      match s.stream k with
      | none => .next s
      | some m => .next (s.requestUnit k m)

/-- RATE_WINDOW (R225, R302). -/
def execRateWindow (c : Cab) (s : State) : Res :=
  .next { s with streams := s.streams.map fun (k, m) =>
    if k / 512 = c.val then (k, { m with freedPrev := m.freedNow, freedNow := 0, rtTaken := 0 }) else (k, m) }

/-! ## Halts, resumption and closing (R233–R239) -/

/-- The position record (R235). -/
def StreamS.position (m : StreamS) (k cause va : Nat) : List Byte :=
  let pending := if m.desc.mcast then (m.recv.head?.map fun r => r.delivered - r.freed).getD 0
    else if m.desc.isRead then m.delivered - m.freed else m.freed - m.issued
  leBytes 2 (k % 512 + 512 * (k / 512)) ++ leBytes 1 cause ++
    leBytes 1 (m.desc.dir % 4 + 4 * b2n m.desc.rt + 8 * b2n m.desc.mcast) ++
    ((List.range 5).flatMap fun i => leBytes 4 (m.desc.index m.issued i)) ++ leBytes 4 m.issued ++ leBytes 4 pending ++
    leBytes 8 va ++ leBytes 4 m.descOff ++ leBytes 4 0

/-- The record is formed and the stream enters Halted, or Saved for a pre-emption (R234, R239). -/
def State.formRecord (k : Nat) (m : StreamS) (cause va : Nat) (s : State) : State :=
  let s := s.putStream k { m with halting := none, cause := cause, record := m.position k cause va, halts := m.halts + 1 }
  let s := s.setStreamSt k (if cause = 2 then .saved else .halted)
  if cause = 1 then s.bump Obj.pageFaultHalts 1
  else if cause = 3 then (s.bump Obj.cabinetLostHalts 1).setFlag Obj.streamEventFlags 8
  else s

/-- STREAM_RESUME (R236): the page of the unit is resident. A Closing write stream goes on writing what was freed. -/
def execStreamResume (c : Cab) (s' : StreamNo) (s : State) : Res :=
  let k := streamKey c s'
  match s.stream k with
  | none => .next s
  | some m => match s.job m.jobId with
    | none => .next s
    | some j =>
      let here := match s.translate c j.asn (m.desc.va m.issued) (!m.desc.isRead) with | .fault _ _ => false | _ => true
      if m.st = .halted && m.cause = 1 && here then .next ((s.bump Obj.resumes 1).startStream k)
      else if m.st = .closing && m.halting.map (·.1) = some 1 && here then .next (s.putStream k { m with halting := none, looked := m.issued })
      else .next s

/-- STREAM_PIN_COMPLETE (R237). -/
def execStreamPinComplete (c : Cab) (s' : StreamNo) (s : State) : Res :=
  let k := streamKey c s'
  match s.stream k with
  | none => .next s
  | some m => match s.job m.jobId with
    | none => .next s
    | some j =>
      let pinned := (s.mm.pins.filter (·.1 = k)).all fun (_, p) =>
        s.resident j.asn p && ((s.leafOf j.asn p).map fun e => ptePinned e).getD false
      if m.st = .opening && m.desc.rt && pinned then .next (s.startStream k) else .next s

/-- A stream's pins are released: pages that nothing else pins become movable (R237, R266). -/
def State.unpin (k : Nat) (s : State) : State :=
  match s.stream k with
  | none => s
  | some m =>
    let mine := (s.mm.pins.filter (·.1 = k)).map (·.2)
    let rest := s.mm.pins.filter (·.1 ≠ k)
    let s := { s with mm := { s.mm with pins := rest } }
    match s.job m.jobId with
    | none => s
    | some j => mine.foldl (fun s p =>
        let kept := rest.any fun (i, q) => q = p && (s.stream i).any fun n => n.jobId = m.jobId
        match j.segOf p with
        | some g => if kept || g.pinned then s else s.setPinned j.asn p g.large false
        | none => s) s

/-- STREAM_CLOSE_COMPLETE (R239): the last outstanding unit has settled and freed write units are written. -/
def execStreamCloseComplete (c : Cab) (s' : StreamNo) (s : State) : Res :=
  let k := streamKey c s'
  match s.stream k with
  | none => .next s
  | some m =>
    if m.st = .closing && m.outst.isEmpty && (m.desc.isRead || m.issued = m.freed) then
      let s := (s.unpin k).dropStream k
      match m.reopen with
      | none => .next s
      | some (g, x, off) => .next (s.openStream g x k off)
    else .next s

end Sys2Proof.Machine
end

