-- ==== Sys2Proof/Machine/FabricOps.lean ====
section
/-! DEFINITION. The programmable fabric as its other users see it (R314, R315, R339, R359–R362): frame addresses and
positions, regions and what is in force in them, and the memory blocks' queue controllers (R323–R327). -/

namespace Sys2Proof.Machine

/-! ## Frame addresses (R360–R362) -/

abbrev farMinor (f : Nat) : Nat := bits f 0 7
abbrev farCol (f : Nat) : Nat := bits f 7 10
abbrev farRow (f : Nat) : Nat := bits f 17 5
abbrev farType (f : Nat) : Nat := bits f 22 3
abbrev farCab (f : Nat) : Nat := bits f 25 3

/-- A frame address from its fields. -/
def farOf (cab ty row col minor : Nat) : Nat := minor + 2 ^ 7 * col + 2 ^ 17 * row + 2 ^ 22 * ty + 2 ^ 25 * cab

/-- Frames of a column segment, by block type. -/
def typeMinors (ty : Nat) : Nat := [12, 2, 112, 2, 16, 4].getD ty 0
/-- Columns of a block type. -/
def typeCols (ty : Nat) : Nat := [400, 64, 64, 15, 3, 1].getD ty 0
/-- Rows of a block type. -/
def typeRows (ty : Nat) : Nat := [16, 16, 16, 16, 1, 16].getD ty 0

/-- A FAR is valid (R360, R361). -/
def farValid (f : Nat) : Bool :=
  f < 2 ^ 28 && farCol f < typeCols (farType f) && farRow f < typeRows (farType f) && farMinor f < typeMinors (farType f) &&
    !(farType f = 4 && farCol f = 1 && farCab f ≠ 0 && farCab f ≠ 7)

/-- The next FAR (R366): minor, then row, then column. -/
def farNext (f : Nat) : Nat :=
  let ty := farType f
  if farMinor f + 1 < typeMinors ty then f + 1
  else
    let f := f - farMinor f
    if farRow f + 1 < typeRows ty then f + 2 ^ 17
    else f - 2 ^ 17 * farRow f + 2 ^ 7

/-- Position of a logic column. -/
def logicPos (l : Nat) : Nat :=
  let r := l % 25
  30 * (l / 25) + (if r ≤ 5 then r else if r ≤ 11 then r + 1 else if r ≤ 17 then r + 3 else if r ≤ 23 then r + 4 else 29)

/-- Position of a memory column. -/
def memoryPos (m : Nat) : Nat := 30 * (m / 4) + 6 + 7 * (m % 4)

/-- Position of a frame (R362). -/
def farPos (f : Nat) : Nat :=
  match farType f with
  | 0 => logicPos (farCol f)
  | 1 | 2 => memoryPos (farCol f)
  | 3 => 30 * farCol f + 14
  | 4 => [0, 479, 29].getD (farCol f) 0
  | _ => 464

/-! ## Frames (R359) -/

/-- A cleared frame. -/
def zeroFrame : List Byte := List.replicate 384 0

def State.frame (s : State) (far : Nat) : List Byte := s.fab.frames.get zeroFrame far

/-- Write a frame; a zero frame is not listed. -/
def State.putFrame (far : Nat) (b : List Byte) (s : State) : State :=
  { s with fab := { s.fab with frames := if b = zeroFrame then s.fab.frames.del far else s.fab.frames.put far b } }

/-- Clear the frames that a condition on their address picks. -/
def State.clearFrames (p : Nat → Bool) (s : State) : State :=
  { s with fab := { s.fab with frames := s.fab.frames.filter fun e => !p e.1 } }

/-! ## Regions (R339, R374, R375) -/

abbrev Region.undefined : Nat := 0
abbrev Region.empty : Nat := 1
abbrev Region.loading : Nat := 2
abbrev Region.starting : Nat := 3
abbrev Region.running : Nat := 4
abbrev Region.clearing : Nat := 5
abbrev Region.lost : Nat := 6

def RegionS.new : RegionS := ⟨0, [], [], 0, 0, false, none, none, 0, [], [], []⟩

/-- Region r = 8 × cabinet + number. -/
def State.region (s : State) (r : Nat) : RegionS := s.fab.regions.get RegionS.new r
def State.setRegion (r : Nat) (v : RegionS) (s : State) : State :=
  { s with fab := { s.fab with regions := s.fab.regions.put r v } }
def State.setWhole (v : RegionS) (s : State) : State := { s with fab := { s.fab with whole := v } }

/-- Keys of a region's map entry and state. -/
def mapKey (r : Nat) : Nat := Obj.regionMap + 256 * (r / 8) + r % 8
def regKey (r : Nat) : Nat := Obj.regionState + 256 * (r / 8) + r % 8

def State.regSt (s : State) (r : Nat) : Nat := s.num (regKey r)
def State.setRegSt (r v : Nat) (s : State) : State := s.setState (regKey r) v

/-- The region is defined; its first and last position. -/
def State.regDefined (s : State) (r : Nat) : Bool := (s.num (mapKey r)).testBit 31
def State.regFirst (s : State) (r : Nat) : Nat := bits (s.num (mapKey r)) 0 9
def State.regLast (s : State) (r : Nat) : Nat := bits (s.num (mapKey r)) 16 9

/-- The region that owns a position of a cabinet; none for the static part and position 464. -/
def State.regionAt (s : State) (c p : Nat) : Option Nat :=
  ((List.range 8).map (8 * c + ·)).find? fun r => s.regDefined r && s.regFirst r ≤ p && p ≤ s.regLast r && p ≠ 464

/-- The logic at a position is running: its region, or the full configuration for the static part (R375). -/
def State.runsAt (s : State) (c p : Nat) : Bool :=
  match s.regionAt c p with
  | some r => s.regSt r = Region.running
  | none => s.num Obj.fabricState = 2 && !s.lost c && !s.inCReset c && !s.fab.bare.contains c

/-- A start-up step is in force at a position (R374, R376): 1 OUTPUTS, 2 GSR, 3 WE. -/
def State.stepAt (s : State) (c p code : Nat) : Bool :=
  !s.lost c && !s.inCReset c &&
    (match s.regionAt c p with
     | some r => (s.region r).steps.contains code
     | none => s.fab.whole.steps.contains code && !s.fab.bare.contains c)

/-- Position of a memory block (R315). -/
def blockPos (b : Nat) : Nat := memoryPos (b / 8 / 16)
/-- Position and row of a tile's fabric port (R315). -/
def portPos (g : Nat) : Nat := 30 * (g % 150 % 15) + 14
def portRow (g : Nat) : Nat := 3 + g % 150 / 15
/-- Position of a target-port bridge (R315). -/
abbrev bridgePos : Nat := 29

/-! ## What frames set (log 28) -/

/-- Bit i of a frame (R359). -/
def frameBit (b : List Byte) (i : Nat) : Bool := (b.getD (i / 8) 0).toNat.testBit (i % 8)

/-- Bit i of the frames of a column segment. -/
def State.segBit (s : State) (c ty row col i : Nat) : Bool :=
  let i := i % (3072 * typeMinors ty)
  frameBit (s.frame (farOf c ty row col (i / 3072))) (i % 3072)

/-- A number of w bits. -/
def natOf (w : Nat) (f : Nat → Bool) : Nat := (List.range w).foldl (fun v i => v + b2n (f i) * 2 ^ i) 0

/-- The clock network that a code chooses: n + 1 for network n; none otherwise, as in a cleared frame (R317, R319, log 28). -/
def netOf (code : Nat) : Option Nat := if 1 ≤ code && code ≤ 32 then some (code - 1) else none

/-- A stepped network is stopped but for its one period at a step's start (R329, R387, R404). -/
def State.netStopped (s : State) (c n : Nat) : Bool := (s.num (Obj.stepNetworks + c)).testBit n && !s.lock.evaluating

/-- The network that clocks some hardened port, if one does, is stopped. -/
def State.clockStopped (s : State) (c : Nat) (net : Option Nat) : Bool :=
  s.num (Obj.stepNetworks + c) ≠ 0 && (match net with
    | some n => s.netStopped c n
    | none => false)

/-! ## Memory blocks (R323–R327) -/

/-- A block's settings (R321, R323–R325). -/
structure BlockSetting where
  shape  : Nat
  mode   : Nat
  ecc    : Bool
  /-- output registers -/
  regA   : Bool
  regB   : Bool
  clockA : Option Nat
  clockB : Option Nat
  /-- directions in true dual-port mode -/
  readsA  : Bool
  writesA : Bool
  readsB  : Bool
  writesB : Bool
  af     : Nat
  ae     : Nat
deriving DecidableEq, Repr

/-- The settings of a block, from its segment's memory-configuration frames; every bit of cleared frames is 0 (R319). -/
def State.blockSetting (s : State) (c b : Nat) : BlockSetting :=
  let f (i : Nat) : Bool := s.segBit c 1 (b / 8 % 16) (b / 8 / 16) (Config.blockBit (b % 8) i)
  let num (lo w : Nat) : Nat := natOf w fun i => f (lo + i)
  { shape := num 0 2, mode := num 2 3, ecc := f 5, regA := f 6, regB := f 7, clockA := netOf (num 8 6), clockB := netOf (num 14 6)
    readsA := f 20, writesA := f 21, readsB := f 22, writesB := f 23, af := num 24 13, ae := num 37 13 }

/-- Queue depth and entry width of a shape. -/
def shapeDepth (sh : Nat) : Nat := 512 * 2 ^ sh
def shapeWidth (sh : Nat) : Nat := 80 / 2 ^ sh

/-- An entry with ECC: of every 40 bits, 32 data bits and what is stored beside them (R324). -/
def eccForm (e : BitVec 80) : BitVec 80 :=
  let half (v : Nat) : Nat := v % 2 ^ 32 + 2 ^ 32 * (Config.checkBits (BitVec.ofNat 32 v)).toNat
  BitVec.ofNat 80 (half (e.toNat % 2 ^ 40) + 2 ^ 40 * half (e.toNat / 2 ^ 40))

/-- An entry as a block stores it. -/
def BlockSetting.stored (b : BlockSetting) (e : BitVec 80) : BitVec 80 :=
  let e := if b.ecc && b.shape ≤ 1 then eccForm e else e
  BitVec.ofNat 80 (e.toNat % 2 ^ shapeWidth b.shape)

def QueueS.new : QueueS := ⟨[], 0, false, false, false, [], [], false, false, false⟩

def State.queue (s : State) (c b : Nat) : QueueS := s.fab.queues.get QueueS.new (8192 * c + b)
def State.setQueueS (c b : Nat) (q : QueueS) (s : State) : State :=
  { s with fab := { s.fab with queues := s.fab.queues.put (8192 * c + b) q } }

/-- The block is a queue: mode 3 or 4. -/
def State.isQueue (s : State) (c b : Nat) : Bool := (s.blockSetting c b).mode = 3 || (s.blockSetting c b).mode = 4

/-- The write side, the read side is held in reset, by RST or by its region (R327, R374). -/
def State.heldWrite (s : State) (c b : Nat) : Bool := (s.queue c b).rst || (s.queue c b).heldW || !s.stepAt c (blockPos b) 3
def State.heldRead (s : State) (c b : Nat) : Bool := (s.queue c b).rst || (s.queue c b).heldR || !s.stepAt c (blockPos b) 3

/-- Count of each side: the write side's is never below the true count, the read side's never above it (R326). -/
def QueueS.writeCount (k : QueueS) : Nat := k.entries.length + k.lateReads.length
def QueueS.readCount (k : QueueS) : Nat := k.entries.length - k.lateWrites.length

def State.queueFull (s : State) (c b : Nat) : Bool :=
  s.heldWrite c b || shapeDepth (s.blockSetting c b).shape ≤ (s.queue c b).writeCount
def State.queueEmpty (s : State) (c b : Nat) : Bool := s.heldRead c b || (s.queue c b).readCount = 0

/-- AF and AE of a queue, as its frames set them: 1 to D and 0 to D − 1 (R325). -/
def State.queueMarks (s : State) (c b : Nat) : Nat × Nat :=
  let t := s.blockSetting c b
  let d := shapeDepth t.shape
  (max 1 (min d t.af), min (d - 1) t.ae)

/-- ALMOST_FULL and ALMOST_EMPTY, which fabric logic sees (R325, R327). -/
def State.queueAlmostFull (s : State) (c b : Nat) : Bool := s.heldWrite c b || (s.queueMarks c b).1 ≤ (s.queue c b).writeCount
def State.queueAlmostEmpty (s : State) (c b : Nat) : Bool := s.heldRead c b || (s.queue c b).readCount ≤ (s.queueMarks c b).2

/-- What a side has not seen yet after one of its edges: the `seen` oldest are seen now, and what has waited for four edges
(R326, log 92). -/
def stillLate (l : List Nat) (seen : Nat) : List Nat := ((l.drop seen).map (· + 1)).filter (· < 4)

/-- The clock of a queue's write side or read side is stopped. -/
def State.sideStopped (s : State) (c b : Nat) (readSide : Bool) : Bool :=
  let t := s.blockSetting c b
  s.clockStopped c (if readSide && t.mode = 4 then t.clockB else t.clockA)

/-- A channel's engine is the write side (DIR 0) or the read side (DIR 1) of a block's group (R346). -/
def State.engineOn (s : State) (c b dir : Nat) : Bool :=
  s.dma.chans.any fun (k, h) => k / 32 = c && (match h.desc with
    | some d => d.queue = b / 8 && d.dir = dir && h.st ≠ DmaSt.idle
    | none => false)

/-- The settings of a queue in use: ECC is off in a group that serves a channel (R346). -/
def State.queueSetting (s : State) (c b : Nat) : BlockSetting :=
  let t := s.blockSetting c b
  { t with ecc := t.ecc && !s.engineOn c b 0 && !s.engineOn c b 1 }

/-- An edge of a queue's write side, of its read side, or of both, each judged by the flags before it (R325, R326). -/
def State.queueEdge (c b : Nat) (write : Option (BitVec 80)) (read : Bool) (seen : Nat) (s : State) : State :=
  let full := s.queueFull c b
  let empty := s.queueEmpty c b
  let t := s.queueSetting c b
  let write := if s.heldWrite c b then none else write
  let read := read && !s.heldRead c b
  let k := s.queue c b
  let excess := write.isSome && full && !k.overflow
  let under := read && empty && !k.underflow
  let k := { k with
    overflow := k.overflow || (write.isSome && full)
    underflow := k.underflow || (read && empty)
    lateReads := if write.isSome then stillLate k.lateReads seen else k.lateReads
    lateWrites := if read then stillLate k.lateWrites seen else k.lateWrites }
  let dual := t.mode = 4
  let k := if read && !empty then
      { k with data := k.entries.headD 0, entries := k.entries.tail, err := false
               lateReads := if dual then k.lateReads ++ [0] else [] }
    else k
  let k := match write with
    | some e =>
      if full then k
      else { k with entries := k.entries ++ [t.stored e], lateWrites := if dual then k.lateWrites ++ [0] else [] }
    | none => k
  let s := s.setQueueS c b k
  let s := if excess then (s.bump Obj.queueOverflows 1).setFlag Obj.fabricFlags 1 else s
  if under then (s.bump Obj.queueUnderflows 1).setFlag Obj.fabricFlags 2 else s

/-- Empty the queues and the memory blocks, and clear the flip-flops and cells, at places that a condition picks by cabinet
and position: their region entered Loading, or was reset (R374). -/
def State.clearLogic (p : Nat → Nat → Bool) (s : State) : State :=
  let at' (c cluster : Nat) : Bool := p c (logicPos (cluster % 10000 / 25))
  { s with fab := { s.fab with
    queues := s.fab.queues.filter fun e => !p (e.1 / 8192) (blockPos (e.1 % 8192))
    blocks := s.fab.blocks.filter fun e => !p (e.1 / 8192) (blockPos (e.1 % 8192))
    ffs := s.fab.ffs.filter fun n => !at' (n / 5120000) (n % 5120000 / 32)
    cells := s.fab.cells.filter fun e => !at' (e.1 / 2560000) (e.1 % 2560000 / 16) } }

/-! ## Queue groups (R346) -/

/-- A queue group can serve a channel: eight blocks in shape 0 and mode 4. -/
def State.groupConfigured (s : State) (c q : Nat) : Bool :=
  (List.range 8).all fun b =>
    (s.blockSetting c (8 * q + b)).shape = 0 && (s.blockSetting c (8 * q + b)).mode = 4

/-- Beats that the group holds: block 0's controller counts for the whole group. -/
def State.groupCount (s : State) (c q : Nat) : Nat := (s.queue c (8 * q)).entries.length

/-- The engine's edge on its side of a group: it has seen what the other side did (log 92). -/
def State.engineSees (c b : Nat) (s : State) : State :=
  s.setQueueS c b { s.queue c b with lateReads := [], lateWrites := [] }

/-- Take a beat from the group; a block that has fewer entries than block 0 gives what it presented last (R325, log 30). -/
def State.groupPop (c q : Nat) (s : State) : List Byte × State :=
  (List.range 8).foldl (fun (l, s) b =>
    let k := s.queue c (8 * q + b)
    let e := k.entries.headD k.data
    (l ++ leBytes 8 (e.toNat % 2 ^ 64), (s.engineSees c (8 * q + b)).queueEdge c (8 * q + b) none true 0)) ([], s)

/-- Put a beat into the group. -/
def State.groupPush (c q : Nat) (d : List Byte) (s : State) : State :=
  (List.range 8).foldl (fun s b =>
    (s.engineSees c (8 * q + b)).queueEdge c (8 * q + b) (some (BitVec.ofNat 80 (field d (8 * b) 8))) false 0) s

end Sys2Proof.Machine
end

