-- ==== Sys2Proof/Machine/Service.lean ====
section
/-! DEFINITION. The dictionary service towards its masters (R79–R97): answers and events on their way out, the
transports' room, and the checks every write passes (R44–R50, R99). -/

namespace Sys2Proof.Machine

/-! ## Transports -/

/-- A master may use a transport (R98). -/
def masterUses : Master → Transport → Bool
  | .host, .pcie => true
  | .node n, .fna | .node n, .fnb => n.toNat ≠ 0
  | .peer, .vc2 => true
  | .jtag, .jtag => true
  | _, _ => false

def canPortOf : Transport → CanPort
  | .fnb => .fnb
  | _ => .fna

/-- A field-network port sends: ErrorActive or ErrorPassive (R93, R94). -/
def State.canSends (s : State) (p : CanPort) : Bool :=
  let v := s.num (match p with | .fna => Obj.fnaState | .fnb => Obj.fnbState)
  (v = 1 || v = 2) && !s.blockHeld (match p with | .fna => 0x38 | .fnb => 0x39)

/-- The master record's ring registers of the host (R95). -/
abbrev hostRec (k : Nat) : Nat := mrKey k 1

/-- The response ring has a free slot and the link carries it (R95, R471). -/
def State.rspRoom (s : State) : Bool :=
  let n := s.num (hostRec Obj.ringSlots)
  n ≠ 0 && s.hostUp && (s.num (hostRec Obj.rspTail) + 1) % n ≠ s.num (hostRec Obj.rspHead)

/-- A segment can go out now. -/
def State.canGo (s : State) (o : OutSeg) : Bool :=
  match o.tr with
  | .pcie => s.rspRoom
  | .fna | .fnb => s.canSends o.port
  | .vc2 => ((s.dict.queues.get MasterQ.empty o.master).vc2Dev).isSome
  | .jtag => true

/-- Send one segment (R90, R91, R95, R96, R97). -/
def State.sendSeg (o : OutSeg) (s : State) : State :=
  match o.tr with
  | .pcie =>
    let tail := s.num (hostRec Obj.rspTail)
    let s := s.emit (.hostWrite (s.num (hostRec Obj.rspRingBase) + 256 * tail) o.bytes)
    let s := s.setNum (hostRec Obj.rspTail) ((tail + 1) % s.num (hostRec Obj.ringSlots))
    s.signal (s.num (hostRec Obj.oapMsixVector))
  | .fna | .fnb =>
    s.emit (.can o.port (canId (if o.isEvent then 6 else 5) (o.master - 0x40) (s.num Obj.nodeId)) (canPad o.bytes))
  | .vc2 => s.sendFlit 2 false (((s.dict.queues.get MasterQ.empty o.master).vc2Dev).getD 0) o.bytes
  | .jtag => { s with dict := { s.dict with jtagOut := s.dict.jtagOut ++ [o.bytes] } }

/-- Segments held go out as their transport has room, in order. -/
def State.flushHeld (s : State) : State :=
  s.dict.held.foldl (fun s o =>
    if s.canGo o && !(s.dict.held.any fun p => p.tr = o.tr && p.port = o.port) then s.sendSeg o
    else { s with dict := { s.dict with held := s.dict.held ++ [o] } })
    { s with dict := { s.dict with held := [] } }

/-- Put segments on a transport. -/
def State.post (l : List OutSeg) (s : State) : State :=
  ({ s with dict := { s.dict with held := s.dict.held ++ l } }).flushHeld

/-- Send a message of the device to a master. -/
def State.message (id : Nat) (tr : Transport) (isEvent : Bool) (segs : List (List Byte)) (s : State) : State :=
  s.post (segs.map fun b => ⟨id, tr, canPortOf tr, isEvent, b⟩)

/-- Answer a request (R80). -/
def State.answer (m : Master) (tr : Transport) (type flags seq k : Nat) (pay : List Byte) (s : State) : State :=
  s.message (masterId m) tr false (segments tr type flags seq k pay)

/-- Answer with ERROR (R84). -/
def State.answerErr (m : Master) (tr : Transport) (seq k code detail : Nat) (s : State) : State :=
  s.answer m tr Oap.error 0 seq k (leBytes 2 code ++ leBytes 2 detail)

/-- The transport, and port, of a master's events (R67, R93). -/
def State.eventRoute (s : State) (id : Nat) : Transport :=
  if id = 1 then .pcie
  else if id = 0xC0 then .vc2
  else if id = 0xFE then .jtag
  else
    let p := match s.num (mrKey Obj.eventPort id) with
      | 1 => CanPort.fna
      | 2 => .fnb
      | _ => (s.dict.queues.get MasterQ.empty id).lastPort
    match p with | .fna => .fna | .fnb => .fnb

/-- EVENT_DELIVERY (R67, R83, R93, R95): the master's transport has room; an overflow event goes before any other
if events were dropped. -/
def execEventDelivery (m : Master) (s : State) : Res :=
  let id := masterId m
  let q := s.dict.queues.get MasterQ.empty id
  let tr := s.eventRoute id
  let room := s.canGo ⟨id, tr, canPortOf tr, true, []⟩ && !(s.dict.held.any fun o => o.tr = tr && o.port = canPortOf tr)
  let put (q : MasterQ) (s : State) : State := { s with dict := { s.dict with queues := s.dict.queues.put id q } }
  let send (k : Nat) (pay : List Byte) (s : State) : State :=
    s.message id tr true (segments tr Oap.event 0 (q.sent % 65536) k pay)
  if !room || s.rst.serve = .none then .next s
  else if q.dropped ≠ 0 then
    let pay := leBytes 2 (min q.dropped 65535) ++ leBytes 2 0 ++ leBytes 8 q.firstDrop ++
      leBytes 4 (min q.dropped 0xFFFFFFFF)
    .next (send 0xFFFFFF pay (put { q with dropped := 0, sent := q.sent + 1 } s))
  else match q.q with
    | [] => .next s
    | e :: r =>
      let v := match rowOf e.key with | some row => encodeVal row.ty e.val | none => e.val.toBytes
      let pay := leBytes 2 e.count ++ leBytes 2 e.bits ++ leBytes 8 e.time ++ v
      .next (send e.key pay (put { q with q := r, sent := q.sent + 1 } s))

/-! ## Taking requests (R84, R87, R97, R489) -/

/-- The segment ends an answer: it is no event, and no other segment follows it (R79, R80). -/
def endsAnswer (b : List Byte) : Bool := bits (field b 0 1) 4 4 ≠ Oap.event && !(field b 1 1).testBit 1

/-- Answers of a master on a transport not yet sent, those that wait for a JTAG capture (R97) among them, and claims of an
open window. -/
def State.outstanding (s : State) (m : Master) (tr : Transport) : Nat :=
  (s.dict.held.filter fun o => o.master = masterId m && o.tr = tr && endsAnswer o.bytes).length +
    (if tr = .jtag then (s.dict.jtagOut.filter endsAnswer).length else 0) +
    (match s.own.window with
     | none => 0
     | some (_, l) => (l.filter fun c => c.id = masterId m && c.tr = tr).length)

/-- The port of a master's newest message (R93). -/
def State.noteClient (m : Master) (tr : Transport) (s : State) : State :=
  match m with
  | .node _ =>
    let q := s.dict.queues.get MasterQ.empty (masterId m)
    { s with dict := { s.dict with queues := s.dict.queues.put (masterId m) { q with lastPort := canPortOf tr } } }
  | _ => s

/-- A request reaches the dictionary service: dropped while it does not serve, or where the recovery service does not
serve the master (R506), refused to JTAG while DEBUG_EN is low and beyond 16 outstanding, else served. -/
def State.request (m : Master) (tr : Transport) (t seq k : Nat) (f : State → State) (s : State) : State :=
  let s := s.upto t
  let off := match tr with
    | .pcie => s.num (hostRec Obj.ringSlots) = 0
    | .fna => s.num Obj.fnaState = 0 || s.num Obj.fnaState = 4
    | .fnb => s.num Obj.fnbState = 0 || s.num Obj.fnbState = 4
    | _ => false
  if !masterUses m tr || s.rst.serve = .none || off || (s.rst.serve = .recovery && tr ≠ .pcie && tr ≠ .jtag) then s
  else
    let s := s.noteClient m tr
    if tr = .jtag && s.num Obj.debugEnabled = 0 then s.answerErr m tr seq k Err.debugDisabled 0
    else if 16 ≤ s.outstanding m tr then s.answerErr m tr seq k Err.tooMany 0
    else f s

/-- A request that only the firmware with its store loaded serves (R489). -/
def State.fullRequest (m : Master) (tr : Transport) (t seq k : Nat) (f : State → State) (s : State) : State :=
  s.request m tr t seq k fun s =>
    if s.rst.serve = .full then f s else s.answerErr m tr seq k Err.refusedInState 0

/-! ## Checks (R25, R44–R48, R99, R489) -/

/-- Ranges that the dictionary serves at a level of R489 (R24). -/
def servesIdx (v : Serve) (idx : Nat) : Bool :=
  match v with
  | .none => false
  | .full => true
  | .boot => idx / 256 = 0x10 || idx / 256 = 0x20
  | .recovery => idx / 256 = 0x10 || idx / 256 = 0x20 || idx / 4096 = 0xA

/-- A master record's index; the claimant. -/
def recordOf (k : Nat) : Option Nat :=
  let i := k / 256
  if 0x1101 ≤ i && i ≤ 0x11FE && validClaimant (i - 0x1100) then some (i - 0x1100) else none

/-- The object and subentry exist (R44). -/
def existsErr (k : Nat) : Option Nat :=
  if !idxExists (k / 256) then some Err.noObject
  else if (rowOf k).isNone then some Err.noSubindex
  else none

/-- The cabinet on whose rail a writable subentry's controllers lie (R25). -/
def State.cabinetOf (s : State) (k : Nat) : Option Nat :=
  let i := k / 256
  if 0x3000 ≤ i && i < 0x3800 then some ((i - 0x3000) / 0x100)
  else if 0x6060 ≤ i && i < 0x6068 then some (i - 0x6060)
  else if 0x7180 ≤ i && i < 0x7200 then some ((i - 0x7180) / 16)
  else if i = 0x6030 then some ((k % 256 - 2) - (k % 256 - 2) / 8)
  else if i = 0x6112 then some (s.num Obj.dmaSelectCabinet)
  else none

/-- The write is made by the owner, or by a master to its own record (R99); the recovery service asks for no ownership
(R506). -/
def State.mayWrite (s : State) (id k : Nat) : Bool :=
  s.num Obj.owner = id || recordOf k = some id || s.rst.serve = .recovery

/-- A command object of a block that is in reset or has not left the last one (R49, R479, R489). -/
def State.blockReset (s : State) (k : Nat) : Bool :=
  let i := k / 256
  let c := s.num Obj.dmaSelectCabinet
  if i = 0x6112 then s.blockHeld (8 + c) || s.inCReset c || s.rst.exitDone < 7
  else if (i = 0x6202 && 4 ≤ k % 256) || k = Obj.autoloadStore || k = Obj.windowRestart then s.blockHeld 0x20 || s.rst.exitDone < 8
  else if i = 0x7001 && 6 ≤ k % 256 then s.blockHeld 0x30
  else false

/-- The checks of a write before its value is looked at, in order: existence, rights, ownership, lost cabinet. -/
def State.rightsErr (s : State) (id k : Nat) : Option Nat :=
  if !servesIdx s.rst.serve (k / 256) || s.rst.serve = .boot then some Err.refusedInState
  else match existsErr k, rowOf k with
  | some e, _ => some e
  | none, none => some Err.noSubindex
  | none, some r =>
    if r.acc = .const || r.acc = .ro then some Err.writeDenied
    else if (match recordOf k with | some c => c ≠ 1 && 0x0A ≤ k % 256 && k % 256 ≤ 0x11 | none => false) then
      some Err.writeDenied
    else if !s.mayWrite id k then some Err.notOwner
    else if (match s.cabinetOf k with | some c => s.lost c | none => false) then some Err.cabinetLost
    else if s.blockReset k then some Err.refusedInState
    else none

/-- The checks of a write, ending with its value (R46, R81). -/
def State.checkVal (s : State) (id k : Nat) (bytes : List Byte) : Except Nat (Row × Val) :=
  match s.rightsErr id k, rowOf k with
  | some e, _ => .error e
  | none, none => .error Err.noObject
  | none, some r => match decodeVal r.ty bytes with
    | none => .error Err.badLength
    | some v => if s.allowed r k v then .ok (r, v) else .error Err.outOfRange

/-! ## One write (R46, R47, R64, R72) -/

/-- The stored effect of an admitted write: a W1C clear, nothing for a command, else the new value. -/
def State.applyVal (r : Row) (k : Nat) (v : Val) (sets : Nat) (s : State) : State :=
  match r.acc with
  | .w1c => s.clearFlag k v.toNat sets
  | .wo => s
  | _ => s.setVal k v

/-- What writing an object does beyond its value: the object's own chapter, which may refuse the write. -/
abbrev Handler := Val → State → Except Nat State

/-- No effect beyond the value. -/
def Handler.plain : Handler := fun _ s => .ok s

/-- Carry out one admitted write: value, effect, record. -/
def State.doWrite (k : Nat) (r : Row) (v : Val) (sets : Nat) (h : Handler) (s : State) : Except Nat State :=
  match h v (s.applyVal r k v sets) with
  | .error e => .error e
  | .ok s => .ok (if r.pers && r.acc = .rwp then s.persist k else s)

/-- Record a dropped linear-map write (R54). -/
def State.dropLinear (k code : Nat) (s : State) : State :=
  ((s.setNum Obj.lastErrorCode code).setNum Obj.lastErrorObject k).bump Obj.droppedWrites 1

/-- A write that its chapter refuses; refused reset requests count (R482). -/
def State.noteRefusal (k : Nat) (s : State) : State :=
  if k = Obj.softwareReset then s.bump Obj.resetRequestsRefused 1 else s

/-- Serve a write from a master: checked, carried out and answered. -/
def State.serveWrite (m : Master) (tr : Transport) (seq k : Nat) (bytes : List Byte) (sets : Nat) (h : Handler)
    (s : State) : State :=
  match s.checkVal (masterId m) k bytes with
  | .error e => s.answerErr m tr seq k e 0
  | .ok (r, v) => match s.doWrite k r v sets h with
    | .error e => (s.noteRefusal k).answerErr m tr seq k e 0
    | .ok s => s.answer m tr Oap.write 0 seq k []

/-- A write through the linear map by the host, of a value's bytes in its type's size. -/
def State.linearWrite (k : Nat) (bytes : List Byte) (sets : Nat) (h : Handler) (s : State) : State :=
  match s.rightsErr 1 k, rowOf k with
  | some e, _ => s.dropLinear k e
  | none, none => s.dropLinear k Err.noObject
  | none, some r =>
    if !r.ty.fixed then s.dropLinear k Err.badLength
    else match decodeVal r.ty bytes with
      | none => s.dropLinear k Err.outOfRange
      | some v =>
        if !s.allowed r k v then s.dropLinear k Err.outOfRange
        else match s.doWrite k r v sets h with
          | .error e => (s.noteRefusal k).dropLinear k e
          | .ok s => s

/-- A write of an object that has its own row (R46, R53): as an OAP WRITE or through the linear map. -/
def serveOwn (q : Req) (k : Nat) (bytes : List Byte) (h : Handler) (s : State) : State :=
  match q.via with
  | .oap m tr seq => s.request m tr q.t seq.toNat k fun s => s.serveWrite m tr seq.toNat k bytes 0 h
  | .linear =>
    let s := s.upto q.t
    if s.rst.serve = .none then s else s.linearWrite k bytes 0 h

/-! ## The store's commands (R72, R78) -/

/-- StoreSync: the event follows once every record pending now is durable. -/
def writeStoreSync : Handler := fun _ s => .ok { s with store := { s.store with syncs := s.store.syncs ++ [s.store.queue.length] } }

/-- ForgetPersisted: one group record setting DEFAULT for every RWP object. -/
def writeForget : Handler := fun _ s => .ok (s.queueRecord (groupRec (rwpKeys.map fun k => (k, true, []))))

/-- STORE_SYNC (R72). -/
def execStoreSync (q : Req) (val : List Byte) (s : State) : Res := .next (serveOwn q Obj.storeSync val writeStoreSync s)

/-- FORGET_PERSISTED (R78). -/
def execForgetPersisted (q : Req) (val : List Byte) (s : State) : Res :=
  .next (serveOwn q Obj.forgetPersisted val writeForget s)

end Sys2Proof.Machine
end

