-- ==== Sys2Proof/Machine/FabricDma.lean ====
section
/-! DEFINITION. The fabric DMA engine (R345–R358): descriptors, bursts, the arbitration of beats, completion and
arrival, bus errors, resume and abort. A burst's beats enter the channel buffer when it starts (DIR 1) and leave it for
the queue when it ends (DIR 0); the cycles between are timing (log 30). -/

namespace Sys2Proof.Machine

/-! ## Channels -/

/-- Codes of R356. -/
def DmaSt.code : DmaSt → Nat
  | .idle => 0 | .fetching => 1 | .running => 2 | .halted => 3 | .aborting => 4 | .lost => 5

def DmaChan.new : DmaChan :=
  ⟨.idle, 0, none, 0, 0, 0, [], [], [], false, false, false, 0, 0, 0, 0, 0⟩

/-- Channel k = 32 × cabinet + channel. -/
def State.dmaCh (s : State) (k : Nat) : DmaChan := s.dma.chans.get DmaChan.new k
def State.setDma (k : Nat) (h : DmaChan) (s : State) : State :=
  { s with dma := { s.dma with chans := s.dma.chans.put k h } }

/-- The selected channel. -/
def State.selChan (s : State) : Nat := 32 * s.num Obj.dmaSelectCabinet + s.num Obj.selectChannel

/-- A channel changes state, with the event of ChannelState while it is selected (R66, R356). -/
def State.setChanSt (k : Nat) (st : DmaSt) (s : State) : State :=
  if (s.dmaCh k).st = st then s
  else
    let s := s.setDma k { s.dmaCh k with st := st }
    if s.selChan = k then s.raiseVal Obj.channelState 0 (.num st.code) else s

/-- Beats of a descriptor; none when endless (R347). -/
def DmaDesc.total (d : DmaDesc) : Option Nat := if d.len = 0 then none else some (d.len / 64)

/-- Address of beat i (R348). -/
def DmaDesc.beatAddr (d : DmaDesc) (i : Nat) : Nat :=
  if d.bufLog2 = 0 then (d.addr + 64 * i) % 2 ^ 64
  else
    let n := 2 ^ d.bufLog2
    let b := d.addr / n * n
    b + (d.addr - b + 64 * i) % n

/-- Beats not yet issued; none when endless. -/
def DmaChan.left (h : DmaChan) : Option Nat :=
  match h.desc with
  | none => some 0
  | some d => d.total.map (· - h.issued)

/-- Signals of the request port presented to fabric logic (R351): ACK 0 with ACK_LEN, DONE 1, DESC_DONE 2, ERR 3. -/
def State.portSignal (k kind len : Nat) (s : State) : State :=
  match (s.dmaCh k).desc with
  | some d => if d.trigger then s.emit (.dmaPort k kind len) else s
  | none => s

/-- A channel as it is in Idle: counters kept, the rest of its work gone. -/
def DmaChan.clear (h : DmaChan) : DmaChan :=
  { DmaChan.new with
    st := h.st, cur := h.cur, errAddr := h.errAddr, errInfo := h.errInfo, beats := h.beats,
    late := h.late, asked := h.asked }

/-- A channel enters Idle. -/
def State.chanIdle (k : Nat) (s : State) : State := (s.setDma k (s.dmaCh k).clear).setChanSt k .idle

/-- The cause of a failing response (R354). -/
def dmaCause : MemStatus → Nat
  | .ok => 0 | .decode => 1 | .uncorrectable => 2 | .cabinetLost => 3 | .farTier => 4

/-! ## Moving beats -/

/-- Bytes moved by a channel. -/
def State.countBeats (k n : Nat) (s : State) : State :=
  let h := s.dmaCh k
  (s.setDma k { h with beats := min (h.beats + n) 0xFFFFFFFFFFFFFFFF }).bump Obj.beatsMoved n

/-- Deliver the buffered read beats whose data is there to the queue group, in order, up to a limit (R349). -/
def State.deliverBeats (k : Nat) (limit : Nat) (s : State) : State :=
  match (s.dmaCh k).desc with
  | none => s
  | some d =>
    let go := (s.dmaCh k).buf.takeWhile fun b => b.who = 0 && b.i < limit
    let s := go.foldl (fun s b => s.groupPush (k / 32) d.queue b.data) s
    (s.setDma k { s.dmaCh k with buf := (s.dmaCh k).buf.drop go.length }).countBeats k go.length

/-- A channel halts (R354): beats below the failing one are delivered, those from it on are discarded. -/
def State.haltChan (k i : Nat) (fetch : Bool) (cause : Nat) (s : State) : State :=
  let h := s.dmaCh k
  let dir := match h.desc with | some d => d.dir | none => 0
  let read := !fetch && dir = 0
  let addr := match h.desc with | some d => if fetch then h.cur else d.beatAddr i | none => h.cur
  let s := s.setDma k { h with
    errAddr := addr, errInfo := (if fetch then 2 else dir) + 16 * cause,
    buf := if read then h.buf.filter (·.i < i) else h.buf,
    issued := if read then min h.issued i else h.issued }
  let s := if read then s.deliverBeats k i else s
  ((s.setChanSt k .halted).bump Obj.busErrors 1).setFlag Obj.fabricDmaFlags 1

/-- A failing beat below the one that halted the channel takes the latch (R354, R357). -/
def State.relatch (k i cause : Nat) (s : State) : State :=
  let h := s.dmaCh k
  match h.desc with
  | none => s
  | some d =>
    let own := !h.errInfo.testBit 1 && h.errInfo / 16 ≠ 5 && h.errInfo / 16 ≠ 6
    let lower := if d.dir = 0 then i < h.issued else (h.kept.any fun b => i ≤ b.i && d.beatAddr b.i = h.errAddr) && d.beatAddr i ≠ h.errAddr
    if h.st ≠ .halted || !own || !lower then s
    else s.setDma k { h with
      errAddr := d.beatAddr i, errInfo := d.dir + 16 * cause,
      buf := if d.dir = 0 then h.buf.filter (·.i < i) else h.buf,
      issued := if d.dir = 0 then i else h.issued }

/-- A channel that can take an error. -/
def DmaChan.live (h : DmaChan) : Bool := h.st = .running || h.st = .aborting

/-- A beat of a channel fails. -/
def State.beatFails (k i cause : Nat) (s : State) : State :=
  if (s.dmaCh k).live then s.haltChan k i false cause else s.relatch k i cause

/-- Remote responses that have come for a channel's beats: data arrives, an acknowledgement settles, an error halts; a Halted
channel delivers what settles below the failing beat (R354). -/
def State.settleChan (k : Nat) (s : State) : State :=
  let h := s.dmaCh k
  let s := h.buf.foldl (fun s b =>
    if b.who = 0 then s
    else match s.takeDone b.who with
      | (none, s) => s
      | (some (.ok, data), s) =>
        let h := s.dmaCh k
        s.setDma k { h with buf := h.buf.map fun x => if x.i = b.i then { x with who := 0, data := data } else x }
      | (some (e, _), s) => s.beatFails k b.i (dmaCause e)) s
  let s := (s.dmaCh k).acks.foldl (fun s (w, i) =>
    match s.takeDone w with
    | (none, s) => s
    | (some (e, _), s) =>
      let h := s.dmaCh k
      let s := s.setDma k { h with acks := h.acks.filter (·.1 ≠ w) }
      if e = .ok then s else s.beatFails k i (dmaCause e)) s
  let h := s.dmaCh k
  if h.st = .halted && (h.desc.map (·.dir)) = some 0 then s.deliverBeats k h.issued else s

/-! ## Starting (R347, R356) -/

/-- CHANNEL_START: the selected channel, in Idle only. -/
def writeChannelStart : Handler := fun v s =>
  let k := s.selChan
  if (s.dmaCh k).st ≠ .idle then .error Err.refusedInState
  else .ok (((s.unpark (k / 32)).setDma k { (s.dmaCh k).clear with cur := v.toNat }).setChanSt k .fetching)

/-- CHANNEL_START (R356). -/
def execChannelStart (q : Req) (val : List Byte) (s : State) : Res :=
  .next (serveOwn q Obj.channelStart val writeChannelStart s)

/-- The fields of a descriptor. -/
def DmaDesc.parse (b : List Byte) : DmaDesc where
  addr := field b 0 8
  len := field b 8 4
  queue := bits (field b 12 2) 0 10
  dir := bits (field b 14 1) 0 1
  trigger := (field b 14 1).testBit 1
  confirm := (field b 14 1).testBit 2
  event := (field b 14 1).testBit 3
  prio := bits (field b 14 1) 4 2
  bufLog2 := bits (field b 15 1) 0 5
  burst := bits (field b 16 1) 0 6
  next := field b 24 8

/-- Reserved bits, field ranges and alignment (R347). -/
def DmaDesc.wellFormed (b : List Byte) : Bool :=
  let d := DmaDesc.parse b
  bits (field b 12 2) 10 6 = 0 && bits (field b 14 1) 6 2 = 0 && bits (field b 15 1) 5 3 = 0 && bits (field b 16 1) 6 2 = 0 &&
    field b 17 7 = 0 && d.addr % 64 = 0 && d.len % 64 = 0 && (d.len ≠ 0 || d.bufLog2 ≠ 0) &&
    (d.bufLog2 = 0 || (12 ≤ d.bufLog2 && d.bufLog2 ≤ 30)) &&
    (if d.trigger then d.burst = 0 else 1 ≤ d.burst && d.burst ≤ 32) && d.next % 32 = 0

/-- A descriptor is valid for a channel (R347). -/
def State.descOk (s : State) (k : Nat) (b : List Byte) : Bool :=
  let d := DmaDesc.parse b
  let c := k / 32
  DmaDesc.wellFormed b && s.groupConfigured c d.queue && s.runsAt c (blockPos (8 * d.queue)) &&
    (List.range 32).all fun i =>
      32 * c + i = k || (s.dmaCh (32 * c + i)).st = .idle ||
        (match (s.dmaCh (32 * c + i)).desc with | some e => e.queue ≠ d.queue | none => true)

/-- DESCRIPTOR_FETCH_DONE (R347, R354): the fetch fails, the descriptor is refused, or the channel runs. The bytes come
from device memory, or from outside where the address lies in the host window or another device. -/
def execDescriptorFetchDone (c : Cab) (ch : Fin 32) (status : MemStatus) (hostBytes : List Byte) (s : State) : Res :=
  let k := 32 * c.val + ch.val
  let h := s.dmaCh k
  if h.st ≠ .fetching || s.changing h.cur then .next s
  else match s.access h.cur status with
    | .ok =>
      let b := match s.place h.cur with
        | .host _ | .remote _ _ => (List.range 32).map fun i => hostBytes.getD i 0
        | _ => s.read (h.cur % 0x1000000000000) 32
      if s.descOk k b then
        .next ((s.setDma k { h.clear with desc := some (DmaDesc.parse b) }).setChanSt k .running)
      else .next (s.haltChan k 0 true 5)
    | e => .next (s.haltChan k 0 true (dmaCause e))

/-! ## Bursts (R350, R351) -/

/-- Keys of the channel granted last in a direction of an engine: at each priority level, and over all levels. -/
def grantKey (c dir prio : Nat) : Nat := 16 * c + 8 * dir + prio
abbrev anyLevel : Nat := 4

/-- A burst starts: a grant that its channel holds from an earlier one is not kept (R352). -/
def State.newGrant (c ch dir : Nat) (s : State) : State :=
  (List.range 5).foldl (fun s p =>
    if s.dma.last.find? (grantKey c dir p) = some ch then
      { s with dma := { s.dma with last := s.dma.last.put (grantKey c dir p) (ch + 32) } }
    else s) s

/-- BURST_START (R350, R351): the queue holds, or has space for, the whole burst. -/
def execBurstStart (c : Cab) (ch : Fin 32) (len : BitVec 6) (s : State) : Res :=
  let k := 32 * c.val + ch.val
  let h := s.dmaCh k
  match h.desc with
  | none => .next s
  | some d =>
    let ask := if d.trigger then (if len = 0 then 32 else len.toNat) else d.burst
    let n := match h.left with | some l => min ask l | none => ask
    let room := if d.dir = 1 then n ≤ s.groupCount c d.queue else n + s.groupCount c d.queue ≤ 512
    if h.st ≠ .running || h.burst ≠ 0 || h.confirming || n = 0 || !room || !s.runsAt c (blockPos (8 * d.queue)) ||
        s.sideStopped c (8 * d.queue) (d.dir = 1) then .next s
    else
      let h := { h with first := h.issued, burst := n, req := d.trigger, silent := false }
      let s := (s.newGrant c ch d.dir).setDma k h
      let s := if d.dir = 0 then s
        else (List.range n).foldl (fun s i =>
          let (b, s) := s.groupPop c d.queue
          s.setDma k { s.dmaCh k with buf := (s.dmaCh k).buf ++ [⟨h.issued + i, 0, b⟩] }) s
      .next (s.portSignal k 0 (n % 32))

/-- LATE_WITHDRAWAL (R351, R357): REQ falls after the burst has started and before DONE. -/
def execLateWithdrawal (c : Cab) (ch : Fin 32) (s : State) : Res :=
  let k := 32 * c.val + ch.val
  let h := s.dmaCh k
  if h.burst = 0 || !h.req then .next s
  else
    let s := s.setDma k { h with req := false, late := sat32 (h.late + 1) }
    .next ((s.bump Obj.lateWithdrawals 1).setFlag Obj.fabricDmaFlags 2)

/-! ## Beats (R345, R348, R349, R352) -/

/-- Read beats of an engine whose data has not come. -/
def State.readsOut (s : State) (c : Nat) : Nat :=
  sumBy (List.range 32) fun i => ((s.dmaCh (32 * c + i)).buf.filter (·.who ≠ 0)).length

/-- A channel's next beat in a direction is ready (R352); one to a cabinet whose operating point changes waits (R254). -/
def State.beatReady (s : State) (dir k : Nat) : Bool :=
  let h := s.dmaCh k
  match h.desc with
  | none => false
  | some d =>
    h.live && h.burst ≠ 0 && d.dir = dir &&
      !s.changing (d.beatAddr (if dir = 1 then (h.buf.head?.map (·.i)).getD 0 else h.issued)) &&
      (if dir = 1 then !h.buf.isEmpty
       else h.issued < h.first + h.burst && h.buf.length < 32 && s.readsOut (k / 32) < 512)

/-- Priority of a channel's descriptor. -/
def State.chanPrio (s : State) (k : Nat) : Nat := match (s.dmaCh k).desc with | some d => d.prio | none => 0

/-- The channel granted (R352): the highest level; within it the one of that level granted last while that burst lasts, else
in rotation after it. -/
def State.grantee (s : State) (c dir : Nat) : Option Nat :=
  let l := (List.range 32).filter fun i => s.beatReady dir (32 * c + i)
  let top := l.foldl (fun m i => max m (s.chanPrio (32 * c + i))) 0
  let l := l.filter fun i => s.chanPrio (32 * c + i) = top
  match s.dma.last.find? (grantKey c dir top) with
  | none => l.head?
  | some p => if l.contains p then some p else ((l.filter (p % 32 < ·)) ++ l).head?

/-- Number of a new remote request of a channel (log 31). -/
def dmaWho (k n : Nat) : Nat := 2 ^ 32 + 2 ^ 20 * k + n % 2 ^ 20

/-- Issue a read beat: memory answers at once, another device later, the host with the bytes given. -/
def State.issueRead (k : Nat) (d : DmaDesc) (hostBytes : List Byte) (s : State) : State :=
  let h := s.dmaCh k
  let a := d.beatAddr h.issued
  let push (who : Nat) (b : List Byte) (s : State) : State :=
    s.setDma k { s.dmaCh k with buf := (s.dmaCh k).buf ++ [⟨h.issued, who, b⟩], issued := h.issued + 1 }
  match s.access a .ok with
  | .ok => match s.place a with
    | .remote dev phys =>
      let w := dmaWho k h.asked
      push w [] ((s.setDma k { h with asked := h.asked + 1 }).remoteAsk dev phys 64 true [] w)
    | .host _ => push 0 ((List.range 64).map fun i => hostBytes.getD i 0) s
    | _ => push 0 (s.read (a % 0x1000000000000) 64) s
  | e => s.haltChan k h.issued false (dmaCause e)

/-- Issue a write beat. -/
def State.issueWrite (k : Nat) (d : DmaDesc) (b : DmaBeat) (s : State) : State :=
  let h := s.dmaCh k
  let a := d.beatAddr b.i
  let left (h : DmaChan) : DmaChan :=
    { h with buf := h.buf.tail, kept := (b :: h.kept).take 32, issued := max h.issued (b.i + 1) }
  match s.access a .ok with
  | .ok => match s.place a with
    | .remote dev phys =>
      let w := dmaWho k h.asked
      let s := s.setDma k { left h with asked := h.asked + 1, acks := h.acks ++ [(w, b.i)] }
      (s.remoteAsk dev phys 64 false b.data w).countBeats k 1
    | _ => ((s.setDma k (left h)).storeAt a b.data).countBeats k 1
  | e => (s.setDma k (left h)).haltChan k b.i false (dmaCause e)

/-- BEAT_GRANT (R352): one beat of one direction of an engine. -/
def execBeatGrant (c : Cab) (isWrite : Bool) (hostBytes : List Byte) (s : State) : Res :=
  let dir := b2n isWrite
  let s := (List.range 32).foldl (fun s i => s.settleChan (32 * c.val + i)) s
  match s.grantee c dir with
  | none => .next s
  | some i =>
    let k := 32 * c.val + i
    match (s.dmaCh k).desc with
    | none => .next s
    | some d =>
      let remote := match s.place (d.beatAddr (if isWrite then ((s.dmaCh k).buf.head?.map (·.i)).getD 0 else (s.dmaCh k).issued)) with
        | .remote _ _ => true
        | _ => false
      if remote && 4096 ≤ s.net.reqs.length then .next s
      else
        let s := match s.dma.last.find? (grantKey c dir anyLevel) with
          | some p => if p < 32 && p ≠ i && s.beatReady dir (32 * c.val + p) && s.chanPrio (32 * c.val + p) < d.prio then
              s.bump Obj.dmaPreemptions 1 else s
          | none => s
        let s := { s with dma := { s.dma with last := (s.dma.last.put (grantKey c dir anyLevel) i).put (grantKey c dir d.prio) i } }
        if isWrite then match (s.dmaCh k).buf with
          | [] => .next s
          | b :: _ => .next (s.issueWrite k d b)
        else .next (s.issueRead k d hostBytes)

/-! ## Completion (R353) -/

/-- A descriptor completes: counted, flagged, and the next one is fetched or the chain ends. -/
def State.descDone (k : Nat) (s : State) : State :=
  let s := (s.bump Obj.descriptorsDone 1).portSignal k 2 0
  match (s.dmaCh k).desc with
  | none => s
  | some d =>
    let s := if d.event then s.setFlag Obj.fabricDmaFlags 4 else s
    if d.next = 0 then s.chanIdle k
    else (s.setDma k { (s.dmaCh k).clear with cur := d.next }).setChanSt k .fetching

/-- An abort is complete. -/
def State.abortDone (k : Nat) (s : State) : State := ((s.chanIdle k).bump Obj.aborts 1).setFlag Obj.fabricDmaFlags 8

/-- BURST_END (R353): the last beat has entered the queue group, or has left the engine. -/
def execBurstEnd (c : Cab) (ch : Fin 32) (s : State) : Res :=
  let k := 32 * c.val + ch.val
  let s := s.settleChan k
  let h := s.dmaCh k
  match h.desc with
  | none => .next s
  | some d =>
    let excess := if d.dir = 1 then h.buf.isEmpty else h.issued = h.first + h.burst && h.buf.all (·.who = 0)
    if !h.live || h.burst = 0 || !excess || s.sideStopped c (8 * d.queue) (d.dir = 1) then .next s
    else
      let s := if d.dir = 0 then s.deliverBeats k h.issued else s
      let s := if h.silent then s else s.portSignal k 1 0
      let s := s.setDma k { s.dmaCh k with burst := 0, req := false, silent := false }
      if h.st = .aborting then .next (s.abortDone k)
      else if (s.dmaCh k).left ≠ some 0 then .next s
      else if d.confirm && d.dir = 1 then .next (s.setDma k { s.dmaCh k with confirming := true })
      else .next (s.descDone k)

/-- ARRIVAL_CONFIRMED (R353): the flush read, which waits while its cabinet changes operating point (R254), the fence or the
last acknowledgement has come. -/
def execArrivalConfirmed (c : Cab) (ch : Fin 32) (s : State) : Res :=
  let k := 32 * c.val + ch.val
  let s := s.settleChan k
  let h := s.dmaCh k
  let waits := (h.desc.map fun d => s.changing (d.beatAddr (h.issued - 1))).getD false
  if h.st = .running && h.confirming && h.acks.isEmpty && !waits then .next (s.descDone k) else .next s

/-! ## Errors, RESUME, ABORT (R354, R355, R357) -/

/-- DMA_BUS_ERROR (R354, R357): a beat issued of the started burst, or a write beat still kept, fails; in Halted a
failing beat of a lower offset takes the latch (log 30). Causes 1–4 are a beat's. -/
def execDmaBusError (c : Cab) (ch : Fin 32) (offset : BitVec 64) (cause : BitVec 4) (s : State) : Res :=
  let k := 32 * c.val + ch.val
  let h := s.dmaCh k
  let i := offset.toNat / 64
  match h.desc with
  | none => .next s
  | some d =>
    let mine := if d.dir = 0 then h.buf.any (·.i = i) else h.kept.any (·.i = i)
    .next (if cause = 0 || 4 < cause.toNat || !mine then s else s.beatFails k i cause.toNat)

/-- RESUME of a halted channel (R355): the descriptor is fetched again, or beats are issued again from the latched
one. -/
def State.resumeChan (k : Nat) (s : State) : State :=
  let h := s.dmaCh k
  match h.desc with
  | none => s.setChanSt k .fetching
  | some d =>
    if d.dir = 0 then s.setChanSt k .running
    else
      let redo := (h.kept.reverse.dropWhile fun b => d.beatAddr b.i ≠ h.errAddr)
      let n := redo.length
      let h' := { h with
        buf := redo ++ h.buf, kept := (h.kept.drop n), confirming := false, issued := h.issued - n,
        first := if h.burst = 0 then h.issued - n else min h.first (h.issued - n),
        burst := if h.burst = 0 then n else h.first + h.burst - min h.first (h.issued - n),
        silent := h.silent || h.burst = 0 }
      (s.setDma k h').setChanSt k .running

/-- ChannelCommand on the selected channel (R355). -/
def writeChannelCommand : Handler := fun v s =>
  let k := s.selChan
  let h := s.dmaCh k
  match v.toNat, h.st with
  | 1, .halted => if h.errInfo / 16 = 6 then .error Err.refusedInState else .ok (s.resumeChan k)
  | 2, .running => if h.burst = 0 then .ok (s.abortDone k) else .ok (s.setChanSt k .aborting)
  | 2, .halted => .ok ((if h.burst = 0 then s else s.portSignal k 3 0).abortDone k)
  | _, _ => .error Err.refusedInState

/-- RESUME (R355). -/
def execResume (q : Req) (s : State) : Res := .next (serveOwn q Obj.channelCommand [1] writeChannelCommand s)

/-- ABORT (R355). -/
def execAbort (q : Req) (s : State) : Res := .next (serveOwn q Obj.channelCommand [2] writeChannelCommand s)

/-! ## Regions, resets and losses (R354, R356, R357) -/

/-- The regions that a condition picks stop running: channels on their groups halt with QUEUE_ISOLATED. -/
def State.isolateChans (p : Nat → Nat → Bool) (s : State) : State :=
  s.dma.chans.foldl (fun s (k, h) => match h.desc with
    | some d => if h.live && p (k / 32) (blockPos (8 * d.queue)) then s.haltChan k h.issued false 6 else s
    | none => s) s

/-- The cabinet is lost (R356): what the channels' objects last held stays (R25). -/
def State.loseChans (c : Nat) (s : State) : State :=
  (List.range 32).foldl (fun s i => s.setChanSt (32 * c + i) .lost) s

/-- A C reset of the cabinet: every channel Idle and its buffer empty (R356). -/
def State.resetChans (c : Nat) (s : State) : State :=
  (List.range 32).foldl (fun s i => (s.setChanSt (32 * c + i) .idle).setDma (32 * c + i) DmaChan.new) s

end Sys2Proof.Machine
end

