-- ==== Sys2Proof/Machine/Cells.lean ====
section
/-! DEFINITION. The elements of the fabric that user logic is made of (R314–R319, R323): columns, cells, flip-flops, routing
multiplexers and memory blocks, each as a function of what its frames set and what it holds. Logic.lean runs them. -/

namespace Sys2Proof.Machine

/-! ## Columns (R314) -/

inductive Column where
  | logic (n : Nat)
  | memory (n : Nat)
  | port (n : Nat)
  | clockAndProbe
deriving DecidableEq, Repr

/-- What stands at a column position, 0 to 479. -/
def columnAt (pos : Nat) : Column :=
  let i := pos / 30
  let o := pos % 30
  if o < 6 then .logic (25 * i + o)
  else if o = 6 then .memory (4 * i)
  else if o < 13 then .logic (25 * i + o - 1)
  else if o = 13 then .memory (4 * i + 1)
  else if o = 14 then (if i ≤ 14 then .port i else .clockAndProbe)
  else if o < 21 then .logic (25 * i + o - 3)
  else if o = 21 then .memory (4 * i + 2)
  else if o < 28 then .logic (25 * i + o - 4)
  else if o = 28 then .memory (4 * i + 3)
  else .logic (25 * i + 24)

/-- Number of a cluster, a cell and a flip-flop (R315). -/
def clusterNo (row col z : Nat) : Nat := 10000 * row + 25 * col + z
def cellNo (cluster k : Nat) : Nat := 16 * cluster + k
def flipFlopNo (cell : Nat) (second : Bool) : Nat := 2 * cell + b2n second

/-! ## Cells (R316) -/

inductive CellMode where
  | sixInput | split | shiftRegister | memory
deriving DecidableEq, Repr

/-- Address from inputs I0 upward. -/
def cellAddr (n : Nat) (inputs : BitVec 6) : Nat := inputs.toNat % 2 ^ n

/-- O6 and O5 of a cell; in shift-register mode bits [31:0] of the table are the register, in memory mode the table is the
64 × 1 RAM. -/
def cellOut (m : CellMode) (table : BitVec 64) (inputs : BitVec 6) : Bool × Bool :=
  match m with
  | .sixInput | .memory => (table.getLsbD inputs.toNat, false)
  | .split => (table.getLsbD (32 + cellAddr 5 inputs), table.getLsbD (cellAddr 5 inputs))
  | .shiftRegister => (table.getLsbD (cellAddr 5 inputs), table.getLsbD 31)

/-- The table after an edge of the cluster's clock. -/
def cellClock (m : CellMode) (table : BitVec 64) (inputs : BitVec 6) (ce writeEnable writeData : Bool) : BitVec 64 :=
  match m with
  | .sixInput | .split => table
  | .shiftRegister =>
    if ce then BitVec.ofNat 64 ((2 * table.toNat + (inputs.getLsbD 5).toNat) % 2 ^ 32) else table
  | .memory =>
    if writeEnable then
      let bit := 1#64 <<< inputs.toNat
      if writeData then table ||| bit else table &&& ~~~bit
    else table

/-! ## Flip-flops (R317) -/

/-- A flip-flop's settings: its data input (0 O6, 1 O5, else the bypass), network, enable, set/reset and whether that is
asynchronous, and its reset value. -/
structure FlipFlop where
  data         : Nat
  clock        : Option Nat
  enable       : Option Nat
  setReset     : Option Nat
  asynchronous : Bool
  resetValue   : Bool
deriving DecidableEq, Repr

/-- Its value after an edge of its clock, by its data, enable and set/reset. -/
def FlipFlop.clocked (f : FlipFlop) (old data enable reset : Bool) : Bool :=
  if reset then f.resetValue else if enable then data else old

/-- Its value between edges: an asynchronous set/reset forces the reset value. -/
def FlipFlop.hold (f : FlipFlop) (old reset : Bool) : Bool := if f.asynchronous && reset then f.resetValue else old

/-! ## Routing (R318, R319) -/

/-- Bits of a select field of n sources: ceil(log2 n). -/
def selectWidth (n : Nat) : Nat := if n ≤ 1 then 0 else Nat.log2 (n - 1) + 1

/-- The source that a code selects: number code, from 1; code 0 and codes above the last select the constant-0 wire. -/
def selected (sources : List FabSource) (code : Nat) : Option FabSource := if code = 0 then none else sources[code - 1]?

end Sys2Proof.Machine
end

