-- ==== Sys2Proof/Machine/Logic.lean ====
section
/-! DEFINITION. User logic at work (R316–R335, R340, R342): what every wire, cell, flip-flop, memory block and pin of a
cabinet presents by its frames, the clock networks, and what an edge of them does. Where frames hold each setting, and what
sources each multiplexer has, is opaque (log 28). What user logic does at a queue, a tile's port or a target bridge comes
with the commands of their rows (log 135). -/

namespace Sys2Proof.Machine

/-! ## Settings (R316, R317, R328, R329, R331, R333, R336) -/

/-- Bit i of a cluster's settings. -/
def State.clusterBit (s : State) (c q i : Nat) : Bool :=
  s.segBit c 0 (q / 10000) (q % 10000 / 25) (Config.clusterBit (q % 25) i)

/-- Position of a cluster. -/
def clusterPos (q : Nat) : Nat := logicPos (q % 10000 / 25)

/-- Mode and table of a cell: 96 bits of the cluster's settings for each. -/
def State.cellMode (s : State) (c cell : Nat) : CellMode :=
  match natOf 2 fun i => s.clusterBit c (cell / 16) (96 * (cell % 16) + 64 + i) with
  | 0 => .sixInput
  | 1 => .split
  | 2 => .shiftRegister
  | _ => .memory
def State.frameTable (s : State) (c cell : Nat) : BitVec 64 :=
  BitVec.ofNat 64 (natOf 64 fun i => s.clusterBit c (cell / 16) (96 * (cell % 16) + i))

/-- One of the cluster's two clocks. -/
def State.clusterClock (s : State) (c q : Nat) (second : Bool) : Option Nat :=
  netOf (natOf 6 fun i => s.clusterBit c q (1536 + 6 * b2n second + i))

/-- A flip-flop's settings. -/
def State.ffSetting (s : State) (c n : Nat) : FlipFlop :=
  let q := n / 32
  let base := 96 * (n / 2 % 16) + 66 + 9 * (n % 2)
  let num (lo w : Nat) : Nat := natOf w fun i => s.clusterBit c q (base + lo + i)
  let pick (v k : Nat) : Option Nat := if 1 ≤ v && v ≤ k then some (v - 1) else none
  let sr := pick (num 6 2) 2
  { data := num 0 2, clock := s.clusterClock c q (num 2 1 = 1), enable := pick (num 3 3) 4, setReset := sr
    asynchronous := s.clusterBit c q (1548 + sr.getD 0), resetValue := num 8 1 = 1 }

/-- The flip-flop that a cluster's probe tap presents (R342). -/
def State.tapOf (s : State) (c q : Nat) : Nat := 32 * q + natOf 5 fun i => s.clusterBit c q (1550 + i)

/-- Bit i of the settings of a loop (element 0–15) or of a network (16–47), in the 64 clock frames. -/
def State.clockSetBit (s : State) (c element i : Nat) : Bool :=
  let k := Config.clockBit element i % (3072 * 64)
  frameBit (s.frame (farOf c 5 (k / 3072 / 4) 0 (k / 3072 % 4))) (k % 3072)
def State.clockNum (s : State) (c element lo w : Nat) : Nat := natOf w fun i => s.clockSetBit c element (lo + i)

/-- What drives a loop's reference or a network (R328, R329). -/
inductive ClockSource where
  | oscillator
  /-- pin 0–3 of the cabinet's first or second bank -/
  | pin (bank n : Nat)
  /-- output 0–3 of a loop -/
  | loop (n output : Nat)
deriving DecidableEq, Repr

/-- A loop's settings (R328). -/
structure LoopSetting where
  reference  : Option ClockSource
  divider    : Nat
  multiplier : Nat
  /-- divider and phase, in 1/8 VCO periods, of each output -/
  outputs    : List (Nat × Nat)
deriving DecidableEq, Repr

/-- The sources of a loop's reference, numbered from 1: oscillator, pins, outputs of lower-numbered loops. -/
def referenceOf (n code : Nat) : Option ClockSource :=
  if code = 0 then none
  else if code = 1 then some .oscillator
  else if code < 10 then some (.pin ((code - 2) / 4) ((code - 2) % 4))
  else if (code - 10) / 4 < n then some (.loop ((code - 10) / 4) ((code - 10) % 4))
  else none

def State.loopSetting (s : State) (c n : Nat) : LoopSetting where
  reference := referenceOf n (s.clockNum c n 0 7)
  divider := s.clockNum c n 7 6 + 1
  multiplier := s.clockNum c n 13 9
  outputs := (List.range 4).map fun k => (s.clockNum c n (22 + 21 * k) 9, s.clockNum c n (31 + 21 * k) 12)

/-- A loop is configured with a reference. -/
def State.loopReferenced (s : State) (c n : Nat) : Bool := (s.loopSetting c n).reference.isSome

/-- Dividers and multiplier are in the ranges of R328. -/
def LoopSetting.inRange (l : LoopSetting) : Bool :=
  8 ≤ l.multiplier && l.multiplier ≤ 320 && l.outputs.all fun o => 4 ≤ o.1 && o.1 ≤ 512

/-- The frequencies that follow from a reference of r MHz are in the ranges of R328: phase detector 10–200 MHz, VCO
1.6–3.2 GHz, outputs at most 800 MHz. -/
def LoopSetting.fits (l : LoopSetting) (r : Nat) : Bool :=
  10 * l.divider ≤ r && r ≤ 200 * l.divider && 1600 * l.divider ≤ r * l.multiplier && r * l.multiplier ≤ 3200 * l.divider &&
    l.outputs.all fun o => r * l.multiplier ≤ 800 * (l.divider * o.1)

/-- What drives a network: one of 64 loop outputs or of eight pins, numbered from 1. -/
def State.netSource (s : State) (c n : Nat) : Option ClockSource :=
  let v := s.clockNum c (16 + n) 0 7
  if v = 0 then none
  else if v ≤ 64 then some (.loop ((v - 1) / 4) ((v - 1) % 4))
  else if v ≤ 72 then some (.pin ((v - 65) / 4) ((v - 65) % 4))
  else none

/-- The network of a tile's fabric port (R331). -/
def State.portClock (s : State) (g : Nat) : Option Nat :=
  netOf (natOf 6 fun i => s.segBit (g / 150) 3 (portRow g) (g % 150 % 15) (Config.portBit i))

/-- Words per cycle, 1, 2 or 4, and the network of a target bridge (R336). -/
def State.bridgeWidth (s : State) (c : Nat) : Nat := [1, 2, 4].getD (natOf 2 fun i => s.segBit c 4 0 2 (Config.bridgeBit i)) 4
def State.bridgeClock (s : State) (c : Nat) : Option Nat :=
  netOf (natOf 6 fun i => s.segBit c 4 0 2 (Config.bridgeBit (2 + i)))

/-! ### Pins (R333) -/

/-- Bank of an I/O frame's column (R27, R361). -/
def bankOf (c col : Nat) : Nat := if col = 0 then (if c = 0 then 0 else c + 1) else (if c = 0 then 1 else 9)
/-- Position of a cabinet's first or second bank (R315). -/
def bankPos (col : Nat) : Nat := if col = 0 then 0 else 479

/-- A pin's settings: mode 0–6 of R333 (7 is none), serialiser ratio 1, 2, 4 or 8, double data rate, slow network, fast loop
output. -/
structure PinSetting where
  mode  : Nat
  ratio : Nat
  ddr   : Bool
  slow  : Option Nat
  fast  : Nat
deriving DecidableEq, Repr

def pinSettingIn (n : Nat) (frame : List Byte) : PinSetting :=
  let num (lo w : Nat) : Nat := natOf w fun i => frameBit frame (Config.pinBit n (lo + i))
  { mode := num 0 3, ratio := 2 ^ num 3 2, ddr := num 5 1 = 1, slow := netOf (num 6 6), fast := num 12 7 }
def State.pinSetting (s : State) (c bank n : Nat) : PinSetting :=
  pinSettingIn n (s.frame (farOf c 4 0 bank (Config.pinMinor n % 16)))

/-- A mode is permitted at a bank voltage in tenths of a volt (R333). -/
def modePermitted (mode volts : Nat) : Bool :=
  if mode = 0 then true
  else if mode ≤ 4 then volts = 12 || volts = 15 || volts = 18
  else if mode ≤ 6 then volts = 18
  else false

/-- An I/O frame's modes are permitted at its bank's voltage (R334). -/
def State.ioOk (s : State) (far : Nat) (b : List Byte) : Bool :=
  farType far ≠ 4 || farCol far = 2 ||
    (List.range 48).all fun n => Config.pinMinor n % 16 ≠ farMinor far ||
      modePermitted (pinSettingIn n b).mode (s.fab.volts.getD (bankOf (farCab far) (farCol far)) 12)

/-- The pins of a bank have taken their modes: supply up, and OUTPUTS in force (R334, R374, R376). -/
def State.bankOn (s : State) (c bank : Nat) : Bool :=
  s.num (Obj.gpioBankState + bankOf c bank) = 1 && s.stepAt c (bankPos bank) 1

/-- A pin keeps its weak pull-up: before its bank is configured, and as Unused (R335, R374). -/
def State.pinPulledUp (s : State) (c bank n : Nat) : Bool := !s.bankOn c bank || (s.pinSetting c bank n).mode = 0
/-- A pin's input buffer is on (R335, R374). -/
def State.pinReads (s : State) (c bank n : Nat) : Bool := s.bankOn c bank && (s.pinSetting c bank n).mode ≠ 0

/-- What a pin's output buffer drives for one bit, none at high impedance (R322, R333, R334). The odd pin of a pair drives
the complement. -/
def pinDrive (mode n : Nat) (oe data : Bool) : Option Bool :=
  if mode = 2 then some data
  else if mode = 3 then (if oe then some data else none)
  else if mode = 4 then (if data then none else some false)
  else if mode = 6 then some (data != (n % 2 = 1))
  else none

/-! ## Clock loops and networks (R328–R330) -/

/-- Key of a clock loop's state. -/
def loopKey (c n : Nat) : Nat := Obj.clockLoopState + 256 * c + n

/-- A clock source runs: the oscillator, a pin that is an input, an output of a locked loop; the outputs of any other loop are
held low (R330). -/
def State.sourceRuns (s : State) (c : Nat) : ClockSource → Bool
  | .oscillator => s.num Obj.oscillatorState = 1
  | .pin bank n => s.pinReads c bank n
  | .loop n _ => s.num (loopKey c n) = 2

/-- A network's source runs. -/
def State.netRuns (s : State) (c n : Nat) : Bool := match s.netSource c n with
  | some r => s.sourceRuns c r
  | none => false

/-- A loop can lock: its settings are in range and its reference runs; the frequency of a reference from a pin or another
loop is not checked (log 136). -/
def State.loopReady (s : State) (c n : Nat) : Bool :=
  let l := s.loopSetting c n
  match l.reference with
  | none => false
  | some .oscillator => l.inRange && l.fits 100 && s.sourceRuns c .oscillator
  | some r => l.inRange && s.sourceRuns c r

/-! ## What signals present (R316, R318, R321, R340) -/

/-- A flip-flop: what it holds; its reset value until GSR (R317, R374, R376). -/
def State.ffVal (s : State) (c n : Nat) : Bool :=
  if s.stepAt c (clusterPos (n / 32)) 2 then s.fab.ffs.contains (5120000 * c + n) else (s.ffSetting c n).resetValue

/-- A cell's table as it stands. -/
def State.cellTable (s : State) (c cell : Nat) : BitVec 64 :=
  match s.fab.cells.find? (2560000 * c + cell) with
  | some t => t
  | none => s.frameTable c cell

def BlockS.new : BlockS := ⟨[], 0, 0, 0, 0⟩
def State.block (s : State) (c b : Nat) : BlockS := s.fab.blocks.get BlockS.new (8192 * c + b)
def State.setBlock (c b : Nat) (v : BlockS) (s : State) : State :=
  { s with fab := { s.fab with blocks := s.fab.blocks.put (8192 * c + b) v } }

/-- An entry of a block: as written, or as its contents frames give it (R323, R361). -/
def State.blockWord (s : State) (c b entry : Nat) : BitVec 80 :=
  match (s.block c b).words.find? entry with
  | some w => w
  | none =>
    let w := shapeWidth (s.blockSetting c b).shape
    BitVec.ofNat 80 (natOf w fun i =>
      let k := w * entry + i
      frameBit (s.frame (farOf c 2 (b / 8 % 16) (b / 8 / 16) (14 * (b % 8) + k / 3072))) (k % 3072))

/-- The port reads, or writes, by the block's mode (R321, R323). -/
def BlockSetting.reads (t : BlockSetting) (portB : Bool) : Bool :=
  match t.mode with
  | 0 => !portB
  | 1 | 3 | 4 => portB
  | 2 => if portB then t.readsB else t.readsA
  | _ => false
def BlockSetting.writes (t : BlockSetting) (portB : Bool) : Bool :=
  match t.mode with
  | 1 => !portB
  | 2 => if portB then t.writesB else t.writesA
  | _ => false

/-- Data output of a port; an input port's output wires carry 0 (R321). -/
def State.blockOut (s : State) (c b : Nat) (portB : Bool) : BitVec 80 :=
  let t := s.blockSetting c b
  if !t.reads portB then 0
  else if t.mode = 3 || t.mode = 4 then (s.queue c b).data
  else if portB then (s.block c b).outB else (s.block c b).outA

/-- A queue's flags, and ERR (R324–R327). -/
def State.blockFlag (s : State) (c b i : Nat) : Bool :=
  if i = 6 then (s.queue c b).err
  else s.isQueue c b && [s.queueFull c b, s.queueAlmostFull c b, s.queueEmpty c b, s.queueAlmostEmpty c b, (s.queue c b).overflow,
    (s.queue c b).underflow].getD i false

/-- Position of a source or of a multiplexer. -/
def sourcePos : FabSource → Nat
  | .wire n => Config.wirePos n % 480
  | .o6 cell | .o5 cell => clusterPos (cell / 16)
  | .flipFlop n => clusterPos (n / 32)
  | .blockData b _ _ | .blockFlag b _ => blockPos b
  | .tilePort t _ => portPos t
  | .bridgeRx _ _ | .bridgeTxReady => bridgePos
  | .pin bank _ _ => bankPos bank
  | .cutInput _ _ => 464
def sinkPos : FabSink → Nat
  | .wire n => Config.wirePos n % 480
  | .cellInput cell _ => clusterPos (cell / 16)
  | .bypass n => clusterPos (n / 32)
  | .clockEnable q _ | .setReset q _ | .writeData q => clusterPos q
  | .blockAddress b _ _ | .blockInput b _ _ | .blockWrite b _ | .blockRead b _ => blockPos b
  | .pinData bank _ _ | .pinEnable bank _ => bankPos bank

/-- Isolation code of a boundary output of a region, by its EDGE, ROW and WIRE (R340, R365). -/
def RegionS.isoCode (r : RegionS) (id : Nat) : Nat := match r.iso.find? fun e => bits e 0 16 = id with
  | some e => bits e 16 2
  | none => r.isoDflt

/-- The boundary output as which a wire of region r leaves it towards a position. -/
def State.boundaryId (s : State) (r w toward : Nat) : Option Nat :=
  let after := !(toward < s.regFirst r)
  let edge := if after then s.regLast r + 1 else s.regFirst r
  ((List.range 32768).find? fun i => Config.crossing edge i = w).map fun i => b2n after + 2 * i

/-- What a multiplexer outside a region that is not running sees of a wire inside it (R340, R374); none where no boundary
lies between them. -/
def State.isolated (s : State) (c : Nat) (src : FabSource) (k : FabSink) : Option Bool :=
  match src, s.regionAt c (sourcePos src) with
  | .wire w, some r =>
    if s.regionAt c (sinkPos k) = some r || (s.region r).steps.contains 1 then none
    else
      let v := s.region r
      match s.boundaryId r w (sinkPos k) with
      | none => some (v.isoDflt = 1)
      | some id => some (v.isoCode id = 1 || (v.isoCode id = 2 && v.latched.contains id))
  | _, _ => none

/-- What a multiplexer drives, by the values of its sources (R318, R319). -/
def State.driven (s : State) (c : Nat) (val : FabSource → Bool) (k : FabSink) : Bool :=
  let src := Config.sources k
  let code := natOf (selectWidth src.length) fun i =>
    let (far, bit) := Config.selectBit k i
    frameBit (s.frame (far % 2 ^ 25 + 2 ^ 25 * c)) bit
  match selected src code with
  | none => false
  | some g => (s.isolated c g k).getD (val g)

/-- The tile port as fabric logic sees it (R331, R332). -/
def State.portSource (s : State) (g i : Nat) : Bool :=
  let open' := s.streams.any fun (_, m) => m.tile = g && m.desc.dir = 2 && m.st ≠ StreamSt.closing && m.st ≠ StreamSt.error
  s.stepAt (g / 150) (portPos g) 3 &&
    (if i = 0 then !(s.tile g).portOut.isEmpty
     else if i = 1 then open' && (s.tile g).portIn.length < 16
     else ((((s.tile g).portOut.head?.getD []).getD ((i - 2) / 8) 0).toNat.testBit ((i - 2) % 8)))

/-- A word that the target bridge offers (R336, R337). -/
def State.bridgeSource (s : State) (c w i : Nat) : Bool :=
  match (((s.fab.bridges.find? c).map (·.rx)).getD [])[w]? with
  | none => false
  | some (kind, gap, l) => w < s.bridgeWidth c && s.stepAt c bridgePos 3 &&
      (if i = 0 then true else if i = 1 then kind else if i = 2 then gap
       else ((l.getD ((i - 3) / 8) 0).toNat.testBit ((i - 3) % 8)))

/-- What a source presents in cabinet c, followed through at most n cells and wires: beyond them it lies in a combinational
loop, and its value is free (R320). -/
def State.source (s : State) (c : Nat) : Nat → FabSource → Bool
  | 0, g => Config.unsettled c s.now g
  | n + 1, g =>
    let d := s.driven c (State.source s c n)
    let cell (k : Nat) : Bool × Bool :=
      cellOut (s.cellMode c k) (s.cellTable c k) (BitVec.ofNat 6 (natOf 6 fun i => d (.cellInput k i)))
    match g with
    | .wire w => d (.wire w)
    | .o6 k => (cell k).1
    | .o5 k => (cell k).2
    | .flipFlop k => s.ffVal c k
    | .blockData b portB i => (s.blockOut c b portB).getLsbD i
    | .blockFlag b i => s.blockFlag c b i
    | .tilePort t i => s.portSource (150 * c + t) i
    | .bridgeRx w i => s.bridgeSource c w i
    | .bridgeTxReady => s.num (Obj.targetBridgeState + c) = 1 && s.stepAt c bridgePos 1
    | .pin bank k i =>
      let m := s.pinSetting c bank k
      if !s.pinReads c bank k then Config.outside (bankOf c bank) k s.now
      else (pinDrive m.mode k (d (.pinEnable bank k)) (d (.pinData bank k i))).getD (Config.outside (bankOf c bank) k s.now)
    | .cutInput r i => (s.lock.inRegs.get 0 (256 * c + r)).getLsbD i

/-- Depth beyond which a path has met some cell or wire twice: all cells, and the wires that a frame address can reach. -/
def logicDepth : Nat := 2 ^ 32

/-- What a multiplexer of a cabinet drives now. -/
def State.drives (s : State) (c : Nat) (k : FabSink) : Bool := s.driven c (State.source s c logicDepth) k

/-- What a pin drives in one slow cycle, bit by bit; none is high impedance (R322, R333, R334). -/
def State.pinOut (s : State) (c bank n : Nat) : List (Option Bool) :=
  let m := s.pinSetting c bank n
  if !s.bankOn c bank then [none]
  else (List.range m.ratio).map fun i => pinDrive m.mode n (s.drives c (.pinEnable bank n)) (s.drives c (.pinData bank n i))

/-! ## Edges (R316, R317, R323, R324) -/

/-- Logic segments of a cabinet that are not cleared: row and column. A cleared one has no clock (R319). -/
def State.segments (s : State) (c ty : Nat) : List (Nat × Nat) :=
  ((s.fab.frames.filter fun e => farCab e.1 = c && farType e.1 = ty).map fun e => (farRow e.1, farCol e.1)).eraseDups
def State.clusters (s : State) (c : Nat) : List Nat :=
  (s.segments c 0).flatMap fun (row, col) => (List.range 25).map fun z => clusterNo row col z

/-- A flip-flop after an edge of some networks; with none, after asynchronous resets alone. -/
def State.ffAfter (s : State) (c : Nat) (nets : List Nat) (n : Nat) : Bool :=
  let q := n / 32
  let old := s.ffVal c n
  if !s.stepAt c (clusterPos q) 2 then old
  else
    let f := s.ffSetting c n
    let cell := n / 2
    let reset := (f.setReset.map fun i => s.drives c (.setReset q i)).getD false
    if f.asynchronous && reset then f.resetValue
    else if !(f.clock.map nets.contains).getD false then f.hold old reset
    else
      let data := match f.data with
        | 0 => State.source s c logicDepth (.o6 cell)
        | 1 => State.source s c logicDepth (.o5 cell)
        | _ => s.drives c (.bypass n)
      f.clocked old data ((f.enable.map fun i => s.drives c (.clockEnable q i)).getD true) reset

/-- The flip-flops of a cabinet that hold 1 after such an edge. -/
def State.ffsAfter (s : State) (c : Nat) (nets : List Nat) : List Nat :=
  s.fab.ffs.filter (fun n => n / 5120000 ≠ c) ++
    ((s.clusters c).flatMap fun q => ((List.range 32).map (32 * q + ·)).filter (s.ffAfter c nets)).map (5120000 * c + ·)

/-- A shift register or cell RAM after an edge: on the clock and enable of the cell's flip-flop A (log 28). -/
def State.cellAfter (s : State) (c : Nat) (nets : List Nat) (cell : Nat) : Option (BitVec 64) :=
  let q := cell / 16
  let f := s.ffSetting c (2 * cell)
  let m := s.cellMode c cell
  if !s.stepAt c (clusterPos q) 3 || !(f.clock.map nets.contains).getD false || m = .sixInput || m = .split then none
  else
    let enable := (f.enable.map fun i => s.drives c (.clockEnable q i)).getD true
    some (cellClock m (s.cellTable c cell) (BitVec.ofNat 6 (natOf 6 fun i => s.drives c (.cellInput cell i))) enable enable
      (s.drives c (.writeData q)))

def State.cellsAfter (s : State) (c : Nat) (nets : List Nat) : Tab U64 :=
  ((s.clusters c).flatMap fun q => (List.range 16).map fun k => cellNo q k).foldl (fun t k => match s.cellAfter c nets k with
    | some v => t.put (2560000 * c + k) v
    | none => t) s.fab.cells

/-- Asynchronous resets settle: again until nothing changes. -/
def State.settleResets (c : Nat) : Nat → State → State
  | 0, s => s
  | n + 1, s =>
    let l := s.ffsAfter c []
    if l = s.fab.ffs then s else State.settleResets c n { s with fab := { s.fab with ffs := l } }

/-- What a port of a memory block does at an edge: entry, data to write, and whether it reads. -/
structure PortEdge where
  entry : Nat
  write : Option (BitVec 80)
  read  : Bool
deriving DecidableEq, Repr

def State.blockPort (s : State) (c b : Nat) (nets : List Nat) (portB : Bool) : Option PortEdge :=
  let t := s.blockSetting c b
  let clock := if portB then t.clockB else t.clockA
  if !(clock.map nets.contains).getD false then none
  else
    let entry := natOf (9 + t.shape) fun i => s.drives c (.blockAddress b portB i)
    let w := t.writes portB && s.stepAt c (blockPos b) 3 && s.drives c (.blockWrite b portB)
    some ⟨entry, if w then some (t.stored (BitVec.ofNat 80 (natOf 80 fun i => s.drives c (.blockInput b portB i)))) else none,
      t.reads portB && s.drives c (.blockRead b portB)⟩

/-- An edge at a memory block in mode 0, 1 or 2: two writes of one entry leave one of the two values, and a read of an entry
written at the same edge gives the old data or the new: free choices (R323). With the output register, data is presented
an edge later. -/
def State.blockEdge (c : Nat) (nets : List Nat) (b : Nat) (s : State) : State :=
  let t := s.blockSetting c b
  if 3 ≤ t.mode then s
  else
    let a := s.blockPort c b nets false
    let z := s.blockPort c b nets true
    let (v, s) := s.fresh
    let was (e : Nat) : BitVec 80 := s.blockWord c b e
    let put (p : Option PortEdge) (l : Tab (BitVec 80)) : Tab (BitVec 80) := match p with
      | some ⟨e, some w, _⟩ => l.put e w
      | _ => l
    let k := s.block c b
    let words := if v.getLsbD 0 then put z (put a k.words) else put a (put z k.words)
    let s' := s.setBlock c b { k with words := words }
    let got (p : PortEdge) (i : Nat) : BitVec 80 := if v.getLsbD i then was p.entry else s'.blockWord c b p.entry
    let step (p : Option PortEdge) (i : Nat) (register : Bool) (out reg : BitVec 80) : BitVec 80 × BitVec 80 := match p with
      | some q =>
        let fresh := if q.read then got q i else (if register then reg else out)
        if register then (reg, fresh) else (fresh, reg)
      | none => (out, reg)
    let (oa, ra) := step a 1 t.regA k.outA k.regA
    let (oz, rz) := step z 2 t.regB k.outB k.regB
    s'.setBlock c b { k with words := words, outA := oa, outB := oz, regA := ra, regB := rz }

/-- One rising edge of some networks of a cabinet: everything that they clock takes what its inputs were before it. -/
def State.clockEdge (c : Nat) (nets : List Nat) (s : State) : State :=
  if nets.isEmpty || !s.fab.frames.any fun e => farCab e.1 = c then s
  else
    let ffs := s.ffsAfter c nets
    let cells := s.cellsAfter c nets
    let blocks := (s.segments c 1).flatMap fun (row, col) => (List.range 8).map fun b => 8 * (16 * col + row) + b
    let t := blocks.foldl (fun (t : State) b =>
      -- every block sees the signals as they stood before the edge
      let r := State.blockEdge c nets b { s with free := t.free }
      { t with free := r.free, fab := { t.fab with blocks := match r.fab.blocks.find? (8192 * c + b) with
        | some v => t.fab.blocks.put (8192 * c + b) v
        | none => t.fab.blocks } }) s
    State.settleResets c 1024 { t with fab := { t.fab with ffs := ffs, cells := cells } }

/-- The enables of the stepped networks open for one period of their sources (R387). -/
def State.stepNetworks (s : State) : State :=
  (List.range 8).foldl (fun s c =>
    if s.num (Obj.stepNetworks + c) = 0 then s
    else s.clockEdge c ((List.range 32).filter fun n => (s.num (Obj.stepNetworks + c)).testBit n && s.netRuns c n)) s

/-- A network that runs freely has an edge; which one is a free value (R387, log 135). -/
def State.freeEdge (s : State) : State :=
  if s.fab.frames.isEmpty then s
  else
    let (v, s) := s.fresh
    let c := v.toNat % 8
    let n := v.toNat / 8 % 32
    if s.netRuns c n && !(s.num (Obj.stepNetworks + c)).testBit n then s.clockEdge c [n] else s

/-- The global set/reset: flip-flops at positions that a condition picks take their reset values (R317, R376). -/
def State.loadResets (p : Nat → Nat → Bool) (s : State) : State :=
  let here := (List.range 8).flatMap fun c => ((s.clusters c).filter fun q => p c (clusterPos q)).flatMap fun q =>
    (((List.range 32).map (32 * q + ·)).filter fun n => (s.ffSetting c n).resetValue).map (5120000 * c + ·)
  { s with fab := { s.fab with
    ffs := (s.fab.ffs.filter fun n => !p (n / 5120000) (clusterPos (n % 5120000 / 32))) ++ here } }

/-- The networks that clock something at positions of a cabinet that a condition picks: clusters, memory blocks, fabric ports,
pins' serialisers and the target bridge. -/
def State.netsUsed (s : State) (c : Nat) (p : Nat → Bool) : List Nat :=
  let clusters := ((s.clusters c).filter fun q => p (clusterPos q)).flatMap fun q => [s.clusterClock c q false, s.clusterClock c q true]
  let blocks := ((s.segments c 1).filter fun e => p (memoryPos e.2)).flatMap fun (row, col) => (List.range 8).flatMap fun b =>
    let t := s.blockSetting c (8 * (16 * col + row) + b)
    [t.clockA, t.clockB]
  let ports := ((List.range 150).filter fun t => p (portPos t)).map fun t => s.portClock (150 * c + t)
  let pins := ([0, 1].filter fun k => p (bankPos k) && (k = 0 || c = 0 || c = 7)).flatMap fun k =>
    (List.range 48).map fun n => (s.pinSetting c k n).slow
  ((clusters ++ blocks ++ ports ++ pins ++ (if p bridgePos then [s.bridgeClock c] else [])).filterMap id).eraseDups

/-- A loop drives one of them (R376). -/
def State.loopUsed (s : State) (c n : Nat) (p : Nat → Bool) : Bool :=
  (s.netsUsed c p).any fun k => match s.netSource c k with
    | some (.loop m _) => m = n
    | _ => false

/-! ## Boundaries and probes (R340, R342) -/

/-- The boundary outputs of a region that hold 1, of those that codes let hold their last value (R340). -/
def State.lastValues (s : State) (v : RegionS) (r : Nat) : List Nat :=
  if v.isoDflt ≠ 2 && v.iso.all fun e => bits e 16 2 ≠ 2 then []
  else (List.range 65536).filter fun id => v.isoCode id = 2 &&
    (let edge := if id % 2 = 1 then s.regLast r + 1 else s.regFirst r
     State.source s (r / 8) logicDepth (.wire (Config.crossing edge (id / 2))))

/-- A cluster's probe tap: 0 in logic that is not running, or whose WE step has not come (R342, R374). -/
def State.tapValue (s : State) (c q : Nat) : Bool := s.stepAt c (clusterPos q) 3 && s.ffVal c (s.tapOf c q)

/-- The 64 output bits of a probe multiplexer, by the selects in effect (R342, R343). -/
def State.probeWord (s : State) (c m : Nat) : U64 :=
  let l := slice (s.lock.inEffect.get [] c) (80 * m) 80
  BitVec.ofNat 64 (natOf 64 fun j =>
    let select := natOf 10 fun i => frameBit l (10 * j + i)
    s.tapValue c ((625 * m + select) % 160000))

/-- The words of every multiplexer that are not 0, by 256 × cabinet + multiplexer (R392). -/
def State.probeWords (s : State) : Tab U64 :=
  (List.range 8).foldl (fun t c =>
    if !s.fab.frames.any fun e => farCab e.1 = c then t
    else (List.range 256).foldl (fun (t : Tab U64) m =>
      let w := s.probeWord c m
      if w = 0 then t else t.put (256 * c + m) w) t) []

end Sys2Proof.Machine
end

