-- ==== Sys2Proof/Machine/Lockstep.lean ====
section
/-! DEFINITION. Lockstep (spec/14) but RUN, which needs the feeds' conditions: steps, cut frames, deadlines, freezes,
and the writes of the step controller's objects. DSCLK edges are counted by the commands' `edge`. -/

namespace Sys2Proof.Machine

/-! ## Readiness (R397, R398, R400) -/

/-- The complete frame of a neighbour for a step. -/
def State.frameOf (s : State) (dev step : Nat) : Option CutFrame :=
  s.lock.frames.find? fun f => f.dev = dev && f.step = step && f.edge.isSome

/-- The first edge at which R397 permits the next step, the assignment apart; none while something is missing. -/
def State.readyEdge (s : State) : Option Nat :=
  if s.lock.evaluating then none
  else
    let step := s.num Obj.currentStep
    (s.neighbours.map (·.dev)).foldl (fun e dev =>
      match e, s.frameOf dev step with
      | some e, some f => some (max e (f.edge.getD 0))
      | _, _ => none) (some (s.lock.startEdge + s.num Obj.stepPeriod))

/-- R397 holds at an edge, the assignment apart. -/
def State.readyAt (s : State) (edge : Nat) : Bool := match s.readyEdge with | some e => e ≤ edge | none => false

/-- The edge assigned to a step (R398). -/
def State.assigned (s : State) (step : Nat) : Option Nat :=
  match s.lock.e0 with
  | none => none
  | some e0 =>
    let b := s.lock.first + s.num Obj.systemDiameter + 1
    if step < b then none else some (e0 + s.num Obj.stepPeriod * (step - b))

/-- Enabled feeds, by number (R411). -/
def State.enabledFeeds (s : State) : List Nat := (List.range 128).filter fun q => s.num (feedObj Obj.feedEnable q) = 1

/-- A feed has decided every step up to one (R421). -/
def State.feedDecided (s : State) (q step : Nat) : Bool :=
  let f := s.feed q
  f.undecided.all (fun p => step < p.1) && f.queue.all fun e => e.2.1 || step < e.1

/-- Every enabled feed has decided step s for a start of s + V (R421). -/
def State.feedsAllow (s : State) (next : Nat) : Bool :=
  s.enabledFeeds.all fun q =>
    let v := s.num (feedObj Obj.verdictLatency q)
    next < v || s.feedDecided q (next - v)

/-! ## Deadlines of verdicts (R421) -/

/-- Steps of a feed whose deadline edge meets a condition take MISSED, or UNKNOWN after a fault of the drawer. -/
def State.feedDeadline (q : Nat) (due : Nat → Bool) (s : State) : State :=
  let v := s.num (feedObj Obj.verdictLatency q)
  let ended (step : Nat) : Bool := match s.assigned (step + v) with | some e => due e | none => false
  let f := s.feed q
  let hit := f.undecided.filter fun p => ended p.1
  let wait := f.queue.filter fun e => !e.2.1 && ended e.1
  let s := s.modFeed q fun f => { f with
    undecided := f.undecided.filter fun p => !ended p.1
    queue := f.queue.map fun e => if ended e.1 then (e.1, true, e.2.2) else e }
  let s := hit.foldl (fun s p => if p.2 then s.takeUnknown q else s.takeMissed q) s
  wait.foldl (fun s _ => s.takeMissed q) s

/-- Deadlines of every enabled feed strictly before an edge, in Bound. -/
def State.deadlinesBefore (edge : Nat) (s : State) : State :=
  if s.lockSt ≠ Lock.bound then s
  else s.enabledFeeds.foldl (fun s q => if s.lockSt = Lock.bound then s.feedDeadline q (· < edge) else s) s

/-! ## Starting a step (R387, R391, R397, R398, R400) -/

/-- Load the cut input registers with the frames of a step (R391, R393). -/
def State.loadCuts (step : Nat) (s : State) : State :=
  s.neighbours.foldl (fun s n => match s.frameOf n.dev step with
    | none => s
    | some f => (List.range n.inWords).foldl (fun s i =>
        let w := BitVec.ofNat 64 (field f.payload (8 * i) 8)
        let t := s.lock.inRegs
        { s with lock := { s.lock with
            inRegs := if w = 0 then Tab.del t (n.inFirst + i) else Tab.put t (n.inFirst + i) w } }) s) s

/-- Slack at a step start in Bound (R400). -/
def State.noteSlack (edge : Nat) (s : State) : State :=
  let step := s.num Obj.currentStep
  let s := s.setNum Obj.minSlack (min (s.num Obj.minSlack) (min (edge - (s.readyEdge.getD edge)) 0xFFFF))
  s.neighbours.foldl (fun s n => match s.frameOf n.dev step with
    | none => s
    | some f =>
      let k := Obj.neighbourSlack + n.entry
      s.setNum k (min (s.num k) (min (edge - f.edge.getD edge) 0xFFFF))) s

/-- Probe selects whose step has come take effect (R343). -/
def State.takeSelects (step : Nat) (s : State) : State :=
  let due := s.lock.selects.filter fun p => p.2.1 ≤ step
  let s := { s with lock := { s.lock with selects := s.lock.selects.filter fun p => step < p.2.1 } }
  due.foldl (fun s (c, at', l) =>
    ({ s with lock := { s.lock with inEffect := s.lock.inEffect.put c l } }).setNum Obj.probeApplyStep at') s

/-- A step starts: cut input registers loaded, then one period of every stepped network (R387). -/
def State.beginStep (edge next : Nat) (s : State) : State :=
  let s := if s.lock.started then s.loadCuts (s.num Obj.currentStep) else s
  let s := s.setNum Obj.currentStep next
  let kept := s.lock.frames.filter fun f => decide (next ≤ f.step)
  let s := { s with lock := { s.lock with started := true, evaluating := true, startEdge := edge, frames := kept } }
  (s.takeSelects next).stepNetworks

/-- E0 of Bound: the slack starts anew (R398, R400). -/
def State.enterBound (edge : Nat) (s : State) : State :=
  let s := { s with lock := { s.lock with e0 := some edge } }
  let s := (List.range 64).foldl (fun s k => s.unset (Obj.neighbourSlack + k)) (s.unset Obj.minSlack)
  s.setLockSt Lock.bound

/-- STEP_START (R387, R397, R398): at an edge at which the lockstep rule permits the next step. -/
def execStepStart (edge : Nat) (s : State) : Res :=
  let st := s.lockSt
  let next := if s.lock.started then s.num Obj.currentStep + 1 else s.num Obj.startStep
  if st = Lock.elastic || st = Lock.arming || st = Lock.freezing then
    let ready := !s.lock.started || s.readyAt edge
    if !ready || (s.lock.started && !s.feedsAllow next) || (st = Lock.freezing && s.num Obj.freezeAt < next) then .next s
    else if st = Lock.arming && next = s.lock.first + s.num Obj.systemDiameter + 1 then
      .next ((s.enterBound edge).beginStep edge next)
    else .next (s.beginStep edge next)
  else if st = Lock.bound then
    if s.assigned next = some edge && s.readyAt edge then
      let s := s.deadlinesBefore edge
      if s.lockSt = Lock.bound then .next ((s.noteSlack edge).beginStep edge next) else .next s
    else .next s
  else .next s

/-! ## Cut frames (R393–R395) -/

/-- A complete frame is held; a word count that differs from IN_WORDS fails the controller, in Idle only at RUN. -/
def State.frameIn (dev step : Nat) (edge : Nat) (payload : List Byte) (s : State) : State :=
  if s.lockSt = Lock.failed then s
  else match s.neighbours.find? fun n => n.dev = dev with
  | none => s.bump Obj.cutFramesDiscarded 1
  | some n =>
    let s := { s with lock := { s.lock with
      frames := (s.lock.frames.filter fun f => !(f.dev = dev && f.step = step)) ++ [⟨dev, step, 0, payload, some edge⟩] } }
    if payload.length ≠ 8 * n.inWords && s.lockSt ≠ Lock.idle then
      (s.setFlag Obj.lockstepFlags 0x20).failLock 2
    else s

/-- Bytes of the output words of a neighbour entry; words of a lost or reset cabinet are 0 (R407). -/
def State.cutOut (s : State) (n : Neighbour) : List Byte :=
  (List.range n.outWords).flatMap fun i =>
    let w := n.outFirst + i
    let dead := s.lost (w / 256) || s.inCReset (w / 256)
    leBytes 8 (if dead then 0 else (s.lock.samples.get 0 w).toNat)

/-- CUT_FRAME_SEND: a neighbour's frame of a step, in flits of 240 bytes; an entry naming the device itself
carries its words to the next edge. -/
def State.sendFrame (edge step : Nat) (n : Neighbour) (s : State) : State :=
  let l := s.cutOut n
  if n.dev = s.device then s.frameIn n.dev step edge l
  else
    let flits := max 1 (ceilDiv l.length 240)
    let s := (List.range flits).foldl (fun s i =>
      s.sendCut (s.cutFlit step 1 n.dev i (i + 1 = flits) (slice l (240 * i) (min 240 (l.length - 240 * i))))) s
    s.bump Obj.cutFramesSent 1

/-- A flit's freeze is taken (R401): F is STEP + FREEZE_DELTA. -/
def State.takeFreeze (f : CutFlit) (origin : Nat) (s : State) : State :=
  if f.freezeValid then s.propose (f.step.toNat + f.delta.toNat) origin f.cause.toNat else s

/-- Origin that a notice carries; all ones, as a device sends that does not know it, is none unless the sender has that
number (log 108). -/
def noticeOrigin (f : CutFlit) : Nat :=
  let o := field f.payload 0 2 % 4096
  if o = 0xFFF && f.source.toNat ≠ 0xFFF then 0xFFFF else o

/-- A freeze notice (R401). -/
def State.takeNotice (f : CutFlit) (s : State) : State := s.takeFreeze f (noticeOrigin f)

/-- A frame's step is one of the two expected (R395). -/
def State.expects (s : State) (step : Nat) : Bool :=
  if s.lock.started then step = s.num Obj.currentStep || step = s.num Obj.currentStep + 1
  else step = s.num Obj.startStep || step + 1 = s.num Obj.startStep

/-- CUT_FRAME_RECEIVE (R394, R395, R401): a flit for this device, visible at an edge. -/
def execCutFrameReceive (edge : Nat) (f : CutFlit) (s : State) : Res :=
  if f.dest.toNat ≠ s.device || s.blockHeld 0x30 then .next s
  else if f.kind = 2 then .next (s.takeNotice f)
  else if f.kind ≠ 1 then .next (s.bump Obj.cutFramesDiscarded 1)
  else
    let dev := f.source.toNat
    let step := f.step.toNat
    let mine (x : CutFrame) : Bool := x.dev = dev && x.step = step && x.edge.isNone
    let part := s.lock.frames.find? mine
    let drop (s : State) : State := { s with lock := { s.lock with frames := s.lock.frames.filter (!mine ·) } }
    if !s.expects step then
      let s := drop s
      .next (if f.last then s.bump Obj.cutFramesDiscarded 1 else s)
    else
      let s := s.takeFreeze f 0xFFFF
      let old := (part.map (·.payload)).getD []
      let s := drop s
      if f.last then .next ((s.bump Obj.cutFramesReceived 1).frameIn dev step edge (old ++ f.payload))
      else
        let n := (part.map (·.flits)).getD 0 + 1
        .next { s with lock := { s.lock with frames := s.lock.frames ++ [⟨dev, step, n, old ++ f.payload, none⟩] } }

/-- FREEZE_NOTICE (R401, R409). -/
def execFreezeNotice (f : CutFlit) (s : State) : Res :=
  if f.dest.toNat ≠ s.device || f.kind ≠ 2 || s.blockHeld 0x30 then .next s else .next (s.takeNotice f)

/-! ## Misses and DREF (R400, R406) -/

/-- The assigned edge of the next step has come and the device is not ready. -/
def State.missAt (s : State) (edge : Nat) : Bool :=
  s.lockSt = Lock.bound && s.assigned (s.num Obj.currentStep + 1) = some edge && !s.readyAt edge

/-- A miss: counted, recorded, and a freeze proposed. -/
def State.takeMiss (s : State) : State :=
  (((s.bump Obj.deadlineMisses 1).setNum Obj.lastMissStep (s.num Obj.currentStep + 1)).setFlag Obj.lockstepFlags 1).proposeHere 1

/-- DEADLINE_MISS (R400). -/
def execDeadlineMiss (edge : Nat) (s : State) : Res := if s.missAt edge then .next s.takeMiss else .next s

/-- DREF_LOST (R406): DSCLK comes from DREF, and stops. In Idle and Frozen there is no step to freeze (log 140). -/
def execDrefLost (s : State) : Res :=
  let st := s.lockSt
  if !s.lock.bound || s.blockHeld 0x30 then .next s
  else
    let s := ((s.setNum Obj.drefPeriodNs 0).setState (Obj.clockState + 24) 4).setFlag Obj.lockstepFlags 4
    if st = Lock.arming || st = Lock.bound || st = Lock.freezing then
      let s := s.proposeHere 5
      .next (if s.lockSt = Lock.failed then s else s.setLockSt Lock.stalled)
    else .next s

/-! ## Writes (R388, R403, R405, R409) -/

/-- StepMode and ElasticDivisor (R388). -/
def writeStepClock : Handler := fun _ s =>
  if s.lockSt = Lock.idle || s.lockSt = Lock.frozen || s.lockSt = Lock.stalled then .ok s else .error Err.refusedInState

/-- StepPeriod, SystemDiameter, StartStep, StepNetworks and CutNeighbours (R409); the feeds' records (R413). -/
def writeStepConfig : Handler := fun _ s =>
  if s.lockSt = Lock.idle || s.lockSt = Lock.frozen then .ok s else .error Err.refusedInState

/-- SnapshotAt (R403): N above F is refused in Freezing, and F itself changes nothing. -/
def writeSnapshotAt : Handler := fun v s =>
  if s.lockSt = Lock.idle || s.lockSt = Lock.failed then .error Err.refusedInState
  else if s.lockSt = Lock.freezing && s.num Obj.freezeAt < v.toNat then .error Err.refusedInState
  else .ok (s.propose v.toNat s.device 2)

/-- SNAPSHOT_AT (R403). -/
def execSnapshotAt (q : Req) (val : List Byte) (s : State) : Res := .next (serveOwn q Obj.snapshotAt val writeSnapshotAt s)

/-- Bridges of stepped cabinets run again (R338, R404). -/
def State.thawBridges (s : State) : State :=
  (List.range 8).foldl (fun s c =>
    if s.num (Obj.targetBridgeState + c) = 2 then s.setState (Obj.targetBridgeState + c) 1 else s) s

/-- No F is held. -/
def State.clearFreeze (s : State) : State :=
  ((s.unset Obj.freezeAt).unset Obj.freezeOrigin).unset Obj.freezeCause

/-- The controller in Idle (R391, R408): cut input registers 0, no frames held. -/
def State.lockIdle (s : State) : State :=
  let s := ((s.clearFreeze.setNum Obj.currentStep 0).thawBridges).setLockSt Lock.idle
  { s with lock := { s.lock with started := false, evaluating := false, e0 := none, held := [], frames := [], inRegs := [] } }

/-- ABANDON (R405): the stepped flip-flops keep their state. -/
def writeAbandon : Handler := fun _ s =>
  if s.lockSt = Lock.frozen || s.lockSt = Lock.stalled || s.lockSt = Lock.failed then .ok s.lockIdle
  else .error Err.refusedInState

/-- ABANDON (R405). -/
def execAbandon (q : Req) (s : State) : Res := .next (serveOwn q Obj.stepCommand [2] writeAbandon s)

end Sys2Proof.Machine
end

