-- ==== Sys2Proof/Machine/Fabric.lean ====
section
/-! DEFINITION. What the fabric does at run time (R323–R343): queues of memory blocks, clock loops, tile ports, target
bridges and probe selects. -/

namespace Sys2Proof.Machine

/-! ## Queues (R323–R327) -/

/-- A queue that fabric logic can reach: its block is one, in a cabinet that works. -/
def State.queueLives (s : State) (c b : Nat) : Bool := !s.lost c && !s.inCReset c && s.isQueue c b

/-- The read that an edge brought, with ECC enabled (R324): a single-bit error is corrected; a double-bit error gives the
data as stored, whose wrong bits are free values (log 1), and raises ERR. -/
def State.eccRead (c b : Nat) (fault : Option Bool) (s : State) : State :=
  let t := s.queueSetting c b
  if !t.ecc || 1 < t.shape then s
  else match fault with
    | none => s
    | some false => s.bump Obj.memoryCorrected 1
    | some true =>
      let (l, s) := s.freshBytes 10
      let s := s.setQueueS c b { s.queue c b with data := BitVec.ofNat 80 (leNat l), err := true }
      (s.bump Obj.memoryUncorrectable 1).setFlag Obj.fabricFlags 4

/-- An edge that fabric logic brings to a queue. The side that a channel's engine drives is not its own (R346), and a side
whose network is stopped has no edge (R404). -/
def State.fabricEdge (c b : Nat) (write : Option (BitVec 80)) (read : Bool) (fault : Option Bool) (seen : Nat) (s : State) : State :=
  let write := if s.engineOn c b 0 || s.sideStopped c b false then none else write
  let read := read && !s.engineOn c b 1 && !s.sideStopped c b true
  let took := read && !s.queueEmpty c b
  let s := s.queueEdge c b write read seen
  if took then s.eccRead c b fault else s

/-- FABRIC_QUEUE_WRITE (R323–R326): a write edge, with a read in the same edge if asked. -/
def execFabricQueueWrite (c : Cab) (block : Fin 8192) (entry : BitVec 80) (edge : WriteEdge) (s : State) : Res :=
  if s.queueLives c block then .next (s.fabricEdge c block (some entry) edge.alsoRead edge.read.eccFault edge.read.seen) else .next s

/-- FABRIC_QUEUE_READ (R323–R326): a read edge. -/
def execFabricQueueRead (c : Cab) (block : Fin 8192) (edge : ReadEdge) (s : State) : Res :=
  if s.queueLives c block then .next (s.fabricEdge c block none true edge.eccFault edge.seen) else .next s

/-- QUEUE_RESET (R327): 0 RST is asserted; 1 released; 2 and 3, the 4 cycles of the write side, of the read side have run. -/
def execQueueReset (c : Cab) (block : Fin 8192) (phase : Fin 4) (s : State) : Res :=
  if !s.queueLives c block then .next s
  else
    let k := s.queue c block
    match phase.val with
    | 0 => .next (s.setQueueS c block { k with
        entries := [], overflow := false, underflow := false, lateReads := [], lateWrites := [], rst := true, heldW := true, heldR := true })
    | 1 => .next (s.setQueueS c block { k with rst := false })
    | 2 => .next (if k.rst then s else s.setQueueS c block { k with heldW := false })
    | _ => .next (if k.rst then s else s.setQueueS c block { k with heldR := false })

/-! ## Clock loops (R328–R330) -/

/-- CLOCK_LOOP_LOCK_LOST (R330). -/
def execClockLoopLockLost (c : Cab) (loop : Fin 16) (s : State) : Res :=
  if s.num (loopKey c loop) ≠ 2 then .next s
  else .next (((s.setState (loopKey c loop) 3).bump Obj.clockLockLosses 1).setFlag Obj.fabricFlags 8)

/-- CLOCK_LOOP_LOCKED (R328, R330): a loop whose reference runs locks, and its outputs resume. -/
def execClockLoopLocked (c : Cab) (loop : Fin 16) (s : State) : Res :=
  let v := s.num (loopKey c loop)
  if (v = 1 || v = 3) && s.loopReady c loop && !s.lost c && !s.inCReset c then .next (s.setState (loopKey c loop) 2)
  else .next s

/-- The loops of a cabinet begin to lock, where its frames give them a reference (R328). -/
def State.startLoops (c : Nat) (s : State) : State :=
  (List.range 16).foldl (fun s n => s.setState (loopKey c n) (if s.loopReferenced c n then 1 else 0)) s

/-- The loops of a cabinet are off. -/
def State.stopLoops (c : Nat) (s : State) : State := (List.range 16).foldl (fun s n => s.setState (loopKey c n) 0) s

/-! ## Fabric ports (R331, R332) -/

/-- FABRIC_PORT_BEAT (R331, R332, R404): at an edge of the port's clock, which a frozen prototype stops, VALID and READY meet on
IN, from fabric logic, or on OUT, to it. -/
def execFabricPortBeat (g : Tile) (out : Bool) (data : List Byte) (s : State) : Res :=
  if !s.stepAt (cabOf g) (portPos g) 3 || s.clockStopped (cabOf g) (s.portClock g) then .next s
  else if out then match (s.tile g).portOut with
    | [] => .next s
    | b :: r => .next (((s.modTile g fun t => { t with portOut := r }).emit (.fabricOut g b)).movePort g)
  else
    let open' := s.streams.any fun (_, m) => m.tile = g.val && m.desc.dir = 2 && m.st ≠ StreamSt.closing && m.st ≠ StreamSt.error
    if open' && (s.tile g).portIn.length < 16 then .next (((s.unpark (cabOf g)).modTile g fun t => { t with portIn := t.portIn ++ [data] }).movePort g)
    else .next s

/-! ## Target-port bridges (R336–R338) -/

def BridgeS.new : BridgeS := ⟨[], false⟩
def State.bridge (s : State) (c : Nat) : BridgeS := s.fab.bridges.get BridgeS.new c
def State.setBridge (c : Nat) (b : BridgeS) (s : State) : State :=
  { s with fab := { s.fab with bridges := s.fab.bridges.put c b } }

/-- The bridge of a target port follows its port and its region (R374, R376): Running while the port is Up and OUTPUTS
is in force, Down otherwise; Frozen is left to the step controller. -/
def State.updateBridge (c : Nat) (s : State) : State :=
  let k := Obj.targetBridgeState + c
  if s.lost c then s.setState k 3
  else if s.num (Obj.portState + 16 + c) = 3 && s.stepAt c bridgePos 1 then (if s.num k = 2 then s else s.setState k 1)
  else s.setState k 0

/-- A word reaches RX (R337). -/
def State.bridgeWord (c : Nat) (word : List Byte) (kind uncorrectable : Bool) (s : State) : State :=
  let st := s.num (Obj.targetBridgeState + c)
  if !((st = 1 || st = 2) && s.stepAt c bridgePos 3) then s
  else
    let b := s.bridge c
    if uncorrectable then ((s.setBridge c { b with gap := true }).bump Obj.targetRxErrors 1).setFlag Obj.fabricFlags 0x20
    else if 256 ≤ b.rx.length then
      ((s.setBridge c { b with gap := true }).bump Obj.targetRxDropped 1).setFlag Obj.fabricFlags 0x10
    else s.setBridge c ⟨b.rx ++ [(kind, b.gap, word)], false⟩

/-- TARGET_WORD_RECEIVE (R337). -/
def execTargetWordReceive (port : Cab) (word : List Byte) (kind : Bool) (uncorrectable : Bool) (s : State) : Res :=
  .next (s.bridgeWord port word kind uncorrectable)

/-- Fabric logic takes one word from each bridge (R337: it must accept words at line rate), but for the stopped logic of
a Frozen one (R404). -/
def State.drainBridges (s : State) : State :=
  s.fab.bridges.foldl (fun s (c, b) => match b.rx with
    | [] => s
    | (kind, gap, w) :: r =>
      if s.stepAt c bridgePos 3 && s.num (Obj.targetBridgeState + c) ≠ 2 then (s.setBridge c { b with rx := r }).emit (.bridgeOut c kind gap w) else s) s

/-- What passes with nothing commanded: one nanosecond, a word to fabric logic from each bridge, and an edge of a network
that runs freely (log 3). -/
def State.tick (s : State) : State := { s.drainBridges.freeEdge with now := s.now + 1 }

/-! ## Probe selects (R343) -/

/-- The step controller is stepping (R408): Elastic, Arming, Bound or Freezing. -/
def State.stepping (s : State) : Bool := 1 ≤ s.lockSt && s.lockSt ≤ 4

/-- A committed change of a cabinet's ProbeSelects. -/
def writeProbeSelects (c : Nat) : Handler := fun v s =>
  if s.stepping then
    .ok { s with lock := { s.lock with selects := s.lock.selects ++ [(c, s.num Obj.currentStep + 2, v.toBytes)] } }
  else .ok ({ s with lock := { s.lock with inEffect := s.lock.inEffect.put c v.toBytes } }.setNum Obj.probeApplyStep
    (s.num Obj.currentStep))

/-- PROBE_SELECT_APPLY (R343): the selects whose step has started take effect. -/
def execProbeSelectApply (s : State) : Res := .next (s.takeSelects (s.num Obj.currentStep))

end Sys2Proof.Machine
end

