-- ==== Sys2Proof/Machine/Loader.lean ====
section
/-! DEFINITION. The configuration loader (R359–R378): its sources, the header and its checks, packets, start-up, and
how a load ends. -/

namespace Sys2Proof.Machine

abbrev Loader.idle : Nat := 0
abbrev Loader.header : Nat := 1
abbrev Loader.clearing : Nat := 2
abbrev Loader.writing : Nat := 3
abbrev Loader.checking : Nat := 4
abbrev Loader.starting : Nat := 5
abbrev Loader.failing : Nat := 6

/-- Codes of LoadResult (R373). -/
abbrev LoadEnd.badHeader : Nat := 1
abbrev LoadEnd.key : Nat := 2
abbrev LoadEnd.signature : Nat := 3
abbrev LoadEnd.descriptor : Nat := 4
abbrev LoadEnd.outOfRegion : Nat := 5
abbrev LoadEnd.badAddress : Nat := 6
abbrev LoadEnd.badPacket : Nat := 7
abbrev LoadEnd.ioStandard : Nat := 8
abbrev LoadEnd.digest : Nat := 9
abbrev LoadEnd.tag : Nat := 10
abbrev LoadEnd.truncated : Nat := 11
abbrev LoadEnd.timeout : Nat := 12
abbrev LoadEnd.overrun : Nat := 13
abbrev LoadEnd.lockTimeout : Nat := 14
abbrev LoadEnd.aborted : Nat := 15
abbrev LoadEnd.imageMismatch : Nat := 16
abbrev LoadEnd.cabinetLost : Nat := 17
abbrev LoadEnd.memoryError : Nat := 18

def State.setCfg (f : CfgState → CfgState) (s : State) : State := { s with cfg := f s.cfg }
def State.setLoad (l : LoadS) (s : State) : State := s.setCfg fun c => { c with load := some l }
def State.loaderSt (s : State) : Nat := s.num Obj.loaderState
def State.setLoader (v : Nat) (s : State) : State := s.setState Obj.loaderState v

/-! ## The header (R363, R542) -/

abbrev syncWord : Nat := 0x9B2E71D4

def LoadS.desc (h : List Byte) : Nat := field h 92 4
def LoadS.bodyBytes (h : List Byte) : Nat := field h 12 4
def LoadS.enc (h : List Byte) : Bool := (field h 6 1).testBit 3
def LoadS.signSlot (h : List Byte) : Nat := bits (field h 6 1) 0 3
def LoadS.encSlot (h : List Byte) : Nat := bits (field h 6 1) 4 3
/-- Digest signed: bytes 0 to 95 + D. -/
def LoadS.hdrDigest (h : List Byte) : List Byte := Config.shake256 (h.take (96 + LoadS.desc h)) 64
def LoadS.bodyDigest (h : List Byte) : List Byte := slice h 16 64
/-- Declared length from SYNC (R474). -/
def LoadS.declared (h : List Byte) : Nat := 212 + LoadS.desc h + LoadS.bodyBytes h
/-- Plaintext bytes of the body. -/
def LoadS.plain (h : List Byte) : Nat := LoadS.bodyBytes h - (if LoadS.enc h then 16 else 0)

/-- The first 96 bytes break R363 or R542. -/
def LoadS.badStart (h : List Byte) : Bool :=
  field h 0 4 ≠ syncWord || field h 4 1 ≠ 1 || !(field h 5 1 = 1 || field h 5 1 = 2) || (field h 6 1).testBit 7 ||
    field h 7 1 ≠ 0 || field h 8 4 ≠ 0x8150 || LoadS.bodyBytes h % 4 ≠ 0 || LoadS.desc h % 4 ≠ 0 || 16644 < LoadS.desc h ||
    (LoadS.enc h && LoadS.bodyBytes h < 16)

/-! ## Where the bytes come from (R368, R371, R373) -/

/-- Flash address of an autoload slot. -/
def autoSlot (i : Nat) : Nat := 0xD000000 + 0x1800000 * i
/-- End of the slot's bitstreams, for an address within it. -/
def State.autoEnd (s : State) (a : Nat) : Nat :=
  let b := autoSlot (if a < autoSlot 1 then 0 else 1)
  b + 64 + leNat (s.flashRead (b + 4) 4)

/-- A byte of the source at stream offset i. -/
def State.srcByte (s : State) (l : LoadS) (i : Nat) : Byte :=
  let a := l.addr + i
  if l.src = 5 then s.flashByte a
  else match s.place a with
    | .host _ | .remote _ _ => ((List.find? (fun (p : Nat × Byte) => p.1 = a) l.host).map (·.2)).getD 0
    | _ => s.byte (a % 0x1000000000000)

/-- The source is device memory. -/
def LoadS.fromMem (l : LoadS) : Bool := l.src = 4 || l.src = 6
/-- The source is a port or the window. -/
def LoadS.fromPort (l : LoadS) : Bool := l.src = 1 || l.src = 2 || l.src = 3

/-- The first 256-byte piece of stream bytes [i, i + n) whose read fails (R373). -/
def State.badPiece (s : State) (l : LoadS) (i n : Nat) (memFail : Option (MemStatus × BitVec 64)) : Option Nat :=
  if !l.fromMem || n = 0 then none
  else
    let a := l.addr + i
    ((List.range ((a % 256 + n + 255) / 256)).map fun j => a / 256 * 256 + 256 * j).find? fun p =>
      s.access p .ok ≠ .ok ||
        (match memFail with | some (st, b) => st ≠ .ok && b.toNat / 256 * 256 = p | none => false)

/-- Stream bytes [i, i + n), where they are all there. -/
def State.srcBytes (s : State) (l : LoadS) (i n : Nat) : Option (List Byte) :=
  if l.fromPort then (let off := i - (if l.hdr.isEmpty then 0 else l.hdr.length + l.cipher.length)
    if off + n ≤ l.raw.length then some (slice l.raw off n) else none)
  else if l.src = 5 && s.autoEnd l.addr < l.addr + i + n then none
  else some ((List.range n).map fun j => s.srcByte l (i + j))

/-! ## How a load ends (R370, R372, R373) -/

/-- The regions of a load's target: 8 × cabinet + region. -/
def State.targetRegions (s : State) (l : LoadS) : List Nat :=
  match l.only with
  | some r => [r]
  | none =>
    if l.kind = 2 then [8 * l.cab + l.reg]
    else (List.range 64).filter fun r => !s.lost (r / 8) && !l.gone.contains (r / 8) && s.regDefined r

/-- The load has the whole fabric as its target. -/
def LoadS.whole (l : LoadS) : Bool := l.kind = 1 && l.only.isNone

/-- A frame lies in the target (R372). -/
def State.inTarget (s : State) (l : LoadS) (far : Nat) : Bool :=
  if l.whole then true
  else
    let r := l.only.getD (8 * l.cab + l.reg)
    farCab far = r / 8 && farType far ≠ 5 && s.regFirst r ≤ farPos far && farPos far ≤ s.regLast r

/-- Positions of the target, for what it stops. -/
def State.targetPos (s : State) (l : LoadS) (c p : Nat) : Bool :=
  if l.whole then !s.lost c && !l.gone.contains c
  else
    let r := l.only.getD (8 * l.cab + l.reg)
    c = r / 8 && s.regFirst r ≤ p && p ≤ s.regLast r && p ≠ 464

/-- Bytes of a window load not yet arrived are discarded as they come (R474). -/
def State.discardRest (l : LoadS) (s : State) : State :=
  if l.src ≠ 3 then s
  else
    let h := if l.hdr.isEmpty then l.raw else l.hdr
    let got := if l.hdr.isEmpty then l.raw.length else l.hdr.length + l.cipher.length + l.raw.length
    let rest := if h.length < 96 then 0 else LoadS.declared h - got
    { s with host := { s.host with discard := rest } }

/-- Record how a load ended. -/
def State.loadResult (l : LoadS) (code far mem : Nat) (s : State) : State :=
  let s := ((s.setNum Obj.loadResult code).setNum Obj.loadFailAddress far).setNum Obj.loadFailMemoryAddress mem
  let s := if code = 0 then (s.bump Obj.loadsCompleted 1).setFlag Obj.configFlags 1
    else (s.bump Obj.loadsFailed 1).setFlag Obj.configFlags 2
  if l.src = 1 || l.src = 2 then
    s.setCfg fun c => { c with port := { c.port with spdone := c.port.spdone || code = 0, sperr := c.port.sperr || code ≠ 0 } }
  else s

/-- Begin a load from a source. -/
def State.beginLoad (l : LoadS) (s : State) : State :=
  let s := (s.setLoad l).setLoader Loader.header
  ((s.setNum Obj.loadSource l.src).setNum Obj.loadTarget 0).setNum Obj.framesWritten 0

def LoadS.new (src addr : Nat) (raw : List Byte) : LoadS :=
  ⟨src, 0, 0, 0, addr, [], raw, [], 0, [], none, 0, 0xE4, 0x04040404, 0, 0, [], false⟩

/-- The autoload goes on with the next bitstream, or ends (R371). -/
def State.nextAuto (l : LoadS) (ok : Bool) (s : State) : State :=
  match s.cfg.auto with
  | none => s
  | some (_, later) =>
    let s := if !later && !ok then s.setFlag Obj.configFlags 4 else s
    let next := l.addr + LoadS.declared l.hdr
    if (!later && !ok) || l.hdr.isEmpty || s.autoEnd l.addr < next + 4 || leNat (s.flashRead next 4) ≠ syncWord then
      s.setCfg fun c => { c with auto := none }
    else (s.setCfg fun c => { c with auto := some (next, true) }).beginLoad (LoadS.new 5 next [])

/-- A scrub reload ends: a failure counts; with no reload left the scrubber reads on (R383, R385). -/
def State.scrubEnded (l : LoadS) (ok : Bool) (s : State) : State :=
  let s := if ok then s else (s.bump Obj.scrubReloadFailures 1).setFlag Obj.scrubFlags 4
  let s := s.setCfg fun c => { c with reloading := false, reloads := if !ok && l.whole then [] else c.reloads }
  if s.cfg.reloads.isEmpty && s.num Obj.scrubState = 3 then s.setState Obj.scrubState 1 else s

/-- The loader is Idle again. -/
def State.endLoad (l : LoadS) (ok : Bool) (s : State) : State :=
  let s := (s.setCfg fun c => { c with load := none }).setLoader Loader.idle
  let s := s.discardRest l
  let s := if l.src = 5 then s.nextAuto l ok else if l.src = 6 then s.scrubEnded l ok else s
  -- an autoload that found the loader busy begins now
  match s.cfg.auto, s.cfg.load with
  | some (a, false), none => s.beginLoad (LoadS.new 5 a [])
  | _, _ => s

/-- The target stops: channels on its queue groups halt, its queues are held in reset, its start-up steps are undone,
its bridges fall silent, and the scrubber skips it (R354, R374, R385). -/
def State.stopTarget (l : LoadS) (s : State) : State :=
  let p := s.targetPos l
  let rs := s.targetRegions l
  let s := (s.isolateChans p).clearLogic p
  let s := rs.foldl (fun s r => s.setRegion r { s.region r with steps := [] }) s
  let s := if l.whole then s.setWhole { s.fab.whole with steps := [] } else s
  let s := (List.range 8).foldl (fun s c => s.updateBridge c) s
  s.setCfg fun c => { c with
    skip := rs ++ c.skip
    reloads := if l.src = 6 then c.reloads else if l.whole then [] else c.reloads.filter fun r => !rs.contains (r % 128) }

/-- A load fails: before Loading nothing has changed; after, the target is cleared (R372, R373). A scrub reload whose
image is absent, differs or cannot be read clears its target before Loading too (R383). -/
def State.failLoad (code far mem : Nat) (s : State) : State :=
  match s.cfg.load with
  | none => s
  | some l =>
    if l.failed then s
    else
      let s := s.loadResult l code far mem
      let keeps := l.src ≠ 6 || (code ≠ LoadEnd.imageMismatch && code ≠ LoadEnd.memoryError)
      if s.loaderSt = Loader.header && keeps then s.endLoad l false
      else
        let s := if s.loaderSt = Loader.header then s.stopTarget l else s
        let s := (s.setLoad { l with failed := true }).setLoader Loader.failing
        (s.targetRegions l).foldl (fun s r => if s.regSt r = Region.lost then s else s.setRegSt r Region.clearing) s

/-! ## The configuration window's bytes (R474) -/

def State.setHost (f : HostState → HostState) (s : State) : State := { s with host := f s.host }

/-- SYNC as it travels. -/
def syncBytes : List Byte := leBytes 4 syncWord

/-- The bytes from the first SYNC at a multiple of `step`, if there is one; `at'` is the offset of the list's head. -/
def findSync (step : Nat) : Nat → List Byte → Option (List Byte)
  | _, [] => none
  | at', b :: r => if at' % step = 0 && (b :: r).take 4 = syncBytes then some (b :: r) else findSync step (at' + 1) r

/-- The loader is not busy with a path other than the window (R473). -/
def State.windowFree (s : State) : Bool := match s.cfg.load with | some l => decide (l.src = 3) | none => true
/-- The loader serves the window. -/
def State.windowServed (s : State) : Bool := match s.cfg.load with | some l => decide (l.src = 3) | none => false

/-- Bytes the loader still takes of the window's load, while it takes any (R474). -/
def State.windowWants (s : State) : Nat :=
  match s.cfg.load with
  | none => 0
  | some l =>
    if l.src ≠ 3 || l.failed then 0
    else if s.loaderSt = Loader.header then
      (if l.raw.length < 96 then 96 - l.raw.length else LoadS.declared l.raw - l.raw.length)
    else if s.loaderSt = Loader.writing then LoadS.declared l.hdr - (l.hdr.length + l.cipher.length + l.raw.length)
    else 0

/-- Give n window bytes to the loader. -/
def State.giveWindow (n : Nat) (s : State) : State :=
  let b := s.host.window.take n
  let s := (s.setHost fun h => { h with window := h.window.drop n }).bump Obj.windowBytesTaken b.length
  match s.cfg.load with
  | none => s
  | some l => s.setLoad { l with raw := l.raw ++ b }

/-- The loader takes what it can from the window: bytes to discard, a search for SYNC on 4-byte boundaries, the bytes of
the load in hand. -/
def State.pumpWindow (s : State) : State :=
  let d := min s.host.discard s.host.window.length
  let s := (s.setHost fun h => { h with window := h.window.drop d, discard := h.discard - d }).bump Obj.windowBytesTaken d
  let s := if s.cfg.load.isSome || s.host.discard ≠ 0 then s
    else match findSync 4 0 s.host.window with
      | none =>
        let n := s.host.window.length / 4 * 4
        (s.setHost fun h => { h with window := h.window.drop n }).bump Obj.windowBytesTaken n
      | some r =>
        let skip := s.host.window.length - r.length
        let s := (s.setHost fun h => { h with window := r }).bump Obj.windowBytesTaken skip
        s.beginLoad (LoadS.new 3 0 [])
  let s := s.giveWindow s.windowWants
  s.giveWindow s.windowWants

/-! ## Entering Loading (R372, R374) -/

/-- Region table entry n of a full descriptor. -/
def fullEntry (d : List Byte) (n : Nat) : Nat := field d (4 * n) 4
/-- RegionMap value of an entry (R344, R365). -/
def mapValue (e : Nat) : Nat :=
  if e.testBit 18 then bits e 0 9 + 2 ^ 16 * bits e 9 9 + 2 ^ 31 else 0

/-- The descriptor of a header. -/
def LoadS.descriptor (h : List Byte) : List Byte := slice h 96 (LoadS.desc h)
/-- Its isolation entries. -/
def LoadS.isoEntries (h : List Byte) : List Nat :=
  let d := LoadS.descriptor h
  let b := if field h 5 1 = 1 then 256 else 8
  (List.range (field d b 4)).map fun i => field d (b + 4 + 4 * i) 4

/-- The full load gives the cabinets that are there their region table. -/
def State.takeTable (l : LoadS) (s : State) : State :=
  (List.range 64).foldl (fun s r =>
    if s.lost (r / 8) || l.gone.contains (r / 8) then s
    else
      let e := fullEntry (LoadS.descriptor l.hdr) r
      let s := s.setNum (mapKey r) (mapValue e)
      if e.testBit 18 then s else s.setRegSt r Region.undefined) s

/-- Isolation codes of the regions of the target, from the descriptor (R340, R365). -/
def State.takeIso (l : LoadS) (s : State) : State :=
  (s.targetRegions l).foldl (fun s r =>
    let d := LoadS.descriptor l.hdr
    let dflt := if field l.hdr 5 1 = 1 then bits (fullEntry d r) 19 2 else bits (field d 6 1) 0 2
    let mine := (LoadS.isoEntries l.hdr).filter fun e => bits e 21 3 = r / 8 && bits e 18 3 = r % 8
    s.setRegion r { s.region r with isoDflt := dflt, iso := mine }) s

/-- The last values that boundary outputs of the target hold from now on (R340): those that a state before shows. -/
def State.takeLast (l : LoadS) (before : State) (s : State) : State :=
  (s.targetRegions l).foldl (fun s r => s.setRegion r { s.region r with
    latched := if before.regSt r = Region.running then before.lastValues (s.region r) r else (s.region r).latched }) s

/-- The target enters Loading and is cleared. -/
def State.enterLoading (l : LoadS) (s : State) : State :=
  let before := s
  let s := s.setLoader Loader.clearing
  let s := s.stopTarget l
  let s := if l.whole then { s with fab := { s.fab with bare := [] } } else s
  let s := if l.whole then (s.setState Obj.fabricState 1).takeTable l else s
  let s := (s.targetRegions l).foldl (fun s r => s.setRegSt r Region.loading) s
  let s := (s.takeIso l).takeLast l before
  let s := if l.whole then ((List.range 8).foldl (fun s c => if s.lost c || l.gone.contains c then s else s.stopLoops c) s)
    else s
  let t := s
  let s := s.clearFrames fun f => t.inTarget l f && !t.lost (farCab f) && !l.gone.contains (farCab f)
  s.setLoader Loader.writing

/-! ## The descriptor's checks (R365) -/

/-- A range of positions is one that a region may have. -/
def rangeOk (first last : Nat) : Bool := first ≤ last && last ≤ 479 && !(first ≤ 464 && 464 ≤ last)

/-- An isolation entry, with the region it must name in a partial descriptor. -/
def isoOk (e : Nat) (want : Option Nat) : Bool :=
  bits e 24 8 = 0 && bits e 16 2 ≠ 3 &&
    (match want with | some r => bits e 21 3 = r / 8 && bits e 18 3 = r % 8 | none => true)

/-- Two ranges meet. -/
def rangesMeet (a b : Nat) : Bool := bits a 0 9 ≤ bits b 9 9 && bits b 0 9 ≤ bits a 9 9

/-- The descriptor is accepted (R365), its length apart. -/
def State.descriptorOk (s : State) (h : List Byte) : Bool :=
  let d := LoadS.descriptor h
  let iso := LoadS.isoEntries h
  if field h 5 1 = 2 then
    let r := 8 * (field d 0 1) + field d 1 1
    field d 0 1 < 8 && field d 1 1 < 8 && field d 2 2 < 512 && field d 4 2 < 512 && field d 6 1 < 3 && field d 7 1 = 0 &&
      iso.length ≤ 4096 && iso.all (isoOk · (some r)) && rangeOk (field d 2 2) (field d 4 2) &&
      s.regDefined r && s.regFirst r = field d 2 2 && s.regLast r = field d 4 2 && !s.lost (r / 8) &&
      !s.inCReset (r / 8)
  else
    let es := (List.range 64).map (fullEntry d)
    es.all (fun e => bits e 21 11 = 0 && (!e.testBit 18 || (bits e 19 2 ≠ 3 && rangeOk (bits e 0 9) (bits e 9 9)))) &&
      ((List.range 64).all fun i => (List.range 64).all fun j =>
        i / 8 ≠ j / 8 || i = j || !(es.getD i 0).testBit 18 || !(es.getD j 0).testBit 18 ||
          !rangesMeet (es.getD i 0) (es.getD j 0)) &&
      iso.length ≤ 4096 && iso.all (isoOk · none) && (List.range 8).any fun c => !s.lost c

/-- DESC_BYTES fits the descriptor's ISO_ENTRIES (R542). -/
def LoadS.lengthOk (h : List Byte) : Bool :=
  let b := if field h 5 1 = 1 then 256 else 8
  b + 4 ≤ LoadS.desc h && LoadS.desc h = b + 4 + 4 * field (LoadS.descriptor h) b 4

/-! ## Keys (R363, R512) -/

/-- A key slot holds a public key, or an AES key. -/
def State.slotHas (s : State) (k bit : Nat) : Bool := (field (s.bytes (Obj.keySlot + k)) 0 1).testBit bit
def State.slotKey (s : State) (k : Nat) : List Byte := slice (s.bytes (Obj.keySlot + k)) 4 57

/-- The AES key that a slot wraps (R512). -/
def State.aesKey (s : State) (k : Nat) : List Byte :=
  let v := s.bytes (Obj.keySlot + k)
  Config.gcmStream Config.storageKey (slice v 64 12) (slice v 76 32)

/-! ## LOAD_HEADER (R372) -/

/-- The checks up to Loading, in order; the result of a failure. -/
def State.headerErr (s : State) (h : List Byte) : Option Nat :=
  let n := LoadS.desc h
  if field h (210 + n) 2 ≠ 0 then some LoadEnd.badHeader
  else if !s.slotHas (LoadS.signSlot h) 0 || (LoadS.enc h && !s.slotHas (LoadS.encSlot h) 1) then some LoadEnd.key
  else if !Config.ed448Verify (s.slotKey (LoadS.signSlot h)) (LoadS.hdrDigest h) (slice h (96 + n) 114) then
    some LoadEnd.signature
  else if !LoadS.lengthOk h || !s.descriptorOk h then some LoadEnd.descriptor
  else none

/-- The digests of a scrub reload's image are those recorded (R383). -/
def State.imageMatches (s : State) (l : LoadS) (h : List Byte) : Bool :=
  let (a, b) := if field h 5 1 = 1 then (s.bytes Obj.fullHeaderDigest, s.bytes Obj.fullBodyDigest)
    else ((s.region (8 * l.cab + l.reg)).hdrDig, (s.region (8 * l.cab + l.reg)).bodyDig)
  field h 5 1 = l.kind && LoadS.hdrDigest h = a && LoadS.bodyDigest h = b

/-- LOAD_HEADER (R372, R373, R383): the header, the descriptor and the signature are checked; the target enters Loading
and is cleared. -/
def execLoadHeader (hostBytes : List (Nat × Byte)) (memFail : Option (MemStatus × BitVec 64)) (s : State) : Res :=
  let s := s.pumpWindow
  match s.cfg.load with
  | none => .next s
  | some l =>
    if s.loaderSt ≠ Loader.header || l.failed then .next s
    else
      let l := { l with host := hostBytes }
      let s := s.setLoad l
      match s.badPiece l 0 96 memFail with
      | some p => .next (s.failLoad LoadEnd.memoryError 0 p)
      | none => match s.srcBytes l 0 96 with
        | none => .next (if l.fromPort then s else s.failLoad LoadEnd.truncated 0 0)
        | some start =>
          if LoadS.badStart start then
            .next (s.failLoad (if l.src = 6 then LoadEnd.imageMismatch else LoadEnd.badHeader) 0 0)
          else
            let n := 212 + LoadS.desc start
            match s.badPiece l 0 n memFail with
            | some p => .next (s.failLoad LoadEnd.memoryError 0 p)
            | none => match s.srcBytes l 0 n with
              | none => .next (if l.fromPort then s else s.failLoad LoadEnd.truncated 0 0)
              | some h =>
                let l := { l with hdr := h, raw := l.raw.drop n }
                let s := s.setLoad l
                if l.src = 6 && !s.imageMatches l h then .next (s.failLoad LoadEnd.imageMismatch 0 0)
                else match s.headerErr h with
                  | some e => .next (s.failLoad e 0 0)
                  | none =>
                    let d := LoadS.descriptor h
                    let part := field h 5 1 = 2
                    let l := if l.src = 6 then l
                      else { l with kind := field h 5 1, cab := if part then field d 0 1 else 0, reg := if part then field d 1 1 else 0 }
                    let gone := (List.range 8).filter fun c => s.lost c || s.inCReset c
                    let l := { l with gone := gone }
                    let s := (s.setLoad l).setNum Obj.loadTarget (l.kind + 4 * l.cab + 32 * l.reg)
                    .next (s.enterLoading l)

/-! ## Packets (R366, R367) -/

/-- The next n plaintext bytes of the body. -/
inductive Next where
  | bytes (l : List Byte) (load : LoadS)
  /-- they have not arrived -/
  | wait
  | fail (code mem : Nat)

/-- Take the next n plaintext bytes of the body. -/
def State.takeBody (s : State) (l : LoadS) (n : Nat) (memFail : Option (MemStatus × BitVec 64)) : Next :=
  if LoadS.plain l.hdr < l.pos + n then .fail LoadEnd.truncated 0
  else match s.badPiece l (l.hdr.length + l.pos) n memFail with
    | some p => .fail LoadEnd.memoryError p
    | none => match s.srcBytes l (l.hdr.length + l.pos) n with
      | none => if l.fromPort then .wait else .fail LoadEnd.truncated 0
      | some b =>
        let c := l.cipher ++ b
        let out := if LoadS.enc l.hdr then
            slice (Config.gcmStream (s.aesKey (LoadS.encSlot l.hdr)) (slice l.hdr 80 12) c) l.pos n
          else b
        .bytes out { l with pos := l.pos + n, cipher := c, raw := if l.fromPort then l.raw.drop n else l.raw }

/-- A packet command: the next header word is of its TYPE and REG, else nothing happens; a word that R366 or R367 does
not admit ends the load whichever command meets it. -/
def State.packet (type reg : Nat) (memFail : Option (MemStatus × BitVec 64)) (act : Nat → LoadS → State → State) (s : State) :
    State :=
  let s := s.pumpWindow
  match s.cfg.load with
  | none => s
  | some l =>
    if s.loaderSt ≠ Loader.writing || l.failed || l.left ≠ 0 then s
    else match s.takeBody l 4 memFail with
      | .wait => s
      | .fail c m => s.failLoad c 0 m
      | .bytes w l' =>
        let v := leNat w
        let ty := bits v 29 3
        let r := bits v 24 5
        let n := bits v 0 24
        let bad := 3 < ty || (ty = 1 && (2 < r || n ≠ 1)) || (ty = 2 && (r ≠ 0 || n = 0)) ||
          ((ty = 0 || ty = 3) && (r ≠ 0 || n ≠ 0))
        if bad then s.failLoad LoadEnd.badPacket 0 0
        else if ty ≠ type || (ty = 1 && r ≠ reg) then s
        else act n l' s

/-- PACKET_NOP (R366). -/
def execPacketNop (s : State) : Res := .next (s.packet 0 0 none fun _ l s => s.setLoad l)

/-- The data word of a WRITE packet. -/
def State.writeReg (reg : Nat) (bad : Nat → Bool) (set : Nat → LoadS → LoadS) (s : State) : State :=
  s.packet 1 reg none fun _ l s => match s.takeBody l 4 none with
    | .wait => s
    | .fail c m => s.failLoad c 0 m
    | .bytes w l => if bad (leNat w) then s.failLoad LoadEnd.badPacket 0 0 else s.setLoad (set (leNat w) l)

/-- WRITE_FAR (R367). -/
def execWriteFar (s : State) : Res := .next (s.writeReg 0 (fun _ => false) fun v l => { l with far := v })

/-- The four codes of a STARTSEQ value. -/
def startCodes (v : Nat) : List Nat := (List.range 4).map fun k => bits v (2 * k) 2

/-- WRITE_STARTSEQ (R367): four distinct codes, bits [31:8] 0. -/
def execWriteStartseq (s : State) : Res :=
  .next (s.writeReg 1 (fun v => 256 ≤ v || (startCodes v).eraseDups.length ≠ 4) fun v l => { l with seq := v })

/-- WRITE_STARTDLY (R367). -/
def execWriteStartdly (s : State) : Res := .next (s.writeReg 2 (fun _ => false) fun v l => { l with dly := v })

/-- Write the frames of a packet that are there, n at most (R366, R372). -/
def State.writeFrames (memFail : Option (MemStatus × BitVec 64)) : Nat → State → State
  | 0, s => s
  | n + 1, s =>
    match s.cfg.load with
    | none => s
    | some l =>
      if l.left = 0 || l.failed then s
      else if !farValid l.far then s.failLoad LoadEnd.badAddress l.far 0
      else if l.only.isNone && !s.inTarget l l.far then s.failLoad LoadEnd.outOfRegion l.far 0
      else match s.takeBody l 384 memFail with
        | .wait => s
        | .fail c m => s.failLoad c 0 m
        | .bytes b l' =>
          if s.inTarget l l.far && !s.ioOk l.far b then s.failLoad LoadEnd.ioStandard l.far 0
          else
            let skip := !s.inTarget l l.far || s.lost (farCab l.far) || l.gone.contains (farCab l.far)
            let s := if skip then s else ((s.putFrame l.far b).bump Obj.framesWritten 1).bump Obj.framesLoaded 1
            State.writeFrames memFail n (s.setLoad { l' with far := farNext l.far, left := l.left - 1 })

/-- PACKET_FRAMES (R366, R372): the frames of the packet that have arrived. -/
def execPacketFrames (memFail : Option (MemStatus × BitVec 64)) (s : State) : Res :=
  let s := s.packet 2 0 memFail fun n l s => s.setLoad { l with left := n }
  match s.cfg.load with
  | none => .next s
  | some l => if s.loaderSt = Loader.writing then .next (s.writeFrames memFail l.left) else .next s

/-! ## Start-up (R376) -/

/-- The clock loops that LOCK waits for are locked. -/
def State.lockMet (s : State) (l : LoadS) : Bool :=
  let locked (c n : Nat) : Bool := s.num (loopKey c n) = 2
  if l.whole then
    (List.range 8).all fun c => s.lost c || l.gone.contains c ||
      (List.range 16).all fun n => !s.loopReferenced c n || locked c n
  else
    let r := l.only.getD (8 * l.cab + l.reg)
    !l.gone.contains (r / 8) &&
      (List.range 16).all fun n => !s.loopUsed (r / 8) n (s.targetPos l (r / 8)) || locked (r / 8) n

/-- A start-up step acts on the target (R376). -/
def State.actStep (l : LoadS) (code : Nat) (s : State) : State :=
  let s := (s.targetRegions l).foldl (fun s r => s.setRegion r { s.region r with steps := code :: (s.region r).steps }) s
  let s := if l.whole then s.setWhole { s.fab.whole with steps := code :: s.fab.whole.steps } else s
  let s := if l.whole && code = 1 then s.setCfg fun c => { c with driven := true } else s
  let s := if code = 2 then s.loadResets (s.targetPos l) else s
  (List.range 8).foldl (fun s c => s.updateBridge c) s

/-- The k-th step begins. -/
def State.beginUp (l : LoadS) (k : Nat) (s : State) : State :=
  (s.setLoad { l with stepNo := k }).actStep l ((startCodes l.seq).getD (k - 1) 0)

/-- The target reaches Running: its digests and keys are recorded, and its stored image for a load from memory (R370,
R372, R381). -/
def State.reachRunning (l : LoadS) (s : State) : State :=
  let hd := LoadS.hdrDigest l.hdr
  let bd := LoadS.bodyDigest l.hdr
  let sign := some (LoadS.signSlot l.hdr)
  let enc := if LoadS.enc l.hdr then some (LoadS.encSlot l.hdr) else none
  let full := field l.hdr 5 1 = 1
  let s := (s.targetRegions l).foldl (fun s r =>
    let v := { s.region r with loads := sat32 ((s.region r).loads + 1) }
    -- a region that a static reload goes on to load from its own image keeps what its digests are compared with
    let v := if l.src = 6 && s.cfg.reloads.contains (128 + r) then v
      else { v with hdrDig := hd, bodyDig := bd, fromFull := full, signSlot := sign, encSlot := enc,
                    image := if !full && l.src = 4 then l.addr else v.image }
    (s.setRegion r v).setRegSt r Region.running) s
  let s := if l.whole then
      let s := (s.setBytes Obj.fullHeaderDigest hd).setBytes Obj.fullBodyDigest bd
      let s := if l.src = 4 then s.setNum Obj.fullImage l.addr else s
      (s.setWhole { s.fab.whole with signSlot := sign, encSlot := enc }).setState Obj.fabricState 2
    else s
  (s.loadResult l 0 0 0).endLoad l true

/-- PACKET_END (R366, R372): the body ends there; the digest and the tag are checked and start-up begins. -/
def execPacketEnd (s : State) : Res :=
  .next (s.packet 3 0 none fun _ l s =>
    if l.pos ≠ LoadS.plain l.hdr then s.failLoad LoadEnd.truncated 0 0
    else
      let tagLen := if LoadS.enc l.hdr then 16 else 0
      match s.badPiece l (l.hdr.length + l.pos) tagLen none with
      | some p => s.failLoad LoadEnd.memoryError 0 p
      | none => match s.srcBytes l (l.hdr.length + l.pos) tagLen with
        | none => if l.fromPort then s else s.failLoad LoadEnd.truncated 0 0
        | some tag =>
          let l := { l with raw := if l.fromPort then l.raw.drop tagLen else l.raw }
          let s := (s.setLoad l).setLoader Loader.checking
          let aad := l.hdr
          if Config.shake256 (l.cipher ++ tag) 64 ≠ LoadS.bodyDigest l.hdr then s.failLoad LoadEnd.digest 0 0
          else if LoadS.enc l.hdr && Config.gcmTag (s.aesKey (LoadS.encSlot l.hdr)) (slice l.hdr 80 12) aad l.cipher ≠ tag then
            s.failLoad LoadEnd.tag 0 0
          else
            let s := s.setLoader Loader.starting
            let s := (s.targetRegions l).foldl (fun s r => s.setRegSt r Region.starting) s
            let s := if l.whole then (List.range 8).foldl (fun s c => if s.lost c || l.gone.contains c then s else s.startLoops c) s
              else s
            s.beginUp l 1)

/-- START_UP_STEP (R376): the step in hand is met and its delay has run; the next one acts, or the target is Running. -/
def execStartUpStep (s : State) : Res :=
  match s.cfg.load with
  | none => .next s
  | some l =>
    if s.loaderSt ≠ Loader.starting || l.failed then .next s
    else if (startCodes l.seq).getD (l.stepNo - 1) 0 = 0 && !s.lockMet l then .next s
    else if 4 ≤ l.stepNo then .next (s.reachRunning l)
    else .next (s.beginUp l (l.stepNo + 1))

/-- LOCK_TIMEOUT (R376): LOCK is not met within 1 ms. -/
def execLockTimeout (s : State) : Res :=
  match s.cfg.load with
  | none => .next s
  | some l =>
    if s.loaderSt = Loader.starting && (startCodes l.seq).getD (l.stepNo - 1) 0 = 0 && !s.lockMet l then
      .next (s.failLoad LoadEnd.lockTimeout 0 0)
    else .next s

/-- LOAD_IDLE_TIMEOUT (R373): a port or the window has brought no data for LoadIdleTimeoutMs. -/
def execLoadIdleTimeout (s : State) : Res :=
  match s.cfg.load with
  | none => .next s
  | some l =>
    if l.fromPort && (s.loaderSt = Loader.header || s.loaderSt = Loader.writing) then .next (s.failLoad LoadEnd.timeout 0 0)
    else .next s

/-- LoadAbort (R378); with no load in progress it does nothing. -/
def writeLoadAbort : Handler := fun _ s => .ok (s.failLoad LoadEnd.aborted 0 0)

/-- LOAD_ABORT. -/
def execLoadAbort (q : Req) (val : List Byte) (s : State) : Res := .next (serveOwn q Obj.loadAbort val writeLoadAbort s)

/-- TARGET_CLEARED (R372, R375): a partial target is Empty; after a full load the fabric is unconfigured. -/
def execTargetCleared (s : State) : Res :=
  match s.cfg.load with
  | none => .next s
  | some l =>
    if s.loaderSt ≠ Loader.failing then .next s
    else
      let t := s
      let s := s.clearFrames fun f => t.inTarget l f && !t.lost (farCab f)
      let s := s.stopTarget l
      let s := if l.whole then
          let s := (List.range 64).foldl (fun s r =>
            if s.lost (r / 8) then s else (s.setNum (mapKey r) 0).setRegSt r Region.undefined) s
          s.setState Obj.fabricState 0
        else (s.targetRegions l).foldl (fun s r => if s.regSt r = Region.lost then s else s.setRegSt r Region.empty) s
      .next (s.endLoad l false)

/-! ## LoadFromMemory (R368, R370) -/

/-- LoadFromMemory: refused while the loader is busy. -/
def writeLoadFromMemory : Handler := fun v s =>
  if s.cfg.load.isSome then .error Err.refusedInState else .ok (s.beginLoad (LoadS.new 4 v.toNat []))

/-- LOAD_FROM_MEMORY. -/
def execLoadFromMemory (q : Req) (val : List Byte) (s : State) : Res :=
  .next (serveOwn q Obj.loadFromMemory val writeLoadFromMemory s)

/-! ## The slave port (R369) -/

/-- Bits of a byte, bit 7 first. -/
def byteBits (b : Byte) : List Bool := (List.range 8).map fun i => b.getLsbD (7 - i)

/-- A byte of eight bits, bit 7 first. -/
def bitsByte (l : List Bool) : Byte := BitVec.ofNat 8 (l.foldl (fun n b => 2 * n + b2n b) 0)

/-- The bits that an edge brings, in stream order (R369). -/
def edgeBits (width : Nat) (spd : BitVec 32) : List Bool :=
  if width = 1 then [spd.getLsbD 0]
  else if width = 4 then (List.range 4).map fun i => spd.getLsbD (3 - i)
  else (List.range 4).flatMap fun i => byteBits ((spd >>> (8 * i)).truncate 8)

/-- The loader serves the port's stream. -/
def State.portLoad (s : State) : Option LoadS :=
  match s.cfg.load with
  | some l => if l.src = 1 || l.src = 2 then some l else none
  | none => none

/-- The header of the port's load stands in the loader, which checks it or clears the target. -/
def LoadS.headerDone (l : LoadS) : Bool :=
  96 ≤ l.raw.length && (LoadS.badStart (l.raw.take 96) || 212 + LoadS.desc l.raw ≤ l.raw.length)

/-- SPBUSY (R369, R370): another path is served, or the port's own load takes no data now. -/
def State.spBusy (s : State) : Bool :=
  match s.cfg.load with
  | none => false
  | some l =>
    if l.src = 1 || l.src = 2 then
      (s.loaderSt = Loader.header && l.headerDone) || (s.loaderSt ≠ Loader.header && s.loaderSt ≠ Loader.writing)
    else true

/-- Whole bytes of the bits received, and the bits left. -/
def splitBits : Nat → List Bool → List Byte × List Bool
  | 0, l => ([], l)
  | f + 1, l => if l.length < 8 then ([], l) else
    let (b, r) := splitBits f (l.drop 8)
    (bitsByte (l.take 8) :: b, r)

/-- Bytes go to the loader: those of the load in hand, or a search for SYNC. -/
def State.portBytes (width : Nat) (b : List Byte) (s : State) : State :=
  match s.portLoad with
  | some l => s.setLoad { l with raw := l.raw ++ b }
  | none =>
    let all := s.cfg.port.buf ++ b
    match findSync (if width = 32 then 4 else 1) 0 all with
    | some r =>
      (s.setCfg fun c => { c with port := { c.port with buf := [], synced := true } }).beginLoad
        (LoadS.new (if width = 32 then 2 else 1) 0 r)
    | none =>
      let keep := if width = 32 then all.drop (all.length / 4 * 4) else all.drop (all.length - 3)
      s.setCfg fun c => { c with port := { c.port with buf := keep } }

/-- One rising SPCLK edge. -/
def State.portEdge (spd : BitVec 32) (s : State) : State :=
  let w := s.num Obj.slavePortWidth
  let busy := s.spBusy
  let own := s.portLoad.isSome
  let excess := if busy then s.cfg.port.excess + 1 else 0
  let s := s.setCfg fun c => { c with port := { c.port with excess := excess } }
  if busy && !own then s
  else if busy && 16 < excess then s.failLoad LoadEnd.overrun 0 0
  else
    let (b, rest) := splitBits 8 (s.cfg.port.bits ++ edgeBits w spd)
    let s := s.setCfg fun c => { c with port := { c.port with bits := rest } }
    if b.isEmpty then s else s.portBytes w b

/-- SLAVE_PORT_DATA (R369): data is sampled while SPSEL_N is 0 and the ports are enabled. -/
def execSlavePortData (edges : List SlaveEdge) (s : State) : Res :=
  .next (edges.foldl (fun s e => match e with
    | .data spd =>
      if s.cfg.port.selected && s.num Obj.slavePortsEnabled = 1 && s.num Obj.deviceState ≠ 1 && !s.blockHeld 0x20 then s.portEdge spd else s) s)

/-- Every byte that the header declares has come, END among them. -/
def LoadS.allIn (l : LoadS) : Bool :=
  if l.hdr.isEmpty then 96 ≤ l.raw.length && LoadS.declared l.raw ≤ l.raw.length
  else LoadS.declared l.hdr ≤ l.hdr.length + l.cipher.length + l.raw.length

/-- SPSEL_RISE (R369): before END it ends the load with TRUNCATED. -/
def execSpselRise (s : State) : Res :=
  let before := match s.portLoad with
    | some l => !l.allIn && (s.loaderSt = Loader.header || s.loaderSt = Loader.clearing || s.loaderSt = Loader.writing)
    | none => false
  let s := s.setCfg fun c => { c with port := { c.port with selected := false, bits := [], buf := [], excess := 0 } }
  .next (if before then s.failLoad LoadEnd.truncated 0 0 else s)

/-- SPSEL_FALL (R369): the port is selected; SPDONE and SPERR fall. -/
def execSpselFall (s : State) : Res :=
  .next (s.setCfg fun c => { c with port := ⟨true, [], [], 0, false, false, false⟩ })

/-! ## Autoload (R371) -/

/-- An autoload slot is valid. -/
def State.slotValid (s : State) (i : Nat) : Bool :=
  let b := autoSlot i
  let n := leNat (s.flashRead (b + 4) 4)
  leNat (s.flashRead b 4) = 0x4B19D2A6 && leNat (s.flashRead (b + 60) 4) = recCommit && n ≤ 0x1800000 - 64 &&
    leNat (s.flashRead (b + 8) 4) = crc32c (s.flashRead (b + 64) n)

/-- Step 9 begins: the straps select what is loaded. -/
def State.startAutoload (s : State) : State :=
  let sel := s.sec.bootSel
  if sel = 0 then s
  else
    let i := if sel = 3 then s.num Obj.autoloadImage else sel - 1
    let a := autoSlot i + 64
    if !s.slotValid i then s.setFlag Obj.configFlags 4
    else
      let s := s.setCfg fun c => { c with auto := some (a, false) }
      if s.cfg.load.isSome then s else s.beginLoad (LoadS.new 5 a [])

/-- AutoloadStore: the slot is erased; source and length are those in force. -/
def writeAutoloadStore : Handler := fun v s =>
  if s.cfg.storing.isSome then .error Err.refusedInState
  else
    let i := v.toNat - 1
    .ok ((s.erase (autoSlot i) 0x1800000).setCfg fun c =>
      { c with storing := some (i, s.num Obj.autoloadSource, s.num Obj.autoloadLength) })

/-- AUTOLOAD_STORE. -/
def execAutoloadStore (q : Req) (val : List Byte) (s : State) : Res :=
  .next (serveOwn q Obj.autoloadStore val writeAutoloadStore s)

/-- AUTOLOAD_STORE_DONE (R371): the bytes, the header and COMMIT are programmed. Bytes that device memory does not give
are free values (log 1). -/
def execAutoloadStoreDone (s : State) : Res :=
  match s.cfg.storing with
  | none => .next s
  | some (i, a, n) =>
    let there (j : Nat) : Bool := s.access (a + j) .ok = .ok &&
      (match s.place (a + j) with | .host _ | .remote _ _ => false | _ => true)
    let (f, s) := if (List.range n).all there then ([], s) else s.freshBytes n
    let b := (List.range n).map fun j => if there j then s.byte ((a + j) % 0x1000000000000) else f.getD j 0
    let s := s.program (autoSlot i + 64) b
    let s := s.program (autoSlot i) (leBytes 4 0x4B19D2A6 ++ leBytes 4 n ++ leBytes 4 (crc32c b) ++ List.replicate 48 0)
    let s := s.program (autoSlot i + 60) (leBytes 4 recCommit)
    .next ((s.setCfg fun c => { c with storing := none }).setFlag Obj.configFlags 8)

end Sys2Proof.Machine
end

