-- ==== Sys2Proof/Machine/HostIf.lean ====
section
/-! DEFINITION. The host interface (R458–R477): configuration space, BAR2, MSI-X masking, completions, the link, and the
configuration window. The bytes of host memory that a device read returns are operands of the command that uses them. -/

namespace Sys2Proof.Machine

/-! ## Configuration space (R458, R459) -/

/-- Sizes of the two memory BARs: BAR0 is 64-bit and non-prefetchable, BAR2 64-bit and prefetchable. -/
abbrev bar0Size : Nat := 0x8000000
abbrev bar2Size : Nat := 0x4000000000

/-- Dwords of the type 0 header that R459 fixes, by byte offset: identity, class code, and what a BAR reads after all ones
are written to it. The revision and the vendor number have no value in the spec. -/
def headerDword (offset : Nat) : Nat :=
  match offset with
  | 0x00 => Config.pciVendor.toNat + 2 ^ 16 * 0x8150
  | 0x08 => Config.pciRevision.toNat + 2 ^ 8 * 0x120000
  | 0x10 => (2 ^ 32 - bar0Size) + 4
  | 0x14 => 0xFFFFFFFF
  | 0x18 => 0xC
  | 0x1C => 2 ^ 32 - bar2Size / 2 ^ 32
  | _ => 0

/-- Non-posted requests that the endpoint keeps outstanding (R458). -/
def hostTags (tenBit : Bool) : Nat := if tenBit then 768 else 256

/-! ## BAR2 (R463, R464, R539) -/

/-- The 64-byte pieces that a request touches: their first addresses. -/
def pieceBases (a n : Nat) : List Nat := (List.range ((a % 64 + n + 63) / 64)).map fun i => a / 64 * 64 + 64 * i

/-- How piece i of a BAR2 request answers, with what its medium reports. -/
def State.pieceStatus (s : State) (errors : List (Nat × MemStatus)) (i p : Nat) : MemStatus :=
  s.access p (((errors.find? (·.1 = i)).map (·.2)).getD .ok)

/-- A BAR2 request met an error (R464). -/
def State.bar2Error (s : State) : State := (s.bump Obj.bar2Errors 1).setFlag Obj.hostFlags 1

/-- A piece of a BAR2 request lies in a cabinet whose operating point changes: the request waits (R254). -/
def State.bar2Waits (s : State) (a n : Nat) : Bool := (pieceBases a n).any s.changing

/-- BAR2_READ (R464): a failing piece ends the whole request with Completer Abort. -/
def execBar2Read (offset : BitVec 38) (len : Nat) (errors : List (Nat × MemStatus)) (s : State) : Res :=
  if s.num Obj.hostLinkState ≠ 2 then .next s
  else
    let a := s.num Obj.bar2Aperture + offset.toNat
    let ps := pieceBases a len
    if s.bar2Waits a len then .next s
    else if (ps.zip (List.range ps.length)).all fun (p, i) => s.pieceStatus errors i p = .ok then .next (s.emit (.hostData (s.read a len)))
    else .next (s.bar2Error.emit .completerAbort)

/-- BAR2_WRITE (R464): failing pieces are dropped, the others written. -/
def execBar2Write (offset : BitVec 38) (data : List Byte) (errors : List (Nat × MemStatus)) (s : State) : Res :=
  if s.num Obj.hostLinkState ≠ 2 then .next s
  else
    let a := s.num Obj.bar2Aperture + offset.toNat
    let ps := pieceBases a data.length
    let ok := (ps.zip (List.range ps.length)).filter fun (p, i) => s.pieceStatus errors i p = .ok
    let put := ((List.range data.length).filter fun j => ok.any fun e => e.1 = (a + j) / 64 * 64).map fun j => (a + j, data.getD j 0)
    let t := s.pokes put
    .next (if s.bar2Waits a data.length then s else if ok.length = ps.length then t else t.bar2Error)

/-- BAR2_APERTURE_WRITE (R463). -/
def execBar2ApertureWrite (q : Req) (val : List Byte) (s : State) : Res :=
  .next (serveOwn q Obj.bar2Aperture val Handler.plain s)

/-! ## MSI-X (R462) -/

/-- Pending vectors that are unmasked send their message once. -/
def State.flushMsix (s : State) : State :=
  if !(s.host.msixEnable && s.host.busMaster) then s
  else
    let go := s.host.pendingVec.filter fun v => s.host.unmasked.contains v
    go.foldl (fun s v => s.emit (.msix v)) (s.setHost fun h => { h with pendingVec := h.pendingVec.filter fun v => !go.contains v })

/-- MSIX_UNMASK (R462): the host's driver has enabled MSI-X and clears the vector's mask bit (log 34). -/
def execMsixUnmask (vector : Fin 2048) (s : State) : Res :=
  let v := vector.val
  .next (s.setHost fun h =>
    { h with msixEnable := true, unmasked := if h.unmasked.contains v then h.unmasked else v :: h.unmasked }).flushMsix

/-! ## Completions and the link (R471, R476) -/

/-- HOST_READ_COMPLETION (R471): a failed read counts; its requester is told by the status of its own command. -/
def execHostReadCompletion (_tag : Nat) (status : MemStatus) (timedOut : Bool) (_data : List Byte) (s : State) : Res :=
  if timedOut then .next ((s.bump Obj.hostReadTimeouts 1).setFlag Obj.hostFlags 2)
  else if status ≠ .ok then .next ((s.bump Obj.hostUncorrectable 1).setFlag Obj.hostFlags 4)
  else .next s

/-- HostLinkState leaves Up (R477). -/
def State.leaveUp (st : Nat) (s : State) : State :=
  let was := s.num Obj.hostLinkState = 2
  let s := ((s.setState Obj.hostLinkState st).setNum Obj.hostLinkWidth 0).setNum Obj.hostLinkRate 0
  if was then (s.bump Obj.hostLinkDowns 1).setFlag Obj.hostFlags 8 else s

/-- HOST_LINK_DOWN (R476): the link trains again. -/
def execHostLinkDown (s : State) : Res := if s.num Obj.hostLinkState = 2 then .next (s.leaveUp 1) else .next s

/-- HOT_RESET (R480): the endpoint's configuration space and link state only; ownership stays (R106). -/
def execHotReset (s : State) : Res :=
  if s.num Obj.hostLinkState = 0 then .next s
  else
    let s := (s.leaveUp 1).bump Obj.hotResets 1
    .next (s.setHost fun h => { h with busMaster := false, msixEnable := false, table := [], unmasked := [], pendingVec := [] })

/-! ## The configuration window (R472–R475) -/

/-- A dropped window write (R473). -/
def State.dropWindow (code : Nat) (s : State) : State :=
  (((s.setNum Obj.lastErrorCode code).setNum Obj.lastErrorObject 0).bump Obj.windowWritesDropped 1).setFlag Obj.hostFlags 0x10

/-- WINDOW_WRITE (R472–R475): whole dwords in order of arrival. Bytes beyond the buffer's 65,536 stand on the link without
credits and are not lost; WindowFree reads 0 meanwhile (log 100). -/
def execWindowWrite (offset : BitVec 23) (data : List Byte) (s : State) : Res :=
  if s.num Obj.hostLinkState ≠ 2 || s.rst.serve = .none then .next s
  else if offset.toNat % 4 ≠ 0 || data.length % 4 ≠ 0 then
    .next ((s.bump Obj.windowWritesDropped 1).setFlag Obj.hostFlags 0x10)
  else if s.num Obj.owner ≠ 1 then .next (s.dropWindow Err.notOwner)
  else if !s.windowFree || s.blockHeld 0x20 then .next (s.dropWindow Err.refusedInState)
  else .next (s.setHost fun h => { h with window := h.window ++ data }).pumpWindow

/-- WindowRestart (R474). -/
def writeWindowRestart : Handler := fun _ s =>
  if s.windowServed then .error Err.refusedInState
  else .ok (s.setHost fun h => { h with window := [], discard := 0 })

/-- WINDOW_RESTART. -/
def execWindowRestart (q : Req) (val : List Byte) (s : State) : Res :=
  .next (serveOwn q Obj.windowRestart val writeWindowRestart s)

end Sys2Proof.Machine
end

