-- ==== Sys2Proof/Machine/Gddr.lean ====
section
/-! DEFINITION. GDDR7 channels and operating points (R242–R254), CXL ports (R255–R258) and the end of a page's
migration (R263, R267). -/

namespace Sys2Proof.Machine

/-! ## Channels (R243, R247–R252) -/

def Chan.empty : Chan := ⟨[], [], [], 0, 0, false, []⟩
def State.chan (s : State) (c k : Nat) : Chan := s.mm.chans.get Chan.empty (24 * c + k)
def State.setChan (c k : Nat) (q : Chan) (s : State) : State :=
  { s with mm := { s.mm with chans := s.mm.chans.put (24 * c + k) q } }

/-- Row of a channel address (R243). -/
def chanRow (a : Nat) : Nat := bits a 15 15
/-- Bank of a channel address (R243). -/
def chanBank (a : Nat) : Nat := bits a 11 4 ^^^ bits a 15 4

/-- The request's channel, and its address there (R38). -/
def chanOf (r : ChanReq) : Nat := slotChannel r.offset.toNat
def chanAddr (r : ChanReq) : Nat := slotChanAddr r.offset.toNat

/-- Position of a class in the order of R247. -/
def classNo : ChanClass → Nat
  | .stream => 0 | .fabricDma => 1 | .migration => 2 | .config => 3 | .bar2 => 4 | .peer => 5

/-- A queue has room for an offer (R248). -/
def Chan.room (q : Chan) (r : ChanReq) : Bool :=
  if r.isWrite then (q.queue.filter (·.isWrite)).length < 32
  else (q.queue.filter fun e => !e.isWrite && e.bank = chanBank (chanAddr r)).length < 16

/-- Weight of a class (R247). -/
def State.weight (s : State) (cls : Nat) : Nat := bits (s.num Obj.arbWeights) (8 * cls) 8

/-- The offer to admit and the turn after it: a real-time read or write first, then the class whose turn it is while
its weight lasts, then the others in turn. -/
def State.pickOffer (s : State) (q : Chan) (offers : List ChanReq) : Option (ChanReq × Nat × Nat) :=
  let ok := offers.filter q.room
  match ok.find? (·.realTime) with
  | some r => some (r, q.turn, q.credit)
  | none =>
    let ofClass (i : Nat) : Option ChanReq := ok.find? fun r => classNo r.cls = i
    match (if 0 < q.credit then ofClass q.turn else none) with
    | some r => some (r, q.turn, q.credit - 1)
    | none => ((List.range 6).map fun i => (q.turn + 1 + i) % 6).findSome? fun i =>
        (ofClass i).map fun r => (r, i, s.weight i - 1)

/-- An admitted request joins the queue; a read that matches a queued write's bank and row puts its bank in in-order
mode (R249). -/
def State.admitReq (c k : Nat) (r : ChanReq) (s : State) : State :=
  let q := s.chan c k
  let e : ChanEnt := ⟨r.tag, r.isWrite, r.realTime, chanBank (chanAddr r), chanRow (chanAddr r)⟩
  let hits := (q.queue.filter fun f => f.isWrite && f.bank = e.bank && f.row = e.row).map (·.tag)
  let enters := !e.isWrite && !hits.isEmpty && !(q.inOrder.any (·.1 = e.bank))
  let q := { q with queue := q.queue ++ [e], inOrder := if enters then (e.bank, hits) :: q.inOrder else q.inOrder }
  let writes := (q.queue.filter (·.isWrite)).length
  let q := { q with draining := q.draining || bits (s.num Obj.writeDrainMarks) 0 8 ≤ writes }
  let s := s.setChan c k q
  if enters then s.bump Obj.inOrderEntries 1 else s

/-- CHANNEL_ADMIT (R38, R247–R250, R254): one BCLK cycle of a Ready cabinet's channel; of the requests offered, those
whose slot offset is spread to this channel and populated count. -/
def execChannelAdmit (c : Cab) (k : Fin 24) (offers : List ChanReq) (s : State) : Res :=
  if s.num (Obj.gddrCabinetState + c) ≠ 2 then .next s
  else match s.pickOffer (s.chan c k) (offers.filter fun r => chanOf r = k.val && r.offset.toNat < Config.gddrPerCabinet) with
    | none => .next s
    | some (r, turn, credit) =>
      .next ((s.setChan c k { s.chan c k with turn := turn, credit := credit }).admitReq c k r)

/-- The oldest request of a bank. -/
def Chan.oldest (q : Chan) (bank : Nat) : Option ChanEnt := q.queue.find? (·.bank = bank)

/-- A bank is in in-order mode. -/
def Chan.ordered (q : Chan) (bank : Nat) : Bool := q.inOrder.any (·.1 = bank)

/-- A read may be served now (R248, R249). -/
def Chan.readReady (q : Chan) (e : ChanEnt) : Bool :=
  if q.ordered e.bank then q.oldest e.bank = some e
  else
    let reads := q.queue.filter fun f => !f.isWrite && f.bank = e.bank
    q.open?.find? e.bank = some e.row || !(reads.any fun f => q.open?.find? f.bank = some f.row) || reads.head? = some e

/-- A write may be served now (R248–R250). -/
def Chan.writeReady (q : Chan) (e : ChanEnt) : Bool :=
  q.oldest e.bank = some e &&
    (q.draining || q.ordered e.bank || !(q.queue.any fun f => !f.isWrite && q.readReady f) ||
      q.queue.any fun f => !f.isWrite && f.realTime && f.bank = e.bank)

/-- A request leaves its queue; its row stays open while a queued request hits it (R248). -/
def Chan.finish (q : Chan) (e : ChanEnt) : Chan :=
  let rest := q.queue.erase e
  let hit := rest.any fun f => f.bank = e.bank && f.row = e.row
  { q with queue := rest, open? := if hit then q.open?.put e.bank e.row else q.open?.del e.bank }

/-- An uncorrectable response (R251). -/
def State.gddrBad (retries : Nat) (s : State) : State :=
  ((s.bump Obj.readCrcRetries retries).bump Obj.gddrUncorrectable 1).setFlag Obj.gddrFlags 1

/-- CHANNEL_READ_SERVED (R248, R251). The response itself reaches the requester in its own command. -/
def execChannelReadServed (c : Cab) (k : Fin 24) (tag : Nat) (outcome : ReadOutcome) (s : State) : Res :=
  let q := s.chan c k
  match q.queue.find? fun e => e.tag = tag && !e.isWrite with
  | none => .next s
  | some e =>
    if !q.readReady e then .next s
    else
      let s := s.setChan c k (q.finish e)
      match outcome with
      | .good r corrected =>
        let s := s.bump Obj.readCrcRetries r.val
        .next (if corrected then s.bump Obj.onDieCorrected 1 else s)
      | .crcFailed => .next (s.gddrBad 2)
      | .onDieUncorrectable r => .next (s.gddrBad r)

/-- CHANNEL_WRITE_COMPLETE (R248–R251): the bank leaves in-order mode with the last write matched at entry; a drain
batch ends at the low mark. -/
def execChannelWriteComplete (c : Cab) (k : Fin 24) (tag : Nat) (replays : Nat) (s : State) : Res :=
  let q := s.chan c k
  match q.queue.find? fun e => e.tag = tag && e.isWrite with
  | none => .next s
  | some e =>
    if !q.writeReady e then .next s
    else
      let q := q.finish e
      let ord := (q.inOrder.map fun (b, l) => if b = e.bank then (b, l.erase tag) else (b, l)).filter fun p => !p.2.isEmpty
      let left := (q.queue.filter (·.isWrite)).length
      let low := bits (s.num Obj.writeDrainMarks) 8 8
      .next ((s.setChan c k { q with inOrder := ord, draining := q.draining && low < left }).bump Obj.writeCrcReplays replays)

/-- BANK_REFRESH (R252): the bank is precharged and refreshed; the order of its requests does not change. -/
def execBankRefresh (c : Cab) (k : Fin 24) (bank : Fin 16) (s : State) : Res :=
  let q := s.chan c k
  .next (s.setChan c k { q with open? := q.open?.del bank, refreshed := q.refreshed.put bank (q.refreshed.get 0 bank + 1) })

/-! ## Operating points (R253, R254) -/

/-- Number of a point in AvailablePoints. -/
def pointBit (v : Nat) : Nat := (v - 28) / 4

/-- A record of the manufacturing data area is good (R245). -/
def pointGood (c p : Nat) : Bool := crc32c (Config.pointRecord c p) = (Config.pointCrc c p).toNat

/-- AvailablePoints: the points whose records are good in every cabinet (R245). -/
def availableNow : Nat := (List.range 4).foldl (fun v p => if (List.range 8).all fun c => pointGood c p then v + 2 ^ p else v) 0

/-- The register sets of a cabinet's controllers. -/
def State.pointSets (s : State) (c : Nat) : List Byte × List Byte := s.mm.sets.get ([], []) c
def State.setSets (c : Nat) (v : List Byte × List Byte) (s : State) : State := { s with mm := { s.mm with sets := s.mm.sets.put c v } }

/-- A cabinet's controllers load the record of a point and write zero to its GDDR7; its stream buffer and operand memories
are written to zero with it (R246). -/
def State.memoryUp (c point : Nat) (s : State) : State :=
  let s := s.setSets c (Config.pointRecord c (pointBit point), (s.pointSets c).2)
  { s with mem := s.mem.filter fun e => !cabHolds c e.1 }

/-- The next cabinet changes, Failed and Lost ones skipped: its shadow sets take the records of the new point, and admission
is held (R254). With none left the change is complete. -/
def State.nextChange (s : State) : List Nat → State
  | [] =>
    let s := { s with mm := { s.mm with changing := [] } }
    let s := (s.setNum Obj.activeOperatingPoint (s.num Obj.operatingPoint)).setNum Obj.changingCabinet 0xFF
    ((s.bump Obj.operatingPointChanges 1).setState Obj.changeState 0).setFlag Obj.gddrFlags 2
  | c :: r =>
    if s.num (Obj.gddrCabinetState + c) ≠ 2 then State.nextChange s r
    else
      let s := s.setSets c ((s.pointSets c).1, Config.pointRecord c (pointBit (s.num Obj.operatingPoint)))
      ({ s with mm := { s.mm with changing := c :: r } }.setNum Obj.changingCabinet c).setState (Obj.gddrCabinetState + c) 3

/-- OperatingPoint. -/
def writeOperatingPoint : Handler := fun v s =>
  if !((s.num Obj.availablePoints).testBit (pointBit v.toNat)) then .error Err.outOfRange
  else if (s.streams.any fun (_, m) => m.desc.rt) || s.num Obj.stepMode = 1 ||
       s.num Obj.changeState = 1 then .error Err.refusedInState
  else .ok ((s.setState Obj.changeState 1).nextChange (List.range 8))

/-- OPERATING_POINT_WRITE (R253). -/
def execOperatingPointWrite (q : Req) (val : List Byte) (s : State) : Res :=
  .next (serveOwn q Obj.operatingPoint val writeOperatingPoint s)

/-- CABINET_POINT_CHANGE_DONE (R254): queues were drained, the shadow sets are active and the new point with them, and the
next cabinet begins. -/
def execCabinetPointChangeDone (s : State) : Res :=
  match s.mm.changing with
  | [] => .next s
  | c :: r =>
    let drained := (List.range 24).all fun k => (s.chan c k).queue.isEmpty
    if !drained then .next s
    else
      let s := if s.num (Obj.gddrCabinetState + c) = 3 then
          (s.setSets c ((s.pointSets c).2, (s.pointSets c).1)).setState (Obj.gddrCabinetState + c) 2 else s
      .next (s.nextChange r)

/-! ## CXL (R258) -/

/-- CXL_READ_RESPONSE (R258): data reaches the requester; poison completes its request uncorrectable. -/
def execCxlReadResponse (port : Fin 4) (_tag : Nat) (poison : Bool) (_data : List Byte) (s : State) : Res :=
  if s.num (Obj.cxlPortState + port) ≠ 3 then .next s
  else if poison then .next ((s.bump Obj.poisonedReads 1).setFlag Obj.cxlFlags 1)
  else .next s

/-- CXL_COMPLETION_TIMEOUT (R258). -/
def execCxlCompletionTimeout (port : Fin 4) (_tag : Nat) (s : State) : Res :=
  if s.num (Obj.cxlPortState + port) ≠ 3 then .next s
  else .next ((s.bump Obj.completionTimeouts 1).setFlag Obj.cxlFlags 2)

/-- CXL_LINK_DOWN (R258): the port is in Error until the next M or D reset. -/
def execCxlLinkDown (port : Fin 4) (s : State) : Res :=
  let st := s.num (Obj.cxlPortState + port)
  if st = 0 || st = 4 then .next s
  else
    let s := (s.setNum (Obj.cxlLinkWidth + port) 0).setNum (Obj.cxlLinkRate + port) 0
    .next ((s.setState (Obj.cxlPortState + port) 4).setFlag Obj.cxlFlags 4)

/-! ## Migration ends (R263, R267, R270) -/

/-- Copy a page from its backing address into a frame; host memory's bytes come with the command. -/
def State.copyIn (backing frame n : Nat) (data : List Byte) (s : State) : State :=
  if s.isHost backing then
    s.setCells frame n ((List.range (min n data.length)).map fun i => (i, data.getD i 0))
  else s.copyMem (backing % 2 ^ 48) frame n

/-- MIGRATION_COMPLETE (R263, R267): the page's leaf becomes present in every copy; a backing read that fails leaves
it not present and ends the job. A copy waits while its cabinet changes operating point. -/
def execMigrationComplete (t : Nat) (asn : Byte) (va : BitVec 48) (c : Cab) (status : MemStatus) (data : List Byte)
    (s : State) : Res :=
  let s := s.upto t
  match s.mm.faults.find? fun f => f.asn = asn.toNat && f.va = va.toNat && f.cab = c.val &&
      (match f.stage with | .copying _ => true | _ => false), s.jobOfAsn asn.toNat with
  | some f, some (id, j) =>
    if s.num (Obj.gddrCabinetState + c) = 3 then .next s else
    let n := match f.stage with | .copying n => n | _ => 0
    let seg := j.segOf f.va
    let large := (seg.map (·.large)).getD false
    let back := s.mm.backing.get 0 (leafKey f.asn f.va)
    let s := { s with mm := { s.mm with faults := s.mm.faults.erase f } }
    match s.access back status with
    | .ok =>
      let s := s.copyIn back (frameAddr c f.asn large n) (pageSize large) data
      let s := s.makeResident c f.asn f.va large n (f.pin || (seg.map (·.pinned)).getD false)
      .next ((s.bump Obj.faultsServed 1).high Obj.faultLatencyMax (s.now - f.at?))
    | _ =>
      let s := s.setFlag Obj.migrationFlags 4
      let s := s.logFault { FaultRec.device s.now 0x0D 7 with job := id, addr := back } 0xFF
      .next (s.endJob id Status.farTier 7)
  | _, _ => .next s

end Sys2Proof.Machine
end

