-- ==== Sys2Proof/Machine/Trace.lean ====
section
/-! DEFINITION. Trace and in-loop checking (spec/15): feeds becoming Running, records at a step's end, verdicts, marks and
captures; with them the end of a step and RUN (spec/14), which the feeds take part in. -/

namespace Sys2Proof.Machine

/-! ## Feeds (R411–R413) -/

/-- Number of bits set in bytes. -/
def popBytes (l : List Byte) : Nat := sumBy l fun b => ((List.range 8).filter (b.toNat.testBit ·)).length

/-- Multiplexers a feed samples, rising (R414). -/
def State.feedMuxes (s : State) (q : Nat) : List Nat :=
  let l := s.bytes (feedObj Obj.feedProbeMask q)
  (List.range 256).filter fun m => (l.getD (m / 8) 0).toNat.testBit (m % 8)

/-- Telemetry sources in use (R418). -/
def State.feedSources (s : State) (q : Nat) : List Nat :=
  let l := s.bytes (feedObj Obj.feedTelemetry q)
  ((List.range 8).map fun i => field l (2 * i) 2).takeWhile (· ≠ 0xFFFF)

/-- UNITS of a feed's records (R414). -/
def State.feedUnits (s : State) (q : Nat) : Nat :=
  ceilDiv (16 + 8 * (popBytes (s.bytes (feedObj Obj.feedProbeMask q)) + (s.feedSources q).length)) 256

/-- Key of the stream that a feed's record names. -/
def State.feedStreamOf (s : State) (q : Nat) : Nat := streamKey (q / 16) (s.num (feedObj Obj.feedStream q))

/-- Tile and context that a feed's record names. -/
def State.feedPlace (s : State) (q : Nat) : Nat × Nat :=
  (150 * (q / 16) + s.num (feedObj Obj.feedTile q), s.num (feedObj Obj.feedContext q))

/-- Ring offset and log2 of a feed. -/
def State.feedRingOf (s : State) (q : Nat) : Nat × Nat :=
  let v := s.num (feedObj Obj.feedRing q)
  (bits v 0 20, bits v 20 4)

/-- The capture ring, if there is one, lies in the job's granules (R413, R426). -/
def State.captureFits (s : State) (q : Nat) (j : JobS) : Bool :=
  let a := s.num (feedObj Obj.captureBase q)
  let n := s.num (feedObj Obj.captureSteps q) * s.feedUnits q * 256
  a = 0 || j.granules.any fun (c, first, k) =>
    c = q / 16 && bufferBase c + 0x10000 * first ≤ a && a + n ≤ bufferBase c + 0x10000 * (first + k)

/-- The checker job for which the conditions of R413 hold. -/
def State.feedJob (s : State) (q : Nat) : Option (Nat × JobS) :=
  let (g, x) := s.feedPlace q
  let (off, log2) := s.feedRingOf q
  List.find? (fun (_, j) => j.st = JobSt.running && j.streams.contains (s.feedStreamOf q) && s.captureFits q j &&
    j.placed.any fun d => d.rt && d.tile = g && d.ctx = x && d.omOff ≤ off && off + 256 * 2 ^ log2 ≤ d.omOff + d.omSize)
    s.jobs.jobs

/-- The stream that the packer opens (R412). -/
def feedDesc (off log2 : Nat) : StreamDesc := ⟨0, 4, true, false, log2, off, [1, 1, 1, 1, 1], [0, 0, 0, 0, 0], 0, 0⟩

/-- An enabled Waiting feed becomes Running where R413 lets it; one whose checker ended does so only at a RUN (R423). -/
def State.feedTry (q : Nat) (atRun : Bool) (s : State) : State :=
  let f := s.feed q
  if f.st ≠ 1 || (f.ended && !atRun) || s.blockHeld (0x18 + q / 16) then s
  else match s.feedJob q with
    | none => s
    | some (id, _) =>
      let (g, x) := s.feedPlace q
      let (off, log2) := s.feedRingOf q
      let k := s.feedStreamOf q
      let m : StreamS := { StreamS.new id g x 0 (feedDesc off log2) [] 0 with st := .running }
      let s := (s.putStream k m).streamEvent k 2
      let s := s.modFeed q fun f => { f with place := some (g, x), key := k, ended := false, queue := [] }
      s.setFeedSt q 2

/-- Every feed that may becomes Running. -/
def State.feedsTry (atRun : Bool) (s : State) : State := (List.range 128).foldl (fun s q => s.feedTry q atRun) s

/-- A feed is taken out of service: its stream closes and nothing is in force. -/
def State.feedOff (q st : Nat) (s : State) : State :=
  let s := s.dropFeedStream q
  let s := s.modFeed q fun f => { f with place := none, ended := false, queue := [], undecided := [], verdicts := [] }
  s.setFeedSt q st

/-- FeedEnable (R411, R413). -/
def writeFeedEnable (q : Nat) : Handler := fun v s =>
  if s.lockSt ≠ Lock.idle && s.lockSt ≠ Lock.frozen then .error Err.refusedInState
  else if v.toNat = 0 then .ok ((s.feedOff q 0).setCapture q 0)
  else if (s.feed q).st = 0 && s.lost (q / 16) then .ok (s.setFeedSt q 4)
  else if (s.feed q).st = 0 then .ok (((s.unpark (q / 16)).setFeedSt q 1).feedTry q false)
  else .ok s

/-- The other objects of a feed's record (R413). A Running feed whose context, stream or
ring is written takes it anew; one whose capture ring no longer fits is Waiting. -/
def writeFeedConfig (k q : Nat) : Handler := fun _ s =>
  if s.lockSt ≠ Lock.idle && s.lockSt ≠ Lock.frozen then .error Err.refusedInState
  else if !([2, 3, 4, 5, 6, 7, 0xC, 0xD].contains (k % 256)) then .ok s
  else if (s.feed q).st = 2 then
    if k % 256 ≤ 5 then .ok ((s.feedOff q 1).feedTry q false)
    else if s.jobs.jobs.any fun (_, j) => j.streams.contains (s.feedKey q) && s.captureFits q j then .ok s
    else .ok (s.feedOff q 1)
  else .ok (s.feedTry q false)

/-! ## Records (R414–R416, R418) -/

/-- A telemetry word: the measurement is a free value (log 1), an eye margin the one that EyeMargin reads (R439). -/
def State.telemetryWord (src : Nat) (s : State) : List Byte × State :=
  let cab := if src < 0x18 || (0x40 ≤ src && src < 0x58) then some (src % 16) else none
  let lost := match cab with | some c => s.lost c | none => false
  if lost then (leBytes 2 src ++ leBytes 4 0 ++ leBytes 2 0xFFFF, s)
  else
    let (b, s) := s.freshBytes 6
    let margin := s.num (Obj.eyeMargin + (src - 0x100))
    (leBytes 2 src ++ (if 0x100 ≤ src && src < 0x1C0 then leBytes 4 margin ++ b.drop 4 else b), s)

/-- The record of a step (R414). -/
def State.formFeed (q step : Nat) (s : State) : List Byte × State :=
  let f := s.feed q
  let muxes := s.feedMuxes q
  let src := s.feedSources q
  let units := s.feedUnits q
  let head := leBytes 6 step ++ leBytes 1 (q % 16 + 16 * (q / 16)) ++ leBytes 1 (if f.first then 2 else 0) ++
    leBytes 2 muxes.length ++ leBytes 1 src.length ++ leBytes 1 units ++ leBytes 4 f.formed
  let words := muxes.flatMap fun m => leBytes 8 (s.lock.samples.get 0 (256 * (q / 16) + m)).toNat
  let (tel, s) := src.foldl (fun (l, s) v => let (b, s) := s.telemetryWord v; (l ++ b, s)) (([] : List Byte), s)
  let l := head ++ words ++ tel
  (l ++ List.replicate (256 * units - l.length) 0, s)

/-- The capture ring stops once step E is past: it is formed, and no record up to it waits to be written (R426). -/
def State.captureReach (q : Nat) (s : State) : State :=
  let f := s.feed q
  if f.capSt = 2 && f.capEnd ≤ f.lastStep && f.queue.all (fun e => f.capEnd < e.1) then
    let n := s.num (feedObj Obj.captureSteps q)
    (s.modFeed q fun f => { f with capFirst := f.capEnd + 1 - n, capLast := f.capEnd }).setCapture q 3
  else s

/-- TRACE_RECORD_FORM: the record of a step for one enabled feed (R414, R416, R422, R423). -/
def State.traceStep (q step : Nat) (s : State) : State :=
  let f := s.feed q
  if f.st = 0 then s
  else
    let (l, s) := s.formFeed q step
    let s := s.modFeed q fun f => { f with formed := (f.formed + 1) % 2 ^ 32, first := false, lastStep := step }
    if f.st = 1 then s.takeUnknown q
    else if f.st ≠ 2 || 4 ≤ f.queue.length then ((s.dropRecord q).captureReach q).takeUnknown q
    else s.modFeed q fun f => { f with queue := f.queue ++ [(step, false, l)] }

/-- STEP_END (R387, R392–R394, R401, R407, R414): the multiplexers are sampled, frames sent, records formed; finishing step F
freezes the device. The command names the edge and the step that ends there. -/
def execStepEnd (edge : Nat) (step : Nat) (s : State) : Res :=
  let st := s.lockSt
  let stepping := st = Lock.elastic || st = Lock.arming || st = Lock.bound || st = Lock.freezing
  if !stepping || !s.lock.evaluating || edge ≠ s.lock.startEdge + 1 || step ≠ s.num Obj.currentStep then .next s
  else
    let s := { s with lock := { s.lock with samples := s.probeWords, evaluating := false } }
    let s := s.neighbours.foldl (fun s n => s.sendFrame edge step n) s
    let s := s.enabledFeeds.foldl (fun s q => s.traceStep q step) s
    if s.lockSt = Lock.freezing && s.num Obj.freezeAt = step then .next s.enterFrozen else .next s

/-! ## Delivery and captures (R415, R416, R426) -/

/-- The record of a step is written to the capture ring (R426). -/
def State.captureRecord (q step : Nat) (l : List Byte) (s : State) : State :=
  let base := s.num (feedObj Obj.captureBase q)
  let f := s.feed q
  if base = 0 then s
  else if !(f.capSt = 1 || (f.capSt = 2 && step ≤ f.capEnd)) then s.captureReach q
  else
    let n := s.num (feedObj Obj.captureSteps q)
    let s := s.poke (base + step % n * l.length) l
    let s := s.modFeed q fun f => { f with capNewest := some (max step (f.capNewest.getD 0)) }
    s.captureReach q

/-- The checker's context runs no more: Halted, Refused or Stopped (R422). -/
def State.checkerDown (s : State) (g x : Nat) : Bool := match (s.th g x).st with
  | .halted | .refused | .stopped => true
  | _ => false

/-- TRACE_RECORD_DELIVERED (R155, R415, R416): the oldest record enters the ring whole, when it has room and no lock holds
its slots. One that reaches a context which runs no more takes UNKNOWN at once (R422, log 140). -/
def execTraceRecordDelivered (c : Cab) (f : Fin 16) (s : State) : Res :=
  let q := 16 * c.val + f.val
  let fd := s.feed q
  match fd.queue, s.stream (s.feedKey q) with
  | (step, decided, l) :: rest, some m =>
    let units := l.length / 256
    let held := (List.range units).any fun i => s.lockedAt (m.desc.slot m.tile (m.delivered + i)) 256
    if fd.st ≠ 2 || m.desc.dir ≠ 4 || m.desc.ring < m.delivered - m.freed + units || s.lost c || held then .next s
    else
      let l := l.set 7 (l.getD 7 0 ||| (if fd.gap then 1 else 0))
      let s := (List.range units).foldl (fun s i =>
        s.poke (m.desc.slot m.tile (m.delivered + i)) (slice l (256 * i) 256)) s
      let s := s.putStream (s.feedKey q) { m with delivered := m.delivered + units, issued := m.issued + units }
      let s := s.modFeed q fun f => { f with
        queue := rest
        gap := false
        undecided := if decided then f.undecided else f.undecided ++ [(step, false)] }
      let s := (s.bump Obj.recordsDelivered 1).captureRecord q step l
      .next (if s.checkerDown m.tile m.ctx then s.unknownAll q else s)
  | _, _ => .next s

/-! ## Verdicts (R419–R425) -/

/-- VERDICT_PORT_READ (R419): one count of the semaphore is taken and the record read. -/
def execVerdictPortRead (c : Cab) (f : Fin 16) (s : State) : Res :=
  let q := 16 * c.val + f.val
  let fd := s.feed q
  match fd.place with
  | none => .next s
  | some (g, x) =>
    let k := s.num (feedObj Obj.verdictSemaphore q)
    let h := (s.tile g).sema.get 0 k
    if fd.st ≠ 2 || h = 0 || !(s.img g x).semaSet.getLsbD k || s.lost c then .next s
    else
      let s := s.modTile g fun t => { t with sema := t.sema.put k (h - 1) }
      let l := s.read (operandBase g + s.num (feedObj Obj.verdictArea q) + 16 * (fd.posted % 16)) 16
      .next (s.modFeed q fun f => { f with posted := f.posted + 1, verdicts := f.verdicts ++ [l] })

/-- A mark (R425). -/
def State.mark (q step code : Nat) (s : State) : State :=
  let s := (s.bump Obj.marks 1).setFlag Obj.traceFlags 8
  let seq := ((s.trace.marks.head?.map (·.1)).getD 0 + 1) % 2 ^ 32
  let l := leBytes 6 step ++ leBytes 1 (q % 16 + 16 * (q / 16)) ++ leBytes 1 0 ++ leBytes 4 code ++ leBytes 4 seq
  let s := { s with trace := { s.trace with marks := (seq, l) :: s.trace.marks.take 1023 } }
  (s.setBytes Obj.lastMark l).raise Obj.lastMark 0

/-- A capture verdict (R426): an Armed ring goes on through step E. -/
def State.capture (q step : Nat) (s : State) : State :=
  let s := (s.bump Obj.captures 1).setFlag Obj.traceFlags 0x10
  let f := s.feed q
  if f.capSt ≠ 1 then s
  else
    let new := f.capNewest.getD 0
    let e := max (step + s.num (feedObj Obj.capturePost q)) new
    ((s.modFeed q fun f => { f with capEnd := e }).setCapture q 2).captureReach q

/-- A verdict in time acts (R424). -/
def State.actVerdict (q step action code : Nat) (s : State) : State :=
  let s := (s.modFeed q fun f => { f with onTime := min (f.onTime + 1) 0xFFFFFFFFFFFFFFFF }).bump Obj.verdictsOnTime 1
  match action with
  | 1 => s.mark q step code
  | 2 => s.capture q step
  | 3 => s.verdictFreeze
  | _ => s

/-- What is done at an edge, with a miss at the same edge taken first where a freeze comes of it (R409, R428). -/
def State.withMiss (edge : Nat) (act : State → State) (s : State) : State :=
  let s' := act s
  if s.missAt edge && s'.lockSt ≠ Lock.bound then act s.takeMiss else s'

/-- VERDICT_TAKEN (R420, R424): the oldest verdict of a feed, at an edge. -/
def execVerdictTaken (c : Cab) (f : Fin 16) (edge : Nat) (s : State) : Res :=
  let q := 16 * c.val + f.val
  match (s.feed q).verdicts with
  | [] => .next s
  | l :: rest =>
    let s := s.modFeed q fun f => { f with verdicts := rest }
    let s := s.deadlinesBefore edge
    let step := field l 0 6
    let bad := bits (field l 6 1) 2 6 ≠ 0 || field l 7 1 ≠ 0 || field l 12 4 ≠ 0
    if bad || !((s.feed q).undecided.any fun p => p.1 = step) then
      .next (s.modFeed q fun f => { f with late := sat32 (f.late + 1) })
    else
      let s := s.modFeed q fun f => { f with undecided := f.undecided.filter fun p => p.1 ≠ step }
      let s := match (if s.lockSt = Lock.bound then s.assigned (step + s.num (feedObj Obj.verdictLatency q)) else none) with
        | some d => s.modFeed q fun f => { f with minSlack := min f.minSlack (min (d - edge) 0xFFFF) }
        | none => s
      .next (s.withMiss edge fun s => s.actVerdict q step (field l 6 1 % 4) (field l 8 4))

/-- VERDICT_DEADLINE (R421, R424): steps of a feed still undecided at their deadline edge. -/
def execVerdictDeadline (c : Cab) (f : Fin 16) (edge : Nat) (s : State) : Res :=
  let q := 16 * c.val + f.val
  if s.lockSt ≠ Lock.bound || !s.enabledFeeds.contains q then .next s
  else .next (s.withMiss edge fun s => s.feedDeadline q fun e => decide (e ≤ edge))

/-- CaptureArm: a feed's ring returns from Held or Off to Armed; a feed without a ring has none to arm (R426). -/
def writeCaptureArm : Handler := fun v s =>
  let q := v.toNat
  let f := s.feed q
  if s.blockHeld (0x18 + q / 16) || s.inCReset (q / 16) then .error Err.refusedInState
  else if s.num (feedObj Obj.captureBase q) ≠ 0 && (f.capSt = 0 || f.capSt = 3) then
    .ok ((s.modFeed q fun f => { f with capNewest := none }).setCapture q 1)
  else .ok s

/-- CAPTURE_ARM (R426). -/
def execCaptureArm (q : Req) (val : List Byte) (s : State) : Res := .next (serveOwn q Obj.captureArm val writeCaptureArm s)

/-! ## RUN (R397, R398, R405, R406, R413) -/

/-- A RUN is refused for the feeds' sake (R413). -/
def State.feedsRefuse (s : State) : Bool :=
  s.enabledFeeds.any (fun q => (s.feed q).st ≠ 2) ||
    (List.range 8).any fun c => 64 < sumBy (s.enabledFeeds.filter fun q => q / 16 = c) s.feedUnits

/-- Feeds at RUN: counters, sequence and verdict numbers start anew (R414, R419, R429). -/
def State.feedsRun (s : State) : State :=
  s.enabledFeeds.foldl (fun s q => s.modFeed q fun f => { f with
    first := true, formed := 0, posted := 0, onTime := 0, misses := 0, unknown := 0, late := 0, lost := 0, minSlack := 0xFFFF }) s

/-- A frame buffered in Idle or Frozen has another length than its neighbour's entry (R395). -/
def State.badFrame (s : State) : Bool :=
  s.lock.frames.any fun f => f.edge.isSome &&
    (s.neighbours.any fun n => n.dev = f.dev && f.payload.length ≠ 8 * n.inWords)

/-- RUN: from Idle and Frozen to Elastic or Arming, from Stalled in elastic mode to Freezing. -/
def writeRun : Handler := fun _ s =>
  let st := s.lockSt
  let bound := s.num Obj.stepMode = 1
  if !(st = Lock.idle || st = Lock.frozen || (st = Lock.stalled && !bound)) then .error Err.refusedInState
  else
    let t := s.feedsTry true
    if t.feedsRefuse then .error Err.refusedInState
    else
      let s := if t.num (Obj.clockState + 24) = 4 then t.feedsRun.setState (Obj.clockState + 24) 2 else t.feedsRun
      let s := { s with lock := { s.lock with bound := bound } }
      if st = Lock.stalled then
        let s := s.setLockSt Lock.freezing
        .ok (if s.lock.started && s.num Obj.currentStep = s.num Obj.freezeAt && !s.lock.evaluating then s.enterFrozen else s)
      else
        let s := s.clearFreeze.thawBridges
        let a := if s.lock.started then s.num Obj.currentStep + 1 else s.num Obj.startStep
        let held := s.lock.held
        let s := { s with lock := { s.lock with first := a, e0 := none, held := [] } }
        let s := if bound then (s.setNum Obj.armUntilStep (a + s.num Obj.systemDiameter)).setLockSt Lock.arming
          else s.setLockSt Lock.elastic
        if s.badFrame then .ok ((s.setFlag Obj.lockstepFlags 0x20).failLock 2)
        else .ok (held.foldl (fun s (f, o, c) => s.propose f o c) s)

/-- RUN (R405). -/
def execRun (q : Req) (s : State) : Res := .next (serveOwn q Obj.stepCommand [1] writeRun s)

end Sys2Proof.Machine
end

