-- ==== Sys2Proof/Machine/Placement.lean ====
section
/-! DEFINITION. Where drawers stand and how they are stopped, saved, moved and restored (R142–R144, R163, R178, R184,
R236, R275, R276, R303–R306): what the health service's rungs and the job service share. -/

namespace Sys2Proof.Machine

/-! ## Bytes a job names -/

/-- Bytes at a local device address; those in the host window come from a command's host bytes (R290, R466). -/
def State.hostOrMem (s : State) (h : List (Nat × Byte)) (a n : Nat) : List Byte :=
  (List.range n).map fun i =>
    if s.isHost (a + i) then ((List.find? (fun (p : Nat × Byte) => p.1 = a + i) h).map (·.2)).getD 0 else s.byte (a + i)

/-- The words of a drawer's program image (R299). -/
def State.imageWords (s : State) (j : JobS) (d : LDrawer) : List (BitVec 128) :=
  (List.range d.words).map fun i => BitVec.ofNat 128 (leNat (s.hostOrMem j.hostImg (d.prog + 16 * i) 16))

/-! ## Geometry (R142, R143) -/

/-- Two rectangles of one tile share a core. -/
def coresMeet (r c h w r' c' h' w' : Nat) : Bool := r < r' + h' && r' < r + h && c < c' + w' && c' < c + w

/-- A drawer breaks R142. -/
def LDrawer.badShape (d : LDrawer) : Bool := d.row % d.h ≠ 0 || d.col % d.w ≠ 0 || 16 < d.row + d.h || 16 < d.col + d.w

/-- Two drawer entries share a core or a context. -/
def LDrawer.meets (a b : LDrawer) : Bool :=
  a.tile = b.tile && (a.ctx = b.ctx || coresMeet a.row a.col a.h a.w b.row b.col b.h b.w)

/-- Their operand-memory regions overlap. -/
def LDrawer.omMeets (a b : LDrawer) : Bool := a.tile = b.tile && a.omOff < b.omOff + b.omSize && b.omOff < a.omOff + a.omSize

/-- The rows that a drawer covers are all present and its tile takes drawers (R143, R273). -/
def State.rowsOk (s : State) (d : LDrawer) : Bool :=
  !s.retired d.tile && (List.range d.h).all fun i => !s.rowRemoved d.tile (d.row + i)

/-- The tile's cabinet runs and the tile is not waiting for re-admission (R17, R284). -/
def State.tileUp (s : State) (g : Nat) : Bool :=
  !s.lost (g / 150) && !s.inCReset (g / 150) && !s.health.readmit.contains g

/-- Entries that stand on a tile now, of every placed job, with their jobs. -/
def State.standing (s : State) (g : Nat) : List (Nat × LDrawer) :=
  s.jobs.jobs.flatMap fun (id, j) => if j.isPlaced then (j.placed.filter fun d => d.tile = g).map fun d => (id, d) else []

/-- The lowest gap of n words in a program store with windows (base, length) in use (R178). -/
def gapIn (wins : List (Nat × Nat)) (n : Nat) : Option Nat :=
  let starts := 0 :: wins.map fun w => w.1 + w.2
  (starts.filter fun b => b + n ≤ 4096 && wins.all fun w => b + n ≤ w.1 || w.1 + w.2 ≤ b).min?

/-- Windows of a tile's contexts. -/
def TileS.windows (t : TileS) : List (Nat × Nat) := t.bound.map fun x => ((t.ctx x).th.winBase, (t.ctx x).th.winLen)

/-- The windows of a tile once entries that are chosen already have theirs, in order. -/
def State.windowsWith (s : State) (g : Nat) (taken : List LDrawer) : List (Nat × Nat) :=
  (taken.filter fun d => d.tile = g).foldl (fun w d => match gapIn w d.words with
    | some b => w ++ [(b, d.words)]
    | none => w) (s.tile g).windows

/-- Context, cores and operand region of an entry are free on its tile beside what stands there and what is chosen
already, its semaphores are no other job's (log 123), its program has a window (R178), and its tile has at most three
real-time contexts (R181). -/
def State.fits (s : State) (id : Nat) (taken : List LDrawer) (d : LDrawer) : Bool :=
  let there := s.standing d.tile
  let all := there.map (·.2) ++ taken.filter fun e => e.tile = d.tile
  !(s.dr d.tile d.ctx).bound && all.all (fun e => !d.meets e && !d.omMeets e) &&
    there.all (fun e => e.1 = id || d.semas &&& e.2.semas = 0) && (gapIn (s.windowsWith d.tile taken) d.words).isSome &&
    (!d.rt || (all.filter (·.rt)).length < 3)

/-- Every entry of a placement fits beside the ones before it. -/
def State.fitsAll (s : State) (id : Nat) : List LDrawer → List LDrawer → Bool
  | _, [] => true
  | taken, d :: r => s.fits id taken d && State.fitsAll s id (taken ++ [d]) r

/-! ## Binding (R163, R178, R303) -/

/-- A context as assignment leaves it: drawer Assigned at level 0, thread Idle, semaphore set given. -/
def LDrawer.newContext (d : LDrawer) (id : Nat) : Context :=
  { img := { Image.zero with semaSet := BitVec.ofNat 32 d.semas }
    th := Thread.idle
    dr := { Drawer.none with
      st := .assigned, r0 := d.row, c0 := d.col, h := d.h, w := d.w, jobId := id, rt := d.rt, rtLevel := d.rtLevel } }

/-- Write a context, its program and its semaphores onto an entry's tile. -/
def State.bindCtx (d : LDrawer) (c : Context) (words : List (BitVec 128)) (semas : List (Nat × BitVec 32)) (s : State) : State :=
  let base := (gapIn (s.tile d.tile).windows d.words).getD 0
  let c := { c with
    th := { c.th with winBase := base, winLen := d.words }
    dr := { c.dr with r0 := d.row, c0 := d.col } }
  (s.unpark (d.tile / 150)).modTile d.tile fun t =>
    let t := t.setCtx d.ctx c
    let prog := (words.zip (List.range words.length)).foldl (fun (p : Tab (BitVec 128)) (w, i) => p.put (base + i) w) t.prog
    let sema := (List.range 32).foldl (fun (m : Tab (BitVec 32)) i =>
      if d.semas.testBit i then m.put i (((List.find? (fun (q : Nat × BitVec 32) => q.1 = i) semas).map (·.2)).getD 0) else m) t.sema
    { t with prog := prog, sema := sema }

/-! ## Stopping (R158, R209, R276, R306, R308) -/

/-- The streams of a job in the table. -/
def State.streamsOf (s : State) (id : Nat) : List (Nat × StreamS) := s.streams.filter fun (_, m) => m.jobId = id && m.desc.dir ≠ 4

/-- A stream is asked to halt with CAUSE PREEMPT: nothing more is issued; a Halted one is Saved with the record that it has
(R239, R240). -/
def State.askStream (k : Nat) (m : StreamS) (s : State) : State :=
  if m.st = .running && m.halting.map (·.1) ≠ some 3 then s.putStream k { m with halting := some (2, 0), haltAt := m.issued }
  else if m.st = .halted then s.setStreamSt k .saved
  else s

/-- Every drawer of a job is asked to stop, for recovery or as a pre-emption, and every stream to halt (R306). -/
def State.askJob (id : Nat) (j : JobS) (recovery : Bool) (s : State) : State :=
  let s := j.placed.foldl (fun s d => s.askStop d.tile d.ctx recovery) s
  (s.streamsOf id).foldl (fun s (k, m) => s.askStream k m) s

/-- A drawer is Stopped, and nothing of its context is in flight (R209). -/
def State.atRest (s : State) (g x : Nat) : Bool := (s.dr g x).st = .stopped && (s.tile g).flight.all (·.ctx ≠ x)

/-- Every drawer of a job is Stopped and no stream of it has work outstanding. -/
def State.jobStopped (s : State) (id : Nat) (j : JobS) : Bool :=
  j.placed.all (fun d => s.atRest d.tile d.ctx) &&
    (s.streamsOf id).all fun (_, m) => m.st ≠ .running && m.st ≠ .closing

/-! ### Rungs 2 to 4 and the drawers that they stop (R275–R277) -/

/-- The first rung that waits for a tile. -/
def State.tileRung (s : State) (g : Nat) : Option Rung :=
  s.health.rungs.find? fun q => match q.work with
    | .site h _ _ | .row h _ => h = g
    | _ => false

/-- A real-time drawer stands in the tile. -/
def State.hasRt (s : State) (g : Nat) : Bool := (s.tile g).bound.any fun x => (s.dr g x).rt

/-- Rung 2 may answer a fault at a shelf: its spare is unused, and the tile holds no real-time drawer (R274). -/
def State.rung2 (s : State) (g shelf : Nat) : Bool := (s.sites g shelf).length = 17 && !s.hasRt g

/-- The rung in progress in a tile stops a drawer: rung 2 every drawer, rung 3 those over the row. -/
def State.rungStops (s : State) (g x : Nat) : Bool := match s.tileRung g with
  | none => false
  | some q => match q.work with
    | .site _ shelf _ => s.rung2 g shelf || (s.dr g x).covers shelf
    | .row _ shelf => (s.dr g x).covers shelf
    | _ => false

/-- A drawer whose replica or job waits for rung 4 or 5. -/
def State.awaitsJob (s : State) (g x : Nat) : Bool :=
  let id := (s.dr g x).jobId
  match s.job id with
  | none => false
  | some j => s.health.rungs.any fun q => match q.work with
    | .replica i shard replica => i = id && j.placed.any fun d => d.tile = g && d.ctx = x && d.shard = shard && d.replica = replica
    | .shard i => i = id
    | _ => false

/-- Where a stopped context goes on (R163, R184, R209): the drawer resumes its work, and a program that had not ended gets
a bank. One that a rung stops goes on after that rung. -/
def State.resumeCtx (g x : Nat) (s : State) : State :=
  if (s.dr g x).st ≠ .stopped then s
  else if s.rungStops g x || s.awaitsJob g x then s.modDr g x fun d => { d with recover := true }
  else
    let s := (s.modDr g x fun d => { d with recover := false }).goOn g x
    if (s.th g x).st = .stopped then s.grantBank g x else s

/-- The drawers of a tile that stopped for recovery alone go on, as far as no rung stops them still; those pre-empted
meanwhile stay (R286). -/
def State.resumeTile (g : Nat) (s : State) : State :=
  (s.tile g).bound.foldl (fun s x => if (s.dr g x).recover then s.resumeCtx g x else s) s

/-- A saved stream goes on from its record (R236), or waits again, Halted: for its page, asked for anew, or for recovery
(R239, R240). -/
def State.resumeStream (k : Nat) (m : StreamS) (j : JobS) (s : State) : State :=
  if m.st ≠ .saved then s
  else if m.cause = 3 then s.setStreamSt k .halted
  else match (if m.cause = 1 then s.translate (k / 512) j.asn (m.desc.va m.issued) (!m.desc.isRead) else .decode) with
    | .fault page _ =>
      let s := s.setStreamSt k .halted
      if s.mm.faults.any fun f => f.asn = j.asn && f.va = page then s else s.raiseFault (k / 512) j.asn page false
    | _ => (if m.cause = 1 then s.bump Obj.resumes 1 else s).startStream k

/-- Saved streams of a job go on. -/
def State.resumeStreams (id : Nat) (s : State) : State := match s.job id with
  | none => s
  | some j => (s.streamsOf id).foldl (fun s (k, m) => s.resumeStream k m j) s

/-- A job goes on where it stands. -/
def State.resumeJob (id : Nat) (j : JobS) (s : State) : State :=
  (j.placed.foldl (fun s d => s.resumeCtx d.tile d.ctx) s).resumeStreams id

/-! ## Saving and restoring (R179, R275, R306) -/

/-- Save a drawer where it stands. -/
def State.saveDrawer (s : State) (d : LDrawer) : SavedDrawer :=
  { entry := d
    ctx := s.ctx d.tile d.ctx
    om := s.cells (operandBase d.tile + d.omOff) d.omSize
    semas := ((List.range 32).filter d.semas.testBit).map fun i => (i, (s.tile d.tile).sema.get 0 i) }

/-- A saved context as its drawer is assigned again: Stopped at its boundary, at level 0 (R163, R165). -/
def Context.saved (c : Context) : Context :=
  let d := c.dr
  { c with
    th := { c.th with st := if c.th.st = .halted || c.th.st = .refused then c.th.st else .stopped, blockedOn := .none }
    dr := { d with st := .stopped, level := 0, ramping := false, preempt := false, hold := [], await := [],
                   pass := (d.await.head?.map (·.pass)).getD d.pass, begun := d.begun || !d.await.isEmpty } }

/-- Assign a drawer, Stopped until its job lets it go on: Free, Assigned, Stopped (R163, R303). -/
def State.assignStopped (id : Nat) (d : LDrawer) (words : List (BitVec 128)) (s : State) : State :=
  (s.bindCtx d (d.newContext id) words []).askStop d.tile d.ctx false

/-- Restore a saved drawer at an entry's position, assigned there first if it is not; it stays Stopped. -/
def State.restoreDrawer (q : SavedDrawer) (d : LDrawer) (words : List (BitVec 128)) (s : State) : State :=
  let s := if (s.dr d.tile d.ctx).bound then s else s.assignStopped q.ctx.dr.jobId d words
  let h := s.th d.tile d.ctx
  let c := q.ctx.saved
  let c := { c with
    th := { c.th with winBase := h.winBase, winLen := h.winLen }
    dr := { c.dr with r0 := d.row, c0 := d.col } }
  let s := s.modTile d.tile fun t =>
    { t.setCtx d.ctx c with sema := q.semas.foldl (fun (m : Tab (BitVec 32)) e => m.put e.1 e.2) t.sema }
  s.setCells (operandBase d.tile + d.omOff) d.omSize q.om

/-- Streams of a drawer follow it to another tile and context (R236, R276). -/
def State.moveStreams (a b : LDrawer) (id : Nat) (s : State) : State :=
  (s.streamsOf id).foldl (fun s (k, m) =>
    let recv := m.recv.map fun r => if r.tile = a.tile then { r with tile := b.tile } else r
    let m := { m with recv := recv }
    s.putStream k (if m.tile = a.tile && m.ctx = a.ctx then { m with tile := b.tile, ctx := b.ctx } else m)) s

/-- A stopped drawer of a job moves to another position of the same cabinet (R276, R305). -/
def State.moveDrawer (id : Nat) (a b : LDrawer) (s : State) : State :=
  let q := s.saveDrawer a
  let t := s.tile a.tile
  let th := (t.ctx a.ctx).th
  let words := (List.range th.winLen).map fun i => t.prog.get 0 (th.winBase + i)
  let s := s.releaseCtx a.tile a.ctx
  let s := s.restoreDrawer q b words
  let s := s.moveStreams a b id
  let s := s.feedMoved a.tile a.ctx b.tile b.ctx
  match s.job id with
  | none => s
  | some j => s.putJob id { j with placed := j.placed.map fun d => if d = a then b else d }

/-- A free aligned position for a drawer of a job on a tile, with a free context, beside entries chosen already. -/
def State.spot (s : State) (id : Nat) (taken : List LDrawer) (d : LDrawer) (g : Nat) : Option LDrawer :=
  if !s.tileUp g then none
  else
    let used := (s.standing g).map (·.2) ++ taken.filter fun e => e.tile = g
    let ctxs := d.ctx :: (List.range 16).filter (· ≠ d.ctx)
    let pos := (List.range 256).map fun i => (i / 16, i % 16)
    match ctxs.find? fun x => !(s.dr g x).bound && !(used.any (·.ctx = x)) with
    | none => none
    | some x => (pos.map fun (r, c) => { d with tile := g, ctx := x, row := r, col := c }).find? fun e =>
        !e.badShape && s.rowsOk e && s.fits id taken e

/-- The tile that a moved drawer takes (R305, R312): its ALT_TILE, else the lowest-numbered of the same cabinet. -/
def State.moveTo (s : State) (id : Nat) (taken : List LDrawer) (d : LDrawer) : Option LDrawer :=
  match (if d.alt < 1200 then s.spot id taken d d.alt else none) with
  | some e => some e
  | none => ((List.range 150).map fun t => 150 * (d.tile / 150) + t).findSome? fun g => s.spot id taken d g

/-- A place for each drawer of a list: where it stands if that is usable, else as a moved drawer beside all the others
(R305); the error names the cabinet without a place. -/
def State.placesFor (s : State) (id : Nat) (usable : LDrawer → Bool) (ds : List LDrawer) : Except Nat (List LDrawer) :=
  let kept := ds.filter usable
  (ds.foldl (fun (r : Except Nat (List LDrawer × List LDrawer)) d => match r with
    | .error c => .error c
    | .ok (l, moved) =>
      if usable d then .ok (l ++ [d], moved)
      else match s.moveTo id (kept ++ moved) d with
        | none => .error (d.tile / 150)
        | some e => .ok (l ++ [e], moved ++ [e])) (.ok ([], []))).map (·.1)

/-! ## Collector slots of a job (R173, R306) -/

/-- Open slots of a job: cabinet, slot, contents, staged entries. -/
def State.slotsOf (s : State) (id : Nat) : List (Nat × Nat × Slot × List Entry) :=
  (List.range 8).flatMap fun c =>
    let q := s.coll c
    (List.filter (fun (p : Nat × Slot) => p.2.jobId = id) q.slots).map fun (n, t) => (c, n, t, q.staging.filter fun e => e.slot = n)

/-- Close the slots of a job. -/
def State.dropSlots (id : Nat) (s : State) : State :=
  (s.slotsOf id).foldl (fun s (c, n, _, _) =>
    let q := s.coll c
    s.setColl c { q with slots := q.slots.del n, staging := q.staging.filter fun e => e.slot ≠ n }) s

/-- Reopen slots as they were saved, where the cabinet is there (R177). -/
def State.putSlots (l : List (Nat × Nat × Slot × List Entry)) (s : State) : State :=
  (l.filter fun q => !s.lost q.1 && !s.inCReset q.1).foldl (fun s (c, n, t, e) =>
    let q := s.coll c
    s.setColl c { q with slots := q.slots.put n t, staging := q.staging ++ e }) s

/-- What a pre-emption or a checkpoint keeps of a stopped job. -/
def State.saveJob (s : State) (id : Nat) (j : JobS) : Saved :=
  { drawers := j.placed.map s.saveDrawer
    -- with beats of its fabric-in streams that have crossed and not reached a ring (R227, log 137)
    streams := (s.streamsOf id).map fun (k, m) =>
      (k, if m.desc.dir = 2 then { m with beats := m.beats ++ (s.tile m.tile).portIn.flatten } else m)
    slots := s.slotsOf id
    totals := s.jobTotals.get ⟨0, Counts.zero⟩ id }

end Sys2Proof.Machine
end

