-- ==== Sys2Proof/Machine/Ckpt.lean ====
section
/-! DEFINITION. Checkpoint slots (R77, R308, R309) and the remote accesses that carry them and remote-backed segments
(R449). The commands of a checkpoint stand in Jobs.lean. -/

namespace Sys2Proof.Machine

/-! ## Remote accesses of a job -/

/-- Requester number of a job's remote access. -/
def xferWho (id n : Nat) : Nat := 2 ^ 60 + id * 2 ^ 40 + n

/-- Queue remote accesses of n bytes at an address: 256 bytes each, whole 64-byte pieces (R449). -/
def JobS.queueXfers (j : JobS) (dev addr n : Nat) (seg : Option Nat) (data : Nat → List Byte) : JobS :=
  let l := (List.range (ceilDiv n 256)).map fun i =>
    { n := j.nextXfer + i, dev := dev, addr := addr + 256 * i, seg := seg.map fun g => (g, 256 * i)
      len := min 256 (roundUp (n - 256 * i) 64), data := data (256 * i), sent := false : Xfer }
  { j with xfers := j.xfers ++ l, nextXfer := j.nextXfer + l.length }

/-- One access: put while fewer than 4,096 requests are outstanding, and taken when its response has come. -/
def State.moveXfer (id : Nat) (x : Xfer) (s : State) : State :=
  match s.job id with
  | none => s
  | some j =>
    let w := xferWho id x.n
    if !x.sent then
      if 4096 ≤ s.net.reqs.length then s
      else (s.putJob id { j with xfers := j.xfers.map fun y => if y.n = x.n then { y with sent := true } else y }).remoteAsk
        x.dev x.addr x.len x.seg.isNone.not x.data w
    else match s.takeDone w with
      | (none, _) => s
      | (some (st, d), s) =>
        let got := match x.seg with
          | some (g, off) => (d.zip (List.range d.length)).map fun (p : Byte × Nat) => (g, off + p.2, p.1)
          | none => []
        s.putJob id { j with
          xfers := j.xfers.filter fun y => y.n ≠ x.n
          xferBad := j.xferBad || st ≠ .ok
          gathered := j.gathered ++ got.filter fun q => q.2.2 ≠ 0 }

/-- The accesses of a job go on as far as responses and tags allow. -/
def State.moveXfers (id : Nat) (s : State) : State :=
  match s.job id with
  | none => s
  | some j => j.xfers.foldl (fun s x => s.moveXfer id x) s

/-- The accesses of a job are given up; a response that still comes finds nobody. -/
def JobS.dropXfers (j : JobS) : JobS := { j with xfers := [], xferBad := false, gathered := [], ckptStep := 0 }

/-! ## Slots (R308, R309) -/

/-- Address of the slot that checkpoint n takes. -/
def JobDesc.slotAt (d : JobDesc) (n : Nat) : Nat := d.ckpt + d.slot * (n % 2)

/-- A slot's contents are no longer committed. -/
def State.voidSlot (a : Nat) (s : State) : State := match s.jobs.ckpts.find? a with
  | some c => { s with jobs := { s.jobs with ckpts := s.jobs.ckpts.put a { c with committed := false } } }
  | none => s

/-- 0 is written over a slot's COMMIT word: the slot is invalid. A remote slot takes it in the 64 bytes that hold it, which
a checkpoint writes anew. -/
def State.unCommit (id a : Nat) (s : State) : State :=
  let s := s.voidSlot a
  match s.place a with
  | .remote dev addr => match s.job id with
    | some j => (s.putJob id (j.dropXfers.queueXfers dev addr 64 none fun _ => List.replicate 64 0)).moveXfers id
    | none => s
  | _ => s.poke (a % 2 ^ 48 + 60) (leBytes 4 0)

/-- The checkpoint that a slot holds, if it is valid for a job (R309). -/
def State.validCkpt (s : State) (id a : Nat) : Option Ckpt :=
  match s.jobs.ckpts.find? a with
  | none => none
  | some c =>
    let remote := match s.place a with | .remote _ _ => true | _ => false
    let b := s.read (a % 2 ^ 48) 64
    let inMem := field b 0 4 = 0x5E912C07 && field b 4 4 = id && field b 32 4 = crc32c (b.take 32) && field b 60 4 = 0xC3A50F96 &&
      field b 8 8 = c.n
    if c.jobId = id && c.committed && (remote || inMem) then some c else none

/-- The newest valid checkpoint of a job on this device. -/
def State.newestCkpt (s : State) (id : Nat) (d : JobDesc) : Option Ckpt :=
  match s.validCkpt id (d.slotAt 0), s.validCkpt id (d.slotAt 1) with
  | some a, some b => if a.n < b.n then some b else some a
  | some a, none => some a
  | none, o => o

/-! ## What a checkpoint holds -/

/-- A part of a slot: offset, length, and its bytes that are not 0 by place in it. -/
structure SlotPart where
  off   : Nat
  len   : Nat
  cells : List (Nat × Byte)
deriving DecidableEq, Repr

/-- A list of bytes as a part. -/
def SlotPart.ofBytes (off : Nat) (l : List Byte) : SlotPart :=
  ⟨off, l.length, ((List.range l.length).zip l).filter fun p => p.2 ≠ 0⟩

/-- n bytes of a slot from an offset. -/
def slotBytes (l : List SlotPart) (o n : Nat) : List Byte := (List.range n).map fun i =>
  match l.find? fun p => p.off ≤ o + i && o + i < p.off + p.len with
  | some p => ((p.cells.find? fun q => q.1 = o + i - p.off).map (·.2)).getD 0
  | none => 0

/-- Contents of a segment's pages: frames where resident, else backing; host memory's are free values, and a remote
page's are what the reads brought. -/
def State.segCells (j : JobS) (c : Nat) (g : LSegment) (s : State) : List (Nat × Byte) × State :=
  let z := pageSize g.large
  match s.place g.backing with
  | .remote _ _ => ((j.gathered.filter (·.1 = g.idx)).map (·.2), s)
  | _ => (List.range (g.bytes / z)).foldl (fun (p : List (Nat × Byte) × State) i =>
    let (l, s) := p
    let va := g.va + z * i
    match s.translate c j.asn va false with
    | .ok pa _ _ => (l ++ (s.cells (pa % 2 ^ 48) z).map fun q => (z * i + q.1, q.2), s)
    | _ =>
      let b := g.backing + z * i
      if s.isHost b then
        let (f, s) := s.freshBytes z
        (l ++ (f.zip (List.range z)).map fun (v, o) => (z * i + o, v), s)
      else (l ++ (s.cells (b % 2 ^ 48) z).map fun q => (z * i + q.1, q.2), s)) ([], s)

/-- A section table entry (R308). -/
def sectionEntry (kind cab replica key off n : Nat) : List Byte :=
  leBytes 1 kind ++ leBytes 1 cab ++ leBytes 1 replica ++ leBytes 1 0 ++ leBytes 4 key ++ leBytes 8 off ++ leBytes 8 n ++ leBytes 8 0

/-- The sections of a checkpoint in order: kind, cabinet, replica, key, length. -/
def JobS.sections (j : JobS) (v : Saved) : List (Nat × Nat × Nat × Nat × Nat) :=
  (v.drawers.map fun q => (1, q.entry.tile / 150, q.entry.replica, q.entry.item + 2 ^ 24 * q.entry.shard, 14336 + q.entry.omSize)) ++
    (v.streams.map fun (k, _) => (2, k / 512, 0, k % 512, 64)) ++
    (v.slots.map fun (c, n, t, e) => (3, c, 0, n, 144 * (t.chains.length + e.length))) ++
    ((j.layout.segs.filter (·.writable)).map fun g => (4, 0, 0, g.idx, g.bytes))

/-- The header of checkpoint n without its COMMIT word. -/
def State.ckptHeader (s : State) (id n : Nat) (j : JobS) (v : Saved) : List Byte :=
  let secs := j.sections v
  let b := leBytes 4 0x5E912C07 ++ leBytes 4 id ++ leBytes 8 n ++
    leBytes 8 (32 * secs.length + sumBy secs fun (_, _, _, _, k) => k) ++
    leBytes 2 (s.rankOf j) ++ leBytes 2 j.layout.groupSize ++ leBytes 4 secs.length
  b ++ leBytes 4 (crc32c b) ++ List.replicate 24 0

/-- The parts of checkpoint n after its header, and what its writable segments hold. Images and slot contents have no layout
in the spec: their bytes are free values, and what they hold is kept beside them (log 6). -/
def State.ckptParts (j : JobS) (v : Saved) (s : State) : List SlotPart × List (Nat × List (Nat × Byte)) × State :=
  let secs := j.sections v
  let first := 64 + 32 * secs.length
  let offs := (List.range secs.length).map fun i => first + sumBy (secs.take i) fun (_, _, _, _, k) => k
  let table := (secs.zip offs).flatMap fun ((k, cab, rep, key, len), off) => sectionEntry k cab rep key off len
  let nd := v.drawers.length; let ns := nd + v.streams.length
  let (ps, s) := (v.drawers.zip offs).foldl (fun (p : List SlotPart × State) (q, off) =>
    let (l, s) := p.2.freshBytes 14336
    (p.1 ++ [SlotPart.ofBytes off l, ⟨off + 14336, q.entry.omSize, q.om⟩], s)) ([SlotPart.ofBytes 64 table], s)
  let ps := ps ++ (v.streams.zip (offs.drop nd)).map fun ((_, m), off) => SlotPart.ofBytes off m.record
  let (ps, s) := (v.slots.zip (offs.drop ns)).foldl (fun (p : List SlotPart × State) ((_, _, t, e), off) =>
    let (l, s) := p.2.freshBytes (144 * (t.chains.length + e.length))
    (p.1 ++ [SlotPart.ofBytes off l], s)) (ps, s)
  ((j.layout.segs.filter (·.writable)).zip (offs.drop (ns + v.slots.length))).foldl
    (fun (p : List SlotPart × List (Nat × List (Nat × Byte)) × State) (g, off) =>
      let (cells, s) := p.2.2.segCells j ((j.cabs.head?).getD 0) g
      (p.1 ++ [⟨off, g.bytes, cells⟩], p.2.1 ++ [(g.idx, cells)], s)) (ps, [], s)

/-! ## Writing one, step by step (R308) -/

/-- Steps 2 to 4 of a checkpoint as far as they go now: COMMIT overwritten and remote-backed segments read, sections
written, COMMIT written. Each begins when every access of the one before it has reached its point of visibility. -/
def State.writeCkpt (id n : Nat) : Nat → State → State
  | 0, s => s
  | f + 1, s =>
    let s := s.moveXfers id
    match s.job id with
    | none => s
    | some j =>
      let a := j.desc.slotAt n
      if j.xferBad || !j.xfers.isEmpty || 3 ≤ j.ckptStep then s
      else if j.ckptStep = 0 then
        let s := s.unCommit id a
        let j := (s.job id).getD j
        let j := (j.layout.segs.filter (·.writable)).foldl (fun j g => match s.place g.backing with
          | .remote dev addr => j.queueXfers dev addr g.bytes (some g.idx) fun _ => []
          | _ => j) j
        State.writeCkpt id n f (s.putJob id { j with ckptStep := 1 })
      else
        let v := s.saveJob id j
        let head := s.ckptHeader id n j v
        if j.ckptStep = 1 then
          let (parts, segs, s) := s.ckptParts j v
          let parts := SlotPart.ofBytes 0 (head ++ leBytes 4 0) :: parts
          let s := { s with jobs := { s.jobs with ckpts := s.jobs.ckpts.put a ⟨n, id, v, segs, j.runTime s.now, false⟩ } }
          let size := parts.foldl (fun m p => max m (p.off + p.len)) 0
          match s.place a with
          | .remote dev addr =>
            State.writeCkpt id n f (s.putJob id { j.queueXfers dev addr size none (fun o => slotBytes parts o (min 256 (roundUp (size - o) 64)))
              with ckptStep := 2 })
          | _ => State.writeCkpt id n f ((parts.foldl (fun s p => s.setCells (a % 2 ^ 48 + p.off) p.len p.cells) s).putJob id
              { j with ckptStep := 2 })
        else
          let word := leBytes 4 0xC3A50F96
          match s.place a with
          | .remote dev addr =>
            (s.putJob id { j.queueXfers dev addr 64 none (fun _ => head ++ word) with ckptStep := 3 }).moveXfers id
          | _ => (s.poke (a % 2 ^ 48 + 60) word).putJob id { j with ckptStep := 3 }

/-- The COMMIT word has reached its point of visibility: the checkpoint is committed (R77, R308). -/
def State.commitSlot (id a : Nat) (s : State) : State :=
  let s := match s.jobs.ckpts.find? a with
    | some c => { s with jobs := { s.jobs with ckpts := s.jobs.ckpts.put a { c with committed := true } } }
    | none => s
  match s.job id with
  | some j => s.putJob id j.dropXfers
  | none => s

/-! ## Rung 5 begins (R279, R286, R310, R312) -/

/-- Instant at which the first rung that rung 5 supersedes was detected; times add (R286). -/
def State.sinceRung (s : State) (id : Nat) (j : JobS) : Nat :=
  s.health.rungs.foldl (fun t q => match q.work with
    | .replica i _ _ => if i = id then min t q.record.t else t
    | .site g _ _ | .row g _ => if j.placed.any (·.tile = g) then min t q.record.t else t
    | .shard i => if i = id then min t q.record.t else t) s.now

/-- A job returns to its newest committed checkpoint: a checkpoint being written is abandoned, its drawers and streams stop,
its feeds recover, and rung 5 waits; lower rungs for it are superseded (R279, R286, R310, R312). -/
def State.startRung5 (id : Nat) (r : FaultRec) (s : State) : State :=
  match s.job id with
  | none => s.logFault r 0xFF
  | some j =>
    if !j.isPlaced then s.recoverJob (.shard id) r id
    else
      let r := { r with t := min r.t (s.sinceRung id j) }
      let s := match j.writing with
        | some n => if j.st = JobSt.checkpointing then s.unCommit id (j.desc.slotAt n) else s
        | none => s
      let s := s.supersede fun q => match q.work with
        | .replica i _ _ => i = id
        | _ => false
      let j := { ((s.job id).getD j).dropXfers with writing := none, reported := none, released := false }
      let s := j.placed.foldl (fun s d => s.feedRecover d.tile d.ctx) s
      ((s.putJob id j).askJob id j true).recoverJob (.shard id) r id

end Sys2Proof.Machine
end

