-- ==== Sys2Proof/Machine/Units.lean ====
section
/-! DEFINITION. Units of streams settle (R213, R228–R233, R240): deliveries, multicast windows, visibility of writes, and
what a failed unit brings (R270); and what waits for a pass to commit goes on (R155). -/

namespace Sys2Proof.Machine

/-! ## Units settle (R213, R228–R233, R240) -/

/-- The fault record of a stream's memory error. -/
def unitRec (s : State) (k code mech job pa : Nat) : FaultRec :=
  { FaultRec.device s.now code mech with cab := k / 512, job := job, addr := pa }

/-- GDDR7 data lost (R270): a resident page with WRITABLE 0 is made not present, to be migrated in again; else rung 5 for
the job. -/
def State.gddrFault (r : FaultRec) (s : State) : State :=
  match s.place r.addr, s.job r.job with
  | .gddr c _, some j =>
    let page := List.find? (fun (f : Nat × Nat × Bool × Nat × Nat) => f.1 = c && f.2.1 = j.asn &&
      (let a := frameAddr c j.asn f.2.2.1 f.2.2.2.1
       a ≤ r.addr % 2 ^ 48 && r.addr % 2 ^ 48 < a + pageSize f.2.2.1)) s.mm.frames
    match page with
    | some (_, _, large, _, p) =>
      if ((s.leafOf j.asn p).map fun e => pteWritable e).getD false then s.startRung5 r.job r
      else
        let b := s.mm.backing.get 0 (leafKey j.asn p)
        let s := (s.invalidate j.asn p).putLeaves j.asn p large (mkLeaf false false false false b)
        let s := { s with mm := { s.mm with frames := s.mm.frames.filter fun f => !(f.2.1 = j.asn && f.2.2.2.2 = p) } }
        s.logFault r 0xFF
    | none => s.startRung5 r.job r
  | _, _ => s.startRung5 r.job r

/-- A read unit whose slot of the landing area is lost is requested again from its source (R270). -/
def State.askAgain (k n : Nat) (s : State) : State :=
  match s.stream k with
  | none => s
  | some m => match m.outst.find? (·.n = n) with
    | none => s
    | some u => match s.place u.pa with
      | .remote dev addr => (s.takeDone (streamWho k n)).2.remoteAsk dev addr 256 true [] (streamWho k n)
      | .host _ => s
      | _ => s.putStream k { m with outst := m.outst.map fun v => if v.n = n then { v with data := s.read (u.pa % 2 ^ 48) 256 } else v }

/-- A fault in a cabinet's landing area (R270): which of the units that lie there is lost is a free value (log 128). -/
def State.reRequest (c : Nat) (s : State) : State :=
  let there := (s.streams.filter fun (k, m) => k / 512 = c && m.desc.isRead).flatMap fun (k, m) =>
    (m.outst.filter fun u => match s.place u.pa with
      | .remote _ _ => (s.net.done.find? (streamWho k u.n)).isSome
      | _ => true).map fun u => (k, u.n)
  let (v, s) := s.fresh
  match there[v.toNat % max 1 there.length]? with
  | none => s
  | some (k, n) => s.askAgain k n

/-- The stream goes back to a unit that has failed: nothing at or beyond it is delivered (R240). -/
def StreamS.backTo (m : StreamS) (n : Nat) : StreamS :=
  { m with issued := n, looked := n, outst := m.outst.filter (·.n < n) }

/-- The mechanism that found a GDDR7 error, CRC or on-die ECC: the response names neither, a free value (R251, R271,
log 129). -/
def State.gddrMech (s : State) : Nat × State :=
  let (v, s) := s.fresh
  (if v.toNat % 2 = 0 then 5 else 6, s)

/-- A unit returned an uncorrectable error (R240, R270): a far-tier error ends the job; a read-only GDDR7 page is made
not present and read again; anything else is rung 5 for the job. -/
def State.badUnit (k : Nat) (m : StreamS) (n pa : Nat) (s : State) : State :=
  match s.place pa with
  | .cxl _ _ | .host _ | .remote _ _ =>
    ((s.putStream k (m.backTo n)).logFault (unitRec s k 0x0D 7 m.jobId pa) 0xFF).endJob m.jobId Status.farTier 7
  | .gddr _ _ =>
    let (mech, s) := s.gddrMech
    (s.putStream k (m.backTo n)).gddrFault (unitRec s k 0x0A mech m.jobId pa)
  | _ => (s.putStream k (m.backTo n)).startRung5 m.jobId (unitRec s k 0x09 4 m.jobId pa)

/-- A unit returned a status other than ok. -/
def State.unitFails (k : Nat) (m : StreamS) (n pa : Nat) (st : MemStatus) (s : State) : State :=
  match st with
  | .ok => s
  | .decode => s.streamError k 7
  | .cabinetLost => s.putStream k { m.backTo n with halting := some (3, 0), haltAt := n }
  | _ => s.badUnit k m n pa

/-- The outcome of a read unit: none while a remote response is still to come; else status and bytes. -/
def State.unitData (k : Nat) (u : OutUnit) (status : MemStatus) (data : List Byte) (s : State) :
    Option (MemStatus × List Byte) × State :=
  match s.place u.pa with
  | .remote _ _ => s.takeDone (streamWho k u.n)
  | .host _ => (some (s.access u.pa status, (List.range 256).map fun i => data.getD i 0), s)
  | _ => (some (s.access u.pa status, u.data), s)

/-- A receiver of a multicast whose lag falls to 128 is attached again (R232). -/
def State.reattach (k : Nat) (s : State) : State :=
  match s.stream k with
  | none => s
  | some m =>
    let back (r : Recv) : Bool := !r.attached && m.fetched - r.delivered ≤ 128
    let n := (m.recv.filter back).length
    if n = 0 then s
    else (s.putStream k { m with recv := m.recv.map fun r => if back r then { r with attached := true } else r }).bump Obj.reattaches n

/-- Address of a unit in a multicast's window (R229). -/
def StreamS.windowAt (m : StreamS) (n : Nat) : Nat := m.window + 256 * (n % (2 ^ m.desc.winLog2 / 256))

/-- The head unit of a multicast arrives from its source and is in the window from then on (R229). -/
def State.intoWindow (k : Nat) (status : MemStatus) (data : List Byte) (s : State) : State :=
  match s.stream k with
  | none => s
  | some m => match m.outst with
    | [] => s
    | u :: r => match s.unitData k u status data with
      | (none, _) => s
      | (some (.ok, b), s) => (s.poke (m.windowAt u.n) b).putStream k { m with fetched := u.n + 1, outst := r }
      | (some (e, _), s) => s.unitFails k m u.n u.pa e

/-- The next unit of a receiver that has a free slot, with no pass locking it, is delivered from the window (R155, R230,
R232). -/
def State.fromWindow (k i : Nat) (status : MemStatus) (s : State) : State :=
  match s.stream k with
  | none => s
  | some m => match m.recv[i]? with
    | none => s
    | some r =>
      let n := r.delivered
      let slot := m.desc.slot r.tile n
      if m.fetched ≤ n || m.desc.ring ≤ r.delivered - r.freed || s.lockedAt slot 256 then s
      else match s.access (m.windowAt n) status with
        | .ok =>
          let s := s.poke slot (s.read (m.windowAt n) 256)
          let s := s.putStream k { m with
            recv := m.recv.modify i fun r => { r with delivered := r.delivered + 1 }
            delivered := if i = 0 then m.delivered + 1 else m.delivered }
          (s.reattach k).checkDone k
        | .cabinetLost => s
        | .decode => s.streamError k 7
        | _ => s.startRung5 m.jobId (unitRec s k 0x09 4 m.jobId (m.windowAt n))

/-- A multicast delivery to a receiver (R229–R233): one that has what the window holds, or that cannot take a unit now, sees
the next unit arrive in the window first, delivered in the same step where the broadcast reaches it. -/
def State.deliverTo (k i : Nat) (m : StreamS) (status : MemStatus) (data : List Byte) (s : State) : State :=
  let behind := match m.recv[i]? with
    | some r => r.delivered < m.fetched && r.delivered - r.freed < m.desc.ring && !s.lockedAt (m.desc.slot r.tile r.delivered) 256
    | none => false
  if behind then s.fromWindow k i status
  else
    let s := s.intoWindow k status data
    match s.stream k with
    | some m' => if m.fetched < m'.fetched then s.fromWindow k i .ok else s
    | none => s

/-- UNIT_DELIVERED (R155, R213, R229–R233, R239, R240): a unit waits while its cabinet changes operating point (R254) or a
pass locks its slot. -/
def execUnitDelivered (c : Cab) (s' : StreamNo) (receiver : Fin 64) (status : MemStatus) (data : List Byte) (s : State) : Res :=
  let k := streamKey c s'
  match s.stream k with
  | none => .next s
  | some m =>
    if !m.desc.isRead || m.desc.dir ≠ 0 || m.st = .error || m.st = .saved || m.st = .opening then .next s
    else if m.st = .closing then
      match m.outst with
      | [] => .next s
      | u :: r => match s.unitData k u status data with
        | (none, _) => .next s
        | (some _, s) => .next ((s.putStream k { m with outst := r }).evictionsGoOn)
    else if m.desc.mcast then
      if (m.outst.head?.map fun u => s.changing u.pa).getD false then .next s
      else .next ((s.deliverTo k receiver m status data).evictionsGoOn)
    else match m.outst with
      | [] => .next s
      | u :: r =>
        if s.changing u.pa || s.lockedAt (m.desc.slot m.tile u.n) 256 then .next s
        else match s.unitData k u status data with
        | (none, _) => .next s
        | (some (.ok, b), s) =>
          let s := s.poke (m.desc.slot m.tile u.n) b
          .next (((s.putStream k { m with outst := r, delivered := m.delivered + 1 }).checkDone k).evictionsGoOn)
        | (some (e, _), s) => .next ((s.unitFails k m u.n u.pa e).evictionsGoOn)

/-- Row of the table of R228. -/
def placeRow : Place → Nat
  | .gddr _ _ => 0
  | .buffer _ _ => 1
  | .cxl _ _ => 2
  | .host _ => 3
  | .remote _ _ => 4
  | _ => 5

/-- UNIT_VISIBLE (R214, R221, R228): in order among the units of one destination; then the unit is outstanding no more. -/
def execUnitVisible (c : Cab) (s' : StreamNo) (n : BitVec 32) (status : MemStatus) (s : State) : Res :=
  let k := streamKey c s'
  match s.stream k with
  | none => .next s
  | some m =>
    match m.outst.find? (·.n = n.toNat) with
    | none => .next s
    | some u =>
      let earlier := m.outst.any fun v => v.n < u.n && placeRow (s.place v.pa) = placeRow (s.place u.pa)
      if m.desc.isRead || earlier || s.changing u.pa then .next s
      else
        let (st, s) : Option MemStatus × State := match s.place u.pa with
          | .remote _ _ => let (r, s) := s.takeDone (streamWho k u.n); (r.map (·.1), s)
          | _ => (some (s.access u.pa status), s)
        match st with
        | none => .next s
        | some .ok =>
          let s := match s.place u.pa with | .remote _ _ => s | _ => s.storeAt u.pa u.data
          .next ((s.putWrite k { m with outst := m.outst.filter (·.n ≠ u.n) }).evictionsGoOn)
        | some e => .next ((s.unitFails k m u.n u.pa e).evictionsGoOn)

/-- STREAM_HALT_COMPLETE (R234, R235, R238, R240, R279): a stream that halts with CAUSE CABINET_LOST takes its job to rung 5,
unless the job recovers under it already; the record names the lowest-numbered lost cabinet (log 134). -/
def execStreamHaltComplete (c : Cab) (s' : StreamNo) (s : State) : Res :=
  let k := streamKey c s'
  match s.stream k with
  | none => .next s
  | some m => match m.halting with
    | none => .next s
    | some (cause, va) =>
      if !(m.outst.isEmpty && m.st = .running && m.haltAt ≤ m.issued) then .next s
      else
        let s := s.formRecord k m cause va
        if cause ≠ 3 || s.health.rungs.any fun q => q.work = .shard m.jobId then .next s
        else
          let cab := ((List.range 8).find? s.lost).getD 0xFF
          .next (s.startRung5 m.jobId { FaultRec.device s.now 0x0E 9 with cab := cab, job := m.jobId })

/-- PASS_COMMIT (R154, R155, R163): the oldest pass past its boundary commits, and fabric-port beats that waited for the
ranges that it read move on. -/
def execPassCommit (g : Tile) (x : Ctx) (s : State) : Res := .next ((s.commitOldest g x).movePort g)

end Sys2Proof.Machine
end

