-- ==== Sys2Proof/Machine/Faults.lean ====
section
/-! DEFINITION. Hidden failures (spec/09): fault reports, replays, persistent faults and rungs 0 to 4. Rung 5 stands in
Jobs.lean, the loss of a cabinet in Loss.lean. -/

namespace Sys2Proof.Machine

/-! ## Discards and replays (R159–R162) -/

/-- Passes of a drawer in flight, oldest first: past their boundary and not committed, and the one issuing. -/
def Drawer.flying (d : Drawer) : List Nat := d.await.map (·.pass) ++ (if d.st = .issuing then [d.pass] else [])

/-- The oldest pass in flight. -/
def Drawer.oldest (d : Drawer) : Option Nat := d.flying.head?

/-- Discard a pass and what came after it, with their counts (R159): the drawer is Discarding, or holds still, or stops at
the last committed boundary for a pending request (R161). -/
def State.discardPass (g x p : Nat) (s : State) : State :=
  let d := s.dr g x
  if !d.flying.contains p then s
  else
    let keep := d.await.filter (·.pass < p)
    let s := s.bump (tileKey Obj.passesDiscarded g) (d.flying.length - keep.length)
    let st := if d.st = .holding || (d.asked && !d.hold.isEmpty) then DrawerSt.holding
      else if d.asked then .stopping else .discarding
    let s := s.modDr g x fun d => { d with await := keep, pass := p, begun := true, st := st }
    if st = .stopping && keep.isEmpty then s.stopCtx g x else s

/-- A Discarding drawer reissues its pass from its first block, at once unless its level is 0: then when density allows
(R159, R161, R163). -/
def State.replay (g x : Nat) (s : State) : State :=
  if (s.dr g x).st = .discarding && 0 < (s.dr g x).level then s.modDr g x fun d => { d with st := .issuing } else s

/-- Every drawer of a tile with a pass in flight discards its oldest uncommitted pass (R159, R280). -/
def State.discardTile (g : Nat) (s : State) : State :=
  (s.tile g).bound.foldl (fun s x => match (s.dr g x).oldest with
    | some p => s.discardPass g x p
    | none => s) s

/-- Every Discarding drawer of a tile replays. -/
def State.replayTile (g : Nat) (s : State) : State := (s.tile g).bound.foldl (fun s x => s.replay g x) s

/-! ## Marks and records (R272, R273, R285) -/

/-- Key of a site's marks; of a shared part of a tile, by its structure code (R137, R270). -/
def siteMark (g shelf site : Nat) : Nat := 272 * g + 17 * shelf + site
def sharedMark (g code : Nat) : Nat := 326400 + 16 * g + code

/-- Note a fault at a place: whether an earlier one came within 1,000 ms, and how many faults the last 1,000 ms hold, this
one included. -/
def State.noteMark (k t : Nat) (s : State) : Bool × Nat × State :=
  let near := (s.health.marks.get [] k).filter fun m => t ≤ m + 1000000000
  (!near.isEmpty, near.length + 1, { s with health := { s.health with marks := s.health.marks.put k (t :: near) } })

/-- The signature of a fault on a pass, at a place (R273). -/
def FaultRec.signature (r : FaultRec) (place pass : Nat) : List Nat := [pass, place, r.mech, r.ci, r.cj, r.syn]

/-- The replay of a pass reports what the pass reported: a hard signature (R273). -/
def State.hardSig (s : State) (g : Nat) (x : Option Nat) (sig : List Nat) : Bool := match x with
  | some x => (s.dr g x).sigs.contains sig
  | none => (s.tile g).bound.any fun x => (s.dr g x).sigs.contains sig

/-- Keep a signature with the drawer until its pass commits. -/
def State.keepSig (g x : Nat) (sig : List Nat) (s : State) : State :=
  if (s.dr g x).flying.contains (sig.headD 0) then s.modDr g x fun d => { d with sigs := sig :: d.sigs } else s

/-- A physical site serves a logical column (R20, R272). -/
def State.serves (s : State) (g shelf site : Nat) : Bool :=
  !s.rowRemoved g shelf && ((s.sites g shelf).take 16).contains site

/-- The drawer over a site: logical row and column. -/
def State.drawerAt (s : State) (g shelf site : Nat) : Option Nat :=
  let col := (s.sites g shelf).idxOf site
  (s.tile g).bound.find? fun x =>
    let d := s.dr g x
    d.covers shelf && d.c0 ≤ col && col < d.c0 + d.w

/-- Fields of the record that a report gives. -/
def State.recOf (s : State) (f : FaultInfo) (x : Option Nat) : FaultRec :=
  let g := f.tile.map (·.val)
  let job := match g, x with
    | some g, some x => (s.dr g x).jobId
    | _, _ => f.jobId.toNat
  { t := s.now, code := f.structureCode.toNat, mech := f.mechanism.toNat
    flags := (if f.pepper then 2 else 0) + (match g, x with | some g, some x => if (s.dr g x).rt then 4 else 0 | _, _ => 0)
    tile := g.getD 0xFFFF, shelf := (f.shelf.map (·.val)).getD 0xFF, site := (f.site.map (·.val)).getD 0xFF
    ctx := x.getD 0xFF, cab := (g.map (· / 150)).getD ((f.cabinet.map (·.val)).getD 0xFF)
    ci := f.cellI.toNat, cj := f.cellJ.toNat, job := job, syn := f.syndrome.toNat, addr := f.address.toNat, count := 1 }

/-- The replica that a drawer is, as rung 4's work. -/
def State.replicaOf (s : State) (g x : Nat) : Option (Nat × RungWork) :=
  let id := (s.dr g x).jobId
  match s.job id with
  | none => none
  | some j => (j.placed.find? fun d => d.tile = g && d.ctx = x).map fun d => (id, .replica id d.shard d.replica)

/-- A drawer's state is lost: every drawer of its replica stops for recovery, and rung 4 waits for the replica (R277). -/
def State.loseDrawer (g x : Nat) (r : FaultRec) (s : State) : State :=
  match s.replicaOf g x with
  | some (id, .replica i shard replica) =>
    let mine := ((s.job id).map fun j => j.placed.filter fun d => d.shard = shard && d.replica = replica).getD []
    let s := mine.foldl (fun s d => s.askStop d.tile d.ctx true) s
    s.recoverJob (.replica i shard replica) { r with ctx := x, job := id } id
  | _ => s

/-- A tile is retired: RETIRED in the fence map, what waits for its sites is left without a rung, and its drawers take
rung 4 (R273, R286). -/
def State.retireTile (g : Nat) (r : FaultRec) (s : State) : State :=
  let s := (s.setRetired g true).persist (Obj.tileFenceMap + g / 150)
  let s := (s.setFlag Obj.healthFlags 4).setFlag Obj.healthFlags 1
  let s := s.supersede fun q => match q.work with
    | .site h _ _ | .row h _ => h = g
    | _ => false
  let xs := (s.tile g).bound
  if xs.isEmpty then s.logFault r 0xFF else xs.foldl (fun s x => s.loseDrawer g x r) s

/-- A fault in a shared part: what it discards, then a hard signature, or a second fault within 1,000 ms, retires the tile;
else what the structure's row says (R273). -/
def State.sharedFault (g : Nat) (f : FaultInfo) (r : FaultRec) (discard : State → State) (act : FaultRec → State → State)
    (s : State) : State :=
  let k := sharedMark g r.code
  let xs := if r.ctx < 16 then [r.ctx] else (s.tile g).bound
  let hard := xs.any fun x => s.hardSig g (some x) (r.signature k (((s.dr g x).oldest).getD f.pass))
  let (again, n, s) := s.noteMark k s.now
  let s := xs.foldl (fun s x => s.keepSig g x (r.signature k (((s.dr g x).oldest).getD f.pass))) s
  let s := discard s
  let rt := (s.tile g).bound.any fun x => (s.dr g x).rt
  let r := { r with count := n, flags := r.flags ||| 8 ||| (if rt then 4 else 0) }
  if again || hard then s.retireTile g { r with flags := r.flags ||| 1 } else act r s

/-- The rung of a tile begins: rung 2 stops every drawer of the tile, rung 3 those over the row (R275, R276). A fault whose site is Fenced already, or whose tile is retired, is recorded
without a rung (R286). -/
def State.beginRung (g : Nat) : Nat → State → State
  | 0, s => s
  | n + 1, s => match s.tileRung g with
    | none => s
    | some q =>
      let stale := s.retired g || (match q.work with | .site _ sh st => s.siteCode g sh st ≠ 0 | _ => false)
      if stale then State.beginRung g n (s.closeRungs q.work 0xFF)
      else (s.tile g).bound.foldl (fun s x => if s.rungStops g x then s.askStop g x true else s) s

/-- A rung is queued for a tile, and begins where it is the first. -/
def State.queueTile (g : Nat) (w : RungWork) (r : FaultRec) (s : State) : State :=
  let first := (s.tileRung g).isNone
  let s := s.queueRung w r
  if first then s.beginRung g 1 else s

/-- A fault in a site: noted, and persistent or not (R272, R273). -/
def State.siteFault (g shelf site : Nat) (f : FaultInfo) (hard : Bool) (r : FaultRec) (rung : Nat) (s : State) : State :=
  let k := siteMark g shelf site
  let x := if r.ctx < 16 then some r.ctx else none
  let sig := r.signature k f.pass
  let same := !f.pepper && x.isSome && s.hardSig g x sig
  let (again, n, s) := s.noteMark k s.now
  let s := if f.pepper then s else match x with
    | some x => s.modDr g x fun d => { d with sigs := if d.bound then sig :: d.sigs else d.sigs }
    | none => s
  let r := { r with count := n }
  if again || hard || same then
    (s.setFlag Obj.healthFlags 1).queueTile g (.site g shelf site) { r with flags := r.flags ||| 1 }
  else s.logFault r rung

/-- The tile's program store is written again from the programs' images (R270). -/
def State.rewriteStore (g : Nat) (s : State) : State :=
  (s.tile g).bound.foldl (fun s x => match s.job (s.dr g x).jobId with
    | none => s
    | some j => match j.placed.find? fun d => d.tile = g && d.ctx = x with
      | none => s
      | some d =>
        let words := s.imageWords j d
        let base := (s.th g x).winBase
        s.modTile g fun t =>
          let prog := (words.zip (List.range words.length)).foldl (fun (p : Tab (BitVec 128)) (w, i) => p.put (base + i) w) t.prog
          { t with prog := prog }) s

/-- A fault of one drawer's cores, found on a pass (R159, R161, R270): the pass and later ones are discarded; where the
fault is persistent its rung begins, which stops a Discarding drawer at once; else the pass replays. -/
def State.coreFault (f : FaultInfo) (g : Nat) (x : Option Nat) (hard : Bool) (r : FaultRec) (s : State) : State :=
  let flying := match x with | some x => (s.dr g x).flying.contains f.pass | none => false
  let s := match x with | some x => s.discardPass g x f.pass | none => s
  let rung := if flying then 1 else 0xFF
  let s := match f.shelf, f.site with
    | some sh, some st => s.siteFault g sh st f hard r rung
    | _, _ => s.logFault { r with count := 1 } rung
  s.replayTile g

/-- The committed accumulators or the stationary store of a drawer are lost: what it has in flight rests on them and is
discarded; the site is persistently faulty, and the drawer's replica goes to rung 4 (R270, R277). -/
def State.committedFault (f : FaultInfo) (g x : Nat) (r : FaultRec) (s : State) : State :=
  let s := match (s.dr g x).oldest with
    | some p => s.discardPass g x p
    | none => s
  let s := s.loseDrawer g x { r with flags := r.flags ||| 1, count := 1 }
  s.coreFault f g (some x) true r

/-- Rung 4 for a job whose lost data no drawer names: the replica of its first drawer in the cabinet (R270, log 124). -/
def State.jobFault (r : FaultRec) (s : State) : State :=
  match (s.job r.job).bind fun j => j.placed.find? fun d => d.tile / 150 = r.cab with
  | some d => s.loseDrawer d.tile d.ctx r
  | none => s.startRung5 r.job r

/-- What a fault in a shared part of a tile brings, by structure code (R270). -/
def State.tileFault (f : FaultInfo) (g : Nat) (x : Option Nat) (r : FaultRec) (s : State) : State :=
  if r.code = 4 then
    let any := (s.tile g).bound.any fun x => (s.dr g x).oldest.isSome
    s.sharedFault g f r (State.discardTile g) fun r s => s.logFault r (if any then 1 else 0xFF)
  else if r.code = 5 then
    s.sharedFault g f r (fun s => match x with | some y => s.discardPass g y f.pass | none => s) fun r s => match x with
      | none => s.logFault r 0xFF
      | some y => s.loseDrawer g y r
  else if r.code = 6 then
    s.sharedFault g f r id fun r s => match x with
      | none => (s.rewriteStore g).logFault r 1
      | some y => s.loseDrawer g y r
  else if r.code = 7 then
    s.sharedFault g f r id fun r s =>
      let (v, s) := s.fresh
      (s.bump (tileKey Obj.freezeCycles g) (v.toNat % 16 + 1)).logFault r 0xFF
  else
    s.sharedFault g f r id fun r s => match x with
      | none => s.jobFault r
      | some y => s.loseDrawer g y r

/-- Responses outside a tile, by structure code (R270). -/
def State.deviceFault (f : FaultInfo) (r : FaultRec) (s : State) : State :=
  if r.code = 8 then
    if r.mech = 1 then (s.bump (Obj.combineReplays + 0x10000 * (r.cab % 8)) 1).logFault r 0xFF
    else s.jobFault r
  else if r.code = 9 then
    match f.cabinet with
    | some c =>
      let a := f.address.toNat
      if bufferBase c ≤ a && a < bufferBase c + 0x100000 then (s.reRequest c).logFault r 0xFF
      else if (s.job r.job).isNone then s.logFault r 0xFF
      else s.startRung5 r.job r
    | none => if (s.job r.job).isNone then s.logFault r 0xFF else s.startRung5 r.job r
  else if r.code = 0xA then s.gddrFault r
  else if r.code = 0xB then (s.bump Obj.linkReplays 1).logFault r 0
  else if r.code = 0xD then (s.logFault r 0xFF).endJob r.job Status.farTier r.mech
  else if r.code = 0xF then (s.setFlag Obj.healthFlags 0x40).logFault r 0xFF
  else s.logFault r 0xFF

/-- A corrected single-bit error: counted; one in a bank register's read freezes the tile for a cycle (R186, R270). -/
def State.corrected (f : FaultInfo) (s : State) : State :=
  let s := s.bump Obj.correctedErrors 1
  match f.tile, f.ctx with
  | some g, some x => if f.structureCode = 6 && ((s.tile g).bankOf x).isSome then s.bump (tileKey Obj.freezeCycles g) 1 else s
  | _, _ => s

/-- FAULT_REPORT (R159, R164, R270–R273): the response of the structure's row. A site that serves no logical column
reports no fault. -/
def execFaultReport (t : Nat) (f : FaultInfo) (s : State) : Res :=
  let s := s.upto t
  let idle := match f.tile, f.shelf, f.site with
    | some g, some sh, some st => !s.serves g sh st
    | _, _, _ => false
  let gone := match f.tile with
    | some g => s.lost (g / 150) || s.inCReset (g / 150)
    | none => false
  if idle || gone then .next s
  else if f.mechanism = 3 then .next (s.corrected f)
  else
    let x := match f.ctx with
      | some x => some x.val
      | none => match f.tile, f.shelf, f.site with
        | some g, some sh, some st => s.drawerAt g sh st
        | _, _, _ => none
    let s := match f.tile, x with | some g, some x => s.checkerFault g x | _, _ => s
    let r := s.recOf f x
    let code := f.structureCode.toNat
    if f.pepper then
      let s := s.setFlag Obj.healthFlags 0x80
      match f.tile, f.shelf, f.site with
      | some g, some sh, some st => .next (s.siteFault g sh st f false r 0xFF)
      | _, _, _ => .next (s.logFault { r with count := 1 } 0xFF)
    else match f.tile with
      | some g =>
        if code = 1 || code = 2 then .next (s.coreFault f g x false r)
        else if code = 3 then
          match x with
          | none => .next (s.coreFault f g x true r)
          | some y => if (s.dr g y).flying.contains f.pass then .next (s.coreFault f g x true r) else .next (s.committedFault f g y r)
        else if 4 ≤ code && code ≤ 8 then .next ((s.tileFault f g x r).replayTile g)
        else .next (s.deviceFault f { r with count := 1 })
      | none => .next (s.deviceFault f { r with count := 1 })

/-- LINK_REPLAY (R274): the flit of this link is sent again, which is rung 0. -/
def execLinkReplay (t : Nat) (link : Byte) (s : State) : Res :=
  let s := (s.upto t).bump Obj.linkReplays 1
  .next (s.logFault { FaultRec.device s.now 0x0B 5 with syn := link.toNat } 0)

/-! ## Rung 2 (R275, R286) -/

/-- Change codes of sites and make the change durable (R282). -/
def State.fence (g : Nat) (l : List (Nat × Nat)) (code : Nat) (s : State) : State :=
  (s.setSites g l code).persist (Obj.tileFenceMap + g / 150)

/-- TileState of a tile with its rows counted (R143). -/
def State.settleTile (g : Nat) (s : State) : State :=
  s.setState (tileKey Obj.tileState g) (if s.num (tileKey Obj.rowsRemoved g) = 0xFFFF || s.retired g then 3 else 2)

/-- A bench selection of a tile whose drawers are all saved: they leave it, the selection runs and changes codes, and they
return as they were assigned before, Stopped at level 0 (R145, R146, R275). -/
def State.benchHeld (g : Nat) (bad : List (Nat × Nat)) (change : State → State) (s : State) : State :=
  let kept := (s.tile g).ctxs
  let s := s.modTile g fun t => { t with ctxs := [] }
  let s := (s.setState (tileKey Obj.tileState g) 1).setNum (tileKey Obj.benchResult g) (benchWord bad)
  let s := (change s).settleTile g
  s.modTile g fun t => { t with ctxs := kept.map fun (x, c) => (x, if c.dr.bound then c.saved else c) }

/-- Every drawer of a tile is at rest. -/
def State.tileAtRest (s : State) (g : Nat) : Bool := (s.tile g).bound.all (s.atRest g)

/-- CORE_FENCE_WITH_SPARE (R275, R282, R286): once every drawer of the tile is saved, the selection runs without the site
and without every other site of the tile whose fault waits for rung 2; they and the failing sites are Fenced and the
drawers go on; shelves left short go to rung 3, and the drawers over them stay stopped. -/
def execCoreFenceWithSpare (t : Nat) (g : Tile) (shelf : Fin 16) (site : Fin 17) (failing : List (Fin 16 × Fin 17))
    (s : State) : Res :=
  let s := s.upto t
  match s.tileRung g with
  | none => .next s
  | some q =>
    if q.work ≠ .site g shelf site || !s.rung2 g shelf || s.retired g || s.siteCode g shelf site ≠ 0 || !s.tileAtRest g then .next s
    else
      let waiting := s.health.rungs.filterMap fun q => match q.work with
        | .site h sh st => if h = g.val && s.rung2 g sh && s.siteCode g sh st = 0 then some ((sh, st), q) else none
        | _ => none
      let out := (waiting.map (·.1)).eraseDups
      let bad := (failing.map fun (a, b) => (a.val, b.val)).filter fun p =>
        !out.contains p && (out.any (·.1 = p.1) || p.2 < 16)
      let s := s.benchHeld g bad fun s => s.fence g (out ++ bad) 1
      let short := (List.range 16).filter fun sh => s.rowRemoved g sh && ((out ++ bad).any (·.1 = sh))
      let s := s.dropRungs fun q => match q.work with | .site h sh st => h = g.val && out.contains (sh, st) | _ => false
      let s := waiting.foldl (fun s (p, q) =>
        if short.contains p.1 then s.queueRung (.row g p.1) q.record else s.logFault q.record 2) s
      let s := (short.filter fun sh => !(out.any (·.1 = sh))).foldl (fun s sh => s.queueRung (.row g sh)
        { q.record with shelf := sh, site := 0xFF, mech := 8, ctx := 0xFF, job := 0, ci := 0xFF, cj := 0xFF }) s
      .next ((s.beginRung g 64).resumeTile g)

/-! ## Rung 3 (R276, R312) -/

/-- The drawers over a row leave the tile: each to its fallback tile, or to rung 4 where none takes it. Whether every one
found a tile. -/
def State.relay (g row : Nat) (r : FaultRec) (s : State) : Bool × State :=
  let xs := (s.tile g).bound.filter fun x => (s.dr g x).covers row
  xs.foldl (fun (p : Bool × State) x =>
    let (all, s) := p
    let id := (s.dr g x).jobId
    match s.job id with
    | none => (all, s)
    | some j => match j.placed.find? fun d => d.tile = g && d.ctx = x with
      | none => (all, s)
      | some a =>
        let was := j.st
        let s := s.setJobSt id .recovering
        match s.moveTo id [] a with
        | none => (false, s.loseDrawer g x { r with job := id, ctx := x })
        | some b =>
          let s := s.moveDrawer id a b
          let s := if (s.dr b.tile b.ctx).recover then s.resumeCtx b.tile b.ctx else s
          (all, s.setJobSt id was)) (true, s)

/-- The faults that waited for a rung 3 are recorded where every drawer found a tile; else they go on with rung 4. -/
def State.closeRow (w : RungWork) (all : Bool) (s : State) : State :=
  if all then s.closeRungs w 3 else s.dropRungs (·.work = w)

/-- The row of a shelf is removed, and once its drawers are restored on their new tiles the rung is recorded; where one
found none, rung 4 goes on with the fault (R274, R276). -/
def State.removeRow (g shelf : Nat) (w : RungWork) (r : FaultRec) (s : State) : State :=
  let (all, s) := ((s.settleTile g).setFlag Obj.healthFlags 2).relay g shelf r
  let s := s.closeRow w all
  (s.beginRung g 64).resumeTile g

/-- ROW_REMOVAL (R276, R285): rung 3 for a persistent fault that rung 2 may not or could not answer, once the drawers over
the row are saved: the site is Fenced and an unused spare Pending, so that no steering changes under a drawer that
issues (R140). -/
def execRowRemoval (t : Nat) (g : Tile) (shelf : Fin 16) (site : Fin 17) (s : State) : Res :=
  let s := s.upto t
  let xs := (s.tile g).bound.filter fun x => (s.dr g x).covers shelf
  match s.tileRung g with
  | none => .next s
  | some q =>
    let rt := xs.any fun x => (s.dr g x).rt
    let r := { q.record with flags := q.record.flags ||| (if rt then 4 else 0) }
    if !xs.all (s.atRest g) || s.retired g then .next s
    else if q.work = .row g shelf then .next (s.removeRow g shelf q.work r)
    else if q.work ≠ .site g shelf site || s.siteCode g shelf site ≠ 0 || s.rung2 g shelf then .next s
    else
      let free := (s.sites g shelf).length = 17
      let spare := (s.sites g shelf).getLast?.getD 16
      let s := s.setSites g [(shelf.val, site.val)] 1
      let s := if free then s.setSites g [(shelf.val, spare)] 2 else s
      .next ((s.persist (Obj.tileFenceMap + g.val / 150)).removeRow g shelf q.work r)

/-- PENDING_SPARE_TEST (R275, R276): with no real-time drawer in the tile, a Pending spare is tested; the command stops the
tile's drawers, and tests once they are saved (log 125). -/
def execPendingSpareTest (g : Tile) (shelf : Fin 16) (site : Fin 17) (pass : Bool) (s : State) : Res :=
  if s.siteCode g shelf site ≠ 2 || s.hasRt g || s.retired g || !s.tileUp g || (s.tileRung g).isSome then .next s
  else if !s.tileAtRest g then .next ((s.tile g).bound.foldl (fun s x => s.askStop g x true) s)
  else
    let s := s.benchHeld g (if pass then [] else [(shelf.val, site.val)]) fun s =>
      s.fence g [(shelf.val, site.val)] (if pass then 0 else 1)
    .next (s.resumeTile g)

/-! ## Rung 4 (R277) -/

/-- No rung for a job waits: it goes on (R311). -/
def State.recovered (id : Nat) (s : State) : State :=
  let waits := s.health.rungs.any fun q => match q.work with
    | .replica i _ _ | .shard i => i = id
    | _ => false
  if waits then s else s.setJobSt id .running

/-- A drawer that computes the same items in a replica that has lost nothing (R277). -/
def State.survivorOf (s : State) (id : Nat) (j : JobS) (a : LDrawer) : Option LDrawer :=
  j.placed.find? fun d => d.shard = a.shard && d.item = a.item && d.replica ≠ a.replica && (s.dr d.tile d.ctx).bound &&
    !s.retired d.tile && !(s.health.rungs.any fun q => q.work = .replica id d.shard d.replica)

/-- A stopped drawer of a lost replica is built again from a survivor: the survivor's committed state and context, its
results in flight landed, on a fallback tile; the job's totals count what the new drawer has counted (R5, R277, R287).
None where there is no survivor or no place. -/
def State.rebuild (id : Nat) (a : LDrawer) (s : State) : Option State :=
  match s.job id with
  | none => none
  | some j => match s.survivorOf id j a with
    | none => none
    | some b =>
      let s := s.landCtx b.tile b.ctx
      let q := s.saveDrawer b
      let th := (s.tile b.tile).ctx b.ctx |>.th
      let words := (List.range th.winLen).map fun i => (s.tile b.tile).prog.get 0 (th.winBase + i)
      let old := s.dr a.tile a.ctx
      let t := s.releaseCtx a.tile a.ctx
      match t.moveTo id [] a with
      | none => none
      | some a' =>
        let t := t.restoreDrawer q { a' with words := words.length } words
        let t := t.moveStreams a a' id
        let t := (t.feedMoved a.tile a.ctx a'.tile a'.ctx).putJob id { j with placed := j.placed.map fun d => if d = a then a' else d }
        let k := t.jobTotals.get ⟨0, Counts.zero⟩ id
        let new := t.dr a'.tile a'.ctx
        let cnt : Counts := ⟨k.cnt.sat + new.total.sat - old.total.sat, k.cnt.flush + new.total.flush - old.total.flush,
          k.cnt.flags ||| new.total.flags⟩
        let t := { t with jobTotals := t.jobTotals.put id ⟨k.ops + new.ops - old.ops, cnt⟩ }
        some (t.modDr a'.tile a'.ctx fun d => { d with recover := true })

/-- Rebuild each of the lost drawers. -/
def State.rebuildAll (id : Nat) : List LDrawer → State → Option State
  | [], s => some s
  | a :: r, s => match s.rebuild id a with
    | none => none
    | some s => State.rebuildAll id r s

/-- REPLICA_TAKEOVER (R277, R286): the replica's drawers, all stopped, are built again from survivors; the build waits while
a survivor's own tile has a rung; with no survivor, or no tile, rung 5 follows. -/
def execReplicaTakeover (t : Nat) (jobId : BitVec 32) (shard : Byte) (replica : Fin 4) (s : State) : Res :=
  let s := s.upto t
  let id := jobId.toNat
  let w := RungWork.replica id shard.toNat replica
  match s.health.rungs.find? fun q => q.work = w, s.job id with
  | some q, some j =>
    let mine := j.placed.filter fun d => d.shard = shard.toNat && d.replica = replica.val
    let busy := mine.any fun a => ((s.survivorOf id j a).map fun b => (s.tileRung b.tile).isSome).getD false
    if busy || !mine.all (fun d => s.atRest d.tile d.ctx) then .next s
    else match s.rebuildAll id mine with
    | some s =>
      let s := (s.closeRungs w 4).recovered id
      let now := ((s.job id).map (·.placed)).getD []
      .next (now.foldl (fun s d => if (s.dr d.tile d.ctx).recover then s.resumeCtx d.tile d.ctx else s) s)
    | none => .next ((s.dropRungs (·.work = w)).startRung5 id q.record)
  | _, _ => .next s

/-! ## Re-admission (R284) -/

/-- ReadmitTile queues a tile once; a tile of a lost cabinet is refused. -/
def writeReadmit : Handler := fun v s =>
  let g := v.toNat
  if s.lost (g / 150) then .error Err.cabinetLost
  else if s.health.readmit.contains g then .ok s
  else
    let l := s.health.readmit ++ [g]
    .ok (({ s with health := { s.health with readmit := l } }).setNum Obj.readmitQueued l.length)

/-- READMIT_TILE (R284). -/
def execReadmitTile (q : Req) (val : List Byte) (s : State) : Res := .next (serveOwn q Obj.readmitTile val writeReadmit s)

/-- READMISSION (R284): two selections of an empty queued tile; sites that pass both return to service. -/
def execReadmission (g : Tile) (failing1 failing2 : List (Fin 16 × Fin 17)) (s : State) : Res :=
  if !s.health.readmit.contains g || !(s.tile g).bound.isEmpty || s.lost (g.val / 150) || s.inCReset (g.val / 150) ||
      (s.tileRung g).isSome then .next s
  else
    let bad := ((failing1 ++ failing2).map fun (a, b) => (a.val, b.val)).eraseDups
    let all := (List.range 272).map fun i => (i / 17, i % 17)
    let s := s.setState (tileKey Obj.tileState g) 1
    let s := s.setNum (tileKey Obj.benchResult g) (benchWord bad)
    let s := (s.setSites g (all.filter (!bad.contains ·)) 0).setSites g bad 1
    let s := if bad.isEmpty then s.setRetired g false else s
    let s := (s.persist (Obj.tileFenceMap + g.val / 150)).settleTile g
    let l := s.health.readmit.filter (· ≠ g.val)
    .next (({ s with health := { s.health with readmit := l } }).setNum Obj.readmitQueued l.length)

end Sys2Proof.Machine
end

