-- ==== Sys2Proof/Machine/Layout.lean ====
section
/-! DEFINITION. Job descriptors and layout records (R289, R294, R298–R302): their fields and the checks made when a
descriptor is read. -/

namespace Sys2Proof.Machine

/-! ## Descriptor (R294) -/

/-- The fields of a descriptor. -/
def JobDesc.of (b : List Byte) : JobDesc where
  id := field b 0 4
  prio := bits (field b 4 1) 0 3
  resume := (field b 4 1).testBit 3
  layout := field b 8 8
  bytes := field b 16 4
  ckpt := field b 24 8
  slot := field b 32 8
  interval := field b 40 4
  quotas := (List.range 8).map fun c => (field b (48 + 4 * c) 2, field b (50 + 4 * c) 2)

/-- A descriptor breaks a limit of R294. -/
def badDescriptor (b : List Byte) : Bool :=
  let d := JobDesc.of b
  d.id = 0 || bits (field b 4 1) 4 4 ≠ 0 || field b 5 3 ≠ 0 || field b 20 4 ≠ 0 || field b 44 4 ≠ 0 ||
    !((b.drop 80).all (· = 0)) || !localAligned d.layout 64 || d.bytes < 64 || d.bytes % 32 ≠ 0 || 0x100000 < d.bytes ||
    d.ckpt % 4096 ≠ 0 || d.slot % 4096 ≠ 0 || !(d.interval = 0 || (1000 ≤ d.interval && d.interval ≤ 8000)) ||
    d.quotas.any fun q => q.2 % 2 ≠ 0

/-! ## Layout record (R298, R299) -/

/-- A drawer entry. -/
def LDrawer.of (e : List Byte) : LDrawer where
  ctx := bits (field e 1 1) 0 4
  rt := (field e 1 1).testBit 4
  replica := bits (field e 1 1) 5 2
  tile := field e 2 2
  row := bits (field e 4 1) 0 4
  col := bits (field e 4 1) 4 4
  h := 2 * 2 ^ bits (field e 5 1) 0 2
  w := 2 * 2 ^ bits (field e 5 1) 2 2
  fallback := field e 6 1
  rtLevel := field e 7 1
  item := field e 8 3
  shard := field e 11 1
  alt := field e 12 2
  words := field e 14 2
  prog := field e 16 8
  semas := field e 24 4
  rtUnits := field e 28 2
  omOff := 16384 * bits (field e 30 2) 0 6
  omSize := 16384 * (bits (field e 30 2) 6 6 + 1)

/-- A segment entry. -/
def LSegment.of (i : Nat) (e : List Byte) : LSegment where
  idx := i
  writable := (field e 1 1).testBit 0
  large := (field e 1 1).testBit 1
  pinned := (field e 1 1).testBit 2
  va := field e 8 8
  backing := field e 16 8
  bytes := field e 24 8

/-- FALLBACK_FOR is one of its values. -/
def fallbackOk (v : Nat) : Bool := v = 0xFF || v < 8

/-- An entry's reserved fields and the ranges of its fields. -/
def entryOk (e : List Byte) : Bool :=
  match field e 0 1 with
  | 1 =>
    let d := LDrawer.of e
    !(field e 1 1).testBit 7 && d.tile < 1200 && bits (field e 5 1) 4 4 = 0 && fallbackOk d.fallback &&
      (d.alt < 1200 || d.alt = 0xFFFF) && 1 ≤ d.words && d.words ≤ 4096 && localAligned d.prog 16 && bits (field e 30 2) 12 4 = 0
  | 2 => bits (field e 1 1) 3 5 = 0 && field e 2 6 = 0
  | 3 => bits (field e 1 1) 3 5 = 0 && field e 2 2 < 512 && fallbackOk (field e 4 1) && (e.drop 5).all (· = 0)
  | 4 => field e 1 1 = 0 && field e 2 2 < 4096 && (e.drop 6).all (· = 0)
  | _ => false

/-- The layout of a record. -/
def Layout.of (b : List Byte) : Layout :=
  let n := field b 4 4
  let es := (List.range n).map fun i => (i, slice b (64 + 32 * i) 32)
  let kind (k : Nat) : List (Nat × List Byte) := es.filter fun p => field p.2 0 1 = k
  { groupSize := field b 8 2
    granules := (List.range 8).map fun c => field b (16 + 2 * c) 2
    drawers := (kind 1).map fun p => LDrawer.of p.2
    segs := (kind 2).map fun p => LSegment.of p.1 p.2
    streams := (kind 3).map fun p => (bits (field p.2 1 1) 0 3, field p.2 2 2, field p.2 4 1)
    members := (kind 4).map fun p => (field p.2 2 2, field p.2 4 2) }

/-- Header checks of reason 0x01. -/
def headerOk (b : List Byte) : Bool :=
  let n := field b 4 4
  field b 0 4 = 0x6A17C3E5 && b.length = 64 + 32 * n && 1 ≤ field b 8 2 && field b 8 2 ≤ 4096 && field b 10 6 = 0 &&
    ((slice b 32 32).all (· = 0)) &&
    (List.range n).all fun i => entryOk (slice b (64 + 32 * i) 32)

/-! ## Placements -/

/-- Drawer entries with some cabinets lost: primaries elsewhere, and the fallbacks of those cabinets (R299, R309). -/
def Layout.drawersWith (l : Layout) (lost : Nat → Bool) : List LDrawer :=
  l.drawers.filter fun d => if d.fallback = 0xFF then !lost (d.tile / 150)
    else lost d.fallback && l.drawers.any fun e => e.fallback = 0xFF && e.tile / 150 = d.fallback

/-- Stream entries with some cabinets lost: keys. -/
def Layout.streamsWith (l : Layout) (lost : Nat → Bool) : List Nat :=
  (l.streams.filter fun (c, _, f) => if f = 0xFF then !lost c
    else lost f && l.streams.any fun (c', _, f') => f' = 0xFF && c' = f).map fun (c, n, _) => streamKey c n

/-- The stream that takes the place of a primary one when its cabinet is lost: the k-th for the k-th (R299). -/
def Layout.streamFor (l : Layout) (key : Nat) (lost : Nat → Bool) : Nat :=
  let c := key / 512
  if !lost c then key
  else
    let prim := (l.streams.filter fun (c', _, f) => f = 0xFF && c' = c).map fun (_, n, _) => n
    let back := (l.streams.filter fun (_, _, f) => f = c).map fun (c', n, _) => streamKey c' n
    back.getD (prim.idxOf (key % 512)) key

/-- The placements a layout describes: the primary one, and one for each lost cabinet that it uses. -/
def Layout.placements (_ : Layout) : List (Nat → Bool) :=
  (fun _ => false) :: (List.range 8).map fun c => fun d => decide (d = c)

/-- Every pair of a list's elements meets a condition. -/
def allPairs {α : Type} (p : α → α → Bool) : List α → Bool
  | [] => true
  | a :: r => r.all (p a) && allPairs p r

/-! ## Sizes (R275, R306, R308) -/

/-- Bytes of a cabinet's part of the save area under one placement: images and operand regions, position records, and what
a full staging memory of the cabinet's collector holds (R172, R306, log 131). -/
def Layout.saveBytesIn (l : Layout) (lost : Nat → Bool) (c : Nat) : Nat :=
  let ds := (l.drawersWith lost).filter fun d => d.tile / 150 = c
  let ss := (l.streamsWith lost).filter fun k => k / 512 = c
  sumBy ds (fun d => 14336 + d.omSize) + 64 * ss.length + (if ds.isEmpty then 0 else 144 * 1024)

/-- Bytes of a cabinet's part of the save area: enough for every placement that the layout describes. -/
def Layout.saveBytes (l : Layout) (c : Nat) : Nat := (l.placements.map fun p => l.saveBytesIn p c).foldl max 0

/-- Least bytes of a checkpoint. -/
def Layout.ckptBytes (l : Layout) : Nat :=
  let ds := l.drawers.filter fun d => d.fallback = 0xFF
  let ss := l.streams.filter fun (_, _, f) => f = 0xFF
  let gs := l.segs.filter (·.writable)
  64 + 32 * (ds.length + ss.length + gs.length) + sumBy ds (fun d => 14336 + d.omSize) + 64 * ss.length + sumBy gs (·.bytes)

/-- MiB that a job's quotas and save area take in a cabinet. -/
def JobDesc.mib (d : JobDesc) (l : Layout) (c : Nat) : Nat :=
  let q := d.quotas.getD c (0, 0)
  q.1 + q.2 + ceilDiv (l.saveBytes c) 0x100000

/-! ## Checks (R301) -/

/-- n bytes lie in populated CXL memory: their ends do, and the last byte of each window that they leave (R256, R257). -/
def State.cxlSpan (s : State) (a n : Nat) : Bool :=
  let on (b : Nat) : Bool := match s.place b with | .cxl _ _ => true | _ => false
  on a && on (a + n - 1) && (List.range 4).all fun i =>
    let edge := 0x10000000000 + 0x20000000000 * (i + 1)
    !(a < edge && edge ≤ a + n - 1) || on (edge - 1)

/-- n bytes lie on one other device. -/
def State.remoteSpan (s : State) (a n : Nat) : Bool := match s.place a, s.place (a + n - 1) with
  | .remote d _, .remote e _ => d = e
  | _, _ => false

/-- Bytes that can back a segment: populated CXL memory, the host window or another device (R299). -/
def State.backingOk (s : State) (a n : Nat) : Bool :=
  s.cxlSpan a n || s.remoteSpan a n || (s.isHost a && s.isHost (a + n - 1))

/-- A checkpoint target: CXL or another device (R294). -/
def State.ckptOk (s : State) (a n : Nat) : Bool := s.cxlSpan a n || s.remoteSpan a n

/-- Real-time drawers are well formed and within the limits of an empty device (R181, R289, R302). -/
def Layout.rtOk (l : Layout) : Bool :=
  let rts := l.drawers.filter (·.rt)
  (rts.isEmpty || rts.length = l.drawers.length) &&
    l.drawers.all (fun d => if d.rt then 1 ≤ d.rtLevel && d.rtLevel ≤ 8 else d.rtLevel = 0 && d.rtUnits = 0) &&
    l.placements.all fun lost =>
      let ds := (l.drawersWith lost).filter (·.rt)
      ds.all (fun d => (ds.filter fun e => e.tile = d.tile).length ≤ 3) &&
        sumBy ds (fun d => d.h * d.w * d.rtLevel) ≤ 245760 &&
        (List.range 8).all fun c => sumBy (ds.filter fun d => d.tile / 150 = c) (·.rtUnits) ≤ 600

/-- Each drawer and stream of a used cabinet has its fallback, and none lies in the cabinet it replaces. -/
def Layout.fallbackOk (l : Layout) : Bool :=
  l.drawers.all (fun d => d.fallback = 0xFF && (l.drawers.any fun e => e.fallback = d.tile / 150 &&
      e.item = d.item && e.shard = d.shard && e.replica = d.replica) || (d.fallback ≠ 0xFF && d.tile / 150 ≠ d.fallback)) &&
    l.streams.all (fun (c, _, f) => f = 0xFF || c ≠ f) &&
    (List.range 8).all fun c =>
      (l.streams.filter fun (c', _, f) => f = 0xFF && c' = c).length ≤ (l.streams.filter fun (_, _, f) => f = c).length

/-- A segment is aligned, in the virtual space, and backed; its backing is aligned to the page, which a leaf's ADDR needs
(R260, log 132). -/
def State.segmentOk (s : State) (g : LSegment) : Bool :=
  let z := pageSize g.large
  g.va % z = 0 && g.bytes % z = 0 && 0 < g.bytes && g.va + g.bytes ≤ 2 ^ 48 && g.backing % z = 0 && s.backingOk g.backing g.bytes

/-- Reason of LAYOUT_REFUSED, in the order of the codes. -/
def State.layoutReason (s : State) (d : JobDesc) (b : List Byte) : Option Nat :=
  let l := Layout.of b
  if !headerOk b then some 0x01
  else if l.drawers.any LDrawer.badShape then some 0x02
  else if !l.drawers.all s.rowsOk then some 0x03
  else if !l.placements.all (fun p => allPairs (fun a b => !LDrawer.meets a b) (l.drawersWith p)) then some 0x04
  else if !l.rtOk then some 0x05
  else if !l.fallbackOk then some 0x06
  else if !l.segs.all s.segmentOk || !allPairs (fun (a b : LSegment) => a.va + a.bytes ≤ b.va || b.va + b.bytes ≤ a.va) l.segs then
    some 0x07
  else if !l.placements.all (fun p => allPairs (fun a b => a ≠ b) (l.streamsWith p)) then some 0x08
  else if !l.placements.all (fun p =>
      let ds := l.drawersWith p
      ds.all fun d => sumBy (ds.filter fun e => e.tile = d.tile) (·.words) ≤ 4096) then some 0x09
  else if (List.range 8).any (fun c => Config.gddrPerCabinet / 0x100000 < d.mib l c + 64 || 4080 < l.granules.getD c 0) then some 0x0A
  else if !s.ckptOk d.ckpt (2 * d.slot) || d.slot < l.ckptBytes then some 0x0B
  else if l.members.length ≠ l.groupSize || !l.members.all (fun m => m.2 < l.groupSize) ||
      !allPairs (fun (a b : Nat × Nat) => a.2 ≠ b.2) l.members || !l.members.any (fun m => m.1 = s.device) then some 0x0C
  else if l.drawers.any (fun d => 0x100000 < d.omOff + d.omSize) ||
      !l.placements.all (fun p => allPairs (fun a b => !LDrawer.omMeets a b) (l.drawersWith p)) then some 0x0D
  else none

end Sys2Proof.Machine
end

