-- ==== Sys2Proof/Machine/Jobs.lean ====
section
/-! DEFINITION. The job service (spec/10): rings, placement, pre-emption, checkpoints, restores, groups and ends; rung 5
(R278, R279) with them. -/

namespace Sys2Proof.Machine

/-! ## Rings (R290–R293) -/

/-- An object of a ring's record. -/
def ringObj (k n : Nat) : Nat := k + 256 * n

/-- A ring is served (R293). -/
def State.ringServed (s : State) (n : Nat) : Bool :=
  s.num (ringObj Obj.subSlots n) ≠ 0 && s.num (ringObj Obj.cplSlots n) ≠ 0

/-- RecordsWaiting follows the queue. -/
def State.setWaiting (n : Nat) (l : List (Nat × Bool × List Byte)) (s : State) : State :=
  ({ s with jobs := { s.jobs with waiting := s.jobs.waiting.put n l } }).setNum (ringObj Obj.recordsWaiting n) l.length

/-- A completion record (R296). -/
def State.cplRecord (s : State) (id status detail runNs : Nat) (t : JobTotals) : List Byte :=
  leBytes 4 id ++ leBytes 2 status ++ leBytes 1 t.cnt.flags ++ leBytes 1 detail ++ leBytes 4 (min t.cnt.sat 0xFFFFFFFF) ++
    leBytes 4 (min t.cnt.flush 0xFFFFFFFF) ++ leBytes 4 (min t.ops 0xFFFFFFFF) ++
    leBytes 4 (min (ceilDiv runNs 1000) 0xFFFFFFFF) ++ leBytes 8 s.now

/-- The queue of 1,024 records of a ring is full (R292). -/
def State.cplQueueFull (s : State) (n : Nat) : Bool := 1024 ≤ (s.jobs.waiting.get [] n).length

/-- A record waits for its ring. -/
def State.queueCpl (n id : Nat) (job : Nat) (status detail runNs : Nat) (t : JobTotals) (s : State) : State :=
  let l := s.jobs.waiting.get [] n
  s.setWaiting n (l ++ [(job, decide (status = Status.done), s.cplRecord id status detail runNs t)])

/-- The ring has a free slot (R292), and the host link carries a record that goes to the host (R466, R471). -/
def State.cplRoom (s : State) (n : Nat) : Bool :=
  let slots := s.num (ringObj Obj.cplSlots n)
  slots ≠ 0 && (s.num (ringObj Obj.cplTail n) + 1) % slots ≠ s.num (ringObj Obj.cplHead n) &&
    (!s.isHost (s.num (ringObj Obj.cplBase n)) || s.hostUp)

/-- COMPLETION_RECORD_WRITE (R292, R311): the oldest record is visible; the pointer, the interrupt and the event follow,
and the job it ends is gone. -/
def execCompletionRecordWrite (t : Nat) (ring : Fin 8) (s : State) : Res :=
  let s := s.upto t
  let n := ring.val
  match s.jobs.waiting.get [] n with
  | [] => .next s
  | (job, done, l) :: rest =>
    if !s.cplRoom n then .next s
    else
      let tail := s.num (ringObj Obj.cplTail n)
      let s := s.storeAt (s.num (ringObj Obj.cplBase n) + 32 * tail) l
      let s := s.setNum (ringObj Obj.cplTail n) ((tail + 1) % s.num (ringObj Obj.cplSlots n))
      let s := s.setWaiting n rest
      let s := s.bump (if done then Obj.jobsDone else Obj.jobsEnded) 1
      let s := s.signal (s.num (ringObj Obj.jobMsixVector n))
      let s := s.raise (ringObj Obj.cplTail n) 0
      if job = 0 then .next s
      else .next ((if s.num Obj.jobSelect = job then s.raiseVal Obj.jobState 0 (.num 0) else s).delJob job)

/-- SubTail: a ring that is not served takes no descriptor (R291, R293). -/
def writeSubTail (n : Nat) : Handler := fun _ s =>
  if s.num (ringObj Obj.cplSlots n) = 0 then .error Err.refusedInState else .ok s

/-- SUB_TAIL_WRITE (R291). -/
def execSubTailWrite (q : Req) (ring : Fin 8) (val : List Byte) (s : State) : Res :=
  .next (serveOwn q (ringObj Obj.subTail ring) val (writeSubTail ring) s)

/-- CPL_HEAD_WRITE (R292). -/
def execCplHeadWrite (q : Req) (ring : Fin 8) (val : List Byte) (s : State) : Res :=
  .next (serveOwn q (ringObj Obj.cplHead ring) val Handler.plain s)

/-- SubBase, SubSlots, CplBase and CplSlots: only an empty ring takes them, and its pointers return to 0 (R292). -/
def writeRingConfig (n : Nat) : Handler := fun _ s =>
  let busy := s.num (ringObj Obj.subHead n) ≠ s.num (ringObj Obj.subTail n) || !(s.jobs.waiting.get [] n).isEmpty ||
    s.jobs.jobs.any fun (_, j) => j.ring = n
  if busy then .error Err.refusedInState
  else .ok ([Obj.subTail, Obj.subHead, Obj.cplTail, Obj.cplHead].foldl (fun s k => s.setNum (ringObj k n) 0) s)

/-- JOB_RING_CONFIG_WRITE (R292). -/
def execJobRingConfigWrite (q : Req) (ring : Fin 8) (sub : BitVec 8) (val : List Byte) (s : State) : Res :=
  if sub = 1 || sub = 2 || sub = 5 || sub = 6 then
    .next (serveOwn q (ringObj Obj.subBase ring - 1 + sub.toNat) val (writeRingConfig ring) s)
  else .next s

/-! ## Reading descriptors (R291, R294, R295, R301) -/

/-- A new job. -/
def JobS.new (d : JobDesc) (l : Layout) (ring order : Nat) (h : List (Nat × Byte)) : JobS where
  desc := d
  layout := l
  ring := ring
  st := .queued
  order := order
  asn := 0
  mapped := false
  placed := []
  placedAt := 0
  streams := []
  granules := []
  saved := none
  saveLost := false
  preemptNext := false
  runNs := 0
  runFrom := none
  ckptNs := 0
  newest := none
  writing := none
  gapHold := false
  ckptAt := 0
  status := none
  reported := none
  released := false
  ckptStep := 0
  xfers := []
  nextXfer := 0
  xferBad := false
  gathered := []
  hostImg := h

/-- One descriptor is read and checked: it ends at once, or its job is Queued. -/
def State.takeDescriptor (n : Nat) (h : List (Nat × Byte)) (s : State) : State :=
  let head := s.num (ringObj Obj.subHead n)
  let b := s.hostOrMem h (s.num (ringObj Obj.subBase n) + 128 * head) 128
  let s := s.setNum (ringObj Obj.subHead n) ((head + 1) % s.num (ringObj Obj.subSlots n))
  let d := JobDesc.of b
  let refuse (status detail : Nat) (s : State) : State := s.queueCpl n d.id 0 status detail 0 ⟨0, Counts.zero⟩
  if badDescriptor b then refuse Status.badDescriptor 0 s
  else if (s.job d.id).isSome then refuse Status.duplicateId 0 s
  else
    let l := s.hostOrMem h d.layout d.bytes
    match s.layoutReason d l with
    | some r => refuse Status.layoutRefused r s
    | none =>
      let order := s.jobs.next
      -- a JOB_ID used again replaces the totals of its earlier job (R136, R295)
      let s := { s with
        jobs := { s.jobs with next := order + 1 }
        jobTotals := s.jobTotals.put d.id ⟨0, Counts.zero⟩ }
      let s := s.putJob d.id (JobS.new d (Layout.of l) n order h)
      if s.num Obj.jobSelect = d.id then s.raiseVal Obj.jobState 0 (.num 1) else s

/-- The descriptors of one ring, while jobs and records have room. -/
def State.readRing (n : Nat) (h : List (Nat × Byte)) : Nat → State → State
  | 0, s => s
  | f + 1, s =>
    let stop := s.num (ringObj Obj.subHead n) = s.num (ringObj Obj.subTail n) || 1024 ≤ s.num Obj.queuedJobs ||
      s.cplQueueFull n || (s.isHost (s.num (ringObj Obj.subBase n)) && !s.hostUp)
    if stop then s else State.readRing n h f (s.takeDescriptor n h)

/-! ## Resources of a job (R297, R303) -/

/-- Pages of a job leave their frames: written back if asked for and writable (R297), and no longer present. -/
def State.dropPages (j : JobS) (back : Bool) (s : State) : State :=
  (s.mm.frames.filter fun f => f.2.1 = j.asn).foldl (fun s (c, asn, large, n, page) =>
    let w := ((s.leafOf asn page).map fun e => pteWritable e).getD false
    let home := s.mm.backing.get 0 (leafKey asn page)
    let s := if back && w then s.copyOut (frameAddr c asn large n) home (pageSize large) else s
    let s := (s.invalidate asn page).putLeaves asn page large (mkLeaf false w false false home)
    { s with mm := { s.mm with frames := s.mm.frames.filter fun f => !(f.2.1 = asn && f.2.2.2.2 = page) } }) s

/-- Take a job's drawers and streams out of the machine. -/
def State.unplace (id : Nat) (j : JobS) (s : State) : State :=
  let s := j.placed.foldl (fun s d =>
    if (s.dr d.tile d.ctx).jobId = id && (s.dr d.tile d.ctx).bound then s.releaseCtx d.tile d.ctx else s) s
  let s := (s.streamsOf id).foldl (fun s (k, _) => (s.unpin k).dropStream k) s
  s.dropSlots id

/-- Everything that stands under a job's ASN goes with it; a job that was never placed has none. -/
def State.freeAsn (j : JobS) (back : Bool) (s : State) : State :=
  if !j.mapped then s
  else
    let s := s.dropPages j back
    { s with mm := { s.mm with
      faults := s.mm.faults.filter (·.asn ≠ j.asn)
      pins := s.mm.pins.filter fun p => (s.stream p.1).isSome
      backing := s.mm.backing.filter fun (k, _) => k / 2 ^ 48 ≠ j.asn
      cached := s.mm.cached.filter fun e => e.1 % 2 ^ 56 / 2 ^ 48 ≠ j.asn } }

/-- The streams that a waiting job left Saved are Closed with its end (R239). -/
def State.closeSaved (j : JobS) (s : State) : State :=
  ((j.saved.map (·.streams)).getD []).foldl (fun s (k, _) => if (s.stream k).isNone then s.streamEvent k 0 else s) s

/-- Free everything that a job holds (R297); faults whose rung its end takes away are recorded without one (R285). -/
def State.freeJob (id : Nat) (j : JobS) (back : Bool) (s : State) : State :=
  (((s.unplace id j).closeSaved j).freeAsn j back).supersede fun q => match q.work with
    | .replica i _ _ | .shard i => i = id
    | _ => false

/-- A job whose contexts have all Halted and whose slots are complete (R296). -/
def State.jobDone (s : State) (id : Nat) (j : JobS) : Bool :=
  j.st = .running && j.placed.all (fun d => (s.th d.tile d.ctx).st = .halted) && (s.slotsOf id).isEmpty

/-- JOB_END (R292, R297, R311): a job that is done, or whose end is due, is released and its record formed; while its ring's
queue is full the job stays Ending. -/
def execJobEnd (t : Nat) (jobId : BitVec 32) (s : State) : Res :=
  let s := s.upto t
  let id := jobId.toNat
  let s := match s.job id with
    | some j => if s.jobDone id j then s.endJob id Status.done 0 else s
    | none => s
  match s.job id with
  | none => .next s
  | some j => match j.status with
    | none => .next s
    | some (status, detail) =>
      if j.st ≠ .ending || s.cplQueueFull j.ring then .next s
      else
        let s := s.freeJob id j (status = Status.done)
        let s := s.putJob id { j.dropXfers with
          status := none, placed := [], streams := [], granules := [], saved := none, mapped := false }
        .next (s.queueCpl j.ring id id status detail j.runNs (s.jobTotals.get ⟨0, Counts.zero⟩ id))

/-! ## Placement (R303–R306) -/

/-- A cabinet cannot hold drawers. -/
def State.cabDown (s : State) (c : Nat) : Bool := s.lost c || s.inCReset c

/-- Entries of the placement with the lost cabinets' fallbacks. -/
def State.placementOf (s : State) (j : JobS) : List LDrawer := j.layout.drawersWith s.lost

/-- The first cabinet of a placement that is itself lost. -/
def State.lostIn (s : State) (ds : List LDrawer) : Option Nat := (ds.find? fun d => s.lost (d.tile / 150)).map fun d => d.tile / 150

/-- A cabinet of a placement is in C reset or its exit: it is placed again once Ready (R492). -/
def State.resetIn (s : State) (ds : List LDrawer) : Bool := ds.any fun d => s.inCReset (d.tile / 150)

/-- MiB in use in a cabinet. -/
def State.mibUsed (s : State) (c : Nat) : Nat :=
  64 + sumBy (s.jobs.jobs.filter fun (_, j) => j.isPlaced || j.saved.isSome) fun (_, j) => j.desc.mib j.layout c

/-- Granules in use in a cabinet: first and count. -/
def State.granulesUsed (s : State) (c : Nat) : List (Nat × Nat) :=
  s.jobs.jobs.flatMap fun (_, j) => (j.granules.filter (·.1 = c)).map fun (_, f, n) => (f, n)

/-- The lowest run of n free granules of a cabinet's job area, granules 16 to 4,095 (R226). -/
def State.granuleGap (s : State) (c n : Nat) : Option Nat :=
  let used := s.granulesUsed c
  let starts := 16 :: used.map fun u => u.1 + u.2
  let ok := starts.filter fun f => f + n ≤ 4096 && used.all fun u => f + n ≤ u.1 || u.1 + u.2 ≤ f
  ok.foldl (fun m f => match m with | none => some f | some g => some (min f g)) none

/-- Granules for a layout in every cabinet: none where a cabinet has too few. -/
def State.granulesFor (s : State) (l : Layout) : Option (List (Nat × Nat × Nat)) :=
  (List.range 8).foldl (fun r c =>
    let n := l.granules.getD c 0
    if n = 0 then r
    else match r, s.granuleGap c n with
      | some l, some f => some (l ++ [(c, f, n)])
      | _, _ => none) (some [])

/-- Reservations stay within the limits of R302. -/
def State.rtFits (s : State) (ds : List LDrawer) : Bool :=
  let rts := ds.filter (·.rt)
  let placed := s.jobs.jobs.flatMap fun (_, j) => if j.isPlaced then j.placed.filter (·.rt) else []
  rts.isEmpty ||
    (s.num Obj.rtCoreEighthsUsed + sumBy rts (fun d => d.h * d.w * d.rtLevel) ≤ 245760 &&
      (List.range 8).all fun c => sumBy ((placed ++ rts).filter fun d => d.tile / 150 = c) (·.rtUnits) ≤ 600)

/-- Stream numbers that placed jobs have. -/
def State.streamsTaken (s : State) (keys : List Nat) : Bool :=
  keys.any fun k => s.jobs.jobs.any fun (_, j) => j.isPlaced && j.streams.contains k

/-- The entries that a queued job waits for: the positions that it held, or its placement (R304, R305). -/
def State.wanted (s : State) (j : JobS) : List LDrawer := if j.saved.isSome && !j.saveLost then j.placed else s.placementOf j

/-- MiB and granules that a queued job still has to be given in a cabinet; a pre-empted one kept its own. -/
def JobS.mibTo (j : JobS) (c : Nat) : Nat := if j.saved.isSome then 0 else j.desc.mib j.layout c
def JobS.granulesTo (j : JobS) (c : Nat) : Nat := if j.saved.isSome then 0 else j.layout.granules.getD c 0

/-- Two queued jobs need something that both cannot have (R303). -/
def State.contend (s : State) (a b : JobS) : Bool :=
  let da := s.wanted a; let db := s.wanted b
  let both (x y used limit : Nat) : Bool := 0 < x && 0 < y && limit < used + x + y
  da.any (fun x => db.any fun y => x.meets y || x.omMeets y) ||
    (a.layout.streamsWith s.lost).any (fun k => (b.layout.streamsWith s.lost).contains k) ||
    (List.range 8).any fun c =>
      both (a.mibTo c) (b.mibTo c) (s.mibUsed c) (Config.gddrPerCabinet / 0x100000) ||
        both (a.granulesTo c) (b.granulesTo c) (sumBy (s.granulesUsed c) (·.2)) 4080

/-- Jobs that come before a queued job (R303). -/
def JobS.before (a b : JobS) : Bool := b.desc.prio < a.desc.prio || (a.desc.prio = b.desc.prio && a.order < b.order)

/-- A queued job is held back by an earlier one that it contends with. -/
def State.heldBack (s : State) (id : Nat) (j : JobS) : Bool :=
  s.jobs.jobs.any fun (i, k) => i ≠ id && k.st = JobSt.queued && k.before j && s.contend k j

/-- The job to pre-empt for another: of the placed jobs that hold its positions, all of them model jobs of lower
priority, the lowest priority, then the most recently placed (R304). -/
def State.victimFor (s : State) (j : JobS) (ds : List LDrawer) : Option (Nat × JobS) :=
  let holders := s.jobs.jobs.filter fun (_, k) => k.isPlaced && ds.any fun d => k.placed.any fun e => d.meets e || d.omMeets e
  if holders.any fun (_, k) => k.checker || j.desc.prio ≤ k.desc.prio then none
  else holders.foldl (fun b (i, k) => match b with
    | none => some (i, k)
    | some (i', k') =>
      if k.desc.prio < k'.desc.prio || (k.desc.prio = k'.desc.prio && k'.placedAt < k.placedAt) then some (i, k) else some (i', k')) none

/-- Pre-emption of a job begins, or follows its checkpoint (R306, R312). -/
def State.preempt (id : Nat) (j : JobS) (s : State) : State :=
  if j.st = .running then (s.setJobSt id .preempting).askJob id j false
  else if j.st = .checkpointing then s.putJob id { j with preemptNext := true }
  else s

/-- A model job whose positions are held has the next job in its way pre-empted, if it may (R304). -/
def State.makeRoom (j : JobS) (ds : List LDrawer) (s : State) : State :=
  match (if j.checker then none else s.victimFor j ds) with
  | some (i, k) => s.preempt i k
  | none => s

/-- Map a segment's pages: leaves not present with their backing, remote pages present (R260, R299, R303). -/
def State.mapSegment (j : JobS) (g : LSegment) (s : State) : State :=
  let z := pageSize g.large
  (List.range (g.bytes / z)).foldl (fun s i =>
    let va := g.va + z * i
    let b := g.backing + z * i
    let remote := match s.place b with | .remote _ _ => true | _ => false
    let s := j.cabs.foldl (fun s c => s.putLeaf c j.asn va g.large (mkLeaf remote g.writable false false b)) s
    let s := { s with mm := { s.mm with backing := if remote then s.mm.backing else s.mm.backing.put (leafKey j.asn va) b } }
    if g.pinned && !remote then
      match j.cabs with
      | c :: _ => s.raiseFault c j.asn va true
      | [] => s
    else s) s

/-- Assign a job's drawers, stopped until its checkpoint 0 or its restore (R303, R308). -/
def State.bindJob (id : Nat) (j : JobS) (s : State) : State :=
  j.placed.foldl (fun s d => s.assignStopped id d (s.imageWords j d)) s

/-- Every page of a job's PINNED segments is resident and pinned (R303). -/
def State.pinsIn (s : State) (j : JobS) : Bool :=
  j.cabs.isEmpty || (j.layout.segs.filter fun g => g.pinned && !pteRemote g.backing).all fun g =>
    (List.range (g.bytes / pageSize g.large)).all fun i =>
      ((s.leafOf j.asn (g.va + pageSize g.large * i)).map fun e => ptePresent e && ptePinned e).getD false

/-- The cabinets of a restore's saved parts and entries: a saved drawer for each entry of the same work and replica. -/
def Saved.drawerFor (v : Saved) (d : LDrawer) : Option SavedDrawer :=
  v.drawers.find? fun q => q.entry.item = d.item && q.entry.shard = d.shard && q.entry.replica = d.replica

/-- Where a saved context stands now: that of the same work and replica. -/
def State.standsAt (j : JobS) (v : Saved) (g x : Nat) : Nat × Nat :=
  match v.drawers.find? fun q => q.entry.tile = g && q.entry.ctx = x with
  | none => (g, x)
  | some q => match j.placed.find? fun d => d.item = q.entry.item && d.shard = q.entry.shard && d.replica = q.entry.replica with
    | none => (g, x)
    | some d => (d.tile, d.ctx)

/-- Where a saved receiver's tile stands now. -/
def State.tileNow (j : JobS) (v : Saved) (g : Nat) : Nat :=
  match v.drawers.find? fun q => q.entry.tile = g with
  | none => g
  | some q => (State.standsAt j v g q.entry.ctx).1

/-- A multicast whose window is no longer there fetches again what some receiver still lacks, into a window of its cabinet
(R229, R232, R309). -/
def State.newWindow (j : JobS) (id k : Nat) (m : StreamS) (s : State) : StreamS :=
  let low := (m.recv.map (·.delivered)).foldl min m.issued
  { m with
    window := (s.findWindow j id (k / 512) (2 ^ m.desc.winLog2)).getD 0
    issued := low
    looked := low
    fetched := low }

/-- A saved stream stands in the table again, with nothing outstanding; from a checkpoint its state is reported anew. -/
def State.restoreStream (id : Nat) (j : JobS) (v : Saved) (anew : Bool) (k : Nat) (m : StreamS) (s : State) : State :=
  let (g, x) := State.standsAt j v m.tile m.ctx
  let k := if j.streams.contains k then k else j.layout.streamFor k (· = k / 512)
  let recv := m.recv.map fun r => { r with tile := State.tileNow j v r.tile }
  let m := { m with tile := g, ctx := x, recv := recv, outst := [], halting := none }
  let m := if anew && m.desc.mcast && m.st ≠ .error then s.newWindow j id k m else m
  let s := s.putStream k m
  if anew then s.streamEvent k m.st.code else s

/-- Load what was saved onto a job's drawers, streams, slots and totals (R309). -/
def State.loadSaved (id : Nat) (j : JobS) (v : Saved) (anew : Bool) (s : State) : State :=
  let s := j.placed.foldl (fun s d => match v.drawerFor d with
    | none => s
    | some q => (s.restoreDrawer q d (s.imageWords j d)).modDr d.tile d.ctx fun r => { r with recover := false }) s
  let s := v.streams.foldl (fun s (k, m) => s.restoreStream id j v anew k m) s
  let s := s.putSlots v.slots
  { s with jobTotals := s.jobTotals.put id v.totals }

/-- One writable segment goes back to its backing addresses: in device memory, to the host, or to another device
(R309). -/
def State.loadSegment (id : Nat) (g : LSegment) (cells : List (Nat × Byte)) (s : State) : State :=
  match s.place g.backing with
  | .host _ => (List.range (g.bytes / 256)).foldl (fun s i =>
      s.emit (.hostWrite (s.hostAddr g.backing + 256 * i) (slotBytes [⟨0, g.bytes, cells⟩] (256 * i) 256))) s
  | .remote dev addr => match s.job id with
    | none => s
    | some j => s.putJob id (j.queueXfers dev addr g.bytes none fun o => slotBytes [⟨0, g.bytes, cells⟩] o 256)
  | _ => s.setCells (g.backing % 2 ^ 48) g.bytes cells

/-- Copy a checkpoint's writable segments to their backing addresses; the pages are not present, and those of PINNED
segments are migrated in again (R303, R309). -/
def State.loadSegments (id : Nat) (j : JobS) (ck : Ckpt) (s : State) : State :=
  let s := s.dropPages j false
  let s := ck.segs.foldl (fun s (i, cells) => match j.layout.segs.find? fun g => g.idx = i with
    | none => s
    | some g => s.loadSegment id g cells) s
  match j.cabs with
  | [] => s
  | c :: _ => (j.layout.segs.filter fun g => g.pinned && !pteRemote g.backing).foldl (fun s g =>
      (List.range (g.bytes / pageSize g.large)).foldl (fun s i => s.raiseFault c j.asn (g.va + pageSize g.large * i) true) s) s

/-- A restore ends once every write to a remote backing has been acknowledged and pinned pages are in: rung 5, if that is
what restored the job, is recorded, and the job runs (R279, R309). -/
def State.finishRestore (id : Nat) (s : State) : State :=
  let s := s.moveXfers id
  match s.job id with
  | none => s
  | some j =>
    if j.ckptStep ≠ 4 then s
    else if j.xferBad then (s.putJob id j.dropXfers).endJob id Status.farTier 7
    else if !j.xfers.isEmpty || !s.pinsIn j then s
    else
      let w := RungWork.shard id
      let s := if s.health.rungs.any (·.work = w) then (s.setFlag Obj.healthFlags 0x10).closeRungs w 5 else s
      let s := (s.putJob id j.dropXfers).setJobSt id .running
      (s.resumeJob id j).feedsTry false

/-- Restore a placed job from a checkpoint and let it run (R309). -/
def State.restoreCkpt (id : Nat) (ck : Ckpt) (s : State) : State :=
  match s.job id with
  | none => s
  | some j =>
    let s := s.putJob id { j.dropXfers with
      runNs := ck.runNs, ckptNs := ck.runNs, newest := some ck.n, writing := none, saved := none, saveLost := false,
      released := false, reported := none, ckptStep := 4 }
    ((s.loadSegments id j ck).loadSaved id j ck.saved true).finishRestore id

/-! ## Groups (R308, R309, R451) -/

/-- Note a phase of a rank at rank 0; once every rank has reported it, the epoch that RELEASE carries: the least
reported, which for RESTORE_POINT is the highest checkpoint valid on every member (R309). -/
def State.notePhase (id : Nat) (j : JobS) (rank phase epoch : Nat) (s : State) : Option Nat × State :=
  let key := id * 4096 + rank
  let l := (s.jobs.phases.filter fun p => !(p.1 = key && p.2.1 = phase)) ++ [(key, phase, epoch)]
  let mine := l.filter fun p => p.1 / 4096 = id && p.2.1 = phase
  if (List.range j.layout.groupSize).all fun r => mine.any fun p => p.1 % 4096 = r then
    (some (mine.foldl (fun n p => min n p.2.2) epoch),
      { s with jobs := { s.jobs with phases := l.filter fun p => !(p.1 / 4096 = id && p.2.1 = phase) } })
  else (none, { s with jobs := { s.jobs with phases := l } })

/-- What a RELEASE lets a member do. -/
def State.takeRelease (id epoch : Nat) (s : State) : State :=
  match s.job id with
  | none => s
  | some j => match j.reported with
    | some 1 => s.putJob id { j with reported := none, released := true }
    | some 2 =>
      let s := s.putJob id { j with reported := none, released := false, writing := none, newest := j.writing, ckptNs := j.runTime s.now,
                                    gapHold := false }
      let s := (s.bump Obj.checkpointsCommitted 1).high Obj.checkpointTimeMax (s.since j.ckptAt)
      if j.preemptNext then (s.putJob id { (s.job id).getD j with preemptNext := false }).setJobSt id .preempting
      else ((s.setJobSt id .running).resumeJob id j).feedsTry false
    | some 3 => match [s.validCkpt id (j.desc.slotAt 0), s.validCkpt id (j.desc.slotAt 1)].find? fun c => (c.map (·.n)) = some epoch with
      | some (some ck) => s.restoreCkpt id ck
      | _ => s.endJob id Status.checkpointFailed 7
    | _ => s

/-- RELEASE goes to every other member and is taken here. -/
def State.releaseGroup (_ : State) (id : Nat) (j : JobS) (r : Option Nat × State) : State :=
  match r with
  | (none, s) => s
  | (some n, s) => ((s.others j).foldl (fun s d => s.sendGroup d 5 id n 0) s).takeRelease id n

/-- A member reports a phase: rank 0 to itself. -/
def State.reportPhase (id phase epoch : Nat) (s : State) : State :=
  match s.job id with
  | none => s
  | some j =>
    let s := s.putJob id { j with reported := some phase }
    let rank := s.rankOf j
    if rank ≠ 0 then s.sendGroup j.leader phase id epoch rank
    else
      s.releaseGroup id j (s.notePhase id j 0 phase epoch)

/-- A member of a group that has stopped for a checkpoint says so, once (R308); a restore under way goes on. -/
def State.groupProgress (id : Nat) (s : State) : State :=
  match s.job id with
  | none => s
  | some j =>
    if 1 < j.layout.groupSize && j.writing.isSome && !j.released && j.reported.isNone && s.jobStopped id j then
      s.reportPhase id 1 (j.writing.getD 0)
    else if j.ckptStep = 4 then s.finishRestore id
    else s

/-- POLL_INTERVAL (R291): the served rings are read in order; groups that have stopped report it. -/
def execPollInterval (t : Nat) (hostBytes : List (Nat × Byte)) (s : State) : Res :=
  let s := s.upto t
  let s := (List.range 8).foldl (fun s n => if s.ringServed n then s.readRing n hostBytes 4096 else s) s
  .next (s.jobs.jobs.foldl (fun s (id, _) => s.groupProgress id) s)

/-- COLLECTIVE_MESSAGE (R312, R451): a phase reaches rank 0, a release a member, an end everyone. -/
def execCollectiveMessage (t : Nat) (source : BitVec 12) (body : List Byte) (s : State) : Res :=
  let s := s.upto t
  let phase := field body 0 1
  let id := field body 4 4
  let epoch := field body 8 8
  let rank := field body 16 2
  match s.job id with
  | none => .next s
  | some j =>
    if !j.layout.members.any (fun m => m.1 = source.toNat && m.2 = rank) then .next s
    else if phase = 4 then .next (s.endJob id Status.groupEnded 0)
    else if phase = 5 then .next (if rank = 0 then s.takeRelease id epoch else s)
    else if s.rankOf j ≠ 0 || phase = 0 || 5 < phase then .next s
    else
      .next (s.releaseGroup id j (s.notePhase id j rank phase epoch))

/-! ## Commands of placement, pre-emption and restore -/

/-- Start a fresh placement: resources, mapping, drawers; then checkpoint 0, or the restore of RESUME (R303). -/
def State.placeJob (id asn : Nat) (j : JobS) (ds : List LDrawer) (gr : List (Nat × Nat × Nat)) (h : List (Nat × Byte))
    (s : State) : State :=
  let j := { j with
    asn := asn, mapped := true, placed := ds, placedAt := s.now, streams := j.layout.streamsWith s.lost, granules := gr,
    hostImg := j.hostImg ++ h, writing := if j.desc.resume then none else some 0, ckptAt := s.now }
  let s := (s.putJob id j).setJobSt id .placing
  let j := { j with st := .placing }
  let s := j.layout.segs.foldl (fun s g => s.mapSegment j g) s
  let s := s.bindJob id j
  if !j.desc.resume then s.groupProgress id
  else match s.newestCkpt id j.desc with
    | none => s.endJob id Status.noCheckpoint 0
    | some ck => if j.layout.groupSize ≤ 1 then s.restoreCkpt id ck else s.reportPhase id 3 ck.n

/-- JOB_PLACEMENT (R303–R305, R309, R312). -/
def execJobPlacement (t : Nat) (jobId : BitVec 32) (asn : Byte) (hostBytes : List (Nat × Byte)) (s : State) : Res :=
  let s := s.upto t
  let id := jobId.toNat
  match s.job id with
  | none => .next s
  | some j =>
    let asnUsed := s.jobs.jobs.any fun (_, k) => k.mapped && k.asn = asn.toNat
    if j.st ≠ .queued || j.saved.isSome || 256 ≤ s.num Obj.placedJobs || asnUsed || s.heldBack id j then .next s
    else
      let ds := s.placementOf j
      if s.resetIn ds then .next s
      else match s.lostIn ds with
      | some c => .next (s.endJob id Status.noPlacement c)
      | none => match s.placesFor id (fun d => s.rowsOk d && s.tileUp d.tile) ds with
        | .error c => .next (s.endJob id Status.noPlacement c)
        | .ok ds =>
          let room := (List.range 8).all fun c => s.mibUsed c + j.desc.mib j.layout c ≤ Config.gddrPerCabinet / 0x100000
          match s.granulesFor j.layout with
          | none => .next s
          | some gr =>
            if !room || !s.rtFits ds then .next s
            else if !s.fitsAll id [] ds then .next (s.makeRoom j ds)
            else if s.streamsTaken (j.layout.streamsWith s.lost) then .next s
            else .next (s.placeJob id asn.toNat j ds gr hostBytes)

/-- JOB_PREEMPT_SAVE_DONE (R306): the stopped job is saved, its positions are free and it is Queued again. -/
def execJobPreemptSaveDone (t : Nat) (jobId : BitVec 32) (s : State) : Res :=
  let s := s.upto t
  let id := jobId.toNat
  match s.job id with
  | none => .next s
  | some j =>
    if j.st ≠ .preempting || !s.jobStopped id j then .next s
    else
      let v := s.saveJob id j
      let s := j.placed.foldl (fun s d => s.releaseCtx d.tile d.ctx) s
      -- its streams stay as they are in the hands of the job service (R239)
      let s := v.streams.foldl (fun s (_, m) => s.discardIn m) s
      let s := { s with streams := s.streams.filter fun e => !(v.streams.any (·.1 = e.1)) }
      let s := s.dropSlots id
      let s := s.putJob id { j with saved := some v, saveLost := false }
      .next ((s.setJobSt id .queued).bump Obj.jobPreemptions 1)

/-- A position that a pre-empted job held can be used again: its rows and its tile are there, and no checker job holds it
(R305). -/
def State.usable (s : State) (d : LDrawer) : Bool :=
  s.rowsOk d && s.tileUp d.tile &&
    !(s.jobs.jobs.any fun (_, k) => k.isPlaced && k.checker && k.placed.any fun e => d.meets e || d.omMeets e)

/-- A pre-empted job is placed again at these entries: from its save area, or from a checkpoint where that is lost, which
a group chooses together (R305, R306, R309, R312). -/
def State.placeAgain (id : Nat) (j : JobS) (v : Saved) (ds : List LDrawer) (s : State) : State :=
  let j' := { j with placed := ds, saved := none, placedAt := s.now, streams := j.layout.streamsWith s.lost }
  let s := (s.putJob id j').setJobSt id .placing
  if j.saveLost then
    match s.newestCkpt id j.desc with
    | none => s.endJob id Status.checkpointFailed 7
    | some ck =>
      -- the tables of the job's pages, in every cabinet that it now uses
      let s := j'.layout.segs.foldl (fun s g => s.mapSegment j' g) (s.bindJob id j')
      if j.layout.groupSize ≤ 1 then s.restoreCkpt id ck else s.reportPhase id 3 ck.n
  else
    -- saved drawers go with the entries they had, in order
    let v := { v with drawers := (v.drawers.zip ds).map fun (q, d) =>
      { q with entry := { q.entry with item := d.item, shard := d.shard, replica := d.replica } } }
    let s := (s.loadSaved id j' v false).setJobSt id .running
    (s.resumeJob id j').feedsTry false

/-- JOB_RESTORE (R305, R306, R312): a pre-empted job is placed again; after the loss of a cabinet that held its save area
it restores from its newest committed checkpoint. -/
def execJobRestore (t : Nat) (jobId : BitVec 32) (s : State) : Res :=
  let s := s.upto t
  let id := jobId.toNat
  match s.job id with
  | none => .next s
  | some j => match j.saved with
    | none => .next s
    | some v =>
      if j.st ≠ .queued || 256 ≤ s.num Obj.placedJobs || s.heldBack id j then .next s
      else
        let ds := s.wanted j
        if s.resetIn ds then .next s
        else match s.lostIn ds with
        | some c => .next (s.endJob id Status.noPlacement c)
        | none => match s.placesFor id s.usable ds with
          | .error c => .next (s.endJob id Status.noPlacement c)
          | .ok ds =>
            if !s.fitsAll id [] ds then .next (s.makeRoom j ds)
            else if s.streamsTaken (j.layout.streamsWith s.lost) then .next s
            else .next (s.placeAgain id j v ds)

/-! ## Checkpoints (R308, R312) -/

/-- ms between a job's checkpoints. -/
def State.ckptInterval (s : State) (j : JobS) : Nat := if j.desc.interval = 0 then s.num Obj.checkpointInterval else j.desc.interval

/-- A checkpoint begins: every drawer stops and every stream halts. -/
def State.startCkpt (id : Nat) (j : JobS) (hold : Bool) (s : State) : State :=
  let j := { j with writing := some (match j.newest with | some n => n + 1 | none => 0), ckptAt := s.now, gapHold := hold,
                    released := false, reported := none }
  ((s.putJob id j).setJobSt id .checkpointing).askJob id j false

/-- Move to the instant at which a running job's time since its checkpoint reaches a bound in ms. -/
def State.uptoRun (j : JobS) (ms : Nat) (s : State) : State :=
  match j.runFrom with
  | some t => s.upto (t + (j.ckptNs + 1000000 * ms - j.runNs))
  | none => s

/-- CHECKPOINT_DUE (R308): at the instant when the run time since the newest checkpoint reaches the interval. -/
def execCheckpointDue (jobId : BitVec 32) (s : State) : Res :=
  let id := jobId.toNat
  match s.job id with
  | none => .next s
  | some j =>
    if j.st ≠ .running || j.checker then .next s
    else
      let s := s.uptoRun j (s.ckptInterval j)
      .next (s.startCkpt id j false)

/-- CHECKPOINT_GAP_HOLD (R308): at 8,000 ms the job is held in Checkpointing until a checkpoint commits. -/
def execCheckpointGapHold (jobId : BitVec 32) (s : State) : Res :=
  let id := jobId.toNat
  match s.job id with
  | none => .next s
  | some j =>
    if j.checker then .next s
    else if j.st = .running then .next ((s.uptoRun j 8000).startCkpt id j true)
    else if j.st = .checkpointing then .next (s.putJob id { j with gapHold := true })
    else .next s

/-- A checkpoint that cannot be written ends its job (R296, R308). -/
def State.ckptFails (id n : Nat) (j : JobS) (s : State) : State :=
  let s := (s.unCommit id (j.desc.slotAt n)).endJob id Status.checkpointFailed 7
  match s.job id with
  | some j => s.putJob id j.dropXfers
  | none => s

/-- CHECKPOINT_COMMIT (R308, R311, R312): everything stopped, the slot is written step by step, as far as its remote
accesses have completed; once COMMIT is visible the job runs again, or is saved for the pre-emption that waits. -/
def execCheckpointCommit (t : Nat) (jobId : BitVec 32) (status : MemStatus) (s : State) : Res :=
  let s := s.upto t
  let id := jobId.toNat
  match s.job id with
  | none => .next s
  | some j =>
    let group := 1 < j.layout.groupSize
    match j.writing with
    | none => .next s
    | some n =>
      if !(j.st = JobSt.checkpointing || (j.st = JobSt.placing && s.pinsIn j)) || !s.jobStopped id j || j.reported = some 2 then .next s
      else if group && !j.released then .next (s.groupProgress id)
      else match s.access (j.desc.slotAt n) status with
        | .ok =>
          let s := s.writeCkpt id n 4
          match s.job id with
          | none => .next s
          | some j =>
            if j.xferBad then .next (s.ckptFails id n j)
            else if j.ckptStep ≠ 3 || !j.xfers.isEmpty then .next s
            else
              let s := s.commitSlot id (j.desc.slotAt n)
              if group then .next (s.reportPhase id 2 n)
              else .next ((s.putJob id { (s.job id).getD j with reported := some 2 }).takeRelease id n)
        | _ => .next (s.ckptFails id n j)

/-- CancelJob: a checkpoint being written stays uncommitted (R312). -/
def writeCancelJob : Handler := fun v s =>
  let id := v.toNat
  match s.job id with
  | none => .ok s
  | some j =>
    if j.st = .ending then .ok s
    else
      let s := match j.writing with
        | some n => if j.st = JobSt.checkpointing then s.unCommit id (j.desc.slotAt n) else s
        | none => s
      .ok (s.endJob id Status.cancelled 0)

/-- CANCEL_JOB (R312). -/
def execCancelJob (q : Req) (val : List Byte) (s : State) : Res := .next (serveOwn q Obj.cancelJob val writeCancelJob s)

/-! ## Rung 5 (R279, R309, R310) -/

/-- The feeds of a checker job follow its drawers from their old entries to the new ones of the same work, in their own
cabinet (R310, R411). -/
def State.feedsRecovered (old new : List LDrawer) (j : JobS) (s : State) : State :=
  (s.feedsOfJob j).foldl (fun s q => match (s.feed q).place with
    | none => s
    | some (g, x) => match old.find? fun d => d.tile = g && d.ctx = x with
      | none => s
      | some a => match new.find? fun d => d.item = a.item && d.shard = a.shard && d.replica = a.replica with
        | none => s
        | some b => if b.tile / 150 = q / 16 then s.feedMoved g x b.tile b.ctx else s) s

/-- A job's drawers, streams and slots are out of the machine, and it holds no position (R279). -/
def State.vacate (id : Nat) (j : JobS) (s : State) : State := (s.unplace id j).putJob id { j with placed := [] }

/-- Nothing of a job issues any more: every drawer that its cabinet still holds is at rest, and its streams have halted. -/
def State.haltedAll (s : State) (id : Nat) (j : JobS) : Bool :=
  j.placed.all (fun d => !(s.dr d.tile d.ctx).bound || (s.dr d.tile d.ctx).jobId ≠ id || s.atRest d.tile d.ctx) &&
    (s.streamsOf id).all fun (_, m) => m.st ≠ .running && m.st ≠ .closing

/-- The entries that rung 5 takes can be used: none lies under another job's drawer or beyond the reservations (R302, R305,
log 133). -/
def State.canRestore (s : State) (id : Nat) (ds : List LDrawer) : Bool := s.fitsAll id [] ds && s.rtFits ds

/-- Rung 5 places a job again and restores it, or ends it (R279, R309, R312). -/
def State.restoreShard (id : Nat) (j : JobS) (ds : List LDrawer) (ck : Ckpt) (s : State) : State :=
  let down := s.cabDown
  let j' := { j.dropXfers with
    placed := ds, streams := j.layout.streamsWith down, granules := j.granules.filter (fun g => !down g.1), writing := none }
  let s := (s.putJob id j').bindJob id j'
  -- the tables of the job's pages, in every cabinet that it now uses
  let s := j'.layout.segs.foldl (fun s g => s.mapSegment j' g) s
  let s := s.feedsRecovered j.placed ds j
  if j.layout.groupSize ≤ 1 then s.restoreCkpt id ck else s.reportPhase id 3 ck.n

/-- SHARD_RESTORE (R279): once it has stopped, every drawer of the job returns to its newest committed checkpoint, fallback
entries taking the places of lost cabinets' entries; a cabinet in C reset counts as a lost one (R492). A member of a group
restores with the others though nothing of its own was lost. -/
def execShardRestore (t : Nat) (jobId : BitVec 32) (readable : Bool) (s : State) : Res :=
  let s := s.upto t
  let id := jobId.toNat
  let w := RungWork.shard id
  let rung := s.health.rungs.any fun q => q.work = w
  match s.job id with
  | none => .next s
  | some j =>
    let joins := !rung && 1 < j.layout.groupSize && j.isPlaced
    if !(joins || (rung && j.st = JobSt.recovering)) || j.ckptStep = 4 || j.reported = some 3 then .next s
    else if joins && j.st ≠ JobSt.recovering then .next ((s.setJobSt id .recovering).askJob id j true)
    else
      let ds := j.layout.drawersWith s.cabDown
      if s.resetIn ds || !s.haltedAll id j then .next s
      else
        let fail (status detail : Nat) (u : State) : Res := .next (u.endJob id status detail)
        let u := s.vacate id j
        match s.lostIn ds, u.placesFor id u.usable ds, (if readable then s.newestCkpt id j.desc else none) with
        | some c, _, _ => fail Status.noPlacement c u
        | none, .error c, _ => fail Status.noPlacement c u
        | none, .ok _, none => fail Status.checkpointFailed 7 u
        | none, .ok ds, some ck => if u.canRestore id ds then .next (u.restoreShard id j ds ck) else .next s

end Sys2Proof.Machine
end

