-- ==== Sys2Proof/Machine/LineCode.lean ====
section
/-! DEFINITION. The line coding of the lanes (R431–R434): Gray mapping, precoding, scrambling, the lean and bulk codes'
parity, alignment markers, and with them what a peer port's block puts on its eight lanes. The rows of the receiving side
carry decoded blocks and the outcome of decoding (log 141); its half here is the inverse of each mapping. -/

namespace Sys2Proof.Machine

/-! ## PAM4 (R431) -/

/-- Index of a pair of bits, the earlier one first. -/
def grayIndex : Bool → Bool → BitVec 2
  | false, false => 0
  | false, true => 1
  | true, true => 2
  | true, false => 3

/-- The pair of bits of an index. -/
def grayBits (g : BitVec 2) : Bool × Bool := (g.getLsbD 1, g.getLsbD 0 != g.getLsbD 1)

/-- Level of an index: −3, −1, +1 or +3. -/
def pamLevel (g : BitVec 2) : Int := 2 * g.toNat - 3

/-- What a transmitter with PortPrecode sends after an index. -/
def precode (last : BitVec 2) : List (BitVec 2) → List (BitVec 2)
  | [] => []
  | g :: r => (g - last) :: precode (g - last) r

/-- What the receiver recovers. -/
def unprecode (last : BitVec 2) : List (BitVec 2) → List (BitVec 2)
  | [] => []
  | y :: r => (y + last) :: unprecode y r

/-! ## Scrambling (R432) -/

/-- One bit of the scrambler x^58 + x^39 + 1: bit i of the state is the bit sent i + 1 bits ago (log 106). -/
def scrambleBit (st : BitVec 58) (b : Bool) : Bool := (b != st.getLsbD 38) != st.getLsbD 57

/-- A sent bit enters the state of either end. -/
def shiftIn (st : BitVec 58) (b : Bool) : BitVec 58 := st <<< 1 ||| BitVec.ofNat 58 b.toNat

def scramble (st : BitVec 58) : List Bool → List Bool
  | [] => []
  | b :: r => scrambleBit st b :: scramble (shiftIn st (scrambleBit st b)) r

def descramble (st : BitVec 58) : List Bool → List Bool
  | [] => []
  | b :: r => scrambleBit st b :: descramble (shiftIn st b) r

/-! ## Codewords (R433) -/

/-- A symbol of 10 bits, the first bit in bit 0. -/
def symbolOf (l : List Bool) : Nat := l.foldr (fun b n => b.toNat + 2 * n) 0

/-- Product in GF(2^10) with the field polynomial x^10 + x^3 + 1. -/
def gfMul (a b : BitVec 10) : BitVec 10 :=
  ((List.range 10).foldl (fun (p : BitVec 10 × BitVec 10) i =>
    let (sum, x) := p
    (if b.getLsbD i then sum ^^^ x else sum, if x.getLsbD 9 then x <<< 1 ^^^ 9 else x <<< 1)) (0, a)).1

/-- α^i. -/
def gfPow : Nat → BitVec 10
  | 0 => 1
  | n + 1 => gfMul 2 (gfPow n)

/-- Product of (x − α^i) for i below n, highest power first. -/
def rsGenerator : Nat → List (BitVec 10)
  | 0 => [1]
  | n + 1 =>
    let g := rsGenerator n
    List.zipWith (· ^^^ ·) (g ++ [0]) (0 :: g.map (gfMul (gfPow n)))

/-- Parity symbols of data symbols: the remainder of division by a generator (log 106). -/
def rsParity (g : List (BitVec 10)) (data : List (BitVec 10)) : List (BitVec 10) :=
  data.foldl (fun r d =>
    let f := d ^^^ r.headD 0
    List.zipWith (fun x c => x ^^^ gfMul f c) (r.drop 1 ++ [0]) (g.drop 1)) (List.replicate (g.length - 1) 0)

/-- Data symbols of a codeword and symbols it corrects, by PortFec. -/
def codeData (lean : Bool) : Nat := if lean then 260 else 514
def codeCorrects (lean : Bool) : Nat := if lean then 6 else 15

/-- A codeword: parity follows the data. -/
def codeword (lean : Bool) (data : List (BitVec 10)) : List (BitVec 10) :=
  data ++ rsParity (rsGenerator (2 * codeCorrects lean)) data

/-- Symbols of a codeword that go to lane k of the port. -/
def laneSymbols {α : Type} (k : Nat) (l : List α) : List α :=
  (List.range l.length).filterMap fun j => if j % 8 = k then l[j]? else none

/-! ## Alignment markers (R434) -/

/-- The marker of lane k. -/
def marker (k : Nat) (lean : Bool) : List Byte :=
  let w := k % 256 + 256 * b2n lean
  leBytes 8 0xC3F05A960F3CA569 ++ leBytes 2 w ++ leBytes 2 (0xFFFF - w) ++ leBytes 4 0

/-- What a lane sees in 16 bytes: no marker, or its LANE and FEC fields, where CHECK agrees. -/
def readMarker (l : List Byte) : Option (Nat × Nat) :=
  if field l 0 8 = 0xC3F05A960F3CA569 && field l 8 2 + field l 10 2 = 0xFFFF then some (field l 8 1, field l 9 1 % 16) else none

/-! ## The transmitter of a peer port (R430–R434) -/

/-- Lanes of a port, in the order of R430. -/
def portLanes (p : Nat) : List Nat :=
  (List.range 8).map fun k => if p < 16 then 24 * (p / 2) + 8 * (p % 2) + k else 24 * (p - 16) + 16 + k

/-- Bits of bytes, bit 0 of each first (log 141). -/
def lineBits (l : List Byte) : List Bool := l.flatMap fun b => (List.range 8).map b.getLsbD

/-- Bits of a symbol, bit 0 first. -/
def symbolBits (x : BitVec 10) : List Bool := (List.range 10).map x.getLsbD

/-- Symbols of 10 bits. -/
def symbols : Nat → List Bool → List (BitVec 10)
  | 0, _ => []
  | n + 1, l => BitVec.ofNat 10 (symbolOf (l.take 10)) :: symbols n (l.drop 10)

/-- Indices of the pairs of a lane's bits, the earlier bit the left digit. -/
def grayIndices : List Bool → List (BitVec 2)
  | a :: b :: r => grayIndex a b :: grayIndices r
  | _ => []

/-- A transmitter entering bring-up: y at −1 is 0, and a marker comes before the first codeword. The scrambler starts
from zeros (log 141). -/
def LineS.fresh : LineS := ⟨0, [], 0, List.replicate 8 0⟩

def State.line (s : State) (p : Nat) : LineS := s.net.lines.get LineS.fresh p
def State.setLine (p : Nat) (l : LineS) (s : State) : State := { s with net := { s.net with lines := s.net.lines.put p l } }

/-- The state of the scrambler after bits were sent. -/
def scrambler (st : BitVec 58) (sent : List Bool) : BitVec 58 := sent.foldl shiftIn st

/-- One lane sends bits: Gray mapping, and precoding where the port has it (R431). -/
def State.sendLane (p k : Nat) (bits : List Bool) (s : State) : State :=
  let g := grayIndices bits
  let l := s.line p
  let y := if s.num (Obj.portPrecode + p) = 1 then precode (l.last.getD k 0) g else g
  (s.setLine p { l with last := setAt l.last k (y.getLast?.getD 0) }).emit (.symbols ((portLanes p).getD k 0) y)

/-- A codeword goes out over the eight lanes, every 4,096th behind a marker (R433, R434). -/
def State.sendCodeword (p : Nat) (data : List (BitVec 10)) (s : State) : State :=
  let lean := s.num (Obj.portFec + p) = 1
  let l := s.line p
  let word := codeword lean data
  let s := s.setLine p { l with count := (l.count + 1) % 4096 }
  (List.range 8).foldl (fun s k =>
    let s := if l.count = 0 then s.sendLane p k (lineBits (marker k lean)) else s
    s.sendLane p k ((laneSymbols k word).flatMap symbolBits)) s

/-- Bytes of a block enter the transmitter: scrambled, and sent once they fill a codeword, which is longer than a block
(R432, R433, R441). -/
def State.sendLine (p : Nat) (b : List Byte) (s : State) : State :=
  let l := s.line p
  let sent := scramble l.scrambler (lineBits b)
  let bits := l.bits ++ sent
  let n := codeData (s.num (Obj.portFec + p) = 1)
  let s := s.setLine p { l with
    scrambler := scrambler l.scrambler sent
    bits := if 10 * n ≤ bits.length then bits.drop (10 * n) else bits }
  if 10 * n ≤ bits.length then s.sendCodeword p (symbols n bits) else s

end Sys2Proof.Machine
end

