-- ==== Sys2Proof/Machine/Lanes.lean ====
section
/-! DEFINITION. Serial lanes and peer ports (R430–R454): bring-up, tests, the link layer, and remote memory access. -/

namespace Sys2Proof.Machine

/-! ## Ports and lanes (R26, R430, R437) -/

abbrev Port.disabled : Nat := 0
abbrev Port.bringUp : Nat := 1
abbrev Port.qualifying : Nat := 2
abbrev Port.up : Nat := 3
abbrev Port.retraining : Nat := 4
abbrev Port.test : Nat := 5
abbrev Port.failed : Nat := 6
abbrev Port.lost : Nat := 7

/-- The port of a lane. -/
def lanePort (l : Nat) : Nat := if l % 24 < 8 then 2 * (l / 24) else if l % 24 < 16 then 2 * (l / 24) + 1 else 16 + l / 24

def State.portSt (s : State) (p : Nat) : Nat := s.num (Obj.portState + p)

/-- LaneState of a port's state: Adapting from BringUp or Retraining, Aligned, Up; Test is each lane's own. -/
def laneOf (st : Nat) : Nat := if st = 1 || st = 4 then 1 else if st = 2 then 3 else if st = 3 then 4 else 0

/-- Every lane of a port is Locked: its CDR follows the signal, and no marker is seen yet (R437, R455). -/
def State.lockLanes (p : Nat) (s : State) : State := (portLanes p).foldl (fun s l => s.setState (Obj.laneState + l) 2) s

/-- A port changes state: its lanes follow, EyeMargin reads 0 unless Up, a target bridge follows, and a transmitter entering
bring-up starts anew (R431, R434, R437, R439). -/
def State.setPortSt (p v : Nat) (s : State) : State :=
  let s := s.setState (Obj.portState + p) v
  let s := if v = Port.bringUp then s.setLine p LineS.fresh else s
  let s := (portLanes p).foldl (fun s l =>
    let s := s.setState (Obj.laneState + l) (if v = Port.test && s.num (Obj.laneTest + l) ≠ 0 then 5 else laneOf v)
    if v = Port.up then s else s.setNum (Obj.eyeMargin + l) 0) s
  if 16 ≤ p then s.updateBridge (p - 16) else s

/-- Flits queued for a port and in its retry buffer are discarded and counted (R453, R454). -/
def State.discardFlits (p : Nat) (s : State) : State :=
  let q := s.port p
  let n := q.queue.length + q.retry.length
  let s := s.setPort p { q with queue := [], retry := [], resend := [] }
  if n = 0 then s else (s.bump Obj.routeDiscards n).setFlag Obj.linkFlags 8

/-- A port starts: BringUp with a fresh link layer (R437, R442). -/
def State.startPort (p : Nat) (s : State) : State :=
  let s := (s.setPort p PeerPort.fresh).setTrain p ⟨false, s.now, 0⟩
  s.setPortSt p Port.bringUp

/-- PortEnable (R437, R454). -/
def writePortEnable (p : Nat) : Handler := fun v s =>
  let st := s.portSt p
  if v.toNat = 1 then .ok (if st = Port.disabled && 8 ≤ s.rst.exitDone then s.startPort p else s)
  else if st = Port.lost || st = Port.test then .ok s
  else .ok ((s.discardFlits p).setPortSt p Port.disabled)

/-- PORT_ENABLE. -/
def execPortEnable (q : Req) (p : PortNo) (val : List Byte) (s : State) : Res :=
  .next (serveOwn q (Obj.portEnable + p) val (writePortEnable p) s)

/-- PortRate, PortFec and PortPrecode: refused while PortEnable is 1 (R454). -/
def writePortConfig (p : Nat) : Handler := fun _ s =>
  if s.num (Obj.portEnable + p) = 1 then .error Err.refusedInState else .ok s

/-! ## Training (R436–R439) -/

/-- BRING_UP_DONE (R437): the lanes are locked, aligned and deskewed; markers of another code do not align. What the
receivers adapted to is a free value (log 1). -/
def execBringUpDone (p : PortNo) (fecField : BitVec 4) (s : State) : Res :=
  if s.portSt p ≠ Port.bringUp then .next s
  else if fecField.toNat ≠ s.num (Obj.portFec + p) then .next ((s.lockLanes p).setFlag Obj.linkFlags 0x10)
  else
    let s := (portLanes p).foldl (fun s l =>
      let (a, s) := s.fresh
      let (b, s) := s.fresh
      (s.setNum (Obj.ctlePeaking + l) (a.toNat % 256)).setNum (Obj.dfeTaps + l) b.toNat) (s.lockLanes p)
    .next ((s.setTrain p { s.train p with failedWindows := 0 }).setPortSt p Port.qualifying)

/-- Errors of a window of 4,096 codewords: uncorrectable ones count on the port; how the corrected symbols fall on
codewords and lanes is a free value within what the code can correct (R433, log 1). -/
def State.countErrors (p corrected uncorrectable : Nat) (s : State) : State :=
  let per := if s.num (Obj.portFec + p) = 1 then 6 else 15
  let lo := ceilDiv corrected per
  let hi := max lo (min corrected 4096)
  let (v, s) := s.fresh
  let s := (s.bump (Obj.codewordsCorrected + p) (lo + v.toNat % (hi - lo + 1))).bump (Obj.codewordsUncorrectable + p) uncorrectable
  let (s, rest) := ((portLanes p).take 7).foldl (fun (s, rest) l =>
    let (v, s) := s.fresh
    let n := v.toNat % (rest + 1)
    (s.bump (Obj.correctedSymbols + l) n, rest - n)) (s, corrected)
  s.bump (Obj.correctedSymbols + (portLanes p).getD 7 0) rest

/-- QUALIFY_WINDOW (R438): a window meets the criterion, or the 256th in succession fails. -/
def execQualifyWindow (p : PortNo) (corrected : Nat) (uncorrectable : Nat) (s : State) : Res :=
  if s.portSt p ≠ Port.qualifying then .next s
  else
    let s := s.countErrors p corrected uncorrectable
    let t := s.train p
    if uncorrectable = 0 && corrected ≤ s.num Obj.linkUpMaxCorrected then
      .next ((s.setTrain p { t with kept := false, failedWindows := 0 }).setPortSt p Port.up)
    else if t.failedWindows + 1 = 256 then .next ((s.setTrain p { t with failedWindows := 0 }).setPortSt p Port.bringUp)
    else .next (s.setTrain p { t with failedWindows := t.failedWindows + 1 })

/-- LINK_LOSS (R438): a window of an Up port, with the lanes that lost CDR lock in it and whether one missed two markers in
succession; a loss takes the port through Retraining to BringUp with its link layer kept. -/
def execLinkLoss (p : PortNo) (lanes : LaneLoss) (corrected : Nat) (uncorrectable : Nat) (s : State) : Res :=
  if s.portSt p ≠ Port.up then .next s
  else
    let s := s.countErrors p corrected uncorrectable
    let s := lanes.cdrLost.eraseDups.foldl (fun s k => s.bump (Obj.cdrLockLosses + (portLanes p).getD k 0) 1) s
    if lanes.cdrLost.isEmpty && !lanes.markers && uncorrectable < s.num Obj.linkDownUncorrectable then .next s
    else
      let s := ((s.setPortSt p Port.retraining).bump (Obj.retrains + p) 1).setFlag Obj.linkFlags 1
      .next ((s.setTrain p ⟨true, s.now, 0⟩).setPortSt p Port.bringUp)

/-- PORT_DOWN_LIMIT (R437, R453): not Up for PortDownLimitMs. -/
def execPortDownLimit (t : Nat) (p : PortNo) (s : State) : Res :=
  let st := s.portSt p
  if st ≠ Port.bringUp && st ≠ Port.qualifying then .next s
  else
    let s := s.upto (max t ((s.train p).downAt + 1000000 * s.num Obj.portDownLimitMs))
    let s := (s.setPortSt p Port.failed).setFlag Obj.linkFlags 2
    let s := (s.setTrain p ⟨false, s.now, 0⟩).discardFlits p
    .next (s.logFault { FaultRec.device s.now 0x0C 7 with syn := p.val } 0xFF)

/-- EYE_SWEEP (R439): while the port is Up. -/
def execEyeSweep (lane : Fin 192) (margin : BitVec 16) (s : State) : Res :=
  if s.portSt (lanePort lane) = Port.up then .next (s.setNum (Obj.eyeMargin + lane.val) margin.toNat) else .next s

/-! ## Tests (R440) -/

/-- LaneTest: only in Disabled or Test; the port is in Test while a lane's value is not 0. -/
def writeLaneTest (lane : Nat) : Handler := fun _ s =>
  let p := lanePort lane
  if !(s.portSt p = Port.disabled || s.portSt p = Port.test) || s.num (Obj.portEnable + p) = 1 then .error Err.refusedInState
  else
    let s := s.setNum (Obj.prbsLocked + lane) 0
    .ok (s.setPortSt p (if (portLanes p).any fun l => s.num (Obj.laneTest + l) ≠ 0 then Port.test else Port.disabled))

/-- LANE_TEST. -/
def execLaneTest (q : Req) (lane : Fin 192) (val : List Byte) (s : State) : Res :=
  .next (serveOwn q (Obj.laneTest + lane) val (writeLaneTest lane) s)

/-- PRBS_LOCK (R440): the checker locks to its pattern and counts wrong symbols; with far-end loop it is off. -/
def execPrbsLock (lane : Fin 192) (wrongSymbols : Nat) (s : State) : Res :=
  let v := s.num (Obj.laneTest + lane.val)
  if s.portSt (lanePort lane) = Port.test && bits v 0 2 ≠ 3 && bits v 2 2 ≠ 0 then
    .next ((s.setNum (Obj.prbsLocked + lane.val) 1).bump (Obj.prbsErrors + lane.val) wrongSymbols)
  else .next s

/-! ## Link blocks (R441–R443) -/

/-- A block of 272 bytes. -/
def linkBlock (seq : Nat) (f : Option Flit) (resync : Bool) (creditVc credit : Nat) (ack : Option Nat) (nak : Bool) : List Byte :=
  let (vc, mc, dest, src, ttl, body) := match f with
    | some f => (f.vc, f.mcast, f.dest, f.source, f.ttl, f.body)
    | none => (0, false, 0, 0, 0, List.replicate 256 0)
  let b := leBytes 2 (seq + 4096 * vc + 16384 * b2n mc + 32768 * b2n resync) ++ leBytes 2 (dest % 4096) ++
    leBytes 2 (src % 4096 + 4096 * b2n f.isNone) ++ leBytes 1 (ttl % 128) ++ leBytes 1 (creditVc + 4 * credit) ++
    leBytes 2 (ack.getD 0 + 4096 * b2n ack.isSome + 8192 * b2n nak) ++ leBytes 2 0 ++ body
  b ++ leBytes 4 (crc32c b)

/-- Sequence numbers from a to just before b, modulo 4,096. -/
def seqDist (a b : Nat) : Nat := (b + 4096 - a) % 4096

/-- The inputs' turn on a channel: the first waiting flit of the next input in turn. -/
def PeerPort.pick (q : PeerPort) (vc : Nat) : Option (Nat × Flit) :=
  let last := q.turn.getD vc 16
  let order := (List.range 17).map fun i => (last + 1 + i) % 17
  order.findSome? fun i => q.queue.find? fun e => e.1 = i && e.2.vc = vc

/-- The channel that sends next: ready with a flit and a credit, by the order of R443. -/
def PeerPort.channel (q : PeerPort) : Option Nat :=
  let waits (vc : Nat) : Bool := q.queue.any fun e => e.2.vc = vc
  let ready (vc : Nat) : Bool := waits vc && 0 < q.credits.getD vc 0
  let data := waits 0 || waits 3
  if ready 1 then some 1
  else if ready 2 && (!data || 15 ≤ q.sinceVc2) then some 2
  else
    let first := if q.lastData = 3 then 0 else 3
    if ready first then some first else if ready (3 - first) then some (3 - first) else none

/-- Remove the first occurrence of an entry. -/
def dropFirst (e : Nat × Flit) : List (Nat × Flit) → List (Nat × Flit)
  | [] => []
  | x :: r => if x = e then r else x :: dropFirst e r

/-- LINK_BLOCK_SEND (R441–R443): the next block of an Up peer port: one to resend, a new one, or an idle block; it
carries the acknowledgement and returned credits, and its bits go to the lanes. -/
def execLinkBlockSend (p : Fin 16) (s : State) : Res :=
  if s.portSt p ≠ Port.up then .next s
  else
    let q := s.port p
    let cvc := ((List.range 4).find? fun v => q.give.getD v 0 ≠ 0).getD 0
    let credit := min (q.give.getD cvc 0) 63
    let ack := if q.rxFresh then none else some ((q.rxNext + 4095) % 4096)
    let nak := q.nakDue && ack.isSome
    let sent (q : PeerPort) : PeerPort :=
      { q with give := setAt q.give cvc (q.give.getD cvc 0 - credit), nakDue := q.nakDue && !nak, sinceVc2 := min (q.sinceVc2 + 1) 16 }
    let block (seq : Nat) (f : Option Flit) : List Byte := linkBlock seq f q.txFresh cvc credit ack nak
    match q.resend with
    | n :: r =>
      let f := (q.retry.find? fun e => e.1 = n).map (·.2)
      let s := s.setPort p { sent q with resend := r }
      let s := (s.bump (Obj.flitReplays + p.val) 1).bump (Obj.flitsSent + p.val) 1
      .next ((s.emit (.block p (block n f))).sendLine p (block n f))
    | [] =>
      let idle := ((s.setPort p (sent q)).emit (.block p (block q.txSeq none))).sendLine p (block q.txSeq none)
      if 512 ≤ q.retry.length then .next idle
      else match q.channel with
        | none => .next idle
        | some vc => match q.pick vc with
          | none => .next idle
          | some e =>
            let n := sent q
            let n := { n with
              queue := dropFirst e n.queue, retry := n.retry ++ [(q.txSeq, e.2)], txSeq := (q.txSeq + 1) % 4096,
              credits := setAt n.credits vc (n.credits.getD vc 0 - 1), turn := setAt n.turn vc e.1,
              lastData := if vc = 0 || vc = 3 then vc else n.lastData, sinceVc2 := if vc = 2 then 0 else n.sinceVc2 }
            let b := block q.txSeq (some e.2)
            .next ((((s.setPort p n).bump (Obj.flitsSent + p.val) 1).emit (.block p b)).sendLine p b)

/-- An acknowledgement up to a sequence number; the first of a block it has sent ends a fresh sender's RESYNC. -/
def PeerPort.acked (q : PeerPort) (n : Nat) : PeerPort :=
  let mine := q.retry.any (·.1 = n)
  let covers (x : Nat) : Bool := mine && seqDist ((q.retry.head?.map (·.1)).getD 0) x ≤ seqDist ((q.retry.head?.map (·.1)).getD 0) n
  { q with retry := q.retry.filter fun e => !covers e.1, resend := q.resend.filter fun x => !covers x, txFresh := q.txFresh && !mine }

/-- Everything unacknowledged is to be sent again. -/
def PeerPort.resendAll (q : PeerPort) : PeerPort := { q with resend := q.retry.map (·.1) }

/-- The first rejected block brings one NAK (R442). -/
def PeerPort.reject (q : PeerPort) : PeerPort := if q.nakSent then q else { q with nakDue := true, nakSent := true }

/-- LINK_BLOCK_RECEIVE (R441–R443): a block whose CRC is good and which is the one expected is accepted and its flit
routed; an accepted flit's buffer is free again at once (log 32). -/
def execLinkBlockReceive (t : Nat) (p : Fin 16) (block : List Byte) (uncorrectable : Bool) (s : State) : Res :=
  if s.portSt p ≠ Port.up then .next s
  else
    let s := s.upto t
    let q := s.port p
    let crcBad := crc32c (block.take 268) ≠ field block 268 4
    if uncorrectable || crcBad then
      let s := if crcBad && !uncorrectable then s.bump (Obj.flitCrcErrors + p.val) 1 else s
      .next (s.setPort p q.reject)
    else
      let w := field block 0 2
      let a := field block 8 2
      let q := if a.testBit 12 then q.acked (a % 4096) else q
      let q := if a.testBit 13 then q.resendAll else q
      let c := field block 7 1
      let q := { q with credits := setAt q.credits (c % 4) (q.credits.getD (c % 4) 0 + c / 4) }
      if (field block 4 2).testBit 12 then .next (s.setPort p q)
      else
        let seq := w % 4096
        let resync := w.testBit 15
        let expect := if q.rxFresh || (resync && !q.rxSync) then seq else q.rxNext
        let q := { q with rxSync := resync }
        if seq = expect then
          let vc := bits w 12 2
          let q := { q with
            rxNext := (seq + 1) % 4096, rxFresh := false, nakSent := false, nakDue := false,
            give := setAt q.give vc (q.give.getD vc 0 + 1) }
          let s := (s.setPort p q).bump (Obj.flitsReceived + p.val) 1
          let f : Flit := ⟨vc, w.testBit 14 && vc = 3, field block 2 2 % 4096, field block 4 2 % 4096,
            field block 6 1 % 128, slice block 12 256⟩
          .next (s.route p f)
        else if seqDist seq expect ≤ 2048 then .next (s.setPort p q)
        else .next (s.setPort p q.reject)

/-- NAK (R442): resend from ACK_SEQ + 1. -/
def execNak (p : Fin 16) (ackSeq : BitVec 12) (s : State) : Res :=
  .next (s.setPort p ((s.port p).acked ackSeq.toNat).resendAll)

/-- REPLAY_TIMEOUT (R442): 4,000 ns without progress of ACK_SEQ. -/
def execReplayTimeout (p : Fin 16) (s : State) : Res :=
  let q := s.port p
  if q.retry.isEmpty then .next s else .next (s.setPort p q.resendAll)

/-! ## Remote access (R40, R449) -/

/-- The oldest flit from a source, and the one behind it. -/
def State.vc0From (s : State) (source : Nat) : Option (List Byte) × Option (List Byte) :=
  match s.net.inbox.filter (·.1 = source) with
  | [] => (none, none)
  | [a] => (some a.2, none)
  | a :: b :: _ => (some a.2, some b.2)

/-- Drop the n oldest flits of a source. -/
def dropFrom (source : Nat) : Nat → List (Nat × List Byte) → List (Nat × List Byte)
  | 0, l => l
  | _, [] => []
  | n + 1, e :: r => if e.1 = source then dropFrom source n r else e :: dropFrom source (n + 1) r

def State.takeVc0 (source n : Nat) (s : State) : State :=
  { s with net := { s.net with inbox := dropFrom source n s.net.inbox } }

/-- How a remote peer's access to a 64-byte piece answers (R40): GDDR7, stream buffers and CXL windows only. -/
def State.peerAccess (s : State) (a : Nat) : MemStatus :=
  match s.placePhys a with
  | .operand _ _ | .host _ => .decode
  | _ => s.placeStatus (s.placePhys a)

/-- REMOTE_REQUEST (R449): a request of another device that stands first from its source; a WRITE waits for its data
flit, and one to a cabinet whose operating point changes waits (R254). A flit with a reserved OP is dropped. -/
def execRemoteRequest (source : BitVec 12) (s : State) : Res :=
  let src := source.toNat
  match s.vc0From src with
  | (none, _) => .next s
  | (some h, d?) =>
    let op := field h 0 1 % 16
    let n := 64 * (field h 1 1 % 4 + 1)
    let tag := field h 2 2 % 4096
    let a := field h 8 8 % 2 ^ 48
    let sts := (List.range (n / 64)).map fun i => s.peerAccess (a + 64 * i)
    let bad := sts.find? (· ≠ .ok)
    let err (s : State) (e : MemStatus) : State := s.sendFlit 0 false src (vc0Header 5 (n / 64 - 1) tag (statusCode e) 0)
    if s.changing a && (op = 1 || op = 2) then .next s
    else if op = 1 then
      let s := s.takeVc0 src 1
      match bad with
      | some e => .next (err s e)
      | none => .next ((s.sendFlit 0 false src (vc0Header 3 (n / 64 - 1) tag 0 0)).sendFlit 0 false src (s.read a n))
    else if op = 2 then match d? with
      | none => .next s
      | some d =>
        let s := s.takeVc0 src 2
        let s := (List.range (n / 64)).foldl (fun s i =>
          if sts.getD i .decode = .ok then s.poke (a + 64 * i) (slice d (64 * i) 64) else s) s
        match bad with
        | some e => .next (err s e)
        | none => .next (s.sendFlit 0 false src (vc0Header 4 (n / 64 - 1) tag 0 0))
    else if 3 ≤ op && op ≤ 5 then .next s
    else .next (s.takeVc0 src 1)

/-- Status of an ERROR response. -/
def codeStatus (c : Nat) : MemStatus := if c = 1 then .decode else if c = 3 then .cabinetLost else .uncorrectable

/-- A request completes to its requester. -/
def State.finishRemote (tag : Nat) (st : MemStatus) (data : List Byte) (s : State) : State :=
  match s.net.reqs.find? tag with
  | none => s
  | some r => { s with net := { s.net with reqs := s.net.reqs.del tag, done := s.net.done.put r.who (st, data) } }

/-- REMOTE_RESPONSE (R449): a response that stands first from its source completes its request, or comes late. -/
def execRemoteResponse (source : BitVec 12) (s : State) : Res :=
  let src := source.toNat
  match s.vc0From src with
  | (none, _) => .next s
  | (some h, d?) =>
    let op := field h 0 1 % 16
    let n := 64 * (field h 1 1 % 4 + 1)
    let tag := field h 2 2 % 4096
    let mine : Bool := match s.net.reqs.find? tag with | some r => decide (r.dev = src) | none => false
    let fin (k : Nat) (st : MemStatus) (data : List Byte) : State :=
      let s := s.takeVc0 src k
      if mine then s.finishRemote tag st data else s.bump Obj.lateResponses 1
    if op = 3 then match d? with
      | none => .next s
      | some d => .next (fin 2 .ok (d.take n))
    else if op = 4 then .next (fin 1 .ok [])
    else if op = 5 then .next (fin 1 (codeStatus (field h 4 1)) [])
    else .next s

/-- REMOTE_TIMEOUT (R449): 10 ms without an answer. -/
def execRemoteTimeout (tag : BitVec 12) (s : State) : Res :=
  match s.net.reqs.find? tag.toNat with
  | none => .next s
  | some _ =>
    .next (((s.finishRemote tag.toNat .uncorrectable []).bump Obj.remoteTimeouts 1).setFlag Obj.linkFlags 0x20)

/-! ## Target ports (R452) -/

/-- CRC-16 with polynomial 0x1021 and initial value 0xFFFF, most significant bit first (log 33). -/
def crc16 (l : List Byte) : Nat :=
  (l.foldl (fun (c : BitVec 16) b =>
    (List.range 8).foldl (fun c _ => if c.getLsbD 15 then (c <<< 1) ^^^ 0x1021 else c <<< 1) (c ^^^ (BitVec.ofNat 16 (256 * b.toNat))))
    0xFFFF).toNat

/-- TARGET_BLOCK_RECEIVE (R452, R337). -/
def execTargetBlockReceive (port : Cab) (block : List Byte) (uncorrectable : Bool) (s : State) : Res :=
  if s.portSt (16 + port) ≠ Port.up then .next s
  else
    let crcBad := crc16 (block.take 66) ≠ field block 66 2
    let s := if crcBad && !uncorrectable then s.bump (Obj.flitCrcErrors + 16 + port.val) 1 else s
    let b0 := field block 0 1
    if uncorrectable || crcBad then .next (s.bridgeWord port [] false true)
    else if b0.testBit 1 then .next s
    else .next ((s.bump (Obj.flitsReceived + 16 + port.val) 1).bridgeWord port (slice block 2 64) (b0.testBit 0) false)

end Sys2Proof.Machine
end

