-- ==== Sys2Proof/Machine/Scrub.lean ====
section
/-! DEFINITION. The scrubber (R379–R385): its pass, corrections, reloads and the two copies of its settings. -/

namespace Sys2Proof.Machine

/-! ## The check of a frame (R359) -/

/-- Bits of a column segment's frames that its frames' checks take as 0: the tables of cells in Shift register or Memory
mode. -/
def State.maskedBits (s : State) (c row col : Nat) : List Nat :=
  (List.range 25).flatMap fun z => (List.range 16).flatMap fun k =>
    let cell := cellNo (clusterNo row col z) k
    match s.cellMode c cell with
    | .shiftRegister | .memory => (List.range 64).map fun i => Config.clusterBit z (96 * k + i) % (3072 * 12)
    | .sixInput | .split => []

/-- A frame's check does not cover its bit i. -/
def State.masked (s : State) (far i : Nat) : Bool :=
  farType far = 0 && (s.maskedBits (farCab far) (farRow far) (farCol far)).contains (3072 * farMinor far + i)

/-- The check that the controller keeps beside a frame: the loader computes it from what it writes. It follows from the
frame, so State holds no copy; an upset of a frame comes with the command that reads it (log 139). -/
def State.frameCheck (s : State) (far : Nat) : BitVec 13 :=
  let b := s.frame far
  Config.frameCode ((List.range 3072).map fun i => frameBit b i && !s.masked far i)

/-- The settings in force, from the good copy: enable, pause, mask (R384). -/
def State.scrubMask (s : State) : Nat := s.cfg.copyA.2.2

/-- A frame segment is scrubbed: static part of a configured fabric, or a Running region not skipped in this pass. -/
def State.scrubs (s : State) (base : Nat) : Bool :=
  let c := farCab base
  s.scrubMask.testBit c && !s.lost c && !s.inCReset c &&
    (match s.regionAt c (farPos base) with
     | some r => s.regSt r = Region.running && !s.cfg.skip.contains r
     | none => s.num Obj.fabricState = 2 && !s.fab.bare.contains c)

/-- The column segments whose frames are read, in increasing FAR: types 0, 1, 3, 4 and 5 (R379). -/
def scrubSegments : List Nat :=
  (List.range 8).flatMap fun c => [0, 1, 3, 4, 5].flatMap fun ty => (List.range (typeRows ty)).flatMap fun r =>
    ((List.range (typeCols ty)).map fun col => farOf c ty r col 0).filter farValid

/-- The next frame to read from an address on. -/
def State.nextScrub (s : State) : Option Nat :=
  (scrubSegments.find? fun b => s.cfg.scrubAt < b + typeMinors (farType b) && s.scrubs b).map fun b => max b s.cfg.scrubAt

/-- A new pass begins from its first frame. -/
def State.newPass (s : State) : State := s.setCfg fun c => { c with scrubAt := 0, skip := [] }

/-- SCRUB_FRAME_READ (R379, R380, R382). A frame with three or more upset bits is outside the guarantee: what its check
shows, and what a miscorrection leaves, are free values (R11, log 1). An upset of a bit that no check covers shows clean. -/
def execScrubFrameRead (check : FrameCheck) (s : State) : Res :=
  if s.num Obj.scrubState ≠ 1 || s.blockHeld 0x28 then .next s
  else match s.nextScrub with
    | none => .next ((s.newPass.bump Obj.scrubPasses 1).setState Obj.scrubState 4)
    | some f =>
      let s := (s.setNum Obj.lastScrubFrame f).setCfg fun c => { c with scrubAt := f + 1 }
      let correct (s : State) : State :=
        (((s.setState Obj.scrubState 2).bump Obj.scrubCorrected 1).setFlag Obj.scrubFlags 1).setState Obj.scrubState 1
      let double (s : State) : State :=
        let r := (s.regionAt (farCab f) (farPos f)).getD 64
        let s := ((s.bump Obj.scrubDoubleErrors 1).setFlag Obj.scrubFlags 2).setState Obj.scrubState 3
        s.setCfg fun c => { c with reloads := c.reloads ++ [r] }
      match check with
      | .clean => .next s
      | .single i => .next (if s.masked f i then s else correct s)
      | .double => .next (double s)
      | .more =>
        let (v, s) := s.fresh
        let (l, s) := s.freshBytes 384
        let s := s.putFrame f l
        .next (if v.toNat % 3 = 0 then s else if v.toNat % 3 = 1 then correct s else double s)

/-- A reload starts from an image, or fails for want of one (R382, R383). -/
def State.startReload (kind cab reg image : Nat) (only : Option Nat) (s : State) : State :=
  let s := s.setCfg fun c => { c with reloading := true }
  let s := s.beginLoad { LoadS.new 6 image [] with kind := kind, cab := cab, reg := reg, only := only }
  let s := s.setNum Obj.loadTarget (kind + 4 * cab + 32 * reg)
  if image = 0 then s.failLoad LoadEnd.imageMismatch 0 0 else s

/-- SCRUB_RELOAD (R382): the region from its image, or from the full one if the full configuration loaded it last; for
a static frame the whole fabric, and then each region whose image is a partial bitstream. -/
def execScrubReload (s : State) : Res :=
  if s.num Obj.scrubState ≠ 3 || s.cfg.load.isSome || s.blockHeld 0x20 then .next s
  else match s.cfg.reloads with
    | [] => .next (s.setState Obj.scrubState 1)
    | r :: rest =>
      let s := (s.setCfg fun c => { c with reloads := rest }).bump Obj.scrubReloads 1
      if r = 64 then
        let part := (List.range 64).filter fun i => s.regDefined i && !(s.region i).fromFull && (s.region i).image ≠ 0
        let s := (s.setCfg fun c => { c with reloads := rest.filter (64 ≤ ·) ++ part.map (128 + ·) }).setFlag Obj.scrubFlags 0x20
        .next (s.startReload 1 0 0 (s.num Obj.fullImage) none)
      else
        let r := r % 128
        let v := s.region r
        let s := s.setRegion r { v with reloads := sat32 (v.reloads + 1) }
        if v.fromFull then .next (s.startReload 1 (r / 8) (r % 8) (s.num Obj.fullImage) (some r))
        else .next (s.startReload 2 (r / 8) (r % 8) v.image none)

/-- SCRUB_PAUSE_END (R379): ScrubPauseMs has elapsed. -/
def execScrubPauseEnd (s : State) : Res := if s.num Obj.scrubState = 4 then .next (s.setState Obj.scrubState 1) else .next s

/-- The scrubber's settings are committed: both copies (R384), and ScrubEnable starts or stops it (R385). -/
def State.takeScrubSettings (s : State) : State :=
  let v := (s.num Obj.scrubEnable, s.num Obj.scrubPauseMs, s.num Obj.scrubCabinetMask)
  let s := s.setCfg fun c => { c with copyA := v, copyB := v }
  if v.1 = 0 then (s.setState Obj.scrubState 0).setCfg fun c => { c with reloads := [] }
  else if s.num Obj.scrubState = 0 && 9 ≤ s.rst.exitDone then s.newPass.setState Obj.scrubState 1
  else s

def writeScrubControl : Handler := fun _ s => .ok s.takeScrubSettings

/-- The pass begins anew, by way of a state. -/
def State.restartScrub (via : Nat) (s : State) : State :=
  let s := s.newPass
  if s.num Obj.scrubState = 0 || s.num Obj.scrubState = 3 then s else (s.setState Obj.scrubState via).setState Obj.scrubState 1

/-- SETTINGS_UPSET (R384): one copy is bad; the good one is copied over it and a new pass begins. -/
def execSettingsUpset (copyB : Bool) (s : State) : Res :=
  if s.blockHeld 0x28 || s.rst.exitDone < 4 then .next s else
  let s := s.setCfg fun c => if copyB then { c with copyB := c.copyA } else { c with copyA := c.copyB }
  .next (((s.restartScrub 5).bump Obj.settingsUpsets 1).setFlag Obj.scrubFlags 8)

/-- SCRUB_CRITICAL_RESET (R384): both copies are bad; the scrubber restarts with the defaults, which the dictionary
writes into ScrubControl and persists. -/
def execScrubCriticalReset (s : State) : Res :=
  if s.blockHeld 0x28 || s.rst.exitDone < 4 then .next s else
  let s := ((s.setNum Obj.scrubEnable 1).setNum Obj.scrubPauseMs 100).setNum Obj.scrubCabinetMask 0xFF
  let s := ((s.persist Obj.scrubEnable).persist Obj.scrubPauseMs).persist Obj.scrubCabinetMask
  let s := s.takeScrubSettings
  .next (((s.restartScrub 6).bump Obj.scrubCriticalResets 1).setFlag Obj.scrubFlags 0x10)

end Sys2Proof.Machine
end

