-- ==== Sys2Proof/Machine/Loss.lean ====
section
/-! DEFINITION. The loss of a cabinet (R17, R25, R278, R279), and what it shares with a C reset of one. -/

namespace Sys2Proof.Machine

/-! ## What a cabinet holds (R17, R279) -/

/-- A page resident in a cabinet: ASN, size, page, and whether its leaf is writable. -/
def State.pagesAt (s : State) (c : Nat) : List (Nat × Bool × Nat × Bool) :=
  (List.filter (fun (f : Nat × Nat × Bool × Nat × Nat) => f.1 = c) s.mm.frames).map fun (_, asn, large, _, p) =>
    (asn, large, p, ((s.leafOf asn p).map fun e => pteWritable e).getD false)

/-- R279 names the job for a loss of the cabinet. -/
def State.touches (s : State) (c id : Nat) (j : JobS) : Bool :=
  j.placed.any (fun d => d.tile / 150 = c) || (s.pagesAt c).any (fun (asn, _, _, w) => asn = j.asn && w) ||
    j.granules.any (fun g => g.1 = c) || (s.slotsOf id).any (fun q => q.1 = c) ||
    (s.streamsOf id).any fun (_, m) => (m.st = StreamSt.halted && m.cause = 3) || m.halting = some (3, 0)

/-- The placed jobs that R279 names. -/
def State.jobsAt (s : State) (c : Nat) : List (Nat × JobS) := s.jobs.jobs.filter fun (id, j) => j.isPlaced && s.touches c id j

/-- Everything that a cabinet's blocks hold is dropped; a feed's stream is kept where the feed recovers. -/
def State.dropCabinet (c : Nat) (keepFeeds : Bool) (s : State) : State :=
  let s := { s with
    tiles := s.tiles.filter fun e => e.1 / 150 ≠ c
    colls := s.colls.del c
    streams := s.streams.filter fun e => e.1 / 512 ≠ c || (keepFeeds && e.2.desc.dir = 4)
    mem := s.mem.filter fun e => !cabHolds c e.1
    mm := { s.mm with
      chans := s.mm.chans.filter fun e => e.1 / 24 ≠ c
      faults := s.mm.faults.filter fun f => f.cab ≠ c
      cached := s.mm.cached.filter fun e => e.1 / 2 ^ 56 ≠ c
      pins := s.mm.pins.filter fun p => p.1 / 512 ≠ c
      frames := s.mm.frames.filter fun f => f.1 ≠ c }
    fab := { s.fab with
      bridges := s.fab.bridges.del c }
    lock := { s.lock with
      selects := s.lock.selects.filter fun e => e.1 ≠ c
      inEffect := s.lock.inEffect.del c
      inRegs := s.lock.inRegs.filter fun e => e.1 / 256 ≠ c } }
  (s.clearLogic fun d _ => d = c).clearFrames fun f => farCab f = c

/-- Resident pages with WRITABLE 0 are made not present; they migrate in again on their next fault (R279). -/
def State.unloadPages (l : List (Nat × Bool × Nat × Bool)) (s : State) : State :=
  l.foldl (fun s (asn, large, p, w) =>
    if w then s
    else (s.invalidate asn p).putLeaves asn p large (mkLeaf false false false false (s.mm.backing.get 0 (leafKey asn p)))) s

/-- A change of operating point goes on without the cabinet (R254). -/
def State.skipChange (c : Nat) (s : State) : State :=
  match s.mm.changing with
  | [] => s
  | d :: r => if d = c then s.nextChange r else { s with mm := { s.mm with changing := s.mm.changing.filter (· ≠ c) } }

/-- The cabinet's regions take a state, and no start-up step is in force there (R375). -/
def State.endRegions (c : Nat) (st : Nat → Nat) (s : State) : State :=
  ((List.range 8).map (8 * c + ·)).foldl (fun s r => (s.setRegion r { s.region r with steps := [] }).setRegSt r (st r)) s

/-! ## Rung 5 (R279) -/

/-- What a pre-empted job has saved lay in part in the cabinet's GDDR7 (R306, R312). -/
def Saved.stoodIn (v : Saved) (c : Nat) : Bool :=
  v.drawers.any (fun q => q.entry.tile / 150 = c) || v.streams.any (fun e => e.1 / 512 = c) || v.slots.any fun q => q.1 = c

/-- Save areas in the cabinet are lost: their jobs restore from a checkpoint when they are placed (R312). -/
def State.loseSaved (c : Nat) (s : State) : State :=
  { s with jobs := { s.jobs with jobs := s.jobs.jobs.map fun (id, j) =>
    if (j.saved.map fun v => v.stoodIn c).getD false then (id, { j with saveLost := true }) else (id, j) } }

/-- A job that the loss names returns to its newest committed checkpoint. Where rung 5 runs for it already, that rung starts
again: everything stops, and times add (R279, R286). -/
def State.takeBack (c id : Nat) (s : State) : State :=
  match s.job id with
  | none => s
  | some j =>
    if s.health.rungs.any fun q => q.work = .shard id then
      let j := { j.dropXfers with reported := none, released := false }
      (s.putJob id j).askJob id j true
    else s.startRung5 id { FaultRec.device s.now 0x0E 9 with cab := c, job := id, flags := if j.checker then 4 else 0 }

/-- Rungs that waited in tiles of the cabinet: each fault is recorded without a rung (R285, R286). -/
def State.endTileRungs (c : Nat) (s : State) : State :=
  s.supersede fun q => match q.work with
    | .site g _ _ | .row g _ => g / 150 = c
    | _ => false

/-! ## Loss -/

/-- A feed of the lost cabinet is Lost (R411, R422, R423). -/
def State.loseFeed (q : Nat) (s : State) : State :=
  if (s.feed q).st = 0 then s
  else
    let s := (s.unknownAll q).flushFeed q
    let s := s.modFeed q fun f => { f with verdicts := [], capNewest := none }
    (s.setCapture q 0).setFeedSt q 4

/-- A load in progress when a cabinet is lost (R378). -/
def State.loadLoses (c : Nat) (s : State) : State :=
  match s.cfg.load with
  | none => s
  | some l =>
    if l.whole then s.setLoad { l with gone := c :: l.gone }
    else if s.loaderSt ≠ Loader.header && l.only.getD (8 * l.cab + l.reg) / 8 = c then s.failLoad LoadEnd.cabinetLost 0 0
    else s

/-- Tiles queued for re-admission leave the queue untested (R284). -/
def State.unqueueTiles (c : Nat) (s : State) : State :=
  let l := s.health.readmit.filter fun g => g / 150 ≠ c
  ({ s with health := { s.health with readmit := l } }).setNum Obj.readmitQueued l.length

/-- What the cabinet's tiles and streams hold is kept for the objects derived from it (R25). -/
def State.keepViews (c : Nat) (s : State) : State :=
  { s with gone := {
    tiles := (s.tiles.filter fun e => e.1 / 150 = c).foldl (fun t e => t.put e.1 e.2) s.gone.tiles
    streams := (s.streams.filter fun e => e.1 / 512 = c).foldl (fun t e => t.put e.1 e.2) s.gone.streams
    buffers := s.gone.buffers.put c (s.bufferHeld c) } }

/-- The health service declares a cabinet lost (R17, R278, R279, R407, R493). -/
def State.loseCabinet (c : Nat) (rail : Bool) (s : State) : State :=
  if s.lost c then s
  else
    let hit := s.jobsAt c
    let pages := s.pagesAt c
    let s := s.keepViews c
    let s := (List.range 16).foldl (fun s f => s.loseFeed (16 * c + f)) s
    let s := ((s.setState (Obj.cabinetHealth + c) 3).setFlag Obj.healthFlags 8).setState (Obj.cabinetPowerState + c) 3
    let s := if rail then s.setFlag Obj.powerFlags 4 else s
    let s := if s.num (Obj.gddrCabinetState + c) = 4 then s else s.setState (Obj.gddrCabinetState + c) 5
    let s := { s with rst := { s.rst with cabExit := s.rst.cabExit.del c } }
    let s := (s.dropCabinet c false).skipChange c
    let s := s.endRegions c fun _ => Region.lost
    let s := (s.loadLoses c).setCfg fun g => { g with reloads := g.reloads.filter fun r => r = 64 || r % 128 / 8 ≠ c }
    let s := ((s.loseChans c).updateBridge c).setPortSt (16 + c) Port.lost
    let s := (s.unqueueTiles c).loseSaved c
    let s := s.logFault { FaultRec.device s.now 0x0E 9 with cab := c } 0xFF
    let s := hit.foldl (fun s e => s.takeBack c e.1) s
    let s := (s.endTileRungs c).unloadPages pages
    let s := if s.steppedCab c then s.proposeHere 4 else s
    s.updateHealth

/-- The health service runs: the firmware serves (R488, R489). -/
def State.serving (s : State) : Bool := 4 ≤ s.rst.exitDone && s.rst.serve = Serve.full

/-- CABINET_LOST (R278): a rail fault, 1 ms without an answer, or a GDDR7 failure. -/
def execCabinetLost (t : Nat) (c : Cab) (railFault : Bool) (s : State) : Res :=
  let s := s.upto t
  .next (if s.serving then s.loseCabinet c railFault else s)

end Sys2Proof.Machine
end

