-- ==== Sys2Proof/Machine/Ownership.lean ====
section
/-! DEFINITION. Claims, leases, handovers (R98–R106) and commit groups up to their commit (R57, R58, R61). -/

namespace Sys2Proof.Machine

/-! ## Groups (R57, R58, R61) -/

def State.group (s : State) (id : Nat) : Option Group := s.dict.groups.find? id
def State.setGroup (id : Nat) (g : Group) (s : State) : State :=
  { s with dict := { s.dict with groups := s.dict.groups.put id g } }
def State.closeGroup (id : Nat) (s : State) : State :=
  { s with dict := { s.dict with groups := s.dict.groups.del id } }

/-- The dictionary aborts a master's open group; the DETAIL is kept for its next stage or commit (R61, R84). -/
def State.abortGroup (id detail : Nat) (s : State) : State :=
  match s.group id with
  | none => s
  | some _ =>
    let s := s.closeGroup id
    { s with dict := { s.dict with aborted := s.dict.aborted.put id detail } }

/-- GROUP_BEGIN (R57). -/
def State.groupBegin (m : Master) (tr : Transport) (seq : Nat) (s : State) : State :=
  let id := masterId m
  if s.num Obj.owner ≠ id then s.answerErr m tr seq 0 Err.notOwner 0
  else if (s.group id).isSome then s.answerErr m tr seq 0 Err.groupOpen 0
  else
    let s := s.setGroup id ⟨s.now, [], none⟩
    { s with dict := { s.dict with aborted := s.dict.aborted.del id } }.answer m tr Oap.groupBegin 0 seq 0 []

/-- Why a group message of a master cannot proceed: aborted by the dictionary, not the owner, or no open group. -/
def State.groupErr (s : State) (id : Nat) : Option (Nat × Nat) :=
  match s.dict.aborted.find? id with
  | some d => some (Err.groupAborted, d)
  | none =>
    if s.num Obj.owner ≠ id then some (Err.notOwner, 0)
    else if (s.group id).isNone then some (Err.groupNotOpen, 0)
    else none

/-- Stage a value: a second one for the same subentry takes the first one's place (R58). -/
def Group.stage (g : Group) (k : Nat) (v : List Byte) : Group :=
  if g.staged.any (·.1 = k) then { g with staged := g.staged.map fun p => if p.1 = k then (k, v) else p }
  else { g with staged := g.staged ++ [(k, v)] }

/-- Limits of R57. -/
def Group.fits (g : Group) : Bool := g.staged.length ≤ 256 && sumBy g.staged (·.2.length) ≤ 65536

/-- GROUP_STAGE (R58). -/
def State.groupStage (m : Master) (tr : Transport) (seq k : Nat) (v : List Byte) (s : State) : State :=
  let id := masterId m
  match s.groupErr id, s.group id with
  | some (e, d), _ => s.answerErr m tr seq k e d
  | none, none => s.answerErr m tr seq k Err.groupNotOpen 0
  | none, some g =>
    let fail (e : Nat) : State :=
      (s.setGroup id { g with failed := if g.failed.isSome then g.failed else some (e, k) }).answerErr m tr seq k e 0
    match s.checkVal id k v with
    | .error e => fail e
    | .ok _ => if (g.stage k v).fits then (s.setGroup id (g.stage k v)).answer m tr Oap.groupStage 0 seq k [] else fail Err.groupFull

/-- GROUP_ABORT (R61). -/
def State.groupAbort (m : Master) (tr : Transport) (seq : Nat) (s : State) : State :=
  let id := masterId m
  if s.num Obj.owner ≠ id then s.answerErr m tr seq 0 Err.notOwner 0
  else if (s.group id).isNone then s.answerErr m tr seq 0 Err.groupNotOpen 0
  else (s.closeGroup id).answer m tr Oap.groupAbort 0 seq 0 []

/-- GROUP_BEGIN (R57). -/
def execGroupBegin (m : Master) (tr : Transport) (t : Nat) (seq : BitVec 16) (s : State) : Res :=
  .next (s.fullRequest m tr t seq.toNat 0 fun s => s.groupBegin m tr seq.toNat)

/-- GROUP_STAGE (R58). -/
def execGroupStage (m : Master) (tr : Transport) (t : Nat) (seq : BitVec 16) (o : ObjId) (val : List Byte)
    (s : State) : Res :=
  .next (s.fullRequest m tr t seq.toNat (keyOf o) fun s => s.groupStage m tr seq.toNat (keyOf o) val)

/-- GROUP_ABORT (R61). -/
def execGroupAbort (m : Master) (tr : Transport) (t : Nat) (seq : BitVec 16) (s : State) : Res :=
  .next (s.fullRequest m tr t seq.toNat 0 fun s => s.groupAbort m tr seq.toNat)

/-- Time a group may stay open (R61): 10 s. -/
abbrev groupLife : Nat := 10000000000

/-- GROUP_TIMEOUT (R61): 10 s after its begin. -/
def execGroupTimeout (m : Master) (s : State) : Res :=
  match s.group (masterId m) with
  | none => .next s
  | some g => .next ((s.upto (g.openedAt + groupLife)).abortGroup (masterId m) 1)

/-! ## Ownership (R98–R105) -/

/-- LeasePeriod in ns. -/
def State.leaseNs (s : State) : Nat := s.num Obj.leasePeriod * 1000000

/-- OwnerState follows: ClaimWindow while a window is open, HandoverPending while a successor may accept, else by
the owner. -/
def State.updateOwner (s : State) : State :=
  s.setState Obj.ownerState
    (if s.own.window.isSome then 2 else if s.own.acceptBy.isSome then 3 else if s.num Obj.owner = 0 then 0 else 1)

/-- Cancel a pending handover. -/
def State.clearHandover (s : State) : State :=
  { s with own := { s.own with acceptBy := none } }.setNum Obj.handoverSuccessor 0

/-- A firmware update is given up, its slot left as it stands (R507). -/
def State.cancelUpdate (s : State) : State := (s.setNum Obj.updateResult 8).setState Obj.updateState 0

/-- Owner changes: the displaced owner's group is aborted, its update in Erasing, Receiving or Verified is cancelled, and
an event is raised (R61, R101, R103, R104, R510). -/
def State.setOwner (id : Nat) (s : State) : State :=
  let old := s.num Obj.owner
  if old = id then s
  else
    let s := if old ≠ 0 && [1, 2, 4].contains (s.num Obj.updateState) then s.cancelUpdate else s
    ((((s.abortGroup old 2).setNum Obj.owner id).bump Obj.ownershipChanges 1)).raise Obj.owner 0

/-- Give the owner a lease from now. -/
def State.renew (s : State) : State := { s with own := { s.own with leaseEnd := s.now + s.leaseNs } }

/-- Ownership lapses (R103). -/
def State.lapse (s : State) : State :=
  (((s.setOwner 0).setNum Obj.ownerPriority 0).clearHandover).updateOwner

/-- Lease end in ms from now, rounded down. -/
def State.leaseLeft (s : State) : Nat := if s.num Obj.owner = 0 then 0 else (s.own.leaseEnd - s.now) / 1000000

/-- Payload of a CLAIM answer (R80). -/
def State.claimAnswer (s : State) (winner : Nat) : List Byte := leBytes 1 winner ++ leBytes 4 s.leaseLeft

/-- CLAIM (R100, R102). -/
def State.claim (m : Master) (tr : Transport) (seq prio : Nat) (s : State) : State :=
  let id := masterId m
  let c : Claim := ⟨id, prio, tr, canPortOf tr, seq⟩
  let isOwner := s.num Obj.owner = id
  let s := if isOwner then s.renew else s
  match s.own.window with
  | some (e, l) => { s with own := { s.own with window := some (e, l ++ [c]) } }
  | none =>
    if isOwner then
      let s := s.setNum Obj.ownerPriority prio
      s.answer m tr Oap.claim 0 seq 0 (s.claimAnswer id)
    else { s with own := { s.own with window := some (s.now + 10000000, [c]) } }.updateOwner

/-- CLAIM. -/
def execClaim (m : Master) (tr : Transport) (t : Nat) (seq : BitVec 16) (prio : Byte) (s : State) : Res :=
  .next (s.fullRequest m tr t seq.toNat 0 fun s => s.claim m tr seq.toNat prio.toNat)

/-- The contestants of a window: each claimant's last claim, and the owner's standing priority if it sent none. -/
def contestants (owner prio : Nat) (l : List Claim) : Tab Nat :=
  let t : Tab Nat := if owner = 0 then [] else [(owner, prio)]
  l.foldl (fun t c => t.put c.id c.prio) t

/-- The winner: highest priority, then lowest claimant ID (R100). -/
def winner (t : Tab Nat) : Option (Nat × Nat) :=
  t.foldl (fun b (i, p) => match b with
    | none => some (i, p)
    | some (j, q) => if q < p then some (i, p) else some (j, q)) none

/-- CLAIM_WINDOW_CLOSE (R100, R101, R105). -/
def execClaimWindowClose (s : State) : Res :=
  match s.own.window with
  | none => .next s
  | some (e, l) =>
    let s := s.upto e
    let s := { s with own := { s.own with window := none } }
    match winner (contestants (s.num Obj.owner) (s.num Obj.ownerPriority) l) with
    | none => .next s.updateOwner
    | some (w, p) =>
      let s := if w = s.num Obj.owner then s else s.clearHandover
      let s := ((s.setOwner w).setNum Obj.ownerPriority p).renew
      let s := l.foldl (fun s c =>
        if c.id = w then s.message c.id c.tr false (segments c.tr Oap.claim 0 c.seq 0 (s.claimAnswer w))
        else s.message c.id c.tr false (segments c.tr Oap.error 0 c.seq 0 (leBytes 2 Err.claimLost ++ leBytes 2 w))) s
      .next s.updateOwner

/-- LEASE_END (R103, R104): the time to accept a handover runs out, or the lease itself ends. -/
def execLeaseEnd (s : State) : Res :=
  if s.num Obj.owner = 0 then .next s
  else match s.own.acceptBy with
  | some a =>
    if a < s.own.leaseEnd then .next ((s.upto a).clearHandover).updateOwner
    else .next (s.upto s.own.leaseEnd).lapse
  | none => .next (s.upto s.own.leaseEnd).lapse

/-- RELEASE (R103). -/
def State.release (m : Master) (tr : Transport) (seq : Nat) (s : State) : State :=
  if s.num Obj.owner ≠ masterId m then s.answerErr m tr seq 0 Err.notOwner 0
  else s.lapse.answer m tr Oap.release 0 seq 0 []

/-- RELEASE. -/
def execRelease (m : Master) (tr : Transport) (t : Nat) (seq : BitVec 16) (s : State) : Res :=
  .next (s.fullRequest m tr t seq.toNat 0 fun s => s.release m tr seq.toNat)

/-- HANDOVER (R104): the owner names a successor and renews its lease, within which the successor must accept. -/
def State.handover (m : Master) (tr : Transport) (seq succ : Nat) (s : State) : State :=
  let id := masterId m
  if s.num Obj.owner ≠ id then s.answerErr m tr seq 0 Err.notOwner 0
  else if succ = id || !validClaimant succ || (succ = 0xFE && s.num Obj.debugEnabled = 0) then
    s.answerErr m tr seq 0 Err.badSuccessor 0
  else
    let s := s.renew
    let s := { s with own := { s.own with acceptBy := some s.own.leaseEnd } }.setNum Obj.handoverSuccessor succ
    s.updateOwner.answer m tr Oap.handover 0 seq 0 []

/-- HANDOVER. -/
def execHandover (m : Master) (tr : Transport) (t : Nat) (seq : BitVec 16) (successor : Byte) (s : State) : Res :=
  .next (s.fullRequest m tr t seq.toNat 0 fun s => s.handover m tr seq.toNat successor.toNat)

/-- HANDOVER with ACCEPT (R104). -/
def State.accept (m : Master) (tr : Transport) (seq : Nat) (s : State) : State :=
  let id := masterId m
  let pending := match s.own.acceptBy with
    | some a => s.now < a && s.num Obj.handoverSuccessor = id
    | none => false
  if !pending then s.answerErr m tr seq 0 Err.noHandover 0
  else (((s.clearHandover).setOwner id).renew).updateOwner.answer m tr Oap.handover 0 seq 0 []

/-- HANDOVER_ACCEPT. -/
def execHandoverAccept (m : Master) (tr : Transport) (t : Nat) (seq : BitVec 16) (s : State) : Res :=
  .next (s.fullRequest m tr t seq.toNat 0 fun s => s.accept m tr seq.toNat)

end Sys2Proof.Machine
end

