-- ==== Sys2Proof/Machine/Security.lean ====
section
/-! DEFINITION. Identity, signatures and live update (spec/19): firmware slots, the update commands, key slots and
attestation. -/

namespace Sys2Proof.Machine

/-! ## Firmware slots (R68, R504, R505) -/

/-- Flash address of slot 0 (A) or 1 (B). -/
def slotAddr (i : Nat) : Nat := 0x2000000 * i
abbrev slotSize : Nat := 0x2000000

/-- Header bytes 0–127 of an image, over which its digest is taken. -/
def State.slotHead (s : State) (i : Nat) : List Byte := s.flashRead (slotAddr i) 128

/-- Image digest of a header (R504). -/
def imageDigest (h : List Byte) : List Byte := Config.shake256 (h.take 128) 64
def imageVersion (h : List Byte) : Nat := field h 8 4
def imageFormat (h : List Byte) : Nat := field h 14 2

/-- What a slot fails of R505, as UpdateResult codes it: FORMAT, DIGEST, SIGNATURE, ROLLBACK. -/
def State.slotFault (s : State) (i : Nat) : Option Nat :=
  let h := s.flashRead (slotAddr i) 256
  let zero (off n : Nat) : Bool := (slice h off n).all (· = 0)
  let n := field h 16 4
  if field h 0 4 ≠ 0x2D7FA418 || field h 4 1 ≠ 1 || !zero 5 3 || !zero 84 44 || !zero 242 14 || n = 0 || 5242880 < n then
    some 2
  else if Config.shake256 (s.flashRead (slotAddr i + 256) n) 64 ≠ slice h 20 64 then some 3
  else if !Config.ed448Verify Config.vendorPublicKey (imageDigest h) (slice h 128 114) then some 4
  else if field h 12 2 < Config.rollbackFloor.toNat then some 5
  else none

/-- The slot that an update writes: the one not named by BootSlot (R507). -/
def State.targetSlot (s : State) : Nat := 1 - s.num Obj.bootSlot

/-! ## Update (R507–R510) -/

/-- The update is Rejected. -/
def State.rejectUpdate (code : Nat) (s : State) : State :=
  ((s.setNum Obj.updateResult code).setState Obj.updateState 7).bump Obj.updatesRejected 1 |>.setFlag Obj.securityFlags 1

/-- Lease and window timers stop for a pause (R106). -/
def OwnState.shift (p : Nat) (o : OwnState) : OwnState :=
  ⟨o.leaseEnd + p, o.window.map fun (t, l) => (t + p, l), o.acceptBy.map (· + p)⟩

/-- The dictionary pauses for a takeover: a free length of at most 50 ms (R88, log 110). -/
def State.takeoverPause (s : State) : State :=
  let (v, s) := s.fresh
  let p := v.toNat % 50000001
  { s with now := s.now + p, own := s.own.shift p }

/-- The standby takes over: the complexes change places, and the old primary is to be mirrored anew (R22, R483, R508);
once it has, its SPI controller drives the flash (R28). -/
def State.takeOver (s : State) : State :=
  let s := s.takeoverPause
  let s := s.setNum Obj.activeComplex (4 - s.num Obj.activeComplex)
  let s := (s.bump Obj.takeovers 1).setFlag Obj.securityFlags 2
  let s := { s with sec := { s.sec with primary := s.sec.standby, standby := s.sec.primary } }
  { s with store := { s.store with driver := s.num Obj.activeComplex } }

/-- A standby that fails step 1 or 2 of ACTIVATE boots the image of BootSlot again (R508). -/
def State.activateFails (s : State) : State :=
  ({ s with sec := { s.sec with standby := s.slotHead (s.num Obj.bootSlot) } }.setState Obj.standbyState 1).rejectUpdate 6

/-- ACTIVATE with the dictionary served by the firmware (R508). An image of another STATE_FORMAT waits for a reset. Else the
standby boots the target slot, step 1, and mirrors, step 2, until STANDBY_MIRRORED. -/
def State.activateImage (bootFailed : Bool) (s : State) : State :=
  let i := s.targetSlot
  let h := s.slotHead i
  if imageFormat h ≠ imageFormat s.sec.primary then (s.setPersisted Obj.bootSlot (.num i)).setState Obj.updateState 6
  else
    let s := s.setState Obj.updateState 5
    if bootFailed || (s.slotFault i).isSome then s.activateFails
    else ({ s with sec := { s.sec with standby := h, taken := false } }.setState Obj.standbyState 1).setState Obj.standbyState 2

/-- Steps 3 to 5 of ACTIVATE as the standby is mirrored (R508): it takes over, BootSlot is written, and the old primary boots
the new image; once that one is mirrored, the update is at its end. -/
def State.activateMirrored (s : State) : State :=
  if s.num Obj.updateState ≠ 5 then s
  else if s.sec.taken then
    let s := { s with sec := { s.sec with taken := false } }
    ((s.setNum Obj.updateResult 1).setState Obj.updateState 0).bump Obj.updatesActivated 1
  else
    let i := s.targetSlot
    let s := s.takeOver
    let s := (s.setPersisted Obj.bootSlot (.num i)).setNum Obj.activeSlot i
    { s with sec := { s.sec with standby := s.sec.primary, taken := true } }.setState Obj.standbyState 1

/-- ACTIVATE in the recovery service: BootSlot is written and a D reset into the new image follows the answer (R506). -/
def State.activateRecovery (s : State) : State :=
  let k := Obj.bootSlot
  let s := s.setNum k s.targetSlot
  let s := s.appendRec (oneRec k (s.val k))
  { s with rst := { s.rst with soft := some 0x5AA50001 } }

/-- UpdateCommand (R507). -/
def writeUpdateCommand (bootFailed : Bool) : Handler := fun v s =>
  let st := s.num Obj.updateState
  if v.toNat = 1 then
    if st = 0 || st = 7 then .ok ((s.erase (slotAddr s.targetSlot) slotSize).setState Obj.updateState 1)
    else .error Err.refusedInState
  else if v.toNat = 2 then
    if st = 2 then
      let s := s.setState Obj.updateState 3
      match s.slotFault s.targetSlot with
      | none => .ok ((s.setNum Obj.stagedVersion (imageVersion (s.slotHead s.targetSlot))).setState Obj.updateState 4)
      | some code => .ok (s.rejectUpdate code)
    else .error Err.refusedInState
  else if v.toNat = 3 then
    if st = 4 then .ok (if s.rst.serve = Serve.recovery then s.activateRecovery else s.activateImage bootFailed)
    else .error Err.refusedInState
  else if [1, 2, 4, 7].contains st then .ok s.cancelUpdate
  else .error Err.refusedInState

/-- BEGIN (R507). -/
def execBegin (q : Req) (s : State) : Res := .next (serveOwn q Obj.updateCommand [1] (writeUpdateCommand false) s)
/-- VERIFY (R505, R507). -/
def execVerify (q : Req) (s : State) : Res := .next (serveOwn q Obj.updateCommand [2] (writeUpdateCommand false) s)
/-- CANCEL (R507). -/
def execCancel (q : Req) (s : State) : Res := .next (serveOwn q Obj.updateCommand [4] (writeUpdateCommand false) s)

/-- UPDATE_ERASE_DONE (R507): the erased slot receives from offset 0. -/
def execUpdateEraseDone (s : State) : Res :=
  if s.num Obj.updateState = 1 then .next ((s.setNum Obj.updateOffset 0).setState Obj.updateState 2) else .next s

/-- Program bytes at UpdateOffset (R507). -/
def State.programSlot (l : List Byte) (failed : Bool) (s : State) : Except Nat State :=
  let at' := s.num Obj.updateOffset
  if s.num Obj.updateState ≠ 2 then .error Err.refusedInState
  else if slotSize < at' + l.length then .error Err.outOfRange
  else if failed then .ok (s.rejectUpdate 7)
  else .ok ((s.program (slotAddr s.targetSlot + at') l).setNum Obj.updateOffset (at' + l.length))

/-- UpdateChunk. -/
def writeUpdateChunk (failed : Bool) : Handler := fun v s => s.programSlot v.toBytes failed

/-- Bytes at a device address; those that device memory does not give are free values (log 1). -/
def State.bytesOrFree (a n : Nat) (s : State) : List Byte × State :=
  let there (j : Nat) : Bool := s.access (a + j) .ok = .ok &&
    (match s.place (a + j) with | .host _ | .remote _ _ => false | _ => true)
  let (f, s) := if (List.range n).all there then ([], s) else s.freshBytes n
  ((List.range n).map fun j => if there j then s.byte ((a + j) % 0x1000000000000) else f.getD j 0, s)

/-- UpdateFromMemory: 256 + BODY_BYTES bytes, by the header that stands there. -/
def writeUpdateFromMemory (failed : Bool) : Handler := fun v s =>
  if s.num Obj.updateState ≠ 2 then .error Err.refusedInState
  else
    let (h, s) := s.bytesOrFree v.toNat 256
    let n := field h 16 4
    if slotSize < s.num Obj.updateOffset + 256 + n then .error Err.outOfRange
    else
      let (b, s) := s.bytesOrFree (v.toNat + 256) n
      s.programSlot (h ++ b) failed

/-- UPDATE_CHUNK (R507). -/
def execUpdateChunk (q : Req) (val : List Byte) (programFailed : Bool) (s : State) : Res :=
  .next (serveOwn q Obj.updateChunk val (writeUpdateChunk programFailed) s)
/-- UPDATE_FROM_MEMORY (R507). -/
def execUpdateFromMemory (q : Req) (val : List Byte) (programFailed : Bool) (s : State) : Res :=
  .next (serveOwn q Obj.updateFromMemory val (writeUpdateFromMemory programFailed) s)

/-! ## Keys (R511–R513) -/

/-- A KeyEnroll block breaks R511. -/
def badKeyBlock (b : List Byte) : Bool :=
  let zero (off n : Nat) : Bool := (slice b off n).all (· = 0)
  let c := field b 1 1
  8 ≤ field b 0 1 || c = 0 || 4 ≤ c || !zero 2 2 || !zero 61 3 ||
    (if c.testBit 0 then !Config.ed448Point (slice b 4 57) else !zero 4 57) || (!c.testBit 1 && !zero 64 32)

/-- KeyEnroll: the AES key is wrapped under the storage key with an IV of the device's choosing, a free value (log 1). -/
def writeKeyEnroll : Handler := fun v s =>
  let b := v.toBytes
  let k := Obj.keySlot + field b 0 1
  if badKeyBlock b then .error Err.outOfRange
  else if !(s.bytes k).isEmpty then .error Err.refusedInState
  else
    let (iv, s) := s.freshBytes 12
    let ct := Config.gcmStream Config.storageKey iv (slice b 64 32)
    let l := slice b 1 1 ++ List.replicate 3 0 ++ slice b 4 57 ++ List.replicate 3 0 ++ iv ++ ct.take 32 ++
      (Config.gcmTag Config.storageKey iv [] ct).take 16 ++ List.replicate 4 0
    .ok ((s.setPersisted k (.bytes l)).setFlag Obj.securityFlags 8)

/-- The full configuration, a Running region or the bitstream in hand uses a key slot (R513). -/
def State.slotInUse (s : State) (k : Nat) : Bool :=
  (s.num Obj.fabricState = 2 && (s.fab.whole.signSlot = some k || s.fab.whole.encSlot = some k)) ||
    ((List.range 64).any fun r => s.regSt r = Region.running && ((s.region r).signSlot = some k || (s.region r).encSlot = some k)) ||
    match s.cfg.load with
    | none => false
    | some l => 96 ≤ l.hdr.length && (LoadS.signSlot l.hdr = k || (LoadS.enc l.hdr && LoadS.encSlot l.hdr = k))

/-- KeyRevoke. -/
def writeKeyRevoke : Handler := fun v s =>
  if s.slotInUse v.toNat then .error Err.refusedInState
  else .ok ((s.setPersisted (Obj.keySlot + v.toNat) (.bytes [])).setFlag Obj.securityFlags 0x10)

/-- KEY_ENROLL (R511). -/
def execKeyEnroll (q : Req) (val : List Byte) (s : State) : Res := .next (serveOwn q Obj.keyEnroll val writeKeyEnroll s)
/-- KEY_REVOKE (R513). -/
def execKeyRevoke (q : Req) (val : List Byte) (s : State) : Res := .next (serveOwn q Obj.keyRevoke val writeKeyRevoke s)

/-! ## Attestation (R514) -/

/-- n bytes of a value, zero where it is shorter. -/
def fitTo (n : Nat) (l : List Byte) : List Byte := l.take n ++ List.replicate (n - l.length) 0

/-- The report over a nonce, signature included. -/
def State.report (s : State) (nonce : List Byte) : List Byte :=
  let mirrored := s.num Obj.standbyState = 3
  let runs (r : Nat) : Bool := s.regSt r = Region.running
  let flags := b2n s.sec.debugEn + (if s.rst.serve = Serve.recovery then 2 else 0) + (if s.num Obj.updateState = 6 then 4 else 0)
  let slots := (List.range 8).foldl (fun v k => if (s.bytes (Obj.keySlot + k)).isEmpty then v else v + 2 ^ k) 0
  let body := leBytes 4 0x71A3E90C ++ leBytes 1 1 ++ leBytes 1 flags ++ leBytes 2 0 ++ leBytes 4 4576 ++ leBytes 4 0x8150 ++
    fitTo 12 Config.serialNumber ++ leBytes 2 Config.siliconStepping.toNat ++ leBytes 1 slots ++
    leBytes 1 (s.num Obj.activeComplex) ++ fitTo 32 nonce ++ leBytes 8 s.now ++
    leBytes 4 (imageVersion s.sec.primary) ++ leBytes 4 (if mirrored then imageVersion s.sec.standby else 0) ++
    leBytes 4 Config.bootRomVersion.toNat ++
    leBytes 8 ((List.range 64).foldl (fun v r => if runs r then v + 2 ^ r else v) 0) ++ leBytes 4 0 ++
    fitTo 64 (imageDigest s.sec.primary) ++ fitTo 64 (if mirrored then imageDigest s.sec.standby else []) ++
    fitTo 64 (s.bytes Obj.fenceMapDigest) ++ fitTo 64 (s.bytes Obj.fullHeaderDigest) ++
    (List.range 64).flatMap fun r => fitTo 64 (if runs r then (s.region r).hdrDig else [])
  body ++ fitTo 114 (Config.identitySign (Config.shake256 body 64)) ++ List.replicate 14 0

/-- AttestNonce: the report replaces the one before, with its event. -/
def writeAttestNonce : Handler := fun v s =>
  .ok (((s.setBytes Obj.attestReport (s.report v.toBytes)).raise Obj.attestReport 0).bump Obj.attestationsSigned 1)

/-- ATTEST_NONCE (R514). -/
def execAttestNonce (q : Req) (val : List Byte) (s : State) : Res := .next (serveOwn q Obj.attestNonce val writeAttestNonce s)

end Sys2Proof.Machine
end

