-- ==== Sys2Proof/Machine/ResetOps.lean ====
section
/-! DEFINITION. What asserting a reset does at each level (R478–R485, R492, R498): the whole device, a cabinet, a block. -/

namespace Sys2Proof

/-! ## Sources (R480, R484, R491) -/

/-- The cabinet that a source of reach C covers; none for a source of reach M or D. -/
def ResetSource.cabinet : ResetSource → Option Nat
  | .pllCabinet c | .fieldCabinet c | .softCabinet c => some c
  | _ => none

/-- The source's reach is M. -/
def ResetSource.module : ResetSource → Bool
  | .powerOn | .supply => true
  | _ => false

/-- Bit of ResetCause (R499). -/
def ResetSource.cause : ResetSource → Nat
  | .powerOn => 1
  | .supply => 2
  | .rstIn => 4
  | .perst => 8
  | .thermal => 0x10
  | .field => 0x20
  | .software => 0x40
  | .critical => 0x80
  | .pllDevice _ => 0x100
  | _ => 0

end Sys2Proof

namespace Sys2Proof.Machine

/-- A source of reach M or D is asserted. -/
def State.inReset (s : State) : Bool := s.rst.asserted.any fun r => r.cabinet.isNone
/-- A source of reach C is asserted for a cabinet. -/
def State.cabHeld (s : State) (c : Nat) : Bool := s.rst.asserted.any fun r => r.cabinet = some c

/-! ## Level D and M (R479, R485, R489, R498) -/

/-- Cabinets whose rail faulted before the health service ran. -/
def State.setRails (l : List Nat) (s : State) : State := { s with rst := { s.rst with rails := l } }

/-- A reset of the device: everything returns to its reset state but the flash, the TAP, what expanders and other
devices hold, and the latches of the reset controllers. Sources of the reset just left are those asserted since the
device was last out of Starting (R491). -/
def State.resetDevice (src : ResetSource) (s : State) : State :=
  let s := s.loseQueue
  let r := s.rst
  { State.reset with
    pending := s.pending
    free := s.free
    out := s.out
    store := { State.reset.store with flash := s.store.flash }
    mem := s.mem.filter fun e => inCxl e.1
    mm := { State.reset.mm with cxlSet := s.mm.cxlSet, cxlGran := s.mm.cxlGran }
    jobs := { State.reset.jobs with ckpts := s.jobs.ckpts }
    jtag := s.jtag
    rst := { State.reset.rst with
      asserted := src :: r.asserted.filter (· ≠ src)
      module := src.module || r.module
      causes := (if s.num Obj.deviceState = 1 then r.causes else 0) ||| src.cause
      cabExit := (r.asserted.filterMap ResetSource.cabinet).foldl (fun t c => t.put c 0) []
      trips := r.trips
      faults := r.faults
      rails := if s.inReset then r.rails else [] } }

/-- Power comes on: nothing but the flash outlived its absence; whether expanders kept what they held is a free value
(R6, R309, R493). -/
def State.powerUp (s : State) : State :=
  let (v, s) := s.fresh
  { State.reset with
    pending := s.pending
    free := s.free
    out := s.out
    store := { State.reset.store with flash := s.store.flash }
    mem := if v.getLsbD 0 then s.mem.filter (fun e => inCxl e.1) else []
    mm := { State.reset.mm with cxlSet := s.mm.cxlSet, cxlGran := s.mm.cxlGran }
    jobs := { State.reset.jobs with ckpts := s.jobs.ckpts.filter fun e => v.getLsbD 0 || e.1.testBit 63 } }

/-! ## Pins during reset (R485)

GPIO pins follow `State.pinOut`, lanes their ports and the flash pins `State.flashDriver`. -/

/-- The digital outputs of MGMT: SPBUSY, SPDONE and SPERR, at high impedance with their weak pull-ups in an M or D reset and
until step OUTPUTS of the first full load. -/
def State.mgmtOutputs (s : State) : Option (Bool × Bool × Bool) :=
  if s.inReset || !s.cfg.driven then none else some (s.spBusy, s.cfg.port.spdone, s.cfg.port.sperr)

/-- The complex whose SPI controller drives the flash (R28); in an M or D reset, and until step 4 reads the flash, the
outputs of both base dies are at high impedance (log 142). -/
def State.flashDriver (s : State) : Option Nat := if s.inReset || s.rst.exitDone < 3 then none else some s.store.driver

/-- A CAN FD transmit output is recessive whatever its queue holds: in a reset, and until the firmware serves (log 142). -/
def State.canRecessive (s : State) : Bool := s.inReset || s.rst.serve = .none

/-- Transmitters of a serial port are in electrical idle: in Disabled and Lost. -/
def State.laneIdle (s : State) (p : Nat) : Bool := s.inReset || s.portSt p = Port.disabled || s.portSt p = Port.lost

/-- A CXL port's transmitters are in electrical idle. -/
def State.cxlIdle (s : State) (p : Nat) : Bool := s.inReset || s.num (Obj.cxlPortState + p) = 0

/-! ## Trims (R486, R487) -/

/-- The commit word of the shadows of the device's spine rails stands: the load of step 2 has completed. Every later step of
the exit waits for it. -/
def State.spineCommit (s : State) : Bool := !s.inReset && 2 ≤ s.rst.exitDone

/-- The commit word of a cabinet's shadows stands: cleared by a reset that covers them, written by step 1 of its exit. -/
def State.cabinetCommit (s : State) (c : Nat) : Bool :=
  match s.rst.cabExit.find? c with
  | some n => !s.cabHeld c && 1 ≤ n
  | none => s.spineCommit

/-! ## Level C (R375, R391, R407, R479, R492) -/

/-- Values of rights RO and W1C of a range of keys return to their defaults (R47). -/
def State.dfltObjs (lo hi : Nat) (s : State) : State :=
  { s with obj := s.obj.filter fun e => !(lo ≤ e.1 && e.1 < hi &&
      match rowOf e.1 with
      | some r => r.acc = Access.ro || r.acc = Access.w1c
      | none => false) }

/-- The removed rows of a cabinet whose RowsRemoved returns to its default leave the device's count (R288). -/
def State.uncountRows (c : Nat) (s : State) : State :=
  let n := sumBy (List.range 150) fun t =>
    let v := s.num (tileKey Obj.rowsRemoved (150 * c + t))
    ((List.range 16).filter (v.testBit ·)).length
  s.setNum Obj.rowsRemovedTotal (s.num Obj.rowsRemovedTotal - n)

/-- Loads when a cabinet of their target is reset (R378). -/
def State.loadReset (c : Nat) (s : State) : State :=
  match s.cfg.load with
  | none => s
  | some l => s.setLoad { l with gone := c :: l.gone }

/-- The blocks of a cabinet's rail are reset; every job that R279 would name for its loss recovers under rung 5. -/
def State.resetCabinet (c : Nat) (s : State) : State :=
  let s := s.bump Obj.cabinetResets 1
  if s.lost c then s
  else
    let hit := s.jobsAt c
    let pages := s.pagesAt c
    let s := (s.setState (Obj.cabinetHealth + c) 2).setState (Obj.gddrCabinetState + c) 1
    let s := ((s.unpark c).setState (Obj.clockState + c) 1).setState (Obj.clockState + 8 + c) 1
    let s := { s with rst := { s.rst with cabExit := s.rst.cabExit.put c 0 } }
    let s := (s.dropCabinet c true).skipChange c
    let s := (List.range 150).foldl (fun s t => s.setState (tileKey Obj.tileState (150 * c + t)) 0) s
    let s := (s.setState (Obj.collectorState + 0x10000 * c) 0).stopLoops c
    let s := (s.uncountRows c).dfltObjs (0x300000 + 0x10000 * c) (0x310000 + 0x10000 * c)
    let s := s.dfltObjs (Obj.openStreams + 256 * c) (Obj.landingHighWater + 1 + 256 * c)
    let s := s.endRegions c fun r => if s.regDefined r then Region.empty else Region.undefined
    let s := { s with fab := { s.fab with bare := c :: s.fab.bare } }
    let s := (s.loadReset c).setCfg fun g => { g with reloads := g.reloads.filter fun r => r = 64 || r % 128 / 8 ≠ c }
    let s := ((s.resetChans c).updateBridge c).loseSaved c
    let s := hit.foldl (fun s e => s.takeBack c e.1) s
    let s := (s.endTileRungs c).unloadPages pages
    let s := if s.steppedCab c then s.proposeHere 4 else s
    s.updateHealth

/-- A source of reach C is asserted. Under an M or D reset its blocks are in reset already (R484). -/
def State.assertCabinet (src : ResetSource) (c : Nat) (s : State) : State :=
  let held := s.inReset
  let s := { s with rst := { s.rst with asserted := src :: s.rst.asserted.filter (· ≠ src) } }
  if held then { s with rst := { s.rst with cabExit := s.rst.cabExit.put c 0 } } else s.resetCabinet c

/-! ## Level B (R47, R49, R481, R482) -/

/-- The block satisfies its idle condition (R482). -/
def State.blockIdle (s : State) (code : Nat) : Bool :=
  let c := code % 8
  match code / 8 with
  | 1 => (List.range 32).all fun i => (s.dmaCh (32 * c + i)).st = DmaSt.idle
  | 2 => (s.coll c).slots.isEmpty
  | 3 => (List.range 16).all fun f => (s.feed (16 * c + f)).st ≤ 1
  | 4 => s.loaderSt = Loader.idle && s.num Obj.scrubState ≠ 3
  | 5 => s.num Obj.scrubState ≠ 3
  | 6 => s.lockSt = Lock.idle
  | _ => !(s.dict.held.any fun o => o.tr = (if c = 0 then Transport.fna else .fnb))

/-- A field-network port as its controller comes up: ErrorActive, or Monitoring without a node ID (R94, R482). -/
def State.canUp (p : CanPort) (s : State) : State :=
  s.setState (match p with | .fna => Obj.fnaState | .fnb => Obj.fnbState) (if s.num Obj.nodeId = 0 then 4 else 1)

/-- A block is reset and leaves its reset: values of rights RO and W1C at their defaults, kept values in force (R47, R49),
and the effect of its row. -/
def State.resetBlock (code : Nat) (s : State) : State :=
  let c := code % 8
  let s := s.bump Obj.blockResets 1
  match code / 8 with
  | 1 => (List.range 32).foldl (fun s i => s.setDma (32 * c + i) (s.dmaCh (32 * c + i)).clear) s
  | 2 => (s.setColl c Collector.empty).dfltObjs (Obj.collectorState + 0x10000 * c) (Obj.combineReplays + 1 + 0x10000 * c)
  | 3 => (List.range 16).foldl (fun s f =>
      s.modFeed (16 * c + f) fun d => { FeedS.off with st := d.st, ended := d.ended, capSt := d.capSt }) s
  | 4 =>
    let s := s.setHost fun h => { h with window := [], discard := 0 }
    s.dfltObjs Obj.loadSource (Obj.configFlags + 1)
  | 5 =>
    let s := s.dfltObjs Obj.scrubPasses (Obj.scrubFlags + 1)
    if s.num Obj.scrubState = 0 then s.newPass else s.newPass.setState Obj.scrubState 1
  | 6 =>
    let s := { s with lock := { State.reset.lock with inEffect := s.lock.inEffect } }
    (s.dfltObjs Obj.currentStep (Obj.lockstepFlags + 1)).dfltObjs Obj.neighbourSlack (Obj.neighbourSlack + 64)
  | _ =>
    let (p, n) := if c = 0 then (CanPort.fna, Obj.fnaBusOffs) else (.fnb, Obj.fnbBusOffs)
    (s.setNum n 0).canUp p

/-- HeldResets follows the holds. -/
def State.setHolds (l : List Nat) (s : State) : State :=
  ({ s with rst := { s.rst with heldBlocks := l } }).setNum Obj.heldResets l.length

/-- A B reset is asserted; with HOLD it stays (R481). -/
def State.assertBlock (code : Nat) (hold : Bool) (s : State) : State :=
  let s := s.resetBlock code
  if hold && !s.rst.heldBlocks.contains code then s.setHolds (s.rst.heldBlocks ++ [code]) else s

/-! ## SoftwareReset and ReleaseReset (R481, R482) -/

/-- SoftwareReset: an accepted write is answered first; a B reset of a block that is not idle is refused. -/
def writeSoftwareReset : Handler := fun v s =>
  let n := v.toNat
  if bits n 0 2 = 3 && !s.blockIdle (bits n 8 8) then .error Err.refusedInState
  else .ok { s with rst := { s.rst with soft := some n } }

/-- The reset that an answered write asked for is asserted. -/
def State.assertSoft (s : State) : State :=
  match s.rst.soft with
  | none => s
  | some n =>
    let s := { s with rst := { s.rst with soft := none } }
    let t := bits n 8 8
    match bits n 0 2 with
    | 1 => s.resetDevice .software
    | 2 => if h : t < 8 then s.assertCabinet (.softCabinet ⟨t, h⟩) t else s
    | 3 => s.assertBlock t (n.testBit 2)
    | _ => s

/-- ReleaseReset: the block leaves its reset unless a wider source covers it (R484). -/
def writeReleaseReset : Handler := fun v s =>
  .ok ((s.setHolds (s.rst.heldBlocks.filter (· ≠ v.toNat))).flushHeld.feedsTry false)

end Sys2Proof.Machine
end

