-- ==== Sys2Proof/Machine/Reset.lean ====
section
/-! DEFINITION. What asserts a reset (R480, R481, R92), how errors in critical state are answered (R483), and the
activation of an image, which may end in one (R506, R508). -/

namespace Sys2Proof.Machine

/-! ## Sources outside the dictionary (R480, R493, R497) -/

/-- POWER_ON (R480, R493). -/
def execPowerOn (s : State) : Res := .next s.powerUp

/-- SUPPLY_FAULT (R493): of the input or a shared rail, a reset of reach M; of a cabinet rail, the loss of the cabinet. -/
def execSupplyFault (rail : Option Cab) (s : State) : Res :=
  let noted (s : State) : State := { s with rst := { s.rst with faults := s.rst.faults + 1 } }
  match rail with
  | none => .next ((noted s).resetDevice .supply)
  | some c =>
    .next (if s.serving then (s.bumpPersisted Obj.supplyFaults 1).loseCabinet c true
      else (noted s).setRails (c.val :: s.rst.rails))

/-- RST_IN (R480): a low below 100 ns is ignored, one of 1 µs resets the device; between them a free value decides
(log 1). -/
def execRstIn (lowNs : Nat) (s : State) : Res :=
  if lowNs < 100 then .next s
  else if 1000 ≤ lowNs then .next (s.resetDevice .rstIn)
  else
    let (v, s) := s.fresh
    .next (if v.getLsbD 0 then s.resetDevice .rstIn else s)

/-- PERST (R480). -/
def execPerst (s : State) : Res := .next (s.resetDevice .perst)

/-- THERMAL_TRIP (R497). -/
def execThermalTrip (s : State) : Res :=
  .next ({ s with rst := { s.rst with trips := s.rst.trips + 1 } }.resetDevice .thermal)

/-- Domain of R29 whose PLL loss resets the device: not HCLK, TCK, SPCLK, nor DSCLK in bound mode, which no fixed PLL
gives. -/
def State.pllDomain (s : State) (d : Nat) : Bool :=
  d ≠ 16 && d ≠ 22 && d ≠ 23 && (d ≠ 24 || !s.lock.bound)

/-- PLL_LOCK_LOSS (R480, R500): a C reset for ACLKc or BCLKc, a D reset for any other. -/
def execPllLockLoss (dom : Fin 25) (s : State) : Res :=
  if s.rst.exitDone < 3 || !s.pllDomain dom then .next s
  else
    let s := (s.bump Obj.pllLockLosses 1).setFlag Obj.clockFlags 1
    if h : dom.val < 16 then
      let c : Cab := ⟨dom.val % 8, by omega⟩
      .next ((s.setState (Obj.clockState + dom) 3).assertCabinet (.pllCabinet c) c)
    else .next (s.resetDevice (.pllDevice ⟨dom.val - 16, by omega⟩))

/-! ## Requests for a reset (R92, R481, R482) -/

/-- SOFTWARE_RESET_D (R481). -/
def execSoftwareResetD (q : Req) (val : List Byte) (s : State) : Res :=
  .next (serveOwn q Obj.softwareReset val writeSoftwareReset s).assertSoft
/-- SOFTWARE_RESET_C (R481). -/
def execSoftwareResetC (q : Req) (val : List Byte) (s : State) : Res :=
  .next (serveOwn q Obj.softwareReset val writeSoftwareReset s).assertSoft
/-- SOFTWARE_RESET_B (R481, R482). -/
def execSoftwareResetB (q : Req) (val : List Byte) (s : State) : Res :=
  .next (serveOwn q Obj.softwareReset val writeSoftwareReset s).assertSoft
/-- RELEASE_RESET (R481). -/
def execReleaseReset (q : Req) (val : List Byte) (s : State) : Res :=
  .next (serveOwn q Obj.releaseReset val writeReleaseReset s)

/-- State of a field-network port. -/
def State.canState (s : State) (p : CanPort) : Nat := s.num (match p with | .fna => Obj.fnaState | .fnb => Obj.fnbState)
/-- Block code of a port's controller (R482). -/
def canBlock : CanPort → Nat
  | .fna => 0x38
  | .fnb => 0x39
/-- A port takes frames: its controller runs and is neither bus-off nor held in reset. -/
def State.canTakes (s : State) (p : CanPort) : Bool :=
  s.rst.serve ≠ .none && (s.canState p = 1 || s.canState p = 2 || s.canState p = 4) && !s.blockHeld (canBlock p)

/-- The frame is addressed to this device by a node (R90). -/
def State.canFor (s : State) (id : BitVec 29) : Bool :=
  let n := id.toNat
  bits n 0 11 = 0 && bits n 11 7 ≠ 0 && s.num Obj.nodeId ≠ 0 && bits n 18 7 = s.num Obj.nodeId

/-- The reset that FieldResetReach names; a B reset of a block that is not idle is ignored and counted (R481, R482). -/
def State.fieldReset (s : State) : State :=
  let n := s.num Obj.fieldResetReach
  let t := bits n 8 8
  match bits n 0 2 with
  | 1 => s.resetDevice .field
  | 2 => if h : t < 8 then s.assertCabinet (.fieldCabinet ⟨t, h⟩) t else s
  | _ => if s.blockIdle t then s.assertBlock t false else s.bump Obj.resetRequestsRefused 1

/-- RESET_COMMAND_FRAME (R90, R92, R489): obeyed from the owner alone, else counted; neither while the firmware does not
serve. -/
def execResetCommandFrame (port : CanPort) (t : Nat) (id : BitVec 29) (data : List Byte) (s : State) : Res :=
  let s := s.upto t
  if bits id.toNat 25 4 ≠ 1 || !s.canTakes port || !s.canFor id || s.rst.serve = .recovery then .next s
  else if data = (0x5A : Byte) :: List.replicate 7 0 && s.num Obj.owner = 0x40 + bits id.toNat 11 7 then .next s.fieldReset
  else .next (s.bump Obj.resetCommandsIgnored 1)

/-! ## The management complexes (R22, R483, R510) -/

/-- The slot that the boot ROM boots: that of BootSlot, else the other (R506). -/
def State.bootable (s : State) (b : Nat) : Option Nat :=
  if (s.slotFault b).isNone then some b else if (s.slotFault (1 - b)).isNone then some (1 - b) else none

/-- The other complex boots and is to be mirrored. -/
def State.rebootStandby (s : State) : State :=
  match s.bootable (s.num Obj.bootSlot) with
  | none => s.setState Obj.standbyState 0
  | some i => { s with sec := { s.sec with standby := s.slotHead i } }.setState Obj.standbyState 1

/-- The primary complex is reset: a mirrored standby takes over, an update before ACTIVATE is at an end; without one, a
D reset of cause CRITICAL. -/
def State.failPrimary (s : State) : State :=
  let s := s.bump Obj.complexResets 1
  if s.num Obj.standbyState ≠ 3 then s.resetDevice .critical
  else
    let s := s.takeOver
    let s := if [1, 2, 3, 4].contains (s.num Obj.updateState) then s.setState Obj.updateState 0 else s
    s.rebootStandby.updateHealth

/-- WATCHDOG_EXPIRY (R22, R480, R483). -/
def execWatchdogExpiry (s : State) : Res := .next (if s.serving then s.failPrimary else s)

/-- COMPLEX_CRITICAL_ERROR (R483). -/
def execComplexCriticalError (primary : Bool) (s : State) : Res :=
  if !s.serving then .next s
  else
    let s := s.setFlag Obj.healthFlags 0x40
    if primary then .next s.failPrimary
    else
      let s := (s.bump Obj.complexResets 1).rebootStandby
      .next (if s.num Obj.updateState = 5 && !s.sec.taken then s.rejectUpdate 6 else s).updateHealth

/-- STANDBY_MIRRORED (R22, R483, R508): a step of an ACTIVATE in hand follows. -/
def execStandbyMirrored (s : State) : Res :=
  let st := s.num Obj.standbyState
  .next (if s.serving && (st = 1 || st = 2) then (s.setState Obj.standbyState 3).activateMirrored.updateHealth else s)

/-! ## Other critical state (R483) -/

/-- CLOCK_CONTROLLER_UPSET: repaired from the good copy, or reset and reloaded; the PLLs run on. -/
def execClockControllerUpset (_spine : Cab) (bothBad : Bool) (s : State) : Res :=
  if !s.serving then .next s
  else
    let s := (s.bump Obj.clockControllerResets 1).setFlag Obj.healthFlags 0x40
    .next (if bothBad then s.setFlag Obj.clockFlags 2 else s)

/-- STEERING_PARITY_ERROR: passes in flight are discarded, and every drawer holds while the registers are reloaded from
TileFenceMap (R140, R282). -/
def execSteeringParityError (g : Tile) (s : State) : Res :=
  if !s.serving || s.lost (cabOf g) || s.inCReset (cabOf g) then .next s
  else
    let s := (s.discardTile g).underHold g fun s => (s.loadSteer g).recountRows g
    .next ((s.bump Obj.steeringReloads 1).setFlag Obj.healthFlags 0x40)

/-- FENCE_STORE_ERROR: the health service's copy of the maps is reloaded from the newest valid records (R74); steering is
unchanged. -/
def execFenceStoreError (s : State) : Res :=
  if !s.serving then .next s
  else
    let w := s.winners
    let s := (List.range 8).foldl (fun s c =>
      let k := Obj.tileFenceMap + c
      s.setVal k (((w.find? k).bind fun e => s.fitVal e).getD (dfltOf k))) s
    .next ((s.recountMaps.bump Obj.fenceStoreReloads 1).setFlag Obj.healthFlags 0x40)

/-- ROUTE_ENTRY_PARITY_ERROR: the entry is reloaded from the dictionary's copy and the flit then routed. -/
def execRouteEntryParityError (_multicast : Bool) (_table : Fin 17) (_entry : BitVec 12) (s : State) : Res :=
  if !s.serving then .next s else .next ((s.bump Obj.routeEntryReloads 1).setFlag Obj.healthFlags 0x40)

/-! ## Activation (R506, R508) -/

/-- ACTIVATE (R506, R508); the operand tells whether the standby fails step 1. -/
def execActivate (q : Req) (bootFailed : Bool) (s : State) : Res :=
  .next (serveOwn q Obj.updateCommand [3] (writeUpdateCommand bootFailed) s).assertSoft

end Sys2Proof.Machine
end

