-- ==== Sys2Proof/Machine/Exit.lean ====
section
/-! DEFINITION. Leaving resets: the release of a source (R484, R519), the device exit order (R488–R491) and the exit of a
cabinet (R492). -/

namespace Sys2Proof.Machine

/-! ## Release (R480, R484, R519) -/

/-- The last source of reach M or D is released: the straps are sampled and the exit begins at its first step. -/
def State.beginExit (s : State) : State :=
  let s := { s with
    rst := { s.rst with releasedAt := s.now, exitDone := 0 }
    sec := { s.sec with
      nodeId := Config.strapNodeId.toNat
      bootSel := Config.strapBootSel.toNat
      debugEn := Config.strapDebugEn } }
  (s.setNum Obj.debugEnabled (b2n s.sec.debugEn)).setNum Obj.startupStep (if s.rst.module then 1 else 2)

/-- RESET_RELEASE (R484): a narrower source released under a wider one changes nothing more. -/
def execResetRelease (src : ResetSource) (s : State) : Res :=
  if !s.rst.asserted.contains src then .next s
  else
    let s := { s with rst := { s.rst with asserted := s.rst.asserted.filter (· ≠ src) } }
    match src.cabinet with
    | some c =>
      if s.inReset && !s.cabHeld c then .next { s with rst := { s.rst with cabExit := s.rst.cabExit.del c } } else .next s
    | none => .next (if s.inReset then s else s.beginExit)

/-! ## Steps of the device exit order (R488, R490) -/

/-- A step of the exit order is complete; StartupStep reports the one in progress. -/
def State.stepDone (n next : Nat) (s : State) : State :=
  { s with rst := { s.rst with exitDone := n } }.setNum Obj.startupStep next

/-- A step cannot complete: class 2 failure (R490). -/
def State.exitFailed (n : Nat) (s : State) : State := (s.setNum Obj.failedStep n).setState Obj.deviceState 3

/-- A cabinet is in C reset or its own exit, and no exit of the device touches it (R484). -/
def State.apart (s : State) (c : Nat) : Bool := s.inCReset c

/-- Step 3: every fixed domain runs but those of a cabinet in C reset; the link trains from here on (step 5). -/
def State.exitClocks (s : State) : State :=
  let s := (List.range 25).foldl (fun s d =>
    s.setState (Obj.clockState + d) (if d < 16 && s.apart (d % 8) then 1 else 2)) s
  let s := (List.range 8).foldl (fun s c => s.setState (Obj.cabinetPowerState + c) 1) s
  (s.setState Obj.oscillatorState 1).setState Obj.hostLinkState 1

/-- The slot that BootSlot names in the store. -/
def State.bootSlotStored (s : State) : Nat :=
  (((s.winners.find? Obj.bootSlot).bind fun e => s.fitVal e).getD (dfltOf Obj.bootSlot)).toNat

/-- Both complexes run an image. -/
def State.bootFrom (i : Nat) (s : State) : State :=
  let h := s.slotHead i
  ({ s with sec := { s.sec with primary := h, standby := h } }.setNum Obj.activeSlot i).setState Obj.standbyState 2

/-- Step 4, boot: the boot ROM takes the slot of BootSlot or the other; with neither, its recovery service (R490, R506). -/
def State.exitBoot (s : State) : State :=
  let b := s.bootSlotStored
  match s.bootable b with
  | some i =>
    let s := s.bootFrom i
    let s := if i = b then s else s.setFlag Obj.securityFlags 4
    { s with rst := { s.rst with serve := Serve.boot } }
  | none =>
    let s := s.loadStore
    { s with rst := { s.rst with serve := Serve.recovery } }.exitFailed 4

/-- Node ID and its source (R94). -/
def State.latchNode (s : State) : State :=
  let v := s.num Obj.nodeIdOverride
  let (id, src) := if v ≠ 0 then (v, 1) else if s.sec.nodeId ≠ 0 then (s.sec.nodeId, 0) else (0, 2)
  (((s.setNum Obj.nodeId id).setNum Obj.nodeIdSource src).canUp .fna).canUp .fnb

/-- Step 4, load: the store's values are in force, and those that wait for a reset are latched (R49, R75, R94, R257, R334,
R445); the operand lists the GPIO banks whose supply fails. -/
def State.exitLoad (failures : List Nat) (s : State) : State :=
  let s := { s.loadStore with rst := { s.loadStore.rst with serve := Serve.full } }
  let s := s.latchNode.setNum Obj.deviceNumberInForce (s.num Obj.deviceNumber)
  let s := s.interleave (s.num Obj.interleaveSet) (s.num Obj.interleaveGranularity)
  let s := { s with fab := { s.fab with volts := (List.range 10).map fun b => s.num (Obj.gpioBankVoltage + b) } }
  let s := (List.range 10).foldl (fun s b => s.setState (Obj.gpioBankState + b) (if failures.contains b then 2 else 1)) s
  let s := (List.range 8).foldl (fun s c =>
    if s.apart c then s.setState (Obj.cabinetHealth + c) 2 else s.setState (Obj.gddrCabinetState + c) 1) s.recountMaps
  let lost := s.rst.rails.eraseDups
  lost.foldl (fun s c => s.loseCabinet c true) (s.setRails []).takeScrubSettings

/-- Highest available operating point. -/
def topPoint (bitsOf : Nat) : Nat :=
  (List.range 4).foldl (fun v i => if bitsOf.testBit i then 28 + 4 * i else v) 0

/-- Step 6: the CXL ports that enumerate: Training, Up, Configured (R255–R257, R269). Width and rate that a link trains to are free values (log 1). -/
def State.exitCxl (failures : List Nat) (s : State) : State :=
  let size (p : Nat) : Nat := if failures.contains (8 + p) then 0 else min (Config.cxlExpander p) 0x20000000000
  let w := s.cxlWays
  (List.range 4).foldl (fun s p =>
    if size p = 0 then s
    else
      let (v, s) := s.fresh
      let s := (s.setNum (Obj.cxlLinkWidth + p) ([16, 8, 4].getD (v.toNat % 3) 16)).setNum (Obj.cxlLinkRate + p)
        ([8, 16, 32, 64].getD (v.toNat / 4 % 4) 64)
      let used := (List.range w).foldl (fun m i => min m (size (p / w * w + i))) (size p)
      ([1, 2, 3].foldl (fun s st => s.setState (Obj.cxlPortState + p) st) s).setNum (Obj.cxlCapacity + p) used) s

/-- The point that controllers load: OperatingPoint, or the highest available one (R246). -/
def State.pointToLoad (s : State) : Nat :=
  let want := s.num Obj.operatingPoint
  if (s.num Obj.availablePoints).testBit (pointBit want) then want else topPoint (s.num Obj.availablePoints)

/-- Step 6: GDDR7 comes up at an available point (R245, R246). The operand lists cabinets that fail, and 8 + p for a CXL
port that does not enumerate. -/
def State.exitMemory (failures : List Nat) (s : State) : State :=
  let have' := availableNow
  let s := s.setNum Obj.availablePoints have'
  let s := if have' = 15 then s else s.setFlag Obj.gddrFlags 4
  let s := s.setNum Obj.activeOperatingPoint s.pointToLoad
  let bad (c : Nat) : Bool := have' = 0 || failures.contains c
  let s := s.exitCxl failures
  let s := (List.range 8).foldl (fun s c =>
    if s.apart c || s.lost c then s
    else if bad c then (s.setState (Obj.gddrCabinetState + c) 4).loseCabinet c false
    else (s.memoryUp c s.pointToLoad).setState (Obj.gddrCabinetState + c) 2) s
  if (List.range 8).all s.lost then s.exitFailed 6 else s.stepDone 6 7

/-- Physical sites of a tile that a self-test finds failing: 272 g + 17 shelf + site in the operand. -/
def failingSites (failures : List Nat) (g : Nat) : List (Nat × Nat) :=
  ((failures.filter fun n => n / 272 = g).map fun n => (n % 272 / 17, n % 17)).eraseDups

/-- Start-up self-test of a tile (R146, R283): Offline, then Bench, then Service or Retired. -/
def State.testTile (g : Nat) (failures : List Nat) (s : State) : State :=
  let k := tileKey Obj.tileState g
  let s := s.loadSteer g
  if s.retired g then (s.recountRows g).setState k 3
  else
    let bad := failingSites failures g
    let s := (s.setState k 1).setNum (tileKey Obj.benchResult g) (benchWord bad)
    let l := s.tileCodes g
    let down := bad.filter fun e => codeIn l e.1 e.2 ≠ 1
    let up := (((List.range 16).flatMap fun sh => (List.range 17).map fun st => (sh, st)).filter fun e =>
      codeIn l e.1 e.2 = 2).filter fun e => !bad.contains e
    let s := if down.isEmpty then s else s.putCodes g down 1
    let s := if up.isEmpty then s else s.putCodes g up 0
    (s.recountRows g).settleTile g

/-- Start-up self-test of a cabinet; a changed map is written as one record (R282, R283). -/
def State.selfTest (c : Nat) (failures : List Nat) (s : State) : State :=
  let k := Obj.tileFenceMap + c
  let old := s.bytes k
  let s := (List.range 150).foldl (fun s t => s.testTile (150 * c + t) failures) s
  let s := if s.bytes k = old then s else s.persist k
  s.recountMaps

/-- Kept values of a cabinet's objects reach its controllers (R49). -/
def State.keptProbes (c : Nat) (s : State) : State :=
  { s with lock := { s.lock with inEffect := s.lock.inEffect.put c (s.bytes (Obj.probeSelects + 256 * c)) } }

/-- Step 7: the tiles of every cabinet that is neither lost nor in C reset. -/
def State.exitTiles (failures : List Nat) (s : State) : State :=
  (List.range 8).foldl (fun s c =>
    if s.apart c || s.lost c then s else ((s.selfTest c failures).keptProbes c).setState (Obj.cabinetHealth + c) 1) s

/-- Step 8: ports with PortEnable 1 enter BringUp (R437); step 9 begins. -/
def State.exitPorts (s : State) : State :=
  let s := (List.range 24).foldl (fun s p =>
    if s.num (Obj.portEnable + p) = 1 && s.portSt p = Port.disabled then s.startPort p else s) s
  s.stepDone 8 9

/-- An autoload still runs. -/
def State.autoloading (s : State) : Bool :=
  s.cfg.auto.isSome || (match s.cfg.load with | some l => l.src = 5 | none => false)

/-- Step 10: what the health service writes when the device is Operational (R491, R493, R497). -/
def State.exitEnd (s : State) : State :=
  let r := s.rst
  let s := s.setPersisted Obj.resetCause (.num (if r.causes.testBit 0 then 1 else r.causes))
  let s := s.bumpPersisted Obj.resetCount 1
  let s := s.setNum Obj.startupTimeUs (min ((s.now - r.releasedAt) / 1000) 0xFFFFFFFF)
  let s := if r.trips = 0 then s else s.bumpPersisted Obj.thermalTrips r.trips
  let s := if r.faults = 0 then s else s.bumpPersisted Obj.supplyFaults r.faults
  ({ s with rst := { s.rst with trips := 0, faults := 0 } }.setState Obj.deviceState 2).stepDone 10 10

/-- The step of R488 that is to complete next; step 5 runs alongside step 4. -/
def State.nextExit (s : State) : Nat :=
  match s.rst.exitDone with
  | 0 => if s.rst.module then 1 else 2
  | 4 => 6
  | n => n + 1

/-- One step of the exit order completes. -/
def State.exitStep (step : Nat) (failures : List Nat) (s : State) : State :=
  match step with
  | 1 => { s with rst := { s.rst with module := false } }.stepDone 1 2
  | 2 =>
    if 3 ≤ failures.length then (s.setNum Obj.trimLoads 3).exitFailed 2
    else (s.setNum Obj.trimLoads (failures.length + 1)).stepDone 2 3
  | 3 => s.exitClocks.stepDone 3 4
  | 4 => if s.rst.serve = Serve.none then s.exitBoot else (s.exitLoad failures).stepDone 4 6
  | 6 => s.exitMemory failures
  | 7 => (s.exitTiles failures).stepDone 7 8
  | 8 => s.exitPorts.startAutoload
  | 9 => if s.autoloading then s else (s.stepDone 9 10).takeScrubSettings
  | 10 => s.exitEnd
  | _ => s

/-- DEVICE_EXIT (R488, R490): the next step of the order completes, and no other. Step 4 takes two commands, the boot and
the load of the store. -/
def execDeviceExit (step : Fin 11) (failures : List Nat) (s : State) : Res :=
  if s.inReset || s.num Obj.deviceState ≠ 1 || step.val ≠ s.nextExit then .next s else .next (s.exitStep step failures)

/-! ## The exit of a cabinet (R492) -/

/-- A step of the cabinet exit is complete. -/
def State.cabStep (c n : Nat) (s : State) : State := { s with rst := { s.rst with cabExit := s.rst.cabExit.put c n } }

/-- The exit ends: kept values are written back (R49) and the cabinet is Ready. -/
def State.cabReady (c : Nat) (s : State) : State :=
  let s := { s with rst := { s.rst with cabExit := s.rst.cabExit.del c } }
  (((s.keptProbes c).setState (Obj.cabinetHealth + c) 1).feedsTry false).updateHealth

/-- CABINET_EXIT (R486, R487, R492): the operand lists failed trim loads (step 1), any failure of bring-up (step 3), or
failing sites (step 4). -/
def execCabinetExit (c : Cab) (step : Fin 6) (failures : List Nat) (s : State) : Res :=
  if s.inReset || s.rst.exitDone < 4 || s.cabHeld c || s.rst.cabExit.find? c.val ≠ some (step.val - 1) || step.val = 0 then .next s
  else
    let c := c.val
    match step.val with
    | 1 => .next (if 3 ≤ failures.length then s.loseCabinet c false else s.cabStep c 1)
    | 2 => .next (((s.setState (Obj.clockState + c) 2).setState (Obj.clockState + 8 + c) 2).cabStep c 2)
    | 3 =>
      if failures.isEmpty then .next (((s.memoryUp c s.pointToLoad).setState (Obj.gddrCabinetState + c) 2).cabStep c 3)
      else .next ((s.setState (Obj.gddrCabinetState + c) 4).loseCabinet c false)
    | 4 => .next ((s.selfTest c failures).cabStep c 4)
    | _ => .next (s.cabReady c)

end Sys2Proof.Machine
end

