-- ==== Sys2Proof/Machine/Power.lean ====
section
/-! DEFINITION. Parked cabinets (R495) and the throttle of power and heat (R307, R496). -/

namespace Sys2Proof.Machine

/-- Nothing in the cabinet needs ACLKc (R495). -/
def State.restful (s : State) (c : Nat) : Bool :=
  s.tiles.all (fun e => e.1 / 150 ≠ c || e.2.bound.isEmpty) &&
    (List.range 8).all (fun i => s.regSt (8 * c + i) ≠ Region.running) &&
    s.streams.all (fun e => e.1 / 512 ≠ c) &&
    (List.range 32).all (fun i => (s.dmaCh (32 * c + i)).st = DmaSt.idle) &&
    (s.coll c).slots.isEmpty &&
    s.enabledFeeds.all (· / 16 ≠ c)

/-- CABINET_PARK (R495): the cabinet has rested for 1 ms. -/
def execCabinetPark (c : Cab) (s : State) : Res :=
  if s.num (Obj.cabinetPowerState + c) = 1 && s.num (Obj.cabinetHealth + c) = 1 && s.restful c then
    .next ((s.setState (Obj.cabinetPowerState + c) 2).setState (Obj.clockState + c) 4)
  else .next s

/-- CABINET_WAKE (R495). -/
def execCabinetWake (c : Cab) (s : State) : Res := .next (s.unpark c)

/-- A signed byte as its object holds it. -/
def byteOfInt (t : Int) : Nat := (BitVec.ofInt 8 t).toNat

/-- What a window measured: mean input power, and the hottest junction of each cabinet (R496, R501). -/
def State.measure (watts : Nat) (junctions : List Int) (s : State) : State :=
  let s := (s.setNum Obj.inputPower watts).high Obj.inputPowerPeak watts
  let live := (List.range 8).filter fun c => !s.lost c && c < junctions.length
  let s := live.foldl (fun s c => s.setNum (Obj.junctionTemperature + c) (byteOfInt (junctions.getD c 0))) s
  match live.map fun c => junctions.getD c 0 with
  | [] => s
  | t :: r => s.setNum Obj.hottestJunction (byteOfInt (r.foldl max t))

/-- A junction of a live cabinet meets a condition. -/
def State.anyJunction (s : State) (junctions : List Int) (p : Int → Bool) : Bool :=
  (List.range 8).any fun c => !s.lost c && c < junctions.length && p (junctions.getD c 0)

/-- THROTTLE_WINDOW (R307, R496): a window over a limit lowers the target by one eighth, four consecutive low ones raise it;
the tiles follow by THROTTLE_TARGET_ARRIVAL. -/
def execThrottleWindow (watts : BitVec 16) (junctions : List Int) (s : State) : Res :=
  if !s.serving then .next s
  else
    let w := watts.toNat
    let limit := s.num Obj.powerLimit
    let heat : Int := s.num Obj.thermalThrottleC
    let excess := limit < w
    let hot := s.anyJunction junctions fun t => heat < t
    let low := w * 100 < limit * (100 - s.num Obj.throttleMargin) && !s.anyJunction junctions fun t => heat - 5 < t
    let s := s.measure w junctions
    let t := s.num Obj.deviceThrottleTarget
    let wins (n : Nat) (s : State) : State := { s with jobs := { s.jobs with lowWins := n } }
    if excess || hot then
      let s := wins 0 s
      if t = 0 then .next s
      else
        let s := s.setNum Obj.deviceThrottleTarget (t - 1)
        let s := if excess then s.setFlag Obj.powerFlags 1 else s
        .next (if hot then s.setFlag Obj.powerFlags 2 else s)
    else if low then
      if s.jobs.lowWins + 1 < 4 then .next (wins (s.jobs.lowWins + 1) s)
      else .next ((wins 0 s).setNum Obj.deviceThrottleTarget (min 8 (t + 1)))
    else .next (wins 0 s)

end Sys2Proof.Machine
end

