-- ==== Sys2Proof/Machine/Views.lean ====
section
/-! DEFINITION. What reading a subentry gives (R44–R48, R52–R56): the stored value, a value computed from the block that
holds it, or a measurement. -/

namespace Sys2Proof.Machine

/-! ## Where values of a lost cabinet stand (R25) -/

/-- A tile, as last held where its cabinet is lost. -/
def State.tileSeen (s : State) (g : Nat) : TileS := if s.lost (g / 150) then s.gone.tiles.get TileS.empty g else s.tile g
/-- Streams that waiting jobs left Saved, but for those whose number another stream has meanwhile (R239, log 138). -/
def State.savedStreams (s : State) : List (Nat × StreamS) :=
  (s.jobs.jobs.flatMap fun (_, j) => (j.saved.map (·.streams)).getD []).filter fun e => (s.streams.find? e.1).isNone
/-- Streams not Closed, as last held where their cabinet is lost. -/
def State.streamsSeen (s : State) (c : Nat) : List (Nat × StreamS) :=
  (if s.lost c then s.gone.streams else s.streams ++ s.savedStreams).filter fun e => e.1 / 512 = c
def State.streamSeen (s : State) (k : Nat) : Option StreamS :=
  if s.lost (k / 512) then s.gone.streams.find? k
  else (s.streams.find? k).or ((List.find? (fun (e : Nat × StreamS) => e.1 = k) s.savedStreams).map (·.2))

/-! ## Computed values, by object group -/

/-- Identity of the running image (R56, R504), and what the claim arbiter reports (R107). -/
def State.viewIdentity (s : State) (k : Nat) : Option Val :=
  if k = Obj.firmwareVersion then some (.num (imageVersion s.sec.primary))
  else if k = Obj.firmwareDigest then some (.bytes (imageDigest s.sec.primary))
  else if k = Obj.dictionaryVersion then some (.num (Config.dictionaryVersion s.sec.primary).toNat)
  else if k = Obj.leaseRemaining then some (.num s.leaseLeft)
  else none

/-- Bits of the quads that a tile's drawers cover (R141). -/
def TileS.threadStates (t : TileS) : Nat :=
  (List.range 16).foldl (fun v i => v + (t.ctx i).th.st.code * 16 ^ i) 0

/-- BankMap (R211). -/
def TileS.bankMap (t : TileS) : Nat :=
  (List.range t.banks.length).foldl (fun v b => match (t.banks[b]?).bind (·.ctx) with
    | some x => v + (16 + x) * 32 ^ b
    | none => v) 0

/-- Tile fields that follow from its contexts (R141, R211); key of the array's index and element. -/
def State.viewTile (s : State) (k : Nat) : Option Val :=
  let c := k / 0x10000 - 0x30
  let f := k / 256 % 256
  let e := k % 256
  let is (a : Nat) : Bool := 0x300000 ≤ k && k < 0x380000 && f = a / 256 % 256 && 1 ≤ e && e ≤ 150
  let t := s.tileSeen (150 * c + (e - 1))
  if is Obj.drawerCount then some (.num t.bound.length)
  else if is Obj.drawerOccupancy then some (.num t.occupancy)
  else if is Obj.realTimeContexts then
    some (.num (t.bound.foldl (fun v x => if (t.ctx x).dr.rt then v + 2 ^ x else v) 0))
  else if is Obj.threadStates then some (.num t.threadStates)
  else if is Obj.bankMap then some (.num t.bankMap)
  else none

/-- Totals of the selected drawer and job (R136). -/
def State.viewTotals (s : State) (k : Nat) : Option Val :=
  let d := ((s.tileSeen (s.num Obj.selectTile)).ctx (s.num Obj.selectDrawer)).dr
  let j := s.jobTotals.find? (s.num Obj.selectJobId)
  let jn (f : JobTotals → Nat) : Option Val := some (.num ((j.map f).getD 0))
  let dn (n : Nat) : Option Val := some (.num (if d.bound then n else 0))
  if k = Obj.drawerValid then dn 1
  else if k = Obj.drawerJobId then dn d.jobId
  else if k = Obj.drawerSatCount then dn d.total.sat
  else if k = Obj.drawerFlushCount then dn d.total.flush
  else if k = Obj.drawerFlags then dn d.total.flags
  else if k = Obj.jobValid then jn fun _ => 1
  else if k = Obj.jobOperations then jn (·.ops)
  else if k = Obj.jobSatCount then jn (·.cnt.sat)
  else if k = Obj.jobFlushCount then jn (·.cnt.flush)
  else if k = Obj.jobFlags then jn (·.cnt.flags)
  else none

/-- Receivers of a multicast that meet a condition, as a mask. -/
def StreamS.recvMask (m : StreamS) (p : Recv → Bool) : Nat :=
  (List.range m.recv.length).foldl (fun v i => match m.recv[i]? with
    | some r => if p r then v + 2 ^ i else v
    | none => v) 0

/-- Bytes in a multicast's window: units fetched that some receiver still lacks (R229). -/
def StreamS.windowBytes (m : StreamS) : Nat :=
  if m.desc.mcast then 256 * (m.fetched - (m.recv.map (·.delivered)).foldl min m.fetched) else 0

/-- The selected stream (R241); a Closed one reads as at its defaults. -/
def State.viewStream (s : State) (k : Nat) : Option Val :=
  let m := s.streamSeen (512 * s.num Obj.selectCabinet + s.num Obj.selectStream)
  let n (f : StreamS → Nat) : Option Val := some (.num ((m.map f).getD 0))
  let first (f : Recv → Nat) (g : StreamS → Nat) (m : StreamS) : Nat := match m.recv with
    | r :: _ => if m.desc.mcast then f r else g m
    | [] => g m
  if k = Obj.streamState then n (·.st.code)
  else if k = Obj.streamJobId then n (·.jobId)
  else if k = Obj.streamDirection then n (·.desc.dir)
  else if k = Obj.streamKind then n fun m => b2n m.desc.rt + 2 * b2n m.desc.mcast
  else if k = Obj.unitsTotal then n (·.total)
  else if k = Obj.unitsIssued then n (·.issued)
  else if k = Obj.unitsDelivered then n (first (·.delivered) (·.delivered))
  else if k = Obj.unitsFreed then n (first (·.freed) (·.freed))
  else if k = Obj.unitsOutstanding then n (·.inFlight)
  else if k = Obj.positionRecord then some (.bytes ((m.map (·.record)).getD []))
  else if k = Obj.errorCause then n (·.error)
  else if k = Obj.halts then n (·.halts)
  else if k = Obj.receiversAttached then n (·.recvMask (·.attached))
  else if k = Obj.receiversDetached then n (·.recvMask (!·.attached))
  else if k = Obj.windowHeld then n (·.windowBytes)
  else none

/-- Bytes of a cabinet's stream buffer allocated to jobs, as last held where the cabinet is lost. -/
def State.bufferSeen (s : State) (c : Nat) : Nat := if s.lost c then s.gone.buffers.get 0 c else s.bufferHeld c

/-- CabinetStreams (R241). -/
def State.viewCabStreams (s : State) (k : Nat) : Option Val :=
  let c := k / 256 - 0x4020
  let l := s.streamsSeen c
  if !(0x402000 ≤ k && k < 0x402800) then none
  else if k % 256 = Obj.openStreams % 256 then some (.num l.length)
  else if k % 256 = Obj.haltedStreams % 256 then some (.num (l.filter fun e => e.2.st = StreamSt.halted).length)
  else if k % 256 = Obj.realTimeStreams % 256 then some (.num (l.filter fun e => e.2.desc.rt).length)
  else if k % 256 = Obj.outstandingNow % 256 then some (.num (sumBy l fun e => e.2.outst.length))
  else if k % 256 = Obj.jobBufferAllocated % 256 then some (.num (s.bufferSeen c))
  else none

/-- The selected job (R313). -/
def State.viewJob (s : State) (k : Nat) : Option Val :=
  let j := s.job (s.num Obj.jobSelect)
  let n (f : JobS → Nat) : Option Val := some (.num ((j.map f).getD 0))
  if k = Obj.jobState then n (·.st.code)
  else if k = Obj.jobPriority then n (·.desc.prio)
  else if k = Obj.jobKind then n fun j => b2n j.checker
  else if k = Obj.newestCheckpoint then n fun j => j.newest.getD 0
  else if k = Obj.runTimeMs then n fun j => j.runTime s.now / 1000000
  else if k = Obj.sinceCheckpointMs then n fun j => min ((j.runTime s.now - j.ckptNs) / 1000000) 0xFFFFFFFF
  else none

/-- The selected fabric DMA channel (R358). -/
def State.viewChannel (s : State) (k : Nat) : Option Val :=
  let h := s.dmaCh s.selChan
  if k = Obj.channelState then some (.num h.st.code)
  else if k = Obj.currentDescriptor then some (.num h.cur)
  else if k = Obj.nextAddress then some (.num ((h.desc.map fun d => d.beatAddr h.issued).getD 0))
  else if k = Obj.beatsLeft then some (.num (h.left.getD 0xFFFFFFFF))
  else if k = Obj.bufferedBeats then some (.num h.buf.length)
  else if k = Obj.errorAddress then some (.num h.errAddr)
  else if k = Obj.errorInfo then some (.num h.errInfo)
  else if k = Obj.channelBeats then some (.num h.beats)
  else if k = Obj.channelLateWithdrawals then some (.num h.late)
  else none

/-- The region that RegionSelect names, as 8 × cabinet + region. -/
def State.selRegion (s : State) : Nat :=
  let v := s.num Obj.regionSelect
  8 * bits v 0 3 + bits v 3 3

/-- The selected region, and the autoload slots (R386). -/
def State.viewRegion (s : State) (k : Nat) : Option Val :=
  let r := s.region s.selRegion
  if k = Obj.storedImage then some (.num r.image)
  else if k = Obj.regionHeaderDigest then some (.bytes r.hdrDig)
  else if k = Obj.regionBodyDigest then some (.bytes r.bodyDig)
  else if k = Obj.regionLoads then some (.num r.loads)
  else if k = Obj.regionScrubReloads then some (.num r.reloads)
  else if k = Obj.autoloadSlots then some (.num (b2n (s.slotValid 0) + 2 * b2n (s.slotValid 1)))
  else if k = Obj.windowFree then some (.num (65536 - s.host.window.length))
  else none

/-- The selected feed and mark (R429). -/
def State.viewFeed (s : State) (k : Nat) : Option Val :=
  let v := s.num Obj.feedSelect
  let q := 16 * bits v 4 3 + bits v 0 4
  let f := s.feed q
  let n (x : Nat) : Option Val := some (.num x)
  if k = Obj.feedState then n f.st
  else if k = Obj.tileInForce then n ((f.place.map fun p => p.1 % 150).getD 0xFF)
  else if k = Obj.lastRecordStep then n f.lastStep
  else if k = Obj.recordUnits then n (s.feedUnits q)
  else if k = Obj.feedVerdictsOnTime then n f.onTime
  else if k = Obj.feedVerdictMisses then n f.misses
  else if k = Obj.feedUnknownVerdicts then n f.unknown
  else if k = Obj.feedLateVerdicts then n f.late
  else if k = Obj.feedRecordsDropped then n f.lost
  else if k = Obj.minVerdictSlack then n f.minSlack
  else if k = Obj.captureState then n f.capSt
  else if k = Obj.captureFirstStep then n f.capFirst
  else if k = Obj.captureLastStep then n f.capLast
  else if k = Obj.selectedMark then
    some (.bytes (((List.find? (fun e : Nat × List Byte => e.1 = s.num Obj.markSelect) s.trace.marks).map (·.2)).getD []))
  else none

/-- The selected fault record (R288). -/
def State.viewFault (s : State) (k : Nat) : Option Val :=
  if k = Obj.selectedFault then
    some (.bytes (((List.find? (fun e : Nat × List Byte × Bool => e.1 = s.num Obj.faultSelect) s.health.log).map (·.2.1)).getD []))
  else none

/-- The value of a subentry, measurements as last taken. -/
def State.view (s : State) (k : Nat) : Val :=
  (s.viewIdentity k <|> s.viewTile k <|> s.viewTotals k <|> s.viewStream k <|> s.viewCabStreams k <|> s.viewJob k <|>
    s.viewChannel k <|> s.viewRegion k <|> s.viewFeed k <|> s.viewFault k).getD (s.val k)

/-! ## Measurements (log 1) -/

/-- The object holds a measurement, taken as a free value when it is read: a rate, a voltage, a temperature; none where
nothing is measured. -/
def State.measures (s : State) (k : Nat) : Bool :=
  (Obj.clockFrequency ≤ k && k < Obj.clockFrequency + 25 &&
      (let st := s.num (Obj.clockState + (k - Obj.clockFrequency)); st ≠ 0 && st ≠ 4)) ||
    (k = Obj.inputVoltage) || (k = Obj.drefPeriodNs && s.num (Obj.clockState + 24) = 2) ||
    (Obj.gddrHottest ≤ k && k < Obj.gddrHottest + 8 && !s.lost (k - Obj.gddrHottest))

/-- The object counts cycles or replays that no command shows: a read finds any count not below the last one read. -/
def State.countsTime (s : State) (k : Nat) : Bool :=
  let f := k / 256 % 256
  let tile := 0x300000 ≤ k && k < 0x380000 && 1 ≤ k % 256 && k % 256 ≤ 150 &&
    (f = Obj.throttleHeldCycles / 256 % 256 || f = Obj.outputQueueFullCycles / 256 % 256 || f = Obj.bankConflictCycles / 256 % 256 ||
      f = Obj.pepperCycles / 256 % 256)
  (tile && !s.lost (k / 0x10000 - 0x30)) || k = Obj.cxlLinkReplays

/-- Bring a measurement up to date before it is read. -/
def State.sample (k : Nat) (s : State) : State :=
  if s.measures k then
    let (v, s) := s.fresh
    s.setNum k (v.toNat % (maxOf k + 1))
  else if s.countsTime k then
    let (v, s) := s.fresh
    s.high k v.toNat
  else s

/-- Reading a fault record marks it as read (R285, R288). -/
def State.noteRead (k : Nat) (s : State) : State :=
  let seen (p : Nat × List Byte × Bool → Bool) : State :=
    { s with health := { s.health with log := s.health.log.map fun e => if p e then (e.1, e.2.1, true) else e } }
  if k = Obj.selectedFault then seen fun e => e.1 = s.num Obj.faultSelect
  else if k = Obj.lastFault then seen fun e => e.1 = s.num Obj.faultsRecorded
  else s

/-! ## Reads (R44, R48, R489) -/

/-- Why a read fails: not served at this time, no such subentry, or a WO object. -/
def State.readErr (s : State) (k : Nat) : Option Nat :=
  if !servesIdx s.rst.serve (k / 256) then some Err.refusedInState
  else match existsErr k, rowOf k with
    | some e, _ => some e
    | none, none => some Err.noSubindex
    | none, some r => if r.acc = .wo then some Err.readDenied else none

/-- Read a subentry: its value, and the state after. -/
def State.readVal (k : Nat) (s : State) : Val × State :=
  let s := s.sample k
  (s.view k, s.noteRead k)

/-- The bytes of a value in its type's encoding (R81). -/
def valBytes (k : Nat) (v : Val) : List Byte := match rowOf k with
  | some r => encodeVal r.ty v
  | none => v.toBytes

/-- READ served and answered (R80). -/
def State.serveRead (m : Master) (tr : Transport) (seq k : Nat) (s : State) : State :=
  match s.readErr k with
  | some e => s.answerErr m tr seq k e 0
  | none =>
    let (v, s) := s.readVal k
    s.answer m tr Oap.read 0 seq k (valBytes k v)

/-- The entry of a read group's answer for one subentry (R82). -/
def State.groupPart (k : Nat) (s : State) : List Byte × State :=
  let head (code n : Nat) : List Byte := leBytes 2 (k / 256) ++ leBytes 1 (k % 256) ++ leBytes 1 0 ++ leBytes 2 code ++ leBytes 2 0 ++ leBytes 4 n
  match s.readErr k with
  | some e => (head e 0, s)
  | none =>
    let (v, s) := s.readVal k
    let b := valBytes k v
    (head 0 b.length ++ padTo 4 b, s)

/-- READ with GROUP served and answered (R63, R82). -/
def State.serveGroupRead (m : Master) (tr : Transport) (seq k : Nat) (list : List Byte) (s : State) : State :=
  if list.length % 4 ≠ 0 then s.answerErr m tr seq k Err.badLength 0
  else if list.isEmpty || 256 < list.length then s.answerErr m tr seq k Err.readGroupSize 0
  else
    let keys := (List.range (list.length / 4)).map fun i => field list (4 * i) 2 * 256 + field list (4 * i + 2) 1
    let (b, t) := keys.foldl (fun (b, t) k => let (e, t) := State.groupPart k t; (b ++ e, t)) (([] : List Byte), s)
    if 65536 < b.length then s.answerErr m tr seq k Err.readGroupSize 0 else t.answer m tr Oap.read 4 seq k b

/-- A linear-map read of n bytes at a BAR0 offset (R52–R54, R460, R489), given as its value: a READ of the host that the
table has no row for. -/
def State.linearRead (off n : Nat) (s : State) : List Byte × State :=
  let k := off / 0x800 * 256 + off / 8 % 256
  let dword (i : Nat) : Nat := s.host.table.get (if i % 4 = 3 then (if s.host.unmasked.contains (i / 4) then 0 else 1) else 0) i
  if (n ≠ 4 && n ≠ 8) || off % n ≠ 0 || s.rst.serve = .none then (List.replicate n 0, s)
  else if 0x7000000 ≤ off then
    if off < 0x7008000 then
      ((List.range (n / 4)).flatMap fun i => leBytes 4 (dword ((off - 0x7000000) / 4 + i)), s)
    else if off < 0x7008100 then
      (leBytes n ((List.range (8 * n)).foldl (fun v i =>
        if s.host.pendingVec.contains (8 * (off - 0x7008000) + i) then v + 2 ^ i else v) 0), s)
    else (List.replicate n 0, s)
  else match s.readErr k, rowOf k with
    | none, some r =>
      let (v, s) := s.readVal k
      (slice (leBytes 8 (linearForm r.ty v)) (off % 8) n, s)
    | _, _ => (List.replicate n 0, s)

/-! ## Commands -/

/-- READ (R80, R87). -/
def execRead (m : Master) (tr : Transport) (t : Nat) (seq : BitVec 16) (o : ObjId) (s : State) : Res :=
  .next (s.request m tr t seq.toNat (keyOf o) fun s => s.serveRead m tr seq.toNat (keyOf o))

/-- READ_GROUP (R63, R82). -/
def execReadGroup (m : Master) (tr : Transport) (t : Nat) (seq : BitVec 16) (list : List Byte) (s : State) : Res :=
  .next (s.request m tr t seq.toNat 0 fun s => s.serveGroupRead m tr seq.toNat 0 list)

end Sys2Proof.Machine
end

