-- ==== Sys2Proof/Machine/Serve.lean ====
section
/-! DEFINITION. Writes of every object (R46–R48, R53), commit groups at their commit (R59, R60), as the
commands of Transport.lean carry them. -/

namespace Sys2Proof.Machine

/-! ## Handlers -/

/-- Request or response ring of the host moved or resized: the four pointers return to 0 (R95). -/
def writeOapRing : Handler := fun _ s =>
  .ok ((((s.setNum (hostRec Obj.reqTail) 0).setNum (hostRec Obj.reqHead) 0).setNum (hostRec Obj.rspTail) 0).setNum
    (hostRec Obj.rspHead) 0)

/-- CompactThreshold: an area filled beyond the new value is compacted (R76). -/
def writeCompactThreshold : Handler := fun _ s => .ok s.checkFill

/-- StoredImage of the selected region (R381). -/
def writeStoredImage : Handler := fun v s =>
  let r := s.selRegion
  .ok (s.setRegion r { s.region r with image := v.toNat })

/-- StepCommand (R405). -/
def writeStepCommand : Handler := fun v s => if v.toNat = 1 then writeRun v s else writeAbandon v s

/-- Handlers of the command objects (R48). -/
def commandHandler (k : Nat) : Option Handler :=
  if k = Obj.storeSync then some writeStoreSync
  else if k = Obj.forgetPersisted then some writeForget
  else if k = Obj.readmitTile then some writeReadmit
  else if k = Obj.cancelJob then some writeCancelJob
  else if k = Obj.channelStart then some writeChannelStart
  else if k = Obj.channelCommand then some writeChannelCommand
  else if k = Obj.loadFromMemory then some writeLoadFromMemory
  else if k = Obj.loadAbort then some writeLoadAbort
  else if k = Obj.autoloadStore then some writeAutoloadStore
  else if k = Obj.stepCommand then some writeStepCommand
  else if k = Obj.snapshotAt then some writeSnapshotAt
  else if k = Obj.captureArm then some writeCaptureArm
  else if k = Obj.windowRestart then some writeWindowRestart
  else if k = Obj.softwareReset then some writeSoftwareReset
  else if k = Obj.releaseReset then some writeReleaseReset
  else if k = Obj.keyEnroll then some writeKeyEnroll
  else if k = Obj.keyRevoke then some writeKeyRevoke
  else if k = Obj.updateCommand then some (writeUpdateCommand false)
  else if k = Obj.updateChunk then some (writeUpdateChunk false)
  else if k = Obj.updateFromMemory then some (writeUpdateFromMemory false)
  else if k = Obj.attestNonce then some writeAttestNonce
  else none

/-- Handlers of the parameters whose chapters say more of a write than its value. -/
def paramHandler (k : Nat) : Handler :=
  let i := k / 256
  let sub := k % 256
  if k = hostRec Obj.ringSlots || k = hostRec Obj.reqRingBase || k = hostRec Obj.rspRingBase then writeOapRing
  else if k = Obj.operatingPoint then writeOperatingPoint
  else if k = Obj.compactThreshold then writeCompactThreshold
  else if 0x5010 ≤ i && i < 0x5018 then
    (if sub = 3 then writeSubTail (i - 0x5010)
     else if sub = 1 || sub = 2 || sub = 5 || sub = 6 then writeRingConfig (i - 0x5010) else Handler.plain)
  else if 0x6060 ≤ i && i < 0x6068 then writeProbeSelects (i - 0x6060)
  else if k = Obj.storedImage then writeStoredImage
  else if i = 0x6240 then writeScrubControl
  else if k = Obj.stepMode || k = Obj.elasticDivisor then writeStepClock
  else if k = Obj.stepPeriod || k = Obj.systemDiameter || k = Obj.startStep || i = 0x7004 || i = 0x7010 then writeStepConfig
  else if 0x7180 ≤ i && i < 0x7200 then
    (if sub = 1 then writeFeedEnable (i - 0x7180) else writeFeedConfig k (i - 0x7180))
  else if i = 0x8003 then writeLaneTest (sub - 1)
  else if i = 0x8041 then writePortEnable (sub - 1)
  else if i = 0x8042 || i = 0x8043 || i = 0x8044 then writePortConfig (sub - 1)
  else Handler.plain

/-- What writing an object does. -/
def handlerOf (k : Nat) : Handler := (commandHandler k).getD (paramHandler k)

/-! ## Single writes -/

/-- What follows any answered write: a reset it asked for, and segments that now have room. -/
def State.afterWrite (s : State) : State := s.assertSoft.flushHeld

/-- An OAP WRITE of any object. -/
def State.writeAny (m : Master) (tr : Transport) (seq k : Nat) (bytes : List Byte) (sets : Nat) (s : State) : State :=
  (s.serveWrite m tr seq k bytes sets (handlerOf k)).afterWrite

/-- The bytes of a type's value from its linear-map form in n bytes; none where the bits above its size are not the
extension of R45 (R46). -/
def fromLinear (ty : ObjType) (l : List Byte) : Option (List Byte) :=
  let v := leNat l
  match ty with
  | .i8 => if v < 128 || (256 ^ l.length - 128 ≤ v) then some (leBytes 1 v) else none
  | ty => if v < 256 ^ ty.size then some (leBytes ty.size v) else none

/-- A write into the MSI-X table (R460, R462): dwords, the mask bit of vector control apart. -/
def State.tableWrite (off : Nat) (l : List Byte) (s : State) : State :=
  ((List.range (l.length / 4)).foldl (fun s j =>
    let i := off / 4 + j
    let v := field l (4 * j) 4
    let n := i / 4
    if i % 4 = 3 then
      s.setHost fun h =>
        let l := if v.testBit 0 then List.filter (fun m => m ≠ n) h.unmasked
          else if h.unmasked.contains n then h.unmasked else n :: h.unmasked
        { h with unmasked := l }
    else
      s.setHost fun h =>
        let l := if v = 0 then h.table.del i else h.table.put i v
        { h with table := l }) s).flushMsix

/-- A write to BAR0 below the configuration window (R52–R55, R460). -/
def State.bar0Write (off : Nat) (l : List Byte) (sets : Nat) (s : State) : State :=
  let k := off / 0x800 * 256 + off / 8 % 256
  let n := l.length
  if 0x7000000 ≤ off then
    (if off < 0x7008000 && (n = 4 || n = 8) && off % n = 0 then s.tableWrite (off - 0x7000000) l else s)
  else if (n ≠ 4 && n ≠ 8) || off % 8 ≠ 0 then s.dropLinear k Err.badLength
  else match s.rightsErr 1 k, rowOf k with
    | some e, _ => s.dropLinear k e
    | none, none => s.dropLinear k Err.noObject
    | none, some r =>
      if r.ty.fixed && n = 4 && 4 < r.ty.size then s.dropLinear k Err.badLength
      else s.linearWrite k ((fromLinear r.ty l).getD []) sets (handlerOf k)

/-! ## Commits (R58–R60) -/

/-- First staged write that fails its checks (R59). -/
def State.firstBad (s : State) (id : Nat) (l : List (Nat × List Byte)) : Option (Nat × Nat) :=
  l.findSome? fun (k, b) => match s.checkVal id k b with
    | .error e => some (e, k)
    | .ok _ => none

/-- Apply staged writes in order; the first that its chapter refuses, with its error. -/
def State.applyStaged (sets : Nat) : List (Nat × List Byte) → State → Except (Nat × Nat) State
  | [], s => .ok s
  | (k, b) :: rest, s => match rowOf k with
    | none => .error (Err.noObject, k)
    | some r => match decodeVal r.ty b with
      | none => .error (Err.badLength, k)
      | some v => match handlerOf k v (s.applyVal r k v sets) with
        | .error e => .error (e, k)
        | .ok s => State.applyStaged (if r.acc = .w1c then 0 else sets) rest s

def isCommand (k : Nat) : Bool := (rowOf k).any fun r => r.acc = .wo

/-- The persisted values of a group go to the store as one record (R59). -/
def State.persistGroup (l : List (Nat × List Byte)) (s : State) : State :=
  let kept := l.filter fun e => (rowOf e.1).any fun r => r.pers && r.acc = .rwp
  if kept.isEmpty then s else s.queueRecord (groupRec (kept.map fun e => (e.1, false, e.2)))

/-- Everything staged takes effect: the parameters and their record, then the commands in staging order, which find the
group's record pending before any of their own (R59, R60). -/
def State.applyGroup (l : List (Nat × List Byte)) (sets : Nat) (s : State) : Except (Nat × Nat) State :=
  match State.applyStaged sets (l.filter fun e => !isCommand e.1) s with
  | .error e => .error e
  | .ok s => State.applyStaged 0 (l.filter fun e => isCommand e.1) (s.persistGroup l)

/-- GROUP_COMMIT: all or nothing; a failed commit closes the group and returns the first error. -/
def State.groupCommit (m : Master) (tr : Transport) (seq sets : Nat) (s : State) : State :=
  let id := masterId m
  match s.groupErr id, s.group id with
  | some (e, d), _ => s.answerErr m tr seq 0 e d
  | none, none => s.answerErr m tr seq 0 Err.groupNotOpen 0
  | none, some g =>
    let s := s.closeGroup id
    let fail (e : Nat × Nat) : State := s.answerErr m tr seq e.2 e.1 0
    match g.failed, s.firstBad id g.staged with
    | some e, _ => fail e
    | none, some e => fail e
    | none, none => match s.applyGroup g.staged sets with
      | .error e => (s.noteRefusal e.2).answerErr m tr seq e.2 e.1 0
      | .ok s => (s.answer m tr Oap.groupCommit 0 seq 0 []).afterWrite

end Sys2Proof.Machine
end

