-- ==== Sys2Proof/Machine/Transport.lean ====
section
/-! DEFINITION. The commands that carry writes and commits (R46, R53, R59), and how OAP segments arrive (R79, R85, R86,
R541): by the PCIe rings (R95), CAN FD (R90, R91), peer VC2 (R96) and JTAG (R97), with the TAP itself (R536, R537). -/

namespace Sys2Proof.Machine

/-! ## Messages (R80–R82, R84) -/

/-- Fields of a header (R79). -/
def headType (h : List Byte) : Nat := bits (field h 0 1) 4 4
def headFlag (h : List Byte) (i : Nat) : Bool := (field h 1 1).testBit i
def headSegment (h : List Byte) : Nat := bits (field h 1 1) 4 4
def headSeq (h : List Byte) : Nat := field h 2 2
def headKey (h : List Byte) : Nat := field h 4 2 * 256 + field h 6 1

/-- What a complete message fails before it is served: type, flags, payload length. -/
def messageErr (h pay : List Byte) : Option Nat :=
  let ty := headType h
  let group := headFlag h 2
  let accept := headFlag h 3
  if 9 ≤ ty then some Err.badType
  else if headFlag h 0 then some Err.badFlags
  else if group && ty ≠ Oap.read then some Err.badFlags
  else if accept && ty ≠ Oap.handover then some Err.badFlags
  else
    let want : Option Nat :=
      if ty = Oap.claim then some 1
      else if ty = Oap.handover then some (if accept then 0 else 1)
      else if ty = Oap.write || ty = Oap.groupStage || (ty = Oap.read && group) then none
      else some 0
    match want with
    | none => none
    | some n => if pay.length = n then none else some Err.badLength

/-- Serve a complete message (R80). -/
def State.serveMessage (m : Master) (tr : Transport) (h pay : List Byte) (s : State) : State :=
  let seq := headSeq h
  let k := headKey h
  let ty := headType h
  let open' (f : State → State) : State := s.request m tr s.now seq k f
  let full (f : State → State) : State := s.fullRequest m tr s.now seq k f
  match messageErr h pay with
  | some e => open' fun s => s.answerErr m tr seq k e 0
  | none =>
    if ty = Oap.read then
      (if headFlag h 2 then open' fun s => s.serveGroupRead m tr seq k pay else open' fun s => s.serveRead m tr seq k)
    else if ty = Oap.write then open' fun s => s.writeAny m tr seq k pay 0
    else if ty = Oap.groupBegin then full fun s => s.groupBegin m tr seq
    else if ty = Oap.groupStage then full fun s => s.groupStage m tr seq k pay
    else if ty = Oap.groupCommit then full fun s => s.groupCommit m tr seq 0
    else if ty = Oap.groupAbort then full fun s => s.groupAbort m tr seq
    else if ty = Oap.claim then full fun s => s.claim m tr seq (field pay 0 1)
    else if ty = Oap.release then full fun s => s.release m tr seq
    else if headFlag h 3 then full fun s => s.accept m tr seq
    else full fun s => s.handover m tr seq (field pay 0 1)

/-! ## Segments (R86, R541) -/

/-- A message payload's limit (R85). -/
abbrev messageMax : Nat := 65548
/-- A segment must follow the one before within this time (R86): 100 ms. -/
abbrev segmentGap : Nat := 100000000

/-- Key of a master's partial message on a transport. -/
def partialKey (m : Master) (tr : Transport) : Nat := masterId m * 8 + transportCode tr

def State.partialOf (s : State) (m : Master) (tr : Transport) : Option Partial := s.dict.partials.find? (partialKey m tr)
def State.setPartial (m : Master) (tr : Transport) (p : Option Partial) (s : State) : State :=
  let k := partialKey m tr
  { s with dict := { s.dict with partials := match p with
    | some p => s.dict.partials.put k p
    | none => s.dict.partials.del k } }

/-- A segment or message discarded without being served counts (R86, R541). -/
def State.discardSegment (s : State) : State := s.bump Obj.segmentsDiscarded 1

/-- Discard a partial message, answered once with the fields of its first segment. -/
def State.dropPartial (m : Master) (tr : Transport) (code : Nat) (s : State) : State :=
  match s.partialOf m tr with
  | none => s
  | some p => ((s.setPartial m tr none).answerErr m tr (headSeq p.head) (headKey p.head) code 0).discardSegment

/-- The segment continues the partial message: same fields, next SEGMENT (R86). -/
def Partial.continues (p : Partial) (h : List Byte) : Bool :=
  headType h = headType p.head && headFlag h 0 = headFlag p.head 0 && headFlag h 2 = headFlag p.head 2 &&
    headFlag h 3 = headFlag p.head 3 && headSeq h = headSeq p.head && headKey h = headKey p.head &&
    headSegment h = p.next % 16

/-- A segment joins its message, which is served when complete. -/
def State.takeSegment (m : Master) (tr : Transport) (p : Partial) (h pay : List Byte) (s : State) : State :=
  let p := { p with next := p.next + 1, pay := p.pay ++ pay, last := s.now }
  let s := s.setPartial m tr (some p)
  if messageMax < p.pay.length then s.dropPartial m tr Err.badLength
  else if headFlag h 1 then s
  else (s.setPartial m tr none).serveMessage m tr p.head p.pay

/-- The segment is longer than its transport carries, or than was delivered (R541). -/
def tooLong (tr : Transport) (bytes : List Byte) : Bool :=
  segMax tr < field bytes 7 1 || bytes.length < 8 + field bytes 7 1

/-- A segment arrives while the dictionary serves its master: version, continuity, length. -/
def State.segment (m : Master) (tr : Transport) (bytes : List Byte) (s : State) : State :=
  let h := bytes.take 8
  let pay := slice bytes 8 (field h 7 1)
  let new (s : State) : State :=
    if headSegment h ≠ 0 then s.discardSegment
    else if tooLong tr bytes then
      let s := s.answerErr m tr (headSeq h) (headKey h) Err.badLength 0
      if headFlag h 1 then s.discardSegment else s
    else s.takeSegment m tr ⟨h, 0, [], s.now⟩ h pay
  if bits (field h 0 1) 0 4 ≠ 1 then
    (s.dropPartial m tr Err.segmentLost).answerErr m tr (headSeq h) (headKey h) Err.badVersion 1
  else match s.partialOf m tr with
    | none => new s
    | some p =>
      if segmentGap < s.now - p.last || !p.continues h then new (s.dropPartial m tr Err.segmentLost)
      else if tooLong tr bytes then s.dropPartial m tr Err.badLength
      else s.takeSegment m tr p h pay

/-- A transport takes segments: its rings are set, or its port serves OAP. -/
def State.transportOn (s : State) (tr : Transport) : Bool := match tr with
  | .pcie => s.num (hostRec Obj.ringSlots) ≠ 0
  | .fna => s.canTakes .fna && s.num Obj.nodeId ≠ 0
  | .fnb => s.canTakes .fnb && s.num Obj.nodeId ≠ 0
  | _ => true

/-- A segment arrives (R79, R86, R97, R489, R506): discarded without answer while its master is not served; from JTAG with
DEBUG_EN low, answered with DEBUG_DISABLED once a request. -/
def State.receive (m : Master) (tr : Transport) (bytes : List Byte) (s : State) : State :=
  if !masterUses m tr || s.rst.serve = .none || !s.transportOn tr || bytes.length < 8 ||
    (s.rst.serve = .recovery && tr ≠ .pcie && tr ≠ .jtag) then s
  else
    let s := s.noteClient m tr
    if tr = .jtag && s.num Obj.debugEnabled = 0 then
      (if headSegment bytes = 0 then s.answerErr m tr (headSeq bytes) (headKey bytes) Err.debugDisabled 0 else s)
    else s.segment m tr bytes

/-! ## The request ring (R95) -/

/-- Serve request slots from ReqHead to ReqTail, at most n, while the link carries their reads; the bytes of a slot that
the operand leaves out are free values (log 1). -/
def State.serveSlots : Nat → List (List Byte) → State → State
  | 0, _, s => s
  | n + 1, l, s =>
    let slots := s.num (hostRec Obj.ringSlots)
    let head := s.num (hostRec Obj.reqHead)
    if slots = 0 || head = s.num (hostRec Obj.reqTail) || !s.hostUp || s.rst.serve = .none then s
    else
      let (b, s) := match l with
        | b :: _ => (b, s)
        | [] => s.freshBytes 256
      let s := s.setNum (hostRec Obj.reqHead) ((head + 1) % slots)
      State.serveSlots n (l.drop 1) (s.receive .host .pcie b)

/-- Slots that a command without an operand for them leaves to serve: a ReqTail written by another row than its own, or
one written while the link was down (log 42). -/
def State.pollRing (s : State) : State := s.serveSlots 4096 []

/-! ## Writes that come as one command (R46, R53, R59) -/

/-- WRITE (R46). -/
def execWrite (m : Master) (tr : Transport) (t : Nat) (seq : BitVec 16) (o : ObjId) (val : List Byte) (sets : U64)
    (s : State) : Res :=
  .next (s.request m tr t seq.toNat (keyOf o) fun s => s.writeAny m tr seq.toNat (keyOf o) val sets.toNat).pollRing

/-- LINEAR_MAP_WRITE (R53–R55, R489). -/
def execLinearMapWrite (t : Nat) (offset : BitVec 27) (data : List Byte) (sets : U64) (s : State) : Res :=
  let s := s.upto t
  if s.rst.serve = .none then .next s else .next (State.afterWrite (State.bar0Write offset.toNat data sets.toNat s)).pollRing

/-- GROUP_COMMIT (R59). -/
def execGroupCommit (m : Master) (tr : Transport) (t : Nat) (seq : BitVec 16) (sets : U64) (s : State) : Res :=
  .next (s.fullRequest m tr t seq.toNat 0 fun s => s.groupCommit m tr seq.toNat sets.toNat).pollRing

/-! ## Segments that arrive -/

/-- SEGMENT_RECEIVE (R86). -/
def execSegmentReceive (m : Master) (tr : Transport) (t : Nat) (bytes : List Byte) (s : State) : Res :=
  .next ((s.upto t).receive m tr bytes).pollRing

/-- SEGMENT_GAP_TIMEOUT (R86): as the 100 ms expire. -/
def execSegmentGapTimeout (m : Master) (tr : Transport) (s : State) : Res :=
  match s.partialOf m tr with
  | none => .next s
  | some p => .next ((s.upto (p.last + segmentGap)).dropPartial m tr Err.segmentLost)

/-! ## CAN FD (R89–R94) -/

/-- CAN_OAP_FRAME (R90, R91). -/
def execCanOapFrame (port : CanPort) (t : Nat) (id : BitVec 29) (data : List Byte) (s : State) : Res :=
  let s := s.upto t
  if bits id.toNat 25 4 ≠ 4 || !s.canTakes port || !s.canFor id then .next s
  else .next (s.receive (.node (BitVec.ofNat 7 (bits id.toNat 11 7))) (match port with | .fna => .fna | .fnb => .fnb) data).pollRing

/-- CAN_BUS_OFF (R89, R93): error confinement takes the port to another of its states. An error-active port is error
passive before it is bus-off, and events wait until a bus-off port recovers; the error counters that decide it are the
bus's (log 39). -/
def execCanBusOff (port : CanPort) (conf : CanConfinement) (s : State) : Res :=
  let (k, n) := match port with
    | .fna => (Obj.fnaState, Obj.fnaBusOffs)
    | .fnb => (Obj.fnbState, Obj.fnbBusOffs)
  let st := s.num k
  match conf with
  | .active => if st = 2 || st = 3 then .next (s.setState k 1).flushHeld else .next s
  | .passive => if st = 1 then .next (s.setState k 2) else .next s
  | .busOff => if st = 1 || st = 2 then .next (((s.setState k 2).setState k 3).bump n 1) else .next s

/-! ## The PCIe rings (R95) -/

/-- REQ_TAIL_WRITE (R95). -/
def execReqTailWrite (q : Req) (val : List Byte) (slots : List (List Byte)) (s : State) : Res :=
  let s := serveOwn q (hostRec Obj.reqTail) val Handler.plain s
  .next (s.serveSlots 4096 slots)

/-- RSP_HEAD_WRITE (R95): what waited for room goes out. -/
def execRspHeadWrite (q : Req) (val : List Byte) (s : State) : Res :=
  .next (serveOwn q (hostRec Obj.rspHead) val Handler.plain s).flushHeld

/-- OAP_RING_CONFIG_WRITE (R95): of ReqRingBase, RspRingBase or RingSlots. -/
def execOapRingConfigWrite (q : Req) (sub : BitVec 8) (val : List Byte) (s : State) : Res :=
  if sub = 0x0A || sub = 0x0B || sub = 0x0C then
    .next (serveOwn q (hostRec Obj.reqRingBase - 0x0A + sub.toNat) val writeOapRing s).flushHeld
  else .next s

/-! ## The link (R458, R471, R476) -/

/-- HOST_LINK_UP (R458, R477, R488): trained to a width and a rate of R458. -/
def execHostLinkUp (width : BitVec 8) (rate : BitVec 16) (s : State) : Res :=
  if s.num Obj.hostLinkState ≠ 1 || !([4, 8, 16].contains width.toNat) || !([25, 50, 80, 160, 320, 640, 1280].contains rate.toNat) then
    .next s
  else
    .next (((s.setState Obj.hostLinkState 2).setNum Obj.hostLinkWidth width.toNat).setNum Obj.hostLinkRate rate.toNat).flushHeld.pollRing

/-- BUS_MASTER_ENABLE (R462, R471, R476): what waited for it goes out. -/
def execBusMasterEnable (on : Bool) (s : State) : Res :=
  let s := s.setHost fun h => { h with busMaster := on }
  .next (if on then s.flushHeld.flushMsix.pollRing else s)

/-! ## Peer VC2 (R96) -/

/-- PEER_OAP_SEGMENT (R96): another device's message is answered once, at its first segment. -/
def execPeerOapSegment (t : Nat) (dev : BitVec 12) (bytes : List Byte) (s : State) : Res :=
  let s := s.upto t
  let d := dev.toNat
  let want := s.num Obj.peerManagerDevice
  if s.rst.serve = .none || s.rst.serve = .recovery || bytes.length < 8 then .next s
  else if want = 0xFFFF || want = d then
    let q := s.dict.queues.get MasterQ.empty 0xC0
    let s := { s with dict := { s.dict with queues := s.dict.queues.put 0xC0 { q with vc2Dev := some d } } }
    .next (s.flushHeld.receive .peer .vc2 bytes).pollRing
  else if headSegment bytes ≠ 0 then .next s
  else
    let l := segments .vc2 Oap.error 0 (headSeq bytes) (headKey bytes) (leBytes 2 Err.peerNotAccepted ++ leBytes 2 0)
    .next (l.foldl (fun s b => s.sendFlit 2 false d b) s)

/-! ## JTAG (R97, R535–R538) -/

/-- Instruction codes of R536; every other code acts as BYPASS. -/
def irKnown (c : Nat) : Bool := [0, 1, 2, 3, 4, 8, 9, 0x20, 0xFF].contains c
/-- The instruction selects the boundary register. -/
def irBoundary (c : Nat) : Bool := [0, 1, 8, 9].contains c

/-- Where the pins and lanes of the boundary register take their state from (R536, R537). -/
inductive PinSource where
  | device | boundary | highZ
deriving DecidableEq, Repr

def State.pinSource (s : State) : PinSource :=
  let c := s.jtag.ir.toNat
  if [0, 4, 8, 9].contains c then .boundary else if c = 3 then .highZ else .device

/-- What a capture of the instruction register loads, and the length of the data register that an instruction selects
(R97, R536). -/
abbrev irCapture : Nat := 1
def drLength (ir : Nat) : Nat :=
  if [0, 1, 8, 9].contains ir then 2069 else if ir = 2 then 32 else if ir = 0x20 then 2048 else 1

/-- Cells of the boundary register, numbered from TDO (R535): input, output and output enable of GPIO pin n of bank b; the
input cells of MGMT in the order of the rule; output and enable of SPBUSY, SPDONE and SPERR; the transmitter and the two
receive legs of a lane. -/
def gpioCell (b n k : Nat) : Nat := 3 * (48 * b + n) + k
def mgmtInCell (i : Nat) : Nat := 1440 + i
def mgmtOutCell (i k : Nat) : Nat := 1440 + 47 + 2 * i + k
def laneCell (l k : Nat) : Nat := 1493 + 3 * l + k

/-- What a pin drives by an output cell and its enable, of which 1 enables (log 143). -/
def State.cellDrives (s : State) (out enable : Nat) : Option Bool :=
  if s.jtag.boundary.getLsbD enable then some (s.jtag.boundary.getLsbD out) else none

/-- What a GPIO pin presents in the end, in one slow cycle: by the boundary register, at high impedance, or what the fabric
gives it (R537). -/
def State.gpioPad (s : State) (c bank n : Nat) : List (Option Bool) := match s.pinSource with
  | .boundary => [s.cellDrives (gpioCell (bankOf c bank) n 1) (gpioCell (bankOf c bank) n 2)]
  | .highZ => [none]
  | .device => s.pinOut c bank n

/-- What SPBUSY, SPDONE or SPERR presents (R485, R535, R537). -/
def State.mgmtPad (s : State) (i : Fin 3) : Option Bool := match s.pinSource with
  | .boundary => s.cellDrives (mgmtOutCell i 0) (mgmtOutCell i 1)
  | .highZ => none
  | .device => s.mgmtOutputs.map fun (busy, done, err) => [busy, done, err].getD i false

/-- A lane's transmitter under a test instruction: a driven level, or electrical idle (R536, R537). -/
def State.lanePad (s : State) (l : Nat) : Option (Option Bool) := match s.pinSource with
  | .boundary => some (some (s.jtag.boundary.getLsbD (laneCell l 0)))
  | .highZ => some none
  | .device => none

/-- What IDCODE reads (R536). -/
def idCode : Nat := 1 + 2 * Config.jep106.toNat + 0x8150 * 2 ^ 12 + Config.steppingIndex.toNat * 2 ^ 28

/-- UPDATE_IR (R536, R537): served in every state of the device (R538). -/
def execUpdateIr (opcode : Byte) (s : State) : Res :=
  .next { s with jtag := { s.jtag with ir := if irKnown opcode.toNat then opcode else 0xFF } }

/-- TEST_LOGIC_RESET (R536, R537): IDCODE is selected. -/
def execTestLogicReset (s : State) : Res := .next { s with jtag := { s.jtag with ir := 2 } }

/-- BOUNDARY_REGISTER_UPDATE (R536): under an instruction that selects the boundary register. -/
def execBoundaryRegisterUpdate (bits : BitVec 2069) (s : State) : Res :=
  .next (if irBoundary s.jtag.ir.toNat then { s with jtag := { s.jtag with boundary := bits } } else s)

/-- OAPSEG_CAPTURE (R97): the oldest segment waiting for JTAG, or zeros, in 2,048 bits. -/
def execOapsegCapture (s : State) : Res :=
  if s.jtag.ir ≠ 0x20 then .next s
  else match s.dict.jtagOut with
    | [] => .next (s.emit (.jtag (List.replicate 256 0)))
    | b :: r =>
      let s := { s with dict := { s.dict with jtagOut := r } }
      .next (s.emit (.jtag (fitTo 256 b)))

/-- OAPSEG_UPDATE (R97). -/
def execOapsegUpdate (t : Nat) (bytes : List Byte) (s : State) : Res :=
  let s := s.upto t
  if s.jtag.ir ≠ 0x20 then .next s else .next (s.receive .jtag .jtag (fitTo 256 bytes)).pollRing

end Sys2Proof.Machine
end

