-- ==== Sys2Proof/Machine/Dispatch.lean ====
section
/-! DEFINITION. One arm for each command: its meaning. -/

namespace Sys2Proof.Machine

/-- The effect of a command on everything but the queue. -/
def exec (i : Instr) (s : State) : Host.Outcome State Fault Refusal :=
  match i with
  | .read m tr t seq o => Sys2Proof.Machine.execRead m tr t seq o s
  | .readGroup m tr t seq list => Sys2Proof.Machine.execReadGroup m tr t seq list s
  | .write m tr t seq o val sets => Sys2Proof.Machine.execWrite m tr t seq o val sets s
  | .linearMapWrite t offset data sets => Sys2Proof.Machine.execLinearMapWrite t offset data sets s
  | .groupBegin m tr t seq => Sys2Proof.Machine.execGroupBegin m tr t seq s
  | .groupStage m tr t seq o val => Sys2Proof.Machine.execGroupStage m tr t seq o val s
  | .groupCommit m tr t seq sets => Sys2Proof.Machine.execGroupCommit m tr t seq sets s
  | .groupAbort m tr t seq => Sys2Proof.Machine.execGroupAbort m tr t seq s
  | .groupTimeout m => Sys2Proof.Machine.execGroupTimeout m s
  | .claim m tr t seq prio => Sys2Proof.Machine.execClaim m tr t seq prio s
  | .claimWindowClose => Sys2Proof.Machine.execClaimWindowClose s
  | .leaseEnd => Sys2Proof.Machine.execLeaseEnd s
  | .release m tr t seq => Sys2Proof.Machine.execRelease m tr t seq s
  | .handover m tr t seq successor => Sys2Proof.Machine.execHandover m tr t seq successor s
  | .handoverAccept m tr t seq => Sys2Proof.Machine.execHandoverAccept m tr t seq s
  | .segmentReceive m tr t bytes => Sys2Proof.Machine.execSegmentReceive m tr t bytes s
  | .segmentGapTimeout m tr => Sys2Proof.Machine.execSegmentGapTimeout m tr s
  | .eventDelivery m => Sys2Proof.Machine.execEventDelivery m s
  | .recordCommitDone failedAttempts => Sys2Proof.Machine.execRecordCommitDone failedAttempts s
  | .storeSync q val => Sys2Proof.Machine.execStoreSync q val s
  | .storeSynced => Sys2Proof.Machine.execStoreSynced s
  | .forgetPersisted q val => Sys2Proof.Machine.execForgetPersisted q val s
  | .compactionComplete eraseFailed => Sys2Proof.Machine.execCompactionComplete eraseFailed s
  | .canOapFrame port t id data => Sys2Proof.Machine.execCanOapFrame port t id data s
  | .resetCommandFrame port t id data => Sys2Proof.Machine.execResetCommandFrame port t id data s
  | .canBusOff port conf => Sys2Proof.Machine.execCanBusOff port conf s
  | .reqTailWrite q val slots => Sys2Proof.Machine.execReqTailWrite q val slots s
  | .rspHeadWrite q val => Sys2Proof.Machine.execRspHeadWrite q val s
  | .oapRingConfigWrite q sub val => Sys2Proof.Machine.execOapRingConfigWrite q sub val s
  | .peerOapSegment t dev bytes => Sys2Proof.Machine.execPeerOapSegment t dev bytes s
  | .oapsegCapture => Sys2Proof.Machine.execOapsegCapture s
  | .oapsegUpdate t bytes => Sys2Proof.Machine.execOapsegUpdate t bytes s
  | .drawerRelease g x => Sys2Proof.Machine.execDrawerRelease g x s
  | .passCommit g x => Sys2Proof.Machine.execPassCommit g x s
  | .outputWritten g x => Sys2Proof.Machine.execOutputWritten g x s
  | .preemptionRequest g x => Sys2Proof.Machine.execPreemptionRequest g x s
  | .faultReport t f => Sys2Proof.Machine.execFaultReport t f s
  | .steeringHold g row => Sys2Proof.Machine.execSteeringHold g row s
  | .steeringRelease g row => Sys2Proof.Machine.execSteeringRelease g row s
  | .rampDownStep g gap => Sys2Proof.Machine.execRampDownStep g gap s
  | .rampUpStep g x => Sys2Proof.Machine.execRampUpStep g x s
  | .capDescentStep g x => Sys2Proof.Machine.execCapDescentStep g x s
  | .realtimeRiseStep g x => Sys2Proof.Machine.execRealtimeRiseStep g x s
  | .throttleTargetArrival g target => Sys2Proof.Machine.execThrottleTargetArrival g target s
  | .benchSelection g selection failing => Sys2Proof.Machine.execBenchSelection g selection failing s
  | .collectorSlotOpen c slot n len dest jobId => Sys2Proof.Machine.execCollectorSlotOpen c slot n len dest jobId s
  | .collectorAdmit cycle => Sys2Proof.Machine.execCollectorAdmit cycle s
  | .chainCombine c slot offset residueFaults => Sys2Proof.Machine.execChainCombine c slot offset residueFaults s
  | .nop g x w => Sys2Proof.Machine.execNop g x w s
  | .halt g x w => Sys2Proof.Machine.execHalt g x w s
  | .jmp g x w => Sys2Proof.Machine.execJmp g x w s
  | .br g x w => Sys2Proof.Machine.execBr g x w s
  | .loop g x w => Sys2Proof.Machine.execLoop g x w s
  | .sli g x w => Sys2Proof.Machine.execSli g x w s
  | .sadd g x w => Sys2Proof.Machine.execSadd g x w s
  | .sshf g x w => Sys2Proof.Machine.execSshf g x w s
  | .sag g x w => Sys2Proof.Machine.execSag g x w s
  | .slm g x w => Sys2Proof.Machine.execSlm g x w s
  | .scr g x w => Sys2Proof.Machine.execScr g x w s
  | .yield g x w => Sys2Proof.Machine.execYield g x w s
  | .smovv g x w => Sys2Proof.Machine.execSmovv g x w s
  | .fence g x w => Sys2Proof.Machine.execFence g x w s
  | .semaadd g x w => Sys2Proof.Machine.execSemaadd g x w s
  | .semawait g x w => Sys2Proof.Machine.execSemawait g x w s
  | .sopen g x w => Sys2Proof.Machine.execSopen g x w s
  | .swait g x w => Sys2Proof.Machine.execSwait g x w s
  | .sfree g x w => Sys2Proof.Machine.execSfree g x w s
  | .sclose g x w => Sys2Proof.Machine.execSclose g x w s
  | .mma g x w => Sys2Proof.Machine.execMma g x w s
  | .vld g x w lostToArbitration => Sys2Proof.Machine.execVld g x w lostToArbitration s
  | .vst g x w lostToArbitration => Sys2Proof.Machine.execVst g x w lostToArbitration s
  | .vfadd g x w => Sys2Proof.Machine.execVfadd g x w s
  | .vfmul g x w => Sys2Proof.Machine.execVfmul g x w s
  | .vfma g x w => Sys2Proof.Machine.execVfma g x w s
  | .vtof g x w => Sys2Proof.Machine.execVtof g x w s
  | .vtox g x w => Sys2Proof.Machine.execVtox g x w s
  | .vclra g x w => Sys2Proof.Machine.execVclra g x w s
  | .vimac g x w => Sys2Proof.Machine.execVimac g x w s
  | .vmova g x w => Sys2Proof.Machine.execVmova g x w s
  | .vnar g x w => Sys2Proof.Machine.execVnar g x w s
  | .vmax g x w => Sys2Proof.Machine.execVmax g x w s
  | .vmin g x w => Sys2Proof.Machine.execVmin g x w s
  | .vamax g x w => Sys2Proof.Machine.execVamax g x w s
  | .vsrd g x w => Sys2Proof.Machine.execVsrd g x w s
  | .vmask g x w => Sys2Proof.Machine.execVmask g x w s
  | .resultLanding g => Sys2Proof.Machine.execResultLanding g s
  | .blockCleared g x => Sys2Proof.Machine.execBlockCleared g x s
  | .contextEviction g incoming => Sys2Proof.Machine.execContextEviction g incoming s
  | .contextSwapComplete g bank => Sys2Proof.Machine.execContextSwapComplete g bank s
  | .unitRequest c engine => Sys2Proof.Machine.execUnitRequest c engine s
  | .unitDelivered c strm receiver status data => Sys2Proof.Machine.execUnitDelivered c strm receiver status data s
  | .unitVisible c strm n status => Sys2Proof.Machine.execUnitVisible c strm n status s
  | .rateWindow c => Sys2Proof.Machine.execRateWindow c s
  | .streamHaltComplete c strm => Sys2Proof.Machine.execStreamHaltComplete c strm s
  | .streamResume c strm => Sys2Proof.Machine.execStreamResume c strm s
  | .streamPinComplete c strm => Sys2Proof.Machine.execStreamPinComplete c strm s
  | .streamCloseComplete c strm => Sys2Proof.Machine.execStreamCloseComplete c strm s
  | .channelAdmit c k offers => Sys2Proof.Machine.execChannelAdmit c k offers s
  | .channelReadServed c k tag outcome => Sys2Proof.Machine.execChannelReadServed c k tag outcome s
  | .channelWriteComplete c k tag replays => Sys2Proof.Machine.execChannelWriteComplete c k tag replays s
  | .bankRefresh c k bank => Sys2Proof.Machine.execBankRefresh c k bank s
  | .operatingPointWrite q val => Sys2Proof.Machine.execOperatingPointWrite q val s
  | .cabinetPointChangeDone => Sys2Proof.Machine.execCabinetPointChangeDone s
  | .cxlReadResponse port tag poison data => Sys2Proof.Machine.execCxlReadResponse port tag poison data s
  | .cxlCompletionTimeout port tag => Sys2Proof.Machine.execCxlCompletionTimeout port tag s
  | .cxlLinkDown port => Sys2Proof.Machine.execCxlLinkDown port s
  | .serveFault t => Sys2Proof.Machine.execServeFault t s
  | .migrationComplete t asn va c status data => Sys2Proof.Machine.execMigrationComplete t asn va c status data s
  | .frameFreed c asn large => Sys2Proof.Machine.execFrameFreed c asn large s
  | .coreFenceWithSpare t g shelf site failing => Sys2Proof.Machine.execCoreFenceWithSpare t g shelf site failing s
  | .rowRemoval t g shelf site => Sys2Proof.Machine.execRowRemoval t g shelf site s
  | .pendingSpareTest g shelf site pass => Sys2Proof.Machine.execPendingSpareTest g shelf site pass s
  | .replicaTakeover t jobId shard replica => Sys2Proof.Machine.execReplicaTakeover t jobId shard replica s
  | .cabinetLost t c railFault => Sys2Proof.Machine.execCabinetLost t c railFault s
  | .shardRestore t jobId readable => Sys2Proof.Machine.execShardRestore t jobId readable s
  | .readmitTile q val => Sys2Proof.Machine.execReadmitTile q val s
  | .readmission g failing1 failing2 => Sys2Proof.Machine.execReadmission g failing1 failing2 s
  | .subTailWrite q ring val => Sys2Proof.Machine.execSubTailWrite q ring val s
  | .cplHeadWrite q ring val => Sys2Proof.Machine.execCplHeadWrite q ring val s
  | .jobRingConfigWrite q ring sub val => Sys2Proof.Machine.execJobRingConfigWrite q ring sub val s
  | .pollInterval t hostBytes => Sys2Proof.Machine.execPollInterval t hostBytes s
  | .completionRecordWrite t ring => Sys2Proof.Machine.execCompletionRecordWrite t ring s
  | .jobPlacement t jobId asn hostBytes => Sys2Proof.Machine.execJobPlacement t jobId asn hostBytes s
  | .jobPreemptSaveDone t jobId => Sys2Proof.Machine.execJobPreemptSaveDone t jobId s
  | .jobRestore t jobId => Sys2Proof.Machine.execJobRestore t jobId s
  | .checkpointDue jobId => Sys2Proof.Machine.execCheckpointDue jobId s
  | .checkpointCommit t jobId status => Sys2Proof.Machine.execCheckpointCommit t jobId status s
  | .checkpointGapHold jobId => Sys2Proof.Machine.execCheckpointGapHold jobId s
  | .cancelJob q val => Sys2Proof.Machine.execCancelJob q val s
  | .jobEnd t jobId => Sys2Proof.Machine.execJobEnd t jobId s
  | .throttleWindow watts junctions => Sys2Proof.Machine.execThrottleWindow watts junctions s
  | .collectiveMessage t source body => Sys2Proof.Machine.execCollectiveMessage t source body s
  | .fabricQueueWrite c block entry edge => Sys2Proof.Machine.execFabricQueueWrite c block entry edge s
  | .fabricQueueRead c block edge => Sys2Proof.Machine.execFabricQueueRead c block edge s
  | .queueReset c block phase => Sys2Proof.Machine.execQueueReset c block phase s
  | .clockLoopLockLost c loop => Sys2Proof.Machine.execClockLoopLockLost c loop s
  | .clockLoopLocked c loop => Sys2Proof.Machine.execClockLoopLocked c loop s
  | .fabricPortBeat g out data => Sys2Proof.Machine.execFabricPortBeat g out data s
  | .targetWordReceive port word kind uncorrectable => Sys2Proof.Machine.execTargetWordReceive port word kind uncorrectable s
  | .probeSelectApply => Sys2Proof.Machine.execProbeSelectApply s
  | .channelStart q val => Sys2Proof.Machine.execChannelStart q val s
  | .descriptorFetchDone c ch status hostBytes => Sys2Proof.Machine.execDescriptorFetchDone c ch status hostBytes s
  | .burstStart c ch len => Sys2Proof.Machine.execBurstStart c ch len s
  | .beatGrant c isWrite hostBytes => Sys2Proof.Machine.execBeatGrant c isWrite hostBytes s
  | .burstEnd c ch => Sys2Proof.Machine.execBurstEnd c ch s
  | .arrivalConfirmed c ch => Sys2Proof.Machine.execArrivalConfirmed c ch s
  | .lateWithdrawal c ch => Sys2Proof.Machine.execLateWithdrawal c ch s
  | .dmaBusError c ch offset cause => Sys2Proof.Machine.execDmaBusError c ch offset cause s
  | .resume q => Sys2Proof.Machine.execResume q s
  | .abort q => Sys2Proof.Machine.execAbort q s
  | .loadFromMemory q val => Sys2Proof.Machine.execLoadFromMemory q val s
  | .slavePortData edges => Sys2Proof.Machine.execSlavePortData edges s
  | .spselRise => Sys2Proof.Machine.execSpselRise s
  | .loadHeader hostBytes memFail => Sys2Proof.Machine.execLoadHeader hostBytes memFail s
  | .packetNop => Sys2Proof.Machine.execPacketNop s
  | .writeFar => Sys2Proof.Machine.execWriteFar s
  | .writeStartseq => Sys2Proof.Machine.execWriteStartseq s
  | .writeStartdly => Sys2Proof.Machine.execWriteStartdly s
  | .packetFrames memFail => Sys2Proof.Machine.execPacketFrames memFail s
  | .packetEnd => Sys2Proof.Machine.execPacketEnd s
  | .startUpStep => Sys2Proof.Machine.execStartUpStep s
  | .lockTimeout => Sys2Proof.Machine.execLockTimeout s
  | .loadIdleTimeout => Sys2Proof.Machine.execLoadIdleTimeout s
  | .loadAbort q val => Sys2Proof.Machine.execLoadAbort q val s
  | .targetCleared => Sys2Proof.Machine.execTargetCleared s
  | .autoloadStore q val => Sys2Proof.Machine.execAutoloadStore q val s
  | .autoloadStoreDone => Sys2Proof.Machine.execAutoloadStoreDone s
  | .scrubFrameRead check => Sys2Proof.Machine.execScrubFrameRead check s
  | .scrubReload => Sys2Proof.Machine.execScrubReload s
  | .scrubPauseEnd => Sys2Proof.Machine.execScrubPauseEnd s
  | .settingsUpset copyB => Sys2Proof.Machine.execSettingsUpset copyB s
  | .scrubCriticalReset => Sys2Proof.Machine.execScrubCriticalReset s
  | .stepStart edge => Sys2Proof.Machine.execStepStart edge s
  | .stepEnd edge step => Sys2Proof.Machine.execStepEnd edge step s
  | .cutFrameReceive edge flit => Sys2Proof.Machine.execCutFrameReceive edge flit s
  | .deadlineMiss edge => Sys2Proof.Machine.execDeadlineMiss edge s
  | .freezeNotice flit => Sys2Proof.Machine.execFreezeNotice flit s
  | .snapshotAt q val => Sys2Proof.Machine.execSnapshotAt q val s
  | .run q => Sys2Proof.Machine.execRun q s
  | .abandon q => Sys2Proof.Machine.execAbandon q s
  | .drefLost => Sys2Proof.Machine.execDrefLost s
  | .traceRecordDelivered c f => Sys2Proof.Machine.execTraceRecordDelivered c f s
  | .verdictPortRead c f => Sys2Proof.Machine.execVerdictPortRead c f s
  | .verdictTaken c f edge => Sys2Proof.Machine.execVerdictTaken c f edge s
  | .verdictDeadline c f edge => Sys2Proof.Machine.execVerdictDeadline c f edge s
  | .captureArm q val => Sys2Proof.Machine.execCaptureArm q val s
  | .portEnable q p val => Sys2Proof.Machine.execPortEnable q p val s
  | .bringUpDone p fecField => Sys2Proof.Machine.execBringUpDone p fecField s
  | .qualifyWindow p corrected uncorrectable => Sys2Proof.Machine.execQualifyWindow p corrected uncorrectable s
  | .linkLoss p lanes corrected uncorrectable => Sys2Proof.Machine.execLinkLoss p lanes corrected uncorrectable s
  | .portDownLimit t p => Sys2Proof.Machine.execPortDownLimit t p s
  | .laneTest q lane val => Sys2Proof.Machine.execLaneTest q lane val s
  | .eyeSweep lane margin => Sys2Proof.Machine.execEyeSweep lane margin s
  | .linkBlockReceive t p block uncorrectable => Sys2Proof.Machine.execLinkBlockReceive t p block uncorrectable s
  | .nak p ackSeq => Sys2Proof.Machine.execNak p ackSeq s
  | .replayTimeout p => Sys2Proof.Machine.execReplayTimeout p s
  | .remoteRequest source => Sys2Proof.Machine.execRemoteRequest source s
  | .remoteResponse source => Sys2Proof.Machine.execRemoteResponse source s
  | .remoteTimeout tag => Sys2Proof.Machine.execRemoteTimeout tag s
  | .targetBlockReceive port block uncorrectable => Sys2Proof.Machine.execTargetBlockReceive port block uncorrectable s
  | .bar2Read offset len errors => Sys2Proof.Machine.execBar2Read offset len errors s
  | .bar2Write offset data errors => Sys2Proof.Machine.execBar2Write offset data errors s
  | .bar2ApertureWrite q val => Sys2Proof.Machine.execBar2ApertureWrite q val s
  | .msixUnmask vector => Sys2Proof.Machine.execMsixUnmask vector s
  | .hostReadCompletion tag status timedOut data => Sys2Proof.Machine.execHostReadCompletion tag status timedOut data s
  | .hostLinkDown => Sys2Proof.Machine.execHostLinkDown s
  | .busMasterEnable on => Sys2Proof.Machine.execBusMasterEnable on s
  | .windowWrite offset data => Sys2Proof.Machine.execWindowWrite offset data s
  | .windowRestart q val => Sys2Proof.Machine.execWindowRestart q val s
  | .supplyFault rail => Sys2Proof.Machine.execSupplyFault rail s
  | .rstIn lowNs => Sys2Proof.Machine.execRstIn lowNs s
  | .softwareResetD q val => Sys2Proof.Machine.execSoftwareResetD q val s
  | .softwareResetC q val => Sys2Proof.Machine.execSoftwareResetC q val s
  | .softwareResetB q val => Sys2Proof.Machine.execSoftwareResetB q val s
  | .releaseReset q val => Sys2Proof.Machine.execReleaseReset q val s
  | .pllLockLoss dom => Sys2Proof.Machine.execPllLockLoss dom s
  | .clockControllerUpset spine bothBad => Sys2Proof.Machine.execClockControllerUpset spine bothBad s
  | .steeringParityError g => Sys2Proof.Machine.execSteeringParityError g s
  | .routeEntryParityError multicast table entry => Sys2Proof.Machine.execRouteEntryParityError multicast table entry s
  | .complexCriticalError primary => Sys2Proof.Machine.execComplexCriticalError primary s
  | .resetRelease src => Sys2Proof.Machine.execResetRelease src s
  | .deviceExit step failures => Sys2Proof.Machine.execDeviceExit step failures s
  | .cabinetExit c step failures => Sys2Proof.Machine.execCabinetExit c step failures s
  | .cabinetPark c => Sys2Proof.Machine.execCabinetPark c s
  | .cabinetWake c => Sys2Proof.Machine.execCabinetWake c s
  | .begin q => Sys2Proof.Machine.execBegin q s
  | .updateEraseDone => Sys2Proof.Machine.execUpdateEraseDone s
  | .updateChunk q val programFailed => Sys2Proof.Machine.execUpdateChunk q val programFailed s
  | .updateFromMemory q val programFailed => Sys2Proof.Machine.execUpdateFromMemory q val programFailed s
  | .verify q => Sys2Proof.Machine.execVerify q s
  | .activate q bootFailed => Sys2Proof.Machine.execActivate q bootFailed s
  | .cancel q => Sys2Proof.Machine.execCancel q s
  | .keyEnroll q val => Sys2Proof.Machine.execKeyEnroll q val s
  | .keyRevoke q val => Sys2Proof.Machine.execKeyRevoke q val s
  | .attestNonce q val => Sys2Proof.Machine.execAttestNonce q val s
  | .passBoundary g x cycles => Sys2Proof.Machine.execPassBoundary g x cycles s
  | .linkReplay t link => Sys2Proof.Machine.execLinkReplay t link s
  | .hostLinkUp width rate => Sys2Proof.Machine.execHostLinkUp width rate s
  | .spselFall => Sys2Proof.Machine.execSpselFall s
  | .prbsLock lane wrongSymbols => Sys2Proof.Machine.execPrbsLock lane wrongSymbols s
  | .linkBlockSend p => Sys2Proof.Machine.execLinkBlockSend p s
  | .updateIr opcode => Sys2Proof.Machine.execUpdateIr opcode s
  | .boundaryRegisterUpdate bits => Sys2Proof.Machine.execBoundaryRegisterUpdate bits s
  | .hotReset => Sys2Proof.Machine.execHotReset s
  | .powerOn => Sys2Proof.Machine.execPowerOn s
  | .perst => Sys2Proof.Machine.execPerst s
  | .thermalTrip => Sys2Proof.Machine.execThermalTrip s
  | .watchdogExpiry => Sys2Proof.Machine.execWatchdogExpiry s
  | .fenceStoreError => Sys2Proof.Machine.execFenceStoreError s
  | .standbyMirrored => Sys2Proof.Machine.execStandbyMirrored s
  | .testLogicReset => Sys2Proof.Machine.execTestLogicReset s

end Sys2Proof.Machine
end

