-- ==== Sys2Proof/Safety.lean ====
section
/-! DEFINITION. The words the claims about the block are stated in: that a command goes on to a state with a property, what
a request must meet to be taken, and what a state must keep. -/

namespace Sys2Proof.Machine

/-- The outcome goes on, to a state with this property. -/
def Answers (o : Host.Outcome State Fault Refusal) (P : State → Prop) : Prop := ∃ t, o = .next t ∧ P t

/-- The dictionary service takes a request of a master on a transport (R84, R87, R97, R98, R489): the master may use the
transport, the firmware serves, the transport is set up, and fewer than 16 of its requests are outstanding. -/
def Taken (s : State) (m : Master) (tr : Transport) : Prop :=
  masterUses m tr = true ∧ s.rst.serve = .full ∧ (tr = .pcie → s.num (hostRec Obj.ringSlots) ≠ 0) ∧
    (tr = .fna → s.num Obj.fnaState ≠ 0 ∧ s.num Obj.fnaState ≠ 4) ∧
    (tr = .fnb → s.num Obj.fnbState ≠ 0 ∧ s.num Obj.fnbState ≠ 4) ∧
    (tr = .jtag → s.num Obj.debugEnabled ≠ 0) ∧ s.outstanding m tr < 16

/-- The state in which a request taken at an instant is served: its port noted (R93). -/
def At (s : State) (m : Master) (tr : Transport) (t : Nat) : State := (s.upto t).noteClient m tr

/-- No slot of the request ring waits to be served (R95). -/
def RingServed (s : State) : Prop := s.num (hostRec Obj.reqHead) = s.num (hostRec Obj.reqTail)

/-- What reading a subentry gives in a state x that the read of other subentries may have reached: nothing has changed but
what is measured as it is read, and the note that a fault record has been read. -/
def ReadState (s x : State) : Prop :=
  x = { s with obj := x.obj, free := x.free, health := { s.health with log := x.health.log } } ∧
    (∀ k, s.measures k = false → s.countsTime k = false → x.val k = s.val k) ∧
    x.health.log.map (fun e => (e.1, e.2.1)) = s.health.log.map (fun e => (e.1, e.2.1))

/-- A subentry's entry in the answer of a read group (R82): its error with no value, or its value, which is the one it has in
the state that the group is read in unless it is measured as it is read. -/
def ReadEntry (s : State) (k : Nat) (b : List Byte) : Prop :=
  let head (code n : Nat) : List Byte :=
    leBytes 2 (k / 256) ++ leBytes 1 (k % 256) ++ leBytes 1 0 ++ leBytes 2 code ++ leBytes 2 0 ++ leBytes 4 n
  match s.readErr k with
  | some e => b = head e 0
  | none => ∃ v, (s.measures k = false → s.countsTime k = false → v = s.view k) ∧
      b = head 0 (valBytes k v).length ++ padTo 4 (valBytes k v)

/-- No page is being evicted (R264). -/
def NoEvictions (s : State) : Prop := ∀ f ∈ s.mm.faults, ∀ n p, f.stage ≠ .evicting n p

/-- Every object but those listed, and the masters' counts of dropped events, keeps its value. -/
def KeepsObjects (l : List Nat) (s u : State) : Prop :=
  ∀ k, k ∉ l → (∀ m, m < 256 → k ≠ mrKey Obj.eventsDropped m) → u.val k = s.val k

/-- Nothing changes but these objects and the events that their changes raise. -/
def ChangesOnly (l : List Nat) (s u : State) : Prop :=
  u = { s with obj := u.obj, dict := { s.dict with queues := u.dict.queues } } ∧ KeepsObjects l s u

/-- An object counts up by n, saturating at its type's all-ones value. -/
def Counted (k n : Nat) (s u : State) : Prop := u.num k = min (s.num k + n) (maxOf k)

/-- Nothing changes but the clock, the dictionary's own bookkeeping, and what its transports carry out. -/
def KeepsBlock (s u : State) : Prop :=
  u = { s with now := u.now, obj := u.obj, dict := u.dict, out := u.out, host := u.host, net := u.net }

/-- An object counts up by one, saturating, where a condition holds, and stands otherwise. -/
def CountedIf (b : Bool) (k : Nat) (s u : State) : Prop := u.num k = if b then min (s.num k + 1) (maxOf k) else s.num k

/-- The fault log has one more record (R285): `r` with this rung, next in sequence and not yet read, and it counts. -/
def Logged (r : FaultRec) (rung : Nat) (s u : State) : Prop :=
  u.health.log = (s.num Obj.faultsRecorded + 1, r.bytes (s.num Obj.faultsRecorded + 1) rung (u.since r.t), false) ::
      s.health.log.take 1023 ∧
    Counted Obj.faultsRecorded 1 s u ∧ (rung ≤ 5 → Counted (Obj.rungCounts + rung) 1 s u)

/-! ## Commands that a master writes (R46–R49, R53, R54) -/

/-- The state in which such a write is looked at. -/
def Arrived (q : Req) (s : State) : State := match q.via with
  | .oap m tr _ => At s m tr q.t
  | .linear => s.upto q.t

/-- The claimant ID of its sender. -/
def sender (q : Req) : Nat := match q.via with
  | .oap m _ _ => masterId m
  | .linear => 1

/-- The write is taken and its value admitted: the sender may write the object, no lost cabinet or block in reset stands in
the way, and the value is one of the object's. -/
def Admitted (q : Req) (k : Nat) (val : List Byte) (s : State) : Prop :=
  (∃ r v, (Arrived q s).checkVal (sender q) k val = .ok (r, v) ∧ (q.via = .linear → r.ty.fixed = true)) ∧
  match q.via with
  | .oap m tr _ => Taken s m tr
  | .linear => s.rst.serve = .full

/-- Its answer, once the effect stands: a WRITE message to an OAP sender, nothing on the linear map. -/
def Replied (q : Req) (k : Nat) (t : State) : State := match q.via with
  | .oap m tr seq => t.answer m tr Oap.write 0 seq.toNat k []
  | .linear => t

/-- Its refusal: ERROR with the code to an OAP sender, the access-status objects on the linear map. -/
def Denied (q : Req) (k code : Nat) (t : State) : State := match q.via with
  | .oap m tr seq => (t.noteRefusal k).answerErr m tr seq.toNat k code 0
  | .linear => (t.noteRefusal k).dropLinear k code

/-- The command is carried out and answered, its effect a state with this property. -/
def Carries (q : Req) (k : Nat) (o : Host.Outcome State Fault Refusal) (P : State → Prop) : Prop :=
  ∃ t, o = .next (Replied q k t) ∧ P t

/-- Every parameter, an object of right RW or RWP, keeps its value. -/
def KeepsParameters (s u : State) : Prop :=
  ∀ k r, rowOf k = some r → r.acc = .rw ∨ r.acc = .rwp → u.val k = s.val k

/-- An operation word reaches issue on context x of tile g (R182, R189): the context is the one chosen, its PC lies in its
window, the program store holds the word there, with SYNC 0 and no reserved bit set, and no result of the tile is in flight. -/
def Chosen (s : State) (g : Tile) (x : Ctx) (op : Nat) (w : BitVec 120) : Prop :=
  s.select g = some x.val ∧ (s.img g x).pc < (s.th g x).winLen ∧ s.fetch g x = w ++ BitVec.ofNat 8 op ∧
    w.getLsbD 2 = false ∧ reservedBits op (w.toNat * 256 + op) = false ∧ (s.tile g).flight = []

/-- The cycle in which a chosen operation without SYNC issues. -/
abbrev cycleOf (s : State) (g : Tile) (x : Ctx) : Nat := s.issueCycle g x false

/-- The operation has issued (R182, R184, R185): the context runs on at `pc` with `seq` as its next sequence number and
these results in flight; its registers, every other context's and every other tile stand as they did. -/
def Issues (s u : State) (g : Tile) (x : Ctx) (pc seq : Nat) (fl : List Flight) : Prop :=
  u.img g x = { s.img g x with pc := pc, seq := seq } ∧ (u.tile g).issuer = some x.val ∧ (u.th g x).st = .running ∧
    (u.th g x).blockedOn = none ∧ (u.tile g).flight = fl ∧ (u.tile g).acyc = cycleOf s g x + 1 ∧
    u.num (tileKey Obj.issuedOperations g) =
      min (s.num (tileKey Obj.issuedOperations g) + 1) (maxOf (tileKey Obj.issuedOperations g)) ∧
    (∀ y : Ctx, y ≠ x → u.img g y = s.img g y ∧ u.dr g y = s.dr g y) ∧ (∀ h, h ≠ g.val → u.tile h = s.tile h) ∧
    u = { s with tiles := u.tiles, obj := u.obj }

/-- A source of reach M or D has reset the device (R479, R480, R485, R491): every object is at its default and every block
empty, nothing serves, the source is asserted and latched, and only the flash, the TAP and the expanders keep what they
held. -/
def ResetBy (src : ResetSource) (s u : State) : Prop :=
  u.obj = State.reset.obj ∧ u.dict = State.reset.dict ∧ u.own = State.reset.own ∧ u.tiles = [] ∧ u.colls = [] ∧ u.streams = [] ∧
    u.mm = { State.reset.mm with cxlSet := s.mm.cxlSet, cxlGran := s.mm.cxlGran } ∧ u.health = State.reset.health ∧ u.jobs = { State.reset.jobs with ckpts := s.jobs.ckpts } ∧
    u.net = State.reset.net ∧ u.lock = State.reset.lock ∧ u.trace = State.reset.trace ∧ u.fab = State.reset.fab ∧
    u.dma = State.reset.dma ∧ u.cfg = State.reset.cfg ∧ u.sec = State.reset.sec ∧ u.host = State.reset.host ∧ u.jtag = s.jtag ∧
    u.pending = s.pending ∧ u.mem = s.mem.filter (fun e => inCxl e.1) ∧ u.rst.serve = .none ∧ u.rst.exitDone = 0 ∧
    u.rst.asserted = src :: s.rst.asserted.filter (· ≠ src) ∧
    u.rst.causes = (if s.num Obj.deviceState = 1 then s.rst.causes else 0) ||| src.cause

/-- Device memory and the flash are in canonical form: addresses rising, no entry equal to what an unlisted byte reads as. -/
def Canonical (s : State) : Prop := Memory.wf 0 s.mem = true ∧ Memory.wf 0xFF s.store.flash = true

end Sys2Proof.Machine
end

