-- ==== Sys2Proof/Certificates/Slice0/Obligations.lean ====
section
/-! DEFINITION. The claims about the block, for the provers: one proposition each. -/

open Sys2Proof Sys2Proof.Machine

/-- A step takes the command at the front of the queue and answers what that command does on the state with the queue's rest. -/
def Obligations.StepRunsFront : Prop :=
  ∀ (c : Instr) (rest : List Instr) (s : State), s.pending = c :: rest → step s = exec c { s with pending := rest }

/-- With no command waiting, the clock goes on by one nanosecond, each target bridge hands a word to fabric logic and a clock network that runs freely may have an edge, which changes contents of the fabric alone; nothing else changes, and with every bridge empty and no frame configured the clock alone does. The model's choice (log 3, 135). -/
def Obligations.IdleStep : Prop :=
  ∀ s : State, s.pending = [] → Answers (step s) fun t =>
    t.now = s.now + 1 ∧ t = { s with now := t.now, fab := t.fab, out := t.out, free := t.free } ∧
      t.fab = { s.fab with bridges := t.fab.bridges, ffs := t.fab.ffs, cells := t.fab.cells, blocks := t.fab.blocks } ∧
      (s.fab.bridges.all (fun e => e.2.rx.isEmpty) = true → s.fab.frames = [] → t = { s with now := s.now + 1 })

/-- After reset every object reads as its default, nobody owns the device, no claim window and no handover is pending, no group is open, and nothing is listed in device memory or the flash. -/
def Obligations.ResetDefaults : Prop :=
  (∀ k, State.reset.val k = dfltOf k) ∧ State.reset.num Obj.owner = 0 ∧ State.reset.own.window = none ∧
    State.reset.own.acceptBy = none ∧ State.reset.dict.groups = [] ∧ State.reset.pending = [] ∧
    (∀ a, State.reset.byte a = 0) ∧ (∀ a, State.reset.flashByte a = 0xFF) ∧ State.reset.num Obj.deviceState = 1

/-- From every state whose device memory and flash are in canonical form (addresses strictly rising, no entry equal to what an unlisted byte reads as), a step leaves them so. -/
def Obligations.CanonicalKept : Prop :=
  ∀ s t : State, Canonical s → step s = .next t → Canonical t

/-- After reset device memory and the flash are in canonical form. -/
def Obligations.CanonicalAtReset : Prop :=
  Canonical State.reset

/-- Whatever a command does, the commands waiting behind it stay as they are: no effect of the block, a device reset included, reaches the queue. -/
def Obligations.QueueUntouched : Prop :=
  ∀ (c : Instr) (s t : State), exec c s = .next t → t.pending = s.pending

/-- Every command, in every state, is answered with a next state: the block neither faults nor refuses a command. -/
def Obligations.NothingStops : Prop :=
  ∀ (c : Instr) (s : State), Answers (exec c s) fun _ => True

/-- READ of every subentry that exists and is readable is answered with its value in its type's encoding, a measurement with the value it is given as it is read; READ of a WO object fails with READ_DENIED for every master, and of one that does not exist with NO_OBJECT or NO_SUBINDEX. READ_GROUP answers every subentry of its list, in order, with its value at one instant or its error; a list that is no list of 1 to 64 subentries, or whose answer passes 65,536 bytes, is answered with one error. Nothing but measurements, the marks that fault records have been read and the answer itself changes. -/
def Obligations.ReadAnswers : Prop :=
  ∀ (s : State) (m : Master) (tr : Transport) (t : Nat) (seq : BitVec 16), Taken s m tr →
    (∀ (o : ObjId) (r : Row), s.readErr (keyOf o) = none → rowOf (keyOf o) = some r →
      ∃ x : State, ReadState (At s m tr t) x ∧
        exec (.read m tr t seq o) s =
          .next ((x.noteRead (keyOf o)).answer m tr Oap.read 0 seq.toNat (keyOf o) (encodeVal r.ty (x.view (keyOf o)))) ∧
        (s.measures (keyOf o) = false → s.countsTime (keyOf o) = false → x = At s m tr t)) ∧
    (∀ (o : ObjId) (e : Nat), s.readErr (keyOf o) = some e →
      exec (.read m tr t seq o) s = .next ((At s m tr t).answerErr m tr seq.toNat (keyOf o) e 0)) ∧
    (∀ (o : ObjId) (r : Row), existsErr (keyOf o) = none → rowOf (keyOf o) = some r →
      s.readErr (keyOf o) = if r.acc = .wo then some Err.readDenied else none) ∧
    (∀ (o : ObjId) (e : Nat), existsErr (keyOf o) = some e →
      s.readErr (keyOf o) = some e ∧ (e = Err.noObject ∨ e = Err.noSubindex)) ∧
    (∀ l : List ObjId, l ≠ [] → l.length ≤ 64 → ∃ (parts : List (List Byte)) (x : State), ReadState (At s m tr t) x ∧
      parts.length = l.length ∧ (∀ p ∈ l.zip parts, ReadEntry (At s m tr t) (keyOf p.1) p.2) ∧
      exec (.readGroup m tr t seq (l.flatMap fun o => leBytes 2 o.idx.toNat ++ leBytes 1 o.sub.toNat ++ leBytes 1 0)) s =
        .next (if 65536 < parts.flatten.length then (At s m tr t).answerErr m tr seq.toNat 0 Err.readGroupSize 0
          else x.answer m tr Oap.read 4 seq.toNat 0 parts.flatten)) ∧
    (∀ b : List Byte, b.length % 4 ≠ 0 ∨ b = [] ∨ 256 < b.length →
      exec (.readGroup m tr t seq b) s = .next ((At s m tr t).answerErr m tr seq.toNat 0
        (if b.length % 4 ≠ 0 then Err.badLength else Err.readGroupSize) 0))

/-- An owner's admitted WRITE of a plain parameter stores the value and is answered; a persisted one is queued for the store. An admitted 8-byte linear-map write stores it too. A linear-map write that fails the checks changes nothing but the access-status objects, which record the error and the object. Device memory and the tiles stay as they are. -/
def Obligations.WriteStores : Prop :=
  (∀ (s : State) (m : Master) (tr : Transport) (t : Nat) (seq : BitVec 16) (o : ObjId) (val : List Byte) (sets : U64)
      (r : Row) (v : Val), Taken s m tr → s.rst.soft = none → RingServed s → keyOf o ≠ hostRec Obj.reqTail → (At s m tr t).checkVal (masterId m) (keyOf o) val = .ok (r, v) →
      r.acc = .rw ∨ r.acc = .rwp → handlerOf (keyOf o) = Handler.plain →
      Answers (exec (.write m tr t seq o val sets) s) fun u =>
        u.val (keyOf o) = v ∧ u.mem = s.mem ∧ u.tiles = s.tiles ∧ u.own = s.own ∧
        u.store.queue = (if r.pers = true ∧ r.acc = .rwp ∧ s.num Obj.storeState ≠ 3 then s.store.queue ++ [oneRec (keyOf o) v]
          else s.store.queue)) ∧
  (∀ (s : State) (t : Nat) (offset : BitVec 27) (data b : List Byte) (sets : U64) (r : Row) (v : Val) (k : Nat),
      s.rst.serve = .full → s.rst.soft = none → RingServed s → k ≠ hostRec Obj.reqTail → offset.toNat % 8 = 0 →
      offset.toNat < 0x7000000 → data.length = 8 →
      k = offset.toNat / 0x800 * 256 + offset.toNat / 8 % 256 → (s.upto t).rightsErr 1 k = none → rowOf k = some r →
      r.ty.fixed = true → r.acc = .rw ∨ r.acc = .rwp → fromLinear r.ty data = some b → decodeVal r.ty b = some v →
      (s.upto t).allowed r k v = true → handlerOf k = Handler.plain →
      Answers (exec (.linearMapWrite t offset data sets) s) fun u =>
        u.val k = v ∧ u.num Obj.droppedWrites = s.num Obj.droppedWrites ∧ u.mem = s.mem ∧ u.tiles = s.tiles) ∧
  (∀ (s : State) (t : Nat) (offset : BitVec 27) (data : List Byte) (sets : U64) (k e : Nat),
      s.rst.serve = .full → s.rst.soft = none → RingServed s → offset.toNat % 8 = 0 → offset.toNat < 0x7000000 →
      data.length = 8 → k = offset.toNat / 0x800 * 256 + offset.toNat / 8 % 256 → (s.upto t).rightsErr 1 k = some e →
      exec (.linearMapWrite t offset data sets) s =
        .next (((((s.upto t).setNum Obj.lastErrorCode e).setNum Obj.lastErrorObject k).bump Obj.droppedWrites 1).flushHeld))

/-- After a write w to a W1C object, with hardware sets arriving in the same MGCLK cycle, a bit is 1 exactly if it is set in that cycle, or was 1 and is 0 in w; and hardware setting bits makes them 1 and leaves the others. -/
def Obligations.FlagRace : Prop :=
  ∀ (s : State) (k w sets : Nat) (r : Row), rowOf k = some r → r.acc = .w1c → r.ty = .u32 ∨ r.ty = .u16 ∨ r.ty = .u8 ∨ r.ty = .u64 →
    s.num k ≤ maxOf k → (∀ m, k ≠ mrKey Obj.eventsDropped m) →
    (∀ i, ((s.clearFlag k w sets).num k).testBit i = (sets.testBit i || ((s.num k).testBit i && !w.testBit i))) ∧
    (∀ i, ((s.setFlag k sets).num k).testBit i = (sets.testBit i || (s.num k).testBit i))

/-- The owner opens a group, which stages writes without applying them. A commit closes the group: with every check passed it applies everything staged, parameters first and commands after, each staged value of a plain parameter being its value then; with a write that failed as it was staged, or that fails its checks now, it applies nothing and answers that error. An abort, and the 10 s without a commit, close the group and apply nothing. A master that is not the owner opens none, and stages, commits and aborts none. -/
def Obligations.GroupsAreAtomic : Prop :=
  (∀ (s : State) (m : Master) (tr : Transport) (t : Nat) (seq : BitVec 16), Taken s m tr → s.num Obj.owner = masterId m →
      s.group (masterId m) = none → Answers (exec (.groupBegin m tr t seq) s) fun u =>
        u.group (masterId m) = some ⟨max s.now t, [], none⟩ ∧ KeepsBlock s u) ∧
  (∀ (s : State) (m : Master) (tr : Transport) (t : Nat) (seq : BitVec 16), Taken s m tr → s.num Obj.owner ≠ masterId m →
      Answers (exec (.groupBegin m tr t seq) s) fun u => u.group (masterId m) = s.group (masterId m) ∧ KeepsBlock s u) ∧
  (∀ (s : State) (m : Master) (tr : Transport) (t : Nat) (seq : BitVec 16) (o : ObjId) (val : List Byte) (g : Group) (r : Row) (v : Val),
      Taken s m tr → s.groupErr (masterId m) = none → s.group (masterId m) = some g →
      (At s m tr t).checkVal (masterId m) (keyOf o) val = .ok (r, v) → (g.stage (keyOf o) val).fits = true →
      Answers (exec (.groupStage m tr t seq o val) s) fun u =>
        u.group (masterId m) = some (g.stage (keyOf o) val) ∧ KeepsBlock s u ∧ KeepsParameters s u) ∧
  (∀ (s : State) (m : Master) (tr : Transport) (t : Nat) (seq : BitVec 16) (sets : U64) (g : Group), Taken s m tr →
      s.rst.soft = none → RingServed s → s.groupErr (masterId m) = none → s.group (masterId m) = some g → g.failed = none →
      (At s m tr t).firstBad (masterId m) g.staged = none → (g.staged.map (·.1)).Nodup →
      (∀ e ∈ g.staged, e.1 ≠ hostRec Obj.reqTail ∧ handlerOf e.1 = Handler.plain ∧ ∃ r, rowOf e.1 = some r ∧ (r.acc = .rw ∨ r.acc = .rwp)) →
      Tab.sorted s.dict.groups = true →
      Answers (exec (.groupCommit m tr t seq sets) s) fun u =>
        u.group (masterId m) = none ∧
        (∀ e ∈ g.staged, ∀ r v, rowOf e.1 = some r → decodeVal r.ty e.2 = some v → u.val e.1 = v) ∧
        u.mem = s.mem ∧ u.tiles = s.tiles) ∧
  (∀ (s : State) (m : Master) (tr : Transport) (t : Nat) (seq : BitVec 16) (sets : U64) (g : Group) (u : State), Taken s m tr →
      s.groupErr (masterId m) = none → s.group (masterId m) = some g → g.failed = none →
      (At s m tr t).firstBad (masterId m) g.staged = none →
      ((At s m tr t).closeGroup (masterId m)).applyGroup g.staged sets.toNat = .ok u →
      exec (.groupCommit m tr t seq sets) s =
        .next ((u.answer m tr Oap.groupCommit 0 seq.toNat 0 []).afterWrite).pollRing) ∧
  (∀ (s : State) (m : Master) (tr : Transport) (t : Nat) (seq : BitVec 16) (sets : U64) (g : Group) (e k : Nat), Taken s m tr →
      RingServed s → Tab.sorted s.dict.groups = true → s.groupErr (masterId m) = none → s.group (masterId m) = some g →
      g.failed = some (e, k) ∨ (g.failed = none ∧ (At s m tr t).firstBad (masterId m) g.staged = some (e, k)) →
      exec (.groupCommit m tr t seq sets) s =
        .next (((At s m tr t).closeGroup (masterId m)).answerErr m tr seq.toNat k e 0) ∧
      Answers (exec (.groupCommit m tr t seq sets) s) fun u =>
        u.group (masterId m) = none ∧ KeepsBlock s u ∧ KeepsParameters s u) ∧
  (∀ (s : State) (m : Master) (tr : Transport) (t : Nat) (seq : BitVec 16) (o : ObjId) (val : List Byte) (sets : U64), Taken s m tr →
      RingServed s → s.num Obj.owner ≠ masterId m → s.dict.aborted.find? (masterId m) = none →
      exec (.groupStage m tr t seq o val) s = .next ((At s m tr t).answerErr m tr seq.toNat (keyOf o) Err.notOwner 0) ∧
      exec (.groupCommit m tr t seq sets) s = .next ((At s m tr t).answerErr m tr seq.toNat 0 Err.notOwner 0) ∧
      exec (.groupAbort m tr t seq) s = .next ((At s m tr t).answerErr m tr seq.toNat 0 Err.notOwner 0)) ∧
  (∀ (s : State) (m : Master) (tr : Transport) (t : Nat) (seq : BitVec 16) (g : Group), Taken s m tr → s.num Obj.owner = masterId m →
      s.group (masterId m) = some g → Tab.sorted s.dict.groups = true → Answers (exec (.groupAbort m tr t seq) s) fun u =>
        u.group (masterId m) = none ∧ KeepsBlock s u ∧ KeepsParameters s u) ∧
  (∀ (s : State) (m : Master) (g : Group), s.group (masterId m) = some g → Tab.sorted s.dict.groups = true →
      Answers (exec (.groupTimeout m) s) fun u =>
        u.group (masterId m) = none ∧ u.dict.aborted.find? (masterId m) = some 1 ∧
        u = { s with now := max s.now (g.openedAt + 10000000000), dict := u.dict })

/-- A claim by another master opens a 10 ms window, and every claim while one is open joins it; one by the owner outside a window renews its lease and sets its priority. At the close the contestant of highest priority, then lowest claimant ID, becomes owner with a lease from the close. The end of a lease and a release leave the device without an owner, every parameter unchanged; the end of the time to accept a handover, where it comes before the lease's, ends the handover alone. A handover names the successor, who becomes owner on accepting in time, the priority unchanged. -/
def Obligations.OwnershipMoves : Prop :=
  (∀ (s : State) (m : Master) (tr : Transport) (t : Nat) (seq : BitVec 16) (prio : Byte), Taken s m tr →
      s.num Obj.owner ≠ masterId m → s.own.window = none →
      Answers (exec (.claim m tr t seq prio) s) fun u =>
        u.own = { s.own with window := some (max s.now t + 10000000, [⟨masterId m, prio.toNat, tr, canPortOf tr, seq.toNat⟩]) } ∧
        u.num Obj.owner = s.num Obj.owner ∧ KeepsParameters s u) ∧
  (∀ (s : State) (m : Master) (tr : Transport) (t : Nat) (seq : BitVec 16) (prio : Byte), Taken s m tr →
      s.num Obj.owner = masterId m → s.own.window = none →
      Answers (exec (.claim m tr t seq prio) s) fun u =>
        u.own = { s.own with leaseEnd := max s.now t + s.num Obj.leasePeriod * 1000000 } ∧
        u.num Obj.ownerPriority = prio.toNat ∧ u.num Obj.owner = s.num Obj.owner ∧ KeepsParameters s u) ∧
  (∀ (s : State) (e w p : Nat) (l : List Claim), s.own.window = some (e, l) →
      winner (contestants (s.num Obj.owner) (s.num Obj.ownerPriority) l) = some (w, p) →
      (∀ x ∈ contestants (s.num Obj.owner) (s.num Obj.ownerPriority) l, x.2 < p ∨ (x.2 = p ∧ w ≤ x.1)) ∧
      Answers (exec .claimWindowClose s) fun u =>
        u.num Obj.owner = w ∧ u.num Obj.ownerPriority = p ∧ u.own.window = none ∧
        u.own.leaseEnd = max s.now e + s.num Obj.leasePeriod * 1000000 ∧ KeepsParameters s u) ∧
  (∀ s : State, s.num Obj.owner ≠ 0 → s.own.acceptBy = none → Tab.sorted s.dict.groups = true →
      Answers (exec .leaseEnd s) fun u =>
        u.num Obj.owner = 0 ∧ u.num Obj.ownerPriority = 0 ∧ u.now = max s.now s.own.leaseEnd ∧
        u.group (s.num Obj.owner) = none ∧ KeepsParameters s u) ∧
  (∀ (s : State) (m : Master) (tr : Transport) (t : Nat) (seq : BitVec 16) (prio : Byte) (e : Nat) (l : List Claim), Taken s m tr →
      s.own.window = some (e, l) → Answers (exec (.claim m tr t seq prio) s) fun u =>
        u.own = { s.own with window := some (e, l ++ [⟨masterId m, prio.toNat, tr, canPortOf tr, seq.toNat⟩])
                             leaseEnd := if s.num Obj.owner = masterId m then max s.now t + s.num Obj.leasePeriod * 1000000
                               else s.own.leaseEnd } ∧
        u.obj = s.obj ∧ KeepsBlock s { u with own := s.own }) ∧
  (∀ (s : State) (a : Nat), s.num Obj.owner ≠ 0 → s.own.acceptBy = some a → a < s.own.leaseEnd →
      Answers (exec .leaseEnd s) fun u =>
        u.num Obj.owner = s.num Obj.owner ∧ u.num Obj.handoverSuccessor = 0 ∧ u.now = max s.now a ∧
        u.own = { s.own with acceptBy := none } ∧ KeepsParameters s u) ∧
  (∀ (s : State) (m : Master) (tr : Transport) (t : Nat) (seq : BitVec 16), Taken s m tr → s.num Obj.owner = masterId m →
      Tab.sorted s.dict.groups = true →
      Answers (exec (.release m tr t seq) s) fun u =>
        u.num Obj.owner = 0 ∧ u.num Obj.ownerPriority = 0 ∧ u.group (masterId m) = none ∧ KeepsParameters s u) ∧
  (∀ (s : State) (m : Master) (tr : Transport) (t : Nat) (seq : BitVec 16) (succ : Byte), Taken s m tr →
      s.num Obj.owner = masterId m → succ.toNat ≠ masterId m → validClaimant succ.toNat = true →
      (succ = 0xFE → s.num Obj.debugEnabled ≠ 0) →
      Answers (exec (.handover m tr t seq succ) s) fun u =>
        u.num Obj.handoverSuccessor = succ.toNat ∧ u.num Obj.owner = s.num Obj.owner ∧
        u.own = { s.own with leaseEnd := max s.now t + s.num Obj.leasePeriod * 1000000,
                             acceptBy := some (max s.now t + s.num Obj.leasePeriod * 1000000) } ∧ KeepsParameters s u) ∧
  (∀ (s : State) (m : Master) (tr : Transport) (t : Nat) (seq : BitVec 16) (a : Nat), Taken s m tr →
      s.own.acceptBy = some a → max s.now t < a → s.num Obj.handoverSuccessor = masterId m →
      Answers (exec (.handoverAccept m tr t seq) s) fun u =>
        u.num Obj.owner = masterId m ∧ u.num Obj.ownerPriority = s.num Obj.ownerPriority ∧
        u.own = { s.own with acceptBy := none, leaseEnd := max s.now t + s.num Obj.leasePeriod * 1000000 } ∧ KeepsParameters s u)

/-- When an event is raised on a subentry, each subscriber has a pending event for it that carries the bits set, the value after it and its time, or its queue was full and counts one more dropped event; and the oldest pending event of the host goes out in its own message as soon as its ring has room. -/
def Obligations.EventsReachSubscribers : Prop :=
  (∀ (s : State) (k b m : Nat), m ∈ s.subscribers k → (∀ n, k ≠ mrKey Obj.eventsDropped n) →
      let q := s.dict.queues.get MasterQ.empty m
      let q' := (s.raise k b).dict.queues.get MasterQ.empty m
      (∃ e ∈ q'.q, e.key = k ∧ e.bits &&& b = b ∧ e.val = s.val k ∧ e.time = s.now) ∨
        (q'.dropped = q.dropped + 1 ∧ q'.q = q.q ∧ (s.raise k b).num (mrKey Obj.eventsDropped m) =
          min (s.num (mrKey Obj.eventsDropped m) + 1) (maxOf (mrKey Obj.eventsDropped m)))) ∧
  (∀ (s : State) (e : Event) (r : List Event) (row : Row), s.rst.serve ≠ .none → s.rspRoom = true →
      s.dict.held.any (fun o => o.tr = Transport.pcie && o.port = CanPort.fna) = false →
      (s.dict.queues.get MasterQ.empty 1).q = e :: r → (s.dict.queues.get MasterQ.empty 1).dropped = 0 → rowOf e.key = some row →
      let q := s.dict.queues.get MasterQ.empty 1
      exec (.eventDelivery .host) s = .next (State.message 1 .pcie true
        (segments .pcie Oap.event 0 (q.sent % 65536) e.key
          (leBytes 2 e.count ++ leBytes 2 e.bits ++ leBytes 8 e.time ++ encodeVal row.ty e.val))
        { s with dict := { s.dict with queues := s.dict.queues.put 1 { q with q := r, sent := q.sent + 1 } } }))

/-- A record whose programming succeeds in the room left stands in erased flash byte for byte, leaves the queue and takes the next sequence number; a third failed attempt takes the store to Fault and leaves the record waiting. StoreSync waits for the records pending, and its event follows once they are durable. ForgetPersisted appends one group record with DEFAULT for every RWP object and changes no value. A completed compaction makes the other area active and, with EraseAhead 1, erases the old one; the copy that finishes one cut short ends, and an erase that fails takes the store to Fault. -/
def Obligations.StoreKeepsRecords : Prop :=
  (∀ (s : State) (r : PendRec) (rest : List PendRec), s.store.queue = r :: rest → s.num Obj.storeState ≠ 3 →
      s.rst.storeLoaded = true → recSize r ≤ s.roomLeft → Memory.wf 0xFF s.store.flash = true →
      (∀ i, i < recSize r → s.flashByte (areaBase (s.num Obj.activeArea) + s.store.writePos + i) = 0xFF) →
      Answers (exec (.recordCommitDone 0) s) fun u =>
        u.store.queue = rest ∧ u.num Obj.pendingRecords = rest.length ∧ u.num Obj.lastSequence = s.store.nextSeq ∧
        u.store.nextSeq = s.store.nextSeq + 1 ∧ u.store.writePos = s.store.writePos + recSize r ∧
        (∀ i (h : i < (recBytes s.store.nextSeq r).length),
          u.flashByte (areaBase (s.num Obj.activeArea) + s.store.writePos + i) = (recBytes s.store.nextSeq r)[i]) ∧
        u.mem = s.mem ∧ u.tiles = s.tiles) ∧
  (∀ (s : State) (r : PendRec) (rest : List PendRec) (n : Fin 4), s.store.queue = r :: rest → s.num Obj.storeState ≠ 3 →
      s.rst.storeLoaded = true → s.store.tries ≤ 2 → s.store.tries + n.val = 3 → n.val * recSize r ≤ s.roomLeft →
      Answers (exec (.recordCommitDone n) s) fun u =>
        u.num Obj.storeState = 3 ∧ u.store.queue = s.store.queue ∧ (u.num Obj.storeFlags).testBit 0 = true ∧
        u.store.writePos = s.store.writePos + n.val * recSize r ∧ u.mem = s.mem ∧ u.tiles = s.tiles) ∧
  (∀ (s : State) (t : Nat), s.rst.serve = .full → (s.upto t).rightsErr 1 Obj.storeSync = none →
      exec (.storeSync ⟨.linear, t⟩ [1]) s =
        .next { s.upto t with store := { s.store with syncs := s.store.syncs ++ [s.store.queue.length] } }) ∧
  (∀ (s : State) (r : List Nat), s.store.syncs = 0 :: r →
      exec .storeSynced s = .next ({ s with store := { s.store with syncs := r } }.raiseVal Obj.storeSync 0 (.num 1))) ∧
  (∀ (s : State) (t : Nat), s.rst.serve = .full → (s.upto t).rightsErr 1 Obj.forgetPersisted = none → s.num Obj.storeState ≠ 3 →
      Answers (exec (.forgetPersisted ⟨.linear, t⟩ [0xF0, 0xF0, 0, 0]) s) fun u =>
        u.store.queue = s.store.queue ++ [groupRec (rwpKeys.map fun k => (k, true, []))] ∧
        KeepsObjects [Obj.pendingRecords, Obj.storeState] s u ∧
        u = { s with now := u.now, obj := u.obj, store := u.store, dict := { s.dict with queues := u.dict.queues } }) ∧
  (∀ s : State, s.store.copying = true → s.store.loadCopy = false → s.num Obj.storeState ≠ 3 → s.num Obj.activeArea ≤ 1 →
      s.num Obj.eraseAhead = 1 → Answers (exec (.compactionComplete false) s) fun u =>
        u.num Obj.activeArea = 1 - s.num Obj.activeArea ∧
        (u.overThreshold = false → u.headWaits = false → u.num Obj.storeState = 0 ∧ u.store.copying = false) ∧
        (u.num Obj.storeFlags).testBit 2 = true ∧ u.store.queue = s.store.queue ∧ u.mem = s.mem ∧
        (Memory.wf 0xFF s.store.flash = true → ∀ a, areaBase (s.num Obj.activeArea) ≤ a →
          a < areaBase (s.num Obj.activeArea) + areaSize → u.flashByte a = 0xFF)) ∧
  (∀ s : State, s.store.copying = true → s.store.loadCopy = false → s.num Obj.storeState ≠ 3 → s.num Obj.activeArea ≤ 1 →
      s.num Obj.eraseAhead = 1 → Answers (exec (.compactionComplete true) s) fun u =>
        u.num Obj.storeState = 3 ∧ (u.num Obj.storeFlags).testBit 1 = true ∧ u.store.queue = s.store.queue ∧ u.mem = s.mem) ∧
  (∀ (s : State) (b : Bool), s.store.loadCopy = true → s.num Obj.storeState ≠ 3 →
      Answers (exec (.compactionComplete b) s) fun u =>
        u.store.loadCopy = false ∧ u.num Obj.activeArea = s.num Obj.activeArea ∧ u.store.queue = s.store.queue ∧ u.mem = s.mem)

/-- A one-segment READ message is served as the READ it carries. A partial message not continued for 100 ms is discarded, answered once and counted. A CAN FD frame of function 4 from a node, a peer segment from the accepted device, and a write to OAPSEG hand their segment on as that transport's; a capture of OAPSEG takes the oldest waiting segment. -/
def Obligations.SegmentsCarryRequests : Prop :=
  (∀ (s : State) (m : Master) (tr : Transport) (t : Nat) (seq : BitVec 16) (o : ObjId), Taken s m tr → s.transportOn tr = true →
      RingServed s → s.partialOf m tr = none → Tab.sorted s.dict.partials = true →
      exec (.segmentReceive m tr t (segHead Oap.read 0 0 seq.toNat (keyOf o) 0)) s = exec (.read m tr t seq o) s ∧
      Answers (exec (.segmentReceive m tr t (segHead Oap.read 0 0 seq.toNat (keyOf o) 0)) s) fun u => u.mem = s.mem ∧ u.tiles = s.tiles ∧
        KeepsParameters s u) ∧
  (∀ (s : State) (m : Master) (tr : Transport) (p : Partial), s.partialOf m tr = some p → Tab.sorted s.dict.partials = true →
      Answers (exec (.segmentGapTimeout m tr) s) fun u =>
        u.partialOf m tr = none ∧ u.now = max s.now (p.last + 100000000) ∧
        u.num Obj.segmentsDiscarded = min (s.num Obj.segmentsDiscarded + 1) (maxOf Obj.segmentsDiscarded) ∧
        KeepsBlock s u ∧ KeepsParameters s u) ∧
  (∀ (s : State) (port : CanPort) (t : Nat) (id : BitVec 29) (data : List Byte), bits id.toNat 25 4 = 4 → s.canTakes port = true →
      s.canFor id = true → exec (.canOapFrame port t id data) s =
        exec (.segmentReceive (.node (BitVec.ofNat 7 (bits id.toNat 11 7))) (match port with | .fna => .fna | .fnb => .fnb) t data) s) ∧
  (∀ (s : State) (t : Nat) (id : BitVec 29) (seq : BitVec 16) (o : ObjId), let m := Master.node (BitVec.ofNat 7 (bits id.toNat 11 7))
      bits id.toNat 25 4 = 4 → s.canTakes .fna = true → s.canFor id = true → Taken s m .fna → s.transportOn .fna = true →
      RingServed s → s.partialOf m .fna = none → Tab.sorted s.dict.partials = true →
      Answers (exec (.canOapFrame .fna t id (segHead Oap.read 0 0 seq.toNat (keyOf o) 0)) s) fun u => u.mem = s.mem ∧ u.tiles = s.tiles ∧
        KeepsParameters s u) ∧
  (∀ (s : State) (t : Nat) (dev : BitVec 12) (bytes : List Byte), s.rst.serve = .full → 8 ≤ bytes.length →
      s.num Obj.peerManagerDevice = 0xFFFF ∨ s.num Obj.peerManagerDevice = dev.toNat →
      let q := s.dict.queues.get MasterQ.empty 0xC0
      let s1 := { s.upto t with dict := { s.dict with queues := s.dict.queues.put 0xC0 { q with vc2Dev := some dev.toNat } } }
      exec (.peerOapSegment t dev bytes) s = .next (s1.flushHeld.receive .peer .vc2 bytes).pollRing) ∧
  (∀ (s : State) (t : Nat) (bytes : List Byte), s.jtag.ir = 0x20 → bytes.length = 256 →
      exec (.oapsegUpdate t bytes) s = exec (.segmentReceive .jtag .jtag t (fitTo 256 bytes)) s) ∧
  (∀ (s : State) (t : Nat) (seq : BitVec 16) (o : ObjId), s.jtag.ir = 0x20 → Taken s .jtag .jtag → s.transportOn .jtag = true →
      RingServed s → s.partialOf .jtag .jtag = none → Tab.sorted s.dict.partials = true →
      Answers (exec (.oapsegUpdate t (segHead Oap.read 0 0 seq.toNat (keyOf o) 0 ++ List.replicate 248 0)) s) fun u =>
        u.mem = s.mem ∧ u.tiles = s.tiles ∧ KeepsParameters s u) ∧
  (∀ (s : State) (b : List Byte) (r : List (List Byte)), s.jtag.ir = 0x20 → s.dict.jtagOut = b :: r →
      exec .oapsegCapture s = .next { s with out := .jtag (fitTo 256 b) :: s.out, dict := { s.dict with jtagOut := r } })

/-- A host write of ReqTail with one slot to serve serves it and moves ReqHead; a write of RspHead lets what waited for room go out; a write of RingSlots returns the four ring pointers to 0. Error confinement takes a field-network port from ErrorActive to ErrorPassive, from either to BusOff, which counts, and back to ErrorActive. A reset command frame from the owner resets the device as FieldResetReach says; any other is counted and ignored. -/
def Obligations.TransportsRun : Prop :=
  (∀ (s : State) (t : Nat) (b : List Byte) (v : Nat), s.rst.serve = .full → (s.upto t).rightsErr 1 (hostRec Obj.reqTail) = none →
      s.hostUp = true → v < s.num (hostRec Obj.ringSlots) → v ≤ 0xFFFF →
      (s.num (hostRec Obj.reqHead) + 1) % s.num (hostRec Obj.ringSlots) = v → s.num (hostRec Obj.reqHead) ≠ v →
      headType b = Oap.read → exec (.reqTailWrite ⟨.linear, t⟩ (leBytes 2 v) [b]) s =
        .next ((((s.upto t).setNum (hostRec Obj.reqTail) v).setNum (hostRec Obj.reqHead) v).receive .host .pcie b)) ∧
  (∀ (s : State) (t v : Nat), s.rst.serve = .full → (s.upto t).rightsErr 1 (hostRec Obj.rspHead) = none →
      v < s.num (hostRec Obj.ringSlots) → v ≤ 0xFFFF →
      exec (.rspHeadWrite ⟨.linear, t⟩ (leBytes 2 v)) s = .next ((s.upto t).setNum (hostRec Obj.rspHead) v).flushHeld) ∧
  (∀ (s : State) (t : Nat), s.rst.serve = .full → (s.upto t).rightsErr 1 (hostRec Obj.ringSlots) = none → s.dict.held = [] →
      Answers (exec (.oapRingConfigWrite ⟨.linear, t⟩ 0x0C (leBytes 2 32)) s) fun u =>
        u.num (hostRec Obj.ringSlots) = 32 ∧ u.num (hostRec Obj.reqTail) = 0 ∧ u.num (hostRec Obj.reqHead) = 0 ∧
        u.num (hostRec Obj.rspTail) = 0 ∧ u.num (hostRec Obj.rspHead) = 0 ∧ u = { s with now := u.now, obj := u.obj }) ∧
  (∀ s : State, s.num Obj.fnaState = 1 → Answers (exec (.canBusOff .fna .passive) s) fun u =>
      u.num Obj.fnaState = 2 ∧ ChangesOnly [Obj.fnaState] s u) ∧
  (∀ s : State, s.num Obj.fnaState = 1 ∨ s.num Obj.fnaState = 2 → Answers (exec (.canBusOff .fna .busOff) s) fun u =>
      u.num Obj.fnaState = 3 ∧ u.num Obj.fnaBusOffs = min (s.num Obj.fnaBusOffs + 1) (maxOf Obj.fnaBusOffs) ∧
      ChangesOnly [Obj.fnaState, Obj.fnaBusOffs] s u) ∧
  (∀ s : State, s.num Obj.fnbState = 2 ∨ s.num Obj.fnbState = 3 → s.dict.held = [] →
      Answers (exec (.canBusOff .fnb .active) s) fun u => u.num Obj.fnbState = 1 ∧ ChangesOnly [Obj.fnbState] s u) ∧
  (∀ (s : State) (port : CanPort) (t : Nat) (id : BitVec 29), bits id.toNat 25 4 = 1 → s.canTakes port = true → s.canFor id = true →
      s.rst.serve = .full → s.num Obj.owner = 0x40 + bits id.toNat 11 7 → bits (s.num Obj.fieldResetReach) 0 2 = 1 →
      Answers (exec (.resetCommandFrame port t id [0x5A, 0, 0, 0, 0, 0, 0, 0]) s) fun u =>
        u.num Obj.deviceState = 1 ∧ ResetSource.field ∈ u.rst.asserted ∧ u.rst.serve = .none ∧ u.num Obj.owner = 0) ∧
  (∀ (s : State) (port : CanPort) (t : Nat) (id : BitVec 29) (data : List Byte), bits id.toNat 25 4 = 1 → s.canTakes port = true →
      s.canFor id = true → s.rst.serve = .full → s.num Obj.owner ≠ 0x40 + bits id.toNat 11 7 →
      exec (.resetCommandFrame port t id data) s = .next ((s.upto t).bump Obj.resetCommandsIgnored 1))

/-- At its boundary the issuing pass, with its working accumulators and counts, awaits commit; the next pass issues, or the drawer drains after the last, holds for a steering hold, or goes on to stop behind a request; at level 0 no pass that takes issue cycles reaches its boundary. A commit takes the oldest such pass, whatever its mode, and counts it; without a stationary operand its working accumulators become its C block's, and with no result in flight and no fabric stream at the tile nothing else changes, nor does any other tile. Written output completes the operation: it counts in the job's totals, nothing outside the stored blocks changes, and the drawer is Assigned. A release leaves the context empty. -/
def Obligations.DrawersRun : Prop :=
  (∀ (s : State) (g : Tile) (x : Ctx) (o : ArrayOp) (n : Nat), let d := s.dr g x
      d.st = .issuing → d.op = some o → 0 < d.level ∨ s.passFree g d o = true →
      Answers (exec (.passBoundary g x n) s) fun u =>
        u.dr g x = { d with
          await := d.await ++ [s.runPass g (s.withSet g d o d.pass) o d.pass]
          pass := d.pass + 1
          sets := (u.dr g x).sets
          begun := (u.dr g x).begun
          st := if d.asked then (if d.hold ≠ [] ∧ d.pass + 1 ≠ d.passes o then .holding else .stopping)
            else if d.pass + 1 = d.passes o then .draining else if d.hold ≠ [] then .holding else .issuing } ∧
        ((u.dr g x).begun = true ↔ (u.dr g x).st = .issuing) ∧
        u.num (tileKey Obj.preemptLatencyMax g) = (if d.preempt then min (max (s.num (tileKey Obj.preemptLatencyMax g)) n)
          (maxOf (tileKey Obj.preemptLatencyMax g)) else s.num (tileKey Obj.preemptLatencyMax g)) ∧
        u = { s with tiles := u.tiles, obj := u.obj } ∧ (∀ h, h ≠ g.val → u.tile h = s.tile h)) ∧
  (∀ (s : State) (g : Tile) (x : Ctx) (o : ArrayOp) (n : Nat), (s.dr g x).st = .issuing → (s.dr g x).op = some o →
      (s.dr g x).level = 0 → s.passFree g (s.dr g x) o = false → exec (.passBoundary g x n) s = .next s) ∧
  (∀ (s : State) (g : Tile) (x : Ctx) (o : ArrayOp) (p : PassWork) (rest : List PassWork), (s.dr g x).op = some o →
      (s.dr g x).await = p :: rest → (s.dr g x).st ≠ .stopping → s.spillLocked g x o p = false →
      Answers (exec (.passCommit g x) s) fun u =>
        (u.dr g x).await = rest ∧ (u.dr g x).st = (s.dr g x).st ∧
        u.num (tileKey Obj.passesCommitted g) =
          min (s.num (tileKey Obj.passesCommitted g) + 1) (maxOf (tileKey Obj.passesCommitted g))) ∧
  (∀ (s : State) (g : Tile) (x : Ctx) (o : ArrayOp) (p : PassWork) (rest : List PassWork), (s.dr g x).op = some o →
      (s.dr g x).await = p :: rest → (s.dr g x).st ≠ .stopping → o.stat = 0 → (s.tile g).flight = [] →
      s.portStream g 2 = none → s.portStream g 3 = none → Answers (exec (.passCommit g x) s) fun u =>
        (let b := (s.dr g x).block o ((s.dr g x).passAt o p.pass).1 ((s.dr g x).passAt o p.pass).2.1
         (u.dr g x).accs.get [] b = p.acc ∧
         ∀ b', b' ≠ b → (u.dr g x).accs.get [] b' = (s.dr g x).accs.get [] b') ∧
        u = { s with tiles := u.tiles, obj := u.obj } ∧ (∀ h, h ≠ g.val → u.tile h = s.tile h)) ∧
  (∀ (s : State) (g : Tile) (x : Ctx) (o : ArrayOp), (s.dr g x).op = some o → (s.dr g x).st = .draining → (s.dr g x).await = [] →
      o.dest = false → o.record = false → (s.dr g x).pendOp = none → (s.dr g x).asked = false → (s.dr g x).hold = [] →
      o.outRanges.any (fun r => (s.tile g).lockedBut (some x.val) r.1 r.2) = false →
      Answers (exec (.outputWritten g x) s) fun u =>
        (u.dr g x).st = .assigned ∧ (u.dr g x).op = none ∧
        (u.jobTotals.get ⟨0, Counts.zero⟩ (s.dr g x).jobId).ops = (s.jobTotals.get ⟨0, Counts.zero⟩ (s.dr g x).jobId).ops + 1 ∧
        (Memory.wf 0 s.mem = true → ∀ a,
          (∀ i b, i < (if o.outdim then o.n else o.m) → b < ceilDiv (if o.outdim then o.m else o.n) 16 →
            let pos := i * (16 * ceilDiv (if o.outdim then o.m else o.n) 16) + 16 * b
            let at' := operandBase g + o.cOff + packedSize o.fmtOut pos
            (a < at' ∨ at' + packedSize o.fmtOut 16 ≤ a) ∧
              (fmtScaled o.fmtOut = true → a ≠ operandBase g + o.cFs + pos / 16)) → u.byte a = s.byte a) ∧
        (∀ h, h ≠ g.val → u.tile h = s.tile h)) ∧
  (∀ (s : State) (g : Tile) (x : Ctx), (s.dr g x).st = .assigned ∨ (s.dr g x).st = .stopped →
      Answers (exec (.drawerRelease g x) s) fun u => u.ctx g x = Context.none ∧ (∀ h, h ≠ g.val → u.tile h = s.tile h))

/-- A pre-emption request stops at once a drawer that issues no pass and has none to commit, is noted by a busy one, and does nothing to a real-time drawer. A steering hold marks every drawer covering the row and holds an idle one at once; the release takes that row's mark away, and a drawer that no other row holds goes on where it was. -/
def Obligations.DrawersStopAndHold : Prop :=
  (∀ (s : State) (g : Tile) (x : Ctx), (s.dr g x).st = .assigned ∨ ((s.dr g x).st = .discarding ∧ (s.dr g x).await = []) →
      (s.dr g x).rt = false →
      Answers (exec (.preemptionRequest g x) s) fun u => (u.dr g x).st = .stopped ∧ (u.dr g x).accs = (s.dr g x).accs) ∧
  (∀ (s : State) (g : Tile) (x : Ctx), let d := s.dr g x
      d.st = .issuing ∨ d.st = .draining ∨ d.st = .holding ∨ d.st = .stopping ∨ (d.st = .discarding ∧ d.await ≠ []) →
      d.rt = false → Answers (exec (.preemptionRequest g x) s) fun u =>
        u.dr g x = { d with preempt := true, st := if d.st = .discarding then .stopping else d.st } ∧
          u = { s with tiles := u.tiles } ∧ (∀ h, h ≠ g.val → u.tile h = s.tile h)) ∧
  (∀ (s : State) (g : Tile) (x : Ctx), (s.dr g x).rt = true → exec (.preemptionRequest g x) s = .next s) ∧
  (∀ (s : State) (g : Tile) (row : Fin 16), Answers (exec (.steeringHold g row) s) fun u =>
      u = { s with tiles := u.tiles } ∧ (∀ h, h ≠ g.val → u.tile h = s.tile h) ∧
      ∀ x : Ctx, u.dr g x = if (s.dr g x).covers row then
          { s.dr g x with
            hold := if (s.dr g x).hold.contains row.val then (s.dr g x).hold else row.val :: (s.dr g x).hold
            st := if (s.dr g x).st = .assigned then .holding else (s.dr g x).st } else s.dr g x) ∧
  (∀ (s : State) (g : Tile) (row : Fin 16), (∀ x : Ctx, (s.dr g x).asked = false) →
      Answers (exec (.steeringRelease g row) s) fun u =>
      u = { s with tiles := u.tiles } ∧ (∀ h, h ≠ g.val → u.tile h = s.tile h) ∧
      ∀ x : Ctx, let d := { s.dr g x with hold := (s.dr g x).hold.filter (· ≠ row.val) }
        u.dr g x = if (s.dr g x).bound && (s.dr g x).hold.contains row.val then
          (if d.st = .holding ∧ d.hold = [] then { d.goOn with sets := (u.dr g x).sets } else d) else s.dr g x)

/-- A ramp-down step lowers a level above 0 by one, its first counting in RampDowns; a ramp-up step raises the level, below 8 and its cap, of a drawer that issues or whose replay waits for density; a real-time drawer below its cap rises with or without work; a level above the cap falls. The throttle target of a tile changes nothing but its object, and nothing of a lost cabinet. No rise passes the cap. -/
def Obligations.LevelsStep : Prop :=
  (∀ (s : State) (g : Tile) (x : Ctx) (first : Bool), (s.dr g x).bound = true → (s.dr g x).rt = false → 0 < (s.dr g x).level →
      first = true ∨ (s.dr g x).ramping = true → Answers (exec (.rampDownStep g ⟨x, first⟩) s) fun u =>
        u.dr g x = { s.dr g x with level := (s.dr g x).level - 1, ramping := true } ∧
        u.num (tileKey Obj.rampDowns g) = (if first then min (s.num (tileKey Obj.rampDowns g) + 1) (maxOf (tileKey Obj.rampDowns g))
          else s.num (tileKey Obj.rampDowns g)) ∧
        u = { s with tiles := u.tiles, obj := u.obj }) ∧
  (∀ (s : State) (g : Tile) (x : Ctx), (s.dr g x).bound = true → (s.dr g x).rt = false →
      (s.dr g x).st = .issuing ∨ (s.dr g x).st = .discarding → (s.dr g x).level < min 8 (s.capOf g x) → Answers (exec (.rampUpStep g x) s) fun u =>
        u.dr g x = { s.dr g x with level := (s.dr g x).level + 1, ramping := false, st := .issuing } ∧
        (u.dr g x).level ≤ u.capOf g x ∧
        u = { s with tiles := u.tiles }) ∧
  (∀ (s : State) (g : Tile) (x : Ctx), (s.dr g x).bound = true → s.capOf g x < (s.dr g x).level →
      Answers (exec (.capDescentStep g x) s) fun u =>
        u.dr g x = { s.dr g x with level := (s.dr g x).level - 1 } ∧ u = { s with tiles := u.tiles }) ∧
  (∀ (s : State) (g : Tile) (x : Ctx), (s.dr g x).bound = true → (s.dr g x).rt = true →
      (s.dr g x).level < min 8 (s.capOf g x) → Answers (exec (.realtimeRiseStep g x) s) fun u =>
        u.dr g x = { s.dr g x with
          level := (s.dr g x).level + 1
          st := if (s.dr g x).st = .discarding then .issuing else (s.dr g x).st } ∧
        (u.dr g x).level ≤ u.capOf g x ∧
        u = { s with tiles := u.tiles }) ∧
  (∀ (s : State) (g : Tile) (n : Fin 9), s.lost (cabOf g) = true → exec (.throttleTargetArrival g n) s = .next s) ∧
  (∀ (s : State) (g : Tile) (n : Fin 9), s.lost (cabOf g) = false → Answers (exec (.throttleTargetArrival g n) s) fun u =>
        u.num (tileKey Obj.throttleTarget g) = n ∧ u = { s with obj := u.obj } ∧
        ∀ k, k ≠ tileKey Obj.throttleTarget g → u.val k = s.val k)

/-- A bench selection of an empty tile of a cabinet that stands, Offline or in Bench, puts it in Bench and leaves in BenchResult that the run is done, whether it passed, how many sites failed and on which shelves, the second of two selections of both; nothing else but the tile's note of it changes. -/
def Obligations.BenchRuns : Prop :=
  (∀ (s : State) (g : Tile) (sel : List (Fin 17)) (bad : List (Fin 16 × Fin 17)) (prev : List (Nat × Nat)),
    (s.tile g).bound = [] → s.num (tileKey Obj.tileState g) < 2 → s.lost (cabOf g) = false → (s.tile g).bench = some prev →
    Answers (exec (.benchSelection g sel bad) s) fun u =>
      u.num (tileKey Obj.tileState g) = 1 ∧ (u.tile g).bench = none ∧
      (∀ sh : Fin 16, (u.num (tileKey Obj.benchResult g)).testBit sh =
        (prev.any (·.1 = sh.val) || bad.any (fun f => f.1 = sh && (sel.map (·.val)).getD f.1.val 17 ≠ f.2.val))) ∧
      u = { s with tiles := u.tiles, obj := u.obj, dict := u.dict } ∧ (∀ h, h ≠ g.val → u.tile h = s.tile h)) ∧
  ∀ (s : State) (g : Tile) (sel : List (Fin 17)) (bad : List (Fin 16 × Fin 17)), (s.tile g).bound = [] →
    s.num (tileKey Obj.tileState g) < 2 → s.lost (cabOf g) = false → (s.tile g).bench = none →
    (∀ f ∈ bad, (sel.map (·.val)).getD f.1.val 17 ≠ f.2.val) → bad.Nodup →
    Answers (exec (.benchSelection g sel bad) s) fun u =>
      u.num (tileKey Obj.tileState g) = 1 ∧
      (let v := u.num (tileKey Obj.benchResult g)
       v.testBit 31 = true ∧ v.testBit 30 = bad.isEmpty ∧ v / 2 ^ 16 % 64 = min bad.length 63 ∧
         ∀ sh : Fin 16, v.testBit sh = bad.any (·.1 = sh)) ∧
      u = { s with tiles := u.tiles, obj := u.obj, dict := u.dict } ∧ (u.tile g).bound = [] ∧ (∀ h, h ≠ g.val → u.tile h = s.tile h)

/-- A free slot of a running collector opens for a destination in the stream buffer. An admitted head of next ORDER joins its chain at once; a head out of order waits in staging; a staged entry whose turn has come is combined and leaves staging; each residue fault of an addition counts one repeat. A slot whose chains hold every contribution closes, and counts as an operation of its job. Sums of INT32 saturate at ±(2^31 − 1), 0x8000_0000 stays, and an FP32 sum with a NaN is a NaN. -/
def Obligations.CollectorReduces : Prop :=
  (∀ (s : State) (c : Cab) (slot : Fin 256) (n : Fin 151) (len : Nat) (dest : BitVec 48) (job : BitVec 32) (off : Nat),
      s.collUp c = true → (s.coll c).slots.find? slot = none → 1 ≤ n.val → 0 < len →
      s.place dest.toNat = .buffer c off → Answers (exec (.collectorSlotOpen c slot n len dest job) s) fun u =>
        (u.coll c).slots.find? slot = some ⟨n, len, dest.toNat, job.toNat, []⟩ ∧ (u.coll c).staging = (s.coll c).staging ∧
        u.mem = s.mem ∧ u.tiles = s.tiles) ∧
  (∀ (s : State) (c : Cab) (t : Fin 150) (e : Entry) (x w n : Nat) (r : List (Entry × Nat × Nat)), s.collUp c = true →
      (s.tile (150 * c + t)).queue = (e, x, w) :: r → (∀ t' : Fin 150, t' ≠ t → (s.tile (150 * c + t')).queue = []) →
      (∃ o, (s.coll c).slots.find? e.slot = some o) → (s.coll c).isNext e = false → (s.coll c).staging.length < 1024 →
      Answers (exec (.collectorAdmit ⟨c, n⟩) s) fun u =>
        (u.tile (150 * c + t)).queue = r ∧ (u.coll c).staging = (s.coll c).staging ++ [e] ∧
        u.num (Obj.entriesAdmitted + 0x10000 * c) =
          min (s.num (Obj.entriesAdmitted + 0x10000 * c) + 1) (maxOf (Obj.entriesAdmitted + 0x10000 * c)) ∧ u.mem = s.mem) ∧
  (∀ (s : State) (c : Cab) (t : Fin 150) (e : Entry) (x w n : Nat) (r : List (Entry × Nat × Nat)) (o : Slot), s.collUp c = true →
      (s.tile (150 * c + t)).queue = (e, x, w) :: r → (∀ t' : Fin 150, t' ≠ t → (s.tile (150 * c + t')).queue = []) →
      (s.coll c).slots.find? e.slot = some o → Tab.sorted (s.coll c).slots = true → (s.coll c).isNext e = true →
      (let o' := { o with chains := o.chains.put e.offset ((o.chains.get Chain.empty e.offset).combine e) }
       Answers (exec (.collectorAdmit ⟨c, n⟩) s) fun u =>
        (u.tile (150 * c + t)).queue = r ∧ (u.coll c).staging = (s.coll c).staging ∧
        (u.coll c).slots.find? e.slot = (if o'.complete then none else some o') ∧
        (u.jobTotals.get ⟨0, Counts.zero⟩ o.jobId).ops =
          (s.jobTotals.get ⟨0, Counts.zero⟩ o.jobId).ops + (if o'.complete then 1 else 0) ∧
        u.num (Obj.combineReplays + 0x10000 * c) =
          min (s.num (Obj.combineReplays + 0x10000 * c) + n) (maxOf (Obj.combineReplays + 0x10000 * c)) ∧
        (o'.complete = false → u.mem = s.mem))) ∧
  (∀ (s : State) (c : Cab) (slot : Fin 256) (offset : BitVec 24) (n : Nat) (e : Entry) (o : Slot), e ∈ (s.coll c).staging →
      e.slot = slot.val → e.offset = offset.toNat → (s.coll c).isNext e = true →
      (∀ e' ∈ (s.coll c).staging, e'.slot = slot.val → e'.offset = offset.toNat → (s.coll c).isNext e' = true → e' = e) →
      (s.coll c).slots.find? slot = some o → Tab.sorted (s.coll c).slots = true →
      (let o' := { o with chains := o.chains.put e.offset ((o.chains.get Chain.empty e.offset).combine e) }
       Answers (exec (.chainCombine c slot offset n) s) fun u =>
        (u.coll c).staging = (s.coll c).staging.erase e ∧
        (u.coll c).slots.find? slot = (if o'.complete then none else some o') ∧
        u.num (Obj.combineReplays + 0x10000 * c) =
          min (s.num (Obj.combineReplays + 0x10000 * c) + n) (maxOf (Obj.combineReplays + 0x10000 * c)) ∧
        (o'.complete = false → u.mem = s.mem))) ∧
  (∀ (h : Chain) (a e : Entry) (l : Nat) (p q : BitVec 32), h.acc = some a → e.fmt = 10 → l < 32 → a.data[l]? = some p →
      e.data[l]? = some q → e.valid.getLsbD l = true → a.data.length = 32 → e.data.length = 32 →
      ((h.combine e).acc.map fun b => b.data.getD l 0) =
        some (if p = 0x80000000 ∨ q = 0x80000000 then 0x80000000
          else BitVec.ofInt 32 (max (-0x7FFFFFFF) (min 0x7FFFFFFF (p.toInt + q.toInt))))) ∧
  (∀ (h : Chain) (a e : Entry) (l : Nat) (p q : BitVec 32), h.acc = some a → e.fmt ≠ 10 → l < 32 → a.data[l]? = some p →
      e.data[l]? = some q → e.valid.getLsbD l = true → val32 p = .nan ∨ val32 q = .nan →
      ((h.combine e).acc.map fun b => b.data.getD l 0) = some 0x7FC00000)

/-- NOP, YIELD, JMP, BR, LOOP, SLI, SADD, SSHF and SMOVV, chosen for issue with a target in the window, issue: the PC goes on or to the target as the comparison or the count says, and the scalar result is in flight with its latency. Every other context and tile stands as it did, and memory too. -/
def Obligations.ControlOps : Prop :=
  (∀ (s : State) (g : Tile) (x : Ctx) (w : BitVec 120), Chosen s g x 0x00 w →
      let i := s.img g x
      Answers (exec (.nop g x w) s) fun u => Issues s u g x (i.pc + 1) i.seq []) ∧
  (∀ (s : State) (g : Tile) (x : Ctx) (w : BitVec 120), Chosen s g x 0x0B w →
      let i := s.img g x
      Answers (exec (.yield g x w) s) fun u => Issues s u g x (i.pc + 1) i.seq [] ∧ (u.th g x).yielded = true) ∧
  (∀ (s : State) (g : Tile) (x : Ctx) (w : BitVec 120), Chosen s g x 0x02 w → opf (w.toNat * 256) 32 12 < (s.th g x).winLen →
      let v := w.toNat * 256
      let i := s.img g x
      Answers (exec (.jmp g x w) s) fun u => Issues s u g x (opf v 32 12) i.seq []) ∧
  (∀ (s : State) (g : Tile) (x : Ctx) (w : BitVec 120), Chosen s g x 0x03 w → opf (w.toNat * 256) 32 12 < (s.th g x).winLen → opf (w.toNat * 256) 28 3 < 6 →
      let v := w.toNat * 256
      let i := s.img g x
      Answers (exec (.br g x w) s) fun u => 
        let a := i.reg (opf v 20 4)
        let b := i.reg (opf v 24 4)
        let taken := match opf v 28 3 with
          | 0 => decide (a = b)
          | 1 => decide (a ≠ b)
          | 2 => decide (a.toInt < b.toInt)
          | 3 => decide (b.toInt ≤ a.toInt)
          | 4 => decide (a.toNat < b.toNat)
          | _ => decide (b.toNat ≤ a.toNat)
        Issues s u g x (if taken then opf v 32 12 else i.pc + 1) i.seq []) ∧
  (∀ (s : State) (g : Tile) (x : Ctx) (w : BitVec 120), Chosen s g x 0x04 w → opf (w.toNat * 256) 32 12 < (s.th g x).winLen →
      let v := w.toNat * 256
      let i := s.img g x
      Answers (exec (.loop g x w) s) fun u => 
        let r := i.reg (opf v 16 4) - 1
        Issues s u g x (if r = 0 then i.pc + 1 else opf v 32 12) i.seq [⟨x, cycleOf s g x + 1, .scalar (opf v 16 4) r, 0, none⟩]) ∧
  (∀ (s : State) (g : Tile) (x : Ctx) (w : BitVec 120), Chosen s g x 0x05 w →
      let v := w.toNat * 256
      let i := s.img g x
      Answers (exec (.sli g x w) s) fun u => Issues s u g x (i.pc + 1) i.seq [⟨x, cycleOf s g x + 1, .scalar (opf v 16 4) (BitVec.ofNat 64 (opf v 64 64)), 0, none⟩]) ∧
  (∀ (s : State) (g : Tile) (x : Ctx) (w : BitVec 120), Chosen s g x 0x06 w →
      let v := w.toNat * 256
      let i := s.img g x
      Answers (exec (.sadd g x w) s) fun u => 
        Issues s u g x (i.pc + 1) i.seq [⟨x, cycleOf s g x + 1, .scalar (opf v 16 4) (i.reg (opf v 20 4) + i.reg (opf v 24 4) + BitVec.ofNat 64 (opf v 64 64)), 0, none⟩]) ∧
  (∀ (s : State) (g : Tile) (x : Ctx) (w : BitVec 120), Chosen s g x 0x07 w →
      let v := w.toNat * 256
      let i := s.img g x
      Answers (exec (.sshf g x w) s) fun u => 
        let k := (BitVec.ofNat 8 (opf v 64 8)).toInt
        let a := i.reg (opf v 20 4)
        Issues s u g x (i.pc + 1) i.seq [⟨x, cycleOf s g x + 1,
          .scalar (opf v 16 4) (if 0 ≤ k then BitVec.ofNat 64 (a.toNat * 2 ^ k.toNat) else BitVec.ofInt 64 (a.toInt / 2 ^ (-k).toNat)), 0, none⟩]) ∧
  (∀ (s : State) (g : Tile) (x : Ctx) (w : BitVec 120), Chosen s g x 0x0C w →
      let v := w.toNat * 256
      let i := s.img g x
      Answers (exec (.smovv g x w) s) fun u => 
        let r := i.vec (opf v 20 4)
        Issues s u g x (i.pc + 1) i.seq [⟨x, cycleOf s g x + 3, .scalar (opf v 16 4)
          ((BitVec.ofInt 16 r.bexp).zeroExtend 32 ++ r.lanes.getD (opf v 64 7) 0), 0, none⟩])

/-- HALT with no array operation left ends the program; SAG, SLM and SCR set a generator, a lane mask and the completion ring from scalars in range; FENCE issues once its conditions hold; SEMAADD adds at landing and SEMAWAIT takes its value in the cycle it issues, and blocks, changing no semaphore, while the semaphore holds less. -/
def Obligations.SettingAndFenceOps : Prop :=
  (∀ (s : State) (g : Tile) (x : Ctx) (w : BitVec 120), Chosen s g x 0x01 w → (s.dr g x).op = none → (s.dr g x).pendOp = none →
      let i := s.img g x
      Answers (exec (.halt g x w) s) fun u => (u.th g x).st = .halted ∧ (u.dr g x).op = none ∧
        u.num (tileKey Obj.issuedOperations g) =
          min (s.num (tileKey Obj.issuedOperations g) + 1) (maxOf (tileKey Obj.issuedOperations g)) ∧ (u.img g x).pc = i.pc + 1) ∧
  (∀ (s : State) (g : Tile) (x : Ctx) (w : BitVec 120), Chosen s g x 0x08 w → (let k := bits ((s.img g x).reg (opf (w.toNat * 256) 20 4)).toNat 20 5; k = 0 ∨ (6 ≤ k ∧ k ≤ 20)) → (let a := ((s.img g x).reg (opf (w.toNat * 256) 20 4)).toNat; bits a 0 20 % 2 ^ bits a 20 5 = 0) →
      let v := w.toNat * 256
      let i := s.img g x
      Answers (exec (.sag g x w) s) fun u => 
        let a := (i.reg (opf v 20 4)).toNat
        let b := (i.reg (opf v 24 4)).toNat
        Issues s u g x (i.pc + 1) i.seq [⟨x, cycleOf s g x + 1, .agen (opf v 64 2)
          ⟨BitVec.ofNat 20 (bits a 0 20), 0, BitVec.ofNat 24 (bits b 0 24), BitVec.ofNat 24 (bits b 24 24), BitVec.ofNat 5 (bits a 20 5)⟩, 0, none⟩]) ∧
  (∀ (s : State) (g : Tile) (x : Ctx) (w : BitVec 120), Chosen s g x 0x09 w →
      let v := w.toNat * 256
      let i := s.img g x
      Answers (exec (.slm g x w) s) fun u => Issues s u g x (i.pc + 1) i.seq [⟨x, cycleOf s g x + 1, .mask (opf v 64 2) (i.reg (opf v 24 4) ++ i.reg (opf v 20 4)), 0, none⟩]) ∧
  (∀ (s : State) (g : Tile) (x : Ctx) (w : BitVec 120), Chosen s g x 0x0A w → (let a := ((s.img g x).reg (opf (w.toNat * 256) 20 4)).toNat; bits a 0 20 % 16 = 0 ∧ bits a 20 4 ≤ 8 ∧ bits a 0 20 + 16 * 2 ^ bits a 20 4 ≤ 0x100000) →
      let v := w.toNat * 256
      let i := s.img g x
      Answers (exec (.scr g x w) s) fun u => 
        let a := (i.reg (opf v 20 4)).toNat
        Issues s u g x (i.pc + 1) i.seq [⟨x, cycleOf s g x + 1, .ring (bits a 0 20) (bits a 20 4), 0, none⟩]) ∧
  (∀ (s : State) (g : Tile) (x : Ctx) (w : BitVec 120), Chosen s g x 0x20 w → opf (w.toNat * 256) 16 5 ≠ 0 → s.fenceHolds g x (opf (w.toNat * 256) 16 5) = true →
      let i := s.img g x
      Answers (exec (.fence g x w) s) fun u => Issues s u g x (i.pc + 1) i.seq []) ∧
  (∀ (s : State) (g : Tile) (x : Ctx) (w : BitVec 120), Chosen s g x 0x21 w → (s.img g x).semaSet.getLsbD (opf (w.toNat * 256) 24 5) = true →
      let v := w.toNat * 256
      let i := s.img g x
      Answers (exec (.semaadd g x w) s) fun u => 
        Issues s u g x (i.pc + 1) i.seq [⟨x, cycleOf s g x + 1, .sema (opf v 24 5) (BitVec.ofNat 32 (opf v 64 32)), 0, none⟩]) ∧
  (∀ (s : State) (g : Tile) (x : Ctx) (w : BitVec 120), Chosen s g x 0x22 w → (s.img g x).semaSet.getLsbD (opf (w.toNat * 256) 24 5) = true → opf (w.toNat * 256) 64 32 ≤ ((s.tile g).sema.get 0 (opf (w.toNat * 256) 24 5)).toNat →
      let v := w.toNat * 256
      let i := s.img g x
      Answers (exec (.semawait g x w) s) fun u => Issues s u g x (i.pc + 1) i.seq [] ∧
        (u.tile g).sema.get 0 (opf v 24 5) = (s.tile g).sema.get 0 (opf v 24 5) - BitVec.ofNat 32 (opf v 64 32) ∧
        ∀ k, k ≠ opf v 24 5 → (u.tile g).sema.get 0 k = (s.tile g).sema.get 0 k) ∧
  (∀ (s : State) (g : Tile) (x : Ctx) (w : BitVec 120), Chosen s g x 0x22 w → (s.img g x).semaSet.getLsbD (opf (w.toNat * 256) 24 5) = true → ((s.tile g).sema.get 0 (opf (w.toNat * 256) 24 5)).toNat < opf (w.toNat * 256) 64 32 →
      let i := s.img g x
      Answers (exec (.semawait g x w) s) fun u => 
        (u.th g x).st = .blocked ∧ u.img g x = i ∧ (u.tile g).sema = (s.tile g).sema ∧ u = { s with tiles := u.tiles })

/-- VFADD, VFMUL, VFMA and VTOF put in flight, lane by lane, the FP32 result of their sources rounded once, masked-off lanes keeping what the destination holds; VMASK puts the comparison of each lane in flight. Each takes the next sequence number and has its latency; nothing else changes at issue. -/
def Obligations.LaneOps : Prop :=
  (∀ (s : State) (g : Tile) (x : Ctx) (w : BitVec 120), Chosen s g x 0x82 w →
      let v := w.toNat * 256 + 0x82
      let i := s.img g x
      Answers (exec (.vfadd g x w) s) fun u => ∃ r k,
        Issues s u g x (i.pc + 1) ((i.seq + 1) % 65536) [⟨x, cycleOf s g x + 4, .vreg (opf v 16 4) ⟨r, 0⟩, i.seq, some (0x82, v.testBit 9, k)⟩] ∧
        r.length = 128 ∧ ∀ l, l < 128 → r.getD l 0 = if i.lane v l then 
          (add32 (v.testBit 8) (in32 (v.testBit 8) ((i.vec (opf v 20 4)).lanes.getD l 0)).1 (in32 (v.testBit 8) ((i.vec (opf v 24 4)).lanes.getD l 0)).1).1 else (i.vec (opf v 16 4)).lanes.getD l 0) ∧
  (∀ (s : State) (g : Tile) (x : Ctx) (w : BitVec 120), Chosen s g x 0x83 w →
      let v := w.toNat * 256 + 0x83
      let i := s.img g x
      Answers (exec (.vfmul g x w) s) fun u => ∃ r k,
        Issues s u g x (i.pc + 1) ((i.seq + 1) % 65536) [⟨x, cycleOf s g x + 4, .vreg (opf v 16 4) ⟨r, 0⟩, i.seq, some (0x83, v.testBit 9, k)⟩] ∧
        r.length = 128 ∧ ∀ l, l < 128 → r.getD l 0 = if i.lane v l then 
          (mul32 (v.testBit 8) (in32 (v.testBit 8) ((i.vec (opf v 20 4)).lanes.getD l 0)).1 (in32 (v.testBit 8) ((i.vec (opf v 24 4)).lanes.getD l 0)).1).1 else (i.vec (opf v 16 4)).lanes.getD l 0) ∧
  (∀ (s : State) (g : Tile) (x : Ctx) (w : BitVec 120), Chosen s g x 0x84 w →
      let v := w.toNat * 256 + 0x84
      let i := s.img g x
      Answers (exec (.vfma g x w) s) fun u => ∃ r k,
        Issues s u g x (i.pc + 1) ((i.seq + 1) % 65536) [⟨x, cycleOf s g x + 6, .vreg (opf v 16 4) ⟨r, 0⟩, i.seq, some (0x84, v.testBit 9, k)⟩] ∧
        r.length = 128 ∧ ∀ l, l < 128 → r.getD l 0 = if i.lane v l then 
          (fma32 (v.testBit 8) (in32 (v.testBit 8) ((i.vec (opf v 20 4)).lanes.getD l 0)).1 (in32 (v.testBit 8) ((i.vec (opf v 24 4)).lanes.getD l 0)).1 (in32 (v.testBit 8) ((i.vec (opf v 28 4)).lanes.getD l 0)).1).1 else (i.vec (opf v 16 4)).lanes.getD l 0) ∧
  (∀ (s : State) (g : Tile) (x : Ctx) (w : BitVec 120), Chosen s g x 0x85 w →
      let v := w.toNat * 256 + 0x85
      let i := s.img g x
      Answers (exec (.vtof g x w) s) fun u => ∃ r k,
        Issues s u g x (i.pc + 1) ((i.seq + 1) % 65536) [⟨x, cycleOf s g x + 4, .vreg (opf v 16 4) ⟨r, (i.vec (opf v 16 4)).bexp⟩, i.seq, some (0x85, v.testBit 9, k)⟩] ∧
        r.length = 128 ∧ ∀ l, l < 128 → r.getD l 0 = if i.lane v l then 
          (round32 (v.testBit 8) (.fin (((i.vec (opf v 20 4)).lanes.getD l 0).toInt < 0) ((i.vec (opf v 20 4)).lanes.getD l 0).toInt.natAbs (i.vec (opf v 20 4)).bexp)).1 else (i.vec (opf v 16 4)).lanes.getD l 0) ∧
  (∀ (s : State) (g : Tile) (x : Ctx) (w : BitVec 120), Chosen s g x 0x8F w → w.getLsbD 28 = false → opf (w.toNat * 256) 60 3 < 4 →
      let v := w.toNat * 256 + 0x8F
      let i := s.img g x
      Answers (exec (.vmask g x w) s) fun u => ∃ (m : BitVec 128) (k : Counts),
        Issues s u g x (i.pc + 1) ((i.seq + 1) % 65536) [⟨x, cycleOf s g x + 2, .mask (opf v 34 2) m, i.seq, some (0x8F, v.testBit 9, k)⟩] ∧
        ∀ l, l < 128 → m.getLsbD l = maskHolds (opf v 60 3)
          (laneVal (v.testBit 39) (v.testBit 8) (i.vec (opf v 20 4)).bexp ((i.vec (opf v 20 4)).lanes.getD l 0)).1
          (laneVal (v.testBit 39) (v.testBit 8) (i.vec (opf v 24 4)).bexp ((i.vec (opf v 24 4)).lanes.getD l 0)).1)

/-- VTOX, VMOVA and VNAR with a given SHIFT round each participating lane half to even at that shift and saturate it, writing 0 in the others; VCLRA empties an accumulator's participating lanes; VIMAC adds each aligned product to its lane, saturating at ±(2^79 − 1). Rounding is to the nearest, ties to even. -/
def Obligations.FixedPointOps : Prop :=
  (∀ (s : State) (g : Tile) (x : Ctx) (w : BitVec 120), Chosen s g x 0x86 w → w.getLsbD 34 = false → (∀ n, ((s.img g x).vec n).lanes.length = 128) →
      let v := w.toNat * 256 + 0x86
      let i := s.img g x
      Answers (exec (.vtox g x w) s) fun u => ∃ r k,
        Issues s u g x (i.pc + 1) ((i.seq + 1) % 65536) [⟨x, cycleOf s g x + 6, .vreg (opf v 16 4) r, i.seq, some (0x86, v.testBit 9, k)⟩] ∧
        r.lanes.length = 128 ∧ ∀ l, l < 128 → r.lanes.getD l 0 = if i.lane v l then
          BitVec.ofInt 32 ((toxScalar (v.testBit 8) ((i.vec (opf v 20 4)).lanes.getD l 0)).shiftTo 31 (BitVec.ofNat 8 (opf v 48 8)).toInt).1 else 0) ∧
  (∀ (s : State) (g : Tile) (x : Ctx) (w : BitVec 120), Chosen s g x 0x89 w → w.getLsbD 34 = false → (∀ n, ((s.img g x).acc n).lanes.length = 128) → (-32768 ≤ ((s.img g x).acc (opf (w.toNat * 256) 32 2)).ema + (BitVec.ofNat 8 (opf (w.toNat * 256) 48 8)).toInt ∧ ((s.img g x).acc (opf (w.toNat * 256) 32 2)).ema + (BitVec.ofNat 8 (opf (w.toNat * 256) 48 8)).toInt ≤ 32767) →
      let v := w.toNat * 256 + 0x89
      let i := s.img g x
      Answers (exec (.vmova g x w) s) fun u => ∃ r k,
        Issues s u g x (i.pc + 1) ((i.seq + 1) % 65536) [⟨x, cycleOf s g x + 5, .vreg (opf v 16 4) r, i.seq, some (0x89, v.testBit 9, k)⟩] ∧
        r.lanes.length = 128 ∧ ∀ l, l < 128 → r.lanes.getD l 0 = if i.lane v l then
          BitVec.ofInt 32 ((intScalar ((i.acc (opf v 32 2)).lanes.getD l 0)).shiftTo 31 (BitVec.ofNat 8 (opf v 48 8)).toInt).1 else 0) ∧
  (∀ (s : State) (g : Tile) (x : Ctx) (w : BitVec 120), Chosen s g x 0x8A w → w.getLsbD 34 = false → (∀ n, ((s.img g x).vec n).lanes.length = 128) → (opf (w.toNat * 256) 40 2 = 1 ∨ opf (w.toNat * 256) 40 2 = 2) → (-32768 ≤ ((s.img g x).vec (opf (w.toNat * 256) 20 4)).bexp + (BitVec.ofNat 8 (opf (w.toNat * 256) 48 8)).toInt ∧ ((s.img g x).vec (opf (w.toNat * 256) 20 4)).bexp + (BitVec.ofNat 8 (opf (w.toNat * 256) 48 8)).toInt ≤ 32767) →
      let v := w.toNat * 256 + 0x8A
      let i := s.img g x
      Answers (exec (.vnar g x w) s) fun u => ∃ r k,
        Issues s u g x (i.pc + 1) ((i.seq + 1) % 65536) [⟨x, cycleOf s g x + 4, .vreg (opf v 16 4) r, i.seq, some (0x8A, v.testBit 9, k)⟩] ∧
        r.lanes.length = 128 ∧ ∀ l, l < 128 → r.lanes.getD l 0 = if i.lane v l then
          BitVec.ofInt 32 ((intScalar ((i.vec (opf v 20 4)).lanes.getD l 0).toInt).shiftTo (if opf v 40 2 = 1 then 15 else 7) (BitVec.ofNat 8 (opf v 48 8)).toInt).1 else 0) ∧
  (∀ (s : State) (g : Tile) (x : Ctx) (w : BitVec 120), Chosen s g x 0x87 w → (∀ n, ((s.img g x).acc n).lanes.length = 128) →
      let v := w.toNat * 256 + 0x87
      let i := s.img g x
      Answers (exec (.vclra g x w) s) fun u => ∃ a k,
        Issues s u g x (i.pc + 1) ((i.seq + 1) % 65536) [⟨x, cycleOf s g x + 1, .macc (opf v 32 2) a, i.seq, some (0x87, v.testBit 9, k)⟩] ∧ a.empty = true ∧ a.lanes.length = 128 ∧
        ∀ l, l < 128 → a.lanes.getD l 0 = if i.lane v l then 0 else (i.acc (opf v 32 2)).lanes.getD l 0) ∧
  (∀ (s : State) (g : Tile) (x : Ctx) (w : BitVec 120), Chosen s g x 0x88 w → ((s.img g x).acc (opf (w.toNat * 256) 32 2)).empty = false → (-32768 ≤ ((s.img g x).acc (opf (w.toNat * 256) 32 2)).ema ∧ ((s.img g x).acc (opf (w.toNat * 256) 32 2)).ema ≤ 32767) →
      let v := w.toNat * 256 + 0x88
      let i := s.img g x
      Answers (exec (.vimac g x w) s) fun u => ∃ a k,
        Issues s u g x (i.pc + 1) ((i.seq + 1) % 65536) [⟨x, cycleOf s g x + 5, .macc (opf v 32 2) a, i.seq, some (0x88, v.testBit 9, k)⟩] ∧ a.empty = false ∧ a.ema = (i.acc (opf v 32 2)).ema ∧
        (let d := (i.vec (opf v 20 4)).bexp + (i.vec (opf v 24 4)).bexp - (i.acc (opf v 32 2)).ema
         ∀ l, l < 128 → a.lanes.getD l 0 = if i.lane v l then
            max (-(2 ^ 79 - 1)) (min (2 ^ 79 - 1)
              ((i.acc (opf v 32 2)).lanes.getD l 0 + alignProduct (((i.vec (opf v 20 4)).lanes.getD l 0).toInt * ((i.vec (opf v 24 4)).lanes.getD l 0).toInt) d))
          else (i.acc (opf v 32 2)).lanes.getD l 0)) ∧
  (∀ n d : Nat, 0 < d → 2 * (roundDiv n d * d) ≤ 2 * n + d ∧ 2 * n ≤ 2 * (roundDiv n d * d) + d ∧
      (2 * (n % d) = d → roundDiv n d % 2 = 0))

/-- VMAX, VMIN and VAMAX over integer lanes from an empty search put in flight the participating lane of greatest value, least value or greatest magnitude, the lowest index among equals, with its exponent; VSRD puts the search state into its two scalars. -/
def Obligations.SearchOps : Prop :=
  (∀ (s : State) (g : Tile) (x : Ctx) (w : BitVec 120), Chosen s g x 0x8B w → w.getLsbD 31 = true → (s.img g x).search.empty = true → (∃ l, l < 128 ∧ (s.img g x).lane (w.toNat * 256) l = true) → bits ((s.img g x).reg (opf (w.toNat * 256) 56 4)).toNat 0 32 + 128 ≤ 2 ^ 32 →
      let v := w.toNat * 256 + 0x8B
      let i := s.img g x
      Answers (exec (.vmax g x w) s) fun u => ∃ h k,
        Issues s u g x (i.pc + 1) ((i.seq + 1) % 65536) [⟨x, cycleOf s g x + 7, .search h, i.seq, some (0x8B, v.testBit 9, k)⟩] ∧ h.empty = false ∧ h.fix = true ∧ h.nan = false ∧
        h.bexp = (i.vec (opf v 20 4)).bexp ∧
        ∃ l, l < 128 ∧ i.lane v l = true ∧ h.value = ((i.vec (opf v 20 4)).lanes.getD l 0) ∧
          h.index = BitVec.ofNat 32 (bits (i.reg (opf v 56 4)).toNat 0 32 + l) ∧
          ∀ n, n < 128 → i.lane v n = true →
            (let p := ((i.vec (opf v 20 4)).lanes.getD n 0).toInt
             let q := ((i.vec (opf v 20 4)).lanes.getD l 0).toInt
             p < q ∨ (p = q ∧ l ≤ n))) ∧
  (∀ (s : State) (g : Tile) (x : Ctx) (w : BitVec 120), Chosen s g x 0x8C w → w.getLsbD 31 = true → (s.img g x).search.empty = true → (∃ l, l < 128 ∧ (s.img g x).lane (w.toNat * 256) l = true) → bits ((s.img g x).reg (opf (w.toNat * 256) 56 4)).toNat 0 32 + 128 ≤ 2 ^ 32 →
      let v := w.toNat * 256 + 0x8C
      let i := s.img g x
      Answers (exec (.vmin g x w) s) fun u => ∃ h k,
        Issues s u g x (i.pc + 1) ((i.seq + 1) % 65536) [⟨x, cycleOf s g x + 7, .search h, i.seq, some (0x8C, v.testBit 9, k)⟩] ∧ h.empty = false ∧ h.fix = true ∧ h.nan = false ∧
        h.bexp = (i.vec (opf v 20 4)).bexp ∧
        ∃ l, l < 128 ∧ i.lane v l = true ∧ h.value = ((i.vec (opf v 20 4)).lanes.getD l 0) ∧
          h.index = BitVec.ofNat 32 (bits (i.reg (opf v 56 4)).toNat 0 32 + l) ∧
          ∀ n, n < 128 → i.lane v n = true →
            (let p := ((i.vec (opf v 20 4)).lanes.getD n 0).toInt
             let q := ((i.vec (opf v 20 4)).lanes.getD l 0).toInt
             q < p ∨ (p = q ∧ l ≤ n))) ∧
  (∀ (s : State) (g : Tile) (x : Ctx) (w : BitVec 120), Chosen s g x 0x8D w → w.getLsbD 31 = true → (s.img g x).search.empty = true → (∃ l, l < 128 ∧ (s.img g x).lane (w.toNat * 256) l = true) → bits ((s.img g x).reg (opf (w.toNat * 256) 56 4)).toNat 0 32 + 128 ≤ 2 ^ 32 →
      let v := w.toNat * 256 + 0x8D
      let i := s.img g x
      Answers (exec (.vamax g x w) s) fun u => ∃ h k,
        Issues s u g x (i.pc + 1) ((i.seq + 1) % 65536) [⟨x, cycleOf s g x + 7, .search h, i.seq, some (0x8D, v.testBit 9, k)⟩] ∧ h.empty = false ∧ h.fix = true ∧ h.nan = false ∧
        h.bexp = (i.vec (opf v 20 4)).bexp ∧
        ∃ l, l < 128 ∧ i.lane v l = true ∧ h.value = ((i.vec (opf v 20 4)).lanes.getD l 0) ∧
          h.index = BitVec.ofNat 32 (bits (i.reg (opf v 56 4)).toNat 0 32 + l) ∧
          ∀ n, n < 128 → i.lane v n = true →
            (let p := ((i.vec (opf v 20 4)).lanes.getD n 0).toInt
             let q := ((i.vec (opf v 20 4)).lanes.getD l 0).toInt
             p.natAbs < q.natAbs ∨ (p.natAbs = q.natAbs ∧ l ≤ n))) ∧
  (∀ (s : State) (g : Tile) (x : Ctx) (w : BitVec 120), Chosen s g x 0x8E w →
      let v := w.toNat * 256 + 0x8E
      let i := s.img g x
      Answers (exec (.vsrd g x w) s) fun u => ∃ (hi : U64) (k : Counts),
        Issues s u g x (i.pc + 1) ((i.seq + 1) % 65536) [⟨x, cycleOf s g x + 2, .srd (opf v 56 4) (i.search.index ++ i.search.value) (opf v 64 4) hi, i.seq, some (0x8E, v.testBit 9, k)⟩] ∧
        bits hi.toNat 0 16 = (BitVec.ofInt 16 i.search.bexp).toNat ∧ hi.getLsbD 16 = i.search.fix ∧ hi.getLsbD 17 = i.search.nan ∧
        hi.getLsbD 18 = i.search.empty ∧ hi.toNat < 2 ^ 19)

/-- VLD reads each participating lane at the address its generator gives, sign-extended to the lane, and 0 in the others; VST puts in flight exactly the bytes of its participating lanes at those addresses, and no byte of memory changes before the landing. Both advance the generator. A landing writes its scalar, or its bytes and no others, or whatever else its result is, and leaves the flight; a store into a range that a pass still reads waits. -/
def Obligations.LoadsStoresAndLandings : Prop :=
  (∀ (s : State) (g : Tile) (x : Ctx) (w : BitVec 120) (n : Nat), Chosen s g x 0x80 w → opf (w.toNat * 256) 40 2 ≠ 3 → lanesOk (opf (w.toNat * 256) 40 2) ((s.img g x).laneAddrs (w.toNat * 256)) = true →
      let v := w.toNat * 256 + 0x80
      let i := s.img g x
      Answers (exec (.vld g x w n) s) fun u => ∃ r k,
        Issues (s.modImg g x fun j => { j with ag := j.ag.put (opf v 37 2) (j.gen (opf v 37 2)).advance }) u g x (i.pc + 1) ((i.seq + 1) % 65536)
          [⟨x, cycleOf s g x + 9, .vreg (opf v 16 4) r, i.seq, some (0x80, v.testBit 9, k)⟩] ∧ r.bexp = (BitVec.ofNat 16 (opf v 64 16)).toInt ∧
        (let n := widthBytes (opf v 40 2)
         ∀ l, l < 128 → r.lanes.getD l 0 = if i.lane v l then
            signLane n (s.readNat (operandBase g + ((i.gen (opf v 37 2)).laneAddr l).toNat) n) else 0)) ∧
  (∀ (s : State) (g : Tile) (x : Ctx) (w : BitVec 120) (n : Nat), Chosen s g x 0x81 w → opf (w.toNat * 256) 40 2 ≠ 3 → lanesOk (opf (w.toNat * 256) 40 2) ((s.img g x).laneAddrs (w.toNat * 256)) = true → (∀ e ∈ (s.img g x).laneAddrs (w.toNat * 256), ∀ b, b < widthBytes (opf (w.toNat * 256) 40 2) → (s.tile g).locked (e.2.toNat + b) = false) →
      let v := w.toNat * 256 + 0x81
      let i := s.img g x
      Answers (exec (.vst g x w n) s) fun u => ∃ ws k,
        Issues (s.modImg g x fun j => { j with ag := j.ag.put (opf v 37 2) (j.gen (opf v 37 2)).advance }) u g x (i.pc + 1) ((i.seq + 1) % 65536)
          [⟨x, cycleOf s g x + 3, .mem ws, i.seq, some (0x81, v.testBit 9, k)⟩] ∧ u.mem = s.mem ∧
        ∀ a y, (a, y) ∈ ws ↔ ∃ l b, l < 128 ∧ i.lane v l = true ∧ b < widthBytes (opf v 40 2) ∧
          a = operandBase g + ((i.gen (opf v 37 2)).laneAddr l).toNat + b ∧
          y = (((i.vec (opf v 20 4)).lanes.getD l 0) >>> (8 * b)).truncate 8) ∧
  (∀ (s : State) (g : Tile) (ctx due i : Nat) (val : U64), (s.tile g).flight = [⟨ctx, due, .scalar i val, 0, none⟩] →
      Answers (exec (.resultLanding g) s) fun u =>
        (u.img g ctx).reg i = val ∧ (∀ j, j ≠ i → (u.img g ctx).reg j = (s.img g ctx).reg j) ∧ (u.tile g).flight = [] ∧
        (u.tile g).acyc = max (s.tile g).acyc (due + 1) ∧ u = { s with tiles := u.tiles } ∧ (∀ h, h ≠ g.val → u.tile h = s.tile h)) ∧
  (∀ (s : State) (g : Tile) (ctx due seq opc : Nat) (k : Counts) (ws : List (Nat × Byte)),
      (s.tile g).flight = [⟨ctx, due, .mem ws, seq, some (opc, false, k)⟩] → Memory.wf 0 s.mem = true →
      (∀ e ∈ ws, (s.tile g).locked (e.1 - operandBase g) = false) →
      Answers (exec (.resultLanding g) s) fun u =>
        u.mem = (s.pokes ws).mem ∧ (∀ a, a ∉ ws.map (·.1) → u.byte a = s.byte a) ∧ (u.tile g).flight = [] ∧
        (u.jobTotals.get ⟨0, Counts.zero⟩ (s.dr g ctx).jobId).ops = (s.jobTotals.get ⟨0, Counts.zero⟩ (s.dr g ctx).jobId).ops + 1) ∧
  (∀ (s : State) (g : Tile) (f : Flight), (s.tile g).flight = [f] → (s.tile g).waits g f = false →
      exec (.resultLanding g) s =
        .next (((s.modTile g fun t => { t with flight := [] }).land g f).modTile g fun t => { t with acyc := max t.acyc (f.due + 1) })) ∧
  (∀ (s : State) (g : Tile), (∀ f ∈ (s.tile g).flight, (s.tile g).waits g f = true) → exec (.resultLanding g) s = .next s)

/-- An MMA whose formats, pairing, modes, regions and sizes are in order is taken by an idle drawer, which begins its first pass, and waits behind the one that a busy drawer runs; one that a stop returned is issued again as it was, with the PC and the sequence number where they were; one of K = 0 is refused with cause 7 and counted, its PC recorded. A context that can run takes the first free bank and loads; its load ends Ready, or Blocked as it was; a cleared block makes it Ready, parked if it has no bank. -/
def Obligations.ArrayOpsAndResidence : Prop :=
  (∀ (s : State) (g : Tile) (x : Ctx) (w : BitVec 120), Chosen s g x 0x60 w → (s.arrayOp g x (w.toNat * 256)).formatsOk = true → (s.arrayOp g x (w.toNat * 256)).pairingOk = true → (s.arrayOp g x (w.toNat * 256)).modeOk = true → (s.arrayOp g x (w.toNat * 256)).rangeOk (s.dr g x) = true → ((s.arrayOp g x (w.toNat * 256)).m ≠ 0 ∧ (s.arrayOp g x (w.toNat * 256)).n ≠ 0 ∧ (s.arrayOp g x (w.toNat * 256)).k ≠ 0) → (s.dr g x).op = none → (s.dr g x).st = .assigned → (s.th g x).again = none →
      let v := w.toNat * 256
      let i := s.img g x
      Answers (exec (.mma g x w) s) fun u => Issues s u g x (i.pc + 1) ((i.seq + 1) % 65536) [] ∧
        u.dr g x = { s.dr g x with
          op := some (s.arrayOp g x v), pendOp := none, st := .issuing, begun := true, sets := (u.dr g x).sets }) ∧
  (∀ (s : State) (g : Tile) (x : Ctx) (w : BitVec 120), Chosen s g x 0x60 w → (s.arrayOp g x (w.toNat * 256)).formatsOk = true → (s.arrayOp g x (w.toNat * 256)).pairingOk = true → (s.arrayOp g x (w.toNat * 256)).modeOk = true → (s.arrayOp g x (w.toNat * 256)).rangeOk (s.dr g x) = true → ((s.arrayOp g x (w.toNat * 256)).m ≠ 0 ∧ (s.arrayOp g x (w.toNat * 256)).n ≠ 0 ∧ (s.arrayOp g x (w.toNat * 256)).k ≠ 0) → (s.dr g x).op ≠ none → (s.dr g x).pendOp = none → (s.dr g x).st = .issuing ∨ (s.dr g x).st = .draining → (s.th g x).again = none →
      let v := w.toNat * 256
      let i := s.img g x
      Answers (exec (.mma g x w) s) fun u => Issues s u g x (i.pc + 1) ((i.seq + 1) % 65536) [] ∧
        u.dr g x = { s.dr g x with pendOp := some (s.arrayOp g x v) }) ∧
  (∀ (s : State) (g : Tile) (x : Ctx) (w : BitVec 120) (o : ArrayOp), Chosen s g x 0x60 w → (s.th g x).again = some o → o.formatsOk = true → o.pairingOk = true → o.modeOk = true → o.rangeOk (s.dr g x) = true → (o.m ≠ 0 ∧ o.n ≠ 0 ∧ o.k ≠ 0) → (s.dr g x).op = none → (s.dr g x).st = .assigned →
      let i := s.img g x
      Answers (exec (.mma g x w) s) fun u => Issues s u g x i.pc i.seq [] ∧ (u.th g x).again = none ∧
        u.dr g x = { s.dr g x with op := some o, pendOp := none, st := .issuing, begun := true, sets := (u.dr g x).sets }) ∧
  (∀ (s : State) (g : Tile) (x : Ctx) (w : BitVec 120), Chosen s g x 0x60 w → (s.arrayOp g x (w.toNat * 256)).formatsOk = true → (s.arrayOp g x (w.toNat * 256)).pairingOk = true → (s.arrayOp g x (w.toNat * 256)).modeOk = true → (s.arrayOp g x (w.toNat * 256)).rangeOk (s.dr g x) = true → (s.arrayOp g x (w.toNat * 256)).k = 0 → (s.th g x).again = none →
      let i := s.img g x
      Answers (exec (.mma g x w) s) fun u => bits (u.num (tileKey Obj.lastRefusal g)) 20 4 = 7 ∧
        u.num (tileKey Obj.issueRefusals g) = min (s.num (tileKey Obj.issueRefusals g) + 1) (maxOf (tileKey Obj.issueRefusals g)) ∧
        (i.pc < 4096 → bits (u.num (tileKey Obj.lastRefusal g)) 0 12 = i.pc)) ∧
  (∀ (s : State) (g : Tile) (y : Ctx) (b : Fin 4), (s.dr g y).bound = true → (s.tile g).bankOf y = none →
      (s.th g y).st = .idle ∨ (s.th g y).st = .parkedReady → (s.tile g).banks.length = 4 →
      ((s.tile g).banks.getD b Bank.empty).ctx = none → (∀ n, n < b.val → ((s.tile g).banks.getD n Bank.empty).ctx ≠ none) →
      Answers (exec (.contextEviction g y) s) fun u =>
        (u.tile g).banks.getD b Bank.empty = ⟨some y, true⟩ ∧ (u.th g y).st = .loading ∧ u = { s with tiles := u.tiles } ∧
        (∀ h, h ≠ g.val → u.tile h = s.tile h)) ∧
  (∀ (s : State) (g : Tile) (b : Fin 4) (x : Nat), (s.tile g).banks.length = 4 →
      (s.tile g).banks.getD b Bank.empty = ⟨some x, true⟩ → Answers (exec (.contextSwapComplete g b) s) fun u =>
        (u.tile g).banks.getD b Bank.empty = ⟨some x, false⟩ ∧
        (u.th g x).st = (if (s.th g x).blockedOn.isSome then .blocked else .ready) ∧
        u.num (tileKey Obj.swaps g) = min (s.num (tileKey Obj.swaps g) + 1) (maxOf (tileKey Obj.swaps g)) ∧
        u = { s with tiles := u.tiles, obj := u.obj }) ∧
  (∀ (s : State) (g : Tile) (x : Ctx) (w : BitVec 128), (s.th g x).blockedOn = some w → s.stillBlocked g x w = false →
      (s.th g x).st = .blocked ∨ (s.th g x).st = .parked → Answers (exec (.blockCleared g x) s) fun u =>
        u.th g x = { s.th g x with st := if (s.th g x).st = .blocked then .ready else .parkedReady, blockedOn := none } ∧
        u = { s with tiles := u.tiles })

/-- SOPEN of a well-formed descriptor opens the stream: Running at once, a write stream with its empty slots delivered, or, if it is real-time, Opening until its pages are pinned; SWAIT issues once the units are held and blocks until then; SFREE frees the oldest units held, those of the tile's receiver for a multicast, and counts an attempt to free more; SCLOSE sends the stream to Closing, and the beats of a fabric-in stream are discarded. -/
def Obligations.StreamOps : Prop :=
  (∀ (s : State) (g : Tile) (x : Ctx) (w : BitVec 120) (j : JobS) (d : StreamDesc) (ts : List Nat) (p : Nat), Chosen s g x 0x40 w → (s.streamOk g x (opf (w.toNat * 256) 16 9) = true) → s.feedUsing (g / 150) (opf (w.toNat * 256) 16 9) = none → s.stream (streamKey (g / 150) (opf (w.toNat * 256) 16 9)) = none → s.job (s.dr g x).jobId = some j → d.rt = false → 0 < d.total → (d.dir = 2 → (s.tile g).portIn = []) → s.checkDesc g x (streamKey (g / 150) (opf (w.toNat * 256) 16 9)) ((((s.img g x).reg (opf (w.toNat * 256) 32 4)).toNat) % 0x100000) j = .ok (d, ts, p) →
      let v := w.toNat * 256
      let i := s.img g x
      Answers (exec (.sopen g x w) s) fun u => 
        u.stream (streamKey (g / 150) (opf (w.toNat * 256) 16 9)) = some { StreamS.new (s.dr g x).jobId g x (((i.reg (opf v 32 4)).toNat) % 0x100000) d ts p with
          st := .running, delivered := if d.dir % 2 = 1 then min d.total d.ring else 0 } ∧ (u.img g x).pc = i.pc + 1 ∧
        (s.portStream g 2 = none → d.dir ≠ 2 → u.mem = s.mem)) ∧
  (∀ (s : State) (g : Tile) (x : Ctx) (w : BitVec 120) (j : JobS) (d : StreamDesc) (ts : List Nat) (p : Nat), Chosen s g x 0x40 w → (s.streamOk g x (opf (w.toNat * 256) 16 9) = true) → s.feedUsing (g / 150) (opf (w.toNat * 256) 16 9) = none → s.stream (streamKey (g / 150) (opf (w.toNat * 256) 16 9)) = none → s.job (s.dr g x).jobId = some j → d.rt = true → d.dir < 2 → s.checkDesc g x (streamKey (g / 150) (opf (w.toNat * 256) 16 9)) ((((s.img g x).reg (opf (w.toNat * 256) 32 4)).toNat) % 0x100000) j = .ok (d, ts, p) →
      let v := w.toNat * 256
      let i := s.img g x
      Answers (exec (.sopen g x w) s) fun u => 
        u.stream (streamKey (g / 150) (opf (w.toNat * 256) 16 9)) = some (StreamS.new (s.dr g x).jobId g x (((i.reg (opf v 32 4)).toNat) % 0x100000) d ts p) ∧
        (u.img g x).pc = i.pc + 1) ∧
  (∀ (s : State) (g : Tile) (x : Ctx) (w : BitVec 120), Chosen s g x 0x41 w → (s.streamOk g x (opf (w.toNat * 256) 16 9) = true) → opf (w.toNat * 256) 64 32 ≤ s.held g (streamKey (g / 150) (opf (w.toNat * 256) 16 9)) →
      let i := s.img g x
      Answers (exec (.swait g x w) s) fun u => Issues s u g x (i.pc + 1) i.seq []) ∧
  (∀ (s : State) (g : Tile) (x : Ctx) (w : BitVec 120), Chosen s g x 0x41 w → (s.streamOk g x (opf (w.toNat * 256) 16 9) = true) → s.held g (streamKey (g / 150) (opf (w.toNat * 256) 16 9)) < opf (w.toNat * 256) 64 32 →
      let i := s.img g x
      Answers (exec (.swait g x w) s) fun u => 
        (u.th g x).st = .blocked ∧ u.img g x = i ∧ u = { s with tiles := u.tiles }) ∧
  (∀ (s : State) (g : Tile) (x : Ctx) (w : BitVec 120) (m : StreamS), Chosen s g x 0x42 w → (s.streamOk g x (opf (w.toNat * 256) 16 9) = true) → s.stream (streamKey (g / 150) (opf (w.toNat * 256) 16 9)) = some m → m.tile = g → m.desc.dir < 2 → m.desc.mcast = false →
      let v := w.toNat * 256
      let i := s.img g x
      Answers (exec (.sfree g x w) s) fun u => 
        (let q := min (opf v 64 32) (m.delivered - m.freed)
         u.stream (streamKey (g / 150) (opf (w.toNat * 256) 16 9)) = some { m with freed := m.freed + q, freedNow := m.freedNow + q } ∧
         u.num Obj.overFrees = (if m.delivered - m.freed < opf v 64 32 then min (s.num Obj.overFrees + 1) (maxOf Obj.overFrees)
           else s.num Obj.overFrees)) ∧
        (u.img g x).pc = i.pc + 1) ∧
  (∀ (s : State) (g : Tile) (x : Ctx) (w : BitVec 120) (m : StreamS) (n : Nat) (r : Recv), Chosen s g x 0x42 w → (s.streamOk g x (opf (w.toNat * 256) 16 9) = true) → s.stream (streamKey (g / 150) (opf (w.toNat * 256) 16 9)) = some m → m.desc.mcast = true → m.recvOf g = some n → m.recv[n]? = some r →
      let v := w.toNat * 256
      let i := s.img g x
      Answers (exec (.sfree g x w) s) fun u => 
        ((u.stream (streamKey (g / 150) (opf (w.toNat * 256) 16 9))).map (·.recv)) =
          some (m.recv.modify n fun r => { r with freed := r.freed + min (opf v 64 32) (r.delivered - r.freed) }) ∧
        (u.img g x).pc = i.pc + 1) ∧
  (∀ (s : State) (g : Tile) (x : Ctx) (w : BitVec 120) (m : StreamS), Chosen s g x 0x43 w → (s.streamOk g x (opf (w.toNat * 256) 16 9) = true) → s.feedUsing (g / 150) (opf (w.toNat * 256) 16 9) = none → s.stream (streamKey (g / 150) (opf (w.toNat * 256) 16 9)) = some m → m.tile = g → m.st = .opening ∨ m.st = .running ∨ m.st = .halted ∨ m.st = .done →
      let i := s.img g x
      Answers (exec (.sclose g x w) s) fun u => 
        u.stream (streamKey (g / 150) (opf (w.toNat * 256) 16 9)) = some { m with
          st := .closing, halting := none, looked := m.issued, beats := if m.desc.dir = 2 then [] else m.beats } ∧
        (m.desc.dir = 2 → (u.tile g).portIn = []) ∧ (u.img g x).pc = i.pc + 1 ∧ u.mem = s.mem)

/-- A unit request of an engine takes the stream that its arbitration picks, looks ahead, and adds the next unit, of a page that is there, to those outstanding; a write stream's slot returns empty. A delivered unit of a unicast read stands in its ring slot, and nothing else of memory changes; the next unit of a multicast stands in its window and in the receiver's slot. A write unit visible in order among the units of its destination's kind stands at its address and is outstanding no more. A new rate window moves each stream's freed count of the cabinet into the last window's. -/
def Obligations.StreamUnitsMove : Prop :=
  (∀ (s : State) (c : Cab) (e : Fin 4) (k pa page : Nat) (l : Bool) (m0 m1 m : StreamS) (j : JobS), s.lost c = false →
      s.inCReset c = false → sumBy (s.engineStreams c e) (fun p => p.2.outst.length) < 1024 →
      (s.stallCycle c e).pickStream c e = some (k, m0) → ((s.stallCycle c e).detach k).stream k = some m1 →
      ((s.stallCycle c e).detach k).job m1.jobId = some j →
      (let s1 := ((s.stallCycle c e).detach k).lookAhead k j 33
       s1.stream k = some m → m.issued < m.looked → m.st = .running ∨ m.st = .closing →
       s1.translate (k / 512) j.asn (m.desc.va m.issued) (!m.desc.isRead) = .ok pa page l →
       (∃ c' o, s1.place pa = .gddr c' o ∨ s1.place pa = .buffer c' o ∨ s1.place pa = .cxl c' o) →
       Answers (exec (.unitRequest c e) s) fun u =>
        u.stream k = some { m with
          issued := m.issued + 1
          outst := m.outst ++ [⟨m.issued, pa, s1.read (if m.desc.isRead then pa % 2 ^ 48 else m.desc.slot m.tile m.issued) 256⟩]
          rtTaken := m.rtTaken + b2n (s1.rtFirst m)
          delivered := if m.desc.isRead = false ∧ m.st = .running then max m.delivered (min m.total (m.desc.ring + (m.issued + 1)))
            else m.delivered } ∧
        u.mem = s1.mem ∧ u.tiles = s1.tiles ∧ (∀ k', k' ≠ k → u.stream k' = s1.stream k'))) ∧
  (∀ (s : State) (c : Cab) (n : StreamNo) (r : Fin 64) (data : List Byte) (m : StreamS) (a : OutUnit) (rest : List OutUnit),
      s.stream (streamKey c n) = some m → m.desc.dir = 0 → m.desc.mcast = false → m.st = .running → m.outst = a :: rest →
      (∃ c' o, s.place a.pa = .gddr c' o ∨ s.place a.pa = .buffer c' o) → s.placeStatus (s.place a.pa) = .ok → Memory.wf 0 s.mem = true →
      s.changing a.pa = false → s.lockedAt (m.desc.slot m.tile a.n) 256 = false → NoEvictions s →
      Answers (exec (.unitDelivered c n r .ok data) s) fun u =>
        ((u.stream (streamKey c n)).map fun m' => (m'.delivered, m'.outst, m'.freed)) = some (m.delivered + 1, rest, m.freed) ∧
        u.mem = (s.poke (m.desc.slot m.tile a.n) a.data).mem ∧
        (∀ b, b < m.desc.slot m.tile a.n ∨ m.desc.slot m.tile a.n + a.data.length ≤ b → u.byte b = s.byte b) ∧ u.tiles = s.tiles) ∧
  (∀ (s : State) (c : Cab) (n : StreamNo) (r : Fin 64) (data : List Byte) (m : StreamS) (a : OutUnit) (rest : List OutUnit) (v : Recv)
      (o : Nat), s.stream (streamKey c n) = some m → m.desc.dir = 0 → m.desc.mcast = true → m.st = .running → m.outst = a :: rest →
      a.n = m.fetched → (∃ c' o, s.place a.pa = .gddr c' o ∨ s.place a.pa = .buffer c' o) → s.placeStatus (s.place a.pa) = .ok →
      s.changing a.pa = false → m.recv[r.val]? = some v → v.delivered = m.fetched → v.delivered - v.freed < m.desc.ring →
      s.lockedAt (m.desc.slot v.tile a.n) 256 = false → s.place (m.windowAt a.n) = .buffer c o → s.cabStatus c = .ok → NoEvictions s →
      Answers (exec (.unitDelivered c n r .ok data) s) fun u =>
        ((u.stream (streamKey c n)).map fun m' => (m'.fetched, m'.outst, (m'.recv[r.val]?).map (·.delivered))) =
          some (m.fetched + 1, rest, some (v.delivered + 1)) ∧
        u.mem = ((s.poke (m.windowAt a.n) a.data).poke (m.desc.slot v.tile a.n)
          ((s.poke (m.windowAt a.n) a.data).read (m.windowAt a.n) 256)).mem ∧ u.tiles = s.tiles) ∧
  (∀ (s : State) (c : Cab) (n : StreamNo) (i : BitVec 32) (m : StreamS) (a : OutUnit),
      s.stream (streamKey c n) = some m → m.desc.dir = 1 → m.outst.find? (·.n = i.toNat) = some a →
      (∀ b ∈ m.outst, b.n < i.toNat → placeRow (s.place b.pa) ≠ placeRow (s.place a.pa)) → s.changing a.pa = false →
      (∃ c' o, s.place a.pa = .gddr c' o ∨ s.place a.pa = .buffer c' o) → s.placeStatus (s.place a.pa) = .ok → Memory.wf 0 s.mem = true →
      NoEvictions s → Answers (exec (.unitVisible c n i .ok) s) fun u =>
        u.mem = (s.poke (a.pa % 2 ^ 48) a.data).mem ∧
        (∀ b, b < a.pa % 2 ^ 48 ∨ a.pa % 2 ^ 48 + a.data.length ≤ b → u.byte b = s.byte b) ∧
        ((u.stream (streamKey c n)).map fun m' => (m'.issued, m'.freed, m'.outst)) =
          some (m.issued, m.freed, m.outst.filter (·.n ≠ i.toNat)) ∧ u.tiles = s.tiles) ∧
  (∀ (s : State) (c : Cab), Answers (exec (.rateWindow c) s) fun u => u = { s with streams := u.streams } ∧
      ∀ k, u.stream k = (s.stream k).map fun m =>
        if k / 512 = c.val then { m with freedPrev := m.freedNow, freedNow := 0, rtTaken := 0 } else m)

/-- With its units settled, a halting stream forms its position record and is Halted, or Saved for a pre-emption; once the page of its next unit is resident a stream halted by a page fault runs again; a real-time stream with everything pinned runs; a closing stream with nothing left is gone, with its pins. -/
def Obligations.StreamsHaltAndGoOn : Prop :=
  (∀ (s : State) (c : Cab) (n : StreamNo) (m : StreamS) (cause va : Nat), s.stream (streamKey c n) = some m → m.halting = some (cause, va) →
      m.outst = [] → m.st = .running → m.haltAt ≤ m.issued → cause ≠ 3 → Answers (exec (.streamHaltComplete c n) s) fun u =>
        u.stream (streamKey c n) = some { m with
          halting := none
          cause := cause
          record := m.position (streamKey c n) cause va
          halts := m.halts + 1
          st := if cause = 2 then .saved else .halted } ∧ u.mem = s.mem ∧ u.tiles = s.tiles ∧
        (∀ k, k ≠ streamKey c n → u.stream k = s.stream k)) ∧
  (∀ (s : State) (c : Cab) (n : StreamNo) (m : StreamS) (j : JobS) (pa page : Nat) (l : Bool), s.stream (streamKey c n) = some m →
      m.st = .halted → m.cause = 1 → m.desc.dir = 0 → s.job m.jobId = some j →
      s.translate c j.asn (m.desc.va m.issued) false = .ok pa page l →
      Answers (exec (.streamResume c n) s) fun u =>
        u.stream (streamKey c n) = some { m with st := .running, halting := none, looked := m.issued } ∧
        u.num Obj.resumes = min (s.num Obj.resumes + 1) (maxOf Obj.resumes)) ∧
  (∀ (s : State) (c : Cab) (n : StreamNo) (m : StreamS) (j : JobS), s.stream (streamKey c n) = some m → m.st = .opening →
      m.desc.rt = true → m.desc.dir = 0 → s.job m.jobId = some j → (∀ p, (streamKey c n, p) ∈ s.mm.pins → s.resident j.asn p = true ∧ ∃ e, s.leafOf j.asn p = some e ∧ ptePinned e = true) →
      Answers (exec (.streamPinComplete c n) s) fun u =>
        u.stream (streamKey c n) = some { m with st := .running, halting := none, looked := m.issued }) ∧
  (∀ (s : State) (c : Cab) (n : StreamNo) (m : StreamS), s.stream (streamKey c n) = some m → m.st = .closing → m.outst = [] →
      m.desc.isRead = true ∨ m.issued = m.freed → m.reopen = none → Tab.sorted s.streams = true →
      Answers (exec (.streamCloseComplete c n) s) fun u => u.stream (streamKey c n) = none ∧
        u.mm.pins = s.mm.pins.filter (·.1 ≠ streamKey c n) ∧ (m.desc.dir ≠ 2 → u.tiles = s.tiles)) ∧
  (∀ (s : State) (c : Cab) (n : StreamNo) (m : StreamS) (va : Nat), s.stream (streamKey c n) = some m → m.halting = some (3, va) →
      m.outst = [] → m.st = .running → m.haltAt ≤ m.issued → (∃ q ∈ s.health.rungs, q.work = .shard m.jobId) →
      Answers (exec (.streamHaltComplete c n) s) fun u =>
        ((u.stream (streamKey c n)).map fun m => (m.st, m.cause)) = some (StreamSt.halted, 3) ∧
        u.num Obj.cabinetLostHalts = min (s.num Obj.cabinetLostHalts + 1) (maxOf Obj.cabinetLostHalts) ∧
        u.mem = s.mem ∧ u.tiles = s.tiles)

/-- A Ready cabinet's channel admits, of the offers spread to it, the first real-time one with room, else one of the class whose turn it is while its weight lasts, else one of the next class in turn; with none, or in a cabinet that is not Ready, nothing; a read whose bank and row match queued writes puts the bank in in-order mode, counted. A read served or a write completed leaves its queue with its outcome counted; a request not ready changes nothing; a refresh closes a row only. Other channels, memory and tiles stay. -/
def Obligations.ChannelsAdmitAndServe : Prop :=
  (∀ (s : State) (c : Cab) (k : Fin 24) (offers : List ChanReq),
      s.num (Obj.gddrCabinetState + c) ≠ 2 ∨
        (∀ r ∈ offers, chanOf r = k.val → r.offset.toNat < Config.gddrPerCabinet → (s.chan c k).room r = false) →
      exec (.channelAdmit c k offers) s = .next s) ∧
  (∀ (s : State) (c : Cab) (k : Fin 24) (offers : List ChanReq) (r : ChanReq) (turn credit : Nat),
      s.num (Obj.gddrCabinetState + c) = 2 →
      (let q := s.chan c k
       let ok := offers.filter fun o => chanOf o = k.val && decide (o.offset.toNat < Config.gddrPerCabinet) && q.room o
       ok.find? (·.realTime) = some r ∧ turn = q.turn ∧ credit = q.credit ∨
       (∀ o ∈ ok, o.realTime = false) ∧
         (0 < q.credit ∧ ok.find? (fun o => classNo o.cls = q.turn) = some r ∧ turn = q.turn ∧ credit = q.credit - 1 ∨
          (q.credit = 0 ∨ ∀ o ∈ ok, classNo o.cls ≠ q.turn) ∧
            (∃ i < 6, turn = (q.turn + 1 + i) % 6 ∧ (∀ i' < i, ∀ o ∈ ok, classNo o.cls ≠ (q.turn + 1 + i') % 6)) ∧
            ok.find? (fun o => classNo o.cls = turn) = some r ∧ credit = bits (s.num Obj.arbWeights) (8 * turn) 8 - 1)) →
      Answers (exec (.channelAdmit c k offers) s) fun u =>
        (u.chan c k).queue = (s.chan c k).queue ++ [⟨r.tag, r.isWrite, r.realTime, chanBank (chanAddr r), chanRow (chanAddr r)⟩] ∧
        (u.chan c k).turn = turn ∧ (u.chan c k).credit = credit ∧ (u.chan c k).open? = (s.chan c k).open? ∧
        (u.chan c k).draining = ((s.chan c k).draining ||
          decide (bits (s.num Obj.writeDrainMarks) 0 8 ≤ (((s.chan c k).queue ++ [(⟨r.tag, r.isWrite, r.realTime, chanBank (chanAddr r), chanRow (chanAddr r)⟩ : ChanEnt)]).filter (·.isWrite)).length)) ∧
        (let hits := ((s.chan c k).queue.filter fun f => f.isWrite && f.bank = chanBank (chanAddr r) && f.row = chanRow (chanAddr r)).map (·.tag)
         let enters := !r.isWrite && !hits.isEmpty && !(s.chan c k).ordered (chanBank (chanAddr r))
         (u.chan c k).inOrder = (if enters then [(chanBank (chanAddr r), hits)] else []) ++ (s.chan c k).inOrder ∧
         CountedIf enters Obj.inOrderEntries s u ∧ (enters = false → u.obj = s.obj)) ∧
        (∀ c' : Cab, ∀ k' : Fin 24, (c', k') ≠ (c, k) → u.chan c' k' = s.chan c' k') ∧
        u = { s with obj := u.obj, mm := { s.mm with chans := u.mm.chans } }) ∧
  (∀ (s : State) (c : Cab) (k : Fin 24) (tag : Nat) (e : ChanEnt) (o : ReadOutcome),
      (s.chan c k).queue.find? (fun e => e.tag = tag && !e.isWrite) = some e →
      ((s.chan c k).readReady e = false → exec (.channelReadServed c k tag o) s = .next s) ∧
      ((s.chan c k).readReady e = true → Answers (exec (.channelReadServed c k tag o) s) fun u =>
        (u.chan c k).queue = (s.chan c k).queue.erase e ∧ (u.chan c k).inOrder = (s.chan c k).inOrder ∧
        (match o with
         | .good n corrected => Counted Obj.readCrcRetries n s u ∧ CountedIf corrected Obj.onDieCorrected s u ∧
             u.num Obj.gddrFlags = s.num Obj.gddrFlags
         | .crcFailed => Counted Obj.readCrcRetries 2 s u ∧ Counted Obj.gddrUncorrectable 1 s u ∧
             u.num Obj.gddrFlags = s.num Obj.gddrFlags ||| 1
         | .onDieUncorrectable n => Counted Obj.readCrcRetries n s u ∧ Counted Obj.gddrUncorrectable 1 s u ∧
             u.num Obj.gddrFlags = s.num Obj.gddrFlags ||| 1) ∧
        (∀ c' : Cab, ∀ k' : Fin 24, (c', k') ≠ (c, k) → u.chan c' k' = s.chan c' k') ∧ u.mem = s.mem ∧ u.tiles = s.tiles)) ∧
  (∀ (s : State) (c : Cab) (k : Fin 24) (tag n : Nat) (e : ChanEnt),
      (s.chan c k).queue.find? (fun e => e.tag = tag && e.isWrite) = some e →
      ((s.chan c k).writeReady e = false → exec (.channelWriteComplete c k tag n) s = .next s) ∧
      ((s.chan c k).writeReady e = true → Answers (exec (.channelWriteComplete c k tag n) s) fun u =>
        (u.chan c k).queue = (s.chan c k).queue.erase e ∧
        (∀ b l, (b, l) ∈ (u.chan c k).inOrder → l ≠ []) ∧
        (∀ b l, b ≠ e.bank → l ≠ [] → ((b, l) ∈ (u.chan c k).inOrder ↔ (b, l) ∈ (s.chan c k).inOrder)) ∧
        (u.chan c k).draining = ((s.chan c k).draining &&
          decide (bits (s.num Obj.writeDrainMarks) 8 8 < (((s.chan c k).queue.erase e).filter (·.isWrite)).length)) ∧
        Counted Obj.writeCrcReplays n s u ∧ (∀ j, j ≠ Obj.writeCrcReplays → u.val j = s.val j) ∧
        u = { s with obj := u.obj, mm := { s.mm with chans := u.mm.chans } })) ∧
  (∀ (s : State) (c : Cab) (k : Fin 24) (b : Fin 16), Answers (exec (.bankRefresh c k b) s) fun u =>
      u.chan c k = { s.chan c k with
        open? := (s.chan c k).open?.del b
        refreshed := (s.chan c k).refreshed.put b ((s.chan c k).refreshed.get 0 b + 1) } ∧
      (∀ c' : Cab, ∀ k' : Fin 24, (c', k') ≠ (c, k) → u.chan c' k' = s.chan c' k') ∧
      u = { s with mm := { s.mm with chans := u.mm.chans } })

/-- An accepted OperatingPoint value starts the change at the first Ready cabinet, whose shadow sets take the point's record, the others to follow in order; with none Ready the change is complete at once. It is refused where the point is not available, while a real-time stream is open, in bound mode, or during a change. A cabinet done with empty queues is Ready, its shadow sets active, and the next Ready one changes; one with requests queued is not done; after the last the point is in force, counted and flagged. -/
def Obligations.OperatingPointChanges : Prop :=
  (∀ (s : State) (q : Req) (val : List Byte), Admitted q Obj.operatingPoint val s →
      s.num Obj.availablePoints / 2 ^ ((leNat val - 28) / 4) % 2 = 1 →
      (∀ p ∈ s.streams, p.2.desc.rt = false) → s.num Obj.stepMode ≠ 1 → s.num Obj.changeState ≠ 1 →
      Carries q Obj.operatingPoint (exec (.operatingPointWrite q val) s) fun t =>
        t.num Obj.operatingPoint = leNat val ∧ t.mem = s.mem ∧ t.tiles = s.tiles ∧ t.streams = s.streams ∧
        (∀ c : Cab, s.num (Obj.gddrCabinetState + c) = 2 → (∀ d < c, s.num (Obj.gddrCabinetState + d) ≠ 2) →
          t.num Obj.changeState = 1 ∧ t.num Obj.changingCabinet = c ∧ t.num (Obj.gddrCabinetState + c) = 3 ∧
          t.mm.changing = (List.range 8).drop c ∧
          t.pointSets c = ((s.pointSets c).1, Config.pointRecord c ((leNat val - 28) / 4)) ∧ t.num Obj.activeOperatingPoint = s.num Obj.activeOperatingPoint) ∧
        ((∀ c : Cab, s.num (Obj.gddrCabinetState + c) ≠ 2) →
          t.num Obj.changeState = 0 ∧ t.num Obj.activeOperatingPoint = leNat val ∧ t.num Obj.gddrFlags = s.num Obj.gddrFlags ||| 2)) ∧
  (∀ (s : State) (q : Req) (val : List Byte), Admitted q Obj.operatingPoint val s →
      s.num Obj.availablePoints / 2 ^ ((leNat val - 28) / 4) % 2 = 1 →
      (∃ p ∈ s.streams, p.2.desc.rt = true) ∨ s.num Obj.stepMode = 1 ∨ s.num Obj.changeState = 1 →
      exec (.operatingPointWrite q val) s = .next (Denied q Obj.operatingPoint Err.refusedInState (Arrived q s))) ∧
  (∀ (s : State) (q : Req) (val : List Byte), Admitted q Obj.operatingPoint val s →
      s.num Obj.availablePoints / 2 ^ ((leNat val - 28) / 4) % 2 = 0 →
      exec (.operatingPointWrite q val) s = .next (Denied q Obj.operatingPoint Err.outOfRange (Arrived q s))) ∧
  (∀ (s : State) (c : Cab) (r : List Nat) (k : Fin 24), s.mm.changing = [] ∨ s.mm.changing = c.val :: r ∧ (s.chan c k).queue ≠ [] →
      exec .cabinetPointChangeDone s = .next s) ∧
  (∀ (s : State) (c : Cab) (l r : List Nat), s.mm.changing = c.val :: (l ++ r) → s.num (Obj.gddrCabinetState + c) = 3 →
      (∀ k : Fin 24, (s.chan c k).queue = []) → c.val ∉ l ++ r → (∀ e ∈ l ++ r, e < 8) →
      (∀ e ∈ l, s.num (Obj.gddrCabinetState + e) ≠ 2) →
      Answers (exec .cabinetPointChangeDone s) fun u =>
        u.num (Obj.gddrCabinetState + c) = 2 ∧ u.pointSets c = ((s.pointSets c).2, (s.pointSets c).1) ∧
        (∀ d r', r = d :: r' → s.num (Obj.gddrCabinetState + d) = 2 →
          u.mm.changing = r ∧ u.num Obj.changingCabinet = d ∧ u.num (Obj.gddrCabinetState + d) = 3 ∧
          u.pointSets d = ((s.pointSets d).1, Config.pointRecord d (pointBit (s.num Obj.operatingPoint))) ∧
          u.num Obj.changeState = s.num Obj.changeState ∧
          u.num Obj.activeOperatingPoint = s.num Obj.activeOperatingPoint) ∧
        (r = [] → u.mm.changing = [] ∧ u.num Obj.changingCabinet = 0xFF ∧ u.num Obj.changeState = 0 ∧
          u.num Obj.activeOperatingPoint = s.num Obj.operatingPoint ∧ Counted Obj.operatingPointChanges 1 s u ∧
          u.num Obj.gddrFlags = s.num Obj.gddrFlags ||| 2) ∧
        u = { s with
          obj := u.obj
          dict := { s.dict with queues := u.dict.queues }
          mm := { s.mm with
            changing := u.mm.changing
            sets := u.mm.sets } })

/-- On an Up port a clean CXL read response changes nothing here; a poisoned one is counted and flagged, and so is a request not answered in time. A link-down puts a port in Error with width and rate 0, flagged. Nothing else changes. -/
def Obligations.CxlPortsReport : Prop :=
  (∀ (s : State) (p : Fin 4) (tag : Nat) (data : List Byte), s.num (Obj.cxlPortState + p) = 3 →
      exec (.cxlReadResponse p tag false data) s = .next s ∧
      (Answers (exec (.cxlReadResponse p tag true data) s) fun u => Counted Obj.poisonedReads 1 s u ∧
        u.num Obj.cxlFlags = s.num Obj.cxlFlags ||| 1 ∧ ChangesOnly [Obj.poisonedReads, Obj.cxlFlags] s u) ∧
      (Answers (exec (.cxlCompletionTimeout p tag) s) fun u => Counted Obj.completionTimeouts 1 s u ∧
        u.num Obj.cxlFlags = s.num Obj.cxlFlags ||| 2 ∧ ChangesOnly [Obj.completionTimeouts, Obj.cxlFlags] s u)) ∧
  (∀ (s : State) (p : Fin 4), s.num (Obj.cxlPortState + p) ≠ 0 → s.num (Obj.cxlPortState + p) ≠ 4 →
      Answers (exec (.cxlLinkDown p) s) fun u => u.num (Obj.cxlPortState + p) = 4 ∧ u.num (Obj.cxlLinkWidth + p) = 0 ∧
        u.num (Obj.cxlLinkRate + p) = 0 ∧ u.num Obj.cxlFlags = s.num Obj.cxlFlags ||| 4 ∧
        ChangesOnly [Obj.cxlPortState + p, Obj.cxlLinkWidth + p, Obj.cxlLinkRate + p, Obj.cxlFlags] s u)

/-- Of the queued faults whose page is not being evicted, the oldest is served, with fewer than 16 in progress. It is dropped where its page is resident, a pin marking the page; it joins a migration of its page; else it takes a free frame of its job's quota and is copied in; with none and no victim it waits, flagged QUOTA_WAIT, or PIN_BLOCKED for a pin; with a victim, that page becomes MIGRATING and leaves the caches, and once no access to it is outstanding it leaves its frame, which the fault takes. With nothing to serve or 16 in progress nothing changes. A waiting fault takes a freed frame. A completed copy makes the page resident in the frame, its leaves written in every copy, counted; it waits while its cabinet changes operating point, and a backing that fails ends the job. -/
def Obligations.PageFaultsAreServed : Prop :=
  (∀ (s : State) (t : Nat), s.mm.faults.find? (fun f => f.stage = .queued && !(s.mm.faults.any fun g => g.evicts f.asn f.va)) = none ∨
      16 ≤ (s.mm.faults.filter fun g => g.stage ≠ .queued).length → exec (.serveFault t) s = .next (s.upto t)) ∧
  (∀ (s : State) (t : Nat) (f : PageFault),
      s.mm.faults.find? (fun f => f.stage = .queued && !(s.mm.faults.any fun g => g.evicts f.asn f.va)) = some f →
      (s.mm.faults.filter fun g => g.stage ≠ .queued).length < 16 →
      let gone := { s.upto t with mm := { s.mm with faults := s.mm.faults.erase f } }
      (s.resident f.asn f.va = true → f.pin = false → exec (.serveFault t) s = .next gone) ∧
      (s.resident f.asn f.va = true → f.pin = true → exec (.serveFault t) s = .next (gone.setPinned f.asn f.va
        ((((s.jobOfAsn f.asn).bind fun (_, j) => j.segOf f.va).map (·.large)).getD false) true)) ∧
      (s.resident f.asn f.va = false →
        (s.mm.faults.any fun g => g ≠ f && g.asn = f.asn && g.va = f.va && g.stage ≠ .queued) = true →
        Answers (exec (.serveFault t) s) fun u =>
          u.mm.faults = (s.mm.faults.erase f).map (fun g =>
            if g.asn = f.asn && g.va = f.va && g.stage ≠ .queued then { g with pin := g.pin || f.pin } else g) ∧
          Counted Obj.faultsJoined 1 s u ∧ ChangesOnly [Obj.faultsJoined, Obj.migrationFlags] { s.upto t with mm := u.mm } u ∧
          u.mm = { s.mm with faults := u.mm.faults }) ∧
      (∀ (id : Nat) (j : JobS), s.resident f.asn f.va = false →
        (s.mm.faults.any fun g => g ≠ f && g.asn = f.asn && g.va = f.va && g.stage ≠ .queued) = false →
        s.jobOfAsn f.asn = some (id, j) →
        let large := ((j.segOf f.va).map (·.large)).getD false
        let into := fun st => s.mm.faults.set (s.mm.faults.idxOf f) { f with stage := st }
        (∀ n, s.freeFrame j f.cab large = some n → exec (.serveFault t) s =
          .next { s.upto t with mm := { s.mm with faults := into (.copying n) } }) ∧
        (s.freeFrame j f.cab large = none → s.victim j f.cab large = none → Answers (exec (.serveFault t) s) fun u =>
          u.mm = { s.mm with faults := into .waiting } ∧
          u.num Obj.migrationFlags = s.num Obj.migrationFlags ||| (if f.pin then 2 else 1) ∧
          ChangesOnly [Obj.migrationFlags] { s.upto t with mm := u.mm } u) ∧
        (∀ n p, s.freeFrame j f.cab large = none → s.victim j f.cab large = some (n, p) →
          exec (.serveFault t) s =
            .next ((((s.upto t).setStage f (.evicting n p)).beginEvict f.cab f.asn p large n).evictionsGoOn) ∧
          (NoEvictions s → Answers (exec (.serveFault t) s) fun u =>
            (∀ e ∈ u.mm.cached, e.1 % 2 ^ 56 ≠ leafKey f.asn p) ∧ u.tiles = s.tiles ∧ u.jobs = s.jobs ∧ u.streams = s.streams ∧
            (s.frameBusy f.cab f.asn large n = true → u.mm.faults = into (.evicting n p) ∧ u.mm.frames = s.mm.frames ∧ u.obj = s.obj) ∧
            (s.frameBusy f.cab f.asn large n = false → u.mm.faults = into (.copying n) ∧
              u.mm.frames = s.mm.frames.filter (fun (_, a, _, _, p') => !(a = f.asn && p' = p)) ∧
              Counted Obj.pagesEvicted 1 s u))))) ∧
  (∀ (s : State) (c : Cab) (asn : Byte) (large : Bool),
      let waits := fun f => f.stage = .waiting && f.cab = c.val && f.asn = asn.toNat &&
        (((s.jobOfAsn f.asn).bind fun (_, j) => j.segOf f.va).map (·.large)).getD false = large
      (s.mm.faults.find? waits = none → exec (.frameFreed c asn large) s = .next s) ∧
      (∀ (f : PageFault) (id : Nat) (j : JobS) (n : Nat), s.mm.faults.find? waits = some f →
        s.jobOfAsn f.asn = some (id, j) → s.freeFrame j f.cab large = some n → exec (.frameFreed c asn large) s =
          .next { s with mm := { s.mm with faults := s.mm.faults.set (s.mm.faults.idxOf f) { f with stage := .copying n } } })) ∧
  (∀ (s : State) (t : Nat) (asn : Byte) (va : BitVec 48) (c : Cab) (n id : Nat) (st : MemStatus) (data : List Byte) (f : PageFault)
      (j : JobS), f = ⟨asn.toNat, va.toNat, c.val, f.at?, .copying n, f.pin⟩ →
      s.mm.faults.find? (fun f => f.asn = asn.toNat && f.va = va.toNat && f.cab = c.val &&
        (match f.stage with | .copying _ => true | _ => false)) = some f → s.jobOfAsn asn.toNat = some (id, j) →
      let back := s.mm.backing.get 0 (leafKey asn.toNat va.toNat)
      let seg := j.segOf va.toNat
      let large := (seg.map (·.large)).getD false
      let w := (seg.map (·.writable)).getD false
      let frame := frameAddr c asn.toNat large n
      (s.num (Obj.gddrCabinetState + c) = 3 → exec (.migrationComplete t asn va c st data) s = .next (s.upto t)) ∧
      (s.num (Obj.gddrCabinetState + c) ≠ 3 → s.access back st = .ok →
        Answers (exec (.migrationComplete t asn va c st data) s) fun u =>
          u.mm = { s.mm with
            faults := s.mm.faults.erase f
            frames := (c.val, asn.toNat, large, n, va.toNat) :: s.mm.frames } ∧
          u.mem = ((s.copyIn back frame (pageSize large) data).putLeaves asn.toNat va.toNat
            large (mkLeaf true w (f.pin || (seg.map (·.pinned)).getD false) false frame)).mem ∧
          Counted Obj.pagesIn 1 s u ∧ Counted Obj.faultsServed 1 s u ∧
          u.num Obj.faultLatencyMax = min (max (s.num Obj.faultLatencyMax) (max s.now t - f.at?)) (maxOf Obj.faultLatencyMax) ∧
          u = { s.upto t with obj := u.obj, mem := u.mem, mm := u.mm }) ∧
      (s.num (Obj.gddrCabinetState + c) ≠ 3 → s.access back st ≠ .ok →
        Answers (exec (.migrationComplete t asn va c st data) s) fun u =>
          u.mm.faults = s.mm.faults.erase f ∧ (u.num Obj.migrationFlags).testBit 2 = true ∧
          Logged { FaultRec.device (max s.now t) 0x0D 7 with job := id, addr := back } 0xFF s u ∧
          (j.st ≠ .ending → (u.job id).map (·.st) = some .ending ∧ (u.job id).map (·.status) = some (some (Status.farTier, 7)))))

/-- A corrected error is counted, one in a bank register of a resident context with a cycle of freeze, and a site that serves no column, or a tile that is gone, reports nothing. A first fault of a core in a pass in flight discards that pass and those after it, reissues from it as soon as the drawer's level allows, and leaves a record of rung 1; a second one at the site within 1,000 ms, or the same signature found again, makes it persistent, flagged, and queues it for rung 2, whose drawer stops. A first pepper fault discards nothing, flagged and recorded without a rung. A replayed flit is a record of rung 0. -/
def Obligations.FaultsStartTheLadder : Prop :=
  (∀ (s : State) (t : Nat) (f : FaultInfo),
      ((∃ g, f.tile = some g ∧ (s.lost (g / 150) = true ∨ s.inCReset (g / 150) = true)) ∨
        (∃ (g : Tile) (sh : Fin 16) (st : Fin 17), f.tile = some g ∧ f.shelf = some sh ∧ f.site = some st ∧ s.serves g sh st = false) →
        exec (.faultReport t f) s = .next (s.upto t)) ∧
      ((∀ g, f.tile = some g → s.lost (g / 150) = false ∧ s.inCReset (g / 150) = false) →
        f.mechanism = 3 → (∀ g sh st, f.tile = some g → f.shelf = some sh → f.site = some st → s.serves g sh st = true) →
        let u := (s.upto t).bump Obj.correctedErrors 1
        ((∀ g x, f.tile = some g → f.ctx = some x → f.structureCode ≠ 6 ∨ (s.tile g).bankOf x = none) →
          exec (.faultReport t f) s = .next u) ∧
        (∀ g x, f.tile = some g → f.ctx = some x → f.structureCode = 6 → (s.tile g).bankOf x ≠ none →
          exec (.faultReport t f) s = .next (u.bump (tileKey Obj.freezeCycles g) 1)))) ∧
  (∀ (s : State) (t : Nat) (f : FaultInfo) (g : Tile) (x : Ctx) (sh : Fin 16) (st : Fin 17), f.tile = some g → f.ctx = some x →
      f.shelf = some sh → f.site = some st → f.pepper = false → f.structureCode = 1 ∨ f.structureCode = 2 → f.mechanism ≠ 3 →
      s.lost (g / 150) = false → s.inCReset (g / 150) = false → s.serves g sh st = true →
      let d := s.dr g x
      let r := (s.upto t).recOf f (some x)
      let sig := r.signature (siteMark g sh st) f.pass
      let old := s.health.marks.get [] (siteMark g sh st)
      let near := old.filter fun m => max s.now t ≤ m + 1000000000
      let keep := d.await.filter (·.pass < f.pass)
      d.asked = false → d.st = .issuing ∨ d.st = .draining → d.flying.contains f.pass = true →
      Answers (exec (.faultReport t f) s) fun u =>
        u.health.marks.get [] (siteMark g sh st) = max s.now t :: near ∧
        Counted (tileKey Obj.passesDiscarded g) (d.flying.length - keep.length) s u ∧
        (∀ h, h ≠ g.val → u.tile h = s.tile h) ∧
        (near = [] → sig ∉ d.sigs →
          u.dr g x = { d with
            await := keep
            pass := f.pass
            begun := true
            sigs := sig :: d.sigs
            st := if 0 < d.level then .issuing else .discarding } ∧
          Logged r 1 s u ∧ u.health.rungs = s.health.rungs ∧ u.mem = s.mem ∧ u.jobs = s.jobs ∧ u.streams = s.streams) ∧
        (near ≠ [] ∨ sig ∈ d.sigs → (s.tileRung g = none → s.retired g = false ∧ s.siteCode g sh st = 0) →
          u.health.rungs = s.health.rungs ++
            [⟨.site g sh st, { r with count := near.length + 1, flags := r.flags ||| 1 }⟩] ∧
          u.num Obj.healthFlags = s.num Obj.healthFlags ||| 1 ∧ u.num Obj.healthState = 1 ∧ u.health.log = s.health.log ∧
          (s.tileRung g = none → s.hasRt g = false → (s.sites g sh).length = 17 →
            (u.dr g x).st = (if keep = [] then .stopped else .stopping) ∧ (u.dr g x).recover = true))) ∧
  (∀ (s : State) (t : Nat) (f : FaultInfo) (g : Tile) (x : Ctx) (sh : Fin 16) (st : Fin 17), f.tile = some g → f.ctx = some x →
      f.shelf = some sh → f.site = some st → f.pepper = true → f.mechanism ≠ 3 → s.lost (g / 150) = false →
      s.inCReset (g / 150) = false → s.serves g sh st = true →
      (∀ m ∈ s.health.marks.get [] (siteMark g sh st), m + 1000000000 < max s.now t) →
      Answers (exec (.faultReport t f) s) fun u => Logged ((s.upto t).recOf f (some x)) 0xFF s u ∧
        (u.num Obj.healthFlags).testBit 7 = true ∧ u.tiles = s.tiles ∧ u.mem = s.mem ∧ u.jobs = s.jobs ∧ u.streams = s.streams ∧
        u.health.rungs = s.health.rungs) ∧
  (∀ (s : State) (t : Nat) (link : Byte), Answers (exec (.linkReplay t link) s) fun u => Counted Obj.linkReplays 1 s u ∧
      Logged { FaultRec.device (max s.now t) 0x0B 5 with syn := link.toNat } 0 s u ∧ u.mem = s.mem ∧ u.tiles = s.tiles ∧
      u = { s.upto t with
        obj := u.obj
        dict := { s.dict with queues := u.dict.queues }
        health := { s.health with log := u.health.log } })

/-- Once every drawer of the tile is at rest, rung 2 fences the site, which leaves the steering, its record of rung 2 logged; until then nothing changes. Rung 3, once the drawers over the row are at rest, fences the site without a spare, an unused spare left Pending, and removes the row, and with no drawer over it its record is of rung 3. A Pending spare in a tile without real-time drawers is in service or fenced as its test ends, the drawers being stopped first. Rung 4 rebuilds each lost drawer of the replica, is recorded, and the job runs where nothing else is to be recovered; with no survivor rung 5 waits in its place. ReadmitTile queues a tile once and is refused for a lost cabinet; a tile re-admitted has in service exactly the sites that passed both selections; one not queued, not empty, or with a rung to come is left as it is. -/
def Obligations.RungsAndReadmission : Prop :=
  (∀ (s : State) (t : Nat) (g : Tile) (sh : Fin 16) (st : Fin 17) (q : Rung), s.tileRung g = some q → q.work = .site g sh st →
      (s.bytes (Obj.tileFenceMap + g / 150)).length = 10220 → s.retired g = false → s.siteCode g sh st = 0 →
      st.val ∈ s.sites g sh → (∀ q' ∈ s.health.rungs.erase q, ∀ a b, q'.work ≠ .site g a b ∧ q'.work ≠ .row g a) →
      (s.rung2 g sh = true → s.tileAtRest g = false → exec (.coreFenceWithSpare t g sh st []) s = .next (s.upto t)) ∧
      (s.rung2 g sh = true → s.tileAtRest g = true →
        Answers (exec (.coreFenceWithSpare t g sh st []) s) fun u =>
          u.siteCode g sh st = 1 ∧ u.sites g sh = (s.sites g sh).erase st ∧ Logged q.record 2 s u ∧
          u.health.rungs = s.health.rungs.erase q ∧ u.num (tileKey Obj.benchResult g) = benchWord [] ∧
          u.mem = s.mem ∧ u.jobs = s.jobs ∧ (∀ h, h ≠ g.val → u.tile h = s.tile h)) ∧
      (let above := (s.tile g).bound.filter fun x => (s.dr g x).covers sh
       (above.all (s.atRest g) = false → exec (.rowRemoval t g sh st) s = .next (s.upto t)) ∧
       (above.all (s.atRest g) = true → s.rung2 g sh = false → (s.sites g sh).length = 16 ∨ (s.sites g sh).length = 17 →
        Answers (exec (.rowRemoval t g sh st) s) fun u =>
          u.siteCode g sh st = 1 ∧ u.rowRemoved g sh = true ∧ (u.num Obj.healthFlags).testBit 1 = true ∧
          ((s.sites g sh).length = 17 → st.val ≠ 16 → (s.sites g sh).getLast? = some 16 → u.siteCode g sh 16 = 2) ∧
          (above = [] → Logged q.record 3 s u ∧ u.health.rungs = s.health.rungs.erase q ∧ u.mem = s.mem ∧ u.jobs = s.jobs)))) ∧
  (∀ (s : State) (g : Tile) (sh : Fin 16) (st : Fin 17) (pass : Bool), (s.bytes (Obj.tileFenceMap + g / 150)).length = 10220 →
      s.siteCode g sh st = 2 → s.hasRt g = false → s.retired g = false → s.tileUp g = true → s.tileRung g = none →
      (s.tileAtRest g = false → Answers (exec (.pendingSpareTest g sh st pass) s) fun u =>
        u = (s.tile g).bound.foldl (fun s x => s.askStop g x true) s ∧ u.siteCode g sh st = 2) ∧
      (s.tileAtRest g = true → Answers (exec (.pendingSpareTest g sh st pass) s) fun u =>
        u.siteCode g sh st = (if pass then 0 else 1) ∧ (st.val ∈ u.sites g sh ↔ pass = true) ∧ u.mem = s.mem ∧
        u.health.rungs = s.health.rungs ∧ (∀ h, h ≠ g.val → u.tile h = s.tile h))) ∧
  (∀ (s : State) (t : Nat) (id : BitVec 32) (shard : Byte) (rep : Fin 4) (q : Rung) (j : JobS),
      let w := RungWork.replica id.toNat shard.toNat rep
      s.health.rungs.find? (fun q => q.work = w) = some q → s.job id.toNat = some j →
      let mine := j.placed.filter fun d => d.shard = shard.toNat && d.replica = rep.val
      let busy := mine.any fun a => ((s.survivorOf id.toNat j a).map fun b => (s.tileRung b.tile).isSome).getD false
      (busy = true ∨ (∃ d ∈ mine, s.atRest d.tile d.ctx = false) → exec (.replicaTakeover t id shard rep) s = .next (s.upto t)) ∧
      (busy = false → (∀ d ∈ mine, s.atRest d.tile d.ctx = true) →
        (∀ u, (s.upto t).rebuildAll id.toNat mine = some u → exec (.replicaTakeover t id shard rep) s =
          .next ((((((u.closeRungs w 4).recovered id.toNat).job id.toNat).map (·.placed)).getD []).foldl
            (fun s d => if (s.dr d.tile d.ctx).recover then s.resumeCtx d.tile d.ctx else s) ((u.closeRungs w 4).recovered id.toNat))) ∧
        (mine = [] → (∀ q' ∈ s.health.rungs.erase q, ∀ a b, q'.work ≠ .replica id.toNat a b ∧ q'.work ≠ .shard id.toNat) →
          Answers (exec (.replicaTakeover t id shard rep) s) fun u =>
            (u.job id.toNat).map (·.st) = some .running ∧ Logged q.record 4 s u ∧ u.health.rungs = s.health.rungs.erase q ∧
            u.mem = s.mem) ∧
        (∀ a l, mine = a :: l → s.survivorOf id.toNat j a = none → j.st = .recovering → j.writing = none →
          (∀ q' ∈ s.health.rungs.erase q, ∀ a b, q'.work ≠ .replica id.toNat a b) →
          Answers (exec (.replicaTakeover t id shard rep) s) fun u => (u.job id.toNat).map (·.st) = some .recovering ∧
            u.health.rungs.map (·.work) = (s.health.rungs.erase q).map (·.work) ++ [.shard id.toNat] ∧
            u.health.log = s.health.log))) ∧
  (∀ (s : State) (q : Req) (val : List Byte), Admitted q Obj.readmitTile val s →
      (s.lost (leNat val / 150) = true → exec (.readmitTile q val) s = .next (Denied q Obj.readmitTile Err.cabinetLost (Arrived q s))) ∧
      (s.lost (leNat val / 150) = false → leNat val ∈ s.health.readmit →
        exec (.readmitTile q val) s = .next (Replied q Obj.readmitTile (Arrived q s))) ∧
      (s.lost (leNat val / 150) = false → leNat val ∉ s.health.readmit →
        Carries q Obj.readmitTile (exec (.readmitTile q val) s) fun u => u.health.readmit = s.health.readmit ++ [leNat val] ∧
          u.num Obj.readmitQueued = s.health.readmit.length + 1 ∧
          u = { Arrived q s with obj := u.obj, health := { s.health with readmit := u.health.readmit } })) ∧
  (∀ (s : State) (g : Tile) (f1 f2 : List (Fin 16 × Fin 17)),
      g.val ∉ s.health.readmit ∨ (s.tile g).bound ≠ [] ∨ s.lost (g / 150) = true ∨ s.inCReset (g / 150) = true ∨ s.tileRung g ≠ none →
      exec (.readmission g f1 f2) s = .next s) ∧
  (∀ (s : State) (g : Tile) (f1 f2 : List (Fin 16 × Fin 17)), g.val ∈ s.health.readmit → (s.tile g).bound = [] →
      s.lost (g / 150) = false → s.inCReset (g / 150) = false → s.tileRung g = none →
      (s.bytes (Obj.tileFenceMap + g / 150)).length = 10220 → Answers (exec (.readmission g f1 f2) s) fun u =>
        (∀ (sh : Fin 16) (st : Fin 17), u.siteCode g sh st = (if (sh, st) ∈ f1 ++ f2 then 1 else 0)) ∧
        u.health.readmit = s.health.readmit.filter (· ≠ g.val) ∧ (f1 ++ f2 = [] → u.retired g = false) ∧
        u.mem = s.mem ∧ u.tiles = s.tiles ∧ u.jobs = s.jobs)

/-- SubTail of a served ring and CplHead take an admitted value; SubTail is refused where CplSlots is 0. A ring's configuration is refused while it is in use, and otherwise stored with all four pointers 0. With a free slot the oldest record is written at CplBase + 32 × CplTail, the pointer advances, the record counts and its job is gone. A poll with no served ring reads nothing; a bad descriptor, one of a JOB_ID in use and one whose layout is refused leave their record and a good one a Queued job with totals of 0, and SubHead advances. A poll also lets groups that have stopped report it, and restores go on. -/
def Obligations.JobRingsRun : Prop :=
  (∀ (s : State) (q : Req) (n : Fin 8) (val : List Byte), Admitted q (ringObj Obj.subTail n) val s →
      (s.num (ringObj Obj.cplSlots n) ≠ 0 → exec (.subTailWrite q n val) s =
        .next (Replied q (ringObj Obj.subTail n) ((Arrived q s).setNum (ringObj Obj.subTail n) (leNat val)))) ∧
      (s.num (ringObj Obj.cplSlots n) = 0 → exec (.subTailWrite q n val) s =
        .next (Denied q (ringObj Obj.subTail n) Err.refusedInState (Arrived q s)))) ∧
  (∀ (s : State) (q : Req) (n : Fin 8) (val : List Byte), Admitted q (ringObj Obj.cplHead n) val s →
      exec (.cplHeadWrite q n val) s =
        .next (Replied q (ringObj Obj.cplHead n) ((Arrived q s).setNum (ringObj Obj.cplHead n) (leNat val)))) ∧
  (∀ (s : State) (q : Req) (n : Fin 8) (sub : BitVec 8) (val : List Byte), sub = 1 ∨ sub = 2 ∨ sub = 5 ∨ sub = 6 →
      let k := ringObj Obj.subBase n - 1 + sub.toNat
      let used := s.num (ringObj Obj.subHead n) ≠ s.num (ringObj Obj.subTail n) ∨ s.jobs.waiting.get [] n ≠ [] ∨
        ∃ e ∈ s.jobs.jobs, e.2.ring = n
      Admitted q k val s →
      (used → exec (.jobRingConfigWrite q n sub val) s = .next (Denied q k Err.refusedInState (Arrived q s))) ∧
      (¬used → Carries q k (exec (.jobRingConfigWrite q n sub val) s) fun u => u.num k = leNat val ∧
        u.num (ringObj Obj.subTail n) = 0 ∧ u.num (ringObj Obj.subHead n) = 0 ∧ u.num (ringObj Obj.cplTail n) = 0 ∧
        u.num (ringObj Obj.cplHead n) = 0 ∧ u = { Arrived q s with obj := u.obj })) ∧
  (∀ (s : State) (t : Nat) (n : Fin 8) (job : Nat) (done : Bool) (l : List Byte) (rest : List (Nat × Bool × List Byte)),
      s.jobs.waiting.get [] n = (job, done, l) :: rest → s.cplRoom n = true →
      s.num (ringObj Obj.cplTail n) < s.num (ringObj Obj.cplSlots n) →
      Answers (exec (.completionRecordWrite t n) s) fun u =>
        u.mem = (s.storeAt (s.num (ringObj Obj.cplBase n) + 32 * s.num (ringObj Obj.cplTail n)) l).mem ∧
        u.num (ringObj Obj.cplTail n) = (s.num (ringObj Obj.cplTail n) + 1) % s.num (ringObj Obj.cplSlots n) ∧
        u.jobs.waiting.get [] n = rest ∧ u.num (ringObj Obj.recordsWaiting n) = rest.length ∧
        Counted (if done then Obj.jobsDone else Obj.jobsEnded) 1 s u ∧
        (Tab.sorted s.jobs.jobs = true → ∀ i, u.job i = if i = job ∧ job ≠ 0 then none else s.job i) ∧
        u.tiles = s.tiles ∧ u.streams = s.streams) ∧
  (∀ (s : State) (t : Nat) (h : List (Nat × Byte)), (∀ n : Fin 8, s.ringServed n = false) →
      exec (.pollInterval t h) s = .next (s.jobs.jobs.foldl (fun u e => u.groupProgress e.1) (s.upto t)) ∧
      ((∀ e ∈ s.jobs.jobs, e.2.layout.groupSize ≤ 1 ∧ e.2.ckptStep ≠ 4) → exec (.pollInterval t h) s = .next (s.upto t))) ∧
  (∀ (s : State) (t : Nat) (h : List (Nat × Byte)) (n : Fin 8) (b : List Byte), s.ringServed n = true →
      (∀ m : Fin 8, m ≠ n → s.ringServed m = false) → (∀ e ∈ s.jobs.jobs, e.2.layout.groupSize ≤ 1 ∧ e.2.ckptStep ≠ 4) →
      s.num (ringObj Obj.subHead n) ≠ s.num (ringObj Obj.subTail n) →
      (s.num (ringObj Obj.subHead n) + 1) % s.num (ringObj Obj.subSlots n) = s.num (ringObj Obj.subTail n) →
      s.num Obj.queuedJobs < 1024 → (s.jobs.waiting.get [] n).length < 1024 →
      s.isHost (s.num (ringObj Obj.subBase n)) = false →
      b = (s.upto t).hostOrMem h (s.num (ringObj Obj.subBase n) + 128 * s.num (ringObj Obj.subHead n)) 128 →
      Answers (exec (.pollInterval t h) s) fun u =>
        let d := JobDesc.of b
        u.num (ringObj Obj.subHead n) = s.num (ringObj Obj.subTail n) ∧ u.mem = s.mem ∧ u.tiles = s.tiles ∧ u.streams = s.streams ∧
        (badDescriptor b = true → u.jobs.jobs = s.jobs.jobs ∧
          u.jobs.waiting.get [] n = s.jobs.waiting.get [] n ++
            [(0, false, (s.upto t).cplRecord d.id 0x0101 0 0 ⟨0, Counts.zero⟩)]) ∧
        (badDescriptor b = false → (s.job d.id).isSome = true →
          u.jobs.jobs = s.jobs.jobs ∧ u.jobs.waiting.get [] n = s.jobs.waiting.get [] n ++
            [(0, false, (s.upto t).cplRecord d.id 0x0102 0 0 ⟨0, Counts.zero⟩)]) ∧
        (let l := (s.upto t).hostOrMem h d.layout d.bytes
         badDescriptor b = false → s.job d.id = none → (s.layoutReason d l = none →
            u.job d.id = some (JobS.new d (Layout.of l) n s.jobs.next h) ∧ u.jobs.waiting = s.jobs.waiting ∧
            u.jobTotals.get ⟨0, Counts.zero⟩ d.id = ⟨0, Counts.zero⟩ ∧ (∀ i, i ≠ d.id → u.job i = s.job i)) ∧
          ∀ r, s.layoutReason d l = some r → u.jobs.waiting.get [] n = s.jobs.waiting.get [] n ++
            [(0, false, (s.upto t).cplRecord d.id 0x0103 r 0 ⟨0, Counts.zero⟩)]))

/-- A Queued job whose address space, positions, numbers, granules and memory are free becomes Placing with its entries, its drawers assigned and stopped, checkpoint 0 to come, or its RESUME restore; with a lost cabinet and no fallback, or no place for a drawer, it ends NO_PLACEMENT. A stopped pre-empted job is saved as it stands and Queued again, its drawers free, counted; until it has stopped nothing changes. Placed again where its positions are usable, or others are found, it runs with its drawers there. CancelJob ends a job CANCELLED. A job whose contexts have all halted ends DONE; an ending job is released and its record waits for its ring, unless the queue there is full. -/
def Obligations.JobsArePlacedSavedAndEnded : Prop :=
  (∀ (s : State) (t : Nat) (id : BitVec 32) (asn : Byte) (h : List (Nat × Byte)) (j : JobS), s.job id.toNat = some j →
      j.st = .queued → j.saved = none → s.num Obj.placedJobs < 256 → (∀ e ∈ s.jobs.jobs, e.2.mapped = true → e.2.asn ≠ asn.toNat) →
      s.heldBack id.toNat j = false → s.resetIn (s.placementOf j) = false →
      let usable := fun d => s.rowsOk d && s.tileUp d.tile
      (∀ c, s.lostIn (s.placementOf j) = some c ∨
          (s.lostIn (s.placementOf j) = none ∧ s.placesFor id.toNat usable (s.placementOf j) = .error c) →
        Answers (exec (.jobPlacement t id asn h) s) fun u =>
          (u.job id.toNat).map (fun k => (k.st, k.status)) = some (.ending, some (0x0304, c)) ∧
          (j.layout.groupSize ≤ 1 → s.feedsOfJob j = [] → u.mem = s.mem ∧ u.tiles = s.tiles)) ∧
      (∀ ds gr, s.lostIn (s.placementOf j) = none → s.placesFor id.toNat usable (s.placementOf j) = .ok ds →
        s.fitsAll id.toNat [] ds = true → s.granulesFor j.layout = some gr → s.streamsTaken (j.layout.streamsWith s.lost) = false →
        s.rtFits ds = true → (∀ c : Cab, s.mibUsed c + j.desc.mib j.layout c ≤ Config.gddrPerCabinet / 0x100000) →
        exec (.jobPlacement t id asn h) s = .next ((s.upto t).placeJob id.toNat asn.toNat j ds gr h) ∧
        (j.desc.resume = false → j.layout.groupSize ≤ 1 → j.ckptStep = 0 → (∀ d ∈ ds, d.ctx < 16 ∧ d.tile < 1200) →
          Answers (exec (.jobPlacement t id asn h) s) fun u =>
            u.job id.toNat = some { j with
              st := .placing
              asn := asn.toNat
              mapped := true
              placed := ds
              placedAt := max s.now t
              streams := j.layout.streamsWith s.lost
              granules := gr
              hostImg := j.hostImg ++ h
              writing := some 0
              ckptAt := max s.now t
              runNs := j.runTime (max s.now t)
              runFrom := none } ∧
            (∀ d ∈ ds, (u.dr d.tile d.ctx).st = .stopped ∧ (u.dr d.tile d.ctx).jobId = id.toNat ∧ (u.th d.tile d.ctx).st = .stopped) ∧
            (∀ g, (∀ d ∈ ds, d.tile ≠ g) → u.tile g = s.tile g) ∧ (∀ i, i ≠ id.toNat → u.job i = s.job i)))) ∧
  (∀ (s : State) (t : Nat) (id : BitVec 32) (j : JobS), s.job id.toNat = some j → j.st = .preempting →
      (s.jobStopped id.toNat j = false → exec (.jobPreemptSaveDone t id) s = .next (s.upto t)) ∧
      (s.jobStopped id.toNat j = true → Answers (exec (.jobPreemptSaveDone t id) s) fun u =>
        (u.job id.toNat).map (fun k => (k.st, k.saved)) = some (.queued, some ((s.upto t).saveJob id.toNat j)) ∧
        Counted Obj.jobPreemptions 1 s u ∧ (∀ d ∈ j.placed, u.ctx d.tile d.ctx = Context.none) ∧
        ((∀ d ∈ j.placed, (s.tile d.tile).flight = []) → u.mem = s.mem) ∧ (∀ i, i ≠ id.toNat → u.job i = s.job i))) ∧
  (∀ (s : State) (t : Nat) (id : BitVec 32) (j : JobS) (v : Saved), s.job id.toNat = some j → j.saved = some v → j.st = .queued →
      s.num Obj.placedJobs < 256 → s.heldBack id.toNat j = false → s.resetIn (s.wanted j) = false →
      (∀ c, s.lostIn (s.wanted j) = some c ∨
          (s.lostIn (s.wanted j) = none ∧ s.placesFor id.toNat s.usable (s.wanted j) = .error c) →
        Answers (exec (.jobRestore t id) s) fun u =>
          (u.job id.toNat).map (fun k => (k.st, k.status)) = some (.ending, some (0x0304, c))) ∧
      (∀ ds, s.lostIn (s.wanted j) = none → s.placesFor id.toNat s.usable (s.wanted j) = .ok ds → s.fitsAll id.toNat [] ds = true →
        s.streamsTaken (j.layout.streamsWith s.lost) = false →
        exec (.jobRestore t id) s = .next ((s.upto t).placeAgain id.toNat j v ds) ∧
        (j.saveLost = false → Answers (exec (.jobRestore t id) s) fun u =>
          (u.job id.toNat).map (fun k => (k.st, k.saved, k.placed)) = some (.running, none, ds) ∧
          u.jobTotals.get ⟨0, Counts.zero⟩ id.toNat = v.totals))) ∧
  (∀ (s : State) (q : Req) (val : List Byte), Admitted q Obj.cancelJob val s →
      (s.job (leNat val) = none ∨ (∃ j, s.job (leNat val) = some j ∧ j.st = .ending) →
        exec (.cancelJob q val) s = .next (Replied q Obj.cancelJob (Arrived q s))) ∧
      (∀ j, s.job (leNat val) = some j → j.st ≠ .ending → Carries q Obj.cancelJob (exec (.cancelJob q val) s) fun u =>
          (u.job (leNat val)).map (fun k => (k.st, k.status)) = some (.ending, some (1, 0)) ∧
          (∀ i, i ≠ leNat val → u.job i = s.job i) ∧
          (j.writing = none → j.layout.groupSize ≤ 1 → s.feedsOfJob j = [] → u.mem = s.mem ∧ u.tiles = s.tiles))) ∧
  (∀ (s : State) (t : Nat) (id : BitVec 32) (j : JobS) (st d ran : Nat), s.job id.toNat = some j →
      (j.st = .ending ∧ j.status = some (st, d) ∧ ran = j.runNs) ∨
        (s.jobDone id.toNat j = true ∧ st = 0 ∧ d = 0 ∧ ran = j.runTime (max s.now t)) →
      (s.cplQueueFull j.ring = true → j.st = .ending → exec (.jobEnd t id) s = .next (s.upto t)) ∧
      (s.cplQueueFull j.ring = false → Answers (exec (.jobEnd t id) s) fun u =>
        u.jobs.waiting.get [] j.ring = s.jobs.waiting.get [] j.ring ++ [(id.toNat, decide (st = 0),
          (s.upto t).cplRecord id.toNat st d ran (u.jobTotals.get ⟨0, Counts.zero⟩ id.toNat))] ∧
        (u.job id.toNat).map (fun k => (k.st, k.placed, k.streams, k.granules)) = some (.ending, [], [], []) ∧
        (j.mapped = true → ∀ f ∈ u.mm.faults, f.asn ≠ j.asn) ∧ (∀ i, i ≠ id.toNat → u.job i = s.job i)))

/-- A running job's checkpoint is due or held: Checkpointing, the next number being written, every drawer asked to stop. Until everything has stopped nothing is written; then, in a slot of expander memory that can be reached and with no segment on another device, the checkpoint is committed in its slot, it is the newest, and the job runs again or is pre-empted; a slot that cannot be reached ends the job. A window over the power limit, or with a junction over its limit, lowers the throttle target by one, with its flag; the fourth low one in a row raises it; another leaves it. A group message from no member changes nothing; an end ends the job GROUP_ENDED; a phase is noted by rank 0, and RELEASE lets a member that reported go on. -/
def Obligations.CheckpointsThrottleAndGroups : Prop :=
  (∀ (s : State) (id : BitVec 32) (j : JobS), s.job id.toNat = some j → j.st = .running → j.checker = false →
      (Answers (exec (.checkpointDue id) s) fun u =>
        (u.job id.toNat).map (fun k => (k.st, k.writing, k.gapHold)) =
          some (.checkpointing, some (match j.newest with | some n => n + 1 | none => 0), false) ∧
        (∀ d ∈ j.placed, (s.tile d.tile).flight = [] → (u.dr d.tile d.ctx).st = .free ∨ (u.dr d.tile d.ctx).st = .stopped ∨
          (u.dr d.tile d.ctx).preempt = true) ∧ s.now ≤ u.now ∧ (∀ i, i ≠ id.toNat → u.job i = s.job i)) ∧
      (Answers (exec (.checkpointGapHold id) s) fun u =>
        (u.job id.toNat).map (fun k => (k.st, k.writing, k.gapHold)) =
          some (.checkpointing, some (match j.newest with | some n => n + 1 | none => 0), true) ∧
        (∀ i, i ≠ id.toNat → u.job i = s.job i))) ∧
  (∀ (s : State) (id : BitVec 32) (j : JobS), s.job id.toNat = some j → j.st = .checkpointing → j.checker = false →
      exec (.checkpointGapHold id) s = .next (s.putJob id.toNat { j with gapHold := true })) ∧
  (∀ (s : State) (t : Nat) (id : BitVec 32) (j : JobS) (n : Nat), s.job id.toNat = some j →
      j.st = .checkpointing ∨ (j.st = .placing ∧ s.pinsIn j = true) → j.writing = some n → j.reported = none → j.layout.groupSize ≤ 1 →
      (s.jobStopped id.toNat j = false → exec (.checkpointCommit t id .ok) s = .next (s.upto t)) ∧
      (∀ m, s.jobStopped id.toNat j = true → s.access (j.desc.slotAt n) m ≠ .ok → Answers (exec (.checkpointCommit t id m) s) fun u =>
        (u.job id.toNat).map (fun k => (k.st, k.status)) = some (.ending, some (0x0302, 7)) ∧
        (∀ i, i ≠ id.toNat → u.job i = s.job i)) ∧
      (s.jobStopped id.toNat j = true → j.ckptStep = 0 → j.xfers = [] → j.xferBad = false →
       (∀ g ∈ j.layout.segs, g.writable = true → ∀ dev a, s.place g.backing ≠ .remote dev a) →
       (∃ p o, s.place (j.desc.slotAt n) = .cxl p o) → s.placeStatus (s.place (j.desc.slotAt n)) = .ok →
       Answers (exec (.checkpointCommit t id .ok) s) fun u =>
        (u.job id.toNat).map (fun k => (k.st, k.newest, k.writing, k.gapHold)) =
          some (if j.preemptNext then .preempting else .running, some n, none, false) ∧
        (u.jobs.ckpts.find? (j.desc.slotAt n)).map (fun c => (c.n, c.jobId, c.committed, c.saved)) =
          some (n, id.toNat, true, (s.upto t).saveJob id.toNat j) ∧
        Counted Obj.checkpointsCommitted 1 s u ∧ (∀ i, i ≠ id.toNat → u.job i = s.job i))) ∧
  (∀ (s : State) (w : BitVec 16) (l : List Int), s.serving = false → exec (.throttleWindow w l) s = .next s) ∧
  (∀ (s : State) (w : BitVec 16) (l : List Int), s.serving = true → (∃ c < 8, s.lost c = false ∧ ∃ t, l[c]? = some t ∧
      (s.num Obj.thermalThrottleC : Int) < t) → Answers (exec (.throttleWindow w l) s) fun u =>
        u.num Obj.deviceThrottleTarget = s.num Obj.deviceThrottleTarget - 1 ∧ u.jobs.lowWins = 0 ∧
        (s.num Obj.deviceThrottleTarget ≠ 0 → (u.num Obj.powerFlags).testBit 1 = true) ∧ u.mem = s.mem ∧ u.tiles = s.tiles) ∧
  (∀ (s : State) (w : BitVec 16) (l : List Int), s.serving = true → (∀ t ∈ l, t + 5 ≤ s.num Obj.thermalThrottleC) →
      Answers (exec (.throttleWindow w l) s) fun u =>
        let t := s.num Obj.deviceThrottleTarget
        let low := w.toNat * 100 < s.num Obj.powerLimit * (100 - s.num Obj.throttleMargin)
        (s.num Obj.powerLimit < w.toNat → u.num Obj.deviceThrottleTarget = t - 1 ∧ u.jobs.lowWins = 0 ∧
          (t ≠ 0 → u.num Obj.powerFlags = s.num Obj.powerFlags ||| 1)) ∧
        (w.toNat ≤ s.num Obj.powerLimit → u.num Obj.powerFlags = s.num Obj.powerFlags ∧
          (low → s.jobs.lowWins = 3 → u.num Obj.deviceThrottleTarget = min 8 (t + 1) ∧ u.jobs.lowWins = 0) ∧
          (low → s.jobs.lowWins < 3 → u.num Obj.deviceThrottleTarget = t ∧ u.jobs.lowWins = s.jobs.lowWins + 1) ∧
          (¬low → u.num Obj.deviceThrottleTarget = t ∧ u.jobs.lowWins = 0)) ∧
        u.num Obj.inputPower = w.toNat ∧ u.mem = s.mem ∧ u.tiles = s.tiles ∧ u.jobs.jobs = s.jobs.jobs) ∧
  (∀ (s : State) (t : Nat) (src : BitVec 12) (b : List Byte) (j : JobS), s.job (field b 4 4) = some j →
      ((∀ m ∈ j.layout.members, ¬(m.1 = src.toNat ∧ m.2 = field b 16 2)) → exec (.collectiveMessage t src b) s = .next (s.upto t)) ∧
      ((src.toNat, field b 16 2) ∈ j.layout.members → field b 0 1 = 4 → j.st ≠ .ending →
        Answers (exec (.collectiveMessage t src b) s) fun u =>
          (u.job (field b 4 4)).map (fun k => (k.st, k.status)) = some (.ending, some (0x0303, 0)) ∧
          (s.feedsOfJob j = [] → u.tiles = s.tiles)) ∧
      ((src.toNat, field b 16 2) ∈ j.layout.members → s.rankOf j = 0 → 1 ≤ field b 0 1 → field b 0 1 ≤ 3 →
        exec (.collectiveMessage t src b) s = .next ((s.upto t).releaseGroup (field b 4 4) j
          ((s.upto t).notePhase (field b 4 4) j (field b 16 2) (field b 0 1) (field b 8 8)))) ∧
      ((src.toNat, 0) ∈ j.layout.members → field b 16 2 = 0 → field b 0 1 = 5 → j.reported = some 1 →
        exec (.collectiveMessage t src b) s =
          .next ((s.upto t).putJob (field b 4 4) { j with reported := none, released := true })))

/-- At a write edge of a queue with room the entry joins it as its block stores it, and at a read edge of a queue with entries the oldest leaves as the read data, each judged by the flags before the edge, on a side that fabric logic clocks and drives and that is not held in reset; a write to a full queue or a read of an empty one is sticky, counted and flagged. A read checked by ECC counts a corrected error, and raises ERR with an uncorrectable one. RST empties the queue and holds both sides, and each side works again after its own release. A block that is no queue, or in a cabinet that is gone, takes no edge. A locked loop that loses lock is counted and flagged, and locks again when it can. Port beats, bridge words and due probe selects move as they should; nothing else changes. -/
def Obligations.FabricQueuesAndPorts : Prop :=
  (∀ (s : State) (c : Cab) (b : Fin 8192) (i : Instr) (w : Option (BitVec 80)) (rd : Bool) (x : Option Bool) (n : Nat),
      (∃ e, w = some e ∧ i = .fabricQueueWrite c b e ⟨rd, ⟨x, n⟩⟩) ∨ (w = none ∧ rd = true ∧ i = .fabricQueueRead c b ⟨x, n⟩) →
      ((s.lost c = true ∨ s.inCReset c = true ∨ s.isQueue c b = false) → exec i s = .next s) ∧
      (s.lost c = false → s.inCReset c = false → s.isQueue c b = true → Answers (exec i s) fun u =>
        let k := s.queue c b
        let k' := u.queue c b
        let t := s.queueSetting c b
        let wr := w.isSome && !s.engineOn c b 0 && !s.sideStopped c b false && !s.heldWrite c b
        let re := rd && !s.engineOn c b 1 && !s.sideStopped c b true && !s.heldRead c b
        let puts := wr && !s.queueFull c b
        let takes := re && !s.queueEmpty c b
        let over' := wr && s.queueFull c b && !k.overflow
        let under := re && s.queueEmpty c b && !k.underflow
        let checked := takes && t.ecc && decide (t.shape ≤ 1)
        k'.entries = (if takes then k.entries.tail else k.entries) ++ (if puts then [t.stored (w.getD 0)] else []) ∧
        (¬(checked = true ∧ x = some true) →
          k'.data = (if takes then k.entries.headD 0 else k.data) ∧ k'.err = (!takes && k.err)) ∧
        (checked = true → x = some false → Counted Obj.memoryCorrected 1 s u) ∧
        (checked = true → x = some true → k'.err = true ∧ Counted Obj.memoryUncorrectable 1 s u) ∧
        k'.overflow = (k.overflow || over') ∧ k'.underflow = (k.underflow || under) ∧ CountedIf over' Obj.queueOverflows s u ∧
        CountedIf under Obj.queueUnderflows s u ∧
        u.num Obj.fabricFlags = s.num Obj.fabricFlags ||| (if over' then 1 else 0) ||| (if under then 2 else 0) |||
          (if checked = true ∧ x = some true then 4 else 0) ∧
        k'.rst = k.rst ∧ k'.heldW = k.heldW ∧ k'.heldR = k.heldR ∧
        (∀ j, j ≠ 8192 * c + b.val → u.fab.queues.find? j = s.fab.queues.find? j) ∧ u.mem = s.mem ∧ u.tiles = s.tiles)) ∧
  (∀ (s : State) (c : Cab) (b : Fin 8192) (ph : Fin 4), s.lost c = true ∨ s.inCReset c = true ∨ s.isQueue c b = false →
      exec (.queueReset c b ph) s = .next s) ∧
  (∀ (s : State) (c : Cab) (b : Fin 8192), s.lost c = false → s.inCReset c = false → s.isQueue c b = true →
      let k := s.queue c b
      exec (.queueReset c b 0) s = .next (s.setQueueS c b { k with
        entries := []
        overflow := false
        underflow := false
        lateReads := []
        lateWrites := []
        rst := true
        heldW := true
        heldR := true }) ∧
      exec (.queueReset c b 1) s = .next (s.setQueueS c b { k with rst := false }) ∧
      (k.rst = true → exec (.queueReset c b 2) s = .next s ∧ exec (.queueReset c b 3) s = .next s) ∧
      (k.rst = false → exec (.queueReset c b 2) s = .next (s.setQueueS c b { k with heldW := false }) ∧
        exec (.queueReset c b 3) s = .next (s.setQueueS c b { k with heldR := false }))) ∧
  (∀ (s : State) (c : Cab) (n : Fin 16), s.num (loopKey c n) = 2 → Answers (exec (.clockLoopLockLost c n) s) fun u =>
      u.num (loopKey c n) = 3 ∧ Counted Obj.clockLockLosses 1 s u ∧ u.num Obj.fabricFlags = s.num Obj.fabricFlags ||| 8 ∧
      ChangesOnly [loopKey c n, Obj.clockLockLosses, Obj.fabricFlags] s u) ∧
  (∀ (s : State) (c : Cab) (n : Fin 16), s.num (loopKey c n) = 1 ∨ s.num (loopKey c n) = 3 → s.lost c = false → s.inCReset c = false →
      Answers (exec (.clockLoopLocked c n) s) fun u =>
        u.num (loopKey c n) = (if s.loopReady c n then 2 else s.num (loopKey c n)) ∧
        ChangesOnly [loopKey c n] s u) ∧
  (∀ (s : State) (c : Cab) (n : Fin 16), s.num (loopKey c n) ≠ 2 → exec (.clockLoopLockLost c n) s = .next s) ∧
  (∀ (s : State) (g : Tile) (out : Bool) (d : List Byte),
      s.stepAt (cabOf g) (portPos g) 3 = false ∨ s.clockStopped (cabOf g) (s.portClock g) = true ∨
        (out = true ∧ (s.tile g).portOut = []) ∨ (out = false ∧ 16 ≤ (s.tile g).portIn.length) →
      exec (.fabricPortBeat g out d) s = .next s) ∧
  (∀ (s : State) (g : Tile) (b : List Byte) (r : List (List Byte)), s.stepAt (cabOf g) (portPos g) 3 = true →
      s.clockStopped (cabOf g) (s.portClock g) = false →
      (s.tile g).portOut = b :: r → s.portStream g 2 = none → s.portStream g 3 = none →
      Answers (exec (.fabricPortBeat g true []) s) fun u => u.out = .fabricOut g b :: s.out ∧ (u.tile g).portOut = r ∧
        u = { s with tiles := u.tiles, out := u.out } ∧ (∀ h, h ≠ g.val → u.tile h = s.tile h)) ∧
  (∀ (s : State) (g : Tile) (d : List Byte) (k : Nat) (m : StreamS), s.stepAt (cabOf g) (portPos g) 3 = true →
      s.clockStopped (cabOf g) (s.portClock g) = false → (s.tile g).portIn = [] → s.portStream g 2 = some (k, m) →
      s.portStream g 3 = none → m.st = .running → m.delivered < m.total → m.delivered - m.freed < m.desc.ring →
      m.beats.length < 256 → m.beats.length + d.length ≤ 256 →
      Answers (exec (.fabricPortBeat g false d) s) fun u =>
        (s.lockedAt (m.desc.slot g m.delivered) 256 = true → (u.tile g).portIn = [d] ∧ u.streams = s.streams ∧ u.mem = s.mem) ∧
        (s.lockedAt (m.desc.slot g m.delivered) 256 = false → (u.tile g).portIn = [] ∧
        ((m.beats ++ d).length < 256 → u.stream k = some { m with beats := m.beats ++ d } ∧ u.mem = s.mem) ∧
        ((m.beats ++ d).length = 256 → (u.stream k).map (fun m' => (m'.delivered, m'.beats)) = some (m.delivered + 1, []) ∧
          u.mem = (s.poke (m.desc.slot g m.delivered) (m.beats ++ d)).mem))) ∧
  (∀ (s : State) (p : Cab) (w : List Byte) (kind bad : Bool),
      (s.num (Obj.targetBridgeState + p) ≠ 1 ∧ s.num (Obj.targetBridgeState + p) ≠ 2) ∨ s.stepAt p bridgePos 3 = false →
      exec (.targetWordReceive p w kind bad) s = .next s) ∧
  (∀ (s : State) (p : Cab) (w : List Byte) (kind bad : Bool), s.num (Obj.targetBridgeState + p) = 1 ∨ s.num (Obj.targetBridgeState + p) = 2 →
      s.stepAt p bridgePos 3 = true → Answers (exec (.targetWordReceive p w kind bad) s) fun u =>
        let b := s.bridge p
        (bad = false → b.rx.length < 256 → u = s.setBridge p ⟨b.rx ++ [(kind, b.gap, w)], false⟩) ∧
        (bad = false → 256 ≤ b.rx.length → u.bridge p = { b with gap := true } ∧ Counted Obj.targetRxDropped 1 s u ∧
          u.num Obj.fabricFlags = s.num Obj.fabricFlags ||| 0x10) ∧
        (bad = true → u.bridge p = { b with gap := true } ∧ Counted Obj.targetRxErrors 1 s u ∧
          u.num Obj.fabricFlags = s.num Obj.fabricFlags ||| 0x20) ∧ u.mem = s.mem ∧ u.tiles = s.tiles) ∧
  (∀ s : State, Answers (exec .probeSelectApply s) fun u =>
        let due := s.lock.selects.filter fun p => p.2.1 ≤ s.num Obj.currentStep
        u.lock = { s.lock with
          selects := s.lock.selects.filter fun p => s.num Obj.currentStep < p.2.1
          inEffect := due.foldl (fun e p => e.put p.1 p.2.2) s.lock.inEffect } ∧
        u.num Obj.probeApplyStep = (due.getLast?.map (·.2.1)).getD (s.num Obj.probeApplyStep) ∧
        u = { s with obj := u.obj, lock := u.lock } ∧ (∀ k, k ≠ Obj.probeApplyStep → u.val k = s.val k))

/-- ChannelStart in Idle sets the channel fetching, and is refused otherwise. A valid descriptor fetched sets it running, an invalid one halts it with DESCRIPTOR, a failing fetch with its cause. A burst starts only with room; a write burst takes its beats from the queue group in order, and a read burst's beats enter the group as it ends. The grant goes to the highest priority, and stays with the channel granted last while its burst lasts; a granted beat is read from, or stored at, its address and no other, another device's by a request. With no beat ready nothing moves. A burst's end completes the descriptor, confirms arrival first where asked, or completes an abort. A bus error halts the channel with address and cause latched; RESUME and ABORT act as R355 says. -/
def Obligations.DmaChannelsRun : Prop :=
  (∀ (s : State) (q : Req) (val : List Byte), Admitted q Obj.channelStart val s →
      ((s.dmaCh s.selChan).st ≠ .idle → exec (.channelStart q val) s = .next (Denied q Obj.channelStart Err.refusedInState (Arrived q s))) ∧
      ((s.dmaCh s.selChan).st = .idle → Carries q Obj.channelStart (exec (.channelStart q val) s) fun u =>
        u.dmaCh s.selChan = { (s.dmaCh s.selChan).clear with
          cur := leNat val
          st := .fetching } ∧ (∀ k, k ≠ s.selChan → u.dmaCh k = s.dmaCh k) ∧ u.mem = s.mem ∧ u.tiles = s.tiles)) ∧
  (∀ (s : State) (c : Cab) (ch : Fin 32) (b l : List Byte), (s.dmaCh (32 * c.val + ch.val)).st = .fetching →
      b = (match s.place (s.dmaCh (32 * c.val + ch.val)).cur with
        | .host _ | .remote _ _ => (List.range 32).map fun i => l.getD i 0
        | _ => s.read ((s.dmaCh (32 * c.val + ch.val)).cur % 2 ^ 48) 32) →
      (∀ e, s.changing (s.dmaCh (32 * c.val + ch.val)).cur = true → exec (.descriptorFetchDone c ch e l) s = .next s) ∧
      (s.changing (s.dmaCh (32 * c.val + ch.val)).cur = false → s.access (s.dmaCh (32 * c.val + ch.val)).cur .ok = .ok → Answers (exec (.descriptorFetchDone c ch .ok l) s) fun u =>
        (if s.descOk (32 * c.val + ch.val) b then
          (u.dmaCh (32 * c.val + ch.val)).st = .running ∧ (u.dmaCh (32 * c.val + ch.val)).desc = some (DmaDesc.parse b) ∧ (u.dmaCh (32 * c.val + ch.val)).issued = 0 ∧ u.num Obj.busErrors = s.num Obj.busErrors
        else (u.dmaCh (32 * c.val + ch.val)).st = .halted ∧ (u.dmaCh (32 * c.val + ch.val)).errAddr = (s.dmaCh (32 * c.val + ch.val)).cur ∧
          (u.dmaCh (32 * c.val + ch.val)).errInfo = 2 + 16 * 5 ∧ Counted Obj.busErrors 1 s u ∧ u.num Obj.fabricDmaFlags = s.num Obj.fabricDmaFlags ||| 1) ∧
        (∀ k, k ≠ 32 * c.val + ch.val → u.dmaCh k = s.dmaCh k) ∧ u.mem = s.mem) ∧
      (∀ e, s.changing (s.dmaCh (32 * c.val + ch.val)).cur = false → s.access (s.dmaCh (32 * c.val + ch.val)).cur e ≠ .ok →
        Answers (exec (.descriptorFetchDone c ch e l) s) fun u => (u.dmaCh (32 * c.val + ch.val)).st = .halted ∧
          (u.dmaCh (32 * c.val + ch.val)).errInfo = 2 + 16 * dmaCause (s.access (s.dmaCh (32 * c.val + ch.val)).cur e) ∧
          (u.dmaCh (32 * c.val + ch.val)).errAddr = (s.dmaCh (32 * c.val + ch.val)).cur ∧ Counted Obj.busErrors 1 s u ∧ u.mem = s.mem)) ∧
  (∀ (s : State) (c : Cab) (ch : Fin 32) (len : BitVec 6) (d : DmaDesc) (n : Nat), (s.dmaCh (32 * c.val + ch.val)).desc = some d →
      (s.dmaCh (32 * c.val + ch.val)).st = .running → (s.dmaCh (32 * c.val + ch.val)).burst = 0 → (s.dmaCh (32 * c.val + ch.val)).confirming = false →
      (let ask := if d.trigger then (if len = 0 then 32 else len.toNat) else d.burst
       n = if d.len = 0 then ask else min ask (d.len / 64 - (s.dmaCh (32 * c.val + ch.val)).issued)) → 0 < n →
      s.runsAt c (blockPos (8 * d.queue)) = true → s.sideStopped c (8 * d.queue) (d.dir = 1) = false →
      ((if d.dir = 1 then s.groupCount c d.queue < n else 512 < n + s.groupCount c d.queue) →
        exec (.burstStart c ch len) s = .next s) ∧
      (d.dir = 0 → n + s.groupCount c d.queue ≤ 512 → Answers (exec (.burstStart c ch len) s) fun u =>
        u.dmaCh (32 * c.val + ch.val) = { s.dmaCh (32 * c.val + ch.val) with
          first := (s.dmaCh (32 * c.val + ch.val)).issued
          burst := n
          req := d.trigger
          silent := false } ∧ u.out = (if d.trigger then [.dmaPort (32 * c.val + ch.val) 0 (n % 32)] else []) ++ s.out ∧
        u = { s with dma := u.dma, out := u.out }) ∧
      (d.dir = 1 → d.queue < 1024 → n ≤ s.groupCount c d.queue → (∀ b, b < 8 → s.heldRead c (8 * d.queue + b) = false) → Answers (exec (.burstStart c ch len) s) fun u =>
        (u.dmaCh (32 * c.val + ch.val)).burst = n ∧ (u.dmaCh (32 * c.val + ch.val)).first = (s.dmaCh (32 * c.val + ch.val)).issued ∧
        (u.dmaCh (32 * c.val + ch.val)).buf.map (fun b => (b.i, b.who)) =
          (s.dmaCh (32 * c.val + ch.val)).buf.map (fun b => (b.i, b.who)) ++ (List.range n).map (fun i => ((s.dmaCh (32 * c.val + ch.val)).issued + i, 0)) ∧
        (∀ b, b < 8 → (u.queue c (8 * d.queue + b)).entries = (s.queue c (8 * d.queue + b)).entries.drop n) ∧
        u.mem = s.mem ∧ (∀ k, k ≠ 32 * c.val + ch.val → u.dmaCh k = s.dmaCh k))) ∧
  (∀ (s : State) (c : Cab) (w : Bool) (l : List Byte), s.net.done = [] →
      (∀ j, j < 32 → (s.dmaCh (32 * c + j)).st = .halted → (s.dmaCh (32 * c + j)).buf = []) →
      (∀ j, j < 32 → s.beatReady (b2n w) (32 * c + j) = false) →
      Answers (exec (.beatGrant c w l) s) fun u => u.mem = s.mem ∧ u.fab = s.fab ∧ (∀ k, u.dmaCh k = s.dmaCh k)) ∧
  (∀ (s : State) (c : Cab) (w : Bool) (l : List Byte) (i : Nat) (d : DmaDesc), s.net.done = [] → s.grantee c (b2n w) = some i →
      (s.dmaCh (32 * c + i)).desc = some d →
      (∀ j, j < 32 → (s.dmaCh (32 * c + j)).st = .halted → (s.dmaCh (32 * c + j)).buf = []) →
      s.beatReady (b2n w) (32 * c + i) = true ∧
      (∀ j, j < 32 → s.beatReady (b2n w) (32 * c + j) = true → s.chanPrio (32 * c + j) ≤ d.prio) ∧
      (∀ p, s.dma.last.find? (grantKey c (b2n w) d.prio) = some p → p < 32 → s.beatReady (b2n w) (32 * c + p) = true →
        s.chanPrio (32 * c + p) = d.prio → i = p) ∧
      (w = false → s.access (d.beatAddr (s.dmaCh (32 * c + i)).issued) .ok = .ok →
        (∀ dev a, s.place (d.beatAddr (s.dmaCh (32 * c + i)).issued) ≠ .remote dev a) →
        Answers (exec (.beatGrant c false l) s) fun u =>
          u.dmaCh (32 * c + i) = { s.dmaCh (32 * c + i) with
            buf := (s.dmaCh (32 * c + i)).buf ++
              [⟨(s.dmaCh (32 * c + i)).issued, 0, (match s.place (d.beatAddr (s.dmaCh (32 * c + i)).issued) with
                | .host _ => (List.range 64).map fun i => l.getD i 0
                | _ => s.read (d.beatAddr (s.dmaCh (32 * c + i)).issued % 2 ^ 48) 64)⟩]
            issued := (s.dmaCh (32 * c + i)).issued + 1 } ∧ u.mem = s.mem ∧ u.tiles = s.tiles ∧ u.fab = s.fab) ∧
      (∀ dev a, w = false → s.access (d.beatAddr (s.dmaCh (32 * c + i)).issued) .ok = .ok →
        s.place (d.beatAddr (s.dmaCh (32 * c + i)).issued) = .remote dev a → s.net.reqs.length < 4096 →
        Answers (exec (.beatGrant c false l) s) fun u => (u.dmaCh (32 * c + i)).issued = (s.dmaCh (32 * c + i)).issued + 1 ∧
          (u.dmaCh (32 * c + i)).buf.map (·.i) = (s.dmaCh (32 * c + i)).buf.map (·.i) ++ [(s.dmaCh (32 * c + i)).issued] ∧
          u.mem = s.mem ∧ u.tiles = s.tiles ∧ u.fab = s.fab) ∧
      (∀ b r, w = true → (s.dmaCh (32 * c + i)).buf = b :: r → s.access (d.beatAddr b.i) .ok = .ok →
        (∀ dev a, s.place (d.beatAddr b.i) = .remote dev a → s.net.reqs.length < 4096) →
        Answers (exec (.beatGrant c true l) s) fun u => (u.dmaCh (32 * c + i)).buf = r ∧ Counted Obj.beatsMoved 1 s u ∧
          (u.dmaCh (32 * c + i)).kept = (b :: (s.dmaCh (32 * c + i)).kept).take 32 ∧ u.tiles = s.tiles ∧ u.fab = s.fab ∧
          ((∃ c' o, s.place (d.beatAddr b.i) = .buffer c' o ∨ s.place (d.beatAddr b.i) = .gddr c' o) →
            u.mem = (s.poke (d.beatAddr b.i % 2 ^ 48) b.data).mem) ∧
          (∀ o, s.place (d.beatAddr b.i) = .host o →
            u.out = .hostWrite (s.hostAddr (d.beatAddr b.i)) b.data :: s.out ∧ u.mem = s.mem) ∧
          (∀ dev a, s.place (d.beatAddr b.i) = .remote dev a → u.mem = s.mem))) ∧
  (∀ (s : State) (c : Cab) (ch : Fin 32) (d : DmaDesc), s.net.done = [] → (s.dmaCh (32 * c.val + ch.val)).desc = some d →
      (s.dmaCh (32 * c.val + ch.val)).burst ≠ 0 → (s.dmaCh (32 * c.val + ch.val)).st = .running ∨ (s.dmaCh (32 * c.val + ch.val)).st = .aborting →
      s.sideStopped c (8 * d.queue) (d.dir = 1) = false →
      d.dir = 1 ∧ (s.dmaCh (32 * c.val + ch.val)).buf = [] ∨ (d.dir = 0 ∧ (s.dmaCh (32 * c.val + ch.val)).issued = (s.dmaCh (32 * c.val + ch.val)).first + (s.dmaCh (32 * c.val + ch.val)).burst ∧
        (∀ x ∈ (s.dmaCh (32 * c.val + ch.val)).buf, x.who = 0 ∧ x.i < (s.dmaCh (32 * c.val + ch.val)).issued)) →
      Answers (exec (.burstEnd c ch) s) fun u => (u.dmaCh (32 * c.val + ch.val)).burst = 0 ∧ (u.dmaCh (32 * c.val + ch.val)).buf = [] ∧ u.mem = s.mem ∧
        (d.dir = 0 → d.queue < 1024 → ∀ b, b < 8 → s.heldWrite c (8 * d.queue + b) = false →
          (s.queue c (8 * d.queue + b)).entries.length + (s.dmaCh (32 * c.val + ch.val)).buf.length ≤
            shapeDepth (s.blockSetting c (8 * d.queue + b)).shape →
          (u.queue c (8 * d.queue + b)).entries = (s.queue c (8 * d.queue + b)).entries ++ (s.dmaCh (32 * c.val + ch.val)).buf.map fun x =>
            (s.queueSetting c (8 * d.queue + b)).stored (BitVec.ofNat 80 (field x.data (8 * b) 8))) ∧
        ((s.dmaCh (32 * c.val + ch.val)).st = .aborting → (u.dmaCh (32 * c.val + ch.val)).st = .idle ∧ Counted Obj.aborts 1 s u) ∧
        ((s.dmaCh (32 * c.val + ch.val)).st = .running → d.len ≠ 0 → d.len / 64 ≤ (s.dmaCh (32 * c.val + ch.val)).issued → d.confirm = true → d.dir = 1 →
          (u.dmaCh (32 * c.val + ch.val)).confirming = true ∧ (u.dmaCh (32 * c.val + ch.val)).st = .running) ∧
        ((s.dmaCh (32 * c.val + ch.val)).st = .running → d.len ≠ 0 → d.len / 64 ≤ (s.dmaCh (32 * c.val + ch.val)).issued → d.confirm = false ∨ d.dir = 0 →
          Counted Obj.descriptorsDone 1 s u ∧ (u.dmaCh (32 * c.val + ch.val)).st = (if d.next = 0 then .idle else .fetching)) ∧
        ((s.dmaCh (32 * c.val + ch.val)).st = .running → (s.dmaCh (32 * c.val + ch.val)).issued < d.len / 64 → (u.dmaCh (32 * c.val + ch.val)).st = .running ∧
          u.num Obj.descriptorsDone = s.num Obj.descriptorsDone)) ∧
  (∀ (s : State) (c : Cab) (ch : Fin 32) (d : DmaDesc), s.net.done = [] → (s.dmaCh (32 * c.val + ch.val)).desc = some d →
      (s.dmaCh (32 * c.val + ch.val)).st = .running → (s.dmaCh (32 * c.val + ch.val)).confirming = true → (s.dmaCh (32 * c.val + ch.val)).acks = [] →
      s.changing (d.beatAddr ((s.dmaCh (32 * c.val + ch.val)).issued - 1)) = false →
      Answers (exec (.arrivalConfirmed c ch) s) fun u => Counted Obj.descriptorsDone 1 s u ∧
        (u.dmaCh (32 * c.val + ch.val)).st = (if d.next = 0 then .idle else .fetching) ∧ (d.next ≠ 0 → (u.dmaCh (32 * c.val + ch.val)).cur = d.next) ∧
        u.num Obj.fabricDmaFlags = s.num Obj.fabricDmaFlags ||| (if d.event then 4 else 0) ∧ u.mem = s.mem) ∧
  (∀ (s : State) (c : Cab) (ch : Fin 32), (s.dmaCh (32 * c.val + ch.val)).burst ≠ 0 → (s.dmaCh (32 * c.val + ch.val)).req = true →
      Answers (exec (.lateWithdrawal c ch) s) fun u => (u.dmaCh (32 * c.val + ch.val)).req = false ∧
        (u.dmaCh (32 * c.val + ch.val)).st = (s.dmaCh (32 * c.val + ch.val)).st ∧ Counted Obj.lateWithdrawals 1 s u ∧
        u.num Obj.fabricDmaFlags = s.num Obj.fabricDmaFlags ||| 2 ∧
        ChangesOnly [Obj.lateWithdrawals, Obj.fabricDmaFlags] { s with dma := u.dma } u) ∧
  (∀ (s : State) (c : Cab) (ch : Fin 32) (off : BitVec 64) (cause : BitVec 4) (d : DmaDesc), (s.dmaCh (32 * c.val + ch.val)).desc = some d →
      (s.dmaCh (32 * c.val + ch.val)).st = .running ∨ (s.dmaCh (32 * c.val + ch.val)).st = .aborting → 1 ≤ cause.toNat → cause.toNat ≤ 4 → d.dir ≤ 1 →
      (∃ b ∈ (if d.dir = 0 then (s.dmaCh (32 * c.val + ch.val)).buf else (s.dmaCh (32 * c.val + ch.val)).kept), b.i = off.toNat / 64) →
      Answers (exec (.dmaBusError c ch off cause) s) fun u => (u.dmaCh (32 * c.val + ch.val)).st = .halted ∧
        (u.dmaCh (32 * c.val + ch.val)).errAddr = d.beatAddr (off.toNat / 64) ∧ (u.dmaCh (32 * c.val + ch.val)).errInfo = d.dir + 16 * cause.toNat ∧
        Counted Obj.busErrors 1 s u ∧ u.num Obj.fabricDmaFlags = s.num Obj.fabricDmaFlags ||| 1 ∧ u.mem = s.mem) ∧
  (∀ (s : State) (q : Req), Admitted q Obj.channelCommand [1] s →
      ((s.dmaCh s.selChan).st ≠ .halted ∨ (s.dmaCh s.selChan).errInfo / 16 = 6 →
        exec (.resume q) s = .next (Denied q Obj.channelCommand Err.refusedInState (Arrived q s))) ∧
      ((s.dmaCh s.selChan).st = .halted → (s.dmaCh s.selChan).errInfo / 16 ≠ 6 →
        Carries q Obj.channelCommand (exec (.resume q) s) fun u =>
          (u.dmaCh s.selChan).st = (if (s.dmaCh s.selChan).desc = none then .fetching else .running) ∧
          (∀ k, k ≠ s.selChan → u.dmaCh k = s.dmaCh k) ∧ u.mem = s.mem)) ∧
  (∀ (s : State) (q : Req), Admitted q Obj.channelCommand [2] s →
      ((s.dmaCh s.selChan).st = .running ∧ (s.dmaCh s.selChan).burst = 0 ∨ (s.dmaCh s.selChan).st = .halted →
        Carries q Obj.channelCommand (exec (.abort q) s) fun u => (u.dmaCh s.selChan).st = .idle ∧ Counted Obj.aborts 1 s u ∧
          u.num Obj.fabricDmaFlags = s.num Obj.fabricDmaFlags ||| 8 ∧ u.mem = s.mem) ∧
      ((s.dmaCh s.selChan).st = .running → (s.dmaCh s.selChan).burst ≠ 0 →
        Carries q Obj.channelCommand (exec (.abort q) s) fun u => (u.dmaCh s.selChan).st = .aborting ∧ u.num Obj.aborts = s.num Obj.aborts ∧ u.mem = s.mem) ∧
      ((s.dmaCh s.selChan).st ≠ .running → (s.dmaCh s.selChan).st ≠ .halted →
        exec (.abort q) s = .next (Denied q Obj.channelCommand Err.refusedInState (Arrived q s))))

/-- LoadFromMemory begins a load in Header, refused while the loader is busy. A bad header ends it with BAD_HEADER and nothing changed; a good one with its checks passed puts its target in Loading, a region or all the fabric that is there, with its frames, and no others, cleared. The packets set the address and start-up words, frames go one after the other to valid addresses in the target, those of a cabinet that is gone passed over, END checks the digest and start-up begins; its four steps act in order and the region is Running. Failures carry their LoadResult; a failed target is cleared to Empty. -/
def Obligations.LoadsRun : Prop :=
  (∀ (s : State) (q : Req) (val : List Byte), Admitted q Obj.loadFromMemory val s →
      (s.cfg.load ≠ none → exec (.loadFromMemory q val) s = .next (Denied q Obj.loadFromMemory Err.refusedInState (Arrived q s))) ∧
      (s.cfg.load = none → Carries q Obj.loadFromMemory (exec (.loadFromMemory q val) s) fun u =>
        u.cfg = { s.cfg with load := some (LoadS.new 4 (leNat val) []) } ∧ u.loaderSt = 1 ∧ u.num Obj.loadSource = 4 ∧
        u.num Obj.loadTarget = 0 ∧ u.num Obj.framesWritten = 0 ∧ u.mem = s.mem ∧ u.fab = s.fab)) ∧
  (∀ (s : State) (l : LoadS) (h : List Byte), s.cfg.load = some l → s.loaderSt = 1 → l.failed = false → l.src = 4 → l.hdr = [] →
      l.only = none → s.host.window = [] → s.host.discard = 0 → s.cfg.auto = none → l.addr % 256 = 0 →
      (∀ b, b < 70000 → s.access (l.addr + b) .ok = .ok ∧ ∃ c o, s.place (l.addr + b) = .buffer c o ∨ s.place (l.addr + b) = .gddr c o) →
      h = (List.range (212 + LoadS.desc (s.read (l.addr % 2 ^ 48) 96))).map (fun i => s.byte ((l.addr + i) % 2 ^ 48)) →
      (LoadS.badStart h = true → Answers (exec (.loadHeader [] none) s) fun u => u.cfg.load = none ∧ u.loaderSt = 0 ∧
        u.num Obj.loadResult = 1 ∧ Counted Obj.loadsFailed 1 s u ∧ u.num Obj.configFlags = s.num Obj.configFlags ||| 2 ∧
        u.fab = s.fab ∧ u.mem = s.mem) ∧
      (LoadS.badStart h = false → field h 5 1 = 2 → Tab.sorted s.fab.frames = true →
        Answers (exec (.loadHeader [] none) s) fun u =>
          let d := LoadS.descriptor h
          let r := 8 * field d 0 1 + field d 1 1
          (∀ e, s.headerErr h = some e → u.cfg.load = none ∧ u.loaderSt = 0 ∧ u.num Obj.loadResult = e ∧ u.fab = s.fab) ∧
          (s.headerErr h = none → u.loaderSt = 3 ∧ u.regSt r = 2 ∧ (u.region r).steps = [] ∧
            u.num Obj.loadTarget = 2 + 4 * field d 0 1 + 32 * field d 1 1 ∧
            ∀ f, u.frame f = (if farCab f = field d 0 1 ∧ farType f ≠ 5 ∧ s.regFirst r ≤ farPos f ∧ farPos f ≤ s.regLast r
              then zeroFrame else s.frame f)) ∧ u.mem = s.mem) ∧
      (LoadS.badStart h = false → field h 5 1 = 1 → s.headerErr h = none → Tab.sorted s.fab.frames = true →
        Answers (exec (.loadHeader [] none) s) fun u => u.loaderSt = 3 ∧ u.num Obj.fabricState = 1 ∧ u.fab.whole.steps = [] ∧
          u.num Obj.loadTarget = 1 ∧ u.mem = s.mem ∧
          ∀ f, u.frame f = (if s.lost (farCab f) ∨ s.inCReset (farCab f) then s.frame f else zeroFrame))) ∧
  (∀ (s : State) (l : LoadS) (n : Nat), l.src = 4 → LoadS.enc l.hdr = false → l.pos + n ≤ LoadS.plain l.hdr →
      (∀ b, b < n + 256 → s.access (l.addr + l.hdr.length + l.pos - 255 + b) .ok = .ok ∧
        ∃ c o, s.place (l.addr + l.hdr.length + l.pos - 255 + b) = .buffer c o ∨ s.place (l.addr + l.hdr.length + l.pos - 255 + b) = .gddr c o) →
      255 ≤ l.addr → s.takeBody l n none =
        (let b := (List.range n).map fun j => s.byte ((l.addr + (l.hdr.length + l.pos + j)) % 2 ^ 48)
         Next.bytes b { l with pos := l.pos + n, cipher := l.cipher ++ b })) ∧
  (∀ (s p : State) (l l' : LoadS) (w : List Byte), p = s.pumpWindow → p.cfg.load = some l → p.loaderSt = 3 → l.failed = false → l.left = 0 →
      p.takeBody l 4 none = .bytes w l' → leNat w = 0 →
      exec .packetNop s = .next (p.setLoad l')) ∧
  (∀ (s p : State) (l l' : LoadS) (w : List Byte) (m : LoadS) (v : List Byte), p = s.pumpWindow → p.cfg.load = some l → p.loaderSt = 3 → l.failed = false → l.left = 0 →
      p.takeBody l 4 none = .bytes w l' → leNat w = 0x20000001 → p.takeBody l' 4 none = .bytes v m →
      exec .writeFar s = .next (p.setLoad { m with far := leNat v })) ∧
  (∀ (s p : State) (l l' : LoadS) (w : List Byte) (m : LoadS) (v : List Byte), p = s.pumpWindow → p.cfg.load = some l → p.loaderSt = 3 → l.failed = false → l.left = 0 →
      p.takeBody l 4 none = .bytes w l' → leNat w = 0x21000001 → p.takeBody l' 4 none = .bytes v m →
      exec .writeStartseq s = .next (if 256 ≤ leNat v ∨ (startCodes (leNat v)).eraseDups.length ≠ 4 then p.failLoad 7 0 0 else p.setLoad { m with seq := leNat v })) ∧
  (∀ (s p : State) (l l' : LoadS) (w : List Byte) (m : LoadS) (v : List Byte), p = s.pumpWindow → p.cfg.load = some l → p.loaderSt = 3 → l.failed = false → l.left = 0 →
      p.takeBody l 4 none = .bytes w l' → leNat w = 0x22000001 → p.takeBody l' 4 none = .bytes v m →
      exec .writeStartdly s = .next (p.setLoad { m with dly := leNat v })) ∧
  (∀ (s p : State) (l l' : LoadS) (b : List Byte), p = s.pumpWindow → p.cfg.load = some l → p.loaderSt = 3 → l.failed = false → l.left = 1 →
      (farValid l.far = false → exec (.packetFrames none) s = .next (p.failLoad 6 l.far 0)) ∧
      (farValid l.far = true → l.only = none → p.inTarget l l.far = false →
        exec (.packetFrames none) s = .next (p.failLoad 5 l.far 0)) ∧
      (farValid l.far = true → l.only = none → p.inTarget l l.far = true → p.takeBody l 384 none = .bytes b l' →
        exec (.packetFrames none) s = .next (if p.ioOk l.far b then
            (if p.lost (farCab l.far) ∨ farCab l.far ∈ l.gone then p
              else ((p.putFrame l.far b).bump Obj.framesWritten 1).bump Obj.framesLoaded 1).setLoad { l' with
              far := farNext l.far
              left := l.left - 1 }
          else p.failLoad 8 l.far 0))) ∧
  (∀ (s p : State) (l l' : LoadS) (w : List Byte) (n : Nat), p = s.pumpWindow → p.cfg.load = some l → p.loaderSt = 3 → l.failed = false → l.left = 0 → p.takeBody l 4 none = .bytes w l' →
      leNat w = 0x40000000 + n → 0 < n → n < 2 ^ 24 →
      exec (.packetFrames none) s = .next ((p.setLoad { l' with left := n }).writeFrames none n)) ∧
  (∀ (s p : State) (l l' : LoadS) (w : List Byte), p = s.pumpWindow → p.cfg.load = some l → p.loaderSt = 3 → l.failed = false → l.left = 0 → l.src = 4 → l.kind = 2 → l.only = none → l.cab < 8 → l.reg < 8 →
      p.takeBody l 4 none = .bytes w l' → leNat w = 0x60000000 → LoadS.enc l.hdr = false →
      (l'.pos ≠ LoadS.plain l.hdr → Answers (exec (.packetEnd) s) fun u => u.loaderSt = 6 ∧ u.cfg.load.map (·.failed) = some true ∧ u.num Obj.loadResult = 11 ∧ Counted Obj.loadsFailed 1 s u ∧ u.num Obj.configFlags = s.num Obj.configFlags ||| 2 ∧ u.mem = s.mem) ∧
      (l'.pos = LoadS.plain l.hdr → l'.hdr = l.hdr → l'.src = 4 → l'.kind = 2 → l'.cab = l.cab → l'.reg = l.reg → l'.only = none → l'.failed = false →
        Answers (exec .packetEnd s) fun u => u.mem = s.mem ∧
          (Config.shake256 l'.cipher 64 ≠ LoadS.bodyDigest l.hdr → u.loaderSt = 6 ∧ u.num Obj.loadResult = 9) ∧
          (Config.shake256 l'.cipher 64 = LoadS.bodyDigest l.hdr → u.loaderSt = 5 ∧ u.cfg.load.map (·.stepNo) = some 1 ∧
            u.regSt (8 * l.cab + l.reg) = 3 ∧
            (u.region (8 * l.cab + l.reg)).steps = (startCodes l'.seq).getD 0 0 :: (s.region (8 * l.cab + l.reg)).steps))) ∧
  (∀ (s : State) (l : LoadS), s.cfg.load = some l → s.loaderSt = 5 → l.failed = false → l.kind = 2 → l.only = none → l.cab < 8 → l.reg < 8 →
      (startCodes l.seq).getD (l.stepNo - 1) 0 ≠ 0 ∨ s.lockMet l = true →
      (l.stepNo < 4 → Answers (exec .startUpStep s) fun u => u.cfg.load = some { l with stepNo := l.stepNo + 1 } ∧
        (u.region (8 * l.cab + l.reg)).steps = (startCodes l.seq).getD l.stepNo 0 :: (s.region (8 * l.cab + l.reg)).steps ∧
        u.loaderSt = 5 ∧ u.mem = s.mem) ∧
      (4 ≤ l.stepNo → l.src = 4 → s.cfg.auto = none → Answers (exec .startUpStep s) fun u => u.cfg.load = none ∧ u.loaderSt = 0 ∧
        u.regSt (8 * l.cab + l.reg) = 4 ∧ u.num Obj.loadResult = 0 ∧ Counted Obj.loadsCompleted 1 s u ∧
        u.num Obj.configFlags = s.num Obj.configFlags ||| 1 ∧ (u.region (8 * l.cab + l.reg)).image = (if field l.hdr 5 1 = 1 then (s.region (8 * l.cab + l.reg)).image else l.addr) ∧
        u.mem = s.mem)) ∧
  (∀ (s : State) (l : LoadS), s.cfg.load = some l → s.loaderSt = 5 → l.failed = false → (startCodes l.seq).getD (l.stepNo - 1) 0 = 0 →
      s.lockMet l = false → exec .startUpStep s = .next s ∧ exec .lockTimeout s = .next (s.failLoad 14 0 0)) ∧
  (∀ (s : State) (l : LoadS), s.cfg.load = some l → l.src = 1 ∨ l.src = 2 ∨ l.src = 3 → s.loaderSt = 1 ∨ s.loaderSt = 3 →
      exec .loadIdleTimeout s = .next (s.failLoad 12 0 0)) ∧
  (∀ (s : State) (l : LoadS) (code far mem : Nat), s.cfg.load = some l → l.failed = false → l.src ≠ 6 →
      (s.loaderSt ≠ 1 → (s.failLoad code far mem).loaderSt = 6 ∧ (s.failLoad code far mem).cfg.load = some { l with failed := true } ∧
        (s.failLoad code far mem).num Obj.loadResult = code ∧ (s.failLoad code far mem).num Obj.loadFailAddress = far ∧
        (s.failLoad code far mem).num Obj.loadFailMemoryAddress = mem ∧ (s.failLoad code far mem).fab = s.fab) ∧
      (s.loaderSt = 1 → s.cfg.auto = none → (s.failLoad code far mem).loaderSt = 0 ∧ (s.failLoad code far mem).cfg.load = none ∧
        (s.failLoad code far mem).num Obj.loadResult = code ∧ (s.failLoad code far mem).fab = s.fab)) ∧
  (∀ (s : State) (q : Req) (val : List Byte), Admitted q Obj.loadAbort val s →
      exec (.loadAbort q val) s = .next (Replied q Obj.loadAbort ((Arrived q s).failLoad 15 0 0))) ∧
  (∀ (s : State) (l : LoadS), s.cfg.load = some l → s.loaderSt = 6 → l.kind = 2 → l.only = none → l.cab < 8 → l.reg < 8 → l.src = 4 →
      s.cfg.auto = none → s.regSt (8 * l.cab + l.reg) ≠ 6 → s.lost l.cab = false → Answers (exec .targetCleared s) fun u =>
        u.cfg.load = none ∧ u.loaderSt = 0 ∧ u.regSt (8 * l.cab + l.reg) = 1 ∧ (u.region (8 * l.cab + l.reg)).steps = [] ∧
        (∀ f, farCab f = l.cab → farType f ≠ 5 → s.regFirst (8 * l.cab + l.reg) ≤ farPos f → farPos f ≤ s.regLast (8 * l.cab + l.reg) →
          u.frame f = zeroFrame) ∧ u.mem = s.mem)

/-- SPSEL_N's fall selects the port with SPDONE and SPERR low; its rise before END aborts the port's load with TRUNCATED. While selected and enabled each SPCLK edge samples the width's bits, and whole bytes go to the load in hand, bit 7 first; else edges do nothing, and edges act one after the other. A misaligned window write, one by another than the owner or one while another source is served is dropped and counted; else its bytes join the buffer and the loader takes what it can. WindowRestart empties it, refused while served. AutoloadStore erases a slot and, done, the slot holds the bytes. -/
def Obligations.LoadSourcesBringBytes : Prop :=
  (∀ s : State, exec .spselFall s = .next { s with cfg := { s.cfg with port := ⟨true, [], [], 0, false, false, false⟩ } }) ∧
  (∀ s : State, let off := { s with cfg := { s.cfg with port := { s.cfg.port with
        selected := false
        bits := []
        buf := []
        excess := 0 } } }
      ((∀ l, s.cfg.load = some l → l.src = 1 ∨ l.src = 2 → l.allIn = true ∨ (s.loaderSt ≠ 1 ∧ s.loaderSt ≠ 2 ∧ s.loaderSt ≠ 3)) →
        exec .spselRise s = .next off) ∧
      (∀ l, s.cfg.load = some l → l.src = 1 ∨ l.src = 2 → l.allIn = false → s.loaderSt = 1 ∨ s.loaderSt = 2 ∨ s.loaderSt = 3 →
        exec .spselRise s = .next (off.failLoad 11 0 0))) ∧
  (∀ (s : State) (l : List SlaveEdge), s.cfg.port.selected = false ∨ s.num Obj.slavePortsEnabled ≠ 1 ∨ s.num Obj.deviceState = 1 ∨
      s.blockHeld 0x20 = true → exec (.slavePortData l) s = .next s) ∧
  (∀ (s : State) (e : SlaveEdge) (l : List SlaveEdge), ∃ u, exec (.slavePortData [e]) s = .next u ∧
      exec (.slavePortData (e :: l)) s = exec (.slavePortData l) u) ∧
  (∀ (s : State) (d : BitVec 32), s.cfg.port.selected = true → s.num Obj.slavePortsEnabled = 1 → s.num Obj.deviceState ≠ 1 →
      s.blockHeld 0x20 = false → s.spBusy = false →
      let p := splitBits 8 (s.cfg.port.bits ++ edgeBits (s.num Obj.slavePortWidth) d)
      (s.cfg.load = none → p.1 = [] → exec (.slavePortData [.data d]) s = .next { s with cfg := { s.cfg with
        port := { s.cfg.port with
          excess := 0
          bits := p.2 } } }) ∧
      (∀ l, s.cfg.load = some l → l.src = 1 ∨ l.src = 2 → exec (.slavePortData [.data d]) s = .next { s with cfg := { s.cfg with
        load := some { l with raw := l.raw ++ p.1 }
        port := { s.cfg.port with
          excess := 0
          bits := p.2 } } })) ∧
  (∀ (s : State) (d : BitVec 32), s.cfg.port.selected = true → s.num Obj.slavePortsEnabled = 1 → s.num Obj.deviceState ≠ 1 →
      s.blockHeld 0x20 = false → s.num Obj.slavePortWidth = 1 →
      (s.cfg.load = none → s.cfg.port.bits.length < 7 → exec (.slavePortData [.data d]) s = .next { s with cfg := { s.cfg with
        port := { s.cfg.port with
          excess := 0
          bits := s.cfg.port.bits ++ [d.getLsbD 0] } } }) ∧
      (∀ l, s.cfg.load = some l → l.src = 1 → s.loaderSt = 3 → s.cfg.port.bits.length = 7 →
        exec (.slavePortData [.data d]) s = .next { s with cfg := { s.cfg with
          load := some { l with raw := l.raw ++ [bitsByte (s.cfg.port.bits ++ [d.getLsbD 0])] }
          port := { s.cfg.port with
            excess := 0
            bits := [] } } })) ∧
  (∀ (s : State) (off : BitVec 23) (d : List Byte), s.num Obj.hostLinkState ≠ 2 ∨ s.rst.serve = .none →
      exec (.windowWrite off d) s = .next s) ∧
  (∀ (s : State) (off : BitVec 23) (d : List Byte), s.num Obj.hostLinkState = 2 → s.rst.serve ≠ .none → off.toNat % 4 = 0 →
      d.length % 4 = 0 → s.num Obj.owner = 1 → s.windowFree = true → s.blockHeld 0x20 = false → exec (.windowWrite off d) s =
        .next ({ s with host := { s.host with window := s.host.window ++ d } }.pumpWindow)) ∧
  (∀ (s : State) (off : BitVec 23) (d : List Byte), s.num Obj.hostLinkState = 2 → s.rst.serve ≠ .none →
      (off.toNat % 4 ≠ 0 ∨ d.length % 4 ≠ 0 → Answers (exec (.windowWrite off d) s) fun u => Counted Obj.windowWritesDropped 1 s u ∧
        u.num Obj.hostFlags = s.num Obj.hostFlags ||| 0x10 ∧ ChangesOnly [Obj.windowWritesDropped, Obj.hostFlags] s u) ∧
      (off.toNat % 4 = 0 → d.length % 4 = 0 →
        (s.num Obj.owner ≠ 1 → Answers (exec (.windowWrite off d) s) fun u => u.num Obj.lastErrorCode = Err.notOwner ∧
          Counted Obj.windowWritesDropped 1 s u ∧ u.host = s.host ∧ u.cfg = s.cfg) ∧
        (s.num Obj.owner = 1 → s.windowFree = false ∨ s.blockHeld 0x20 = true → Answers (exec (.windowWrite off d) s) fun u =>
          u.num Obj.lastErrorCode = Err.refusedInState ∧ Counted Obj.windowWritesDropped 1 s u ∧ u.host = s.host ∧ u.cfg = s.cfg) ∧
        (∀ l, s.num Obj.owner = 1 → s.blockHeld 0x20 = false → s.cfg.load = some l → l.src = 3 → l.failed = false → s.host.discard = 0 →
          s.host.window = [] → s.loaderSt = 1 → l.raw.length + d.length ≤ 96 → d ≠ [] → Answers (exec (.windowWrite off d) s) fun u =>
            u.cfg.load = some { l with raw := l.raw ++ d } ∧ u.host.window = [] ∧ u.fab = s.fab ∧ u.mem = s.mem))) ∧
  (∀ (s : State) (q : Req) (val : List Byte), Admitted q Obj.windowRestart val s →
      ((∃ l, s.cfg.load = some l ∧ l.src = 3) → exec (.windowRestart q val) s =
        .next (Denied q Obj.windowRestart Err.refusedInState (Arrived q s))) ∧
      ((∀ l, s.cfg.load = some l → l.src ≠ 3) → exec (.windowRestart q val) s = .next (Replied q Obj.windowRestart
        { Arrived q s with host := { s.host with
          window := []
          discard := 0 } }))) ∧
  (∀ (s : State) (q : Req) (val : List Byte), Admitted q Obj.autoloadStore val s →
      (s.cfg.storing ≠ none → exec (.autoloadStore q val) s = .next (Denied q Obj.autoloadStore Err.refusedInState (Arrived q s))) ∧
      (s.cfg.storing = none → Carries q Obj.autoloadStore (exec (.autoloadStore q val) s) fun u =>
        u.cfg.storing = some (leNat val - 1, s.num Obj.autoloadSource, s.num Obj.autoloadLength) ∧ u.mem = s.mem ∧ u.obj = (Arrived q s).obj ∧
        (Memory.wf 0xFF s.store.flash = true → ∀ a, u.flashByte a =
          if autoSlot (leNat val - 1) ≤ a ∧ a < autoSlot (leNat val - 1) + 0x1800000 then 0xFF else s.flashByte a))) ∧
  (∀ (s : State) (i a n : Nat), s.cfg.storing = some (i, a, n) → n ≤ 0x1800000 - 64 → Memory.wf 0xFF s.store.flash = true →
      (∀ j, j < n → s.access (a + j) .ok = .ok ∧ ∃ c o, s.place (a + j) = .buffer c o ∨ s.place (a + j) = .gddr c o) →
      (∀ b, autoSlot i ≤ b → b < autoSlot i + 0x1800000 → s.flashByte b = 0xFF) → Answers (exec .autoloadStoreDone s) fun u =>
        u.cfg.storing = none ∧ u.num Obj.configFlags = s.num Obj.configFlags ||| 8 ∧ u.mem = s.mem ∧
        (∀ j, j < n → u.flashByte (autoSlot i + 64 + j) = s.byte ((a + j) % 2 ^ 48)) ∧ leNat (u.flashRead (autoSlot i) 4) = 0x4B19D2A6 ∧
        leNat (u.flashRead (autoSlot i + 60) 4) = 0xC3A50F96)

/-- Scrubbing reads the next frame of the pass: a clean one is only noted, and so is one with an error in a bit that its check leaves out; another single-bit error is corrected, counted and flagged; a double one is counted and flagged and its region waits for a reload; with no frame left the pass counts and pauses, and the pause's end goes on. A reload takes the first region waiting, from its own image or from the full one, or the whole fabric for a static frame, flagged; with no image it fails. A bad copy of the settings is overwritten by the good one; with both bad the defaults are restored. -/
def Obligations.ScrubberRuns : Prop :=
  (∀ (s : State) (k : FrameCheck), s.num Obj.scrubState = 1 → s.blockHeld 0x28 = false → s.nextScrub = none →
      Answers (exec (.scrubFrameRead k) s) fun u => Counted Obj.scrubPasses 1 s u ∧ u.num Obj.scrubState = 4 ∧
        u.cfg = { s.cfg with
          scrubAt := 0
          skip := [] } ∧ ChangesOnly [Obj.scrubPasses, Obj.scrubState] { s with cfg := u.cfg } u) ∧
  (∀ (s : State) (f : Nat) (b : Fin 3072), s.num Obj.scrubState = 1 → s.blockHeld 0x28 = false → s.nextScrub = some f →
      exec (.scrubFrameRead .clean) s = .next { s.setNum Obj.lastScrubFrame f with cfg := { s.cfg with scrubAt := f + 1 } } ∧
      (s.masked f b = true → exec (.scrubFrameRead (.single b)) s = exec (.scrubFrameRead .clean) s) ∧
      (s.masked f b = false → Answers (exec (.scrubFrameRead (.single b)) s) fun u => Counted Obj.scrubCorrected 1 s u ∧ u.num Obj.scrubState = 1 ∧
        u.num Obj.lastScrubFrame = f ∧ u.num Obj.scrubFlags = s.num Obj.scrubFlags ||| 1 ∧ u.fab = s.fab ∧
        u.cfg = { s.cfg with scrubAt := f + 1 }) ∧
      (Answers (exec (.scrubFrameRead .double) s) fun u => Counted Obj.scrubDoubleErrors 1 s u ∧ u.num Obj.scrubState = 3 ∧
        u.num Obj.lastScrubFrame = f ∧ u.num Obj.scrubFlags = s.num Obj.scrubFlags ||| 2 ∧ u.fab = s.fab ∧
        u.cfg.reloads = s.cfg.reloads ++ [(s.regionAt (farCab f) (farPos f)).getD 64]) ∧
      (Answers (exec (.scrubFrameRead .more) s) fun u => u.num Obj.lastScrubFrame = f ∧ u.mem = s.mem ∧
        (∀ g, g ≠ f → u.frame g = s.frame g))) ∧
  (∀ (s : State) (r r' : Nat) (rest : List Nat), s.num Obj.scrubState = 3 → s.cfg.load = none → s.blockHeld 0x20 = false →
      s.cfg.reloads = r' :: rest → r' ≠ 64 → r = r' % 128 → Answers (exec .scrubReload s) fun u => Counted Obj.scrubReloads 1 s u ∧
        u.mem = s.mem ∧ (u.region r).reloads = sat32 ((s.region r).reloads + 1) ∧
        ((s.region r).fromFull = false → (s.region r).image = 0 → u.loaderSt = 6 ∧ u.num Obj.loadResult = 16) ∧
        ((s.region r).fromFull = false → (s.region r).image ≠ 0 → u.cfg.reloads = rest ∧ u.loaderSt = 1 ∧ u.num Obj.loadSource = 6 ∧
          u.cfg.load = some { LoadS.new 6 (s.region r).image [] with
            kind := 2
            cab := r / 8
            reg := r % 8 }) ∧
        ((s.region r).fromFull = true → s.num Obj.fullImage ≠ 0 → u.cfg.reloads = rest ∧ u.loaderSt = 1 ∧ u.num Obj.loadSource = 6 ∧
          u.cfg.load = some { LoadS.new 6 (s.num Obj.fullImage) [] with
            kind := 1
            cab := r / 8
            reg := r % 8
            only := some r })) ∧
  (∀ (s : State) (rest : List Nat), s.num Obj.scrubState = 3 → s.cfg.load = none → s.blockHeld 0x20 = false →
      s.cfg.reloads = 64 :: rest → s.num Obj.fullImage ≠ 0 → Answers (exec .scrubReload s) fun u => Counted Obj.scrubReloads 1 s u ∧
        u.mem = s.mem ∧ u.loaderSt = 1 ∧ u.num Obj.loadSource = 6 ∧ u.num Obj.scrubFlags = s.num Obj.scrubFlags ||| 0x20 ∧
        u.cfg.load = some { LoadS.new 6 (s.num Obj.fullImage) [] with kind := 1 } ∧
        u.cfg.reloads = rest.filter (64 ≤ ·) ++ ((List.range 64).filter fun i =>
          s.regDefined i && !(s.region i).fromFull && (s.region i).image ≠ 0).map (128 + ·)) ∧
  (∀ s : State, s.num Obj.scrubState = 3 → s.cfg.load = none → s.blockHeld 0x20 = false → s.cfg.reloads = [] →
      exec .scrubReload s = .next (s.setState Obj.scrubState 1)) ∧
  (∀ s : State, s.num Obj.scrubState = 4 → exec .scrubPauseEnd s = .next (s.setState Obj.scrubState 1)) ∧
  (∀ s : State, s.num Obj.scrubState ≠ 4 → exec .scrubPauseEnd s = .next s) ∧
  (∀ (s : State) (b : Bool), s.blockHeld 0x28 = false → 4 ≤ s.rst.exitDone → Answers (exec (.settingsUpset b) s) fun u =>
      u.cfg.copyA = (if b then s.cfg.copyA else s.cfg.copyB) ∧ u.cfg.copyB = u.cfg.copyA ∧ u.cfg.scrubAt = 0 ∧
      Counted Obj.settingsUpsets 1 s u ∧ u.num Obj.scrubFlags = s.num Obj.scrubFlags ||| 8 ∧
      u.num Obj.scrubState = (if s.num Obj.scrubState = 0 ∨ s.num Obj.scrubState = 3 then s.num Obj.scrubState else 1) ∧ u.mem = s.mem ∧
      u.fab = s.fab) ∧
  (∀ s : State, s.blockHeld 0x28 = false → 4 ≤ s.rst.exitDone → Answers (exec .scrubCriticalReset s) fun u =>
      u.cfg.copyA = (1, 100, 255) ∧ u.cfg.copyB = (1, 100, 255) ∧ u.num Obj.scrubEnable = 1 ∧ u.num Obj.scrubPauseMs = 100 ∧
      u.num Obj.scrubCabinetMask = 0xFF ∧ Counted Obj.scrubCriticalResets 1 s u ∧
      u.num Obj.scrubFlags = s.num Obj.scrubFlags ||| 0x10 ∧ u.mem = s.mem ∧ u.fab = s.fab)

/-- A cabinet already lost stays so. Else its health and power state read Lost, what its tiles, streams, frames and memories hold is gone, one record of the loss is logged, its target port is Lost, and no other cabinet's health, tiles or memory changes; with no job touched each job stands as it did, but that a save area in the cabinet is lost. Once everything of a job under rung 5 has stopped, a placement and a valid checkpoint let it run again from there, the checkpoint is its newest, and every rung 5 that waited for it is recorded as rung 5; a placement in a lost cabinet, or no readable checkpoint, ends the job, whose rung stays for its end. A member of a group without a rung of its own begins to recover. -/
def Obligations.CabinetLossAndShardRestore : Prop :=
  (∀ (s : State) (t : Nat) (c : Cab) (rail : Bool), s.serving = false ∨ s.lost c = true →
      exec (.cabinetLost t c rail) s = .next (s.upto t)) ∧
  (∀ (s : State) (t : Nat) (c : Cab) (rail : Bool), s.serving = true → s.lost c = false → s.jobsAt c = [] → s.cfg.load = none →
      (∀ q ∈ s.health.rungs, ∀ g h k, q.work = .site g h k ∨ q.work = .row g h → g / 150 ≠ c.val) →
      Answers (exec (.cabinetLost t c rail) s) fun u =>
        u.lost c = true ∧ u.num (Obj.cabinetPowerState + c) = 3 ∧
        u.num (Obj.gddrCabinetState + c) = (if s.num (Obj.gddrCabinetState + c) = 4 then 4 else 5) ∧
        u.portSt (16 + c) = Port.lost ∧ (u.num Obj.healthFlags).testBit 3 = true ∧
        (rail = true → u.num Obj.powerFlags = s.num Obj.powerFlags ||| 4) ∧
        Logged { FaultRec.device (max s.now t) 0x0E 9 with cab := c } 0xFF s u ∧
        u.tiles = s.tiles.filter (fun e => e.1 / 150 ≠ c.val) ∧ u.mm.frames = s.mm.frames.filter (fun f => f.1 ≠ c.val) ∧
        (s.pagesAt c = [] → u.mem = s.mem.filter fun e => !cabHolds c e.1) ∧
        (∀ id j, s.job id = some j → ((j.saved.map fun v => v.stoodIn c).getD false = false → u.job id = some j) ∧
          ((j.saved.map fun v => v.stoodIn c).getD false = true → u.job id = some { j with saveLost := true })) ∧ u.jobTotals = s.jobTotals ∧
        u.fab.bridges = s.fab.bridges.del c ∧ (∀ f ∈ u.fab.frames, farCab f.1 ≠ c) ∧
        (∀ d : Cab, d ≠ c → u.lost d = s.lost d ∧ u.num (Obj.cabinetPowerState + d) = s.num (Obj.cabinetPowerState + d)) ∧
        (∀ i : Fin 8, u.regSt (8 * c + i) = Region.lost)) ∧
  (∀ (s : State) (t : Nat) (id : BitVec 32) (b : Bool), s.job id.toNat = none →
      exec (.shardRestore t id b) s = .next (s.upto t)) ∧
  (∀ (s : State) (t : Nat) (id : BitVec 32) (b : Bool) (j : JobS), s.job id.toNat = some j →
      let rung := s.health.rungs.any (fun q => q.work = .shard id.toNat)
      (rung = false → 1 < j.layout.groupSize → j.isPlaced = true → j.st ≠ .recovering → j.ckptStep ≠ 4 → j.reported ≠ some 3 →
        Answers (exec (.shardRestore t id b) s) fun u => (u.job id.toNat).map (·.st) = some .recovering ∧
          u.health.rungs = s.health.rungs ∧ (∀ i, i ≠ id.toNat → u.job i = s.job i)) ∧
      (j.ckptStep = 4 ∨ j.reported = some 3 ∨ j.isPlaced = false ∨ (rung = false ∧ j.layout.groupSize ≤ 1) ∨ (rung = true ∧ j.st ≠ .recovering) →
        exec (.shardRestore t id b) s = .next (s.upto t)) ∧
      (j.st = .recovering → s.resetIn (j.layout.drawersWith s.cabDown) = true ∨ s.haltedAll id.toNat j = false →
        exec (.shardRestore t id b) s = .next (s.upto t))) ∧
  (∀ (s : State) (t : Nat) (id : BitVec 32) (b : Bool) (j : JobS), s.job id.toNat = some j → j.st = .recovering →
      s.health.rungs.any (fun q => q.work = .shard id.toNat) = true → s.resetIn (j.layout.drawersWith s.cabDown) = false →
      s.haltedAll id.toNat j = true → j.ckptStep ≠ 4 → j.reported ≠ some 3 → j.layout.groupSize ≤ 1 →
      let v := (s.upto t).vacate id.toNat j
      (∀ c, s.lostIn (j.layout.drawersWith s.cabDown) = some c → s.feedsOfJob j = [] → Answers (exec (.shardRestore t id b) s) fun u =>
        (u.job id.toNat).map (fun k => (k.st, k.status)) = some (.ending, some (Status.noPlacement, c)) ∧
        u.health.rungs = s.health.rungs ∧ (∀ i, i ≠ id.toNat → u.job i = s.job i)) ∧
      (∀ ds, s.lostIn (j.layout.drawersWith s.cabDown) = none → j.layout.segs = [] →
        v.placesFor id.toNat v.usable (j.layout.drawersWith s.cabDown) = .ok ds →
        (b = false ∨ s.newestCkpt id.toNat j.desc = none → s.feedsOfJob j = [] → Answers (exec (.shardRestore t id b) s) fun u =>
          (u.job id.toNat).map (fun k => (k.st, k.status)) = some (.ending, some (Status.checkpointFailed, 7)) ∧
          u.health.rungs = s.health.rungs ∧ (∀ i, i ≠ id.toNat → u.job i = s.job i)) ∧
        (∀ ck, b = true → s.newestCkpt id.toNat j.desc = some ck → v.canRestore id.toNat ds = false →
          exec (.shardRestore t id b) s = .next (s.upto t)) ∧
        (∀ ck, b = true → s.newestCkpt id.toNat j.desc = some ck → v.canRestore id.toNat ds = true →
          Answers (exec (.shardRestore t id b) s) fun u =>
            (u.job id.toNat).map (fun k => (k.st, k.placed, k.newest, k.writing)) = some (.running, ds, some ck.n, none) ∧
            u.jobTotals.get ⟨0, Counts.zero⟩ id.toNat = ck.saved.totals ∧
            u.health.rungs = s.health.rungs.filter (fun q => q.work ≠ .shard id.toNat) ∧
            (u.num Obj.healthFlags).testBit 4 = true ∧
            (∀ q, s.health.rungs.filter (fun q => q.work = .shard id.toNat) = [q] → Counted (Obj.rungCounts + 5) 1 s u) ∧ (∀ i, i ≠ id.toNat → u.job i = s.job i))))

/-- RUN is refused outside Idle, Frozen and elastic Stalled; from Idle or Frozen with no feeds it clears the freeze and gives Elastic, Arming with ArmUntilStep a + D in bound mode, or Failed where a held frame has a wrong length; from elastic Stalled it gives Freezing, or Frozen where step F has ended. ABANDON gives Idle from Frozen, Stalled and Failed and is refused elsewhere. The first step after RUN is StartStep; the next one starts only when evaluation and every neighbour's frame are in, at the assigned edge in Bound, and takes the neighbours' words. A step's start is one period of the stepped networks alone. A step's end samples the probe multiplexers, whose taps read 0 where logic does not run, sends each neighbour's frame, forms an enabled feed's record, and finishes step F by freezing. -/
def Obligations.StepsUnderTheLockstepRule : Prop :=
  (∀ (s : State) (q : Req), Admitted q Obj.stepCommand [1] s →
      (¬(s.lockSt = Lock.idle ∨ s.lockSt = Lock.frozen ∨ (s.lockSt = Lock.stalled ∧ s.num Obj.stepMode ≠ 1)) →
        exec (.run q) s = .next (Denied q Obj.stepCommand Err.refusedInState (Arrived q s))) ∧
      (s.lockSt = Lock.stalled → s.num Obj.stepMode ≠ 1 → s.enabledFeeds = [] → (∀ n, n < 128 → (s.feed n).st ≠ 1) →
        Carries q Obj.stepCommand (exec (.run q) s) fun u => u.lock = { s.lock with bound := false } ∧ u.mem = s.mem ∧ u.fab = s.fab ∧
          (if s.lock.started = true ∧ s.num Obj.currentStep = s.num Obj.freezeAt ∧ s.lock.evaluating = false then
            u.lockSt = Lock.frozen ∧ u.num Obj.frozenStep = s.num Obj.freezeAt else u.lockSt = Lock.freezing)) ∧
      (s.lockSt = Lock.idle ∨ s.lockSt = Lock.frozen → s.enabledFeeds = [] → (∀ n, n < 128 → (s.feed n).st ≠ 1) → s.lock.held = [] →
        let a := if s.lock.started then s.num Obj.currentStep + 1 else s.num Obj.startStep
        Carries q Obj.stepCommand (exec (.run q) s) fun u =>
          u.num Obj.freezeAt = noStep ∧ u.lock = { s.lock with
            first := a
            e0 := none
            bound := decide (s.num Obj.stepMode = 1) } ∧ u.mem = s.mem ∧ u.tiles = s.tiles ∧ u.fab = s.fab ∧
          (s.badFrame = false → s.num Obj.stepMode ≠ 1 → u.lockSt = Lock.elastic) ∧
          (s.badFrame = false → s.num Obj.stepMode = 1 → u.lockSt = Lock.arming ∧
            u.num Obj.armUntilStep = a + s.num Obj.systemDiameter) ∧
          (s.badFrame = true → u.lockSt = Lock.failed ∧ u.num Obj.failCause = 2 ∧ (u.num Obj.lockstepFlags).testBit 5 = true))) ∧
  (∀ (s : State) (q : Req), Admitted q Obj.stepCommand [2] s →
      (s.lockSt = Lock.frozen ∨ s.lockSt = Lock.stalled ∨ s.lockSt = Lock.failed → Carries q Obj.stepCommand (exec (.abandon q) s) fun u =>
        u.lockSt = Lock.idle ∧ u.num Obj.currentStep = 0 ∧ u.num Obj.freezeAt = noStep ∧ u.lock.started = false ∧ u.lock.frames = [] ∧
        u.lock.inRegs = [] ∧ u.fab = s.fab ∧ u.mem = s.mem ∧ u.tiles = s.tiles ∧ u.trace = s.trace) ∧
      (¬(s.lockSt = Lock.frozen ∨ s.lockSt = Lock.stalled ∨ s.lockSt = Lock.failed) →
        exec (.abandon q) s = .next (Denied q Obj.stepCommand Err.refusedInState (Arrived q s)))) ∧
  (∀ (s : State) (edge : Nat), s.lock.started = false →
      (s.lockSt = Lock.elastic ∨ (s.lockSt = Lock.arming ∧ s.num Obj.startStep < s.lock.first + s.num Obj.systemDiameter + 1) ∨
        (s.lockSt = Lock.freezing ∧ s.num Obj.startStep ≤ s.num Obj.freezeAt)) →
      Answers (exec (.stepStart edge) s) fun u =>
        u.num Obj.currentStep = s.num Obj.startStep ∧ u.lockSt = s.lockSt ∧ u.lock.started = true ∧ u.lock.evaluating = true ∧
        u.lock.startEdge = edge ∧ u.lock.inRegs = s.lock.inRegs ∧ u = { s with
          obj := u.obj
          lock := u.lock
          fab := u.fab
          free := u.free } ∧ ((∀ c, c < 8 → s.num (Obj.stepNetworks + c) = 0) → u.fab = s.fab) ∧ u.fab.frames = s.fab.frames ∧
        KeepsObjects [Obj.currentStep, Obj.probeApplyStep] s u) ∧
  (∀ (s : State) (edge : Nat), s.lock.started = true →
      ((s.lockSt = Lock.elastic ∨ s.lockSt = Lock.arming ∨ s.lockSt = Lock.freezing) →
        (s.readyAt edge = false ∨ s.feedsAllow (s.num Obj.currentStep + 1) = false → exec (.stepStart edge) s = .next s)) ∧
      (s.lockSt = Lock.freezing → s.num Obj.freezeAt ≤ s.num Obj.currentStep → exec (.stepStart edge) s = .next s) ∧
      (s.lockSt = Lock.bound → s.assigned (s.num Obj.currentStep + 1) ≠ some edge ∨ s.readyAt edge = false →
        exec (.stepStart edge) s = .next s) ∧
      (s.lockSt = Lock.elastic → s.readyAt edge = true → s.feedsAllow (s.num Obj.currentStep + 1) = true →
        Answers (exec (.stepStart edge) s) fun u =>
          u.num Obj.currentStep = s.num Obj.currentStep + 1 ∧ u.lockSt = Lock.elastic ∧ u.lock.evaluating = true ∧ u.lock.startEdge = edge ∧
          (∀ n f, s.neighbours = [n] → s.frameOf n.dev (s.num Obj.currentStep) = some f → Tab.sorted s.lock.inRegs = true →
            (∀ i, i < n.inWords → u.lock.inRegs.get 0 (n.inFirst + i) = BitVec.ofNat 64 (field f.payload (8 * i) 8)) ∧
            (∀ w, w < n.inFirst ∨ n.inFirst + n.inWords ≤ w → u.lock.inRegs.get 0 w = s.lock.inRegs.get 0 w)) ∧
          u = { s with
            obj := u.obj
            lock := u.lock
            fab := u.fab
            free := u.free } ∧ ((∀ c, c < 8 → s.num (Obj.stepNetworks + c) = 0) → u.fab = s.fab) ∧ u.fab.frames = s.fab.frames ∧
          KeepsObjects [Obj.currentStep, Obj.probeApplyStep] s u) ∧
      (∀ r, s.lockSt = Lock.arming → s.readyAt edge = true → s.enabledFeeds = [] → s.lock.first + s.num Obj.systemDiameter = s.num Obj.currentStep →
        r = s.num Obj.currentStep + 1 → Answers (exec (.stepStart edge) s) fun u =>
          u.num Obj.currentStep = r ∧ u.lockSt = Lock.bound ∧ u.lock.e0 = some edge ∧ u.num Obj.minSlack = 0xFFFF ∧ u.mem = s.mem) ∧
      (s.lockSt = Lock.bound → s.assigned (s.num Obj.currentStep + 1) = some edge → s.readyAt edge = true → s.enabledFeeds = [] →
        Answers (exec (.stepStart edge) s) fun u => u.num Obj.currentStep = s.num Obj.currentStep + 1 ∧ u.lockSt = Lock.bound ∧
          u.num Obj.minSlack = min (s.num Obj.minSlack) (min (edge - (s.readyEdge.getD edge)) 0xFFFF) ∧ u.mem = s.mem)) ∧
  (∀ (s : State) (edge step : Nat),
      (¬(1 ≤ s.lockSt ∧ s.lockSt ≤ 4) ∨ s.lock.evaluating = false ∨ edge ≠ s.lock.startEdge + 1 ∨ step ≠ s.num Obj.currentStep →
        exec (.stepEnd edge step) s = .next s) ∧
      (1 ≤ s.lockSt → s.lockSt ≤ 4 → s.lock.evaluating = true → edge = s.lock.startEdge + 1 → step = s.num Obj.currentStep →
        s.enabledFeeds = [] → Answers (exec (.stepEnd edge step) s) fun u =>
          u.lock.evaluating = false ∧ u.num Obj.currentStep = s.num Obj.currentStep ∧ u.mem = s.mem ∧ u.tiles = s.tiles ∧
          (∀ (c : Cab) m, m < 256 → (s.fab.frames.any fun e => farCab e.1 = c) = true →
            u.lock.samples.get 0 (256 * c + m) = s.probeWord c m ∧
            ((∀ q, s.stepAt c (clusterPos q) 3 = false) → u.lock.samples.get 0 (256 * c + m) = 0)) ∧
          (s.neighbours = [] → u = { s with
              obj := u.obj
              dict := u.dict
              lock := u.lock } ∧
            (s.lockSt ≠ Lock.freezing ∨ s.num Obj.freezeAt ≠ s.num Obj.currentStep → u.obj = s.obj) ∧
            (s.lockSt = Lock.freezing → s.num Obj.freezeAt = s.num Obj.currentStep → u.lockSt = Lock.frozen ∧
              u.num Obj.frozenStep = s.num Obj.currentStep ∧ Counted Obj.freezesCompleted 1 s u ∧
              u.num Obj.lockstepFlags = s.num Obj.lockstepFlags ||| 2)) ∧
          (∀ n, s.neighbours = [n] → n.dev ≠ s.device → Counted Obj.cutFramesSent 1 s u)) ∧
      (∀ q, 1 ≤ s.lockSt → s.lockSt ≤ 4 → s.lock.evaluating = true → edge = s.lock.startEdge + 1 → step = s.num Obj.currentStep →
        s.neighbours = [] → s.enabledFeeds = [q] → (s.feed q).st = 2 → (s.feed q).queue.length < 4 → Answers (exec (.stepEnd edge step) s) fun u => ∃ l,
          l.take 16 = leBytes 6 (s.num Obj.currentStep) ++ leBytes 1 (q % 16 + 16 * (q / 16)) ++ leBytes 1 (if (s.feed q).first then 2 else 0) ++
            leBytes 2 (s.feedMuxes q).length ++ leBytes 1 (s.feedSources q).length ++ leBytes 1 (s.feedUnits q) ++ leBytes 4 (s.feed q).formed ∧
          u.feed q = { s.feed q with
            formed := ((s.feed q).formed + 1) % 2 ^ 32
            first := false
            lastStep := s.num Obj.currentStep
            queue := (s.feed q).queue ++ [(s.num Obj.currentStep, false, l)] } ∧ u.mem = s.mem ∧ u.tiles = s.tiles))

/-- Flits for another device or while the controller is held do nothing; one of an unknown kind or an unexpected step is dropped and counted. A frame whole in one flit is held for its step and counted, and one of a wrong length fails the controller outside Idle; a first flit is held as a part. A notice of a step not yet passed gives the freeze and its origin and cause; a lower one held stands, a step already passed fails the prototype, and Idle keeps the proposal for RUN. A miss is counted and proposes a freeze at S + D; SnapshotAt proposes its step; the loss of DREF where DSCLK runs from it stops that clock and, with steps under way, stalls the controller. -/
def Obligations.CutFramesAndFreezes : Prop :=
  (∀ (s : State) (edge : Nat) (f : CutFlit), f.dest.toNat ≠ s.device ∨ s.blockHeld 0x30 = true →
      exec (.cutFrameReceive edge f) s = .next s ∧ exec (.freezeNotice f) s = .next s) ∧
  (∀ (s : State) (edge : Nat) (f : CutFlit), f.dest.toNat = s.device → s.blockHeld 0x30 = false →
      let dev := f.source.toNat
      let step := f.step.toNat
      (f.kind ≠ 1 → f.kind ≠ 2 → exec (.cutFrameReceive edge f) s = .next (s.bump Obj.cutFramesDiscarded 1)) ∧
      (f.kind = 2 → exec (.cutFrameReceive edge f) s = exec (.freezeNotice f) s) ∧
      (f.kind = 1 → s.expects step = false → Answers (exec (.cutFrameReceive edge f) s) fun u =>
        CountedIf f.last Obj.cutFramesDiscarded s u ∧ u.lock.frames.filter (·.edge.isSome) = s.lock.frames.filter (·.edge.isSome) ∧
        u = { s with
          obj := u.obj
          lock := { s.lock with frames := u.lock.frames } } ∧ KeepsObjects [Obj.cutFramesDiscarded] s u) ∧
      (f.kind = 1 → s.expects step = true → f.freezeValid = false → (∀ x ∈ s.lock.frames, ¬(x.dev = dev ∧ x.step = step)) →
        (f.last = false → exec (.cutFrameReceive edge f) s = .next { s with lock := { s.lock with
          frames := s.lock.frames ++ [⟨dev, step, 1, f.payload, none⟩] } }) ∧
        (f.last = true → s.lockSt ≠ Lock.failed → ∀ n, s.neighbours.find? (fun n => n.dev = dev) = some n →
          Answers (exec (.cutFrameReceive edge f) s) fun u => Counted Obj.cutFramesReceived 1 s u ∧
            u.lock = { s.lock with frames := s.lock.frames ++ [⟨dev, step, 0, f.payload, some edge⟩] } ∧
            (if f.payload.length = 8 * n.inWords ∨ s.lockSt = Lock.idle then ChangesOnly [Obj.cutFramesReceived] { s with lock := u.lock } u
             else u.lockSt = Lock.failed ∧ u.num Obj.failCause = 2 ∧ (u.num Obj.lockstepFlags).testBit 5 = true ∧
              ChangesOnly [Obj.cutFramesReceived, Obj.stepControllerState, Obj.failCause, Obj.lockstepFlags] { s with lock := u.lock } u)))) ∧
  (∀ (s : State) (f : CutFlit), f.dest.toNat = s.device → s.blockHeld 0x30 = false → f.kind = 2 → f.freezeValid = true →
      let at' := f.step.toNat + f.delta.toNat
      let origin := noticeOrigin f
      (field f.payload 0 2 % 4096 ≠ 0xFFF → origin = field f.payload 0 2 % 4096) ∧
      (s.lockSt = Lock.idle → exec (.freezeNotice f) s = .next { s with lock := { s.lock with
        held := s.lock.held ++ [(at', origin, f.cause.toNat)] } }) ∧
      (s.lockSt = Lock.failed → exec (.freezeNotice f) s = .next s) ∧
      (s.lockSt ≠ Lock.idle → s.lockSt ≠ Lock.failed → s.num Obj.freezeAt < at' → s.num Obj.freezeAt ≠ noStep →
        exec (.freezeNotice f) s = .next s) ∧
      (s.lockSt ≠ Lock.idle → s.lockSt ≠ Lock.failed → s.num Obj.freezeAt = noStep →
        (at' < s.lastStarted → Answers (exec (.freezeNotice f) s) fun u => u.lockSt = Lock.failed ∧ u.num Obj.failCause = 1 ∧
          Counted Obj.freezesPassed 1 s u ∧ (u.num Obj.lockstepFlags).testBit 3 = true ∧ u.num Obj.freezeAt = noStep ∧ u.lock = s.lock) ∧
        (s.lastStarted ≤ at' → at' ≠ noStep → Answers (exec (.freezeNotice f) s) fun u => u.num Obj.freezeAt = at' ∧
          u.num Obj.freezeOrigin = (if origin = 0xFFFF then s.num Obj.freezeOrigin else origin) ∧ u.num Obj.freezeCause = f.cause.toNat ∧ u.lock = s.lock ∧ u.mem = s.mem ∧ u.tiles = s.tiles ∧
          u.lockSt = (if s.lockSt = Lock.stalled then Lock.stalled
            else if s.lock.started = true ∧ s.num Obj.currentStep = at' ∧ s.lock.evaluating = false then Lock.frozen else Lock.freezing)))) ∧
  (∀ (s : State) (edge : Nat), (s.missAt edge = false → exec (.deadlineMiss edge) s = .next s) ∧
      (s.missAt edge = true → s.num Obj.freezeAt = noStep → s.lock.started = true → 0 < s.num Obj.systemDiameter →
        s.num Obj.currentStep + s.num Obj.systemDiameter ≠ noStep →
        Answers (exec (.deadlineMiss edge) s) fun u => Counted Obj.deadlineMisses 1 s u ∧
          u.num Obj.lastMissStep = s.num Obj.currentStep + 1 ∧ (u.num Obj.lockstepFlags).testBit 0 = true ∧ u.lockSt = Lock.freezing ∧
          u.num Obj.freezeAt = s.num Obj.currentStep + s.num Obj.systemDiameter ∧ u.num Obj.freezeOrigin = s.device ∧
          u.num Obj.freezeCause = 1 ∧ u.lock = s.lock ∧ u.mem = s.mem)) ∧
  (∀ (s : State) (q : Req) (val : List Byte), Admitted q Obj.snapshotAt val s →
      (s.lockSt = Lock.idle ∨ s.lockSt = Lock.failed ∨ (s.lockSt = Lock.freezing ∧ s.num Obj.freezeAt < leNat val) →
        exec (.snapshotAt q val) s = .next (Denied q Obj.snapshotAt Err.refusedInState (Arrived q s))) ∧
      (s.lockSt = Lock.elastic ∨ s.lockSt = Lock.arming ∨ s.lockSt = Lock.bound → s.num Obj.freezeAt = noStep → s.lock.started = true →
        s.num Obj.currentStep < leNat val → leNat val ≠ noStep → Carries q Obj.snapshotAt (exec (.snapshotAt q val) s) fun u =>
          u.num Obj.freezeAt = leNat val ∧ u.num Obj.freezeCause = 2 ∧ u.num Obj.freezeOrigin = s.device ∧ u.lockSt = Lock.freezing ∧
          u.lock = s.lock ∧ u.mem = s.mem ∧ u.tiles = s.tiles)) ∧
  (∀ s : State, (s.lock.bound = false ∨ s.blockHeld 0x30 = true → exec .drefLost s = .next s) ∧
      (s.lock.bound = true → s.blockHeld 0x30 = false → Answers (exec .drefLost s) fun u => u.num Obj.drefPeriodNs = 0 ∧
        u.num (Obj.clockState + 24) = 4 ∧
        (u.num Obj.lockstepFlags).testBit 2 = true ∧ u.lock = s.lock ∧ u.mem = s.mem ∧ u.tiles = s.tiles ∧ u.fab = s.fab ∧
        (¬(s.lockSt = Lock.arming ∨ s.lockSt = Lock.bound ∨ s.lockSt = Lock.freezing) → u.lockSt = s.lockSt) ∧
        (s.lockSt = Lock.bound ∨ s.lockSt = Lock.arming ∨ s.lockSt = Lock.freezing → s.num Obj.freezeAt = noStep →
          s.lastStarted + s.num Obj.systemDiameter ≠ noStep →
          u.lockSt = Lock.stalled ∧
          u.num Obj.freezeAt = s.lastStarted + s.num Obj.systemDiameter ∧ u.num Obj.freezeCause = 5)))

/-- A Running feed's oldest record goes whole into its stream's ring when it has room, with GAP after a loss, and its step waits for a verdict, or takes UNKNOWN at once where the checker runs no more; without room, or with a lock over its slots, it waits. The verdict port takes one count and reads the next verdict. A verdict for a step not waiting, or with a reserved bit, is late; one in time decides its step: ACTION 1 appends a mark, 2 captures, 3 freezes. In Bound an undecided step past its edge is MISSED, or UNKNOWN after a fault of the drawer. CaptureArm arms a ring Held or Off. -/
def Obligations.RecordsVerdictsAndCaptures : Prop :=
  (∀ (s : State) (c : Cab) (f : Fin 16) (step : Nat) (b : Bool) (l : List Byte) (rest : List (Nat × Bool × List Byte)) (m : StreamS),
      let q := 16 * c.val + f.val
      (s.feed q).queue = (step, b, l) :: rest → s.stream (s.feedKey q) = some m →
      ((s.feed q).st ≠ 2 ∨ m.desc.dir ≠ 4 ∨ m.desc.ring < m.delivered - m.freed + l.length / 256 ∨ s.lost c = true ∨
          (∃ i < l.length / 256, s.lockedAt (m.desc.slot m.tile (m.delivered + i)) 256 = true) →
        exec (.traceRecordDelivered c f) s = .next s) ∧
      ((s.feed q).st = 2 → m.desc.dir = 4 → m.delivered - m.freed + l.length / 256 ≤ m.desc.ring → s.lost c = false →
        (∀ i < l.length / 256, s.lockedAt (m.desc.slot m.tile (m.delivered + i)) 256 = false) →
        s.num (feedObj Obj.captureBase q) = 0 → s.checkerDown m.tile m.ctx = true → s.num (feedObj Obj.missPolicy q) = 0 →
        Answers (exec (.traceRecordDelivered c f) s) fun u => (u.feed q).undecided = [] ∧ (u.feed q).queue = rest ∧
          Counted Obj.recordsDelivered 1 s u ∧ (u.num Obj.traceFlags).testBit 1 =
            ((s.num Obj.traceFlags).testBit 1 || !(b && (s.feed q).undecided.isEmpty))) ∧
      ((s.feed q).st = 2 → m.desc.dir = 4 → m.delivered - m.freed + l.length / 256 ≤ m.desc.ring → s.lost c = false →
        (∀ i < l.length / 256, s.lockedAt (m.desc.slot m.tile (m.delivered + i)) 256 = false) → s.checkerDown m.tile m.ctx = false →
        s.num (feedObj Obj.captureBase q) = 0 → l.length % 256 = 0 → 8 ≤ l.length → Memory.wf 0 s.mem = true →
        Answers (exec (.traceRecordDelivered c f) s) fun u =>
          let w := l.set 7 (l.getD 7 0 ||| (if (s.feed q).gap then 1 else 0))
          (∀ i j, i < l.length / 256 → j < 256 → u.byte (m.desc.slot m.tile (m.delivered + i) + j) = w.getD (256 * i + j) 0) ∧
          (∀ a, (∀ i, i < l.length / 256 → a < m.desc.slot m.tile (m.delivered + i) ∨ m.desc.slot m.tile (m.delivered + i) + 256 ≤ a) →
            u.byte a = s.byte a) ∧
          u.stream (s.feedKey q) = some { m with
            delivered := m.delivered + l.length / 256
            issued := m.issued + l.length / 256 } ∧
          u.feed q = { s.feed q with
            queue := rest
            gap := false
            undecided := if b then (s.feed q).undecided else (s.feed q).undecided ++ [(step, false)] } ∧
          Counted Obj.recordsDelivered 1 s u ∧ KeepsObjects [Obj.recordsDelivered] s u ∧ u.tiles = s.tiles)) ∧
  (∀ (s : State) (c : Cab) (f : Fin 16) (g x : Nat), let q := 16 * c.val + f.val
      let k := s.num (feedObj Obj.verdictSemaphore q)
      (s.feed q).place = some (g, x) → (s.feed q).st = 2 → s.lost c = false →
      ((s.tile g).sema.get 0 k = 0 → exec (.verdictPortRead c f) s = .next s) ∧
      ((s.tile g).sema.get 0 k ≠ 0 → (s.img g x).semaSet.getLsbD k = true → Answers (exec (.verdictPortRead c f) s) fun u =>
        (u.tile g).sema.get 0 k = (s.tile g).sema.get 0 k - 1 ∧ u.feed q = { s.feed q with
          posted := (s.feed q).posted + 1
          verdicts := (s.feed q).verdicts ++
            [s.read (operandBase g + s.num (feedObj Obj.verdictArea q) + 16 * ((s.feed q).posted % 16)) 16] } ∧
        u = { s with
          tiles := u.tiles
          trace := u.trace } ∧ (∀ h, h ≠ g → u.tile h = s.tile h))) ∧
  (∀ (s : State) (c : Cab) (f : Fin 16) (edge : Nat), let q := 16 * c.val + f.val
      ((s.feed q).verdicts = [] → exec (.verdictTaken c f edge) s = .next s) ∧
      (∀ l rest, (s.feed q).verdicts = l :: rest → s.lockSt ≠ Lock.bound →
        let bad := bits (field l 6 1) 2 6 ≠ 0 ∨ field l 7 1 ≠ 0 ∨ field l 12 4 ≠ 0
        let known := ∃ p ∈ (s.feed q).undecided, p.1 = field l 0 6
        let left := (s.feed q).undecided.filter fun p => p.1 ≠ field l 0 6
        (bad ∨ ¬known → exec (.verdictTaken c f edge) s = .next (s.setFeed q { s.feed q with
          verdicts := rest
          late := sat32 ((s.feed q).late + 1) })) ∧
        (¬bad → known → Answers (exec (.verdictTaken c f edge) s) fun u =>
          (u.feed q).verdicts = rest ∧ (u.feed q).undecided = left ∧ (u.feed q).late = (s.feed q).late ∧
          (u.feed q).onTime = min ((s.feed q).onTime + 1) 0xFFFFFFFFFFFFFFFF ∧ Counted Obj.verdictsOnTime 1 s u ∧
          u.mem = s.mem ∧ u.tiles = s.tiles ∧
          (field l 6 1 % 4 = 0 → KeepsObjects [Obj.verdictsOnTime] s u ∧ u.trace.marks = s.trace.marks) ∧
          (field l 6 1 % 4 = 1 → Counted Obj.marks 1 s u ∧ u.num Obj.traceFlags = s.num Obj.traceFlags ||| 8 ∧
            u.trace.marks.map (·.1) = (((s.trace.marks.head?.map (·.1)).getD 0 + 1) % 2 ^ 32) :: (s.trace.marks.take 1023).map (·.1) ∧
            u.bytes Obj.lastMark = leBytes 6 (field l 0 6) ++ leBytes 1 (f.val + 16 * c.val) ++ leBytes 1 0 ++ leBytes 4 (field l 8 4) ++
              leBytes 4 (((s.trace.marks.head?.map (·.1)).getD 0 + 1) % 2 ^ 32)) ∧
          (field l 6 1 % 4 = 2 → Counted Obj.captures 1 s u ∧ u.num Obj.traceFlags = s.num Obj.traceFlags ||| 0x10 ∧
            ((s.feed q).capSt ≠ 1 → (u.feed q).capSt = (s.feed q).capSt)) ∧
          (field l 6 1 % 4 = 3 → Counted Obj.verdictFreezes 1 s u ∧ (s.lockSt = Lock.elastic → s.num Obj.freezeAt = noStep →
            0 < s.num Obj.systemDiameter → s.lastStarted + s.num Obj.systemDiameter ≠ noStep → u.lockSt = Lock.freezing ∧
            u.num Obj.freezeAt = s.lastStarted + s.num Obj.systemDiameter ∧ u.num Obj.freezeCause = 3))))) ∧
  (∀ (s : State) (c : Cab) (f : Fin 16) (edge : Nat), let q := 16 * c.val + f.val
      (s.lockSt ≠ Lock.bound ∨ s.num (feedObj Obj.feedEnable q) ≠ 1 → exec (.verdictDeadline c f edge) s = .next s) ∧
      (∀ step b e, s.lockSt = Lock.bound → s.num (feedObj Obj.feedEnable q) = 1 → (s.feed q).undecided = [(step, b)] → (s.feed q).queue = [] →
        s.assigned (step + s.num (feedObj Obj.verdictLatency q)) = some e → e ≤ edge → s.missAt edge = false →
        s.num (feedObj Obj.missPolicy q) = 0 → Answers (exec (.verdictDeadline c f edge) s) fun u =>
          u.feed q = { s.feed q with
            undecided := []
            misses := if b then (s.feed q).misses else sat32 ((s.feed q).misses + 1)
            unknown := if b then sat32 ((s.feed q).unknown + 1) else (s.feed q).unknown } ∧
          CountedIf (!b) Obj.verdictMisses s u ∧ CountedIf b Obj.unknownVerdicts s u ∧
          u.num Obj.traceFlags = s.num Obj.traceFlags ||| (if b then 2 else 1) ∧ u.lock = s.lock ∧
          ChangesOnly [Obj.verdictMisses, Obj.unknownVerdicts, Obj.traceFlags] { s with trace := u.trace } u)) ∧
  (∀ (s : State) (q : Req) (val : List Byte), Admitted q Obj.captureArm val s → let n := leNat val
      (s.blockHeld (0x18 + n / 16) = true ∨ s.inCReset (n / 16) = true → exec (.captureArm q val) s =
        .next (Denied q Obj.captureArm Err.refusedInState (Arrived q s))) ∧
      (s.blockHeld (0x18 + n / 16) = false → s.inCReset (n / 16) = false → s.num (feedObj Obj.captureBase n) ≠ 0 →
        (s.feed n).capSt = 0 ∨ (s.feed n).capSt = 3 → Carries q Obj.captureArm (exec (.captureArm q val) s) fun u =>
          u.feed n = { s.feed n with
            capNewest := none
            capSt := 1 } ∧ u.mem = s.mem ∧ u.lock = s.lock ∧ KeepsObjects [] (Arrived q s) u) ∧
      (s.blockHeld (0x18 + n / 16) = false → s.inCReset (n / 16) = false →
        s.num (feedObj Obj.captureBase n) = 0 ∨ ((s.feed n).capSt ≠ 0 ∧ (s.feed n).capSt ≠ 3) →
        exec (.captureArm q val) s = .next (Replied q Obj.captureArm (Arrived q s))))

/-- PortEnable 1 starts a Disabled port, with a fresh link layer, once the exit has passed step 8, and does nothing else; 0 disables one neither Lost nor in Test and drops its flits. Bring-up with the configured FEC leads to Qualifying, with another leaves the lanes locked and sets a flag; a clean window leads Up with the link layer kept, the 256th bad one back to BringUp. A window of an Up port counts the lanes that lost lock; a loss counts a retrain and leads to BringUp; the limit leads to Failed with its record. LaneTest is refused outside Disabled and Test; eye and checker results stand only in Up and Test. -/
def Obligations.PortsTrainAndTest : Prop :=
  (∀ (s : State) (q : Req) (p : PortNo) (val : List Byte), Admitted q (Obj.portEnable + p) val s →
      (leNat val = 1 → s.portSt p = Port.disabled → 8 ≤ s.rst.exitDone →
        Carries q (Obj.portEnable + p) (exec (.portEnable q p val) s) fun u => u.portSt p = Port.bringUp ∧ u.port p = PeerPort.fresh ∧
          (∀ l ∈ portLanes p, u.num (Obj.laneState + l) = 1 ∧ u.num (Obj.eyeMargin + l) = 0) ∧ u.num (Obj.portEnable + p) = 1 ∧
          (∀ r : PortNo, r ≠ p → u.portSt r = s.portSt r ∧ u.port r = s.port r) ∧ u.mem = s.mem) ∧
      (leNat val = 1 → ¬(s.portSt p = Port.disabled ∧ 8 ≤ s.rst.exitDone) →
        Carries q (Obj.portEnable + p) (exec (.portEnable q p val) s) fun u => u.portSt p = s.portSt p ∧ u.net = s.net ∧ u.mem = s.mem) ∧
      (leNat val ≠ 1 → s.portSt p ≠ Port.lost → s.portSt p ≠ Port.test →
        Carries q (Obj.portEnable + p) (exec (.portEnable q p val) s) fun u => u.portSt p = Port.disabled ∧ (u.port p).queue = [] ∧
          (u.port p).retry = [] ∧ u.num (Obj.portEnable + p) = 0 ∧ (∀ l ∈ portLanes p, u.num (Obj.laneState + l) = 0) ∧
          (∀ r : PortNo, r ≠ p → u.portSt r = s.portSt r ∧ u.port r = s.port r) ∧ u.mem = s.mem)) ∧
  (∀ (s : State) (p : PortNo) (fec : BitVec 4),
      (s.portSt p ≠ Port.bringUp → exec (.bringUpDone p fec) s = .next s) ∧
      (s.portSt p = Port.bringUp → fec.toNat ≠ s.num (Obj.portFec + p) → Answers (exec (.bringUpDone p fec) s) fun u =>
        u.num Obj.linkFlags = s.num Obj.linkFlags ||| 0x10 ∧ (∀ l ∈ portLanes p, u.num (Obj.laneState + l) = 2) ∧
        ChangesOnly (Obj.linkFlags :: (portLanes p).map (Obj.laneState + ·)) s u) ∧
      (s.portSt p = Port.bringUp → fec.toNat = s.num (Obj.portFec + p) → Answers (exec (.bringUpDone p fec) s) fun u =>
        u.portSt p = Port.qualifying ∧ (u.train p).failedWindows = 0 ∧ u.port p = s.port p ∧
        (∀ l ∈ portLanes p, u.num (Obj.laneState + l) = 3) ∧ u.mem = s.mem ∧ ∀ r : PortNo, r ≠ p → u.portSt r = s.portSt r)) ∧
  (∀ (s : State) (p : PortNo) (c n : Nat), s.portSt p = Port.qualifying →
      let good := n = 0 ∧ c ≤ s.num Obj.linkUpMaxCorrected
      Answers (exec (.qualifyWindow p c n) s) fun u => Counted (Obj.codewordsUncorrectable + p) n s u ∧ u.port p = s.port p ∧ u.mem = s.mem ∧
        (good → u.portSt p = Port.up ∧ (∀ l ∈ portLanes p, u.num (Obj.laneState + l) = 4)) ∧
        (¬good → (s.train p).failedWindows = 255 → u.portSt p = Port.bringUp ∧ (u.train p).failedWindows = 0) ∧
        (¬good → (s.train p).failedWindows ≠ 255 → u.portSt p = Port.qualifying ∧
          (u.train p).failedWindows = (s.train p).failedWindows + 1)) ∧
  (∀ (s : State) (p : PortNo) (l : List (Fin 8)) (m : Bool) (c n : Nat),
      (s.portSt p ≠ Port.up → exec (.linkLoss p ⟨l, m⟩ c n) s = .next s) ∧
      (s.portSt p = Port.up → Answers (exec (.linkLoss p ⟨l, m⟩ c n) s) fun u =>
        (∀ k : Fin 8, CountedIf (decide (k ∈ l)) (Obj.cdrLockLosses + (portLanes p).getD k 0) s u) ∧ Counted (Obj.codewordsUncorrectable + p) n s u ∧
        u.port p = s.port p ∧ u.mem = s.mem ∧
        (if l = [] ∧ m = false ∧ n < s.num Obj.linkDownUncorrectable then u.portSt p = Port.up ∧ u.num (Obj.retrains + p) = s.num (Obj.retrains + p)
         else u.portSt p = Port.bringUp ∧ Counted (Obj.retrains + p) 1 s u ∧ u.num Obj.linkFlags = s.num Obj.linkFlags ||| 1 ∧
          (u.train p).kept = true))) ∧
  (∀ (s : State) (t : Nat) (p : PortNo), s.portSt p = Port.bringUp ∨ s.portSt p = Port.qualifying →
      let at' := max s.now (max t ((s.train p).downAt + 1000000 * s.num Obj.portDownLimitMs))
      Answers (exec (.portDownLimit t p) s) fun u => u.portSt p = Port.failed ∧ (u.num Obj.linkFlags).testBit 1 = true ∧
        (u.port p).queue = [] ∧ (u.port p).retry = [] ∧ u.now = at' ∧
        Logged { FaultRec.device at' 0x0C 7 with syn := p.val } 0xFF s u ∧ u.mem = s.mem ∧ u.tiles = s.tiles ∧
        ((s.port p).queue.length + (s.port p).retry.length ≠ 0 →
          Counted Obj.routeDiscards ((s.port p).queue.length + (s.port p).retry.length) s u)) ∧
  (∀ (s : State) (q : Req) (lane : Fin 192) (val : List Byte), Admitted q (Obj.laneTest + lane) val s → let p := lanePort lane
      (¬(s.portSt p = Port.disabled ∨ s.portSt p = Port.test) ∨ s.num (Obj.portEnable + p) = 1 →
        exec (.laneTest q lane val) s = .next (Denied q (Obj.laneTest + lane) Err.refusedInState (Arrived q s))) ∧
      (s.portSt p = Port.disabled ∨ s.portSt p = Port.test → s.num (Obj.portEnable + p) ≠ 1 →
        Carries q (Obj.laneTest + lane) (exec (.laneTest q lane val) s) fun u => u.num (Obj.prbsLocked + lane) = 0 ∧
          u.num (Obj.laneTest + lane) = leNat val ∧ u.mem = s.mem ∧ u.net = s.net ∧
          u.portSt p = (if leNat val ≠ 0 ∨ ∃ l ∈ portLanes p, l ≠ lane ∧ s.num (Obj.laneTest + l) ≠ 0 then Port.test else Port.disabled) ∧
          (leNat val ≠ 0 → u.num (Obj.laneState + lane) = 5))) ∧
  (∀ (s : State) (lane : Fin 192) (m : BitVec 16),
      exec (.eyeSweep lane m) s = .next (if s.portSt (lanePort lane) = Port.up then s.setNum (Obj.eyeMargin + lane) m.toNat else s)) ∧
  (∀ (s : State) (lane : Fin 192) (n : Nat), let v := s.num (Obj.laneTest + lane)
      (s.portSt (lanePort lane) = Port.test → v % 4 ≠ 3 → v / 4 % 4 ≠ 0 → Answers (exec (.prbsLock lane n) s) fun u =>
        u.num (Obj.prbsLocked + lane) = 1 ∧ Counted (Obj.prbsErrors + lane) n s u ∧
        ChangesOnly [Obj.prbsLocked + lane, Obj.prbsErrors + lane] s u) ∧
      (s.portSt (lanePort lane) ≠ Port.test ∨ v % 4 = 3 ∨ v / 4 % 4 = 0 → exec (.prbsLock lane n) s = .next s))

/-- A block as the sender forms it, with the sequence number expected, is accepted by an Up port: its flit reaches the service here, its credits count and the next number is expected; one too early brings one NAK, one with a bad CRC too, counted. Sending puts the one waiting flit in the block and in the retry buffer and spends its credit, and the block's bits go to the lanes; a resend comes first and counts. A NAK resends all that is not acknowledged. A remote READ answers with the bytes, a WRITE stores them; one to a cabinet that changes its operating point waits; a response completes its own request, and any other is late; a timeout completes one as uncorrectable. A target word reaches the bridge and counts. -/
def Obligations.LinkLayerAndRemoteAccess : Prop :=
  (∀ (s : State) (t : Nat) (p : Fin 16) (l : List Byte) (b : Bool), s.portSt p ≠ Port.up →
      exec (.linkBlockReceive t p l b) s = .next s ∧ exec (.linkBlockSend p) s = .next s) ∧
  (∀ (s : State) (t : Nat) (p : Fin 16) (l : List Byte) (b : Bool), s.portSt p = Port.up →
      b = true ∨ crc32c (l.take 268) ≠ field l 268 4 → Answers (exec (.linkBlockReceive t p l b) s) fun u =>
        CountedIf (!b) (Obj.flitCrcErrors + p) s u ∧ u.port p = (s.port p).reject ∧ u.net.inbox = s.net.inbox ∧
        u = { s with
          now := max s.now t
          obj := u.obj
          net := u.net } ∧ KeepsObjects [Obj.flitCrcErrors + p] s u) ∧
  (∀ (s : State) (t : Nat) (p : Fin 16) (f : Flit) (seq cvc credit : Nat), s.portSt p = Port.up → f.vc = 0 → f.mcast = false →
      f.dest = s.device → f.source < 4096 → f.ttl < 128 → f.body.length = 256 → seq < 4096 → cvc < 4 → credit < 64 →
      (s.port p).rxFresh = false → s.device < 4096 →
      let block := linkBlock seq (some f) false cvc credit none false
      let q := s.port p
      (seq = q.rxNext → Answers (exec (.linkBlockReceive t p block false) s) fun u =>
        u.net.inbox = s.net.inbox ++ [(f.source, f.body)] ∧ Counted (Obj.flitsReceived + p) 1 s u ∧ u.port p = { q with
          credits := setAt q.credits cvc (q.credits.getD cvc 0 + credit)
          rxSync := false
          rxNext := (seq + 1) % 4096
          nakSent := false
          nakDue := false
          give := setAt q.give 0 (q.give.getD 0 0 + 1) } ∧ KeepsObjects [Obj.flitsReceived + p] s u ∧ u.mem = s.mem) ∧
      (seq ≠ q.rxNext → Answers (exec (.linkBlockReceive t p block false) s) fun u => u.net.inbox = s.net.inbox ∧ u.obj = s.obj ∧
        (u.port p).rxNext = q.rxNext ∧ (u.port p).nakDue = (q.nakDue || (!q.nakSent && decide (2048 < seqDist seq q.rxNext))))) ∧
  (∀ (s : State) (p : Fin 16), s.portSt p = Port.up → let q := s.port p
      (∀ inp f, q.resend = [] → q.queue = [(inp, f)] → inp < 17 → f.vc < 4 → 0 < q.credits.getD f.vc 0 → q.retry.length < 512 →
        Answers (exec (.linkBlockSend p) s) fun u => Counted (Obj.flitsSent + p) 1 s u ∧ (u.port p).queue = [] ∧
          (u.port p).retry = q.retry ++ [(q.txSeq, f)] ∧ (u.port p).txSeq = (q.txSeq + 1) % 4096 ∧
          (u.port p).credits = setAt q.credits f.vc (q.credits.getD f.vc 0 - 1) ∧
          (∃ b o, u.out = o ++ .block p b :: s.out ∧ (∀ x ∈ o, ∃ k y, x = .symbols k y) ∧ field b 0 2 % 4096 = q.txSeq % 4096 ∧ (f.body.length = 256 → slice b 12 256 = f.body)) ∧
          KeepsObjects [Obj.flitsSent + p] s u ∧ u.mem = s.mem) ∧
      (∀ n r, q.resend = n :: r → Answers (exec (.linkBlockSend p) s) fun u => Counted (Obj.flitReplays + p) 1 s u ∧
        Counted (Obj.flitsSent + p) 1 s u ∧ (u.port p).resend = r ∧ (u.port p).queue = q.queue ∧ (u.port p).retry = q.retry ∧
        (u.port p).txSeq = q.txSeq ∧ KeepsObjects [Obj.flitReplays + p, Obj.flitsSent + p] s u) ∧
      (q.resend = [] → q.queue = [] → Answers (exec (.linkBlockSend p) s) fun u => u.obj = s.obj ∧ (u.port p).retry = q.retry ∧
        (u.port p).txSeq = q.txSeq ∧ ∃ b o, u.out = o ++ .block p b :: s.out ∧ (∀ x ∈ o, ∃ k y, x = .symbols k y) ∧ (field b 4 2).testBit 12 = true)) ∧
  (∀ (s : State) (p : Fin 16) (n : BitVec 12), let q := s.port p
      Answers (exec (.nak p n) s) fun u => (u.port p).resend = (u.port p).retry.map (·.1) ∧ u = { s with net := u.net } ∧
        (q.retry.all (·.1 ≠ n.toNat) = true → (u.port p).retry = q.retry) ∧
        (∀ a r, q.retry = a :: r → a.1 = n.toNat → a.1 < 4096 → (∀ e ∈ r, e.1 ≠ a.1 ∧ e.1 < 4096) → (u.port p).retry = r)) ∧
  (∀ (s : State) (p : Fin 16), exec (.replayTimeout p) s =
      .next (if (s.port p).retry = [] then s else s.setPort p { s.port p with resend := (s.port p).retry.map (·.1) })) ∧
  (∀ (s : State) (src : BitVec 12), (∀ e ∈ s.net.inbox, e.1 ≠ src.toNat) →
      exec (.remoteRequest src) s = .next s ∧ exec (.remoteResponse src) s = .next s) ∧
  (∀ (s : State) (src tag : BitVec 12) (len a op : Nat) (rest : List (Nat × List Byte)), a < 2 ^ 48 → s.changing a = true → op = 1 ∨ op = 2 →
      s.net.inbox = (src.toNat, vc0Header op len tag.toNat 0 a) :: rest → exec (.remoteRequest src) s = .next s) ∧
  (∀ (s : State) (src tag : BitVec 12) (len a : Nat) (d : List Byte) (p : Nat) (rest : List (Nat × List Byte)), src.toNat ≠ s.device →
      len < 4 → a < 2 ^ 48 → s.changing a = false → (∀ i, i < len + 1 → s.peerAccess (a + 64 * i) = .ok) → s.routeEntry 16 src.toNat = (p, 0) →
      s.num (Obj.portState + p) = 3 → d.length = 256 → Memory.wf 0 s.mem = true → (∀ e ∈ rest, e.1 ≠ src.toNat) →
      let fl (b : List Byte) : Nat × Flit := (16, ⟨0, false, src.toNat, s.device, 127, b ++ List.replicate (256 - b.length) 0⟩)
      (s.net.inbox = (src.toNat, vc0Header 1 len tag.toNat 0 a) :: rest → Answers (exec (.remoteRequest src) s) fun u =>
        u.net.inbox = rest ∧ u.mem = s.mem ∧ u.obj = s.obj ∧
        (u.port p).queue = (s.port p).queue ++ [fl (vc0Header 3 len tag.toNat 0 0), fl (s.read a (64 * (len + 1)))]) ∧
      (s.net.inbox = (src.toNat, vc0Header 2 len tag.toNat 0 a) :: (src.toNat, d) :: rest → Answers (exec (.remoteRequest src) s) fun u =>
        u.net.inbox = rest ∧ u.obj = s.obj ∧ (∀ i, i < 64 * (len + 1) → u.byte (a + i) = d.getD i 0) ∧
        (∀ b, b < a ∨ a + 64 * (len + 1) ≤ b → u.byte b = s.byte b) ∧
        (u.port p).queue = (s.port p).queue ++ [fl (vc0Header 4 len tag.toNat 0 0)])) ∧
  (∀ (s : State) (src tag : BitVec 12) (len : Nat) (d : List Byte) (rest : List (Nat × List Byte)), len < 4 →
      (∀ e ∈ rest, e.1 ≠ src.toNat) → s.net.inbox = (src.toNat, vc0Header 3 len tag.toNat 0 0) :: (src.toNat, d) :: rest →
      (∀ r, s.net.reqs.find? tag.toNat = some r → r.dev = src.toNat → Answers (exec (.remoteResponse src) s) fun u =>
        u.net.done.find? r.who = some (.ok, d.take (64 * (len + 1))) ∧ u.net.inbox = rest ∧ u.obj = s.obj ∧ u.mem = s.mem ∧
        (Tab.sorted s.net.reqs = true → u.net.reqs.find? tag.toNat = none)) ∧
      ((∀ r, s.net.reqs.find? tag.toNat = some r → r.dev ≠ src.toNat) → Answers (exec (.remoteResponse src) s) fun u =>
        Counted Obj.lateResponses 1 s u ∧ u.net.inbox = rest ∧ u.net.reqs = s.net.reqs ∧ u.net.done = s.net.done ∧ u.mem = s.mem)) ∧
  (∀ (s : State) (tag : BitVec 12),
      (s.net.reqs.find? tag.toNat = none → exec (.remoteTimeout tag) s = .next s) ∧
      (∀ r, s.net.reqs.find? tag.toNat = some r → Answers (exec (.remoteTimeout tag) s) fun u =>
        u.net.done.find? r.who = some (.uncorrectable, []) ∧ Counted Obj.remoteTimeouts 1 s u ∧
        u.num Obj.linkFlags = s.num Obj.linkFlags ||| 0x20 ∧ u.mem = s.mem)) ∧
  (∀ (s : State) (c : Cab) (l : List Byte) (b : Bool),
      (s.portSt (16 + c) ≠ Port.up → exec (.targetBlockReceive c l b) s = .next s) ∧
      (s.portSt (16 + c) = Port.up → b = false → crc16 (l.take 66) = field l 66 2 →
        s.num (Obj.targetBridgeState + c) = 1 → s.stepAt c bridgePos 3 = true → (s.bridge c).rx.length < 256 →
        exec (.targetBlockReceive c l b) s = .next (if (field l 0 1).testBit 1 then s else
          (s.bump (Obj.flitsReceived + 16 + c.val) 1).setBridge c ⟨(s.bridge c).rx ++ [((field l 0 1).testBit 0, (s.bridge c).gap, slice l 2 64)], false⟩)) ∧
      (s.portSt (16 + c) = Port.up → b = true ∨ crc16 (l.take 66) ≠ field l 66 2 → s.num (Obj.targetBridgeState + c) = 1 →
        s.stepAt c bridgePos 3 = true → Answers (exec (.targetBlockReceive c l b) s) fun u =>
          CountedIf (!b) (Obj.flitCrcErrors + 16 + c) s u ∧ Counted Obj.targetRxErrors 1 s u ∧
          u.num Obj.fabricFlags = s.num Obj.fabricFlags ||| 0x20 ∧ (u.bridge c).gap = true ∧ (u.bridge c).rx = (s.bridge c).rx))

/-- With the link Up a BAR2 read answers the bytes at Bar2Aperture plus its offset, or Completer Abort with one error counted when a piece fails; a write stores its good pieces and no others, counting one error for the rest; with it down, or while a piece lies in a cabinet that changes its operating point, neither does anything. The aperture follows its write. A pending vector sends its one message when unmasked. A failed host read counts by its kind; the link leaves and enters Up with its width and rate; a hot reset clears the function's state and keeps the owner. -/
def Obligations.HostRequestsAndLink : Prop :=
  (∀ (s : State) (off : BitVec 38) (n : Nat) (d : List Byte) (e : List (Nat × MemStatus)), s.num Obj.hostLinkState ≠ 2 →
      exec (.bar2Read off n e) s = .next s ∧ exec (.bar2Write off d e) s = .next s) ∧
  (∀ (s : State) (off : BitVec 38) (n i : Nat) (d : List Byte) (e : List (Nat × MemStatus)),
      let a := s.num Obj.bar2Aperture + off.toNat
      s.changing (a / 64 * 64 + 64 * i) = true →
      (i < (a % 64 + n + 63) / 64 → exec (.bar2Read off n e) s = .next s) ∧
      (i < (a % 64 + d.length + 63) / 64 → exec (.bar2Write off d e) s = .next s)) ∧
  (∀ (s : State) (off : BitVec 38) (n : Nat) (e : List (Nat × MemStatus)), s.num Obj.hostLinkState = 2 →
      let a := s.num Obj.bar2Aperture + off.toNat
      let good := ∀ i, i < (a % 64 + n + 63) / 64 → s.pieceStatus e i (a / 64 * 64 + 64 * i) = .ok
      (∀ i, i < (a % 64 + n + 63) / 64 → s.changing (a / 64 * 64 + 64 * i) = false) →
      (good → exec (.bar2Read off n e) s = .next (s.emit (.hostData (s.read a n)))) ∧
      (¬good → Answers (exec (.bar2Read off n e) s) fun u => u.out = .completerAbort :: s.out ∧ Counted Obj.bar2Errors 1 s u ∧
        u.num Obj.hostFlags = s.num Obj.hostFlags ||| 1 ∧ ChangesOnly [Obj.bar2Errors, Obj.hostFlags] { s with out := u.out } u)) ∧
  (∀ (s : State) (off : BitVec 38) (d : List Byte) (e : List (Nat × MemStatus)), s.num Obj.hostLinkState = 2 →
      Memory.wf 0 s.mem = true →
      let a := s.num Obj.bar2Aperture + off.toNat
      let good (i : Nat) : Prop := s.pieceStatus e i (a / 64 * 64 + 64 * i) = .ok
      (∀ i, i < (a % 64 + d.length + 63) / 64 → s.changing (a / 64 * 64 + 64 * i) = false) →
      Answers (exec (.bar2Write off d e) s) fun u =>
        (∀ j, j < d.length → u.byte (a + j) = if good ((a + j) / 64 - a / 64) then d.getD j 0 else s.byte (a + j)) ∧
        (∀ b, b < a ∨ a + d.length ≤ b → u.byte b = s.byte b) ∧
        ((∀ i, i < (a % 64 + d.length + 63) / 64 → good i) → u = { s with mem := u.mem }) ∧
        (¬(∀ i, i < (a % 64 + d.length + 63) / 64 → good i) → Counted Obj.bar2Errors 1 s u ∧
          u.num Obj.hostFlags = s.num Obj.hostFlags ||| 1 ∧ ChangesOnly [Obj.bar2Errors, Obj.hostFlags] { s with mem := u.mem } u)) ∧
  (∀ (s : State) (q : Req) (val : List Byte), Admitted q Obj.bar2Aperture val s →
      Carries q Obj.bar2Aperture (exec (.bar2ApertureWrite q val) s) fun u => u.num Obj.bar2Aperture = leNat val ∧ u.mem = s.mem ∧
        KeepsObjects [Obj.bar2Aperture] (Arrived q s) u) ∧
  (∀ (s : State) (v : Fin 2048), Answers (exec (.msixUnmask v) s) fun u => v.val ∈ u.host.unmasked ∧ u.host.msixEnable = true ∧
      u.obj = s.obj ∧ (s.host.busMaster = true → s.host.pendingVec = [v.val] → u.out = .msix v :: s.out ∧ u.host.pendingVec = []) ∧
      (s.host.pendingVec = [] ∨ s.host.busMaster = false → u.out = s.out) ∧ u = { s with
        out := u.out
        host := u.host }) ∧
  (∀ (s : State) (tag : Nat) (st : MemStatus) (late : Bool) (d : List Byte), Answers (exec (.hostReadCompletion tag st late d) s) fun u =>
      CountedIf late Obj.hostReadTimeouts s u ∧ CountedIf (!late && decide (st ≠ .ok)) Obj.hostUncorrectable s u ∧
      u.num Obj.hostFlags = (if late then s.num Obj.hostFlags ||| 2 else if st = .ok then s.num Obj.hostFlags else s.num Obj.hostFlags ||| 4) ∧
      ChangesOnly [Obj.hostReadTimeouts, Obj.hostUncorrectable, Obj.hostFlags] s u) ∧
  (∀ s : State, (s.num Obj.hostLinkState ≠ 2 → exec .hostLinkDown s = .next s) ∧
      (s.num Obj.hostLinkState = 2 → Answers (exec .hostLinkDown s) fun u => u.num Obj.hostLinkState = 1 ∧ u.num Obj.hostLinkWidth = 0 ∧
        u.num Obj.hostLinkRate = 0 ∧ Counted Obj.hostLinkDowns 1 s u ∧ u.num Obj.hostFlags = s.num Obj.hostFlags ||| 8 ∧
        ChangesOnly [Obj.hostLinkState, Obj.hostLinkWidth, Obj.hostLinkRate, Obj.hostLinkDowns, Obj.hostFlags] s u)) ∧
  (∀ (s : State) (w : BitVec 8) (r : BitVec 16), s.dict.held = [] → RingServed s →
      (s.num Obj.hostLinkState ≠ 1 ∨ w.toNat ∉ [4, 8, 16] ∨ r.toNat ∉ [25, 50, 80, 160, 320, 640, 1280] →
        exec (.hostLinkUp w r) s = .next s) ∧
      (s.num Obj.hostLinkState = 1 → w.toNat ∈ [4, 8, 16] → r.toNat ∈ [25, 50, 80, 160, 320, 640, 1280] →
        Answers (exec (.hostLinkUp w r) s) fun u => u.num Obj.hostLinkState = 2 ∧ u.num Obj.hostLinkWidth = w.toNat ∧
          u.num Obj.hostLinkRate = r.toNat ∧ ChangesOnly [Obj.hostLinkState, Obj.hostLinkWidth, Obj.hostLinkRate] s u)) ∧
  (∀ (s : State) (b : Bool), Answers (exec (.busMasterEnable b) s) fun u =>
      (b = false → u = { s with host := { s.host with busMaster := false } }) ∧
      (s.dict.held = [] → RingServed s → u.host.busMaster = b ∧ u.obj = s.obj ∧ u.mem = s.mem ∧ u.tiles = s.tiles)) ∧
  (∀ s : State, (s.num Obj.hostLinkState = 0 → exec .hotReset s = .next s) ∧
      (s.num Obj.hostLinkState ≠ 0 → Answers (exec .hotReset s) fun u => u.num Obj.hostLinkState = 1 ∧ Counted Obj.hotResets 1 s u ∧
        CountedIf (decide (s.num Obj.hostLinkState = 2)) Obj.hostLinkDowns s u ∧ u.num Obj.owner = s.num Obj.owner ∧ u.own = s.own ∧
        u.host = { s.host with
          busMaster := false
          msixEnable := false
          table := []
          unmasked := []
          pendingVec := [] } ∧ u.mem = s.mem ∧ u.tiles = s.tiles))

/-- RST_IN low for 1 µs, PERST, a thermal trip, a shared supply fault, an accepted D software reset, the loss of lock of a device PLL, and a primary failing without a mirrored standby each reset the device and latch their cause; RST_IN below 100 ns does nothing. At power-on every object is at its default and only the flash keeps its bytes. A source not asserted releases nothing; the last one released begins the exit at its first step. The exit takes its steps in their order only; failed trim loads stop it, and step 10 makes the device Operational. -/
def Obligations.ResetsOfTheDevice : Prop :=
  (∀ s : State, Answers (exec .powerOn s) fun u => u.obj = State.reset.obj ∧ u.tiles = [] ∧ u.jobs.jobs = [] ∧ u.rst = State.reset.rst ∧
      u.jtag = State.reset.jtag ∧ u.pending = s.pending ∧ u.store.flash = s.store.flash ∧ (∀ e ∈ u.mem, inCxl e.1 = true ∧ e ∈ s.mem)) ∧
  (∀ s : State, (Answers (exec .perst s) (ResetBy .perst s)) ∧ (Answers (exec (.supplyFault none) s) fun u => ResetBy .supply s u ∧
        u.rst.faults = s.rst.faults + 1 ∧ u.rst.module = true) ∧
      (Answers (exec .thermalTrip s) fun u => ResetBy .thermal s u ∧ u.rst.trips = s.rst.trips + 1)) ∧
  (∀ (s : State) (n : Nat), (n < 100 → exec (.rstIn n) s = .next s) ∧ (1000 ≤ n → Answers (exec (.rstIn n) s) (ResetBy .rstIn s)) ∧
      Answers (exec (.rstIn n) s) fun u => u.obj = s.obj ∨ u.obj = State.reset.obj) ∧
  (∀ (s : State) (q : Req) (val : List Byte), Admitted q Obj.softwareReset val s → leNat val % 4 = 1 →
      Answers (exec (.softwareResetD q val) s) (ResetBy .software s)) ∧
  (∀ (s : State) (d : Fin 25), s.rst.exitDone < 3 ∨ s.pllDomain d = false → exec (.pllLockLoss d) s = .next s) ∧
  (∀ (s : State) (d : Fin 9), 3 ≤ s.rst.exitDone → s.pllDomain (16 + d) = true →
      Answers (exec (.pllLockLoss ⟨16 + d, by omega⟩) s) (ResetBy (.pllDevice d) s)) ∧
  (∀ s : State, s.serving = true → s.num Obj.standbyState ≠ 3 → (Answers (exec .watchdogExpiry s) (ResetBy .critical s)) ∧
      Answers (exec (.complexCriticalError true) s) (ResetBy .critical s)) ∧
  (∀ (s : State) (src : ResetSource), (src ∉ s.rst.asserted → exec (.resetRelease src) s = .next s) ∧
      (src ∈ s.rst.asserted → Answers (exec (.resetRelease src) s) fun u => u.rst.asserted = s.rst.asserted.filter (· ≠ src) ∧
        u.mem = s.mem ∧ u.tiles = s.tiles ∧
        (src.cabinet = none → (∀ r ∈ s.rst.asserted, r ≠ src → r.cabinet ≠ none) →
          u.num Obj.startupStep = (if s.rst.module then 1 else 2) ∧ u.rst.exitDone = 0 ∧ u.rst.releasedAt = s.now ∧
          u.sec.nodeId = Config.strapNodeId.toNat ∧ u.sec.bootSel = Config.strapBootSel.toNat ∧
          u.num Obj.debugEnabled = b2n Config.strapDebugEn) ∧
        (src.cabinet ≠ none → u.obj = s.obj))) ∧
  (∀ (s : State) (n : Fin 11) (l : List Nat),
      (s.inReset = true ∨ s.num Obj.deviceState ≠ 1 ∨ n.val ≠ s.nextExit → exec (.deviceExit n l) s = .next s) ∧
      (s.inReset = false → s.num Obj.deviceState = 1 → n.val = s.nextExit →
        (n.val = 2 → l.length < 3 → Answers (exec (.deviceExit n l) s) fun u => u.rst.exitDone = 2 ∧ u.num Obj.startupStep = 3 ∧
          u.num Obj.trimLoads = l.length + 1 ∧ KeepsObjects [Obj.startupStep, Obj.trimLoads] s u) ∧
        (n.val = 2 → 3 ≤ l.length → Answers (exec (.deviceExit n l) s) fun u => u.num Obj.failedStep = 2 ∧ u.num Obj.deviceState = 3 ∧
          u.rst = s.rst) ∧
        (n.val = 3 → Answers (exec (.deviceExit n l) s) fun u => u.rst.exitDone = 3 ∧ u.num Obj.startupStep = 4 ∧ u.num Obj.hostLinkState = 1 ∧
          u.num Obj.oscillatorState = 1 ∧
          ∀ d : Fin 25, u.num (Obj.clockState + d) = (if d.val < 16 ∧ s.inCReset (d.val % 8) = true then 1 else 2)) ∧
        (n.val = 10 → Answers (exec (.deviceExit n l) s) fun u => u.num Obj.deviceState = 2 ∧ u.rst.exitDone = 10 ∧
          Counted Obj.resetCount 1 s u ∧ u.num Obj.startupTimeUs = min ((s.now - s.rst.releasedAt) / 1000) 0xFFFFFFFF ∧
          u.num Obj.resetCause = (if s.rst.causes.testBit 0 then 1 else s.rst.causes) ∧ u.mem = s.mem ∧ u.tiles = s.tiles)))

/-- A C reset of a cabinet in work empties its tiles and memories, counts and leaves it Recovering with its sources asserted; other cabinets keep theirs, and a save area in it is lost. A B reset of a busy block is refused; else it counts and, with HOLD, holds the block until ReleaseReset. The exit of a cabinet takes its steps in order, is lost where trims fail, and ends Ready. A rested active cabinet parks with its clock stopped and wakes to run again. -/
def Obligations.ResetsOfCabinetsAndBlocks : Prop :=
  (∀ (s : State) (c : Cab) (q : Req) (val : List Byte) (dom : Fin 25), s.inReset = false → s.lost c = false → s.jobsAt c = [] →
      s.pagesAt c = [] →
      let reset (src : ResetSource) (u : State) : Prop := src ∈ u.rst.asserted ∧ u.inCReset c = true ∧ u.num (Obj.cabinetHealth + c) = 2 ∧
        u.num (Obj.clockState + c) = 1 ∧ Counted Obj.cabinetResets 1 s u ∧ u.tiles = s.tiles.filter (fun e => e.1 / 150 ≠ c.val) ∧
        u.mem = s.mem.filter (fun e => !cabHolds c e.1) ∧
        (∀ id j, s.job id = some j → u.job id = some (if (j.saved.map fun v => v.stoodIn c).getD false then { j with saveLost := true } else j)) ∧ (∀ f, farCab f = c.val → u.frame f = zeroFrame) ∧
        (∀ d : Cab, d ≠ c → u.inCReset d = s.inCReset d ∧ u.num (Obj.cabinetHealth + d) = s.num (Obj.cabinetHealth + d))
      (Admitted q Obj.softwareReset val s → leNat val % 4 = 2 → leNat val / 256 % 256 = c.val → s.rst.soft = none →
        Answers (exec (.softwareResetC q val) s) (reset (.softCabinet c))) ∧
      (3 ≤ s.rst.exitDone → dom.val < 16 → dom.val % 8 = c.val → Answers (exec (.pllLockLoss dom) s) fun u => reset (.pllCabinet c) u ∧
        Counted Obj.pllLockLosses 1 s u ∧ u.num Obj.clockFlags = s.num Obj.clockFlags ||| 1)) ∧
  (∀ (s : State) (q : Req) (val : List Byte), Admitted q Obj.softwareReset val s → leNat val % 4 = 3 → s.rst.soft = none →
      let t := leNat val / 256 % 256
      (s.blockIdle t = false → exec (.softwareResetB q val) s = .next (Denied q Obj.softwareReset Err.refusedInState (Arrived q s))) ∧
      (s.blockIdle t = true → Answers (exec (.softwareResetB q val) s) fun u => Counted Obj.blockResets 1 s u ∧ u.mem = s.mem ∧
        u.tiles = s.tiles ∧ u.jobs = s.jobs ∧ u.fab = s.fab ∧ u.rst.soft = none ∧
        u.rst.heldBlocks = (if (leNat val).testBit 2 = true ∧ t ∉ s.rst.heldBlocks then s.rst.heldBlocks ++ [t] else s.rst.heldBlocks) ∧
        ((leNat val).testBit 2 = true → t ∉ s.rst.heldBlocks → u.num Obj.heldResets = s.rst.heldBlocks.length + 1) ∧
        (t / 8 = 2 → u.coll (t % 8) = Collector.empty))) ∧
  (∀ (s : State) (q : Req) (val : List Byte), Admitted q Obj.releaseReset val s → s.dict.held = [] → (∀ n, n < 128 → (s.feed n).st ≠ 1) →
      Carries q Obj.releaseReset (exec (.releaseReset q val) s) fun u => leNat val ∈ s.rst.heldBlocks ∧
        u.rst.heldBlocks = s.rst.heldBlocks.filter (· ≠ leNat val) ∧ u.num Obj.heldResets = u.rst.heldBlocks.length ∧ u.mem = s.mem ∧
        KeepsObjects [Obj.heldResets, Obj.releaseReset] (Arrived q s) u) ∧
  (∀ (s : State) (c : Cab) (n : Fin 6) (l : List Nat),
      (s.inReset = true ∨ s.rst.exitDone < 4 ∨ s.cabHeld c = true ∨ n.val = 0 ∨ s.rst.cabExit.find? c.val ≠ some (n.val - 1) →
        exec (.cabinetExit c n l) s = .next s) ∧
      (s.inReset = false → 4 ≤ s.rst.exitDone → s.cabHeld c = false → s.rst.cabExit.find? c.val = some (n.val - 1) → n.val ≠ 0 →
        (n.val = 1 → l.length < 3 → exec (.cabinetExit c n l) s = .next { s with rst := { s.rst with cabExit := s.rst.cabExit.put c 1 } }) ∧
        (n.val = 1 → 3 ≤ l.length → s.lost c = false → s.jobsAt c = [] → s.cfg.load = none → Answers (exec (.cabinetExit c n l) s) fun u => u.lost c = true) ∧
        (n.val = 2 → Answers (exec (.cabinetExit c n l) s) fun u => u.rst.cabExit.find? c.val = some 2 ∧ u.num (Obj.clockState + c) = 2 ∧
          u.num (Obj.clockState + 8 + c) = 2 ∧ ChangesOnly [Obj.clockState + c, Obj.clockState + 8 + c] { s with rst := u.rst } u) ∧
        (n.val = 3 → l = [] → Answers (exec (.cabinetExit c n l) s) fun u => u.rst.cabExit.find? c.val = some 3 ∧
          u.num (Obj.gddrCabinetState + c) = 2 ∧ (∀ a, cabHolds c a = true → u.byte a = 0) ∧ (∀ a, cabHolds c a = false → u.byte a = s.byte a) ∧
          (u.pointSets c).1 = Config.pointRecord c (pointBit s.pointToLoad) ∧ ChangesOnly [Obj.gddrCabinetState + c] { s with
            rst := u.rst
            mem := u.mem
            mm := { s.mm with sets := u.mm.sets } } u) ∧
        (n.val = 5 → Tab.sorted s.rst.cabExit = true → (∀ n, n < 128 → (s.feed n).st ≠ 1) → Answers (exec (.cabinetExit c n l) s) fun u =>
          u.inCReset c = false ∧ u.num (Obj.cabinetHealth + c) = 1 ∧ u.mem = s.mem ∧ u.tiles = s.tiles ∧
          u.lock.inEffect.get [] c.val = s.bytes (Obj.probeSelects + 256 * c) ∧
          (∀ d : Cab, d ≠ c → u.inCReset d = s.inCReset d)))) ∧
  (∀ (s : State) (c : Cab),
      (s.num (Obj.cabinetPowerState + c) ≠ 1 ∨ s.num (Obj.cabinetHealth + c) ≠ 1 ∨ s.restful c = false → exec (.cabinetPark c) s = .next s) ∧
      (s.num (Obj.cabinetPowerState + c) = 1 → s.num (Obj.cabinetHealth + c) = 1 → s.restful c = true →
        Answers (exec (.cabinetPark c) s) fun u => u.num (Obj.cabinetPowerState + c) = 2 ∧ u.num (Obj.clockState + c) = 4 ∧
          ChangesOnly [Obj.cabinetPowerState + c, Obj.clockState + c] s u) ∧
      (s.num (Obj.cabinetPowerState + c) = 2 → Answers (exec (.cabinetWake c) s) fun u => u.num (Obj.cabinetPowerState + c) = 1 ∧
        u.num (Obj.clockState + c) = 2 ∧ ChangesOnly [Obj.cabinetPowerState + c, Obj.clockState + c] s u) ∧
      (s.num (Obj.cabinetPowerState + c) ≠ 2 → exec (.cabinetWake c) s = .next s))

/-- While the firmware serves, a primary that fails with its standby mirrored gives way to it; a failing standby reboots, and an activation that waited on it is rejected. A clock controller with both copies bad sets its flag; a tile's steering is reloaded from its fence map with its passes discarded and issued again; the fence maps are reloaded from their newest records; a route entry is reloaded. Each counts and sets SPINE_FAULT, but a watchdog expiry only counts. A standby that finishes mirroring is Mirrored; in an activation it then takes over and BootSlot names its slot, and the activation ends with the mirroring of the old primary. While nothing serves, none of them does anything. -/
def Obligations.CriticalStateAnswers : Prop :=
  (∀ (s : State) (c : Cab) (b m : Bool) (g : Tile) (n : Fin 17) (e : BitVec 12), s.serving = false →
      exec .watchdogExpiry s = .next s ∧ exec (.complexCriticalError b) s = .next s ∧ exec .standbyMirrored s = .next s ∧
      exec (.clockControllerUpset c b) s = .next s ∧ exec (.steeringParityError g) s = .next s ∧ exec .fenceStoreError s = .next s ∧
      exec (.routeEntryParityError m n e) s = .next s) ∧
  (∀ s : State, s.serving = true → s.num Obj.standbyState = 3 →
      let gives (u : State) : Prop := Counted Obj.complexResets 1 s u ∧ Counted Obj.takeovers 1 s u ∧
        u.num Obj.activeComplex = 4 - s.num Obj.activeComplex ∧ u.sec.primary = s.sec.standby ∧ u.mem = s.mem ∧ u.tiles = s.tiles ∧
        u.num Obj.securityFlags = s.num Obj.securityFlags ||| 2 ∧
        u.num Obj.updateState = (if s.num Obj.updateState ∈ [1, 2, 3, 4] then 0 else s.num Obj.updateState) ∧
        u.num Obj.standbyState = (if (s.bootable (s.num Obj.bootSlot)).isSome then 1 else 0)
      (Answers (exec .watchdogExpiry s) fun u => gives u ∧ u.num Obj.healthFlags = s.num Obj.healthFlags) ∧
      Answers (exec (.complexCriticalError true) s) fun u => gives u ∧ u.num Obj.healthFlags = s.num Obj.healthFlags ||| 0x40) ∧
  (∀ s : State, s.serving = true → Answers (exec (.complexCriticalError false) s) fun u => Counted Obj.complexResets 1 s u ∧
      u.num Obj.healthFlags = s.num Obj.healthFlags ||| 0x40 ∧ u.sec.primary = s.sec.primary ∧ u.mem = s.mem ∧ u.tiles = s.tiles ∧
      u.num Obj.standbyState = (if (s.bootable (s.num Obj.bootSlot)).isSome then 1 else 0) ∧
      (∀ i, s.bootable (s.num Obj.bootSlot) = some i → u.sec.standby = s.slotHead i) ∧
      (s.num Obj.updateState = 5 → s.sec.taken = false → u.num Obj.updateState = 7 ∧ u.num Obj.updateResult = 6 ∧ Counted Obj.updatesRejected 1 s u) ∧
      (s.num Obj.updateState ≠ 5 ∨ s.sec.taken = true →
        KeepsObjects [Obj.complexResets, Obj.healthFlags, Obj.standbyState, Obj.healthState] s u)) ∧
  (∀ s : State, s.serving = true →
      (s.num Obj.standbyState = 1 ∨ s.num Obj.standbyState = 2 → s.num Obj.updateState ≠ 5 → Answers (exec .standbyMirrored s) fun u =>
        u.num Obj.standbyState = 3 ∧ ChangesOnly [Obj.standbyState, Obj.healthState] s u) ∧
      (s.num Obj.standbyState = 1 ∨ s.num Obj.standbyState = 2 → s.num Obj.updateState = 5 → s.sec.taken = true →
        Answers (exec .standbyMirrored s) fun u => u.num Obj.standbyState = 3 ∧ u.num Obj.updateState = 0 ∧ u.num Obj.updateResult = 1 ∧
          Counted Obj.updatesActivated 1 s u ∧ u.sec = { s.sec with taken := false } ∧ u.mem = s.mem ∧ u.tiles = s.tiles) ∧
      (s.num Obj.standbyState = 1 ∨ s.num Obj.standbyState = 2 → s.num Obj.updateState = 5 → s.sec.taken = false →
        Answers (exec .standbyMirrored s) fun u => u.num Obj.standbyState = 1 ∧ u.num Obj.updateState = 5 ∧ Counted Obj.takeovers 1 s u ∧
          u.num Obj.securityFlags = s.num Obj.securityFlags ||| 2 ∧ u.num Obj.activeComplex = 4 - s.num Obj.activeComplex ∧
          u.num Obj.bootSlot = s.targetSlot ∧ u.num Obj.activeSlot = s.targetSlot ∧ u.sec = { s.sec with
            primary := s.sec.standby
            standby := s.sec.standby
            taken := true } ∧ u.mem = s.mem ∧ u.tiles = s.tiles ∧
          s.now ≤ u.now ∧ u.now ≤ s.now + 50000000 ∧ u.own = s.own.shift (u.now - s.now)) ∧
      (s.num Obj.standbyState ≠ 1 → s.num Obj.standbyState ≠ 2 → exec .standbyMirrored s = .next s)) ∧
  (∀ (s : State) (c : Cab) (b : Bool), s.serving = true → Answers (exec (.clockControllerUpset c b) s) fun u =>
      Counted Obj.clockControllerResets 1 s u ∧ u.num Obj.healthFlags = s.num Obj.healthFlags ||| 0x40 ∧
      u.num Obj.clockFlags = (if b then s.num Obj.clockFlags ||| 2 else s.num Obj.clockFlags) ∧
      ChangesOnly [Obj.clockControllerResets, Obj.healthFlags, Obj.clockFlags] s u) ∧
  (∀ (s : State) (g : Tile), s.serving = true →
      (s.lost (g / 150) = true ∨ s.inCReset (g / 150) = true → exec (.steeringParityError g) s = .next s) ∧
      (s.lost (g / 150) = false → s.inCReset (g / 150) = false → Answers (exec (.steeringParityError g) s) fun u =>
        Counted Obj.steeringReloads 1 s u ∧ u.num Obj.healthFlags = s.num Obj.healthFlags ||| 0x40 ∧ u.mem = s.mem ∧
        (∀ (sh : Fin 16) (st : Fin 17), st.val ∈ u.sites g sh ↔ s.siteCode g sh st = 0) ∧ (∀ h, h ≠ g.val → u.tile h = s.tile h) ∧
        ((s.tile g).bound = [] → u.tiles = s.tiles) ∧
        (∀ (x : Ctx) o, x.val ∈ (s.tile g).bound → (s.dr g x).st = .issuing → (s.dr g x).await = [] → (s.dr g x).asked = false →
          (s.dr g x).hold = [] → (s.dr g x).op = some o → (s.dr g x).pass < (s.dr g x).passes o →
          (u.dr g x).pass = (s.dr g x).pass ∧ (u.dr g x).st = .issuing ∧ (u.dr g x).hold = [] ∧ (u.dr g x).op = some o))) ∧
  (∀ s : State, s.serving = true → Answers (exec .fenceStoreError s) fun u => Counted Obj.fenceStoreReloads 1 s u ∧
      u.num Obj.healthFlags = s.num Obj.healthFlags ||| 0x40 ∧ u.health.steer = s.health.steer ∧ u.mem = s.mem ∧ u.tiles = s.tiles ∧
      (s.winners = [] → ∀ c : Cab, u.val (Obj.tileFenceMap + c) = dfltOf (Obj.tileFenceMap + c)) ∧
      (∀ (c : Cab) e v, s.winners.find? (Obj.tileFenceMap + c) = some e → s.fitVal e = some v → u.val (Obj.tileFenceMap + c) = v)) ∧
  (∀ (s : State) (m : Bool) (n : Fin 17) (e : BitVec 12), s.serving = true → Answers (exec (.routeEntryParityError m n e) s) fun u =>
      Counted Obj.routeEntryReloads 1 s u ∧ u.num Obj.healthFlags = s.num Obj.healthFlags ||| 0x40 ∧
      ChangesOnly [Obj.routeEntryReloads, Obj.healthFlags] s u)

/-- BEGIN erases the slot that BootSlot does not name, only from Idle or Rejected; the erase done, bytes are programmed at UpdateOffset, which follows them; too many are refused, and a failed program rejects the update. VERIFY verifies or rejects by what the slot fails; ACTIVATE of a good image of the same state format boots it in the standby, which then mirrors; of another format it writes BootSlot and waits for a reset, and a bad one is rejected with the standby booting the old image; CANCEL ends an update. A key is enrolled into an empty slot alone, and revoked only while nothing uses it. AttestNonce writes the report over the nonce. -/
def Obligations.SecurityServices : Prop :=
  (∀ (s : State) (q : Req), Admitted q Obj.updateCommand [1] s → let st := s.num Obj.updateState
      (st ≠ 0 → st ≠ 7 → exec (.begin q) s = .next (Denied q Obj.updateCommand Err.refusedInState (Arrived q s))) ∧
      (st = 0 ∨ st = 7 → Carries q Obj.updateCommand (exec (.begin q) s) fun u => u.num Obj.updateState = 1 ∧ u.mem = s.mem ∧
        (Memory.wf 0xFF s.store.flash = true → ∀ a, u.flashByte a =
          if slotAddr s.targetSlot ≤ a ∧ a < slotAddr s.targetSlot + 0x2000000 then 0xFF else s.flashByte a))) ∧
  (∀ s : State, (s.num Obj.updateState ≠ 1 → exec .updateEraseDone s = .next s) ∧
      (s.num Obj.updateState = 1 → Answers (exec .updateEraseDone s) fun u => u.num Obj.updateState = 2 ∧ u.num Obj.updateOffset = 0 ∧
        ChangesOnly [Obj.updateState, Obj.updateOffset] s u)) ∧
  (∀ (s : State) (q : Req) (val : List Byte) (b : Bool), Admitted q Obj.updateChunk val s → let n := s.num Obj.updateOffset
      (s.num Obj.updateState ≠ 2 → exec (.updateChunk q val b) s = .next (Denied q Obj.updateChunk Err.refusedInState (Arrived q s))) ∧
      (s.num Obj.updateState = 2 → 0x2000000 < n + val.length →
        exec (.updateChunk q val b) s = .next (Denied q Obj.updateChunk Err.outOfRange (Arrived q s))) ∧
      (s.num Obj.updateState = 2 → n + val.length ≤ 0x2000000 → b = true → Carries q Obj.updateChunk (exec (.updateChunk q val b) s) fun u =>
        u.num Obj.updateState = 7 ∧ u.num Obj.updateResult = 7 ∧ Counted Obj.updatesRejected 1 s u ∧ u.store.flash = s.store.flash) ∧
      (s.num Obj.updateState = 2 → n + val.length ≤ 0x2000000 → b = false → Memory.wf 0xFF s.store.flash = true →
        Carries q Obj.updateChunk (exec (.updateChunk q val b) s) fun u => u.num Obj.updateOffset = n + val.length ∧
          u.num Obj.updateState = 2 ∧ (∀ i, i < val.length → u.flashByte (slotAddr s.targetSlot + n + i) =
            val.getD i 0 &&& s.flashByte (slotAddr s.targetSlot + n + i)) ∧
          (∀ a, a < slotAddr s.targetSlot + n ∨ slotAddr s.targetSlot + n + val.length ≤ a → u.flashByte a = s.flashByte a))) ∧
  (∀ (s : State) (q : Req) (val : List Byte) (n : Nat), Admitted q Obj.updateFromMemory val s → let a := leNat val
      (s.num Obj.updateState ≠ 2 → exec (.updateFromMemory q val false) s =
        .next (Denied q Obj.updateFromMemory Err.refusedInState (Arrived q s))) ∧
      (s.num Obj.updateState = 2 → s.num Obj.updateOffset = 0 → n ≤ 5242880 → leNat (s.read (a % 2 ^ 48 + 16) 4) = n →
        (∀ i, i < 256 + n → s.access (a + i) .ok = .ok ∧ (∃ c o, s.place (a + i) = .buffer c o ∨ s.place (a + i) = .gddr c o) ∧
          (a + i) % 2 ^ 48 = a % 2 ^ 48 + i) → Memory.wf 0xFF s.store.flash = true →
        Carries q Obj.updateFromMemory (exec (.updateFromMemory q val false) s) fun u => u.num Obj.updateOffset = 256 + n ∧ u.mem = s.mem ∧
          ∀ i, i < 256 + n → u.flashByte (slotAddr s.targetSlot + i) = s.byte (a % 2 ^ 48 + i) &&& s.flashByte (slotAddr s.targetSlot + i))) ∧
  (∀ (s : State) (q : Req), Admitted q Obj.updateCommand [2] s →
      (s.num Obj.updateState ≠ 2 → exec (.verify q) s = .next (Denied q Obj.updateCommand Err.refusedInState (Arrived q s))) ∧
      (s.num Obj.updateState = 2 → Carries q Obj.updateCommand (exec (.verify q) s) fun u => u.store.flash = s.store.flash ∧ u.mem = s.mem ∧
        match s.slotFault s.targetSlot with
        | none => u.num Obj.updateState = 4 ∧ u.num Obj.stagedVersion = imageVersion (s.slotHead s.targetSlot)
        | some code => u.num Obj.updateState = 7 ∧ u.num Obj.updateResult = code ∧ Counted Obj.updatesRejected 1 s u)) ∧
  (∀ (s : State) (q : Req) (b : Bool), Admitted q Obj.updateCommand [3] s → s.rst.soft = none → s.rst.serve = .full →
      let i := s.targetSlot
      (s.num Obj.updateState ≠ 4 → exec (.activate q b) s = .next (Denied q Obj.updateCommand Err.refusedInState (Arrived q s))) ∧
      (s.num Obj.updateState = 4 → Carries q Obj.updateCommand (exec (.activate q b) s) fun u => u.mem = s.mem ∧ u.tiles = s.tiles ∧
        if imageFormat (s.slotHead i) ≠ imageFormat s.sec.primary then u.num Obj.updateState = 6 ∧ u.num Obj.bootSlot = i ∧ u.sec = s.sec
        else if b = true ∨ s.slotFault i ≠ none then u.num Obj.updateState = 7 ∧ u.num Obj.updateResult = 6 ∧ u.num Obj.standbyState = 1 ∧
          u.sec = { s.sec with standby := s.slotHead (s.num Obj.bootSlot) } ∧ u.num Obj.bootSlot = s.num Obj.bootSlot
        else u.num Obj.updateState = 5 ∧ u.num Obj.standbyState = 2 ∧ u.num Obj.bootSlot = s.num Obj.bootSlot ∧
          u.num Obj.activeComplex = s.num Obj.activeComplex ∧ u.sec = { s.sec with
            standby := s.slotHead i
            taken := false })) ∧
  (∀ (s : State) (q : Req), Admitted q Obj.updateCommand [4] s →
      (s.num Obj.updateState ∉ [1, 2, 4, 7] → exec (.cancel q) s = .next (Denied q Obj.updateCommand Err.refusedInState (Arrived q s))) ∧
      (s.num Obj.updateState ∈ [1, 2, 4, 7] → Carries q Obj.updateCommand (exec (.cancel q) s) fun u => u.num Obj.updateState = 0 ∧
        u.num Obj.updateResult = 8 ∧ u.store.flash = s.store.flash ∧ u.mem = s.mem)) ∧
  (∀ (s : State) (q : Req) (val : List Byte), Admitted q Obj.keyEnroll val s → let k := Obj.keySlot + leNat (val.take 1)
      (badKeyBlock val = true → exec (.keyEnroll q val) s = .next (Denied q Obj.keyEnroll Err.outOfRange (Arrived q s))) ∧
      (badKeyBlock val = false → s.bytes k ≠ [] → exec (.keyEnroll q val) s = .next (Denied q Obj.keyEnroll Err.refusedInState (Arrived q s))) ∧
      (badKeyBlock val = false → s.bytes k = [] → Carries q Obj.keyEnroll (exec (.keyEnroll q val) s) fun u =>
        (u.bytes k).take 4 = slice val 1 1 ++ List.replicate 3 0 ∧ slice (u.bytes k) 4 57 = slice val 4 57 ∧ u.mem = s.mem ∧
        u.num Obj.securityFlags = s.num Obj.securityFlags ||| 8 ∧ (∀ j, j < 8 → Obj.keySlot + j ≠ k → u.bytes (Obj.keySlot + j) = s.bytes (Obj.keySlot + j)))) ∧
  (∀ (s : State) (q : Req) (val : List Byte), Admitted q Obj.keyRevoke val s →
      (s.slotInUse (leNat val) = true → exec (.keyRevoke q val) s = .next (Denied q Obj.keyRevoke Err.refusedInState (Arrived q s))) ∧
      (s.slotInUse (leNat val) = false → Carries q Obj.keyRevoke (exec (.keyRevoke q val) s) fun u =>
        u.bytes (Obj.keySlot + leNat val) = [] ∧ u.num Obj.securityFlags = s.num Obj.securityFlags ||| 0x10 ∧ u.mem = s.mem)) ∧
  (∀ (s : State) (q : Req) (val : List Byte), Admitted q Obj.attestNonce val s →
      Carries q Obj.attestNonce (exec (.attestNonce q val) s) fun u => Counted Obj.attestationsSigned 1 s u ∧ u.mem = s.mem ∧
        (u.bytes Obj.attestReport).length = 4576 ∧ leNat ((u.bytes Obj.attestReport).take 4) = 0x71A3E90C ∧
        slice (u.bytes Obj.attestReport) 32 32 = val)

/-- Update-IR selects the instruction of its code, BYPASS where the code has none; Test-Logic-Reset selects IDCODE. The boundary register takes its bits under EXTEST, SAMPLE/PRELOAD, EXTEST_PULSE and EXTEST_TRAIN and no others. Pins take their state from the boundary register under EXTEST, CLAMP, EXTEST_PULSE and EXTEST_TRAIN, are released under HIGHZ, and are the device's under every other. None of this changes anything else. -/
def Obligations.JtagInstructions : Prop :=
  (∀ (s : State) (c : Byte), Answers (exec (.updateIr c) s) fun u =>
      u.jtag.ir = (if c ∈ ([0, 1, 2, 3, 4, 8, 9, 0x20] : List Byte) then c else 0xFF) ∧ u = { s with jtag := { s.jtag with ir := u.jtag.ir } } ∧
      u.pinSource = (if c ∈ ([0, 4, 8, 9] : List Byte) then .boundary else if c = 3 then .highZ else .device)) ∧
  (∀ s : State, exec .testLogicReset s = .next { s with jtag := { s.jtag with ir := 2 } }) ∧
  (∀ (s : State) (b : BitVec 2069), exec (.boundaryRegisterUpdate b) s = .next
      (if s.jtag.ir ∈ ([0, 1, 8, 9] : List Byte) then { s with jtag := { s.jtag with boundary := b } } else s))

/-- Packing element codes of a format of 4, 6 or 8 bits gives the fewest whole bytes that hold them, and for 16 of them 8, 12 and 16. At 4 bits the even element of each byte is in bits 3:0 and the odd one in bits 7:4; at 6 bits element i of a group of four is bits 6i + 5 to 6i of the group's 24 bits, little-endian; at 8 bits each byte is one. What is packed at an address is read back there element by element. -/
def Obligations.NarrowElementsArePacked : Prop :=
  ∀ (f : Nat) (codes : List Nat), 3 ≤ f → f ≤ 9 → (∀ c ∈ codes, c < 2 ^ fmtBits f) →
    let b := packElems f codes
    let byte (i : Nat) : Nat := (b.getD i 0).toNat
    b.length = (fmtBits f * codes.length + 7) / 8 ∧
    (codes.length = 16 → b.length = (if fmtBits f = 4 then 8 else if fmtBits f = 6 then 12 else 16)) ∧
    (f = 7 ∨ f = 9 → ∀ i, i < codes.length → codes.getD i 0 = if i % 2 = 0 then byte (i / 2) % 16 else byte (i / 2) / 16) ∧
    (f = 5 ∨ f = 6 → ∀ g i, 4 * g + 3 < codes.length → i < 4 →
      codes.getD (4 * g + i) 0 = bits (byte (3 * g) + 256 * byte (3 * g + 1) + 65536 * byte (3 * g + 2)) (6 * i) 6) ∧
    (f = 3 ∨ f = 4 ∨ f = 8 → ∀ i, i < codes.length → codes.getD i 0 = byte i) ∧
    (∀ (s : State) (a : Nat), Memory.wf 0 s.mem = true → ∀ i, i < codes.length → (s.poke a b).elem f a i = codes.getD i 0)

/-- A reset-command frame for this device, on a port that takes frames while the firmware serves, acts only if its data is 0x5A and seven zero bytes and its source is the owner; it then resets what FieldResetReach names: the device, a cabinet, or an idle block; a block that is not idle counts a refused request. Any other is ignored: only ResetCommandsIgnored counts. -/
def Obligations.ResetCommandOnlyFromOwner : Prop :=
  ∀ (s : State) (port : CanPort) (t : Nat) (id : BitVec 29) (data : List Byte), bits id.toNat 25 4 = 1 → s.canTakes port = true →
    s.canFor id = true → s.rst.serve ≠ .recovery →
    let mine := data = (0x5A : Byte) :: List.replicate 7 0 ∧ s.num Obj.owner = 0x40 + bits id.toNat 11 7
    let n := s.num Obj.fieldResetReach
    (¬mine → Answers (exec (.resetCommandFrame port t id data) s) fun u => Counted Obj.resetCommandsIgnored 1 s u ∧
      ChangesOnly [Obj.resetCommandsIgnored] (s.upto t) u) ∧
    (mine → n % 4 = 1 → Answers (exec (.resetCommandFrame port t id data) s) (ResetBy .field s)) ∧
    (mine → n % 4 = 2 → ∀ c : Cab, n / 256 % 256 = c.val → s.inReset = false → s.lost c = false → s.jobsAt c = [] →
      Answers (exec (.resetCommandFrame port t id data) s) fun u => ResetSource.fieldCabinet c ∈ u.rst.asserted ∧ u.inCReset c = true ∧
        Counted Obj.cabinetResets 1 s u ∧ u.num Obj.resetCommandsIgnored = s.num Obj.resetCommandsIgnored) ∧
    (mine → n % 4 = 3 → s.blockIdle (n / 256 % 256) = true → Answers (exec (.resetCommandFrame port t id data) s) fun u =>
      Counted Obj.blockResets 1 s u ∧ u.num Obj.resetCommandsIgnored = s.num Obj.resetCommandsIgnored ∧ u.mem = s.mem) ∧
    (mine → n % 4 = 3 → s.blockIdle (n / 256 % 256) = false → Answers (exec (.resetCommandFrame port t id data) s) fun u =>
      Counted Obj.resetRequestsRefused 1 s u ∧ ChangesOnly [Obj.resetRequestsRefused] (s.upto t) u)

/-- A receiver that starts as its transmitter did recovers every precoded index, and one that starts wrong recovers every index but the first. The descrambler likewise recovers every bit from the same start, and every bit after the 58th from any start. The Gray mapping loses no pair of bits. A lane's alignment marker is 16 bytes that read back as its lane and its code. Sharing a codeword's symbols over the eight lanes loses none: symbol j of the codeword is symbol j div 8 of lane j mod 8. -/
def Obligations.LineCodingIsUndone : Prop :=
  (∀ (y : BitVec 2) (l : List (BitVec 2)), unprecode y (precode y l) = l) ∧
  (∀ (y z : BitVec 2) (l : List (BitVec 2)), (unprecode z (precode y l)).drop 1 = l.drop 1) ∧
  (∀ (s : BitVec 58) (l : List Bool), descramble s (scramble s l) = l) ∧
  (∀ (s r : BitVec 58) (l : List Bool), (descramble r (scramble s l)).drop 58 = l.drop 58) ∧
  (∀ g : BitVec 2, grayIndex (grayBits g).1 (grayBits g).2 = g) ∧
  (∀ (k : Nat) (b : Bool), k < 8 → (marker k b).length = 16 ∧ readMarker (marker k b) = some (k, b2n b)) ∧
  (∀ (l : List (BitVec 10)) (j : Nat), l.length % 8 = 0 → j < l.length → (laneSymbols (j % 8) l)[j / 8]? = l[j]?)
end

