-- ==== Sys2Proof/Laws/Tab.lean ====
section
/-! SUPPORT. Sparse tables and byte memories: reading after a write, and the canonical form that every memory
operation keeps. -/

namespace Sys2Proof

namespace Tab

variable {α : Type}

@[simp] theorem find?_nil (a : Nat) : find? ([] : Tab α) a = none := rfl

theorem find?_put_self (t : Tab α) (a : Nat) (v : α) : find? (put t a v) a = some v := by
  induction t with
  | nil => simp [put, find?]
  | cons e t ih =>
    obtain ⟨k, w⟩ := e
    simp only [put]
    split
    · simp [find?]
    · split
      · simp [find?, *]
      · simp [find?, *]

theorem find?_put_ne (t : Tab α) (a b : Nat) (v : α) (h : b ≠ a) : find? (put t a v) b = find? t b := by
  induction t with
  | nil =>
    have : ¬ b = a := h
    simp [put, find?, this]
  | cons e t ih =>
    obtain ⟨k, w⟩ := e
    simp only [put]
    split
    · rename_i hk
      by_cases hb : b < a
      · have : b < k := by omega
        simp [find?, hb, this]
      · simp [find?, hb, h]
    · split
      · rename_i hk he
        subst he
        simp [find?, h]
      · simp only [find?, ih]

/-- Every key of a sorted table's tail is above its head's. -/
theorem find?_none_of_lt (k : Nat) (w : α) (t : Tab α) (h : sorted ((k, w) :: t) = true) (b : Nat) (hb : b ≤ k) :
    find? t b = none := by
  cases t with
  | nil => rfl
  | cons e t =>
    obtain ⟨k', w'⟩ := e
    simp only [sorted, Bool.and_eq_true, decide_eq_true_eq] at h
    have : b < k' := by omega
    simp [find?, this]

theorem sorted_tail (e : Nat × α) (t : Tab α) (h : sorted (e :: t) = true) : sorted t = true := by
  cases t with
  | nil => rfl
  | cons e' t => simp only [sorted, Bool.and_eq_true] at h; exact h.2

theorem find?_del_self (t : Tab α) (a : Nat) (h : sorted t = true) : find? (del t a) a = none := by
  induction t with
  | nil => rfl
  | cons e t ih =>
    obtain ⟨k, w⟩ := e
    simp only [del]
    split
    · rename_i hk; simp [find?, hk]
    · split
      · rename_i he; exact find?_none_of_lt k w t h a (by omega)
      · rename_i h1 h2
        simp [find?, h1, h2, ih (sorted_tail _ _ h)]

theorem find?_del_ne (t : Tab α) (a b : Nat) (h : b ≠ a) (hs : sorted t = true) : find? (del t a) b = find? t b := by
  induction t with
  | nil => rfl
  | cons e t ih =>
    obtain ⟨k, w⟩ := e
    simp only [del]
    split
    · rfl
    · split
      · rename_i hk he
        subst he
        by_cases hb : b < a
        · simp [find?, hb, find?_none_of_lt a w t hs b (by omega)]
        · simp [find?, hb, h]
      · simp only [find?, ih (sorted_tail _ _ hs)]

/-- The keys of a sorted table are all above a bound. -/
def above (n : Nat) : Tab α → Bool
  | [] => true
  | (k, _) :: _ => n < k

theorem sorted_cons (k : Nat) (w : α) (t : Tab α) : sorted ((k, w) :: t) = (above k t && sorted t) := by
  cases t with
  | nil => rfl
  | cons e t => rfl

theorem above_put (n : Nat) (t : Tab α) (a : Nat) (v : α) (h : above n t = true) (ha : n < a) :
    above n (put t a v) = true := by
  cases t with
  | nil => simpa [put, above] using ha
  | cons e t =>
    obtain ⟨k, w⟩ := e
    simp only [above, decide_eq_true_eq] at h
    simp only [put]
    split
    · simpa [above] using ha
    · split <;> simpa [above] using h

theorem sorted_put (t : Tab α) (a : Nat) (v : α) (h : sorted t = true) : sorted (put t a v) = true := by
  induction t with
  | nil => rfl
  | cons e t ih =>
    obtain ⟨k, w⟩ := e
    rw [sorted_cons, Bool.and_eq_true] at h
    simp only [put]
    split
    · rename_i hk
      rw [sorted_cons, sorted_cons, h.1, h.2]
      simpa [above] using hk
    · split
      · rw [sorted_cons, h.1, h.2]; rfl
      · rename_i h1 h2
        rw [sorted_cons, above_put k t a v h.1 (by omega), ih h.2]; rfl

theorem above_del (n : Nat) (t : Tab α) (a : Nat) (h : above n t = true) (hs : sorted t = true) :
    above n (del t a) = true := by
  cases t with
  | nil => rfl
  | cons e t =>
    obtain ⟨k, w⟩ := e
    simp only [above, decide_eq_true_eq] at h
    simp only [del]
    split
    · simpa [above] using h
    · split
      · cases t with
        | nil => rfl
        | cons e' t =>
          obtain ⟨k', w'⟩ := e'
          simp only [sorted, Bool.and_eq_true, decide_eq_true_eq] at hs
          simp only [above, decide_eq_true_eq]; omega
      · simpa [above] using h

theorem sorted_del (t : Tab α) (a : Nat) (h : sorted t = true) : sorted (del t a) = true := by
  induction t with
  | nil => rfl
  | cons e t ih =>
    obtain ⟨k, w⟩ := e
    have h0 := h
    rw [sorted_cons, Bool.and_eq_true] at h
    simp only [del]
    split
    · exact h0
    · split
      · exact h.2
      · rw [sorted_cons, above_del k t a h.1 h.2, ih h.2]; rfl

theorem above_filter (p : Nat × α → Bool) (n : Nat) (t : Tab α) (h : above n t = true) (hs : sorted t = true) :
    above n (List.filter p t) = true := by
  induction t generalizing n with
  | nil => rfl
  | cons e t ih =>
    obtain ⟨k, w⟩ := e
    rw [sorted_cons, Bool.and_eq_true] at hs
    simp only [above, decide_eq_true_eq] at h
    rw [List.filter_cons]
    split
    · simpa [above] using h
    · refine ih n ?_ hs.2
      cases t with
      | nil => rfl
      | cons e' t =>
        obtain ⟨k', w'⟩ := e'
        have := hs.1
        simp only [above, decide_eq_true_eq] at this ⊢
        omega

theorem sorted_filter (p : Nat × α → Bool) (t : Tab α) (h : sorted t = true) : sorted (List.filter p t) = true := by
  induction t with
  | nil => rfl
  | cons e t ih =>
    obtain ⟨k, w⟩ := e
    rw [sorted_cons, Bool.and_eq_true] at h
    rw [List.filter_cons]
    split
    · rw [sorted_cons, above_filter p k t h.1 h.2, ih h.2]; rfl
    · exact ih h.2

theorem mem_put (t : Tab α) (a : Nat) (v : α) (e : Nat × α) (h : e ∈ put t a v) : e = (a, v) ∨ e ∈ t := by
  induction t with
  | nil => simpa [put] using h
  | cons x t ih =>
    obtain ⟨k, w⟩ := x
    simp only [put] at h
    split at h
    · simpa using h
    · split at h
      · rename_i he
        subst he
        rcases List.mem_cons.1 h with h | h
        · exact .inl h
        · exact .inr (List.mem_cons_of_mem _ h)
      · rcases List.mem_cons.1 h with h | h
        · exact .inr (h ▸ List.mem_cons_self)
        · rcases ih h with h | h
          · exact .inl h
          · exact .inr (List.mem_cons_of_mem _ h)

theorem mem_del (t : Tab α) (a : Nat) (e : Nat × α) (h : e ∈ del t a) : e ∈ t := by
  induction t with
  | nil => simp [del] at h
  | cons x t ih =>
    obtain ⟨k, w⟩ := x
    simp only [del] at h
    split at h
    · exact h
    · split at h
      · exact List.mem_cons_of_mem _ h
      · rcases List.mem_cons.1 h with h | h
        · exact h ▸ List.mem_cons_self
        · exact List.mem_cons_of_mem _ (ih h)

end Tab

namespace Machine

/-! ## Byte memories -/

theorem Memory.wf_iff (d : Byte) (m : List Host.Cell) :
    Memory.wf d m = true ↔ Tab.sorted m = true ∧ ∀ c ∈ m, c.2 ≠ d := by
  simp [Memory.wf]

theorem Memory.wf_nil (d : Byte) : Memory.wf d [] = true := rfl

/-- A write of one byte keeps the canonical form. -/
theorem Memory.wf_write (d : Byte) (m : List Host.Cell) (a : Nat) (b : Byte) (h : Memory.wf d m = true) :
    Memory.wf d (Mem.write d m a b) = true := by
  rw [Memory.wf_iff] at h ⊢
  unfold Mem.write
  split
  · exact ⟨Tab.sorted_del m a h.1, fun c hc => h.2 c (Tab.mem_del m a c hc)⟩
  · rename_i hb
    refine ⟨Tab.sorted_put m a b h.1, fun c hc => ?_⟩
    rcases Tab.mem_put m a b c hc with rfl | hc
    · exact hb
    · exact h.2 c hc

/-- A write of consecutive bytes keeps the canonical form. -/
theorem Memory.wf_writes (d : Byte) (m : List Host.Cell) (a : Nat) (l : List Byte) (h : Memory.wf d m = true) :
    Memory.wf d (Mem.writes d m a l) = true := by
  induction l generalizing m a with
  | nil => exact h
  | cons b l ih => exact ih _ _ (Memory.wf_write d m a b h)

/-- Writes at listed addresses keep the canonical form. -/
theorem Memory.wf_foldl (d : Byte) (l : List (Nat × Byte)) (m : List Host.Cell) (h : Memory.wf d m = true) :
    Memory.wf d (l.foldl (fun m (a, b) => Mem.write d m a b) m) = true := by
  induction l generalizing m with
  | nil => exact h
  | cons e l ih => exact ih _ (Memory.wf_write d m _ _ h)

/-- Clearing addresses keeps the canonical form. -/
theorem Memory.wf_filter (d : Byte) (p : Host.Cell → Bool) (m : List Host.Cell) (h : Memory.wf d m = true) :
    Memory.wf d (m.filter p) = true := by
  rw [Memory.wf_iff] at h ⊢
  exact ⟨Tab.sorted_filter p m h.1, fun c hc => h.2 c (List.mem_filter.1 hc).1⟩

/-- A byte read where it was written. -/
theorem Mem.read_write_self (d : Byte) (m : List Host.Cell) (a : Nat) (b : Byte) (h : Tab.sorted m = true) :
    Mem.read d (Mem.write d m a b) a = b := by
  unfold Mem.read Mem.write
  split
  · rename_i hb; simp [Tab.find?_del_self m a h, hb]
  · simp [Tab.find?_put_self]

/-- A byte read elsewhere. -/
theorem Mem.read_write_ne (d : Byte) (m : List Host.Cell) (a a' : Nat) (b : Byte) (h : Tab.sorted m = true)
    (hne : a' ≠ a) : Mem.read d (Mem.write d m a b) a' = Mem.read d m a' := by
  unfold Mem.read Mem.write
  split
  · rw [Tab.find?_del_ne m a a' hne h]
  · rw [Tab.find?_put_ne m a a' b hne]

/-- Bytes outside the written range read as before. -/
theorem Mem.read_writes_out (d : Byte) (l : List Byte) (m : List Host.Cell) (a a' : Nat) (h : Memory.wf d m = true)
    (hout : a' < a ∨ a + l.length ≤ a') : Mem.read d (Mem.writes d m a l) a' = Mem.read d m a' := by
  induction l generalizing m a with
  | nil => rfl
  | cons b l ih =>
    simp only [List.length_cons] at hout
    rw [Mem.writes, ih _ _ (Memory.wf_write d m a b h) (by omega),
      Mem.read_write_ne d m a a' b ((Memory.wf_iff d m).1 h).1 (by omega)]

/-- Device memory keeps its canonical form under the shared writes. -/
theorem State.poke_wf (a : Nat) (l : List Byte) (s : State) (h : Memory.wf 0 s.mem = true) :
    Memory.wf 0 (s.poke a l).mem = true := Memory.wf_writes 0 s.mem a l h

theorem State.pokes_wf (l : List (Nat × Byte)) (s : State) (h : Memory.wf 0 s.mem = true) :
    Memory.wf 0 (s.pokes l).mem = true := Memory.wf_foldl 0 l s.mem h

theorem State.storeAt_wf (a : Nat) (l : List Byte) (s : State) (h : Memory.wf 0 s.mem = true) :
    Memory.wf 0 (s.storeAt a l).mem = true := by
  unfold State.storeAt
  split
  · exact h
  · exact h
  · exact h
  · exact State.poke_wf _ l s h

/-- The memory and the flash of the reset state are in canonical form. -/
theorem State.reset_wf : Memory.wf 0 State.reset.mem = true ∧ Memory.wf 0xFF State.reset.store.flash = true :=
  ⟨rfl, rfl⟩

end Machine

end Sys2Proof
end

