-- ==== Sys2Proof/Laws/Bytes.lean ====
section
/-! SUPPORT. Little-endian bytes, and reading back what was written to device memory. -/

namespace Sys2Proof.Machine

@[simp] theorem leBytes_length (n v : Nat) : (leBytes n v).length = n := by
  induction n generalizing v with
  | zero => rfl
  | succ n ih => simp [leBytes, ih]

/-- A number that fits is read back from its bytes. -/
theorem leNat_leBytes (n v : Nat) (h : v < 256 ^ n) : leNat (leBytes n v) = v := by
  induction n generalizing v with
  | zero => simp only [Nat.pow_zero, Nat.lt_one_iff] at h; simp [leBytes, leNat, h]
  | succ n ih =>
    have h1 : v / 256 < 256 ^ n := by
      rw [Nat.div_lt_iff_lt_mul (by decide)]
      rwa [Nat.pow_succ] at h
    rw [leBytes, leNat, ih _ h1, BitVec.toNat_ofNat]
    show v % 256 + 256 * (v / 256) = v
    omega

/-- Bytes inside the written range read as written. -/
theorem Mem.read_writes_in (d : Byte) (l : List Byte) (m : List Host.Cell) (a i : Nat) (h : Memory.wf d m = true)
    (hi : i < l.length) : Mem.read d (Mem.writes d m a l) (a + i) = l[i] := by
  induction l generalizing m a i with
  | nil => simp at hi
  | cons b l ih =>
    have hw := Memory.wf_write d m a b h
    cases i with
    | zero =>
      rw [Mem.writes, Mem.read_writes_out d l _ (a + 1) (a + 0) hw (by omega)]
      exact Mem.read_write_self d m a b ((Memory.wf_iff d m).1 h).1
    | succ i =>
      have := ih (Mem.write d m a b) (a + 1) i hw (by simpa using hi)
      rw [Mem.writes, show a + (i + 1) = a + 1 + i by omega, this]
      rfl

/-- What was poked is read back. -/
theorem State.read_poke (s : State) (a i n : Nat) (l : List Byte) (h : Memory.wf 0 s.mem = true) (hi : i + n ≤ l.length) :
    (s.poke a l).read (a + i) n = slice l i n := by
  apply List.ext_getElem
  · simp [State.read, slice]; omega
  · intro j h1 h2
    simp only [State.read, List.length_map, List.length_range] at h1
    simp only [State.read, List.getElem_map, List.getElem_range, slice, List.getElem_take, List.getElem_drop]
    rw [Nat.add_assoc]
    exact Mem.read_writes_in 0 l s.mem a (i + j) h (by omega)

/-- A number poked as part of a run of bytes is read back. -/
theorem State.readNat_poke (s : State) (a n v : Nat) (p q : List Byte) (h : Memory.wf 0 s.mem = true) (hv : v < 256 ^ n) :
    (s.poke a (p ++ leBytes n v ++ q)).readNat (a + p.length) n = v := by
  unfold State.readNat
  rw [State.read_poke s a p.length n _ h (by simp)]
  have : slice (p ++ leBytes n v ++ q) p.length n = leBytes n v := by
    simp [slice, List.append_assoc]
  rw [this, leNat_leBytes n v hv]

end Sys2Proof.Machine
end

