-- ==== Sys2Proof/Laws/State.lean ====
section
/-! SUPPORT. What the primitive updates of the state leave as it was: one lemma a field and update, each true by
unfolding the update. -/

namespace Sys2Proof.Machine

namespace State

/-! ### setVal -/

@[simp] theorem setVal_pending (k : Nat) (v : Val) (s : State) : (s.setVal k v).pending = s.pending := rfl
@[simp] theorem setVal_now (k : Nat) (v : Val) (s : State) : (s.setVal k v).now = s.now := rfl
@[simp] theorem setVal_free (k : Nat) (v : Val) (s : State) : (s.setVal k v).free = s.free := rfl
@[simp] theorem setVal_out (k : Nat) (v : Val) (s : State) : (s.setVal k v).out = s.out := rfl
@[simp] theorem setVal_dict (k : Nat) (v : Val) (s : State) : (s.setVal k v).dict = s.dict := rfl
@[simp] theorem setVal_own (k : Nat) (v : Val) (s : State) : (s.setVal k v).own = s.own := rfl
@[simp] theorem setVal_store (k : Nat) (v : Val) (s : State) : (s.setVal k v).store = s.store := rfl
@[simp] theorem setVal_rst (k : Nat) (v : Val) (s : State) : (s.setVal k v).rst = s.rst := rfl
@[simp] theorem setVal_mem (k : Nat) (v : Val) (s : State) : (s.setVal k v).mem = s.mem := rfl
@[simp] theorem setVal_tiles (k : Nat) (v : Val) (s : State) : (s.setVal k v).tiles = s.tiles := rfl
@[simp] theorem setVal_colls (k : Nat) (v : Val) (s : State) : (s.setVal k v).colls = s.colls := rfl
@[simp] theorem setVal_jobTotals (k : Nat) (v : Val) (s : State) : (s.setVal k v).jobTotals = s.jobTotals := rfl
@[simp] theorem setVal_host (k : Nat) (v : Val) (s : State) : (s.setVal k v).host = s.host := rfl
@[simp] theorem setVal_streams (k : Nat) (v : Val) (s : State) : (s.setVal k v).streams = s.streams := rfl
@[simp] theorem setVal_bridges (k : Nat) (v : Val) (s : State) : (s.setVal k v).bridges = s.bridges := rfl
@[simp] theorem setVal_mm (k : Nat) (v : Val) (s : State) : (s.setVal k v).mm = s.mm := rfl
@[simp] theorem setVal_health (k : Nat) (v : Val) (s : State) : (s.setVal k v).health = s.health := rfl
@[simp] theorem setVal_jobs (k : Nat) (v : Val) (s : State) : (s.setVal k v).jobs = s.jobs := rfl
@[simp] theorem setVal_net (k : Nat) (v : Val) (s : State) : (s.setVal k v).net = s.net := rfl
@[simp] theorem setVal_lock (k : Nat) (v : Val) (s : State) : (s.setVal k v).lock = s.lock := rfl
@[simp] theorem setVal_trace (k : Nat) (v : Val) (s : State) : (s.setVal k v).trace = s.trace := rfl
@[simp] theorem setVal_fab (k : Nat) (v : Val) (s : State) : (s.setVal k v).fab = s.fab := rfl
@[simp] theorem setVal_dma (k : Nat) (v : Val) (s : State) : (s.setVal k v).dma = s.dma := rfl
@[simp] theorem setVal_cfg (k : Nat) (v : Val) (s : State) : (s.setVal k v).cfg = s.cfg := rfl
@[simp] theorem setVal_sec (k : Nat) (v : Val) (s : State) : (s.setVal k v).sec = s.sec := rfl
@[simp] theorem setVal_jtag (k : Nat) (v : Val) (s : State) : (s.setVal k v).jtag = s.jtag := rfl
@[simp] theorem setVal_gone (k : Nat) (v : Val) (s : State) : (s.setVal k v).gone = s.gone := rfl

/-! ### unset -/

@[simp] theorem unset_pending (k : Nat) (s : State) : (s.unset k).pending = s.pending := rfl
@[simp] theorem unset_now (k : Nat) (s : State) : (s.unset k).now = s.now := rfl
@[simp] theorem unset_free (k : Nat) (s : State) : (s.unset k).free = s.free := rfl
@[simp] theorem unset_out (k : Nat) (s : State) : (s.unset k).out = s.out := rfl
@[simp] theorem unset_dict (k : Nat) (s : State) : (s.unset k).dict = s.dict := rfl
@[simp] theorem unset_own (k : Nat) (s : State) : (s.unset k).own = s.own := rfl
@[simp] theorem unset_store (k : Nat) (s : State) : (s.unset k).store = s.store := rfl
@[simp] theorem unset_rst (k : Nat) (s : State) : (s.unset k).rst = s.rst := rfl
@[simp] theorem unset_mem (k : Nat) (s : State) : (s.unset k).mem = s.mem := rfl
@[simp] theorem unset_tiles (k : Nat) (s : State) : (s.unset k).tiles = s.tiles := rfl
@[simp] theorem unset_colls (k : Nat) (s : State) : (s.unset k).colls = s.colls := rfl
@[simp] theorem unset_jobTotals (k : Nat) (s : State) : (s.unset k).jobTotals = s.jobTotals := rfl
@[simp] theorem unset_host (k : Nat) (s : State) : (s.unset k).host = s.host := rfl
@[simp] theorem unset_streams (k : Nat) (s : State) : (s.unset k).streams = s.streams := rfl
@[simp] theorem unset_bridges (k : Nat) (s : State) : (s.unset k).bridges = s.bridges := rfl
@[simp] theorem unset_mm (k : Nat) (s : State) : (s.unset k).mm = s.mm := rfl
@[simp] theorem unset_health (k : Nat) (s : State) : (s.unset k).health = s.health := rfl
@[simp] theorem unset_jobs (k : Nat) (s : State) : (s.unset k).jobs = s.jobs := rfl
@[simp] theorem unset_net (k : Nat) (s : State) : (s.unset k).net = s.net := rfl
@[simp] theorem unset_lock (k : Nat) (s : State) : (s.unset k).lock = s.lock := rfl
@[simp] theorem unset_trace (k : Nat) (s : State) : (s.unset k).trace = s.trace := rfl
@[simp] theorem unset_fab (k : Nat) (s : State) : (s.unset k).fab = s.fab := rfl
@[simp] theorem unset_dma (k : Nat) (s : State) : (s.unset k).dma = s.dma := rfl
@[simp] theorem unset_cfg (k : Nat) (s : State) : (s.unset k).cfg = s.cfg := rfl
@[simp] theorem unset_sec (k : Nat) (s : State) : (s.unset k).sec = s.sec := rfl
@[simp] theorem unset_jtag (k : Nat) (s : State) : (s.unset k).jtag = s.jtag := rfl
@[simp] theorem unset_gone (k : Nat) (s : State) : (s.unset k).gone = s.gone := rfl

/-! ### setNum -/

@[simp] theorem setNum_pending (k n : Nat) (s : State) : (s.setNum k n).pending = s.pending := rfl
@[simp] theorem setNum_now (k n : Nat) (s : State) : (s.setNum k n).now = s.now := rfl
@[simp] theorem setNum_free (k n : Nat) (s : State) : (s.setNum k n).free = s.free := rfl
@[simp] theorem setNum_out (k n : Nat) (s : State) : (s.setNum k n).out = s.out := rfl
@[simp] theorem setNum_dict (k n : Nat) (s : State) : (s.setNum k n).dict = s.dict := rfl
@[simp] theorem setNum_own (k n : Nat) (s : State) : (s.setNum k n).own = s.own := rfl
@[simp] theorem setNum_store (k n : Nat) (s : State) : (s.setNum k n).store = s.store := rfl
@[simp] theorem setNum_rst (k n : Nat) (s : State) : (s.setNum k n).rst = s.rst := rfl
@[simp] theorem setNum_mem (k n : Nat) (s : State) : (s.setNum k n).mem = s.mem := rfl
@[simp] theorem setNum_tiles (k n : Nat) (s : State) : (s.setNum k n).tiles = s.tiles := rfl
@[simp] theorem setNum_colls (k n : Nat) (s : State) : (s.setNum k n).colls = s.colls := rfl
@[simp] theorem setNum_jobTotals (k n : Nat) (s : State) : (s.setNum k n).jobTotals = s.jobTotals := rfl
@[simp] theorem setNum_host (k n : Nat) (s : State) : (s.setNum k n).host = s.host := rfl
@[simp] theorem setNum_streams (k n : Nat) (s : State) : (s.setNum k n).streams = s.streams := rfl
@[simp] theorem setNum_bridges (k n : Nat) (s : State) : (s.setNum k n).bridges = s.bridges := rfl
@[simp] theorem setNum_mm (k n : Nat) (s : State) : (s.setNum k n).mm = s.mm := rfl
@[simp] theorem setNum_health (k n : Nat) (s : State) : (s.setNum k n).health = s.health := rfl
@[simp] theorem setNum_jobs (k n : Nat) (s : State) : (s.setNum k n).jobs = s.jobs := rfl
@[simp] theorem setNum_net (k n : Nat) (s : State) : (s.setNum k n).net = s.net := rfl
@[simp] theorem setNum_lock (k n : Nat) (s : State) : (s.setNum k n).lock = s.lock := rfl
@[simp] theorem setNum_trace (k n : Nat) (s : State) : (s.setNum k n).trace = s.trace := rfl
@[simp] theorem setNum_fab (k n : Nat) (s : State) : (s.setNum k n).fab = s.fab := rfl
@[simp] theorem setNum_dma (k n : Nat) (s : State) : (s.setNum k n).dma = s.dma := rfl
@[simp] theorem setNum_cfg (k n : Nat) (s : State) : (s.setNum k n).cfg = s.cfg := rfl
@[simp] theorem setNum_sec (k n : Nat) (s : State) : (s.setNum k n).sec = s.sec := rfl
@[simp] theorem setNum_jtag (k n : Nat) (s : State) : (s.setNum k n).jtag = s.jtag := rfl
@[simp] theorem setNum_gone (k n : Nat) (s : State) : (s.setNum k n).gone = s.gone := rfl

/-! ### setBytes -/

@[simp] theorem setBytes_pending (k : Nat) (l : List Byte) (s : State) : (s.setBytes k l).pending = s.pending := rfl
@[simp] theorem setBytes_now (k : Nat) (l : List Byte) (s : State) : (s.setBytes k l).now = s.now := rfl
@[simp] theorem setBytes_free (k : Nat) (l : List Byte) (s : State) : (s.setBytes k l).free = s.free := rfl
@[simp] theorem setBytes_out (k : Nat) (l : List Byte) (s : State) : (s.setBytes k l).out = s.out := rfl
@[simp] theorem setBytes_dict (k : Nat) (l : List Byte) (s : State) : (s.setBytes k l).dict = s.dict := rfl
@[simp] theorem setBytes_own (k : Nat) (l : List Byte) (s : State) : (s.setBytes k l).own = s.own := rfl
@[simp] theorem setBytes_store (k : Nat) (l : List Byte) (s : State) : (s.setBytes k l).store = s.store := rfl
@[simp] theorem setBytes_rst (k : Nat) (l : List Byte) (s : State) : (s.setBytes k l).rst = s.rst := rfl
@[simp] theorem setBytes_mem (k : Nat) (l : List Byte) (s : State) : (s.setBytes k l).mem = s.mem := rfl
@[simp] theorem setBytes_tiles (k : Nat) (l : List Byte) (s : State) : (s.setBytes k l).tiles = s.tiles := rfl
@[simp] theorem setBytes_colls (k : Nat) (l : List Byte) (s : State) : (s.setBytes k l).colls = s.colls := rfl
@[simp] theorem setBytes_jobTotals (k : Nat) (l : List Byte) (s : State) : (s.setBytes k l).jobTotals = s.jobTotals := rfl
@[simp] theorem setBytes_host (k : Nat) (l : List Byte) (s : State) : (s.setBytes k l).host = s.host := rfl
@[simp] theorem setBytes_streams (k : Nat) (l : List Byte) (s : State) : (s.setBytes k l).streams = s.streams := rfl
@[simp] theorem setBytes_bridges (k : Nat) (l : List Byte) (s : State) : (s.setBytes k l).bridges = s.bridges := rfl
@[simp] theorem setBytes_mm (k : Nat) (l : List Byte) (s : State) : (s.setBytes k l).mm = s.mm := rfl
@[simp] theorem setBytes_health (k : Nat) (l : List Byte) (s : State) : (s.setBytes k l).health = s.health := rfl
@[simp] theorem setBytes_jobs (k : Nat) (l : List Byte) (s : State) : (s.setBytes k l).jobs = s.jobs := rfl
@[simp] theorem setBytes_net (k : Nat) (l : List Byte) (s : State) : (s.setBytes k l).net = s.net := rfl
@[simp] theorem setBytes_lock (k : Nat) (l : List Byte) (s : State) : (s.setBytes k l).lock = s.lock := rfl
@[simp] theorem setBytes_trace (k : Nat) (l : List Byte) (s : State) : (s.setBytes k l).trace = s.trace := rfl
@[simp] theorem setBytes_fab (k : Nat) (l : List Byte) (s : State) : (s.setBytes k l).fab = s.fab := rfl
@[simp] theorem setBytes_dma (k : Nat) (l : List Byte) (s : State) : (s.setBytes k l).dma = s.dma := rfl
@[simp] theorem setBytes_cfg (k : Nat) (l : List Byte) (s : State) : (s.setBytes k l).cfg = s.cfg := rfl
@[simp] theorem setBytes_sec (k : Nat) (l : List Byte) (s : State) : (s.setBytes k l).sec = s.sec := rfl
@[simp] theorem setBytes_jtag (k : Nat) (l : List Byte) (s : State) : (s.setBytes k l).jtag = s.jtag := rfl
@[simp] theorem setBytes_gone (k : Nat) (l : List Byte) (s : State) : (s.setBytes k l).gone = s.gone := rfl

/-! ### bump -/

@[simp] theorem bump_pending (k n : Nat) (s : State) : (s.bump k n).pending = s.pending := rfl
@[simp] theorem bump_now (k n : Nat) (s : State) : (s.bump k n).now = s.now := rfl
@[simp] theorem bump_free (k n : Nat) (s : State) : (s.bump k n).free = s.free := rfl
@[simp] theorem bump_out (k n : Nat) (s : State) : (s.bump k n).out = s.out := rfl
@[simp] theorem bump_dict (k n : Nat) (s : State) : (s.bump k n).dict = s.dict := rfl
@[simp] theorem bump_own (k n : Nat) (s : State) : (s.bump k n).own = s.own := rfl
@[simp] theorem bump_store (k n : Nat) (s : State) : (s.bump k n).store = s.store := rfl
@[simp] theorem bump_rst (k n : Nat) (s : State) : (s.bump k n).rst = s.rst := rfl
@[simp] theorem bump_mem (k n : Nat) (s : State) : (s.bump k n).mem = s.mem := rfl
@[simp] theorem bump_tiles (k n : Nat) (s : State) : (s.bump k n).tiles = s.tiles := rfl
@[simp] theorem bump_colls (k n : Nat) (s : State) : (s.bump k n).colls = s.colls := rfl
@[simp] theorem bump_jobTotals (k n : Nat) (s : State) : (s.bump k n).jobTotals = s.jobTotals := rfl
@[simp] theorem bump_host (k n : Nat) (s : State) : (s.bump k n).host = s.host := rfl
@[simp] theorem bump_streams (k n : Nat) (s : State) : (s.bump k n).streams = s.streams := rfl
@[simp] theorem bump_bridges (k n : Nat) (s : State) : (s.bump k n).bridges = s.bridges := rfl
@[simp] theorem bump_mm (k n : Nat) (s : State) : (s.bump k n).mm = s.mm := rfl
@[simp] theorem bump_health (k n : Nat) (s : State) : (s.bump k n).health = s.health := rfl
@[simp] theorem bump_jobs (k n : Nat) (s : State) : (s.bump k n).jobs = s.jobs := rfl
@[simp] theorem bump_net (k n : Nat) (s : State) : (s.bump k n).net = s.net := rfl
@[simp] theorem bump_lock (k n : Nat) (s : State) : (s.bump k n).lock = s.lock := rfl
@[simp] theorem bump_trace (k n : Nat) (s : State) : (s.bump k n).trace = s.trace := rfl
@[simp] theorem bump_fab (k n : Nat) (s : State) : (s.bump k n).fab = s.fab := rfl
@[simp] theorem bump_dma (k n : Nat) (s : State) : (s.bump k n).dma = s.dma := rfl
@[simp] theorem bump_cfg (k n : Nat) (s : State) : (s.bump k n).cfg = s.cfg := rfl
@[simp] theorem bump_sec (k n : Nat) (s : State) : (s.bump k n).sec = s.sec := rfl
@[simp] theorem bump_jtag (k n : Nat) (s : State) : (s.bump k n).jtag = s.jtag := rfl
@[simp] theorem bump_gone (k n : Nat) (s : State) : (s.bump k n).gone = s.gone := rfl

/-! ### high -/

@[simp] theorem high_pending (k n : Nat) (s : State) : (s.high k n).pending = s.pending := rfl
@[simp] theorem high_now (k n : Nat) (s : State) : (s.high k n).now = s.now := rfl
@[simp] theorem high_free (k n : Nat) (s : State) : (s.high k n).free = s.free := rfl
@[simp] theorem high_out (k n : Nat) (s : State) : (s.high k n).out = s.out := rfl
@[simp] theorem high_dict (k n : Nat) (s : State) : (s.high k n).dict = s.dict := rfl
@[simp] theorem high_own (k n : Nat) (s : State) : (s.high k n).own = s.own := rfl
@[simp] theorem high_store (k n : Nat) (s : State) : (s.high k n).store = s.store := rfl
@[simp] theorem high_rst (k n : Nat) (s : State) : (s.high k n).rst = s.rst := rfl
@[simp] theorem high_mem (k n : Nat) (s : State) : (s.high k n).mem = s.mem := rfl
@[simp] theorem high_tiles (k n : Nat) (s : State) : (s.high k n).tiles = s.tiles := rfl
@[simp] theorem high_colls (k n : Nat) (s : State) : (s.high k n).colls = s.colls := rfl
@[simp] theorem high_jobTotals (k n : Nat) (s : State) : (s.high k n).jobTotals = s.jobTotals := rfl
@[simp] theorem high_host (k n : Nat) (s : State) : (s.high k n).host = s.host := rfl
@[simp] theorem high_streams (k n : Nat) (s : State) : (s.high k n).streams = s.streams := rfl
@[simp] theorem high_bridges (k n : Nat) (s : State) : (s.high k n).bridges = s.bridges := rfl
@[simp] theorem high_mm (k n : Nat) (s : State) : (s.high k n).mm = s.mm := rfl
@[simp] theorem high_health (k n : Nat) (s : State) : (s.high k n).health = s.health := rfl
@[simp] theorem high_jobs (k n : Nat) (s : State) : (s.high k n).jobs = s.jobs := rfl
@[simp] theorem high_net (k n : Nat) (s : State) : (s.high k n).net = s.net := rfl
@[simp] theorem high_lock (k n : Nat) (s : State) : (s.high k n).lock = s.lock := rfl
@[simp] theorem high_trace (k n : Nat) (s : State) : (s.high k n).trace = s.trace := rfl
@[simp] theorem high_fab (k n : Nat) (s : State) : (s.high k n).fab = s.fab := rfl
@[simp] theorem high_dma (k n : Nat) (s : State) : (s.high k n).dma = s.dma := rfl
@[simp] theorem high_cfg (k n : Nat) (s : State) : (s.high k n).cfg = s.cfg := rfl
@[simp] theorem high_sec (k n : Nat) (s : State) : (s.high k n).sec = s.sec := rfl
@[simp] theorem high_jtag (k n : Nat) (s : State) : (s.high k n).jtag = s.jtag := rfl
@[simp] theorem high_gone (k n : Nat) (s : State) : (s.high k n).gone = s.gone := rfl

/-! ### drop1 -/

@[simp] theorem drop1_pending (k : Nat) (s : State) : (s.drop1 k).pending = s.pending := rfl
@[simp] theorem drop1_now (k : Nat) (s : State) : (s.drop1 k).now = s.now := rfl
@[simp] theorem drop1_free (k : Nat) (s : State) : (s.drop1 k).free = s.free := rfl
@[simp] theorem drop1_out (k : Nat) (s : State) : (s.drop1 k).out = s.out := rfl
@[simp] theorem drop1_dict (k : Nat) (s : State) : (s.drop1 k).dict = s.dict := rfl
@[simp] theorem drop1_own (k : Nat) (s : State) : (s.drop1 k).own = s.own := rfl
@[simp] theorem drop1_store (k : Nat) (s : State) : (s.drop1 k).store = s.store := rfl
@[simp] theorem drop1_rst (k : Nat) (s : State) : (s.drop1 k).rst = s.rst := rfl
@[simp] theorem drop1_mem (k : Nat) (s : State) : (s.drop1 k).mem = s.mem := rfl
@[simp] theorem drop1_tiles (k : Nat) (s : State) : (s.drop1 k).tiles = s.tiles := rfl
@[simp] theorem drop1_colls (k : Nat) (s : State) : (s.drop1 k).colls = s.colls := rfl
@[simp] theorem drop1_jobTotals (k : Nat) (s : State) : (s.drop1 k).jobTotals = s.jobTotals := rfl
@[simp] theorem drop1_host (k : Nat) (s : State) : (s.drop1 k).host = s.host := rfl
@[simp] theorem drop1_streams (k : Nat) (s : State) : (s.drop1 k).streams = s.streams := rfl
@[simp] theorem drop1_bridges (k : Nat) (s : State) : (s.drop1 k).bridges = s.bridges := rfl
@[simp] theorem drop1_mm (k : Nat) (s : State) : (s.drop1 k).mm = s.mm := rfl
@[simp] theorem drop1_health (k : Nat) (s : State) : (s.drop1 k).health = s.health := rfl
@[simp] theorem drop1_jobs (k : Nat) (s : State) : (s.drop1 k).jobs = s.jobs := rfl
@[simp] theorem drop1_net (k : Nat) (s : State) : (s.drop1 k).net = s.net := rfl
@[simp] theorem drop1_lock (k : Nat) (s : State) : (s.drop1 k).lock = s.lock := rfl
@[simp] theorem drop1_trace (k : Nat) (s : State) : (s.drop1 k).trace = s.trace := rfl
@[simp] theorem drop1_fab (k : Nat) (s : State) : (s.drop1 k).fab = s.fab := rfl
@[simp] theorem drop1_dma (k : Nat) (s : State) : (s.drop1 k).dma = s.dma := rfl
@[simp] theorem drop1_cfg (k : Nat) (s : State) : (s.drop1 k).cfg = s.cfg := rfl
@[simp] theorem drop1_sec (k : Nat) (s : State) : (s.drop1 k).sec = s.sec := rfl
@[simp] theorem drop1_jtag (k : Nat) (s : State) : (s.drop1 k).jtag = s.jtag := rfl
@[simp] theorem drop1_gone (k : Nat) (s : State) : (s.drop1 k).gone = s.gone := rfl

/-! ### upto -/

@[simp] theorem upto_pending (t : Nat) (s : State) : (s.upto t).pending = s.pending := rfl
@[simp] theorem upto_free (t : Nat) (s : State) : (s.upto t).free = s.free := rfl
@[simp] theorem upto_out (t : Nat) (s : State) : (s.upto t).out = s.out := rfl
@[simp] theorem upto_obj (t : Nat) (s : State) : (s.upto t).obj = s.obj := rfl
@[simp] theorem upto_dict (t : Nat) (s : State) : (s.upto t).dict = s.dict := rfl
@[simp] theorem upto_own (t : Nat) (s : State) : (s.upto t).own = s.own := rfl
@[simp] theorem upto_store (t : Nat) (s : State) : (s.upto t).store = s.store := rfl
@[simp] theorem upto_rst (t : Nat) (s : State) : (s.upto t).rst = s.rst := rfl
@[simp] theorem upto_mem (t : Nat) (s : State) : (s.upto t).mem = s.mem := rfl
@[simp] theorem upto_tiles (t : Nat) (s : State) : (s.upto t).tiles = s.tiles := rfl
@[simp] theorem upto_colls (t : Nat) (s : State) : (s.upto t).colls = s.colls := rfl
@[simp] theorem upto_jobTotals (t : Nat) (s : State) : (s.upto t).jobTotals = s.jobTotals := rfl
@[simp] theorem upto_host (t : Nat) (s : State) : (s.upto t).host = s.host := rfl
@[simp] theorem upto_streams (t : Nat) (s : State) : (s.upto t).streams = s.streams := rfl
@[simp] theorem upto_bridges (t : Nat) (s : State) : (s.upto t).bridges = s.bridges := rfl
@[simp] theorem upto_mm (t : Nat) (s : State) : (s.upto t).mm = s.mm := rfl
@[simp] theorem upto_health (t : Nat) (s : State) : (s.upto t).health = s.health := rfl
@[simp] theorem upto_jobs (t : Nat) (s : State) : (s.upto t).jobs = s.jobs := rfl
@[simp] theorem upto_net (t : Nat) (s : State) : (s.upto t).net = s.net := rfl
@[simp] theorem upto_lock (t : Nat) (s : State) : (s.upto t).lock = s.lock := rfl
@[simp] theorem upto_trace (t : Nat) (s : State) : (s.upto t).trace = s.trace := rfl
@[simp] theorem upto_fab (t : Nat) (s : State) : (s.upto t).fab = s.fab := rfl
@[simp] theorem upto_dma (t : Nat) (s : State) : (s.upto t).dma = s.dma := rfl
@[simp] theorem upto_cfg (t : Nat) (s : State) : (s.upto t).cfg = s.cfg := rfl
@[simp] theorem upto_sec (t : Nat) (s : State) : (s.upto t).sec = s.sec := rfl
@[simp] theorem upto_jtag (t : Nat) (s : State) : (s.upto t).jtag = s.jtag := rfl
@[simp] theorem upto_gone (t : Nat) (s : State) : (s.upto t).gone = s.gone := rfl

/-! ### emit -/

@[simp] theorem emit_pending (o : Out) (s : State) : (s.emit o).pending = s.pending := rfl
@[simp] theorem emit_now (o : Out) (s : State) : (s.emit o).now = s.now := rfl
@[simp] theorem emit_free (o : Out) (s : State) : (s.emit o).free = s.free := rfl
@[simp] theorem emit_obj (o : Out) (s : State) : (s.emit o).obj = s.obj := rfl
@[simp] theorem emit_dict (o : Out) (s : State) : (s.emit o).dict = s.dict := rfl
@[simp] theorem emit_own (o : Out) (s : State) : (s.emit o).own = s.own := rfl
@[simp] theorem emit_store (o : Out) (s : State) : (s.emit o).store = s.store := rfl
@[simp] theorem emit_rst (o : Out) (s : State) : (s.emit o).rst = s.rst := rfl
@[simp] theorem emit_mem (o : Out) (s : State) : (s.emit o).mem = s.mem := rfl
@[simp] theorem emit_tiles (o : Out) (s : State) : (s.emit o).tiles = s.tiles := rfl
@[simp] theorem emit_colls (o : Out) (s : State) : (s.emit o).colls = s.colls := rfl
@[simp] theorem emit_jobTotals (o : Out) (s : State) : (s.emit o).jobTotals = s.jobTotals := rfl
@[simp] theorem emit_host (o : Out) (s : State) : (s.emit o).host = s.host := rfl
@[simp] theorem emit_streams (o : Out) (s : State) : (s.emit o).streams = s.streams := rfl
@[simp] theorem emit_bridges (o : Out) (s : State) : (s.emit o).bridges = s.bridges := rfl
@[simp] theorem emit_mm (o : Out) (s : State) : (s.emit o).mm = s.mm := rfl
@[simp] theorem emit_health (o : Out) (s : State) : (s.emit o).health = s.health := rfl
@[simp] theorem emit_jobs (o : Out) (s : State) : (s.emit o).jobs = s.jobs := rfl
@[simp] theorem emit_net (o : Out) (s : State) : (s.emit o).net = s.net := rfl
@[simp] theorem emit_lock (o : Out) (s : State) : (s.emit o).lock = s.lock := rfl
@[simp] theorem emit_trace (o : Out) (s : State) : (s.emit o).trace = s.trace := rfl
@[simp] theorem emit_fab (o : Out) (s : State) : (s.emit o).fab = s.fab := rfl
@[simp] theorem emit_dma (o : Out) (s : State) : (s.emit o).dma = s.dma := rfl
@[simp] theorem emit_cfg (o : Out) (s : State) : (s.emit o).cfg = s.cfg := rfl
@[simp] theorem emit_sec (o : Out) (s : State) : (s.emit o).sec = s.sec := rfl
@[simp] theorem emit_jtag (o : Out) (s : State) : (s.emit o).jtag = s.jtag := rfl
@[simp] theorem emit_gone (o : Out) (s : State) : (s.emit o).gone = s.gone := rfl

/-! ### poke -/

@[simp] theorem poke_pending (a : Nat) (l : List Byte) (s : State) : (s.poke a l).pending = s.pending := rfl
@[simp] theorem poke_now (a : Nat) (l : List Byte) (s : State) : (s.poke a l).now = s.now := rfl
@[simp] theorem poke_free (a : Nat) (l : List Byte) (s : State) : (s.poke a l).free = s.free := rfl
@[simp] theorem poke_out (a : Nat) (l : List Byte) (s : State) : (s.poke a l).out = s.out := rfl
@[simp] theorem poke_obj (a : Nat) (l : List Byte) (s : State) : (s.poke a l).obj = s.obj := rfl
@[simp] theorem poke_dict (a : Nat) (l : List Byte) (s : State) : (s.poke a l).dict = s.dict := rfl
@[simp] theorem poke_own (a : Nat) (l : List Byte) (s : State) : (s.poke a l).own = s.own := rfl
@[simp] theorem poke_store (a : Nat) (l : List Byte) (s : State) : (s.poke a l).store = s.store := rfl
@[simp] theorem poke_rst (a : Nat) (l : List Byte) (s : State) : (s.poke a l).rst = s.rst := rfl
@[simp] theorem poke_tiles (a : Nat) (l : List Byte) (s : State) : (s.poke a l).tiles = s.tiles := rfl
@[simp] theorem poke_colls (a : Nat) (l : List Byte) (s : State) : (s.poke a l).colls = s.colls := rfl
@[simp] theorem poke_jobTotals (a : Nat) (l : List Byte) (s : State) : (s.poke a l).jobTotals = s.jobTotals := rfl
@[simp] theorem poke_host (a : Nat) (l : List Byte) (s : State) : (s.poke a l).host = s.host := rfl
@[simp] theorem poke_streams (a : Nat) (l : List Byte) (s : State) : (s.poke a l).streams = s.streams := rfl
@[simp] theorem poke_bridges (a : Nat) (l : List Byte) (s : State) : (s.poke a l).bridges = s.bridges := rfl
@[simp] theorem poke_mm (a : Nat) (l : List Byte) (s : State) : (s.poke a l).mm = s.mm := rfl
@[simp] theorem poke_health (a : Nat) (l : List Byte) (s : State) : (s.poke a l).health = s.health := rfl
@[simp] theorem poke_jobs (a : Nat) (l : List Byte) (s : State) : (s.poke a l).jobs = s.jobs := rfl
@[simp] theorem poke_net (a : Nat) (l : List Byte) (s : State) : (s.poke a l).net = s.net := rfl
@[simp] theorem poke_lock (a : Nat) (l : List Byte) (s : State) : (s.poke a l).lock = s.lock := rfl
@[simp] theorem poke_trace (a : Nat) (l : List Byte) (s : State) : (s.poke a l).trace = s.trace := rfl
@[simp] theorem poke_fab (a : Nat) (l : List Byte) (s : State) : (s.poke a l).fab = s.fab := rfl
@[simp] theorem poke_dma (a : Nat) (l : List Byte) (s : State) : (s.poke a l).dma = s.dma := rfl
@[simp] theorem poke_cfg (a : Nat) (l : List Byte) (s : State) : (s.poke a l).cfg = s.cfg := rfl
@[simp] theorem poke_sec (a : Nat) (l : List Byte) (s : State) : (s.poke a l).sec = s.sec := rfl
@[simp] theorem poke_jtag (a : Nat) (l : List Byte) (s : State) : (s.poke a l).jtag = s.jtag := rfl
@[simp] theorem poke_gone (a : Nat) (l : List Byte) (s : State) : (s.poke a l).gone = s.gone := rfl

/-! ### pokes -/

@[simp] theorem pokes_pending (l : List (Nat × Byte)) (s : State) : (s.pokes l).pending = s.pending := rfl
@[simp] theorem pokes_now (l : List (Nat × Byte)) (s : State) : (s.pokes l).now = s.now := rfl
@[simp] theorem pokes_free (l : List (Nat × Byte)) (s : State) : (s.pokes l).free = s.free := rfl
@[simp] theorem pokes_out (l : List (Nat × Byte)) (s : State) : (s.pokes l).out = s.out := rfl
@[simp] theorem pokes_obj (l : List (Nat × Byte)) (s : State) : (s.pokes l).obj = s.obj := rfl
@[simp] theorem pokes_dict (l : List (Nat × Byte)) (s : State) : (s.pokes l).dict = s.dict := rfl
@[simp] theorem pokes_own (l : List (Nat × Byte)) (s : State) : (s.pokes l).own = s.own := rfl
@[simp] theorem pokes_store (l : List (Nat × Byte)) (s : State) : (s.pokes l).store = s.store := rfl
@[simp] theorem pokes_rst (l : List (Nat × Byte)) (s : State) : (s.pokes l).rst = s.rst := rfl
@[simp] theorem pokes_tiles (l : List (Nat × Byte)) (s : State) : (s.pokes l).tiles = s.tiles := rfl
@[simp] theorem pokes_colls (l : List (Nat × Byte)) (s : State) : (s.pokes l).colls = s.colls := rfl
@[simp] theorem pokes_jobTotals (l : List (Nat × Byte)) (s : State) : (s.pokes l).jobTotals = s.jobTotals := rfl
@[simp] theorem pokes_host (l : List (Nat × Byte)) (s : State) : (s.pokes l).host = s.host := rfl
@[simp] theorem pokes_streams (l : List (Nat × Byte)) (s : State) : (s.pokes l).streams = s.streams := rfl
@[simp] theorem pokes_bridges (l : List (Nat × Byte)) (s : State) : (s.pokes l).bridges = s.bridges := rfl
@[simp] theorem pokes_mm (l : List (Nat × Byte)) (s : State) : (s.pokes l).mm = s.mm := rfl
@[simp] theorem pokes_health (l : List (Nat × Byte)) (s : State) : (s.pokes l).health = s.health := rfl
@[simp] theorem pokes_jobs (l : List (Nat × Byte)) (s : State) : (s.pokes l).jobs = s.jobs := rfl
@[simp] theorem pokes_net (l : List (Nat × Byte)) (s : State) : (s.pokes l).net = s.net := rfl
@[simp] theorem pokes_lock (l : List (Nat × Byte)) (s : State) : (s.pokes l).lock = s.lock := rfl
@[simp] theorem pokes_trace (l : List (Nat × Byte)) (s : State) : (s.pokes l).trace = s.trace := rfl
@[simp] theorem pokes_fab (l : List (Nat × Byte)) (s : State) : (s.pokes l).fab = s.fab := rfl
@[simp] theorem pokes_dma (l : List (Nat × Byte)) (s : State) : (s.pokes l).dma = s.dma := rfl
@[simp] theorem pokes_cfg (l : List (Nat × Byte)) (s : State) : (s.pokes l).cfg = s.cfg := rfl
@[simp] theorem pokes_sec (l : List (Nat × Byte)) (s : State) : (s.pokes l).sec = s.sec := rfl
@[simp] theorem pokes_jtag (l : List (Nat × Byte)) (s : State) : (s.pokes l).jtag = s.jtag := rfl
@[simp] theorem pokes_gone (l : List (Nat × Byte)) (s : State) : (s.pokes l).gone = s.gone := rfl

@[simp] theorem upto_now (t : Nat) (s : State) : (s.upto t).now = max s.now t := rfl
@[simp] theorem emit_out (o : Out) (s : State) : (s.emit o).out = o :: s.out := rfl
@[simp] theorem poke_mem (a : Nat) (l : List Byte) (s : State) : (s.poke a l).mem = Mem.writes 0 s.mem a l := rfl
@[simp] theorem fresh_fst (s : State) : s.fresh.1 = Config.freeValue s.free := rfl
@[simp] theorem fresh_snd (s : State) : s.fresh.2 = { s with free := s.free + 1 } := rfl

end State

end Sys2Proof.Machine
end

