-- ==== Sys2Proof/Laws/Objects.lean ====
section
/-! SUPPORT. What the shared operations on objects do: reading after a write, and all that raising an event can
touch (the subscribers' queues and their EventsDropped). -/

namespace Sys2Proof.Machine

namespace State

/-! ## Reading after a write -/

@[simp] theorem val_setVal_self (k : Nat) (v : Val) (s : State) : (s.setVal k v).val k = v := by
  simp [val, setVal, Tab.find?_put_self]

theorem val_setVal_ne (k k' : Nat) (v : Val) (s : State) (h : k' ≠ k) : (s.setVal k v).val k' = s.val k' := by
  simp [val, setVal, Tab.find?_put_ne _ _ _ _ h]

@[simp] theorem num_setNum_self (k n : Nat) (s : State) : (s.setNum k n).num k = n := by
  simp [num, setNum, Val.toNat]

theorem num_setNum_ne (k k' n : Nat) (s : State) (h : k' ≠ k) : (s.setNum k n).num k' = s.num k' := by
  simp [num, setNum, val_setVal_ne k k' _ s h]

@[simp] theorem bytes_setBytes_self (k : Nat) (l : List Byte) (s : State) : (s.setBytes k l).bytes k = l := by
  simp [bytes, setBytes, Val.toBytes]

theorem num_setBytes_ne (k k' : Nat) (l : List Byte) (s : State) (h : k' ≠ k) : (s.setBytes k l).num k' = s.num k' := by
  simp [num, setBytes, val_setVal_ne k k' _ s h]

@[simp] theorem num_bump_self (k n : Nat) (s : State) : (s.bump k n).num k = min (s.num k + n) (maxOf k) :=
  num_setNum_self _ _ _

theorem num_bump_ne (k k' n : Nat) (s : State) (h : k' ≠ k) : (s.bump k n).num k' = s.num k' :=
  num_setNum_ne _ _ _ _ h

@[simp] theorem num_high_self (k n : Nat) (s : State) : (s.high k n).num k = min (max (s.num k) n) (maxOf k) :=
  num_setNum_self _ _ _

theorem num_high_ne (k k' n : Nat) (s : State) (h : k' ≠ k) : (s.high k n).num k' = s.num k' :=
  num_setNum_ne _ _ _ _ h

@[simp] theorem val_upto (t k : Nat) (s : State) : (s.upto t).val k = s.val k := rfl
@[simp] theorem num_upto (t k : Nat) (s : State) : (s.upto t).num k = s.num k := rfl
@[simp] theorem bytes_upto (t k : Nat) (s : State) : (s.upto t).bytes k = s.bytes k := rfl
@[simp] theorem val_emit (o : Out) (k : Nat) (s : State) : (s.emit o).val k = s.val k := rfl
@[simp] theorem num_emit (o : Out) (k : Nat) (s : State) : (s.emit o).num k = s.num k := rfl
@[simp] theorem bytes_emit (o : Out) (k : Nat) (s : State) : (s.emit o).bytes k = s.bytes k := rfl
@[simp] theorem val_poke (a : Nat) (l : List Byte) (k : Nat) (s : State) : (s.poke a l).val k = s.val k := rfl
@[simp] theorem num_poke (a : Nat) (l : List Byte) (k : Nat) (s : State) : (s.poke a l).num k = s.num k := rfl

/-! ## Raising an event -/

/-- A subscriber's claimant ID is below 0xFF. -/
theorem subscribers_lt (s : State) (k m : Nat) (h : m ∈ s.subscribers k) : m < 0xFF := by
  simp only [subscribers, List.mem_eraseDups, List.mem_map, List.mem_filter, Bool.and_eq_true, decide_eq_true_eq] at h
  obtain ⟨⟨a, v⟩, ⟨_, ⟨⟨⟨ha, hb⟩, _⟩, _⟩, _⟩, rfl⟩ := h
  show a / 256 - 0x1100 < 0xFF
  omega

/-- Outside the masters' records. -/
def Quiet (k : Nat) : Prop := ∀ m, m < 0xFF → k ≠ mrKey Obj.eventsDropped m

theorem quiet_of_lt (k : Nat) (h : k < Obj.eventsDropped) : Quiet k := by
  intro m _; unfold mrKey; omega

theorem quiet_of_ge (k : Nat) (h : Obj.eventsDropped + 0xFF00 ≤ k) : Quiet k := by
  intro m hm; unfold mrKey; omega

theorem val_queueEvent (e : Event) (m k : Nat) (s : State) (h : k ≠ mrKey Obj.eventsDropped m) :
    (s.queueEvent e m).val k = s.val k := by
  unfold queueEvent
  dsimp only
  split
  · exact val_setVal_ne _ _ _ _ h
  · rfl

theorem val_raiseVal (k b : Nat) (v : Val) (s : State) (k' : Nat) (h : Quiet k') : (s.raiseVal k b v).val k' = s.val k' := by
  have key : ∀ (l : List Nat) (t : State), (∀ m ∈ l, m < 0xFF) →
      (l.foldl (fun t m => t.queueEvent ⟨k, b, 1, v, t.now⟩ m) t).val k' = t.val k' := by
    intro l
    induction l with
    | nil => intros; rfl
    | cons m l ih =>
      intro t hl
      rw [List.foldl_cons, ih _ fun m hm => hl m (List.mem_cons_of_mem _ hm)]
      exact val_queueEvent _ _ _ _ (h m (hl m List.mem_cons_self))
  exact key _ _ fun m hm => subscribers_lt s k m hm

theorem num_raise (k b : Nat) (s : State) (k' : Nat) (h : Quiet k') : (s.raise k b).num k' = s.num k' := by
  simp [num, raise, val_raiseVal k b _ s k' h]

theorem bytes_raise (k b : Nat) (s : State) (k' : Nat) (h : Quiet k') : (s.raise k b).bytes k' = s.bytes k' := by
  simp [bytes, raise, val_raiseVal k b _ s k' h]

/-- A set flag reads 1, with what was set before (R64). -/
theorem num_setFlag_self (k b : Nat) (s : State) (h : Quiet k) : (s.setFlag k b).num k = s.num k ||| b := by
  rw [setFlag, num_raise _ _ _ _ h, num_setNum_self]

theorem num_setFlag_ne (k b k' : Nat) (s : State) (h : Quiet k') (hne : k' ≠ k) : (s.setFlag k b).num k' = s.num k' := by
  rw [setFlag, num_raise _ _ _ _ h, num_setNum_ne _ _ _ _ hne]

theorem num_setState_self (k v : Nat) (s : State) (h : Quiet k) : (s.setState k v).num k = v := by
  unfold setState
  split
  · assumption
  · rw [num_raise _ _ _ _ h, num_setNum_self]

theorem num_setState_ne (k v k' : Nat) (s : State) (h : Quiet k') (hne : k' ≠ k) :
    (s.setState k v).num k' = s.num k' := by
  unfold setState
  split
  · rfl
  · rw [num_raise _ _ _ _ h, num_setNum_ne _ _ _ _ hne]

/-! ## What raising an event leaves as it was -/

theorem queueEvent_pending (e : Event) (m : Nat) (s : State) : (s.queueEvent e m).pending = s.pending := by
  unfold queueEvent; dsimp only; split <;> rfl

theorem queueEvent_now (e : Event) (m : Nat) (s : State) : (s.queueEvent e m).now = s.now := by
  unfold queueEvent; dsimp only; split <;> rfl

theorem queueEvent_free (e : Event) (m : Nat) (s : State) : (s.queueEvent e m).free = s.free := by
  unfold queueEvent; dsimp only; split <;> rfl

theorem queueEvent_out (e : Event) (m : Nat) (s : State) : (s.queueEvent e m).out = s.out := by
  unfold queueEvent; dsimp only; split <;> rfl

theorem queueEvent_own (e : Event) (m : Nat) (s : State) : (s.queueEvent e m).own = s.own := by
  unfold queueEvent; dsimp only; split <;> rfl

theorem queueEvent_store (e : Event) (m : Nat) (s : State) : (s.queueEvent e m).store = s.store := by
  unfold queueEvent; dsimp only; split <;> rfl

theorem queueEvent_rst (e : Event) (m : Nat) (s : State) : (s.queueEvent e m).rst = s.rst := by
  unfold queueEvent; dsimp only; split <;> rfl

theorem queueEvent_mem (e : Event) (m : Nat) (s : State) : (s.queueEvent e m).mem = s.mem := by
  unfold queueEvent; dsimp only; split <;> rfl

theorem queueEvent_tiles (e : Event) (m : Nat) (s : State) : (s.queueEvent e m).tiles = s.tiles := by
  unfold queueEvent; dsimp only; split <;> rfl

theorem queueEvent_colls (e : Event) (m : Nat) (s : State) : (s.queueEvent e m).colls = s.colls := by
  unfold queueEvent; dsimp only; split <;> rfl

theorem queueEvent_jobTotals (e : Event) (m : Nat) (s : State) : (s.queueEvent e m).jobTotals = s.jobTotals := by
  unfold queueEvent; dsimp only; split <;> rfl

theorem queueEvent_host (e : Event) (m : Nat) (s : State) : (s.queueEvent e m).host = s.host := by
  unfold queueEvent; dsimp only; split <;> rfl

theorem queueEvent_streams (e : Event) (m : Nat) (s : State) : (s.queueEvent e m).streams = s.streams := by
  unfold queueEvent; dsimp only; split <;> rfl

theorem queueEvent_bridges (e : Event) (m : Nat) (s : State) : (s.queueEvent e m).bridges = s.bridges := by
  unfold queueEvent; dsimp only; split <;> rfl

theorem queueEvent_mm (e : Event) (m : Nat) (s : State) : (s.queueEvent e m).mm = s.mm := by
  unfold queueEvent; dsimp only; split <;> rfl

theorem queueEvent_health (e : Event) (m : Nat) (s : State) : (s.queueEvent e m).health = s.health := by
  unfold queueEvent; dsimp only; split <;> rfl

theorem queueEvent_jobs (e : Event) (m : Nat) (s : State) : (s.queueEvent e m).jobs = s.jobs := by
  unfold queueEvent; dsimp only; split <;> rfl

theorem queueEvent_net (e : Event) (m : Nat) (s : State) : (s.queueEvent e m).net = s.net := by
  unfold queueEvent; dsimp only; split <;> rfl

theorem queueEvent_lock (e : Event) (m : Nat) (s : State) : (s.queueEvent e m).lock = s.lock := by
  unfold queueEvent; dsimp only; split <;> rfl

theorem queueEvent_trace (e : Event) (m : Nat) (s : State) : (s.queueEvent e m).trace = s.trace := by
  unfold queueEvent; dsimp only; split <;> rfl

theorem queueEvent_fab (e : Event) (m : Nat) (s : State) : (s.queueEvent e m).fab = s.fab := by
  unfold queueEvent; dsimp only; split <;> rfl

theorem queueEvent_dma (e : Event) (m : Nat) (s : State) : (s.queueEvent e m).dma = s.dma := by
  unfold queueEvent; dsimp only; split <;> rfl

theorem queueEvent_cfg (e : Event) (m : Nat) (s : State) : (s.queueEvent e m).cfg = s.cfg := by
  unfold queueEvent; dsimp only; split <;> rfl

theorem queueEvent_sec (e : Event) (m : Nat) (s : State) : (s.queueEvent e m).sec = s.sec := by
  unfold queueEvent; dsimp only; split <;> rfl

theorem queueEvent_jtag (e : Event) (m : Nat) (s : State) : (s.queueEvent e m).jtag = s.jtag := by
  unfold queueEvent; dsimp only; split <;> rfl

theorem queueEvent_gone (e : Event) (m : Nat) (s : State) : (s.queueEvent e m).gone = s.gone := by
  unfold queueEvent; dsimp only; split <;> rfl

/-- A field that queueing an event keeps, raising one keeps. -/
theorem raiseVal_keeps {α : Type} (f : State → α) (hf : ∀ e m s, f (State.queueEvent e m s) = f s) (k b : Nat) (v : Val)
    (s : State) : f (s.raiseVal k b v) = f s := by
  have key : ∀ (l : List Nat) (t : State), f (l.foldl (fun t m => t.queueEvent ⟨k, b, 1, v, t.now⟩ m) t) = f t := by
    intro l
    induction l with
    | nil => intros; rfl
    | cons m l ih => intro t; rw [List.foldl_cons, ih, hf]
  exact key _ _

@[simp] theorem raiseVal_pending (k b : Nat) (v : Val) (s : State) : (s.raiseVal k b v).pending = s.pending :=
  raiseVal_keeps (·.pending) queueEvent_pending k b v s
@[simp] theorem raise_pending (k b : Nat) (s : State) : (s.raise k b).pending = s.pending := raiseVal_pending k b _ s
@[simp] theorem setFlag_pending (k b : Nat) (s : State) : (s.setFlag k b).pending = s.pending := raise_pending k b _
@[simp] theorem setState_pending (k v : Nat) (s : State) : (s.setState k v).pending = s.pending := by
  unfold setState; split
  · rfl
  · exact raise_pending k 0 _

@[simp] theorem raiseVal_now (k b : Nat) (v : Val) (s : State) : (s.raiseVal k b v).now = s.now :=
  raiseVal_keeps (·.now) queueEvent_now k b v s
@[simp] theorem raise_now (k b : Nat) (s : State) : (s.raise k b).now = s.now := raiseVal_now k b _ s
@[simp] theorem setFlag_now (k b : Nat) (s : State) : (s.setFlag k b).now = s.now := raise_now k b _
@[simp] theorem setState_now (k v : Nat) (s : State) : (s.setState k v).now = s.now := by
  unfold setState; split
  · rfl
  · exact raise_now k 0 _

@[simp] theorem raiseVal_free (k b : Nat) (v : Val) (s : State) : (s.raiseVal k b v).free = s.free :=
  raiseVal_keeps (·.free) queueEvent_free k b v s
@[simp] theorem raise_free (k b : Nat) (s : State) : (s.raise k b).free = s.free := raiseVal_free k b _ s
@[simp] theorem setFlag_free (k b : Nat) (s : State) : (s.setFlag k b).free = s.free := raise_free k b _
@[simp] theorem setState_free (k v : Nat) (s : State) : (s.setState k v).free = s.free := by
  unfold setState; split
  · rfl
  · exact raise_free k 0 _

@[simp] theorem raiseVal_out (k b : Nat) (v : Val) (s : State) : (s.raiseVal k b v).out = s.out :=
  raiseVal_keeps (·.out) queueEvent_out k b v s
@[simp] theorem raise_out (k b : Nat) (s : State) : (s.raise k b).out = s.out := raiseVal_out k b _ s
@[simp] theorem setFlag_out (k b : Nat) (s : State) : (s.setFlag k b).out = s.out := raise_out k b _
@[simp] theorem setState_out (k v : Nat) (s : State) : (s.setState k v).out = s.out := by
  unfold setState; split
  · rfl
  · exact raise_out k 0 _

@[simp] theorem raiseVal_own (k b : Nat) (v : Val) (s : State) : (s.raiseVal k b v).own = s.own :=
  raiseVal_keeps (·.own) queueEvent_own k b v s
@[simp] theorem raise_own (k b : Nat) (s : State) : (s.raise k b).own = s.own := raiseVal_own k b _ s
@[simp] theorem setFlag_own (k b : Nat) (s : State) : (s.setFlag k b).own = s.own := raise_own k b _
@[simp] theorem setState_own (k v : Nat) (s : State) : (s.setState k v).own = s.own := by
  unfold setState; split
  · rfl
  · exact raise_own k 0 _

@[simp] theorem raiseVal_store (k b : Nat) (v : Val) (s : State) : (s.raiseVal k b v).store = s.store :=
  raiseVal_keeps (·.store) queueEvent_store k b v s
@[simp] theorem raise_store (k b : Nat) (s : State) : (s.raise k b).store = s.store := raiseVal_store k b _ s
@[simp] theorem setFlag_store (k b : Nat) (s : State) : (s.setFlag k b).store = s.store := raise_store k b _
@[simp] theorem setState_store (k v : Nat) (s : State) : (s.setState k v).store = s.store := by
  unfold setState; split
  · rfl
  · exact raise_store k 0 _

@[simp] theorem raiseVal_rst (k b : Nat) (v : Val) (s : State) : (s.raiseVal k b v).rst = s.rst :=
  raiseVal_keeps (·.rst) queueEvent_rst k b v s
@[simp] theorem raise_rst (k b : Nat) (s : State) : (s.raise k b).rst = s.rst := raiseVal_rst k b _ s
@[simp] theorem setFlag_rst (k b : Nat) (s : State) : (s.setFlag k b).rst = s.rst := raise_rst k b _
@[simp] theorem setState_rst (k v : Nat) (s : State) : (s.setState k v).rst = s.rst := by
  unfold setState; split
  · rfl
  · exact raise_rst k 0 _

@[simp] theorem raiseVal_mem (k b : Nat) (v : Val) (s : State) : (s.raiseVal k b v).mem = s.mem :=
  raiseVal_keeps (·.mem) queueEvent_mem k b v s
@[simp] theorem raise_mem (k b : Nat) (s : State) : (s.raise k b).mem = s.mem := raiseVal_mem k b _ s
@[simp] theorem setFlag_mem (k b : Nat) (s : State) : (s.setFlag k b).mem = s.mem := raise_mem k b _
@[simp] theorem setState_mem (k v : Nat) (s : State) : (s.setState k v).mem = s.mem := by
  unfold setState; split
  · rfl
  · exact raise_mem k 0 _

@[simp] theorem raiseVal_tiles (k b : Nat) (v : Val) (s : State) : (s.raiseVal k b v).tiles = s.tiles :=
  raiseVal_keeps (·.tiles) queueEvent_tiles k b v s
@[simp] theorem raise_tiles (k b : Nat) (s : State) : (s.raise k b).tiles = s.tiles := raiseVal_tiles k b _ s
@[simp] theorem setFlag_tiles (k b : Nat) (s : State) : (s.setFlag k b).tiles = s.tiles := raise_tiles k b _
@[simp] theorem setState_tiles (k v : Nat) (s : State) : (s.setState k v).tiles = s.tiles := by
  unfold setState; split
  · rfl
  · exact raise_tiles k 0 _

@[simp] theorem raiseVal_colls (k b : Nat) (v : Val) (s : State) : (s.raiseVal k b v).colls = s.colls :=
  raiseVal_keeps (·.colls) queueEvent_colls k b v s
@[simp] theorem raise_colls (k b : Nat) (s : State) : (s.raise k b).colls = s.colls := raiseVal_colls k b _ s
@[simp] theorem setFlag_colls (k b : Nat) (s : State) : (s.setFlag k b).colls = s.colls := raise_colls k b _
@[simp] theorem setState_colls (k v : Nat) (s : State) : (s.setState k v).colls = s.colls := by
  unfold setState; split
  · rfl
  · exact raise_colls k 0 _

@[simp] theorem raiseVal_jobTotals (k b : Nat) (v : Val) (s : State) : (s.raiseVal k b v).jobTotals = s.jobTotals :=
  raiseVal_keeps (·.jobTotals) queueEvent_jobTotals k b v s
@[simp] theorem raise_jobTotals (k b : Nat) (s : State) : (s.raise k b).jobTotals = s.jobTotals := raiseVal_jobTotals k b _ s
@[simp] theorem setFlag_jobTotals (k b : Nat) (s : State) : (s.setFlag k b).jobTotals = s.jobTotals := raise_jobTotals k b _
@[simp] theorem setState_jobTotals (k v : Nat) (s : State) : (s.setState k v).jobTotals = s.jobTotals := by
  unfold setState; split
  · rfl
  · exact raise_jobTotals k 0 _

@[simp] theorem raiseVal_host (k b : Nat) (v : Val) (s : State) : (s.raiseVal k b v).host = s.host :=
  raiseVal_keeps (·.host) queueEvent_host k b v s
@[simp] theorem raise_host (k b : Nat) (s : State) : (s.raise k b).host = s.host := raiseVal_host k b _ s
@[simp] theorem setFlag_host (k b : Nat) (s : State) : (s.setFlag k b).host = s.host := raise_host k b _
@[simp] theorem setState_host (k v : Nat) (s : State) : (s.setState k v).host = s.host := by
  unfold setState; split
  · rfl
  · exact raise_host k 0 _

@[simp] theorem raiseVal_streams (k b : Nat) (v : Val) (s : State) : (s.raiseVal k b v).streams = s.streams :=
  raiseVal_keeps (·.streams) queueEvent_streams k b v s
@[simp] theorem raise_streams (k b : Nat) (s : State) : (s.raise k b).streams = s.streams := raiseVal_streams k b _ s
@[simp] theorem setFlag_streams (k b : Nat) (s : State) : (s.setFlag k b).streams = s.streams := raise_streams k b _
@[simp] theorem setState_streams (k v : Nat) (s : State) : (s.setState k v).streams = s.streams := by
  unfold setState; split
  · rfl
  · exact raise_streams k 0 _

@[simp] theorem raiseVal_bridges (k b : Nat) (v : Val) (s : State) : (s.raiseVal k b v).bridges = s.bridges :=
  raiseVal_keeps (·.bridges) queueEvent_bridges k b v s
@[simp] theorem raise_bridges (k b : Nat) (s : State) : (s.raise k b).bridges = s.bridges := raiseVal_bridges k b _ s
@[simp] theorem setFlag_bridges (k b : Nat) (s : State) : (s.setFlag k b).bridges = s.bridges := raise_bridges k b _
@[simp] theorem setState_bridges (k v : Nat) (s : State) : (s.setState k v).bridges = s.bridges := by
  unfold setState; split
  · rfl
  · exact raise_bridges k 0 _

@[simp] theorem raiseVal_mm (k b : Nat) (v : Val) (s : State) : (s.raiseVal k b v).mm = s.mm :=
  raiseVal_keeps (·.mm) queueEvent_mm k b v s
@[simp] theorem raise_mm (k b : Nat) (s : State) : (s.raise k b).mm = s.mm := raiseVal_mm k b _ s
@[simp] theorem setFlag_mm (k b : Nat) (s : State) : (s.setFlag k b).mm = s.mm := raise_mm k b _
@[simp] theorem setState_mm (k v : Nat) (s : State) : (s.setState k v).mm = s.mm := by
  unfold setState; split
  · rfl
  · exact raise_mm k 0 _

@[simp] theorem raiseVal_health (k b : Nat) (v : Val) (s : State) : (s.raiseVal k b v).health = s.health :=
  raiseVal_keeps (·.health) queueEvent_health k b v s
@[simp] theorem raise_health (k b : Nat) (s : State) : (s.raise k b).health = s.health := raiseVal_health k b _ s
@[simp] theorem setFlag_health (k b : Nat) (s : State) : (s.setFlag k b).health = s.health := raise_health k b _
@[simp] theorem setState_health (k v : Nat) (s : State) : (s.setState k v).health = s.health := by
  unfold setState; split
  · rfl
  · exact raise_health k 0 _

@[simp] theorem raiseVal_jobs (k b : Nat) (v : Val) (s : State) : (s.raiseVal k b v).jobs = s.jobs :=
  raiseVal_keeps (·.jobs) queueEvent_jobs k b v s
@[simp] theorem raise_jobs (k b : Nat) (s : State) : (s.raise k b).jobs = s.jobs := raiseVal_jobs k b _ s
@[simp] theorem setFlag_jobs (k b : Nat) (s : State) : (s.setFlag k b).jobs = s.jobs := raise_jobs k b _
@[simp] theorem setState_jobs (k v : Nat) (s : State) : (s.setState k v).jobs = s.jobs := by
  unfold setState; split
  · rfl
  · exact raise_jobs k 0 _

@[simp] theorem raiseVal_net (k b : Nat) (v : Val) (s : State) : (s.raiseVal k b v).net = s.net :=
  raiseVal_keeps (·.net) queueEvent_net k b v s
@[simp] theorem raise_net (k b : Nat) (s : State) : (s.raise k b).net = s.net := raiseVal_net k b _ s
@[simp] theorem setFlag_net (k b : Nat) (s : State) : (s.setFlag k b).net = s.net := raise_net k b _
@[simp] theorem setState_net (k v : Nat) (s : State) : (s.setState k v).net = s.net := by
  unfold setState; split
  · rfl
  · exact raise_net k 0 _

@[simp] theorem raiseVal_lock (k b : Nat) (v : Val) (s : State) : (s.raiseVal k b v).lock = s.lock :=
  raiseVal_keeps (·.lock) queueEvent_lock k b v s
@[simp] theorem raise_lock (k b : Nat) (s : State) : (s.raise k b).lock = s.lock := raiseVal_lock k b _ s
@[simp] theorem setFlag_lock (k b : Nat) (s : State) : (s.setFlag k b).lock = s.lock := raise_lock k b _
@[simp] theorem setState_lock (k v : Nat) (s : State) : (s.setState k v).lock = s.lock := by
  unfold setState; split
  · rfl
  · exact raise_lock k 0 _

@[simp] theorem raiseVal_trace (k b : Nat) (v : Val) (s : State) : (s.raiseVal k b v).trace = s.trace :=
  raiseVal_keeps (·.trace) queueEvent_trace k b v s
@[simp] theorem raise_trace (k b : Nat) (s : State) : (s.raise k b).trace = s.trace := raiseVal_trace k b _ s
@[simp] theorem setFlag_trace (k b : Nat) (s : State) : (s.setFlag k b).trace = s.trace := raise_trace k b _
@[simp] theorem setState_trace (k v : Nat) (s : State) : (s.setState k v).trace = s.trace := by
  unfold setState; split
  · rfl
  · exact raise_trace k 0 _

@[simp] theorem raiseVal_fab (k b : Nat) (v : Val) (s : State) : (s.raiseVal k b v).fab = s.fab :=
  raiseVal_keeps (·.fab) queueEvent_fab k b v s
@[simp] theorem raise_fab (k b : Nat) (s : State) : (s.raise k b).fab = s.fab := raiseVal_fab k b _ s
@[simp] theorem setFlag_fab (k b : Nat) (s : State) : (s.setFlag k b).fab = s.fab := raise_fab k b _
@[simp] theorem setState_fab (k v : Nat) (s : State) : (s.setState k v).fab = s.fab := by
  unfold setState; split
  · rfl
  · exact raise_fab k 0 _

@[simp] theorem raiseVal_dma (k b : Nat) (v : Val) (s : State) : (s.raiseVal k b v).dma = s.dma :=
  raiseVal_keeps (·.dma) queueEvent_dma k b v s
@[simp] theorem raise_dma (k b : Nat) (s : State) : (s.raise k b).dma = s.dma := raiseVal_dma k b _ s
@[simp] theorem setFlag_dma (k b : Nat) (s : State) : (s.setFlag k b).dma = s.dma := raise_dma k b _
@[simp] theorem setState_dma (k v : Nat) (s : State) : (s.setState k v).dma = s.dma := by
  unfold setState; split
  · rfl
  · exact raise_dma k 0 _

@[simp] theorem raiseVal_cfg (k b : Nat) (v : Val) (s : State) : (s.raiseVal k b v).cfg = s.cfg :=
  raiseVal_keeps (·.cfg) queueEvent_cfg k b v s
@[simp] theorem raise_cfg (k b : Nat) (s : State) : (s.raise k b).cfg = s.cfg := raiseVal_cfg k b _ s
@[simp] theorem setFlag_cfg (k b : Nat) (s : State) : (s.setFlag k b).cfg = s.cfg := raise_cfg k b _
@[simp] theorem setState_cfg (k v : Nat) (s : State) : (s.setState k v).cfg = s.cfg := by
  unfold setState; split
  · rfl
  · exact raise_cfg k 0 _

@[simp] theorem raiseVal_sec (k b : Nat) (v : Val) (s : State) : (s.raiseVal k b v).sec = s.sec :=
  raiseVal_keeps (·.sec) queueEvent_sec k b v s
@[simp] theorem raise_sec (k b : Nat) (s : State) : (s.raise k b).sec = s.sec := raiseVal_sec k b _ s
@[simp] theorem setFlag_sec (k b : Nat) (s : State) : (s.setFlag k b).sec = s.sec := raise_sec k b _
@[simp] theorem setState_sec (k v : Nat) (s : State) : (s.setState k v).sec = s.sec := by
  unfold setState; split
  · rfl
  · exact raise_sec k 0 _

@[simp] theorem raiseVal_jtag (k b : Nat) (v : Val) (s : State) : (s.raiseVal k b v).jtag = s.jtag :=
  raiseVal_keeps (·.jtag) queueEvent_jtag k b v s
@[simp] theorem raise_jtag (k b : Nat) (s : State) : (s.raise k b).jtag = s.jtag := raiseVal_jtag k b _ s
@[simp] theorem setFlag_jtag (k b : Nat) (s : State) : (s.setFlag k b).jtag = s.jtag := raise_jtag k b _
@[simp] theorem setState_jtag (k v : Nat) (s : State) : (s.setState k v).jtag = s.jtag := by
  unfold setState; split
  · rfl
  · exact raise_jtag k 0 _

@[simp] theorem raiseVal_gone (k b : Nat) (v : Val) (s : State) : (s.raiseVal k b v).gone = s.gone :=
  raiseVal_keeps (·.gone) queueEvent_gone k b v s
@[simp] theorem raise_gone (k b : Nat) (s : State) : (s.raise k b).gone = s.gone := raiseVal_gone k b _ s
@[simp] theorem setFlag_gone (k b : Nat) (s : State) : (s.setFlag k b).gone = s.gone := raise_gone k b _
@[simp] theorem setState_gone (k v : Nat) (s : State) : (s.setState k v).gone = s.gone := by
  unfold setState; split
  · rfl
  · exact raise_gone k 0 _

end State

end Sys2Proof.Machine
end

