-- ==== Sys2Proof/Laws/Parts.lean ====
section
/-! SUPPORT. What the updates of one part of the state leave as it was, reading a part after its update, and that moves of
memory and the flash's operations keep the canonical form. -/

namespace Sys2Proof.Machine

namespace State

/-! ### setTile -/

@[simp] theorem setTile_pending (g : Nat) (t : TileS) (s : State) : (s.setTile g t).pending = s.pending := rfl
@[simp] theorem setTile_now (g : Nat) (t : TileS) (s : State) : (s.setTile g t).now = s.now := rfl
@[simp] theorem setTile_free (g : Nat) (t : TileS) (s : State) : (s.setTile g t).free = s.free := rfl
@[simp] theorem setTile_out (g : Nat) (t : TileS) (s : State) : (s.setTile g t).out = s.out := rfl
@[simp] theorem setTile_obj (g : Nat) (t : TileS) (s : State) : (s.setTile g t).obj = s.obj := rfl
@[simp] theorem setTile_dict (g : Nat) (t : TileS) (s : State) : (s.setTile g t).dict = s.dict := rfl
@[simp] theorem setTile_own (g : Nat) (t : TileS) (s : State) : (s.setTile g t).own = s.own := rfl
@[simp] theorem setTile_store (g : Nat) (t : TileS) (s : State) : (s.setTile g t).store = s.store := rfl
@[simp] theorem setTile_rst (g : Nat) (t : TileS) (s : State) : (s.setTile g t).rst = s.rst := rfl
@[simp] theorem setTile_mem (g : Nat) (t : TileS) (s : State) : (s.setTile g t).mem = s.mem := rfl
@[simp] theorem setTile_colls (g : Nat) (t : TileS) (s : State) : (s.setTile g t).colls = s.colls := rfl
@[simp] theorem setTile_jobTotals (g : Nat) (t : TileS) (s : State) : (s.setTile g t).jobTotals = s.jobTotals := rfl
@[simp] theorem setTile_host (g : Nat) (t : TileS) (s : State) : (s.setTile g t).host = s.host := rfl
@[simp] theorem setTile_streams (g : Nat) (t : TileS) (s : State) : (s.setTile g t).streams = s.streams := rfl
@[simp] theorem setTile_bridges (g : Nat) (t : TileS) (s : State) : (s.setTile g t).bridges = s.bridges := rfl
@[simp] theorem setTile_mm (g : Nat) (t : TileS) (s : State) : (s.setTile g t).mm = s.mm := rfl
@[simp] theorem setTile_health (g : Nat) (t : TileS) (s : State) : (s.setTile g t).health = s.health := rfl
@[simp] theorem setTile_jobs (g : Nat) (t : TileS) (s : State) : (s.setTile g t).jobs = s.jobs := rfl
@[simp] theorem setTile_net (g : Nat) (t : TileS) (s : State) : (s.setTile g t).net = s.net := rfl
@[simp] theorem setTile_lock (g : Nat) (t : TileS) (s : State) : (s.setTile g t).lock = s.lock := rfl
@[simp] theorem setTile_trace (g : Nat) (t : TileS) (s : State) : (s.setTile g t).trace = s.trace := rfl
@[simp] theorem setTile_fab (g : Nat) (t : TileS) (s : State) : (s.setTile g t).fab = s.fab := rfl
@[simp] theorem setTile_dma (g : Nat) (t : TileS) (s : State) : (s.setTile g t).dma = s.dma := rfl
@[simp] theorem setTile_cfg (g : Nat) (t : TileS) (s : State) : (s.setTile g t).cfg = s.cfg := rfl
@[simp] theorem setTile_sec (g : Nat) (t : TileS) (s : State) : (s.setTile g t).sec = s.sec := rfl
@[simp] theorem setTile_jtag (g : Nat) (t : TileS) (s : State) : (s.setTile g t).jtag = s.jtag := rfl
@[simp] theorem setTile_gone (g : Nat) (t : TileS) (s : State) : (s.setTile g t).gone = s.gone := rfl

/-! ### putStream -/

@[simp] theorem putStream_pending (k : Nat) (m : StreamS) (s : State) : (s.putStream k m).pending = s.pending := rfl
@[simp] theorem putStream_now (k : Nat) (m : StreamS) (s : State) : (s.putStream k m).now = s.now := rfl
@[simp] theorem putStream_free (k : Nat) (m : StreamS) (s : State) : (s.putStream k m).free = s.free := rfl
@[simp] theorem putStream_out (k : Nat) (m : StreamS) (s : State) : (s.putStream k m).out = s.out := rfl
@[simp] theorem putStream_obj (k : Nat) (m : StreamS) (s : State) : (s.putStream k m).obj = s.obj := rfl
@[simp] theorem putStream_dict (k : Nat) (m : StreamS) (s : State) : (s.putStream k m).dict = s.dict := rfl
@[simp] theorem putStream_own (k : Nat) (m : StreamS) (s : State) : (s.putStream k m).own = s.own := rfl
@[simp] theorem putStream_store (k : Nat) (m : StreamS) (s : State) : (s.putStream k m).store = s.store := rfl
@[simp] theorem putStream_rst (k : Nat) (m : StreamS) (s : State) : (s.putStream k m).rst = s.rst := rfl
@[simp] theorem putStream_mem (k : Nat) (m : StreamS) (s : State) : (s.putStream k m).mem = s.mem := rfl
@[simp] theorem putStream_tiles (k : Nat) (m : StreamS) (s : State) : (s.putStream k m).tiles = s.tiles := rfl
@[simp] theorem putStream_colls (k : Nat) (m : StreamS) (s : State) : (s.putStream k m).colls = s.colls := rfl
@[simp] theorem putStream_jobTotals (k : Nat) (m : StreamS) (s : State) : (s.putStream k m).jobTotals = s.jobTotals := rfl
@[simp] theorem putStream_host (k : Nat) (m : StreamS) (s : State) : (s.putStream k m).host = s.host := rfl
@[simp] theorem putStream_bridges (k : Nat) (m : StreamS) (s : State) : (s.putStream k m).bridges = s.bridges := rfl
@[simp] theorem putStream_mm (k : Nat) (m : StreamS) (s : State) : (s.putStream k m).mm = s.mm := rfl
@[simp] theorem putStream_health (k : Nat) (m : StreamS) (s : State) : (s.putStream k m).health = s.health := rfl
@[simp] theorem putStream_jobs (k : Nat) (m : StreamS) (s : State) : (s.putStream k m).jobs = s.jobs := rfl
@[simp] theorem putStream_net (k : Nat) (m : StreamS) (s : State) : (s.putStream k m).net = s.net := rfl
@[simp] theorem putStream_lock (k : Nat) (m : StreamS) (s : State) : (s.putStream k m).lock = s.lock := rfl
@[simp] theorem putStream_trace (k : Nat) (m : StreamS) (s : State) : (s.putStream k m).trace = s.trace := rfl
@[simp] theorem putStream_fab (k : Nat) (m : StreamS) (s : State) : (s.putStream k m).fab = s.fab := rfl
@[simp] theorem putStream_dma (k : Nat) (m : StreamS) (s : State) : (s.putStream k m).dma = s.dma := rfl
@[simp] theorem putStream_cfg (k : Nat) (m : StreamS) (s : State) : (s.putStream k m).cfg = s.cfg := rfl
@[simp] theorem putStream_sec (k : Nat) (m : StreamS) (s : State) : (s.putStream k m).sec = s.sec := rfl
@[simp] theorem putStream_jtag (k : Nat) (m : StreamS) (s : State) : (s.putStream k m).jtag = s.jtag := rfl
@[simp] theorem putStream_gone (k : Nat) (m : StreamS) (s : State) : (s.putStream k m).gone = s.gone := rfl

/-! ### setPort -/

@[simp] theorem setPort_pending (p : Nat) (q : PeerPort) (s : State) : (s.setPort p q).pending = s.pending := rfl
@[simp] theorem setPort_now (p : Nat) (q : PeerPort) (s : State) : (s.setPort p q).now = s.now := rfl
@[simp] theorem setPort_free (p : Nat) (q : PeerPort) (s : State) : (s.setPort p q).free = s.free := rfl
@[simp] theorem setPort_out (p : Nat) (q : PeerPort) (s : State) : (s.setPort p q).out = s.out := rfl
@[simp] theorem setPort_obj (p : Nat) (q : PeerPort) (s : State) : (s.setPort p q).obj = s.obj := rfl
@[simp] theorem setPort_dict (p : Nat) (q : PeerPort) (s : State) : (s.setPort p q).dict = s.dict := rfl
@[simp] theorem setPort_own (p : Nat) (q : PeerPort) (s : State) : (s.setPort p q).own = s.own := rfl
@[simp] theorem setPort_store (p : Nat) (q : PeerPort) (s : State) : (s.setPort p q).store = s.store := rfl
@[simp] theorem setPort_rst (p : Nat) (q : PeerPort) (s : State) : (s.setPort p q).rst = s.rst := rfl
@[simp] theorem setPort_mem (p : Nat) (q : PeerPort) (s : State) : (s.setPort p q).mem = s.mem := rfl
@[simp] theorem setPort_tiles (p : Nat) (q : PeerPort) (s : State) : (s.setPort p q).tiles = s.tiles := rfl
@[simp] theorem setPort_colls (p : Nat) (q : PeerPort) (s : State) : (s.setPort p q).colls = s.colls := rfl
@[simp] theorem setPort_jobTotals (p : Nat) (q : PeerPort) (s : State) : (s.setPort p q).jobTotals = s.jobTotals := rfl
@[simp] theorem setPort_host (p : Nat) (q : PeerPort) (s : State) : (s.setPort p q).host = s.host := rfl
@[simp] theorem setPort_streams (p : Nat) (q : PeerPort) (s : State) : (s.setPort p q).streams = s.streams := rfl
@[simp] theorem setPort_bridges (p : Nat) (q : PeerPort) (s : State) : (s.setPort p q).bridges = s.bridges := rfl
@[simp] theorem setPort_mm (p : Nat) (q : PeerPort) (s : State) : (s.setPort p q).mm = s.mm := rfl
@[simp] theorem setPort_health (p : Nat) (q : PeerPort) (s : State) : (s.setPort p q).health = s.health := rfl
@[simp] theorem setPort_jobs (p : Nat) (q : PeerPort) (s : State) : (s.setPort p q).jobs = s.jobs := rfl
@[simp] theorem setPort_lock (p : Nat) (q : PeerPort) (s : State) : (s.setPort p q).lock = s.lock := rfl
@[simp] theorem setPort_trace (p : Nat) (q : PeerPort) (s : State) : (s.setPort p q).trace = s.trace := rfl
@[simp] theorem setPort_fab (p : Nat) (q : PeerPort) (s : State) : (s.setPort p q).fab = s.fab := rfl
@[simp] theorem setPort_dma (p : Nat) (q : PeerPort) (s : State) : (s.setPort p q).dma = s.dma := rfl
@[simp] theorem setPort_cfg (p : Nat) (q : PeerPort) (s : State) : (s.setPort p q).cfg = s.cfg := rfl
@[simp] theorem setPort_sec (p : Nat) (q : PeerPort) (s : State) : (s.setPort p q).sec = s.sec := rfl
@[simp] theorem setPort_jtag (p : Nat) (q : PeerPort) (s : State) : (s.setPort p q).jtag = s.jtag := rfl
@[simp] theorem setPort_gone (p : Nat) (q : PeerPort) (s : State) : (s.setPort p q).gone = s.gone := rfl

/-! ### setLine -/

@[simp] theorem setLine_pending (p : Nat) (l : LineS) (s : State) : (s.setLine p l).pending = s.pending := rfl
@[simp] theorem setLine_now (p : Nat) (l : LineS) (s : State) : (s.setLine p l).now = s.now := rfl
@[simp] theorem setLine_free (p : Nat) (l : LineS) (s : State) : (s.setLine p l).free = s.free := rfl
@[simp] theorem setLine_out (p : Nat) (l : LineS) (s : State) : (s.setLine p l).out = s.out := rfl
@[simp] theorem setLine_obj (p : Nat) (l : LineS) (s : State) : (s.setLine p l).obj = s.obj := rfl
@[simp] theorem setLine_dict (p : Nat) (l : LineS) (s : State) : (s.setLine p l).dict = s.dict := rfl
@[simp] theorem setLine_own (p : Nat) (l : LineS) (s : State) : (s.setLine p l).own = s.own := rfl
@[simp] theorem setLine_store (p : Nat) (l : LineS) (s : State) : (s.setLine p l).store = s.store := rfl
@[simp] theorem setLine_rst (p : Nat) (l : LineS) (s : State) : (s.setLine p l).rst = s.rst := rfl
@[simp] theorem setLine_mem (p : Nat) (l : LineS) (s : State) : (s.setLine p l).mem = s.mem := rfl
@[simp] theorem setLine_tiles (p : Nat) (l : LineS) (s : State) : (s.setLine p l).tiles = s.tiles := rfl
@[simp] theorem setLine_colls (p : Nat) (l : LineS) (s : State) : (s.setLine p l).colls = s.colls := rfl
@[simp] theorem setLine_jobTotals (p : Nat) (l : LineS) (s : State) : (s.setLine p l).jobTotals = s.jobTotals := rfl
@[simp] theorem setLine_host (p : Nat) (l : LineS) (s : State) : (s.setLine p l).host = s.host := rfl
@[simp] theorem setLine_streams (p : Nat) (l : LineS) (s : State) : (s.setLine p l).streams = s.streams := rfl
@[simp] theorem setLine_bridges (p : Nat) (l : LineS) (s : State) : (s.setLine p l).bridges = s.bridges := rfl
@[simp] theorem setLine_mm (p : Nat) (l : LineS) (s : State) : (s.setLine p l).mm = s.mm := rfl
@[simp] theorem setLine_health (p : Nat) (l : LineS) (s : State) : (s.setLine p l).health = s.health := rfl
@[simp] theorem setLine_jobs (p : Nat) (l : LineS) (s : State) : (s.setLine p l).jobs = s.jobs := rfl
@[simp] theorem setLine_lock (p : Nat) (l : LineS) (s : State) : (s.setLine p l).lock = s.lock := rfl
@[simp] theorem setLine_trace (p : Nat) (l : LineS) (s : State) : (s.setLine p l).trace = s.trace := rfl
@[simp] theorem setLine_fab (p : Nat) (l : LineS) (s : State) : (s.setLine p l).fab = s.fab := rfl
@[simp] theorem setLine_dma (p : Nat) (l : LineS) (s : State) : (s.setLine p l).dma = s.dma := rfl
@[simp] theorem setLine_cfg (p : Nat) (l : LineS) (s : State) : (s.setLine p l).cfg = s.cfg := rfl
@[simp] theorem setLine_sec (p : Nat) (l : LineS) (s : State) : (s.setLine p l).sec = s.sec := rfl
@[simp] theorem setLine_jtag (p : Nat) (l : LineS) (s : State) : (s.setLine p l).jtag = s.jtag := rfl
@[simp] theorem setLine_gone (p : Nat) (l : LineS) (s : State) : (s.setLine p l).gone = s.gone := rfl

/-! ### setFeed -/

@[simp] theorem setFeed_pending (q : Nat) (f : FeedS) (s : State) : (s.setFeed q f).pending = s.pending := rfl
@[simp] theorem setFeed_now (q : Nat) (f : FeedS) (s : State) : (s.setFeed q f).now = s.now := rfl
@[simp] theorem setFeed_free (q : Nat) (f : FeedS) (s : State) : (s.setFeed q f).free = s.free := rfl
@[simp] theorem setFeed_out (q : Nat) (f : FeedS) (s : State) : (s.setFeed q f).out = s.out := rfl
@[simp] theorem setFeed_obj (q : Nat) (f : FeedS) (s : State) : (s.setFeed q f).obj = s.obj := rfl
@[simp] theorem setFeed_dict (q : Nat) (f : FeedS) (s : State) : (s.setFeed q f).dict = s.dict := rfl
@[simp] theorem setFeed_own (q : Nat) (f : FeedS) (s : State) : (s.setFeed q f).own = s.own := rfl
@[simp] theorem setFeed_store (q : Nat) (f : FeedS) (s : State) : (s.setFeed q f).store = s.store := rfl
@[simp] theorem setFeed_rst (q : Nat) (f : FeedS) (s : State) : (s.setFeed q f).rst = s.rst := rfl
@[simp] theorem setFeed_mem (q : Nat) (f : FeedS) (s : State) : (s.setFeed q f).mem = s.mem := rfl
@[simp] theorem setFeed_tiles (q : Nat) (f : FeedS) (s : State) : (s.setFeed q f).tiles = s.tiles := rfl
@[simp] theorem setFeed_colls (q : Nat) (f : FeedS) (s : State) : (s.setFeed q f).colls = s.colls := rfl
@[simp] theorem setFeed_jobTotals (q : Nat) (f : FeedS) (s : State) : (s.setFeed q f).jobTotals = s.jobTotals := rfl
@[simp] theorem setFeed_host (q : Nat) (f : FeedS) (s : State) : (s.setFeed q f).host = s.host := rfl
@[simp] theorem setFeed_streams (q : Nat) (f : FeedS) (s : State) : (s.setFeed q f).streams = s.streams := rfl
@[simp] theorem setFeed_bridges (q : Nat) (f : FeedS) (s : State) : (s.setFeed q f).bridges = s.bridges := rfl
@[simp] theorem setFeed_mm (q : Nat) (f : FeedS) (s : State) : (s.setFeed q f).mm = s.mm := rfl
@[simp] theorem setFeed_health (q : Nat) (f : FeedS) (s : State) : (s.setFeed q f).health = s.health := rfl
@[simp] theorem setFeed_jobs (q : Nat) (f : FeedS) (s : State) : (s.setFeed q f).jobs = s.jobs := rfl
@[simp] theorem setFeed_net (q : Nat) (f : FeedS) (s : State) : (s.setFeed q f).net = s.net := rfl
@[simp] theorem setFeed_lock (q : Nat) (f : FeedS) (s : State) : (s.setFeed q f).lock = s.lock := rfl
@[simp] theorem setFeed_fab (q : Nat) (f : FeedS) (s : State) : (s.setFeed q f).fab = s.fab := rfl
@[simp] theorem setFeed_dma (q : Nat) (f : FeedS) (s : State) : (s.setFeed q f).dma = s.dma := rfl
@[simp] theorem setFeed_cfg (q : Nat) (f : FeedS) (s : State) : (s.setFeed q f).cfg = s.cfg := rfl
@[simp] theorem setFeed_sec (q : Nat) (f : FeedS) (s : State) : (s.setFeed q f).sec = s.sec := rfl
@[simp] theorem setFeed_jtag (q : Nat) (f : FeedS) (s : State) : (s.setFeed q f).jtag = s.jtag := rfl
@[simp] theorem setFeed_gone (q : Nat) (f : FeedS) (s : State) : (s.setFeed q f).gone = s.gone := rfl

/-! ### setQueueS -/

@[simp] theorem setQueueS_pending (c b : Nat) (q : QueueS) (s : State) : (s.setQueueS c b q).pending = s.pending := rfl
@[simp] theorem setQueueS_now (c b : Nat) (q : QueueS) (s : State) : (s.setQueueS c b q).now = s.now := rfl
@[simp] theorem setQueueS_free (c b : Nat) (q : QueueS) (s : State) : (s.setQueueS c b q).free = s.free := rfl
@[simp] theorem setQueueS_out (c b : Nat) (q : QueueS) (s : State) : (s.setQueueS c b q).out = s.out := rfl
@[simp] theorem setQueueS_obj (c b : Nat) (q : QueueS) (s : State) : (s.setQueueS c b q).obj = s.obj := rfl
@[simp] theorem setQueueS_dict (c b : Nat) (q : QueueS) (s : State) : (s.setQueueS c b q).dict = s.dict := rfl
@[simp] theorem setQueueS_own (c b : Nat) (q : QueueS) (s : State) : (s.setQueueS c b q).own = s.own := rfl
@[simp] theorem setQueueS_store (c b : Nat) (q : QueueS) (s : State) : (s.setQueueS c b q).store = s.store := rfl
@[simp] theorem setQueueS_rst (c b : Nat) (q : QueueS) (s : State) : (s.setQueueS c b q).rst = s.rst := rfl
@[simp] theorem setQueueS_mem (c b : Nat) (q : QueueS) (s : State) : (s.setQueueS c b q).mem = s.mem := rfl
@[simp] theorem setQueueS_tiles (c b : Nat) (q : QueueS) (s : State) : (s.setQueueS c b q).tiles = s.tiles := rfl
@[simp] theorem setQueueS_colls (c b : Nat) (q : QueueS) (s : State) : (s.setQueueS c b q).colls = s.colls := rfl
@[simp] theorem setQueueS_jobTotals (c b : Nat) (q : QueueS) (s : State) : (s.setQueueS c b q).jobTotals = s.jobTotals := rfl
@[simp] theorem setQueueS_host (c b : Nat) (q : QueueS) (s : State) : (s.setQueueS c b q).host = s.host := rfl
@[simp] theorem setQueueS_streams (c b : Nat) (q : QueueS) (s : State) : (s.setQueueS c b q).streams = s.streams := rfl
@[simp] theorem setQueueS_bridges (c b : Nat) (q : QueueS) (s : State) : (s.setQueueS c b q).bridges = s.bridges := rfl
@[simp] theorem setQueueS_mm (c b : Nat) (q : QueueS) (s : State) : (s.setQueueS c b q).mm = s.mm := rfl
@[simp] theorem setQueueS_health (c b : Nat) (q : QueueS) (s : State) : (s.setQueueS c b q).health = s.health := rfl
@[simp] theorem setQueueS_jobs (c b : Nat) (q : QueueS) (s : State) : (s.setQueueS c b q).jobs = s.jobs := rfl
@[simp] theorem setQueueS_net (c b : Nat) (q : QueueS) (s : State) : (s.setQueueS c b q).net = s.net := rfl
@[simp] theorem setQueueS_lock (c b : Nat) (q : QueueS) (s : State) : (s.setQueueS c b q).lock = s.lock := rfl
@[simp] theorem setQueueS_trace (c b : Nat) (q : QueueS) (s : State) : (s.setQueueS c b q).trace = s.trace := rfl
@[simp] theorem setQueueS_dma (c b : Nat) (q : QueueS) (s : State) : (s.setQueueS c b q).dma = s.dma := rfl
@[simp] theorem setQueueS_cfg (c b : Nat) (q : QueueS) (s : State) : (s.setQueueS c b q).cfg = s.cfg := rfl
@[simp] theorem setQueueS_sec (c b : Nat) (q : QueueS) (s : State) : (s.setQueueS c b q).sec = s.sec := rfl
@[simp] theorem setQueueS_jtag (c b : Nat) (q : QueueS) (s : State) : (s.setQueueS c b q).jtag = s.jtag := rfl
@[simp] theorem setQueueS_gone (c b : Nat) (q : QueueS) (s : State) : (s.setQueueS c b q).gone = s.gone := rfl

/-! ### setBlock -/

@[simp] theorem setBlock_pending (c b : Nat) (v : BlockS) (s : State) : (s.setBlock c b v).pending = s.pending := rfl
@[simp] theorem setBlock_now (c b : Nat) (v : BlockS) (s : State) : (s.setBlock c b v).now = s.now := rfl
@[simp] theorem setBlock_free (c b : Nat) (v : BlockS) (s : State) : (s.setBlock c b v).free = s.free := rfl
@[simp] theorem setBlock_out (c b : Nat) (v : BlockS) (s : State) : (s.setBlock c b v).out = s.out := rfl
@[simp] theorem setBlock_obj (c b : Nat) (v : BlockS) (s : State) : (s.setBlock c b v).obj = s.obj := rfl
@[simp] theorem setBlock_dict (c b : Nat) (v : BlockS) (s : State) : (s.setBlock c b v).dict = s.dict := rfl
@[simp] theorem setBlock_own (c b : Nat) (v : BlockS) (s : State) : (s.setBlock c b v).own = s.own := rfl
@[simp] theorem setBlock_store (c b : Nat) (v : BlockS) (s : State) : (s.setBlock c b v).store = s.store := rfl
@[simp] theorem setBlock_rst (c b : Nat) (v : BlockS) (s : State) : (s.setBlock c b v).rst = s.rst := rfl
@[simp] theorem setBlock_mem (c b : Nat) (v : BlockS) (s : State) : (s.setBlock c b v).mem = s.mem := rfl
@[simp] theorem setBlock_tiles (c b : Nat) (v : BlockS) (s : State) : (s.setBlock c b v).tiles = s.tiles := rfl
@[simp] theorem setBlock_colls (c b : Nat) (v : BlockS) (s : State) : (s.setBlock c b v).colls = s.colls := rfl
@[simp] theorem setBlock_jobTotals (c b : Nat) (v : BlockS) (s : State) : (s.setBlock c b v).jobTotals = s.jobTotals := rfl
@[simp] theorem setBlock_host (c b : Nat) (v : BlockS) (s : State) : (s.setBlock c b v).host = s.host := rfl
@[simp] theorem setBlock_streams (c b : Nat) (v : BlockS) (s : State) : (s.setBlock c b v).streams = s.streams := rfl
@[simp] theorem setBlock_bridges (c b : Nat) (v : BlockS) (s : State) : (s.setBlock c b v).bridges = s.bridges := rfl
@[simp] theorem setBlock_mm (c b : Nat) (v : BlockS) (s : State) : (s.setBlock c b v).mm = s.mm := rfl
@[simp] theorem setBlock_health (c b : Nat) (v : BlockS) (s : State) : (s.setBlock c b v).health = s.health := rfl
@[simp] theorem setBlock_jobs (c b : Nat) (v : BlockS) (s : State) : (s.setBlock c b v).jobs = s.jobs := rfl
@[simp] theorem setBlock_net (c b : Nat) (v : BlockS) (s : State) : (s.setBlock c b v).net = s.net := rfl
@[simp] theorem setBlock_lock (c b : Nat) (v : BlockS) (s : State) : (s.setBlock c b v).lock = s.lock := rfl
@[simp] theorem setBlock_trace (c b : Nat) (v : BlockS) (s : State) : (s.setBlock c b v).trace = s.trace := rfl
@[simp] theorem setBlock_dma (c b : Nat) (v : BlockS) (s : State) : (s.setBlock c b v).dma = s.dma := rfl
@[simp] theorem setBlock_cfg (c b : Nat) (v : BlockS) (s : State) : (s.setBlock c b v).cfg = s.cfg := rfl
@[simp] theorem setBlock_sec (c b : Nat) (v : BlockS) (s : State) : (s.setBlock c b v).sec = s.sec := rfl
@[simp] theorem setBlock_jtag (c b : Nat) (v : BlockS) (s : State) : (s.setBlock c b v).jtag = s.jtag := rfl
@[simp] theorem setBlock_gone (c b : Nat) (v : BlockS) (s : State) : (s.setBlock c b v).gone = s.gone := rfl

/-! ### setBridge -/

@[simp] theorem setBridge_pending (c : Nat) (b : BridgeS) (s : State) : (s.setBridge c b).pending = s.pending := rfl
@[simp] theorem setBridge_now (c : Nat) (b : BridgeS) (s : State) : (s.setBridge c b).now = s.now := rfl
@[simp] theorem setBridge_free (c : Nat) (b : BridgeS) (s : State) : (s.setBridge c b).free = s.free := rfl
@[simp] theorem setBridge_out (c : Nat) (b : BridgeS) (s : State) : (s.setBridge c b).out = s.out := rfl
@[simp] theorem setBridge_obj (c : Nat) (b : BridgeS) (s : State) : (s.setBridge c b).obj = s.obj := rfl
@[simp] theorem setBridge_dict (c : Nat) (b : BridgeS) (s : State) : (s.setBridge c b).dict = s.dict := rfl
@[simp] theorem setBridge_own (c : Nat) (b : BridgeS) (s : State) : (s.setBridge c b).own = s.own := rfl
@[simp] theorem setBridge_store (c : Nat) (b : BridgeS) (s : State) : (s.setBridge c b).store = s.store := rfl
@[simp] theorem setBridge_rst (c : Nat) (b : BridgeS) (s : State) : (s.setBridge c b).rst = s.rst := rfl
@[simp] theorem setBridge_mem (c : Nat) (b : BridgeS) (s : State) : (s.setBridge c b).mem = s.mem := rfl
@[simp] theorem setBridge_tiles (c : Nat) (b : BridgeS) (s : State) : (s.setBridge c b).tiles = s.tiles := rfl
@[simp] theorem setBridge_colls (c : Nat) (b : BridgeS) (s : State) : (s.setBridge c b).colls = s.colls := rfl
@[simp] theorem setBridge_jobTotals (c : Nat) (b : BridgeS) (s : State) : (s.setBridge c b).jobTotals = s.jobTotals := rfl
@[simp] theorem setBridge_host (c : Nat) (b : BridgeS) (s : State) : (s.setBridge c b).host = s.host := rfl
@[simp] theorem setBridge_streams (c : Nat) (b : BridgeS) (s : State) : (s.setBridge c b).streams = s.streams := rfl
@[simp] theorem setBridge_bridges (c : Nat) (b : BridgeS) (s : State) : (s.setBridge c b).bridges = s.bridges := rfl
@[simp] theorem setBridge_mm (c : Nat) (b : BridgeS) (s : State) : (s.setBridge c b).mm = s.mm := rfl
@[simp] theorem setBridge_health (c : Nat) (b : BridgeS) (s : State) : (s.setBridge c b).health = s.health := rfl
@[simp] theorem setBridge_jobs (c : Nat) (b : BridgeS) (s : State) : (s.setBridge c b).jobs = s.jobs := rfl
@[simp] theorem setBridge_net (c : Nat) (b : BridgeS) (s : State) : (s.setBridge c b).net = s.net := rfl
@[simp] theorem setBridge_lock (c : Nat) (b : BridgeS) (s : State) : (s.setBridge c b).lock = s.lock := rfl
@[simp] theorem setBridge_trace (c : Nat) (b : BridgeS) (s : State) : (s.setBridge c b).trace = s.trace := rfl
@[simp] theorem setBridge_dma (c : Nat) (b : BridgeS) (s : State) : (s.setBridge c b).dma = s.dma := rfl
@[simp] theorem setBridge_cfg (c : Nat) (b : BridgeS) (s : State) : (s.setBridge c b).cfg = s.cfg := rfl
@[simp] theorem setBridge_sec (c : Nat) (b : BridgeS) (s : State) : (s.setBridge c b).sec = s.sec := rfl
@[simp] theorem setBridge_jtag (c : Nat) (b : BridgeS) (s : State) : (s.setBridge c b).jtag = s.jtag := rfl
@[simp] theorem setBridge_gone (c : Nat) (b : BridgeS) (s : State) : (s.setBridge c b).gone = s.gone := rfl

/-! ### setRegion -/

@[simp] theorem setRegion_pending (r : Nat) (v : RegionS) (s : State) : (s.setRegion r v).pending = s.pending := rfl
@[simp] theorem setRegion_now (r : Nat) (v : RegionS) (s : State) : (s.setRegion r v).now = s.now := rfl
@[simp] theorem setRegion_free (r : Nat) (v : RegionS) (s : State) : (s.setRegion r v).free = s.free := rfl
@[simp] theorem setRegion_out (r : Nat) (v : RegionS) (s : State) : (s.setRegion r v).out = s.out := rfl
@[simp] theorem setRegion_obj (r : Nat) (v : RegionS) (s : State) : (s.setRegion r v).obj = s.obj := rfl
@[simp] theorem setRegion_dict (r : Nat) (v : RegionS) (s : State) : (s.setRegion r v).dict = s.dict := rfl
@[simp] theorem setRegion_own (r : Nat) (v : RegionS) (s : State) : (s.setRegion r v).own = s.own := rfl
@[simp] theorem setRegion_store (r : Nat) (v : RegionS) (s : State) : (s.setRegion r v).store = s.store := rfl
@[simp] theorem setRegion_rst (r : Nat) (v : RegionS) (s : State) : (s.setRegion r v).rst = s.rst := rfl
@[simp] theorem setRegion_mem (r : Nat) (v : RegionS) (s : State) : (s.setRegion r v).mem = s.mem := rfl
@[simp] theorem setRegion_tiles (r : Nat) (v : RegionS) (s : State) : (s.setRegion r v).tiles = s.tiles := rfl
@[simp] theorem setRegion_colls (r : Nat) (v : RegionS) (s : State) : (s.setRegion r v).colls = s.colls := rfl
@[simp] theorem setRegion_jobTotals (r : Nat) (v : RegionS) (s : State) : (s.setRegion r v).jobTotals = s.jobTotals := rfl
@[simp] theorem setRegion_host (r : Nat) (v : RegionS) (s : State) : (s.setRegion r v).host = s.host := rfl
@[simp] theorem setRegion_streams (r : Nat) (v : RegionS) (s : State) : (s.setRegion r v).streams = s.streams := rfl
@[simp] theorem setRegion_bridges (r : Nat) (v : RegionS) (s : State) : (s.setRegion r v).bridges = s.bridges := rfl
@[simp] theorem setRegion_mm (r : Nat) (v : RegionS) (s : State) : (s.setRegion r v).mm = s.mm := rfl
@[simp] theorem setRegion_health (r : Nat) (v : RegionS) (s : State) : (s.setRegion r v).health = s.health := rfl
@[simp] theorem setRegion_jobs (r : Nat) (v : RegionS) (s : State) : (s.setRegion r v).jobs = s.jobs := rfl
@[simp] theorem setRegion_net (r : Nat) (v : RegionS) (s : State) : (s.setRegion r v).net = s.net := rfl
@[simp] theorem setRegion_lock (r : Nat) (v : RegionS) (s : State) : (s.setRegion r v).lock = s.lock := rfl
@[simp] theorem setRegion_trace (r : Nat) (v : RegionS) (s : State) : (s.setRegion r v).trace = s.trace := rfl
@[simp] theorem setRegion_dma (r : Nat) (v : RegionS) (s : State) : (s.setRegion r v).dma = s.dma := rfl
@[simp] theorem setRegion_cfg (r : Nat) (v : RegionS) (s : State) : (s.setRegion r v).cfg = s.cfg := rfl
@[simp] theorem setRegion_sec (r : Nat) (v : RegionS) (s : State) : (s.setRegion r v).sec = s.sec := rfl
@[simp] theorem setRegion_jtag (r : Nat) (v : RegionS) (s : State) : (s.setRegion r v).jtag = s.jtag := rfl
@[simp] theorem setRegion_gone (r : Nat) (v : RegionS) (s : State) : (s.setRegion r v).gone = s.gone := rfl

/-! ### putFrame -/

@[simp] theorem putFrame_pending (far : Nat) (b : List Byte) (s : State) : (s.putFrame far b).pending = s.pending := rfl
@[simp] theorem putFrame_now (far : Nat) (b : List Byte) (s : State) : (s.putFrame far b).now = s.now := rfl
@[simp] theorem putFrame_free (far : Nat) (b : List Byte) (s : State) : (s.putFrame far b).free = s.free := rfl
@[simp] theorem putFrame_out (far : Nat) (b : List Byte) (s : State) : (s.putFrame far b).out = s.out := rfl
@[simp] theorem putFrame_obj (far : Nat) (b : List Byte) (s : State) : (s.putFrame far b).obj = s.obj := rfl
@[simp] theorem putFrame_dict (far : Nat) (b : List Byte) (s : State) : (s.putFrame far b).dict = s.dict := rfl
@[simp] theorem putFrame_own (far : Nat) (b : List Byte) (s : State) : (s.putFrame far b).own = s.own := rfl
@[simp] theorem putFrame_store (far : Nat) (b : List Byte) (s : State) : (s.putFrame far b).store = s.store := rfl
@[simp] theorem putFrame_rst (far : Nat) (b : List Byte) (s : State) : (s.putFrame far b).rst = s.rst := rfl
@[simp] theorem putFrame_mem (far : Nat) (b : List Byte) (s : State) : (s.putFrame far b).mem = s.mem := rfl
@[simp] theorem putFrame_tiles (far : Nat) (b : List Byte) (s : State) : (s.putFrame far b).tiles = s.tiles := rfl
@[simp] theorem putFrame_colls (far : Nat) (b : List Byte) (s : State) : (s.putFrame far b).colls = s.colls := rfl
@[simp] theorem putFrame_jobTotals (far : Nat) (b : List Byte) (s : State) : (s.putFrame far b).jobTotals = s.jobTotals := rfl
@[simp] theorem putFrame_host (far : Nat) (b : List Byte) (s : State) : (s.putFrame far b).host = s.host := rfl
@[simp] theorem putFrame_streams (far : Nat) (b : List Byte) (s : State) : (s.putFrame far b).streams = s.streams := rfl
@[simp] theorem putFrame_bridges (far : Nat) (b : List Byte) (s : State) : (s.putFrame far b).bridges = s.bridges := rfl
@[simp] theorem putFrame_mm (far : Nat) (b : List Byte) (s : State) : (s.putFrame far b).mm = s.mm := rfl
@[simp] theorem putFrame_health (far : Nat) (b : List Byte) (s : State) : (s.putFrame far b).health = s.health := rfl
@[simp] theorem putFrame_jobs (far : Nat) (b : List Byte) (s : State) : (s.putFrame far b).jobs = s.jobs := rfl
@[simp] theorem putFrame_net (far : Nat) (b : List Byte) (s : State) : (s.putFrame far b).net = s.net := rfl
@[simp] theorem putFrame_lock (far : Nat) (b : List Byte) (s : State) : (s.putFrame far b).lock = s.lock := rfl
@[simp] theorem putFrame_trace (far : Nat) (b : List Byte) (s : State) : (s.putFrame far b).trace = s.trace := rfl
@[simp] theorem putFrame_dma (far : Nat) (b : List Byte) (s : State) : (s.putFrame far b).dma = s.dma := rfl
@[simp] theorem putFrame_cfg (far : Nat) (b : List Byte) (s : State) : (s.putFrame far b).cfg = s.cfg := rfl
@[simp] theorem putFrame_sec (far : Nat) (b : List Byte) (s : State) : (s.putFrame far b).sec = s.sec := rfl
@[simp] theorem putFrame_jtag (far : Nat) (b : List Byte) (s : State) : (s.putFrame far b).jtag = s.jtag := rfl
@[simp] theorem putFrame_gone (far : Nat) (b : List Byte) (s : State) : (s.putFrame far b).gone = s.gone := rfl

/-! ### setDma -/

@[simp] theorem setDma_pending (k : Nat) (h : DmaChan) (s : State) : (s.setDma k h).pending = s.pending := rfl
@[simp] theorem setDma_now (k : Nat) (h : DmaChan) (s : State) : (s.setDma k h).now = s.now := rfl
@[simp] theorem setDma_free (k : Nat) (h : DmaChan) (s : State) : (s.setDma k h).free = s.free := rfl
@[simp] theorem setDma_out (k : Nat) (h : DmaChan) (s : State) : (s.setDma k h).out = s.out := rfl
@[simp] theorem setDma_obj (k : Nat) (h : DmaChan) (s : State) : (s.setDma k h).obj = s.obj := rfl
@[simp] theorem setDma_dict (k : Nat) (h : DmaChan) (s : State) : (s.setDma k h).dict = s.dict := rfl
@[simp] theorem setDma_own (k : Nat) (h : DmaChan) (s : State) : (s.setDma k h).own = s.own := rfl
@[simp] theorem setDma_store (k : Nat) (h : DmaChan) (s : State) : (s.setDma k h).store = s.store := rfl
@[simp] theorem setDma_rst (k : Nat) (h : DmaChan) (s : State) : (s.setDma k h).rst = s.rst := rfl
@[simp] theorem setDma_mem (k : Nat) (h : DmaChan) (s : State) : (s.setDma k h).mem = s.mem := rfl
@[simp] theorem setDma_tiles (k : Nat) (h : DmaChan) (s : State) : (s.setDma k h).tiles = s.tiles := rfl
@[simp] theorem setDma_colls (k : Nat) (h : DmaChan) (s : State) : (s.setDma k h).colls = s.colls := rfl
@[simp] theorem setDma_jobTotals (k : Nat) (h : DmaChan) (s : State) : (s.setDma k h).jobTotals = s.jobTotals := rfl
@[simp] theorem setDma_host (k : Nat) (h : DmaChan) (s : State) : (s.setDma k h).host = s.host := rfl
@[simp] theorem setDma_streams (k : Nat) (h : DmaChan) (s : State) : (s.setDma k h).streams = s.streams := rfl
@[simp] theorem setDma_bridges (k : Nat) (h : DmaChan) (s : State) : (s.setDma k h).bridges = s.bridges := rfl
@[simp] theorem setDma_mm (k : Nat) (h : DmaChan) (s : State) : (s.setDma k h).mm = s.mm := rfl
@[simp] theorem setDma_health (k : Nat) (h : DmaChan) (s : State) : (s.setDma k h).health = s.health := rfl
@[simp] theorem setDma_jobs (k : Nat) (h : DmaChan) (s : State) : (s.setDma k h).jobs = s.jobs := rfl
@[simp] theorem setDma_net (k : Nat) (h : DmaChan) (s : State) : (s.setDma k h).net = s.net := rfl
@[simp] theorem setDma_lock (k : Nat) (h : DmaChan) (s : State) : (s.setDma k h).lock = s.lock := rfl
@[simp] theorem setDma_trace (k : Nat) (h : DmaChan) (s : State) : (s.setDma k h).trace = s.trace := rfl
@[simp] theorem setDma_fab (k : Nat) (h : DmaChan) (s : State) : (s.setDma k h).fab = s.fab := rfl
@[simp] theorem setDma_cfg (k : Nat) (h : DmaChan) (s : State) : (s.setDma k h).cfg = s.cfg := rfl
@[simp] theorem setDma_sec (k : Nat) (h : DmaChan) (s : State) : (s.setDma k h).sec = s.sec := rfl
@[simp] theorem setDma_jtag (k : Nat) (h : DmaChan) (s : State) : (s.setDma k h).jtag = s.jtag := rfl
@[simp] theorem setDma_gone (k : Nat) (h : DmaChan) (s : State) : (s.setDma k h).gone = s.gone := rfl

/-! ### setChan -/

@[simp] theorem setChan_pending (c k : Nat) (q : Chan) (s : State) : (s.setChan c k q).pending = s.pending := rfl
@[simp] theorem setChan_now (c k : Nat) (q : Chan) (s : State) : (s.setChan c k q).now = s.now := rfl
@[simp] theorem setChan_free (c k : Nat) (q : Chan) (s : State) : (s.setChan c k q).free = s.free := rfl
@[simp] theorem setChan_out (c k : Nat) (q : Chan) (s : State) : (s.setChan c k q).out = s.out := rfl
@[simp] theorem setChan_obj (c k : Nat) (q : Chan) (s : State) : (s.setChan c k q).obj = s.obj := rfl
@[simp] theorem setChan_dict (c k : Nat) (q : Chan) (s : State) : (s.setChan c k q).dict = s.dict := rfl
@[simp] theorem setChan_own (c k : Nat) (q : Chan) (s : State) : (s.setChan c k q).own = s.own := rfl
@[simp] theorem setChan_store (c k : Nat) (q : Chan) (s : State) : (s.setChan c k q).store = s.store := rfl
@[simp] theorem setChan_rst (c k : Nat) (q : Chan) (s : State) : (s.setChan c k q).rst = s.rst := rfl
@[simp] theorem setChan_mem (c k : Nat) (q : Chan) (s : State) : (s.setChan c k q).mem = s.mem := rfl
@[simp] theorem setChan_tiles (c k : Nat) (q : Chan) (s : State) : (s.setChan c k q).tiles = s.tiles := rfl
@[simp] theorem setChan_colls (c k : Nat) (q : Chan) (s : State) : (s.setChan c k q).colls = s.colls := rfl
@[simp] theorem setChan_jobTotals (c k : Nat) (q : Chan) (s : State) : (s.setChan c k q).jobTotals = s.jobTotals := rfl
@[simp] theorem setChan_host (c k : Nat) (q : Chan) (s : State) : (s.setChan c k q).host = s.host := rfl
@[simp] theorem setChan_streams (c k : Nat) (q : Chan) (s : State) : (s.setChan c k q).streams = s.streams := rfl
@[simp] theorem setChan_bridges (c k : Nat) (q : Chan) (s : State) : (s.setChan c k q).bridges = s.bridges := rfl
@[simp] theorem setChan_health (c k : Nat) (q : Chan) (s : State) : (s.setChan c k q).health = s.health := rfl
@[simp] theorem setChan_jobs (c k : Nat) (q : Chan) (s : State) : (s.setChan c k q).jobs = s.jobs := rfl
@[simp] theorem setChan_net (c k : Nat) (q : Chan) (s : State) : (s.setChan c k q).net = s.net := rfl
@[simp] theorem setChan_lock (c k : Nat) (q : Chan) (s : State) : (s.setChan c k q).lock = s.lock := rfl
@[simp] theorem setChan_trace (c k : Nat) (q : Chan) (s : State) : (s.setChan c k q).trace = s.trace := rfl
@[simp] theorem setChan_fab (c k : Nat) (q : Chan) (s : State) : (s.setChan c k q).fab = s.fab := rfl
@[simp] theorem setChan_dma (c k : Nat) (q : Chan) (s : State) : (s.setChan c k q).dma = s.dma := rfl
@[simp] theorem setChan_cfg (c k : Nat) (q : Chan) (s : State) : (s.setChan c k q).cfg = s.cfg := rfl
@[simp] theorem setChan_sec (c k : Nat) (q : Chan) (s : State) : (s.setChan c k q).sec = s.sec := rfl
@[simp] theorem setChan_jtag (c k : Nat) (q : Chan) (s : State) : (s.setChan c k q).jtag = s.jtag := rfl
@[simp] theorem setChan_gone (c k : Nat) (q : Chan) (s : State) : (s.setChan c k q).gone = s.gone := rfl

/-! ### setCfg -/

@[simp] theorem setCfg_pending (f : CfgState → CfgState) (s : State) : (s.setCfg f).pending = s.pending := rfl
@[simp] theorem setCfg_now (f : CfgState → CfgState) (s : State) : (s.setCfg f).now = s.now := rfl
@[simp] theorem setCfg_free (f : CfgState → CfgState) (s : State) : (s.setCfg f).free = s.free := rfl
@[simp] theorem setCfg_out (f : CfgState → CfgState) (s : State) : (s.setCfg f).out = s.out := rfl
@[simp] theorem setCfg_obj (f : CfgState → CfgState) (s : State) : (s.setCfg f).obj = s.obj := rfl
@[simp] theorem setCfg_dict (f : CfgState → CfgState) (s : State) : (s.setCfg f).dict = s.dict := rfl
@[simp] theorem setCfg_own (f : CfgState → CfgState) (s : State) : (s.setCfg f).own = s.own := rfl
@[simp] theorem setCfg_store (f : CfgState → CfgState) (s : State) : (s.setCfg f).store = s.store := rfl
@[simp] theorem setCfg_rst (f : CfgState → CfgState) (s : State) : (s.setCfg f).rst = s.rst := rfl
@[simp] theorem setCfg_mem (f : CfgState → CfgState) (s : State) : (s.setCfg f).mem = s.mem := rfl
@[simp] theorem setCfg_tiles (f : CfgState → CfgState) (s : State) : (s.setCfg f).tiles = s.tiles := rfl
@[simp] theorem setCfg_colls (f : CfgState → CfgState) (s : State) : (s.setCfg f).colls = s.colls := rfl
@[simp] theorem setCfg_jobTotals (f : CfgState → CfgState) (s : State) : (s.setCfg f).jobTotals = s.jobTotals := rfl
@[simp] theorem setCfg_host (f : CfgState → CfgState) (s : State) : (s.setCfg f).host = s.host := rfl
@[simp] theorem setCfg_streams (f : CfgState → CfgState) (s : State) : (s.setCfg f).streams = s.streams := rfl
@[simp] theorem setCfg_bridges (f : CfgState → CfgState) (s : State) : (s.setCfg f).bridges = s.bridges := rfl
@[simp] theorem setCfg_mm (f : CfgState → CfgState) (s : State) : (s.setCfg f).mm = s.mm := rfl
@[simp] theorem setCfg_health (f : CfgState → CfgState) (s : State) : (s.setCfg f).health = s.health := rfl
@[simp] theorem setCfg_jobs (f : CfgState → CfgState) (s : State) : (s.setCfg f).jobs = s.jobs := rfl
@[simp] theorem setCfg_net (f : CfgState → CfgState) (s : State) : (s.setCfg f).net = s.net := rfl
@[simp] theorem setCfg_lock (f : CfgState → CfgState) (s : State) : (s.setCfg f).lock = s.lock := rfl
@[simp] theorem setCfg_trace (f : CfgState → CfgState) (s : State) : (s.setCfg f).trace = s.trace := rfl
@[simp] theorem setCfg_fab (f : CfgState → CfgState) (s : State) : (s.setCfg f).fab = s.fab := rfl
@[simp] theorem setCfg_dma (f : CfgState → CfgState) (s : State) : (s.setCfg f).dma = s.dma := rfl
@[simp] theorem setCfg_sec (f : CfgState → CfgState) (s : State) : (s.setCfg f).sec = s.sec := rfl
@[simp] theorem setCfg_jtag (f : CfgState → CfgState) (s : State) : (s.setCfg f).jtag = s.jtag := rfl
@[simp] theorem setCfg_gone (f : CfgState → CfgState) (s : State) : (s.setCfg f).gone = s.gone := rfl

/-! ### setHost -/

@[simp] theorem setHost_pending (f : HostState → HostState) (s : State) : (s.setHost f).pending = s.pending := rfl
@[simp] theorem setHost_now (f : HostState → HostState) (s : State) : (s.setHost f).now = s.now := rfl
@[simp] theorem setHost_free (f : HostState → HostState) (s : State) : (s.setHost f).free = s.free := rfl
@[simp] theorem setHost_out (f : HostState → HostState) (s : State) : (s.setHost f).out = s.out := rfl
@[simp] theorem setHost_obj (f : HostState → HostState) (s : State) : (s.setHost f).obj = s.obj := rfl
@[simp] theorem setHost_dict (f : HostState → HostState) (s : State) : (s.setHost f).dict = s.dict := rfl
@[simp] theorem setHost_own (f : HostState → HostState) (s : State) : (s.setHost f).own = s.own := rfl
@[simp] theorem setHost_store (f : HostState → HostState) (s : State) : (s.setHost f).store = s.store := rfl
@[simp] theorem setHost_rst (f : HostState → HostState) (s : State) : (s.setHost f).rst = s.rst := rfl
@[simp] theorem setHost_mem (f : HostState → HostState) (s : State) : (s.setHost f).mem = s.mem := rfl
@[simp] theorem setHost_tiles (f : HostState → HostState) (s : State) : (s.setHost f).tiles = s.tiles := rfl
@[simp] theorem setHost_colls (f : HostState → HostState) (s : State) : (s.setHost f).colls = s.colls := rfl
@[simp] theorem setHost_jobTotals (f : HostState → HostState) (s : State) : (s.setHost f).jobTotals = s.jobTotals := rfl
@[simp] theorem setHost_streams (f : HostState → HostState) (s : State) : (s.setHost f).streams = s.streams := rfl
@[simp] theorem setHost_bridges (f : HostState → HostState) (s : State) : (s.setHost f).bridges = s.bridges := rfl
@[simp] theorem setHost_mm (f : HostState → HostState) (s : State) : (s.setHost f).mm = s.mm := rfl
@[simp] theorem setHost_health (f : HostState → HostState) (s : State) : (s.setHost f).health = s.health := rfl
@[simp] theorem setHost_jobs (f : HostState → HostState) (s : State) : (s.setHost f).jobs = s.jobs := rfl
@[simp] theorem setHost_net (f : HostState → HostState) (s : State) : (s.setHost f).net = s.net := rfl
@[simp] theorem setHost_lock (f : HostState → HostState) (s : State) : (s.setHost f).lock = s.lock := rfl
@[simp] theorem setHost_trace (f : HostState → HostState) (s : State) : (s.setHost f).trace = s.trace := rfl
@[simp] theorem setHost_fab (f : HostState → HostState) (s : State) : (s.setHost f).fab = s.fab := rfl
@[simp] theorem setHost_dma (f : HostState → HostState) (s : State) : (s.setHost f).dma = s.dma := rfl
@[simp] theorem setHost_cfg (f : HostState → HostState) (s : State) : (s.setHost f).cfg = s.cfg := rfl
@[simp] theorem setHost_sec (f : HostState → HostState) (s : State) : (s.setHost f).sec = s.sec := rfl
@[simp] theorem setHost_jtag (f : HostState → HostState) (s : State) : (s.setHost f).jtag = s.jtag := rfl
@[simp] theorem setHost_gone (f : HostState → HostState) (s : State) : (s.setHost f).gone = s.gone := rfl

/-! ### setGroup -/

@[simp] theorem setGroup_pending (id : Nat) (g : Group) (s : State) : (s.setGroup id g).pending = s.pending := rfl
@[simp] theorem setGroup_now (id : Nat) (g : Group) (s : State) : (s.setGroup id g).now = s.now := rfl
@[simp] theorem setGroup_free (id : Nat) (g : Group) (s : State) : (s.setGroup id g).free = s.free := rfl
@[simp] theorem setGroup_out (id : Nat) (g : Group) (s : State) : (s.setGroup id g).out = s.out := rfl
@[simp] theorem setGroup_obj (id : Nat) (g : Group) (s : State) : (s.setGroup id g).obj = s.obj := rfl
@[simp] theorem setGroup_own (id : Nat) (g : Group) (s : State) : (s.setGroup id g).own = s.own := rfl
@[simp] theorem setGroup_store (id : Nat) (g : Group) (s : State) : (s.setGroup id g).store = s.store := rfl
@[simp] theorem setGroup_rst (id : Nat) (g : Group) (s : State) : (s.setGroup id g).rst = s.rst := rfl
@[simp] theorem setGroup_mem (id : Nat) (g : Group) (s : State) : (s.setGroup id g).mem = s.mem := rfl
@[simp] theorem setGroup_tiles (id : Nat) (g : Group) (s : State) : (s.setGroup id g).tiles = s.tiles := rfl
@[simp] theorem setGroup_colls (id : Nat) (g : Group) (s : State) : (s.setGroup id g).colls = s.colls := rfl
@[simp] theorem setGroup_jobTotals (id : Nat) (g : Group) (s : State) : (s.setGroup id g).jobTotals = s.jobTotals := rfl
@[simp] theorem setGroup_host (id : Nat) (g : Group) (s : State) : (s.setGroup id g).host = s.host := rfl
@[simp] theorem setGroup_streams (id : Nat) (g : Group) (s : State) : (s.setGroup id g).streams = s.streams := rfl
@[simp] theorem setGroup_bridges (id : Nat) (g : Group) (s : State) : (s.setGroup id g).bridges = s.bridges := rfl
@[simp] theorem setGroup_mm (id : Nat) (g : Group) (s : State) : (s.setGroup id g).mm = s.mm := rfl
@[simp] theorem setGroup_health (id : Nat) (g : Group) (s : State) : (s.setGroup id g).health = s.health := rfl
@[simp] theorem setGroup_jobs (id : Nat) (g : Group) (s : State) : (s.setGroup id g).jobs = s.jobs := rfl
@[simp] theorem setGroup_net (id : Nat) (g : Group) (s : State) : (s.setGroup id g).net = s.net := rfl
@[simp] theorem setGroup_lock (id : Nat) (g : Group) (s : State) : (s.setGroup id g).lock = s.lock := rfl
@[simp] theorem setGroup_trace (id : Nat) (g : Group) (s : State) : (s.setGroup id g).trace = s.trace := rfl
@[simp] theorem setGroup_fab (id : Nat) (g : Group) (s : State) : (s.setGroup id g).fab = s.fab := rfl
@[simp] theorem setGroup_dma (id : Nat) (g : Group) (s : State) : (s.setGroup id g).dma = s.dma := rfl
@[simp] theorem setGroup_cfg (id : Nat) (g : Group) (s : State) : (s.setGroup id g).cfg = s.cfg := rfl
@[simp] theorem setGroup_sec (id : Nat) (g : Group) (s : State) : (s.setGroup id g).sec = s.sec := rfl
@[simp] theorem setGroup_jtag (id : Nat) (g : Group) (s : State) : (s.setGroup id g).jtag = s.jtag := rfl
@[simp] theorem setGroup_gone (id : Nat) (g : Group) (s : State) : (s.setGroup id g).gone = s.gone := rfl

/-! ### copyMem -/

@[simp] theorem copyMem_pending (src dst n : Nat) (s : State) : (s.copyMem src dst n).pending = s.pending := rfl
@[simp] theorem copyMem_now (src dst n : Nat) (s : State) : (s.copyMem src dst n).now = s.now := rfl
@[simp] theorem copyMem_free (src dst n : Nat) (s : State) : (s.copyMem src dst n).free = s.free := rfl
@[simp] theorem copyMem_out (src dst n : Nat) (s : State) : (s.copyMem src dst n).out = s.out := rfl
@[simp] theorem copyMem_obj (src dst n : Nat) (s : State) : (s.copyMem src dst n).obj = s.obj := rfl
@[simp] theorem copyMem_dict (src dst n : Nat) (s : State) : (s.copyMem src dst n).dict = s.dict := rfl
@[simp] theorem copyMem_own (src dst n : Nat) (s : State) : (s.copyMem src dst n).own = s.own := rfl
@[simp] theorem copyMem_store (src dst n : Nat) (s : State) : (s.copyMem src dst n).store = s.store := rfl
@[simp] theorem copyMem_rst (src dst n : Nat) (s : State) : (s.copyMem src dst n).rst = s.rst := rfl
@[simp] theorem copyMem_tiles (src dst n : Nat) (s : State) : (s.copyMem src dst n).tiles = s.tiles := rfl
@[simp] theorem copyMem_colls (src dst n : Nat) (s : State) : (s.copyMem src dst n).colls = s.colls := rfl
@[simp] theorem copyMem_jobTotals (src dst n : Nat) (s : State) : (s.copyMem src dst n).jobTotals = s.jobTotals := rfl
@[simp] theorem copyMem_host (src dst n : Nat) (s : State) : (s.copyMem src dst n).host = s.host := rfl
@[simp] theorem copyMem_streams (src dst n : Nat) (s : State) : (s.copyMem src dst n).streams = s.streams := rfl
@[simp] theorem copyMem_bridges (src dst n : Nat) (s : State) : (s.copyMem src dst n).bridges = s.bridges := rfl
@[simp] theorem copyMem_mm (src dst n : Nat) (s : State) : (s.copyMem src dst n).mm = s.mm := rfl
@[simp] theorem copyMem_health (src dst n : Nat) (s : State) : (s.copyMem src dst n).health = s.health := rfl
@[simp] theorem copyMem_jobs (src dst n : Nat) (s : State) : (s.copyMem src dst n).jobs = s.jobs := rfl
@[simp] theorem copyMem_net (src dst n : Nat) (s : State) : (s.copyMem src dst n).net = s.net := rfl
@[simp] theorem copyMem_lock (src dst n : Nat) (s : State) : (s.copyMem src dst n).lock = s.lock := rfl
@[simp] theorem copyMem_trace (src dst n : Nat) (s : State) : (s.copyMem src dst n).trace = s.trace := rfl
@[simp] theorem copyMem_fab (src dst n : Nat) (s : State) : (s.copyMem src dst n).fab = s.fab := rfl
@[simp] theorem copyMem_dma (src dst n : Nat) (s : State) : (s.copyMem src dst n).dma = s.dma := rfl
@[simp] theorem copyMem_cfg (src dst n : Nat) (s : State) : (s.copyMem src dst n).cfg = s.cfg := rfl
@[simp] theorem copyMem_sec (src dst n : Nat) (s : State) : (s.copyMem src dst n).sec = s.sec := rfl
@[simp] theorem copyMem_jtag (src dst n : Nat) (s : State) : (s.copyMem src dst n).jtag = s.jtag := rfl
@[simp] theorem copyMem_gone (src dst n : Nat) (s : State) : (s.copyMem src dst n).gone = s.gone := rfl

/-! ### setCells -/

@[simp] theorem setCells_pending (a n : Nat) (l : List (Nat × Byte)) (s : State) : (s.setCells a n l).pending = s.pending := rfl
@[simp] theorem setCells_now (a n : Nat) (l : List (Nat × Byte)) (s : State) : (s.setCells a n l).now = s.now := rfl
@[simp] theorem setCells_free (a n : Nat) (l : List (Nat × Byte)) (s : State) : (s.setCells a n l).free = s.free := rfl
@[simp] theorem setCells_out (a n : Nat) (l : List (Nat × Byte)) (s : State) : (s.setCells a n l).out = s.out := rfl
@[simp] theorem setCells_obj (a n : Nat) (l : List (Nat × Byte)) (s : State) : (s.setCells a n l).obj = s.obj := rfl
@[simp] theorem setCells_dict (a n : Nat) (l : List (Nat × Byte)) (s : State) : (s.setCells a n l).dict = s.dict := rfl
@[simp] theorem setCells_own (a n : Nat) (l : List (Nat × Byte)) (s : State) : (s.setCells a n l).own = s.own := rfl
@[simp] theorem setCells_store (a n : Nat) (l : List (Nat × Byte)) (s : State) : (s.setCells a n l).store = s.store := rfl
@[simp] theorem setCells_rst (a n : Nat) (l : List (Nat × Byte)) (s : State) : (s.setCells a n l).rst = s.rst := rfl
@[simp] theorem setCells_tiles (a n : Nat) (l : List (Nat × Byte)) (s : State) : (s.setCells a n l).tiles = s.tiles := rfl
@[simp] theorem setCells_colls (a n : Nat) (l : List (Nat × Byte)) (s : State) : (s.setCells a n l).colls = s.colls := rfl
@[simp] theorem setCells_jobTotals (a n : Nat) (l : List (Nat × Byte)) (s : State) : (s.setCells a n l).jobTotals = s.jobTotals := rfl
@[simp] theorem setCells_host (a n : Nat) (l : List (Nat × Byte)) (s : State) : (s.setCells a n l).host = s.host := rfl
@[simp] theorem setCells_streams (a n : Nat) (l : List (Nat × Byte)) (s : State) : (s.setCells a n l).streams = s.streams := rfl
@[simp] theorem setCells_bridges (a n : Nat) (l : List (Nat × Byte)) (s : State) : (s.setCells a n l).bridges = s.bridges := rfl
@[simp] theorem setCells_mm (a n : Nat) (l : List (Nat × Byte)) (s : State) : (s.setCells a n l).mm = s.mm := rfl
@[simp] theorem setCells_health (a n : Nat) (l : List (Nat × Byte)) (s : State) : (s.setCells a n l).health = s.health := rfl
@[simp] theorem setCells_jobs (a n : Nat) (l : List (Nat × Byte)) (s : State) : (s.setCells a n l).jobs = s.jobs := rfl
@[simp] theorem setCells_net (a n : Nat) (l : List (Nat × Byte)) (s : State) : (s.setCells a n l).net = s.net := rfl
@[simp] theorem setCells_lock (a n : Nat) (l : List (Nat × Byte)) (s : State) : (s.setCells a n l).lock = s.lock := rfl
@[simp] theorem setCells_trace (a n : Nat) (l : List (Nat × Byte)) (s : State) : (s.setCells a n l).trace = s.trace := rfl
@[simp] theorem setCells_fab (a n : Nat) (l : List (Nat × Byte)) (s : State) : (s.setCells a n l).fab = s.fab := rfl
@[simp] theorem setCells_dma (a n : Nat) (l : List (Nat × Byte)) (s : State) : (s.setCells a n l).dma = s.dma := rfl
@[simp] theorem setCells_cfg (a n : Nat) (l : List (Nat × Byte)) (s : State) : (s.setCells a n l).cfg = s.cfg := rfl
@[simp] theorem setCells_sec (a n : Nat) (l : List (Nat × Byte)) (s : State) : (s.setCells a n l).sec = s.sec := rfl
@[simp] theorem setCells_jtag (a n : Nat) (l : List (Nat × Byte)) (s : State) : (s.setCells a n l).jtag = s.jtag := rfl
@[simp] theorem setCells_gone (a n : Nat) (l : List (Nat × Byte)) (s : State) : (s.setCells a n l).gone = s.gone := rfl

/-! ### program -/

@[simp] theorem program_pending (a : Nat) (l : List Byte) (s : State) : (s.program a l).pending = s.pending := rfl
@[simp] theorem program_now (a : Nat) (l : List Byte) (s : State) : (s.program a l).now = s.now := rfl
@[simp] theorem program_free (a : Nat) (l : List Byte) (s : State) : (s.program a l).free = s.free := rfl
@[simp] theorem program_out (a : Nat) (l : List Byte) (s : State) : (s.program a l).out = s.out := rfl
@[simp] theorem program_obj (a : Nat) (l : List Byte) (s : State) : (s.program a l).obj = s.obj := rfl
@[simp] theorem program_dict (a : Nat) (l : List Byte) (s : State) : (s.program a l).dict = s.dict := rfl
@[simp] theorem program_own (a : Nat) (l : List Byte) (s : State) : (s.program a l).own = s.own := rfl
@[simp] theorem program_rst (a : Nat) (l : List Byte) (s : State) : (s.program a l).rst = s.rst := rfl
@[simp] theorem program_mem (a : Nat) (l : List Byte) (s : State) : (s.program a l).mem = s.mem := rfl
@[simp] theorem program_tiles (a : Nat) (l : List Byte) (s : State) : (s.program a l).tiles = s.tiles := rfl
@[simp] theorem program_colls (a : Nat) (l : List Byte) (s : State) : (s.program a l).colls = s.colls := rfl
@[simp] theorem program_jobTotals (a : Nat) (l : List Byte) (s : State) : (s.program a l).jobTotals = s.jobTotals := rfl
@[simp] theorem program_host (a : Nat) (l : List Byte) (s : State) : (s.program a l).host = s.host := rfl
@[simp] theorem program_streams (a : Nat) (l : List Byte) (s : State) : (s.program a l).streams = s.streams := rfl
@[simp] theorem program_bridges (a : Nat) (l : List Byte) (s : State) : (s.program a l).bridges = s.bridges := rfl
@[simp] theorem program_mm (a : Nat) (l : List Byte) (s : State) : (s.program a l).mm = s.mm := rfl
@[simp] theorem program_health (a : Nat) (l : List Byte) (s : State) : (s.program a l).health = s.health := rfl
@[simp] theorem program_jobs (a : Nat) (l : List Byte) (s : State) : (s.program a l).jobs = s.jobs := rfl
@[simp] theorem program_net (a : Nat) (l : List Byte) (s : State) : (s.program a l).net = s.net := rfl
@[simp] theorem program_lock (a : Nat) (l : List Byte) (s : State) : (s.program a l).lock = s.lock := rfl
@[simp] theorem program_trace (a : Nat) (l : List Byte) (s : State) : (s.program a l).trace = s.trace := rfl
@[simp] theorem program_fab (a : Nat) (l : List Byte) (s : State) : (s.program a l).fab = s.fab := rfl
@[simp] theorem program_dma (a : Nat) (l : List Byte) (s : State) : (s.program a l).dma = s.dma := rfl
@[simp] theorem program_cfg (a : Nat) (l : List Byte) (s : State) : (s.program a l).cfg = s.cfg := rfl
@[simp] theorem program_sec (a : Nat) (l : List Byte) (s : State) : (s.program a l).sec = s.sec := rfl
@[simp] theorem program_jtag (a : Nat) (l : List Byte) (s : State) : (s.program a l).jtag = s.jtag := rfl
@[simp] theorem program_gone (a : Nat) (l : List Byte) (s : State) : (s.program a l).gone = s.gone := rfl

/-! ### erase -/

@[simp] theorem erase_pending (a n : Nat) (s : State) : (s.erase a n).pending = s.pending := rfl
@[simp] theorem erase_now (a n : Nat) (s : State) : (s.erase a n).now = s.now := rfl
@[simp] theorem erase_free (a n : Nat) (s : State) : (s.erase a n).free = s.free := rfl
@[simp] theorem erase_out (a n : Nat) (s : State) : (s.erase a n).out = s.out := rfl
@[simp] theorem erase_obj (a n : Nat) (s : State) : (s.erase a n).obj = s.obj := rfl
@[simp] theorem erase_dict (a n : Nat) (s : State) : (s.erase a n).dict = s.dict := rfl
@[simp] theorem erase_own (a n : Nat) (s : State) : (s.erase a n).own = s.own := rfl
@[simp] theorem erase_rst (a n : Nat) (s : State) : (s.erase a n).rst = s.rst := rfl
@[simp] theorem erase_mem (a n : Nat) (s : State) : (s.erase a n).mem = s.mem := rfl
@[simp] theorem erase_tiles (a n : Nat) (s : State) : (s.erase a n).tiles = s.tiles := rfl
@[simp] theorem erase_colls (a n : Nat) (s : State) : (s.erase a n).colls = s.colls := rfl
@[simp] theorem erase_jobTotals (a n : Nat) (s : State) : (s.erase a n).jobTotals = s.jobTotals := rfl
@[simp] theorem erase_host (a n : Nat) (s : State) : (s.erase a n).host = s.host := rfl
@[simp] theorem erase_streams (a n : Nat) (s : State) : (s.erase a n).streams = s.streams := rfl
@[simp] theorem erase_bridges (a n : Nat) (s : State) : (s.erase a n).bridges = s.bridges := rfl
@[simp] theorem erase_mm (a n : Nat) (s : State) : (s.erase a n).mm = s.mm := rfl
@[simp] theorem erase_health (a n : Nat) (s : State) : (s.erase a n).health = s.health := rfl
@[simp] theorem erase_jobs (a n : Nat) (s : State) : (s.erase a n).jobs = s.jobs := rfl
@[simp] theorem erase_net (a n : Nat) (s : State) : (s.erase a n).net = s.net := rfl
@[simp] theorem erase_lock (a n : Nat) (s : State) : (s.erase a n).lock = s.lock := rfl
@[simp] theorem erase_trace (a n : Nat) (s : State) : (s.erase a n).trace = s.trace := rfl
@[simp] theorem erase_fab (a n : Nat) (s : State) : (s.erase a n).fab = s.fab := rfl
@[simp] theorem erase_dma (a n : Nat) (s : State) : (s.erase a n).dma = s.dma := rfl
@[simp] theorem erase_cfg (a n : Nat) (s : State) : (s.erase a n).cfg = s.cfg := rfl
@[simp] theorem erase_sec (a n : Nat) (s : State) : (s.erase a n).sec = s.sec := rfl
@[simp] theorem erase_jtag (a n : Nat) (s : State) : (s.erase a n).jtag = s.jtag := rfl
@[simp] theorem erase_gone (a n : Nat) (s : State) : (s.erase a n).gone = s.gone := rfl

/-! ### Reading after an update -/

@[simp] theorem tile_setTile (g : Nat) (t : TileS) (s : State) : (s.setTile g t).tile g = t := by
  simp [tile, setTile, Tab.get, Tab.find?_put_self]
@[simp] theorem stream_putStream (k : Nat) (m : StreamS) (s : State) : (s.putStream k m).stream k = some m := by
  simp [stream, putStream, Tab.find?_put_self]
@[simp] theorem port_setPort (p : Nat) (q : PeerPort) (s : State) : (s.setPort p q).port p = q := by
  simp [port, setPort, Tab.get, Tab.find?_put_self]
@[simp] theorem line_setLine (p : Nat) (l : LineS) (s : State) : (s.setLine p l).line p = l := by
  simp [line, setLine, Tab.get, Tab.find?_put_self]
@[simp] theorem feed_setFeed (q : Nat) (f : FeedS) (s : State) : (s.setFeed q f).feed q = f := by
  simp [feed, setFeed, Tab.get, Tab.find?_put_self]
@[simp] theorem queue_setQueueS (c b : Nat) (q : QueueS) (s : State) : (s.setQueueS c b q).queue c b = q := by
  simp [queue, setQueueS, Tab.get, Tab.find?_put_self]
@[simp] theorem region_setRegion (r : Nat) (v : RegionS) (s : State) : (s.setRegion r v).region r = v := by
  simp [region, setRegion, Tab.get, Tab.find?_put_self]
@[simp] theorem dmaCh_setDma (k : Nat) (h : DmaChan) (s : State) : (s.setDma k h).dmaCh k = h := by
  simp [dmaCh, setDma, Tab.get, Tab.find?_put_self]
@[simp] theorem chan_setChan (c k : Nat) (q : Chan) (s : State) : (s.setChan c k q).chan c k = q := by
  simp [chan, setChan, Tab.get, Tab.find?_put_self]

/-! ### The canonical form -/

theorem copyMem_wf (src dst n : Nat) (s : State) (h : Memory.wf 0 s.mem = true) : Memory.wf 0 (s.copyMem src dst n).mem = true :=
  Memory.wf_foldl 0 _ _ (Memory.wf_filter 0 _ _ h)

theorem setCells_wf (a n : Nat) (l : List (Nat × Byte)) (s : State) (h : Memory.wf 0 s.mem = true) :
    Memory.wf 0 (s.setCells a n l).mem = true := by
  have g : ∀ (l : List (Nat × Byte)) m, Memory.wf 0 m = true →
      Memory.wf 0 (l.foldl (fun m (o, v) => Mem.write 0 m (o + a) v) m) = true := by
    intro l
    induction l with
    | nil => exact fun _ h => h
    | cons e l ih => exact fun m h => ih _ (Memory.wf_write 0 m _ _ h)
  exact g l _ (Memory.wf_filter 0 _ _ h)

theorem interleave_wf (set gran : Nat) (s : State) (h : Memory.wf 0 s.mem = true) :
    Memory.wf 0 (s.interleave set gran).mem = true := by
  have g : ∀ (f : Host.Cell → Nat) (l : List Host.Cell) m, Memory.wf 0 m = true →
      Memory.wf 0 (l.foldl (fun m x => Mem.write 0 m (f x) x.2) m) = true := by
    intro f l
    induction l with
    | nil => exact fun _ h => h
    | cons e l ih => exact fun m h => ih _ (Memory.wf_write 0 m _ _ h)
  unfold interleave
  dsimp only
  split
  · exact h
  · exact g _ _ [] (Memory.wf_nil 0)

theorem program_wf (a : Nat) (l : List Byte) (s : State) (h : Memory.wf 0xFF s.store.flash = true) :
    Memory.wf 0xFF (s.program a l).store.flash = true := Memory.wf_writes 0xFF _ a _ h

theorem erase_wf (a n : Nat) (s : State) (h : Memory.wf 0xFF s.store.flash = true) :
    Memory.wf 0xFF (s.erase a n).store.flash = true := Memory.wf_filter 0xFF _ _ h

end State

end Sys2Proof.Machine
end

