-- ==== Sys2Proof/Tests/Slice0.lean ====
section
/-! SUPPORT. The model's own tests: ill-formed operands are refused, values worked out in the spec, and for every claim
with hypotheses a state that meets them. -/

namespace Sys2Proof.Tests

open Sys2Proof.Machine

set_option Elab.async false

/-! ## Helpers -/

/-- The outcome is a next state with a property that can be evaluated. -/
def goes (o : Host.Outcome State Fault Refusal) (p : State → Bool) : Bool := match o with
  | .next s => p s
  | _ => false

/-- A device whose firmware serves, with the host's rings set up. -/
def base : State :=
  let s := State.reset
  let s := { s with rst := { s.rst with asserted := [], serve := .full, exitDone := 10, storeLoaded := true } }
  let s := { s with host := { s.host with busMaster := true } }
  (((s.setNum Obj.hostLinkState 2).setNum (hostRec Obj.ringSlots) 16).setNum Obj.deviceState 2).setNum Obj.storeState 0

/-- The host owns it, its lease ending at 1 s. -/
def owned : State :=
  let s := (base.setNum Obj.owner 1).setNum Obj.ownerState 1
  { s with own := { s.own with leaseEnd := 1000000000 } }

/-! ## Ill-formed operands (smoke test) -/

def zeros (n : Nat) : List Byte := List.replicate n 0

theorem zeros_length (n : Nat) : (zeros n).length = n := List.length_replicate

def cutSized (n : Nat) : CutFlit := ⟨0, 0, 1, 0, 0, true, false, 0, 0, zeros n⟩

def nowhere : FaultInfo :=
  { structureCode := 1, mechanism := 1, tile := none, shelf := none, site := none, ctx := none, pass := 0, cellI := 0, cellJ := 0
    syndrome := 0, address := 0, cabinet := none, pepper := false, jobId := 0 }

/-- Segments, frames and request slots of a size no transport carries. -/
theorem smoke_segments : [Instr.linearMapWrite 0 0 [] 0, .segmentReceive .host .fna 0 (zeros 65), .segmentReceive .host .pcie 0 (zeros 257),
    .canOapFrame .fna 0 0 (zeros 65), .resetCommandFrame .fnb 0 0 (zeros 65), .reqTailWrite ⟨.linear, 0⟩ [] [zeros 255],
    .peerOapSegment 0 0 (zeros 257), .oapsegUpdate 0 (zeros 255)].all (!·.wellFormed) = true ∧
    [Instr.linearMapWrite 0 0 [0] 0, .segmentReceive .host .fna 0 (zeros 64), .oapsegUpdate 0 (zeros 256)].all (·.wellFormed) = true := by
  decide +kernel

/-- Values and lists longer than an object's 65,536 bytes. -/
theorem smoke_values : [Instr.readGroup .host .pcie 0 0 (zeros 65537), .write .host .pcie 0 0 ⟨0, 0⟩ (zeros 65537) 0,
    .groupStage .host .pcie 0 0 ⟨0, 0⟩ (zeros 65537)].all (!·.wellFormed) = true := by
  simp [Instr.wellFormed, zeros_length]

/-- A fault at a site of no tile, and selections, units, beats and bursts of the wrong size. -/
theorem smoke_shapes : [Instr.faultReport 0 { nowhere with ctx := some 0 }, .faultReport 0 { nowhere with shelf := some 0 },
    .faultReport 0 { nowhere with
      tile := some 0
      site := some 3 }, .benchSelection 0 (List.replicate 15 0) [], .cxlReadResponse 0 0 false (zeros 63), .burstStart 0 0 33,
    .channelAdmit 0 0 (List.replicate 65 ⟨.stream, false, false, 0, 0⟩), .fabricPortBeat 0 true (zeros 63), .targetWordReceive 0 (zeros 65) false false,
    .cutFrameReceive 0 (cutSized 241), .freezeNotice (cutSized 241), .linkBlockReceive 0 0 (zeros 271) false,
    .targetBlockReceive 0 (zeros 67) false, .bar2Read 0 0 [], .bar2Read 0 4097 [], .bar2Write 0 [] [], .windowWrite 0 []].all
      (!·.wellFormed) = true ∧
    [Instr.faultReport 0 nowhere, .cutFrameReceive 0 (cutSized 240), .bar2Read 0 4096 []].all (·.wellFormed) = true := by decide +kernel

/-! ### StepRunsFront -/

theorem wit_StepRunsFront : ({ base with pending := [.hotReset, .perst] } : State).pending = Instr.hotReset :: [.perst] := rfl

/-! ### IdleStep -/

theorem wit_IdleStep : base.pending = [] ∧ base.fab.bridges.all (fun e => e.2.rx.isEmpty) = true ∧ base.fab.frames = [] := by decide

/-! ### CanonicalKept -/

theorem wit_CanonicalKept : Canonical base ∧ goes (step base) (fun _ => true) = true := by
  refine ⟨⟨rfl, rfl⟩, by decide⟩

/-! ### QueueUntouched -/

theorem wit_QueueUntouched : goes (exec .perst { base with pending := [.hotReset] }) (fun t => t.pending = [Instr.hotReset]) = true := by
  decide

/-! ### ReadAnswers -/

theorem wit_ReadAnswers : Taken base .host .pcie ∧
    (base.readErr Obj.vendorName = none ∧ (rowOf Obj.vendorName).isSome = true ∧
      base.measures Obj.vendorName = false ∧ base.countsTime Obj.vendorName = false) ∧
    (base.readErr Obj.inputVoltage = none ∧ base.measures Obj.inputVoltage = true) ∧
    (existsErr Obj.storeSync = none ∧ (rowOf Obj.storeSync).any (fun r => r.acc = .wo) = true ∧
      base.readErr Obj.storeSync = some Err.readDenied) ∧ existsErr 0 = some Err.noObject := by
  unfold Taken; decide

/-- R56: PartCode reads 0x0000_8150, so the answer's segment ends in 50 81 00 00. -/
theorem test_read_part_code : goes (exec (.read .host .pcie 5 7 ⟨0x1000, 4⟩) base) (fun u =>
    u.out.any fun | .hostWrite _ b => b.drop 8 = [0x50, 0x81, 0, 0] && b.length = 12 | _ => false) = true := by decide

/-! ### WriteStores -/

theorem wit_WriteStores : Taken owned .host .pcie ∧ owned.rst.soft = none ∧ RingServed owned ∧
    Obj.eraseAhead ≠ hostRec Obj.reqTail ∧
    goes (exec (.write .host .pcie 5 7 ⟨0x1201, 4⟩ [0] 0) owned) (fun u =>
      u.num Obj.eraseAhead = 0 && u.store.queue.length = 1) = true ∧
    handlerOf Obj.eraseAhead = Handler.plain ∧
    (owned.upto 5).rightsErr 1 Obj.eraseAhead = none ∧ Obj.eraseAhead * 8 % 8 = 0 ∧
    goes (exec (.linearMapWrite 5 (BitVec.ofNat 27 (0x1201 * 0x800 + 32)) [0, 0, 0, 0, 0, 0, 0, 0] 0) owned) (fun u =>
      u.num Obj.eraseAhead = 0) = true ∧
    (owned.upto 5).rightsErr 1 Obj.partCode = some Err.writeDenied := by
  refine ⟨by unfold Taken; decide, rfl, by unfold RingServed; decide, by decide, by decide, rfl, by decide, by decide, by decide, by decide⟩

/-! ### FlagRace -/

theorem wit_FlagRace : (rowOf Obj.storeFlags).any (fun r => r.acc = .w1c && r.ty = .u32) = true ∧
    (base.setNum Obj.storeFlags 5).num Obj.storeFlags ≤ maxOf Obj.storeFlags ∧
    (∀ m, Obj.storeFlags ≠ mrKey Obj.eventsDropped m) := by
  refine ⟨by decide, by decide, fun m => ?_⟩
  show (0x120007 : Nat) ≠ 0x110012 + 256 * m
  omega

/-- R64's example: at cycle 900 a third failure sets bit 0 as the write of 1 arrives. -/
theorem test_flag_race : ((base.setNum Obj.storeFlags 1).clearFlag Obj.storeFlags 1 1).num Obj.storeFlags = 1 ∧
    ((base.setNum Obj.storeFlags 1).clearFlag Obj.storeFlags 1 0).num Obj.storeFlags = 0 := by decide

/-! ### GroupsAreAtomic -/

/-- The host has a group open with one value staged. -/
def grouped : State := owned.setGroup 1 ⟨0, [(Obj.eraseAhead, [0])], none⟩

theorem wit_GroupBegin : (Taken owned .host .pcie ∧ owned.num Obj.owner = masterId .host ∧ owned.group 1 = none) ∧
    (Taken base .host .pcie ∧ base.num Obj.owner ≠ masterId .host) := by
  unfold Taken; decide

theorem wit_GroupsAreAtomic : Taken grouped .host .pcie ∧ grouped.groupErr 1 = none ∧ grouped.num Obj.owner = 1 ∧
    grouped.rst.soft = none ∧ grouped.num (hostRec Obj.reqHead) = grouped.num (hostRec Obj.reqTail) ∧ Tab.sorted grouped.dict.groups = true ∧
    (At grouped .host .pcie 5).firstBad 1 [(Obj.eraseAhead, [0])] = none := by
  unfold Taken; decide

theorem wit_GroupOpen : grouped.group 1 = some ⟨0, [(Obj.eraseAhead, [0])], none⟩ := by decide

theorem wit_GroupCommits :
    (match ((At grouped .host .pcie 5).closeGroup 1).applyGroup [(Obj.eraseAhead, [0])] 0 with
      | .ok u => decide (u.num Obj.eraseAhead = 0)
      | .error _ => false) = true ∧
    (At grouped .host .pcie 5).firstBad 1 [(Obj.partCode, [0, 0, 0, 0])] = some (Err.writeDenied, Obj.partCode) ∧
    base.num Obj.owner ≠ masterId .host ∧ base.dict.aborted.find? 1 = none := by decide

theorem test_group_commit : goes (exec (.groupCommit .host .pcie 5 7 0) grouped) (fun u =>
    u.num Obj.eraseAhead = 0 && (u.group 1).isNone) = true := by decide

theorem wit_GroupStage : ((At grouped .host .pcie 5).checkVal 1 Obj.compactThreshold [80]).toOption.isSome = true ∧
    handlerOf Obj.eraseAhead = Handler.plain := by
  refine ⟨by decide, rfl⟩

/-! ### OwnershipMoves -/

theorem wit_OwnershipMoves : (Taken base .host .pcie ∧ base.num Obj.owner ≠ 1 ∧ base.own.window = none) ∧
    (Taken owned .host .pcie ∧ owned.num Obj.owner = masterId .host ∧ owned.own.window = none ∧ owned.own.acceptBy = none ∧
      Tab.sorted owned.dict.groups = true ∧ validClaimant 0x42 = true) := by
  unfold Taken; decide

/-- The spec's contest (after R106): the host at 100, nodes 5 and 2 at 120; node 2, 0x42, wins. -/
theorem test_contest : winner (contestants 0 0 [⟨1, 100, .pcie, .fna, 0⟩, ⟨0x45, 120, .fna, .fna, 0⟩, ⟨0x42, 120, .fna, .fna, 0⟩]) =
    some (0x42, 120) := by decide

theorem test_window_close : goes (exec .claimWindowClose
    { owned with own := { owned.own with window := some (5, [⟨0x42, 120, .fna, .fna, 0⟩]) } }) (fun u =>
      u.num Obj.owner = 0x42 && u.own.leaseEnd = 5 + 1000000 * owned.num Obj.leasePeriod) = true := by decide

theorem wit_HandoverAccept :
    let s := { owned.setNum Obj.handoverSuccessor 1 with own := { owned.own with acceptBy := some 100 } }
    Taken s .host .pcie ∧ s.own.acceptBy = some 100 ∧ max s.now 5 < 100 ∧ s.num Obj.handoverSuccessor = masterId .host := by
  unfold Taken; decide

/-! ### EventsReachSubscribers -/

/-- The host subscribes to every index of 0x12xx. -/
def subscribed : State := owned.setNum (mrKey Obj.subscription 1) (2 ^ 41 + 0x12FF * 0x10000 + 0x1200)

theorem wit_EventsReachSubscribers : 1 ∈ subscribed.subscribers Obj.storeFlags := by decide

theorem wit_EventDelivery :
    let s := subscribed.setFlag Obj.storeFlags 1
    s.rst.serve ≠ .none ∧ s.rspRoom = true ∧ (s.dict.queues.get MasterQ.empty 1).q = [⟨Obj.storeFlags, 1, 1, .num 1, 0⟩] ∧
      (s.dict.queues.get MasterQ.empty 1).dropped = 0 ∧ (rowOf Obj.storeFlags).isSome = true ∧
      s.dict.held.any (fun o => o.tr = Transport.pcie && o.port = CanPort.fna) = false := by decide

/-! ### StoreKeepsRecords -/

/-- A persisted value waits for the flash. -/
def queued : State :=
  let s := owned.setQueue [oneRec Obj.compactThreshold (.num 80)]
  { s with store := { s.store with nextSeq := 0x4D2 } }

theorem wit_StoreKeepsRecords : queued.store.queue = [oneRec Obj.compactThreshold (.num 80)] ∧ queued.num Obj.storeState ≠ 3 ∧
    queued.rst.storeLoaded = true ∧ recSize (oneRec Obj.compactThreshold (.num 80)) ≤ queued.roomLeft ∧
    Memory.wf 0xFF queued.store.flash = true ∧ (∀ a, queued.flashByte a = 0xFF) := by
  refine ⟨by decide, by decide, by decide, by decide, by decide, fun _ => rfl⟩

theorem wit_StoreFault : queued.store.tries ≤ 2 ∧ queued.store.tries + (3 : Fin 4).val = 3 ∧
    3 * recSize (oneRec Obj.compactThreshold (.num 80)) ≤ queued.roomLeft := by decide

theorem wit_StoreCommands : owned.rst.serve = .full ∧ (owned.upto 5).rightsErr 1 Obj.storeSync = none ∧
    (owned.upto 5).rightsErr 1 Obj.forgetPersisted = none ∧ owned.num Obj.storeState ≠ 3 ∧
    ({ owned.store with syncs := [0] } : StoreState).syncs = 0 :: [] := by decide

theorem wit_LoadCopy : ({ owned with store := { owned.store with loadCopy := true } } : State).store.loadCopy = true ∧
    owned.num Obj.storeState ≠ 3 := by decide

theorem wit_Compaction :
    let s := { owned with store := { owned.store with copying := true } }
    s.store.copying = true ∧ s.store.loadCopy = false ∧ s.num Obj.storeState ≠ 3 ∧ s.num Obj.activeArea ≤ 1 ∧
      s.num Obj.eraseAhead = 1 := by decide

/-- The spec's group record (after R78): 64 bytes, its entries at 0x20 and 0x2C. -/
theorem test_group_record :
    let r := recHead 0x4D2 0xFFFF 0xFF 2 (groupEntry 0x120103 false [80] ++ groupEntry 0x120104 false [0])
    r.take 20 = [0x5B, 0xE1, 0x3C, 0x7A, 0x18, 0, 0, 0, 0xD2, 4, 0, 0, 0, 0, 0, 0, 0xFF, 0xFF, 0xFF, 2] ∧
      slice r 0x20 24 = [1, 0x12, 3, 0, 1, 0, 0, 0, 0x50, 0, 0, 0, 1, 0x12, 4, 0, 1, 0, 0, 0, 0, 0, 0, 0] ∧ r.length = 56 := by
  decide

theorem test_record_durable : goes (exec (.recordCommitDone 0) queued) (fun u =>
    u.store.queue.isEmpty && u.num Obj.lastSequence = 0x4D2 && u.flashRead 0x5000000 4 = [0x5B, 0xE1, 0x3C, 0x7A]) = true := by decide +kernel

/-! ### SegmentsCarryRequests -/

/-- A field-network node, number 9, running on port A, with JTAG selecting OAPSEG. -/
def fielded : State :=
  let s := (owned.setNum Obj.fnaState 1).setNum Obj.nodeId 9
  let s := { s with jtag := { s.jtag with ir := 0x20 }, dict := { s.dict with jtagOut := [[1]] } }
  s.setPartial .host .pcie (some ⟨[0x11, 2, 0, 0, 0, 0, 0, 0], 1, [], 0⟩)

theorem wit_SegmentsCarryRequests : RingServed owned ∧ RingServed fielded ∧ Taken owned .host .pcie ∧ owned.transportOn .pcie = true ∧ owned.partialOf .host .pcie = none ∧
    Tab.sorted owned.dict.partials = true := by
  unfold Taken RingServed; decide

theorem wit_ReadFrames :
    (let s := fielded
     let id := BitVec.ofNat 29 (canId 4 9 5)
     bits id.toNat 25 4 = 4 ∧ s.canTakes .fna = true ∧ s.canFor id = true ∧ Taken s (.node 5) .fna ∧ s.transportOn .fna = true ∧
      s.partialOf (.node 5) .fna = none ∧ Tab.sorted s.dict.partials = true ∧
      goes (exec (.canOapFrame .fna 5 id (segHead Oap.read 0 0 7 Obj.partCode 0)) s) (fun u => u.out.length = 1) = true) ∧
    (let s := { (owned.setNum Obj.debugEnabled 1) with jtag := ⟨0x20, 0⟩ }
     Taken s .jtag .jtag ∧ s.transportOn .jtag = true ∧ s.partialOf .jtag .jtag = none ∧
      goes (exec (.oapsegUpdate 5 (segHead Oap.read 0 0 7 Obj.partCode 0 ++ List.replicate 248 0)) s) (fun u => u.dict.jtagOut.length = 1) = true) := by
  unfold Taken; decide +kernel

theorem wit_SegmentsByPort : (fielded.partialOf .host .pcie).isSome = true ∧ Tab.sorted fielded.dict.partials = true ∧
    bits (BitVec.ofNat 29 (canId 4 9 5)).toNat 25 4 = 4 ∧ fielded.canTakes .fna = true ∧
    fielded.canFor (BitVec.ofNat 29 (canId 4 9 5)) = true ∧ fielded.rst.serve = .full ∧
    fielded.num Obj.peerManagerDevice = 0xFFFF ∧ fielded.jtag.ir = 0x20 ∧ fielded.dict.jtagOut = [1] :: [] := by decide

theorem test_gap : goes (exec (.segmentGapTimeout .host .pcie) fielded) (fun u =>
    u.num Obj.segmentsDiscarded = 1 && (u.partialOf .host .pcie).isNone && u.now = 100000000) = true := by decide

/-! ### TransportsRun -/

theorem wit_Rings : owned.rst.serve = .full ∧ (owned.upto 5).rightsErr 1 (hostRec Obj.reqTail) = none ∧ owned.hostUp = true ∧
    1 < owned.num (hostRec Obj.ringSlots) ∧ (owned.num (hostRec Obj.reqHead) + 1) % owned.num (hostRec Obj.ringSlots) = 1 ∧
    owned.num (hostRec Obj.reqHead) ≠ 1 ∧ (owned.upto 5).rightsErr 1 (hostRec Obj.rspHead) = none ∧
    (owned.upto 5).rightsErr 1 (hostRec Obj.ringSlots) = none ∧ owned.dict.held = [] := by decide

theorem test_one_slot : goes (exec (.reqTailWrite ⟨.linear, 5⟩ [1, 0] [segHead Oap.read 0 0 7 Obj.partCode 0]) owned) (fun u =>
    u.num (hostRec Obj.reqHead) = 1 && u.num (hostRec Obj.rspTail) = 1) = true := by decide

theorem wit_BusOff : fielded.num Obj.fnaState = 1 ∧ (owned.setNum Obj.fnbState 3).num Obj.fnbState = 3 ∧ owned.dict.held = [] := by decide

theorem wit_ResetFrame :
    let s := fielded.setNum Obj.owner 0x45
    let id := BitVec.ofNat 29 (canId 1 9 5)
    bits id.toNat 25 4 = 1 ∧ s.canTakes .fna = true ∧ s.canFor id = true ∧ s.rst.serve = .full ∧
      s.num Obj.owner = 0x40 + bits id.toNat 11 7 ∧ bits (s.num Obj.fieldResetReach) 0 2 = 1 ∧
      fielded.num Obj.owner ≠ 0x40 + bits id.toNat 11 7 := by decide

/-! ### DrawersRun -/

/-- An operation of one pass: a 16 × 16 product over K = 32, E4M3 by E4M3 into FP32. -/
def oneOp : ArrayOp :=
  { word := 0, seq := 1, fmtA := 3, fmtB := 3, fmtAcc := 0, fmtOut := 0, stat := 0, init := false, dest := false, outdim := false
    denorm := true, record := false, aOff := 0, aFs := 0x1000, bOff := 0x2000, bFs := 0x3000, cOff := 0x4000, cFs := 0x5000
    spill := 0, m := 1, n := 1, k := 16, sclA := 0x3F800000, sclB := 0x3F800000, sclC := 0x3F800000, slot := 0, order := 0
    offBase := 0, badScale := false }

/-- Tile 0 with a drawer of two shelves by two in context 0, in a drawer state. -/
def drawn (f : Drawer → Drawer) : State := base.modDr 0 0 fun _ => f { Drawer.none with st := .assigned, h := 2, w := 2, jobId := 7 }

/-- The pass of `oneOp`, past its boundary. -/
def onePass : PassWork := ⟨0, List.replicate 256 5, Counts.zero, [], 0⟩

theorem wit_DrawersRun :
    (let s := drawn fun d => { d with st := .issuing, op := some oneOp, level := 1 }
     (s.dr 0 0).st = .issuing ∧ (s.dr 0 0).op = some oneOp ∧ 0 < (s.dr 0 0).level) ∧
    (let s := drawn fun d => { d with st := .draining, op := some oneOp, await := [onePass], pass := 1 }
     (s.dr 0 0).op = some oneOp ∧ (s.dr 0 0).await = onePass :: [] ∧ (s.dr 0 0).st ≠ .stopping ∧ oneOp.stat = 0 ∧
       s.spillLocked 0 0 oneOp onePass = false ∧ (s.tile 0).flight = [] ∧ (s.portStream 0 2).isNone = true ∧
       (s.portStream 0 3).isNone = true) ∧
    (let s := drawn fun d => { d with st := .draining, op := some oneOp, pass := 1 }
     (s.dr 0 0).op = some oneOp ∧ (s.dr 0 0).st = .draining ∧ (s.dr 0 0).await = [] ∧ oneOp.dest = false ∧ oneOp.record = false ∧
       (s.dr 0 0).pendOp = none ∧ (s.dr 0 0).asked = false ∧ (s.dr 0 0).hold = [] ∧
       oneOp.outRanges.any (fun r => (s.tile 0).lockedBut (some 0) r.1 r.2) = false ∧ Memory.wf 0 s.mem = true) ∧
    ((drawn id).dr 0 0).st = .assigned := by decide +kernel

/-- At level 0 the pass has an issue cycle and reaches no boundary. -/
theorem wit_LevelZero :
    let put (a : Nat) (s : State) : State := s.poke (operandBase 0 + a) (List.replicate 32 0x38)
    let s := put 0 (put 0x1000 (put 0x2000 (put 0x3000 (drawn fun d => { d with st := .issuing, op := some oneOp }))))
    (s.dr 0 0).level = 0 ∧ s.passFree 0 (s.dr 0 0) oneOp = false := by decide +kernel

theorem test_release : goes (exec (.drawerRelease 0 0) (drawn id)) (fun u => (u.dr 0 0).st = .free) = true := by decide

theorem test_commit : goes (exec (.passCommit 0 0) (drawn fun d => { d with st := .draining, op := some oneOp, await := [onePass], pass := 1 }))
    (fun u => (u.dr 0 0).await = [] && u.num (tileKey Obj.passesCommitted 0) = 1 && (u.dr 0 0).accs.get [] 0 = onePass.acc) = true := by
  decide +kernel

/-! ### DrawersStopAndHold -/

theorem wit_DrawersStopAndHold :
    (((drawn id).dr 0 0).st = .assigned ∧ ((drawn id).dr 0 0).rt = false) ∧
    (let s := drawn fun d => { d with st := .issuing, op := some oneOp }
     (s.dr 0 0).st = .issuing ∧ (s.dr 0 0).rt = false) ∧
    ((drawn fun d => { d with rt := true }).dr 0 0).rt = true ∧ (∀ x : Ctx, ((drawn id).dr 0 x).asked = false) := by decide

theorem test_hold_and_release : goes (exec (.steeringHold 0 1) (drawn id)) (fun u =>
    (u.dr 0 0).st = .holding && goes (exec (.steeringRelease 0 1) u) (fun v => (v.dr 0 0).st = .assigned)) = true := by decide

/-! ### LevelsStep -/

theorem wit_LevelsStep :
    (let s := (drawn fun d => { d with st := .issuing, op := some oneOp, level := 3 }).setNum (tileKey Obj.throttleTarget 0) 8
     (s.dr 0 0).bound = true ∧ (s.dr 0 0).rt = false ∧ 0 < (s.dr 0 0).level ∧ (s.dr 0 0).st = .issuing ∧
       (s.dr 0 0).level < min 8 (s.capOf 0 0)) ∧
    (let s := (drawn fun d => { d with level := 3 }).setNum (tileKey Obj.throttleTarget 0) 2
     (s.dr 0 0).bound = true ∧ s.capOf 0 0 < (s.dr 0 0).level) ∧
    (let s := (drawn fun d => { d with rt := true, rtLevel := 5 }).setNum (tileKey Obj.throttleTarget 0) 2
     (s.dr 0 0).bound = true ∧ (s.dr 0 0).rt = true ∧ (s.dr 0 0).level < min 8 (s.capOf 0 0)) ∧
    (let s := base.setNum Obj.cabinetHealth 3; s.lost (cabOf 5) = true ∧ s.lost (cabOf 200) = false) := by decide

/-! ### BenchRuns -/

theorem wit_BenchRuns : (base.tile 3).bound = [] ∧ base.num (tileKey Obj.tileState 3) < 2 ∧ base.lost (cabOf 3) = false ∧ (base.tile 3).bench = none := by decide

theorem wit_BenchTwice : let s := base.modTile 3 fun t => { t with bench := some [(2, 5)] }
    (s.tile 3).bound = [] ∧ s.num (tileKey Obj.tileState 3) < 2 ∧ s.lost (cabOf 3) = false ∧ (s.tile 3).bench = some [(2, 5)] := by decide

theorem test_bench : goes (exec (.benchSelection 3 (List.replicate 16 16) [(2, 5)]) base) (fun u =>
    u.num (tileKey Obj.benchResult 3) = 0x80010004) = true := by decide

/-! ### CollectorReduces -/

/-- An INT32 entry of slot 0. -/
def entryOf (order : Nat) (v : BitVec 32) : Entry := ⟨0, order, 0, 10, 0, 0xFFFFFFFF, List.replicate 32 v⟩

/-- Slot 0 of cabinet 0 open for two contributors, one head queued at tile 1. -/
def collecting (order : Nat) (staged : List Entry) : State :=
  let s := base.setColl 0 ⟨[(0, ⟨2, 32, 0x4000200000, 7, []⟩)], staged⟩
  s.modTile 1 fun t => { t with queue := [(entryOf order 5, 0, 0)] }

theorem wit_CollectorSlotOpen : base.collUp 0 = true ∧ (base.coll 0).slots.find? 3 = none ∧
    base.place 0x4000200000 = .buffer 0 0x200000 := by decide

theorem wit_CollectorAdmit : ((collecting 1 []).tile 1).queue = [(entryOf 1 5, 0, 0)] ∧
    (∀ t : Fin 150, t ≠ 1 → ((collecting 1 []).tile t).queue = []) ∧ ((collecting 1 []).coll 0).slots.find? 0 ≠ none ∧
    ((collecting 1 []).coll 0).isNext (entryOf 1 5) = false ∧ ((collecting 0 []).coll 0).isNext (entryOf 0 5) = true ∧
    Tab.sorted ((collecting 0 []).coll 0).slots = true ∧ val32 0x7FC00001 = FVal.nan := by decide

theorem wit_ChainCombine : ((collecting 1 [entryOf 0 9]).coll 0).staging = [entryOf 0 9] ∧
    ((collecting 1 [entryOf 0 9]).coll 0).isNext (entryOf 0 9) = true ∧
    ({ n := 2, len := 32, dest := 0x4000200000, jobId := 7, chains := [(0, Chain.empty.combine (entryOf 0 9))] } : Slot).complete = false := by
  decide

theorem test_combine_saturates :
    (((Chain.empty.combine (entryOf 0 0x7FFFFFFF)).combine (entryOf 1 1)).acc.map (·.data.getD 3 0)) = some 0x7FFFFFFF := by decide

/-! ### ControlOps -/

/-- Tile 0 with context 0 resident and ready, its program one word. -/
def ready (op : Nat) (w : BitVec 120) (f : Image → Image) : State :=
  let s := (drawn id).modTile 0 fun t => { t with banks := [⟨some 0, false⟩, Bank.empty, Bank.empty, Bank.empty], prog := [(0, w ++ BitVec.ofNat 8 op)] }
  (s.modTh 0 0 fun h => { h with st := .ready, winLen := 4 }).modImg 0 0 f

/-- Whether the operation is chosen. -/
def chosen (s : State) (op : Nat) (w : BitVec 120) : Bool :=
  s.select 0 = some 0 && (s.img 0 0).pc < (s.th 0 0).winLen && s.fetch 0 0 = w ++ BitVec.ofNat 8 op && !w.getLsbD 2 &&
    !reservedBits op (w.toNat * 256 + op) && (s.tile 0).flight.isEmpty

theorem chosen_of (s : State) (op : Nat) (w : BitVec 120) (h : chosen s op w = true) : Chosen s 0 0 op w := by
  simp only [chosen, Bool.and_eq_true, decide_eq_true_eq, Bool.not_eq_true', List.isEmpty_iff] at h
  exact ⟨h.1.1.1.1.1, h.1.1.1.1.2, h.1.1.1.2, h.1.1.2, h.1.2, h.2⟩

/-- A field of an operation word, with its place. -/
def fld (lo v : Nat) : BitVec 120 := BitVec.ofNat 120 (v * 2 ^ (lo - 8))

theorem wit_ControlOps : chosen (ready 0x00 0 id) 0x00 0 = true ∧ chosen (ready 0x0B 0 id) 0x0B 0 = true ∧
    chosen (ready 0x02 (fld 32 3) id) 0x02 (fld 32 3) = true ∧ opf ((fld 32 3).toNat * 256) 32 12 < 4 ∧
    chosen (ready 0x03 (fld 32 3) id) 0x03 (fld 32 3) = true ∧ chosen (ready 0x04 (fld 32 3) id) 0x04 (fld 32 3) = true ∧
    chosen (ready 0x05 (fld 64 9) id) 0x05 (fld 64 9) = true ∧ chosen (ready 0x06 (fld 64 9) id) 0x06 (fld 64 9) = true ∧
    chosen (ready 0x07 (fld 64 9) id) 0x07 (fld 64 9) = true ∧ chosen (ready 0x0C (fld 64 9) id) 0x0C (fld 64 9) = true := by decide

/-- SADD S3 := S1 + S2 + 5, with S1 = 2^64 − 1 and S2 = 1, gives 5. -/
theorem test_sadd_wraps : goes (exec (.sadd 0 0 (fld 16 3 ||| fld 20 1 ||| fld 24 2 ||| fld 64 5))
    (ready 0x06 (fld 16 3 ||| fld 20 1 ||| fld 24 2 ||| fld 64 5) fun i => { i with s := [(1, -1), (2, 1)] })) (fun u =>
      (u.tile 0).flight = [⟨0, 1, .scalar 3 5, 0, none⟩]) = true := by decide

/-- SSHF by −4 shifts arithmetically: −32 gives −2. -/
theorem test_sshf_right : goes (exec (.sshf 0 0 (fld 16 3 ||| fld 20 1 ||| fld 64 0xFC))
    (ready 0x07 (fld 16 3 ||| fld 20 1 ||| fld 64 0xFC) fun i => { i with s := [(1, -32)] })) (fun u =>
      (u.tile 0).flight = [⟨0, 1, .scalar 3 (-2), 0, none⟩]) = true := by decide

/-! ### SettingAndFenceOps -/

theorem wit_SettingAndFenceOps : chosen (ready 0x01 0 id) 0x01 0 = true ∧
    (((ready 0x01 0 id).dr 0 0).op = none ∧ ((ready 0x01 0 id).dr 0 0).pendOp = none) ∧
    chosen (ready 0x08 (fld 20 1) fun i => { i with s := [(1, 0x640)] }) 0x08 (fld 20 1) = true ∧
    (bits 0x640 20 5 = 0 ∧ bits 0x640 0 20 % 2 ^ bits 0x640 20 5 = 0) ∧ chosen (ready 0x09 0 id) 0x09 0 = true ∧
    chosen (ready 0x0A 0 id) 0x0A 0 = true ∧ chosen (ready 0x20 (fld 16 1) id) 0x20 (fld 16 1) = true ∧
    (ready 0x20 (fld 16 1) id).fenceHolds 0 0 1 = true ∧
    chosen (ready 0x21 (fld 64 5) fun i => { i with semaSet := 1 }) 0x21 (fld 64 5) = true ∧
    chosen (ready 0x22 (fld 64 5) fun i => { i with semaSet := 1 }) 0x22 (fld 64 5) = true := by decide

theorem test_semawait_blocks : goes (exec (.semawait 0 0 (fld 64 5)) (ready 0x22 (fld 64 5) fun i => { i with semaSet := 1 }))
    (fun u => (u.th 0 0).st = .blocked && (u.img 0 0).pc = 0) = true := by decide

theorem test_halt : goes (exec (.halt 0 0 0) (ready 0x01 0 id)) (fun u => (u.th 0 0).st = .halted) = true := by decide

/-! ### LaneOps -/

theorem wit_LaneOps : chosen (ready 0x82 0 id) 0x82 0 = true ∧ chosen (ready 0x83 0 id) 0x83 0 = true ∧
    chosen (ready 0x84 0 id) 0x84 0 = true ∧ chosen (ready 0x85 0 id) 0x85 0 = true ∧ chosen (ready 0x8F 0 id) 0x8F 0 = true := by decide

/-- VFADD of 1.0 and 2.0 gives 3.0 in lane 5. -/
theorem test_vfadd : goes (exec (.vfadd 0 0 (fld 16 2 ||| fld 24 1)) (ready 0x82 (fld 16 2 ||| fld 24 1) fun i =>
    { i with v := [(0, ⟨List.replicate 128 0x3F800000, 0⟩), (1, ⟨List.replicate 128 0x40000000, 0⟩)] })) (fun u =>
      match (u.tile 0).flight with
      | [⟨0, 4, .vreg 2 r, 0, some (0x82, false, _)⟩] => r.lanes.getD 5 0 = 0x40400000
      | _ => false) = true := by decide +kernel

/-! ### FixedPointOps -/

theorem wit_FixedPointOps : chosen (ready 0x86 0 id) 0x86 0 = true ∧ chosen (ready 0x89 0 id) 0x89 0 = true ∧
    chosen (ready 0x8A (fld 40 1) id) 0x8A (fld 40 1) = true ∧ chosen (ready 0x87 0 id) 0x87 0 = true ∧
    chosen (ready 0x88 0 fun i => { i with ma := [(0, { MAcc.zero with empty := false })] }) 0x88 0 = true ∧
    ((ready 0x8A (fld 40 1) id).img 0 0).vec 0 = VReg.zero ∧ ((ready 0x8A (fld 40 1) id).img 0 0).acc 0 = MAcc.zero := by decide

theorem wit_lengths (n : Nat) : (((ready 0x86 0 id).img 0 0).vec n).lanes.length = 128 ∧
    (((ready 0x86 0 id).img 0 0).acc n).lanes.length = 128 := ⟨rfl, rfl⟩

/-- VIMAC: 3 × 5 added to 7 gives 22. -/
theorem test_vimac : goes (exec (.vimac 0 0 (fld 24 1)) (ready 0x88 (fld 24 1) fun i =>
    { i with v := [(0, ⟨List.replicate 128 3, 0⟩), (1, ⟨List.replicate 128 5, 0⟩)]
             ma := [(0, ⟨List.replicate 128 7, 0, false⟩)] })) (fun u =>
      match (u.tile 0).flight with
      | [⟨0, 5, .macc 0 a, 0, some (0x88, false, _)⟩] => a.lanes.getD 9 0 = 22
      | _ => false) = true := by decide

/-! ### SearchOps -/

theorem wit_SearchOps : chosen (ready 0x8B (fld 39 1) id) 0x8B (fld 39 1) = true ∧ chosen (ready 0x8C (fld 39 1) id) 0x8C (fld 39 1) = true ∧
    chosen (ready 0x8D (fld 39 1) id) 0x8D (fld 39 1) = true ∧ chosen (ready 0x8E 0 id) 0x8E 0 = true ∧
    ((ready 0x8B (fld 39 1) id).img 0 0).search.empty = true ∧ ((ready 0x8B (fld 39 1) id).img 0 0).lane (fld 39 1).toNat 0 = true := by decide

/-- VMAX over −1, 7, 3, 7, 0 … finds 7 at index 1. -/
theorem test_vmax : goes (exec (.vmax 0 0 (fld 39 1)) (ready 0x8B (fld 39 1) fun i =>
    { i with v := [(0, ⟨[-1, 7, 3, 7] ++ List.replicate 124 0, 0⟩)] })) (fun u => match (u.tile 0).flight with
      | [⟨0, 7, .search h, 0, _⟩] => h.value = 7 && h.index = 1 && h.fix
      | _ => false) = true := by decide +kernel

/-! ### LoadsStoresAndLandings -/

theorem wit_LoadsStoresAndLandings : chosen (ready 0x80 0 id) 0x80 0 = true ∧ chosen (ready 0x81 (fld 36 1) id) 0x81 (fld 36 1) = true ∧
    lanesOk 0 (((ready 0x80 0 id).img 0 0).laneAddrs 0) = true ∧
    lanesOk 0 (((ready 0x81 (fld 36 1) id).img 0 0).laneAddrs (fld 36 1).toNat) = true := by decide

theorem wit_unlocked (a : Nat) : ((ready 0x81 (fld 36 1) id).tile 0).locked a = false := by rfl

theorem wit_landings : let f : Flight := ⟨0, 4, .scalar 3 9, 0, none⟩
    ((base.modTile 0 fun t => { t with flight := [f] }).tile 0).waits 0 f = false := by decide

/-- A store into the A rows of a pass that issues. -/
theorem wit_waits : let f : Flight := ⟨1, 4, .mem [(operandBase 0, 1)], 0, none⟩
    let s := (drawn fun d => { d with st := .issuing, op := some oneOp, begun := true }).modTile 0 fun t => { t with flight := [f] }
    (s.tile 0).flight = [f] ∧ (s.tile 0).waits 0 f = true := by decide

theorem wit_landing : ((base.modTile 0 fun t => { t with flight := [⟨0, 4, .scalar 3 9, 0, none⟩] }).tile 0).flight =
    [⟨0, 4, .scalar 3 9, 0, none⟩] ∧ Memory.wf 0 base.mem = true := by decide

/-- A load of 16-bit lanes sign-extends 0x8001. -/
theorem test_vld : goes (exec (.vld 0 0 (fld 40 1) 0) ((ready 0x80 (fld 40 1) id).poke (operandBase 0) [1, 0x80]))
    (fun u => match (u.tile 0).flight with
      | [⟨0, 9, .vreg 0 r, 0, _⟩] => r.lanes.getD 0 0 = 0xFFFF8001
      | _ => false) = true := by decide

theorem test_landing : goes (exec (.resultLanding 0) (base.modTile 0 fun t => { t with flight := [⟨0, 4, .scalar 3 9, 0, none⟩] }))
    (fun u => (u.img 0 0).reg 3 = 9 && (u.tile 0).acyc = 5) = true := by decide

/-! ### ArrayOpsAndResidence -/

/-- An MMA word: E4M3 by E4M3 into FP32 and out as FP32; offsets in S1–S3, sizes in S4, coarse scales 1.0 in S5, S6. -/
def mmaWord : BitVec 120 := fld 16 3 ||| fld 20 3 ||| fld 40 1 ||| fld 44 2 ||| fld 48 3 ||| fld 52 4 ||| fld 56 5 ||| fld 60 6
def mmaImage (k : Nat) (i : Image) : Image :=
  { i with s := [(1, 0x1000 * 2 ^ 20), (2, 0x2000 + 0x3000 * 2 ^ 20), (3, 0x4000), (4, BitVec.ofNat 64 (1 + 2 ^ 16 + k * 2 ^ 32)),
                 (5, 0x3F8000003F800000), (6, 0x3F800000)] }

theorem wit_Mma : chosen (ready 0x60 mmaWord (mmaImage 16)) 0x60 mmaWord = true ∧
    (let o := (ready 0x60 mmaWord (mmaImage 16)).arrayOp 0 0 (mmaWord.toNat * 256)
     o.formatsOk && o.pairingOk && o.modeOk && o.rangeOk ((ready 0x60 mmaWord (mmaImage 16)).dr 0 0) && o.m ≠ 0 && o.n ≠ 0 && o.k ≠ 0) = true ∧
    ((ready 0x60 mmaWord (mmaImage 16)).dr 0 0).st = .assigned ∧ chosen (ready 0x60 mmaWord (mmaImage 0)) 0x60 mmaWord = true := by decide

theorem wit_MmaAgain :
    let s := ((ready 0x60 0 (mmaImage 16)).modTh 0 0 fun h => { h with again := some { oneOp with m := 16, n := 16 } })
    chosen s 0x60 0 = true ∧ (oneOp.formatsOk && oneOp.pairingOk && oneOp.modeOk && oneOp.rangeOk (s.dr 0 0)) = true := by decide

theorem test_mma_k0 : goes (exec (.mma 0 0 mmaWord) (ready 0x60 mmaWord (mmaImage 0))) (fun u =>
    bits (u.num (tileKey Obj.lastRefusal 0)) 20 4 = 7 && (u.th 0 0).st = .refused) = true := by decide

theorem wit_Residence : ((drawn id).dr 0 0).bound = true ∧ ((drawn id).tile 0).bankOf 0 = none ∧ ((drawn id).th 0 0).st = .idle ∧
    ((drawn id).tile 0).banks.length = 4 ∧ (((drawn id).tile 0).banks.getD 0 Bank.empty).ctx = none ∧
    goes (exec (.contextEviction 0 0) (drawn id)) (fun u => (u.tile 0).banks.getD 0 Bank.empty = ⟨some 0, true⟩) = true := by decide

theorem wit_BlockCleared :
    let s := (ready 0x22 (fld 64 5) fun i => { i with semaSet := 1 }).modTh 0 0 fun h => { h with st := .blocked, blockedOn := some (fld 64 5 ++ (0x22 : BitVec 8)) }
    let s := s.modTile 0 fun t => { t with sema := [(0, 5)] }
    (s.th 0 0).blockedOn = some (fld 64 5 ++ (0x22 : BitVec 8)) ∧ s.stillBlocked 0 0 (fld 64 5 ++ (0x22 : BitVec 8)) = false ∧
      (s.th 0 0).st = .blocked := by decide

/-! ### StreamOps -/

/-- A job running in context 0 of tile 0, with stream 0 of cabinet 0. -/
def jobOf : JobS :=
  { desc := ⟨7, 1, false, 0, 0, 0, 0, 1000, []⟩, layout := ⟨1, [], [], [], [], []⟩, ring := 0, st := .running, order := 1, asn := 1
    mapped := true, placed := [], placedAt := 0, streams := [0], granules := [], saved := none, saveLost := false, preemptNext := false, runNs := 0, runFrom := none
    ckptNs := 0, newest := none, writing := none, gapHold := false, ckptAt := 0, status := none, reported := none, released := false
    ckptStep := 0, xfers := [], nextXfer := 0, xferBad := false, gathered := [], hostImg := [] }

/-- A read stream of four units. -/
def streamOf (delivered freed : Nat) : StreamS :=
  { StreamS.new 7 0 0 0 ⟨0, 0, false, false, 2, 0x8000, [4, 1, 1, 1, 1], [256, 0, 0, 0, 0], 1, 0⟩ [] 0 with
    st := .running, issued := delivered, delivered := delivered, freed := freed }

def streaming (op : Nat) (w : BitVec 120) (m : Option StreamS) : State :=
  let s := ready op w id
  { s with jobs := { s.jobs with jobs := [(7, jobOf)] }, streams := match m with | some m => [(0, m)] | none => [] }

theorem wit_StreamOps :
    (chosen (streaming 0x41 (fld 64 2) (some (streamOf 3 0))) 0x41 (fld 64 2) && (streaming 0x41 (fld 64 2) (some (streamOf 3 0))).streamOk 0 0 0) = true ∧
    2 ≤ (streaming 0x41 (fld 64 2) (some (streamOf 3 0))).held 0 0 ∧ (streaming 0x41 (fld 64 2) (some (streamOf 1 0))).held 0 0 < 2 ∧
    chosen (streaming 0x42 (fld 64 2) (some (streamOf 3 0))) 0x42 (fld 64 2) = true ∧
    chosen (streaming 0x43 0 (some (streamOf 3 0))) 0x43 0 = true ∧ (streaming 0x43 0 (some (streamOf 3 0))).feedUsing 0 0 = none := by decide

/-- A descriptor in operand memory at offset 0: a read of one unit from address 0 into a ring of four units at 0x8000. -/
def described : State := (streaming 0x40 0 none).poke (operandBase 0)
  (leBytes 7 0 ++ [2] ++ leBytes 4 0x8000 ++ (List.range 5).flatMap (fun _ => leBytes 4 1) ++ leBytes 32 0)

theorem wit_Sopen : chosen described 0x40 0 = true ∧ described.streamOk 0 0 0 = true ∧ described.feedUsing 0 0 = none ∧
    (described.stream 0).isNone = true ∧
    (match described.checkDesc 0 0 0 0 jobOf with
     | .ok (d, [], 0) => d.dir = 0 && !d.rt && !d.mcast && d.total = 1
     | _ => false) = true := by decide

theorem test_sopen : goes (exec (.sopen 0 0 0) described) (fun u =>
    (u.stream 0).any fun m => m.st = .running && m.total = 1 && m.desc.ring = 4) = true := by decide

/-! ### StreamUnitsMove -/

theorem wit_UnitMoves :
    let m := { streamOf 1 0 with outst := [⟨1, 0x4000200000, List.replicate 256 9⟩], issued := 2, looked := 2 }
    let s := streaming 0 0 (some m)
    s.stream (streamKey 0 0) = some m ∧ m.desc.dir = 0 ∧ m.st = .running ∧ s.place 0x4000200000 = .buffer 0 0x200000 ∧
      s.cabStatus 0 = .ok ∧ Memory.wf 0 s.mem = true ∧ s.changing 0x4000200000 = false ∧ s.lockedAt (m.desc.slot 0 1) 256 = false ∧
      s.mm.faults = [] ∧
      goes (exec (.unitDelivered 0 0 0 .ok []) s) (fun u => u.byte (operandBase 0 + 0x8100) = 9) = true := by decide +kernel

/-- A multicast of one receiver with unit 1 on its way to the window. -/
def casting : StreamS :=
  let m := { streamOf 1 0 with
    outst := [⟨1, 0x4000200000, List.replicate 256 9⟩], issued := 2, looked := 2, fetched := 1, window := 0x4000300000
    recv := [⟨0, 1, 0, true⟩] }
  { m with desc := { m.desc with mcast := true, winLog2 := 18 } }

theorem wit_Multicast :
    let s := streaming 0 0 (some casting)
    s.stream (streamKey 0 0) = some casting ∧ casting.desc.mcast = true ∧ casting.recv[0]? = some ⟨0, 1, 0, true⟩ ∧
      s.lockedAt (casting.desc.slot 0 1) 256 = false ∧ s.place (casting.windowAt 1) = .buffer 0 0x300100 ∧
      goes (exec (.unitDelivered 0 0 0 .ok []) s) (fun u => u.byte (operandBase 0 + 0x8100) = 9 && u.byte 0x4000300100 = 9) = true := by
  decide +kernel

/-- A stream of job 7 reads the third page of a 2 MiB-paged segment, which lies in cabinet 0's stream buffer: one table
serves for levels 3 to 1. -/
def paged (m : StreamS) : State :=
  (streaming 0 0 (some m)).poke (rootOf 0 1)
    (leBytes 8 (1 + rootOf 0 1) ++ leBytes 8 (1 + rootOf 0 1) ++ leBytes 8 (mkLeaf true false false false 0x4000200000))

theorem root_aligned : rootOf 0 1 % 4096 = 0 ∧ rootOf 0 1 < 2 ^ 47 := by
  unfold rootOf tableAddr gddrBase
  have h : Config.gddrPerCabinet / 4096 ≤ 0x600000 ∧ 0 < Config.gddrPerCabinet / 4096 := by
    unfold Config.gddrPerCabinet; split <;> decide
  have := Nat.mod_lt (Config.tableAt 0 1 3 0).toNat h.2
  simp
  omega

theorem testBit_of (n i : Nat) : n.testBit i = decide (n / 2 ^ i % 2 = 1) := Nat.testBit_eq_decide_div_mod_eq

theorem paged_translate (m : StreamS) :
    (paged m).translate 0 1 (0x40410000 : Int) false = .ok 0x4000210000 0x40400000 true := by
  have hr := root_aligned
  have hw : Memory.wf 0 (streaming 0 0 (some m)).mem = true := by rfl
  have h0 : (paged m).readNat (rootOf 0 1) 8 = 1 + rootOf 0 1 := by
    have := State.readNat_poke (streaming 0 0 (some m)) (rootOf 0 1) 8 (1 + rootOf 0 1) [] (leBytes 8 (1 + rootOf 0 1) ++
      leBytes 8 (mkLeaf true false false false 0x4000200000)) hw (by omega)
    simpa [paged] using this
  have h1 : (paged m).readNat (rootOf 0 1 + 8) 8 = 1 + rootOf 0 1 := by
    have := State.readNat_poke (streaming 0 0 (some m)) (rootOf 0 1) 8 (1 + rootOf 0 1) (leBytes 8 (1 + rootOf 0 1))
      (leBytes 8 (mkLeaf true false false false 0x4000200000)) hw (by omega)
    simpa [paged] using this
  have h2 : (paged m).readNat (rootOf 0 1 + 16) 8 = mkLeaf true false false false 0x4000200000 := by
    have := State.readNat_poke (streaming 0 0 (some m)) (rootOf 0 1) 8 (mkLeaf true false false false 0x4000200000)
      (leBytes 8 (1 + rootOf 0 1) ++ leBytes 8 (1 + rootOf 0 1)) [] hw (by decide)
    simpa [paged] using this
  have e3 : entryAddr (rootOf 0 1) 3 0x40410000 = rootOf 0 1 := by simp [entryAddr, levelBits, bits]
  have e2 : entryAddr (rootOf 0 1) 2 0x40410000 = rootOf 0 1 + 8 := by simp [entryAddr, levelBits, bits]
  have e1 : entryAddr (rootOf 0 1) 1 0x40410000 = rootOf 0 1 + 16 := by simp [entryAddr, levelBits, bits]
  have hb : pteValid (1 + rootOf 0 1) = true ∧ pteLeaf (1 + rootOf 0 1) = false ∧ bits (1 + rootOf 0 1) 6 2 = 0 ∧
      bits (1 + rootOf 0 1) 60 3 = 0 ∧ bits (1 + rootOf 0 1) 48 16 = 0 ∧ bits (1 + rootOf 0 1) 8 40 * 256 = rootOf 0 1 := by
    simp only [pteValid, pteLeaf, testBit_of, bits]
    refine ⟨by simp; omega, by simp; omega, by omega, by omega, by omega, ?_⟩
    have : (1 + rootOf 0 1) / 2 ^ 8 = rootOf 0 1 / 256 := by omega
    have h' : rootOf 0 1 / 256 < 2 ^ 40 := by omega
    rw [this, Nat.mod_eq_of_lt h']
    exact Nat.div_mul_cancel (Nat.dvd_of_mod_eq_zero (by omega))
  obtain ⟨b1, b2, b3, b4, b5, b6⟩ := hb
  have hv : (0x40410000 : Int).toNat = 0x40410000 := by decide
  unfold State.translate
  rw [if_neg (by decide)]
  simp only [hv]
  have hc : (paged m).cachedLeaf 0 1 0x40410000 = none := by rfl
  have w : (paged m).walk 0x40410000 3 (rootOf 0 1) = some (rootOf 0 1 + 16, mkLeaf true false false false 0x4000200000, 1) := by
    rw [State.walk]; simp only [Nat.reduceAdd, e3, h0, b1, b2, b3, b4, b5, b6]
    rw [State.walk]; simp only [Nat.reduceAdd, e2, h1, b1, b2, b3, b4, b5, b6]
    rw [State.walk]; simp only [Nat.reduceAdd, e1, h2]
    simp [mkLeaf, b2n, bits, pteValid, pteLeaf, testBit_of]
  have hl : (paged m).leafFor 0 1 0x40410000 = some (mkLeaf true false false false 0x4000200000, true) := by
    rw [State.leafFor, hc, w]; rfl
  rw [hl]
  simp [mkLeaf, b2n, bits, pageSize, pteWritable, ptePresent, pteMigrating, pteRemote, testBit_of]
  decide
/-- The stream's next unit lies in that page. -/
def pagedStream (st : StreamSt) : StreamS :=
  { streamOf 1 0 with
    st := st
    cause := 1
    desc := { (streamOf 1 0).desc with base := 0x40400000 } }

theorem pagedStream_va (st : StreamSt) : (pagedStream st).desc.va (pagedStream st).issued = 0x40410000 := by cases st <;> decide

theorem wit_UnitRequest :
    let s := paged { pagedStream .running with looked := 4 }
    s.lost 0 = false ∧ s.inCReset 0 = false ∧ s.stallCycle 0 0 = s ∧ s.pickStream 0 0 = some (0, { pagedStream .running with looked := 4 }) ∧
      s.detach 0 = s ∧ s.job 7 = some jobOf ∧ jobOf.asn = 1 ∧ s.lookAhead 0 jobOf 33 = s ∧ s.place 0x4000210000 = .buffer 0 0x210000 :=
  ⟨by rfl, by rfl, by rfl, by rfl, by rfl, by rfl, by rfl, by rfl, by rfl⟩

theorem wit_StreamResume :
    let s := paged (pagedStream .halted)
    s.stream (streamKey 0 0) = some (pagedStream .halted) ∧ (pagedStream .halted).st = .halted ∧ s.job 7 = some jobOf ∧
      s.translate 0 1 ((pagedStream .halted).desc.va (pagedStream .halted).issued) false = .ok 0x4000210000 0x40400000 true :=
  ⟨rfl, rfl, rfl, by rw [pagedStream_va]; exact paged_translate _⟩

theorem wit_UnitVisible :
    let m := { streamOf 1 2 with outst := [⟨1, 0x4000200000, List.replicate 256 9⟩], issued := 2, desc := { (streamOf 1 2).desc with dir := 1 } }
    let s := streaming 0 0 (some m)
    s.stream (streamKey 0 0) = some m ∧ m.desc.dir = 1 ∧ s.place 0x4000200000 = .buffer 0 0x200000 ∧
      goes (exec (.unitVisible 0 0 1 .ok) s) (fun u => u.byte 0x4000200005 = 9) = true := by decide +kernel

/-! ### StreamsHaltAndGoOn -/

theorem wit_StreamsHaltAndGoOn :
    (let m := { streamOf 3 0 with halting := some (1, 0x1000) }
     (streaming 0 0 (some m)).stream (streamKey 0 0) = some m ∧ m.outst = [] ∧ m.st = .running) ∧
    (let m := { streamOf 3 0 with st := .opening, desc := { (streamOf 3 0).desc with rt := true } }
     (streaming 0 0 (some m)).stream (streamKey 0 0) = some m ∧ m.desc.rt = true ∧
       (streaming 0 0 (some m)).mm.pins.filter (·.1 = 0) = []) ∧
    (let m := { streamOf 3 0 with st := .closing }
     (streaming 0 0 (some m)).stream (streamKey 0 0) = some m ∧ m.outst = [] ∧ m.desc.isRead = true ∧ m.reopen = none ∧
       Tab.sorted (streaming 0 0 (some m)).streams = true) := by decide

theorem test_halt_record : goes (exec (.streamHaltComplete 0 0) (streaming 0 0 (some { streamOf 3 0 with halting := some (1, 0x1000) })))
    (fun u => (u.stream 0).any fun m => m.st = .halted && m.halts = 1 && m.record.length = 48 && slice m.record 0 4 = [0, 0, 1, 0]) = true := by
  decide

/-! ### ChannelsAdmitAndServe -/

/-- A Ready cabinet 0. -/
def gddr : State := base.setNum (Obj.gddrCabinetState + 0) 2
def chWrite : ChanReq := ⟨.stream, false, true, 0x18000, 1⟩
def chRead : ChanReq := ⟨.stream, false, false, 0x18000, 2⟩

theorem slot_populated : 0x18000 < Config.gddrPerCabinet := by unfold Config.gddrPerCabinet; split <;> decide

/-- Both requests lie in the populated part of channel 0. -/
theorem offered (c : Cab) (s : State) (r : ChanReq) (h : r.offset = 0x18000) (hs : s.num (Obj.gddrCabinetState + c) = 2) :
    exec (.channelAdmit c 0 [r]) s = match s.pickOffer (s.chan c 0) [r] with
      | none => .next s
      | some (r, turn, credit) => .next ((s.setChan c 0 { s.chan c 0 with
          turn := turn
          credit := credit }).admitReq c 0 r) := by
  have hk : r.offset.toNat = 0x18000 := by rw [h]; decide
  simp [exec, execChannelAdmit, hs, chanOf, hk, slotChannel, slot_populated] <;> rfl

theorem wit_ChannelAdmit : gddr.num (Obj.gddrCabinetState + 0) = 2 ∧ (gddr.chan 0 0).credit = 0 ∧
    (gddr.chan 0 0).room chWrite = true ∧ chanOf chWrite = (0 : Fin 24).val ∧
    ([chRead, { chWrite with realTime := true }].find? fun o => (gddr.chan 0 0).room o && o.realTime).isSome = true ∧
    (let s := gddr.setChan 0 0 { gddr.chan 0 0 with credit := 3 }
     ([chWrite].find? fun o => (s.chan 0 0).room o && classNo o.cls = (s.chan 0 0).turn) = some chWrite) ∧
    (let s := gddr.setChan 0 0 { gddr.chan 0 0 with queue := List.replicate 32 ⟨0, true, false, 1, 1⟩ }
     (s.chan 0 0).room chWrite = false) := by decide

/-- With a matching write queued, the read puts its bank in in-order mode and waits for the write. -/
theorem test_in_order : goes (exec (.channelAdmit 0 0 [chRead]) (gddr.admitReq 0 0 chWrite)) (fun u =>
    (u.chan 0 0).inOrder = [(2, [1])] && u.num Obj.inOrderEntries = 1 && !(u.chan 0 0).readReady ⟨2, false, false, 2, 0⟩ &&
      (u.chan 0 0).writeReady ⟨1, true, false, 2, 0⟩ && goes (exec (.channelReadServed 0 0 2 (.good 0 false)) u) (fun w => w.chan 0 0 = u.chan 0 0)) = true := by
  rw [offered _ _ _ rfl (by decide)]; decide

theorem wit_ReadServed : ((gddr.admitReq 0 0 chRead).chan 0 0).queue.find? (fun e => e.tag = 2 && !e.isWrite) = some ⟨2, false, false, 2, 0⟩ ∧
    ((gddr.admitReq 0 0 chRead).chan 0 0).readReady ⟨2, false, false, 2, 0⟩ = true ∧
    ((gddr.admitReq 0 0 chWrite).chan 0 0).queue.find? (fun e => e.tag = 1 && e.isWrite) = some ⟨1, true, false, 2, 0⟩ ∧
    ((gddr.admitReq 0 0 chWrite).chan 0 0).writeReady ⟨1, true, false, 2, 0⟩ = true := by decide

/-! ### OperatingPointChanges -/

/-- Points 28 and 32 available, cabinets 0 and 2 Ready, nothing changing. -/
def pointed : State := ((owned.setNum Obj.availablePoints 3).setNum (Obj.gddrCabinetState + 0) 2).setNum (Obj.gddrCabinetState + 2) 2

theorem admitted_linear (k t : Nat) (val : List Byte) (s : State) (hs : s.rst.serve = .full)
    (h : ((s.upto t).checkVal 1 k val).toOption.any (·.1.ty.fixed) = true) : Admitted ⟨.linear, t⟩ k val s := by
  refine ⟨?_, hs⟩
  show ∃ r v, (s.upto t).checkVal 1 k val = .ok (r, v) ∧ _
  match hc : (s.upto t).checkVal 1 k val with
  | .error e => rw [hc] at h; simp [Except.toOption] at h
  | .ok (r, v) => exact ⟨r, v, rfl, fun _ => by rw [hc] at h; simpa [Except.toOption] using h⟩

theorem wit_OperatingPoint : Admitted ⟨.linear, 5⟩ Obj.operatingPoint [32] pointed :=
  admitted_linear _ _ _ _ rfl (by decide)

theorem wit_OperatingPoint2 : pointed.num Obj.availablePoints / 2 ^ ((leNat [32] - 28) / 4) % 2 = 1 ∧ pointed.streams = [] ∧
    pointed.num Obj.stepMode ≠ 1 ∧ pointed.num Obj.changeState ≠ 1 ∧ pointed.num (Obj.gddrCabinetState + 0) = 2 := by decide

theorem test_point_changes : goes (exec (.operatingPointWrite ⟨.linear, 5⟩ [32]) pointed) (fun u =>
    u.mm.changing = [0, 1, 2, 3, 4, 5, 6, 7] && goes (exec .cabinetPointChangeDone u) (fun u =>
      u.num Obj.changingCabinet = 2 && u.num (Obj.gddrCabinetState + 0) = 2 && goes (exec .cabinetPointChangeDone u) (fun u =>
        u.num Obj.activeOperatingPoint = 32 && u.num Obj.changeState = 0))) = true := by decide

/-! ### CxlPortsReport -/

theorem wit_CxlPorts : (base.setNum (Obj.cxlPortState + 1) 3).num (Obj.cxlPortState + (1 : Fin 4)) = 3 := by decide

/-! ### PageFaultsAreServed -/

/-- A fault of job 7 in cabinet 0, queued; the job has one unit of frames of 64 KiB. -/
def pageFault : PageFault := ⟨1, 0x100000, 0, 5, .queued, false⟩
def faulting (quota : List (Nat × Nat)) (f : PageFault) : State :=
  { base with jobs := { base.jobs with jobs := [(7, { jobOf with
                mapped := true
                desc := { jobOf.desc with quotas := quota } })] }
              mm := { base.mm with faults := [f], backing := [(leafKey 1 0x100000, 0x400000000000)] } }

theorem wit_ServeFault : (let s := faulting [(1, 0)] pageFault
    s.mm.faults.find? (fun f => f.stage = .queued && !(s.mm.faults.any fun g => g.evicts f.asn f.va)) = some pageFault ∧ (s.mm.faults.filter fun g => g.stage ≠ .queued).length < 16 ∧
      s.resident 1 0x100000 = false ∧ ((s.jobOfAsn 1).map fun p => s.freeFrame p.2 0 false) = some (some 0)) ∧
    (let s := faulting [] pageFault
     ((s.jobOfAsn 1).map fun p => (s.freeFrame p.2 0 false, s.victim p.2 0 false)) = some (none, none)) ∧
    (let s := { faulting [] pageFault with mm := { base.mm with faults := [pageFault], frames := [(0, 1, false, 3, 0x200000)] } }
     ((s.jobOfAsn 1).map fun p => (s.freeFrame p.2 0 false, s.victim p.2 0 false)) = some (none, some (3, 0x200000))) ∧
    (let s := faulting [(1, 0)] { pageFault with stage := .waiting }
     (s.mm.faults.find? fun f => f.stage = .waiting && f.cab = (0 : Cab).val && f.asn = (1 : Byte).toNat &&
        (((s.jobOfAsn f.asn).bind fun (_, j) => j.segOf f.va).map (·.large)).getD false = false).isSome = true) ∧
    (let s := faulting [(1, 0)] { pageFault with stage := .copying 0 }
     (s.mm.faults.find? fun f => f.asn = (1 : Byte).toNat && f.va = (0x100000 : BitVec 48).toNat && f.cab = (0 : Cab).val &&
        (match f.stage with | .copying _ => true | _ => false)).isSome = true ∧
      s.placeStatus (s.place (s.mm.backing.get 0 (leafKey 1 0x100000))) = .ok) := by decide

/-! ### FaultsStartTheLadder -/

/-- A residue fault of a core in tile 0, context 0, shelf 0, site 1, in pass 0. -/
def coreFaultInfo : FaultInfo :=
  { structureCode := 1, mechanism := 1, tile := some 0, shelf := some 0, site := some 1, ctx := some 0, pass := 0, cellI := 2, cellJ := 3
    syndrome := 1, address := 0, cabinet := none, pepper := false, jobId := 0 }
def issuing : State := drawn fun d => { d with st := .issuing, op := some oneOp }

theorem wit_FaultReport : issuing.lost 0 = false ∧ issuing.inCReset 0 = false ∧ issuing.serves 0 0 1 = true ∧
    issuing.serves 0 0 16 = false ∧ (issuing.dr 0 0).asked = false ∧ (issuing.dr 0 0).st = .issuing ∧
    (issuing.dr 0 0).flying.contains 0 = true ∧ issuing.tileRung 0 = none := by decide

theorem test_first_fault : goes (exec (.faultReport 5 coreFaultInfo) issuing) (fun u =>
    (u.dr 0 0).pass = 0 && u.num (Obj.rungCounts + 1) = 1 && u.health.rungs.isEmpty) = true := by decide

/-- The site faults again within a second: persistent. -/
theorem test_second_fault : goes (exec (.faultReport 900000000 { coreFaultInfo with syndrome := 9 })
    { issuing with health := { issuing.health with marks := [(siteMark 0 0 1, [5])] } }) (fun u =>
    u.health.rungs.map (·.work) = [.site 0 0 1] && u.num Obj.healthState = 1 && u.num Obj.healthFlags = 1) = true := by decide

/-! ### RungsAndReadmission -/

/-- Persistent faults of site 3 of shelf 2 in the empty tile 0. -/
def rungOf (w : RungWork) : Rung := ⟨w, { FaultRec.device 5 1 1 with tile := 0, shelf := 2, site := 3, cab := 0 }⟩
def fencing (w : RungWork) : State := { owned with health := { owned.health with rungs := [rungOf w] } }

theorem wit_Fence : (fencing (.site 0 2 3)).tileRung 0 = some (rungOf (.site 0 2 3)) ∧
    (fencing (.site 0 2 3)).retired 0 = false ∧ (fencing (.site 0 2 3)).siteCode 0 2 3 = 0 ∧ ((fencing (.site 0 2 3)).tile 0).bound = [] ∧ (fencing (.site 0 2 3)).rung2 0 2 = true ∧
    ((fencing (.site 0 2 3)).setSteer 0 2 0x10000).rung2 0 2 = false ∧
    3 ∈ (fencing (.site 0 2 3)).sites 0 2 ∧ ((fencing (.site 0 2 3)).sites 0 2).length = 17 ∧
    ((fencing (.site 0 2 3)).setSteer 0 2 0x10000).sites 0 2 = List.range 16 ∧ (fencing (.site 0 2 3)).tileUp 0 = true := by decide +kernel

theorem wit_FenceMap : ((fencing (.site 0 2 3)).bytes (Obj.tileFenceMap + 0)).length = 10220 := by decide +kernel

theorem wit_PendingSpare : (owned.putCodes 0 [(2, 16)] 2).siteCode 0 2 16 = 2 ∧ owned.tileRung 0 = none ∧
    (owned.putCodes 0 [(2, 16)] 2).hasRt 0 = false := by decide +kernel

theorem wit_Takeover : let s := { fencing (.replica 7 0 0) with jobs := { owned.jobs with jobs := [(7, { jobOf with st := .recovering })] } }
    s.health.rungs.find? (fun q => q.work = .replica 7 0 0) = some (rungOf (.replica 7 0 0)) ∧ (s.job 7).isSome = true ∧
      s.health.rungs.erase (rungOf (.replica 7 0 0)) = [] := by decide

/-- A drawer of the replica stands stopped and no other replica computes its item. -/
theorem wit_NoSurvivor :
    let d : LDrawer := ⟨0, false, 0, 0, 0, 0, 2, 2, 1, 0, 0, 0, 0, 1, 0, 0, 0, 0, 0x1000⟩
    let j := { jobOf with st := .recovering, placed := [d] }
    let s := { (fencing (.replica 7 0 0)).modDr 0 0 fun _ => { Drawer.none with st := .stopped } with jobs := { owned.jobs with jobs := [(7, j)] } }
    j.placed.filter (fun d => d.shard = (0 : Byte).toNat && d.replica = (0 : Fin 4).val) = [d] ∧ s.atRest 0 0 = true ∧
      s.survivorOf 7 j d = none ∧ ((s.job 7).map (·.st)) = some .recovering ∧
      goes (exec (.replicaTakeover 9 7 0 0) s) (fun u => u.health.rungs.map (·.work) = [.shard 7]) = true := by decide

theorem wit_Readmit : Admitted ⟨.linear, 5⟩ Obj.readmitTile [3, 0] owned := admitted_linear _ _ _ _ rfl (by decide)

theorem wit_Readmission : let s := { owned with health := { owned.health with readmit := [0] } }
    0 ∈ s.health.readmit ∧ (s.tile 0).bound = [] ∧ s.lost 0 = false := by decide

/-! ### JobRingsRun -/

/-- Ring 0 served: 16 slots each way, the submission ring at 0x4000200000 in cabinet 0's stream buffer. -/
def ringed : State :=
  (((owned.setNum (ringObj Obj.subSlots 0) 16).setNum (ringObj Obj.cplSlots 0) 16).setNum (ringObj Obj.subBase 0) 0x4000200000).setNum
    (ringObj Obj.cplBase 0) 0x4000300000

theorem wit_RingWrites : Admitted ⟨.linear, 5⟩ (ringObj Obj.subTail 0) [1, 0] ringed ∧
    Admitted ⟨.linear, 5⟩ (ringObj Obj.cplHead 0) [1, 0] ringed ∧
    Admitted ⟨.linear, 5⟩ (ringObj Obj.subBase 0 - 1 + 2) [16, 0] ringed :=
  ⟨admitted_linear _ _ _ _ rfl (by decide), admitted_linear _ _ _ _ rfl (by decide), admitted_linear _ _ _ _ rfl (by decide)⟩

theorem wit_Poll : ringed.ringServed 0 = true ∧ (∀ m : Fin 8, m ≠ 0 → ringed.ringServed m = false) ∧
    (let s := ringed.setNum (ringObj Obj.subTail 0) 1
     s.num (ringObj Obj.subHead 0) ≠ 1 ∧ (s.num (ringObj Obj.subHead 0) + 1) % s.num (ringObj Obj.subSlots 0) = 1 ∧
       s.isHost (s.num (ringObj Obj.subBase 0)) = false ∧ badDescriptor ((s.upto 5).hostOrMem [] 0x4000200000 128) = true) := by
  decide +kernel

/-- A descriptor of job 7 whose layout, at 0x4000210000, has one entry: the member, this device. -/
def described7 : State :=
  let s := ringed.setNum (ringObj Obj.subTail 0) 1
  let s := s.poke 0x4000200000 (leBytes 4 7 ++ leBytes 4 0 ++ leBytes 8 0x4000210000 ++ leBytes 4 96 ++ leBytes 4 0 ++
    leBytes 8 0x8001000000000000 ++ leBytes 8 4096 ++ leBytes 88 0)
  (s.poke 0x4000210000 (leBytes 4 0x6A17C3E5 ++ leBytes 4 1 ++ leBytes 2 1)).poke 0x4000210040 (leBytes 1 4 ++ leBytes 1 0 ++ leBytes 2 s.device)

theorem wit_GoodDescriptor : badDescriptor ((described7.upto 5).hostOrMem [] 0x4000200000 128) = false ∧ (described7.job 7).isNone = true := by
  decide +kernel

theorem wit_GoodLayout : described7.layoutReason (JobDesc.of ((described7.upto 5).hostOrMem [] 0x4000200000 128))
    ((described7.upto 5).hostOrMem [] 0x4000210000 96) = none := by
  unfold State.layoutReason
  dsimp only
  rw [if_neg, if_neg, if_neg, if_neg, if_neg, if_neg, if_neg, if_neg, if_neg, if_neg, if_neg, if_neg, if_neg]
  all_goals first | decide +kernel | skip
  have hm : ∀ c, c < 8 → (JobDesc.of ((State.upto 5 described7).hostOrMem [] 0x4000200000 128)).mib
      (Layout.of ((State.upto 5 described7).hostOrMem [] 0x4000210000 96)) c = 0 := by decide +kernel
  have hg : 64 ≤ Config.gddrPerCabinet / 0x100000 := by unfold Config.gddrPerCabinet; split <;> decide
  have hn : ∀ c, c < 8 → (Layout.of ((State.upto 5 described7).hostOrMem [] 0x4000210000 96)).granules.getD c 0 = 0 := by
    decide +kernel
  rw [List.any_eq_true]
  rintro ⟨c, hc, h⟩
  have hc := List.mem_range.mp hc
  rw [hm c hc, hn c hc] at h
  simp at h
  omega

/-- A record of job 7 waits in ring 0. -/
theorem wit_Completion : let s := { ringed with jobs := { ringed.jobs with waiting := [(0, [(7, true, leBytes 32 7)])] } }
    s.jobs.waiting.get [] 0 = [(7, true, leBytes 32 7)] ∧ s.cplRoom 0 = true ∧ s.num (ringObj Obj.cplTail 0) < s.num (ringObj Obj.cplSlots 0) ∧
      goes (exec (.completionRecordWrite 9 0) s) (fun u => u.byte 0x4000300000 = 7 && u.num Obj.jobsDone = 1) = true := by decide +kernel

/-! ### JobsArePlacedSavedAndEnded -/

/-- An entry of a drawer of two by two in tile 0, context 0. -/
def entry0 : LDrawer := ⟨0, false, 0, 0, 0, 0, 2, 2, 0xFF, 0, 0, 0, 0, 1, 0, 0, 0, 0, 0x4000⟩
def jobIn (f : JobS → JobS) (s : State) : State :=
  { s with jobs := { s.jobs with jobs := [(7, f { jobOf with layout := ⟨1, [], [entry0], [], [], [(0, 0)]⟩, placed := [entry0] })] } }

theorem wit_Placement : let s := jobIn (fun j => { j with st := .queued, placed := [] }) owned
    ((s.job 7).all fun j => j.st = .queued && j.saved.isNone && !s.heldBack 7 j && !s.resetIn (s.placementOf j) &&
      (s.lostIn (s.placementOf j)).isNone && s.rtFits [entry0] && (s.granulesFor j.layout) = some [] && !j.desc.resume &&
      !s.streamsTaken (j.layout.streamsWith s.lost)) = true ∧ s.fitsAll 7 [] [entry0] = true ∧ s.num Obj.placedJobs < 256 ∧
    (match s.placesFor 7 (fun d => s.rowsOk d && s.tileUp d.tile) [entry0] with | .ok ds => decide (ds = [entry0]) | .error _ => false) = true := by decide +kernel

def queuedJob : JobS := { jobOf with layout := ⟨1, [], [entry0], [], [], [(0, 0)]⟩, placed := [], st := .queued }

theorem wit_PlacementMib : ∀ c : Cab, (jobIn (fun j => { j with st := .queued, placed := [] }) owned).mibUsed c +
    queuedJob.desc.mib queuedJob.layout c ≤ 65 := by decide

theorem wit_PlacementRoom : 65 ≤ Config.gddrPerCabinet / 0x100000 := by unfold Config.gddrPerCabinet; split <;> decide

theorem wit_NoPlacement : let s := (jobIn (fun j => { j with
      st := .queued
      placed := []
      layout := ⟨1, [], [entry0, { entry0 with tile := 150, fallback := 0 }], [], [], [(0, 0)]⟩ }) owned)
    let s := (s.setNum (Obj.cabinetHealth + 0) 3).setNum (Obj.cabinetHealth + 1) 3
    ((s.job 7).all fun j => s.lostIn (s.placementOf j) = some 1 && !s.heldBack 7 j) = true := by decide

theorem wit_PreemptSave : let s := jobIn (fun j => { j with st := .preempting }) (drawn fun d => { d with st := .stopped })
    ((s.job 7).all fun j => j.st = .preempting && s.jobStopped 7 j && j.placed = [entry0]) = true ∧ (s.tile 0).flight = [] := by decide

theorem wit_Restore : let s := jobIn (fun j => { j with st := .queued, saved := some ⟨[], [], [], ⟨0, Counts.zero⟩⟩ }) owned
    ((s.job 7).all fun j => j.saved.isSome && !s.heldBack 7 j && s.wanted j = [entry0] && !s.resetIn [entry0] &&
      !s.streamsTaken (j.layout.streamsWith s.lost)) = true ∧ (s.lostIn [entry0]).isNone = true ∧ s.fitsAll 7 [] [entry0] = true ∧
    (match s.placesFor 7 s.usable [entry0] with | .ok ds => decide (ds = [entry0]) | .error _ => false) = true ∧
    goes (exec (.jobRestore 9 7) s) (fun u => (u.job 7).any fun k => k.st = .running && k.saved.isNone) = true := by decide +kernel

theorem wit_Cancel : Admitted ⟨.linear, 5⟩ Obj.cancelJob [7, 0, 0, 0] (jobIn id owned) := admitted_linear _ _ _ _ rfl (by decide)

theorem wit_JobDone : let s := jobIn id (drawn id)
    let s := s.modTh 0 0 fun h => { h with st := .halted }
    (s.job 7).all (fun j => s.jobDone 7 j && !s.cplQueueFull j.ring) = true ∧
      goes (exec (.jobEnd 9 7) s) (fun u => (u.jobs.waiting.get [] 0).map (fun e => (e.1, e.2.1)) = [(7, true)]) = true := by decide

theorem wit_JobEnd : ((jobIn (fun j => { j with st := .ending, status := some (1, 0) }) owned).job 7).all
      (fun j => j.st = .ending && j.status = some (1, 0)) = true ∧
    goes (exec (.jobEnd 9 7) (jobIn (fun j => { j with st := .ending, status := some (1, 0) }) owned)) (fun u =>
      (u.jobs.waiting.get [] 0).length = 1 && (u.job 7).any fun k => k.placed.isEmpty) = true := by decide

/-! ### CheckpointsThrottleAndGroups -/

theorem wit_CheckpointDue : ((jobIn id (drawn id)).job 7).all (fun j => j.st = .running && !j.checker) = true ∧
    ((jobIn (fun j => { j with st := .checkpointing }) owned).job 7).all (fun j => j.st = .checkpointing && !j.checker) = true := by decide

/-- CXL port 0 with 1 TiB; job 7 checkpoints to its start. -/
def stopped7 : State :=
  jobIn (fun j => { j with st := .checkpointing, writing := some 0, desc := { j.desc with ckpt := 0x10000000000, slot := 0x1000000 } })
    ((drawn fun d => { d with st := .stopped }).setNum (Obj.cxlCapacity + 0) 0x10000000000)

theorem wit_Commit : (stopped7.job 7).all (fun j => j.writing = some 0 && j.reported = none && stopped7.jobStopped 7 j &&
      stopped7.place (j.desc.slotAt 0) = .cxl 0 0 && stopped7.placeStatus (stopped7.place (j.desc.slotAt 0)) = .ok) = true := by decide

theorem wit_Throttle : owned.serving = true ∧ owned.num Obj.powerLimit < 60000 ∧ 0 < owned.num Obj.thermalThrottleC := by decide

theorem wit_Collective : ((jobIn id owned).job (field (groupBody 4 7 0 0) 4 4)).all (fun j => (0, 0) ∈ j.layout.members && j.st ≠ .ending) = true ∧
    field (groupBody 4 7 0 0) 0 1 = 4 ∧ field (groupBody 4 7 0 0) 16 2 = 0 ∧ field (groupBody 5 7 0 0) 0 1 = 5 ∧
    goes (exec (.collectiveMessage 9 0 (groupBody 5 7 0 0)) (jobIn (fun j => { j with reported := some 1 }) owned)) (fun u =>
      (u.job 7).any fun k => k.released && k.reported = none) = true := by decide

/-! ### FabricQueuesAndPorts -/

/-- The whole fabric configured and started. -/
def configured : State :=
  let s := owned.setNum Obj.fabricState 2
  { s with fab := { s.fab with whole := { s.fab.whole with steps := [1, 2, 3] } } }

theorem wit_Queue : configured.lost 0 = false ∧ configured.inCReset 0 = false ∧ configured.stepAt 0 (blockPos 0) 3 = true ∧
    (let s := configured.setQueueS 0 0 { QueueS.new with entries := [5, 6] }
     s.heldWrite 0 0 = false ∧ s.heldRead 0 0 = false ∧ s.queueEmpty 0 0 = false ∧ s.engineOn 0 0 0 = false ∧
       s.sideStopped 0 0 false = false) := by decide

/-- The oldest of two entries is taken. -/
theorem test_queue_edge : let s := configured.setQueueS 0 0 { QueueS.new with entries := [5, 6] }
    (s.queueEdge 0 0 none true 0).queue 0 0 = { s.queue 0 0 with
      entries := [6]
      data := 5
      lateReads := if (s.queueSetting 0 0).mode = 4 then [0] else [] } := by rfl

theorem wit_Loops : (base.setNum (loopKey 0 3) 2).num (loopKey (0 : Cab) (3 : Fin 16)) = 2 ∧
    (base.setNum (loopKey 0 3) 3).num (loopKey (0 : Cab) (3 : Fin 16)) = 3 := by decide

theorem wit_PortOut : let s := configured.modTile 0 fun t => { t with portOut := [[1, 2]] }
    s.stepAt (cabOf 0) (portPos 0) 3 = true ∧ (s.tile 0).portOut = [[1, 2]] ∧ (s.portStream 0 2).isNone = true ∧
      (s.portStream 0 3).isNone = true := by decide

theorem wit_PortIn : let m := { streamOf 0 0 with desc := { (streamOf 0 0).desc with dir := 2 }, beats := [1] }
    let s := { configured with streams := [(0, m)] }
    (s.tile 0).portIn = [] ∧ (s.portStream 0 2).map (·.1) = some 0 ∧ (s.portStream 0 3).isNone = true ∧ m.st = .running ∧
      m.delivered < m.total ∧ m.delivered - m.freed < m.desc.ring := by decide

theorem wit_Bridge : let s := configured.setNum (Obj.targetBridgeState + 0) 1
    s.num (Obj.targetBridgeState + (0 : Cab)) = 1 ∧ s.stepAt 0 bridgePos 3 = true ∧
      goes (exec (.targetWordReceive 0 [9] true false) s) (fun u => (u.bridge 0).rx = [(true, false, [9])]) = true := by decide

theorem wit_FullBridge : 256 ≤ ((configured.setBridge 0 ⟨List.replicate 256 (false, false, []), false⟩).bridge 0).rx.length := by decide +kernel

theorem wit_Probe : let s := ({ owned with lock := { owned.lock with selects := [(1, 5, [7]), (2, 9, [])] } }).setNum Obj.currentStep 6
    5 ≤ s.num Obj.currentStep ∧ s.num Obj.currentStep < 9 ∧
      goes (exec .probeSelectApply s) (fun u => u.lock.inEffect = [(1, [7])] && u.num Obj.probeApplyStep = 5) = true := by decide

/-! ### DmaChannelsRun -/

def dmaDesc (dir : Nat) (confirm : Bool) : DmaDesc := ⟨0x4000200000, 128, 0, dir, false, confirm, true, 1, 0, 2, 0⟩
/-- Channel 0 of cabinet 0 in a state. -/
def channel (f : DmaChan → DmaChan) (s : State) : State := s.setDma 0 (f DmaChan.new)

theorem wit_DmaCommands : Admitted ⟨.linear, 5⟩ Obj.channelStart (leBytes 8 0x4000200000) owned ∧
    Admitted ⟨.linear, 5⟩ Obj.channelCommand [1] (channel (fun h => { h with st := .halted, errInfo := 16 }) owned) ∧
    Admitted ⟨.linear, 5⟩ Obj.channelCommand [2] (channel (fun h => { h with st := .running }) owned) :=
  ⟨admitted_linear _ _ _ _ rfl (by decide), admitted_linear _ _ _ _ rfl (by decide), admitted_linear _ _ _ _ rfl (by decide)⟩

theorem wit_DmaFetch : let s := channel (fun h => { h with st := .fetching, cur := 0x4000200000 }) owned
    (s.dmaCh 0).st = .fetching ∧ s.placeStatus (s.place (s.dmaCh 0).cur) = .ok ∧ s.place (s.dmaCh 0).cur = .buffer 0 0x200000 := by decide

theorem wit_DmaBurst :
    (let s := channel (fun h => { h with st := .running, desc := some (dmaDesc 0 false) }) configured
     s.runsAt 0 (blockPos 0) = true ∧ 2 + s.groupCount 0 0 ≤ 512 ∧ s.sideStopped 0 0 false = false) ∧
    (let s := channel (fun h => { h with st := .running, desc := some (dmaDesc 1 false) }) configured
     let s := (List.range 8).foldl (fun s b => s.setQueueS 0 b { QueueS.new with entries := [1, 2, 3] }) s
     2 ≤ s.groupCount 0 0 ∧ s.net.done = [] ∧ s.heldRead 0 7 = false ∧ s.sideStopped 0 0 true = false ∧
       goes (exec (.burstStart 0 0 0) s) (fun u => (u.dmaCh 0).buf.map (·.i) = [0, 1] && (u.queue 0 7).entries = [3]) = true) := by decide +kernel

theorem wit_DmaBeats :
    (let s := channel (fun h => { h with st := .running, desc := some (dmaDesc 0 false), burst := 2 }) owned
     s.grantee 0 0 = some 0 ∧ s.net.done = [] ∧ s.placeStatus (s.place ((dmaDesc 0 false).beatAddr 0)) = .ok ∧
       s.place ((dmaDesc 0 false).beatAddr 0) = .buffer 0 0x200000) ∧
    (let s := channel (fun h => { h with st := .running, desc := some (dmaDesc 1 false), burst := 2, buf := [⟨0, 0, List.replicate 64 7⟩] }) owned
     s.grantee 0 1 = some 0 ∧ goes (exec (.beatGrant 0 true []) s) (fun u => u.byte 0x400020003F = 7 && u.num Obj.beatsMoved = 1) = true) ∧
    (let s := channel (fun h => { h with st := .running, desc := some (dmaDesc 1 true), burst := 2, issued := 2 }) owned
     goes (exec (.burstEnd 0 0) s) (fun u => (u.dmaCh 0).confirming && goes (exec (.arrivalConfirmed 0 0) u) fun v =>
       (v.dmaCh 0).st = .idle && v.num Obj.descriptorsDone = 1) = true) := by decide +kernel

theorem wit_DmaErrors :
    (let s := channel (fun h => { h with st := .running, desc := some (dmaDesc 1 false), burst := 2, req := true, kept := [⟨1, 0, []⟩] }) owned
     (s.dmaCh 0).burst ≠ 0 ∧ (s.dmaCh 0).req = true ∧
       goes (exec (.dmaBusError 0 0 64 2) s) (fun u => (u.dmaCh 0).errAddr = 0x4000200040 && (u.dmaCh 0).errInfo = 33) = true) := by decide

/-! ### LoadsRun -/

/-- Region 0 of cabinet 0: positions 0 to 29, of the configured fabric; a load from the stream buffer is in its body. -/
def loading (st pos : Nat) (f : LoadS → LoadS) (body : List Byte) : State :=
  let s := ((configured.setNum (mapKey 0) (2 ^ 31 + 29 * 65536)).setNum Obj.loaderState st).poke (0x4000200000 + 224 + pos) body
  let hdr := leBytes 4 syncWord ++ [1, 2, 0, 0] ++ leBytes 4 0x8150 ++ leBytes 4 4096 ++ leBytes 208 0
  { s with cfg := { s.cfg with load := some (f { LoadS.new 4 0x4000200000 [] with kind := 2, hdr := hdr, pos := pos }) } }

theorem wit_LoadFromMemory : Admitted ⟨.linear, 5⟩ Obj.loadFromMemory (leBytes 8 0x4000200000) configured :=
  admitted_linear _ _ _ _ rfl (by decide)

def next4 (s : State) (n : Nat) : Option Nat :=
  match s.cfg.load with
  | some l => match s.takeBody l 4 none with
    | .bytes w l' => if n = 0 then some (leNat w) else match s.takeBody l' 4 none with
      | .bytes v _ => some (leNat v)
      | _ => none
    | _ => none
  | none => none

theorem wit_Packets :
    next4 (loading 3 0 id []).pumpWindow 0 = some 0 ∧
    next4 (loading 3 0 id (leBytes 4 0x20000001 ++ leBytes 4 9)).pumpWindow 0 = some 0x20000001 ∧
    next4 (loading 3 0 id (leBytes 4 0x21000001 ++ leBytes 4 0xE4)).pumpWindow 1 = some 0xE4 ∧
    next4 (loading 3 0 id (leBytes 4 0x22000001 ++ leBytes 4 9)).pumpWindow 0 = some 0x22000001 ∧
    next4 (loading 3 4092 id (leBytes 4 0x60000000)).pumpWindow 0 = some 0x60000000 := by decide +kernel

theorem wit_Frames : (let s := (loading 3 0 (fun l => { l with left := 1 }) []).pumpWindow
    (s.cfg.load.all fun l => farValid l.far && l.only.isNone && s.inTarget l l.far && l.left = 1 && !l.failed &&
      (match s.takeBody l 384 none with | .bytes _ _ => true | _ => false)) = true) ∧
    (loading 3 0 (fun l => { l with left := 1, far := 0x7FFFFFF }) []).pumpWindow.cfg.load.all (fun l => !farValid l.far) = true ∧
    (let s := (loading 3 0 (fun l => { l with left := 1, far := farOf 1 0 0 0 0 }) []).pumpWindow
     (s.cfg.load.all fun l => farValid l.far && !s.inTarget l l.far) = true) := by decide +kernel

theorem wit_HeaderBytes (b : Nat) (h : b < 70000) : (loading 1 0 id []).access (0x4000200000 + b) .ok = .ok ∧
    (loading 1 0 id []).place (0x4000200000 + b) = .buffer 0 (0x200000 + b) := by
  have hp : (loading 1 0 id []).place (0x4000200000 + b) = .buffer 0 (0x200000 + b) := by
    unfold State.place
    dsimp only
    rw [if_neg (by omega), if_neg (by omega), if_neg (by omega), show (0x4000200000 + b) % 0x1000000000000 = 0x4000200000 + b by omega]
    unfold State.placePhys
    dsimp only
    rw [if_neg (by omega), if_pos (by omega), if_neg (by omega), show (0x4000200000 + b - 0x4000000000) / 0x10000000 = 0 by omega,
      show (0x4000200000 + b - 0x4000000000) % 0x10000000 = 0x200000 + b by omega]
  refine ⟨?_, hp⟩
  simp only [State.access, hp, State.placeStatus]
  have hc : (loading 1 0 id []).cabStatus 0 = .ok := by decide
  rw [hc]

theorem wit_StartUp : ((loading 5 0 (fun l => { l with stepNo := 4 }) []).cfg.load.all fun l => (startCodes l.seq).getD (l.stepNo - 1) 0 ≠ 0) = true ∧
    ((loading 5 0 (fun l => { l with stepNo := 2 }) []).cfg.load.all fun l => (startCodes l.seq).getD (l.stepNo - 1) 0 ≠ 0) = true ∧
    (let s := loading 5 0 (fun l => { l with stepNo := 1, gone := [0] }) []
     (s.cfg.load.all fun l => (startCodes l.seq).getD (l.stepNo - 1) 0 = 0 && !s.lockMet l) = true) ∧
    goes (exec .startUpStep (loading 5 0 (fun l => { l with stepNo := 4 }) [])) (fun u => u.regSt 0 = 4 && u.loaderSt = 0) = true ∧
    goes (exec .targetCleared (loading 6 0 id [])) (fun u => u.regSt 0 = 1 && u.cfg.load.isNone) = true := by decide +kernel

/-! ### LoadSourcesBringBytes -/

def selected (n : Nat) (l : Option LoadS) : State :=
  let s := (owned.setNum Obj.slavePortWidth 1).setNum Obj.slavePortsEnabled 1
  let s := if l.isSome then s.setNum Obj.loaderState 3 else s
  { s with cfg := { s.cfg with port := ⟨true, List.replicate n true, [], 0, false, false, false⟩, load := l } }

theorem wit_SlavePort : (selected 3 none).num Obj.slavePortsEnabled = 1 ∧ (selected 3 none).num Obj.deviceState ≠ 1 ∧
    (selected 3 none).blockHeld 0x20 = false ∧ (selected 3 none).num Obj.slavePortWidth = 1 ∧
    (selected 7 (some (LoadS.new 1 0 []))).loaderSt = 3 ∧
    goes (exec (.slavePortData [.data 0]) (selected 7 (some (LoadS.new 1 0 [])))) (fun u =>
      (u.cfg.load.any fun l => l.raw = [0xFE]) && u.cfg.port.bits.isEmpty) = true := by decide

def windowed : State :=
  { (owned.setNum Obj.loaderState 1) with cfg := { owned.cfg with load := some (LoadS.new 3 0 []) } }

theorem wit_Window : windowed.num Obj.hostLinkState = 2 ∧ windowed.num Obj.owner = 1 ∧ windowed.loaderSt = 1 ∧ windowed.rst.serve = .full ∧
    goes (exec (.windowWrite 0 [1, 2, 3, 4]) windowed) (fun u => u.cfg.load.any fun l => l.raw = [1, 2, 3, 4]) = true ∧
    (base.num Obj.owner ≠ 1) := by decide

theorem wit_WindowRestart : Admitted ⟨.linear, 5⟩ Obj.windowRestart [1] windowed ∧ Admitted ⟨.linear, 5⟩ Obj.windowRestart [1] owned ∧
    Admitted ⟨.linear, 5⟩ Obj.autoloadStore [1] owned :=
  ⟨admitted_linear _ _ _ _ rfl (by decide), admitted_linear _ _ _ _ rfl (by decide), admitted_linear _ _ _ _ rfl (by decide)⟩

theorem wit_StoreDone : let s := { owned.poke 0x4000200000 [7, 8] with cfg := { owned.cfg with storing := some (0, 0x4000200000, 2) } }
    (∀ j, j < 2 → s.access (0x4000200000 + j) .ok = .ok ∧ s.place (0x4000200000 + j) = .buffer 0 (0x200000 + j)) ∧
    Memory.wf 0xFF s.store.flash = true ∧
    goes (exec .autoloadStoreDone s) (fun u => u.flashByte (autoSlot 0 + 65) = 8 && u.num Obj.configFlags = 8) = true := by decide +kernel

/-! ### ScrubberRuns -/

/-- The scrubber reads the configured fabric. -/
def scrubbing : State := configured.setNum Obj.scrubState 1

theorem wit_ScrubFrame : scrubbing.nextScrub = some 0 := by decide +kernel

theorem wit_ScrubEnd : { scrubbing with cfg := { scrubbing.cfg with copyA := (1, 100, 0) } }.nextScrub = none := by
  have h : ∀ b, State.scrubs { scrubbing with cfg := { scrubbing.cfg with copyA := (1, 100, 0) } } b = false := fun b => by
    simp [State.scrubs, State.scrubMask]
  unfold State.nextScrub
  rw [List.find?_eq_none.2 (by intro b _; simp [h b])]
  rfl

theorem wit_Scrub : scrubbing.num Obj.scrubState = 1 ∧ scrubbing.blockHeld 0x28 = false ∧ 4 ≤ scrubbing.rst.exitDone ∧
    (let s := { configured.setNum Obj.scrubState 3 with cfg := { configured.cfg with reloads := [5] } }
     let s := s.setRegion 5 { s.region 5 with image := 0x4000200000 }
     s.num Obj.scrubState = 3 ∧ s.cfg.load = none ∧ s.cfg.reloads = [5] ∧ (s.region 5).image ≠ 0 ∧ (s.region 5).fromFull = false ∧
       goes (exec .scrubReload s) (fun u => u.loaderSt = 1 && (u.cfg.load.any fun l => l.src = 6 && l.reg = 5)) = true) := by decide

/-! ### CabinetLossAndShardRestore -/

theorem wit_CabinetLost : owned.serving = true ∧ owned.lost 2 = false ∧ owned.jobsAt 2 = [] ∧ owned.cfg.load = none ∧
    owned.pagesAt 2 = [] ∧ goes (exec (.cabinetLost 5 2 true) owned) (fun u => u.lost 2 && !u.lost 3) = true := by decide +kernel

/-- Job 7 recovers under rung 5 with checkpoint 4 in another device's memory. -/
def restoring : State :=
  let slot := 0x8005000000000000
  let s := jobIn (fun j => { j with
    st := .recovering
    desc := { j.desc with ckpt := slot, slot := 0x1000000 } }) (fencing (.shard 7))
  { s with jobs := { s.jobs with ckpts := [(slot, ⟨4, 7, ⟨[], [], [], ⟨0, Counts.zero⟩⟩, [], 0, true⟩)] } }

theorem wit_ShardRestore : (restoring.job 7).all (fun j => j.st = .recovering && j.layout.segs.isEmpty &&
      !restoring.resetIn (j.layout.drawersWith restoring.cabDown) && (restoring.lostIn (j.layout.drawersWith restoring.cabDown)).isNone &&
      (restoring.feedsOfJob j).isEmpty && restoring.haltedAll 7 j && j.reported.isNone && j.ckptStep = 0 &&
      (restoring.newestCkpt 7 j.desc).map (·.n) = some 4 &&
      (let v := (restoring.upto 9).vacate 7 j
       (match v.placesFor 7 v.usable (j.layout.drawersWith restoring.cabDown) with
        | .ok ds => decide (ds = [entry0])
        | .error _ => false) && v.canRestore 7 [entry0])) = true ∧
    goes (exec (.shardRestore 9 7 true) restoring) (fun u => u.health.rungs.isEmpty &&
      (u.job 7).any fun j => j.st = .running && j.newest = some 4) = true := by decide +kernel

theorem wit_ShardLost : let s := (jobIn (fun j => { j with
      st := .recovering
      layout := ⟨1, [], [entry0, { entry0 with tile := 150, fallback := 0 }], [], [], [(0, 0)]⟩ }) (fencing (.shard 7)))
    let s := (s.setNum (Obj.cabinetHealth + 0) 3).setNum (Obj.cabinetHealth + 1) 3
    (s.job 7).all (fun j => s.lostIn (j.layout.drawersWith s.cabDown) = some 1 && !s.resetIn (j.layout.drawersWith s.cabDown)) = true := by
  decide +kernel

/-! ### StepsUnderTheLockstepRule -/

theorem wit_Run : Admitted ⟨.linear, 5⟩ Obj.stepCommand [1] owned ∧
    Admitted ⟨.linear, 5⟩ Obj.stepCommand [1] (owned.setNum Obj.stepControllerState 1) ∧
    Admitted ⟨.linear, 5⟩ Obj.stepCommand [2] owned ∧ Admitted ⟨.linear, 5⟩ Obj.stepCommand [2] (owned.setNum Obj.stepControllerState 5) :=
  ⟨admitted_linear _ _ _ _ rfl (by decide), admitted_linear _ _ _ _ rfl (by decide), admitted_linear _ _ _ _ rfl (by decide),
    admitted_linear _ _ _ _ rfl (by decide)⟩

theorem wit_RunIdle : owned.lockSt = Lock.idle ∧ owned.enabledFeeds = [] ∧ (∀ n, n < 128 → (owned.feed n).st ≠ 1) ∧
    owned.lock.held = [] ∧ owned.badFrame = false := ⟨by decide, by decide +kernel, fun _ _ => by simp [State.feed,
      show owned.trace.feeds = [] from rfl, Tab.get, FeedS.off], rfl, by decide⟩

/-- Step 9 runs under the elastic rule since edge 100; the device is its own neighbour for one word. -/
def stepped (st : Nat) (l : LockState → LockState) : State :=
  let s := (((owned.setNum Obj.stepControllerState st).setNum Obj.currentStep 9).setNum Obj.stepPeriod 4).setNum Obj.systemDiameter 1
  { s with lock := l { s.lock with
    started := true
    startEdge := 100 } }

/-- Neighbour entry 0: device 5 sends one word to word 3. -/
def withNeighbour (s : State) : State := s.setNum Obj.cutNeighbours (5 + 2 ^ 12 + 3 * 2 ^ 40 + 2 ^ 52)

theorem wit_StepStart : (stepped 1 id).readyAt 104 = true ∧ (stepped 1 id).readyAt 103 = false ∧
    (stepped 1 id).feedsAllow 10 = true ∧
    (withNeighbour (stepped 1 fun l => { l with frames := [⟨5, 9, 0, [7, 0, 0, 0, 0, 0, 0, 1], some 102⟩] })).neighbours = [⟨0, 5, 0, 0, 3, 1⟩] ∧
    goes (exec (.stepStart 104) (withNeighbour (stepped 1 fun l => { l with frames := [⟨5, 9, 0, [7, 0, 0, 0, 0, 0, 0, 1], some 102⟩] })))
      (fun u => u.lock.inRegs.get 0 3 = 0x0100000000000007 && u.num Obj.currentStep = 10) = true := by decide +kernel

theorem wit_StepBound : let s := stepped 3 fun l => { l with
      first := 5
      e0 := some 88 }
    s.num Obj.systemDiameter = 1 ∧ s.assigned 10 = some 100 ∧ ({ s with lock := { s.lock with startEdge := 96 } }).readyAt 100 = true := by
  decide +kernel

theorem wit_StepEnd : let s := stepped 4 fun l => { l with evaluating := true }
    s.neighbours = [] ∧ goes (exec (.stepEnd 101 9) (s.setNum Obj.freezeAt 9)) (fun u =>
      u.lock.samples.isEmpty && u.lockSt = Lock.frozen && u.num Obj.frozenStep = 9) = true := by decide +kernel

theorem wit_StepEndFeed : let s := (stepped 1 fun l => { l with evaluating := true }).setNum (feedObj Obj.feedEnable 3) 1
    let s := s.setFeed 3 { FeedS.off with st := 2 }
    s.neighbours = [] ∧ s.enabledFeeds = [3] ∧ (s.feed 3).queue.length < 4 ∧
    goes (exec (.stepEnd 101 9) s) (fun u => (u.feed 3).queue.length = 1 && (u.feed 3).formed = 1) = true := by decide +kernel

/-! ### CutFramesAndFreezes -/

def cutOf (kind : BitVec 4) (freeze : Bool) : CutFlit :=
  { step := 9, source := 5, kind := kind, dest := 0, flit := 0, last := true, freezeValid := freeze, cause := 3, delta := 6
    payload := if kind = 2 then [5, 0] else [7, 0, 0, 0, 0, 0, 0, 1] }

theorem wit_CutFrame : let s := withNeighbour (stepped 1 id)
    (cutOf 1 false).dest.toNat = s.device ∧ s.blockHeld 0x30 = false ∧ s.expects 9 = true ∧ s.expects 12 = false ∧
    s.neighbours.find? (fun n => n.dev = 5) = some ⟨0, 5, 0, 0, 3, 1⟩ ∧
    goes (exec (.cutFrameReceive 101 (cutOf 1 false)) s) (fun u => u.num Obj.cutFramesReceived = 1 && u.lock.frames.length = 1) = true := by
  decide +kernel

theorem wit_Notice : let s := stepped 1 id
    s.num Obj.freezeAt = noStep ∧ s.lastStarted = 9 ∧
    goes (exec (.freezeNotice (cutOf 2 true)) s) (fun u => u.num Obj.freezeAt = 15 && u.num Obj.freezeOrigin = 5 && u.lockSt = Lock.freezing) = true ∧
    goes (exec (.freezeNotice (cutOf 2 true)) (s.setNum Obj.currentStep 16)) (fun u => u.lockSt = Lock.failed) = true := by decide +kernel

theorem wit_Miss : let s := stepped 3 fun l => { l with
      first := 5
      e0 := some 88
      evaluating := true }
    s.missAt 100 = true ∧ s.num Obj.systemDiameter = 1 ∧ s.num Obj.freezeAt = noStep := by decide +kernel

theorem wit_Snapshot : Admitted ⟨.linear, 5⟩ Obj.snapshotAt [12, 0, 0, 0, 0, 0, 0, 0] (stepped 1 id) ∧
    Admitted ⟨.linear, 5⟩ Obj.snapshotAt [0, 1, 0, 0, 0, 0, 0, 0] owned ∧ (stepped 1 id).num Obj.currentStep < 12 ∧
    ((stepped 3 fun l => { l with bound := true }).lastStarted + 1 ≠ noStep ∧ (stepped 3 fun l => { l with bound := true }).lock.bound = true) :=
  ⟨admitted_linear _ _ _ _ rfl (by decide +kernel), admitted_linear _ _ _ _ rfl (by decide +kernel), by decide +kernel, by decide +kernel, rfl⟩

/-! ### RecordsVerdictsAndCaptures -/

/-- Feed 0 of cabinet 0 runs, served by context 0 of tile 0. -/
def traced (f : FeedS → FeedS) : State :=
  let s := (drawn id).setNum (feedObj Obj.feedEnable 0) 1
  let m := { StreamS.new 7 0 0 0 (feedDesc 0x8000 2) [] 0 with st := .running }
  { s with streams := [(0, m)], trace := { s.trace with feeds := [(0, f { FeedS.off with
    st := 2
    place := some (0, 0) })] } }

def recordOf : List Byte := leBytes 16 9 ++ List.replicate 240 0

theorem wit_Delivered : let s := traced fun f => { f with
      queue := [(9, false, recordOf)]
      gap := true }
    (s.feed 0).queue = [(9, false, recordOf)] ∧ (s.stream (s.feedKey 0)).all (fun m => m.desc.dir = 4 && m.desc.ring = 4) = true ∧
    s.lost 0 = false ∧ Memory.wf 0 s.mem = true ∧ s.lockedAt (operandBase 0 + 0x8000) 256 = false ∧ s.checkerDown 0 0 = false ∧
    goes (exec (.traceRecordDelivered 0 0) s) (fun u => u.byte (operandBase 0 + 0x8000) = 9 && u.byte (operandBase 0 + 0x8007) = 1 &&
      (u.feed 0).undecided = [(9, false)]) = true := by decide +kernel

theorem wit_VerdictRead : let s := ((traced id).modImg 0 0 fun i => { i with semaSet := 1 }).modTile 0 fun t => { t with sema := t.sema.put 0 1 }
    s.num (feedObj Obj.verdictSemaphore 0) = 0 ∧ (s.img 0 0).semaSet.getLsbD 0 = true ∧ (s.tile 0).sema.get 0 0 = 1 ∧
    goes (exec (.verdictPortRead 0 0) s) (fun u => (u.feed 0).verdicts.length = 1 && (u.tile 0).sema.get 0 0 = 0) = true := by decide +kernel

/-- Step 9 is marked with code 77. -/
def verdictOf (action : Nat) : List Byte := leBytes 6 9 ++ leBytes 2 action ++ leBytes 8 77

theorem wit_Verdict : let s := traced fun f => { f with
      undecided := [(9, false)]
      verdicts := [verdictOf 1] }
    bits (field (verdictOf 1) 6 1) 2 6 = 0 ∧ field (verdictOf 1) 7 1 = 0 ∧ field (verdictOf 1) 12 4 = 0 ∧ field (verdictOf 1) 0 6 = 9 ∧
    s.lockSt ≠ Lock.bound ∧ goes (exec (.verdictTaken 0 0 50) s) (fun u => u.num Obj.marks = 1 && (u.feed 0).undecided.isEmpty) = true := by
  decide +kernel

theorem wit_Deadline : let s := traced fun f => { f with undecided := [(9, false)] }
    let s := ((((s.setNum Obj.stepControllerState 3).setNum Obj.currentStep 30).setNum (feedObj Obj.verdictLatency 0) 16).setNum Obj.stepPeriod 4).setNum
      Obj.systemDiameter 1
    let s := { s with lock := { s.lock with
      started := true
      evaluating := false
      first := 5
      e0 := some 88 } }
    s.assigned (9 + 16) = some (88 + s.num Obj.stepPeriod * 18) ∧ s.missAt (88 + s.num Obj.stepPeriod * 18) = false ∧
    s.num (feedObj Obj.missPolicy 0) = 0 ∧
    goes (exec (.verdictDeadline 0 0 (88 + s.num Obj.stepPeriod * 18)) s) (fun u => (u.feed 0).misses = 1 && u.num Obj.verdictMisses = 1) = true := by
  decide +kernel

theorem wit_CaptureArm : Admitted ⟨.linear, 5⟩ Obj.captureArm [3] owned := admitted_linear _ _ _ _ rfl (by decide)

theorem wit_CaptureArmed : (owned.setNum (feedObj Obj.captureBase 3) 0x4000200000).num (feedObj Obj.captureBase 3) ≠ 0 ∧
    Admitted ⟨.linear, 5⟩ Obj.captureArm [3] (owned.setNum (feedObj Obj.captureBase 3) 0x4000200000) :=
  ⟨by decide, admitted_linear _ _ _ _ rfl (by decide)⟩

/-! ### PortsTrainAndTest -/

theorem wit_PortEnable : Admitted ⟨.linear, 5⟩ (Obj.portEnable + (3 : PortNo)) [1] owned ∧
    Admitted ⟨.linear, 5⟩ (Obj.portEnable + (3 : PortNo)) [0] owned ∧ Admitted ⟨.linear, 5⟩ (Obj.laneTest + (7 : Fin 192)) [4] owned :=
  ⟨admitted_linear _ _ _ _ rfl (by decide), admitted_linear _ _ _ _ rfl (by decide), admitted_linear _ _ _ _ rfl (by decide)⟩

theorem wit_Ports : owned.portSt 3 = Port.disabled ∧ 8 ≤ owned.rst.exitDone ∧ owned.num (Obj.portEnable + 3) = 0 ∧
    (owned.setNum (Obj.portState + 3) 1).portSt 3 = Port.bringUp ∧ owned.num (Obj.portFec + 3) < 16 ∧
    goes (exec (.portEnable ⟨.linear, 5⟩ 3 [1]) owned) (fun u => u.portSt 3 = Port.bringUp) = true ∧
    goes (exec (.laneTest ⟨.linear, 5⟩ 7 [4]) owned) (fun u => u.portSt (lanePort 7) = Port.test) = true := by decide +kernel

theorem wit_PrbsLock : let s := (owned.setNum (Obj.portState + 0) 5).setNum (Obj.laneTest + 3) 4
    s.portSt (lanePort 3) = Port.test ∧ s.num (Obj.laneTest + 3) % 4 ≠ 3 ∧ s.num (Obj.laneTest + 3) / 4 % 4 ≠ 0 := by decide

/-! ### LinkLayerAndRemoteAccess -/

/-- Port 3 is Up, with this link layer, and every flit from here leaves by it. -/
def linked (q : PeerPort → PeerPort) : State :=
  let s := (owned.setNum (Obj.portState + 3) 3).setBytes (Obj.routeTable + 256 * 16) (List.replicate 8 3)
  { s with net := { s.net with ports := [(3, q { PeerPort.fresh with rxFresh := false })] } }

def flitHere : Flit := ⟨0, false, 0, 5, 127, List.replicate 256 9⟩

theorem wit_BlockReceive : (linked id).portSt 3 = Port.up ∧ (linked id).device = 0 ∧ ((linked id).port 3).rxNext = 0 ∧
    ((linked id).port 3).rxFresh = false ∧ flitHere.body.length = 256 ∧
    goes (exec (.linkBlockReceive 5 3 [] true) (linked id)) (fun u => (u.port 3).nakDue) = true := by decide +kernel

theorem wit_BlockSend : goes (exec (.linkBlockSend 3) (linked fun q => { q with queue := [(16, flitHere)] })) (fun u =>
      (u.port 3).retry = [(0, flitHere)] && u.num (Obj.flitsSent + 3) = 1) = true ∧
    goes (exec (.linkBlockSend 3) (linked fun q => { q with
      retry := [(0, flitHere)]
      resend := [0] })) (fun u => u.num (Obj.flitReplays + 3) = 1) = true ∧
    goes (exec (.nak 3 0) (linked fun q => { q with retry := [(0, flitHere), (1, flitHere)] })) (fun u => (u.port 3).resend = [1]) = true := by
  decide +kernel

/-- A flit of another device's request has come. -/
def asked (h : List Byte) (l : List (Nat × List Byte)) : State :=
  let s := (linked id).poke 0x4000200000 [1, 2, 3]
  { s with net := { s.net with inbox := (5, h) :: l } }

theorem wit_Remote : let s := asked (vc0Header 1 0 7 0 0x4000200000) []
    s.peerAccess 0x4000200000 = .ok ∧ s.changing 0x4000200000 = false ∧ s.routeEntry 16 5 = (3, 0) ∧ Memory.wf 0 s.mem = true ∧
    goes (exec (.remoteRequest 5) s) (fun u => (u.port 3).queue.length = 2 && u.net.inbox.isEmpty) = true ∧
    goes (exec (.remoteRequest 5) (asked (vc0Header 2 0 7 0 0x4000200000) [(5, List.replicate 256 9)])) (fun u =>
      u.byte 0x4000200001 = 9 && u.byte 0x4000200040 = 0) = true := by decide +kernel

theorem wit_RemoteResponse : let s := asked (vc0Header 3 0 7 0 0) [(5, List.replicate 256 9)]
    let s := { s with net := { s.net with reqs := [(7, ⟨5, true, 3⟩)] } }
    (s.net.reqs.find? 7).map (·.dev) = some 5 ∧ Tab.sorted s.net.reqs = true ∧
    goes (exec (.remoteResponse 5) s) (fun u => (u.net.done.find? 3).isSome && u.net.reqs.isEmpty) = true := by decide +kernel

theorem wit_TargetBlock : let s := ((configured.setNum (Obj.portState + 16) 3).setNum Obj.targetBridgeState 1)
    s.portSt 16 = Port.up ∧ s.stepAt 0 bridgePos 3 = true ∧ (s.bridge 0).rx = [] ∧
    crc16 ((List.replicate 68 (0 : Byte)).take 66) ≠ field (List.replicate 68 0) 66 2 ∧
    goes (exec (.targetBlockReceive 0 (leBytes 66 0 ++ leBytes 2 (crc16 (leBytes 66 0))) false) s) (fun u => (u.bridge 0).rx.length = 1) = true := by
  decide +kernel

/-! ### HostRequestsAndLink -/

theorem wit_Bar2 : let s := owned.setNum Obj.bar2Aperture 0x4000000000
    s.num Obj.hostLinkState = 2 ∧ Memory.wf 0 s.mem = true ∧ s.pieceStatus [] 0 0x4000200000 = .ok ∧ s.pieceStatus [] 0 0x4000000000 = .decode ∧
    s.changing 0x4000200000 = false ∧ s.changing 0x4000200040 = false ∧
    goes (exec (.bar2Write 0x20003E [1, 2, 3, 4] [(1, .uncorrectable)]) s) (fun u => u.byte 0x400020003F = 2 && u.byte 0x4000200040 = 0 &&
      u.num Obj.bar2Errors = 1) = true := by decide +kernel

theorem gddr_place : owned.place 0 = .gddr 0 0 := by
  have h : 0 < Config.gddrPerCabinet := by unfold Config.gddrPerCabinet; split <;> decide
  simp [State.place, State.placePhys, h]

theorem wit_Bar2Waits : (owned.setNum Obj.gddrCabinetState 3).changing (0 / 64 * 64 + 64 * 0) = true := by
  have h : (owned.setNum Obj.gddrCabinetState 3).place 0 = .gddr 0 0 := gddr_place
  unfold State.changing
  rw [show 0 / 64 * 64 + 64 * 0 = 0 from rfl, h]
  decide +kernel

theorem wit_Bar2Aperture : Admitted ⟨.linear, 5⟩ Obj.bar2Aperture [0, 0, 0, 0x40, 0, 0, 0, 0] owned := admitted_linear _ _ _ _ rfl (by decide)

theorem wit_HostLink : base.host.busMaster = true ∧ base.dict.held = [] ∧ base.num (hostRec Obj.reqHead) = base.num (hostRec Obj.reqTail) ∧
    goes (exec .hostLinkDown base) (fun u => goes (exec (.hostLinkUp 16 640) u) fun v => v.num Obj.hostLinkRate = 640) = true ∧
    goes (exec (.msixUnmask 3) { base with host := { base.host with pendingVec := [3] } }) (fun u => u.host.pendingVec.isEmpty && u.out.length = 1) = true := by
  decide +kernel

/-! ### ResetsOfTheDevice -/

theorem wit_SoftwareReset : Admitted ⟨.linear, 5⟩ Obj.softwareReset [0x01, 0, 0xA5, 0x5A] owned ∧ leNat [0x01, 0, 0xA5, 0x5A] % 4 = 1 :=
  ⟨admitted_linear _ _ _ _ rfl (by decide), by decide⟩

theorem wit_DeviceResets : owned.serving = true ∧ owned.num Obj.standbyState ≠ 3 ∧ 3 ≤ owned.rst.exitDone ∧ owned.pllDomain 17 = true ∧
    owned.pllDomain 22 = false ∧ ResetSource.powerOn ∈ State.reset.rst.asserted ∧ ResetSource.perst ∉ State.reset.rst.asserted ∧
    State.reset.inReset = true := by decide

/-- The device as its exit stands before a step. -/
def leaving (done : Nat) : State := { State.reset with rst := { State.reset.rst with
  asserted := []
  module := false
  exitDone := done } }

theorem wit_DeviceExit : (leaving 0).inReset = false ∧ (leaving 0).num Obj.deviceState = 1 ∧ (leaving 0).nextExit = 2 ∧ (leaving 2).nextExit = 3 ∧
    (leaving 9).nextExit = 10 ∧ goes (exec (.deviceExit 3 []) (leaving 2)) (fun u => u.num Obj.startupStep = 4) = true := by decide +kernel

/-! ### ResetsOfCabinetsAndBlocks -/

theorem wit_CabinetReset : Admitted ⟨.linear, 5⟩ Obj.softwareReset [0x02, 3, 0xA5, 0x5A] owned ∧ owned.inReset = false ∧ owned.lost 3 = false ∧
    owned.jobsAt 3 = [] ∧ owned.pagesAt 3 = [] ∧ owned.rst.soft = none ∧ leNat [0x02, 3, 0xA5, 0x5A] / 256 % 256 = 3 :=
  ⟨admitted_linear _ _ _ _ rfl (by decide), by decide, by decide, by decide, by decide, rfl, by decide⟩

theorem wit_BlockReset : Admitted ⟨.linear, 5⟩ Obj.softwareReset [0x07, 0x13, 0xA5, 0x5A] owned ∧ owned.blockIdle 0x13 = true ∧
    Admitted ⟨.linear, 5⟩ Obj.softwareReset [0x03, 0x30, 0xA5, 0x5A] (owned.setNum Obj.stepControllerState 1) ∧
    (owned.setNum Obj.stepControllerState 1).blockIdle 0x30 = false ∧
    Admitted ⟨.linear, 5⟩ Obj.releaseReset [0x13] { owned with rst := { owned.rst with heldBlocks := [0x13] } } :=
  ⟨admitted_linear _ _ _ _ rfl (by decide), by decide, admitted_linear _ _ _ _ rfl (by decide), by decide, admitted_linear _ _ _ _ rfl (by decide)⟩

def exiting (n : Nat) : State := { owned with rst := { owned.rst with cabExit := [(2, n)] } }

theorem wit_CabinetExit : (exiting 4).inReset = false ∧ (exiting 4).cabHeld 2 = false ∧ (exiting 4).rst.cabExit.find? 2 = some 4 ∧
    (exiting 0).rst.cabExit.find? 2 = some 0 ∧ (exiting 0).jobsAt 2 = [] ∧ Tab.sorted (exiting 4).rst.cabExit = true ∧
    goes (exec (.cabinetExit 2 5 []) (exiting 4)) (fun u => u.num (Obj.cabinetHealth + 2) = 1) = true := by decide +kernel

theorem wit_Park : let s := (owned.setNum (Obj.cabinetPowerState + 2) 1).setNum (Obj.cabinetHealth + 2) 1
    s.restful 2 = true ∧ goes (exec (.cabinetPark 2) s) (fun u => u.num (Obj.cabinetPowerState + 2) = 2 &&
      goes (exec (.cabinetWake 2) u) fun v => v.num (Obj.clockState + 2) = 2) = true := by decide +kernel

/-! ### CriticalStateAnswers -/

theorem wit_Critical : owned.serving = true ∧ (owned.setNum Obj.standbyState 3).serving = true ∧ (owned.setNum Obj.standbyState 3).num Obj.standbyState = 3 ∧
    State.reset.serving = false ∧ (owned.setNum Obj.standbyState 2).num Obj.standbyState = 2 ∧ owned.lost 0 = false ∧ owned.inCReset 0 = false ∧
    issuing.serving = true ∧ (issuing.dr 0 0).await = [] ∧ 0 ∈ (issuing.tile 0).bound ∧ (issuing.dr 0 0).asked = false ∧
    (issuing.dr 0 0).hold = [] ∧ (issuing.dr 0 0).op.isSome = true := by decide +kernel

theorem wit_Activation : let s := (owned.setNum Obj.standbyState 2).setNum Obj.updateState 5
    s.serving = true ∧ s.sec.taken = false ∧ ({ s with sec := { s.sec with taken := true } }).sec.taken = true := by decide +kernel

/-! ### SecurityServices -/

def updating (st : Nat) : State := owned.setNum Obj.updateState st

theorem wit_Update : Admitted ⟨.linear, 5⟩ Obj.updateCommand [1] owned ∧ Admitted ⟨.linear, 5⟩ Obj.updateCommand [2] (updating 2) ∧
    Admitted ⟨.linear, 5⟩ Obj.updateCommand [3] (updating 4) ∧ Admitted ⟨.linear, 5⟩ Obj.updateCommand [4] (updating 2) ∧
    Admitted ⟨.linear, 5⟩ Obj.updateCommand [1] (updating 2) ∧ Admitted ⟨.linear, 5⟩ Obj.updateCommand [2] owned ∧
    Admitted ⟨.linear, 5⟩ Obj.updateCommand [3] owned ∧ Admitted ⟨.linear, 5⟩ Obj.updateCommand [4] owned :=
  ⟨admitted_linear _ _ _ _ rfl (by decide), admitted_linear _ _ _ _ rfl (by decide), admitted_linear _ _ _ _ rfl (by decide),
    admitted_linear _ _ _ _ rfl (by decide), admitted_linear _ _ _ _ rfl (by decide), admitted_linear _ _ _ _ rfl (by decide),
    admitted_linear _ _ _ _ rfl (by decide), admitted_linear _ _ _ _ rfl (by decide)⟩

theorem wit_FromMemory : Admitted ⟨.linear, 5⟩ Obj.updateFromMemory [0, 0, 0x20, 0, 0x40, 0, 0, 0] (updating 2) ∧
    leNat ((updating 2).read (0x4000200000 + 16) 4) = 0 ∧
    (∀ i, i < 256 → (updating 2).access (0x4000200000 + i) .ok = .ok ∧ (updating 2).place (0x4000200000 + i) = .buffer 0 (0x200000 + i)) :=
  ⟨admitted_linear _ _ _ _ rfl (by decide), by decide +kernel, by decide +kernel⟩

theorem wit_KeyRevoke : Admitted ⟨.linear, 5⟩ Obj.keyRevoke [3] owned ∧ owned.slotInUse 3 = false ∧ owned.bytes (Obj.keySlot + 3) = [] :=
  ⟨admitted_linear _ _ _ _ rfl (by decide), by decide +kernel, by decide +kernel⟩

/-! ### NarrowElementsArePacked -/

theorem wit_Packing : (∀ c ∈ [1, 2, 3, 4], c < 2 ^ fmtBits 5) ∧ packElems 5 [1, 2, 3, 4] = [0x81, 0x30, 0x10] ∧
    packElems 7 [1, 2, 3] = [0x21, 0x03] ∧ Memory.wf 0 base.mem = true ∧ fmtBits 3 = 8 ∧ fmtBits 9 = 4 ∧ fmtBits 6 = 6 := by decide

/-! ### ResetCommandOnlyFromOwner -/

theorem wit_ResetCommand :
    let s := (fielded.setNum Obj.owner 0x45).setNum Obj.fieldResetReach (2 + 256 * 3)
    let id := BitVec.ofNat 29 (canId 1 9 5)
    bits id.toNat 25 4 = 1 ∧ s.canTakes .fna = true ∧ s.canFor id = true ∧ s.rst.serve ≠ .recovery ∧ s.inReset = false ∧
      s.lost 3 = false ∧ s.jobsAt 3 = [] ∧ s.num Obj.owner = 0x40 + bits id.toNat 11 7 ∧
      (s.setNum Obj.fieldResetReach (3 + 256 * 0x28)).blockIdle 0x28 = true := by decide

/-! ### LineCodingIsUndone -/

/-- The worked example of R431: what is sent for six pairs of bits, and what a wrong decision at the third does. -/
theorem test_precoding : grayIndex false true = 1 ∧ precode 0 [0, 1, 2, 3, 3, 0] = [0, 1, 1, 2, 1, 3] ∧
    [0, 1, 1, 2, 1, 3].map (fun y => pamLevel (BitVec.ofNat 2 y)) = [-3, -1, -1, 1, -1, 3] ∧
    unprecode 0 [0, 1, 2, 2, 1, 3] = [0, 1, 3, 0, 3, 0] := by decide

/-- α^10 is α^3 + 1, and the parity of a lone last data symbol is the generator without its leading 1. -/
theorem test_code : gfPow 10 = 9 ∧ (rsGenerator 12).length = 13 ∧
    rsParity (rsGenerator 12) [0, 0, 1] = (rsGenerator 12).drop 1 := by decide +kernel

theorem wit_Marker : marker 3 true = [0x69, 0xA5, 0x3C, 0x0F, 0x96, 0x5A, 0xF0, 0xC3, 0x03, 0x01, 0xFC, 0xFE, 0, 0, 0, 0] ∧
    ([1, 2, 3, 4, 5, 6, 7, 8] : List (BitVec 10)).length % 8 = 0 := by decide

/-- Columns of R314, and a cell of R316 in split mode. -/
theorem test_fabricElements : columnAt 29 = .logic 24 ∧ columnAt 464 = .clockAndProbe ∧ columnAt 43 = .memory 5 ∧ columnAt 37 = .logic 31 ∧
    cellOut .split 0x0000000100000002 1 = (false, true) ∧ cellOut .split 0x0000000100000002 0 = (true, false) ∧
    cellClock .shiftRegister 0x80000001 0x20 true false false = 3 ∧ selectWidth 12 = 4 ∧ Sys2Proof.Machine.selected [.wire 5, .wire 9] 2 = some (.wire 9) ∧
    Sys2Proof.Machine.selected [.wire 5] 0 = none ∧ Sys2Proof.Machine.selected [.wire 5] 2 = none ∧ shapeDepth 3 = 4096 ∧ shapeWidth 3 = 10 := by decide

end Sys2Proof.Tests
end

/-! PROOFS. Events, flags and the state after reset: O13, O10, O3. -/

namespace Sys2Proof.Machine

/-! ## Subscribers and their queues (R65, R67) -/

theorem nodup_eraseDups (l : List Nat) : l.eraseDups.Nodup := by
  induction h : l.length using Nat.strong_induction_on generalizing l with
  | _ n ih =>
    cases l with
    | nil => simp
    | cons a l =>
      have hlen : (l.filter fun b => !b == a).length < n := by
        have := List.length_filter_le (fun b => !b == a) l
        simp only [List.length_cons] at h
        omega
      rw [List.eraseDups_cons, List.nodup_cons]
      exact ⟨by simp, ih _ hlen _ rfl⟩

/-- The event queue of a master. -/
def State.masterQ (s : State) (m : Nat) : MasterQ := s.dict.queues.get MasterQ.empty m

/-- What adding an event to a queue comes to: an event pending for the subentry that carries it, or a drop. -/
theorem MasterQ.add_cases (q : MasterQ) (e : Event) :
    (∃ p ∈ (q.add e).q, p.key = e.key ∧ p.bits &&& e.bits = e.bits ∧ p.val = e.val ∧ p.time = e.time) ∨
      (q.drops e = true ∧ (q.add e).dropped = q.dropped + 1 ∧ (q.add e).q = q.q) := by
  have hbits (n : Nat) : (n ||| e.bits) &&& e.bits = e.bits := by
    refine Nat.eq_of_testBit_eq fun i => ?_
    cases h : e.bits.testBit i <;> simp [h]
  unfold MasterQ.add
  split
  case isTrue hany =>
    obtain ⟨p, hp, hkey⟩ := List.any_eq_true.1 hany
    rw [decide_eq_true_eq] at hkey
    exact .inl ⟨_, List.mem_map.2 ⟨p, hp, if_pos hkey⟩, hkey, hbits _, rfl, rfl⟩
  case isFalse hany =>
    split
    case isTrue => exact .inl ⟨e, by simp, rfl, Nat.and_self _, rfl, rfl⟩
    case isFalse hfull => exact .inr ⟨by simp [MasterQ.drops, hany, Nat.not_lt.1 hfull], rfl, rfl⟩

namespace State

theorem masterQ_queueEvent_self (e : Event) (m : Nat) (s : State) :
    (s.queueEvent e m).masterQ m = (s.masterQ m).add e := by
  unfold queueEvent
  dsimp only
  split <;> simp [masterQ, Tab.get, Tab.find?_put_self]

theorem masterQ_queueEvent_ne (e : Event) (m n : Nat) (s : State) (h : m ≠ n) :
    (s.queueEvent e n).masterQ m = s.masterQ m := by
  unfold queueEvent
  dsimp only
  split <;> simp [masterQ, Tab.get, Tab.find?_put_ne _ _ _ _ h]

/-- A drop counts in the master's EventsDropped. -/
theorem num_queueEvent_of_drops (e : Event) (m : Nat) (s : State) (h : (s.masterQ m).drops e = true) :
    (s.queueEvent e m).num (mrKey Obj.eventsDropped m) =
      min (s.num (mrKey Obj.eventsDropped m) + 1) (maxOf (mrKey Obj.eventsDropped m)) := by
  unfold masterQ at h
  unfold queueEvent
  dsimp only
  rw [if_pos h, num_bump_self]
  rfl

theorem mrKey_injective (base : Nat) {m n : Nat} (h : mrKey base m = mrKey base n) : m = n := by
  unfold mrKey at h; omega

/-- Queueing for other masters leaves a master's queue and its count of drops. -/
theorem foldl_queueEvent_others (k b : Nat) (v : Val) (m : Nat) (l : List Nat) (s : State) (h : m ∉ l) :
    let u := l.foldl (fun t n => t.queueEvent ⟨k, b, 1, v, t.now⟩ n) s
    u.masterQ m = s.masterQ m ∧ u.num (mrKey Obj.eventsDropped m) = s.num (mrKey Obj.eventsDropped m) ∧ u.now = s.now := by
  induction l generalizing s with
  | nil => exact ⟨rfl, rfl, rfl⟩
  | cons n l ih =>
    obtain ⟨hn, hl⟩ := List.ne_and_not_mem_of_not_mem_cons h
    obtain ⟨hq, hd, ht⟩ := ih (s.queueEvent ⟨k, b, 1, v, s.now⟩ n) hl
    refine ⟨hq.trans (masterQ_queueEvent_ne _ _ _ _ hn), hd.trans ?_, ht.trans (queueEvent_now _ _ _)⟩
    exact congrArg Val.toNat (val_queueEvent _ _ _ _ fun he => hn (mrKey_injective _ he))

/-- A subscriber's queue takes the event exactly once. -/
theorem raiseVal_subscriber (s : State) (k b m : Nat) (v : Val) (h : m ∈ s.subscribers k) :
    let e : Event := ⟨k, b, 1, v, s.now⟩
    (s.raiseVal k b v).masterQ m = (s.masterQ m).add e ∧
      ((s.masterQ m).drops e = true → (s.raiseVal k b v).num (mrKey Obj.eventsDropped m) =
        min (s.num (mrKey Obj.eventsDropped m) + 1) (maxOf (mrKey Obj.eventsDropped m))) := by
  obtain ⟨l₁, l₂, hl⟩ := List.append_of_mem h
  have hnd : (l₁ ++ m :: l₂).Nodup := hl ▸ nodup_eraseDups _
  obtain ⟨-, hnd₂, hdis⟩ := List.nodup_append.1 hnd
  have h₁ : m ∉ l₁ := fun hm => hdis m hm m List.mem_cons_self rfl
  have h₂ : m ∉ l₂ := (List.nodup_cons.1 hnd₂).1
  unfold raiseVal
  rw [hl, List.foldl_append, List.foldl_cons]
  obtain ⟨hq₁, hd₁, ht₁⟩ := foldl_queueEvent_others k b v m l₁ s h₁
  generalize l₁.foldl (fun t n => t.queueEvent ⟨k, b, 1, v, t.now⟩ n) s = t at hq₁ hd₁ ht₁ ⊢
  obtain ⟨hq₂, hd₂, -⟩ := foldl_queueEvent_others k b v m l₂ (t.queueEvent ⟨k, b, 1, v, t.now⟩ m) h₂
  rw [hq₂, hd₂, masterQ_queueEvent_self, hq₁, ht₁]
  refine ⟨rfl, fun hdrop => ?_⟩
  rw [num_queueEvent_of_drops _ _ _ (hq₁ ▸ hdrop), hd₁]

/-! ## Flags (R64) -/

/-- Clearing the bits of w among the low n: what is left of a number of n bits. -/
theorem testBit_clear (a w n i : Nat) (ha : a ≤ 2 ^ n - 1) :
    (a &&& (2 ^ n - 1 - (w &&& (2 ^ n - 1)))).testBit i = (a.testBit i && !w.testBit i) := by
  have hlow : w &&& (2 ^ n - 1) < 2 ^ n := by
    rw [Nat.and_two_pow_sub_one_eq_mod]; exact Nat.mod_lt _ (Nat.two_pow_pos n)
  rw [Nat.sub_sub, Nat.add_comm, Nat.testBit_and, Nat.testBit_two_pow_sub_succ hlow, Nat.testBit_and,
    Nat.testBit_two_pow_sub_one]
  by_cases hi : i < n
  · simp [hi]
  · have : a.testBit i = false := Nat.testBit_lt_two_pow (by
      have := Nat.pow_le_pow_right (n := 2) (by decide) (Nat.not_lt.1 hi)
      have := Nat.two_pow_pos n
      omega)
    simp [this]

theorem testBit_setFlag (s : State) (k b i : Nat) (hk : Quiet k) :
    ((s.setFlag k b).num k).testBit i = (b.testBit i || (s.num k).testBit i) := by
  rw [num_setFlag_self k b s hk, Nat.testBit_or, Bool.or_comm]

/-- The write clears the bits of w first, then the sets of the same cycle stand. -/
theorem testBit_clearFlag (s : State) (k w sets n i : Nat) (hk : Quiet k) (hmax : maxOf k = 2 ^ n - 1)
    (hs : s.num k ≤ maxOf k) :
    ((s.clearFlag k w sets).num k).testBit i = (sets.testBit i || ((s.num k).testBit i && !w.testBit i)) := by
  unfold clearFlag
  dsimp only
  rw [hmax] at hs ⊢
  split
  case isTrue h => rw [h, num_setNum_self, testBit_clear _ _ _ _ hs]; simp
  case isFalse => rw [testBit_setFlag _ _ _ _ hk, num_setNum_self, testBit_clear _ _ _ _ hs]

end State

/-- Settles O10: each bit is looked at by itself; the type of a W1C object is an unsigned one, so that its all-ones value
is 2 ^ n - 1. -/
theorem flagRace : Obligations.FlagRace := by
  intro s k w sets r hrow _ hty hs hk
  have hq : State.Quiet k := fun m _ => hk m
  have hmax : ∃ n, maxOf k = 2 ^ n - 1 := by
    have : maxOf k = r.ty.max := by simp [maxOf, hrow]
    rw [this]
    rcases hty with h | h | h | h <;> rw [h]
    · exact ⟨32, rfl⟩
    · exact ⟨16, rfl⟩
    · exact ⟨8, rfl⟩
    · exact ⟨64, rfl⟩
  obtain ⟨n, hn⟩ := hmax
  exact ⟨fun i => State.testBit_clearFlag s k w sets n i hq hn hs, fun i => State.testBit_setFlag s k sets i hq⟩

/-- Settles O3: in the reset state no table lists anything, so that every read gives its default. -/
theorem resetDefaults : Obligations.ResetDefaults :=
  ⟨fun _ => rfl, rfl, rfl, rfl, rfl, rfl, fun _ => rfl, fun _ => rfl, rfl⟩

/-- An event pending for the host goes out once its ring has room and nothing is held before it. -/
theorem execEventDelivery_host (s : State) (e : Event) (r : List Event) (row : Row) (hserve : s.rst.serve ≠ .none)
    (hroom : s.rspRoom = true) (hheld : s.dict.held.any (fun o => o.tr = Transport.pcie && o.port = CanPort.fna) = false)
    (hq : (s.masterQ 1).q = e :: r) (hd : (s.masterQ 1).dropped = 0) (hrow : rowOf e.key = some row) :
    execEventDelivery .host s = .next (State.message 1 .pcie true
      (segments .pcie Oap.event 0 ((s.masterQ 1).sent % 65536) e.key
        (leBytes 2 e.count ++ leBytes 2 e.bits ++ leBytes 8 e.time ++ encodeVal row.ty e.val))
      { s with dict := { s.dict with
          queues := s.dict.queues.put 1 { s.masterQ 1 with q := r, sent := (s.masterQ 1).sent + 1 } } }) := by
  unfold State.masterQ at hq hd ⊢
  have hroute : s.eventRoute 1 = .pcie := rfl
  simp only [execEventDelivery, masterId, hroute, canPortOf, State.canGo, hroom, hheld, hq, hd, hrow, hserve]
  rfl

/-- Settles O13: the subscribers are listed once each, so that each one's queue takes the event once; and the host's oldest
event goes out by `execEventDelivery_host`. -/
theorem eventsReachSubscribers : Obligations.EventsReachSubscribers := by
  refine ⟨fun s k b m hm _ => ?_, execEventDelivery_host⟩
  obtain ⟨hq, hn⟩ := State.raiseVal_subscriber s k b m (s.val k) hm
  rcases MasterQ.add_cases (s.masterQ m) ⟨k, b, 1, s.val k, s.now⟩ with
    ⟨e, he, hkey, hbits, hval, htime⟩ | ⟨hdrop, hcount, hsame⟩
  · exact .inl ⟨e, (congrArg MasterQ.q hq) ▸ he, hkey, hbits, hval, htime⟩
  · exact .inr ⟨(congrArg MasterQ.dropped hq).trans hcount, (congrArg MasterQ.q hq).trans hsame, hn hdrop⟩

end Sys2Proof.Machine

/-! PROOFS. What the dictionary's shared operations leave as it was: changes of objects, sending, and taking a request. -/

namespace Sys2Proof.Machine

/-! ## What changes only objects, and the events that their changes raise -/

/-- Every count of dropped events stands at subindex 0x12. -/
theorem eventsDropped_mod (m : Nat) : mrKey Obj.eventsDropped m % 256 = 0x12 := by
  show (0x110012 + 256 * m) % 256 = 0x12
  omega

theorem ne_eventsDropped {k : Nat} (h : k % 256 ≠ 0x12) : ∀ m, m < 256 → k ≠ mrKey Obj.eventsDropped m :=
  fun m _ he => h (he ▸ eventsDropped_mod m)

theorem quiet_of_mod {k : Nat} (h : k % 256 ≠ 0x12) : State.Quiet k := fun m _ he => h (he ▸ eventsDropped_mod m)

theorem KeepsObjects.refl (l : List Nat) (s : State) : KeepsObjects l s s := fun _ _ _ => rfl

theorem KeepsObjects.trans {l : List Nat} {s t u : State} (h₁ : KeepsObjects l s t) (h₂ : KeepsObjects l t u) :
    KeepsObjects l s u := fun k hk hm => (h₂ k hk hm).trans (h₁ k hk hm)

theorem KeepsObjects.mono {l l' : List Nat} {s u : State} (h : KeepsObjects l s u) (hl : l ⊆ l') : KeepsObjects l' s u :=
  fun k hk hm => h k (fun hk' => hk (hl hk')) hm

/-- A number outside the masters' records that is not listed keeps its value. -/
theorem KeepsObjects.num {l : List Nat} {s u : State} (h : KeepsObjects l s u) {k : Nat} (hk : k ∉ l)
    (hm : ∀ m, m < 256 → k ≠ mrKey Obj.eventsDropped m) : u.num k = s.num k := congrArg Val.toNat (h k hk hm)

theorem KeepsObjects.setVal {l : List Nat} {k : Nat} (hk : k ∈ l) (v : Val) (s : State) : KeepsObjects l s (s.setVal k v) :=
  fun _ hk' _ => State.val_setVal_ne _ _ _ _ fun he => hk' (he ▸ hk)

theorem ChangesOnly.trans {l : List Nat} {s t u : State} (h₁ : ChangesOnly l s t) (h₂ : ChangesOnly l t u) :
    ChangesOnly l s u := by
  obtain ⟨ht, hk₁⟩ := h₁
  obtain ⟨hu, hk₂⟩ := h₂
  refine ⟨hu.trans ?_, hk₁.trans hk₂⟩
  rw [ht]

theorem ChangesOnly.mono {l l' : List Nat} {s u : State} (h : ChangesOnly l s u) (hl : l ⊆ l') : ChangesOnly l' s u :=
  ⟨h.1, h.2.mono hl⟩

namespace State

theorem setVal_changes (k : Nat) (v : Val) (s : State) : ChangesOnly [k] s (s.setVal k v) :=
  ⟨rfl, KeepsObjects.setVal List.mem_cons_self v s⟩

theorem setNum_changes (k n : Nat) (s : State) : ChangesOnly [k] s (s.setNum k n) := setVal_changes k _ s

theorem bump_changes (k n : Nat) (s : State) : ChangesOnly [k] s (s.bump k n) := setVal_changes k _ s

theorem queueEvent_changes (e : Event) (m : Nat) (s : State) (hm : m < 256) : ChangesOnly [] s (s.queueEvent e m) := by
  refine ⟨?_, fun k _ hk => val_queueEvent e m k s (hk m hm)⟩
  unfold queueEvent
  dsimp only
  split <;> rfl

theorem raiseVal_changes (k b : Nat) (v : Val) (s : State) : ChangesOnly [] s (s.raiseVal k b v) := by
  have key : ∀ (l : List Nat) (t : State), (∀ m ∈ l, m < 0xFF) →
      ChangesOnly [] t (l.foldl (fun t m => t.queueEvent ⟨k, b, 1, v, t.now⟩ m) t) := by
    intro l
    induction l with
    | nil => exact fun t _ => ⟨rfl, KeepsObjects.refl _ _⟩
    | cons m l ih =>
      intro t hl
      have hm : m < 256 := Nat.lt_succ_of_lt (hl m List.mem_cons_self)
      exact (queueEvent_changes _ m t hm).trans (ih _ fun n hn => hl n (List.mem_cons_of_mem _ hn))
  exact key _ s fun m hm => subscribers_lt s k m hm

theorem setFlag_changes (k b : Nat) (s : State) : ChangesOnly [k] s (s.setFlag k b) :=
  (setNum_changes k _ s).trans ((raiseVal_changes k b _ _).mono (List.nil_subset _))

theorem setState_changes (k v : Nat) (s : State) : ChangesOnly [k] s (s.setState k v) := by
  unfold setState
  split
  · exact ⟨rfl, KeepsObjects.refl _ _⟩
  · exact (setNum_changes k v s).trans ((raiseVal_changes k 0 _ _).mono (List.nil_subset _))

end State

/-! ## What sending can do (R90–R97, R446, R462) -/

/-- The objects that change as segments go out: the tail of the response ring, and what counts interrupts and flits lost. -/
def sendKeys : List Nat := [hostRec Obj.rspTail, Obj.msixDropped, Obj.routeDiscards, Obj.linkFlags]

/-- State `s` with the parts of `u` that sending can reach. -/
def State.sentAs (s u : State) : State :=
  { s with
    obj := u.obj
    out := u.out
    host := u.host
    net := u.net
    dict := { s.dict with queues := u.dict.queues, held := u.dict.held, jtagOut := u.dict.jtagOut } }

/-- What sending comes to: nothing changes but the transports' own state, their objects and the events that these raise. -/
def Sends (s u : State) : Prop := u = s.sentAs u ∧ KeepsObjects sendKeys s u

theorem Sends.refl (s : State) : Sends s s := ⟨rfl, KeepsObjects.refl _ _⟩

theorem Sends.trans {s t u : State} (h₁ : Sends s t) (h₂ : Sends t u) : Sends s u := by
  obtain ⟨ht, hk₁⟩ := h₁
  obtain ⟨hu, hk₂⟩ := h₂
  refine ⟨hu.trans ?_, hk₁.trans hk₂⟩
  rw [ht]
  rfl

theorem ChangesOnly.sends {l : List Nat} {s u : State} (h : ChangesOnly l s u) (hl : l ⊆ sendKeys) : Sends s u := by
  obtain ⟨hu, hk⟩ := h
  refine ⟨?_, hk.mono hl⟩
  rw [hu]
  rfl

theorem Sends.foldl {α : Type} {f : State → α → State} (hf : ∀ s a, Sends s (f s a)) (l : List α) (s : State) :
    Sends s (l.foldl f s) := by
  induction l generalizing s with
  | nil => exact Sends.refl s
  | cons a l ih => exact (hf s a).trans (ih _)

namespace State

theorem emit_sends (o : Out) (s : State) : Sends s (s.emit o) := ⟨rfl, fun _ _ _ => rfl⟩

theorem signal_sends (v : Nat) (s : State) : Sends s (s.signal v) := by
  unfold signal
  split
  · exact (bump_changes _ _ _).sends (by simp [sendKeys])
  · split
    · exact emit_sends _ _
    · split
      · exact Sends.refl s
      · exact ⟨rfl, fun _ _ _ => rfl⟩

/-- A flit that is not carried counts, and raises a flag (R446). -/
theorem discardFlit_sends (s : State) : Sends s ((s.bump Obj.routeDiscards 1).setFlag Obj.linkFlags 8) :=
  ((bump_changes _ _ _).sends (by simp [sendKeys])).trans ((setFlag_changes _ _ _).sends (by simp [sendKeys]))

theorem toPort_sends (inp p : Nat) (f : Flit) (s : State) : Sends s (s.toPort inp p f) := by
  unfold toPort
  dsimp only
  split
  · exact ⟨rfl, fun _ _ _ => rfl⟩
  · exact discardFlit_sends s

theorem deliver_sends (f : Flit) (s : State) : Sends s (s.deliver f) := by
  unfold deliver
  split
  · exact ⟨rfl, fun _ _ _ => rfl⟩
  · exact Sends.refl s

theorem sendFlit_sends (vc dest : Nat) (body : List Byte) (s : State) : Sends s (s.sendFlit vc false dest body) := by
  unfold sendFlit route
  rw [if_neg (by simp)]
  split
  · exact deliver_sends _ _
  · dsimp only
    split
    · exact toPort_sends _ _ _ _
    · split
      · exact deliver_sends _ _
      · exact discardFlit_sends s

theorem sendSeg_sends (o : OutSeg) (s : State) : Sends s (s.sendSeg o) := by
  unfold sendSeg
  split
  · exact ((emit_sends _ _).trans ((setNum_changes _ _ _).sends (by simp [sendKeys]))).trans (signal_sends _ _)
  · exact emit_sends _ _
  · exact emit_sends _ _
  · exact sendFlit_sends _ _ _ _
  · exact ⟨rfl, fun _ _ _ => rfl⟩

/-- A change of what is held is part of sending. -/
theorem held_sends (l : List OutSeg) (s : State) : Sends s { s with dict := { s.dict with held := l } } :=
  ⟨rfl, fun _ _ _ => rfl⟩

theorem flushHeld_sends (s : State) : Sends s s.flushHeld := by
  refine (held_sends [] s).trans (Sends.foldl (fun t o => ?_) _ _)
  dsimp only
  split
  · exact sendSeg_sends o t
  · exact held_sends _ t

theorem message_sends (id : Nat) (tr : Transport) (ev : Bool) (l : List (List Byte)) (s : State) :
    Sends s (s.message id tr ev l) := (held_sends _ s).trans (flushHeld_sends _)

theorem answer_sends (m : Master) (tr : Transport) (ty fl seq k : Nat) (pay : List Byte) (s : State) :
    Sends s (s.answer m tr ty fl seq k pay) := message_sends _ _ _ _ _

theorem answerErr_sends (m : Master) (tr : Transport) (seq k code d : Nat) (s : State) :
    Sends s (s.answerErr m tr seq k code d) := answer_sends _ _ _ _ _ _ _ _

end State

/-! ## What sending keeps -/

namespace Sends

variable {s u : State} (h : Sends s u)
include h

theorem mem : u.mem = s.mem := by rw [h.1]; rfl
theorem tiles : u.tiles = s.tiles := by rw [h.1]; rfl
theorem own : u.own = s.own := by rw [h.1]; rfl
theorem store : u.store = s.store := by rw [h.1]; rfl
theorem rst : u.rst = s.rst := by rw [h.1]; rfl
theorem group (id : Nat) : u.group id = s.group id := by rw [h.1]; rfl

theorem keepsBlock : KeepsBlock s u := by
  unfold KeepsBlock
  rw [h.1]
  rfl

theorem num {k : Nat} (hk : k ∉ sendKeys) (hm : ∀ m, m < 256 → k ≠ mrKey Obj.eventsDropped m) : u.num k = s.num k :=
  h.2.num hk hm

/-- The request ring stands: nothing the device sends moves its pointers. -/
theorem ringServed (hr : RingServed s) : RingServed u := by
  unfold RingServed at hr ⊢
  rw [h.num (by decide) (ne_eventsDropped (by decide)), h.num (by decide) (ne_eventsDropped (by decide)), hr]

end Sends

/-! ## Parameters: objects of right RW or RWP (R47) -/

/-- The subentry is a parameter. -/
def isParameter (k : Nat) : Bool := (rowOf k).any fun r => r.acc = .rw || r.acc = .rwp

theorem isParameter_of_row {k : Nat} {r : Row} (hrow : rowOf k = some r) (hacc : r.acc = .rw ∨ r.acc = .rwp) :
    isParameter k = true := by simpa [isParameter, hrow] using hacc

/-- A parameter is none of the objects that the device alone sets. -/
theorem ne_of_isParameter {k k' : Nat} (hk : isParameter k = true) (hk' : isParameter k' = false) : k' ≠ k := by
  rintro rfl
  exact Bool.false_ne_true (hk'.symm.trans hk)

/-- No row of a parameter covers subindex 0x12 of the masters' records, where EventsDropped stands. -/
theorem isParameter_eventsDropped (m : Nat) (hm : m < 256) : isParameter (mrKey Obj.eventsDropped m) = false := by
  have hrows : rowsA.all (fun r => !(r.acc = .rw || r.acc = .rwp) || !(r.key % 256 ≤ 0x12 && 0x12 < r.key % 256 + r.subs)) =
      true := by decide
  have hidx : mrKey Obj.eventsDropped m / 256 < 0x2000 := by
    show (0x110012 + 256 * m) / 256 < 0x2000
    omega
  rw [isParameter, Option.any_eq_false]
  intro r hr
  rw [rowOf, rowsFor, if_pos hidx] at hr
  have hr₁ := List.all_eq_true.1 hrows r (List.mem_of_find?_eq_some hr)
  have hr₂ := List.find?_some hr
  rw [Row.hasKey, eventsDropped_mod, Bool.and_assoc, Bool.and_eq_true] at hr₂
  simpa [hr₂.2] using hr₁

/-- A parameter keeps its value where only listed objects, none of them a parameter, and counts of drops change. -/
theorem KeepsObjects.parameter {l : List Nat} {s u : State} (h : KeepsObjects l s u) (hl : l.all (!isParameter ·) = true)
    {k : Nat} (hk : isParameter k = true) : u.val k = s.val k := by
  refine h k (fun hmem => ?_) fun m hm he => ?_
  · simpa [hk] using List.all_eq_true.1 hl k hmem
  · exact ne_of_isParameter hk (isParameter_eventsDropped m hm) he.symm

theorem Sends.keepsParameters {s u : State} (h : Sends s u) : KeepsParameters s u :=
  fun _ _ hrow hacc => h.2.parameter (by decide) (isParameter_of_row hrow hacc)

/-! ## Requests that are taken (R84, R87, R489) -/

section At

variable (s : State) (m : Master) (tr : Transport) (t : Nat)

/-- Taking a request moves the clock and notes the port, and nothing else. -/
theorem at_eq : At s m tr t =
    { s with now := max s.now t, dict := { s.dict with queues := (At s m tr t).dict.queues } } := by
  cases m <;> rfl

@[simp] theorem at_now : (At s m tr t).now = max s.now t := by rw [at_eq]
@[simp] theorem at_val (k : Nat) : (At s m tr t).val k = s.val k := by rw [at_eq]; rfl
@[simp] theorem at_num (k : Nat) : (At s m tr t).num k = s.num k := by rw [at_eq]; rfl
@[simp] theorem at_own : (At s m tr t).own = s.own := by rw [at_eq]
@[simp] theorem at_rst : (At s m tr t).rst = s.rst := by rw [at_eq]
@[simp] theorem at_mem : (At s m tr t).mem = s.mem := by rw [at_eq]
@[simp] theorem at_tiles : (At s m tr t).tiles = s.tiles := by rw [at_eq]
@[simp] theorem at_store : (At s m tr t).store = s.store := by rw [at_eq]
@[simp] theorem at_groups : (At s m tr t).dict.groups = s.dict.groups := by rw [at_eq]
@[simp] theorem at_group (id : Nat) : (At s m tr t).group id = s.group id := by rw [at_eq]; rfl
@[simp] theorem at_groupErr (id : Nat) : (At s m tr t).groupErr id = s.groupErr id := by rw [at_eq]; rfl
@[simp] theorem at_outstanding : (At s m tr t).outstanding m tr = s.outstanding m tr := by rw [at_eq]; rfl

theorem ringServed_at {s : State} (h : RingServed s) : RingServed (At s m tr t) :=
  ((at_num s m tr t _).trans h).trans (at_num s m tr t _).symm

theorem at_keepsBlock : KeepsBlock s (At s m tr t) := by unfold KeepsBlock; rw [at_eq]

end At

/-- A request that the service takes is served in the state of its instant. -/
theorem request_taken {s : State} {m : Master} {tr : Transport} (h : Taken s m tr) (t seq k : Nat) (f : State → State) :
    s.request m tr t seq k f = f (At s m tr t) := by
  obtain ⟨huses, hserve, hpcie, hfna, hfnb, hjtag, hout⟩ := h
  have hout' : ¬ 16 ≤ (At s m tr t).outstanding m tr := by rw [at_outstanding]; omega
  have hdebug : ¬ (tr = .jtag ∧ (At s m tr t).num Obj.debugEnabled = 0) := by rw [at_num]; exact fun hj => hjtag hj.1 hj.2
  unfold At at hout' hdebug ⊢
  unfold State.request
  dsimp only
  rw [if_neg, if_neg (by simpa using hdebug), if_neg hout']
  cases tr <;> simp_all

theorem fullRequest_taken {s : State} {m : Master} {tr : Transport} (h : Taken s m tr) (t seq k : Nat) (f : State → State) :
    s.fullRequest m tr t seq k f = f (At s m tr t) := by
  have hserve : (At s m tr t).rst.serve = .full := by rw [at_rst]; exact h.2.1
  rw [State.fullRequest, request_taken h, if_pos hserve]

theorem KeepsBlock.trans {s t u : State} (h₁ : KeepsBlock s t) (h₂ : KeepsBlock t u) : KeepsBlock s u := by
  unfold KeepsBlock at *
  refine h₂.trans ?_
  rw [h₁]

theorem KeepsParameters.trans {s t u : State} (h₁ : KeepsParameters s t) (h₂ : KeepsParameters t u) : KeepsParameters s u :=
  fun k r hrow hacc => (h₂ k r hrow hacc).trans (h₁ k r hrow hacc)

theorem at_keepsParameters (s : State) (m : Master) (tr : Transport) (t : Nat) : KeepsParameters s (At s m tr t) :=
  fun k _ _ _ => at_val s m tr t k

/-- A request ring with nothing waiting is left alone. -/
theorem pollRing_of_ringServed {s : State} (h : RingServed s) : s.pollRing = s := by
  unfold RingServed at h
  simp [State.pollRing, State.serveSlots, h]

theorem afterWrite_sends (s : State) (h : s.rst.soft = none) : Sends s s.afterWrite := by
  have hsoft : s.assertSoft = s := by simp [State.assertSoft, h]
  rw [State.afterWrite, hsoft]
  exact s.flushHeld_sends

end Sys2Proof.Machine

/-! PROOFS. Queueing records, and single writes: O9. -/

namespace Sys2Proof.Machine

/-! ## What the persistent store does (R50, R71, R76, R540) -/

/-- State `s` with the parts of `u` that queueing and programming records can reach. -/
def State.storedAs (s u : State) : State :=
  { s with obj := u.obj, store := u.store, dict := { s.dict with queues := u.dict.queues } }

/-- What the store's work comes to: nothing changes but the store, these objects, and the events that they raise. -/
def Stores (l : List Nat) (s u : State) : Prop := u = s.storedAs u ∧ KeepsObjects l s u

theorem Stores.refl (l : List Nat) (s : State) : Stores l s s := ⟨rfl, KeepsObjects.refl _ _⟩

theorem Stores.trans {l : List Nat} {s t u : State} (h₁ : Stores l s t) (h₂ : Stores l t u) : Stores l s u := by
  obtain ⟨ht, hk₁⟩ := h₁
  obtain ⟨hu, hk₂⟩ := h₂
  refine ⟨hu.trans ?_, hk₁.trans hk₂⟩
  rw [ht]
  rfl

theorem Stores.mono {l l' : List Nat} {s u : State} (h : Stores l s u) (hl : l ⊆ l') : Stores l' s u := ⟨h.1, h.2.mono hl⟩

theorem ChangesOnly.stores {l : List Nat} {s u : State} (h : ChangesOnly l s u) : Stores l s u := by
  obtain ⟨hu, hk⟩ := h
  refine ⟨?_, hk⟩
  rw [hu]
  rfl

namespace Stores

variable {l : List Nat} {s u : State} (h : Stores l s u)
include h

theorem mem : u.mem = s.mem := by rw [h.1]; rfl
theorem tiles : u.tiles = s.tiles := by rw [h.1]; rfl
theorem own : u.own = s.own := by rw [h.1]; rfl
theorem rst : u.rst = s.rst := by rw [h.1]; rfl
theorem group (id : Nat) : u.group id = s.group id := by rw [h.1]; rfl

theorem num {k : Nat} (hk : k ∉ l) (hm : k % 256 ≠ 0x12) : u.num k = s.num k := h.2.num hk (ne_eventsDropped hm)

theorem ringServed (hh : hostRec Obj.reqHead ∉ l) (ht : hostRec Obj.reqTail ∉ l) (hr : RingServed s) : RingServed u := by
  unfold RingServed at hr ⊢
  rw [h.num hh (by decide), h.num ht (by decide), hr]

end Stores

/-- The objects of the store that change as a record is queued. -/
def queueKeys : List Nat := [Obj.pendingRecords, Obj.storeState]

namespace State

theorem startCompaction_stores (s : State) : Stores [Obj.storeState] s s.startCompaction := by
  unfold startCompaction
  split
  · exact Stores.refl _ _
  · exact Stores.trans (t := { s with store := { s.store with copying := true } }) ⟨rfl, fun _ _ _ => rfl⟩
      (setState_changes _ _ _).stores

theorem checkFill_stores (s : State) : Stores [Obj.storeState] s s.checkFill := by
  unfold checkFill
  split
  · exact startCompaction_stores s
  · exact Stores.refl _ _

/-- As compaction starts, nothing of the store changes but that a copy runs. -/
theorem checkFill_store (s : State) : ∃ c, s.checkFill.store = { s.store with copying := c } := by
  unfold checkFill startCompaction
  split
  · split
    · exact ⟨_, rfl⟩
    · exact ⟨true, setState_store _ _ _⟩
  · exact ⟨_, rfl⟩

/-- A change within the store, and of an object that follows it. -/
theorem storeSetNum_stores {l : List Nat} (x : StoreState) {k : Nat} (hk : k ∈ l) (n : Nat) (s : State) :
    Stores l s (({ s with store := x } : State).setNum k n) :=
  ⟨rfl, fun _ hk' _ => val_setVal_ne _ _ _ _ fun he => hk' (he ▸ hk)⟩

theorem setQueue_stores (q : List PendRec) (s : State) : Stores queueKeys s (s.setQueue q) :=
  storeSetNum_stores _ (by simp [queueKeys]) _ s

theorem queueRecord_stores (r : PendRec) (s : State) : Stores queueKeys s (s.queueRecord r) := by
  unfold queueRecord
  split
  · exact Stores.refl _ _
  · exact (setQueue_stores _ s).trans ((checkFill_stores _).mono (by simp [queueKeys]))

/-- A record joins the queue, but in Fault (R71). -/
theorem queue_queueRecord (r : PendRec) (s : State) :
    (s.queueRecord r).store.queue = if s.num Obj.storeState = 3 then s.store.queue else s.store.queue ++ [r] := by
  unfold queueRecord
  split
  · rfl
  · obtain ⟨c, hc⟩ := checkFill_store (s.setQueue (s.store.queue ++ [r]))
    rw [hc]
    rfl

/-! ## One write of a plain parameter (R46, R50) -/

/-- An admitted write of a parameter whose chapter says no more of it: its value, and its record. -/
def writePlain (k : Nat) (r : Row) (v : Val) (s : State) : State :=
  if r.pers && r.acc = .rwp then (s.setVal k v).persist k else s.setVal k v

theorem applyVal_parameter (k : Nat) (r : Row) (v : Val) (sets : Nat) (s : State) (hacc : r.acc = .rw ∨ r.acc = .rwp) :
    s.applyVal r k v sets = s.setVal k v := by
  rcases hacc with h | h <;> simp [applyVal, h]

theorem doWrite_plain (k : Nat) (r : Row) (v : Val) (sets : Nat) (s : State) (hacc : r.acc = .rw ∨ r.acc = .rwp) :
    s.doWrite k r v sets Handler.plain = .ok (s.writePlain k r v) := by
  simp only [doWrite, applyVal_parameter k r v sets s hacc, Handler.plain, writePlain]

theorem writePlain_stores (k : Nat) (r : Row) (v : Val) (s : State) : Stores (k :: queueKeys) s (s.writePlain k r v) := by
  have hset : Stores (k :: queueKeys) s (s.setVal k v) := (setVal_changes k v s).stores.mono (by simp)
  unfold writePlain
  split
  · exact hset.trans ((queueRecord_stores _ _).mono (by simp))
  · exact hset

theorem val_writePlain (k : Nat) (r : Row) (v : Val) (s : State) (hk : isParameter k = true) :
    (s.writePlain k r v).val k = v := by
  unfold writePlain
  split
  · rw [persist, (queueRecord_stores _ _).2.parameter (by decide) hk, val_setVal_self]
  · exact val_setVal_self k v s

theorem queue_writePlain (k : Nat) (r : Row) (v : Val) (s : State) (hk : isParameter k = true) :
    (s.writePlain k r v).store.queue =
      if r.pers = true ∧ r.acc = .rwp ∧ s.num Obj.storeState ≠ 3 then s.store.queue ++ [oneRec k v] else s.store.queue := by
  have hne : Obj.storeState ≠ k := ne_of_isParameter hk (by decide)
  have hnum : (s.setVal k v).num Obj.storeState = s.num Obj.storeState := congrArg Val.toNat (val_setVal_ne k _ v s hne)
  unfold writePlain persist
  by_cases hpers : r.pers = true ∧ r.acc = .rwp
  · by_cases hfault : s.num Obj.storeState = 3 <;> simp [hpers, queue_queueRecord, hnum, hfault]
  · rw [if_neg (by simpa using hpers), if_neg fun h => hpers ⟨h.1, h.2.1⟩]
    rfl

end State

/-- What the checks of a write come to, when they pass. -/
theorem checkVal_ok {s : State} {id k : Nat} {b : List Byte} {r : Row} {v : Val} (h : s.checkVal id k b = .ok (r, v)) :
    s.rightsErr id k = none ∧ rowOf k = some r ∧ decodeVal r.ty b = some v ∧ s.allowed r k v = true := by
  unfold State.checkVal at h
  split at h
  case h_1 => cases h
  case h_2 => cases h
  case h_3 r' hrights hrow =>
    split at h
    case h_1 => cases h
    case h_2 v' hdec =>
      split at h
      case isTrue hall => cases h; exact ⟨hrights, hrow, hdec, hall⟩
      case isFalse => cases h

/-- What a write of a plain parameter leaves once it is answered or dropped, whatever its transport then sends. -/
theorem writePlain_then_sends {s u : State} {k : Nat} {r : Row} (v : Val) (hrow : rowOf k = some r)
    (hacc : r.acc = .rw ∨ r.acc = .rwp) (hu : Sends (s.writePlain k r v) u) :
    u.val k = v ∧ u.mem = s.mem ∧ u.tiles = s.tiles ∧ u.own = s.own ∧ u.rst = s.rst ∧
      (RingServed s → k ≠ hostRec Obj.reqTail → RingServed u) ∧
      u.store.queue = (if r.pers = true ∧ r.acc = .rwp ∧ s.num Obj.storeState ≠ 3 then s.store.queue ++ [oneRec k v]
        else s.store.queue) := by
  have hk := isParameter_of_row hrow hacc
  have hw := s.writePlain_stores k r v
  refine ⟨?_, hu.mem.trans hw.mem, hu.tiles.trans hw.tiles, hu.own.trans hw.own, hu.rst.trans hw.rst, fun hr ht => ?_, ?_⟩
  · rw [hu.2.parameter (by decide) hk, State.val_writePlain k r v s hk]
  · have hh : hostRec Obj.reqHead ≠ k := ne_of_isParameter hk (by decide)
    exact hu.ringServed (hw.ringServed (List.not_mem_cons_of_ne_of_not_mem hh (by decide))
      (List.not_mem_cons_of_ne_of_not_mem ht.symm (by decide)) hr)
  · rw [hu.store, State.queue_writePlain k r v s hk]

/-! ## WRITE and LINEAR_MAP_WRITE (R46, R53, R54) -/

theorem execWrite_plain {s : State} {m : Master} {tr : Transport} {t : Nat} {seq : BitVec 16} {o : ObjId} {val : List Byte}
    {sets : U64} {r : Row} {v : Val} (htaken : Taken s m tr) (hsoft : s.rst.soft = none) (hring : RingServed s)
    (htail : keyOf o ≠ hostRec Obj.reqTail) (hval : (At s m tr t).checkVal (masterId m) (keyOf o) val = .ok (r, v))
    (hacc : r.acc = .rw ∨ r.acc = .rwp) (hplain : handlerOf (keyOf o) = Handler.plain) :
    ∃ u, execWrite m tr t seq o val sets s = .next u ∧ Sends ((At s m tr t).writePlain (keyOf o) r v) u := by
  obtain ⟨-, hrow, -, -⟩ := checkVal_ok hval
  let w := (At s m tr t).writePlain (keyOf o) r v
  let a := w.answer m tr Oap.write 0 seq.toNat (keyOf o) []
  have ha : Sends w a := w.answer_sends _ _ _ _ _ _ _
  have hsoft' : a.rst.soft = none := by
    rw [ha.rst, ((At s m tr t).writePlain_stores _ _ _).rst, at_rst, hsoft]
  have hsend := ha.trans (afterWrite_sends a hsoft')
  have hring' : RingServed a.afterWrite := by
    obtain ⟨-, -, -, -, -, h, -⟩ := writePlain_then_sends v hrow hacc hsend
    exact h (ringServed_at m tr t hring) htail
  refine ⟨a.afterWrite, ?_, hsend⟩
  rw [execWrite, request_taken htaken, State.writeAny, State.serveWrite, hval, hplain]
  dsimp only
  rw [State.doWrite_plain _ _ _ _ _ hacc]
  exact congrArg _ (pollRing_of_ringServed hring')

/-- A linear-map write whose rights hold is one of the value its bytes give. -/
theorem bar0Write_of_rights {s : State} {off k sets : Nat} {data b : List Byte} {r : Row} (hoff : off < 0x7000000)
    (hal : off % 8 = 0) (hlen : data.length = 8) (hk : k = off / 0x800 * 256 + off / 8 % 256)
    (hrights : s.rightsErr 1 k = none) (hrow : rowOf k = some r) (hb : fromLinear r.ty data = some b) :
    s.bar0Write off data sets = s.linearWrite k b sets (handlerOf k) := by
  subst hk
  have hoff' : ¬ 0x7000000 ≤ off := by omega
  simp [State.bar0Write, hoff', hal, hlen, hrights, hrow, hb]

theorem bar0Write_of_rightsErr {s : State} {off k sets e : Nat} {data : List Byte} (hoff : off < 0x7000000)
    (hal : off % 8 = 0) (hlen : data.length = 8) (hk : k = off / 0x800 * 256 + off / 8 % 256)
    (hrights : s.rightsErr 1 k = some e) : s.bar0Write off data sets = s.dropLinear k e := by
  subst hk
  have hoff' : ¬ 0x7000000 ≤ off := by omega
  simp [State.bar0Write, hoff', hal, hlen, hrights]

theorem execLinearMapWrite_of_serve {s : State} (t : Nat) (offset : BitVec 27) (data : List Byte) (sets : U64)
    (h : s.rst.serve = .full) : execLinearMapWrite t offset data sets s =
      .next ((s.upto t).bar0Write offset.toNat data sets.toNat).afterWrite.pollRing := by
  have h' : ¬ (s.upto t).rst.serve = .none := by simp [h]
  rw [execLinearMapWrite, if_neg h']

theorem linearWrite_plain {s : State} {k sets : Nat} {b : List Byte} {r : Row} {v : Val} (hrights : s.rightsErr 1 k = none)
    (hrow : rowOf k = some r) (hfixed : r.ty.fixed = true) (hdec : decodeVal r.ty b = some v)
    (hall : s.allowed r k v = true) (hacc : r.acc = .rw ∨ r.acc = .rwp) :
    s.linearWrite k b sets Handler.plain = s.writePlain k r v := by
  simp [State.linearWrite, hrights, hrow, hfixed, hdec, hall, State.doWrite_plain k r v sets s hacc]

/-- The objects that record a dropped linear-map write (R54). -/
def accessKeys : List Nat := [Obj.lastErrorCode, Obj.lastErrorObject, Obj.droppedWrites]

theorem dropLinear_changes (k e : Nat) (s : State) : ChangesOnly accessKeys s (s.dropLinear k e) :=
  (((State.setNum_changes _ _ _).mono (by simp [accessKeys])).trans
    ((State.setNum_changes _ _ _).mono (by simp [accessKeys]))).trans ((State.bump_changes _ _ _).mono (by simp [accessKeys]))

/-- Settles O9: a plain write is `writePlain` and then what sending does, and neither reaches a parameter again, device
memory or the tiles; a refused linear-map write is `dropLinear`, after which nothing waits in the request ring. -/
theorem writeStores : Obligations.WriteStores := by
  refine ⟨?_, ?_, ?_⟩
  · intro s m tr t seq o val sets r v htaken hsoft hring htail hval hacc hplain
    obtain ⟨u, hu, hsend⟩ := execWrite_plain (seq := seq) (sets := sets) htaken hsoft hring htail hval hacc hplain
    obtain ⟨-, hrow, -, -⟩ := checkVal_ok hval
    obtain ⟨hv, hmem, htiles, hown, -, -, hqueue⟩ := writePlain_then_sends v hrow hacc hsend
    exact ⟨u, hu, hv, by simpa using hmem, by simpa using htiles, by simpa using hown, by simpa using hqueue⟩
  · intro s t offset data b sets r v k hserve hsoft hring htail hal hoff hlen hk hrights hrow hfixed hacc hb hdec hall hplain
    let w := (s.upto t).writePlain k r v
    have hw : Stores (k :: queueKeys) (s.upto t) w := (s.upto t).writePlain_stores k r v
    have hsend : Sends w w.afterWrite := afterWrite_sends w (by rw [hw.rst]; exact hsoft)
    obtain ⟨hv, hmem, htiles, -, -, hring', -⟩ := writePlain_then_sends v hrow hacc hsend
    refine ⟨w.afterWrite, ?_, hv, ?_, hmem, htiles⟩
    · refine (execLinearMapWrite_of_serve t offset data sets hserve).trans ?_
      rw [bar0Write_of_rights hoff hal hlen hk hrights hrow hb, hplain,
        linearWrite_plain hrights hrow hfixed hdec hall hacc, pollRing_of_ringServed (hring' hring htail)]
    · have hne : Obj.droppedWrites ≠ k := ne_of_isParameter (isParameter_of_row hrow hacc) (by decide)
      exact (hsend.num (by decide) (ne_eventsDropped (by decide))).trans (hw.num
        (List.not_mem_cons_of_ne_of_not_mem hne (by decide)) (by decide))
  · intro s t offset data sets k e hserve hsoft hring hal hoff hlen hk hrights
    refine (execLinearMapWrite_of_serve t offset data sets hserve).trans ?_
    rw [bar0Write_of_rightsErr hoff hal hlen hk hrights]
    have hdrop := (dropLinear_changes k e (s.upto t)).stores
    have hsoft' : ((s.upto t).dropLinear k e).assertSoft = (s.upto t).dropLinear k e := by
      rw [State.assertSoft, hdrop.rst, State.upto_rst, hsoft]
    rw [State.afterWrite, hsoft', pollRing_of_ringServed]
    · rfl
    · exact (State.flushHeld_sends _).ringServed (hdrop.ringServed (by decide) (by decide) hring)

end Sys2Proof.Machine

/-! PROOFS. Commit groups: O11. -/

namespace Sys2Proof.Machine

/-! ## Groups that open, stage and close (R57, R58, R61) -/

namespace State

@[simp] theorem group_setGroup (id : Nat) (g : Group) (s : State) : (s.setGroup id g).group id = some g :=
  Tab.find?_put_self _ _ _

theorem group_closeGroup (id : Nat) (s : State) (h : Tab.sorted s.dict.groups = true) : (s.closeGroup id).group id = none :=
  Tab.find?_del_self _ _ h

theorem setGroup_keepsBlock (id : Nat) (g : Group) (s : State) : KeepsBlock s (s.setGroup id g) := rfl
theorem setGroup_keepsParameters (id : Nat) (g : Group) (s : State) : KeepsParameters s (s.setGroup id g) := fun _ _ _ _ => rfl
theorem closeGroup_keepsBlock (id : Nat) (s : State) : KeepsBlock s (s.closeGroup id) := rfl
theorem closeGroup_keepsParameters (id : Nat) (s : State) : KeepsParameters s (s.closeGroup id) := fun _ _ _ _ => rfl

/-- No check of a write looks at the groups. -/
theorem firstBad_closeGroup (id' id : Nat) (l : List (Nat × List Byte)) (s : State) :
    (s.closeGroup id').firstBad id l = s.firstBad id l := rfl

theorem groupErr_of_notOwner {s : State} {id : Nat} (h : s.num Obj.owner ≠ id) (ha : s.dict.aborted.find? id = none) :
    s.groupErr id = some (Err.notOwner, 0) := by simp [groupErr, ha, h]

end State

open State

/-! ## What a commit applies (R59, R60) -/

/-- A staged write of a parameter whose chapter says no more of it, its bytes a value of its type. -/
def StagedPlain (e : Nat × List Byte) : Prop :=
  handlerOf e.1 = Handler.plain ∧ ∃ r v, rowOf e.1 = some r ∧ (r.acc = .rw ∨ r.acc = .rwp) ∧ decodeVal r.ty e.2 = some v

theorem StagedPlain.isParameter {e : Nat × List Byte} (h : StagedPlain e) : isParameter e.1 = true := by
  obtain ⟨-, r, -, hrow, hacc, -⟩ := h
  exact isParameter_of_row hrow hacc

theorem StagedPlain.not_isCommand {e : Nat × List Byte} (h : StagedPlain e) : isCommand e.1 = false := by
  obtain ⟨-, r, -, hrow, hacc, -⟩ := h
  rcases hacc with hacc | hacc <;> simp [isCommand, hrow, hacc]

/-- Every staged value stands where no other is staged for its subentry. -/
def HoldsStaged (l : List (Nat × List Byte)) (u : State) : Prop :=
  ∀ e ∈ l, ∀ r v, rowOf e.1 = some r → decodeVal r.ty e.2 = some v → u.val e.1 = v

theorem applyStaged_plain (l : List (Nat × List Byte)) (sets : Nat) (s : State) (hl : ∀ e ∈ l, StagedPlain e)
    (hnd : (l.map (·.1)).Nodup) :
    ∃ u, applyStaged sets l s = .ok u ∧ ChangesOnly (l.map (·.1)) s u ∧ HoldsStaged l u := by
  induction l generalizing s sets with
  | nil => exact ⟨s, rfl, ⟨rfl, KeepsObjects.refl _ _⟩, by simp [HoldsStaged]⟩
  | cons e l ih =>
    obtain ⟨k, b⟩ := e
    have he := hl _ List.mem_cons_self
    obtain ⟨hplain, r, v, hrow, hacc, hdec⟩ := id he
    simp only [List.map_cons, List.nodup_cons] at hnd
    obtain ⟨u, hu, hch, hvals⟩ := ih (if r.acc = .w1c then 0 else sets) (s.setVal k v)
      (fun e he => hl e (List.mem_cons_of_mem _ he)) hnd.2
    refine ⟨u, ?_, ((setVal_changes k v s).mono (by simp)).trans (hch.mono (by simp)), ?_⟩
    · simp only at hplain hrow
      simp only [applyStaged, hrow, hdec, hplain, Handler.plain, applyVal_parameter k r v sets s hacc, hu]
    · rw [HoldsStaged, List.forall_mem_cons]
      refine ⟨fun r' v' hrow' hdec' => ?_, hvals⟩
      obtain rfl : r = r' := Option.some.inj (hrow.symm.trans hrow')
      obtain rfl : v = v' := Option.some.inj (hdec.symm.trans hdec')
      have hdropped : ∀ m, m < 256 → k ≠ mrKey Obj.eventsDropped m := fun m hm =>
        (ne_of_isParameter he.isParameter (isParameter_eventsDropped m hm)).symm
      rw [hch.2 k hnd.1 hdropped, val_setVal_self]

/-- A subentry that is not staged does not change as the group is applied. -/
theorem not_mem_staged {l : List (Nat × List Byte)} {k : Nat} (hl : ∀ e ∈ l, k ≠ e.1) (hq : k ∉ queueKeys) :
    k ∉ l.map (·.1) ++ queueKeys := by
  rw [List.mem_append, not_or]
  refine ⟨fun hmem => ?_, hq⟩
  obtain ⟨e, he, hek⟩ := List.mem_map.1 hmem
  exact hl e he hek.symm

theorem persistGroup_stores (l : List (Nat × List Byte)) (s : State) : Stores queueKeys s (s.persistGroup l) := by
  unfold persistGroup
  dsimp only
  split
  · exact Stores.refl _ _
  · exact queueRecord_stores _ s

theorem applyGroup_plain (l : List (Nat × List Byte)) (sets : Nat) (s : State) (hl : ∀ e ∈ l, StagedPlain e)
    (hnd : (l.map (·.1)).Nodup) :
    ∃ u, s.applyGroup l sets = .ok u ∧ Stores (l.map (·.1) ++ queueKeys) s u ∧ HoldsStaged l u := by
  obtain ⟨u, hu, hch, hvals⟩ := applyStaged_plain l sets s hl hnd
  have hparams : (l.filter fun e => !isCommand e.1) = l :=
    List.filter_eq_self.2 fun e he => by simp [(hl e he).not_isCommand]
  have hcommands : (l.filter fun e => isCommand e.1) = [] :=
    List.filter_eq_nil_iff.2 fun e he => by simp [(hl e he).not_isCommand]
  have hp := persistGroup_stores l u
  refine ⟨u.persistGroup l, ?_, (hch.stores.mono (by simp)).trans (hp.mono (by simp)), fun e he r v hrow hdec => ?_⟩
  · rw [applyGroup, hparams, hcommands, hu]
    rfl
  · rw [hp.2.parameter (by decide) (hl e he).isParameter, hvals e he r v hrow hdec]

/-- With no write that fails its checks, every staged value is one of its type. -/
theorem stagedPlain_of_firstBad {s : State} {id : Nat} {l : List (Nat × List Byte)} (h : s.firstBad id l = none)
    (hl : ∀ e ∈ l, e.1 ≠ hostRec Obj.reqTail ∧ handlerOf e.1 = Handler.plain ∧
      ∃ r, rowOf e.1 = some r ∧ (r.acc = .rw ∨ r.acc = .rwp)) : ∀ e ∈ l, StagedPlain e := by
  intro e he
  obtain ⟨-, hplain, r, hrow, hacc⟩ := hl e he
  have hok := List.findSome?_eq_none_iff.1 h e he
  dsimp only at hok
  split at hok
  case h_1 => cases hok
  case h_2 rv hrv =>
    obtain ⟨r', v⟩ := rv
    obtain ⟨-, hrow', hdec, -⟩ := checkVal_ok hrv
    obtain rfl : r = r' := Option.some.inj (hrow.symm.trans hrow')
    exact ⟨hplain, r, v, hrow, hacc, hdec⟩

/-! ## GROUP_COMMIT, case by case (R59) -/

/-- A commit that passes its checks and whose chapters refuse nothing. -/
theorem groupCommit_applied {s u : State} {m : Master} (tr : Transport) (seq : Nat) {sets : Nat} {g : Group}
    (herr : s.groupErr (masterId m) = none) (hg : s.group (masterId m) = some g) (hf : g.failed = none)
    (hb : s.firstBad (masterId m) g.staged = none)
    (hu : (s.closeGroup (masterId m)).applyGroup g.staged sets = .ok u) :
    s.groupCommit m tr seq sets = (u.answer m tr Oap.groupCommit 0 seq 0 []).afterWrite := by
  simp only [groupCommit, herr, hg, hf, firstBad_closeGroup, hb, hu]

/-- A commit with a write that failed as it was staged, or fails now. -/
theorem groupCommit_failed {s : State} {m : Master} (tr : Transport) (seq sets : Nat) {g : Group} {e k : Nat}
    (herr : s.groupErr (masterId m) = none) (hg : s.group (masterId m) = some g)
    (hf : g.failed = some (e, k) ∨ (g.failed = none ∧ s.firstBad (masterId m) g.staged = some (e, k))) :
    s.groupCommit m tr seq sets = (s.closeGroup (masterId m)).answerErr m tr seq k e 0 := by
  rcases hf with hf | ⟨hf, hb⟩
  · simp only [groupCommit, herr, hg, hf]
  · simp only [groupCommit, herr, hg, hf, firstBad_closeGroup, hb]

theorem at_groupErr_group {s : State} {m : Master} {tr : Transport} {t : Nat} {g : Group}
    (herr : s.groupErr (masterId m) = none) (hg : s.group (masterId m) = some g) :
    (At s m tr t).groupErr (masterId m) = none ∧ (At s m tr t).group (masterId m) = some g := by
  rw [at_groupErr, at_group]
  exact ⟨herr, hg⟩

/-- After a group message, whatever it did to its group: what sending its answer leaves. -/
theorem groupMessage_keeps {s a b u : State} {m : Master} {tr : Transport} {t : Nat} (ha : a = At s m tr t)
    (hb : KeepsBlock a b ∧ KeepsParameters a b) (hu : Sends b u) : KeepsBlock s u ∧ KeepsParameters s u := by
  subst ha
  exact ⟨((at_keepsBlock s m tr t).trans hb.1).trans hu.keepsBlock,
    ((at_keepsParameters s m tr t).trans hb.2).trans hu.keepsParameters⟩

section Clauses

variable {s : State} {m : Master} {tr : Transport} {t : Nat} {seq : BitVec 16}

theorem exec_groupBegin_taken (h : Taken s m tr) :
    exec (.groupBegin m tr t seq) s = .next ((At s m tr t).groupBegin m tr seq.toNat) :=
  congrArg Host.Outcome.next (fullRequest_taken h _ _ _ _)

theorem exec_groupStage_taken {o : ObjId} {val : List Byte} (h : Taken s m tr) :
    exec (.groupStage m tr t seq o val) s = .next ((At s m tr t).groupStage m tr seq.toNat (keyOf o) val) :=
  congrArg Host.Outcome.next (fullRequest_taken h _ _ _ _)

theorem exec_groupCommit_taken {sets : U64} (h : Taken s m tr) :
    exec (.groupCommit m tr t seq sets) s = .next ((At s m tr t).groupCommit m tr seq.toNat sets.toNat).pollRing :=
  congrArg (fun x : State => Host.Outcome.next x.pollRing) (fullRequest_taken h _ _ _ _)

theorem exec_groupAbort_taken (h : Taken s m tr) :
    exec (.groupAbort m tr t seq) s = .next ((At s m tr t).groupAbort m tr seq.toNat) :=
  congrArg Host.Outcome.next (fullRequest_taken h _ _ _ _)

theorem execGroupBegin_owner (htaken : Taken s m tr) (howner : s.num Obj.owner = masterId m)
    (hnone : s.group (masterId m) = none) : Answers (exec (.groupBegin m tr t seq) s) fun u =>
      u.group (masterId m) = some ⟨max s.now t, [], none⟩ ∧ KeepsBlock s u := by
  let a := (At s m tr t).setGroup (masterId m) ⟨(At s m tr t).now, [], none⟩
  let b : State := { a with dict := { a.dict with aborted := a.dict.aborted.del (masterId m) } }
  have hu : Sends b (b.answer m tr Oap.groupBegin 0 seq.toNat 0 []) := b.answer_sends _ _ _ _ _ _ _
  refine ⟨_, exec_groupBegin_taken htaken, ?_⟩
  have hrun : (At s m tr t).groupBegin m tr seq.toNat = b.answer m tr Oap.groupBegin 0 seq.toNat 0 [] := by
    rw [groupBegin, at_num, at_group, if_neg (by simp [howner]), if_neg (by simp [hnone])]
  rw [hrun]
  refine ⟨?_, ((at_keepsBlock s m tr t).trans (u := b) rfl).trans hu.keepsBlock⟩
  rw [hu.group, ← at_now s m tr t]
  exact group_setGroup _ _ _

theorem execGroupBegin_other (htaken : Taken s m tr) (howner : s.num Obj.owner ≠ masterId m) :
    Answers (exec (.groupBegin m tr t seq) s) fun u => u.group (masterId m) = s.group (masterId m) ∧ KeepsBlock s u := by
  refine ⟨_, exec_groupBegin_taken htaken, ?_⟩
  have hu := (At s m tr t).answerErr_sends m tr seq.toNat 0 Err.notOwner 0
  rw [groupBegin, at_num, if_pos howner]
  exact ⟨by rw [hu.group, at_group], (at_keepsBlock s m tr t).trans hu.keepsBlock⟩

theorem execGroupStage_fits {o : ObjId} {val : List Byte} {g : Group} {r : Row} {v : Val} (htaken : Taken s m tr)
    (herr : s.groupErr (masterId m) = none) (hg : s.group (masterId m) = some g)
    (hval : (At s m tr t).checkVal (masterId m) (keyOf o) val = .ok (r, v)) (hfits : (g.stage (keyOf o) val).fits = true) :
    Answers (exec (.groupStage m tr t seq o val) s) fun u =>
      u.group (masterId m) = some (g.stage (keyOf o) val) ∧ KeepsBlock s u ∧ KeepsParameters s u := by
  let b := (At s m tr t).setGroup (masterId m) (g.stage (keyOf o) val)
  have hu : Sends b (b.answer m tr Oap.groupStage 0 seq.toNat (keyOf o) []) := b.answer_sends _ _ _ _ _ _ _
  refine ⟨_, exec_groupStage_taken htaken, ?_⟩
  have hrun : (At s m tr t).groupStage m tr seq.toNat (keyOf o) val = b.answer m tr Oap.groupStage 0 seq.toNat (keyOf o) [] := by
    simp only [groupStage, at_groupErr, at_group, herr, hg, hval, hfits, if_true]
    rfl
  rw [hrun]
  exact ⟨by rw [hu.group, group_setGroup],
    groupMessage_keeps rfl ⟨setGroup_keepsBlock _ _ _, setGroup_keepsParameters _ _ _⟩ hu⟩

theorem execGroupCommit_applied {sets : U64} {g : Group} {u : State} (htaken : Taken s m tr)
    (herr : s.groupErr (masterId m) = none) (hg : s.group (masterId m) = some g) (hf : g.failed = none)
    (hb : (At s m tr t).firstBad (masterId m) g.staged = none)
    (hu : ((At s m tr t).closeGroup (masterId m)).applyGroup g.staged sets.toNat = .ok u) :
    exec (.groupCommit m tr t seq sets) s =
      .next ((u.answer m tr Oap.groupCommit 0 seq.toNat 0 []).afterWrite).pollRing := by
  obtain ⟨herr', hg'⟩ := at_groupErr_group (tr := tr) (t := t) herr hg
  rw [exec_groupCommit_taken htaken, groupCommit_applied tr seq.toNat herr' hg' hf hb hu]

theorem execGroupCommit_plain {sets : U64} {g : Group} (htaken : Taken s m tr) (hsoft : s.rst.soft = none)
    (hring : RingServed s) (herr : s.groupErr (masterId m) = none) (hg : s.group (masterId m) = some g) (hf : g.failed = none)
    (hb : (At s m tr t).firstBad (masterId m) g.staged = none) (hnd : (g.staged.map (·.1)).Nodup)
    (hl : ∀ e ∈ g.staged, e.1 ≠ hostRec Obj.reqTail ∧ handlerOf e.1 = Handler.plain ∧
      ∃ r, rowOf e.1 = some r ∧ (r.acc = .rw ∨ r.acc = .rwp))
    (hsorted : Tab.sorted s.dict.groups = true) :
    Answers (exec (.groupCommit m tr t seq sets) s) fun u =>
      u.group (masterId m) = none ∧
      (∀ e ∈ g.staged, ∀ r v, rowOf e.1 = some r → decodeVal r.ty e.2 = some v → u.val e.1 = v) ∧
      u.mem = s.mem ∧ u.tiles = s.tiles := by
  have hplain := stagedPlain_of_firstBad hb hl
  obtain ⟨w, hw, hstores, hvals⟩ := applyGroup_plain g.staged sets.toNat ((At s m tr t).closeGroup (masterId m)) hplain hnd
  let a := w.answer m tr Oap.groupCommit 0 seq.toNat 0 []
  have ha : Sends w a := w.answer_sends _ _ _ _ _ _ _
  have hsoft' : a.rst.soft = none := by
    rw [ha.rst, hstores.rst]
    exact (congrArg RstState.soft (at_rst s m tr t)).trans hsoft
  have hu : Sends w a.afterWrite := ha.trans (afterWrite_sends a hsoft')
  have hring' : RingServed a.afterWrite := by
    refine hu.ringServed (hstores.ringServed ?_ ?_ (ringServed_at m tr t hring))
    · exact not_mem_staged (fun e he => ne_of_isParameter (hplain e he).isParameter (by decide)) (by decide)
    · exact not_mem_staged (fun e he => (hl e he).1.symm) (by decide)
  refine ⟨a.afterWrite, ?_, ?_, fun e he r v hrow hdec => ?_, ?_, ?_⟩
  · rw [execGroupCommit_applied htaken herr hg hf hb hw, pollRing_of_ringServed hring']
  · rw [hu.group, hstores.group]
    exact group_closeGroup _ _ (by rw [at_groups]; exact hsorted)
  · rw [hu.2.parameter (by decide) (hplain e he).isParameter, hvals e he r v hrow hdec]
  · rw [hu.mem, hstores.mem]
    exact at_mem s m tr t
  · rw [hu.tiles, hstores.tiles]
    exact at_tiles s m tr t

theorem execGroupCommit_failed {sets : U64} {g : Group} {e k : Nat} (htaken : Taken s m tr) (hring : RingServed s)
    (hsorted : Tab.sorted s.dict.groups = true) (herr : s.groupErr (masterId m) = none)
    (hg : s.group (masterId m) = some g)
    (hf : g.failed = some (e, k) ∨ (g.failed = none ∧ (At s m tr t).firstBad (masterId m) g.staged = some (e, k))) :
    exec (.groupCommit m tr t seq sets) s =
        .next (((At s m tr t).closeGroup (masterId m)).answerErr m tr seq.toNat k e 0) ∧
      Answers (exec (.groupCommit m tr t seq sets) s) fun u =>
        u.group (masterId m) = none ∧ KeepsBlock s u ∧ KeepsParameters s u := by
  let b := (At s m tr t).closeGroup (masterId m)
  have hu : Sends b (b.answerErr m tr seq.toNat k e 0) := b.answerErr_sends _ _ _ _ _ _
  have hring' : RingServed b := ringServed_at m tr t hring
  obtain ⟨herr', hg'⟩ := at_groupErr_group (tr := tr) (t := t) herr hg
  have hrun : exec (.groupCommit m tr t seq sets) s = .next (b.answerErr m tr seq.toNat k e 0) := by
    rw [exec_groupCommit_taken htaken, groupCommit_failed tr seq.toNat sets.toNat herr' hg' hf]
    exact congrArg _ (pollRing_of_ringServed (hu.ringServed hring'))
  refine ⟨hrun, _, hrun, ?_, groupMessage_keeps rfl ⟨closeGroup_keepsBlock _ _, closeGroup_keepsParameters _ _⟩ hu⟩
  rw [hu.group]
  exact group_closeGroup _ _ (by rw [at_groups]; exact hsorted)

theorem execGroup_notOwner {o : ObjId} {val : List Byte} {sets : U64} (htaken : Taken s m tr) (hring : RingServed s)
    (howner : s.num Obj.owner ≠ masterId m) (haborted : s.dict.aborted.find? (masterId m) = none) :
    exec (.groupStage m tr t seq o val) s = .next ((At s m tr t).answerErr m tr seq.toNat (keyOf o) Err.notOwner 0) ∧
    exec (.groupCommit m tr t seq sets) s = .next ((At s m tr t).answerErr m tr seq.toNat 0 Err.notOwner 0) ∧
    exec (.groupAbort m tr t seq) s = .next ((At s m tr t).answerErr m tr seq.toNat 0 Err.notOwner 0) := by
  have herr : (At s m tr t).groupErr (masterId m) = some (Err.notOwner, 0) := by
    rw [at_groupErr]
    exact groupErr_of_notOwner howner haborted
  have hring' := ringServed_at m tr t hring
  rw [exec_groupStage_taken htaken, exec_groupCommit_taken htaken, exec_groupAbort_taken htaken]
  refine ⟨?_, ?_, ?_⟩
  · simp only [groupStage, herr]
  · simp only [groupCommit, herr]
    exact congrArg _ (pollRing_of_ringServed ((answerErr_sends _ _ _ _ _ _ _).ringServed hring'))
  · rw [groupAbort, at_num, if_pos howner]

theorem execGroupAbort_owner {g : Group} (htaken : Taken s m tr) (howner : s.num Obj.owner = masterId m)
    (hg : s.group (masterId m) = some g) (hsorted : Tab.sorted s.dict.groups = true) :
    Answers (exec (.groupAbort m tr t seq) s) fun u =>
      u.group (masterId m) = none ∧ KeepsBlock s u ∧ KeepsParameters s u := by
  let b := (At s m tr t).closeGroup (masterId m)
  have hu : Sends b (b.answer m tr Oap.groupAbort 0 seq.toNat 0 []) := b.answer_sends _ _ _ _ _ _ _
  refine ⟨_, exec_groupAbort_taken htaken, ?_⟩
  rw [groupAbort, at_num, at_group, if_neg (by simp [howner]), if_neg (by simp [hg])]
  refine ⟨?_, groupMessage_keeps rfl ⟨closeGroup_keepsBlock _ _, closeGroup_keepsParameters _ _⟩ hu⟩
  rw [hu.group]
  exact group_closeGroup _ _ (by rw [at_groups]; exact hsorted)

theorem execGroupTimeout_open {g : Group} (hg : s.group (masterId m) = some g) (hsorted : Tab.sorted s.dict.groups = true) :
    Answers (exec (.groupTimeout m) s) fun u =>
      u.group (masterId m) = none ∧ u.dict.aborted.find? (masterId m) = some 1 ∧
      u = { s with now := max s.now (g.openedAt + 10000000000), dict := u.dict } := by
  have hg' : (s.upto (g.openedAt + groupLife)).group (masterId m) = some g := hg
  refine ⟨(s.upto (g.openedAt + groupLife)).abortGroup (masterId m) 1, ?_, ?_, ?_, ?_⟩
  · show execGroupTimeout m s = _
    simp only [execGroupTimeout, hg]
  · simp only [abortGroup, hg']
    exact group_closeGroup (masterId m) s hsorted
  · simp only [abortGroup, hg']
    exact Tab.find?_put_self _ _ _
  · simp only [abortGroup, hg']
    rfl

end Clauses

/-- Settles O11: a group message changes its master's group in the state of its instant and then only sends; a commit of
plain parameters stores each value once, since no subentry is staged twice. -/
theorem groupsAreAtomic : Obligations.GroupsAreAtomic :=
  ⟨fun _ _ _ _ _ => execGroupBegin_owner, fun _ _ _ _ _ => execGroupBegin_other,
    fun _ _ _ _ _ _ _ _ _ _ => execGroupStage_fits, fun _ _ _ _ _ _ _ => execGroupCommit_plain,
    fun _ _ _ _ _ _ _ _ => execGroupCommit_applied, fun _ _ _ _ _ _ _ _ _ => execGroupCommit_failed,
    fun _ _ _ _ _ _ _ _ => execGroup_notOwner, fun _ _ _ _ _ _ => execGroupAbort_owner,
    fun _ _ _ => execGroupTimeout_open⟩

end Sys2Proof.Machine

/-! PROOFS. The persistent store: O14. -/

namespace Sys2Proof.Machine

/-! ## Records in the flash (R68–R71) -/

theorem roundUp_ge (n : Nat) {m : Nat} (hm : 0 < m) : n ≤ roundUp n m := by
  have := Nat.div_add_mod (n + m - 1) m
  have := Nat.mod_lt (n + m - 1) hm
  unfold roundUp
  rw [Nat.mul_comm]
  omega

theorem padTo_length (n : Nat) (l : List Byte) (hn : 0 < n) : (padTo n l).length = roundUp l.length n := by
  have := roundUp_ge l.length hn
  simp only [padTo, List.length_append, List.length_replicate]
  omega

/-- A record takes no more than its share of the area. -/
theorem recBytes_length_le (seq : Nat) (r : PendRec) : (recBytes seq r).length ≤ recSize r := by
  have hhead : (recHead seq r.idx r.sub r.flags r.pay).length = 32 + roundUp r.pay.length 4 := by
    rw [recHead, padTo_length _ _ (by decide)]
    simp only [List.length_append, leBytes_length, List.length_replicate, roundUp]
    omega
  have := roundUp_ge (32 + roundUp r.pay.length 4 + 8) (m := 16) (by decide)
  simp only [recBytes, List.length_append, leBytes_length, hhead, recSize]
  omega

namespace State

/-- Erased flash takes the bytes as they are. -/
theorem flashByte_program (a i : Nat) (l : List Byte) (s : State) (hwf : Memory.wf 0xFF s.store.flash = true)
    (hl : ∀ j, j < l.length → s.flashByte (a + j) = 0xFF) (hi : i < l.length) : (s.program a l).flashByte (a + i) = l[i] := by
  have hlen : ((l.zip (List.range l.length)).map fun x => x.1 &&& s.flashByte (a + x.2)).length = l.length := by simp
  refine (Mem.read_writes_in 0xFF _ s.store.flash a i hwf (by rw [hlen]; exact hi)).trans ?_
  simp only [List.getElem_map, List.getElem_zip, List.getElem_range, hl i hi]
  exact BitVec.and_allOnes

/-- An erased range reads ones. -/
theorem flashByte_erase (a n b : Nat) (s : State) (hb : a ≤ b) (hb' : b < a + n) : (s.erase a n).flashByte b = 0xFF := by
  have key : ∀ l : List Host.Cell, Tab.find? (l.filter fun c => c.1 < a || a + n ≤ c.1) b = none := by
    intro l
    induction l with
    | nil => rfl
    | cons c l ih =>
      rw [List.filter_cons]
      split
      case isTrue hc =>
        obtain ⟨k, v⟩ := c
        have hne : ¬ b = k := by simp at hc; omega
        rw [Tab.find?, ih, if_neg hne, ite_self]
      case isFalse => exact ih
  rw [flashByte, Mem.read, erase, key]
  rfl

/-! ## The steps of the store's work -/

/-- The objects of the store that follow the write position and the records written. -/
def writeKeys : List Nat := [Obj.freeBytes, Obj.lastSequence]

/-- All objects of the store that its own work changes. -/
def storeKeys : List Nat := queueKeys ++ writeKeys ++ [Obj.storeFlags, Obj.activeArea]

/-- A change within the store alone. -/
theorem store_stores {l : List Nat} (x : StoreState) (s : State) : Stores l s { s with store := x } := ⟨rfl, fun _ _ _ => rfl⟩

theorem setWritePos_stores (p : Nat) (s : State) : Stores writeKeys s (s.setWritePos p) :=
  storeSetNum_stores _ (by simp [writeKeys]) _ s

@[simp] theorem num_withStore (x : StoreState) (k : Nat) (s : State) : ({ s with store := x } : State).num k = s.num k := rfl
@[simp] theorem setWritePos_store (p : Nat) (s : State) : (s.setWritePos p).store = { s.store with writePos := p } := rfl
@[simp] theorem setQueue_store (q : List PendRec) (s : State) : (s.setQueue q).store = { s.store with queue := q } := rfl
@[simp] theorem setTries_store (n : Nat) (s : State) : (s.setTries n).store = { s.store with tries := n } := rfl

theorem program_store (a : Nat) (l : List Byte) (s : State) :
    (s.program a l).store = { s.store with flash := (s.program a l).store.flash } := rfl

theorem program_stores (a : Nat) (l : List Byte) (s : State) : Stores writeKeys s (s.program a l) := store_stores _ _

theorem appendRec_store (r : PendRec) (s : State) : (s.appendRec r).store =
    { s.store with
      flash := (s.program (areaBase (s.num Obj.activeArea) + s.store.writePos) (recBytes s.store.nextSeq r)).store.flash
      writePos := s.store.writePos + recSize r
      nextSeq := s.store.nextSeq + 1 } := by
  simp only [appendRec, setNum_store, setWritePos_store]
  rw [program_store]

theorem appendRec_stores (r : PendRec) (s : State) : Stores writeKeys s (s.appendRec r) := by
  unfold appendRec
  dsimp only
  exact ((program_stores _ _ s).trans (setWritePos_stores _ _)).trans (storeSetNum_stores _ (by simp [writeKeys]) _ _)

theorem copyInto_cons (r : PendRec) (l : List PendRec) (s : State) : s.copyInto (r :: l) = (s.appendRec r).copyInto l := by
  simp only [copyInto, List.foldl_cons]

theorem copyInto_stores (l : List PendRec) (s : State) : Stores writeKeys s (s.copyInto l) := by
  induction l generalizing s with
  | nil => exact Stores.refl _ _
  | cons r l ih =>
    rw [copyInto_cons]
    exact (appendRec_stores r s).trans (ih _)

theorem copyInto_queue (l : List PendRec) (s : State) : (s.copyInto l).store.queue = s.store.queue := by
  induction l generalizing s with
  | nil => rfl
  | cons r l ih => rw [copyInto_cons, ih, appendRec_store]

theorem setState_num_storeState (v : Nat) (s : State) : (s.setState Obj.storeState v).num Obj.storeState = v :=
  num_setState_self _ _ _ (quiet_of_mod (by decide))

/-- Where neither reason for a compaction is left, none has started. -/
theorem checkFill_of_calm {s : State} (ho : s.checkFill.overThreshold = false) (hw : s.checkFill.headWaits = false) :
    s.checkFill = s := by
  obtain ⟨c, hc⟩ := checkFill_store s
  have ho' : s.overThreshold = false := by
    rw [← ho, overThreshold, overThreshold, hc, (checkFill_stores s).num (by decide) (by decide)]
  have hw' : s.headWaits = false := by
    rw [← hw, headWaits, headWaits, roomLeft, roomLeft, hc]
  rw [checkFill, ho', hw']
  simp

/-! ## RECORD_COMMIT_DONE (R71, R72) -/

/-- The record in front of the queue is programmed and leaves it. -/
def recordDone (r : PendRec) (s : State) : State :=
  let a := (s.appendRec r).setTries 0
  let q := a.setQueue a.store.queue.tail
  { q with store := { q.store with syncs := q.store.syncs.map (· - 1) } }

theorem writeHead_zero (r : PendRec) (s : State) (h : recSize r ≤ s.roomLeft) :
    s.writeHead r 0 = (s.recordDone r).checkFill := by
  rw [writeHead, if_neg (Nat.not_lt.2 h)]
  rfl

theorem recordDone_store (r : PendRec) (s : State) : (s.recordDone r).store =
    { (s.appendRec r).store with
      tries := 0
      queue := (s.appendRec r).store.queue.tail
      syncs := (s.appendRec r).store.syncs.map (· - 1) } := by
  simp only [recordDone, setQueue_store, setTries_store]

/-- After the record is programmed, only the queue and what counts it change. -/
theorem recordDone_stores_appendRec (r : PendRec) (s : State) : Stores queueKeys (s.appendRec r) (s.recordDone r) := by
  unfold recordDone
  dsimp only
  exact ((store_stores _ _).trans (setQueue_stores _ ((s.appendRec r).setTries 0))).trans (store_stores _ _)

theorem recordDone_num_pendingRecords (r : PendRec) (s : State) :
    (s.recordDone r).num Obj.pendingRecords = s.store.queue.tail.length := by
  unfold recordDone
  dsimp only
  rw [num_withStore, setQueue, num_setNum_self, setTries_store, appendRec_store]

theorem appendRec_num_lastSequence (r : PendRec) (s : State) : (s.appendRec r).num Obj.lastSequence = s.store.nextSeq := by
  unfold appendRec
  dsimp only
  rw [num_setNum_self]

theorem execRecordCommitDone_done {s : State} {r : PendRec} {rest : List PendRec} (hq : s.store.queue = r :: rest)
    (hst : s.num Obj.storeState ≠ 3) (hload : s.rst.storeLoaded = true) (hroom : recSize r ≤ s.roomLeft)
    (hwf : Memory.wf 0xFF s.store.flash = true)
    (herased : ∀ i, i < recSize r → s.flashByte (areaBase (s.num Obj.activeArea) + s.store.writePos + i) = 0xFF) :
    Answers (exec (.recordCommitDone 0) s) fun u =>
      u.store.queue = rest ∧ u.num Obj.pendingRecords = rest.length ∧ u.num Obj.lastSequence = s.store.nextSeq ∧
      u.store.nextSeq = s.store.nextSeq + 1 ∧ u.store.writePos = s.store.writePos + recSize r ∧
      (∀ i (h : i < (recBytes s.store.nextSeq r).length),
        u.flashByte (areaBase (s.num Obj.activeArea) + s.store.writePos + i) = (recBytes s.store.nextSeq r)[i]) ∧
      u.mem = s.mem ∧ u.tiles = s.tiles := by
  have hrun : exec (.recordCommitDone 0) s = .next (s.recordDone r).checkFill := by
    show execRecordCommitDone 0 s = _
    simp only [execRecordCommitDone, hq, hst, hload]
    exact congrArg Host.Outcome.next (writeHead_zero r s hroom)
  have happ := appendRec_stores r s
  have hu := (recordDone_stores_appendRec r s).trans ((checkFill_stores (s.recordDone r)).mono (by simp [queueKeys]))
  obtain ⟨c, hc⟩ := checkFill_store (s.recordDone r)
  rw [recordDone_store, appendRec_store] at hc
  refine ⟨_, hrun, ?_, ?_, ?_, ?_, ?_, fun i hi => ?_, hu.mem.trans happ.mem, hu.tiles.trans happ.tiles⟩
  · rw [hc, hq]; rfl
  · rw [(checkFill_stores _).num (by decide) (by decide), recordDone_num_pendingRecords, hq]; rfl
  · rw [hu.num (by decide) (by decide), appendRec_num_lastSequence]
  · rw [hc]
  · rw [hc]
  · have hbyte := flashByte_program (areaBase (s.num Obj.activeArea) + s.store.writePos) i (recBytes s.store.nextSeq r) s hwf
      (fun j hj => herased j (Nat.lt_of_lt_of_le hj (recBytes_length_le _ _))) hi
    rw [flashByte] at hbyte ⊢
    rw [hc]
    dsimp only
    exact hbyte

/-- A failed attempt at the record in front of the queue: it takes its room, is flagged and counted. -/
def failedAttempt (r : PendRec) (s : State) : State :=
  ((s.tornRec r).setFlag Obj.storeFlags 1).setTries (s.store.tries + 1)

theorem writeHead_succ (r : PendRec) (n : Nat) (s : State) (h : recSize r ≤ s.roomLeft) :
    s.writeHead r (n + 1) = if 3 ≤ s.store.tries + 1 then (s.failedAttempt r).setState Obj.storeState 3
      else (s.failedAttempt r).checkFill.writeHead r n := by
  rw [writeHead, if_neg (Nat.not_lt.2 h)]
  rfl

/-- A torn record takes its room and nothing else of the store's own state. -/
theorem tornRec_store (r : PendRec) (s : State) : ∃ f, (s.tornRec r).store =
    { s.store with flash := f, writePos := s.store.writePos + recSize r } := by
  simp only [tornRec, freshBytes, setWritePos_store]
  rw [program_store]
  exact ⟨_, rfl⟩

theorem tornRec_mem (r : PendRec) (s : State) : (s.tornRec r).mem = s.mem := by
  simp only [tornRec, freshBytes, setWritePos, setNum_mem, program_mem]

theorem tornRec_tiles (r : PendRec) (s : State) : (s.tornRec r).tiles = s.tiles := by
  simp only [tornRec, freshBytes, setWritePos, setNum_tiles, program_tiles]

theorem failedAttempt_keeps (r : PendRec) (s : State) :
    (s.failedAttempt r).store.queue = s.store.queue ∧ (s.failedAttempt r).store.tries = s.store.tries + 1 ∧
      (s.failedAttempt r).store.writePos = s.store.writePos + recSize r ∧
      ((s.failedAttempt r).num Obj.storeFlags).testBit 0 = true ∧ (s.failedAttempt r).mem = s.mem ∧
      (s.failedAttempt r).tiles = s.tiles := by
  obtain ⟨f, hf⟩ := tornRec_store r s
  unfold failedAttempt
  rw [setTries_store, setFlag_store, hf]
  refine ⟨rfl, rfl, rfl, ?_, (setFlag_mem _ _ _).trans (tornRec_mem r s), (setFlag_tiles _ _ _).trans (tornRec_tiles r s)⟩
  refine (testBit_setFlag (s.tornRec r) Obj.storeFlags 1 0 (quiet_of_mod (by decide))).trans ?_
  rw [show Nat.testBit 1 0 = true from rfl, Bool.true_or]

/-- Attempts that fail until the third in all leave the record waiting and the store in Fault. -/
theorem writeHead_fails (r : PendRec) (n : Nat) (s : State) (htries : s.store.tries + (n + 1) = 3)
    (hroom : (n + 1) * recSize r ≤ s.roomLeft) :
    (s.writeHead r (n + 1)).num Obj.storeState = 3 ∧ (s.writeHead r (n + 1)).store.queue = s.store.queue ∧
      ((s.writeHead r (n + 1)).num Obj.storeFlags).testBit 0 = true ∧
      (s.writeHead r (n + 1)).store.writePos = s.store.writePos + (n + 1) * recSize r ∧
      (s.writeHead r (n + 1)).mem = s.mem ∧ (s.writeHead r (n + 1)).tiles = s.tiles := by
  induction n generalizing s with
  | zero =>
    obtain ⟨hqueue, -, hpos, hbit, hmem, htiles⟩ := failedAttempt_keeps r s
    have hst := setState_changes Obj.storeState 3 (s.failedAttempt r)
    rw [writeHead_succ r 0 s (by omega), if_pos (by omega)]
    refine ⟨setState_num_storeState _ _, by rw [setState_store, hqueue], ?_, by rw [setState_store, hpos]; omega,
      hst.stores.mem.trans hmem, hst.stores.tiles.trans htiles⟩
    rw [hst.stores.num (by decide) (by decide), hbit]
  | succ n ih =>
    obtain ⟨hqueue, htr, hpos, -, hmem, htiles⟩ := failedAttempt_keeps r s
    obtain ⟨c, hc⟩ := checkFill_store (s.failedAttempt r)
    have hfill := checkFill_stores (s.failedAttempt r)
    have hmul : (n + 1 + 1) * recSize r = (n + 1) * recSize r + recSize r := Nat.succ_mul _ _
    have hpos' : (s.failedAttempt r).checkFill.store.writePos = s.store.writePos + recSize r := by rw [hc]; exact hpos
    unfold roomLeft at hroom
    rw [writeHead_succ r (n + 1) s (by unfold roomLeft; omega), if_neg (by omega)]
    obtain ⟨h₁, h₂, h₃, h₄, h₅, h₆⟩ := ih (s.failedAttempt r).checkFill (by rw [hc]; simp only [htr]; omega)
      (by unfold roomLeft; omega)
    exact ⟨h₁, h₂.trans (by rw [hc]; exact hqueue), h₃, by omega, (h₅.trans hfill.mem).trans hmem,
      (h₆.trans hfill.tiles).trans htiles⟩

theorem execRecordCommitDone_fault {s : State} {r : PendRec} {rest : List PendRec} {n : Fin 4}
    (hq : s.store.queue = r :: rest) (hst : s.num Obj.storeState ≠ 3) (hload : s.rst.storeLoaded = true)
    (htries : s.store.tries ≤ 2) (hthree : s.store.tries + n.val = 3) (hroom : n.val * recSize r ≤ s.roomLeft) :
    Answers (exec (.recordCommitDone n) s) fun u =>
      u.num Obj.storeState = 3 ∧ u.store.queue = s.store.queue ∧ (u.num Obj.storeFlags).testBit 0 = true ∧
      u.store.writePos = s.store.writePos + n.val * recSize r ∧ u.mem = s.mem ∧ u.tiles = s.tiles := by
  obtain ⟨i, hi⟩ : ∃ i, n.val = i + 1 := ⟨n.val - 1, by omega⟩
  refine ⟨s.writeHead r n.val, ?_, ?_⟩
  · show execRecordCommitDone n s = _
    simp only [execRecordCommitDone, hq, hst, hload]
    rfl
  · rw [hi] at hthree hroom ⊢
    exact writeHead_fails r i s hthree hroom

/-! ## STORE_SYNC and FORGET_PERSISTED (R72, R78) -/

/-- A command object written through the linear map, its checks passed: what its chapter does. -/
theorem serveOwn_linear_command {s u : State} {t k : Nat} {b : List Byte} {r : Row} {v : Val} {h : Handler}
    (hserve : s.rst.serve = .full) (hrights : (s.upto t).rightsErr 1 k = none) (hrow : rowOf k = some r)
    (hfixed : r.ty.fixed = true) (hacc : r.acc = .wo) (hdec : decodeVal r.ty b = some v)
    (hall : (s.upto t).allowed r k v = true) (hdo : h v (s.upto t) = .ok u) : serveOwn ⟨.linear, t⟩ k b h s = u := by
  simp [serveOwn, hserve, linearWrite, hrights, hrow, hfixed, hdec, hall, doWrite, applyVal, hacc, hdo]

theorem execStoreSync_linear {s : State} {t : Nat} (hserve : s.rst.serve = .full)
    (hrights : (s.upto t).rightsErr 1 Obj.storeSync = none) :
    exec (.storeSync ⟨.linear, t⟩ [1]) s =
      .next { s.upto t with store := { s.store with syncs := s.store.syncs ++ [s.store.queue.length] } } := by
  have hrow : rowOf Obj.storeSync = some ⟨0x120101, 1, 1, 0, .u8, .wo, false, false, .num 0, .oneOf [1]⟩ := by rfl
  exact congrArg Host.Outcome.next (serveOwn_linear_command (v := .num 1) hserve hrights hrow rfl rfl rfl rfl rfl)

theorem execForgetPersisted_linear {s : State} {t : Nat} (hserve : s.rst.serve = .full)
    (hrights : (s.upto t).rightsErr 1 Obj.forgetPersisted = none) :
    exec (.forgetPersisted ⟨.linear, t⟩ [0xF0, 0xF0, 0, 0]) s =
      .next ((s.upto t).queueRecord (groupRec (rwpKeys.map fun k => (k, true, [])))) := by
  have hrow : rowOf Obj.forgetPersisted =
    some ⟨0x120102, 1, 1, 0, .u32, .wo, false, false, .num 0, .oneOf [0xF0F0]⟩ := by rfl
  exact congrArg Host.Outcome.next (serveOwn_linear_command (v := .num 0xF0F0) hserve hrights hrow rfl rfl rfl rfl rfl)

/-! ## COMPACTION_COMPLETE (R75, R76) -/

/-- The other area erased, active and empty: where a compaction copies to. -/
def otherArea (s : State) : State :=
  (((s.erase (areaBase (1 - s.num Obj.activeArea)) areaSize).setState Obj.storeState 1).setNum Obj.activeArea
    (1 - s.num Obj.activeArea)).setWritePos 0

/-- The records that a compaction copies. -/
def compactionCopies (s : State) : List PendRec :=
  ((s.erase (areaBase (1 - s.num Obj.activeArea)) areaSize).setState Obj.storeState 1).copies fun _ => true

/-- The winners stand in the other area, which is active. -/
def compacted (s : State) : State :=
  let c := s.otherArea.copyInto s.compactionCopies
  { c with store := { c.store with copying := false } }.setFlag Obj.storeFlags 4

theorem otherArea_stores (s : State) : Stores storeKeys s s.otherArea := by
  have h₁ : Stores storeKeys s (s.erase (areaBase (1 - s.num Obj.activeArea)) areaSize) := store_stores _ _
  have h₂ := h₁.trans ((setState_changes Obj.storeState 1 _).stores.mono (by simp [storeKeys, queueKeys]))
  have h₃ := h₂.trans ((setNum_changes Obj.activeArea (1 - s.num Obj.activeArea) _).stores.mono (by simp [storeKeys]))
  exact h₃.trans ((setWritePos_stores 0 _).mono (by simp [storeKeys]))

theorem otherArea_num_activeArea (s : State) : s.otherArea.num Obj.activeArea = 1 - s.num Obj.activeArea := by
  rw [otherArea, (setWritePos_stores 0 _).num (by decide) (by decide), num_setNum_self]

theorem otherArea_queue (s : State) : s.otherArea.store.queue = s.store.queue := by
  rw [otherArea, setWritePos_store, setNum_store, setState_store]
  rfl

/-- From the other area on, the copy writes records and the flag stands. -/
theorem compacted_stores_otherArea (s : State) : Stores (Obj.storeFlags :: writeKeys) s.otherArea s.compacted := by
  have h : Stores (Obj.storeFlags :: writeKeys) s.otherArea (s.otherArea.copyInto s.compactionCopies) :=
    (copyInto_stores _ _).mono (by simp)
  exact (h.trans (store_stores _ _)).trans ((setFlag_changes Obj.storeFlags 4 _).stores.mono (by simp))

theorem compacted_stores (s : State) : Stores storeKeys s s.compacted :=
  s.otherArea_stores.trans (s.compacted_stores_otherArea.mono (by simp [storeKeys]))

theorem compacted_num_activeArea (s : State) : s.compacted.num Obj.activeArea = 1 - s.num Obj.activeArea := by
  rw [s.compacted_stores_otherArea.num (by decide) (by decide), otherArea_num_activeArea]

theorem compacted_store (s : State) : s.compacted.store.queue = s.store.queue ∧ s.compacted.store.copying = false := by
  rw [compacted, setFlag_store]
  dsimp only
  rw [copyInto_queue, otherArea_queue]
  exact ⟨rfl, rfl⟩

theorem testBit_compacted (s : State) : (s.compacted.num Obj.storeFlags).testBit 2 = true := by
  rw [compacted, testBit_setFlag _ _ _ _ (quiet_of_mod (by decide))]
  rfl

/-- The old area erased, and the store Idle. -/
def eraseOld (old : Nat) (s : State) : State :=
  ((s.setState Obj.storeState 2).erase (areaBase old) areaSize).setState Obj.storeState 0

theorem erase_store (a n : Nat) (s : State) : (s.erase a n).store = { s.store with flash := (s.erase a n).store.flash } := rfl

theorem eraseOld_stores (old : Nat) (s : State) : Stores [Obj.storeState] s (s.eraseOld old) :=
  ((setState_changes _ _ s).stores.trans (store_stores _ _)).trans (setState_changes _ _ _).stores

theorem eraseOld_store (old : Nat) (s : State) : (s.eraseOld old).store =
    { s.store with flash := ((s.setState Obj.storeState 2).erase (areaBase old) areaSize).store.flash } := by
  rw [eraseOld, setState_store, erase_store, setState_store]

theorem eraseOld_num_storeState (old : Nat) (s : State) : (s.eraseOld old).num Obj.storeState = 0 :=
  setState_num_storeState _ _

theorem eraseOld_flashByte (old a : Nat) (s : State) (ha : areaBase old ≤ a) (ha' : a < areaBase old + areaSize) :
    (s.eraseOld old).flashByte a = 0xFF := by
  have h := flashByte_erase (areaBase old) areaSize a (s.setState Obj.storeState 2) ha ha'
  rw [flashByte] at h ⊢
  rw [eraseOld, setState_store, h]

/-- The copy that finishes a compaction cut short has ended, and the store is Idle. -/
def endLoadCopy (s : State) : State :=
  ({ s with store := { s.store with loadCopy := false } } : State).setState Obj.storeState 0

theorem endLoadCopy_stores (s : State) : Stores [Obj.storeState] s s.endLoadCopy :=
  (store_stores _ s).trans (setState_changes _ _ _).stores

theorem endLoadCopy_store (s : State) : s.endLoadCopy.store = { s.store with loadCopy := false } := by
  rw [endLoadCopy, setState_store]

/-- Bit 1 of StoreFlags: an erase failed. -/
theorem testBit_eraseFailure (s : State) : ((s.setFlag Obj.storeFlags 2).num Obj.storeFlags).testBit 1 = true := by
  rw [testBit_setFlag _ _ _ _ (quiet_of_mod (by decide))]
  rfl

/-- The store goes to Fault, its flags, its queue and device memory as they stand. -/
theorem storeFault_keeps {s w : State} (hbit : (w.num Obj.storeFlags).testBit 1 = true)
    (hqueue : w.store.queue = s.store.queue) (hmem : w.mem = s.mem) :
    (w.setState Obj.storeState 3).num Obj.storeState = 3 ∧
      ((w.setState Obj.storeState 3).num Obj.storeFlags).testBit 1 = true ∧
      (w.setState Obj.storeState 3).store.queue = s.store.queue ∧ (w.setState Obj.storeState 3).mem = s.mem := by
  refine ⟨setState_num_storeState _ _, ?_, by rw [setState_store, hqueue], by rw [setState_mem, hmem]⟩
  rw [(setState_changes _ _ _).stores.num (by decide) (by decide), hbit]

section Compaction

variable {s : State} (hcopy : s.store.copying = true) (hload : s.store.loadCopy = false) (hst : s.num Obj.storeState ≠ 3)
  (herase : s.num Obj.eraseAhead = 1)
include hcopy hload hst herase

/-- A completed compaction with EraseAhead 1. -/
theorem execCompactionComplete_erased : exec (.compactionComplete false) s =
    .next (s.compacted.eraseOld (s.num Obj.activeArea)).checkFill := by
  have hahead : s.compacted.num Obj.eraseAhead = 1 := by
    rw [(compacted_stores s).num (by decide) (by decide), herase]
  show execCompactionComplete false s = _
  simp only [compacted, otherArea, compactionCopies, eraseOld] at hahead ⊢
  simp only [execCompactionComplete, hst, hload, hcopy, hahead, Bool.and_false, Bool.false_eq_true,
    Bool.not_true, if_true, if_false]

/-- An erase that fails: of the other area before the copy, or of the old one after it. -/
theorem execCompactionComplete_failed :
    exec (.compactionComplete true) s = .next (({ s.setFlag Obj.storeFlags 2 with
      store := { (s.setFlag Obj.storeFlags 2).store with copying := false } } : State).setState Obj.storeState 3) ∨
    exec (.compactionComplete true) s =
      .next (((s.compacted.setState Obj.storeState 2).setFlag Obj.storeFlags 2).setState Obj.storeState 3) := by
  have hahead : s.compacted.num Obj.eraseAhead = 1 := by
    rw [(compacted_stores s).num (by decide) (by decide), herase]
  show execCompactionComplete true s = _ ∨ execCompactionComplete true s = _
  simp only [compacted, otherArea, compactionCopies] at hahead ⊢
  simp only [execCompactionComplete, hst, hload, hcopy, hahead, Bool.and_true, Bool.false_eq_true,
    Bool.not_true, if_true, if_false]
  split
  · exact .inl rfl
  · exact .inr rfl

theorem compactionComplete_erases : Answers (exec (.compactionComplete false) s) fun u =>
    u.num Obj.activeArea = 1 - s.num Obj.activeArea ∧
    (u.overThreshold = false → u.headWaits = false → u.num Obj.storeState = 0 ∧ u.store.copying = false) ∧
    (u.num Obj.storeFlags).testBit 2 = true ∧ u.store.queue = s.store.queue ∧ u.mem = s.mem ∧
    (Memory.wf 0xFF s.store.flash = true → ∀ a, areaBase (s.num Obj.activeArea) ≤ a →
      a < areaBase (s.num Obj.activeArea) + areaSize → u.flashByte a = 0xFF) := by
  have hrun := execCompactionComplete_erased hcopy hload hst herase
  have hstores := eraseOld_stores (s.num Obj.activeArea) s.compacted
  have hstore := eraseOld_store (s.num Obj.activeArea) s.compacted
  have hidle := eraseOld_num_storeState (s.num Obj.activeArea) s.compacted
  have hflash := fun a => eraseOld_flashByte (s.num Obj.activeArea) a s.compacted
  generalize s.compacted.eraseOld (s.num Obj.activeArea) = w at hrun hstores hstore hidle hflash
  have hu := hstores.trans (checkFill_stores w)
  obtain ⟨c, hc⟩ := checkFill_store w
  obtain ⟨hqueue, hcopying⟩ := compacted_store s
  refine ⟨_, hrun, ?_, fun ho hh => ?_, ?_, ?_, hu.mem.trans (compacted_stores s).mem, fun _ a ha ha' => ?_⟩
  · rw [hu.num (by decide) (by decide), compacted_num_activeArea]
  · rw [checkFill_of_calm ho hh, hstore]
    dsimp only
    exact ⟨hidle, hcopying⟩
  · rw [hu.num (by decide) (by decide), testBit_compacted]
  · rw [hc, hstore]
    dsimp only
    exact hqueue
  · have h := hflash a ha ha'
    rw [flashByte] at h ⊢
    rw [hc]
    dsimp only
    exact h

theorem compactionComplete_faults : Answers (exec (.compactionComplete true) s) fun u =>
    u.num Obj.storeState = 3 ∧ (u.num Obj.storeFlags).testBit 1 = true ∧ u.store.queue = s.store.queue ∧ u.mem = s.mem := by
  rcases execCompactionComplete_failed hcopy hload hst herase with hrun | hrun
  · refine ⟨_, hrun, storeFault_keeps (testBit_eraseFailure s) ?_ (setFlag_mem _ _ s)⟩
    rw [setFlag_store]
  · refine ⟨_, hrun, storeFault_keeps (testBit_eraseFailure _) ?_ ?_⟩
    · rw [setFlag_store, setState_store, (compacted_store s).1]
    · rw [setFlag_mem, setState_mem, (compacted_stores s).mem]

end Compaction

/-- The copy that finishes a compaction cut short goes into the active area (R75). -/
theorem compactionComplete_loadCopy {s : State} {b : Bool} (hload : s.store.loadCopy = true)
    (hst : s.num Obj.storeState ≠ 3) : Answers (exec (.compactionComplete b) s) fun u =>
      u.store.loadCopy = false ∧ u.num Obj.activeArea = s.num Obj.activeArea ∧ u.store.queue = s.store.queue ∧
      u.mem = s.mem := by
  obtain ⟨c, hc⟩ : ∃ c, c = s.copyInto (s.copies fun e => e.area ≠ s.num Obj.activeArea) := ⟨_, rfl⟩
  have hrun : exec (.compactionComplete b) s = .next c.endLoadCopy.checkFill := by
    show execCompactionComplete b s = _
    simp only [execCompactionComplete, hst, hload, hc, endLoadCopy, if_true, if_false]
  have hcopy : Stores writeKeys s c := hc ▸ copyInto_stores _ s
  have hqueue : c.store.queue = s.store.queue := hc ▸ copyInto_queue _ s
  have hu := (endLoadCopy_stores c).trans (checkFill_stores _)
  obtain ⟨cp, hcp⟩ := checkFill_store c.endLoadCopy
  rw [endLoadCopy_store] at hcp
  refine ⟨_, hrun, by rw [hcp], ?_, by rw [hcp]; exact hqueue, hu.mem.trans hcopy.mem⟩
  rw [hu.num (by decide) (by decide), hcopy.num (by decide) (by decide)]

end State

open State

/-- Settles O14: each command of the store is one of the steps above and a look at whether the area is full, which changes
no more of the store than that a copy runs. -/
theorem storeKeepsRecords : Obligations.StoreKeepsRecords := by
  refine ⟨fun _ _ _ => execRecordCommitDone_done, fun _ _ _ _ => execRecordCommitDone_fault, fun _ _ => execStoreSync_linear,
    ?_, ?_, fun _ hcopy hload hst _ herase => compactionComplete_erases hcopy hload hst herase,
    fun _ hcopy hload hst _ herase => compactionComplete_faults hcopy hload hst herase, fun _ _ => compactionComplete_loadCopy⟩
  · intro s r hr
    show execStoreSynced s = _
    simp only [execStoreSynced, hr]
  · intro s t hserve hrights hst
    have hu := queueRecord_stores (groupRec (rwpKeys.map fun k => (k, true, []))) (s.upto t)
    refine ⟨_, execForgetPersisted_linear hserve hrights, ?_, hu.2, ?_⟩
    · rw [queue_queueRecord, if_neg (by exact hst)]
      rfl
    · rw [hu.1]
      rfl

end Sys2Proof.Machine

/-! PROOFS. Reads: O8 fails. -/

namespace Sys2Proof.Machine

/-! ## A read group in which one read moves what another shows (R63, R82)

DrawerValid shows a drawer of the tile that SelectTile names, as last held where that tile's cabinet is lost. `State.lost`
reads the health of cabinet SelectTile / 150 at `Obj.cabinetHealth` plus that number. A number far beyond the device's
tiles, which no admitted write stores but which a state may hold, makes this the key of DrefPeriodNs: a measurement, which
the same read group brings up to date before it comes to DrawerValid. -/

/-- The tile number that makes DrefPeriodNs stand where the health of the tile's cabinet is read. -/
def farTile : Nat := 150 * (Obj.drefPeriodNs - Obj.cabinetHealth)

/-- A tile whose context 0 has a drawer. -/
def drawerTile : TileS := TileS.empty.setCtx 0 { Context.none with dr := { Drawer.none with st := .assigned } }

/-- A device that serves JTAG, DREF running, with `farTile` selected and last held with a drawer; DrefPeriodNs last read `n`. -/
def farSelected (n : Nat) : State :=
  let s := { State.reset with rst := { State.reset.rst with serve := .full }, gone := ⟨[(farTile, drawerTile)], [], []⟩ }
  (((s.setNum Obj.debugEnabled 1).setNum (Obj.clockState + 24) 2).setNum Obj.selectTile farTile).setNum Obj.drefPeriodNs n

/-- What `sample` gives DrefPeriodNs from the first free value. -/
def firstPeriod : Nat := (Config.freeValue 0).toNat % (maxOf Obj.drefPeriodNs + 1)

/-- The two subentries of the read group: DrefPeriodNs, DrawerValid. -/
def farList : List ObjId := [⟨0x7002, 0x0A⟩, ⟨0x3802, 0x01⟩]

theorem farSelected_taken (n : Nat) : Taken (farSelected n) .jtag .jtag := by
  have hdebug : (farSelected n).num Obj.debugEnabled = 1 := rfl
  have hout : (farSelected n).outstanding .jtag .jtag = 0 := rfl
  refine ⟨rfl, rfl, by simp, by simp, by simp, fun _ => ?_, ?_⟩
  · rw [hdebug]; decide
  · rw [hout]; decide

/-- DrawerValid as shown with `farTile` selected: the drawer stands only where DrefPeriodNs reads as the code of a lost
cabinet. -/
theorem view_drawerValid (n f : Nat) :
    State.view { farSelected n with free := f } Obj.drawerValid = .num (if n = 3 then 1 else 0) := by
  have hlost : State.lost { farSelected n with free := f } (farTile / 150) = decide (n = 3) := rfl
  have hview : State.view { farSelected n with free := f } Obj.drawerValid =
    .num (if ((State.tileSeen { farSelected n with free := f } farTile).ctx 0).dr.bound then 1 else 0) := rfl
  rw [hview, State.tileSeen, hlost]
  by_cases hn : n = 3
  · rw [decide_eq_true hn, if_pos hn]
    rfl
  · rw [decide_eq_false hn, if_neg hn]
    rfl

theorem sample_farSelected (n : Nat) :
    (farSelected n).sample Obj.drefPeriodNs = { farSelected firstPeriod with free := 1 } := rfl

/-- The entry of a subentry that reads, in the answer of a read group (R82). -/
def goodEntry (k : Nat) (v : Val) : List Byte :=
  leBytes 2 (k / 256) ++ leBytes 1 (k % 256) ++ leBytes 1 0 ++ leBytes 2 0 ++ leBytes 2 0 ++ leBytes 4 (valBytes k v).length ++
    padTo 4 (valBytes k v)

theorem goodEntry_dref_length (v : Val) : (goodEntry Obj.drefPeriodNs v).length = 16 := by
  have hbytes : valBytes Obj.drefPeriodNs v = leBytes 4 v.toNat := rfl
  simp [goodEntry, hbytes, padTo, roundUp]

theorem goodEntry_drawerValid_length (v : Val) : (goodEntry Obj.drawerValid v).length = 16 := by
  have hbytes : valBytes Obj.drawerValid v = leBytes 1 v.toNat := rfl
  simp [goodEntry, hbytes, padTo, roundUp]

theorem readEntry_good {s : State} {k : Nat} {b : List Byte} (hread : s.readErr k = none) (h : ReadEntry s k b) :
    ∃ v, (s.measures k = false → s.countsTime k = false → v = s.view k) ∧ b = goodEntry k v := by
  unfold ReadEntry at h
  simp only [hread] at h
  exact h

theorem groupPart_good {s : State} {k : Nat} (hread : s.readErr k = none) :
    State.groupPart k s = (goodEntry k ((s.sample k).view k), (s.sample k).noteRead k) := by
  simp only [State.groupPart, hread]
  rfl

/-- The single segment of a short answer goes to JTAG at once, its payload whole (R97). -/
theorem answer_jtag {s : State} (type flags seq k : Nat) {pay : List Byte} (hheld : s.dict.held = []) (hout : s.dict.jtagOut = [])
    (hlen : pay.length ≤ 248) : (s.answer .jtag .jtag type flags seq k pay).dict.jtagOut =
      [segHead type (1 + flags) 0 seq k pay.length ++ pay] := by
  have hseg : segments .jtag type flags seq k pay = [segHead type (1 + flags) 0 seq k pay.length ++ pay] := by
    simp [segments, pieces, segMax, hlen]
  simp [State.answer, State.message, hseg, State.post, State.flushHeld, hheld, State.canGo, State.sendSeg, hout]

theorem serveGroupRead_farSelected (n : Nat) :
    (farSelected n).serveGroupRead .jtag .jtag 0 0
        (farList.flatMap fun o => leBytes 2 o.idx.toNat ++ leBytes 1 o.sub.toNat ++ leBytes 1 0) =
      State.answer .jtag .jtag Oap.read 4 0 0 (goodEntry Obj.drefPeriodNs (.num firstPeriod) ++
        goodEntry Obj.drawerValid (.num (if firstPeriod = 3 then 1 else 0))) { farSelected firstPeriod with free := 1 } := by
  have h₁ : State.groupPart Obj.drefPeriodNs (farSelected n) =
    (goodEntry Obj.drefPeriodNs (.num firstPeriod), { farSelected firstPeriod with free := 1 }) := by
    rw [groupPart_good rfl, sample_farSelected]
    rfl
  have h₂ : State.groupPart Obj.drawerValid { farSelected firstPeriod with free := 1 } =
    (goodEntry Obj.drawerValid (.num (if firstPeriod = 3 then 1 else 0)), { farSelected firstPeriod with free := 1 }) := by
    rw [groupPart_good rfl, ← view_drawerValid firstPeriod 1]
    rfl
  have hlist : farList.flatMap (fun o => leBytes 2 o.idx.toNat ++ leBytes 1 o.sub.toNat ++ leBytes 1 0) =
    [0x02, 0x70, 0x0A, 0, 0x02, 0x38, 0x01, 0] := by decide
  have hkeys : (List.range (List.length [(0x02 : Byte), 0x70, 0x0A, 0, 0x02, 0x38, 0x01, 0] / 4)).map (fun i =>
      field [0x02, 0x70, 0x0A, 0, 0x02, 0x38, 0x01, 0] (4 * i) 2 * 256 +
        field [0x02, 0x70, 0x0A, 0, 0x02, 0x38, 0x01, 0] (4 * i + 2) 1) =
    [Obj.drefPeriodNs, Obj.drawerValid] := by decide
  rw [hlist, State.serveGroupRead, hkeys]
  simp only [List.foldl_cons, List.foldl_nil, h₁, h₂, List.nil_append]
  rw [if_neg (by decide), if_neg (by decide), if_neg]
  rw [List.length_append, goodEntry_dref_length]
  split <;> decide

/-- The bytes of the answer to the read group, as its two entries. -/
theorem exec_farSelected (n : Nat) :
    exec (.readGroup .jtag .jtag 0 0 (farList.flatMap fun o => leBytes 2 o.idx.toNat ++ leBytes 1 o.sub.toNat ++ leBytes 1 0))
        (farSelected n) =
      .next (State.answer .jtag .jtag Oap.read 4 0 0 (goodEntry Obj.drefPeriodNs (.num firstPeriod) ++
        goodEntry Obj.drawerValid (.num (if firstPeriod = 3 then 1 else 0))) { farSelected firstPeriod with free := 1 }) := by
  rw [← serveGroupRead_farSelected n]
  exact congrArg Host.Outcome.next (request_taken (farSelected_taken n) 0 0 0 _)

/-- What the statement makes of the same answer: DrawerValid as it stood before the read. -/
theorem readEntries_farSelected {n : Nat} {parts : List (List Byte)} (hlen : parts.length = farList.length)
    (hparts : ∀ p ∈ farList.zip parts, ReadEntry (farSelected n) (keyOf p.1) p.2) :
    ∃ v, parts.flatten = goodEntry Obj.drefPeriodNs v ++ goodEntry Obj.drawerValid (.num (if n = 3 then 1 else 0)) := by
  obtain ⟨p, q, rfl⟩ := List.length_eq_two.1 hlen
  have hentry₁ : ReadEntry (farSelected n) (keyOf ⟨0x7002, 0x0A⟩) p := hparts (⟨0x7002, 0x0A⟩, p) (by simp [farList])
  have hentry₂ : ReadEntry (farSelected n) (keyOf ⟨0x3802, 0x01⟩) q := hparts (⟨0x3802, 0x01⟩, q) (by simp [farList])
  rw [show keyOf ⟨0x7002, 0x0A⟩ = Obj.drefPeriodNs by decide] at hentry₁
  rw [show keyOf ⟨0x3802, 0x01⟩ = Obj.drawerValid by decide] at hentry₂
  obtain ⟨v, -, hp⟩ := readEntry_good rfl hentry₁
  obtain ⟨w, hw, hq⟩ := readEntry_good rfl hentry₂
  have hshown : w = .num (if n = 3 then 1 else 0) := (hw rfl rfl).trans (view_drawerValid n 0)
  exact ⟨v, by rw [hp, hq, hshown]; simp⟩

/-- Refutes O8: nothing in it bounds SelectTile. With `farTile` selected, a read group of DrefPeriodNs and DrawerValid brings
the first up to date, and DrawerValid, no measurement, is answered as it stands after that, not before: whichever value
the free value gives DrefPeriodNs, it starts from one that shows DrawerValid otherwise. -/
theorem not_readAnswers : ¬ Obligations.ReadAnswers := by
  intro h
  obtain ⟨n, hn⟩ : ∃ n, n = 3 ↔ firstPeriod ≠ 3 := by
    by_cases hp : firstPeriod = 3
    · exact ⟨0, by simp [hp]⟩
    · exact ⟨3, by simp [hp]⟩
  obtain ⟨-, -, -, -, hgroup, -⟩ := h (farSelected n) .jtag .jtag 0 0 (farSelected_taken n)
  obtain ⟨parts, x, ⟨hx, -, -⟩, hlen, hparts, hrun⟩ := hgroup farList (by decide) (by decide)
  obtain ⟨v, hflat⟩ := readEntries_farSelected hlen hparts
  have hshort (a b : Val) : (goodEntry Obj.drefPeriodNs a ++ goodEntry Obj.drawerValid b).length = 32 := by
    rw [List.length_append, goodEntry_dref_length, goodEntry_drawerValid_length]
  rw [exec_farSelected, hflat, hshort, if_neg (by decide : ¬ 65536 < 32)] at hrun
  have hdict : x.dict = (farSelected n).dict := by rw [hx]; rfl
  have hout := congrArg (fun u : State => u.dict.jtagOut) (Host.Outcome.next.inj hrun)
  dsimp only at hout
  rw [answer_jtag _ _ _ _ rfl rfl (by rw [hshort]; decide),
    answer_jtag _ _ _ _ (by rw [hdict]; rfl) (by rw [hdict]; rfl) (by rw [hshort]; decide)] at hout
  obtain ⟨-, hpay⟩ := List.append_inj (List.cons.inj hout).1 (by simp [segHead])
  obtain ⟨-, hvalid⟩ := List.append_inj hpay (by rw [goodEntry_dref_length, goodEntry_dref_length])
  by_cases hp : firstPeriod = 3
  · rw [if_pos hp, if_neg fun h => hn.1 h hp] at hvalid
    exact absurd hvalid (by decide)
  · rw [if_neg hp, if_pos (hn.2 hp)] at hvalid
    exact absurd hvalid (by decide)

end Sys2Proof.Machine

/-! PROOFS. Ownership: O12. -/

namespace Sys2Proof.Tab

theorem pairwise_of_sorted {α : Type} {t : Tab α} (h : sorted t = true) : t.Pairwise (·.1 < ·.1) := by
  induction t with
  | nil => exact List.Pairwise.nil
  | cons e t ih =>
    have hlt : ∀ x ∈ t, e.1 < x.1 := by
      cases t with
      | nil => simp
      | cons e' t =>
        simp only [sorted, Bool.and_eq_true, decide_eq_true_eq] at h
        exact List.forall_mem_cons.2 ⟨h.1, fun x hx => h.1.trans ((List.pairwise_cons.1 (ih h.2)).1 x hx)⟩
    exact List.pairwise_cons.2 ⟨hlt, ih (sorted_tail e t h)⟩

end Sys2Proof.Tab

namespace Sys2Proof.Machine

/-! ## Who wins a claim window (R100) -/

theorem contestants_sorted (owner prio : Nat) (l : List Claim) : Tab.sorted (contestants owner prio l) = true := by
  have hfold : ∀ t : Tab Nat, Tab.sorted t = true → Tab.sorted (l.foldl (fun t c => t.put c.id c.prio) t) = true := by
    induction l with
    | nil => exact fun t ht => ht
    | cons c l ih => exact fun t ht => ih _ (Tab.sorted_put t c.id c.prio ht)
  refine hfold _ ?_
  split <;> rfl

/-- What `winner` does with one more contestant. -/
def better (b : Option (Nat × Nat)) (x : Nat × Nat) : Option (Nat × Nat) :=
  match b with
  | none => some x
  | some (j, q) => if q < x.2 then some x else some (j, q)

theorem winner_eq (t : Tab Nat) : winner t = t.foldl better none := by
  refine congrArg (fun f => t.foldl f none) (funext fun b => funext fun x => ?_)
  cases b <;> rfl

/-- The best so far has the lowest claimant ID, so that a later contestant replaces it only with a higher priority. -/
theorem foldl_better {t : Tab Nat} {j q w p : Nat} (ht : ((j, q) :: t).Pairwise (·.1 < ·.1))
    (h : t.foldl better (some (j, q)) = some (w, p)) : ∀ x ∈ (j, q) :: t, x.2 < p ∨ (x.2 = p ∧ w ≤ x.1) := by
  induction t generalizing j q with
  | nil =>
    obtain ⟨rfl, rfl⟩ : j = w ∧ q = p := by simpa using h
    simp
  | cons y t ih =>
    obtain ⟨i, r⟩ := y
    obtain ⟨hj, hi⟩ := List.pairwise_cons.1 ht
    have hji : j < i := hj _ List.mem_cons_self
    rw [List.foldl_cons] at h
    by_cases hq : q < r
    · have hbest := ih hi (by simpa [better, hq] using h)
      have hr := hbest _ List.mem_cons_self
      refine List.forall_mem_cons.2 ⟨.inl ?_, hbest⟩
      dsimp only at hr ⊢
      omega
    · have hjt : ((j, q) :: t).Pairwise (·.1 < ·.1) :=
        List.pairwise_cons.2 ⟨fun x hx => hj x (List.mem_cons_of_mem _ hx), (List.pairwise_cons.1 hi).2⟩
      obtain ⟨hhead, htail⟩ := List.forall_mem_cons.1 (ih hjt (by simpa [better, hq] using h))
      refine List.forall_mem_cons.2 ⟨hhead, List.forall_mem_cons.2 ⟨?_, htail⟩⟩
      dsimp only at hhead ⊢
      omega

theorem winner_best {t : Tab Nat} {w p : Nat} (ht : Tab.sorted t = true) (h : winner t = some (w, p)) :
    ∀ x ∈ t, x.2 < p ∨ (x.2 = p ∧ w ≤ x.1) := by
  rw [winner_eq] at h
  cases t with
  | nil => simp
  | cons e t => exact foldl_better (Tab.pairwise_of_sorted ht) h

/-! ## Who owns the device (R101–R104) -/

/-- The objects that follow the ownership of the device, and those of an update that its loss cancels. -/
def ownerKeys : List Nat := [Obj.ownerState, Obj.owner, Obj.ownerPriority, Obj.handoverSuccessor, Obj.ownershipChanges,
  Obj.updateResult, Obj.updateState]

theorem KeepsObjects.keepsParameters {l : List Nat} {s u : State} (h : KeepsObjects l s u)
    (hl : l.all (!isParameter ·) = true) : KeepsParameters s u :=
  fun _ _ hrow hacc => h.parameter hl (isParameter_of_row hrow hacc)

/-- A number that is neither listed nor a count of dropped events is kept. -/
theorem KeepsObjects.kept {l : List Nat} {s u : State} (h : KeepsObjects l s u) {k : Nat} (hk : k ∉ l ∧ k % 256 ≠ 0x12) :
    u.num k = s.num k := h.num hk.1 (ne_eventsDropped hk.2)

theorem Sends.kept {s u : State} (h : Sends s u) {k : Nat} (hk : k ∉ sendKeys ∧ k % 256 ≠ 0x12) : u.num k = s.num k :=
  h.2.kept hk

namespace ChangesOnly

variable {l : List Nat} {s u : State} (h : ChangesOnly l s u)
include h

theorem own : u.own = s.own := by rw [h.1]
theorem now : u.now = s.now := by rw [h.1]
theorem group (id : Nat) : u.group id = s.group id := by rw [h.1]; rfl
theorem groups : u.dict.groups = s.dict.groups := by rw [h.1]

end ChangesOnly

/-- Only these objects, and what the dictionary keeps for its masters, may change; who claims and holds the device, and the
time, stand. -/
structure Moves (l : List Nat) (s u : State) : Prop where
  objects : KeepsObjects l s u
  own : u.own = s.own
  now : u.now = s.now

namespace Moves

variable {l l' : List Nat} {s t u : State}

theorem refl (l : List Nat) (s : State) : Moves l s s := ⟨KeepsObjects.refl _ _, rfl, rfl⟩

theorem trans (h₁ : Moves l s t) (h₂ : Moves l t u) : Moves l s u :=
  ⟨h₁.objects.trans h₂.objects, h₂.own.trans h₁.own, h₂.now.trans h₁.now⟩

theorem mono (h : Moves l s u) (hl : l ⊆ l') : Moves l' s u := ⟨h.objects.mono hl, h.own, h.now⟩

end Moves

theorem ChangesOnly.moves {l l' : List Nat} {s u : State} (h : ChangesOnly l s u) (hl : l ⊆ l') : Moves l' s u :=
  ⟨h.2.mono hl, h.own, h.now⟩

namespace State

/-! ### The steps of a change of owner -/

/-- The state with another standing of claims, lease and handover. -/
def withOwn (o : OwnState) (s : State) : State := { s with own := o }

@[simp] theorem withOwn_own (o : OwnState) (s : State) : (s.withOwn o).own = o := rfl
@[simp] theorem withOwn_now (o : OwnState) (s : State) : (s.withOwn o).now = s.now := rfl
@[simp] theorem withOwn_obj (o : OwnState) (s : State) : (s.withOwn o).obj = s.obj := rfl
@[simp] theorem num_withOwn (o : OwnState) (k : Nat) (s : State) : (s.withOwn o).num k = s.num k := rfl

theorem withOwn_objects (l : List Nat) (o : OwnState) (s : State) : KeepsObjects l s (s.withOwn o) := fun _ _ _ => rfl

theorem leaseNs_eq (s : State) : s.leaseNs = s.num Obj.leasePeriod * 1000000 := rfl

/-- The owner with a lease to an instant, and whoever may accept a handover until one. -/
def leased (e : Nat) (accept : Option Nat) (s : State) : State :=
  s.withOwn { s.own with leaseEnd := e, acceptBy := accept }

@[simp] theorem leased_own (e : Nat) (a : Option Nat) (s : State) :
    (s.leased e a).own = { s.own with leaseEnd := e, acceptBy := a } := rfl
@[simp] theorem num_leased (e : Nat) (a : Option Nat) (k : Nat) (s : State) : (s.leased e a).num k = s.num k := rfl

theorem leased_objects (l : List Nat) (e : Nat) (a : Option Nat) (s : State) : KeepsObjects l s (s.leased e a) :=
  fun _ _ _ => rfl

theorem renew_eq (s : State) : s.renew = s.leased (s.now + s.leaseNs) s.own.acceptBy := rfl

/-- The objects that a change of owner itself changes. -/
def setOwnerKeys : List Nat := [Obj.owner, Obj.ownershipChanges, Obj.updateResult, Obj.updateState]

theorem updateOwner_changes (s : State) : ChangesOnly [Obj.ownerState] s s.updateOwner := setState_changes _ _ s

theorem clearHandover_objects (s : State) : KeepsObjects [Obj.handoverSuccessor] s s.clearHandover :=
  KeepsObjects.setVal List.mem_cons_self _ _

theorem clearHandover_own (s : State) : s.clearHandover.own = { s.own with acceptBy := none } := rfl
theorem clearHandover_now (s : State) : s.clearHandover.now = s.now := rfl

theorem cancelUpdate_changes (s : State) : ChangesOnly [Obj.updateResult, Obj.updateState] s s.cancelUpdate :=
  ((setNum_changes _ _ s).mono (by simp)).trans ((setState_changes _ _ _).mono (by simp))

/-- A change of owner cancels an update in Erasing, Receiving or Verified (R510). -/
def leaveUpdate (s : State) : State :=
  if s.num Obj.owner ≠ 0 && [1, 2, 4].contains (s.num Obj.updateState) then s.cancelUpdate else s

theorem leaveUpdate_changes (s : State) : ChangesOnly [Obj.updateResult, Obj.updateState] s s.leaveUpdate := by
  unfold leaveUpdate
  split
  · exact cancelUpdate_changes s
  · exact ⟨rfl, KeepsObjects.refl _ _⟩

theorem abortGroup_moves (id d : Nat) (s : State) : Moves [] s (s.abortGroup id d) := by
  unfold abortGroup
  split
  · exact Moves.refl _ _
  · exact ⟨fun _ _ _ => rfl, rfl, rfl⟩

theorem group_abortGroup (id d : Nat) (s : State) (h : Tab.sorted s.dict.groups = true) :
    (s.abortGroup id d).group id = none := by
  unfold abortGroup
  split
  case h_1 hnone => exact hnone
  case h_2 => exact group_closeGroup id s h

theorem setOwner_of_ne {s : State} {id : Nat} (h : s.num Obj.owner ≠ id) :
    s.setOwner id = (((s.leaveUpdate.abortGroup (s.num Obj.owner) 2).setNum Obj.owner id).bump Obj.ownershipChanges 1).raise
      Obj.owner 0 := by
  simp only [setOwner, if_neg h, leaveUpdate]

theorem setOwner_moves (id : Nat) (s : State) : Moves setOwnerKeys s (s.setOwner id) := by
  by_cases h : s.num Obj.owner = id
  · rw [setOwner, if_pos h]
    exact Moves.refl _ s
  · rw [setOwner_of_ne h]
    exact ((((leaveUpdate_changes s).moves (by simp [setOwnerKeys])).trans ((abortGroup_moves _ _ _).mono (by simp))).trans
      ((setNum_changes _ _ _).moves (by simp [setOwnerKeys]))).trans
      (((bump_changes _ _ _).moves (by simp [setOwnerKeys])).trans ((raiseVal_changes _ _ _ _).moves (by simp)))

theorem num_setOwner (id : Nat) (s : State) : (s.setOwner id).num Obj.owner = id := by
  by_cases h : s.num Obj.owner = id
  · rw [setOwner, if_pos h, h]
  · rw [setOwner_of_ne h, num_raise _ _ _ _ (quiet_of_mod (by decide)), num_bump_ne _ _ _ _ (by decide), num_setNum_self]

/-- The group of a displaced owner is aborted (R61). -/
theorem group_setOwner {id : Nat} {s : State} (h : s.num Obj.owner ≠ id) (hs : Tab.sorted s.dict.groups = true) :
    (s.setOwner id).group (s.num Obj.owner) = none := by
  rw [setOwner_of_ne h]
  refine (ChangesOnly.group (raiseVal_changes Obj.owner 0 _ _) _).trans ?_
  exact group_abortGroup _ 2 _ (by rw [(leaveUpdate_changes s).groups, hs])

/-- Ownership lapses: nobody owns the device, and its last owner's group is closed (R103). -/
theorem lapse_spec (s : State) : KeepsObjects ownerKeys s s.lapse ∧ s.lapse.num Obj.owner = 0 ∧
    s.lapse.num Obj.ownerPriority = 0 ∧ s.lapse.now = s.now ∧
    (s.num Obj.owner ≠ 0 → Tab.sorted s.dict.groups = true → s.lapse.group (s.num Obj.owner) = none) := by
  have hset := setOwner_moves 0 s
  have hclear := clearHandover_objects ((s.setOwner 0).setNum Obj.ownerPriority 0)
  have hup := updateOwner_changes ((s.setOwner 0).setNum Obj.ownerPriority 0).clearHandover
  refine ⟨?_, ?_, ?_, ?_, fun h hs => ?_⟩
  · exact (hset.objects.mono (by simp [setOwnerKeys, ownerKeys])).trans (((setNum_changes _ _ _).2.mono
      (by simp [ownerKeys])).trans ((hclear.mono (by simp [ownerKeys])).trans (hup.2.mono (by simp [ownerKeys]))))
  · rw [lapse, hup.2.kept (by decide), hclear.kept (by decide), num_setNum_ne _ _ _ _ (by decide), num_setOwner]
  · rw [lapse, hup.2.kept (by decide), hclear.kept (by decide), num_setNum_self]
  · exact hup.now.trans hset.now
  · exact (hup.group _).trans (group_setOwner h hs)

/-! ### Requests, each in the state of its instant -/

theorem claim_opens {s : State} {m : Master} {tr : Transport} {seq prio : Nat} (howner : s.num Obj.owner ≠ masterId m)
    (hwin : s.own.window = none) : s.claim m tr seq prio = updateOwner (s.withOwn { s.own with
      window := some (s.now + 10000000, [⟨masterId m, prio, tr, canPortOf tr, seq⟩]) }) := by
  simp only [claim, if_neg howner, hwin, withOwn]

theorem claim_renews {s : State} {m : Master} {tr : Transport} {seq prio : Nat} (howner : s.num Obj.owner = masterId m)
    (hwin : s.own.window = none) : s.claim m tr seq prio = (s.renew.setNum Obj.ownerPriority prio).answer m tr Oap.claim 0 seq 0
      ((s.renew.setNum Obj.ownerPriority prio).claimAnswer (masterId m)) := by
  simp only [claim, if_pos howner, renew_eq, leased_own, hwin]

theorem claim_joins {s : State} {m : Master} {tr : Transport} {seq prio e : Nat} {l : List Claim}
    (hwin : s.own.window = some (e, l)) : s.claim m tr seq prio = s.withOwn { s.own with
      window := some (e, l ++ [⟨masterId m, prio, tr, canPortOf tr, seq⟩])
      leaseEnd := if s.num Obj.owner = masterId m then s.now + s.leaseNs else s.own.leaseEnd } := by
  by_cases howner : s.num Obj.owner = masterId m
  · simp only [claim, if_pos howner, renew_eq, leased, withOwn, hwin]
  · simp only [claim, if_neg howner, hwin, withOwn]

/-! ### The close of a window -/

/-- A window's winner becomes owner, with a lease from the close (R100, R101). -/
def ownedBy (w p : Nat) (s : State) : State :=
  (((if w = s.num Obj.owner then s else s.clearHandover).setOwner w).setNum Obj.ownerPriority p).renew

/-- The answer to a claim of a window that closes (R105). -/
def answerClaim (w : Nat) (s : State) (c : Claim) : State :=
  if c.id = w then s.message c.id c.tr false (Machine.segments c.tr Oap.claim 0 c.seq 0 (s.claimAnswer w))
  else s.message c.id c.tr false (Machine.segments c.tr Oap.error 0 c.seq 0 (leBytes 2 Err.claimLost ++ leBytes 2 w))

theorem answerClaim_sends (w : Nat) (s : State) (c : Claim) : Sends s (s.answerClaim w c) := by
  unfold answerClaim
  split <;> exact message_sends _ _ _ _ s

theorem ownedBy_spec (w p : Nat) (s : State) : KeepsObjects ownerKeys s (s.ownedBy w p) ∧ (s.ownedBy w p).num Obj.owner = w ∧
    (s.ownedBy w p).num Obj.ownerPriority = p ∧ (s.ownedBy w p).own.window = s.own.window ∧
    (s.ownedBy w p).own.leaseEnd = s.now + s.num Obj.leasePeriod * 1000000 := by
  let a := if w = s.num Obj.owner then s else s.clearHandover
  have ha : KeepsObjects [Obj.handoverSuccessor] s a ∧ a.own.window = s.own.window ∧ a.now = s.now := by
    unfold a
    split
    · exact ⟨KeepsObjects.refl _ _, rfl, rfl⟩
    · exact ⟨clearHandover_objects s, rfl, rfl⟩
  obtain ⟨hobj, hwin, hnow⟩ := ha
  have hset := setOwner_moves w a
  have hprio := setNum_changes Obj.ownerPriority p (a.setOwner w)
  have hkeeps : KeepsObjects ownerKeys s ((a.setOwner w).setNum Obj.ownerPriority p) :=
    (hobj.mono (by simp [ownerKeys])).trans ((hset.objects.mono (by simp [setOwnerKeys, ownerKeys])).trans
      (hprio.2.mono (by simp [ownerKeys])))
  have howned : s.ownedBy w p =
      ((a.setOwner w).setNum Obj.ownerPriority p).leased (s.now + s.num Obj.leasePeriod * 1000000) a.own.acceptBy := by
    rw [ownedBy, renew_eq, leaseNs_eq, hkeeps.kept (by decide), setNum_own, setNum_now, hset.own, hset.now, hnow]
  rw [howned, leased_own, setNum_own, hset.own]
  refine ⟨hkeeps.trans (leased_objects _ _ _ _), ?_, ?_, hwin, rfl⟩
  · rw [num_leased, num_setNum_ne _ _ _ _ (by decide), num_setOwner]
  · rw [num_leased, num_setNum_self]

theorem exec_claimWindowClose {s : State} {e w p : Nat} {l : List Claim} (hwin : s.own.window = some (e, l))
    (hbest : winner (contestants (s.num Obj.owner) (s.num Obj.ownerPriority) l) = some (w, p)) :
    exec .claimWindowClose s = .next (l.foldl (answerClaim w)
      (((s.upto e).withOwn { s.own with window := none }).ownedBy w p)).updateOwner := by
  have hbest' : winner (contestants (((s.upto e).withOwn { s.own with window := none }).num Obj.owner)
      (((s.upto e).withOwn { s.own with window := none }).num Obj.ownerPriority) l) = some (w, p) := hbest
  show execClaimWindowClose s = _
  rw [withOwn] at hbest' ⊢
  simp only [execClaimWindowClose, hwin, upto_own, hbest']
  rfl

end State

open State

/-! ## The clauses -/

section Clauses

variable {s : State} {m : Master} {tr : Transport} {t : Nat} {seq : BitVec 16}

theorem exec_claim_taken {prio : Byte} (h : Taken s m tr) :
    exec (.claim m tr t seq prio) s = .next ((At s m tr t).claim m tr seq.toNat prio.toNat) :=
  congrArg Host.Outcome.next (fullRequest_taken h _ _ _ _)

theorem exec_release_taken (h : Taken s m tr) :
    exec (.release m tr t seq) s = .next ((At s m tr t).release m tr seq.toNat) :=
  congrArg Host.Outcome.next (fullRequest_taken h _ _ _ _)

theorem exec_handover_taken {succ : Byte} (h : Taken s m tr) :
    exec (.handover m tr t seq succ) s = .next ((At s m tr t).handover m tr seq.toNat succ.toNat) :=
  congrArg Host.Outcome.next (fullRequest_taken h _ _ _ _)

theorem exec_handoverAccept_taken (h : Taken s m tr) :
    exec (.handoverAccept m tr t seq) s = .next ((At s m tr t).accept m tr seq.toNat) :=
  congrArg Host.Outcome.next (fullRequest_taken h _ _ _ _)

theorem at_keepsObjects (l : List Nat) : KeepsObjects l s (At s m tr t) := fun k _ _ => at_val s m tr t k

theorem execClaim_opens {prio : Byte} (htaken : Taken s m tr) (howner : s.num Obj.owner ≠ masterId m)
    (hwin : s.own.window = none) : Answers (exec (.claim m tr t seq prio) s) fun u =>
      u.own = { s.own with window := some (max s.now t + 10000000, [⟨masterId m, prio.toNat, tr, canPortOf tr, seq.toNat⟩]) } ∧
      u.num Obj.owner = s.num Obj.owner ∧ KeepsParameters s u := by
  refine ⟨_, exec_claim_taken htaken, ?_⟩
  rw [claim_opens (by rw [at_num]; exact howner) (by rw [at_own]; exact hwin), at_now, at_own]
  have hup := updateOwner_changes ((At s m tr t).withOwn { s.own with
    window := some (max s.now t + 10000000, [⟨masterId m, prio.toNat, tr, canPortOf tr, seq.toNat⟩]) })
  refine ⟨hup.own, (hup.2.kept (by decide)).trans (at_num s m tr t _), ?_⟩
  exact (at_keepsParameters s m tr t).trans (hup.2.keepsParameters (by decide))

theorem execClaim_renews {prio : Byte} (htaken : Taken s m tr) (howner : s.num Obj.owner = masterId m)
    (hwin : s.own.window = none) : Answers (exec (.claim m tr t seq prio) s) fun u =>
      u.own = { s.own with leaseEnd := max s.now t + s.num Obj.leasePeriod * 1000000 } ∧
      u.num Obj.ownerPriority = prio.toNat ∧ u.num Obj.owner = s.num Obj.owner ∧ KeepsParameters s u := by
  let b := ((At s m tr t).leased (max s.now t + s.num Obj.leasePeriod * 1000000) s.own.acceptBy).setNum
    Obj.ownerPriority prio.toNat
  have hb : KeepsObjects [Obj.ownerPriority] s b :=
    ((at_keepsObjects _).trans (leased_objects _ _ _ _)).trans (setNum_changes _ _ _).2
  have hu : Sends b (b.answer m tr Oap.claim 0 seq.toNat 0 (b.claimAnswer (masterId m))) := answer_sends _ _ _ _ _ _ _ b
  refine ⟨_, exec_claim_taken htaken, ?_⟩
  rw [claim_renews (by rw [at_num]; exact howner) (by rw [at_own]; exact hwin), renew_eq, leaseNs_eq, at_own, at_now, at_num]
  refine ⟨?_, ?_, ?_, (hb.keepsParameters (by decide)).trans hu.keepsParameters⟩
  · rw [hu.own, setNum_own, leased_own, at_own]
  · rw [hu.kept (by decide), num_setNum_self]
  · rw [hu.kept (by decide), hb.kept (by decide)]

theorem execClaim_joins {prio : Byte} {e : Nat} {l : List Claim} (htaken : Taken s m tr) (hwin : s.own.window = some (e, l)) :
    Answers (exec (.claim m tr t seq prio) s) fun u =>
      u.own = { s.own with window := some (e, l ++ [⟨masterId m, prio.toNat, tr, canPortOf tr, seq.toNat⟩])
                           leaseEnd := if s.num Obj.owner = masterId m then max s.now t + s.num Obj.leasePeriod * 1000000
                             else s.own.leaseEnd } ∧
      u.obj = s.obj ∧ KeepsBlock s { u with own := s.own } := by
  refine ⟨_, exec_claim_taken htaken, ?_⟩
  rw [claim_joins (by rw [at_own]; exact hwin), at_own, at_now, at_num, leaseNs_eq, at_num]
  refine ⟨withOwn_own _ _, ?_, ?_⟩
  · rw [withOwn_obj, at_eq]
  · unfold KeepsBlock withOwn
    rw [at_eq]

theorem execClaimWindowClose_won {e w p : Nat} {l : List Claim} (hwin : s.own.window = some (e, l))
    (hbest : winner (contestants (s.num Obj.owner) (s.num Obj.ownerPriority) l) = some (w, p)) :
    Answers (exec .claimWindowClose s) fun u =>
      u.num Obj.owner = w ∧ u.num Obj.ownerPriority = p ∧ u.own.window = none ∧
      u.own.leaseEnd = max s.now e + s.num Obj.leasePeriod * 1000000 ∧ KeepsParameters s u := by
  let a := (s.upto e).withOwn { s.own with window := none }
  obtain ⟨hobj, howner, hprio, hwindow, hlease⟩ := ownedBy_spec w p a
  have hsend : Sends (ownedBy w p a) (l.foldl (answerClaim w) (ownedBy w p a)) := Sends.foldl (answerClaim_sends w) l _
  have hup := updateOwner_changes (l.foldl (answerClaim w) (ownedBy w p a))
  refine ⟨_, exec_claimWindowClose hwin hbest, ?_, ?_, ?_, ?_, ?_⟩
  · rw [hup.2.kept (by decide), hsend.kept (by decide), howner]
  · rw [hup.2.kept (by decide), hsend.kept (by decide), hprio]
  · rw [hup.own, hsend.own, hwindow, withOwn_own]
  · rw [hup.own, hsend.own, hlease, withOwn_now, upto_now, num_withOwn, num_upto]
  · exact ((hobj.keepsParameters (by decide)).trans hsend.keepsParameters).trans (hup.2.keepsParameters (by decide))

theorem execLeaseEnd_lapses (howner : s.num Obj.owner ≠ 0) (haccept : s.own.acceptBy = none)
    (hsorted : Tab.sorted s.dict.groups = true) : Answers (exec .leaseEnd s) fun u =>
      u.num Obj.owner = 0 ∧ u.num Obj.ownerPriority = 0 ∧ u.now = max s.now s.own.leaseEnd ∧
      u.group (s.num Obj.owner) = none ∧ KeepsParameters s u := by
  obtain ⟨hobj, hfree, hprio, hnow, hgroup⟩ := lapse_spec (s.upto s.own.leaseEnd)
  refine ⟨(s.upto s.own.leaseEnd).lapse, ?_, hfree, hprio, hnow, hgroup howner hsorted, hobj.keepsParameters (by decide)⟩
  show execLeaseEnd s = _
  simp only [execLeaseEnd, if_neg howner, haccept]

theorem execLeaseEnd_handover {a : Nat} (howner : s.num Obj.owner ≠ 0) (haccept : s.own.acceptBy = some a)
    (ha : a < s.own.leaseEnd) : Answers (exec .leaseEnd s) fun u =>
      u.num Obj.owner = s.num Obj.owner ∧ u.num Obj.handoverSuccessor = 0 ∧ u.now = max s.now a ∧
      u.own = { s.own with acceptBy := none } ∧ KeepsParameters s u := by
  have hclear := clearHandover_objects (s.upto a)
  have hup := updateOwner_changes (s.upto a).clearHandover
  have hkeeps : KeepsObjects ownerKeys s (s.upto a).clearHandover.updateOwner :=
    KeepsObjects.trans (t := (s.upto a).clearHandover) (hclear.mono (by simp [ownerKeys])) (hup.2.mono (by simp [ownerKeys]))
  refine ⟨(s.upto a).clearHandover.updateOwner, ?_, ?_, ?_, hup.now, hup.own, hkeeps.keepsParameters (by decide)⟩
  · show execLeaseEnd s = _
    simp only [execLeaseEnd, if_neg howner, haccept, if_pos ha]
  · rw [hup.2.kept (by decide), hclear.kept (by decide), num_upto]
  · rw [hup.2.kept (by decide)]
    exact num_setNum_self _ _ _

theorem execRelease_owner (htaken : Taken s m tr) (howner : s.num Obj.owner = masterId m)
    (hsorted : Tab.sorted s.dict.groups = true) : Answers (exec (.release m tr t seq) s) fun u =>
      u.num Obj.owner = 0 ∧ u.num Obj.ownerPriority = 0 ∧ u.group (masterId m) = none ∧ KeepsParameters s u := by
  obtain ⟨hobj, hfree, hprio, -, hgroup⟩ := lapse_spec (At s m tr t)
  have hu : Sends (At s m tr t).lapse ((At s m tr t).lapse.answer m tr Oap.release 0 seq.toNat 0 []) := answer_sends _ _ _ _ _ _ _ _
  have hid : masterId m ≠ 0 := by cases m <;> simp [masterId]
  refine ⟨_, exec_release_taken htaken, ?_⟩
  rw [release, at_num, if_neg (by simp [howner])]
  rw [at_num, at_groups, howner] at hgroup
  refine ⟨?_, ?_, ?_, (at_keepsParameters s m tr t).trans ((hobj.keepsParameters (by decide)).trans hu.keepsParameters)⟩
  · rw [hu.kept (by decide), hfree]
  · rw [hu.kept (by decide), hprio]
  · rw [hu.group, hgroup hid hsorted]

theorem execHandover_owner {succ : Byte} (htaken : Taken s m tr) (howner : s.num Obj.owner = masterId m)
    (hother : succ.toNat ≠ masterId m) (hvalid : validClaimant succ.toNat = true)
    (hjtag : succ = 0xFE → s.num Obj.debugEnabled ≠ 0) : Answers (exec (.handover m tr t seq succ) s) fun u =>
      u.num Obj.handoverSuccessor = succ.toNat ∧ u.num Obj.owner = s.num Obj.owner ∧
      u.own = { s.own with leaseEnd := max s.now t + s.num Obj.leasePeriod * 1000000,
                           acceptBy := some (max s.now t + s.num Obj.leasePeriod * 1000000) } ∧ KeepsParameters s u := by
  obtain ⟨e, he⟩ : ∃ e, e = max s.now t + s.num Obj.leasePeriod * 1000000 := ⟨_, rfl⟩
  let b := ((At s m tr t).leased e (some e)).setNum Obj.handoverSuccessor succ.toNat
  have hb : KeepsObjects [Obj.handoverSuccessor] s b :=
    ((at_keepsObjects _).trans (leased_objects _ _ _ _)).trans (setNum_changes _ _ _).2
  have hup := updateOwner_changes b
  have hu : Sends b.updateOwner (b.updateOwner.answer m tr Oap.handover 0 seq.toNat 0 []) := answer_sends _ _ _ _ _ _ _ _
  have hrun : (At s m tr t).handover m tr seq.toNat succ.toNat = b.updateOwner.answer m tr Oap.handover 0 seq.toNat 0 [] := by
    have hdebug : ¬ (succ.toNat = 0xFE ∧ s.num Obj.debugEnabled = 0) := fun h => hjtag (BitVec.eq_of_toNat_eq h.1) h.2
    rw [handover, at_num, at_num, if_neg (by simp [howner]), if_neg (by simpa [hother, hvalid] using hdebug), renew_eq,
      leaseNs_eq, at_own, at_now, at_num, ← he]
    rfl
  refine ⟨_, exec_handover_taken htaken, ?_⟩
  rw [hrun, ← he]
  refine ⟨?_, ?_, ?_, ((hb.keepsParameters (by decide)).trans (hup.2.keepsParameters (by decide))).trans hu.keepsParameters⟩
  · rw [hu.kept (by decide), hup.2.kept (by decide), num_setNum_self]
  · rw [hu.kept (by decide), hup.2.kept (by decide),
      hb.kept (by decide)]
  · rw [hu.own, hup.own, setNum_own, leased_own, at_own]

theorem execHandoverAccept_successor {a : Nat} (htaken : Taken s m tr) (haccept : s.own.acceptBy = some a)
    (ha : max s.now t < a) (hsucc : s.num Obj.handoverSuccessor = masterId m) :
    Answers (exec (.handoverAccept m tr t seq) s) fun u =>
      u.num Obj.owner = masterId m ∧ u.num Obj.ownerPriority = s.num Obj.ownerPriority ∧
      u.own = { s.own with acceptBy := none, leaseEnd := max s.now t + s.num Obj.leasePeriod * 1000000 } ∧
      KeepsParameters s u := by
  let c := (At s m tr t).clearHandover
  let b := (c.setOwner (masterId m)).leased (max s.now t + s.num Obj.leasePeriod * 1000000) none
  have hc : KeepsObjects [Obj.handoverSuccessor] s c := (at_keepsObjects _).trans (clearHandover_objects _)
  have hset := setOwner_moves (masterId m) c
  have hb : KeepsObjects (Obj.handoverSuccessor :: setOwnerKeys) s b :=
    (hc.mono (by simp)).trans ((hset.objects.mono (by simp)).trans (leased_objects _ _ _ _))
  have hrenew : (c.setOwner (masterId m)).renew = b := by
    rw [renew_eq, leaseNs_eq, hset.own, hset.now, hset.objects.kept (by decide), hc.kept (by decide), clearHandover_own, clearHandover_now, at_now]
  have hup := updateOwner_changes b
  have hu : Sends b.updateOwner (b.updateOwner.answer m tr Oap.handover 0 seq.toNat 0 []) := answer_sends _ _ _ _ _ _ _ _
  have hrun : (At s m tr t).accept m tr seq.toNat = b.updateOwner.answer m tr Oap.handover 0 seq.toNat 0 [] := by
    simp [accept, at_own, haccept, at_now, ha, hsucc, ← hrenew, c]
  refine ⟨_, exec_handoverAccept_taken htaken, ?_⟩
  rw [hrun]
  refine ⟨?_, ?_, ?_, ((hb.keepsParameters (by decide)).trans (hup.2.keepsParameters (by decide))).trans hu.keepsParameters⟩
  · rw [hu.kept (by decide), hup.2.kept (by decide),
      num_leased, num_setOwner]
  · rw [hu.kept (by decide), hup.2.kept (by decide),
      hb.kept (by decide)]
  · rw [hu.own, hup.own, leased_own, hset.own, clearHandover_own, at_own]

end Clauses

/-- Settles O12: each message or deadline is one of the steps above; a window's winner is the first of the contestants,
in order of claimant ID, that none of the others outbids. -/
theorem ownershipMoves : Obligations.OwnershipMoves :=
  ⟨fun _ _ _ _ _ _ => execClaim_opens, fun _ _ _ _ _ _ => execClaim_renews,
    fun _ _ _ _ _ hwin hbest => ⟨winner_best (contestants_sorted _ _ _) hbest, execClaimWindowClose_won hwin hbest⟩,
    fun _ => execLeaseEnd_lapses, fun _ _ _ _ _ _ _ _ => execClaim_joins, fun _ _ => execLeaseEnd_handover,
    fun _ _ _ _ _ => execRelease_owner, fun _ _ _ _ _ _ => execHandover_owner,
    fun _ _ _ _ _ _ => execHandoverAccept_successor⟩

end Sys2Proof.Machine

/-! PROOFS. Reset commands from the field network: O59. -/

namespace Sys2Proof.Tab

variable {α : Type}

/-- A search that an entry at `a` stops does not see what is filtered out above `a`. -/
theorem find?_filter_of_listed {p : Nat × α → Bool} {a k : Nat} {t : Tab α} (hp : ∀ e, e.1 ≤ a → p e = true) (hk : k ≤ a)
    (ha : (find? t a).isSome = true) : find? (List.filter p t) k = find? t k := by
  induction t with
  | nil => rfl
  | cons e t ih =>
    obtain ⟨x, w⟩ := e
    have hx : x ≤ a := by
      by_contra hlt
      rw [find?, if_pos (by omega)] at ha
      cases ha
    rw [List.filter_cons_of_pos (hp _ hx), find?, find?]
    by_cases hxa : a = x
    · split
      · rfl
      · rw [if_pos (by omega), if_pos (by omega)]
    · rw [find?, if_neg (by omega), if_neg hxa] at ha
      rw [ih ha]

end Sys2Proof.Tab

namespace Sys2Proof.Machine

/-! ## What a reset of a cabinet or a block keeps

The objects of indices below 0x2100 are the management complex's own: a reset of a cabinet or a block changes none of them but
its counts. It returns whole ranges of objects above to their defaults. In a list of objects that does not rise this could
uncover an entry below, but not past one that is listed: its count, made first, is. -/

/-- The sources asserted stand and no cabinet leaves its reset; and, where an object `a` below 0x2100 is listed, every object
up to it stands but for the masters' counts of dropped events. -/
structure KeepsLow (s u : State) : Prop where
  asserted : u.rst.asserted = s.rst.asserted
  held : ∀ c, s.inCReset c = true → u.inCReset c = true
  objects : ∀ a, a < 0x210000 → a % 256 ≠ 0x12 → (s.obj.find? a).isSome = true →
    ∀ k, k ≤ a → k % 256 ≠ 0x12 → u.obj.find? k = s.obj.find? k

namespace KeepsLow

variable {s t u : State}

theorem of_eq (hr : u.rst = s.rst) (ho : u.obj = s.obj) : KeepsLow s u :=
  ⟨by rw [hr], fun c h => by rwa [State.inCReset, hr], fun _ _ _ _ _ _ _ => by rw [ho]⟩

theorem refl (s : State) : KeepsLow s s := of_eq rfl rfl

theorem trans (h₁ : KeepsLow s t) (h₂ : KeepsLow t u) : KeepsLow s u := by
  refine ⟨h₂.asserted.trans h₁.asserted, fun c hc => h₂.held c (h₁.held c hc), fun a ha hm hs k hk hk' => ?_⟩
  have ht : (t.obj.find? a).isSome = true := by rw [h₁.objects a ha hm hs a le_rfl hm, hs]
  rw [h₂.objects a ha hm ht k hk hk', h₁.objects a ha hm hs k hk hk']

theorem foldl {α : Type} {f : State → α → State} (hf : ∀ s a, KeepsLow s (f s a)) (l : List α) (s : State) :
    KeepsLow s (l.foldl f s) := by
  induction l generalizing s with
  | nil => exact refl s
  | cons x l ih => exact (hf s x).trans (ih _)

/-- What a reset has counted stands, and so do the objects below its count. -/
theorem num_bump (h : KeepsLow (s.bump a n) u) (ha : a < 0x210000) (hm : a % 256 ≠ 0x12) {k : Nat} (hk : k ≤ a)
    (hk' : k % 256 ≠ 0x12) : u.num k = (s.bump a n).num k := by
  have hlisted : ((s.bump a n).obj.find? a).isSome = true := by
    rw [State.bump, State.setNum, State.setVal, Tab.find?_put_self]
    rfl
  rw [State.num, State.val, h.objects a ha hm hlisted k hk hk']
  rfl

end KeepsLow

/-- The objects above are at the bases of their arrays and after. -/
theorem low_add {a : Nat} (c : Nat) (h : 0x210000 ≤ a) : 0x210000 ≤ a + c := Nat.le_add_right_of_le h

namespace KeepsLow

variable {s t : State} {k : Nat} (h : KeepsLow s t)
include h

theorem setVal (hk : 0x210000 ≤ k ∨ k % 256 = 0x12) (v : Val) : KeepsLow s (t.setVal k v) :=
  h.trans ⟨rfl, fun _ hc => hc, fun _ ha _ _ _ hx hm => Tab.find?_put_ne _ _ _ _ (by rintro rfl; omega)⟩

theorem setNum (hk : 0x210000 ≤ k) (n : Nat) : KeepsLow s (t.setNum k n) := h.setVal (.inl hk) _
theorem setBytes (hk : 0x210000 ≤ k) (l : List Byte) : KeepsLow s (t.setBytes k l) := h.setVal (.inl hk) _
theorem bump (hk : 0x210000 ≤ k) (n : Nat) : KeepsLow s (t.bump k n) := h.setVal (.inl hk) _
theorem high (hk : 0x210000 ≤ k) (n : Nat) : KeepsLow s (t.high k n) := h.setVal (.inl hk) _

theorem queueEvent (e : Event) (m : Nat) : KeepsLow s (t.queueEvent e m) := by
  unfold State.queueEvent
  dsimp only
  have hq : KeepsLow s { t with dict := { t.dict with
      queues := t.dict.queues.put m ((t.dict.queues.get MasterQ.empty m).add e) } } := h.trans (of_eq rfl rfl)
  split
  · exact hq.setVal (.inr (eventsDropped_mod m)) _
  · exact hq

theorem raiseVal (k b : Nat) (v : Val) : KeepsLow s (t.raiseVal k b v) :=
  h.trans (foldl (fun u m => (refl u).queueEvent ⟨k, b, 1, v, u.now⟩ m) _ t)

theorem setFlag (hk : 0x210000 ≤ k) (b : Nat) : KeepsLow s (t.setFlag k b) := (h.setNum hk _).raiseVal _ _ _

theorem setState (hk : 0x210000 ≤ k) (v : Nat) : KeepsLow s (t.setState k v) := by
  unfold State.setState
  split
  · exact h
  · exact (h.setNum hk _).raiseVal _ _ _

theorem poke (a : Nat) (l : List Byte) : KeepsLow s (t.poke a l) := h.trans (of_eq rfl rfl)

theorem withHealth (x : HealthState) : KeepsLow s { t with health := x } := h.trans (of_eq rfl rfl)

theorem dfltObjs {lo : Nat} (hlo : 0x210000 ≤ lo) (hi : Nat) : KeepsLow s (t.dfltObjs lo hi) := by
  refine h.trans ⟨rfl, fun _ hc => hc, fun a ha _ hs k hk _ => Tab.find?_filter_of_listed (fun e he => ?_) hk hs⟩
  have : ¬ lo ≤ e.1 := by omega
  simp [this]

end KeepsLow

namespace State

variable (s : State)

theorem unpark_low (c : Nat) : KeepsLow s (s.unpark c) := by
  unfold unpark
  split
  · refine .setState (.setState (.refl s) ?_ _) ?_ _ <;> exact low_add _ (by decide)
  · exact KeepsLow.refl s

theorem dropCabinet_low (c : Nat) (b : Bool) : KeepsLow s (s.dropCabinet c b) := KeepsLow.of_eq rfl rfl

theorem nextChange_low (l : List Nat) : KeepsLow s (s.nextChange l) := by
  induction l with
  | nil =>
    refine .setFlag (.setState (.bump (.setNum (.setNum (k := Obj.activeOperatingPoint) ?_ ?_ _) ?_ _) ?_ _) ?_ _) ?_ _
    · exact KeepsLow.of_eq rfl rfl
    all_goals decide
  | cons c l ih =>
    unfold nextChange
    split
    · exact ih
    · refine KeepsLow.setState (.setNum ?_ ?_ _) ?_ _
      · exact KeepsLow.of_eq rfl rfl
      · decide
      · exact low_add _ (by decide)

theorem skipChange_low (c : Nat) : KeepsLow s (s.skipChange c) := by
  unfold skipChange
  split
  · exact KeepsLow.refl s
  · split
    · exact nextChange_low s _
    · exact KeepsLow.of_eq rfl rfl

theorem stopLoops_low (c : Nat) : KeepsLow s (s.stopLoops c) :=
  KeepsLow.foldl (fun t n => (KeepsLow.refl t).setState (low_add _ (low_add _ (by decide))) _) _ s

theorem endRegions_low (c : Nat) (f : Nat → Nat) : KeepsLow s (s.endRegions c f) := by
  refine KeepsLow.foldl (fun t r => ?_) _ s
  have hset : KeepsLow t (t.setRegion r { t.region r with steps := [] }) := KeepsLow.of_eq rfl rfl
  exact hset.setState (low_add _ (low_add _ (by decide))) _

theorem loadReset_low (c : Nat) : KeepsLow s (s.loadReset c) := by
  unfold loadReset
  split
  · exact KeepsLow.refl s
  · exact KeepsLow.of_eq rfl rfl

theorem setChanSt_low (k : Nat) (st : DmaSt) : KeepsLow s (s.setChanSt k st) := by
  unfold setChanSt
  split
  · exact KeepsLow.refl s
  · have hset : KeepsLow s (s.setDma k { s.dmaCh k with st := st }) := KeepsLow.of_eq rfl rfl
    dsimp only
    split
    · exact hset.raiseVal _ _ _
    · exact hset

theorem resetChans_low (c : Nat) : KeepsLow s (s.resetChans c) := by
  refine KeepsLow.foldl (fun t i => ?_) _ s
  exact (setChanSt_low t (32 * c + i) .idle).trans (KeepsLow.of_eq (setDma_rst _ _ _) (setDma_obj _ _ _))

theorem updateBridge_low (c : Nat) : KeepsLow s (s.updateBridge c) := by
  have hset (v : Nat) : KeepsLow s (s.setState (Obj.targetBridgeState + c) v) :=
    (KeepsLow.refl s).setState (low_add _ (by decide)) v
  unfold updateBridge
  dsimp only
  split
  · exact hset 3
  · split
    · split
      · exact KeepsLow.refl s
      · exact hset 1
    · exact hset 0

theorem loseSaved_low (c : Nat) : KeepsLow s (s.loseSaved c) := KeepsLow.of_eq rfl rfl

theorem logFault_low (f : FaultRec) (rung : Nat) : KeepsLow s (s.logFault f rung) := by
  unfold logFault
  dsimp only
  have hlast : KeepsLow s (((s.bump Obj.faultsRecorded 1).setBytes Obj.lastFault
      (f.bytes (s.num Obj.faultsRecorded + 1) rung (s.since f.t))).raise Obj.lastFault 0) :=
    (((KeepsLow.refl s).bump (by decide) _).setBytes (by decide) _).raiseVal _ _ _
  split
  · refine .high (.bump ?_ (low_add _ (by decide)) _) (low_add _ (by decide)) _
    split
    · exact (hlast.withHealth _).setFlag (by decide) _
    · exact hlast.withHealth _
  · split
    · exact (hlast.withHealth _).setFlag (by decide) _
    · exact hlast.withHealth _

theorem updateHealth_low : KeepsLow s s.updateHealth := (KeepsLow.refl s).setState (by decide) _

theorem dropRungs_low (p : Rung → Bool) : KeepsLow s (s.dropRungs p) :=
  ((KeepsLow.refl s).withHealth _).trans (updateHealth_low _)

theorem supersede_low (p : Rung → Bool) : KeepsLow s (s.supersede p) := by
  unfold supersede
  refine (dropRungs_low s p).trans (KeepsLow.foldl (fun t q => ?_) _ _)
  exact logFault_low t q.record 0xFF

theorem putLeaf_low (c asn page : Nat) (large : Bool) (leaf : Nat) : KeepsLow s (s.putLeaf c asn page large leaf) := by
  unfold putLeaf
  extract_lets t1 t2 t0 u v
  clear_value t1 t2 t0
  have hv : KeepsLow s v := ((KeepsLow.refl s).poke _ _).poke _ _
  clear_value v
  split
  · exact hv.poke _ _
  · exact (hv.poke _ _).poke _ _

theorem putLeaves_low (asn page : Nat) (large : Bool) (leaf : Nat) : KeepsLow s (s.putLeaves asn page large leaf) := by
  unfold putLeaves
  exact KeepsLow.foldl (f := fun t c => t.putLeaf c asn page large leaf) (fun t c => putLeaf_low t c asn page large leaf) _ s

theorem invalidate_low (asn page : Nat) : KeepsLow s (s.invalidate asn page) := KeepsLow.of_eq rfl rfl

theorem unloadPages_low (l : List (Nat × Bool × Nat × Bool)) : KeepsLow s (s.unloadPages l) := by
  refine KeepsLow.foldl (fun t x => ?_) l s
  dsimp only
  split
  · exact KeepsLow.refl t
  · exact (invalidate_low t _ _).trans (putLeaves_low _ _ _ _ _)

theorem uncountRows_low (c : Nat) : KeepsLow s (s.uncountRows c) := (KeepsLow.refl s).setNum (by decide) _

/-! ### The proposal of a freeze -/

/-- A flit that is not carried counts (R446). -/
theorem discardFlit_low : KeepsLow s ((s.bump Obj.routeDiscards 1).setFlag Obj.linkFlags 8) :=
  ((KeepsLow.refl s).bump (by decide) _).setFlag (by decide) _

theorem deliver_low (f : Flit) : KeepsLow s (s.deliver f) := by
  unfold deliver
  split
  · exact KeepsLow.of_eq rfl rfl
  · exact KeepsLow.refl s

theorem toPort_low (inp p : Nat) (f : Flit) : KeepsLow s (s.toPort inp p f) := by
  unfold toPort
  dsimp only
  split
  · exact KeepsLow.of_eq rfl rfl
  · exact discardFlit_low s

theorem sendFlit_low (vc dest : Nat) (body : List Byte) : KeepsLow s (s.sendFlit vc false dest body) := by
  unfold sendFlit route
  rw [if_neg (by simp)]
  split
  · exact deliver_low s _
  · dsimp only
    split
    · exact toPort_low s _ _ _
    · split
      · exact deliver_low s _
      · exact discardFlit_low s

theorem sendNotices_low : KeepsLow s s.sendNotices := by
  refine KeepsLow.foldl (fun t n => ?_) _ s
  exact sendFlit_low t _ _ _

theorem failLock_low (cause : Nat) : KeepsLow s (s.failLock cause) :=
  (((KeepsLow.refl s).setNum (by decide) _).setState (by decide) _).setFlag (by decide) _

theorem enterFrozen_low : KeepsLow s s.enterFrozen := by
  unfold enterFrozen
  dsimp only
  refine (KeepsLow.bump (.setFlag (.setState (.setNum (.refl s) ?_ _) ?_ _) ?_ _) ?_ _).trans (KeepsLow.foldl (fun t c => ?_) _ _)
  on_goal 5 =>
    split
    · exact (KeepsLow.refl t).setState (low_add _ (by decide)) _
    · exact KeepsLow.refl t
  all_goals decide

theorem propose_low (f origin cause : Nat) : KeepsLow s (s.propose f origin cause) := by
  unfold propose
  split
  · exact KeepsLow.of_eq rfl rfl
  split
  · exact KeepsLow.refl s
  split
  · split
    · exact (KeepsLow.refl s).setNum (by decide) _
    · exact KeepsLow.refl s
  split
  · exact (((KeepsLow.refl s).setFlag (by decide) _).bump (by decide) _).trans (failLock_low _ _)
  · extract_lets v w x
    have hv : KeepsLow s v := (((KeepsLow.refl s).setNum (by decide) _).setNum (by decide) _).setNum (by decide) _
    have hw : KeepsLow s w := hv.trans (sendNotices_low v)
    have hx : KeepsLow s x := hw.setState (by decide) _
    clear_value w x
    split
    · exact hw
    · split
      · exact hx.trans (enterFrozen_low x)
      · exact hx

/-! ### A cabinet's reset (R479, R492) -/

/-- The cabinet is in C reset, at the start of its exit. -/
theorem enterCReset_low (c : Nat) : KeepsLow s { s with rst := { s.rst with cabExit := s.rst.cabExit.put c 0 } } := by
  refine ⟨rfl, fun d hd => ?_, fun _ _ _ _ _ _ _ => rfl⟩
  by_cases h : d = c
  · rw [h, inCReset, Tab.find?_put_self]
    rfl
  · rw [inCReset] at hd ⊢
    rwa [Tab.find?_put_ne _ _ _ _ h]

theorem inCReset_enter (c : Nat) :
    State.inCReset { s with rst := { s.rst with cabExit := s.rst.cabExit.put c 0 } } c = true := by
  rw [inCReset, Tab.find?_put_self]
  rfl

theorem tileKey_low {base : Nat} (g : Nat) (h : 0x210000 ≤ base) : 0x210000 ≤ tileKey base g := low_add _ (low_add _ h)

theorem resetCabinet_low {c : Nat} (hlost : (s.bump Obj.cabinetResets 1).lost c = false)
    (hjobs : (s.bump Obj.cabinetResets 1).jobsAt c = []) :
    KeepsLow (s.bump Obj.cabinetResets 1) (s.resetCabinet c) ∧ (s.resetCabinet c).inCReset c = true := by
  unfold resetCabinet
  extract_lets b hit pages s₁ s₂ r s₃ s₄ s₅ s₆ s₇ s₈ s₉ f s₁₀ s₁₁ s₁₂ s₁₃ s₁₄ s₁₅
  have hhit : hit = [] := hjobs
  rw [if_neg (by simpa [b] using hlost)]
  have h₁ : KeepsLow b s₁ := ((KeepsLow.refl b).setState (low_add _ (by decide)) _).setState (low_add _ (by decide)) _
  have h₂ : KeepsLow b s₂ := ((h₁.trans (unpark_low _ c)).setState (low_add _ (by decide)) _).setState
    (low_add _ (low_add _ (by decide))) _
  have h₃ : KeepsLow b s₃ := h₂.trans (enterCReset_low s₂ c)
  have hin : s₃.inCReset c = true := inCReset_enter s₂ c
  clear_value s₃
  have h₄ : KeepsLow s₃ s₄ := (dropCabinet_low s₃ c true).trans (skipChange_low _ c)
  clear_value s₄
  have h₅ : KeepsLow s₄ s₅ := KeepsLow.foldl (fun t n => (KeepsLow.refl t).setState (tileKey_low _ (by decide)) _) _ _
  clear_value s₅
  have h₆ : KeepsLow s₅ s₆ := ((KeepsLow.refl s₅).setState (low_add _ (by decide)) _).trans (stopLoops_low _ c)
  clear_value s₆
  have h₇ : KeepsLow s₆ s₇ := (uncountRows_low s₆ c).dfltObjs (low_add _ (by decide)) _
  clear_value s₇
  have h₈ : KeepsLow s₇ s₈ := (KeepsLow.refl s₇).dfltObjs (low_add _ (by decide)) _
  clear_value s₈
  have h₉ : KeepsLow s₈ s₉ := endRegions_low s₈ c _
  clear_value s₉
  have h₁₀ : KeepsLow s₉ s₁₀ := KeepsLow.of_eq rfl rfl
  clear_value s₁₀
  have h₁₁ : KeepsLow s₁₀ s₁₁ := (loadReset_low s₁₀ c).trans (KeepsLow.of_eq rfl rfl)
  clear_value s₁₁
  have h₁₂ : KeepsLow s₁₁ s₁₂ := ((resetChans_low s₁₁ c).trans (updateBridge_low _ c)).trans (loseSaved_low _ c)
  clear_value s₁₂
  have h₁₃ : s₁₃ = s₁₂ := by rw [show s₁₃ = hit.foldl (fun s e => s.takeBack c e.1) s₁₂ from rfl, hhit]; rfl
  clear_value s₁₃
  have h₁₄ : KeepsLow s₁₃ s₁₄ := (supersede_low s₁₃ _).trans (unloadPages_low _ pages)
  clear_value s₁₄
  have h₁₅ : KeepsLow s₁₄ s₁₅ := by
    unfold s₁₅
    split
    · exact propose_low _ _ _ _
    · exact KeepsLow.refl _
  subst h₁₃
  have hrest : KeepsLow s₃ s₁₅.updateHealth :=
    h₄.trans <| h₅.trans <| h₆.trans <| h₇.trans <| h₈.trans <| h₉.trans <| h₁₀.trans <| h₁₁.trans <| h₁₂.trans <|
      h₁₄.trans <| h₁₅.trans <| updateHealth_low s₁₅
  exact ⟨h₃.trans hrest, hrest.held c hin⟩

theorem lost_bump (n c : Nat) : (s.bump Obj.cabinetResets n).lost c = s.lost c := by
  have hne : Obj.cabinetHealth + c ≠ Obj.cabinetResets := ne_of_gt (lt_of_lt_of_le (by decide) (Nat.le_add_right _ c))
  rw [lost, num_bump_ne _ _ _ _ hne, lost]

theorem walk_of_mem {s u : State} (h : u.mem = s.mem) (va l table : Nat) : u.walk va l table = s.walk va l table := by
  have hread (a n : Nat) : u.readNat a n = s.readNat a n := by simp only [readNat, read, byte, h]
  induction l generalizing table with
  | zero => simp only [walk, atLeaf, hread]
  | succ l ih => simp only [walk, hread, ih]

/-- Which jobs R279 names for a cabinet follows from the parts read here, and from the cabinets that are lost. -/
theorem jobsAt_congr {s u : State} (hlost : u.lost = s.lost) (hrst : u.inCReset = s.inCReset) (hmem : u.mem = s.mem)
    (hmm : u.mm = s.mm) (hjobs : u.jobs = s.jobs) (hcolls : u.colls = s.colls) (hstreams : u.streams = s.streams) (c : Nat) :
    u.jobsAt c = s.jobsAt c := by
  have hcabs : u.cabsOf = s.cabsOf := by funext asn; simp only [cabsOf, jobOfAsn, hlost, hrst, hjobs]
  have hleaf (asn p : Nat) : u.leafOf asn p = s.leafOf asn p := by simp only [leafOf, hcabs, walk_of_mem hmem]
  have hpages : u.pagesAt c = s.pagesAt c := by simp only [pagesAt, hmm, hleaf]
  have hslots (id : Nat) : u.slotsOf id = s.slotsOf id := by simp only [slotsOf, coll, hcolls]
  have hstr (id : Nat) : u.streamsOf id = s.streamsOf id := by simp only [streamsOf, hstreams]
  simp only [jobsAt, touches, hjobs, hpages, hslots, hstr]

/-- Which jobs R279 names does not follow from the clock, the sources asserted or the count of resets. -/
theorem jobsAt_assert (c t n : Nat) (l : List ResetSource) :
    (bump Obj.cabinetResets n { s.upto t with rst := { s.rst with asserted := l } }).jobsAt c = s.jobsAt c :=
  jobsAt_congr (funext (lost_bump _ n)) rfl rfl rfl rfl rfl rfl c

/-! ### A block's reset (R479, R482) -/

theorem setColl_low (c : Nat) (q : Collector) : KeepsLow s (s.setColl c q) := by
  refine KeepsLow.setState (.high (.setNum ?_ ?_ _) ?_ _) ?_ _
  · exact KeepsLow.of_eq rfl rfl
  all_goals exact low_add _ (by decide)

theorem setDma_low (k : Nat) (h : DmaChan) : KeepsLow s (s.setDma k h) := KeepsLow.of_eq rfl rfl

theorem modFeed_low (k : Nat) (f : FeedS → FeedS) : KeepsLow s (s.modFeed k f) := KeepsLow.of_eq rfl rfl

theorem newPass_low : KeepsLow s s.newPass := KeepsLow.of_eq rfl rfl

theorem canUp_low (p : CanPort) : KeepsLow s (s.canUp p) := by
  unfold canUp
  cases p <;> exact (KeepsLow.refl s).setState (by decide) _

theorem resetBlock_low (code : Nat) : KeepsLow (s.bump Obj.blockResets 1) (s.resetBlock code) := by
  unfold resetBlock
  extract_lets c b
  change KeepsLow b _
  clear_value b
  split
  · exact KeepsLow.foldl (fun t i => setDma_low t _ _) _ _
  · exact (setColl_low b c _).dfltObjs (low_add _ (by decide)) _
  · exact KeepsLow.foldl (fun t i => modFeed_low t _ _) _ _
  · have hset : KeepsLow b (b.setHost fun h => { h with window := [], discard := 0 }) := KeepsLow.of_eq rfl rfl
    exact hset.dfltObjs (by decide) _
  · have hset := ((KeepsLow.refl b).dfltObjs (lo := Obj.scrubPasses) (by decide) (Obj.scrubFlags + 1)).trans (newPass_low _)
    split
    · exact hset
    · exact hset.setState (by decide) _
  · have hset : KeepsLow b { b with lock := { State.reset.lock with inEffect := b.lock.inEffect } } := KeepsLow.of_eq rfl rfl
    exact (hset.dfltObjs (by decide) _).dfltObjs (by decide) _
  · dsimp only
    split <;> exact ((KeepsLow.refl b).setNum (by decide) 0).trans (canUp_low _ _)

theorem setColl_mem (c : Nat) (q : Collector) : (s.setColl c q).mem = s.mem := by
  rw [setColl, setState_mem, high_mem, setNum_mem]

theorem canUp_mem (p : CanPort) : (s.canUp p).mem = s.mem := by
  unfold canUp
  exact setState_mem _ _ s

theorem foldl_mem {α : Type} {f : State → α → State} (hf : ∀ s a, (f s a).mem = s.mem) (l : List α) (s : State) :
    (l.foldl f s).mem = s.mem := by
  induction l generalizing s with
  | nil => rfl
  | cons x l ih => exact (ih _).trans (hf s x)

theorem resetBlock_mem (code : Nat) : (s.resetBlock code).mem = s.mem := by
  unfold resetBlock
  extract_lets c b
  change _ = b.mem
  clear_value b
  split
  · refine foldl_mem (fun t i => ?_) _ b
    rfl
  · exact setColl_mem b c _
  · refine foldl_mem (fun t i => ?_) _ b
    rfl
  · rfl
  · split
    · rfl
    · rw [setState_mem]; rfl
  · rfl
  · dsimp only
    split <;> rw [canUp_mem, setNum_mem]

/-! ### The device's reset (R480) -/

/-- What a loss of power or a reset amid the store's work comes to: the store's work, and free values used. -/
def Loses (s u : State) : Prop := ∃ f, Stores (Obj.activeArea :: writeKeys) { s with free := f } u

theorem Loses.refl (s : State) : Loses s s := ⟨s.free, Stores.refl _ _⟩

theorem Loses.trans {s t u : State} (h₁ : Loses s t) (h₂ : Loses t u) : Loses s u := by
  obtain ⟨f, ht, hk⟩ := h₁
  obtain ⟨g, h₂⟩ := h₂
  have h₁ : Stores (Obj.activeArea :: writeKeys) { s with free := g } { t with free := g } := ⟨by rw [ht]; rfl, hk⟩
  exact ⟨g, h₁.trans h₂⟩

theorem tornRec_loses (r : PendRec) : Loses s (s.tornRec r) :=
  ⟨_, ((program_stores _ _ _).trans (setWritePos_stores _ _)).mono (by simp)⟩

theorem loseCopy_loses : Loses s s.loseCopy := by
  unfold loseCopy
  rw [fresh]
  dsimp only
  split
  · exact ⟨_, (copyInto_stores _ _).mono (by simp)⟩
  · split
    · exact ⟨_, Stores.refl _ _⟩
    · refine ⟨s.free + 1, ?_⟩
      generalize { s with free := s.free + 1 } = s₁
      have h₁ : Stores (Obj.activeArea :: writeKeys) s₁ (s₁.erase (areaBase (1 - s₁.num Obj.activeArea)) areaSize) :=
        store_stores _ _
      have h₂ := h₁.trans ((setNum_changes Obj.activeArea (1 - s₁.num Obj.activeArea) _).stores.mono (by simp))
      have h₃ := h₂.trans ((setWritePos_stores 0 _).mono (by simp))
      exact h₃.trans ((copyInto_stores _ _).mono (by simp))

theorem loseQueue_loses : Loses s s.loseQueue := by
  unfold loseQueue
  extract_lets t u
  have ht : Loses s t := by
    unfold t
    split
    · exact Loses.refl s
    · split
      · exact tornRec_loses s _
      · exact Loses.refl s
  have hu : Loses s u := by
    unfold u
    split
    · exact ht.trans (loseCopy_loses t)
    · exact ht
  exact hu.trans ⟨u.free, store_stores _ _⟩

theorem resetDevice_resetBy (src : ResetSource) : ResetBy src s (s.resetDevice src) := by
  obtain ⟨f, h⟩ := s.loseQueue_loses
  have hs := h.1
  have hst : s.loseQueue.num Obj.deviceState = s.num Obj.deviceState := h.num (by decide) (by decide)
  unfold resetDevice ResetBy
  extract_lets t r
  change t = _ at hs
  change t.num _ = _ at hst
  refine ⟨rfl, rfl, rfl, rfl, rfl, rfl, ?_, rfl, ?_, rfl, rfl, rfl, rfl, rfl, rfl, rfl, rfl, ?_, ?_, ?_, rfl, rfl, ?_, ?_⟩
  · change ({ State.reset.mm with cxlSet := t.mm.cxlSet, cxlGran := t.mm.cxlGran } : MmState) = _
    rw [hs]; rfl
  · change ({ State.reset.jobs with ckpts := t.jobs.ckpts } : JobsState) = _
    rw [hs]; rfl
  · change t.jtag = _
    rw [hs]; rfl
  · change t.pending = _
    rw [hs]; rfl
  · change (List.filter _ t.mem) = _
    rw [h.mem]
  · change src :: t.rst.asserted.filter (· ≠ src) = _
    rw [h.rst]
  · change (if t.num Obj.deviceState = 1 then t.rst.causes else 0) ||| src.cause = _
    rw [hst, h.rst]

/-! ### What FieldResetReach names (R92, R480 to R482) -/

section Reach

variable {s}

theorem bits_reach (n : Nat) : bits n 0 2 = n % 4 := by simp [bits]

theorem bits_named (n : Nat) : bits n 8 8 = n / 256 % 256 := by simp [bits]

theorem fieldReset_device (hn : s.num Obj.fieldResetReach % 4 = 1) : s.fieldReset = s.resetDevice .field := by
  rw [fieldReset]
  simp only [bits_reach, hn]

theorem fieldReset_cabinet (hn : s.num Obj.fieldResetReach % 4 = 2) {c : Cab}
    (hc : s.num Obj.fieldResetReach / 256 % 256 = c.val) : s.fieldReset = s.assertCabinet (.fieldCabinet c) c := by
  rw [fieldReset]
  simp only [bits_reach, bits_named, hn, hc, c.isLt, dite_true]

theorem fieldReset_block (hn : s.num Obj.fieldResetReach % 4 = 3) :
    s.fieldReset = if s.blockIdle (s.num Obj.fieldResetReach / 256 % 256)
      then s.resetBlock (s.num Obj.fieldResetReach / 256 % 256) else s.bump Obj.resetRequestsRefused 1 := by
  rw [fieldReset]
  simp only [bits_reach, bits_named, hn, assertBlock, Bool.false_and, Bool.false_eq_true, if_false]

/-- A cabinet whose reset the field network asserts is in it, counted, where it was not lost and had no job. -/
theorem assertCabinet_field {c : Cab} {t : Nat} (hreset : s.inReset = false) (hlost : s.lost c = false)
    (hjobs : s.jobsAt c = []) :
    let u := (s.upto t).assertCabinet (.fieldCabinet c) c
    ResetSource.fieldCabinet c ∈ u.rst.asserted ∧ u.inCReset c = true ∧ Counted Obj.cabinetResets 1 s u ∧
      u.num Obj.resetCommandsIgnored = s.num Obj.resetCommandsIgnored := by
  let l := ResetSource.fieldCabinet c :: s.rst.asserted.filter (· ≠ .fieldCabinet c)
  let v : State := { s.upto t with rst := { s.rst with asserted := l } }
  have hassert : (s.upto t).assertCabinet (.fieldCabinet c) c = v.resetCabinet c := by
    have hreset' : (s.upto t).inReset = false := hreset
    rw [assertCabinet]
    simp only [hreset', Bool.false_eq_true, if_false]
    rfl
  obtain ⟨hlow, hin⟩ := resetCabinet_low v (c := c) ((lost_bump v 1 c).trans hlost) ((jobsAt_assert s c t 1 l).trans hjobs)
  rw [hassert]
  refine ⟨?_, hin, ?_, ?_⟩
  · rw [hlow.asserted]
    exact List.mem_cons_self
  · rw [Counted, hlow.num_bump (by decide) (by decide) le_rfl (by decide), num_bump_self]
    rfl
  · rw [hlow.num_bump (by decide) (by decide) (by decide) (by decide), num_bump_ne _ _ _ _ (by decide)]
    rfl

end Reach

end State

/-- A frame's data are a reset command's and its source is the owner (R92). -/
def ResetsFromOwner (id : BitVec 29) (data : List Byte) (s : State) : Prop :=
  data = (0x5A : Byte) :: List.replicate 7 0 ∧ s.num Obj.owner = 0x40 + bits id.toNat 11 7

section Frames

variable {s : State} {port : CanPort} {t : Nat} {id : BitVec 29} {data : List Byte} (hfn : bits id.toNat 25 4 = 1)
  (hport : s.canTakes port = true) (hfor : s.canFor id = true) (hserve : s.rst.serve ≠ .recovery)
include hfn hport hfor hserve

theorem exec_resetCommandFrame_owner (hmine : ResetsFromOwner id data s) :
    exec (.resetCommandFrame port t id data) s = .next (s.upto t).fieldReset := by
  obtain ⟨hdata, howner⟩ := hmine
  have hport' : (s.upto t).canTakes port = true := hport
  have hfor' : (s.upto t).canFor id = true := hfor
  show execResetCommandFrame port t id data s = _
  simp [execResetCommandFrame, hfn, hport', hfor', hserve, hdata, howner]

theorem exec_resetCommandFrame_other (hmine : ¬ ResetsFromOwner id data s) :
    exec (.resetCommandFrame port t id data) s = .next ((s.upto t).bump Obj.resetCommandsIgnored 1) := by
  have hport' : (s.upto t).canTakes port = true := hport
  have hfor' : (s.upto t).canFor id = true := hfor
  show execResetCommandFrame port t id data s = _
  simp [execResetCommandFrame, hfn, hport', hfor', hserve]
  intro hdata howner
  exact absurd ⟨hdata, of_decide_eq_true howner⟩ hmine

end Frames

/-- Settles O59: a frame of the owner does what FieldResetReach names, and any other counts alone. -/
theorem resetCommandOnlyFromOwner : Obligations.ResetCommandOnlyFromOwner := by
  intro s port t id data hfn hport hfor hserve mine n
  have hreach : (s.upto t).num Obj.fieldResetReach = n := rfl
  have hmine : mine → exec (.resetCommandFrame port t id data) s = .next (s.upto t).fieldReset :=
    exec_resetCommandFrame_owner hfn hport hfor hserve
  refine ⟨fun h => ?_, fun h hn => ?_, fun h hn c hc hreset hlost hjobs => ?_, fun h hn hidle => ?_, fun h hn hidle => ?_⟩
  · exact ⟨_, exec_resetCommandFrame_other hfn hport hfor hserve h, State.num_bump_self _ _ _, State.bump_changes _ _ _⟩
  · refine ⟨_, hmine h, ?_⟩
    rw [State.fieldReset_device (s := s.upto t) hn]
    exact State.resetDevice_resetBy (s.upto t) .field
  · refine ⟨_, hmine h, ?_⟩
    rw [State.fieldReset_cabinet (s := s.upto t) hn hc]
    exact State.assertCabinet_field hreset hlost hjobs
  · refine ⟨_, hmine h, ?_⟩
    have hidle' : (s.upto t).blockIdle (n / 256 % 256) = true := hidle
    rw [State.fieldReset_block (s := s.upto t) hn, hreach, if_pos hidle']
    have hlow := State.resetBlock_low (s.upto t) (n / 256 % 256)
    refine ⟨?_, ?_, State.resetBlock_mem _ _⟩
    · rw [Counted, hlow.num_bump (by decide) (by decide) le_rfl (by decide), State.num_bump_self]
      rfl
    · rw [hlow.num_bump (by decide) (by decide) (by decide) (by decide), State.num_bump_ne _ _ _ _ (by decide)]
      rfl
  · refine ⟨_, hmine h, ?_⟩
    have hidle' : ¬ (s.upto t).blockIdle (n / 256 % 256) = true := by rw [show (s.upto t).blockIdle _ = false from hidle]; simp
    rw [State.fieldReset_block (s := s.upto t) hn, hreach, if_neg hidle']
    exact ⟨State.num_bump_self _ _ _, State.bump_changes _ _ _⟩

end Sys2Proof.Machine

/-! PROOFS. What serving a READ, and a segment of one, keeps: O15, O16. -/

namespace Sys2Proof.Machine

/-! ## What serving a READ keeps -/

/-- What serving reads comes to: memory, the tiles, the parameters and the head of the request ring stand. -/
structure Reads (s u : State) : Prop where
  mem : u.mem = s.mem
  tiles : u.tiles = s.tiles
  vals : ∀ k, isParameter k = true ∨ k = hostRec Obj.reqHead → u.val k = s.val k

namespace Reads

variable {s t u : State}

theorem refl (s : State) : Reads s s := ⟨rfl, rfl, fun _ _ => rfl⟩

theorem trans (h₁ : Reads s t) (h₂ : Reads t u) : Reads s u :=
  ⟨h₂.mem.trans h₁.mem, h₂.tiles.trans h₁.tiles, fun k hk => (h₂.vals k hk).trans (h₁.vals k hk)⟩

theorem of_keeps {l : List Nat} (hm : u.mem = s.mem) (ht : u.tiles = s.tiles) (hk : KeepsObjects l s u)
    (hl : l.all (!isParameter ·) = true) (hhead : hostRec Obj.reqHead ∉ l) : Reads s u := by
  refine ⟨hm, ht, fun k hp => ?_⟩
  rcases hp with hp | rfl
  · exact hk.parameter hl hp
  · exact hk _ hhead (ne_eventsDropped (by decide))

theorem keepsParameters (h : Reads s u) : KeepsParameters s u :=
  fun k _ hrow hacc => h.vals k (.inl (isParameter_of_row hrow hacc))

theorem ringServed (h : Reads s u) (hr : RingServed s) : RingServed u := by
  unfold RingServed State.num at hr ⊢
  rw [h.vals _ (.inr rfl), h.vals _ (.inl (by decide)), hr]

end Reads

theorem Sends.reads {s u : State} (h : Sends s u) : Reads s u := .of_keeps h.mem h.tiles h.2 (by decide) (by decide)

/-! ### Measurements -/

/-- No row of a parameter covers the index. -/
def quietIndex (i : Nat) : Bool := (rowsFor i).all fun r => !(r.acc = .rw || r.acc = .rwp) || !r.hasIdx i

theorem isParameter_of_quietIndex {k : Nat} (h : quietIndex (k / 256) = true) : isParameter k = false := by
  rw [isParameter, Option.any_eq_false]
  intro r hr
  rw [rowOf] at hr
  have hacc := List.all_eq_true.1 h r (List.mem_of_find?_eq_some hr)
  have hcovers := List.find?_some hr
  rw [Row.hasKey, Bool.and_assoc, Bool.and_eq_true] at hcovers
  simpa [hcovers.1] using hacc

/-- The indices of the tiles' counts of cycles. -/
theorem quietIndex_tileCounts :
    ∀ c < 8, ∀ f ∈ [0x0A, 0x0B, 0x0E, 0x0F], quietIndex (0x3000 + 256 * c + f) = true := by decide

/-- A measurement is of the objects that the device alone sets, above the masters' records. -/
def IsQuiet (k : Nat) : Prop := isParameter k = false ∧ 0x200000 ≤ k

namespace State

variable {s : State} {k : Nat}

theorem quiet_of_measures (h : s.measures k = true) : IsQuiet k := by
  simp only [measures, Bool.or_eq_true, Bool.and_eq_true, decide_eq_true_eq] at h
  rcases h with ((⟨⟨h₁, h₂⟩, -⟩ | rfl) | ⟨rfl, -⟩) | ⟨⟨h₁, h₂⟩, -⟩
  · change 0x210001 ≤ k at h₁
    change k < 0x210001 + 25 at h₂
    refine ⟨isParameter_of_quietIndex ?_, by omega⟩
    rw [show k / 256 = 0x2100 by omega]
    decide
  · exact ⟨by decide, by decide⟩
  · exact ⟨by decide, by decide⟩
  · change 0x411101 ≤ k at h₁
    change k < 0x411101 + 8 at h₂
    refine ⟨isParameter_of_quietIndex ?_, by omega⟩
    rw [show k / 256 = 0x4111 by omega]
    decide

theorem quiet_of_countsTime (h : s.countsTime k = true) : IsQuiet k := by
  simp only [countsTime, Bool.or_eq_true, Bool.and_eq_true, decide_eq_true_eq] at h
  rcases h with ⟨⟨⟨⟨⟨h₁, h₂⟩, -⟩, -⟩, hf⟩, -⟩ | rfl
  · have hfield : k / 256 % 256 ∈ [0x0A, 0x0B, 0x0E, 0x0F] := by
      rcases hf with ((hf | hf) | hf) | hf <;> rw [hf] <;> decide
    have hc := quietIndex_tileCounts (k / 0x10000 - 0x30) (by omega) _ hfield
    rw [show 0x3000 + 256 * (k / 0x10000 - 0x30) + k / 256 % 256 = k / 256 by omega] at hc
    exact ⟨isParameter_of_quietIndex hc, by omega⟩
  · exact ⟨by decide, by decide⟩

variable (s)

theorem setVal_reads (hk : IsQuiet k) (v : Val) : Reads s (s.setVal k v) := by
  refine .of_keeps rfl rfl (setVal_changes k v s).2 ?_ ?_
  · simp [hk.1]
  · rw [List.mem_singleton]
    exact ne_of_lt (lt_of_lt_of_le (by decide) hk.2)

theorem sample_reads (k : Nat) : Reads s (s.sample k) := by
  have hfresh : Reads s s.fresh.2 := ⟨rfl, rfl, fun _ _ => rfl⟩
  unfold sample
  split
  · next h => exact hfresh.trans (setVal_reads _ (quiet_of_measures h) _)
  · split
    · next h => exact hfresh.trans (setVal_reads _ (quiet_of_countsTime h) _)
    · exact Reads.refl s

theorem noteRead_reads (k : Nat) : Reads s (s.noteRead k) := by
  have hlog (x : HealthState) : Reads s { s with health := x } := ⟨rfl, rfl, fun _ _ => rfl⟩
  unfold noteRead
  split
  · exact hlog _
  · split
    · exact hlog _
    · exact Reads.refl s

theorem readVal_reads (k : Nat) : Reads s (s.readVal k).2 := (sample_reads s k).trans (noteRead_reads _ k)

theorem answerErr_reads (m : Master) (tr : Transport) (seq k code d : Nat) : Reads s (s.answerErr m tr seq k code d) :=
  (answerErr_sends _ _ _ _ _ _ _).reads

theorem serveRead_reads (m : Master) (tr : Transport) (seq k : Nat) : Reads s (s.serveRead m tr seq k) := by
  unfold serveRead
  split
  · exact answerErr_reads s _ _ _ _ _ _
  · exact (readVal_reads s k).trans (answer_sends _ _ _ _ _ _ _ _).reads

theorem groupPart_reads (k : Nat) : Reads s (groupPart k s).2 := by
  unfold groupPart
  dsimp only
  split
  · exact Reads.refl s
  · exact readVal_reads s k

theorem groupParts_reads (l : List Nat) (b : List Byte) : Reads s
    (l.foldl (fun (b, t) k => let (e, t) := groupPart k t; (b ++ e, t)) (b, s)).2 := by
  induction l generalizing b s with
  | nil => exact Reads.refl s
  | cons k l ih => exact (groupPart_reads s k).trans (ih _ _)

theorem serveGroupRead_reads (m : Master) (tr : Transport) (seq k : Nat) (l : List Byte) :
    Reads s (s.serveGroupRead m tr seq k l) := by
  unfold serveGroupRead
  split
  · exact answerErr_reads s _ _ _ _ _ _
  split
  · exact answerErr_reads s _ _ _ _ _ _
  dsimp only
  split
  · exact answerErr_reads s _ _ _ _ _ _
  · exact (groupParts_reads s _ _).trans (answer_sends _ _ _ _ _ _ _ _).reads

/-! ### Segments (R79, R80, R86) -/

theorem noteClient_reads (m : Master) (tr : Transport) : Reads s (s.noteClient m tr) := by
  cases m <;> exact ⟨rfl, rfl, fun _ _ => rfl⟩

theorem request_reads (m : Master) (tr : Transport) (t seq k : Nat) {f : State → State} (hf : ∀ u, Reads u (f u)) :
    Reads s (s.request m tr t seq k f) := by
  have hupto : Reads s (s.upto t) := ⟨rfl, rfl, fun _ _ => rfl⟩
  have hnote := hupto.trans (noteClient_reads _ m tr)
  unfold request
  extract_lets u off
  clear_value off
  split
  · exact hupto
  split
  · exact hnote.trans (answerErr_reads _ _ _ _ _ _ _)
  split
  · exact hnote.trans (answerErr_reads _ _ _ _ _ _ _)
  · exact hnote.trans (hf _)

theorem serveMessage_reads (m : Master) (tr : Transport) {h : List Byte} (hread : headType h = Oap.read) (pay : List Byte) :
    Reads s (s.serveMessage m tr h pay) := by
  unfold serveMessage
  dsimp only
  split
  · exact request_reads s _ _ _ _ _ fun u => answerErr_reads u _ _ _ _ _ _
  · rw [if_pos hread]
    split
    · exact request_reads s _ _ _ _ _ fun u => serveGroupRead_reads u _ _ _ _ _
    · exact request_reads s _ _ _ _ _ fun u => serveRead_reads u _ _ _ _

theorem setPartial_reads (m : Master) (tr : Transport) (p : Option Partial) : Reads s (s.setPartial m tr p) :=
  ⟨rfl, rfl, fun _ _ => rfl⟩

theorem discardSegment_reads : Reads s s.discardSegment :=
  .of_keeps rfl rfl (bump_changes Obj.segmentsDiscarded 1 s).2 (by decide) (by decide)

theorem dropPartial_reads (m : Master) (tr : Transport) (code : Nat) : Reads s (s.dropPartial m tr code) := by
  unfold dropPartial
  split
  · exact Reads.refl s
  · exact ((setPartial_reads s m tr none).trans (answerErr_reads _ _ _ _ _ _ _)).trans (discardSegment_reads _)

theorem takeSegment_reads (m : Master) (tr : Transport) {p : Partial} (hread : headType p.head = Oap.read) (h pay : List Byte) :
    Reads s (s.takeSegment m tr p h pay) := by
  unfold takeSegment
  dsimp only
  have hset (q : Partial) := setPartial_reads s m tr (some q)
  split
  · exact (hset _).trans (dropPartial_reads _ _ _ _)
  split
  · exact hset _
  · exact ((hset _).trans (setPartial_reads _ m tr none)).trans (serveMessage_reads _ m tr hread _)

theorem headType_take (bytes : List Byte) : headType (bytes.take 8) = headType bytes := by
  cases bytes <;> simp [headType, field, slice]

theorem segment_reads (m : Master) (tr : Transport) {bytes : List Byte} (hread : headType bytes = Oap.read) :
    Reads s (s.segment m tr bytes) := by
  have hhead : headType (bytes.take 8) = Oap.read := (headType_take bytes).trans hread
  unfold segment
  extract_lets h pay new
  have hnew (u : State) : Reads u (new u) := by
    unfold new
    split
    · exact discardSegment_reads u
    split
    · split
      · exact (answerErr_reads u _ _ _ _ _ _).trans (discardSegment_reads _)
      · exact answerErr_reads u _ _ _ _ _ _
    · exact takeSegment_reads u m tr hhead _ _
  split
  · exact (dropPartial_reads s _ _ _).trans (answerErr_reads _ _ _ _ _ _ _)
  split
  · exact hnew s
  split
  · exact (dropPartial_reads s _ _ _).trans (hnew _)
  split
  · exact dropPartial_reads s _ _ _
  · next p _ hcont _ =>
    refine takeSegment_reads s m tr ?_ _ _
    simp only [Bool.or_eq_true, Bool.not_eq_true', not_or, Bool.not_eq_false] at hcont
    obtain ⟨-, hp⟩ := hcont
    simp only [Partial.continues, Bool.and_eq_true, decide_eq_true_eq] at hp
    obtain ⟨⟨⟨⟨⟨⟨htype, -⟩, -⟩, -⟩, -⟩, -⟩, -⟩ := hp
    exact htype.symm.trans hhead

/-- A segment of a READ, whatever becomes of it. -/
theorem receive_reads (m : Master) (tr : Transport) {bytes : List Byte} (hread : headType bytes = Oap.read) :
    Reads s (s.receive m tr bytes) := by
  unfold receive
  split
  · exact Reads.refl s
  dsimp only
  have hnote := noteClient_reads s m tr
  split
  · split
    · exact hnote.trans (answerErr_reads _ _ _ _ _ _ _)
    · exact hnote
  · exact hnote.trans (segment_reads _ m tr hread)

end State
end Sys2Proof.Machine

/-! PROOFS. The rings, error confinement and the reset command: O16. -/

namespace Sys2Proof.Machine

/-! ## The ring registers (R95) -/

section Rings

variable {s : State} {t v : Nat}

/-- A 16-bit register of the host's record that is not kept, written through the linear map with its checks passed. -/
theorem serveOwn_linear_u16 {u : State} {k : Nat} {r : Row} {h : Handler} (hserve : s.rst.serve = .full)
    (hrights : (s.upto t).rightsErr 1 k = none) (hrow : rowOf k = some r) (hty : r.ty = .u16) (hacc : r.acc = .rw)
    (hv : v ≤ 0xFFFF) (hall : (s.upto t).allowed r k (.num v) = true) (hdo : h (.num v) ((s.upto t).setNum k v) = .ok u) :
    serveOwn ⟨.linear, t⟩ k (leBytes 2 v) h s = u := by
  have hfixed : r.ty.fixed = true := by rw [hty]; rfl
  have hdec : decodeVal r.ty (leBytes 2 v) = some (.num v) := by
    rw [hty, decodeVal, leBytes_length, leNat_leBytes 2 v (by omega)]
    rfl
  have hdo' : h (.num v) ((s.upto t).setVal k (.num v)) = .ok u := hdo
  simp [serveOwn, hserve, State.linearWrite, hrights, hrow, hfixed, hdec, hall, State.doWrite, State.applyVal, hacc, hdo']

/-- A pointer of the rings may take any value below their size. -/
theorem allowed_ringPointer {k : Nat} {r : Row} (hidx : k / 256 = 0x1101) (hsub : 8 < k % 256) (hty : r.ty = .u16)
    (hrule : r.allow = .rule) (hv : v ≤ 0xFFFF) (hlt : v < s.num (hostRec Obj.ringSlots)) : s.allowed r k (.num v) = true := by
  have hmax : v ≤ ObjType.u16.max := hv
  have hlt' : v < s.num (mrKey Obj.ringSlots (0x1101 - 0x1100)) := hlt
  simp [State.allowed, hty, hrule, typeOk, hmax, State.allowedByRule, hidx, Nat.not_le_of_lt hsub, Val.toNat, hlt']

theorem serveSlots_of_ringServed (n : Nat) (l : List (List Byte)) (h : RingServed s) : s.serveSlots n l = s := by
  unfold RingServed at h
  cases n <;> simp [State.serveSlots, h]

/-- A slot that waits alone is served, and its head moves to the tail; what it carries is a READ, which moves neither. -/
theorem serveSlots_one {n slots : Nat} {b : List Byte} (hslots : s.num (hostRec Obj.ringSlots) = slots) (hpos : slots ≠ 0)
    (hhead : s.num (hostRec Obj.reqHead) ≠ s.num (hostRec Obj.reqTail))
    (htail : (s.num (hostRec Obj.reqHead) + 1) % slots = s.num (hostRec Obj.reqTail)) (hup : s.hostUp = true)
    (hserve : s.rst.serve = .full) (hread : headType b = Oap.read) :
    s.serveSlots (n + 1) [b] = (s.setNum (hostRec Obj.reqHead) (s.num (hostRec Obj.reqTail))).receive .host .pcie b := by
  have hring : RingServed (s.setNum (hostRec Obj.reqHead) (s.num (hostRec Obj.reqTail))) := by
    rw [RingServed, State.num_setNum_self, State.num_setNum_ne _ _ _ _ (by decide)]
  simp only [State.serveSlots, hslots, hpos, hhead, hup, hserve, htail, decide_false, Bool.not_true, Bool.or_false,
    Bool.false_eq_true, if_false, List.drop_one, List.tail_cons, reduceCtorEq]
  exact serveSlots_of_ringServed _ _ ((State.receive_reads _ _ _ hread).ringServed hring)

theorem exec_reqTailWrite {b : List Byte} (hserve : s.rst.serve = .full)
    (hrights : (s.upto t).rightsErr 1 (hostRec Obj.reqTail) = none) (hup : s.hostUp = true)
    (hlt : v < s.num (hostRec Obj.ringSlots)) (hv : v ≤ 0xFFFF)
    (hnext : (s.num (hostRec Obj.reqHead) + 1) % s.num (hostRec Obj.ringSlots) = v) (hhead : s.num (hostRec Obj.reqHead) ≠ v)
    (hread : headType b = Oap.read) : exec (.reqTailWrite ⟨.linear, t⟩ (leBytes 2 v) [b]) s =
      .next ((((s.upto t).setNum (hostRec Obj.reqTail) v).setNum (hostRec Obj.reqHead) v).receive .host .pcie b) := by
  have hown : serveOwn ⟨.linear, t⟩ (hostRec Obj.reqTail) (leBytes 2 v) Handler.plain s =
      (s.upto t).setNum (hostRec Obj.reqTail) v :=
    serveOwn_linear_u16 hserve hrights (r := ⟨0x11010d, 1, 1, 0, .u16, .rw, false, false, .num 0, .rule⟩) (by decide) rfl rfl hv
      (allowed_ringPointer (by decide) (by decide) rfl rfl hv hlt) rfl
  have hslots : ((s.upto t).setNum (hostRec Obj.reqTail) v).num (hostRec Obj.ringSlots) = s.num (hostRec Obj.ringSlots) :=
    State.num_setNum_ne _ _ _ _ (by decide)
  have hhead' : ((s.upto t).setNum (hostRec Obj.reqTail) v).num (hostRec Obj.reqHead) = s.num (hostRec Obj.reqHead) :=
    State.num_setNum_ne _ _ _ _ (by decide)
  have htail : ((s.upto t).setNum (hostRec Obj.reqTail) v).num (hostRec Obj.reqTail) = v := State.num_setNum_self _ _ _
  have hup' : ((s.upto t).setNum (hostRec Obj.reqTail) v).hostUp = true := by
    rw [← hup, State.hostUp, State.num_setNum_ne _ _ _ _ (by decide)]
    rfl
  show execReqTailWrite _ _ _ s = _
  rw [execReqTailWrite, hown]
  refine congrArg Host.Outcome.next ((serveSlots_one hslots (by omega) ?_ ?_ hup' hserve hread).trans ?_)
  · rwa [hhead', htail]
  · rwa [hhead', htail]
  · rw [htail]

theorem exec_rspHeadWrite (hserve : s.rst.serve = .full) (hrights : (s.upto t).rightsErr 1 (hostRec Obj.rspHead) = none)
    (hlt : v < s.num (hostRec Obj.ringSlots)) (hv : v ≤ 0xFFFF) : exec (.rspHeadWrite ⟨.linear, t⟩ (leBytes 2 v)) s =
      .next ((s.upto t).setNum (hostRec Obj.rspHead) v).flushHeld := by
  have hown : serveOwn ⟨.linear, t⟩ (hostRec Obj.rspHead) (leBytes 2 v) Handler.plain s =
      (s.upto t).setNum (hostRec Obj.rspHead) v :=
    serveOwn_linear_u16 hserve hrights (r := ⟨0x110110, 1, 1, 0, .u16, .rw, false, false, .num 0, .rule⟩) (by decide) rfl rfl hv
      (allowed_ringPointer (by decide) (by decide) rfl rfl hv hlt) rfl
  show execRspHeadWrite _ _ s = _
  rw [execRspHeadWrite, hown]

/-- With nothing held back, nothing goes out. -/
theorem flushHeld_of_held_nil (h : s.dict.held = []) : s.flushHeld = s := by
  have hs : ({ s with dict := { s.dict with held := [] } } : State) = s := by rw [← h]
  rw [State.flushHeld, h, List.foldl_nil, hs]

/-- The four pointers of the host's rings return to 0. -/
def ringsCleared (s : State) : State :=
  (((s.setNum (hostRec Obj.reqTail) 0).setNum (hostRec Obj.reqHead) 0).setNum (hostRec Obj.rspTail) 0).setNum
    (hostRec Obj.rspHead) 0

theorem execOapRingConfigWrite_slots (hserve : s.rst.serve = .full)
    (hrights : (s.upto t).rightsErr 1 (hostRec Obj.ringSlots) = none) (hheld : s.dict.held = []) :
    exec (.oapRingConfigWrite ⟨.linear, t⟩ 0x0C (leBytes 2 32)) s =
      .next (ringsCleared ((s.upto t).setNum (hostRec Obj.ringSlots) 32)) := by
  have hown : serveOwn ⟨.linear, t⟩ (hostRec Obj.ringSlots) (leBytes 2 32) writeOapRing s =
      ringsCleared ((s.upto t).setNum (hostRec Obj.ringSlots) 32) :=
    serveOwn_linear_u16 hserve hrights (r := ⟨0x11010c, 1, 1, 0, .u16, .rw, false, false, .num 0, .ring 16 4096⟩) (by decide)
      rfl rfl (by decide) rfl rfl
  have hk : hostRec Obj.reqRingBase - 0x0A + (0x0C : BitVec 8).toNat = hostRec Obj.ringSlots := by decide
  show execOapRingConfigWrite _ _ _ s = _
  rw [execOapRingConfigWrite, if_pos (by decide), hk, hown]
  exact congrArg Host.Outcome.next (flushHeld_of_held_nil hheld)

end Rings

/-! ## Error confinement (R89, R93) -/

section Confinement

variable {s : State}

theorem ChangesOnly.held {l : List Nat} {u : State} (h : ChangesOnly l s u) : u.dict.held = s.dict.held := by rw [h.1]

theorem execCanBusOff_passive (h : s.num Obj.fnaState = 1) :
    exec (.canBusOff .fna .passive) s = .next (s.setState Obj.fnaState 2) := by
  show execCanBusOff .fna .passive s = _
  simp only [execCanBusOff, h, if_true]

theorem execCanBusOff_busOff (h : s.num Obj.fnaState = 1 ∨ s.num Obj.fnaState = 2) : exec (.canBusOff .fna .busOff) s =
    .next (((s.setState Obj.fnaState 2).setState Obj.fnaState 3).bump Obj.fnaBusOffs 1) := by
  show execCanBusOff .fna .busOff s = _
  simp [execCanBusOff, h]

theorem execCanBusOff_active (h : s.num Obj.fnbState = 2 ∨ s.num Obj.fnbState = 3) (hheld : s.dict.held = []) :
    exec (.canBusOff .fnb .active) s = .next (s.setState Obj.fnbState 1) := by
  have hheld' : (s.setState Obj.fnbState 1).dict.held = [] := (State.setState_changes _ _ s).held.trans hheld
  show execCanBusOff .fnb .active s = _
  simp [execCanBusOff, h, flushHeld_of_held_nil hheld']

end Confinement

/-! ## The reset command (R92) -/

theorem num_of_obj {s u : State} (h : u.obj = s.obj) (k : Nat) : u.num k = s.num k := by rw [State.num, State.val, h]; rfl

theorem num_deviceState_reset : State.reset.num Obj.deviceState = 1 := by decide

theorem num_owner_reset : State.reset.num Obj.owner = 0 := by decide

/-- Settles O16: each command is one of the steps above; the reset command is O59's. -/
theorem transportsRun : Obligations.TransportsRun := by
  refine ⟨fun _ _ _ _ => exec_reqTailWrite, fun _ _ _ => exec_rspHeadWrite, fun s t hserve hrights hheld => ?_, fun s h => ?_,
    fun s h => ?_, fun s h hheld => ?_, fun s port t id hfn hport hfor hserve howner hreach => ?_,
    fun s port t id data hfn hport hfor hserve howner => ?_⟩
  · refine ⟨_, execOapRingConfigWrite_slots hserve hrights hheld, ?_⟩
    refine ⟨?_, ?_, ?_, ?_, ?_, rfl⟩ <;>
      simp (disch := decide) only [ringsCleared, State.num_setNum_self, State.num_setNum_ne]
  · exact ⟨_, execCanBusOff_passive h, State.num_setState_self _ _ _ (quiet_of_mod (by decide)), State.setState_changes _ _ _⟩
  · refine ⟨_, execCanBusOff_busOff h, ?_, ?_, ?_⟩
    · rw [State.num_bump_ne _ _ _ _ (by decide), State.num_setState_self _ _ _ (quiet_of_mod (by decide))]
    · rw [State.num_bump_self, State.num_setState_ne _ _ _ _ (quiet_of_mod (by decide)) (by decide),
        State.num_setState_ne _ _ _ _ (quiet_of_mod (by decide)) (by decide)]
    · have hstate := (State.setState_changes Obj.fnaState 2 s).trans (State.setState_changes Obj.fnaState 3 _)
      exact (hstate.mono (by simp)).trans ((State.bump_changes _ _ _).mono (by simp))
  · exact ⟨_, execCanBusOff_active h hheld, State.num_setState_self _ _ _ (quiet_of_mod (by decide)), State.setState_changes _ _ _⟩
  · have hserve' : s.rst.serve ≠ .recovery := by rw [hserve]; decide
    refine ⟨_, exec_resetCommandFrame_owner hfn hport hfor hserve' ⟨rfl, howner⟩, ?_⟩
    rw [State.fieldReset_device (s := s.upto t) ((State.bits_reach _).symm.trans hreach)]
    obtain ⟨hobj, -, -, -, -, -, -, -, -, -, -, -, -, -, -, -, -, -, -, -, hnone, -, hasserted, -⟩ :=
      State.resetDevice_resetBy (s.upto t) .field
    exact ⟨(num_of_obj hobj _).trans num_deviceState_reset, by rw [hasserted]; exact List.mem_cons_self, hnone,
      (num_of_obj hobj _).trans num_owner_reset⟩
  · have hserve' : s.rst.serve ≠ .recovery := by rw [hserve]; decide
    exact exec_resetCommandFrame_other hfn hport hfor hserve' fun h => howner h.2

end Sys2Proof.Machine

/-! PROOFS. Segments on every transport: O15. -/

namespace Sys2Proof.Tab

variable {α : Type}

theorem put_put (t : Tab α) (a : Nat) (v w : α) : put (put t a v) a w = put t a w := by
  induction t with
  | nil => simp [put]
  | cons e t ih =>
    obtain ⟨k, x⟩ := e
    by_cases hlt : a < k
    · simp [put, hlt]
    · by_cases heq : a = k
      · simp [put, heq]
      · simp [put, hlt, heq, ih]

/-- A key that was not listed is unlisted again. -/
theorem del_put (t : Tab α) (a : Nat) (v : α) (hs : sorted t = true) (h : find? t a = none) : del (put t a v) a = t := by
  induction t with
  | nil => simp [put, del]
  | cons e t ih =>
    obtain ⟨k, x⟩ := e
    by_cases hlt : a < k
    · simp [put, hlt, del]
    · by_cases heq : a = k
      · simp [find?, heq] at h
      · have htail : find? t a = none := by simpa [find?, hlt, heq] using h
        simp [put, hlt, heq, del, ih (sorted_tail _ _ hs) htail]

end Sys2Proof.Tab

namespace Sys2Proof.Machine

/-! ## The header of a READ in one segment (R79, R80) -/

section Header

variable (seq k : Nat) (rest : List Byte)

/-- The segment that carries a READ without a payload. -/
abbrev readSegment : List Byte := segHead Oap.read 0 0 seq k 0

theorem headType_readSegment_append : headType (readSegment seq k ++ rest) = Oap.read := by
  simp [headType, field, slice, segHead, leBytes, leNat, bits]

theorem headType_readSegment : headType (readSegment seq k) = Oap.read := by
  simp [headType, field, slice, segHead, leBytes, leNat, bits]

theorem headFlag_readSegment (i : Nat) : headFlag (readSegment seq k) i = false := by
  simp [headFlag, field, slice, segHead, leBytes, leNat]

theorem headSegment_readSegment : headSegment (readSegment seq k) = 0 := by
  simp [headSegment, field, slice, segHead, leBytes, leNat, bits]

theorem headVersion_readSegment : bits (field (readSegment seq k) 0 1) 0 4 = 1 := by
  simp [field, slice, segHead, leBytes, leNat, bits]

theorem messageErr_readSegment : messageErr (readSegment seq k) [] = none := by
  simp [messageErr, headType_readSegment, headFlag_readSegment]

theorem headSeq_readSegment (h : seq < 65536) : headSeq (readSegment seq k) = seq := by
  have := leNat_leBytes 2 seq (by omega)
  simp [headSeq, field, slice, segHead, leBytes]
  simpa [leBytes] using this

theorem headKey_readSegment (h : k < 2 ^ 24) : headKey (readSegment seq k) = k := by
  have := leNat_leBytes 2 (k / 256) (by omega)
  have := leNat_leBytes 1 (k % 256) (by omega)
  simp [headKey, field, slice, segHead, leBytes] at *
  omega

theorem keyOf_lt (o : ObjId) : keyOf o < 2 ^ 24 := by
  unfold keyOf
  omega

end Header

/-! ## A READ in one segment is the READ (R86) -/

section OneSegment

variable {s : State} {m : Master} {tr : Transport}

theorem taken_at (h : Taken s m tr) (t : Nat) : Taken (At s m tr t) m tr := by
  unfold Taken at h ⊢
  simpa only [at_num, at_rst, at_outstanding] using h

/-- Taken again in the instant it was taken, a request finds what it left. -/
theorem at_at (s : State) (m : Master) (tr : Transport) (t : Nat) : At (At s m tr t) m tr (At s m tr t).now = At s m tr t := by
  cases m <;> simp [At, State.noteClient, State.upto, Tab.get, Tab.find?_put_self, Tab.put_put]

theorem serveMessage_read {seq k : Nat} (h : Taken s m tr) (t : Nat) (hseq : seq < 65536) (hk : k < 2 ^ 24) :
    (At s m tr t).serveMessage m tr (readSegment seq k) [] = (At s m tr t).serveRead m tr seq k := by
  simp only [State.serveMessage, messageErr_readSegment, headType_readSegment, headFlag_readSegment,
    headSeq_readSegment seq k hseq, headKey_readSegment seq k hk, if_true, Bool.false_eq_true, if_false]
  rw [request_taken (taken_at h t), at_at]

theorem setPartial_some_none (q : Partial) (hs : Tab.sorted s.dict.partials = true) (hp : s.partialOf m tr = none) :
    (s.setPartial m tr (some q)).setPartial m tr none = s := by
  have hdel := Tab.del_put s.dict.partials (partialKey m tr) q hs hp
  simp only [State.setPartial, hdel]

theorem segment_read {seq k : Nat} (h : Taken s m tr) (t : Nat) (hseq : seq < 65536) (hk : k < 2 ^ 24)
    (hs : Tab.sorted s.dict.partials = true) (hp : s.partialOf m tr = none) :
    (At s m tr t).segment m tr (readSegment seq k) = (At s m tr t).serveRead m tr seq k := by
  have hs' : Tab.sorted (At s m tr t).dict.partials = true := by rw [at_eq]; exact hs
  have hp' : (At s m tr t).partialOf m tr = none := by rw [at_eq]; exact hp
  generalize hw : At s m tr t = w at *
  have htake : (readSegment seq k).take 8 = readSegment seq k := rfl
  have hlong : tooLong tr (readSegment seq k) = false := by cases tr <;> rfl
  have hpay : slice (readSegment seq k) 8 (field (readSegment seq k) 7 1) = [] := rfl
  simp only [State.segment, htake, hpay, headVersion_readSegment, headSegment_readSegment, ne_eq, not_true, hp', hlong,
    Bool.false_eq_true, if_false, State.takeSegment, headFlag_readSegment, List.append_nil, List.length_nil, Nat.not_lt_zero]
  rw [setPartial_some_none _ hs' hp', ← hw]
  exact serveMessage_read h t hseq hk

theorem receive_read {seq k : Nat} (h : Taken s m tr) (hon : s.transportOn tr = true) (t : Nat) (hseq : seq < 65536)
    (hk : k < 2 ^ 24) (hs : Tab.sorted s.dict.partials = true) (hp : s.partialOf m tr = none) :
    (s.upto t).receive m tr (readSegment seq k) = (At s m tr t).serveRead m tr seq k := by
  have hread := segment_read h t hseq hk hs hp
  obtain ⟨huses, hserve, -, -, -, hjtag, -⟩ := h
  have hon' : (s.upto t).transportOn tr = true := hon
  have hlen : ¬ (readSegment seq k).length < 8 := by simp [segHead]
  have hdebug : ¬ (tr = .jtag ∧ (At s m tr t).num Obj.debugEnabled = 0) := by rw [at_num]; exact fun hj => hjtag hj.1 hj.2
  have hdebug' : (decide (tr = .jtag) && decide (((s.upto t).noteClient m tr).num Obj.debugEnabled = 0)) = false := by
    simpa [At] using hdebug
  rw [← hread, State.receive]
  simp [huses, hserve, hon', hlen, hdebug', At]

end OneSegment

/-! ## What other segments come to -/

section Segments

variable {s : State}

theorem execSegmentReceive_read {m : Master} {tr : Transport} (h : Taken s m tr) (hon : s.transportOn tr = true)
    (hring : RingServed s) (hp : s.partialOf m tr = none) (hs : Tab.sorted s.dict.partials = true) (t : Nat) (seq : BitVec 16)
    (o : ObjId) : exec (.segmentReceive m tr t (readSegment seq.toNat (keyOf o))) s = exec (.read m tr t seq o) s := by
  have hring' : RingServed ((At s m tr t).serveRead m tr seq.toNat (keyOf o)) :=
    (State.serveRead_reads _ _ _ _ _).ringServed (ringServed_at _ _ _ hring)
  show execSegmentReceive m tr t _ s = execRead m tr t seq o s
  rw [execSegmentReceive, receive_read h hon t seq.isLt (keyOf_lt o) hs hp, pollRing_of_ringServed hring', execRead,
    request_taken h]

/-- A segment of a READ, on whatever transport it came. -/
theorem receive_pollRing_reads {u : State} (m : Master) (tr : Transport) {bytes : List Byte} (hsu : Reads s u)
    (hread : headType bytes = Oap.read) (hring : RingServed s) :
    let v := (u.receive m tr bytes).pollRing
    v.mem = s.mem ∧ v.tiles = s.tiles ∧ KeepsParameters s v := by
  have h := hsu.trans (State.receive_reads u m tr hread)
  rw [pollRing_of_ringServed (h.ringServed hring)]
  exact ⟨h.mem, h.tiles, h.keepsParameters⟩

theorem upto_reads (s : State) (t : Nat) : Reads s (s.upto t) := ⟨rfl, rfl, fun _ _ => rfl⟩

theorem Sends.partialOf {u : State} (h : Sends s u) (m : Master) (tr : Transport) : u.partialOf m tr = s.partialOf m tr := by
  rw [h.1]; rfl

theorem Sends.now {u : State} (h : Sends s u) : u.now = s.now := by rw [h.1]; rfl

theorem partialOf_setPartial_none (m : Master) (tr : Transport) (hs : Tab.sorted s.dict.partials = true) :
    (s.setPartial m tr none).partialOf m tr = none := Tab.find?_del_self _ _ hs

theorem exec_segmentGapTimeout {m : Master} {tr : Transport} {p : Partial} (hp : s.partialOf m tr = some p)
    (hs : Tab.sorted s.dict.partials = true) : Answers (exec (.segmentGapTimeout m tr) s) fun u =>
      u.partialOf m tr = none ∧ u.now = max s.now (p.last + 100000000) ∧
      u.num Obj.segmentsDiscarded = min (s.num Obj.segmentsDiscarded + 1) (maxOf Obj.segmentsDiscarded) ∧
      KeepsBlock s u ∧ KeepsParameters s u := by
  have hs' : Tab.sorted (s.upto (p.last + 100000000)).dict.partials = true := hs
  let a := (s.upto (p.last + 100000000)).setPartial m tr none
  let b := a.answerErr m tr (headSeq p.head) (headKey p.head) Err.segmentLost 0
  have hdrop : (s.upto (p.last + 100000000)).dropPartial m tr Err.segmentLost = b.discardSegment := by
    have hp' : (s.upto (p.last + 100000000)).partialOf m tr = some p := hp
    rw [State.dropPartial, hp']
  have hb : Sends a b := State.answerErr_sends _ _ _ _ _ _ _
  have hu := State.bump_changes Obj.segmentsDiscarded 1 b
  refine ⟨_, (?_ : execSegmentGapTimeout m tr s = .next b.discardSegment), ?_, ?_, ?_, ?_, ?_⟩
  · rw [execSegmentGapTimeout, hp]
    exact congrArg Host.Outcome.next hdrop
  · exact (hb.partialOf m tr).trans (partialOf_setPartial_none m tr hs')
  · exact hb.now
  · rw [State.discardSegment, State.num_bump_self, hb.kept (by decide)]
    rfl
  · have ha : KeepsBlock s a := rfl
    have hd : KeepsBlock b b.discardSegment := rfl
    exact (ha.trans hb.keepsBlock).trans hd
  · rw [← hdrop]
    exact ((upto_reads s _).trans (State.dropPartial_reads _ _ _ _)).keepsParameters

/-- The transport of a field-network port. -/
def canTransport : CanPort → Transport
  | .fna => .fna
  | .fnb => .fnb

theorem exec_canOapFrame {port : CanPort} {t : Nat} {id : BitVec 29} {data : List Byte} (hfn : bits id.toNat 25 4 = 4)
    (hport : s.canTakes port = true) (hfor : s.canFor id = true) : exec (.canOapFrame port t id data) s =
      exec (.segmentReceive (.node (BitVec.ofNat 7 (bits id.toNat 11 7))) (canTransport port) t data) s := by
  have hport' : (s.upto t).canTakes port = true := hport
  have hfor' : (s.upto t).canFor id = true := hfor
  show execCanOapFrame port t id data s = execSegmentReceive _ _ t data s
  cases port <;> simp [execCanOapFrame, execSegmentReceive, canTransport, hfn, hport', hfor']

theorem fitTo_of_length {n : Nat} {l : List Byte} (h : l.length = n) : fitTo n l = l := by simp [fitTo, ← h]

theorem exec_oapsegUpdate {t : Nat} {bytes : List Byte} (hir : s.jtag.ir = 0x20) :
    exec (.oapsegUpdate t bytes) s = exec (.segmentReceive .jtag .jtag t (fitTo 256 bytes)) s := by
  show execOapsegUpdate t bytes s = execSegmentReceive .jtag .jtag t _ s
  simp [execOapsegUpdate, execSegmentReceive, hir]

end Segments

/-- Settles O15: a READ's segment becomes the READ, and what carries one keeps memory, tiles and parameters; each other message
or deadline is one of the steps above. -/
theorem segmentsCarryRequests : Obligations.SegmentsCarryRequests := by
  refine ⟨fun s m tr t seq o htaken hon hring hp hs => ⟨execSegmentReceive_read htaken hon hring hp hs t seq o, ?_⟩,
    fun s m tr p => exec_segmentGapTimeout, fun s port t id data hfn hport hfor => ?_, ?_, fun s t dev bytes hserve hlen hdev => ?_,
    fun s t bytes hir _ => exec_oapsegUpdate hir, fun s t seq o hir _ _ hring _ _ => ?_, fun s b r hir hout => ?_⟩
  · exact ⟨_, rfl, receive_pollRing_reads _ _ (upto_reads s t) (headType_readSegment _ _) hring⟩
  · cases port <;> exact exec_canOapFrame hfn hport hfor
  · intro s t id seq o m hfn hport hfor _ _ hring _ _
    rw [exec_canOapFrame hfn hport hfor]
    exact ⟨_, rfl, receive_pollRing_reads _ _ (upto_reads s t) (headType_readSegment _ _) hring⟩
  · show execPeerOapSegment t dev bytes s = _
    rw [execPeerOapSegment]
    dsimp only
    rw [if_neg (by simp [hserve, hlen]), if_pos]
    · rfl
    · simp only [Bool.or_eq_true]
      exact hdev.imp decide_eq_true decide_eq_true
  · rw [exec_oapsegUpdate hir]
    rw [fitTo_of_length (by rw [List.length_append, List.length_replicate]; rfl)]
    exact ⟨_, rfl, receive_pollRing_reads _ _ (upto_reads s t) (headType_readSegment_append _ _ _) hring⟩
  · show execOapsegCapture s = _
    rw [execOapsegCapture, if_neg (not_not.2 hir), hout]
    rfl

end Sys2Proof.Machine

/-! PROOFS. Packing of narrow elements: O58. -/

namespace Sys2Proof.Machine

/-! ## Ranges of bits, and the bits of little-endian bytes (R12) -/

@[simp] theorem testBit_bits (v lo n j : Nat) : (bits v lo n).testBit j = (decide (j < n) && v.testBit (lo + j)) := by
  rw [bits, Nat.testBit_mod_two_pow, Nat.testBit_div_two_pow, Nat.add_comm]

theorem bits_lt (v lo n : Nat) : bits v lo n < 2 ^ n := Nat.mod_lt _ (Nat.two_pow_pos n)

/-- A range of bits within a range is a range of the number itself. -/
theorem bits_bits (v lo m off n : Nat) (h : off + n ≤ m) : bits (bits v lo m) off n = bits v (lo + off) n := by
  refine Nat.eq_of_testBit_eq fun j => ?_
  simp only [testBit_bits, Nat.add_assoc]
  by_cases hj : j < n
  · simp [hj, show off + j < m by omega]
  · simp [hj]

/-- Two ranges side by side are one. -/
theorem bits_add (v lo m n : Nat) : bits v lo (m + n) = bits v lo m + 2 ^ m * bits v (lo + m) n := by
  simp only [bits, Nat.pow_add, Nat.mod_mul, Nat.div_div_eq_div_mul]

theorem bits_three_bytes (v lo : Nat) :
    bits v lo 8 + 256 * bits v (lo + 8) 8 + 65536 * bits v (lo + 16) 8 = bits v lo 24 := by
  rw [bits_add v lo 16 8, bits_add v lo 8 8]
  rfl

/-- Bit j of a little-endian number is bit j mod 8 of byte j div 8. -/
theorem testBit_leNat (l : List Byte) (j : Nat) : (leNat l).testBit j = (l.getD (j / 8) 0).getLsbD (j % 8) := by
  induction l generalizing j with
  | nil => simp [leNat]
  | cons b r ih =>
    rw [leNat, Nat.add_comm, show 256 = 2 ^ 8 from rfl, Nat.testBit_two_pow_mul_add _ b.isLt]
    split
    case isTrue hj => rw [Nat.div_eq_of_lt hj, Nat.mod_eq_of_lt hj, BitVec.testBit_toNat, List.getD_cons_zero]
    case isFalse hj =>
      rw [ih, show j / 8 = (j - 8) / 8 + 1 by omega, show (j - 8) % 8 = j % 8 by omega, List.getD_cons_succ]

/-- Byte i of a list is bits 8i + 7 to 8i of its little-endian number. -/
theorem toNat_getD_eq_bits (l : List Byte) (i : Nat) : (l.getD i 0).toNat = bits (leNat l) (8 * i) 8 := by
  refine Nat.eq_of_testBit_eq fun j => ?_
  rw [testBit_bits, testBit_leNat, BitVec.testBit_toNat]
  by_cases hj : j < 8
  · simp [hj, show (8 * i + j) / 8 = i by omega, Nat.mod_eq_of_lt hj]
  · simp [hj, BitVec.getLsbD_of_ge _ j (Nat.not_lt.1 hj)]

/-- A byte that lies among the bytes poked reads as poked. -/
theorem State.byte_poke (s : State) (a i : Nat) (l : List Byte) (hwf : Memory.wf 0 s.mem = true) (hi : i < l.length) :
    (s.poke a l).byte (a + i) = l.getD i 0 := by
  rw [List.getD_eq_getElem _ _ hi]
  exact Mem.read_writes_in 0 l s.mem a i hwf hi

theorem State.testBit_readNat (s : State) (a n j : Nat) (hj : j < 8 * n) :
    (s.readNat a n).testBit j = (s.byte (a + j / 8)).getLsbD (j % 8) := by
  have hlen : j / 8 < n := by omega
  simp [State.readNat, State.read, testBit_leNat, hlen]

/-- Bits that lie among the bytes poked read as poked, whatever else the bytes read take in. -/
theorem State.bits_readNat_poke (s : State) (a i n lo w : Nat) (l : List Byte) (hwf : Memory.wf 0 s.mem = true)
    (hread : lo + w ≤ 8 * n) (hpoked : 8 * i + lo + w ≤ 8 * l.length) :
    bits ((s.poke a l).readNat (a + i) n) lo w = bits (leNat l) (8 * i + lo) w := by
  refine Nat.eq_of_testBit_eq fun j => ?_
  simp only [testBit_bits]
  by_cases hj : j < w
  · have hbyte : (8 * i + lo + j) / 8 = i + (lo + j) / 8 := by omega
    have hbit : (8 * i + lo + j) % 8 = (lo + j) % 8 := by omega
    rw [State.testBit_readNat _ _ _ _ (by omega), Nat.add_assoc a, State.byte_poke s a _ l hwf (by omega),
      testBit_leNat, hbyte, hbit]
  · simp [hj]

/-! ## Packed elements (R112) -/

theorem fmtBits_narrow {f : Nat} (hlo : 3 ≤ f) (hhi : f ≤ 9) : fmtBits f = 4 ∨ fmtBits f = 6 ∨ fmtBits f = 8 := by
  interval_cases f <;> decide

theorem fmtBits_bounds (f : Nat) : 0 < fmtBits f ∧ fmtBits f ≤ 32 := by
  unfold fmtBits
  split <;> decide

@[simp] theorem packElems_length (f : Nat) (codes : List Nat) :
    (packElems f codes).length = (fmtBits f * codes.length + 7) / 8 := leBytes_length _ _

/-- Digit i of a number, in a base that is a power of two, is its range of bits. -/
theorem bits_ofDigits {w : Nat} {codes : List Nat} (hcodes : ∀ c ∈ codes, c < 2 ^ w) (i : Nat) :
    bits (Nat.ofDigits (2 ^ w) codes) (w * i) w = codes.getD i 0 := by
  have hhead : (codes.drop i).head! = codes.getD i 0 := by
    rw [List.head!_eq_head?_getD, List.head?_drop, List.getD_eq_getElem?_getD]; rfl
  rw [bits, Nat.pow_mul, Nat.ofDigits_div_pow_eq_ofDigits_drop i (Nat.two_pow_pos w) codes hcodes,
    Nat.ofDigits_mod_eq_head!, hhead]
  by_cases hi : i < codes.length
  · rw [List.getD_eq_getElem _ _ hi]
    exact Nat.mod_eq_of_lt (hcodes _ (List.getElem_mem hi))
  · simp [Nat.not_lt.1 hi]

section Codes

variable {f : Nat} {codes : List Nat} (hcodes : ∀ c ∈ codes, c < 2 ^ fmtBits f)
include hcodes

/-- The bytes packed hold the number whose digits are the codes, the first the least. -/
theorem leNat_packElems : leNat (packElems f codes) = Nat.ofDigits (2 ^ fmtBits f) codes := by
  have hdigits : codes.foldr (fun c acc => c % 2 ^ fmtBits f + 2 ^ fmtBits f * acc) 0 =
      Nat.ofDigits (2 ^ fmtBits f) codes := by
    rw [Nat.ofDigits_eq_foldr]
    refine List.foldr_ext _ _ _ fun c hc acc => ?_
    rw [Nat.mod_eq_of_lt (hcodes c hc), Nat.cast_id]
  have hbits : fmtBits f * codes.length ≤ 8 * ceilDiv (fmtBits f * codes.length) 8 := by
    rw [ceilDiv]; omega
  have hfits : Nat.ofDigits (2 ^ fmtBits f) codes < 256 ^ ceilDiv (fmtBits f * codes.length) 8 :=
    calc Nat.ofDigits (2 ^ fmtBits f) codes
      _ < (2 ^ fmtBits f) ^ codes.length :=
        Nat.ofDigits_lt_base_pow_length (Nat.one_lt_two_pow (fmtBits_bounds f).1.ne') hcodes
      _ = 2 ^ (fmtBits f * codes.length) := (Nat.pow_mul ..).symm
      _ ≤ 2 ^ (8 * ceilDiv (fmtBits f * codes.length) 8) := Nat.pow_le_pow_right (by decide) hbits
      _ = 256 ^ ceilDiv (fmtBits f * codes.length) 8 := Nat.pow_mul ..
  simp only [packElems, hdigits, leNat_leBytes _ _ hfits]

/-- Element i is bits wi + w − 1 to wi of the bytes packed, w the format's width. -/
theorem bits_packElems (i : Nat) : bits (leNat (packElems f codes)) (fmtBits f * i) (fmtBits f) = codes.getD i 0 := by
  rw [leNat_packElems hcodes, bits_ofDigits hcodes]

/-- At 4 bits the even element of a byte is in its low half and the odd one in its high half. -/
theorem getD_codes_of_four_bits (hf : fmtBits f = 4) (i : Nat) : codes.getD i 0 =
    if i % 2 = 0 then ((packElems f codes).getD (i / 2) 0).toNat % 16 else ((packElems f codes).getD (i / 2) 0).toNat / 16 := by
  rw [← bits_packElems hcodes i, hf, toNat_getD_eq_bits]
  split
  case isTrue heven =>
    have hlow := bits_bits (leNat (packElems f codes)) (8 * (i / 2)) 8 0 4 (by decide)
    rw [show 4 * i = 8 * (i / 2) + 0 by omega, ← hlow]
    simp [bits]
  case isFalse hodd =>
    have hhigh := bits_bits (leNat (packElems f codes)) (8 * (i / 2)) 8 4 4 (by decide)
    have hbyte := bits_lt (leNat (packElems f codes)) (8 * (i / 2)) 8
    rw [show 4 * i = 8 * (i / 2) + 4 by omega, ← hhigh, bits]
    exact Nat.mod_eq_of_lt (by omega)

/-- At 6 bits, element i of the group of four that begins at byte 3g is bits 6i + 5 to 6i of the group's three bytes. -/
theorem getD_codes_of_six_bits (hf : fmtBits f = 6) (g i : Nat) (hi : i < 4) : codes.getD (4 * g + i) 0 =
    bits (((packElems f codes).getD (3 * g) 0).toNat + 256 * ((packElems f codes).getD (3 * g + 1) 0).toNat +
      65536 * ((packElems f codes).getD (3 * g + 2) 0).toNat) (6 * i) 6 := by
  rw [← bits_packElems hcodes, hf, toNat_getD_eq_bits, toNat_getD_eq_bits, toNat_getD_eq_bits,
    show 8 * (3 * g + 1) = 8 * (3 * g) + 8 by omega, show 8 * (3 * g + 2) = 8 * (3 * g) + 16 by omega, bits_three_bytes,
    bits_bits _ _ _ _ _ (by omega), show 6 * (4 * g + i) = 8 * (3 * g) + 6 * i by omega]

/-- At 8 bits each byte is one element. -/
theorem getD_codes_of_eight_bits (hf : fmtBits f = 8) (i : Nat) :
    codes.getD i 0 = ((packElems f codes).getD i 0).toNat := by
  rw [← bits_packElems hcodes i, hf, toNat_getD_eq_bits]

/-- What is packed at an address is read back there; the five bytes that a read takes hold an element of 32 bits or
fewer wherever in a byte it begins. -/
theorem State.elem_poke_packElems (s : State) (a i : Nat) (hwf : Memory.wf 0 s.mem = true)
    (hi : i < codes.length) : (s.poke a (packElems f codes)).elem f a i = codes.getD i 0 := by
  have hwidth := (fmtBits_bounds f).2
  have hend : fmtBits f * i + fmtBits f ≤ fmtBits f * codes.length := Nat.mul_le_mul_left (fmtBits f) hi
  have hbit := Nat.div_add_mod (fmtBits f * i) 8
  rw [State.elem, State.bits_readNat_poke s a _ 5 _ _ _ hwf (by omega) (by rw [packElems_length]; omega), hbit,
    bits_packElems hcodes]

end Codes

/-- Settles O58: the bytes packed are one little-endian number whose digits are the codes, so that an element, a byte and a
group are each a range of its bits. -/
theorem narrowElementsArePacked : Obligations.NarrowElementsArePacked := by
  intro f codes hlo hhi hcodes
  have hnarrow := fmtBits_narrow hlo hhi
  refine ⟨packElems_length f codes, fun h16 => ?_, fun hf i _ => getD_codes_of_four_bits hcodes ?_ i,
    fun hf g i _ => getD_codes_of_six_bits hcodes ?_ g i, fun hf i _ => getD_codes_of_eight_bits hcodes ?_ i,
    fun s a hwf i => State.elem_poke_packElems hcodes s a i hwf⟩
  · rw [packElems_length, h16]
    obtain h | h | h := hnarrow <;> rw [h] <;> rfl
  · obtain rfl | rfl := hf <;> rfl
  · obtain rfl | rfl := hf <;> rfl
  · obtain rfl | rfl | rfl := hf <;> rfl

end Sys2Proof.Machine

/-! PROOFS. What the operations on a tile and its drawers keep, and levels: O19. -/

namespace Sys2Proof.Machine

/-! ## Keys of the tile objects (R141) -/

/-- What stands beyond the masters' records is none of their counts of dropped events. -/
theorem ne_eventsDropped_of_le {k : Nat} (hk : 0x210000 ≤ k) : ∀ m, m < 256 → k ≠ mrKey Obj.eventsDropped m := by
  intro m hm
  show k ≠ 0x110012 + 256 * m
  omega

theorem tileKey_quiet {b : Nat} (g : Nat) (hb : 0x210000 ≤ b) : State.Quiet (tileKey b g) :=
  fun m hm => ne_eventsDropped_of_le (State.tileKey_low g hb) m (Nat.lt_succ_of_lt hm)

/-- Objects of one tile are told apart by their base keys. -/
theorem tileKey_ne {a b : Nat} (g : Nat) (h : a ≠ b) : tileKey a g ≠ tileKey b g := by
  unfold tileKey
  omega

/-! ## Reading a tile after an update -/

namespace State

variable (s : State) (g x : Nat)

theorem tile_setTile_ne {g h : Nat} (t : TileS) (s : State) (hne : h ≠ g) : (s.setTile g t).tile h = s.tile h := by
  simp [tile, setTile, Tab.get, Tab.find?_put_ne _ _ _ _ hne]

@[simp] theorem tile_modTile_self (f : TileS → TileS) : (s.modTile g f).tile g = f (s.tile g) := tile_setTile _ _ _

theorem tile_modTile_ne {g h : Nat} (f : TileS → TileS) (s : State) (hne : h ≠ g) : (s.modTile g f).tile h = s.tile h :=
  tile_setTile_ne _ s hne

/-- What a tile holds follows from the tiles alone. -/
theorem tile_congr {s u : State} (h : u.tiles = s.tiles) (g : Nat) : u.tile g = s.tile g := by rw [tile, h, tile]

theorem ctx_congr {s u : State} {g : Nat} (h : u.tile g = s.tile g) (x : Nat) : u.ctx g x = s.ctx g x := by rw [ctx, h, ctx]

theorem dr_congr {s u : State} {g : Nat} (h : u.tile g = s.tile g) (x : Nat) : u.dr g x = s.dr g x := by
  rw [dr, ctx_congr h, dr]

@[simp] theorem ctx_setCtx_self (c : Context) : (s.setCtx g x c).ctx g x = c := by
  simp [ctx, setCtx, TileS.ctx, TileS.setCtx, Tab.get, Tab.find?_put_self]

theorem ctx_setCtx_ne {x y : Nat} (c : Context) (hne : y ≠ x) : (s.setCtx g x c).ctx g y = s.ctx g y := by
  simp [ctx, setCtx, TileS.ctx, TileS.setCtx, Tab.get, Tab.find?_put_ne _ _ _ _ hne]

theorem tile_setCtx_ne {g h : Nat} (x : Nat) (c : Context) (s : State) (hne : h ≠ g) : (s.setCtx g x c).tile h = s.tile h :=
  tile_modTile_ne _ s hne

@[simp] theorem dr_modDr_self (f : Drawer → Drawer) : (s.modDr g x f).dr g x = f (s.dr g x) := by
  simp [dr, modDr]

theorem dr_modDr_ne {x y : Nat} (f : Drawer → Drawer) (hne : y ≠ x) : (s.modDr g x f).dr g y = s.dr g y := by
  rw [dr, modDr, ctx_setCtx_ne s g _ hne, dr]

theorem tile_modDr_ne {g h : Nat} (x : Nat) (f : Drawer → Drawer) (s : State) (hne : h ≠ g) :
    (s.modDr g x f).tile h = s.tile h := tile_setCtx_ne x _ s hne

@[simp] theorem num_modDr (f : Drawer → Drawer) (k : Nat) : (s.modDr g x f).num k = s.num k := rfl

@[simp] theorem tile_bump (k n : Nat) : (s.bump k n).tile g = s.tile g := rfl

@[simp] theorem dr_bump (k n : Nat) : (s.bump k n).dr g x = s.dr g x := rfl

end State

/-! ## Levels (R165 to R169) -/

section Levels

variable (s : State) (g : Tile) (x : Ctx)

/-- The cap follows from the throttle target and the drawer's reserved level. -/
theorem capOf_modDr (f : Drawer → Drawer) (hrt : (f (s.dr g x)).rt = (s.dr g x).rt)
    (hlevel : (f (s.dr g x)).rtLevel = (s.dr g x).rtLevel) : (s.modDr g x f).capOf g x = s.capOf g x := by
  simp [State.capOf, hrt, hlevel]

theorem exec_rampDownStep (first : Bool) (hbound : (s.dr g x).bound = true) (hrt : (s.dr g x).rt = false)
    (hlevel : 0 < (s.dr g x).level) (hgap : first = true ∨ (s.dr g x).ramping = true) :
    exec (.rampDownStep g ⟨x, first⟩) s =
      .next ((if first then s.bump (tileKey Obj.rampDowns g) 1 else s).modDr g x fun d =>
        { d with level := d.level - 1, ramping := true }) := by
  show execRampDownStep g ⟨x, first⟩ s = _
  simp [execRampDownStep, hbound, hrt, hlevel, hgap]

theorem exec_rampUpStep (hbound : (s.dr g x).bound = true) (hrt : (s.dr g x).rt = false)
    (hst : (s.dr g x).st = .issuing ∨ (s.dr g x).st = .discarding) (hlevel : (s.dr g x).level < min 8 (s.capOf g x)) :
    exec (.rampUpStep g x) s =
      .next (s.modDr g x fun d => { d with level := d.level + 1, ramping := false, st := .issuing }) := by
  show execRampUpStep g x s = _
  simp [execRampUpStep, hbound, hrt, hst, Nat.lt_min.1 hlevel]

theorem exec_capDescentStep (hbound : (s.dr g x).bound = true) (hlevel : s.capOf g x < (s.dr g x).level) :
    exec (.capDescentStep g x) s = .next (s.modDr g x fun d => { d with level := d.level - 1 }) := by
  show execCapDescentStep g x s = _
  simp [execCapDescentStep, hbound, hlevel]

theorem exec_realtimeRiseStep (hbound : (s.dr g x).bound = true) (hrt : (s.dr g x).rt = true)
    (hlevel : (s.dr g x).level < min 8 (s.capOf g x)) :
    exec (.realtimeRiseStep g x) s = .next (s.modDr g x fun d =>
      { d with level := d.level + 1, st := if d.st = .discarding then .issuing else d.st }) := by
  show execRealtimeRiseStep g x s = _
  simp [execRealtimeRiseStep, hbound, hrt, Nat.lt_min.1 hlevel]

end Levels

/-- Settles O19: each step is one update of the drawer, and a rise is taken below the cap only, which the update leaves as
it was. -/
theorem levelsStep : Obligations.LevelsStep := by
  refine ⟨?_, ?_, ?_, ?_, ?_, ?_⟩
  · intro s g x first hbound hrt hlevel hgap
    refine ⟨_, exec_rampDownStep s g x first hbound hrt hlevel hgap, ?_⟩
    cases first with
    | true => exact ⟨State.dr_modDr_self _ _ _ _, State.num_bump_self _ _ _, rfl⟩
    | false => exact ⟨State.dr_modDr_self _ _ _ _, rfl, rfl⟩
  · intro s g x hbound hrt hst hlevel
    refine ⟨_, exec_rampUpStep s g x hbound hrt hst hlevel, State.dr_modDr_self _ _ _ _, ?_, rfl⟩
    rw [capOf_modDr _ _ _ _ rfl rfl, State.dr_modDr_self]
    exact (Nat.lt_min.1 hlevel).2
  · intro s g x hbound hlevel
    exact ⟨_, exec_capDescentStep s g x hbound hlevel, State.dr_modDr_self _ _ _ _, rfl⟩
  · intro s g x hbound hrt hlevel
    refine ⟨_, exec_realtimeRiseStep s g x hbound hrt hlevel, State.dr_modDr_self _ _ _ _, ?_, rfl⟩
    rw [capOf_modDr _ _ _ _ rfl rfl, State.dr_modDr_self]
    exact (Nat.lt_min.1 hlevel).2
  · intro s g n hlost
    show execThrottleTargetArrival g n s = _
    rw [execThrottleTargetArrival, if_pos hlost]
  · intro s g n hlost
    refine ⟨s.setNum (tileKey Obj.throttleTarget g) n, ?_, State.num_setNum_self _ _ _, rfl,
      fun k hk => State.val_setVal_ne _ _ _ _ hk⟩
    show execThrottleTargetArrival g n s = _
    rw [execThrottleTargetArrival, if_neg (by simp [hlost])]

end Sys2Proof.Machine

/-! PROOFS. Bench mode: O20. -/

namespace Sys2Proof.Machine

/-! ## The word of BenchResult (R146) -/

theorem eraseDups_of_nodup {α : Type} [BEq α] [LawfulBEq α] {l : List α} (h : l.Nodup) : l.eraseDups = l := by
  induction l with
  | nil => rfl
  | cons a l ih =>
    obtain ⟨ha, hl⟩ := List.nodup_cons.1 h
    have hfilter : l.filter (fun b => !b == a) = l :=
      List.filter_eq_self.2 fun b hb => by simpa using ne_of_mem_of_not_mem hb ha
    rw [List.eraseDups_cons, hfilter, ih hl]

theorem any_eraseDups {α : Type} [BEq α] [LawfulBEq α] (l : List α) (p : α → Bool) : l.eraseDups.any p = l.any p := by
  rw [Bool.eq_iff_iff, List.any_eq_true, List.any_eq_true]
  simp only [List.mem_eraseDups]

/-- The number whose bits below n are those for which p holds. -/
def bitSum (p : Nat → Bool) (n : Nat) : Nat := (List.range n).foldl (fun v i => if p i then v + 2 ^ i else v) 0

theorem bitSum_succ (p : Nat → Bool) (n : Nat) : bitSum p (n + 1) = 2 ^ n * (p n).toNat + bitSum p n := by
  rw [bitSum, List.range_succ, List.foldl_append, List.foldl_cons, List.foldl_nil, ← bitSum]
  cases p n <;> simp [Nat.add_comm]

theorem bitSum_lt (p : Nat → Bool) (n : Nat) : bitSum p n < 2 ^ n := by
  induction n with
  | zero => exact Nat.one_pos
  | succ n ih =>
    rw [bitSum_succ, Nat.pow_succ]
    cases p n <;> simp <;> omega

theorem testBit_bitSum (p : Nat → Bool) (n i : Nat) : (bitSum p n).testBit i = (decide (i < n) && p i) := by
  induction n with
  | zero => simp [bitSum]
  | succ n ih =>
    rw [bitSum_succ, Nat.testBit_two_pow_mul_add _ (bitSum_lt p n)]
    rcases Nat.lt_trichotomy i n with hi | rfl | hi
    · simp [ih, hi, Nat.lt_succ_of_lt hi]
    · cases p i <;> simp
    · have hhigh : (p n).toNat < 2 ^ (i - n) :=
        (Bool.toNat_lt _).trans_le (Nat.pow_le_pow_right (n := 2) (i := 1) (by decide) (by omega))
      rw [if_neg (by omega), Nat.testBit_lt_two_pow hhigh]
      simp; omega

/-- VALID, PASS, the count and the shelves of BenchResult (R146). -/
theorem benchWord_bits (l : List (Nat × Nat)) :
    (benchWord l).testBit 31 = true ∧ (benchWord l).testBit 30 = l.isEmpty ∧ benchWord l / 2 ^ 16 % 64 = min l.length 63 ∧
      ∀ sh < 16, (benchWord l).testBit sh = l.any (·.1 = sh) := by
  let low := bitSum (fun sh => l.any (·.1 = sh)) 16
  have hlow : low < 65536 := bitSum_lt _ 16
  have hword : benchWord l = 2 ^ 16 * (2 ^ 15 + (if l.isEmpty then 2 ^ 14 else 0) + min l.length 63) + low := by
    show 2 ^ 31 + (if l.isEmpty then 2 ^ 30 else 0) + min l.length 63 * 2 ^ 16 + low = _
    split <;> omega
  have hcount : min l.length 63 ≤ 63 := Nat.min_le_right _ _
  refine ⟨?_, ?_, ?_, fun sh hsh => ?_⟩
  · rw [Nat.testBit_eq_decide_div_mod_eq, hword, decide_eq_true_eq]
    split <;> omega
  · rw [Nat.testBit_eq_decide_div_mod_eq, hword]
    cases l.isEmpty <;> simp <;> omega
  · rw [hword]
    split <;> omega
  · rw [hword, Nat.testBit_two_pow_mul_add _ hlow, if_pos hsh, testBit_bitSum]
    simp [hsh]

/-! ## A selection (R145, R146) -/

/-- The failing sites that a selection runs, as numbers. -/
def failingRun (sel : List (Fin 17)) (bad : List (Fin 16 × Fin 17)) : List (Nat × Nat) :=
  (bad.map fun (a, b) => (a.val, b.val)).filter fun (a, b) => (sel.map (·.val)).getD a 17 ≠ b

theorem any_failingRun (sel : List (Fin 17)) (bad : List (Fin 16 × Fin 17)) (sh : Fin 16) :
    (failingRun sel bad).any (·.1 = sh.val) =
      bad.any fun f => f.1 = sh && (sel.map (·.val)).getD f.1.val 17 ≠ f.2.val := by
  rw [failingRun, List.any_filter, List.any_map]
  congr 1
  funext ⟨a, b⟩
  simp [Fin.ext_iff, Bool.and_comm]

/-- Where every site named is run and named once, the sites that fail are those named. -/
theorem failingRun_all {sel : List (Fin 17)} {bad : List (Fin 16 × Fin 17)}
    (hall : ∀ f ∈ bad, (sel.map (·.val)).getD f.1.val 17 ≠ f.2.val) (hnd : bad.Nodup) :
    (failingRun sel bad).eraseDups.length = bad.length ∧ (failingRun sel bad).eraseDups.isEmpty = bad.isEmpty := by
  have hrun : failingRun sel bad = bad.map fun (a, b) => (a.val, b.val) := by
    refine List.filter_eq_self.2 fun f hf => ?_
    obtain ⟨⟨a, b⟩, hmem, rfl⟩ := List.mem_map.1 hf
    simpa using hall _ hmem
  have hinj : Function.Injective fun f : Fin 16 × Fin 17 => (f.1.val, f.2.val) := by
    rintro ⟨a, b⟩ ⟨c, d⟩ h
    simpa [Fin.ext_iff] using h
  rw [hrun, eraseDups_of_nodup (hnd.map hinj)]
  simp

section Bench

variable {s : State} {g : Tile} {sel : List (Fin 17)} {bad : List (Fin 16 × Fin 17)} (hbound : (s.tile g).bound = [])
  (hstate : s.num (tileKey Obj.tileState g) < 2) (hlost : s.lost (cabOf g) = false)
include hbound hstate hlost

/-- What a selection of an empty tile leaves: Bench, the word of all sites that have failed, and the note of the first. -/
theorem exec_benchSelection : Answers (exec (.benchSelection g sel bad) s) fun u =>
    u.num (tileKey Obj.tileState g) = 1 ∧
    u.num (tileKey Obj.benchResult g) = benchWord (((s.tile g).bench.getD []) ++ failingRun sel bad).eraseDups ∧
    u.tile g = { s.tile g with bench := if (s.tile g).bench.isSome then none else some (failingRun sel bad) } ∧
    u = { s with tiles := u.tiles, obj := u.obj, dict := u.dict } ∧ (∀ h, h ≠ g.val → u.tile h = s.tile h) := by
  let b := s.setState (tileKey Obj.tileState g) 1
  have htile (h : Nat) : b.tile h = s.tile h := State.tile_congr (State.setState_tiles _ _ _) h
  have hb : b = { s with obj := b.obj, dict := { s.dict with queues := b.dict.queues } } := (State.setState_changes _ _ s).1
  refine ⟨b.benchRun g sel bad, ?_, ?_, ?_, ?_, ?_, fun h hne => ?_⟩
  · show execBenchSelection g sel bad s = _
    simp [execBenchSelection, hbound, hstate, hlost, b]
  · show (b.setNum _ _).num _ = 1
    rw [State.num_setNum_ne _ _ _ _ (tileKey_ne g (by decide)),
      State.num_setState_self _ _ _ (tileKey_quiet g (by decide))]
  · show (b.setNum _ _).num _ = _
    rw [State.num_setNum_self, htile]
    rfl
  · rw [State.benchRun, State.tile_modTile_self]
    simp only [htile, State.tile_congr (State.setNum_tiles _ _ _)]
    rfl
  · show { b with tiles := _, obj := _ } = _
    rw [hb]
    rfl
  · rw [State.benchRun, State.tile_modTile_ne _ _ hne, State.tile_congr (State.setNum_tiles _ _ _), htile]

end Bench

/-- Settles O20: BenchResult is `benchWord` of the sites that failed in this selection and in the first of two, whose bits
`benchWord_bits` reads. -/
theorem benchRuns : Obligations.BenchRuns := by
  refine ⟨?_, ?_⟩
  · intro s g sel bad prev hbound hstate hlost hprev
    obtain ⟨u, hu, hone, hword, htile, hframe, hothers⟩ := exec_benchSelection (sel := sel) (bad := bad) hbound hstate hlost
    refine ⟨u, hu, hone, by rw [htile, hprev]; rfl, fun sh => ?_, hframe, hothers⟩
    obtain ⟨-, -, -, hbits⟩ := benchWord_bits (((s.tile g).bench.getD []) ++ failingRun sel bad).eraseDups
    rw [hword, hbits sh sh.isLt, any_eraseDups, List.any_append, any_failingRun, hprev, Option.getD_some]
  · intro s g sel bad hbound hstate hlost hnone hall hnd
    obtain ⟨u, hu, hone, hword, htile, hframe, hothers⟩ := exec_benchSelection (sel := sel) (bad := bad) hbound hstate hlost
    obtain ⟨hlen, hempty⟩ := failingRun_all hall hnd
    obtain ⟨hvalid, hpass, hcount, hbits⟩ := benchWord_bits (failingRun sel bad).eraseDups
    rw [hnone, Option.getD_none, List.nil_append] at hword
    refine ⟨u, hu, hone, ?_, hframe, ?_, hothers⟩
    · dsimp only
      rw [hword]
      refine ⟨hvalid, hpass.trans hempty, hcount.trans (by rw [hlen]), fun sh => ?_⟩
      rw [hbits sh sh.isLt, any_eraseDups, any_failingRun]
      rw [Bool.eq_iff_iff, List.any_eq_true, List.any_eq_true]
      exact exists_congr fun f => and_congr_right fun hf => by rw [decide_eq_true (hall f hf), Bool.and_true]
    · rw [htile]
      exact hbound

end Sys2Proof.Machine

/-! PROOFS. Landings, stops and holds of drawers: O18. -/

namespace Sys2Proof.Machine

/-! ## What landings keep (R135, R136, R185 to R188) -/

/-- The objects that results of a tile count in as they land. -/
def landKeys (g : Nat) : List Nat :=
  [Obj.deviceSatCount, Obj.deviceFlushCount, Obj.deviceNumericFlags, tileKey Obj.landingConflicts g]

/-- Drawers of tile g keep all but their totals, other tiles stand, and no object changes but these counts. -/
structure KeepsDrawers (g : Nat) (s u : State) : Prop where
  others : ∀ h, h ≠ g → u.tile h = s.tile h
  drawers : ∀ y, u.dr g y = { s.dr g y with total := (u.dr g y).total, ops := (u.dr g y).ops }
  objects : KeepsObjects (landKeys g) s u

namespace KeepsDrawers

variable {g : Nat} {s t u : State}

theorem of_drawers (hothers : ∀ h, h ≠ g → u.tile h = s.tile h) (hdr : ∀ y, u.dr g y = s.dr g y) (hobj : u.obj = s.obj) :
    KeepsDrawers g s u :=
  ⟨hothers, fun y => by rw [hdr y], fun k _ _ => by rw [State.val, hobj, State.val]⟩

theorem of_tiles (ht : u.tiles = s.tiles) (hk : KeepsObjects (landKeys g) s u) : KeepsDrawers g s u :=
  ⟨fun h _ => State.tile_congr ht h, fun y => by rw [State.dr_congr (State.tile_congr ht g) y], hk⟩

theorem refl (s : State) : KeepsDrawers g s s := of_tiles rfl (KeepsObjects.refl _ _)

theorem trans (h₁ : KeepsDrawers g s t) (h₂ : KeepsDrawers g t u) : KeepsDrawers g s u :=
  ⟨fun h hne => (h₂.others h hne).trans (h₁.others h hne), fun y => by rw [h₂.drawers y, h₁.drawers y],
    h₁.objects.trans h₂.objects⟩

theorem foldl {α : Type} {f : State → α → State} (hf : ∀ s a, KeepsDrawers g s (f s a)) (l : List α) (s : State) :
    KeepsDrawers g s (l.foldl f s) := by
  induction l generalizing s with
  | nil => exact refl s
  | cons a l ih => exact (hf s a).trans (ih _)

/-- A change of a tile beside its contexts. -/
theorem setTile (h : KeepsDrawers g s t) (v : TileS) (hv : v.ctxs = (t.tile g).ctxs) : KeepsDrawers g s (t.setTile g v) := by
  refine h.trans (of_drawers (fun _ hne => State.tile_setTile_ne _ _ hne) (fun y => ?_) rfl)
  rw [State.dr, State.ctx, State.tile_setTile, TileS.ctx, hv, State.dr, State.ctx, TileS.ctx]

theorem modTile (h : KeepsDrawers g s t) (f : TileS → TileS) (hf : ∀ v, (f v).ctxs = v.ctxs) :
    KeepsDrawers g s (t.modTile g f) := h.setTile _ (hf _)

theorem poke (h : KeepsDrawers g s t) (a : Nat) (l : List Byte) : KeepsDrawers g s (t.poke a l) :=
  h.trans (of_tiles rfl fun _ _ _ => rfl)

theorem modImg (h : KeepsDrawers g s t) (x : Nat) (f : Image → Image) : KeepsDrawers g s (t.modImg g x f) := by
  refine h.trans (of_drawers (fun _ hne => State.tile_setCtx_ne _ _ _ hne) (fun y => ?_) rfl)
  by_cases hy : y = x
  · rw [hy, State.dr, State.modImg, State.ctx_setCtx_self, State.dr]
  · rw [State.dr, State.modImg, State.ctx_setCtx_ne _ _ _ hy, State.dr]

/-- A drawer's totals count on. -/
theorem countDrawer (h : KeepsDrawers g s t) (x : Nat) (k : Counts) :
    KeepsDrawers g s (t.modDr g x fun d => { d with total := d.total.add k, ops := d.ops + 1 }) := by
  refine h.trans ⟨fun _ hne => State.tile_modDr_ne _ _ _ hne, fun y => ?_, fun _ _ _ => rfl⟩
  by_cases hy : y = x
  · rw [hy, State.dr_modDr_self]
  · rw [State.dr_modDr_ne _ _ _ hy]

end KeepsDrawers

namespace State

variable (g : Nat) (s : State)

theorem countDevice_changes (k : Counts) :
    ChangesOnly [Obj.deviceSatCount, Obj.deviceFlushCount, Obj.deviceNumericFlags] s (s.countDevice k) := by
  have hbumps := ((bump_changes Obj.deviceSatCount k.sat s).mono
    (l' := [Obj.deviceSatCount, Obj.deviceFlushCount, Obj.deviceNumericFlags]) (by simp)).trans
    ((bump_changes Obj.deviceFlushCount k.flush _).mono (by simp))
  unfold countDevice
  dsimp only
  split
  · exact hbumps
  · exact hbumps.trans ((setFlag_changes Obj.deviceNumericFlags k.flags _).mono (by simp))

theorem countDevice_keepsDrawers (k : Counts) : KeepsDrawers g s (s.countDevice k) := by
  obtain ⟨hu, hk⟩ := s.countDevice_changes k
  exact .of_tiles (by rw [hu]) (hk.mono (by simp [landKeys]))

theorem complete_keepsDrawers (x seq op : Nat) (record : Bool) (k : Counts) :
    KeepsDrawers g s (s.complete g x seq op record k) := by
  have hjob (job : Nat) (k : Counts) : KeepsDrawers g s (s.countJob job k) := .of_tiles rfl (KeepsObjects.refl _ _)
  unfold complete
  extract_lets k s₁ s₂ i s₃
  have h₂ : KeepsDrawers g s s₂ := ((hjob _ k).trans (countDevice_keepsDrawers g _ k)).countDrawer x k
  split
  · have h₃ : KeepsDrawers g s s₃ := h₂.trans (.of_tiles rfl fun _ _ _ => rfl)
    exact h₃.modImg x _
  · exact h₂

/-- A landing writes registers, semaphores, memory or the record ring of its tile's contexts. -/
theorem land_keepsDrawers (f : Flight) : KeepsDrawers g s (s.land g f) := by
  unfold land
  extract_lets s₁
  have h₁ : KeepsDrawers g s s₁ := by
    unfold s₁
    split
    case h_5 => exact (KeepsDrawers.refl s).setTile _ rfl
    case h_8 => exact .of_tiles rfl fun _ _ _ => rfl
    all_goals exact (KeepsDrawers.refl s).modImg _ _
  split
  · exact h₁
  · exact h₁.trans (complete_keepsDrawers _ _ _ _ _ _ _)

theorem landAt_keepsDrawers (c : Nat) : KeepsDrawers g s (s.landAt g c) := by
  unfold landAt
  extract_lets t now s₁ clashes s₂
  have h₁ : KeepsDrawers g s s₁ := (KeepsDrawers.refl s).setTile _ rfl
  have h₂ : KeepsDrawers g s s₂ := h₁.trans (KeepsDrawers.foldl (fun u f => land_keepsDrawers g u f) now s₁)
  split
  · exact h₂
  · exact h₂.trans (.of_tiles rfl ((bump_changes _ _ _).2.mono (by simp [landKeys])))

theorem landBefore_keepsDrawers (c n : Nat) : KeepsDrawers g s (s.landBefore g c n) := by
  induction n generalizing s with
  | zero => exact KeepsDrawers.refl s
  | succ n ih =>
    unfold landBefore
    split
    · exact KeepsDrawers.refl s
    · split
      · exact (landAt_keepsDrawers g s _).trans (ih _)
      · exact KeepsDrawers.refl s

theorem landCtx_keepsDrawers (x : Nat) : KeepsDrawers g s (s.landCtx g x) :=
  (landBefore_keepsDrawers g s _ _).setTile _ rfl

theorem landAll_keepsDrawers (x : Nat) : KeepsDrawers g s (s.landAll g x) :=
  ((landCtx_keepsDrawers g s x).trans (KeepsDrawers.foldl (fun u f => land_keepsDrawers g u f) _ _)).setTile _ rfl

/-! ## What recovering or losing a checker keeps (R401, R421 to R424) -/

/-- A part of the state that every step keeps, the steps over a list keep. -/
theorem foldl_keeps {α β : Type} (p : State → β) {f : State → α → State} (hf : ∀ s a, p (f s a) = p s) (l : List α)
    (s : State) : p (l.foldl f s) = p s := by
  induction l generalizing s with
  | nil => rfl
  | cons a l ih => exact (ih _).trans (hf s a)

theorem sendNotices_tiles : s.sendNotices.tiles = s.tiles :=
  foldl_keeps (·.tiles) (fun t _ => (sendFlit_sends _ _ _ t).tiles) _ s

theorem failLock_tiles (cause : Nat) : (s.failLock cause).tiles = s.tiles := by
  rw [failLock, setFlag_tiles, setLockSt, setState_tiles, setNum_tiles]

theorem enterFrozen_tiles : s.enterFrozen.tiles = s.tiles := by
  unfold enterFrozen
  refine (foldl_keeps (·.tiles) (fun t c => ?_) _ _).trans ?_
  · split
    · exact setState_tiles _ _ _
    · rfl
  · rw [bump_tiles, setFlag_tiles, setLockSt, setState_tiles, setNum_tiles]

theorem propose_tiles (f origin cause : Nat) : (s.propose f origin cause).tiles = s.tiles := by
  unfold propose
  split
  · rfl
  split
  · rfl
  split
  · split <;> rfl
  split
  · rw [failLock_tiles, bump_tiles, setFlag_tiles]
  · extract_lets v w x
    have hw : w.tiles = s.tiles := sendNotices_tiles v
    have hx : x.tiles = s.tiles := (setState_tiles _ _ _).trans hw
    split
    · exact hw
    · split
      · exact (enterFrozen_tiles x).trans hx
      · exact hx

theorem takeUnknown_tiles (q : Nat) : (s.takeUnknown q).tiles = s.tiles := by
  unfold takeUnknown
  extract_lets t u
  have hu : u.tiles = s.tiles := setFlag_tiles _ _ _
  split
  · exact (propose_tiles _ _ _ _).trans hu
  · exact hu

theorem unknownAll_tiles (q : Nat) : (s.unknownAll q).tiles = s.tiles :=
  foldl_keeps (·.tiles) (fun t _ => takeUnknown_tiles t q) _ _

theorem dropRecord_tiles (q : Nat) : (s.dropRecord q).tiles = s.tiles := setFlag_tiles _ _ _

theorem flushFeed_tiles (q : Nat) : (s.flushFeed q).tiles = s.tiles := by
  refine foldl_keeps (·.tiles) (fun t e => ?_) _ _
  dsimp only
  split
  · exact dropRecord_tiles t q
  · exact (takeUnknown_tiles _ q).trans (dropRecord_tiles t q)

theorem setFeedSt_tiles (q v : Nat) : (s.setFeedSt q v).tiles = s.tiles := by
  unfold setFeedSt
  split
  · rfl
  · dsimp only
    split
    · exact raiseVal_tiles _ _ _ _
    · rfl

theorem checkerStops_tiles (x : Nat) : (s.checkerStops g x).tiles = s.tiles :=
  foldl_keeps (·.tiles) unknownAll_tiles _ s

theorem feedRecover_tiles (x : Nat) : (s.feedRecover g x).tiles = s.tiles :=
  foldl_keeps (·.tiles) (fun t q => by rw [flushFeed_tiles, unknownAll_tiles, setFeedSt_tiles]) _ s

/-! ## Stops (R158, R163, R209) -/

/-- A drawer that stops keeps its operation and accumulators. -/
theorem dr_stopCtx (x : Nat) : (s.stopCtx g x).dr g x = { s.dr g x with
    st := .stopped
    pendOp := none
    preempt := false
    recover := (s.dr g x).recover && !(s.dr g x).preempt
    total := ((s.stopCtx g x).dr g x).total
    ops := ((s.stopCtx g x).dr g x).ops } := by
  unfold stopCtx
  extract_lets s₁ s₂ back s₃ s₄ s₅
  have h₂ : KeepsDrawers g s s₂ := (landCtx_keepsDrawers g s x).setTile _ rfl
  have h₃ : s₃.dr g x = s₂.dr g x := by rw [dr, show s₃.ctx g x = _ from ctx_setCtx_self _ _ _ _, dr]
  have h₅ : s₅.dr g x = { s.dr g x with
      st := .stopped, pendOp := none, preempt := false, recover := (s.dr g x).recover && !(s.dr g x).preempt
      total := (s₅.dr g x).total, ops := (s₅.dr g x).ops } := by
    unfold s₅ s₄
    rw [dr_bump, dr_modDr_self, h₃, h₂.drawers x]
  split
  · rw [dr_congr (tile_congr (feedRecover_tiles g s₅ x) g)]
    exact h₅
  · rw [dr_congr (tile_congr (checkerStops_tiles g s₅ x) g)]
    exact h₅

end State

/-! ## Updates of one drawer -/

/-- Nothing changes but one drawer. -/
structure OneDrawer (g x : Nat) (s u : State) : Prop where
  frame : u = { s with tiles := u.tiles }
  others : ∀ h, h ≠ g → u.tile h = s.tile h
  drawers : ∀ y, y ≠ x → u.dr g y = s.dr g y

namespace OneDrawer

variable {g x : Nat} {s t u : State}

theorem modDr (g x : Nat) (f : Drawer → Drawer) (s : State) : OneDrawer g x s (s.modDr g x f) :=
  ⟨rfl, fun _ hne => State.tile_modDr_ne _ _ _ hne, fun _ hne => State.dr_modDr_ne _ _ _ hne⟩

theorem trans (h₁ : OneDrawer g x s t) (h₂ : OneDrawer g x t u) : OneDrawer g x s u := by
  refine ⟨?_, fun h hne => (h₂.others h hne).trans (h₁.others h hne),
    fun y hne => (h₂.drawers y hne).trans (h₁.drawers y hne)⟩
  refine h₂.frame.trans ?_
  rw [h₁.frame]

/-- Updates of one drawer each, over drawers listed once: each drawer listed is updated once, as it was; Q is what the
updates need of it. -/
theorem foldl {F : State → Nat → State} {Q : Drawer → Prop} (hF : ∀ s x, Q (s.dr g x) → OneDrawer g x s (F s x))
    {l : List Nat} (hnd : l.Nodup) (s : State) (hQ : ∀ x ∈ l, Q (s.dr g x)) :
    l.foldl F s = { s with tiles := (l.foldl F s).tiles } ∧ (∀ h, h ≠ g → (l.foldl F s).tile h = s.tile h) ∧
      (∀ y, y ∉ l → (l.foldl F s).dr g y = s.dr g y) ∧
      ∀ y ∈ l, ∃ t : State, t.dr g y = s.dr g y ∧ (l.foldl F s).dr g y = (F t y).dr g y := by
  induction l generalizing s with
  | nil => exact ⟨rfl, fun _ _ => rfl, fun _ _ => rfl, fun y hy => absurd hy (List.not_mem_nil)⟩
  | cons x l ih =>
    obtain ⟨hx, hl⟩ := List.nodup_cons.1 hnd
    have hstep := hF s x (hQ x List.mem_cons_self)
    have hkept (y : Nat) (hy : y ∈ l) : (F s x).dr g y = s.dr g y := hstep.drawers y (ne_of_mem_of_not_mem hy hx)
    obtain ⟨hframe, hothers, hout, hin⟩ :=
      ih hl (F s x) fun y hy => by rw [hkept y hy]; exact hQ y (List.mem_cons_of_mem _ hy)
    refine ⟨?_, fun h hne => (hothers h hne).trans (hstep.others h hne), fun y hy => ?_, fun y hy => ?_⟩
    · rw [List.foldl_cons]
      refine hframe.trans ?_
      rw [hstep.frame]
    · obtain ⟨hyx, hyl⟩ := List.ne_and_not_mem_of_not_mem_cons hy
      exact (hout y hyl).trans (hstep.drawers y hyx)
    · rcases List.mem_cons.1 hy with rfl | hyl
      · exact ⟨s, rfl, hout y hx⟩
      · obtain ⟨t, ht, hu⟩ := hin y hyl
        exact ⟨t, ht.trans (hkept y hyl), hu⟩

end OneDrawer

/-- The contexts with a drawer are those of the tile's sixteen whose drawer is not Free. -/
theorem mem_bound (s : State) (g x : Nat) : x ∈ (s.tile g).bound ↔ x < 16 ∧ (s.dr g x).bound = true := by
  rw [TileS.bound, List.mem_filter, List.mem_range, State.dr, State.ctx]

theorem nodup_bound (t : TileS) : t.bound.Nodup := List.nodup_range.filter _

/-! ## Requests to stop (R158, R161) -/

section Requests

variable {s : State} {g : Tile} {x : Ctx}

theorem exec_preemptionRequest (hrt : (s.dr g x).rt = false) :
    exec (.preemptionRequest g x) s = .next (s.askStop g x false) := by
  show execPreemptionRequest g x s = _
  rw [execPreemptionRequest, if_neg (by simp [hrt])]

/-- Asked to stop, a drawer that issues no pass and has none to commit stops at once. -/
theorem askStop_idle (h : (s.dr g x).st = .assigned ∨ ((s.dr g x).st = .discarding ∧ (s.dr g x).await = [])) :
    s.askStop g x false = (s.modDr g x fun d => { d with preempt := true }).stopCtx g x := by
  unfold State.askStop
  rcases h with h | ⟨h, hawait⟩
  · simp [h]
  · simp [h, hawait]

/-- Asked to stop, a busy drawer notes it; a discarding one stops after its commits. -/
theorem askStop_busy (h : (s.dr g x).st = .issuing ∨ (s.dr g x).st = .draining ∨ (s.dr g x).st = .holding ∨
      (s.dr g x).st = .stopping ∨ ((s.dr g x).st = .discarding ∧ (s.dr g x).await ≠ [])) :
    (s.askStop g x false).dr g x = { s.dr g x with
        preempt := true, st := if (s.dr g x).st = .discarding then .stopping else (s.dr g x).st } ∧
      OneDrawer g x s (s.askStop g x false) := by
  have hmark : OneDrawer g x s (s.modDr g x fun d => { d with preempt := true }) := OneDrawer.modDr _ _ _ s
  unfold State.askStop
  rcases h with h | h | h | h | ⟨h, hawait⟩
  case inr.inr.inr.inr =>
    have hsome : (s.dr g x).await.isEmpty = false := by simpa using hawait
    simp only [h, hsome, Bool.false_eq_true, if_false, if_true]
    exact ⟨by simp [State.dr_modDr_self], hmark.trans (OneDrawer.modDr _ _ _ _)⟩
  all_goals
    simp only [h]
    exact ⟨by simp [State.dr_modDr_self, h], hmark⟩

end Requests

/-! ## Steering holds (R162) -/

/-- A drawer as a hold for a row finds it. -/
def Drawer.held (row : Nat) (d : Drawer) : Drawer :=
  { d with hold := if d.hold.contains row then d.hold else row :: d.hold, st := if d.st = .assigned then .holding else d.st }

theorem holdRow_spec (s : State) (g row : Nat) :
    s.holdRow g row = { s with tiles := (s.holdRow g row).tiles } ∧ (∀ h, h ≠ g → (s.holdRow g row).tile h = s.tile h) ∧
      ∀ x : Ctx, (s.holdRow g row).dr g x = if (s.dr g x).covers row then (s.dr g x).held row else s.dr g x := by
  obtain ⟨hframe, hothers, hout, hin⟩ := OneDrawer.foldl (g := g) (Q := fun _ => True)
    (F := fun s x => s.modDr g x (Drawer.held row)) (fun s x _ => OneDrawer.modDr _ _ _ s)
    (l := (s.tile g).bound.filter fun x => (s.dr g x).covers row) ((nodup_bound _).filter _) s fun _ _ => trivial
  refine ⟨hframe, hothers, fun x => ?_⟩
  have hmem : x.val ∈ (s.tile g).bound.filter (fun x => (s.dr g x).covers row) ↔ (s.dr g x).covers row = true := by
    rw [List.mem_filter, mem_bound]
    refine ⟨fun h => h.2, fun h => ⟨⟨x.isLt, ?_⟩, h⟩⟩
    rw [Drawer.covers, Bool.and_assoc, Bool.and_eq_true] at h
    exact h.1
  split
  case isTrue hcovers =>
    obtain ⟨t, ht, hu⟩ := hin x (hmem.2 hcovers)
    refine hu.trans ?_
    rw [State.dr_modDr_self, ht]
  case isFalse hcovers => exact hout x fun h => hcovers (hmem.1 h)

/-- Loading a stationary operand changes the drawer's sets alone. -/
theorem withSet_eq (s : State) (g : Nat) (d : Drawer) (o : ArrayOp) (p : Nat) :
    ∃ l, s.withSet g d o p = { d with sets := l } := by
  unfold State.withSet
  split
  · exact ⟨d.sets, rfl⟩
  · split
    · exact ⟨d.sets, rfl⟩
    · exact ⟨_, rfl⟩

theorem dr_goOn (s : State) (g x : Nat) :
    (s.goOn g x).dr g x = { (s.dr g x).goOn with sets := ((s.goOn g x).dr g x).sets } := by
  unfold State.goOn State.loadSet
  rw [State.dr_modDr_self, State.dr_modDr_self]
  split
  · rfl
  · obtain ⟨l, hl⟩ := withSet_eq (s.modDr g x Drawer.goOn) g (s.dr g x).goOn _ _
    rw [hl]

theorem goOn_oneDrawer (s : State) (g x : Nat) : OneDrawer g x s (s.goOn g x) := by
  unfold State.goOn State.loadSet
  exact (OneDrawer.modDr g x Drawer.goOn s).trans (OneDrawer.modDr _ _ _ _)

/-- A drawer, not asked to stop, released from its hold for a row: it goes on where no other row holds it. -/
theorem unhold_spec (s : State) (g row x : Nat) (hasked : (s.dr g x).asked = false) :
    OneDrawer g x s (s.unhold g row x) ∧
      (let d := { s.dr g x with hold := (s.dr g x).hold.filter (· ≠ row) }
       (s.unhold g row x).dr g x = if d.st = .holding ∧ d.hold = [] then
         { d.goOn with sets := ((s.unhold g row x).dr g x).sets } else d) := by
  have hmark : OneDrawer g x s (s.modDr g x fun d => { d with hold := d.hold.filter (· ≠ row) }) := OneDrawer.modDr _ _ _ s
  unfold State.unhold
  simp only [State.dr_modDr_self, hasked, Bool.not_false, if_true, Bool.and_eq_true, decide_eq_true_eq, List.isEmpty_iff]
  split
  case isTrue h =>
    refine ⟨hmark.trans (goOn_oneDrawer _ _ _), ?_⟩
    rw [dr_goOn, State.dr_modDr_self]
  case isFalse h => exact ⟨hmark, State.dr_modDr_self _ _ _ _⟩

theorem releaseRow_spec (s : State) (g row : Nat) (hasked : ∀ x : Ctx, (s.dr g x).asked = false) :
    s.releaseRow g row = { s with tiles := (s.releaseRow g row).tiles } ∧
      (∀ h, h ≠ g → (s.releaseRow g row).tile h = s.tile h) ∧
      ∀ x : Ctx, let d := { s.dr g x with hold := (s.dr g x).hold.filter (· ≠ row) }
        (s.releaseRow g row).dr g x = if (s.dr g x).bound && (s.dr g x).hold.contains row then
          (if d.st = .holding ∧ d.hold = [] then { d.goOn with sets := ((s.releaseRow g row).dr g x).sets } else d)
          else s.dr g x := by
  obtain ⟨hframe, hothers, hout, hin⟩ := OneDrawer.foldl (g := g) (Q := fun d => d.asked = false)
    (F := fun s x => s.unhold g row x) (fun s x hx => (unhold_spec s g row x hx).1)
    (l := (s.tile g).bound.filter fun x => (s.dr g x).hold.contains row) ((nodup_bound _).filter _) s fun x hx =>
      hasked ⟨x, ((mem_bound s g x).1 (List.mem_filter.1 hx).1).1⟩
  have hmem (x : Ctx) : x.val ∈ (s.tile g).bound.filter (fun x => (s.dr g x).hold.contains row) ↔
      ((s.dr g x).bound && (s.dr g x).hold.contains row) = true := by
    rw [List.mem_filter, mem_bound, Bool.and_eq_true, and_iff_right x.isLt]
  refine ⟨hframe, hothers, fun x => ?_⟩
  dsimp only
  by_cases h : ((s.dr g x).bound && (s.dr g x).hold.contains row) = true
  · obtain ⟨t, ht, hu⟩ := hin x ((hmem x).2 h)
    obtain ⟨-, hx⟩ := unhold_spec t g row x (by rw [ht]; exact hasked x)
    change (s.releaseRow g row).dr g x = _ at hu
    rw [if_pos h, hu]
    simp only [ht] at hx
    exact hx
  · rw [if_neg h]
    exact hout x fun hx => h ((hmem x).1 hx)

/-- Settles O18: a stop keeps the accumulators by `dr_stopCtx`, and a hold and its release are one update of each drawer
that they reach. -/
theorem drawersStopAndHold : Obligations.DrawersStopAndHold := by
  refine ⟨?_, ?_, ?_, ?_, ?_⟩
  · intro s g x hst hrt
    refine ⟨_, exec_preemptionRequest hrt, ?_⟩
    dsimp only
    rw [askStop_idle hst, State.dr_stopCtx, State.dr_modDr_self]
    exact ⟨rfl, rfl⟩
  · intro s g x d hst hrt
    obtain ⟨hdr, hone⟩ := askStop_busy hst
    exact ⟨_, exec_preemptionRequest hrt, hdr, hone.frame, hone.others⟩
  · intro s g x hrt
    show execPreemptionRequest g x s = _
    rw [execPreemptionRequest, if_pos hrt]
  · exact fun s g row => ⟨_, rfl, holdRow_spec s g row⟩
  · exact fun s g row hasked => ⟨_, rfl, releaseRow_spec s g row hasked⟩

end Sys2Proof.Machine

/-! PROOFS. Passes, commits, output and release: O17. -/

namespace Sys2Proof.Machine

/-- A tile object is below those that follow the eight cabinets'. -/
theorem tileKey_ne_of_le {b k : Nat} (g : Tile) (h : b + 0x70100 ≤ k) : tileKey b g ≠ k := by
  have hg := g.isLt
  unfold tileKey
  omega

/-! ## Passes at their boundary (R153, R163, R165) -/

/-- The state of a drawer whose issuing pass reaches its boundary. -/
def Drawer.afterPass (d : Drawer) (o : ArrayOp) : DrawerSt :=
  if d.asked then (if d.hold ≠ [] ∧ d.pass + 1 ≠ d.passes o then .holding else .stopping)
  else if d.pass + 1 = d.passes o then .draining else if d.hold ≠ [] then .holding else .issuing

theorem dr_passEnds (s : State) (g x : Nat) (o : ArrayOp) : ∃ l, (s.passEnds g x o).dr g x = { s.dr g x with
    await := (s.dr g x).await ++ [s.runPass g (s.withSet g (s.dr g x) o (s.dr g x).pass) o (s.dr g x).pass]
    pass := (s.dr g x).pass + 1
    sets := l
    begun := (s.dr g x).afterPass o = .issuing
    st := (s.dr g x).afterPass o } := by
  unfold State.passEnds
  rw [State.dr_modDr_self]
  generalize s.dr g x = d
  obtain ⟨l₁, h₁⟩ := withSet_eq s g d o d.pass
  obtain ⟨l₂, h₂⟩ := withSet_eq s g { d with sets := l₁ } o (d.pass + 1)
  refine ⟨l₂, ?_⟩
  have hst : (if d.asked = true then
        (if (!d.hold.isEmpty && !decide (d.pass + 1 = d.passes o)) = true then DrawerSt.holding else .stopping)
      else if d.pass + 1 = d.passes o then .draining else if (!d.hold.isEmpty) = true then .holding else .issuing) =
      d.afterPass o := by
    simp [Drawer.afterPass]
  simp only [h₁, h₂]
  rw [← hst]
  rfl

theorem passEnds_drawer (s : State) (g x : Nat) (o : ArrayOp) :
    let u := s.passEnds g x o
    u.dr g x = { s.dr g x with
      await := (s.dr g x).await ++ [s.runPass g (s.withSet g (s.dr g x) o (s.dr g x).pass) o (s.dr g x).pass]
      pass := (s.dr g x).pass + 1
      sets := (u.dr g x).sets
      begun := (u.dr g x).begun
      st := (s.dr g x).afterPass o } ∧ ((u.dr g x).begun = true ↔ (u.dr g x).st = .issuing) := by
  obtain ⟨l, hl⟩ := dr_passEnds s g x o
  dsimp only
  rw [hl]
  exact ⟨rfl, decide_eq_true_iff⟩

section Boundary

variable {s : State} {g : Tile} {x : Ctx} {o : ArrayOp}

theorem exec_passBoundary (n : Nat) (hst : (s.dr g x).st = .issuing) (hop : (s.dr g x).op = some o) :
    exec (.passBoundary g x n) s = .next (if (s.dr g x).level = 0 && !s.passFree g (s.dr g x) o then s
      else if (s.dr g x).preempt then (s.passEnds g x o).high (tileKey Obj.preemptLatencyMax g) n else s.passEnds g x o) := by
  show execPassBoundary g x n s = _
  simp only [execPassBoundary, hst, hop]
  split <;> rfl

end Boundary

/-! ## Commits (R150, R154, R155) -/

namespace State

variable (s : State) (g x : Nat)

/-- Writing committed accumulators back changes those of the drawer, or the spill area. -/
theorem putCommitted_keeps (o : ArrayOp) (b : Nat) (acc : List (BitVec 32)) :
    ((s.putCommitted g x o b acc).dr g x).await = (s.dr g x).await ∧
      ((s.putCommitted g x o b acc).dr g x).st = (s.dr g x).st ∧ (s.putCommitted g x o b acc).obj = s.obj := by
  unfold putCommitted
  dsimp only
  split
  · rw [dr_modDr_self]
    exact ⟨rfl, rfl, rfl⟩
  · let spill (t : State) (n : Nat) : State :=
      t.poke (operandBase g + (s.dr g x).spillAt o b n) (leBytes 4 (acc.getD n 0).toNat)
    have htiles := foldl_keeps (·.tiles) (f := spill) (fun _ _ => rfl) (List.range (s.dr g x).cells) s
    have hobj := foldl_keeps (·.obj) (f := spill) (fun _ _ => rfl) (List.range (s.dr g x).cells) s
    have hdr := dr_congr (tile_congr htiles g) x
    exact ⟨congrArg Drawer.await hdr, congrArg Drawer.st hdr, hobj⟩

/-- A commit updates the drawer's counts and its waiting passes, counts in the tile's objects, and keeps the accumulators. -/
theorem commitPass_eq (o : ArrayOp) (w : PassWork) : ∃ k new, s.commitPass g x o w =
    ((((s.modDr g x fun d => { d with
      cnt := d.cnt.add k
      counted := new ++ d.counted
      await := d.await.tail
      sigs := d.sigs.filter fun l => l.head? ≠ some w.pass }).bump (tileKey Obj.passesCommitted g) 1).bump
        (tileKey Obj.skippedBlocks g) w.skips).putCommitted g x o
          ((s.dr g x).block o ((s.dr g x).passAt o w.pass).1 ((s.dr g x).passAt o w.pass).2.1) w.acc) := ⟨_, _, rfl⟩

/-- A commit takes the oldest pass and counts it. -/
theorem commitPass_spec (g : Tile) (o : ArrayOp) (w : PassWork) :
    ((s.commitPass g x o w).dr g x).await = (s.dr g x).await.tail ∧ ((s.commitPass g x o w).dr g x).st = (s.dr g x).st ∧
      (s.commitPass g x o w).num (tileKey Obj.passesCommitted g) =
        min (s.num (tileKey Obj.passesCommitted g) + 1) (maxOf (tileKey Obj.passesCommitted g)) := by
  obtain ⟨k, new, hcommit⟩ := s.commitPass_eq g x o w
  rw [hcommit]
  generalize hs₁ : s.modDr g x _ = s₁
  generalize (s.dr g x).block o _ _ = b
  obtain ⟨hawait, hst, hobj⟩ := putCommitted_keeps ((s₁.bump (tileKey Obj.passesCommitted g) 1).bump
    (tileKey Obj.skippedBlocks g) w.skips) g x o b w.acc
  rw [hawait, hst, num, val, hobj, ← val, ← num, num_bump_ne _ _ _ _ (tileKey_ne _ (by decide)), num_bump_self, dr_bump,
    dr_bump, ← hs₁, dr_modDr_self]
  exact ⟨rfl, rfl, rfl⟩

theorem flight_modDr (f : Drawer → Drawer) : ((s.modDr g x f).tile g).flight = (s.tile g).flight := by
  rw [modDr, setCtx, tile_modTile_self]
  rfl

/-- Without a stationary operand a commit changes the drawer, and counts. -/
theorem commitPass_cells (o : ArrayOp) (w : PassWork) (hstat : o.stat = 0) :
    (let d := s.dr g x
     let b := d.block o (d.passAt o w.pass).1 (d.passAt o w.pass).2.1
     ((s.commitPass g x o w).dr g x).accs = d.accs.put b w.acc) ∧
      s.commitPass g x o w = { s with tiles := (s.commitPass g x o w).tiles, obj := (s.commitPass g x o w).obj } ∧
      (∀ h, h ≠ g → (s.commitPass g x o w).tile h = s.tile h) ∧
      ((s.commitPass g x o w).tile g).flight = (s.tile g).flight := by
  obtain ⟨k, new, hcommit⟩ := s.commitPass_eq g x o w
  rw [hcommit, putCommitted, if_pos hstat]
  refine ⟨?_, rfl, fun h hne => ?_, ?_⟩
  · rw [dr_modDr_self, dr_bump, dr_bump, dr_modDr_self]
  · rw [tile_modDr_ne _ _ _ hne, tile_bump, tile_bump, tile_modDr_ne _ _ _ hne]
  · rw [flight_modDr, tile_bump, tile_bump, flight_modDr]

theorem setStreamSt_changes (k : Nat) (st : StreamSt) : (s.setStreamSt k st).tiles = s.tiles ∧
    KeepsObjects [] s (s.setStreamSt k st) := by
  unfold setStreamSt
  split
  · exact ⟨rfl, KeepsObjects.refl _ _⟩
  · split
    · exact ⟨rfl, KeepsObjects.refl _ _⟩
    · unfold streamEvent
      split
      · exact ⟨raiseVal_tiles _ _ _ _, (raiseVal_changes _ _ _ _).2⟩
      · exact ⟨rfl, fun _ _ _ => rfl⟩

variable {s g}

theorem checkDone_keepsDrawers {u : State} (h : KeepsDrawers g s u) (k : Nat) : KeepsDrawers g s (u.checkDone k) := by
  unfold checkDone
  split
  · exact h
  · split
    · obtain ⟨ht, hk⟩ := u.setStreamSt_changes k .done
      exact h.trans (.of_tiles ht (hk.mono (List.nil_subset _)))
    · exact h

theorem putStream_keepsDrawers {u : State} (h : KeepsDrawers g s u) (k : Nat) (m : StreamS) :
    KeepsDrawers g s (u.putStream k m) := h.trans (.of_tiles rfl fun _ _ _ => rfl)

variable (s g)

theorem drainIn_keepsDrawers (n : Nat) : KeepsDrawers g s (s.drainIn g n) := by
  induction n generalizing s with
  | zero => exact KeepsDrawers.refl s
  | succ n ih =>
    unfold drainIn
    split
    · exact KeepsDrawers.refl s
    · split
      · exact KeepsDrawers.refl s
      · split
        · refine KeepsDrawers.trans ?_ (ih _)
          exact checkDone_keepsDrawers (putStream_keepsDrawers ((KeepsDrawers.refl s).poke _ _) _ _) _
        · split
          · exact KeepsDrawers.refl s
          · refine KeepsDrawers.trans ?_ (ih _)
            refine putStream_keepsDrawers ?_ _ _
            exact .modTile (.refl s) _ fun _ => rfl

theorem fillOut_keepsDrawers (n : Nat) : KeepsDrawers g s (s.fillOut g n) := by
  induction n generalizing s with
  | zero => exact KeepsDrawers.refl s
  | succ n ih =>
    unfold fillOut
    split
    · split
      · extract_lets left s₁ rest s₂
        have h₁ : KeepsDrawers g s s₁ := (KeepsDrawers.refl s).setTile _ rfl
        refine KeepsDrawers.trans (t := s₂) ?_ (ih _)
        unfold s₂
        split
        · exact checkDone_keepsDrawers (putStream_keepsDrawers h₁ _ _) _
        · exact putStream_keepsDrawers h₁ _ _
      · exact KeepsDrawers.refl s
    · exact KeepsDrawers.refl s

theorem movePort_keepsDrawers : KeepsDrawers g s (s.movePort g) :=
  (drainIn_keepsDrawers s g 64).trans (fillOut_keepsDrawers _ g 64)

/-- With no fabric stream at the tile no beat moves. -/
theorem movePort_idle (hin : s.portStream g 2 = none) (hout : s.portStream g 3 = none) : s.movePort g = s := by
  have hdrain : s.drainIn g 64 = s := by rw [drainIn, hin]
  rw [movePort, hdrain, fillOut, hout]

theorem landBefore_idle (c n : Nat) (h : (s.tile g).flight = []) : s.landBefore g c n = s := by
  cases n with
  | zero => rfl
  | succ n =>
    have hnone : s.nextLanding g = none := by simp [nextLanding, h]
    rw [landBefore, hnone]

end State

section Commit

variable {s : State} {g : Tile} {x : Ctx} {o : ArrayOp} {p : PassWork} {rest : List PassWork}
  (hop : (s.dr g x).op = some o) (hawait : (s.dr g x).await = p :: rest) (hst : (s.dr g x).st ≠ .stopping)
include hop hawait hst

theorem exec_passCommit (hlocked : s.spillLocked g x o p = false) : exec (.passCommit g x) s =
    .next (((s.commitPass g x o p).landBefore g ((s.commitPass g x o p).tile g).acyc 64).movePort g) := by
  show execPassCommit g x s = _
  simp only [execPassCommit, State.commitOldest, hop, hawait, hlocked, hst, decide_false, Bool.false_and, Bool.false_eq_true,
    if_false]

theorem passCommit_counts (hlocked : s.spillLocked g x o p = false) : Answers (exec (.passCommit g x) s) fun u =>
    (u.dr g x).await = rest ∧ (u.dr g x).st = (s.dr g x).st ∧
      u.num (tileKey Obj.passesCommitted g) =
        min (s.num (tileKey Obj.passesCommitted g) + 1) (maxOf (tileKey Obj.passesCommitted g)) := by
  refine ⟨_, exec_passCommit hop hawait hst hlocked, ?_⟩
  obtain ⟨hrest, hst', hnum⟩ := s.commitPass_spec x g o p
  generalize s.commitPass g x o p = t at hrest hst' hnum ⊢
  have hkeeps := (t.landBefore_keepsDrawers g (t.tile g).acyc 64).trans (State.movePort_keepsDrawers _ g)
  have hkey : tileKey Obj.passesCommitted g ∉ landKeys g := by
    simp only [landKeys, List.mem_cons, List.not_mem_nil, or_false, not_or]
    exact ⟨tileKey_ne_of_le g (by decide), tileKey_ne_of_le g (by decide), tileKey_ne_of_le g (by decide),
      tileKey_ne _ (by decide)⟩
  rw [hkeeps.drawers x, hkeeps.objects.num hkey (ne_eventsDropped_of_le (State.tileKey_low g (by decide)))]
  exact ⟨hrest.trans (by rw [hawait, List.tail_cons]), hst', hnum⟩

theorem passCommit_cells (hstat : o.stat = 0) (hflight : (s.tile g).flight = []) (hin : s.portStream g 2 = none)
    (hout : s.portStream g 3 = none) : exec (.passCommit g x) s = .next (s.commitPass g x o p) := by
  obtain ⟨-, hframe, -, hflight'⟩ := s.commitPass_cells g x o p hstat
  rw [exec_passCommit hop hawait hst (by simp [State.spillLocked, hstat])]
  have hstreams (dir : Nat) : (s.commitPass g x o p).portStream g dir = s.portStream g dir := by
    rw [State.portStream, hframe, State.portStream]
  rw [State.landBefore_idle _ _ _ _ (hflight'.trans hflight), State.movePort_idle _ _ ((hstreams 2).trans hin)
    ((hstreams 3).trans hout)]

end Commit

/-! ## Output to operand memory (R132 to R134, R156, R192) -/

/-- Nothing changes but bytes of memory outside those that P holds of, and the canonical form stays. -/
structure StoresOutside (P : Nat → Prop) (s u : State) : Prop where
  frame : u = { s with mem := u.mem }
  wf : Memory.wf 0 s.mem = true → Memory.wf 0 u.mem = true
  bytes : Memory.wf 0 s.mem = true → ∀ a, P a → u.byte a = s.byte a

namespace StoresOutside

variable {P : Nat → Prop} {s t u : State}

theorem refl (s : State) : StoresOutside P s s := ⟨rfl, id, fun _ _ _ => rfl⟩

theorem trans (h₁ : StoresOutside P s t) (h₂ : StoresOutside P t u) : StoresOutside P s u := by
  refine ⟨?_, fun h => h₂.wf (h₁.wf h), fun h a ha => (h₂.bytes (h₁.wf h) a ha).trans (h₁.bytes h a ha)⟩
  refine h₂.frame.trans ?_
  rw [h₁.frame]

theorem poke (h : StoresOutside P s t) (b : Nat) (l : List Byte) (hP : ∀ a, P a → a < b ∨ b + l.length ≤ a) :
    StoresOutside P s (t.poke b l) :=
  h.trans ⟨rfl, State.poke_wf b l t, fun hwf a ha => Mem.read_writes_out 0 l t.mem b a hwf (hP a ha)⟩

end StoresOutside

/-- Elements along the output dimension, and the first of block b of line i, in 16-element blocks (R192). -/
def ArrayOp.blockAt (o : ArrayOp) (i b : Nat) : Nat := i * (16 * ceilDiv (if o.outdim then o.m else o.n) 16) + 16 * b

/-- An address lies outside block b of line i of the output, its elements and its fine scale. -/
def ArrayOp.missesBlock (o : ArrayOp) (g i b a : Nat) : Prop :=
  let at' := operandBase g + o.cOff + packedSize o.fmtOut (o.blockAt i b)
  (a < at' ∨ at' + packedSize o.fmtOut 16 ≤ a) ∧
    (fmtScaled o.fmtOut = true → a ≠ operandBase g + o.cFs + o.blockAt i b / 16)

/-- An address lies outside the output. -/
def ArrayOp.missesOutput (o : ArrayOp) (g a : Nat) : Prop :=
  ∀ i b, i < (if o.outdim then o.n else o.m) → b < ceilDiv (if o.outdim then o.m else o.n) 16 → o.missesBlock g i b a

/-- A block of output is the packed codes of its sixteen elements, and its fine scale in a scaled format. -/
theorem writeBlock_eq (g x : Nat) (o : ArrayOp) (i b : Nat) (s : State) (k : Counts) : ∃ codes fs, codes.length = 16 ∧
    (State.writeBlock g x o i b (s, k)).1 =
      let s₁ := s.poke (operandBase g + o.cOff + packedSize o.fmtOut (o.blockAt i b)) (packElems o.fmtOut codes)
      if fmtScaled o.fmtOut then s₁.poke (operandBase g + o.cFs + o.blockAt i b / 16) (leBytes 1 fs) else s₁ := by
  refine ⟨_, _, ?_, rfl⟩
  simp

theorem writeBlock_stores (g x : Nat) (o : ArrayOp) (i b : Nat) (sk : State × Counts) :
    StoresOutside (o.missesBlock g i b) sk.1 (State.writeBlock g x o i b sk).1 := by
  obtain ⟨s, k⟩ := sk
  obtain ⟨codes, fs, hlen, hwrite⟩ := writeBlock_eq g x o i b s k
  have hpacked : (packElems o.fmtOut codes).length = packedSize o.fmtOut 16 := by
    rw [packElems_length, hlen]
    rfl
  have helems := (StoresOutside.refl (P := o.missesBlock g i b) s).poke
    (operandBase g + o.cOff + packedSize o.fmtOut (o.blockAt i b)) (packElems o.fmtOut codes)
    fun a ha => by rw [hpacked]; exact ha.1
  rw [hwrite]
  dsimp only
  split
  case isTrue hscaled =>
    refine helems.poke _ _ fun a ha => ?_
    have hne := ha.2 hscaled
    rw [leBytes_length]
    omega
  case isFalse => exact helems

theorem StoresOutside.mono {P Q : Nat → Prop} {s u : State} (h : StoresOutside P s u) (hPQ : ∀ a, Q a → P a) :
    StoresOutside Q s u := ⟨h.frame, h.wf, fun hwf a ha => h.bytes hwf a (hPQ a ha)⟩

theorem writeC_stores (s : State) (g x : Nat) (o : ArrayOp) :
    StoresOutside (o.missesOutput g) s (s.writeC g x o).1 := by
  unfold State.writeC
  extract_lets lines lim
  have key : ∀ (l : List Nat), (∀ q ∈ l, q < lines * ceilDiv lim 16) → ∀ sk : State × Counts,
      StoresOutside (o.missesOutput g) sk.1
        (l.foldl (fun sk q => State.writeBlock g x o (q / ceilDiv lim 16) (q % ceilDiv lim 16) sk) sk).1 := by
    intro l
    induction l with
    | nil => exact fun _ sk => StoresOutside.refl _
    | cons q l ih =>
      intro hl sk
      have hq := hl q List.mem_cons_self
      have hpos : 0 < ceilDiv lim 16 := Nat.pos_of_ne_zero fun h => by rw [h] at hq; omega
      have hblock := (writeBlock_stores g x o (q / ceilDiv lim 16) (q % ceilDiv lim 16) sk).mono
        fun a (ha : o.missesOutput g a) =>
          ha _ _ ((Nat.div_lt_iff_lt_mul hpos).2 hq) (Nat.mod_lt q hpos)
      exact hblock.trans (ih (fun q hq => hl q (List.mem_cons_of_mem _ hq)) _)
  exact key _ (fun q hq => List.mem_range.1 hq) (s, Counts.zero)

/-! ## The end of an operation (R135, R136, R156, R163) -/

namespace State

variable (s : State) (g x : Nat)

theorem countDevice_jobTotals (k : Counts) : (s.countDevice k).jobTotals = s.jobTotals := by
  rw [(s.countDevice_changes k).1]

theorem countDevice_mem (k : Counts) : (s.countDevice k).mem = s.mem := by
  rw [(s.countDevice_changes k).1]

/-- An operation counts once in the totals of its drawer's job. -/
theorem ops_countJob (job : Nat) (k : Counts) :
    ((s.countJob job k).jobTotals.get ⟨0, Counts.zero⟩ job).ops = (s.jobTotals.get ⟨0, Counts.zero⟩ job).ops + 1 := by
  rw [countJob, Tab.get, Tab.find?_put_self]
  rfl

/-- An operation without a record completes in the totals alone. -/
theorem complete_unrecorded (seq op : Nat) (k : Counts) : ∃ k', s.complete g x seq op false k =
    ((s.countJob (s.dr g x).jobId k').countDevice k').modDr g x fun d =>
      { d with total := d.total.add k', ops := d.ops + 1 } := ⟨_, rfl⟩

/-- With nothing that holds it, nothing asked of it and nothing pending, a drawer whose operation ends is Assigned. -/
theorem finishOp_assigned (o : ArrayOp) (hrecord : o.record = false) (hpend : (s.dr g x).pendOp = none)
    (hasked : (s.dr g x).asked = false) (hhold : (s.dr g x).hold = []) :
    ((s.finishOp g x o).dr g x).st = .assigned ∧ ((s.finishOp g x o).dr g x).op = none ∧
      ((s.finishOp g x o).jobTotals.get ⟨0, Counts.zero⟩ (s.dr g x).jobId).ops =
        (s.jobTotals.get ⟨0, Counts.zero⟩ (s.dr g x).jobId).ops + 1 ∧
      (s.finishOp g x o).mem = s.mem ∧ ∀ h, h ≠ g → (s.finishOp g x o).tile h = s.tile h := by
  unfold finishOp
  extract_lets s₁ d k s₂ s₃ d'
  have hs₁ : s₁.dr g x = s.dr g x ∧ s₁.jobTotals = s.jobTotals ∧ s₁.mem = s.mem ∧ ∀ h, s₁.tile h = s.tile h := by
    unfold s₁
    split <;> exact ⟨rfl, rfl, rfl, fun _ => rfl⟩
  obtain ⟨hdr, hjobs, hmem, htile⟩ := hs₁
  obtain ⟨k', hk'⟩ := s₁.complete_unrecorded g x o.seq 0x60 k
  have hs₂ : s₂ = s₁.complete g x o.seq 0x60 false k := by unfold s₂; rw [hrecord]
  have hkeeps : KeepsDrawers g s₁ s₂ := complete_keepsDrawers g s₁ x o.seq 0x60 o.record k
  have hd' : d' = (s₂.dr g x).endOp := dr_modDr_self _ _ _ _
  have hd : s₂.dr g x = { s.dr g x with total := (s₂.dr g x).total, ops := (s₂.dr g x).ops } := by
    rw [hkeeps.drawers x, hdr]
  have hgo : ¬ (d'.asked && d'.hold.isEmpty) = true := by
    have : d'.asked = (s.dr g x).asked := by rw [hd', hd]; rfl
    simp [this, hasked]
  rw [if_neg hgo]
  have hassigned : d'.goOn = { d' with st := .assigned } := by
    have hhold' : d'.hold = [] := by rw [hd', hd]; exact hhold
    have hop' : d'.op = none := by rw [hd']; rfl
    have hpend' : d'.pendOp = none := by rw [hd', hd]; exact hpend
    simp [Drawer.goOn, hhold', hop', hpend']
  have hone := goOn_oneDrawer s₃ g x
  have hgoOn : (s₃.goOn g x).dr g x = { d'.goOn with sets := ((s₃.goOn g x).dr g x).sets } := dr_goOn s₃ g x
  refine ⟨?_, ?_, ?_, ?_, fun h hne => ?_⟩
  · rw [hgoOn, hassigned]
  · rw [hgoOn, hassigned, hd']
    rfl
  · have hs₃ : (s₃.goOn g x).jobTotals = s₂.jobTotals := by rw [hone.frame]; rfl
    rw [hs₃, hs₂, hk']
    show ((countDevice k' _).jobTotals.get _ _).ops = _
    rw [countDevice_jobTotals, ← hdr, ops_countJob, hjobs]
  · have hs₃ : (s₃.goOn g x).mem = s₂.mem := by rw [hone.frame]; rfl
    rw [hs₃, hs₂, hk']
    exact (countDevice_mem _ k').trans hmem
  · rw [hone.others h hne]
    refine (tile_modDr_ne _ _ _ hne).trans ?_
    rw [hkeeps.others h hne, htile]

end State

section Output

variable {s : State} {g : Tile} {x : Ctx} {o : ArrayOp} (hop : (s.dr g x).op = some o) (hst : (s.dr g x).st = .draining)
  (hawait : (s.dr g x).await = []) (hdest : o.dest = false)
  (hfree : o.outRanges.any (fun r => (s.tile g).lockedBut (some x.val) r.1 r.2) = false)
include hop hst hawait hdest hfree

/-- The output is written, counts, and the operation ends. -/
theorem exec_outputWritten : ∃ k u, exec (.outputWritten g x) s = .next (State.finishOp g x o u) ∧
    u.dr g x = { s.dr g x with cnt := (s.dr g x).cnt.add k } ∧ (∀ h, h ≠ g.val → u.tile h = s.tile h) ∧
    u.jobTotals = s.jobTotals ∧ u.mem = (s.writeC g x o).1.mem := by
  have hstores := writeC_stores s g x o
  generalize hwrite : s.writeC g x o = w at hstores
  let v := if fmtScaled o.fmtOut then w.1.bump (tileKey Obj.freezeCycles g) (ceilDiv (o.m * o.n) 128) else w.1
  have hv : v.dr g x = s.dr g x ∧ (∀ h, v.tile h = s.tile h) ∧ v.jobTotals = s.jobTotals ∧ v.mem = w.1.mem := by
    have htiles : w.1.tiles = s.tiles := by rw [hstores.frame]
    have hjobs : w.1.jobTotals = s.jobTotals := by rw [hstores.frame]
    have htile (h : Nat) : w.1.tile h = s.tile h := State.tile_congr htiles h
    unfold v
    split <;> exact ⟨State.dr_congr (htile g) x, htile, hjobs, rfl⟩
  obtain ⟨hdr, htile, hjobs, hmem⟩ := hv
  refine ⟨w.2, v.modDr g x fun d => { d with cnt := d.cnt.add w.2 }, ?_, ?_, fun h hne => ?_, hjobs, hmem⟩
  · show execOutputWritten g x s = _
    simp only [execOutputWritten, hop, hst, hawait, hdest, hwrite, List.isEmpty_nil, decide_true, Bool.and_self, if_true,
      Bool.false_eq_true, if_false, hfree]
    rfl
  · rw [State.dr_modDr_self, hdr]
  · rw [State.tile_modDr_ne _ _ _ hne, htile]

end Output

/-! ## Release (R163) -/

theorem ctx_releaseCtx (s : State) (g x : Nat) : (s.releaseCtx g x).ctx g x = Context.none := State.ctx_setCtx_self _ _ _ _

theorem tile_releaseCtx_ne {g h : Nat} (s : State) (x : Nat) (hne : h ≠ g) : (s.releaseCtx g x).tile h = s.tile h := by
  rw [State.releaseCtx, State.tile_setCtx_ne _ _ _ hne, State.tile_modTile_ne _ _ hne]
  exact (s.landAll_keepsDrawers g x).others h hne

/-- Settles O17: a boundary and a commit are updates of the drawer; what lands after a commit keeps the drawers but for their
totals; the output path stores the blocks of `writeBlock_eq` and nothing else; and the end of an operation goes on as
`finishOp_assigned` says. -/
theorem drawersRun : Obligations.DrawersRun := by
  refine ⟨?_, ?_, ?_, ?_, ?_, ?_⟩
  · intro s g x o n d hst hop hissue
    have hgo : ¬ ((s.dr g x).level = 0 && !s.passFree g (s.dr g x) o) = true := by
      rcases hissue with h | h
      · have : d.level ≠ 0 := h.ne'
        simp [d, this]
      · have : s.passFree g d o = true := h
        simp [d, this]
    obtain ⟨hdr, hbegun⟩ := passEnds_drawer s g x o
    have hothers (h : Nat) (hne : h ≠ g.val) : (s.passEnds g x o).tile h = s.tile h := State.tile_modDr_ne _ _ _ hne
    by_cases hpre : (s.dr g x).preempt = true
    · refine ⟨(s.passEnds g x o).high (tileKey Obj.preemptLatencyMax g) n, ?_, hdr, hbegun,
        (State.num_high_self _ _ _).trans (if_pos hpre).symm, rfl, hothers⟩
      rw [exec_passBoundary n hst hop, if_neg hgo, if_pos hpre]
    · refine ⟨s.passEnds g x o, ?_, hdr, hbegun, (if_neg hpre).symm, rfl, hothers⟩
      rw [exec_passBoundary n hst hop, if_neg hgo, if_neg hpre]
  · intro s g x o n hst hop hlevel hbusy
    rw [exec_passBoundary n hst hop, if_pos (by simp [hlevel, hbusy])]
  · exact fun s g x o p rest hop hawait hst hlocked => passCommit_counts hop hawait hst hlocked
  · intro s g x o p rest hop hawait hst hstat hflight hin hout
    obtain ⟨haccs, hframe, hothers, -⟩ := s.commitPass_cells g x o p hstat
    refine ⟨_, passCommit_cells hop hawait hst hstat hflight hin hout, ?_, hframe, hothers⟩
    dsimp only at haccs ⊢
    rw [haccs]
    exact ⟨by rw [Tab.get, Tab.find?_put_self]; rfl, fun b' hb' => by rw [Tab.get, Tab.find?_put_ne _ _ _ _ hb', Tab.get]⟩
  · intro s g x o hop hst hawait hdest hrecord hpend hasked hhold hfree
    obtain ⟨k, u, hexec, hdr, hothers, hjobs, hmem⟩ := exec_outputWritten hop hst hawait hdest hfree
    obtain ⟨hst', hop', hops, hmem', hothers'⟩ := u.finishOp_assigned g x o hrecord (by rw [hdr]; exact hpend)
      (by rw [hdr]; exact hasked) (by rw [hdr]; exact hhold)
    refine ⟨_, hexec, hst', hop', ?_, fun hwf a ha => ?_, fun h hne => (hothers' h hne).trans (hothers h hne)⟩
    · rw [hdr, hjobs] at hops
      exact hops
    · have hbyte := (writeC_stores s g x o).bytes hwf a ha
      rw [State.byte, hmem', hmem]
      exact hbyte
  · intro s g x hst
    refine ⟨s.releaseCtx g x, ?_, ctx_releaseCtx s g x, fun h hne => tile_releaseCtx_ne s x hne⟩
    show execDrawerRelease g x s = _
    simp [execDrawerRelease, hst]

end Sys2Proof.Machine

/-! PROOFS. The reduction collector: O21. -/

namespace Sys2Proof.Machine

/-! ## One addition (R120, R129, R173) -/

/-- One lane of an addition: the sum of what the chain and the entry hold there, and what it counts. -/
def laneSum (e : Entry) (p q : BitVec 32) (l : Nat) : BitVec 32 × Counts :=
  if !e.valid.getLsbD l then (p, Counts.zero)
  else if e.fmt = 10 then
    if p = 0x80000000 || q = 0x80000000 then (0x80000000, Counts.invalid)
    else
      let v := p.toInt + q.toInt
      if v > 0x7FFFFFFF then (0x7FFFFFFF, Counts.saturated)
      else if v < -0x7FFFFFFF then (0x80000001, Counts.saturated) else (BitVec.ofInt 32 v, Counts.zero)
  else add32 true (val32 p) (val32 q)

section Lanes

variable {h : Chain} {a e : Entry} {l : Nat} {p q : BitVec 32} (hacc : h.acc = some a) (hl : l < 32)
  (hp : a.data[l]? = some p) (hq : e.data[l]? = some q)
include hacc hl hp hq

/-- An addition sums lane by lane. -/
theorem combine_lane : ((h.combine e).acc.map fun b => b.data.getD l 0) = some (laneSum e p q l).1 := by
  have hcombine : (h.combine e).acc.map (·.data) =
      some ((((a.data.zip e.data).zip (List.range 32)).map fun x => laneSum e x.1.1 x.1.2 x.2).map (·.1)) := by
    rw [Chain.combine, hacc]
    rfl
  have hdata : (h.combine e).acc.map (fun b => b.data.getD l 0) =
      ((h.combine e).acc.map (·.data)).map fun d => d.getD l 0 := by
    rw [Option.map_map]
    rfl
  have hlane : ((a.data.zip e.data).zip (List.range 32))[l]? = some ((p, q), l) := by
    simp [List.getElem?_zip_eq_some, hp, hq, hl]
  rw [hdata, hcombine, Option.map_some, List.getD_eq_getElem?_getD, List.getElem?_map, List.getElem?_map, hlane]
  rfl

/-- Sums of INT32 saturate, and 0x8000_0000 stays. -/
theorem combine_int32 (hfmt : e.fmt = 10) (hvalid : e.valid.getLsbD l = true) :
    ((h.combine e).acc.map fun b => b.data.getD l 0) =
      some (if p = 0x80000000 ∨ q = 0x80000000 then 0x80000000
        else BitVec.ofInt 32 (max (-0x7FFFFFFF) (min 0x7FFFFFFF (p.toInt + q.toInt)))) := by
  rw [combine_lane hacc hl hp hq, laneSum, hvalid, if_neg (by simp), if_pos hfmt]
  by_cases hinvalid : p = 0x80000000 ∨ q = 0x80000000
  · rw [if_pos (by simpa using hinvalid), if_pos hinvalid]
  rw [if_neg (by simpa using hinvalid), if_neg hinvalid]
  generalize p.toInt + q.toInt = v
  dsimp only
  split
  case isTrue hhigh => rw [min_eq_left (by omega), max_eq_right (by decide)]; rfl
  case isFalse hhigh =>
    rw [min_eq_right (by omega)]
    split
    case isTrue hlow => rw [max_eq_left (by omega)]; rfl
    case isFalse hlow => rw [max_eq_right (by omega)]

/-- An FP32 sum with a NaN is the canonical NaN. -/
theorem combine_nan (hfmt : e.fmt ≠ 10) (hvalid : e.valid.getLsbD l = true) (hnan : val32 p = .nan ∨ val32 q = .nan) :
    ((h.combine e).acc.map fun b => b.data.getD l 0) = some 0x7FC00000 := by
  have hsum : (val32 p).add (val32 q) = (.nan, .invalid) := by
    rcases hnan with hn | hn <;> rw [hn]
    · rfl
    · cases val32 p <;> rfl
  rw [combine_lane hacc hl hp hq, laneSum, hvalid, if_neg (by simp), if_neg hfmt, add32, hsum]
  rfl

end Lanes

/-! ## The collector's objects (R141, R174) -/

/-- Objects of one cabinet are told apart by their base keys. -/
theorem cabKey_ne {a b : Nat} (c : Nat) (h : a ≠ b) : a + 0x10000 * c ≠ b + 0x10000 * c := by omega

/-- An object of a cabinet is below those that follow the eight cabinets'. -/
theorem cabKey_ne_of_lt {b k : Nat} (c : Cab) (h : b + 0x70000 < k) : b + 0x10000 * c.val ≠ k := by
  have hc := c.isLt
  omega

/-- The objects that follow a cabinet's collector and the device's totals. -/
def combineKeys (c : Nat) : List Nat :=
  [Obj.openSlots + 0x10000 * c, Obj.stagingHighWater + 0x10000 * c, Obj.collectorState + 0x10000 * c, Obj.deviceSatCount,
    Obj.deviceFlushCount, Obj.deviceNumericFlags]

/-- The collector's counts are none of them. -/
theorem not_mem_combineKeys (c : Cab) {b : Nat} (hb : b = Obj.combineReplays ∨ b = Obj.entriesAdmitted) :
    b + 0x10000 * c.val ∉ combineKeys c := by
  simp only [combineKeys, List.mem_cons, List.not_mem_nil, or_false, not_or]
  rcases hb with rfl | rfl <;>
    exact ⟨cabKey_ne _ (by decide), cabKey_ne _ (by decide), cabKey_ne _ (by decide), cabKey_ne_of_lt c (by decide),
      cabKey_ne_of_lt c (by decide), cabKey_ne_of_lt c (by decide)⟩

namespace State

variable (s : State) (c : Nat)

theorem setColl_colls (q : Collector) : (s.setColl c q).colls = s.colls.put c q := by
  rw [setColl, setState_colls, high_colls, setNum_colls]

theorem setColl_tiles (q : Collector) : (s.setColl c q).tiles = s.tiles := by
  rw [setColl, setState_tiles, high_tiles, setNum_tiles]

theorem setColl_jobTotals (q : Collector) : (s.setColl c q).jobTotals = s.jobTotals := by
  rw [setColl, setState_jobTotals, high_jobTotals, setNum_jobTotals]

theorem setColl_objects (q : Collector) : KeepsObjects (combineKeys c) s (s.setColl c q) := by
  have hput : KeepsObjects (combineKeys c) s { s with colls := s.colls.put c q } := fun _ _ _ => rfl
  exact ((hput.trans ((setNum_changes _ _ _).2.mono (by simp [combineKeys]))).trans
    ((setNum_changes _ _ _).2.mono (by simp [combineKeys]))).trans ((setState_changes _ _ _).2.mono (by simp [combineKeys]))

theorem coll_congr {s u : State} (h : u.colls = s.colls) (c : Nat) : u.coll c = s.coll c := by rw [coll, h, coll]

@[simp] theorem coll_setColl_self (q : Collector) : (s.setColl c q).coll c = q := by
  rw [coll, setColl_colls, Tab.get, Tab.find?_put_self]
  rfl

theorem unpark_tiles : (s.unpark c).tiles = s.tiles := by
  unfold unpark
  split
  · rw [setState_tiles, setState_tiles]
  · rfl

theorem unpark_mem : (s.unpark c).mem = s.mem := by
  unfold unpark
  split
  · rw [setState_mem, setState_mem]
  · rfl

end State

/-! ## An entry joins its chain (R173, R176) -/

/-- The slot with an entry in its chain. -/
def Slot.join (o : Slot) (e : Entry) : Slot :=
  { o with chains := o.chains.put e.offset ((o.chains.get Chain.empty e.offset).combine e) }

/-- The results of a complete slot are written at its destination. -/
def State.writeResults (t : Slot) (s : State) : State :=
  t.chains.foldl (fun s (o, h) => match h.acc with
    | .none => s
    | some a => (List.range 32).foldl (fun s l =>
        if a.valid.getLsbD l then s.poke (t.dest + 128 * o + 4 * l) (leBytes 4 (a.data.getD l 0).toNat) else s) s) s

theorem StoresOutside.foldl {α : Type} {P : Nat → Prop} {f : State → α → State} (hf : ∀ s a, StoresOutside P s (f s a))
    (l : List α) (s : State) : StoresOutside P s (l.foldl f s) := by
  induction l generalizing s with
  | nil => exact refl s
  | cons a l ih => exact (hf s a).trans (ih _)

theorem writeResults_frame (t : Slot) (s : State) : s.writeResults t = { s with mem := (s.writeResults t).mem } := by
  refine StoresOutside.frame (P := fun _ => False) (StoresOutside.foldl (fun s ch => ?_) _ _)
  dsimp only
  split
  · exact .refl s
  · refine StoresOutside.foldl (fun s l => ?_) _ _
    split
    · exact (StoresOutside.refl s).poke _ _ fun _ => False.elim
    · exact .refl s

/-- What an addition to a chain leaves: the chain with the entry, or, the slot complete, the slot closed and counted. -/
structure Combined (c : Nat) (e : Entry) (o : Slot) (s u : State) : Prop where
  staging : (u.coll c).staging = (s.coll c).staging
  slot : (u.coll c).slots.find? e.slot = if (o.join e).complete then none else some (o.join e)
  ops : (u.jobTotals.get ⟨0, Counts.zero⟩ o.jobId).ops =
    (s.jobTotals.get ⟨0, Counts.zero⟩ o.jobId).ops + if (o.join e).complete then 1 else 0
  mem : (o.join e).complete = false → u.mem = s.mem
  tiles : u.tiles = s.tiles
  objects : KeepsObjects (combineKeys c) s u

theorem combine_spec {s : State} {c : Nat} {e : Entry} {o : Slot} (hslot : (s.coll c).slots.find? e.slot = some o)
    (hsorted : Tab.sorted (s.coll c).slots = true) : Combined c e o s (s.combine c e) := by
  have hcombine : s.combine c e = if (o.join e).complete then
      ((((s.writeResults (o.join e)).setColl c { s.coll c with slots := (s.coll c).slots.del e.slot }).countJob o.jobId
        ((o.join e).chains.foldl (fun k x => k.add x.2.cnt) Counts.zero)).countDevice
          ((o.join e).chains.foldl (fun k x => k.add x.2.cnt) Counts.zero))
      else s.setColl c { s.coll c with slots := (s.coll c).slots.put e.slot (o.join e) } := by
    simp only [State.combine, hslot]
    rfl
  rw [hcombine]
  by_cases hdone : (o.join e).complete = true
  · rw [if_pos hdone]
    have hframe := writeResults_frame (o.join e) s
    generalize s.writeResults (o.join e) = w at hframe
    generalize (o.join e).chains.foldl _ _ = k
    generalize hv : w.setColl c { s.coll c with slots := (s.coll c).slots.del e.slot } = v
    obtain ⟨hdevice, hobjects⟩ := (v.countJob o.jobId k).countDevice_changes k
    have hcolls : ((v.countJob o.jobId k).countDevice k).coll c = { s.coll c with slots := (s.coll c).slots.del e.slot } := by
      rw [State.coll_congr (s := v) (by rw [hdevice]; rfl), ← hv, State.coll_setColl_self]
    refine ⟨by rw [hcolls], ?_, ?_, fun h => absurd hdone (by simp [h]), ?_, ?_⟩
    · rw [hcolls, if_pos hdone]
      exact Tab.find?_del_self _ _ hsorted
    · rw [State.countDevice_jobTotals, State.ops_countJob, if_pos hdone, ← hv, State.setColl_jobTotals, hframe]
    · rw [hdevice]
      show v.tiles = s.tiles
      rw [← hv, State.setColl_tiles, hframe]
    · have hw : KeepsObjects (combineKeys c) s w := fun k _ _ => by rw [hframe]; rfl
      have hv' : KeepsObjects (combineKeys c) w v := hv ▸ w.setColl_objects c _
      have hjob : KeepsObjects (combineKeys c) v (v.countJob o.jobId k) := fun _ _ _ => rfl
      exact ((hw.trans hv').trans hjob).trans (hobjects.mono (by simp [combineKeys]))
  · rw [if_neg hdone]
    refine ⟨by rw [State.coll_setColl_self], ?_, ?_, fun _ => State.setColl_mem _ _ _, State.setColl_tiles _ _ _,
      State.setColl_objects _ _ _⟩
    · rw [State.coll_setColl_self, if_neg hdone]
      exact Tab.find?_put_self _ _ _
    · rw [State.setColl_jobTotals, if_neg hdone, Nat.add_zero]

/-! ## Heads of the output queues (R171, R174) -/

theorem filterMap_range_single {α : Type} {f : Nat → Option α} {n t : Nat} {a : α} (ht : t < n) (ha : f t = some a)
    (hnone : ∀ i < n, i ≠ t → f i = none) : (List.range n).filterMap f = [a] := by
  induction n with
  | zero => omega
  | succ n ih =>
    rw [List.range_succ, List.filterMap_append]
    by_cases hn : t = n
    · subst hn
      have hnil : (List.range t).filterMap f = [] :=
        List.filterMap_eq_nil_iff.2 fun i hi => hnone i (by simp at hi; omega) (by simp at hi; omega)
      simp [hnil, ha]
    · simp [ih (by omega) fun i hi hne => hnone i (by omega) hne, hnone n (by omega) (Ne.symm hn)]

section Heads

variable {s : State} {c : Cab} {t : Fin 150} {e : Entry} {x w : Nat} {r : List (Entry × Nat × Nat)} {o : Slot}
  (hqueue : (s.tile (150 * c + t)).queue = (e, x, w) :: r)
  (hempty : ∀ t' : Fin 150, t' ≠ t → (s.tile (150 * c + t')).queue = [])
  (hslot : (s.coll c).slots.find? e.slot = some o)

include hqueue in
/-- A head that leaves its queue notes how long it waited. -/
theorem takeHead_eq : s.takeHead (150 * c + t) = (s.modTile (150 * c + t) fun v => { v with queue := r }).high
    (Obj.headWaitMax + 0x10000 * c) w := by
  have hcab : (150 * c.val + t.val) / 150 = c := by have := t.isLt; omega
  simp only [State.takeHead, hqueue, hcab]

include hempty in
theorem headsWait_single : s.headsWait c [t.val] = s := by
  have key : ∀ l : List Nat, (∀ i ∈ l, i < 150 ∧ i ≠ t) → l.foldl (fun s i => match (s.tile (150 * c + i)).queue with
      | [] => s
      | (e, x, w) :: r => s.modTile (150 * c + i) fun v => { v with queue := (e, x, w + 1) :: r }) s = s := by
    intro l
    induction l with
    | nil => exact fun _ => rfl
    | cons i l ih =>
      intro hl
      obtain ⟨hi, hne⟩ := hl i List.mem_cons_self
      have hnone : (s.tile (150 * c + i)).queue = [] := hempty ⟨i, hi⟩ fun h => hne (congrArg Fin.val h)
      rw [List.foldl_cons, hnone]
      exact ih fun j hj => hl j (List.mem_cons_of_mem _ hj)
  refine key _ fun i hi => ?_
  simpa using hi

include hqueue hempty hslot

theorem heads_single : s.heads c = [(t.val, e)] := by
  refine filterMap_range_single t.isLt ?_ fun i hi hne => ?_
  · simp [hqueue, hslot]
  · have hnone : (s.tile (150 * c + i)).queue = [] := hempty ⟨i, hi⟩ fun h => hne (congrArg Fin.val h)
    rw [hnone]

/-- The one head is out of order: it waits in staging. -/
theorem exec_collectorAdmit_staged (n : Nat) (hup : s.collUp c = true) (hnext : (s.coll c).isNext e = false)
    (hroom : (s.coll c).staging.length < 1024) : exec (.collectorAdmit ⟨c, n⟩) s =
      .next ((((s.takeHead (150 * c + t)).setColl c { s.coll c with staging := (s.coll c).staging ++ [e] }).bump
        (Obj.combineReplays + 0x10000 * c) 0).bump (Obj.entriesAdmitted + 0x10000 * c) 1) := by
  obtain ⟨m, hm⟩ : ∃ m, min 4 (1024 - (s.coll c).staging.length) = m + 1 := ⟨_, (Nat.succ_pred (by omega)).symm⟩
  show execCollectorAdmit ⟨c, n⟩ s = _
  simp [execCollectorAdmit, hup, heads_single hqueue hempty hslot, hnext, insertHead, hm, headsWait_single hempty]

/-- The one head is next: it joins its chain. -/
theorem exec_collectorAdmit_next (n : Nat) (hup : s.collUp c = true) (hnext : (s.coll c).isNext e = true) :
    exec (.collectorAdmit ⟨c, n⟩) s =
      .next (((((s.takeHead (150 * c + t)).setColl c (s.coll c)).combine c e).bump
        (Obj.combineReplays + 0x10000 * c) n).bump (Obj.entriesAdmitted + 0x10000 * c) 1) := by
  show execCollectorAdmit ⟨c, n⟩ s = _
  simp [execCollectorAdmit, hup, heads_single hqueue hempty hslot, hnext, headsWait_single hempty]

end Heads

/-! ## A cycle of the collector -/

section Cycle

variable {s : State} {c : Cab} {t : Fin 150} {e : Entry} {x w n : Nat} {r : List (Entry × Nat × Nat)} {o : Slot}
  (hup : s.collUp c = true) (hqueue : (s.tile (150 * c + t)).queue = (e, x, w) :: r)
  (hempty : ∀ t' : Fin 150, t' ≠ t → (s.tile (150 * c + t')).queue = [])

include hqueue in
/-- What taking the head leaves: its queue without it, and the objects but the longest wait. -/
theorem takeHead_spec : ((s.takeHead (150 * c + t)).tile (150 * c + t)).queue = r ∧
    (s.takeHead (150 * c + t)).coll c = s.coll c ∧ (s.takeHead (150 * c + t)).mem = s.mem ∧
    (s.takeHead (150 * c + t)).jobTotals = s.jobTotals ∧
    KeepsObjects [Obj.headWaitMax + 0x10000 * c] s (s.takeHead (150 * c + t)) := by
  rw [takeHead_eq hqueue]
  refine ⟨?_, rfl, rfl, rfl, (State.setNum_changes _ _ _).2⟩
  rw [State.tile_congr (State.high_tiles _ _ _), State.tile_modTile_self]

/-- A count of the collector's own cycle reads as before taking the head and what followed in the collector's objects. -/
theorem num_collCount {u v : State} (hu : KeepsObjects [Obj.headWaitMax + 0x10000 * c] s u)
    (hv : KeepsObjects (combineKeys c) u v) {b : Nat} (hb : b = Obj.combineReplays ∨ b = Obj.entriesAdmitted) :
    v.num (b + 0x10000 * c) = s.num (b + 0x10000 * c) := by
  have hquiet : ∀ m, m < 256 → b + 0x10000 * c.val ≠ mrKey Obj.eventsDropped m := by
    rcases hb with rfl | rfl <;> exact ne_eventsDropped_of_le (low_add _ (by decide))
  have hwait : b + 0x10000 * c.val ∉ [Obj.headWaitMax + 0x10000 * c.val] := by
    rw [List.mem_singleton]
    rcases hb with rfl | rfl <;> exact cabKey_ne _ (by decide)
  rw [hv.num (not_mem_combineKeys c hb) hquiet, hu.num hwait hquiet]

include hup hqueue hempty

theorem collectorAdmit_staged (hslot : ∃ o, (s.coll c).slots.find? e.slot = some o)
    (hnext : (s.coll c).isNext e = false) (hroom : (s.coll c).staging.length < 1024) :
    Answers (exec (.collectorAdmit ⟨c, n⟩) s) fun u =>
      (u.tile (150 * c + t)).queue = r ∧ (u.coll c).staging = (s.coll c).staging ++ [e] ∧
      u.num (Obj.entriesAdmitted + 0x10000 * c) =
        min (s.num (Obj.entriesAdmitted + 0x10000 * c) + 1) (maxOf (Obj.entriesAdmitted + 0x10000 * c)) ∧ u.mem = s.mem := by
  obtain ⟨o, hslot⟩ := hslot
  refine ⟨_, exec_collectorAdmit_staged hqueue hempty hslot n hup hnext hroom, ?_⟩
  obtain ⟨hq, -, hmem, -, hobj⟩ := takeHead_spec hqueue
  generalize s.takeHead (150 * c + t) = u at hq hmem hobj ⊢
  generalize hv : u.setColl c { s.coll c with staging := (s.coll c).staging ++ [e] } = v
  refine ⟨?_, ?_, ?_, ?_⟩
  · rw [State.tile_bump, State.tile_bump, ← hv, State.tile_congr (State.setColl_tiles _ _ _), hq]
  · show (v.coll c).staging = _
    rw [← hv, State.coll_setColl_self]
  · rw [State.num_bump_self, State.num_bump_ne _ _ _ _ (cabKey_ne _ (by decide)),
      num_collCount hobj (hv ▸ State.setColl_objects u c _) (.inr rfl)]
  · show v.mem = _
    rw [← hv, State.setColl_mem, hmem]

theorem collectorAdmit_next (hslot : (s.coll c).slots.find? e.slot = some o) (hsorted : Tab.sorted (s.coll c).slots = true)
    (hnext : (s.coll c).isNext e = true) : Answers (exec (.collectorAdmit ⟨c, n⟩) s) fun u =>
      (u.tile (150 * c + t)).queue = r ∧ (u.coll c).staging = (s.coll c).staging ∧
      (u.coll c).slots.find? e.slot = (if (o.join e).complete then none else some (o.join e)) ∧
      (u.jobTotals.get ⟨0, Counts.zero⟩ o.jobId).ops =
        (s.jobTotals.get ⟨0, Counts.zero⟩ o.jobId).ops + (if (o.join e).complete then 1 else 0) ∧
      u.num (Obj.combineReplays + 0x10000 * c) =
        min (s.num (Obj.combineReplays + 0x10000 * c) + n) (maxOf (Obj.combineReplays + 0x10000 * c)) ∧
      ((o.join e).complete = false → u.mem = s.mem) := by
  refine ⟨_, exec_collectorAdmit_next hqueue hempty hslot n hup hnext, ?_⟩
  obtain ⟨hq, -, hmem, hjobs, hobj⟩ := takeHead_spec hqueue
  generalize s.takeHead (150 * c + t) = u at hq hmem hjobs hobj ⊢
  have hput := u.setColl_objects c (s.coll c)
  have hcoll : (u.setColl c (s.coll c)).coll c = s.coll c := State.coll_setColl_self _ _ _
  have hmem' : (u.setColl c (s.coll c)).mem = s.mem := (State.setColl_mem _ _ _).trans hmem
  have hjobs' : (u.setColl c (s.coll c)).jobTotals = s.jobTotals := (State.setColl_jobTotals _ _ _).trans hjobs
  have htiles : (u.setColl c (s.coll c)).tiles = u.tiles := State.setColl_tiles _ _ _
  generalize u.setColl c (s.coll c) = v at hput hcoll hmem' hjobs' htiles ⊢
  have hjoin : Combined c e o v (v.combine c e) := combine_spec (by rw [hcoll, hslot]) (by rw [hcoll, hsorted])
  generalize v.combine c e = y at hjoin ⊢
  refine ⟨?_, ?_, hjoin.slot, ?_, ?_, fun h => (hjoin.mem h).trans hmem'⟩
  · rw [State.tile_bump, State.tile_bump, State.tile_congr (hjoin.tiles.trans htiles), hq]
  · exact hjoin.staging.trans (congrArg Collector.staging hcoll)
  · rw [← hjobs']
    exact hjoin.ops
  · rw [State.num_bump_ne _ _ _ _ (cabKey_ne _ (by decide)), State.num_bump_self,
      num_collCount hobj (hput.trans hjoin.objects) (.inl rfl)]

end Cycle

/-! ## Combining from staging, and opening (R173, R176) -/

section Staging

variable {s : State} {c : Cab} {slot : Fin 256} {offset : BitVec 24} {n : Nat} {e : Entry} {o : Slot}

/-- The staged entry whose turn it is in a chain is the one found. -/
theorem exec_chainCombine (hmem : e ∈ (s.coll c).staging) (hslot : e.slot = slot.val) (hoffset : e.offset = offset.toNat)
    (hnext : (s.coll c).isNext e = true)
    (hone : ∀ e' ∈ (s.coll c).staging, e'.slot = slot.val → e'.offset = offset.toNat → (s.coll c).isNext e' = true → e' = e) :
    exec (.chainCombine c slot offset n) s = .next (((s.bump (Obj.combineReplays + 0x10000 * c) n).setColl c
      { s.coll c with staging := (s.coll c).staging.erase e }).combine c e) := by
  have hfind : (s.coll c).staging.find? (fun e => e.slot = slot.val && e.offset = offset.toNat && (s.coll c).isNext e) =
      some e := by
    cases hf : (s.coll c).staging.find? fun e => e.slot = slot.val && e.offset = offset.toNat && (s.coll c).isNext e with
    | none =>
      have := List.find?_eq_none.1 hf e hmem
      simp [hslot, hoffset, hnext] at this
    | some e' =>
      have hp := List.find?_some hf
      simp only [Bool.and_eq_true, decide_eq_true_eq] at hp
      obtain ⟨⟨hslot', hoffset'⟩, hnext'⟩ := hp
      rw [hone e' (List.mem_of_find?_eq_some hf) hslot' hoffset' hnext']
  show execChainCombine c slot offset n s = _
  rw [execChainCombine]
  dsimp only
  rw [hfind]

theorem chainCombine_spec (hmem : e ∈ (s.coll c).staging) (hslot : e.slot = slot.val) (hoffset : e.offset = offset.toNat)
    (hnext : (s.coll c).isNext e = true)
    (hone : ∀ e' ∈ (s.coll c).staging, e'.slot = slot.val → e'.offset = offset.toNat → (s.coll c).isNext e' = true → e' = e)
    (hfind : (s.coll c).slots.find? slot = some o) (hsorted : Tab.sorted (s.coll c).slots = true) :
    Answers (exec (.chainCombine c slot offset n) s) fun u =>
      (u.coll c).staging = (s.coll c).staging.erase e ∧
      (u.coll c).slots.find? slot = (if (o.join e).complete then none else some (o.join e)) ∧
      u.num (Obj.combineReplays + 0x10000 * c) =
        min (s.num (Obj.combineReplays + 0x10000 * c) + n) (maxOf (Obj.combineReplays + 0x10000 * c)) ∧
      ((o.join e).complete = false → u.mem = s.mem) := by
  refine ⟨_, exec_chainCombine hmem hslot hoffset hnext hone, ?_⟩
  have hput := (s.bump (Obj.combineReplays + 0x10000 * c) n).setColl_objects c
    { s.coll c with staging := (s.coll c).staging.erase e }
  have hcoll := (s.bump (Obj.combineReplays + 0x10000 * c) n).coll_setColl_self c
    { s.coll c with staging := (s.coll c).staging.erase e }
  have hmem' := (s.bump (Obj.combineReplays + 0x10000 * c) n).setColl_mem c
    { s.coll c with staging := (s.coll c).staging.erase e }
  generalize (s.bump (Obj.combineReplays + 0x10000 * c) n).setColl c _ = v at hput hcoll hmem' ⊢
  have hjoin : Combined c e o v (v.combine c e) :=
    combine_spec (by rw [hcoll, hslot]; exact hfind) (by rw [hcoll]; exact hsorted)
  refine ⟨hjoin.staging.trans (congrArg Collector.staging hcoll), hslot ▸ hjoin.slot, ?_,
    fun h => (hjoin.mem h).trans hmem'⟩
  rw [(hput.trans hjoin.objects).num (not_mem_combineKeys c (.inl rfl)) (ne_eventsDropped_of_le (low_add _ (by decide))),
    State.num_bump_self]

theorem collectorSlotOpen_spec {k : Fin 151} {len off : Nat} {dest : BitVec 48} {job : BitVec 32} (hup : s.collUp c = true)
    (hfree : (s.coll c).slots.find? slot = none) (hk : 1 ≤ k.val) (hlen : 0 < len)
    (hplace : s.place dest.toNat = .buffer c off) : Answers (exec (.collectorSlotOpen c slot k len dest job) s) fun u =>
      (u.coll c).slots.find? slot = some ⟨k, len, dest.toNat, job.toNat, []⟩ ∧ (u.coll c).staging = (s.coll c).staging ∧
      u.mem = s.mem ∧ u.tiles = s.tiles := by
  refine ⟨(s.unpark c).setColl c { s.coll c with slots := (s.coll c).slots.put slot ⟨k, len, dest.toNat, job.toNat, []⟩ },
    ?_, ?_, ?_, ?_, ?_⟩
  · show execCollectorSlotOpen c slot k len dest job s = _
    simp [execCollectorSlotOpen, hup, hfree, hk, hlen, hplace]
  · rw [State.coll_setColl_self]
    exact Tab.find?_put_self _ _ _
  · rw [State.coll_setColl_self]
  · rw [State.setColl_mem, State.unpark_mem]
  · rw [State.setColl_tiles, State.unpark_tiles]

end Staging

/-- Settles O21: with one head in the cabinet's queues a cycle takes it to staging or to its chain; what joins a chain leaves
`Combined`; and an addition sums lane by lane, by `combine_lane`. -/
theorem collectorReduces : Obligations.CollectorReduces := by
  refine ⟨?_, ?_, ?_, ?_, ?_, ?_⟩
  · exact fun s c slot k len dest job off hup hfree hk hlen hplace => collectorSlotOpen_spec hup hfree hk hlen hplace
  · exact fun s c t e x w n r hup hqueue hempty hslot hnext hroom =>
      collectorAdmit_staged hup hqueue hempty hslot hnext hroom
  · exact fun s c t e x w n r o hup hqueue hempty hslot hsorted hnext =>
      collectorAdmit_next hup hqueue hempty hslot hsorted hnext
  · exact fun s c slot offset n e o hmem hslot hoffset hnext hone hfind hsorted =>
      chainCombine_spec hmem hslot hoffset hnext hone hfind hsorted
  · exact fun h a e l p q hacc hfmt hl hp hq hvalid _ _ => combine_int32 hacc hl hp hq hfmt hvalid
  · exact fun h a e l p q hacc hfmt hl hp hq hvalid hnan => combine_nan hacc hl hp hq hfmt hvalid hnan

end Sys2Proof.Machine

/-! PROOFS. Issue of operation words: what one that is chosen leaves, and the control and scalar operations: O22. -/

namespace Sys2Proof.Machine

/-! ## Reading a context after an update -/

/-- A tile but for its contexts. -/
def TileS.rest (t : TileS) : TileS := { t with ctxs := [] }

namespace State

variable (s : State) (g x : Nat)

/-- An update of part of a context leaves what the update does not name of every context of the tile. -/
theorem proj_setCtx {α : Type} (p : Context → α) (c : Context) (hc : p c = p (s.ctx g x)) (y : Nat) :
    p ((s.setCtx g x c).ctx g y) = p (s.ctx g y) := by
  by_cases hy : y = x
  · rw [hy, ctx_setCtx_self, hc]
  · rw [ctx_setCtx_ne _ _ _ hy]

@[simp] theorem th_modTh_self (f : Thread → Thread) : (s.modTh g x f).th g x = f (s.th g x) := by
  simp [th, modTh]

@[simp] theorem img_modTh (f : Thread → Thread) (y : Nat) : (s.modTh g x f).img g y = s.img g y :=
  proj_setCtx s g x Context.img { s.ctx g x with th := f (s.th g x) } rfl y

@[simp] theorem dr_modTh (f : Thread → Thread) (y : Nat) : (s.modTh g x f).dr g y = s.dr g y :=
  proj_setCtx s g x Context.dr { s.ctx g x with th := f (s.th g x) } rfl y

@[simp] theorem img_modImg_self (f : Image → Image) : (s.modImg g x f).img g x = f (s.img g x) := by
  simp [img, modImg]

theorem img_modImg_ne {x y : Nat} (f : Image → Image) (hne : y ≠ x) : (s.modImg g x f).img g y = s.img g y := by
  rw [img, modImg, ctx_setCtx_ne s g _ hne, img]

@[simp] theorem th_modImg (f : Image → Image) (y : Nat) : (s.modImg g x f).th g y = s.th g y :=
  proj_setCtx s g x Context.th { s.ctx g x with img := f (s.img g x) } rfl y

@[simp] theorem dr_modImg (f : Image → Image) (y : Nat) : (s.modImg g x f).dr g y = s.dr g y :=
  proj_setCtx s g x Context.dr { s.ctx g x with img := f (s.img g x) } rfl y

/-- An update of the tile beside its contexts leaves each of them. -/
theorem ctx_modTile (f : TileS → TileS) (hf : (f (s.tile g)).ctxs = (s.tile g).ctxs) (y : Nat) :
    (s.modTile g f).ctx g y = s.ctx g y := by
  rw [ctx, tile_modTile_self, TileS.ctx, hf, ctx, TileS.ctx]

/-- An update of a context leaves the rest of its tile. -/
@[simp] theorem rest_setCtx (c : Context) : ((s.setCtx g x c).tile g).rest = (s.tile g).rest := by
  rw [setCtx, tile_modTile_self]
  rfl

theorem flight_setCtx (c : Context) : ((s.setCtx g x c).tile g).flight = (s.tile g).flight :=
  (congrArg TileS.flight (rest_setCtx s g x c) :)

theorem sema_setCtx (c : Context) : ((s.setCtx g x c).tile g).sema = (s.tile g).sema :=
  (congrArg TileS.sema (rest_setCtx s g x c) :)

/-- What an object holds follows from the objects alone. -/
theorem num_congr {s u : State} (h : u.obj = s.obj) (k : Nat) : u.num k = s.num k := by rw [num, val, h, num, val]

end State

/-! ## Updates of one context -/

/-- Nothing changes but objects and tile g; of the tile's other contexts the registers and the drawers stand. -/
structure OneContext (g x : Nat) (s u : State) : Prop where
  frame : u = { s with tiles := u.tiles, obj := u.obj }
  others : ∀ h, h ≠ g → u.tile h = s.tile h
  contexts : ∀ y, y ≠ x → u.img g y = s.img g y ∧ u.dr g y = s.dr g y

namespace OneContext

variable {g x : Nat} {s t u : State}

theorem refl (s : State) : OneContext g x s s := ⟨rfl, fun _ _ => rfl, fun _ _ => ⟨rfl, rfl⟩⟩

theorem trans (h₁ : OneContext g x s t) (h₂ : OneContext g x t u) : OneContext g x s u := by
  refine ⟨?_, fun h hne => (h₂.others h hne).trans (h₁.others h hne), fun y hy => ?_⟩
  · refine h₂.frame.trans ?_
    rw [h₁.frame]
  · obtain ⟨himg₁, hdr₁⟩ := h₁.contexts y hy
    obtain ⟨himg₂, hdr₂⟩ := h₂.contexts y hy
    exact ⟨himg₂.trans himg₁, hdr₂.trans hdr₁⟩

theorem bump (h : OneContext g x s t) (k n : Nat) : OneContext g x s (t.bump k n) :=
  h.trans ⟨rfl, fun _ _ => rfl, fun _ _ => ⟨rfl, rfl⟩⟩

theorem modTh (h : OneContext g x s t) (y : Nat) (f : Thread → Thread) : OneContext g x s (t.modTh g y f) :=
  h.trans ⟨rfl, fun _ hne => State.tile_setCtx_ne _ _ _ hne,
    fun z _ => ⟨State.img_modTh t g y f z, State.dr_modTh t g y f z⟩⟩

theorem modImg (h : OneContext g x s t) (f : Image → Image) : OneContext g x s (t.modImg g x f) :=
  h.trans ⟨rfl, fun _ hne => State.tile_setCtx_ne _ _ _ hne,
    fun z hz => ⟨State.img_modImg_ne t g f hz, State.dr_modImg t g x f z⟩⟩

theorem modTile (h : OneContext g x s t) (f : TileS → TileS) (hf : (f (t.tile g)).ctxs = (t.tile g).ctxs) :
    OneContext g x s (t.modTile g f) :=
  h.trans ⟨rfl, fun _ hne => State.tile_modTile_ne _ _ hne,
    fun z _ => ⟨congrArg Context.img (t.ctx_modTile g f hf z), congrArg Context.dr (t.ctx_modTile g f hf z)⟩⟩

end OneContext

/-! ## A word that issues (R182, R184, R185, R211) -/

/-- What issue in cycle c leaves: the context runs, or stays halted, its PC moved but for an array operation issued again;
the results join the flight, and the issue counts. -/
structure IssuedIn (g x c : Nat) (pc : Option Nat) (fl : List Flight) (s u : State) : Prop where
  context : OneContext g x s u
  thread : u.th g x = { s.th g x with
    st := if (s.th g x).st = .halted then .halted else .running, blockedOn := none, lastIssue := c,
    nextIssue := if pc.isSome then c + 2 else c + 1, again := none }
  image : (s.th g x).again = none → u.img g x = { s.img g x with pc := pc.getD ((s.img g x).pc + 1) }
  drawer : u.dr g x = s.dr g x
  acyc : (u.tile g).acyc = c + 1
  issuer : (u.tile g).issuer = some x
  flight : (u.tile g).flight = (s.tile g).flight ++ fl
  sema : (u.tile g).sema = (s.tile g).sema
  counted : u.num (tileKey Obj.issuedOperations g) =
    min (s.num (tileKey Obj.issuedOperations g) + 1) (maxOf (tileKey Obj.issuedOperations g))

namespace State

/-- What the first updates of an issue keep: the context, the tile beside its contexts, and the count of issues. -/
structure BeforeIssue (g x : Nat) (s u : State) : Prop where
  context : OneContext g x s u
  same : u.ctx g x = s.ctx g x
  rest : (u.tile g).rest = (s.tile g).rest
  counted : u.num (tileKey Obj.issuedOperations g) = s.num (tileKey Obj.issuedOperations g)

namespace BeforeIssue

variable {g x : Nat} {s t : State}

theorem refl (s : State) : BeforeIssue g x s s := ⟨.refl s, rfl, rfl, rfl⟩

theorem bump (h : BeforeIssue g x s t) {b : Nat} (hb : b ≠ Obj.issuedOperations) (n : Nat) :
    BeforeIssue g x s (t.bump (tileKey b g) n) :=
  ⟨h.context.bump _ _, h.same, h.rest, (num_bump_ne _ _ _ _ (tileKey_ne g hb.symm)).trans h.counted⟩

theorem modTh (h : BeforeIssue g x s t) {y : Nat} (hy : y ≠ x) (f : Thread → Thread) :
    BeforeIssue g x s (t.modTh g y f) :=
  ⟨h.context.modTh y f, (ctx_setCtx_ne _ _ _ hy.symm).trans h.same, (rest_setCtx t g y _).trans h.rest, h.counted⟩

end BeforeIssue

/-- The first updates of an issue: a switch counts, the context that ran is Ready, freeze cycles count. -/
def switchTo (g x freeze : Nat) (s : State) : State :=
  let t := s.tile g
  let s := if t.issuer.isSome && t.issuer ≠ some x then s.bump (tileKey Obj.switchCycles g) 1 else s
  let s := match t.issuer with
    | some y => if y ≠ x && (s.th g y).st = ThreadSt.running then s.modTh g y fun h => { h with st := .ready } else s
    | none => s
  if freeze = 0 then s else s.bump (tileKey Obj.freezeCycles g) freeze

theorem switchTo_spec (s : State) (g x freeze : Nat) : BeforeIssue g x s (s.switchTo g x freeze) := by
  unfold switchTo
  extract_lets t s₁ s₂
  have h₁ : BeforeIssue g x s s₁ := by
    unfold s₁
    split
    · exact (BeforeIssue.refl s).bump (by decide) 1
    · exact .refl s
  have h₂ : BeforeIssue g x s s₂ := by
    unfold s₂
    split
    · split
      · next hy => exact h₁.modTh (of_decide_eq_true (Bool.and_eq_true_iff.1 hy).1) _
      · exact h₁
    · exact h₁
  split
  · exact h₂
  · exact h₂.bump (by decide) freeze

theorem issued_spec (s : State) (g x c : Nat) (pc : Option Nat) (freeze : Nat) (fl : List Flight) :
    IssuedIn g x c pc fl s (s.issued g x c pc freeze fl) := by
  unfold issued
  extract_lets t switched s₁ s₂ s₃ s₄ s₅ s₆
  have h₃ : BeforeIssue g x s s₃ := switchTo_spec s g x freeze
  clear_value s₃
  have hctx₄ : s₄.ctx g x = s.ctx g x := (ctx_modTile s₃ g _ rfl x).trans h₃.same
  have hcontext₄ : OneContext g x s s₄ := h₃.context.modTile _ rfl
  have hacyc₄ : (s₄.tile g).acyc = c + 1 := by rw [tile_modTile_self]
  have hissuer₄ : (s₄.tile g).issuer = some x := by rw [tile_modTile_self]
  have hflight₄ : (s₄.tile g).flight = (s.tile g).flight ++ fl := by
    rw [tile_modTile_self]
    exact congrArg (·.flight ++ fl) h₃.rest
  have hsema₄ : (s₄.tile g).sema = (s.tile g).sema := by
    rw [tile_modTile_self]
    exact (congrArg TileS.sema h₃.rest : (s₃.tile g).rest.sema = _)
  have hcounted₄ : s₄.num (tileKey Obj.issuedOperations g) = s.num (tileKey Obj.issuedOperations g) := h₃.counted
  clear_value s₄
  have hrest₆ : (s₆.tile g).rest = (s₄.tile g).rest := by
    unfold s₆
    split
    · exact rest_setCtx _ _ _ _
    · exact (rest_setCtx _ _ _ _).trans (rest_setCtx _ _ _ _)
  have hth₆ : s₆.th g x = s₅.th g x := by
    unfold s₆
    split
    · rfl
    · exact th_modImg _ _ _ _ _
  have hdr₆ : s₆.dr g x = s₄.dr g x := by
    unfold s₆
    split
    · exact dr_modTh _ _ _ _ _
    · exact (dr_modImg _ _ _ _ _).trans (dr_modTh _ _ _ _ _)
  have h₅ : OneContext g x s s₅ := hcontext₄.modTh x _
  have hcontext₆ : OneContext g x s s₆ := by
    unfold s₆
    split
    · exact h₅
    · exact h₅.modImg _
  have hobj₆ : s₆.obj = s₄.obj := by
    unfold s₆
    split <;> rfl
  refine ⟨hcontext₆.bump _ _, ?_, fun hagain => ?_, ?_, ?_, ?_, ?_, ?_, ?_⟩
  · refine hth₆.trans ((th_modTh_self s₄ g x _).trans ?_)
    rw [th, hctx₄, th]
  · have h₆ : s₆ = s₅.modImg g x fun i => { i with pc := pc.getD (i.pc + 1) } :=
      if_neg (by rw [show (t.ctx x).th.again = none from hagain]; decide)
    show s₆.img g x = _
    rw [h₆, img_modImg_self, show s₅.img g x = s.img g x from (img_modTh _ _ _ _ _).trans (congrArg Context.img hctx₄)]
  · exact hdr₆.trans (congrArg Context.dr hctx₄)
  · exact (congrArg TileS.acyc hrest₆).trans hacyc₄
  · exact (congrArg TileS.issuer hrest₆).trans hissuer₄
  · exact (congrArg TileS.flight hrest₆).trans hflight₄
  · exact (congrArg TileS.sema hrest₆).trans hsema₄
  · rw [num_bump_self, num_congr hobj₆, hcounted₄]

end State

/-! ## Words (R189 to R195) -/

/-- A field above the opcode is the same with the opcode or without it. -/
theorem opf_word {op lo : Nat} (w n : Nat) (hop : op < 256) (hlo : 8 ≤ lo) : opf (w * 256 + op) lo n = opf (w * 256) lo n := by
  obtain ⟨k, rfl⟩ := Nat.exists_eq_add_of_le hlo
  have hword : (w * 256 + op) / 2 ^ 8 = w * 256 / 2 ^ 8 := by omega
  rw [opf, opf, bits, bits, Nat.pow_add, ← Nat.div_div_eq_div_mul, ← Nat.div_div_eq_div_mul, hword]

/-- Bit i + 8 of a word with its opcode is bit i of the word above it. -/
theorem testBit_word {op : Nat} (w : BitVec 120) (i : Nat) (hop : op < 256) :
    (w.toNat * 256 + op).testBit (i + 8) = w.getLsbD i := by
  have hword : w.toNat * 256 + op = 2 ^ 8 * w.toNat + op := by omega
  have hlow : op < 2 ^ 8 := by omega
  rw [hword, Nat.testBit_two_pow_mul_add _ hlow, if_neg (by omega), Nat.add_sub_cancel, BitVec.getLsbD]

/-- The word that an operation's two parts make. -/
theorem toNat_word {op : Nat} (w : BitVec 120) (hop : op < 256) : (w ++ BitVec.ofNat 8 op).toNat = w.toNat * 256 + op := by
  have hlow : op < 2 ^ 8 := by omega
  rw [BitVec.toNat_append, BitVec.toNat_ofNat, Nat.mod_eq_of_lt hlow, Nat.shiftLeft_eq, Nat.mul_comm,
    ← Nat.two_pow_add_eq_or_of_lt hlow, Nat.mul_comm]

/-- The opcode of a word. -/
theorem opcode_word {op : Nat} (w : Nat) (hop : op < 256) : (w * 256 + op) % 256 = op := by
  omega

theorem opListed_lt {op : Nat} (h : opListed op = true) : op < 256 := by
  simp [opListed] at h
  omega

/-! ## Choosing (R182) -/

theorem rotating_some {start n x : Nat} {p : Nat → Bool} (h : rotating start n p = some x) : p x = true :=
  List.find?_some h

/-- The context chosen can issue. -/
theorem State.canIssue_of_select {s : State} {g x : Nat} (h : s.select g = some x) : s.canIssue g x = true := by
  have hpick {rt : Nat → Bool} {a b : Nat} (hrt : ∀ y, rt y = true → s.canIssue g y = true)
      (h : (match rotating a 16 rt with | some y => some y | none => rotating b 16 (s.canIssue g)) = some x) :
      s.canIssue g x = true := by
    split at h
    · next y hy => exact hrt x (Option.some.inj h ▸ rotating_some hy)
    · exact rotating_some h
  have hrt (y : Nat) (h : (s.canIssue g y && (s.dr g y).rt) = true) : s.canIssue g y = true :=
    (Bool.and_eq_true_iff.1 h).1
  unfold State.select at h
  dsimp only at h
  split at h
  · split at h
    · next hy =>
        simp only [Bool.and_eq_true] at hy
        obtain ⟨⟨⟨⟨hcan, -⟩, -⟩, -⟩, -⟩ := hy
        exact Option.some.inj h ▸ hcan
    · exact hpick hrt h
  · exact hpick hrt h

/-! ## What a chosen word comes to (R182, R183, R196) -/

/-- What issue makes of an operation in cycle c: refused, blocked, or issued. -/
def Iss.outcome (s : State) (g x op c : Nat) : Iss → Res
  | .refuse cause => .next (s.refuseOp g x c cause op)
  | .block => .next (s.blockOp g x c (s.fetch g x))
  | .go t pc freeze fl => .next ((t.modTh g x fun h => { h with yielded := op = 0x0B }).issued g x c pc freeze fl)

section Chosen

variable {s t : State} {g : Tile} {x : Ctx} {op : Nat} {w : BitVec 120} {body : State → Nat → Iss}

/-- A context that is chosen is not halted. -/
theorem Chosen.running (h : Chosen s g x op w) : (s.th g x).st ≠ .halted := by
  have hcan := State.canIssue_of_select h.1
  simp only [State.canIssue, Bool.and_eq_true, Bool.or_eq_true, decide_eq_true_eq] at hcan
  obtain ⟨⟨⟨-, hst⟩, -⟩, -⟩ := hcan
  rw [State.th, State.ctx]
  rcases hst with hst | hst <;> simp [hst]

/-- Only an array operation is one that a stop returned. -/
theorem Chosen.again (h : Chosen s g x op w) (hop : op < 256) (hmma : op ≠ 0x60) : (s.th g x).again = none := by
  obtain ⟨-, -, hfetch, -⟩ := h
  cases hagain : (s.th g x).again with
  | none => rfl
  | some o =>
    have hword := congrArg (BitVec.toNat · % 256) hfetch
    simp only [State.fetch, hagain, toNat_word w hop, BitVec.toNat_ofNat] at hword
    omega

/-- A chosen word comes to what its body says, in its cycle: the word is the one in the store, with SYNC 0 and no reserved
bit, and no result is waited for. -/
theorem issue_chosen (h : Chosen s g x op w) (hop : opListed op = true) :
    s.issue g x op w body = (body s (cycleOf s g x)).outcome s g x op (cycleOf s g x) := by
  obtain ⟨hselect, hpc, hfetch, hsync, hreserved, hflight⟩ := h
  have hlow := opListed_lt hop
  have hword : (w ++ BitVec.ofNat 8 op).toNat = w.toNat * 256 + op := toNat_word w hlow
  have hopcode := opcode_word w.toNat hlow
  have htail : ((w ++ BitVec.ofNat 8 op) >>> 8).truncate 120 = w := by
    refine BitVec.eq_of_toNat_eq ?_
    rw [BitVec.truncate_eq_setWidth, BitVec.toNat_setWidth, BitVec.toNat_ushiftRight, hword, Nat.shiftRight_eq_div_pow]
    omega
  have hbusy : (w.toNat * 256 + op).testBit 10 = false := (testBit_word w 2 hlow).trans hsync
  -- `rfl` is left where the two matches on what the body answers are two functions
  unfold State.issue Iss.outcome
  simp only [hfetch, hword, hopcode, htail, hbusy, hreserved, hop, hselect, State.landBefore_idle _ _ _ _ hflight,
    Nat.not_le.2 hpc, ne_eq, not_true_eq_false, decide_false, Bool.false_and, Bool.or_self, Bool.not_true, Bool.not_false,
    Bool.and_true, Bool.false_eq_true, if_false] <;> rfl

end Chosen

/-! ## Issuing (R182, R184, R185) -/

/-- What an operation's body leaves before its issue: nothing changes but tile g, and of it neither what is in flight, nor
other contexts' registers and drawers, nor the context's thread. -/
structure AtIssue (g x : Nat) (s t : State) : Prop where
  context : OneContext g x s t
  thread : t.th g x = s.th g x
  flight : (t.tile g).flight = (s.tile g).flight
  objects : t.obj = s.obj

namespace AtIssue

variable {g x : Nat} {s t : State}

theorem refl (s : State) : AtIssue g x s s := ⟨.refl s, rfl, rfl, rfl⟩

theorem modImg (h : AtIssue g x s t) (f : Image → Image) : AtIssue g x s (t.modImg g x f) :=
  ⟨h.context.modImg f, (State.th_modImg t g x f x).trans h.thread,
    (State.flight_setCtx t g x _).trans h.flight, h.objects⟩

end AtIssue

section Issues

variable {r s t : State} {g : Tile} {x : Ctx} {op : Nat} {w : BitVec 120} {body : State → Nat → Iss} {pc : Option Nat}
  {seq freeze : Nat} {fl : List Flight}

/-- Once the body has run, the issue leaves the context running at its next PC, the results in flight. -/
theorem issues_issued (ht : AtIssue g x r t) (hst : (r.th g x).st ≠ .halted) (hagain : (r.th g x).again = none)
    (hflight : (r.tile g).flight = []) (himg : t.img g x = { r.img g x with seq := seq }) (b : Bool) :
    let u := (t.modTh g x fun h => { h with yielded := b }).issued g x (cycleOf r g x) pc freeze fl
    Issues r u g x (pc.getD ((r.img g x).pc + 1)) seq fl ∧ (u.th g x).yielded = b ∧ (u.tile g).sema = (t.tile g).sema := by
  intro u
  have hu := State.issued_spec (t.modTh g x fun h => { h with yielded := b }) g x (cycleOf r g x) pc freeze fl
  have hth : (t.modTh g x fun h => { h with yielded := b }).th g x = { r.th g x with yielded := b } := by
    rw [State.th_modTh_self, ht.thread]
  have hcontext : OneContext g x r u := (ht.context.modTh x _).trans hu.context
  refine ⟨⟨?_, hu.issuer, ?_, ?_, ?_, hu.acyc, ?_, fun y hy => ?_, hcontext.others, hcontext.frame⟩, ?_, ?_⟩
  · rw [hu.image (by rw [hth]; exact hagain), State.img_modTh, himg]
  · rw [hu.thread, hth]
    exact if_neg hst
  · rw [hu.thread]
  · rw [hu.flight, State.modTh, State.flight_setCtx, ht.flight, hflight, List.nil_append]
  · rw [hu.counted]
    exact congrArg (fun n => min (n + 1) _) (State.num_congr ht.objects _)
  · exact hcontext.contexts y fun he => hy (Fin.ext he)
  · rw [hu.thread, hth]
  · exact hu.sema.trans (State.sema_setCtx t g x _)

/-- A chosen word whose body goes on issues. -/
theorem answers_go (h : Chosen s g x op w) (hop : opListed op = true) (hmma : op ≠ 0x60)
    (hbody : body s (cycleOf s g x) = .go t pc freeze fl) (ht : AtIssue g x s t)
    (himg : t.img g x = { s.img g x with seq := seq }) : Answers (s.issue g x op w body) fun u =>
      Issues s u g x (pc.getD ((s.img g x).pc + 1)) seq fl ∧ (u.th g x).yielded = (op = 0x0B : Bool) ∧
        (u.tile g).sema = (t.tile g).sema := by
  refine ⟨_, (issue_chosen h hop).trans (congrArg _ hbody), ?_⟩
  obtain ⟨-, -, -, -, -, hflight⟩ := id h
  exact issues_issued ht h.running (h.again (opListed_lt hop) hmma) hflight himg _

/-- A control or fence operation, which changes nothing before its issue. -/
theorem answers_control (h : Chosen s g x op w) (hop : opListed op = true) (hmma : op ≠ 0x60)
    (hbody : body s (cycleOf s g x) = .go s pc freeze fl) : Answers (s.issue g x op w body) fun u =>
      Issues s u g x (pc.getD ((s.img g x).pc + 1)) (s.img g x).seq fl := by
  obtain ⟨u, hu, hissues, -⟩ := answers_go h hop hmma hbody (.refl s) rfl
  exact ⟨u, hu, hissues⟩

/-- An operation with one result, and no record. -/
theorem answers_one {lat : Nat} {what : Landing} (h : Chosen s g x op w) (hop : opListed op = true) (hmma : op ≠ 0x60)
    (hbody : body s (cycleOf s g x) = Iss.one s x (cycleOf s g x) lat what) : Answers (s.issue g x op w body) fun u =>
      Issues s u g x ((s.img g x).pc + 1) (s.img g x).seq [⟨x, cycleOf s g x + lat, what, 0, none⟩] :=
  answers_control h hop hmma hbody

/-- A vector operation takes the next sequence number. -/
theorem answers_vec {lat : Nat} {what : Landing} {k : Counts} (h : Chosen s g x op w) (hop : opListed op = true)
    (hmma : op ≠ 0x60)
    (hbody : body s (cycleOf s g x) = Iss.vec s g x (w.toNat * 256 + op) (cycleOf s g x) lat freeze what k) :
    Answers (s.issue g x op w body) fun u =>
      Issues s u g x ((s.img g x).pc + 1) (((s.img g x).seq + 1) % 65536) [⟨x, cycleOf s g x + lat, what, (s.img g x).seq,
        some (op, (w.toNat * 256 + op).testBit 9, k)⟩] := by
  obtain ⟨u, hu, hissues, -⟩ := answers_go h hop hmma hbody ((AtIssue.refl s).modImg _) (State.img_modImg_self s g x _)
  rw [opcode_word _ (opListed_lt hop)] at hissues
  exact ⟨u, hu, hissues⟩

end Issues

/-! ## Control and scalar operations (R190) -/

/-- Shifts by a signed amount, as multiplication and division. -/
theorem shiftSigned_eq (a : U64) (k : BitVec 8) : shiftSigned a k = if 0 ≤ k.toInt then
    BitVec.ofNat 64 (a.toNat * 2 ^ k.toInt.toNat) else BitVec.ofInt 64 (a.toInt / 2 ^ (-k.toInt).toNat) := by
  unfold shiftSigned
  by_cases hk : k.toInt < 0
  · rw [if_pos hk, if_neg (by omega)]
    exact congrArg (BitVec.ofInt 64) (Int.shiftRight_eq_div_pow _ _)
  · have hnat : k.toInt.toNat = k.toNat := by
      rw [BitVec.toInt_eq_toNat_cond] at hk ⊢
      have := k.isLt
      split at hk <;> split <;> omega
    rw [if_neg hk, if_pos (by omega), hnat]
    refine BitVec.eq_of_toNat_eq ?_
    rw [BitVec.toNat_shiftLeft, BitVec.toNat_ofNat, Nat.shiftLeft_eq]

section Branches

variable {s : State} {g : Tile} {x : Ctx} {v : Nat} (ht : opf v 32 12 < (s.th g x).winLen) (c : Nat)
include ht

theorem targetOk_of_lt : s.targetOk g x v = true := decide_eq_true ht

theorem bodyJmp_go : bodyJmp g x v s c = .go s (some (opf v 32 12)) 0 [] := by
  rw [bodyJmp, if_pos (targetOk_of_lt ht)]

theorem bodyBr_go (hcond : opf v 28 3 < 6) : bodyBr g x v s c =
    .go s (if condHolds (opf v 28 3) ((s.img g x).reg (opf v 20 4)) ((s.img g x).reg (opf v 24 4)) then some (opf v 32 12)
      else none) 0 [] := by
  rw [bodyBr, if_neg (Nat.not_le.2 hcond), targetOk_of_lt ht]
  rfl

theorem bodyLoop_go : bodyLoop g x v s c =
    .go s (if (s.img g x).reg (opf v 16 4) - 1 = 0 then none else some (opf v 32 12)) 0
      [⟨x, c + 1, .scalar (opf v 16 4) ((s.img g x).reg (opf v 16 4) - 1), 0, none⟩] := by
  rw [bodyLoop, targetOk_of_lt ht]
  rfl

end Branches

/-- Settles O22: each word's body goes on, and `answers_go` says what its issue leaves. -/
theorem controlOps : Obligations.ControlOps := by
  refine ⟨?_, ?_, ?_, ?_, ?_, ?_, ?_, ?_, ?_⟩
  · exact fun s g x w h => answers_control (body := bodyNop) h rfl (by decide) rfl
  · intro s g x w h
    obtain ⟨u, hu, hissues, hyielded, -⟩ := answers_go h rfl (by decide) (body := bodyNop) rfl (.refl s) rfl
    exact ⟨u, hu, hissues, hyielded.trans (by decide)⟩
  · exact fun s g x w h ht => answers_control h rfl (by decide) (bodyJmp_go ht _)
  · intro s g x w h ht hcond
    obtain ⟨u, hu, hissues⟩ := answers_control h rfl (by decide) (bodyBr_go ht _ hcond)
    refine ⟨u, hu, ?_⟩
    rw [apply_ite (Option.getD · _)] at hissues
    exact hissues
  · intro s g x w h ht
    obtain ⟨u, hu, hissues⟩ := answers_control h rfl (by decide) (bodyLoop_go ht _)
    refine ⟨u, hu, ?_⟩
    rw [apply_ite (Option.getD · _)] at hissues
    exact hissues
  · exact fun s g x w h => answers_one (body := bodySli x (wordOf w)) h rfl (by decide) rfl
  · exact fun s g x w h => answers_one (body := bodySadd g x (wordOf w)) h rfl (by decide) rfl
  · intro s g x w h
    obtain ⟨u, hu, hissues⟩ := answers_one h rfl (by decide) (body := bodySshf g x (wordOf w)) rfl
    refine ⟨u, hu, ?_⟩
    rw [shiftSigned_eq] at hissues
    exact hissues
  · exact fun s g x w h => answers_one (body := bodySmovv g x (wordOf w)) h rfl (by decide) rfl

end Sys2Proof.Machine

/-! PROOFS. HALT, the setting operations, fences and semaphores: O23. -/

namespace Sys2Proof.Machine

/-! ## What the loss of a checker keeps of the tiles' objects (R401, R422, R424) -/

/-- The objects at indices from 0x3000 to 0x5FFF, the tiles' among them, keep their values. -/
def KeepsTileObjects (s u : State) : Prop := ∀ k, 0x300000 ≤ k → k < 0x600000 → u.val k = s.val k

namespace KeepsTileObjects

variable {s t u : State}

theorem refl (s : State) : KeepsTileObjects s s := fun _ _ _ => rfl

theorem trans (h₁ : KeepsTileObjects s t) (h₂ : KeepsTileObjects t u) : KeepsTileObjects s u :=
  fun k hlo hhi => (h₂ k hlo hhi).trans (h₁ k hlo hhi)

theorem foldl {α : Type} {f : State → α → State} (hf : ∀ s a, KeepsTileObjects s (f s a)) (l : List α) (s : State) :
    KeepsTileObjects s (l.foldl f s) := by
  induction l generalizing s with
  | nil => exact refl s
  | cons a l ih => exact (hf s a).trans (ih _)

theorem of_keeps {l : List Nat} (h : KeepsObjects l s u) (hl : ∀ k ∈ l, k < 0x300000 ∨ 0x600000 ≤ k) :
    KeepsTileObjects s u := by
  refine fun k hlo hhi => h k (fun hk => ?_) fun m hm he => ?_
  · have := hl k hk
    omega
  · have : k = 0x110012 + 256 * m := he
    omega

variable (h : KeepsTileObjects s t) {k : Nat} (hk : 0x600000 ≤ k)
include h hk

theorem setNum (n : Nat) : KeepsTileObjects s (t.setNum k n) :=
  h.trans (of_keeps (State.setNum_changes k n t).2 (by simp [hk]))

theorem bump (n : Nat) : KeepsTileObjects s (t.bump k n) := h.setNum hk _

theorem setFlag (b : Nat) : KeepsTileObjects s (t.setFlag k b) :=
  h.trans (of_keeps (State.setFlag_changes k b t).2 (by simp [hk]))

theorem setState (v : Nat) : KeepsTileObjects s (t.setState k v) :=
  h.trans (of_keeps (State.setState_changes k v t).2 (by simp [hk]))

end KeepsTileObjects

namespace State

variable (s : State)

theorem sendNotices_keeps : KeepsTileObjects s s.sendNotices :=
  .foldl (fun t _ => .of_keeps (sendFlit_sends _ _ _ t).2 (by decide)) _ s

theorem failLock_keeps (cause : Nat) : KeepsTileObjects s (s.failLock cause) :=
  (((KeepsTileObjects.refl s).setNum (by decide) _).setState (by decide) _).setFlag (by decide) _

theorem enterFrozen_keeps : KeepsTileObjects s s.enterFrozen := by
  unfold enterFrozen
  dsimp only
  refine (KeepsTileObjects.bump (.setFlag (.setState (.setNum (.refl s) ?_ _) ?_ _) ?_ _) ?_ _).trans (.foldl (fun t c => ?_) _ _)
  on_goal 5 =>
    split
    · exact (KeepsTileObjects.refl t).setState (Nat.le_add_right_of_le (by decide)) _
    · exact .refl t
  all_goals decide

theorem propose_keeps (f origin cause : Nat) : KeepsTileObjects s (s.propose f origin cause) := by
  unfold propose
  split
  · exact fun _ _ _ => rfl
  split
  · exact .refl s
  split
  · split
    · exact (KeepsTileObjects.refl s).setNum (by decide) _
    · exact .refl s
  split
  · exact (((KeepsTileObjects.refl s).setFlag (by decide) _).bump (by decide) _).trans (failLock_keeps _ _)
  · extract_lets v w x
    have hv : KeepsTileObjects s v :=
      (((KeepsTileObjects.refl s).setNum (by decide) _).setNum (by decide) _).setNum (by decide) _
    have hw : KeepsTileObjects s w := hv.trans (sendNotices_keeps v)
    have hx : KeepsTileObjects s x := hw.setState (by decide) _
    clear_value w x
    split
    · exact hw
    · split
      · exact hx.trans (enterFrozen_keeps x)
      · exact hx

theorem takeUnknown_keeps (q : Nat) : KeepsTileObjects s (s.takeUnknown q) := by
  unfold takeUnknown
  extract_lets t u
  have ht : KeepsTileObjects s t := fun _ _ _ => rfl
  have hu : KeepsTileObjects s u := (ht.bump (by decide) _).setFlag (by decide) _
  split
  · exact (hu.bump (by decide) _).trans (propose_keeps _ _ _ _)
  · exact hu

/-- A checker that stops leaves the objects of the tiles. -/
theorem checkerStops_keeps (g x : Nat) : KeepsTileObjects s (s.checkerStops g x) := by
  refine .foldl (fun t q => ?_) _ s
  have hfeed : KeepsTileObjects t (t.modFeed q fun f => { f with undecided := [] }) := fun _ _ _ => rfl
  exact hfeed.trans (.foldl (fun t _ => takeUnknown_keeps t q) _ _)

end State

/-! ## HALT (R183, R190) -/

section Halt

variable {s : State} {g : Tile} {x : Ctx} {w : BitVec 120}

theorem freeBank_ctx (s : State) (g x y : Nat) : (s.freeBank g x).ctx g y = s.ctx g y := by
  unfold State.freeBank
  split
  · rfl
  · exact State.ctx_modTile _ _ _ rfl _

theorem freeBank_obj (s : State) (g x : Nat) : (s.freeBank g x).obj = s.obj := by
  unfold State.freeBank
  split <;> rfl

/-- The context as HALT leaves it before its issue: halted, its registers and its drawer as they were. -/
def State.halts (s : State) (g x : Nat) : State :=
  ((s.modTh g x fun h => { h with st := .halted }).freeBank g x).checkerStops g x

theorem halts_ctx (s : State) (g x : Nat) :
    (s.halts g x).ctx g x = { s.ctx g x with th := { s.th g x with st := .halted } } := by
  refine (State.ctx_congr (State.tile_congr (State.checkerStops_tiles g _ x) g) x).trans ?_
  rw [freeBank_ctx, State.modTh, State.ctx_setCtx_self]
  rfl

theorem halts_num (s : State) (g : Tile) (x : Nat) {b : Nat} (hlo : 0x300000 ≤ b) (hhi : b < 0x400000) :
    (s.halts g x).num (tileKey b g) = s.num (tileKey b g) := by
  have hg := g.isLt
  have hkey : tileKey b g = b + 0x10000 * (g / 150) + g % 150 := rfl
  have hval := State.checkerStops_keeps ((s.modTh g x fun h => { h with st := .halted }).freeBank g x) g x (tileKey b g)
    (by omega) (by omega)
  exact (congrArg Val.toNat hval).trans (State.num_congr (freeBank_obj _ _ _) _)

/-- With no array operation left the context is halted as HALT issues. -/
theorem exec_halt (h : Chosen s g x 0x01 w) (hop : (s.dr g x).op = none) (hpend : (s.dr g x).pendOp = none) :
    Answers (exec (.halt g x w) s) fun u => (u.th g x).st = .halted ∧ (u.dr g x).op = none ∧
      u.num (tileKey Obj.issuedOperations g) =
        min (s.num (tileKey Obj.issuedOperations g) + 1) (maxOf (tileKey Obj.issuedOperations g)) ∧
      (u.img g x).pc = (s.img g x).pc + 1 := by
  have hbody : bodyHalt g x s (cycleOf s g x) = .go (s.halts g x) none 0 [] := by
    rw [bodyHalt, hop, hpend]
    rfl
  refine ⟨_, (issue_chosen h rfl).trans (congrArg _ hbody), ?_⟩
  have hctx := halts_ctx s g x
  have hnum := halts_num s g x (b := Obj.issuedOperations) (by decide) (by decide)
  have hu := State.issued_spec ((s.halts g x).modTh g x fun h => { h with yielded := (0x01 = 0x0B : Bool) }) g x
    (cycleOf s g x) none 0 []
  refine ⟨?_, ?_, hu.counted.trans ?_, ?_⟩
  · rw [hu.thread, State.th_modTh_self, State.th, hctx]
    rfl
  · rw [hu.drawer, State.dr_modTh, State.dr, hctx]
    exact hop
  · exact congrArg (fun n => min (n + 1) _) hnum
  · rw [hu.image, State.img_modTh, State.img, hctx]
    · rfl
    · rw [State.th_modTh_self, State.th, hctx]
      exact h.again (by decide) (by decide)

end Halt

/-! ## Setting operations, fences and semaphores (R190, R203, R206, R207) -/

section Fences

variable {s : State} {g : Tile} {x : Ctx} {v : Nat}

theorem bodySag_one (c : Nat) (hk : let k := bits ((s.img g x).reg (opf v 20 4)).toNat 20 5; k = 0 ∨ (6 ≤ k ∧ k ≤ 20))
    (hbase : let a := ((s.img g x).reg (opf v 20 4)).toNat; bits a 0 20 % 2 ^ bits a 20 5 = 0) : bodySag g x v s c =
    (let a := ((s.img g x).reg (opf v 20 4)).toNat
     let b := ((s.img g x).reg (opf v 24 4)).toNat
     Iss.one s x c 1 (.agen (opf v 64 2) ⟨BitVec.ofNat 20 (bits a 0 20), 0, BitVec.ofNat 24 (bits b 0 24),
       BitVec.ofNat 24 (bits b 24 24), BitVec.ofNat 5 (bits a 20 5)⟩)) := by
  refine if_neg ?_
  dsimp only at hk hbase
  simp only [fSsrc1, hbase, Bool.or_eq_true, Bool.and_eq_true, decide_eq_true_eq]
  omega

theorem bodyScr_one (c : Nat) (hring : let a := ((s.img g x).reg (opf v 20 4)).toNat
      bits a 0 20 % 16 = 0 ∧ bits a 20 4 ≤ 8 ∧ bits a 0 20 + 16 * 2 ^ bits a 20 4 ≤ 0x100000) : bodyScr g x v s c =
    (let a := ((s.img g x).reg (opf v 20 4)).toNat
     Iss.one s x c 1 (.ring (bits a 0 20) (bits a 20 4))) := by
  obtain ⟨halign, hlog, hend⟩ := hring
  exact if_neg (by simp [halign, hlog, hend])

theorem bodyFence_go (c : Nat) (hscope : opf v 16 5 ≠ 0) (hholds : s.fenceHolds g x (opf v 16 5) = true) :
    bodyFence g x v s c = .go s none 0 [] := by
  rw [bodyFence, if_neg hscope, if_pos hholds]

/-- The number that SEMAWAIT takes, as it is compared. -/
theorem toNat_value (v : Nat) : (BitVec.ofNat 32 (opf v 64 32)).toNat = opf v 64 32 := by
  rw [BitVec.toNat_ofNat, Nat.mod_eq_of_lt (bits_lt v 64 32)]

/-- SEMAWAIT with enough in the semaphore takes its value before the issue. -/
theorem bodySemawait_go (c : Nat) (hset : (s.img g x).semaSet.getLsbD (opf v 24 5) = true)
    (hheld : opf v 64 32 ≤ ((s.tile g).sema.get 0 (opf v 24 5)).toNat) : bodySemawait g x v s c =
      .go (s.modTile g fun t =>
        { t with sema := t.sema.put (opf v 24 5) ((s.tile g).sema.get 0 (opf v 24 5) - BitVec.ofNat 32 (opf v 64 32)) })
        none 0 [] := by
  have hok : s.semaOk g x v = true := hset
  simp only [bodySemawait, hok, toNat_value, Nat.not_lt.2 hheld, Bool.not_true, Bool.false_eq_true, if_false]

theorem bodySemawait_block (c : Nat) (hset : (s.img g x).semaSet.getLsbD (opf v 24 5) = true)
    (hheld : ((s.tile g).sema.get 0 (opf v 24 5)).toNat < opf v 64 32) : bodySemawait g x v s c = .block := by
  have hok : s.semaOk g x v = true := hset
  simp only [bodySemawait, hok, toNat_value, hheld, Bool.not_true, Bool.false_eq_true, if_false, if_true]

/-- A blocked context keeps its registers, and its tile the semaphores. -/
theorem blockOp_spec (s : State) (g x c : Nat) (v : BitVec 128) : ((s.blockOp g x c v).th g x).st = .blocked ∧
    (s.blockOp g x c v).img g x = s.img g x ∧ ((s.blockOp g x c v).tile g).sema = (s.tile g).sema ∧
    s.blockOp g x c v = { s with tiles := (s.blockOp g x c v).tiles } := by
  unfold State.blockOp
  refine ⟨by rw [State.th_modTh_self], ?_, ?_, rfl⟩
  · rw [State.img_modTh, State.img, State.ctx_modTile _ _ _ rfl, State.img]
  · rw [State.modTh, State.sema_setCtx, State.tile_modTile_self]

end Fences

/-- Settles O23: the setting operations have one result each; HALT halts the context and SEMAWAIT takes its value in what
their bodies leave for the issue; a SEMAWAIT that blocks leaves `blockOp_spec`. -/
theorem settingAndFenceOps : Obligations.SettingAndFenceOps := by
  refine ⟨?_, ?_, ?_, ?_, ?_, ?_, ?_, ?_⟩
  · exact fun s g x w h hop hpend => exec_halt h hop hpend
  · exact fun s g x w h hk hbase => answers_one h rfl (by decide) (bodySag_one _ hk hbase)
  · exact fun s g x w h => answers_one (body := bodySlm g x (wordOf w)) h rfl (by decide) rfl
  · exact fun s g x w h hring => answers_one h rfl (by decide) (bodyScr_one _ hring)
  · exact fun s g x w h hscope hholds => answers_control h rfl (by decide) (bodyFence_go _ hscope hholds)
  · intro s g x w h hset
    have hok : s.semaOk g x (wordOf w) = true := hset
    exact answers_one h rfl (by decide) (if_pos hok)
  · intro s g x w h hset hheld
    have ht : AtIssue g x s (s.modTile g fun t => { t with
        sema := t.sema.put (opf (w.toNat * 256) 24 5)
          ((s.tile g).sema.get 0 (opf (w.toNat * 256) 24 5) - BitVec.ofNat 32 (opf (w.toNat * 256) 64 32)) }) :=
      ⟨(OneContext.refl s).modTile _ rfl, congrArg Context.th (State.ctx_modTile _ _ _ rfl _),
        by rw [State.tile_modTile_self], rfl⟩
    obtain ⟨u, hu, hissues, -, hsema⟩ := answers_go h rfl (by decide) (bodySemawait_go _ hset hheld) ht
      (congrArg Context.img (State.ctx_modTile _ _ _ rfl _))
    rw [State.tile_modTile_self] at hsema
    refine ⟨u, hu, hissues, ?_, fun k hk => ?_⟩
    · rw [hsema]
      simp [Tab.get, Tab.find?_put_self]
    · rw [hsema]
      simp [Tab.get, Tab.find?_put_ne _ _ _ _ hk]
  · intro s g x w h hset hheld
    exact ⟨_, (issue_chosen h rfl).trans (congrArg _ (bodySemawait_block _ hset hheld)), blockOp_spec _ _ _ _ _⟩

end Sys2Proof.Machine

/-! PROOFS. Lane-wise vector operations: O24. -/

namespace Sys2Proof.Machine

/-! ## Lanes (R194, R198) -/

theorem getD_map_range {α : Type} (f : Nat → α) (d : α) {n l : Nat} (h : l < n) : ((List.range n).map f).getD l d = f l := by
  simp [List.getD_eq_getElem?_getD, h]

section Lanes

variable {s : State} {g : Tile} {x : Ctx} {op : Nat} {w : BitVec 120}

/-- A lane-wise operation: the lanes that take part hold its result, the others what the destination holds. -/
theorem answers_laneOp {lat : Nat} {f : BitVec 32 → BitVec 32 → BitVec 32 → BitVec 32 × Counts} (h : Chosen s g x op w)
    (hop : opListed op = true) (hmma : op ≠ 0x60) :
    let v := w.toNat * 256 + op
    let i := s.img g x
    Answers (s.issue g x op w (laneOp g x v lat f)) fun u => ∃ r k,
      Issues s u g x (i.pc + 1) ((i.seq + 1) % 65536) [⟨x, cycleOf s g x + lat, .vreg (opf v 16 4) ⟨r, 0⟩, i.seq,
        some (op, v.testBit 9, k)⟩] ∧
      r.length = 128 ∧ ∀ l, l < 128 → r.getD l 0 = if i.lane v l then
        (f ((i.vec (opf v 20 4)).lanes.getD l 0) ((i.vec (opf v 24 4)).lanes.getD l 0)
          ((i.vec (opf v 28 4)).lanes.getD l 0)).1 else (i.vec (opf v 16 4)).lanes.getD l 0 := by
  intro v i
  obtain ⟨u, hu, hissues⟩ := answers_vec (body := laneOp g x v lat f) h hop hmma rfl
  refine ⟨u, hu, _, _, hissues, by simp, fun l hl => ?_⟩
  rw [List.map_map, getD_map_range _ _ hl, Function.comp_apply, apply_ite Prod.fst]

/-- VTOF: the lanes that take part are rounded to FP32 once. -/
theorem answers_vtof (h : Chosen s g x 0x85 w) :
    let v := w.toNat * 256 + 0x85
    let i := s.img g x
    Answers (exec (.vtof g x w) s) fun u => ∃ r k,
      Issues s u g x (i.pc + 1) ((i.seq + 1) % 65536) [⟨x, cycleOf s g x + 4,
        .vreg (opf v 16 4) ⟨r, (i.vec (opf v 16 4)).bexp⟩, i.seq, some (0x85, v.testBit 9, k)⟩] ∧
      r.length = 128 ∧ ∀ l, l < 128 → r.getD l 0 = if i.lane v l then
        (round32 (v.testBit 8) (.fin (((i.vec (opf v 20 4)).lanes.getD l 0).toInt < 0)
          ((i.vec (opf v 20 4)).lanes.getD l 0).toInt.natAbs (i.vec (opf v 20 4)).bexp)).1
        else (i.vec (opf v 16 4)).lanes.getD l 0 := by
  intro v i
  obtain ⟨u, hu, hissues⟩ := answers_vec (body := bodyVtof g x v) h rfl (by decide) rfl
  refine ⟨u, hu, _, _, hissues, by simp, fun l hl => ?_⟩
  rw [List.map_map, getD_map_range _ _ hl, Function.comp_apply, apply_ite Prod.fst]

end Lanes

/-! ## Masks (R190) -/

/-- The number that a list of lane results sums to, bit by bit. -/
theorem foldl_zip_range (n : Nat) (r : Nat → Bool × Counts) :
    (((List.range n).map r).zip (List.range n)).foldl (fun (m : Nat) (p, l) => if p.1 then m + 2 ^ l else m) 0 =
      bitSum (fun l => (r l).1) n := by
  rw [← List.map_prod_right_eq_zip, List.foldl_map]
  rfl

/-- What VMASK finds of a lane, with what it counts. -/
def maskLane (i : Image) (v l : Nat) : Bool × Counts :=
  let (p, k1) := laneVal (fFix v) (fDenorm v) (i.vec (fVa v)).bexp ((i.vec (fVa v)).lanes.getD l 0)
  let (q, k2) := laneVal (fFix v) (fDenorm v) (i.vec (fVb v)).bexp ((i.vec (fVb v)).lanes.getD l 0)
  (maskHolds (opf v 60 3) p q, (k1.add k2).add (if p = FVal.nan || q = FVal.nan then Counts.invalid else Counts.zero))

/-- VMASK of a listed comparison puts a mask in flight whose bits are the lanes' comparisons. -/
theorem bodyVmask_vec (g x v : Nat) (s : State) (c : Nat) (hlmen : v.testBit 36 = false) (hcond : opf v 60 3 < 4) :
    ∃ k, bodyVmask g x v s c = Iss.vec s g x v c 2 0
      (.mask (opf v 34 2) (BitVec.ofNat 128 (bitSum (fun l => (maskLane (s.img g x) v l).1) 128))) k := by
  rw [← foldl_zip_range]
  refine ⟨((List.range 128).map (maskLane (s.img g x) v)).foldl (fun k r => k.add r.2) Counts.zero, ?_⟩
  exact if_neg (by simp [hlmen, Nat.not_le.2 hcond])

/-- Settles O24: the lanes of each result are those of `answers_laneOp`, and a mask's bits are read by `testBit_bitSum`. -/
theorem laneOps : Obligations.LaneOps := by
  refine ⟨?_, ?_, ?_, ?_, ?_⟩
  · exact fun s g x w h => answers_laneOp (f := faddLane (fDenorm (vwordOf 0x82 w))) h rfl (by decide)
  · exact fun s g x w h => answers_laneOp (f := fmulLane (fDenorm (vwordOf 0x83 w))) h rfl (by decide)
  · exact fun s g x w h => answers_laneOp (f := fmaLane (fDenorm (vwordOf 0x84 w))) h rfl (by decide)
  · exact fun s g x w h => answers_vtof h
  · intro s g x w h hlmen hcond
    have hfield : opf (w.toNat * 256 + 0x8F) 60 3 < 4 := by
      rw [opf_word _ _ (by decide) (by decide)]
      exact hcond
    have hbit : (w.toNat * 256 + 0x8F).testBit 36 = false := (testBit_word w 28 (by decide)).trans hlmen
    obtain ⟨k, hbody⟩ := bodyVmask_vec g x (vwordOf 0x8F w) s (cycleOf s g x) hbit hfield
    obtain ⟨u, hu, hissues⟩ := answers_vec h rfl (by decide) hbody
    refine ⟨u, hu, _, _, hissues, fun l hl => ?_⟩
    rw [BitVec.getLsbD_ofNat, testBit_bitSum, decide_eq_true hl, Bool.true_and, Bool.true_and]
    rfl

end Sys2Proof.Machine

/-! PROOFS. Fixed-point vector operations: O25. -/

namespace Sys2Proof.Machine

/-! ## Rounding (R116, R117) -/

/-- The quotient rounded to the nearest: off by at most half a divisor, and even at exactly half. -/
theorem roundDiv_spec {d : Nat} (n : Nat) (hd : 0 < d) : 2 * (roundDiv n d * d) ≤ 2 * n + d ∧
    2 * n ≤ 2 * (roundDiv n d * d) + d ∧ (2 * (n % d) = d → roundDiv n d % 2 = 0) := by
  have hmod := Nat.mod_lt n hd
  have hdiv := Nat.div_add_mod' n d
  have hnext : (n / d + 1) * d = n / d * d + d := Nat.succ_mul _ _
  unfold roundDiv
  dsimp only
  split
  · omega
  · split
    · rw [hnext]
      omega
    · rcases Nat.mod_two_eq_zero_or_one (n / d) with heven | hodd
      · rw [heven, Nat.add_zero]
        omega
      · rw [hodd, hnext]
        omega

/-! ## Exponents (R199) -/

/-- An exponent in range leaves the lanes as they were rounded. -/
theorem clampExp_of_range {e : Int} (on : List Bool) (rs : List (Int × Counts)) (max : Int) (hlo : -32768 ≤ e)
    (hhi : e ≤ 32767) : clampExp on rs e max = (rs.map (·.1), e, Counts.zero) := by
  unfold clampExp
  dsimp only
  rw [if_neg (by omega), if_neg (by omega)]

/-- An 8-bit shift is small. -/
theorem toInt_shift (n : Nat) : -128 ≤ (BitVec.ofNat 8 n).toInt ∧ (BitVec.ofNat 8 n).toInt ≤ 127 := by
  have hlo := BitVec.le_toInt (BitVec.ofNat 8 n)
  have hhi := BitVec.toInt_lt (x := BitVec.ofNat 8 n)
  omega

/-- The lanes of a conversion with a given SHIFT: those that take part shifted, rounded and saturated, the others 0. -/
def shiftedLanes (i : Image) (v wd : Nat) (vs : List Scalar) : List (BitVec 32) :=
  (((vs.zip ((List.range 128).map (i.lane v))).map fun (a, o) =>
    if o then a.shiftTo wd (BitVec.ofNat 8 (opf v 48 8)).toInt else (0, Counts.zero)).map (·.1)).map (BitVec.ofInt 32 ·)

theorem shiftedLanes_spec (i : Image) (v wd : Nat) {vs : List Scalar} (hlen : vs.length = 128) :
    (shiftedLanes i v wd vs).length = 128 ∧ ∀ (l : Nat) (hl : l < 128), (shiftedLanes i v wd vs).getD l 0 = if i.lane v l then
      BitVec.ofInt 32 ((vs[l]'(hlen ▸ hl)).shiftTo wd (BitVec.ofNat 8 (opf v 48 8)).toInt).1 else 0 := by
  have hlanes : (shiftedLanes i v wd vs).length = 128 := by simp [shiftedLanes, hlen]
  refine ⟨hlanes, fun l hl => ?_⟩
  rw [List.getD_eq_getElem _ _ (by rw [hlanes]; exact hl)]
  simp only [shiftedLanes, List.getElem_map, List.getElem_zip, List.getElem_range]
  split
  · rfl
  · rfl

theorem shiftOp_vec {g x v lat wd c : Nat} {e : Int} {vs : List Scalar} {s : State} (hauto : v.testBit 42 = false)
    (hlo : -32768 ≤ e + (BitVec.ofNat 8 (opf v 48 8)).toInt) (hhi : e + (BitVec.ofNat 8 (opf v 48 8)).toInt ≤ 32767) :
    ∃ b k, shiftOp g x v lat wd e vs s c =
      Iss.vec s g x v c lat 0 (.vreg (fVd v) ⟨shiftedLanes (s.img g x) v wd vs, b⟩) k := by
  refine ⟨e + (BitVec.ofNat 8 (opf v 48 8)).toInt, Counts.add (((vs.zip ((List.range 128).map ((s.img g x).lane v))).map
    fun (a, o) => if o then a.shiftTo wd (BitVec.ofNat 8 (opf v 48 8)).toInt else (0, Counts.zero)).foldl
      (fun k r => k.add r.2) Counts.zero) Counts.zero, ?_⟩
  simp only [shiftOp, chooseShift, hauto, Bool.not_false, if_true]
  rw [clampExp_of_range _ _ _ hlo hhi]
  rfl

section Fixed

variable {s : State} {g : Tile} {x : Ctx} {op : Nat} {w : BitVec 120}

/-- A conversion with a given SHIFT, of the lanes of a register or an accumulator as exact values. -/
theorem answers_shiftOp {α : Type} {lat wd : Nat} {e : Int} {as : List α} {d : α} {f : α → Scalar}
    {body : State → Nat → Iss} (h : Chosen s g x op w) (hop : opListed op = true) (hmma : op ≠ 0x60)
    (hauto : w.getLsbD 34 = false) (hlen : as.length = 128) (hlo : -32768 ≤ e + (BitVec.ofNat 8 (opf (w.toNat * 256) 48 8)).toInt)
    (hhi : e + (BitVec.ofNat 8 (opf (w.toNat * 256) 48 8)).toInt ≤ 32767)
    (hbody : body s (cycleOf s g x) = shiftOp g x (w.toNat * 256 + op) lat wd e (as.map f) s (cycleOf s g x)) :
    let v := w.toNat * 256 + op
    let i := s.img g x
    Answers (s.issue g x op w body) fun u => ∃ r k,
      Issues s u g x (i.pc + 1) ((i.seq + 1) % 65536) [⟨x, cycleOf s g x + lat, .vreg (opf v 16 4) r, i.seq,
        some (op, v.testBit 9, k)⟩] ∧
      r.lanes.length = 128 ∧ ∀ l, l < 128 → r.lanes.getD l 0 = if i.lane v l then
        BitVec.ofInt 32 ((f (as.getD l d)).shiftTo wd (BitVec.ofNat 8 (opf v 48 8)).toInt).1 else 0 := by
  intro v i
  have hbit : v.testBit 42 = false := (testBit_word w 34 (opListed_lt hop)).trans hauto
  have hshift : opf v 48 8 = opf (w.toNat * 256) 48 8 := opf_word _ _ (opListed_lt hop) (by decide)
  rw [← hshift] at hlo hhi
  obtain ⟨b, k, hvec⟩ := shiftOp_vec (g := g) (x := x) (lat := lat) (wd := wd) (c := cycleOf s g x) (vs := as.map f) (s := s)
    hbit hlo hhi
  obtain ⟨u, hu, hissues⟩ := answers_vec h hop hmma (hbody.trans hvec)
  obtain ⟨hlength, hlanes⟩ := shiftedLanes_spec i v wd (vs := as.map f) (by rw [List.length_map, hlen])
  refine ⟨u, hu, _, _, hissues, hlength, fun l hl => ?_⟩
  rw [hlanes l hl, List.getElem_map, List.getD_eq_getElem _ _ (by rw [hlen]; exact hl)]

theorem bodyVnar_shift {v : Nat} (c : Nat) (hwidth : opf v 40 2 = 1 ∨ opf v 40 2 = 2) : bodyVnar g x v s c =
    shiftOp g x v 4 (if opf v 40 2 = 1 then 15 else 7) ((s.img g x).vec (opf v 20 4)).bexp
      (((s.img g x).vec (opf v 20 4)).lanes.map fun b => intScalar b.toInt) s c := by
  refine if_neg ?_
  rcases hwidth with hwidth | hwidth
  · rw [fWidth, hwidth]
    decide
  · rw [fWidth, hwidth]
    decide

/-- VCLRA: the lanes that take part are 0, and the accumulator counts as empty. -/
theorem answers_vclra (h : Chosen s g x 0x87 w) (hlen : ∀ n, ((s.img g x).acc n).lanes.length = 128) :
    let v := w.toNat * 256 + 0x87
    let i := s.img g x
    Answers (exec (.vclra g x w) s) fun u => ∃ a k,
      Issues s u g x (i.pc + 1) ((i.seq + 1) % 65536) [⟨x, cycleOf s g x + 1, .macc (opf v 32 2) a, i.seq,
        some (0x87, v.testBit 9, k)⟩] ∧ a.empty = true ∧ a.lanes.length = 128 ∧
      ∀ l, l < 128 → a.lanes.getD l 0 = if i.lane v l then 0 else (i.acc (opf v 32 2)).lanes.getD l 0 := by
  intro v i
  obtain ⟨u, hu, hissues⟩ := answers_vec (body := bodyVclra g x v) h rfl (by decide) rfl
  refine ⟨u, hu, _, _, hissues, rfl, by simp [hlen], fun l hl => ?_⟩
  rw [List.getD_eq_getElem _ _ (by simp [hlen, hl]), List.getD_eq_getElem _ _ (by rw [hlen]; exact hl)]
  simp only [List.getElem_map, List.getElem_zip, List.getElem_range]
  rfl

/-- A product joins an 80-bit lane, saturating (R200). -/
theorem addMac_fst (acc p : Int) : (addMac acc p).1 = max (-(2 ^ 79 - 1)) (min (2 ^ 79 - 1) (acc + p)) := by
  unfold addMac
  dsimp only
  split
  · omega
  · split <;> omega

/-- The lanes that VIMAC leaves of an accumulator that is not empty, with what each counts. -/
def macLane (i : Image) (v l : Nat) : Int × Counts :=
  let m := i.acc (fMai v)
  let a := i.vec (fVa v)
  let b := i.vec (fVb v)
  if i.lane v l then addMac (m.lanes.getD l 0)
    (alignProduct ((a.lanes.getD l 0).toInt * (b.lanes.getD l 0).toInt) (a.bexp + b.bexp - m.ema))
  else (m.lanes.getD l 0, Counts.zero)

theorem bodyVimac_vec {g x v : Nat} (c : Nat) (hempty : ((s.img g x).acc (opf v 32 2)).empty = false)
    (hlo : -32768 ≤ ((s.img g x).acc (opf v 32 2)).ema) (hhi : ((s.img g x).acc (opf v 32 2)).ema ≤ 32767) :
    ∃ k, bodyVimac g x v s c = Iss.vec s g x v c 5 0 (.macc (fMai v)
      ⟨((List.range 128).map (macLane (s.img g x) v)).map (·.1), ((s.img g x).acc (opf v 32 2)).ema, false⟩) k := by
  refine ⟨(((List.range 128).map (macLane (s.img g x) v)).foldl (fun k r => k.add r.2) Counts.zero).add Counts.zero, ?_⟩
  simp only [bodyVimac, hempty, Bool.false_eq_true, if_false]
  rw [clampExp_of_range _ _ _ hlo hhi]
  rfl

/-- VIMAC into an accumulator that is not empty. -/
theorem answers_vimac (h : Chosen s g x 0x88 w) (hempty : ((s.img g x).acc (opf (w.toNat * 256) 32 2)).empty = false)
    (hlo : -32768 ≤ ((s.img g x).acc (opf (w.toNat * 256) 32 2)).ema)
    (hhi : ((s.img g x).acc (opf (w.toNat * 256) 32 2)).ema ≤ 32767) :
    let v := w.toNat * 256 + 0x88
    let i := s.img g x
    Answers (exec (.vimac g x w) s) fun u => ∃ a k,
      Issues s u g x (i.pc + 1) ((i.seq + 1) % 65536) [⟨x, cycleOf s g x + 5, .macc (opf v 32 2) a, i.seq,
        some (0x88, v.testBit 9, k)⟩] ∧ a.empty = false ∧ a.ema = (i.acc (opf v 32 2)).ema ∧
      (let d := (i.vec (opf v 20 4)).bexp + (i.vec (opf v 24 4)).bexp - (i.acc (opf v 32 2)).ema
       ∀ l, l < 128 → a.lanes.getD l 0 = if i.lane v l then
          max (-(2 ^ 79 - 1)) (min (2 ^ 79 - 1) ((i.acc (opf v 32 2)).lanes.getD l 0 +
            alignProduct (((i.vec (opf v 20 4)).lanes.getD l 0).toInt * ((i.vec (opf v 24 4)).lanes.getD l 0).toInt) d))
        else (i.acc (opf v 32 2)).lanes.getD l 0) := by
  intro v i
  have hfield : opf (w.toNat * 256) 32 2 = opf v 32 2 := (opf_word _ _ (by decide) (by decide)).symm
  rw [hfield] at hempty hlo hhi
  obtain ⟨k, hbody⟩ := bodyVimac_vec (cycleOf s g x) hempty hlo hhi
  obtain ⟨u, hu, hissues⟩ := answers_vec h rfl (by decide) hbody
  refine ⟨u, hu, _, _, hissues, rfl, rfl, fun l hl => ?_⟩
  rw [List.map_map, getD_map_range _ _ hl, Function.comp_apply, macLane, apply_ite Prod.fst, addMac_fst]

end Fixed

/-- Settles O25: the conversions are `answers_shiftOp` on the lanes as exact values, and `roundDiv_spec` says how they are
rounded. -/
theorem fixedPointOps : Obligations.FixedPointOps := by
  refine ⟨?_, ?_, ?_, ?_, ?_, ?_⟩
  · intro s g x w h hauto hlen
    obtain ⟨hlo, hhi⟩ := toInt_shift (opf (w.toNat * 256) 48 8)
    exact answers_shiftOp (body := bodyVtox g x (vwordOf 0x86 w)) h rfl (by decide) hauto (hlen _) (by omega) (by omega) rfl
  · intro s g x w h hauto hlen ⟨hlo, hhi⟩
    rw [← opf_word (lo := 32) w.toNat 2 (by decide : 0x89 < 256) (by decide)] at hlo hhi
    exact answers_shiftOp (body := bodyVmova g x (vwordOf 0x89 w)) h rfl (by decide) hauto (hlen _) hlo hhi rfl
  · intro s g x w h hauto hlen hwidth ⟨hlo, hhi⟩
    rw [← opf_word (lo := 20) w.toNat 4 (by decide : 0x8A < 256) (by decide)] at hlo hhi
    rw [← opf_word (lo := 40) w.toNat 2 (by decide : 0x8A < 256) (by decide)] at hwidth
    exact answers_shiftOp (f := fun b : BitVec 32 => intScalar b.toInt) h rfl (by decide) hauto (hlen _) hlo hhi
      (bodyVnar_shift _ hwidth)
  · exact fun s g x w h hlen => answers_vclra h hlen
  · exact fun s g x w h hempty ⟨hlo, hhi⟩ => answers_vimac h hempty hlo hhi
  · exact fun n d hd => roundDiv_spec n hd

end Sys2Proof.Machine

/-! PROOFS. Searches over integer lanes, and VSRD: O26. -/

namespace Sys2Proof.Machine

/-! ## Integer lanes in order (R204) -/

/-- An integer lane under an exponent. -/
def intVal (e : Int) (b : BitVec 32) : FVal := .fin (b.toInt < 0) b.toInt.natAbs e

theorem signed_natAbs (a : Int) : signed (a < 0) a.natAbs = a := by
  unfold signed
  split
  · next h =>
      rw [decide_eq_true_eq] at h
      omega
  · next h =>
      rw [decide_eq_true_eq] at h
      omega

theorem lt_fin_same (n m : Bool) (p q : Nat) (e : Int) : (FVal.fin n p e).lt (.fin m q e) = decide (signed n p < signed m q) := by
  simp [FVal.lt, scaleTo]

theorem intVal_lt (e : Int) (p q : BitVec 32) : (intVal e p).lt (intVal e q) = decide (p.toInt < q.toInt) := by
  rw [intVal, intVal, lt_fin_same, signed_natAbs, signed_natAbs]

theorem intVal_abs_lt (e : Int) (p q : BitVec 32) :
    (intVal e p).abs.lt (intVal e q).abs = decide (p.toInt.natAbs < q.toInt.natAbs) := by
  rw [intVal, intVal, FVal.abs, FVal.abs, lt_fin_same, decide_eq_decide]
  exact Int.ofNat_lt

/-! ## One lane after another (R204) -/

/-- An integer lane met by a search that starts empty: it wins over none, and over a lane that it beats. -/
def searchLane (order : FVal → FVal → Bool) (a : VReg) (base : Nat) (h : Search) (l : Nat) : Search :=
  let b := a.lanes.getD l 0
  let idx := (base + l) % 2 ^ 32
  if h.empty || beats order (intVal a.bexp b) idx h.winner h.index.toNat then
    ⟨b, a.bexp, BitVec.ofNat 32 idx, true, false, false⟩
  else h

/-- The search over integer lanes is one over the lanes that take part, in order. -/
theorem searchOp_vec (order : FVal → FVal → Bool) (g x v : Nat) (s : State) (c : Nat) (hfix : v.testBit 39 = true)
    (hempty : (s.img g x).search.empty = true) : ∃ k, searchOp order g x v s c = Iss.vec s g x v c 7 0
      (.search (((List.range 128).filter ((s.img g x).lane v)).foldl
        (searchLane order ((s.img g x).vec (opf v 20 4)) (bits ((s.img g x).reg (opf v 56 4)).toNat 0 32))
        { (s.img g x).search with fix := true })) k := by
  unfold searchOp
  simp only [hempty, hfix, Bool.not_true, Bool.false_and, Bool.false_eq_true, if_false, if_true]
  refine ⟨_, congrArg₂ (Iss.vec s g x v c 7 0 <| .search ·) (List.foldl_hom Prod.fst fun p l => ?_).symm rfl⟩
  rfl

/-- A search over the lanes below n that take part has found the one of greatest key, the lowest index among equals. -/
def Found (key : Nat → Int) (part : Nat → Bool) (a : VReg) (base n : Nat) (h : Search) : Prop :=
  h.empty = false ∧ h.fix = true ∧ h.nan = false ∧ h.bexp = a.bexp ∧
    ∃ l, l < n ∧ part l = true ∧ h.value = a.lanes.getD l 0 ∧ h.index = BitVec.ofNat 32 (base + l) ∧
      ∀ m, m < n → part m = true → key m < key l ∨ (key m = key l ∧ l ≤ m)

section Search

variable {order : FVal → FVal → Bool} {a : VReg} {f : BitVec 32 → Int}
  (horder : ∀ p q, order (intVal a.bexp p) (intVal a.bexp q) = decide (f q < f p)) {part : Nat → Bool} {base n : Nat}
  {h : Search}
include horder

/-- The next lane against the winner so far: it wins only if its key is greater. -/
theorem searchLane_found (hn : n < 128) (hbase : base + 128 ≤ 2 ^ 32)
    (hfound : Found (fun l => f (a.lanes.getD l 0)) part a base n h) (hpart : part n = true) :
    Found (fun l => f (a.lanes.getD l 0)) part a base (n + 1) (searchLane order a base h n) := by
  obtain ⟨hempty, hfix, hnan, hbexp, l, hl, hpl, hvalue, hindex, hbest⟩ := hfound
  have hwinner : h.winner = intVal a.bexp (a.lanes.getD l 0) := by
    simp only [Search.winner, hnan, hfix, hbexp, hvalue, Bool.false_eq_true, if_false, if_true]
    rfl
  have hwidx : h.index.toNat = base + l := by rw [hindex, BitVec.toNat_ofNat, Nat.mod_eq_of_lt (by omega)]
  have hidx : (base + n) % 2 ^ 32 = base + n := Nat.mod_eq_of_lt (by omega)
  have hlower : ¬ base + n < base + l := by omega
  have hbeats : beats order (intVal a.bexp (a.lanes.getD n 0)) (base + n) h.winner h.index.toNat =
      decide (f (a.lanes.getD l 0) < f (a.lanes.getD n 0)) := by
    rw [hwinner, hwidx, ← horder]
    simp [intVal, beats, hlower]
  unfold searchLane
  simp only [hidx, hempty, hbeats, Bool.false_or, decide_eq_true_eq]
  split
  · next hwin =>
      refine ⟨rfl, rfl, rfl, rfl, n, Nat.lt_succ_self n, hpart, rfl, rfl, fun m hm hpm => ?_⟩
      rcases Nat.lt_succ_iff_lt_or_eq.1 hm with hm | rfl
      · have := hbest m hm hpm
        dsimp only at this ⊢
        omega
      · exact .inr ⟨rfl, le_rfl⟩
  · next hlose =>
      refine ⟨hempty, hfix, hnan, hbexp, l, Nat.lt_succ_of_lt hl, hpl, hvalue, hindex, fun m hm hpm => ?_⟩
      rcases Nat.lt_succ_iff_lt_or_eq.1 hm with hm | rfl
      · exact hbest m hm hpm
      · dsimp only
        omega

/-- After the lanes below n, none took part, or the best is found. -/
theorem search_found (hbase : base + 128 ≤ 2 ^ 32) (start : Search) (hstart : start.empty = true) (hn : n ≤ 128) :
    let u := ((List.range n).filter part).foldl (searchLane order a base) start
    ((∀ l, l < n → part l = false) ∧ u = start) ∨ Found (fun l => f (a.lanes.getD l 0)) part a base n u := by
  induction n with
  | zero => exact .inl ⟨fun l hl => absurd hl (Nat.not_lt_zero l), rfl⟩
  | succ n ih =>
    intro u
    have ih := ih (by omega)
    cases hpart : part n with
    | false =>
      have hu : u = ((List.range n).filter part).foldl (searchLane order a base) start := by
        simp [u, List.range_succ, hpart]
      have hbelow {m : Nat} (hm : m < n + 1) (hpm : part m = true) : m < n :=
        Nat.lt_of_le_of_ne (Nat.le_of_lt_succ hm) fun he => by rw [he, hpart] at hpm; cases hpm
      rw [hu]
      rcases ih with ⟨hnone, hsame⟩ | ⟨hempty, hfix, hnan, hbexp, l, hl, hpl, hvalue, hindex, hbest⟩
      · refine .inl ⟨fun l hl => ?_, hsame⟩
        rcases Nat.lt_succ_iff_lt_or_eq.1 hl with hl | rfl
        · exact hnone l hl
        · exact hpart
      · exact .inr ⟨hempty, hfix, hnan, hbexp, l, Nat.lt_succ_of_lt hl, hpl, hvalue, hindex,
          fun m hm hpm => hbest m (hbelow hm hpm) hpm⟩
    | true =>
      have hu : u = searchLane order a base (((List.range n).filter part).foldl (searchLane order a base) start) n := by
        simp [u, List.range_succ, hpart]
      rw [hu]
      right
      rcases ih with ⟨hnone, hsame⟩ | hfound
      · rw [hsame, searchLane, hstart, Bool.true_or, if_pos rfl, Nat.mod_eq_of_lt (by omega)]
        refine ⟨rfl, rfl, rfl, rfl, n, Nat.lt_succ_self n, hpart, rfl, rfl, fun m hm hpm => ?_⟩
        rcases Nat.lt_succ_iff_lt_or_eq.1 hm with hm | rfl
        · rw [hnone m hm] at hpm
          cases hpm
        · exact .inr ⟨rfl, le_rfl⟩
      · exact searchLane_found horder (by omega) hbase hfound hpart

end Search

section Answers

variable {s : State} {g : Tile} {x : Ctx} {op : Nat} {w : BitVec 120}

theorem lane_word (i : Image) (l : Nat) (hop : op < 256) : i.lane (w.toNat * 256 + op) l = i.lane (w.toNat * 256) l := by
  rw [Image.lane, Image.lane, opf_word _ _ hop (by decide), testBit_word w 28 hop,
    ← testBit_word w 28 (by decide : 0 < 256), Nat.add_zero]

/-- A search over integer lanes from an empty state, in an order that a key of the lane gives. -/
theorem answers_search {order : FVal → FVal → Bool} {f : BitVec 32 → Int} (h : Chosen s g x op w) (hop : opListed op = true)
    (hmma : op ≠ 0x60) (horder : ∀ e p q, order (intVal e p) (intVal e q) = decide (f q < f p)) (hfix : w.getLsbD 31 = true)
    (hempty : (s.img g x).search.empty = true) (hsome : ∃ l, l < 128 ∧ (s.img g x).lane (w.toNat * 256) l = true)
    (hbase : bits ((s.img g x).reg (opf (w.toNat * 256) 56 4)).toNat 0 32 + 128 ≤ 2 ^ 32) :
    let v := w.toNat * 256 + op
    let i := s.img g x
    Answers (s.issue g x op w (searchOp order g x v)) fun u => ∃ h k,
      Issues s u g x (i.pc + 1) ((i.seq + 1) % 65536) [⟨x, cycleOf s g x + 7, .search h, i.seq,
        some (op, v.testBit 9, k)⟩] ∧
      Found (fun l => f ((i.vec (opf v 20 4)).lanes.getD l 0)) (i.lane v) (i.vec (opf v 20 4))
        (bits (i.reg (opf v 56 4)).toNat 0 32) 128 h := by
  intro v i
  have hlow := opListed_lt hop
  have hbit : v.testBit 39 = true := (testBit_word w 31 hlow).trans hfix
  obtain ⟨k, hbody⟩ := searchOp_vec order g x v s (cycleOf s g x) hbit hempty
  obtain ⟨u, hu, hissues⟩ := answers_vec h hop hmma hbody
  rw [← opf_word w.toNat 4 hlow (by decide)] at hbase
  refine ⟨u, hu, _, _, hissues, ?_⟩
  rcases search_found (part := i.lane v) (horder (i.vec (opf v 20 4)).bexp) hbase { i.search with fix := true } hempty le_rfl
    with ⟨hnone, -⟩ | hfound
  · obtain ⟨l, hl, hlane⟩ := hsome
    rw [← lane_word _ _ hlow, hnone l hl] at hlane
    cases hlane
  · exact hfound

theorem b2n_le (b : Bool) : b2n b ≤ 1 := by
  cases b <;> decide

theorem decide_b2n (b : Bool) : decide (b2n b = 1) = b := by
  cases b <;> rfl

/-- The second scalar of VSRD: the exponent, and FIX, NaN and EMPTY above it. -/
theorem srdWord_bits (e : Int) (fix nan empty : Bool) :
    let hi := BitVec.ofNat 64 ((BitVec.ofInt 16 e).toNat + b2n fix * 2 ^ 16 + b2n nan * 2 ^ 17 + b2n empty * 2 ^ 18)
    bits hi.toNat 0 16 = (BitVec.ofInt 16 e).toNat ∧ hi.getLsbD 16 = fix ∧ hi.getLsbD 17 = nan ∧ hi.getLsbD 18 = empty ∧
      hi.toNat < 2 ^ 19 := by
  have hlt := (BitVec.ofInt 16 e).isLt
  have hfix := b2n_le fix
  have hnan := b2n_le nan
  have hempty := b2n_le empty
  generalize (BitVec.ofInt 16 e).toNat = n at hlt ⊢
  intro hi
  have hnat : hi.toNat = n + b2n fix * 2 ^ 16 + b2n nan * 2 ^ 17 + b2n empty * 2 ^ 18 := by
    rw [BitVec.toNat_ofNat, Nat.mod_eq_of_lt (by omega)]
  have hbit {k : Nat} {b : Bool} (h : hi.toNat / 2 ^ k % 2 = b2n b) : hi.getLsbD k = b := by
    rw [BitVec.getLsbD, Nat.testBit_eq_decide_div_mod_eq, h, decide_b2n]
  refine ⟨?_, hbit ?_, hbit ?_, hbit ?_, ?_⟩
  · rw [hnat, bits]
    omega
  all_goals
    rw [hnat]
    omega

theorem answers_vsrd (h : Chosen s g x 0x8E w) :
    let v := w.toNat * 256 + 0x8E
    let i := s.img g x
    Answers (exec (.vsrd g x w) s) fun u => ∃ (hi : U64) (k : Counts),
      Issues s u g x (i.pc + 1) ((i.seq + 1) % 65536) [⟨x, cycleOf s g x + 2,
        .srd (opf v 56 4) (i.search.index ++ i.search.value) (opf v 64 4) hi, i.seq, some (0x8E, v.testBit 9, k)⟩] ∧
      bits hi.toNat 0 16 = (BitVec.ofInt 16 i.search.bexp).toNat ∧ hi.getLsbD 16 = i.search.fix ∧
      hi.getLsbD 17 = i.search.nan ∧ hi.getLsbD 18 = i.search.empty ∧ hi.toNat < 2 ^ 19 := by
  intro v i
  obtain ⟨-, -, -, -, -, hflight⟩ := id h
  have hbody : bodyVsrd g x v s (cycleOf s g x) = _ := if_neg (by rw [hflight]; exact Bool.false_ne_true)
  obtain ⟨u, hu, hissues⟩ := answers_vec h rfl (by decide) hbody
  exact ⟨u, hu, _, _, hissues, srdWord_bits _ _ _ _⟩

end Answers

/-- Settles O26: the three searches are `answers_search` under the keys that their orders compare, value, negated value and
magnitude. -/
theorem searchOps : Obligations.SearchOps := by
  refine ⟨?_, ?_, ?_, ?_⟩
  · intro s g x w h hfix hempty hsome hbase
    obtain ⟨u, hu, r, k, hissues, he, hf, hn, hb, l, hl, hpl, hvalue, hindex, hbest⟩ :=
      answers_search (order := fun a b => b.lt a) (f := BitVec.toInt) h rfl (by decide) (fun e p q => intVal_lt e q p) hfix
        hempty hsome hbase
    exact ⟨u, hu, r, k, hissues, he, hf, hn, hb, l, hl, hpl, hvalue, hindex, hbest⟩
  · intro s g x w h hfix hempty hsome hbase
    have horder (e : Int) (p q : BitVec 32) : (intVal e p).lt (intVal e q) = decide (-q.toInt < -p.toInt) := by
      rw [intVal_lt, decide_eq_decide, Int.neg_lt_neg_iff]
    obtain ⟨u, hu, r, k, hissues, he, hf, hn, hb, l, hl, hpl, hvalue, hindex, hbest⟩ :=
      answers_search (order := fun a b => a.lt b) (f := fun b => -b.toInt) h rfl (by decide) horder hfix
        hempty hsome hbase
    refine ⟨u, hu, r, k, hissues, he, hf, hn, hb, l, hl, hpl, hvalue, hindex, fun m hm hpm => ?_⟩
    rcases hbest m hm hpm with hlt | ⟨heq, hle⟩
    · exact .inl (Int.neg_lt_neg_iff.1 hlt)
    · exact .inr ⟨Int.neg_inj.1 heq, hle⟩
  · intro s g x w h hfix hempty hsome hbase
    have horder (e : Int) (p q : BitVec 32) :
        (intVal e q).abs.lt (intVal e p).abs = decide ((q.toInt.natAbs : Int) < p.toInt.natAbs) := by
      rw [intVal_abs_lt, decide_eq_decide, Int.ofNat_lt]
    obtain ⟨u, hu, r, k, hissues, he, hf, hn, hb, l, hl, hpl, hvalue, hindex, hbest⟩ :=
      answers_search (order := fun a b => b.abs.lt a.abs) (f := fun b => b.toInt.natAbs) h rfl (by decide) horder hfix
        hempty hsome hbase
    refine ⟨u, hu, r, k, hissues, he, hf, hn, hb, l, hl, hpl, hvalue, hindex, fun m hm hpm => ?_⟩
    rcases hbest m hm hpm with hlt | ⟨heq, hle⟩
    · exact .inl (Int.ofNat_lt.1 hlt)
    · exact .inr ⟨Int.ofNat_inj.1 heq, hle⟩
  · exact fun s g x w h => answers_vsrd h

end Sys2Proof.Machine

/-! PROOFS. Vector memory operations, and results landing: O27. -/

namespace Sys2Proof.Machine

/-! ## Lane addresses (R203) -/

section Lanes

variable (i : Image) (v : Nat)

theorem mem_laneAddrs {e : Nat × Int} :
    e ∈ i.laneAddrs v ↔ e.1 < 128 ∧ i.lane v e.1 = true ∧ e.2 = (i.gen (opf v 37 2)).laneAddr e.1 := by
  obtain ⟨l, a⟩ := e
  simp only [Image.laneAddrs, List.mem_map, List.mem_filter, List.mem_range, Prod.mk.injEq]
  constructor
  · rintro ⟨m, ⟨hm, hlane⟩, rfl, rfl⟩
    exact ⟨hm, hlane, rfl⟩
  · rintro ⟨hl, hlane, rfl⟩
    exact ⟨l, ⟨hl, hlane⟩, rfl, rfl⟩

/-- A lane that takes part is listed with its address, and no other lane. -/
theorem find?_laneAddrs {l : Nat} (hl : l < 128) : (i.laneAddrs v).find? (·.1 = l) =
    if i.lane v l then some (l, (i.gen (opf v 37 2)).laneAddr l) else none := by
  cases hfind : (i.laneAddrs v).find? (·.1 = l) with
  | none =>
    split
    · next hlane =>
        have hmem : (l, (i.gen (opf v 37 2)).laneAddr l) ∈ i.laneAddrs v := (mem_laneAddrs i v).2 ⟨hl, hlane, rfl⟩
        exact absurd (decide_eq_true rfl) (List.find?_eq_none.1 hfind _ hmem)
    · rfl
  | some e =>
    obtain ⟨m, a⟩ := e
    obtain ⟨-, hlane, haddr⟩ := (mem_laneAddrs i v).1 (List.mem_of_find?_eq_some hfind)
    have hm : m = l := by simpa using List.find?_some hfind
    dsimp only at hlane haddr
    rw [hm] at hlane haddr
    rw [if_pos hlane, hm, haddr]

theorem laneAddrs_word {op : Nat} (w : BitVec 120) (hop : op < 256) :
    i.laneAddrs (w.toNat * 256 + op) = i.laneAddrs (w.toNat * 256) := by
  have hlanes : i.lane (w.toNat * 256 + op) = i.lane (w.toNat * 256) := funext fun l => lane_word i l hop
  rw [Image.laneAddrs, Image.laneAddrs, hlanes, opf_word _ _ hop (by decide)]

end Lanes

/-! ## Vector memory operations (R203) -/

/-- The generator of an access goes on. -/
def State.advance (s : State) (g x n : Nat) : State :=
  s.modImg g x fun j => { j with ag := j.ag.put n (j.gen n).advance }

/-- What VLD loads: each lane that takes part from its address, and 0. -/
def loadedLanes (s : State) (g x v : Nat) : List (BitVec 32) :=
  (List.range 128).map fun n => match ((s.img g x).laneAddrs v).find? (·.1 = n) with
    | some (_, a) => signLane (widthBytes (opf v 40 2)) (s.readNat (operandBase g + a.toNat) (widthBytes (opf v 40 2)))
    | none => 0

/-- The bytes that VST stores. -/
def storedBytes (i : Image) (g v : Nat) : List (Nat × Byte) :=
  (i.laneAddrs v).flatMap fun (lane, a) => (List.range (widthBytes (opf v 40 2))).map fun b =>
    (operandBase g + a.toNat + b, (((i.vec (opf v 20 4)).lanes.getD lane 0) >>> (8 * b)).truncate 8)

theorem mem_storedBytes (i : Image) (g v a : Nat) (y : Byte) : (a, y) ∈ storedBytes i g v ↔
    ∃ l b, l < 128 ∧ i.lane v l = true ∧ b < widthBytes (opf v 40 2) ∧
      a = operandBase g + ((i.gen (opf v 37 2)).laneAddr l).toNat + b ∧
      y = (((i.vec (opf v 20 4)).lanes.getD l 0) >>> (8 * b)).truncate 8 := by
  simp only [storedBytes, List.mem_flatMap, List.mem_map, List.mem_range, Prod.mk.injEq]
  constructor
  · rintro ⟨⟨l, p⟩, he, b, hb, rfl, rfl⟩
    obtain ⟨hl, hlane, haddr⟩ := (mem_laneAddrs i v).1 he
    dsimp only at haddr
    exact ⟨l, b, hl, hlane, hb, by rw [haddr], rfl⟩
  · rintro ⟨l, b, hl, hlane, hb, rfl, rfl⟩
    exact ⟨(l, _), (mem_laneAddrs i v).2 ⟨hl, hlane, rfl⟩, b, hb, rfl, rfl⟩

section Memory

variable {s : State} {g : Tile} {x : Ctx} {op : Nat} {w : BitVec 120} {v : Nat}

theorem getD_loadedLanes (s : State) (g x v : Nat) {l : Nat} (hl : l < 128) : (loadedLanes s g x v).getD l 0 =
    if (s.img g x).lane v l then signLane (widthBytes (opf v 40 2))
      (s.readNat (operandBase g + (((s.img g x).gen (opf v 37 2)).laneAddr l).toNat) (widthBytes (opf v 40 2))) else 0 := by
  rw [loadedLanes, getD_map_range _ _ hl, find?_laneAddrs _ _ hl]
  by_cases hlane : (s.img g x).lane v l = true
  · simp only [hlane, if_true]
  · simp only [hlane, if_false, Bool.false_eq_true]

theorem bodyVld_vec (lost c : Nat) (hwidth : opf v 40 2 ≠ 3)
    (hlanes : lanesOk (opf v 40 2) ((s.img g x).laneAddrs v) = true) : ∃ freeze, bodyVld g x v lost s c =
      Iss.vec (s.advance g x (opf v 37 2)) g x v c 9 freeze
        (.vreg (opf v 16 4) ⟨loadedLanes s g x v, (BitVec.ofNat 16 (opf v 64 16)).toInt⟩) Counts.zero := by
  refine ⟨_, (if_neg hwidth).trans (if_neg (by rw [hlanes]; decide))⟩

theorem bodyVst_vec (lost c : Nat) (hwidth : opf v 40 2 ≠ 3)
    (hlanes : lanesOk (opf v 40 2) ((s.img g x).laneAddrs v) = true)
    (hfree : ∀ e ∈ (s.img g x).laneAddrs v, ∀ b, b < widthBytes (opf v 40 2) →
      (s.tile g).locked (e.2.toNat + b) = false) :
    ∃ freeze, bodyVst g x v lost s c = Iss.vec (s.advance g x (opf v 37 2)) g x v c 3 freeze
      (.mem (storedBytes (s.img g x) g v)) Counts.zero := by
  have hunlocked : (((s.img g x).laneAddrs v).any fun (_, a) => (List.range (widthBytes (opf v 40 2))).any fun b =>
      (s.tile g).locked (a.toNat + b)) = false := by
    simp only [List.any_eq_false, List.mem_range, Bool.not_eq_true]
    exact hfree
  exact ⟨_, (if_neg hwidth).trans ((if_neg (by rw [hlanes]; decide)).trans (if_neg (by rw [hunlocked]; decide)))⟩

/-- A vector operation on memory issues over the state in which its generator has gone on. -/
theorem answers_memory {body : State → Nat → Iss} {n lat freeze : Nat} {what : Landing} {k : Counts} (h : Chosen s g x op w)
    (hop : opListed op = true) (hmma : op ≠ 0x60) (hbody : body s (cycleOf s g x) =
      Iss.vec (s.advance g x n) g x (w.toNat * 256 + op) (cycleOf s g x) lat freeze what k) :
    Answers (s.issue g x op w body) fun u => Issues (s.advance g x n) u g x ((s.img g x).pc + 1)
      (((s.img g x).seq + 1) % 65536)
      [⟨x, cycleOf s g x + lat, what, (s.img g x).seq, some (op, (w.toNat * 256 + op).testBit 9, k)⟩] := by
  let r := s.advance g x n
  have hth : r.th g x = s.th g x := State.th_modImg _ _ _ _ _
  have himg := State.img_modImg_self s g x fun j => { j with ag := j.ag.put n (j.gen n).advance }
  have hpc : (r.img g x).pc = (s.img g x).pc := (congrArg Image.pc himg :)
  have hseq : (r.img g x).seq = (s.img g x).seq := (congrArg Image.seq himg :)
  have hcycle : cycleOf r g x = cycleOf s g x := by
    have hacyc : (r.tile g).acyc = (s.tile g).acyc := (congrArg TileS.acyc (State.rest_setCtx s g x _) :)
    have hissuer : (r.tile g).issuer = (s.tile g).issuer := (congrArg TileS.issuer (State.rest_setCtx s g x _) :)
    have hnext : ((r.tile g).ctx x).th.nextIssue = ((s.tile g).ctx x).th.nextIssue := congrArg Thread.nextIssue hth
    simp only [cycleOf, State.issueCycle, hacyc, hissuer, hnext, Bool.false_eq_true, if_false]
  obtain ⟨-, -, -, -, -, hflight⟩ := id h
  refine ⟨_, (issue_chosen h hop).trans (congrArg _ hbody), ?_⟩
  dsimp only
  rw [opcode_word _ (opListed_lt hop), ← hpc, ← hseq, ← hcycle]
  exact (issues_issued (pc := none) ((AtIssue.refl r).modImg _) (by rw [hth]; exact h.running)
    (by rw [hth]; exact h.again (opListed_lt hop) hmma) ((State.flight_setCtx s g x _).trans hflight)
    (State.img_modImg_self r g x fun i => { i with seq := (i.seq + 1) % 65536 }) _).1

end Memory

/-! ## Landings (R155, R185, R188) -/

section Landings

variable {s : State} {g : Tile} {f : Flight}

/-- A result alone in flight that waits for nothing lands. -/
theorem exec_resultLanding (hflight : (s.tile g).flight = [f]) (hfree : (s.tile g).waits g f = false) :
    exec (.resultLanding g) s = .next (((s.modTile g fun t => { t with flight := [] }).land g f).modTile g fun t =>
      { t with acyc := max t.acyc (f.due + 1) }) := by
  have hnext : s.nextLanding g = some f.due := by simp [State.nextLanding, hflight, hfree]
  have hland : s.landAt g f.due = (s.modTile g fun t => { t with flight := [] }).land g f := by
    simp [State.landAt, hflight, hfree, pairsOf, State.modTile]
  show execResultLanding g s = _
  simp only [execResultLanding, hnext, hland]

/-- Where every result waits, none lands. -/
theorem exec_resultLanding_waits (hwait : ∀ f ∈ (s.tile g).flight, (s.tile g).waits g f = true) :
    exec (.resultLanding g) s = .next s := by
  have hnone : ((s.tile g).flight.filter fun f => !(s.tile g).waits g f) = [] :=
    List.filter_eq_nil_iff.2 fun f hf => by simp [hwait f hf]
  have hnext : s.nextLanding g = none := by
    rw [State.nextLanding, hnone]
    rfl
  show execResultLanding g s = _
  simp only [execResultLanding, hnext]

/-- Writes at listed addresses leave every other byte. -/
theorem byte_pokes {ws : List (Nat × Byte)} {a : Nat} (hwf : Memory.wf 0 s.mem = true) (ha : a ∉ ws.map (·.1)) :
    (s.pokes ws).byte a = s.byte a := by
  suffices h : ∀ m : List Host.Cell, Memory.wf 0 m = true →
      Mem.read 0 (ws.foldl (fun m (b, y) => Mem.write 0 m b y) m) a = Mem.read 0 m a from h s.mem hwf
  induction ws with
  | nil => exact fun m _ => rfl
  | cons e ws ih =>
    intro m hm
    rw [List.map_cons, List.mem_cons, not_or] at ha
    rw [List.foldl_cons, ih ha.2 _ (Memory.wf_write 0 m e.1 e.2 hm),
      Mem.read_write_ne 0 m e.1 a e.2 ((Memory.wf_iff 0 m).1 hm).1 ha.1]

/-- A scalar lands in its register. -/
theorem answers_landScalar {ctx due i : Nat} {val : U64}
    (hflight : (s.tile g).flight = [⟨ctx, due, .scalar i val, 0, none⟩]) : Answers (exec (.resultLanding g) s) fun u =>
      (u.img g ctx).reg i = val ∧ (∀ j, j ≠ i → (u.img g ctx).reg j = (s.img g ctx).reg j) ∧ (u.tile g).flight = [] ∧
      (u.tile g).acyc = max (s.tile g).acyc (due + 1) ∧ u = { s with tiles := u.tiles } ∧
      (∀ h, h ≠ g.val → u.tile h = s.tile h) := by
  refine ⟨_, exec_resultLanding hflight rfl, ?_⟩
  let r := s.modTile g fun t => { t with flight := [] }
  let t := r.modImg g ctx fun m => { m with s := m.s.put i val }
  let u := t.modTile g fun t => { t with acyc := max t.acyc (due + 1) }
  have himg : u.img g ctx = { s.img g ctx with s := (s.img g ctx).s.put i val } := by
    have hu : u.img g ctx = t.img g ctx := congrArg Context.img (State.ctx_modTile _ _ _ rfl _)
    have hr : r.img g ctx = s.img g ctx := congrArg Context.img (State.ctx_modTile _ _ _ rfl _)
    rw [hu, State.img_modImg_self, hr]
  have hr : r.tile g = { s.tile g with flight := [] } := State.tile_modTile_self _ _ _
  have hrest := State.rest_setCtx r g ctx { r.ctx g ctx with img := { r.img g ctx with s := (r.img g ctx).s.put i val } }
  have hflightT : (t.tile g).flight = [] := (congrArg TileS.flight hrest :).trans (congrArg TileS.flight hr :)
  have hacycT : (t.tile g).acyc = (s.tile g).acyc := (congrArg TileS.acyc hrest :).trans (congrArg TileS.acyc hr :)
  have hu : u.tile g = { t.tile g with acyc := max (t.tile g).acyc (due + 1) } := State.tile_modTile_self _ _ _
  refine ⟨?_, fun j hj => ?_, (congrArg TileS.flight hu).trans hflightT, ?_, rfl, fun h hne => ?_⟩
  · refine (congrArg (Image.reg · i) himg).trans ?_
    simp [Image.reg, Tab.get, Tab.find?_put_self]
  · refine (congrArg (Image.reg · j) himg).trans ?_
    simp [Image.reg, Tab.get, Tab.find?_put_ne _ _ _ _ hj]
  · refine (congrArg TileS.acyc hu).trans ?_
    rw [hacycT]
  · exact (State.tile_modTile_ne _ _ hne).trans ((State.tile_setCtx_ne _ _ _ hne).trans (State.tile_modTile_ne _ _ hne))

/-- A store lands in its bytes and no others, and counts in its job's totals. -/
theorem answers_landStore {ctx due seq opc : Nat} {k : Counts} {ws : List (Nat × Byte)}
    (hflight : (s.tile g).flight = [⟨ctx, due, .mem ws, seq, some (opc, false, k)⟩]) (hwf : Memory.wf 0 s.mem = true)
    (hfree : ∀ e ∈ ws, (s.tile g).locked (e.1 - operandBase g) = false) :
    Answers (exec (.resultLanding g) s) fun u =>
      u.mem = (s.pokes ws).mem ∧ (∀ a, a ∉ ws.map (·.1) → u.byte a = s.byte a) ∧ (u.tile g).flight = [] ∧
      (u.jobTotals.get ⟨0, Counts.zero⟩ (s.dr g ctx).jobId).ops =
        (s.jobTotals.get ⟨0, Counts.zero⟩ (s.dr g ctx).jobId).ops + 1 := by
  have hwaits : (s.tile g).waits g ⟨ctx, due, .mem ws, seq, some (opc, false, k)⟩ = false := by
    simpa [TileS.waits] using hfree
  refine ⟨_, exec_resultLanding hflight hwaits, ?_⟩
  let r := (s.modTile g fun t => { t with flight := [] }).pokes ws
  have hdr : r.dr g ctx = s.dr g ctx := congrArg Context.dr (State.ctx_modTile s g (fun t => { t with flight := [] }) rfl ctx)
  obtain ⟨k', hk'⟩ := r.complete_unrecorded g ctx seq opc k
  rw [hdr] at hk'
  have hmem : (r.complete g ctx seq opc false k).mem = (s.pokes ws).mem := by
    rw [hk']
    exact State.countDevice_mem _ _
  have htile : ((r.complete g ctx seq opc false k).tile g).flight = [] := by
    have htiles : ((r.countJob (s.dr g ctx).jobId k').countDevice k').tiles = r.tiles := by
      rw [(State.countDevice_changes _ k').1]
      rfl
    rw [hk', State.flight_modDr, State.tile_congr htiles]
    show ((s.modTile g fun t => { t with flight := [] }).tile g).flight = []
    rw [State.tile_modTile_self]
  refine ⟨hmem, fun a ha => ?_, ?_, ?_⟩
  · refine (congrArg (Mem.read 0 · a) hmem).trans (byte_pokes hwf ha)
  · rw [State.tile_modTile_self]
    exact htile
  · show ((r.complete g ctx seq opc false k).jobTotals.get _ _).ops = _
    rw [hk']
    show ((State.countDevice k' _).jobTotals.get _ _).ops = _
    rw [State.countDevice_jobTotals, State.ops_countJob]
    rfl

end Landings

/-- Settles O27: the loads and stores issue over the state in which their generator has gone on, with `getD_loadedLanes` and
`mem_storedBytes` for what they read and put in flight; a result that does not wait lands as `exec_resultLanding` says. -/
theorem loadsStoresAndLandings : Obligations.LoadsStoresAndLandings := by
  refine ⟨?_, ?_, ?_, ?_, ?_, ?_⟩
  · intro s g x w n h hwidth hlanes
    have hop : 0x80 < 256 := by decide
    rw [← opf_word (lo := 40) _ _ hop (by decide)] at hwidth hlanes
    rw [← laneAddrs_word _ _ hop] at hlanes
    obtain ⟨freeze, hbody⟩ := bodyVld_vec n (cycleOf s g x) hwidth hlanes
    obtain ⟨u, hu, hissues⟩ := answers_memory h rfl (by decide) hbody
    exact ⟨u, hu, _, _, hissues, rfl, fun l hl => getD_loadedLanes s g x _ hl⟩
  · intro s g x w n h hwidth hlanes hfree
    have hop : 0x81 < 256 := by decide
    rw [← opf_word (lo := 40) _ _ hop (by decide)] at hwidth hlanes hfree
    rw [← laneAddrs_word _ _ hop] at hlanes hfree
    obtain ⟨freeze, hbody⟩ := bodyVst_vec n (cycleOf s g x) hwidth hlanes hfree
    obtain ⟨u, hu, hissues⟩ := answers_memory h rfl (by decide) hbody
    refine ⟨u, hu, _, _, hissues, ?_, mem_storedBytes _ _ _⟩
    obtain ⟨-, -, -, -, -, -, -, -, -, hframe⟩ := hissues
    rw [hframe]
    rfl
  · exact fun s g ctx due i val hflight => answers_landScalar hflight
  · exact fun s g ctx due seq opc k ws hflight hwf hfree => answers_landStore hflight hwf hfree
  · exact fun s g f hflight hfree => exec_resultLanding hflight hfree
  · exact fun s g hwait => exec_resultLanding_waits hwait

end Sys2Proof.Machine

/-! PROOFS. Array operations: O28 fails. -/

namespace Sys2Proof.Machine

/-! ## A refusal at a program counter that LastRefusal cannot hold (R178, R196)

LastRefusal holds the program counter in bits 0 to 11, below the opcode and the cause. The program store of the device has
4,096 words, but a state's window and program counter are numbers that nothing in `Chosen` bounds: a program counter of
2^20 or more carries into the cause. -/

/-- A context ready to issue, with a drawer, its program counter at word 2^20 of a window that reaches past it. -/
def farContext : Context :=
  ⟨{ Image.zero with pc := 2 ^ 20 }, { Thread.idle with st := .ready, winLen := 2 ^ 20 + 1 },
    { Drawer.none with st := .assigned }⟩

/-- Tile 0 with that context resident and an MMA of all fields 0 at its program counter: FP32 operands with M, N and K 0. -/
def farProgram : State :=
  State.reset.setTile 0 { TileS.empty with banks := [⟨some 0, false⟩], ctxs := [(0, farContext)], prog := [(2 ^ 20, 0x60)] }

theorem farProgram_chosen : Chosen farProgram 0 0 0x60 0 :=
  ⟨by decide, by decide, by decide, by decide, by decide, rfl⟩

/-- The operation that the word names reads nothing, and is in order but for its sizes. -/
theorem farProgram_op :
    let o := farProgram.arrayOp 0 0 0
    o.formatsOk = true ∧ o.pairingOk = true ∧ o.modeOk = true ∧ o.rangeOk (farProgram.dr 0 0) = true ∧ o.k = 0 ∧
      (farProgram.th 0 0).again = none := by
  decide

/-- The MMA is refused with cause 7. -/
theorem exec_farProgram : exec (.mma 0 0 0) farProgram = .next (farProgram.refuseOp 0 0 (cycleOf farProgram 0 0) 7 0x60) := by
  obtain ⟨hformats, hpairing, hmode, hrange, hk, hagain⟩ := farProgram_op
  have hbody : bodyMma 0 0 0 farProgram (cycleOf farProgram 0 0) = .refuse 7 := by
    simp [bodyMma, hagain, hformats, hpairing, hmode, hrange, hk]
  exact (issue_chosen farProgram_chosen rfl).trans (congrArg _ hbody)

/-- LastRefusal then shows cause 8. -/
theorem lastRefusal_farProgram :
    bits ((farProgram.refuseOp 0 0 (cycleOf farProgram 0 0) 7 0x60).num (tileKey Obj.lastRefusal 0)) 20 4 = 8 := by
  decide

/-- Refutes O28: nothing in it bounds the program counter for the cause that a refused MMA leaves in LastRefusal. In
`farProgram` the program counter 2^20 is added to the cause's lowest bit, and the cause of an MMA of K = 0 reads 8, not 7. -/
theorem not_arrayOpsAndResidence : ¬ Obligations.ArrayOpsAndResidence := by
  intro h
  obtain ⟨-, -, -, hrefused, -, -, -⟩ := h
  obtain ⟨hformats, hpairing, hmode, hrange, hk, hagain⟩ := farProgram_op
  obtain ⟨u, hu, hcause, -⟩ := hrefused farProgram 0 0 0 farProgram_chosen hformats hpairing hmode hrange hk hagain
  rw [← Host.Outcome.next.inj (exec_farProgram.symm.trans hu)] at hcause
  exact absurd (hcause.symm.trans lastRefusal_farProgram) (by decide)

end Sys2Proof.Machine

/-! PROOFS. Streams: O29, O30 and O31 fail. -/

namespace Sys2Proof.Machine

/-- Two properties of one outcome hold of one state. -/
theorem Answers.and {o : Host.Outcome State Fault Refusal} {P Q : State → Prop} (hP : Answers o P) (hQ : Answers o Q) :
    ∃ u, P u ∧ Q u := by
  obtain ⟨u, hu, hPu⟩ := hP
  obtain ⟨v, hv, hQv⟩ := hQ
  exact ⟨u, hPu, Host.Outcome.next.inj (hv.symm.trans hu) ▸ hQv⟩

/-! ## States of one job with streams of tile 0 -/

/-- A descriptor of one unit, at address 0, through a ring of two; a multicast's window has 256 KiB. -/
def oneUnit (dir : Nat) (rt mcast : Bool) : StreamDesc :=
  ⟨0, dir, rt, mcast, 1, 0, List.replicate 5 1, List.replicate 5 0, 0, if mcast then 18 else 0⟩

/-- A stream of job 0 that context 0 of tile 0 has opened. -/
def openedStream (st : StreamSt) (d : StreamDesc) : StreamS := { StreamS.new 0 0 0 0 d [] 0 with st := st }

/-- Job 0, which stream 0 of cabinet 0 is assigned to. -/
def streamJob : JobS := { JobS.new ⟨0, 0, false, 0, 0, 0, 0, 0, []⟩ ⟨1, [], [], [], [], []⟩ 0 0 [] with streams := [0] }

/-- Tile 0 with context 0 of job 0 ready to issue the word of an opcode with all fields 0, and one beat in the IN queue of
its fabric port. -/
def portTile (op : BitVec 128) : TileS :=
  { TileS.empty with
    banks := [⟨some 0, false⟩]
    ctxs := [(0, ⟨Image.zero, { Thread.idle with st := .ready, winLen := 1 }, { Drawer.none with st := .assigned }⟩)]
    prog := [(0, op)]
    portIn := [List.replicate 64 0] }

/-- The device with that job, that tile and these streams. -/
def withStreams (op : BitVec 128) (l : Tab StreamS) : State :=
  { State.reset.setTile 0 (portTile op) with streams := l, jobs := { State.reset.jobs with jobs := [(0, streamJob)] } }

/-! ## One stream number listed twice (R216, R227)

SOPEN lists a number once and keeps the keys of the table of streams rising. Nothing in a state's type does, O29 does not
ask for it, and O31 asks for it in one clause only. Where the table lists a number twice, `State.stream` finds the first
entry, and `State.portStream`, which looks for the fabric-in stream of a tile, may find the second: as a beat moves into
that one's ring, it is stored in the place of the first. -/

/-- Stream 0 is `m`, and behind it stands a fabric-in stream of the same number. -/
def listedTwice (op : BitVec 128) (m : StreamS) : State :=
  withStreams op [(0, m), (0, openedStream .running (oneUnit 2 false false))]

/-- A read from memory of which the program holds nothing. -/
def emptyRead : StreamS := openedStream .running (oneUnit 0 false false)

/-- An SFREE of stream 0, a read from memory, with quantity 0. -/
def sfreeTwice : State := listedTwice 0x42 emptyRead

theorem sfreeTwice_chosen : Chosen sfreeTwice 0 0 0x42 0 :=
  ⟨by decide, by decide, by decide, by decide, by decide, rfl⟩

/-- SFREE lets the tile's beat move, and stream 0 is the fabric-in stream then. -/
theorem answers_sfreeTwice : Answers (exec (.sfree 0 0 0) sfreeTwice) fun u => (u.stream 0).map (·.desc.dir) = some 2 :=
  have hbody : bodySfree 0 0 0 sfreeTwice (cycleOf sfreeTwice 0 0) = .go (sfreeTwice.freeUnits 0 0 0) none 0 [] := rfl
  ⟨_, (issue_chosen sfreeTwice_chosen rfl).trans (congrArg _ hbody), by decide⟩

/-- Refutes O29: nothing in it asks the table of streams to list a number once. SFREE of a read from memory, in
`sfreeTwice`, leaves a fabric-in stream under the read's number. -/
theorem not_streamOps : ¬ Obligations.StreamOps := by
  intro h
  obtain ⟨-, -, -, -, hsfree, -, -⟩ := h
  obtain ⟨u, ⟨⟨hstream, -⟩, -⟩, hdir⟩ := (hsfree sfreeTwice 0 0 0 emptyRead sfreeTwice_chosen (by decide) (by decide)
    (by decide) (by decide) (by decide)).and answers_sfreeTwice
  have hread : (u.stream 0).map (·.desc.dir) = some 0 := congrArg (Option.map (·.desc.dir)) hstream
  exact absurd (hdir.symm.trans hread) (by decide)

/-- A real-time read in Opening, of which no page is left to pin. -/
def openingRead : StreamS := openedStream .opening (oneUnit 0 true false)

/-- STREAM_PIN_COMPLETE starts the stream and lets the tile's beat move, and stream 0 is the fabric-in stream then. -/
theorem answers_pinTwice : Answers (exec (.streamPinComplete 0 0) (listedTwice 0 openingRead)) fun u =>
    (u.stream 0).map (·.desc.dir) = some 2 :=
  ⟨_, rfl, by decide⟩

/-- Refutes O31: its clause on pins, as that on resumption, does not ask the table of streams to list a number once. The
start of `openingRead` in `listedTwice` leaves a fabric-in stream under its number. -/
theorem not_streamsHaltAndGoOn : ¬ Obligations.StreamsHaltAndGoOn := by
  intro h
  obtain ⟨-, -, hpin, -, -⟩ := h
  obtain ⟨u, hstream, hdir⟩ := (hpin (listedTwice 0 openingRead) 0 0 openingRead streamJob rfl rfl rfl rfl rfl
    fun p hp => absurd hp List.not_mem_nil).and answers_pinTwice
  have hread : (u.stream 0).map (·.desc.dir) = some 0 := congrArg (Option.map (·.desc.dir)) hstream
  exact absurd (hdir.symm.trans hread) (by decide)

/-! ## A write stream with MCAST (R217, R220, R239)

SOPEN refuses MCAST with a DIR other than 0, but a state may hold such a stream, and O30 does not exclude it.
`StreamS.finished` judges a stream with MCAST by its receivers: where none is short of a unit, a write stream is Done with
the request of a unit that is not yet visible. -/

/-- A running write stream of one unit, freed by the program, with MCAST and no receiver. -/
def castWrite : StreamS := { openedStream .running (oneUnit 1 false true) with freed := 1 }

/-- The device with that stream; cabinet 0 caches the leaf of the page at address 0 of job 0's space, which is resident and
writable. -/
def castRequest : State :=
  let s := withStreams 0 [(0, castWrite)]
  { s with mm := { s.mm with cached := [(leafKey 0 0, mkLeaf true true false false 0x4000200000, true)] } }

/-- That state once the engine has looked ahead. -/
def castLooked : State := ((castRequest.stallCycle 0 0).detach 0).lookAhead 0 streamJob 33

/-- UNIT_REQUEST leaves the stream Done. -/
theorem answers_castRequest : Answers (exec (.unitRequest 0 0) castRequest) fun u => (u.stream 0).map (·.st) = some .done :=
  ⟨_, rfl, by decide⟩

/-- Refutes O30: its clause on unit requests takes the state of the stream to stand, but the one unit of `castWrite` makes it
Done as it is requested. -/
theorem not_streamUnitsMove : ¬ Obligations.StreamUnitsMove := by
  intro h
  obtain ⟨hrequest, -, -, -, -⟩ := h
  have hpick : (castRequest.stallCycle 0 0).pickStream 0 0 = some (0, castWrite) := by decide
  have hlooked : castLooked.stream 0 = some { castWrite with looked := 1 } := by decide
  have hpage : castLooked.translate 0 0 0 true = .ok 0x4000200000 0 true := by decide
  have hplace : castLooked.place 0x4000200000 = .buffer 0 0x200000 := by decide
  obtain ⟨u, ⟨hstream, -⟩, hdone⟩ := (hrequest castRequest 0 0 0 0x4000200000 0 true castWrite castWrite
    { castWrite with looked := 1 } streamJob (by decide) (by decide) (by decide) hpick (by decide) (by decide) hlooked
    (by decide) (by decide) hpage ⟨0, 0x200000, .inr (.inl hplace)⟩).and answers_castRequest
  have hrunning : (u.stream 0).map (·.st) = some .running := congrArg (Option.map (·.st)) hstream
  exact absurd (hdone.symm.trans hrunning) (by decide)

end Sys2Proof.Machine

/-! PROOFS. Counts and flags of the memory tiers, and GDDR7 channels: O32. -/

namespace Sys2Proof.Machine

/-! ## A count and a flag (R64, R268, R269) -/

/-- An error that is counted and flagged: its count goes up, its flag is set, and nothing else changes. -/
theorem counted_and_flagged {k f : Nat} (n b : Nat) (s : State) (hne : k ≠ f) (hk : k % 256 ≠ 0x12) (hf : f % 256 ≠ 0x12) :
    Counted k n s ((s.bump k n).setFlag f b) ∧ ((s.bump k n).setFlag f b).num f = s.num f ||| b ∧
      ChangesOnly [k, f] s ((s.bump k n).setFlag f b) := by
  refine ⟨?_, ?_, ?_⟩
  · rw [Counted, State.num_setFlag_ne _ _ _ _ (quiet_of_mod hk) hne, State.num_bump_self]
  · rw [State.num_setFlag_self _ _ _ (quiet_of_mod hf), State.num_bump_ne _ _ _ _ hne.symm]
  · exact ((State.bump_changes _ _ _).mono (by simp)).trans ((State.setFlag_changes _ _ _).mono (by simp))

/-! ## Elements of arrays of objects -/

theorem element_lt {a b n i : Nat} (hi : i < n) (h : a + n ≤ b) : a + i < b := by omega

/-- An array in the subindices below 0x12 stays clear of the masters' counts of dropped events. -/
theorem element_mod {a n i : Nat} (hi : i < n) (h : a % 256 + n ≤ 0x12) : (a + i) % 256 ≠ 0x12 := by omega

/-! ## Reading a channel after an update -/

namespace State

theorem chan_congr {s u : State} (h : u.mm.chans = s.mm.chans) (c k : Nat) : u.chan c k = s.chan c k := by
  rw [chan, h, chan]

theorem chan_setChan_ne {c c' : Cab} {k k' : Fin 24} (h : (c', k') ≠ (c, k)) (q : Chan) (s : State) :
    (s.setChan c k q).chan c' k' = s.chan c' k' := by
  have hkey : 24 * c'.val + k'.val ≠ 24 * c.val + k.val := fun he =>
    h (by rw [Prod.mk.injEq, Fin.ext_iff, Fin.ext_iff]; omega)
  simp [chan, setChan, Tab.get, Tab.find?_put_ne _ _ _ _ hkey]

end State

/-- Nothing changes but this channel and objects. -/
def OneChan (c : Cab) (k : Fin 24) (s u : State) : Prop :=
  (∀ c' : Cab, ∀ k' : Fin 24, (c', k') ≠ (c, k) → u.chan c' k' = s.chan c' k') ∧
    u = { s with obj := u.obj, mm := { s.mm with chans := u.mm.chans } }

theorem setChan_oneChan (c : Cab) (k : Fin 24) (q : Chan) (s : State) : OneChan c k s (s.setChan c k q) :=
  ⟨fun _ _ h => State.chan_setChan_ne h q s, rfl⟩

namespace OneChan

variable {c : Cab} {k : Fin 24} {s t u : State}

theorem trans (h₁ : OneChan c k s t) (h₂ : OneChan c k t u) : OneChan c k s u := by
  obtain ⟨hothers₁, ht⟩ := h₁
  obtain ⟨hothers₂, hu⟩ := h₂
  refine ⟨fun c' k' h => (hothers₂ c' k' h).trans (hothers₁ c' k' h), hu.trans ?_⟩
  rw [ht]

theorem bump (h : OneChan c k s t) (a n : Nat) : OneChan c k s (t.bump a n) := h.trans ⟨fun _ _ _ => rfl, rfl⟩

end OneChan

/-! ## The offer admitted (R248) -/

theorem findSome?_range {α : Type} {f : Nat → Option α} {n i : Nat} {a : α} (hi : i < n) (hf : f i = some a)
    (hbefore : ∀ j < i, f j = none) : (List.range n).findSome? f = some a := by
  induction n with
  | zero => omega
  | succ n ih =>
    rw [List.range_succ, List.findSome?_append]
    rcases Nat.lt_succ_iff_lt_or_eq.1 hi with hlt | rfl
    · rw [ih hlt, Option.some_or]
    · rw [List.findSome?_eq_none_iff.2 fun j hj => hbefore j (List.mem_range.1 hj)]
      simp [hf]

/-- The offers that count: spread to the channel, populated, and with room in its queues. -/
def Chan.eligible (q : Chan) (k : Nat) (offers : List ChanReq) : List ChanReq :=
  offers.filter fun o => chanOf o = k && decide (o.offset.toNat < Config.gddrPerCabinet) && q.room o

theorem Chan.eligible_eq (q : Chan) (k : Nat) (offers : List ChanReq) :
    (offers.filter fun r => chanOf r = k && r.offset.toNat < Config.gddrPerCabinet).filter q.room = q.eligible k offers := by
  rw [List.filter_filter, Chan.eligible]
  exact List.filter_congr fun o _ => Bool.and_comm _ _

namespace State

variable {s : State} {q : Chan} {offers ok : List ChanReq} {r : ChanReq}

theorem pickOffer_nil (hok : offers.filter q.room = []) : s.pickOffer q offers = none := by
  simp [pickOffer, hok]

theorem pickOffer_realTime (hok : offers.filter q.room = ok) (hr : ok.find? (·.realTime) = some r) :
    s.pickOffer q offers = some (r, q.turn, q.credit) := by
  simp [pickOffer, hok, hr]

variable (hok : offers.filter q.room = ok) (hbulk : ∀ o ∈ ok, o.realTime = false)
include hok hbulk

theorem pickOffer_turn (hcredit : 0 < q.credit) (hr : ok.find? (fun o => classNo o.cls = q.turn) = some r) :
    s.pickOffer q offers = some (r, q.turn, q.credit - 1) := by
  have hnone : ok.find? (·.realTime) = none := List.find?_eq_none.2 (by simpa using hbulk)
  simp [pickOffer, hok, hnone, hcredit, hr]

theorem pickOffer_next {i : Nat} (hspent : q.credit = 0 ∨ ∀ o ∈ ok, classNo o.cls ≠ q.turn) (hi : i < 6)
    (hbefore : ∀ j < i, ∀ o ∈ ok, classNo o.cls ≠ (q.turn + 1 + j) % 6)
    (hr : ok.find? (fun o => classNo o.cls = (q.turn + 1 + i) % 6) = some r) :
    s.pickOffer q offers = some (r, (q.turn + 1 + i) % 6, s.weight ((q.turn + 1 + i) % 6) - 1) := by
  have hnone : ok.find? (·.realTime) = none := List.find?_eq_none.2 (by simpa using hbulk)
  have hturn : (if 0 < q.credit then ok.find? (fun o => classNo o.cls = q.turn) else none) = none := by
    rcases hspent with h | h
    · simp [h]
    · rw [List.find?_eq_none.2 (by simpa using h), ite_self]
  simp only [pickOffer, hok, hnone, hturn, List.findSome?_map]
  refine findSome?_range hi ?_ fun j hj => ?_
  · simp [hr]
  · simp only [Function.comp_apply, Option.map_eq_none_iff]
    exact List.find?_eq_none.2 (by simpa using hbefore j hj)

end State

/-! ## A request joins its queue (R248 to R250) -/

/-- A request as its queue holds it. -/
def chanEntry (r : ChanReq) : ChanEnt := ⟨r.tag, r.isWrite, r.realTime, chanBank (chanAddr r), chanRow (chanAddr r)⟩

/-- The queued writes that a request's bank and row match. -/
def Chan.hits (q : Chan) (r : ChanReq) : List Nat :=
  (q.queue.filter fun f => f.isWrite && f.bank = chanBank (chanAddr r) && f.row = chanRow (chanAddr r)).map (·.tag)

/-- A request puts its bank in in-order mode. -/
def Chan.enters (q : Chan) (r : ChanReq) : Bool := !r.isWrite && !(q.hits r).isEmpty && !q.ordered (chanBank (chanAddr r))

theorem admitReq_spec (c : Cab) (k : Fin 24) (r : ChanReq) (s : State) :
    let q := s.chan c k
    let u := s.admitReq c k r
    u.chan c k = { q with
      queue := q.queue ++ [chanEntry r]
      inOrder := (if q.enters r then [(chanBank (chanAddr r), q.hits r)] else []) ++ q.inOrder
      draining := q.draining ||
        decide (bits (s.num Obj.writeDrainMarks) 0 8 ≤ ((q.queue ++ [chanEntry r]).filter (·.isWrite)).length) } ∧
    CountedIf (q.enters r) Obj.inOrderEntries s u ∧ (q.enters r = false → u.obj = s.obj) ∧ OneChan c k s u := by
  intro q u
  have hu : u = (let w := s.setChan c k { q with
      queue := q.queue ++ [chanEntry r]
      inOrder := if q.enters r then (chanBank (chanAddr r), q.hits r) :: q.inOrder else q.inOrder
      draining := q.draining ||
        decide (bits (s.num Obj.writeDrainMarks) 0 8 ≤ ((q.queue ++ [chanEntry r]).filter (·.isWrite)).length) }
    if q.enters r then w.bump Obj.inOrderEntries 1 else w) := rfl
  rw [hu]
  cases q.enters r with
  | false => exact ⟨by simp, rfl, fun _ => rfl, setChan_oneChan _ _ _ _⟩
  | true =>
    refine ⟨?_, State.num_bump_self _ _ _, by simp, (setChan_oneChan _ _ _ _).bump _ _⟩
    exact (State.chan_setChan _ _ _ _).trans (by simp)

/-! ## CHANNEL_ADMIT (R247 to R250, R254) -/

theorem execChannelAdmit_none {s : State} {c : Cab} {k : Fin 24} {offers : List ChanReq}
    (h : s.num (Obj.gddrCabinetState + c) ≠ 2 ∨
      ∀ r ∈ offers, chanOf r = k.val → r.offset.toNat < Config.gddrPerCabinet → (s.chan c k).room r = false) :
    execChannelAdmit c k offers s = .next s := by
  unfold execChannelAdmit
  split
  case isTrue => rfl
  case isFalse hready =>
    have hempty : (s.chan c k).eligible k offers = [] := by
      refine List.filter_eq_nil_iff.2 fun o ho => ?_
      have := h.resolve_left hready o ho
      simp only [Bool.and_eq_true, decide_eq_true_eq]
      rintro ⟨⟨hchan, hslot⟩, hroom⟩
      exact Bool.false_ne_true ((this hchan hslot).symm.trans hroom)
    rw [State.pickOffer_nil ((Chan.eligible_eq _ _ _).trans hempty)]

theorem execChannelAdmit_some {s : State} {c : Cab} {k : Fin 24} {offers : List ChanReq} {r : ChanReq} {turn credit : Nat}
    (hready : s.num (Obj.gddrCabinetState + c) = 2)
    (hpick : s.pickOffer (s.chan c k) (offers.filter fun r => chanOf r = k.val && r.offset.toNat < Config.gddrPerCabinet) =
      some (r, turn, credit)) :
    execChannelAdmit c k offers s = .next ((s.setChan c k { s.chan c k with turn := turn, credit := credit }).admitReq c k r) := by
  rw [execChannelAdmit, if_neg (not_not.2 hready), hpick]

/-! ## CHANNEL_READ_SERVED (R248, R251) -/

theorem Chan.finish_queue (q : Chan) (e : ChanEnt) : (q.finish e).queue = q.queue.erase e := rfl
theorem Chan.finish_inOrder (q : Chan) (e : ChanEnt) : (q.finish e).inOrder = q.inOrder := rfl

/-- The outcome of a read is counted, and an uncorrectable one flagged. -/
def State.countRead (o : ReadOutcome) (s : State) : State := match o with
  | .good n corrected =>
    if corrected then (s.bump Obj.readCrcRetries n).bump Obj.onDieCorrected 1 else s.bump Obj.readCrcRetries n
  | .crcFailed => s.gddrBad 2
  | .onDieUncorrectable n => s.gddrBad n

theorem execChannelReadServed_waits {s : State} {c : Cab} {k : Fin 24} {tag : Nat} {e : ChanEnt} (o : ReadOutcome)
    (hfind : (s.chan c k).queue.find? (fun e => e.tag = tag && !e.isWrite) = some e) (hready : (s.chan c k).readReady e = false) :
    execChannelReadServed c k tag o s = .next s := by
  simp [execChannelReadServed, hfind, hready]

theorem execChannelReadServed_ready {s : State} {c : Cab} {k : Fin 24} {tag : Nat} {e : ChanEnt} (o : ReadOutcome)
    (hfind : (s.chan c k).queue.find? (fun e => e.tag = tag && !e.isWrite) = some e) (hready : (s.chan c k).readReady e = true) :
    execChannelReadServed c k tag o s = .next ((s.setChan c k ((s.chan c k).finish e)).countRead o) := by
  cases o with
  | good n corrected => cases corrected <;> simp [execChannelReadServed, hfind, hready, State.countRead]
  | crcFailed => simp [execChannelReadServed, hfind, hready, State.countRead]
  | onDieUncorrectable n => simp [execChannelReadServed, hfind, hready, State.countRead]

theorem gddrBad_spec (n : Nat) (s : State) :
    Counted Obj.readCrcRetries n s (s.gddrBad n) ∧ Counted Obj.gddrUncorrectable 1 s (s.gddrBad n) ∧
      (s.gddrBad n).num Obj.gddrFlags = s.num Obj.gddrFlags ||| 1 := by
  have hretries {k : Nat} (hk : k ≠ Obj.readCrcRetries) := State.num_bump_ne Obj.readCrcRetries k n s hk
  obtain ⟨hcount, hflag, hchanges⟩ := counted_and_flagged (k := Obj.gddrUncorrectable) (f := Obj.gddrFlags) 1 1
    (s.bump Obj.readCrcRetries n) (by decide) (by decide) (by decide)
  rw [hretries (by decide)] at hflag
  rw [Counted, hretries (by decide)] at hcount
  exact ⟨(hchanges.2.num (by decide) (ne_eventsDropped (by decide))).trans (State.num_bump_self _ _ _), hcount, hflag⟩

theorem countRead_good (n : Fin 3) (corrected : Bool) (s : State) :
    let u := s.countRead (.good n corrected)
    Counted Obj.readCrcRetries n s u ∧ CountedIf corrected Obj.onDieCorrected s u ∧
      u.num Obj.gddrFlags = s.num Obj.gddrFlags := by
  have hflags := State.num_bump_ne Obj.readCrcRetries Obj.gddrFlags n s (by decide)
  have hecc := State.num_bump_ne Obj.readCrcRetries Obj.onDieCorrected n s (by decide)
  cases corrected with
  | false => exact ⟨State.num_bump_self _ _ _, hecc, hflags⟩
  | true =>
    refine ⟨?_, ?_, ?_⟩
    · exact (State.num_bump_ne _ _ _ _ (by decide)).trans (State.num_bump_self _ _ _)
    · exact (State.num_bump_self _ _ _).trans (by rw [hecc]; rfl)
    · exact (State.num_bump_ne _ _ _ _ (by decide)).trans hflags

/-- Counting a read reaches objects alone. -/
theorem countRead_keeps (o : ReadOutcome) (s : State) :
    (s.countRead o).mm = s.mm ∧ (s.countRead o).mem = s.mem ∧ (s.countRead o).tiles = s.tiles := by
  cases o with
  | good n corrected => cases corrected <;> exact ⟨rfl, rfl, rfl⟩
  | crcFailed => exact ⟨State.setFlag_mm _ _ _, State.setFlag_mem _ _ _, State.setFlag_tiles _ _ _⟩
  | onDieUncorrectable n => exact ⟨State.setFlag_mm _ _ _, State.setFlag_mem _ _ _, State.setFlag_tiles _ _ _⟩

/-! ## CHANNEL_WRITE_COMPLETE (R248 to R251) -/

/-- The banks in in-order mode once a write is done: it leaves its bank's list, and a bank of no more writes the mode. -/
def Chan.orderAfter (q : Chan) (e : ChanEnt) (tag : Nat) : List (Nat × List Nat) :=
  (q.inOrder.map fun (b, l) => if b = e.bank then (b, l.erase tag) else (b, l)).filter fun p => !p.2.isEmpty

theorem Chan.ne_nil_of_mem_orderAfter {q : Chan} {e : ChanEnt} {tag b : Nat} {l : List Nat}
    (h : (b, l) ∈ q.orderAfter e tag) : l ≠ [] := by
  simpa using (List.mem_filter.1 h).2

theorem Chan.mem_orderAfter {q : Chan} {e : ChanEnt} {tag b : Nat} {l : List Nat} (hb : b ≠ e.bank) (hl : l ≠ []) :
    (b, l) ∈ q.orderAfter e tag ↔ (b, l) ∈ q.inOrder := by
  rw [Chan.orderAfter, List.mem_filter, List.mem_map]
  constructor
  · rintro ⟨⟨⟨b', l'⟩, hmem, heq⟩, -⟩
    dsimp only at heq
    split at heq
    case isTrue hb' => exact absurd (hb'.symm.trans (congrArg Prod.fst heq)).symm hb
    case isFalse => exact heq ▸ hmem
  · exact fun hmem => ⟨⟨(b, l), hmem, if_neg hb⟩, by simpa using hl⟩

/-- The channel once a write is done; a drain batch ends at the low mark. -/
def Chan.written (q : Chan) (e : ChanEnt) (tag low : Nat) : Chan :=
  { q.finish e with
    inOrder := q.orderAfter e tag
    draining := q.draining && decide (low < ((q.queue.erase e).filter (·.isWrite)).length) }

theorem execChannelWriteComplete_waits {s : State} {c : Cab} {k : Fin 24} {tag : Nat} {e : ChanEnt} (n : Nat)
    (hfind : (s.chan c k).queue.find? (fun e => e.tag = tag && e.isWrite) = some e) (hready : (s.chan c k).writeReady e = false) :
    execChannelWriteComplete c k tag n s = .next s := by
  simp [execChannelWriteComplete, hfind, hready]

theorem execChannelWriteComplete_ready {s : State} {c : Cab} {k : Fin 24} {tag : Nat} {e : ChanEnt} (n : Nat)
    (hfind : (s.chan c k).queue.find? (fun e => e.tag = tag && e.isWrite) = some e) (hready : (s.chan c k).writeReady e = true) :
    execChannelWriteComplete c k tag n s = .next ((s.setChan c k
      ((s.chan c k).written e tag (bits (s.num Obj.writeDrainMarks) 8 8))).bump Obj.writeCrcReplays n) := by
  simp only [execChannelWriteComplete, hfind, hready, Bool.not_true, Bool.false_eq_true, if_false]
  rfl

/-- Settles O32: the offer that the hypotheses name is the one `pickOffer` picks, and `admitReq_spec` says what its admission
leaves; the others are one `setChan` and a count each. -/
theorem channelsAdmitAndServe : Obligations.ChannelsAdmitAndServe := by
  refine ⟨?_, ?_, ?_, ?_, ?_⟩
  · exact fun s c k offers h => execChannelAdmit_none h
  · intro s c k offers r turn credit hready hpick
    have hpick' : s.pickOffer (s.chan c k)
        (offers.filter fun r => chanOf r = k.val && r.offset.toNat < Config.gddrPerCabinet) = some (r, turn, credit) := by
      have hok := Chan.eligible_eq (s.chan c k) k offers
      rcases hpick with ⟨hr, rfl, rfl⟩ | ⟨hbulk, ⟨hcredit, hr, rfl, rfl⟩ | ⟨hspent, ⟨i, hi, rfl, hbefore⟩, hr, rfl⟩⟩
      · exact State.pickOffer_realTime hok hr
      · exact State.pickOffer_turn hok hbulk hcredit hr
      · exact State.pickOffer_next hok hbulk hspent hi hbefore hr
    let w := s.setChan c k { s.chan c k with turn := turn, credit := credit }
    have hw : w.chan c k = { s.chan c k with turn := turn, credit := credit } := State.chan_setChan _ _ _ _
    obtain ⟨hchan, hcount, hobj, hone⟩ := admitReq_spec c k r w
    obtain ⟨hothers, hframe⟩ := (setChan_oneChan c k _ s).trans hone
    rw [hw] at hchan hcount hobj
    refine ⟨_, execChannelAdmit_some hready hpick', ?_⟩
    refine ⟨?_, ?_, ?_, ?_, ?_, ⟨?_, hcount, hobj⟩, hothers, hframe⟩ <;> rw [hchan] <;> rfl
  · intro s c k tag e o hfind
    refine ⟨execChannelReadServed_waits o hfind, fun hready => ⟨_, execChannelReadServed_ready o hfind hready, ?_⟩⟩
    let w := s.setChan c k ((s.chan c k).finish e)
    obtain ⟨hmm, hmem, htiles⟩ := countRead_keeps o w
    have hchan (c' k' : Nat) : (w.countRead o).chan c' k' = w.chan c' k' := State.chan_congr (congrArg _ hmm) c' k'
    refine ⟨?_, ?_, ?_, fun c' k' h => (hchan c' k').trans (State.chan_setChan_ne h _ s), hmem, htiles⟩
    · rw [hchan, State.chan_setChan, Chan.finish_queue]
    · rw [hchan, State.chan_setChan, Chan.finish_inOrder]
    · cases o with
      | good n corrected => exact countRead_good n corrected w
      | crcFailed => exact gddrBad_spec 2 w
      | onDieUncorrectable n => exact gddrBad_spec n w
  · intro s c k tag n e hfind
    refine ⟨execChannelWriteComplete_waits n hfind, fun hready => ⟨_, execChannelWriteComplete_ready n hfind hready, ?_⟩⟩
    have hchan (q : Chan) : ((s.setChan c k q).bump Obj.writeCrcReplays n).chan c k = q := State.chan_setChan _ _ _ _
    dsimp only
    rw [hchan]
    exact ⟨rfl, fun b l => Chan.ne_nil_of_mem_orderAfter, fun b l => Chan.mem_orderAfter, rfl, State.num_bump_self _ _ _,
      fun j hj => State.val_setVal_ne _ _ _ _ hj, rfl⟩
  · intro s c k b
    obtain ⟨hothers, -⟩ := setChan_oneChan c k { s.chan c k with
      open? := (s.chan c k).open?.del b
      refreshed := (s.chan c k).refreshed.put b ((s.chan c k).refreshed.get 0 b + 1) } s
    exact ⟨_, rfl, State.chan_setChan _ _ _ _, hothers, rfl⟩

end Sys2Proof.Machine

/-! PROOFS. Operating points: O33. -/

namespace Sys2Proof.Machine

/-! ## Writes of an object with a row of its own (R46, R53) -/

theorem arrived_eq (q : Req) (s : State) :
    Arrived q s = { s with now := max s.now q.t, dict := { s.dict with queues := (Arrived q s).dict.queues } } := by
  obtain ⟨via, t⟩ := q
  cases via with
  | oap m tr seq => exact at_eq s m tr t
  | linear => rfl

/-- An admitted write is carried out in the state it arrives in, and answered, or denied with the error of its chapter. -/
theorem serveOwn_admitted {q : Req} {k : Nat} {val : List Byte} {s : State} (hadm : Admitted q k val s) (hd : Handler) :
    ∃ r v, rowOf k = some r ∧ decodeVal r.ty val = some v ∧
      (∀ u, (Arrived q s).doWrite k r v 0 hd = .ok u → serveOwn q k val hd s = Replied q k u) ∧
      (∀ e, (Arrived q s).doWrite k r v 0 hd = .error e → serveOwn q k val hd s = Denied q k e (Arrived q s)) := by
  obtain ⟨via, t⟩ := q
  obtain ⟨⟨r, v, hval, hfixed⟩, htaken⟩ := hadm
  obtain ⟨hrights, hrow, hdec, hall⟩ := checkVal_ok hval
  refine ⟨r, v, hrow, hdec, ?_⟩
  cases via with
  | oap m tr seq =>
    have hserve : serveOwn ⟨.oap m tr seq, t⟩ k val hd s =
        (At s m tr t).serveWrite m tr seq.toNat k val 0 hd := request_taken htaken _ _ _ _
    have hval' : (At s m tr t).checkVal (masterId m) k val = .ok (r, v) := hval
    simp only [hserve, State.serveWrite, hval']
    exact ⟨fun u hu => by rw [show (At s m tr t).doWrite k r v 0 hd = _ from hu]; rfl,
      fun e he => by rw [show (At s m tr t).doWrite k r v 0 hd = _ from he]; rfl⟩
  | linear =>
    have hserve : s.rst.serve = .full := htaken
    have hrights' : (s.upto t).rightsErr 1 k = none := hrights
    have hall' : (s.upto t).allowed r k v = true := hall
    simp only [serveOwn, State.upto_rst, hserve, reduceCtorEq, if_false, State.linearWrite, hrights', hrow, hfixed rfl, hdec,
      hall', Bool.not_true, Bool.false_eq_true]
    exact ⟨fun u hu => by rw [show (s.upto t).doWrite k r v 0 hd = _ from hu]; rfl,
      fun e he => by rw [show (s.upto t).doWrite k r v 0 hd = _ from he]; rfl⟩

theorem decodeVal_fixed {ty : ObjType} {l : List Byte} {v : Val} (hty : ty.fixed = true) (h : decodeVal ty l = some v) :
    v = .num (leNat l) := by
  rw [decodeVal, if_pos hty] at h
  split at h
  case isTrue => exact (Option.some.inj h).symm
  case isFalse => cases h

/-- The same of a number that the store keeps: its chapter looks at it once it is stored. -/
theorem serveOwn_kept {q : Req} {k : Nat} {val : List Byte} {s : State} {r : Row} (hadm : Admitted q k val s)
    (hrow : rowOf k = some r) (hty : r.ty.fixed = true) (hacc : r.acc = .rwp) (hpers : r.pers = true) (hd : Handler) :
    (∀ u, hd (.num (leNat val)) ((Arrived q s).setNum k (leNat val)) = .ok u →
      serveOwn q k val hd s = Replied q k (u.persist k)) ∧
    (∀ e, hd (.num (leNat val)) ((Arrived q s).setNum k (leNat val)) = .error e →
      serveOwn q k val hd s = Denied q k e (Arrived q s)) := by
  obtain ⟨r', v, hrow', hdec, hok, herr⟩ := serveOwn_admitted hadm hd
  obtain rfl := Option.some.inj (hrow'.symm.trans hrow)
  obtain rfl := decodeVal_fixed hty hdec
  have happly : (Arrived q s).applyVal r' k (.num (leNat val)) 0 = (Arrived q s).setNum k (leNat val) :=
    State.applyVal_parameter _ _ _ _ _ (.inr hacc)
  exact ⟨fun u hu => hok _ (by simp [State.doWrite, happly, hu, hacc, hpers]),
    fun e he => herr e (by simp [State.doWrite, happly, he])⟩

/-! ## What a change of operating point reaches (R253, R254) -/

/-- Nothing changes but these objects, the events that they raise, the cabinets still to change and their register sets. -/
def Repoints (l : List Nat) (s u : State) : Prop :=
  u = { s with
    obj := u.obj
    dict := { s.dict with queues := u.dict.queues }
    mm := { s.mm with changing := u.mm.changing, sets := u.mm.sets } } ∧ KeepsObjects l s u

theorem ChangesOnly.repoints {l : List Nat} {s u : State} (h : ChangesOnly l s u) : Repoints l s u := by
  obtain ⟨hu, hk⟩ := h
  refine ⟨?_, hk⟩
  rw [hu]

namespace Repoints

variable {l l' : List Nat} {s t u : State}

theorem trans (h₁ : Repoints l s t) (h₂ : Repoints l t u) : Repoints l s u := by
  obtain ⟨ht, hk₁⟩ := h₁
  obtain ⟨hu, hk₂⟩ := h₂
  refine ⟨hu.trans ?_, hk₁.trans hk₂⟩
  rw [ht]

theorem mono (h : Repoints l s u) (hl : l ⊆ l') : Repoints l' s u := ⟨h.1, h.2.mono hl⟩

section

variable (h : Repoints l s t) {k : Nat} (hk : k ∈ l)
include h hk

theorem setNum (n : Nat) : Repoints l s (t.setNum k n) :=
  h.trans ((State.setNum_changes k n t).repoints.mono (by simpa using hk))
theorem bump (n : Nat) : Repoints l s (t.bump k n) :=
  h.trans ((State.bump_changes k n t).repoints.mono (by simpa using hk))
theorem setState (v : Nat) : Repoints l s (t.setState k v) :=
  h.trans ((State.setState_changes k v t).repoints.mono (by simpa using hk))
theorem setFlag (b : Nat) : Repoints l s (t.setFlag k b) :=
  h.trans ((State.setFlag_changes k b t).repoints.mono (by simpa using hk))

end

theorem mem (h : Repoints l s u) : u.mem = s.mem := by rw [h.1]
theorem tiles (h : Repoints l s u) : u.tiles = s.tiles := by rw [h.1]
theorem streams (h : Repoints l s u) : u.streams = s.streams := by rw [h.1]

theorem num (h : Repoints l s u) {k : Nat} (hk : k ∉ l) (hm : k % 256 ≠ 0x12) : u.num k = s.num k :=
  h.2.num hk (ne_eventsDropped hm)

end Repoints

namespace State

theorem pointSets_congr {s u : State} (h : u.mm.sets = s.mm.sets) (c : Nat) : u.pointSets c = s.pointSets c := by
  rw [pointSets, h, pointSets]

theorem pointSets_setSets_self (c : Nat) (v : List Byte × List Byte) (s : State) : (s.setSets c v).pointSets c = v := by
  simp [pointSets, setSets, Tab.get, Tab.find?_put_self]

theorem pointSets_setSets_ne {c d : Nat} (h : d ≠ c) (v : List Byte × List Byte) (s : State) :
    (s.setSets c v).pointSets d = s.pointSets d := by
  simp [pointSets, setSets, Tab.get, Tab.find?_put_ne _ _ _ _ h]

theorem setSets_repoints (l : List Nat) (c : Nat) (v : List Byte × List Byte) (s : State) : Repoints l s (s.setSets c v) :=
  ⟨rfl, fun _ _ _ => rfl⟩

theorem changing_repoints (l r : List Nat) (s : State) : Repoints l s { s with mm := { s.mm with changing := r } } :=
  ⟨rfl, fun _ _ _ => rfl⟩

/-! ## The next cabinet (R254) -/

theorem nextChange_skip {l : List Nat} {s : State} (h : ∀ e ∈ l, s.num (Obj.gddrCabinetState + e) ≠ 2) (r : List Nat) :
    s.nextChange (l ++ r) = s.nextChange r := by
  induction l with
  | nil => rfl
  | cons e l ih =>
    obtain ⟨he, hl⟩ := List.forall_mem_cons.1 h
    rw [List.cons_append, nextChange, if_pos he, ih hl]

/-- The objects that change with the last cabinet. -/
def pointKeys : List Nat :=
  [Obj.activeOperatingPoint, Obj.changingCabinet, Obj.operatingPointChanges, Obj.changeState, Obj.gddrFlags]

theorem nextChange_nil (s : State) :
    let u := s.nextChange []
    u.mm.changing = [] ∧ u.num Obj.changingCabinet = 0xFF ∧ u.num Obj.changeState = 0 ∧
      u.num Obj.activeOperatingPoint = s.num Obj.operatingPoint ∧ Counted Obj.operatingPointChanges 1 s u ∧
      u.num Obj.gddrFlags = s.num Obj.gddrFlags ||| 2 ∧ u.mm.sets = s.mm.sets ∧ Repoints pointKeys s u := by
  let a : State := { s with mm := { s.mm with changing := [] } }
  let b := ((a.setNum Obj.activeOperatingPoint (a.num Obj.operatingPoint)).setNum Obj.changingCabinet 0xFF).bump
    Obj.operatingPointChanges 1
  have hb (k : Nat) (h₁ : k ≠ Obj.activeOperatingPoint) (h₂ : k ≠ Obj.changingCabinet) (h₃ : k ≠ Obj.operatingPointChanges) :
      b.num k = s.num k := by
    rw [num_bump_ne _ _ _ _ h₃, num_setNum_ne _ _ _ _ h₂, num_setNum_ne _ _ _ _ h₁]
    rfl
  have hu (k : Nat) (hm : k % 256 ≠ 0x12) (h₁ : k ≠ Obj.changeState) (h₂ : k ≠ Obj.gddrFlags) :
      ((b.setState Obj.changeState 0).setFlag Obj.gddrFlags 2).num k = b.num k := by
    rw [num_setFlag_ne _ _ _ _ (quiet_of_mod hm) h₂, num_setState_ne _ _ _ _ (quiet_of_mod hm) h₁]
  have hmm : ((b.setState Obj.changeState 0).setFlag Obj.gddrFlags 2).mm = a.mm := by rw [setFlag_mm, setState_mm]; rfl
  refine ⟨congrArg MmState.changing hmm, ?_, ?_, ?_, ?_, ?_, (congrArg MmState.sets hmm).trans rfl, ?_⟩
  · refine (hu _ (by decide) (by decide) (by decide)).trans ?_
    rw [num_bump_ne _ _ _ _ (by decide), num_setNum_self]
  · exact (num_setFlag_ne _ _ _ _ (quiet_of_mod (by decide)) (by decide)).trans
      (num_setState_self _ _ _ (quiet_of_mod (by decide)))
  · refine (hu _ (by decide) (by decide) (by decide)).trans ?_
    rw [num_bump_ne _ _ _ _ (by decide), num_setNum_ne _ _ _ _ (by decide), num_setNum_self]
    rfl
  · refine (hu _ (by decide) (by decide) (by decide)).trans ?_
    rw [num_bump_self, num_setNum_ne _ _ _ _ (by decide), num_setNum_ne _ _ _ _ (by decide)]
    rfl
  · refine (num_setFlag_self _ _ _ (quiet_of_mod (by decide))).trans ?_
    rw [num_setState_ne _ _ _ _ (quiet_of_mod (by decide)) (by decide), hb _ (by decide) (by decide) (by decide)]
  · have hb' : Repoints pointKeys s b :=
      (((changing_repoints pointKeys [] s).setNum (by decide) _).setNum (by decide) _).bump (by decide) _
    exact (hb'.setState (by decide) _).setFlag (by decide) _

theorem nextChange_ready {c : Nat} {s : State} (hc : c < 8) (hready : s.num (Obj.gddrCabinetState + c) = 2) (r : List Nat) :
    let u := s.nextChange (c :: r)
    u.mm.changing = c :: r ∧ u.num Obj.changingCabinet = c ∧ u.num (Obj.gddrCabinetState + c) = 3 ∧
      u.pointSets c = ((s.pointSets c).1, Config.pointRecord c (pointBit (s.num Obj.operatingPoint))) ∧
      (∀ d, d ≠ c → u.pointSets d = s.pointSets d) ∧
      Repoints [Obj.changingCabinet, Obj.gddrCabinetState + c] s u := by
  intro u
  let v := ((s.pointSets c).1, Config.pointRecord c (pointBit (s.num Obj.operatingPoint)))
  let a : State := { s.setSets c v with mm := { (s.setSets c v).mm with changing := c :: r } }
  let b := a.setNum Obj.changingCabinet c
  have hu : u = b.setState (Obj.gddrCabinetState + c) 3 := if_neg (not_not.2 hready)
  have hmm : u.mm = a.mm := by rw [hu, setState_mm]; rfl
  have hm : (Obj.gddrCabinetState + c) % 256 ≠ 0x12 := element_mod hc (by decide)
  have hne : Obj.changingCabinet ≠ Obj.gddrCabinetState + c := (Nat.lt_add_right c (by decide)).ne
  refine ⟨congrArg MmState.changing hmm, ?_, ?_, ?_, fun d hd => ?_, ?_⟩
  · rw [hu, num_setState_ne _ _ _ _ (quiet_of_mod (by decide)) hne, num_setNum_self]
  · rw [hu, num_setState_self _ _ _ (quiet_of_mod hm)]
  · exact (pointSets_congr (congrArg MmState.sets hmm) c).trans (pointSets_setSets_self c v s)
  · exact (pointSets_congr (congrArg MmState.sets hmm) d).trans (pointSets_setSets_ne hd v s)
  · rw [hu]
    have ha := (setSets_repoints [Obj.changingCabinet, Obj.gddrCabinetState + c] c v s).trans (changing_repoints _ (c :: r) _)
    exact (ha.setNum (by simp) _).setState (by simp) _

/-- Whichever cabinet is next, or none: what changes is the change's own, and the cabinets left out stand. -/
theorem nextChange_spec {l : List Nat} (hl : ∀ e ∈ l, e < 8) (s : State) :
    Repoints (pointKeys ++ l.map (Obj.gddrCabinetState + ·)) s (s.nextChange l) ∧
      ∀ c, c ∉ l → (s.nextChange l).pointSets c = s.pointSets c := by
  induction l with
  | nil =>
    obtain ⟨-, -, -, -, -, -, hsets, hrep⟩ := nextChange_nil s
    exact ⟨hrep.mono (by simp), fun c _ => pointSets_congr hsets c⟩
  | cons e r ih =>
    obtain ⟨he, hr⟩ := List.forall_mem_cons.1 hl
    by_cases hready : s.num (Obj.gddrCabinetState + e) = 2
    case pos =>
      obtain ⟨-, -, -, -, hsets, hrep⟩ := nextChange_ready he hready r
      exact ⟨hrep.mono (by simp [pointKeys]), fun c hc => hsets c (List.ne_of_not_mem_cons hc)⟩
    case neg =>
      obtain ⟨hrep, hsets⟩ := ih hr
      have hskip : s.nextChange (e :: r) = s.nextChange r := if_pos hready
      rw [hskip]
      exact ⟨hrep.mono (by simp), fun c hc => hsets c (List.not_mem_of_not_mem_cons hc)⟩

end State

/-! ## OPERATING_POINT_WRITE (R253) -/

/-- A point is available. -/
def State.pointAvailable (s : State) (v : Nat) : Prop := s.num Obj.availablePoints / 2 ^ pointBit v % 2 = 1

/-- A change of operating point is refused. -/
def State.pointHeld (s : State) : Prop :=
  (∃ p ∈ s.streams, p.2.desc.rt = true) ∨ s.num Obj.stepMode = 1 ∨ s.num Obj.changeState = 1

theorem writeOperatingPoint_unavailable {s : State} {n : Nat} (h : ¬ s.pointAvailable n) :
    writeOperatingPoint (.num n) s = .error Err.outOfRange := by
  have hbit : (s.num Obj.availablePoints).testBit (pointBit n) = false := by
    rw [Nat.testBit_eq_decide_div_mod_eq]
    exact decide_eq_false h
  simp [writeOperatingPoint, Val.toNat, hbit]

/-- An available point is taken unless something holds the change off. -/
theorem writeOperatingPoint_available {s : State} {n : Nat} (h : s.pointAvailable n) :
    (s.pointHeld → writeOperatingPoint (.num n) s = .error Err.refusedInState) ∧
      (¬ s.pointHeld → writeOperatingPoint (.num n) s = .ok ((s.setState Obj.changeState 1).nextChange (List.range 8))) := by
  have hbit : (s.num Obj.availablePoints).testBit (pointBit n) = true := by
    rw [Nat.testBit_eq_decide_div_mod_eq]
    exact decide_eq_true h
  have hheld : ((s.streams.any fun (_, m) => m.desc.rt) || decide (s.num Obj.stepMode = 1) ||
      decide (s.num Obj.changeState = 1)) = true ↔ s.pointHeld := by
    simp only [Bool.or_eq_true, List.any_eq_true, decide_eq_true_eq, State.pointHeld, or_assoc]
  constructor
  · intro hp
    simp only [writeOperatingPoint, Val.toNat, hbit, hheld.2 hp, Bool.not_true, Bool.false_eq_true, if_false, if_true]
  · intro hp
    simp only [writeOperatingPoint, Val.toNat, hbit, Bool.not_true, Bool.false_eq_true, if_false]
    rw [if_neg (fun h => hp (hheld.1 h))]

/-- The state in which an operating point that is written is looked at: as the write arrives, the value stored. -/
def pointWritten (q : Req) (n : Nat) (s : State) : State := (Arrived q s).setNum Obj.operatingPoint n

theorem num_pointWritten (q : Req) (n : Nat) {k : Nat} (s : State) (h : k ≠ Obj.operatingPoint) :
    (pointWritten q n s).num k = s.num k := by
  rw [pointWritten, State.num_setNum_ne _ _ _ _ h, arrived_eq]
  rfl

/-- A write of a point keeps everything but the dictionary, its value and the clock. -/
theorem pointWritten_keeps (q : Req) (n : Nat) (s : State) :
    (pointWritten q n s).mem = s.mem ∧ (pointWritten q n s).tiles = s.tiles ∧ (pointWritten q n s).streams = s.streams ∧
      (pointWritten q n s).mm = s.mm := by
  rw [pointWritten, arrived_eq]
  exact ⟨rfl, rfl, rfl, rfl⟩

theorem pointAvailable_written (q : Req) (n v : Nat) (s : State) :
    (pointWritten q n s).pointAvailable v ↔ s.pointAvailable v := by
  rw [State.pointAvailable, num_pointWritten _ _ _ (by decide), State.pointAvailable]

theorem pointHeld_written (q : Req) (n : Nat) (s : State) : (pointWritten q n s).pointHeld ↔ s.pointHeld := by
  obtain ⟨-, -, hstreams, -⟩ := pointWritten_keeps q n s
  rw [State.pointHeld, hstreams, num_pointWritten _ _ _ (by decide), num_pointWritten _ _ _ (by decide), State.pointHeld]

theorem execOperatingPointWrite_cases {q : Req} {val : List Byte} {s : State} (hadm : Admitted q Obj.operatingPoint val s) :
    (¬ s.pointAvailable (leNat val) → execOperatingPointWrite q val s =
      .next (Denied q Obj.operatingPoint Err.outOfRange (Arrived q s))) ∧
    (s.pointAvailable (leNat val) → s.pointHeld → execOperatingPointWrite q val s =
      .next (Denied q Obj.operatingPoint Err.refusedInState (Arrived q s))) ∧
    (s.pointAvailable (leNat val) → ¬ s.pointHeld → execOperatingPointWrite q val s =
      .next (Replied q Obj.operatingPoint ((((pointWritten q (leNat val) s).setState Obj.changeState 1).nextChange
        (List.range 8)).persist Obj.operatingPoint))) := by
  have hrow : rowOf Obj.operatingPoint =
    some ⟨0x410001, 1, 1, 0, .u8, .rwp, true, false, .num 40, .oneOf [28, 32, 36, 40]⟩ := by rfl
  obtain ⟨hok, herr⟩ := serveOwn_kept hadm hrow rfl rfl rfl writeOperatingPoint
  rw [← pointAvailable_written q (leNat val), ← pointHeld_written q (leNat val)]
  exact ⟨fun ha => congrArg _ (herr _ (writeOperatingPoint_unavailable ha)),
    fun ha hh => congrArg _ (herr _ ((writeOperatingPoint_available ha).1 hh)),
    fun ha hh => congrArg _ (hok _ ((writeOperatingPoint_available ha).2 hh))⟩

/-! ## CABINET_POINT_CHANGE_DONE (R254) -/

/-- A cabinet's shadow sets become its active ones, and it is Ready. -/
def State.pointActive (c : Nat) (s : State) : State :=
  (s.setSets c ((s.pointSets c).2, (s.pointSets c).1)).setState (Obj.gddrCabinetState + c) 2

theorem execCabinetPointChangeDone_idle {s : State} (h : s.mm.changing = []) : execCabinetPointChangeDone s = .next s := by
  simp [execCabinetPointChangeDone, h]

theorem execCabinetPointChangeDone_waits {s : State} {c : Cab} {k : Fin 24} {r : List Nat} (h : s.mm.changing = c.val :: r)
    (hk : (s.chan c k).queue ≠ []) : execCabinetPointChangeDone s = .next s := by
  have hdrained : ((List.range 24).all fun k => (s.chan c k).queue.isEmpty) = false := by
    refine List.all_eq_false.2 ⟨k, List.mem_range.2 k.isLt, ?_⟩
    simpa using hk
  simp [execCabinetPointChangeDone, h, hdrained]

theorem execCabinetPointChangeDone_drained {s : State} {c : Cab} {r : List Nat} (h : s.mm.changing = c.val :: r)
    (hchanging : s.num (Obj.gddrCabinetState + c) = 3) (hk : ∀ k : Fin 24, (s.chan c k).queue = []) :
    execCabinetPointChangeDone s = .next ((s.pointActive c).nextChange r) := by
  have hdrained : ((List.range 24).all fun k => (s.chan c k).queue.isEmpty) = true := by
    refine List.all_eq_true.2 fun k hmem => ?_
    rw [hk ⟨k, List.mem_range.1 hmem⟩]
    rfl
  simp only [execCabinetPointChangeDone, h, hdrained, hchanging, Bool.not_true, Bool.false_eq_true, if_false, if_true]
  rfl

theorem pointActive_spec (c : Cab) (s : State) :
    (s.pointActive c).num (Obj.gddrCabinetState + c) = 2 ∧
      (s.pointActive c).pointSets c = ((s.pointSets c).2, (s.pointSets c).1) ∧
      (∀ d, d ≠ c.val → (s.pointActive c).pointSets d = s.pointSets d) ∧
      Repoints [Obj.gddrCabinetState + c] s (s.pointActive c) := by
  have hmm : (s.pointActive c).mm = (s.setSets c ((s.pointSets c).2, (s.pointSets c).1)).mm := State.setState_mm _ _ _
  refine ⟨State.num_setState_self _ _ _ (quiet_of_mod (element_mod c.isLt (by decide))), ?_, fun d hd => ?_, ?_⟩
  · exact (State.pointSets_congr (congrArg MmState.sets hmm) c).trans (State.pointSets_setSets_self _ _ _)
  · exact (State.pointSets_congr (congrArg MmState.sets hmm) d).trans (State.pointSets_setSets_ne hd _ _)
  · exact (State.setSets_repoints _ _ _ s).setState (by simp) _

/-! ## The clauses -/

namespace State

/-- The first Ready cabinet is the one that changes, and those behind it are to follow. -/
theorem nextChange_first {c : Cab} {s : State} (hready : s.num (Obj.gddrCabinetState + c) = 2)
    (hfirst : ∀ d < c, s.num (Obj.gddrCabinetState + d) ≠ 2) :
    let u := s.nextChange (List.range 8)
    u.mm.changing = (List.range 8).drop c ∧ u.num Obj.changingCabinet = c ∧ u.num (Obj.gddrCabinetState + c) = 3 ∧
      u.pointSets c = ((s.pointSets c).1, Config.pointRecord c (pointBit (s.num Obj.operatingPoint))) ∧
      Repoints [Obj.changingCabinet, Obj.gddrCabinetState + c] s u := by
  have hdrop : (List.range 8).drop c = c.val :: (List.range 8).drop (c + 1) := by
    rw [List.drop_eq_getElem_cons (by simp), List.getElem_range]
  have hskip : s.nextChange (List.range 8) = s.nextChange (c.val :: (List.range 8).drop (c + 1)) := by
    conv_lhs => rw [← List.take_append_drop c (List.range 8), hdrop]
    refine nextChange_skip (fun e he => ?_) _
    rw [List.take_range, List.mem_range] at he
    exact hfirst ⟨e, by omega⟩ (show e < c.val by omega)
  rw [hskip, hdrop]
  obtain ⟨hchanging, hcabinet, hthree, hsets, -, hrep⟩ := nextChange_ready c.isLt hready ((List.range 8).drop (c + 1))
  exact ⟨hchanging, hcabinet, hthree, hsets, hrep⟩

theorem nextChange_none {s : State} (h : ∀ c : Cab, s.num (Obj.gddrCabinetState + c) ≠ 2) :
    s.nextChange (List.range 8) = s.nextChange [] := by
  conv_lhs => rw [← List.append_nil (List.range 8)]
  exact nextChange_skip (fun e he => h ⟨e, List.mem_range.1 he⟩) []

end State

/-- A change that begins: the point is stored, and the first Ready cabinet changes. -/
def pointTaken (q : Req) (n : Nat) (s : State) : State := (pointWritten q n s).setState Obj.changeState 1

theorem num_pointTaken (q : Req) (n : Nat) {k : Nat} (s : State) (h : k ≠ Obj.operatingPoint) (h' : k ≠ Obj.changeState)
    (hm : k % 256 ≠ 0x12) : (pointTaken q n s).num k = s.num k := by
  rw [pointTaken, State.num_setState_ne _ _ _ _ (quiet_of_mod hm) h', num_pointWritten _ _ _ h]

theorem num_pointTaken_cabinet (q : Req) (n : Nat) {e : Nat} (s : State) (he : e < 8) :
    (pointTaken q n s).num (Obj.gddrCabinetState + e) = s.num (Obj.gddrCabinetState + e) := by
  have hlow : Obj.changeState < Obj.gddrCabinetState + e := Nat.lt_add_right e (by decide)
  have hlow' : Obj.operatingPoint < Obj.gddrCabinetState + e := Nat.lt_add_right e (by decide)
  exact num_pointTaken q n s hlow'.ne' hlow.ne' (element_mod he (by decide))

theorem pointTaken_spec (q : Req) (n : Nat) (s : State) :
    let u := pointTaken q n s
    u.num Obj.operatingPoint = n ∧ u.num Obj.changeState = 1 ∧ u.mem = s.mem ∧ u.tiles = s.tiles ∧ u.streams = s.streams ∧
      u.mm = s.mm := by
  obtain ⟨hmem, htiles, hstreams, hmm⟩ := pointWritten_keeps q n s
  refine ⟨?_, State.num_setState_self _ _ _ (quiet_of_mod (by decide)), (State.setState_mem _ _ _).trans hmem,
    (State.setState_tiles _ _ _).trans htiles, (State.setState_streams _ _ _).trans hstreams,
    (State.setState_mm _ _ _).trans hmm⟩
  rw [pointTaken, State.num_setState_ne _ _ _ _ (quiet_of_mod (by decide)) (by decide), pointWritten, State.num_setNum_self]

/-- A cabinet's state lies above the objects of a list below it. -/
theorem cabinet_not_mem {l : List Nat} (h : ∀ k ∈ l, k < Obj.gddrCabinetState) (c : Nat) : Obj.gddrCabinetState + c ∉ l :=
  fun hmem => absurd (h _ hmem) (Nat.not_lt.2 (Nat.le_add_right _ _))

/-- Queueing a record keeps all but what the store counts. -/
theorem persist_keeps (k : Nat) (s : State) :
    (∀ j, j ∉ queueKeys → j % 256 ≠ 0x12 → (s.persist k).num j = s.num j) ∧ (s.persist k).mem = s.mem ∧
      (s.persist k).tiles = s.tiles ∧ (s.persist k).streams = s.streams ∧ (s.persist k).mm = s.mm := by
  have h := State.queueRecord_stores (oneRec k (s.val k)) s
  refine ⟨fun j hj hm => h.num hj hm, h.mem, h.tiles, ?_, ?_⟩ <;> rw [State.persist, h.1] <;> rfl

/-- The state that a point taken leaves: with a Ready cabinet the first changes, with none the change is complete. -/
theorem pointTaken_begins (q : Req) (n : Nat) (s : State) :
    let t := ((pointTaken q n s).nextChange (List.range 8)).persist Obj.operatingPoint
    t.num Obj.operatingPoint = n ∧ t.mem = s.mem ∧ t.tiles = s.tiles ∧ t.streams = s.streams ∧
      (∀ c : Cab, s.num (Obj.gddrCabinetState + c) = 2 → (∀ d < c, s.num (Obj.gddrCabinetState + d) ≠ 2) →
        t.num Obj.changeState = 1 ∧ t.num Obj.changingCabinet = c ∧ t.num (Obj.gddrCabinetState + c) = 3 ∧
        t.mm.changing = (List.range 8).drop c ∧ t.pointSets c = ((s.pointSets c).1, Config.pointRecord c (pointBit n)) ∧
        t.num Obj.activeOperatingPoint = s.num Obj.activeOperatingPoint) ∧
      ((∀ c : Cab, s.num (Obj.gddrCabinetState + c) ≠ 2) →
        t.num Obj.changeState = 0 ∧ t.num Obj.activeOperatingPoint = n ∧
        t.num Obj.gddrFlags = s.num Obj.gddrFlags ||| 2) := by
  obtain ⟨hpoint, hstate, hmem, htiles, hstreams, hmm⟩ := pointTaken_spec q n s
  have hcab (c : Cab) := num_pointTaken_cabinet q n s c.isLt
  have hother {k : Nat} := num_pointTaken q n (k := k) s
  have hsets₀ (c : Nat) := State.pointSets_congr (congrArg MmState.sets hmm) c
  generalize pointTaken q n s = b at *
  obtain ⟨hrep, -⟩ := State.nextChange_spec (l := List.range 8) (fun e he => List.mem_range.1 he) b
  have hfirst {c : Cab} := State.nextChange_first (c := c) (s := b)
  have hnone := State.nextChange_none (s := b)
  generalize b.nextChange (List.range 8) = d at *
  obtain ⟨hnum, hmem', htiles', hstreams', hmm'⟩ := persist_keeps Obj.operatingPoint d
  refine ⟨?_, hmem'.trans (hrep.mem.trans hmem), htiles'.trans (hrep.tiles.trans htiles),
    hstreams'.trans (hrep.streams.trans hstreams), fun c hready hbefore => ?_, fun hno => ?_⟩
  · rw [hnum _ (by decide) (by decide), hrep.num (by decide) (by decide), hpoint]
  · obtain ⟨hchanging, hcabinet, hthree, hsets, hrep'⟩ := hfirst ((hcab c).trans hready) fun e he => hcab e ▸ hbefore e he
    have hkeeps {k : Nat} (hk : k < Obj.changingCabinet) (hm : k % 256 ≠ 0x12) : d.num k = b.num k := by
      have hk' : k < Obj.gddrCabinetState + c := (hk.trans (by decide)).trans_le (Nat.le_add_right _ _)
      exact hrep'.num (by simp [hk.ne, hk'.ne]) hm
    refine ⟨?_, ?_, ?_, ?_, ?_, ?_⟩
    · rw [hnum _ (by decide) (by decide), hkeeps (by decide) (by decide), hstate]
    · rw [hnum _ (by decide) (by decide), hcabinet]
    · rw [hnum _ (cabinet_not_mem (by decide) _) (element_mod c.isLt (by decide)), hthree]
    · rw [hmm', hchanging]
    · rw [State.pointSets_congr (congrArg MmState.sets hmm'), hsets, hsets₀, hpoint]
    · rw [hnum _ (by decide) (by decide), hkeeps (by decide) (by decide), hother (by decide) (by decide) (by decide)]
  · obtain ⟨-, -, hidle, hactive, -, hflags, -, -⟩ := State.nextChange_nil b
    rw [← hnone fun c => (hcab c) ▸ hno c] at hidle hactive hflags
    refine ⟨?_, ?_, ?_⟩
    · rw [hnum _ (by decide) (by decide), hidle]
    · rw [hnum _ (by decide) (by decide), hactive, hpoint]
    · rw [hnum _ (by decide) (by decide), hflags, hother (by decide) (by decide) (by decide)]

/-- A cabinet done is Ready with its new register sets whoever is next, and the next Ready one changes, or the change is
complete. -/
theorem pointActive_goesOn {s : State} {c : Cab} {l r : List Nat} (hc : c.val ∉ l ++ r) (hlt : ∀ e ∈ l ++ r, e < 8)
    (hl : ∀ e ∈ l, s.num (Obj.gddrCabinetState + e) ≠ 2) :
    let u := (s.pointActive c).nextChange (l ++ r)
    u.num (Obj.gddrCabinetState + c) = 2 ∧ u.pointSets c = ((s.pointSets c).2, (s.pointSets c).1) ∧
      (∀ d r', r = d :: r' → s.num (Obj.gddrCabinetState + d) = 2 →
        u.mm.changing = r ∧ u.num Obj.changingCabinet = d ∧ u.num (Obj.gddrCabinetState + d) = 3 ∧
        u.pointSets d = ((s.pointSets d).1, Config.pointRecord d (pointBit (s.num Obj.operatingPoint))) ∧
        u.num Obj.changeState = s.num Obj.changeState ∧
        u.num Obj.activeOperatingPoint = s.num Obj.activeOperatingPoint) ∧
      (r = [] → u.mm.changing = [] ∧ u.num Obj.changingCabinet = 0xFF ∧ u.num Obj.changeState = 0 ∧
        u.num Obj.activeOperatingPoint = s.num Obj.operatingPoint ∧ Counted Obj.operatingPointChanges 1 s u ∧
        u.num Obj.gddrFlags = s.num Obj.gddrFlags ||| 2) ∧
      Repoints (State.pointKeys ++ (c.val :: (l ++ r)).map (Obj.gddrCabinetState + ·)) s u := by
  obtain ⟨htwo, hsets, hsets₀, hrep₀⟩ := pointActive_spec c s
  have hkeeps {k : Nat} (hk : k < Obj.gddrCabinetState) (hm : k % 256 ≠ 0x12) : (s.pointActive c).num k = s.num k :=
    hrep₀.num (by simpa using (hk.trans_le (Nat.le_add_right _ _)).ne) hm
  have hcab {e : Nat} (he : e ∈ l ++ r) :
      (s.pointActive c).num (Obj.gddrCabinetState + e) = s.num (Obj.gddrCabinetState + e) := by
    refine hrep₀.num (fun hmem => hc ?_) (element_mod (hlt e he) (by decide))
    rwa [← Nat.add_left_cancel (List.mem_singleton.1 hmem)]
  have hskip : (s.pointActive c).nextChange (l ++ r) = (s.pointActive c).nextChange r :=
    State.nextChange_skip (fun e he => hcab (List.mem_append_left r he) ▸ hl e he) r
  have hcr : c.val ∉ r := fun h => hc (List.mem_append_right l h)
  obtain ⟨hrep, hothers⟩ := State.nextChange_spec (fun e he => hlt e (List.mem_append_right l he)) (s.pointActive c)
  rw [hskip]
  refine ⟨?_, (hothers c hcr).trans hsets, ?_, ?_, ?_⟩
  · refine (hrep.num ?_ (element_mod c.isLt (by decide))).trans htwo
    have := cabinet_not_mem (l := State.pointKeys) (by decide) c
    simpa [this] using hcr
  · rintro d r' rfl hready
    have hd : d ∈ l ++ d :: r' := by simp
    have hne : d ≠ c.val := fun h => hc (h ▸ hd)
    obtain ⟨hchanging, hcabinet, hthree, hd', -, hrep'⟩ :=
      State.nextChange_ready (hlt d hd) ((hcab hd).trans hready) r'
    have hlow {k : Nat} (hk : k < Obj.changingCabinet) (hm : k % 256 ≠ 0x12) :
        ((s.pointActive c).nextChange (d :: r')).num k = s.num k := by
      have hk' : k < Obj.gddrCabinetState := hk.trans (by decide)
      exact (hrep'.num (by simp [hk.ne, (hk'.trans_le (Nat.le_add_right _ d)).ne]) hm).trans (hkeeps hk' hm)
    refine ⟨hchanging, hcabinet, hthree, ?_, hlow (by decide) (by decide), hlow (by decide) (by decide)⟩
    rw [hd', hsets₀ d hne, hkeeps (by decide) (by decide)]
  · rintro rfl
    obtain ⟨hchanging, hcabinet, hidle, hactive, hcount, hflags, -, -⟩ := State.nextChange_nil (s.pointActive c)
    rw [hkeeps (by decide) (by decide)] at hactive hflags
    rw [Counted, hkeeps (by decide) (by decide)] at hcount
    exact ⟨hchanging, hcabinet, hidle, hactive, hcount, hflags⟩
  · refine (hrep₀.mono (by simp)).trans (hrep.mono fun k hk => ?_)
    simp only [List.map_cons, List.map_append, List.mem_append, List.mem_cons] at hk ⊢
    tauto

/-- Settles O33: a write that is taken begins with `nextChange` over all cabinets, a cabinet done goes on with it over those
that follow, and `nextChange_first`, `nextChange_ready` and `nextChange_nil` say what that leaves. -/
theorem operatingPointChanges : Obligations.OperatingPointChanges := by
  refine ⟨?_, ?_, ?_, ?_, ?_⟩
  · intro s q val hadm havail hrt hmode hidle
    have hfree : ¬ s.pointHeld := by
      rintro (⟨p, hp, hprt⟩ | h | h)
      · exact Bool.false_ne_true ((hrt p hp).symm.trans hprt)
      · exact hmode h
      · exact hidle h
    exact ⟨_, (execOperatingPointWrite_cases hadm).2.2 havail hfree, pointTaken_begins q (leNat val) s⟩
  · exact fun s q val hadm havail hheld => (execOperatingPointWrite_cases hadm).2.1 havail hheld
  · intro s q val hadm hbit
    refine (execOperatingPointWrite_cases hadm).1 fun havail => ?_
    exact absurd (hbit.symm.trans havail) (by decide)
  · rintro s c r k (hidle | ⟨hchanging, hk⟩)
    · exact execCabinetPointChangeDone_idle hidle
    · exact execCabinetPointChangeDone_waits hchanging hk
  · intro s c l r hchanging hstate hk hc hlt hl
    obtain ⟨htwo, hsets, hnext, hlast, hframe, -⟩ := pointActive_goesOn hc hlt hl
    exact ⟨_, execCabinetPointChangeDone_drained hchanging hstate hk, htwo, hsets, hnext, hlast, hframe⟩

end Sys2Proof.Machine

/-! PROOFS. CXL ports: O34. -/

namespace Sys2Proof.Machine

/-! ## Errors of a port and its link (R258, R269) -/

theorem execCxlReadResponse_clean (p : Fin 4) (tag : Nat) (data : List Byte) (s : State) :
    execCxlReadResponse p tag false data s = .next s := by
  simp [execCxlReadResponse]

theorem execCxlReadResponse_poison {s : State} {p : Fin 4} (tag : Nat) (data : List Byte)
    (h : s.num (Obj.cxlPortState + p) = 3) :
    execCxlReadResponse p tag true data s = .next ((s.bump Obj.poisonedReads 1).setFlag Obj.cxlFlags 1) := by
  simp [execCxlReadResponse, h]

theorem execCxlCompletionTimeout_configured {s : State} {p : Fin 4} (tag : Nat) (h : s.num (Obj.cxlPortState + p) = 3) :
    execCxlCompletionTimeout p tag s = .next ((s.bump Obj.completionTimeouts 1).setFlag Obj.cxlFlags 2) := by
  simp [execCxlCompletionTimeout, h]

/-- A port that was up is in Error, its link without width and rate. -/
def State.cxlDown (p : Nat) (s : State) : State :=
  ((s.setNum (Obj.cxlLinkWidth + p) 0).setNum (Obj.cxlLinkRate + p) 0).setState (Obj.cxlPortState + p) 4

theorem execCxlLinkDown_up {s : State} {p : Fin 4} (h0 : s.num (Obj.cxlPortState + p) ≠ 0)
    (h4 : s.num (Obj.cxlPortState + p) ≠ 4) : execCxlLinkDown p s = .next ((s.cxlDown p).setFlag Obj.cxlFlags 4) := by
  simp [execCxlLinkDown, h0, h4, State.cxlDown]

/-- The objects of a port lie apart, and apart from its flags. -/
theorem cxlPort_keys (p : Fin 4) : Obj.cxlPortState + p < Obj.cxlLinkWidth ∧ Obj.cxlLinkWidth + p < Obj.cxlLinkRate ∧
    Obj.cxlLinkRate + p < Obj.cxlFlags ∧ (Obj.cxlPortState + p) % 256 ≠ 0x12 ∧ (Obj.cxlLinkWidth + p) % 256 ≠ 0x12 ∧
    (Obj.cxlLinkRate + p) % 256 ≠ 0x12 :=
  ⟨element_lt p.isLt (by decide), element_lt p.isLt (by decide), element_lt p.isLt (by decide),
    element_mod p.isLt (by decide), element_mod p.isLt (by decide), element_mod p.isLt (by decide)⟩

theorem cxlDown_spec (p : Fin 4) (s : State) :
    (s.cxlDown p).num (Obj.cxlPortState + p) = 4 ∧ (s.cxlDown p).num (Obj.cxlLinkWidth + p) = 0 ∧
      (s.cxlDown p).num (Obj.cxlLinkRate + p) = 0 ∧
      ChangesOnly [Obj.cxlPortState + p, Obj.cxlLinkWidth + p, Obj.cxlLinkRate + p] s (s.cxlDown p) := by
  obtain ⟨hsw, hwr, -, hs, hw, hr⟩ := cxlPort_keys p
  unfold State.cxlDown
  refine ⟨State.num_setState_self _ _ _ (quiet_of_mod hs), ?_, ?_, ?_⟩
  · rw [State.num_setState_ne _ _ _ _ (quiet_of_mod hw) (by omega), State.num_setNum_ne _ _ _ _ (by omega),
      State.num_setNum_self]
  · rw [State.num_setState_ne _ _ _ _ (quiet_of_mod hr) (by omega), State.num_setNum_self]
  · exact (((State.setNum_changes _ _ _).mono (by simp)).trans ((State.setNum_changes _ _ _).mono (by simp))).trans
      ((State.setState_changes _ _ _).mono (by simp))

/-- Settles O34: an error of a Configured port is one count and one flag, and a link-down is `cxlDown` and one flag. -/
theorem cxlPortsReport : Obligations.CxlPortsReport := by
  refine ⟨fun s p tag data h => ⟨execCxlReadResponse_clean p tag data s,
    ⟨_, execCxlReadResponse_poison tag data h, counted_and_flagged 1 1 s (by decide) (by decide) (by decide)⟩,
    ⟨_, execCxlCompletionTimeout_configured tag h, counted_and_flagged 1 2 s (by decide) (by decide) (by decide)⟩⟩,
    fun s p h0 h4 => ⟨_, execCxlLinkDown_up h0 h4, ?_⟩⟩
  obtain ⟨hstate, hwidth, hrate, hchanges⟩ := cxlDown_spec p s
  obtain ⟨hsw, hwr, hrf, hs, hw, hr⟩ := cxlPort_keys p
  have hkeeps {k : Nat} (hk : k < Obj.cxlFlags) (hm : k % 256 ≠ 0x12) :
      ((s.cxlDown p).setFlag Obj.cxlFlags 4).num k = (s.cxlDown p).num k :=
    State.num_setFlag_ne _ _ _ _ (quiet_of_mod hm) hk.ne
  refine ⟨(hkeeps (by omega) hs).trans hstate, (hkeeps (by omega) hw).trans hwidth, (hkeeps (by omega) hr).trans hrate, ?_,
    (hchanges.mono (by simp)).trans ((State.setFlag_changes Obj.cxlFlags 4 _).mono (by simp))⟩
  have hflags : Obj.cxlFlags ∉ [Obj.cxlPortState + p, Obj.cxlLinkWidth + p, Obj.cxlLinkRate + p] := by
    simp only [List.mem_cons, List.not_mem_nil, or_false]
    omega
  rw [State.num_setFlag_self _ _ _ (quiet_of_mod (by decide)), hchanges.2.num hflags (ne_eventsDropped (by decide))]

end Sys2Proof.Machine

/-! PROOFS. Page faults: O35 fails. -/

namespace Sys2Proof.Machine

/-! ## Jobs listed out of order (R267, R311)

The memory service finds the job of an address space among all that are listed; the job service finds one by its number, in a
table that lists numbers rising. Nothing in a state's type keeps them so, and O35 does not ask for it: a job listed behind one
of a higher number is found by its address space alone. -/

/-- A page of address space 0, its backing in host memory, being copied into frame 0 of cabinet 0. -/
def copyingFault : PageFault := ⟨0, 0, 0, 0, .copying 0, false⟩

/-- The job that holds address space 0. -/
def mappedJob : JobS := { streamJob with mapped := true }

/-- The device with that fault and no host link; that job is number 1, listed behind number 2. -/
def jobsMisfiled : State :=
  { State.reset with
    jobs := { State.reset.jobs with jobs := [(2, streamJob), (1, mappedJob)] }
    mm := { State.reset.mm with faults := [copyingFault], backing := [(leafKey 0 0, 0x400000000000)] } }

/-- The backing fails, and no job 1 is found to end. -/
theorem answers_jobsMisfiled :
    Answers (exec (.migrationComplete 0 0 0 0 .ok []) jobsMisfiled) fun u => u.job 1 = none :=
  ⟨_, rfl, by decide⟩

/-- Refutes O35: its clause on backings that fail takes the job of the address space to be found by its number. In
`jobsMisfiled` it is not, and the job does not end. -/
theorem not_pageFaultsAreServed : ¬ Obligations.PageFaultsAreServed := by
  intro h
  obtain ⟨-, -, -, hcopy⟩ := h
  obtain ⟨-, -, hfails⟩ := hcopy jobsMisfiled 0 0 0 0 0 1 .ok [] copyingFault mappedJob rfl (by decide) (by decide)
  obtain ⟨u, ⟨-, -, -, hends⟩, hnone⟩ := (hfails (by decide) (by decide)).and answers_jobsMisfiled
  obtain ⟨hending, -⟩ := hends (by decide)
  rw [hnone] at hending
  cases hending

end Sys2Proof.Machine

/-! PROOFS. Rungs and re-admission: O37 fails. -/

namespace Sys2Proof.Machine

/-! ## A persistent fault of the spare itself (R276)

Where a shelf's spare is unused, ROW_REMOVAL fences the site of the fault and then gives the spare the code Pending. A
fault at the spare takes both codes, and the second stands: the site is not Fenced, and the row keeps 16 sites. -/

/-- The rung of a persistent fault of site 16 of shelf 2 in tile 0. -/
def spareRung : Rung := ⟨.site 0 2 16, FaultRec.device 0 1 1⟩

/-- Every site of tile 0 is in service, that rung waits, and a real-time drawer over row 0 bars rung 2. -/
def spareFaulty : State :=
  let s := State.reset.modDr 0 0 fun _ => { Drawer.none with st := .assigned, h := 1, w := 1, rt := true }
  { s with health := { s.health with rungs := [spareRung] } }

theorem fenceMap_spareFaulty : spareFaulty.bytes (Obj.tileFenceMap + (0 : Tile) / 150) = List.replicate 10220 0 := by rfl

/-- The faulty spare reads Pending. -/
theorem answers_spareFaulty :
    Answers (exec (.rowRemoval 0 0 2 16) spareFaulty) fun u => u.siteCode 0 2 16 = 2 :=
  ⟨_, rfl, by decide⟩

/-- Refutes O37: its clause on rung 3 lets the site of the fault be the shelf's unused spare. In `spareFaulty` that site
ends Pending, not Fenced. -/
theorem not_rungsAndReadmission : ¬ Obligations.RungsAndReadmission := by
  intro h
  obtain ⟨hfence, -⟩ := h
  obtain ⟨-, -, -, hremoved⟩ := hfence spareFaulty 0 0 2 16 spareRung (by decide) rfl
    (by rw [fenceMap_spareFaulty, List.length_replicate]) (by decide) (by decide) (by decide) (List.forall_mem_nil _)
  obtain ⟨u, ⟨hcode, -⟩, hpending⟩ := (hremoved (by decide) (by decide) (by decide)).and answers_spareFaulty
  exact absurd (hpending.symm.trans hcode) (by decide)

end Sys2Proof.Machine

/-! PROOFS. The loss of a cabinet: O46 fails. -/

namespace Sys2Proof.Machine

/-! ## A change of operating point that lists no cabinet (R254, R278)

The loss of the cabinet whose change is in progress passes the change on to the entries of `changing` behind it. An entry
that is no cabinet's number gives a key outside GddrCabinetState. -/

/-- The entry of `changing` whose key in GddrCabinetState is CabinetHealth of cabinet 1. -/
def healthEntry : Nat := 0x6F101

/-- The firmware serves, cabinet 1 is Recovering, and a change of operating point is at cabinet 0 with that entry next. -/
def changingBeyond : State :=
  { State.reset with
    rst := { State.reset.rst with exitDone := 10, serve := .full }
    obj := State.reset.obj.put (Obj.cabinetHealth + 1) (.num 2)
    mm := { State.reset.mm with changing := [0, healthEntry] } }

/-- The loss of cabinet 0 marks cabinet 1 Lost. -/
theorem answers_changingBeyond : Answers (exec (.cabinetLost 0 0 false) changingBeyond) fun u => u.lost 1 = true :=
  ⟨_, rfl, by decide +kernel⟩

/-- Refutes O46: its clause on the loss of a cabinet bounds the entries of `changing` nowhere. In `changingBeyond` the loss
of cabinet 0 makes cabinet 1 Lost. -/
theorem not_cabinetLossAndShardRestore : ¬ Obligations.CabinetLossAndShardRestore := by
  intro h
  obtain ⟨-, hloss, -⟩ := h
  have hlost0 := hloss changingBeyond 0 0 false (by decide) (by decide) (by decide) rfl (List.forall_mem_nil _)
  obtain ⟨u, ⟨-, -, -, -, -, -, -, -, -, -, -, -, -, -, hothers, -⟩, hlost1⟩ := hlost0.and answers_changingBeyond
  obtain ⟨hsame, -⟩ := hothers 1 (by decide)
  exact absurd (hlost1.symm.trans hsame) (by decide)

end Sys2Proof.Machine

/-! PROOFS. Fault records, and the loss of a checker. -/

namespace Sys2Proof.Machine

/-! ## A fault record (R285) -/

/-- A number beyond the masters' records is kept where it is not among the objects that change. -/
theorem KeepsObjects.num_of_le {l : List Nat} {s u : State} (h : KeepsObjects l s u) {k : Nat} (hk : k ∉ l)
    (hlo : 0x210000 ≤ k) : u.num k = s.num k := h.num hk (ne_eventsDropped_of_le hlo)

theorem ChangesOnly.refl (l : List Nat) (s : State) : ChangesOnly l s s := ⟨rfl, KeepsObjects.refl _ _⟩

theorem ChangesOnly.health {l : List Nat} {s u : State} (h : ChangesOnly l s u) : u.health = s.health := by rw [h.1]

theorem State.high_changes (k n : Nat) (s : State) : ChangesOnly [k] s (s.high k n) := State.setNum_changes k _ s

/-- The objects that a fault record changes. -/
def logKeys (rung : Nat) : List Nat :=
  [Obj.faultsRecorded, Obj.lastFault, Obj.healthFlags, Obj.rungCounts + rung, Obj.rungTimeMax + rung]

/-- State `s` with the parts of `u` that a fault record can reach. -/
def State.loggedAs (s u : State) : State :=
  { s with
    obj := u.obj
    dict := { s.dict with queues := u.dict.queues }
    health := { s.health with log := u.health.log } }

theorem ChangesOnly.loggedAs {l : List Nat} {s u : State} (h : ChangesOnly l s u) : u = s.loggedAs u := by
  rw [h.1]
  rfl

theorem loggedAs_trans {s t u : State} (h₁ : t = s.loggedAs t) (h₂ : u = t.loggedAs u) : u = s.loggedAs u := by
  rw [h₁] at h₂
  exact h₂

/-- What forming a record comes to: the log takes it, its objects follow with their events, and no flag is cleared. -/
structure LogsFault (r : FaultRec) (rung : Nat) (s u : State) : Prop where
  frame : u = s.loggedAs u
  objects : KeepsObjects (logKeys rung) s u
  logged : Logged r rung s u
  flags : ∀ i, (s.num Obj.healthFlags).testBit i = true → (u.num Obj.healthFlags).testBit i = true

/-- The record's count, LastFault and its event. -/
theorem lastFault_changes (b : List Byte) (s : State) :
    ChangesOnly [Obj.faultsRecorded, Obj.lastFault] s
      (((s.bump Obj.faultsRecorded 1).setBytes Obj.lastFault b).raise Obj.lastFault 0) :=
  (((State.bump_changes _ _ _).mono (by simp)).trans ((State.setVal_changes _ _ _).mono (by simp))).trans
    ((State.raiseVal_changes _ _ _ _).mono (by simp))

theorem overrun_changes (lost : Bool) (s : State) :
    ChangesOnly [Obj.healthFlags] s (if lost then s.setFlag Obj.healthFlags 0x100 else s) := by
  split
  · exact State.setFlag_changes _ _ _
  · exact ChangesOnly.refl _ _

theorem testBit_overrun (lost : Bool) (s : State) (i : Nat) (h : (s.num Obj.healthFlags).testBit i = true) :
    ((if lost then s.setFlag Obj.healthFlags 0x100 else s).num Obj.healthFlags).testBit i = true := by
  split
  · rw [State.testBit_setFlag _ _ _ _ (quiet_of_mod (by decide)), h, Bool.or_true]
  · exact h

theorem countRung_changes (rung dur : Nat) (s : State) :
    ChangesOnly [Obj.rungCounts + rung, Obj.rungTimeMax + rung] s
      (if rung ≤ 5 then (s.bump (Obj.rungCounts + rung) 1).high (Obj.rungTimeMax + rung) dur else s) := by
  split
  · exact ((State.bump_changes _ _ _).mono (by simp)).trans ((State.high_changes _ _ _).mono (by simp))
  · exact ChangesOnly.refl _ _

/-- An entry joins the fault log. -/
def State.joinLog (e : Nat × List Byte × Bool) (s : State) : State :=
  { s with health := { s.health with log := e :: s.health.log.take 1023 } }

/-- The record enters the log once it is counted; then comes what follows from the log and the rung. -/
theorem logsFault_of_joined {r : FaultRec} {rung : Nat} {s a : State} (lost : Bool) (dur : Nat)
    (ha : ChangesOnly [Obj.faultsRecorded, Obj.lastFault] s a) (hcount : Counted Obj.faultsRecorded 1 s a) :
    let b := a.joinLog (s.num Obj.faultsRecorded + 1, r.bytes (s.num Obj.faultsRecorded + 1) rung (s.since r.t), false)
    let c := if lost then b.setFlag Obj.healthFlags 0x100 else b
    LogsFault r rung s (if rung ≤ 5 then (c.bump (Obj.rungCounts + rung) 1).high (Obj.rungTimeMax + rung) dur else c) := by
  intro b c
  have hc : ChangesOnly [Obj.healthFlags] b c := overrun_changes lost b
  have hu := countRung_changes rung dur c
  have hflags := testBit_overrun lost b
  change ∀ i, _ → (c.num _).testBit i = true at hflags
  have hrung (h : rung ≤ 5) : Counted (Obj.rungCounts + rung) 1 c
      (if rung ≤ 5 then (c.bump (Obj.rungCounts + rung) 1).high (Obj.rungTimeMax + rung) dur else c) := by
    have hne : 0x480201 + rung ≠ 0x480301 + rung := by omega
    rw [if_pos h, Counted, State.num_high_ne _ _ _ _ hne, State.num_bump_self]
  generalize (if rung ≤ 5 then (c.bump (Obj.rungCounts + rung) 1).high (Obj.rungTimeMax + rung) dur else c) = u at hu hrung
  clear_value c
  have hnow : u.now = s.now := (hu.now.trans hc.now).trans ha.now
  have hflag : Obj.healthFlags ∉ [Obj.rungCounts + rung, Obj.rungTimeMax + rung] := by
    have : 0x48000a ≠ 0x480201 + rung ∧ 0x48000a ≠ 0x480301 + rung := by omega
    simpa using this
  have hcounted : Obj.faultsRecorded ∉ [Obj.rungCounts + rung, Obj.rungTimeMax + rung] := by
    have : 0x480002 ≠ 0x480201 + rung ∧ 0x480002 ≠ 0x480301 + rung := by omega
    simpa using this
  refine ⟨loggedAs_trans (loggedAs_trans ha.loggedAs rfl) (loggedAs_trans hc.loggedAs hu.loggedAs), ?_,
    ⟨?_, ?_, fun h => ?_⟩, fun i hi => ?_⟩
  · exact ((ha.2.mono (by simp [logKeys])).trans (hc.2.mono (l' := logKeys rung) (by simp [logKeys]))).trans
      (hu.2.mono (by simp [logKeys]))
  · rw [hu.health, hc.health, State.since, hnow]
    exact congrArg (_ :: ·.log.take 1023) ha.health
  · rw [Counted, hu.2.num_of_le hcounted (by decide), hc.2.num_of_le (by decide) (by decide)]
    exact hcount
  · have hkey : Obj.rungCounts + rung ∉ [Obj.faultsRecorded, Obj.lastFault, Obj.healthFlags] := by
      have : 0x480201 + rung ≠ 0x480002 ∧ 0x480201 + rung ≠ 0x481200 ∧ 0x480201 + rung ≠ 0x48000a := by omega
      simpa using this
    have hlo : 0x210000 ≤ Obj.rungCounts + rung := Nat.le_add_right_of_le (by decide)
    simp only [List.mem_cons, List.not_mem_nil, or_false, not_or] at hkey
    have hcs : c.num (Obj.rungCounts + rung) = s.num (Obj.rungCounts + rung) :=
      (hc.2.num_of_le (by simp [hkey]) hlo).trans (ha.2.num_of_le (by simp [hkey]) hlo)
    exact (hrung h).trans (by rw [hcs])
  · have hkept : b.num Obj.healthFlags = s.num Obj.healthFlags := ha.2.num_of_le (by decide) (by decide)
    rw [hu.2.num_of_le hflag (by decide)]
    exact hflags i (hkept ▸ hi)

theorem logFault_logs (r : FaultRec) (rung : Nat) (s : State) : LogsFault r rung s (s.logFault r rung) := by
  refine logsFault_of_joined _ _ (lastFault_changes _ s) ?_
  rw [Counted, State.num_raise _ _ _ _ (quiet_of_mod (by decide)), State.num_setBytes_ne _ _ _ _ (by decide), State.num_bump_self]

/-! ## What the loss of a checker leaves (R401, R421 to R424) -/

/-- State `s` with the parts of `u` that the loss of a checker can reach: what sending can, the step controller and the
feeds. -/
def State.uncheckedAs (s u : State) : State := { s.sentAs u with lock := u.lock, trace := u.trace }

/-- What the loss of a checker comes to: beside the step controller, the feeds and what sending reaches, nothing changes,
and neither do the objects of tiles and health. -/
structure Unchecks (s u : State) : Prop where
  frame : u = s.uncheckedAs u
  objects : KeepsTileObjects s u

namespace Unchecks

variable {s t u : State}

theorem refl (s : State) : Unchecks s s := ⟨rfl, .refl s⟩

theorem trans (h₁ : Unchecks s t) (h₂ : Unchecks t u) : Unchecks s u := by
  refine ⟨?_, h₁.objects.trans h₂.objects⟩
  have h := h₂.frame
  rw [h₁.frame] at h
  exact h

theorem foldl {α : Type} {f : State → α → State} (hf : ∀ s a, Unchecks s (f s a)) (l : List α) (s : State) :
    Unchecks s (l.foldl f s) := by
  induction l generalizing s with
  | nil => exact refl s
  | cons a l ih => exact (hf s a).trans (ih _)

theorem of_sends (h : Sends s u) : Unchecks s u := by
  refine ⟨?_, .of_keeps h.2 (by decide)⟩
  have hu := h.1
  rw [State.uncheckedAs, ← hu]

theorem of_changes {l : List Nat} (h : ChangesOnly l s u) (hl : ∀ k ∈ l, k < 0x300000 ∨ 0x600000 ≤ k) : Unchecks s u := by
  refine ⟨?_, .of_keeps h.2 hl⟩
  rw [h.1]
  rfl

theorem health (h : Unchecks s u) : u.health = s.health := by rw [h.frame]; rfl
theorem tiles (h : Unchecks s u) : u.tiles = s.tiles := by rw [h.frame]; rfl

end Unchecks

namespace State
variable (s : State)

theorem setNum_unchecks {k : Nat} (hk : 0x600000 ≤ k) (n : Nat) : Unchecks s (s.setNum k n) :=
  .of_changes (setNum_changes _ _ _) (by simp [hk])

theorem setFlag_unchecks {k : Nat} (hk : 0x600000 ≤ k) (b : Nat) : Unchecks s (s.setFlag k b) :=
  .of_changes (setFlag_changes _ _ _) (by simp [hk])

theorem setState_unchecks {k : Nat} (hk : 0x600000 ≤ k) (v : Nat) : Unchecks s (s.setState k v) :=
  .of_changes (setState_changes _ _ _) (by simp [hk])

theorem setFeed_unchecks (q : Nat) (f : FeedS) : Unchecks s (s.setFeed q f) := ⟨rfl, fun _ _ _ => rfl⟩

theorem sendNotices_unchecks : Unchecks s s.sendNotices := .foldl (fun t _ => .of_sends (sendFlit_sends _ _ _ t)) _ s

theorem failLock_unchecks (cause : Nat) : Unchecks s (s.failLock cause) :=
  ((setNum_unchecks s (by decide) _).trans (setState_unchecks _ (by decide) _)).trans (setFlag_unchecks _ (by decide) _)

theorem enterFrozen_unchecks : Unchecks s s.enterFrozen := by
  unfold enterFrozen
  dsimp only
  refine ((((setNum_unchecks s ?_ _).trans (setState_unchecks _ ?_ _)).trans (setFlag_unchecks _ ?_ _)).trans
    (setNum_unchecks _ ?_ _)).trans (.foldl (fun t c => ?_) _ _)
  on_goal 5 =>
    split
    · exact setState_unchecks t (Nat.le_add_right_of_le (by decide)) _
    · exact .refl t
  all_goals decide

theorem propose_unchecks (f origin cause : Nat) : Unchecks s (s.propose f origin cause) := by
  unfold propose
  split
  · exact ⟨rfl, fun _ _ _ => rfl⟩
  split
  · exact .refl s
  split
  · split
    · exact setNum_unchecks s (by decide) _
    · exact .refl s
  split
  · exact ((setFlag_unchecks s (by decide) _).trans (setNum_unchecks _ (by decide) _)).trans (failLock_unchecks _ _)
  · extract_lets v w x
    have hv : Unchecks s v :=
      ((setNum_unchecks s (by decide) _).trans (setNum_unchecks _ (by decide) _)).trans (setNum_unchecks _ (by decide) _)
    have hw : Unchecks s w := hv.trans (sendNotices_unchecks v)
    have hx : Unchecks s x := hw.trans (setState_unchecks _ (by decide) _)
    clear_value w x
    split
    · exact hw
    · split
      · exact hx.trans (enterFrozen_unchecks x)
      · exact hx

theorem takeUnknown_unchecks (q : Nat) : Unchecks s (s.takeUnknown q) := by
  unfold takeUnknown
  extract_lets t u
  have hu : Unchecks s u :=
    ((setFeed_unchecks s _ _).trans (setNum_unchecks t (by decide) _)).trans (setFlag_unchecks _ (by decide) _)
  split
  · exact (hu.trans (setNum_unchecks _ (by decide) _)).trans (propose_unchecks _ _ _ _)
  · exact hu

theorem unknownAll_unchecks (q : Nat) : Unchecks s (s.unknownAll q) :=
  (setFeed_unchecks s _ _).trans (.foldl (fun t _ => takeUnknown_unchecks t q) _ _)

theorem dropRecord_unchecks (q : Nat) : Unchecks s (s.dropRecord q) :=
  ((setFeed_unchecks s _ _).trans (setNum_unchecks _ (by decide) _)).trans (setFlag_unchecks _ (by decide) _)

theorem flushFeed_unchecks (q : Nat) : Unchecks s (s.flushFeed q) := by
  refine (setFeed_unchecks s _ _).trans (.foldl (fun t e => ?_) _ _)
  dsimp only
  split
  · exact dropRecord_unchecks t q
  · exact (dropRecord_unchecks t q).trans (takeUnknown_unchecks _ q)

theorem setFeedSt_unchecks (q v : Nat) : Unchecks s (s.setFeedSt q v) := by
  unfold setFeedSt
  split
  · exact .refl s
  · dsimp only
    split
    · exact (setFeed_unchecks s _ _).trans (.of_changes (raiseVal_changes _ _ _ _) (by simp))
    · exact setFeed_unchecks s _ _

theorem checkerStops_unchecks (g x : Nat) : Unchecks s (s.checkerStops g x) := .foldl unknownAll_unchecks _ s

theorem feedRecover_unchecks (g x : Nat) : Unchecks s (s.feedRecover g x) :=
  .foldl (fun t q => ((setFeedSt_unchecks t q 3).trans (unknownAll_unchecks _ q)).trans (flushFeed_unchecks _ q)) _ s

/-! ## What landings leave of the health service -/

theorem complete_health (g x seq op : Nat) (record : Bool) (k : Counts) :
    (s.complete g x seq op record k).health = s.health := by
  unfold complete
  extract_lets k s₁ s₂ i s₃
  have h₁ : s₁.health = s.health := (countDevice_changes _ _).health
  split
  · exact h₁
  · exact h₁

theorem land_health (g : Nat) (f : Flight) : (s.land g f).health = s.health := by
  unfold land
  extract_lets s₁
  have h₁ : s₁.health = s.health := by
    unfold s₁
    split <;> rfl
  split
  · exact h₁
  · exact (complete_health _ _ _ _ _ _ _).trans h₁

theorem landAt_health (g c : Nat) : (s.landAt g c).health = s.health := by
  unfold landAt
  extract_lets t now s₁ clashes s₂
  have h₂ : s₂.health = s.health := foldl_keeps (·.health) (fun u f => land_health u g f) now s₁
  split
  · exact h₂
  · exact h₂

theorem landBefore_health (g c n : Nat) : (s.landBefore g c n).health = s.health := by
  induction n generalizing s with
  | zero => rfl
  | succ n ih =>
    unfold landBefore
    split
    · rfl
    · split
      · exact (ih _).trans (landAt_health s g _)
      · rfl

theorem landCtx_health (g x : Nat) : (s.landCtx g x).health = s.health := landBefore_health s g _ _

end State

end Sys2Proof.Machine

/-! PROOFS. Drawers that stop for recovery, and rungs. -/

namespace Sys2Proof.Machine

/-! ## Drawers of a tile stop for recovery (R158, R209, R275, R276) -/

/-- The objects that change as drawers of a tile stop, beside those that the loss of a checker reaches. -/
def stopKeys (g : Nat) : List Nat := tileKey Obj.preemptionsTaken g :: landKeys g

/-- What stopping the drawers of tile g in the contexts of `l` comes to: other tiles and the health service stand, drawers
stay bound and real-time as they were, and a drawer not listed keeps all but its totals. -/
structure StopsDrawers (g : Nat) (l : List Nat) (s u : State) : Prop where
  others : ∀ h, h ≠ g → u.tile h = s.tile h
  health : u.health = s.health
  objects : ∀ k, 0x300000 ≤ k → k < 0x600000 → k ∉ stopKeys g → u.val k = s.val k
  bound : ∀ y, (u.dr g y).bound = (s.dr g y).bound
  rt : ∀ y, (u.dr g y).rt = (s.dr g y).rt
  unlisted : ∀ y, y ∉ l → u.dr g y = { s.dr g y with total := (u.dr g y).total, ops := (u.dr g y).ops }

/-- Whether a real-time drawer stands in a tile follows from its drawers. -/
theorem hasRt_congr {g : Nat} {s u : State} (hbound : ∀ y, (u.dr g y).bound = (s.dr g y).bound)
    (hrt : ∀ y, (u.dr g y).rt = (s.dr g y).rt) : u.hasRt g = s.hasRt g := by
  have hb : (u.tile g).bound = (s.tile g).bound := List.filter_congr fun y _ => hbound y
  unfold State.hasRt
  rw [hb]
  exact congrArg (List.any _) (funext hrt)

namespace StopsDrawers

variable {g x : Nat} {l l' : List Nat} {s t u : State}

theorem refl (s : State) : StopsDrawers g l s s :=
  ⟨fun _ _ => rfl, rfl, fun _ _ _ _ => rfl, fun _ => rfl, fun _ => rfl, fun _ _ => rfl⟩

theorem trans (h₁ : StopsDrawers g l s t) (h₂ : StopsDrawers g l t u) : StopsDrawers g l s u :=
  ⟨fun h hne => (h₂.others h hne).trans (h₁.others h hne), h₂.health.trans h₁.health,
    fun k hlo hhi hk => (h₂.objects k hlo hhi hk).trans (h₁.objects k hlo hhi hk),
    fun y => (h₂.bound y).trans (h₁.bound y), fun y => (h₂.rt y).trans (h₁.rt y),
    fun y hy => by rw [h₂.unlisted y hy, h₁.unlisted y hy]⟩

theorem mono (h : StopsDrawers g l s u) (hl : l ⊆ l') : StopsDrawers g l' s u :=
  { h with unlisted := fun y hy => h.unlisted y fun hy' => hy (hl hy') }

theorem foldl {f : State → Nat → State} (hf : ∀ s x, StopsDrawers g [x] s (f s x)) (l : List Nat) (s : State) :
    StopsDrawers g l s (l.foldl f s) := by
  induction l generalizing s with
  | nil => exact refl s
  | cons x l ih => exact ((hf s x).mono (by simp)).trans ((ih _).mono (List.subset_cons_self x l))

/-- A change of one drawer that leaves it bound, and real-time, as it was. -/
theorem of_oneDrawer (h : OneDrawer g x s u) (hb : (u.dr g x).bound = (s.dr g x).bound)
    (hrt : (u.dr g x).rt = (s.dr g x).rt) : StopsDrawers g [x] s u := by
  have hobj (k : Nat) : u.val k = s.val k := by rw [h.frame]; rfl
  refine ⟨h.others, by rw [h.frame], fun k _ _ _ => hobj k, fun y => ?_, fun y => ?_, fun y hy => ?_⟩
  · by_cases hy : y = x
    · rw [hy, hb]
    · rw [h.drawers y hy]
  · by_cases hy : y = x
    · rw [hy, hrt]
    · rw [h.drawers y hy]
  · rw [h.drawers y (by simpa using hy)]

theorem of_landings (h : KeepsDrawers g s u) (hh : u.health = s.health) : StopsDrawers g l s u := by
  refine ⟨h.others, hh, fun k hlo _ hk => ?_, fun y => by rw [h.drawers y]; rfl, fun y => by rw [h.drawers y],
    fun y _ => h.drawers y⟩
  exact h.objects k (fun hk' => hk (List.mem_cons_of_mem _ hk')) (ne_eventsDropped_of_le (by omega))

theorem of_unchecks (h : Unchecks s u) : StopsDrawers g l s u := by
  have htile (h' : Nat) : u.tile h' = s.tile h' := State.tile_congr h.tiles h'
  have hdr (y : Nat) : u.dr g y = s.dr g y := State.dr_congr (htile g) y
  exact ⟨fun h' _ => htile h', h.health, fun k hlo hhi _ => h.objects k hlo hhi, fun y => by rw [hdr], fun y => by rw [hdr],
    fun y _ => by rw [hdr]⟩

theorem modDr (f : Drawer → Drawer) (hb : (f (s.dr g x)).bound = (s.dr g x).bound) (hrt : (f (s.dr g x)).rt = (s.dr g x).rt) :
    StopsDrawers g [x] s (s.modDr g x f) := by
  refine of_oneDrawer (OneDrawer.modDr g x f s) ?_ ?_
  · rw [State.dr_modDr_self, hb]
  · rw [State.dr_modDr_self, hrt]

/-- The count of stops taken. -/
theorem bump (n : Nat) (s : State) : StopsDrawers g l s (s.bump (tileKey Obj.preemptionsTaken g) n) :=
  ⟨fun _ _ => rfl, rfl, fun _ _ _ hk => State.val_setVal_ne _ _ _ _ fun he => hk (he ▸ List.mem_cons_self), fun _ => rfl,
    fun _ => rfl, fun _ _ => rfl⟩

theorem rung2 (h : StopsDrawers g l s u) (sh : Nat) : u.rung2 g sh = s.rung2 g sh := by
  rw [State.rung2, State.rung2, hasRt_congr h.bound h.rt, State.sites, State.sites, h.health]

theorem tileRung (h : StopsDrawers g l s u) (g' : Nat) : u.tileRung g' = s.tileRung g' := by
  rw [State.tileRung, State.tileRung, h.health]

end StopsDrawers

/-- The stop of a bound drawer. -/
theorem stopCtx_stops {g x : Nat} {s : State} (hb : (s.dr g x).bound = true) : StopsDrawers g [x] s (s.stopCtx g x) := by
  unfold State.stopCtx
  extract_lets s₁ s₂ back s₃ s₄ s₅
  have h₁ : StopsDrawers g [x] s s₁ := .of_landings (s.landCtx_keepsDrawers g x) (s.landCtx_health g x)
  have h₂ : StopsDrawers g [x] s s₂ := h₁.trans (.of_landings ((KeepsDrawers.refl s₁).setTile _ rfl) rfl)
  have h₃ : StopsDrawers g [x] s s₃ := by
    have hdr (y : Nat) : s₃.dr g y = s₂.dr g y := State.dr_modTh _ _ _ _ _
    exact h₂.trans (.of_landings (.of_drawers (fun _ hne => State.tile_setCtx_ne _ _ _ hne) hdr rfl) rfl)
  clear_value s₃
  have h₄ : StopsDrawers g [x] s s₄ := h₃.trans (.modDr _ ((h₃.bound x).trans hb).symm rfl)
  clear_value s₄
  have h₅ : StopsDrawers g [x] s s₅ := h₄.trans (.bump _ _)
  clear_value s₅
  split
  · exact h₅.trans (.of_unchecks (s₅.feedRecover_unchecks g x))
  · exact h₅.trans (.of_unchecks (s₅.checkerStops_unchecks g x))

theorem askStop_stops (g x : Nat) (s : State) : StopsDrawers g [x] s (s.askStop g x true) := by
  unfold State.askStop
  extract_lets d s'
  have hmark : StopsDrawers g [x] s s' := .modDr _ rfl rfl
  have hb : (s'.dr g x).bound = (s.dr g x).bound := hmark.bound x
  split
  · exact .refl s
  · exact .refl s
  · next h => exact hmark.trans (stopCtx_stops (by rw [hb, Drawer.bound, h]; rfl))
  · next h =>
    split
    · exact hmark.trans (stopCtx_stops (by rw [hb, Drawer.bound, h]; rfl))
    · refine hmark.trans (.modDr _ ?_ rfl)
      rw [hb, Drawer.bound, Drawer.bound, h]
      rfl
  · exact hmark

/-! ## A rung is queued and begins (R275, R276, R286) -/

section Rungs

variable {s : State} {g x sh st : Nat} {w : RungWork} {r : FaultRec}

/-- A state in which a rung waits. -/
def State.waiting (w : RungWork) (r : FaultRec) (s : State) : State :=
  { s with health := { s.health with rungs := s.health.rungs ++ [⟨w, r⟩] } }

theorem queueRung_changes (w : RungWork) (r : FaultRec) (s : State) :
    ChangesOnly [Obj.healthState] (s.waiting w r) (s.queueRung w r) := State.setState_changes _ _ _

/-- While a rung waits the health state is Recovering. -/
theorem num_queueRung (w : RungWork) (r : FaultRec) (s : State) : (s.queueRung w r).num Obj.healthState = 1 := by
  have hnow : (s.waiting w r).healthNow = 1 := by simp [State.healthNow, State.waiting]
  exact (State.num_setState_self _ _ _ (quiet_of_mod (by decide))).trans hnow

/-- A tile's fence codes and its retirement stand in its cabinet's map. -/
theorem fence_congr {s u : State} {g : Nat} (h : u.val (Obj.tileFenceMap + g / 150) = s.val (Obj.tileFenceMap + g / 150)) :
    u.retired g = s.retired g ∧ ∀ sh st, u.siteCode g sh st = s.siteCode g sh st := by
  have hbytes : u.bytes (Obj.tileFenceMap + g / 150) = s.bytes (Obj.tileFenceMap + g / 150) := congrArg Val.toBytes h
  refine ⟨?_, fun sh st => ?_⟩
  · rw [State.retired, hbytes, State.retired]
  · rw [State.siteCode, State.tileCodes, hbytes, State.siteCode, State.tileCodes]

/-- A drawer that the rung in progress stops is asked to. -/
def State.rungAsks (g : Nat) (s : State) (x : Nat) : State := if s.rungStops g x then s.askStop g x true else s

theorem rungAsks_stops (g : Nat) (s : State) (x : Nat) : StopsDrawers g [x] s (s.rungAsks g x) := by
  unfold State.rungAsks
  split
  · exact askStop_stops g x s
  · exact .refl s

/-- A rung for a site in service of a tile that is not retired begins by asking drawers to stop. -/
theorem beginRung_site (hq : s.tileRung g = some ⟨.site g sh st, r⟩) (hret : s.retired g = false)
    (hcode : s.siteCode g sh st = 0) : s.beginRung g 1 = (s.tile g).bound.foldl (State.rungAsks g) s := by
  simp only [State.beginRung, hq, hret, hcode, Bool.false_or, ne_eq, not_true_eq_false, decide_false, Bool.false_eq_true,
    if_false]
  rfl

/-- A Discarding drawer asked to stop for recovery stops at once with nothing left to commit, else once that is done. -/
theorem askStop_discarding (hst : (s.dr g x).st = .discarding) (hpre : (s.dr g x).preempt = false) :
    ((s.askStop g x true).dr g x).st = (if (s.dr g x).await = [] then .stopped else .stopping) ∧
      ((s.askStop g x true).dr g x).recover = true := by
  unfold State.askStop
  simp only [hst, if_true, List.isEmpty_iff]
  split
  · rw [State.dr_stopCtx, State.dr_modDr_self]
    exact ⟨rfl, by simp [hpre]⟩
  · rw [State.dr_modDr_self, State.dr_modDr_self]
    exact ⟨rfl, rfl⟩

/-- Rung 2 stops every drawer of its tile, a Discarding one as `askStop_discarding` says. -/
theorem foldl_rungAsks_discarding {l : List Nat} (hx : x ∈ l) (hnd : l.Nodup) (hq : s.tileRung g = some ⟨.site g sh st, r⟩)
    (hrung : s.rung2 g sh = true) (hst : (s.dr g x).st = .discarding) (hpre : (s.dr g x).preempt = false) :
    ((l.foldl (State.rungAsks g) s).dr g x).st = (if (s.dr g x).await = [] then .stopped else .stopping) ∧
      ((l.foldl (State.rungAsks g) s).dr g x).recover = true := by
  obtain ⟨l₁, l₂, rfl⟩ := List.append_of_mem hx
  obtain ⟨-, hnd₂, hdis⟩ := List.nodup_append.1 hnd
  have h₁ : x ∉ l₁ := fun h => hdis x h x List.mem_cons_self rfl
  have h₂ : x ∉ l₂ := (List.nodup_cons.1 hnd₂).1
  rw [List.foldl_append, List.foldl_cons]
  have hbefore := StopsDrawers.foldl (rungAsks_stops g) l₁ s
  generalize l₁.foldl (State.rungAsks g) s = a at hbefore ⊢
  have hstops : a.rungStops g x = true := by
    rw [State.rungStops, hbefore.tileRung, hq]
    simp [hbefore.rung2, hrung]
  have hasked : a.rungAsks g x = a.askStop g x true := if_pos hstops
  have hafter := StopsDrawers.foldl (rungAsks_stops g) l₂ (a.rungAsks g x)
  rw [hasked] at hafter ⊢
  have hdr := hbefore.unlisted x h₁
  have hask := askStop_discarding (s := a) (g := g) (x := x) (by rw [hdr, hst]) (by rw [hdr, hpre])
  rw [hafter.unlisted x h₂]
  rw [hdr] at hask
  exact hask

theorem tileRung_queueRung (hnone : s.tileRung g = none) :
    (s.queueRung (.site g sh st) r).tileRung g = some ⟨.site g sh st, r⟩ := by
  unfold State.tileRung at hnone ⊢
  rw [(queueRung_changes _ r s).health]
  simp [State.waiting, List.find?_append, hnone]

/-- The rung of a site of a tile that has none begins. -/
theorem queueTile_first (hnone : s.tileRung g = none) (hret : s.retired g = false) (hcode : s.siteCode g sh st = 0) :
    s.queueTile g (.site g sh st) r =
      (s.tile g).bound.foldl (State.rungAsks g) (s.queueRung (.site g sh st) r) := by
  have hq := queueRung_changes (.site g sh st) r s
  have hkey : Obj.tileFenceMap + g / 150 ∉ [Obj.healthState] := by
    have : 0x480801 + g / 150 ≠ 0x480001 := by omega
    simpa using this
  obtain ⟨hret', hcode'⟩ := fence_congr (hq.2 _ hkey (ne_eventsDropped_of_le (Nat.le_add_right_of_le (by decide))))
  have htiles : (s.queueRung (.site g sh st) r).tile g = s.tile g := State.tile_congr (by rw [hq.1]; rfl) g
  simp only [State.queueTile, hnone, Option.isNone_none, if_true]
  rw [beginRung_site (tileRung_queueRung hnone) (hret'.trans hret) ((hcode' sh st).trans hcode), htiles]

theorem queueTile_later (h : s.tileRung g ≠ none) : s.queueTile g w r = s.queueRung w r := by
  obtain ⟨q, hq⟩ := Option.ne_none_iff_exists'.1 h
  simp [State.queueTile, hq]

/-- A rung queued for a site leaves what stops of the tile's drawers leave. -/
theorem queueTile_stops (hfresh : s.tileRung g = none → s.retired g = false ∧ s.siteCode g sh st = 0) :
    StopsDrawers g (s.tile g).bound (s.queueRung (.site g sh st) r) (s.queueTile g (.site g sh st) r) := by
  by_cases hnone : s.tileRung g = none
  · obtain ⟨hret, hcode⟩ := hfresh hnone
    rw [queueTile_first hnone hret hcode]
    exact .foldl (rungAsks_stops g) _ _
  · rw [queueTile_later hnone]
    exact .refl _

/-- Where it begins, and is answered by rung 2, it stops a Discarding drawer. -/
theorem queueTile_discarding (hnone : s.tileRung g = none) (hret : s.retired g = false) (hcode : s.siteCode g sh st = 0)
    (hrung : s.rung2 g sh = true) (hx : x < 16) (hst : (s.dr g x).st = .discarding) (hpre : (s.dr g x).preempt = false) :
    ((s.queueTile g (.site g sh st) r).dr g x).st = (if (s.dr g x).await = [] then .stopped else .stopping) ∧
      ((s.queueTile g (.site g sh st) r).dr g x).recover = true := by
  have hq := queueRung_changes (.site g sh st) r s
  have hdr : (s.queueRung (.site g sh st) r).dr g x = s.dr g x := State.dr_congr (State.tile_congr (by rw [hq.1]; rfl) g) x
  have hrung' : (s.queueRung (.site g sh st) r).rung2 g sh = true := by rw [hq.1]; exact hrung
  have hmem : x ∈ (s.tile g).bound := (mem_bound s g x).2 ⟨hx, by rw [Drawer.bound, hst]; rfl⟩
  rw [queueTile_first hnone hret hcode, ← hdr]
  exact foldl_rungAsks_discarding hmem (nodup_bound _) (tileRung_queueRung hnone) hrung' (by rw [hdr, hst]) (by rw [hdr, hpre])

/-- A state that some work has left. -/
def State.withoutRungs (w : RungWork) (s : State) : State :=
  { s with health := { s.health with rungs := s.health.rungs.filter fun q => !decide (q.work = w) } }

/-- What the queuing of a rung for tile g leaves whichever way it goes: the marks, the other tiles, and the objects of
tiles that stops leave. -/
structure QueuesFor (g : Nat) (s u : State) : Prop where
  marks : u.health.marks = s.health.marks
  others : ∀ h, h ≠ g → u.tile h = s.tile h
  objects : ∀ k, 0x300000 ≤ k → k < 0x480000 → k ∉ stopKeys g → u.val k = s.val k

namespace QueuesFor

variable {t u : State}

theorem trans (h₁ : QueuesFor g s t) (h₂ : QueuesFor g t u) : QueuesFor g s u :=
  ⟨h₂.marks.trans h₁.marks, fun h hne => (h₂.others h hne).trans (h₁.others h hne),
    fun k hlo hhi hk => (h₂.objects k hlo hhi hk).trans (h₁.objects k hlo hhi hk)⟩

theorem of_stops {l : List Nat} (h : StopsDrawers g l s u) : QueuesFor g s u :=
  ⟨by rw [h.health], h.others, fun k hlo hhi hk => h.objects k hlo (by omega) hk⟩

theorem of_state (h : ChangesOnly [Obj.healthState] s u) : QueuesFor g s u := by
  refine ⟨by rw [h.health], fun h' _ => State.tile_congr (by rw [h.1]) h', fun k hlo hhi _ => ?_⟩
  have : k ≠ 0x480001 := by omega
  exact h.2 k (by simpa using this) (ne_eventsDropped_of_le (by omega))

theorem of_logs {rung : Nat} (h : LogsFault r rung s u) : QueuesFor g s u := by
  refine ⟨by rw [h.frame]; rfl, fun h' _ => State.tile_congr (by rw [h.frame]; rfl) h', fun k hlo hhi _ => ?_⟩
  have : k ≠ 0x480002 ∧ k ≠ 0x481200 ∧ k ≠ 0x48000a ∧ k ≠ 0x480201 + rung ∧ k ≠ 0x480301 + rung := by omega
  exact h.objects k (by simpa [logKeys] using this) (ne_eventsDropped_of_le (by omega))

theorem queueRung (w : RungWork) (r : FaultRec) (s : State) : QueuesFor g s (s.queueRung w r) :=
  trans (t := s.waiting w r) ⟨rfl, fun _ _ => rfl, fun _ _ _ _ => rfl⟩ (of_state (queueRung_changes w r s))

theorem closeRungs (w : RungWork) (rung : Nat) (s : State) : QueuesFor g s (s.closeRungs w rung) := by
  have hdrop : QueuesFor g s (s.dropRungs (·.work = w)) :=
    trans (t := s.withoutRungs w) ⟨rfl, fun _ _ => rfl, fun _ _ _ _ => rfl⟩ (of_state (State.setState_changes _ _ _))
  unfold State.closeRungs
  generalize s.dropRungs (·.work = w) = a at hdrop
  induction s.health.rungs.filter (·.work = w) generalizing a with
  | nil => exact hdrop
  | cons q l ih => exact ih _ (hdrop.trans (of_logs (logFault_logs q.record rung a)))

end QueuesFor

/-- A rung for a site not in service, or in a retired tile, closes as it begins (R286). -/
theorem beginRung_stale (hq : s.tileRung g = some ⟨.site g sh st, r⟩) (h : ¬(s.retired g = false ∧ s.siteCode g sh st = 0)) :
    s.beginRung g 1 = s.closeRungs (.site g sh st) 0xFF := by
  have hstale : (s.retired g || decide (s.siteCode g sh st ≠ 0)) = true := by
    rw [not_and_or, Bool.not_eq_false] at h
    simpa using h
  simp only [State.beginRung, hq, hstale, if_true]

theorem queueTile_queuesFor (g sh st : Nat) (r : FaultRec) (s : State) :
    QueuesFor g s (s.queueTile g (.site g sh st) r) := by
  refine (QueuesFor.queueRung (.site g sh st) r s).trans ?_
  by_cases hnone : s.tileRung g = none
  · have hq := tileRung_queueRung (sh := sh) (st := st) (r := r) hnone
    simp only [State.queueTile, hnone, Option.isNone_none, if_true]
    generalize s.queueRung (.site g sh st) r = a at hq
    by_cases hfresh : a.retired g = false ∧ a.siteCode g sh st = 0
    · rw [beginRung_site hq hfresh.1 hfresh.2]
      exact .of_stops (.foldl (rungAsks_stops g) _ _)
    · rw [beginRung_stale hq hfresh]
      exact .closeRungs _ _ _
  · rw [queueTile_later hnone]
    exact .of_stops (l := []) (.refl _)

end Rungs

end Sys2Proof.Machine

/-! PROOFS. Discards, marks and fault reports: O36. -/

namespace Sys2Proof.Machine

/-! ## Discards and replays (R159, R161) -/

/-- A drawer as the discard of pass p, and of what came after it, leaves it. -/
def Drawer.discarded (p : Nat) (d : Drawer) : Drawer :=
  { d with await := d.await.filter (·.pass < p), pass := p, begun := true, st := .discarding }

/-- A Discarding drawer whose level allows a pass issues. -/
def Drawer.replayed (d : Drawer) : Drawer := if d.st = .discarding ∧ 0 < d.level then { d with st := .issuing } else d

section Discards

variable {s : State} {g x p : Nat}

theorem modDr_congr {f f' : Drawer → Drawer} (h : f (s.dr g x) = f' (s.dr g x)) : s.modDr g x f = s.modDr g x f' :=
  congrArg (fun d => s.setCtx g x { s.ctx g x with dr := d }) h

/-- The passes that a discard counts (R159). -/
def Drawer.lostPasses (p : Nat) (d : Drawer) : Nat := d.flying.length - (d.await.filter (·.pass < p)).length

/-- A pass in flight of a drawer that no stop and no hold waits for is discarded. -/
theorem discardPass_flying (hasked : (s.dr g x).asked = false) (hst : (s.dr g x).st = .issuing ∨ (s.dr g x).st = .draining)
    (hfly : (s.dr g x).flying.contains p = true) :
    s.discardPass g x p =
      (s.bump (tileKey Obj.passesDiscarded g) ((s.dr g x).lostPasses p)).modDr g x (Drawer.discarded p) := by
  have hhold : ((s.dr g x).st = .holding) = False := by rcases hst with h | h <;> simp [h]
  simp only [State.discardPass, hfly, hasked, hhold, Bool.not_true, Bool.false_eq_true, Bool.false_and, Bool.or_false,
    decide_false, if_false, reduceCtorEq, Drawer.lostPasses]
  exact modDr_congr rfl

theorem replay_oneDrawer (g x : Nat) (s : State) : OneDrawer g x s (s.replay g x) := by
  unfold State.replay
  split
  · exact OneDrawer.modDr _ _ _ _
  · exact ⟨rfl, fun _ _ => rfl, fun _ _ => rfl⟩

theorem dr_replay (g x : Nat) (s : State) : (s.replay g x).dr g x = (s.dr g x).replayed := by
  unfold State.replay Drawer.replayed
  simp only [Bool.and_eq_true, decide_eq_true_eq]
  split
  · exact State.dr_modDr_self _ _ _ _
  · rfl

/-- Each drawer of the tile replays, and nothing else changes. -/
theorem replayTile_spec (s : State) (g : Nat) :
    s.replayTile g = { s with tiles := (s.replayTile g).tiles } ∧ (∀ h, h ≠ g → (s.replayTile g).tile h = s.tile h) ∧
      ∀ x : Ctx, (s.replayTile g).dr g x = (s.dr g x).replayed := by
  obtain ⟨hframe, hothers, hout, hin⟩ := OneDrawer.foldl (g := g) (Q := fun _ => True) (F := fun s x => s.replay g x)
    (fun s x _ => replay_oneDrawer g x s) (nodup_bound (s.tile g)) s fun _ _ => trivial
  refine ⟨hframe, hothers, fun x => ?_⟩
  by_cases hx : x.val ∈ (s.tile g).bound
  · obtain ⟨t, ht, hu⟩ := hin x hx
    exact hu.trans ((dr_replay g x t).trans (by rw [ht]))
  · have hfree : (s.dr g x).st = .free := by
      simpa [mem_bound, x.isLt, Drawer.bound] using hx
    refine (hout x hx).trans ?_
    rw [Drawer.replayed, hfree]
    simp

end Discards

/-! ## Marks (R273) -/

/-- The faults of a place within the last 1,000 ms. -/
def State.nearMarks (k : Nat) (s : State) : List Nat := (s.health.marks.get [] k).filter fun m => s.now ≤ m + 1000000000

/-- A state with a fault of a place noted. -/
def State.marked (k : Nat) (s : State) : State :=
  { s with health := { s.health with marks := s.health.marks.put k (s.now :: s.nearMarks k) } }

theorem noteMark_now (k : Nat) (s : State) :
    s.noteMark k s.now = (!(s.nearMarks k).isEmpty, (s.nearMarks k).length + 1, s.marked k) := rfl

theorem marks_marked (k : Nat) (s : State) : (s.marked k).health.marks.get [] k = s.now :: s.nearMarks k := by
  simp [State.marked, Tab.get, Tab.find?_put_self]

section SiteFaults

variable {s : State} {g sh st : Nat} {f : FaultInfo} {r : FaultRec}

/-- A first pepper fault of a site is noted and recorded. -/
theorem siteFault_pepper (rung : Nat) (hpepper : f.pepper = true) (hnear : s.nearMarks (siteMark g sh st) = []) :
    s.siteFault g sh st f false r rung = (s.marked (siteMark g sh st)).logFault { r with count := 1 } rung := by
  simp [State.siteFault, noteMark_now, hpepper, hnear]

/-- A state in which a fault of a drawer's core is noted, with its signature. -/
def State.found (k x : Nat) (sig : List Nat) (g : Nat) (s : State) : State :=
  (s.marked k).modDr g x fun d => { d with sigs := sig :: d.sigs }

variable {x : Nat}

theorem modDr_sigs_of_bound (hb : (s.dr g x).bound = true) (k : Nat) (sig : List Nat) :
    ((s.marked k).modDr g x fun d => { d with sigs := if d.bound then sig :: d.sigs else d.sigs }) = s.found k x sig g := by
  have hb' : ((s.marked k).dr g x).bound = true := hb
  exact modDr_congr (by rw [hb']; rfl)

variable (hpepper : f.pepper = false) (hctx : r.ctx = x) (hx : x < 16) (hb : (s.dr g x).bound = true)
include hpepper hctx hx hb

/-- A first fault of a site, with a signature not found before, is recorded. -/
theorem siteFault_first (rung : Nat) (hnear : s.nearMarks (siteMark g sh st) = [])
    (hsig : r.signature (siteMark g sh st) f.pass ∉ (s.dr g x).sigs) :
    s.siteFault g sh st f false r rung =
      (s.found (siteMark g sh st) x (r.signature (siteMark g sh st) f.pass) g).logFault { r with count := 1 } rung := by
  rw [← modDr_sigs_of_bound hb]
  simp [State.siteFault, noteMark_now, State.hardSig, hpepper, hctx, hx, hnear, hsig]

/-- Any other is persistent. -/
theorem siteFault_again (rung : Nat)
    (hagain : s.nearMarks (siteMark g sh st) ≠ [] ∨ r.signature (siteMark g sh st) f.pass ∈ (s.dr g x).sigs) :
    s.siteFault g sh st f false r rung =
      ((s.found (siteMark g sh st) x (r.signature (siteMark g sh st) f.pass) g).setFlag Obj.healthFlags 1).queueTile g
        (.site g sh st) { r with count := (s.nearMarks (siteMark g sh st)).length + 1, flags := r.flags ||| 1 } := by
  rw [← modDr_sigs_of_bound hb]
  simp only [State.siteFault, noteMark_now, State.hardSig, hctx, hx, if_true]
  rw [if_pos (by simpa [hpepper] using hagain)]
  simp [hpepper]

end SiteFaults

/-! ## FAULT_REPORT (R159, R164, R270 to R273) -/

/-- A report of a place that the tile's loss, or a site's service of no column, silences (R272). -/
theorem execFaultReport_silent {s : State} {t : Nat} {f : FaultInfo}
    (h : (∃ g, f.tile = some g ∧ (s.lost (g / 150) = true ∨ s.inCReset (g / 150) = true)) ∨
      (∃ (g : Tile) (sh : Fin 16) (st : Fin 17), f.tile = some g ∧ f.shelf = some sh ∧ f.site = some st ∧ s.serves g sh st = false)) :
    execFaultReport t f s = .next (s.upto t) := by
  rcases h with ⟨g, hg, hgone⟩ | ⟨g, sh, st, hg, hsh, hst, hidle⟩
  · have hgone' : ((s.upto t).lost (g / 150) || (s.upto t).inCReset (g / 150)) = true := by
      rw [Bool.or_eq_true]
      exact hgone
    simp [execFaultReport, hg, hgone']
  · have hidle' : (s.upto t).serves g sh st = false := hidle
    simp [execFaultReport, hg, hsh, hst, hidle']

/-- The report finds its place in service. -/
structure Reports (s : State) (f : FaultInfo) : Prop where
  tile : ∀ g, f.tile = some g → s.lost (g / 150) = false ∧ s.inCReset (g / 150) = false
  site : ∀ g sh st, f.tile = some g → f.shelf = some sh → f.site = some st → s.serves g sh st = true

/-- A corrected error is counted (R186, R270). -/
theorem execFaultReport_corrected {s : State} {t : Nat} {f : FaultInfo} (h : Reports s f) (hmech : f.mechanism = 3) :
    execFaultReport t f s = .next ((s.upto t).corrected f) := by
  unfold execFaultReport
  extract_lets a idle gone
  have hgone : gone = false := by
    unfold gone
    split
    · next g hg => exact (Bool.or_eq_false_iff).2 (h.tile g hg)
    · rfl
  have hidle : idle = false := by
    unfold idle
    split
    · next g sh st hg hsh hst => exact Bool.not_eq_false' .. ▸ h.site g sh st hg hsh hst
    · rfl
  rw [hgone, hidle, if_neg (by simp), if_pos hmech]

/-- A state that has noted a fault of a checker's drawer (R421). -/
def State.reported (t g x : Nat) (s : State) : State := (s.upto t).checkerFault g x

theorem reported_unchecks (t g x : Nat) (s : State) : Unchecks (s.upto t) (s.reported t g x) :=
  .foldl (fun u q => u.setFeed_unchecks q _) _ _

theorem recOf_congr {s u : State} (hnow : u.now = s.now) (hdr : ∀ g x, u.dr g x = s.dr g x) (f : FaultInfo) (x : Option Nat) :
    u.recOf f x = s.recOf f x := by
  simp only [State.recOf, hnow, hdr]

section Sites

variable {s : State} {f : FaultInfo} {g : Tile} {x : Ctx} {sh : Fin 16} {st : Fin 17} (t : Nat)
  (htile : f.tile = some g) (hctx : f.ctx = some x) (hshelf : f.shelf = some sh) (hsite : f.site = some st)
  (hmech : f.mechanism ≠ 3) (hlost : s.lost (g / 150) = false) (hreset : s.inCReset (g / 150) = false)
  (hserves : s.serves g sh st = true)

theorem recOf_reported : (s.reported t g x).recOf f (some x.val) = (s.upto t).recOf f (some x) := by
  have h := reported_unchecks t g x s
  exact recOf_congr (by rw [h.frame]; rfl) (fun g' x' => State.dr_congr (State.tile_congr h.tiles g') x') f _

include htile hctx hshelf hsite hmech hlost hreset hserves

/-- A fault of a core that is not corrected. -/
theorem execFaultReport_core (hpepper : f.pepper = false) (hcode : f.structureCode = 1 ∨ f.structureCode = 2) :
    execFaultReport t f s =
      .next ((s.reported t g x).coreFault f g (some x) false ((s.upto t).recOf f (some x))) := by
  have hserves' : (s.upto t).serves g sh st = true := hserves
  have hlost' : (s.upto t).lost (g / 150) = false := hlost
  have hreset' : (s.upto t).inCReset (g / 150) = false := hreset
  have hcode' : (f.structureCode.toNat = 1 ∨ f.structureCode.toNat = 2) := by
    rcases hcode with h | h <;> simp [h]
  rw [← recOf_reported t]
  simp only [execFaultReport, htile, hctx, hshelf, hsite, hserves', hlost', hreset', hmech, hpepper, Bool.not_true,
    Bool.or_self, Bool.false_eq_true, if_false]
  rw [if_pos (by simpa using hcode')]
  rfl

/-- One found on a pepper operation. -/
theorem execFaultReport_pepper (hpepper : f.pepper = true) :
    execFaultReport t f s = .next (((s.reported t g x).setFlag Obj.healthFlags 0x80).siteFault g sh st f false
      ((s.upto t).recOf f (some x)) 0xFF) := by
  have hserves' : (s.upto t).serves g sh st = true := hserves
  have hlost' : (s.upto t).lost (g / 150) = false := hlost
  have hreset' : (s.upto t).inCReset (g / 150) = false := hreset
  rw [← recOf_reported t]
  simp only [execFaultReport, htile, hctx, hshelf, hsite, hserves', hlost', hreset', hmech, hpepper, Bool.not_true,
    Bool.or_self, Bool.false_eq_true, if_false, if_true]
  rfl

end Sites

/-! ## A fault of a core on a pass in flight (R159, R161, R273, R285) -/

/-- Of the objects, the log of a record looks at its count and those of the rungs. -/
theorem Logged.congr {r : FaultRec} {rung : Nat} {s s' u u' : State} (h : Logged r rung s u)
    (hs : ∀ k, k = 0x480002 ∨ 0x480201 ≤ k ∧ k < 0x490000 → s'.num k = s.num k) (hu : ∀ k, u'.num k = u.num k)
    (hlog : s'.health.log = s.health.log) (hlog' : u'.health.log = u.health.log) (hnow : u'.now = u.now) :
    Logged r rung s' u' := by
  obtain ⟨hentry, hcount, hrung⟩ := h
  have hn := hs Obj.faultsRecorded (.inl rfl)
  refine ⟨?_, ?_, fun h => ?_⟩
  · rw [hlog', hentry, hlog, hn, State.since, State.since, hnow]
  · rw [Counted, hu, hn]
    exact hcount
  · have hk : 0x480201 ≤ 0x480201 + rung ∧ 0x480201 + rung < 0x490000 := by omega
    rw [Counted, hu, hs _ (.inr hk)]
    exact hrung h

/-- A tile has its objects in indices 0x3000 to 0x37FF. -/
theorem tileKey_range {b : Nat} (g : Tile) (hlo : 0x300000 ≤ b) (hhi : b < 0x310000 - 150) :
    0x300000 ≤ tileKey b g ∧ tileKey b g < 0x380000 := by
  have := g.isLt
  unfold tileKey
  omega

/-- A state that has discarded a pass. -/
def State.discards (g x p : Nat) (s : State) : State :=
  (s.bump (tileKey Obj.passesDiscarded g) ((s.dr g x).lostPasses p)).modDr g x (Drawer.discarded p)

/-- A state that has found a fault of a core on pass p: the pass is discarded, and the fault noted with its signature. -/
def State.foundOn (g x p k : Nat) (sig : List Nat) (s : State) : State := (s.discards g x p).found k x sig g

/-- The drawer of the fault, before it replays or stops. -/
def Drawer.faulted (p : Nat) (sig : List Nat) (d : Drawer) : Drawer := { d.discarded p with sigs := sig :: d.sigs }

/-- It issues again where its level allows a pass, else stays Discarding. -/
theorem replayed_faulted (p : Nat) (sig : List Nat) (d : Drawer) :
    (d.faulted p sig).replayed = { d with
      await := d.await.filter (·.pass < p)
      pass := p
      begun := true
      sigs := sig :: d.sigs
      st := if 0 < d.level then .issuing else .discarding } := by
  have hlevel : (d.faulted p sig).level = d.level := rfl
  unfold Drawer.replayed
  rw [hlevel]
  by_cases h : 0 < d.level
  · rw [if_pos ⟨rfl, h⟩, if_pos h]
    rfl
  · rw [if_neg fun hand => h hand.2, if_neg h]
    rfl

/-- A state with a persistent fault flagged (R273). -/
def State.flagged (s : State) : State := s.setFlag Obj.healthFlags 1

section Found

variable {s a : State} {g : Tile} {x : Ctx} {p k : Nat} {sig : List Nat}

theorem dr_foundOn : (a.foundOn g x p k sig).dr g x = (a.dr g x).faulted p sig := by
  unfold State.foundOn State.found
  rw [State.dr_modDr_self]
  have : ((a.discards g x p).marked k).dr g x = (a.dr g x).discarded p := State.dr_modDr_self _ _ _ _
  rw [this]
  rfl

theorem dr_foundOn_ne {y : Nat} (hy : y ≠ x) : (a.foundOn g x p k sig).dr g y = a.dr g y :=
  (State.dr_modDr_ne _ _ _ hy).trans (State.dr_modDr_ne _ _ _ hy)

theorem tile_foundOn {h : Nat} (hne : h ≠ g) : (a.foundOn g x p k sig).tile h = a.tile h :=
  (State.tile_modDr_ne _ _ _ hne).trans (State.tile_modDr_ne _ _ _ hne)

theorem health_foundOn : (a.foundOn g x p k sig).health = (a.marked k).health := rfl

theorem num_foundOn_self : (a.foundOn g x p k sig).num (tileKey Obj.passesDiscarded g) =
    min (a.num (tileKey Obj.passesDiscarded g) + (a.dr g x).lostPasses p) (maxOf (tileKey Obj.passesDiscarded g)) :=
  State.num_bump_self _ _ _

theorem val_foundOn_ne {k' : Nat} (hne : k' ≠ tileKey Obj.passesDiscarded g) :
    (a.foundOn g x p k sig).val k' = a.val k' := State.val_setVal_ne _ _ _ _ hne

/-- A fault of a core on a pass in flight: the pass is discarded, what the site's mark says is done, and the tile's drawers
replay. -/
theorem coreFault_flying {f : FaultInfo} {sh : Fin 16} {st : Fin 17} {r : FaultRec} (hshelf : f.shelf = some sh)
    (hsite : f.site = some st) (hasked : (a.dr g x).asked = false)
    (hst : (a.dr g x).st = .issuing ∨ (a.dr g x).st = .draining) (hfly : (a.dr g x).flying.contains f.pass = true) :
    a.coreFault f g (some x) false r = ((a.discards g x f.pass).siteFault g sh st f false r 1).replayTile g := by
  simp only [State.coreFault, hshelf, hsite, hfly, if_true, discardPass_flying hasked hst hfly]
  rfl

end Found

section Core

variable {a : State} {f : FaultInfo} {g : Tile} {x : Ctx} {sh : Fin 16} {st : Fin 17} {r : FaultRec}
  (hpepper : f.pepper = false) (hshelf : f.shelf = some sh) (hsite : f.site = some st) (hctx : r.ctx = x)
  (hasked : (a.dr g x).asked = false) (hst : (a.dr g x).st = .issuing ∨ (a.dr g x).st = .draining)
  (hfly : (a.dr g x).flying.contains f.pass = true)
include hpepper hshelf hsite hctx hasked hst hfly

/-- A first fault: recorded with rung 1, and the drawer replays. -/
theorem coreFault_first (hcount : r.count = 1) (hnear : a.nearMarks (siteMark g sh st) = [])
    (hsig : r.signature (siteMark g sh st) f.pass ∉ (a.dr g x).sigs) :
    a.coreFault f g (some x) false r =
      ((a.foundOn g x f.pass (siteMark g sh st) (r.signature (siteMark g sh st) f.pass)).logFault r 1).replayTile g := by
  have hdr : (a.discards g x f.pass).dr g x = (a.dr g x).discarded f.pass := State.dr_modDr_self _ _ _ _
  have hr : ({ r with count := 1 } : FaultRec) = r := by rw [← hcount]
  rw [coreFault_flying hshelf hsite hasked hst hfly, siteFault_first (s := a.discards g x f.pass) hpepper hctx x.isLt
    (by rw [hdr]; rfl) 1 hnear (by rw [hdr]; exact hsig), hr]
  rfl

/-- Any other: a rung for the site is queued, and what it has not stopped replays. -/
theorem coreFault_again
    (hagain : a.nearMarks (siteMark g sh st) ≠ [] ∨ r.signature (siteMark g sh st) f.pass ∈ (a.dr g x).sigs) :
    a.coreFault f g (some x) false r =
      ((a.foundOn g x f.pass (siteMark g sh st) (r.signature (siteMark g sh st) f.pass)).flagged.queueTile g (.site g sh st)
        { r with count := (a.nearMarks (siteMark g sh st)).length + 1, flags := r.flags ||| 1 }).replayTile g := by
  have hdr : (a.discards g x f.pass).dr g x = (a.dr g x).discarded f.pass := State.dr_modDr_self _ _ _ _
  rw [coreFault_flying hshelf hsite hasked hst hfly, siteFault_again (s := a.discards g x f.pass) hpepper hctx x.isLt
    (by rw [hdr]; rfl) 1 (by rw [hdr]; exact hagain)]
  rfl

end Core

section Outcomes

variable {a u : State} {g : Tile} {x : Ctx} {p k : Nat} {sig : List Nat} {r : FaultRec}

/-- What a first fault leaves. -/
theorem first_spec (hu : u = ((a.foundOn g x p k sig).logFault r 1).replayTile g) :
    u.health.marks.get [] k = a.now :: a.nearMarks k ∧
      Counted (tileKey Obj.passesDiscarded g) ((a.dr g x).lostPasses p) a u ∧ (∀ h, h ≠ g.val → u.tile h = a.tile h) ∧
      u.dr g x = ((a.dr g x).faulted p sig).replayed ∧ Logged r 1 a u ∧ u.health.rungs = a.health.rungs ∧
      u.mem = a.mem ∧ u.jobs = a.jobs ∧ u.streams = a.streams := by
  have hkey := tileKey_range g (b := Obj.passesDiscarded) (by decide) (by decide)
  have hlog := logFault_logs r 1 (a.foundOn g x p k sig)
  obtain ⟨hframe, hothers, hdr⟩ := replayTile_spec ((a.foundOn g x p k sig).logFault r 1) g
  rw [← hu] at hframe hothers hdr
  generalize (a.foundOn g x p k sig).logFault r 1 = b at hlog hframe hothers hdr
  have htiles (h : Nat) : b.tile h = (a.foundOn g x p k sig).tile h := State.tile_congr (by rw [hlog.frame]; rfl) h
  refine ⟨?_, ?_, fun h hne => ?_, ?_, ?_, ?_, ?_, ?_, ?_⟩
  · rw [hframe, hlog.frame]
    exact marks_marked k a
  · have hnot : tileKey Obj.passesDiscarded g ∉ logKeys 1 := by
      have : ∀ k, k < 0x380000 → k ≠ 0x480002 ∧ k ≠ 0x481200 ∧ k ≠ 0x48000a ∧ k ≠ 0x480201 + 1 ∧ k ≠ 0x480301 + 1 := by omega
      simpa [logKeys] using this _ hkey.2
    rw [Counted, ← num_foundOn_self (sig := sig) (k := k), ← hlog.objects.num_of_le hnot (by omega), hframe]
    rfl
  · rw [hothers h hne, htiles, tile_foundOn hne]
  · rw [hdr, State.dr_congr (htiles g), dr_foundOn]
  · have hnum (k' : Nat) : u.num k' = b.num k' := by rw [hframe]; rfl
    refine hlog.logged.congr (fun k' hk => ?_) hnum rfl (by rw [hframe]) (by rw [hframe])
    exact congrArg Val.toNat (val_foundOn_ne (by omega)).symm
  all_goals
    rw [hframe, hlog.frame]
    rfl


theorem flagged_changes (s : State) : ChangesOnly [Obj.healthFlags] s s.flagged := State.setFlag_changes _ _ _

section Again

variable {sh st : Nat} {c : State}

/-- Stops leave the count of passes discarded. -/
theorem passesDiscarded_not_mem_stopKeys (g : Tile) : tileKey Obj.passesDiscarded g ∉ stopKeys g := by
  have hkey := tileKey_range g (b := Obj.passesDiscarded) (by decide) (by decide)
  have hdev : ∀ k, k < 0x380000 → k ≠ 0x380001 ∧ k ≠ 0x380002 ∧ k ≠ 0x380003 := by omega
  have hpre : tileKey Obj.passesDiscarded g ≠ tileKey Obj.preemptionsTaken g := tileKey_ne _ (by decide)
  have hland : tileKey Obj.passesDiscarded g ≠ tileKey Obj.landingConflicts g := tileKey_ne _ (by decide)
  simpa [stopKeys, landKeys, hpre, hland] using hdev _ hkey.2

/-- Stops leave the objects of the health service. -/
theorem health_not_mem_stopKeys (g : Tile) (hk : 0x480000 ≤ k) : k ∉ stopKeys g := by
  have hpre := tileKey_range g (b := Obj.preemptionsTaken) (by decide) (by decide)
  have hland := tileKey_range g (b := Obj.landingConflicts) (by decide) (by decide)
  have hdev : k ≠ 0x380001 ∧ k ≠ 0x380002 ∧ k ≠ 0x380003 := by omega
  have hpre' : k ≠ tileKey Obj.preemptionsTaken g := by omega
  have hland' : k ≠ tileKey Obj.landingConflicts g := by omega
  simpa [stopKeys, landKeys, hpre', hland'] using hdev

theorem flagged_fence (g : Tile) (c : State) :
    c.flagged.retired g = c.retired g ∧ ∀ sh st, c.flagged.siteCode g sh st = c.siteCode g sh st := by
  refine fence_congr ((flagged_changes c).2 _ ?_ (ne_eventsDropped_of_le (Nat.le_add_right_of_le (by decide))))
  have : 0x480801 + g.val / 150 ≠ 0x48000a := by have := g.isLt; omega
  simpa using this

theorem flagged_tileRung (g : Tile) (c : State) : c.flagged.tileRung g = c.tileRung g := by
  rw [State.tileRung, (flagged_changes c).health, State.tileRung]

theorem flagged_dr (g x : Nat) (c : State) : c.flagged.dr g x = c.dr g x :=
  State.dr_congr (State.tile_congr (by rw [(flagged_changes c).1]) g) x

/-- What a persistent fault leaves of the marks, the count of discards and the other tiles. -/
theorem persists_keeps (hu : u = (c.flagged.queueTile g (.site g sh st) r).replayTile g) :
    u.health.marks = c.health.marks ∧
      u.num (tileKey Obj.passesDiscarded g) = c.num (tileKey Obj.passesDiscarded g) ∧
      ∀ h, h ≠ g.val → u.tile h = c.tile h := by
  have hkey := tileKey_range g (b := Obj.passesDiscarded) (by decide) (by decide)
  have hflag := flagged_changes c
  have hq := queueTile_queuesFor g sh st r c.flagged
  obtain ⟨hframe, hothers, -⟩ := replayTile_spec (c.flagged.queueTile g (.site g sh st) r) g
  rw [← hu] at hframe hothers
  generalize c.flagged.queueTile g (.site g sh st) r = b at hq hframe hothers
  refine ⟨?_, ?_, fun h hne => ?_⟩
  · rw [hframe, ← hflag.health]
    exact hq.marks
  · have hne : ∀ k, k < 0x380000 → k ≠ 0x48000a := by omega
    have hkept := congrArg Val.toNat (hq.objects _ hkey.1 (by omega) (passesDiscarded_not_mem_stopKeys g))
    rw [hframe]
    exact hkept.trans (hflag.2.num_of_le (by simpa using hne _ hkey.2) (by omega))
  · rw [hothers h hne, hq.others h hne]
    exact State.tile_congr (by rw [hflag.1]) h

/-- Where its site is in service, or a rung is before it, its rung waits. -/
theorem persists_waits (hu : u = (c.flagged.queueTile g (.site g sh st) r).replayTile g)
    (hfresh : c.tileRung g = none → c.retired g = false ∧ c.siteCode g sh st = 0) :
    u.health = (c.waiting (.site g sh st) r).health ∧ u.num Obj.healthFlags = c.num Obj.healthFlags ||| 1 ∧
      u.num Obj.healthState = 1 := by
  have hflag := flagged_changes c
  have hq := queueRung_changes (.site g sh st) r c.flagged
  obtain ⟨hret, hcode⟩ := flagged_fence g c
  have hstops : StopsDrawers g _ _ (c.flagged.queueTile g (.site g sh st) r) :=
    queueTile_stops (by rwa [flagged_tileRung, hret, hcode])
  have hframe := (replayTile_spec (c.flagged.queueTile g (.site g sh st) r) g).1
  rw [← hu] at hframe
  generalize c.flagged.queueTile g (.site g sh st) r = b at hstops hframe
  have hnum {k : Nat} (hlo : 0x480000 ≤ k) (hhi : k < 0x600000) :
      u.num k = (c.flagged.queueRung (.site g sh st) r).num k := by
    rw [hframe]
    exact congrArg Val.toNat (hstops.objects k (by omega) hhi (health_not_mem_stopKeys g hlo))
  refine ⟨?_, ?_, ?_⟩
  · rw [hframe]
    exact hstops.health.trans (hq.health.trans (by rw [State.waiting, hflag.health]; rfl))
  · rw [hnum (by decide) (by decide), hq.2.num_of_le (by decide) (by decide)]
    exact State.num_setFlag_self _ _ _ (quiet_of_mod (by decide))
  · rw [hnum (by decide) (by decide), num_queueRung]

/-- Where its tile has no rung before it and rung 2 answers it, its Discarding drawer stops. -/
theorem persists_stops {x : Ctx} (hu : u = (c.flagged.queueTile g (.site g sh st) r).replayTile g)
    (hnone : c.tileRung g = none) (hret : c.retired g = false) (hcode : c.siteCode g sh st = 0) (hrt : c.hasRt g = false)
    (hsites : (c.sites g sh).length = 17) (hst : (c.dr g x).st = .discarding) (hpre : (c.dr g x).preempt = false) :
    (u.dr g x).st = (if (c.dr g x).await = [] then .stopped else .stopping) ∧ (u.dr g x).recover = true := by
  have hdr := flagged_dr g x c
  have hrung : c.flagged.rung2 g sh = true := by
    have hrt' : c.flagged.hasRt g = false :=
      (hasRt_congr (fun y => by rw [flagged_dr]) (fun y => by rw [flagged_dr])).trans hrt
    have hsites' : (c.flagged.sites g sh).length = 17 := by rw [State.sites, (flagged_changes c).health]; exact hsites
    simp [State.rung2, hrt', hsites']
  obtain ⟨hret', hcode'⟩ := flagged_fence g c
  have hstop := queueTile_discarding (r := r) ((flagged_tileRung g c).trans hnone) (hret'.trans hret)
    ((hcode' sh st).trans hcode) hrung x.isLt (by rw [hdr, hst]) (by rw [hdr, hpre])
  have hreplay := (replayTile_spec (c.flagged.queueTile g (.site g sh st) r) g).2.2 x
  rw [hdr] at hstop
  rw [hu, hreplay, Drawer.replayed, if_neg]
  · exact hstop
  · rw [hstop.1]
    split <;> simp

end Again

end Outcomes

/-! ## A report at a site, told from the state before it -/

section Reported

variable (t : Nat) (g : Tile) (x : Nat) (s : State)

theorem reported_now : (s.reported t g x).now = max s.now t := by rw [(reported_unchecks t g x s).frame]; rfl

theorem reported_health : (s.reported t g x).health = s.health := (reported_unchecks t g x s).health

theorem reported_tile (h : Nat) : (s.reported t g x).tile h = s.tile h :=
  State.tile_congr (reported_unchecks t g x s).tiles h

theorem reported_dr (y : Nat) : (s.reported t g x).dr g y = s.dr g y := State.dr_congr (reported_tile t g x s g) y

theorem reported_val {k : Nat} (hlo : 0x300000 ≤ k) (hhi : k < 0x600000) : (s.reported t g x).val k = s.val k :=
  (reported_unchecks t g x s).objects k hlo hhi

theorem reported_num {k : Nat} (hlo : 0x300000 ≤ k) (hhi : k < 0x600000) : (s.reported t g x).num k = s.num k :=
  congrArg Val.toNat (reported_val t g x s hlo hhi)

theorem reported_rest : (s.reported t g x).mem = s.mem ∧ (s.reported t g x).jobs = s.jobs ∧
    (s.reported t g x).streams = s.streams := by
  rw [(reported_unchecks t g x s).frame]
  exact ⟨rfl, rfl, rfl⟩

theorem reported_near (k : Nat) :
    (s.reported t g x).nearMarks k = (s.health.marks.get [] k).filter fun m => max s.now t ≤ m + 1000000000 := by
  rw [State.nearMarks, reported_now, reported_health]

theorem Logged.of_reported {t x : Nat} {g : Tile} {s u : State} {r : FaultRec} {rung : Nat}
    (h : Logged r rung (s.reported t g x) u) : Logged r rung s u :=
  h.congr (fun k _ => (reported_num t g x s (by omega) (by omega)).symm) (fun _ => rfl)
    (by rw [reported_health]) rfl rfl

end Reported

/-- What any fault of a core on a pass in flight leaves: the site's mark, the count of discards, the other tiles. -/
structure FaultsCore (s u : State) (t k n : Nat) (g : Tile) : Prop where
  marks : u.health.marks.get [] k =
    max s.now t :: (s.health.marks.get [] k).filter fun m => max s.now t ≤ m + 1000000000
  discards : Counted (tileKey Obj.passesDiscarded g) n s u
  others : ∀ h, h ≠ g.val → u.tile h = s.tile h

section Outcomes

variable {s u : State} {t k p : Nat} {g : Tile} {x : Ctx} {sh : Fin 16} {st : Fin 17} {sig : List Nat} {r : FaultRec}

theorem first_of_reported (hu : u = (((s.reported t g x).foundOn g x p k sig).logFault r 1).replayTile g) :
    FaultsCore s u t k ((s.dr g x).lostPasses p) g ∧ u.dr g x = ((s.dr g x).faulted p sig).replayed ∧ Logged r 1 s u ∧
      u.health.rungs = s.health.rungs ∧ u.mem = s.mem ∧ u.jobs = s.jobs ∧ u.streams = s.streams := by
  obtain ⟨hmarks, hcount, hothers, hdr, hlog, hrungs, hmem, hjobs, hstreams⟩ := first_spec hu
  obtain ⟨hmem', hjobs', hstreams'⟩ := reported_rest t g x s
  have hkey := tileKey_range g (b := Obj.passesDiscarded) (by decide) (by decide)
  rw [reported_now, reported_near] at hmarks
  rw [Counted, reported_dr, reported_num _ _ _ _ hkey.1 (by omega)] at hcount
  rw [reported_dr] at hdr
  rw [reported_health] at hrungs
  exact ⟨⟨hmarks, hcount, fun h hne => (hothers h hne).trans (reported_tile t g x s h)⟩, hdr, hlog.of_reported, hrungs,
    hmem.trans hmem', hjobs.trans hjobs', hstreams.trans hstreams'⟩

theorem foundOn_reported_health : let c := (s.reported t g x).foundOn g x p k sig
    c.health.rungs = s.health.rungs ∧ c.health.steer = s.health.steer ∧ c.health.log = s.health.log := by
  intro c
  rw [health_foundOn, State.marked, reported_health]
  exact ⟨rfl, rfl, rfl⟩

/-- The state that has found the fault keeps the tile's rung and fences. -/
theorem foundOn_reported_fences : let c := (s.reported t g x).foundOn g x p k sig
    c.tileRung g = s.tileRung g ∧ c.retired g = s.retired g ∧ ∀ sh st, c.siteCode g sh st = s.siteCode g sh st := by
  intro c
  have hkey := tileKey_range g (b := Obj.passesDiscarded) (by decide) (by decide)
  have hfence : 0x480801 ≤ Obj.tileFenceMap + g / 150 ∧ Obj.tileFenceMap + g / 150 < 0x480809 :=
    ⟨Nat.le_add_right _ _, Nat.add_lt_add_left (show g.val / 150 < 8 by omega) 0x480801⟩
  refine ⟨?_, fence_congr ((val_foundOn_ne ?_).trans (reported_val t g x s ?_ ?_))⟩
  · rw [State.tileRung, foundOn_reported_health.1, State.tileRung]
  all_goals omega

/-- It keeps what decides whether rung 2 answers. -/
theorem foundOn_reported_rung2 (hb : (s.dr g x).bound = true) : let c := (s.reported t g x).foundOn g x p k sig
    c.hasRt g = s.hasRt g ∧ c.sites g sh = s.sites g sh := by
  intro c
  have hdr (y : Nat) : (c.dr g y).bound = (s.dr g y).bound ∧ (c.dr g y).rt = (s.dr g y).rt := by
    by_cases hy : y = x
    · rw [hy, dr_foundOn, reported_dr, hb]
      exact ⟨rfl, rfl⟩
    · rw [dr_foundOn_ne hy, reported_dr]
      exact ⟨rfl, rfl⟩
  refine ⟨hasRt_congr (fun y => (hdr y).1) (fun y => (hdr y).2), ?_⟩
  rw [State.sites, foundOn_reported_health.2.1, State.sites]

variable (hu : u = (((s.reported t g x).foundOn g x p k sig).flagged.queueTile g (.site g sh st) r).replayTile g)
include hu

theorem again_of_reported : FaultsCore s u t k ((s.dr g x).lostPasses p) g := by
  have hkey := tileKey_range g (b := Obj.passesDiscarded) (by decide) (by decide)
  obtain ⟨hmarks, hcount, hothers⟩ := persists_keeps hu
  refine ⟨?_, ?_, fun h hne => ?_⟩
  · rw [hmarks, health_foundOn, ← reported_near t g x, ← reported_now t g x]
    exact marks_marked k _
  · rw [Counted, hcount, num_foundOn_self, reported_dr, reported_num _ _ _ _ hkey.1 (by omega)]
  · rw [hothers h hne, tile_foundOn hne, reported_tile]

theorem again_waits (hfresh : s.tileRung g = none → s.retired g = false ∧ s.siteCode g sh st = 0) :
    u.health.rungs = s.health.rungs ++ [⟨.site g sh st, r⟩] ∧ u.num Obj.healthFlags = s.num Obj.healthFlags ||| 1 ∧
      u.num Obj.healthState = 1 ∧ u.health.log = s.health.log := by
  have hkey := tileKey_range g (b := Obj.passesDiscarded) (by decide) (by decide)
  obtain ⟨hrung, hret, hcode⟩ := foundOn_reported_fences (s := s) (t := t) (g := g) (x := x) (p := p) (k := k) (sig := sig)
  obtain ⟨hrungs, -, hlog⟩ := foundOn_reported_health (s := s) (t := t) (g := g) (x := x) (p := p) (k := k) (sig := sig)
  obtain ⟨hhealth, hflags, hstate⟩ := persists_waits hu (by rwa [hrung, hret, hcode])
  refine ⟨?_, ?_, hstate, ?_⟩
  · rw [hhealth, ← hrungs]
    rfl
  · have hne : Obj.healthFlags ≠ tileKey Obj.passesDiscarded g := by
      have : ∀ k, k < 0x380000 → 0x48000a ≠ k := by omega
      exact this _ hkey.2
    rw [hflags, State.num, val_foundOn_ne hne, reported_val _ _ _ _ (by decide) (by decide), ← State.num]
  · rw [hhealth, ← hlog]
    rfl

theorem again_stops (hnone : s.tileRung g = none) (hret : s.retired g = false) (hcode : s.siteCode g sh st = 0)
    (hrt : s.hasRt g = false) (hsites : (s.sites g sh).length = 17) (hasked : (s.dr g x).asked = false)
    (hb : (s.dr g x).bound = true) :
    (u.dr g x).st = (if (s.dr g x).await.filter (·.pass < p) = [] then .stopped else .stopping) ∧
      (u.dr g x).recover = true := by
  obtain ⟨hrung, hret', hcode'⟩ := foundOn_reported_fences (s := s) (t := t) (g := g) (x := x) (p := p) (k := k) (sig := sig)
  obtain ⟨hrt', hsites'⟩ := foundOn_reported_rung2 (t := t) (p := p) (k := k) (sig := sig) (sh := sh) hb
  have hpre : (s.dr g x).preempt = false := (Bool.or_eq_false_iff.1 hasked).1
  have hdr : ((s.reported t g x).foundOn g x p k sig).dr g x = (s.dr g x).faulted p sig := by rw [dr_foundOn, reported_dr]
  have hstop := persists_stops (x := x) hu (hrung.trans hnone) (hret'.trans hret) ((hcode' _ _).trans hcode)
    (hrt'.trans hrt) (by rw [hsites', hsites]) (by rw [hdr]; rfl) (by rw [hdr]; exact hpre)
  rw [hdr] at hstop
  exact hstop

end Outcomes

/-! ## The clauses of O36 -/

section Corrected

variable {s : State} {f : FaultInfo}

/-- A corrected error outside the bank registers of resident contexts is counted. -/
theorem corrected_elsewhere (h : ∀ (g : Tile) (x : Ctx), f.tile = some g → f.ctx = some x →
    f.structureCode ≠ 6 ∨ (s.tile g).bankOf x = none) : s.corrected f = s.bump Obj.correctedErrors 1 := by
  unfold State.corrected
  extract_lets u
  split
  · next g x hg hx =>
    have hidle : ¬(f.structureCode = 6 ∧ ((s.tile g).bankOf x).isSome = true) := by
      rintro ⟨hcode, hbank⟩
      rcases h g x hg hx with h | h
      · exact h hcode
      · simp [h] at hbank
    exact if_neg (by simpa [u] using hidle)
  · rfl

/-- One in such a register costs a cycle of freeze too. -/
theorem corrected_bank {g : Tile} {x : Ctx} (hg : f.tile = some g) (hx : f.ctx = some x) (hcode : f.structureCode = 6)
    (hbank : (s.tile g).bankOf x ≠ none) :
    s.corrected f = (s.bump Obj.correctedErrors 1).bump (tileKey Obj.freezeCycles g) 1 := by
  simp [State.corrected, hg, hx, hcode, Option.isSome_iff_ne_none, hbank]

end Corrected

section Core

variable {s : State} {f : FaultInfo} {g : Tile} {x : Ctx} {sh : Fin 16} {st : Fin 17} (t : Nat)
  (htile : f.tile = some g) (hctx : f.ctx = some x) (hshelf : f.shelf = some sh) (hsite : f.site = some st)
  (hpepper : f.pepper = false) (hcode : f.structureCode = 1 ∨ f.structureCode = 2) (hmech : f.mechanism ≠ 3)
  (hlost : s.lost (g / 150) = false) (hreset : s.inCReset (g / 150) = false) (hserves : s.serves g sh st = true)
  (hasked : (s.dr g x).asked = false) (hst : (s.dr g x).st = .issuing ∨ (s.dr g x).st = .draining)
  (hfly : (s.dr g x).flying.contains f.pass = true)
include htile hctx hshelf hsite hpepper hcode hmech hlost hreset hserves hasked hst hfly

/-- A first fault of a core. -/
theorem faultReport_first (hnear : (s.health.marks.get [] (siteMark g sh st)).filter (max s.now t ≤ · + 1000000000) = [])
    (hsig : ((s.upto t).recOf f (some x)).signature (siteMark g sh st) f.pass ∉ (s.dr g x).sigs) :
    Answers (exec (.faultReport t f) s) fun u =>
      FaultsCore s u t (siteMark g sh st) ((s.dr g x).lostPasses f.pass) g ∧
        u.dr g x = ((s.dr g x).faulted f.pass
          (((s.upto t).recOf f (some x)).signature (siteMark g sh st) f.pass)).replayed ∧
        Logged ((s.upto t).recOf f (some x)) 1 s u ∧ u.health.rungs = s.health.rungs ∧ u.mem = s.mem ∧ u.jobs = s.jobs ∧
        u.streams = s.streams := by
  rw [← reported_dr t g x] at hasked hst hfly hsig
  rw [← reported_near t g x] at hnear
  refine ⟨_, execFaultReport_core t htile hctx hshelf hsite hmech hlost hreset hserves hpepper hcode, ?_⟩
  rw [coreFault_first hpepper hshelf hsite rfl hasked hst hfly rfl hnear hsig]
  exact first_of_reported rfl

/-- A second fault of the site within 1,000 ms, or the same signature again. -/
theorem faultReport_again (hagain : (s.health.marks.get [] (siteMark g sh st)).filter (max s.now t ≤ · + 1000000000) ≠ [] ∨
      ((s.upto t).recOf f (some x)).signature (siteMark g sh st) f.pass ∈ (s.dr g x).sigs) :
    Answers (exec (.faultReport t f) s) fun u =>
      FaultsCore s u t (siteMark g sh st) ((s.dr g x).lostPasses f.pass) g ∧
        ((s.tileRung g = none → s.retired g = false ∧ s.siteCode g sh st = 0) →
          u.health.rungs = s.health.rungs ++ [⟨.site g sh st, { (s.upto t).recOf f (some x) with
            count := ((s.health.marks.get [] (siteMark g sh st)).filter (max s.now t ≤ · + 1000000000)).length + 1
            flags := ((s.upto t).recOf f (some x)).flags ||| 1 }⟩] ∧
          u.num Obj.healthFlags = s.num Obj.healthFlags ||| 1 ∧ u.num Obj.healthState = 1 ∧ u.health.log = s.health.log ∧
          (s.tileRung g = none → s.hasRt g = false → (s.sites g sh).length = 17 →
            (u.dr g x).st = (if (s.dr g x).await.filter (·.pass < f.pass) = [] then .stopped else .stopping) ∧
              (u.dr g x).recover = true)) := by
  have hb : (s.dr g x).bound = true := by rcases hst with h | h <;> rw [Drawer.bound, h] <;> rfl
  have hidle := hasked
  rw [← reported_dr t g x] at hasked hst hfly hagain
  rw [← reported_near t g x] at hagain ⊢
  refine ⟨_, execFaultReport_core t htile hctx hshelf hsite hmech hlost hreset hserves hpepper hcode, ?_⟩
  rw [coreFault_again hpepper hshelf hsite rfl hasked hst hfly hagain]
  refine ⟨again_of_reported rfl, fun hfresh => ?_⟩
  obtain ⟨hrungs, hflags, hstate, hlog⟩ := again_waits rfl hfresh
  refine ⟨hrungs, hflags, hstate, hlog, fun hnone hrt hsites => ?_⟩
  exact again_stops rfl hnone (hfresh hnone).1 (hfresh hnone).2 hrt hsites hidle hb

end Core

/-- A replayed flit is counted, and a record of rung 0. -/
theorem linkReplay_logs (s : State) (t : Nat) (link : Byte) :
    Answers (exec (.linkReplay t link) s) fun u => Counted Obj.linkReplays 1 s u ∧
      LogsFault { FaultRec.device (max s.now t) 0x0B 5 with syn := link.toNat } 0 ((s.upto t).bump Obj.linkReplays 1) u := by
  have hlog := logFault_logs { FaultRec.device (max s.now t) 0x0B 5 with syn := link.toNat } 0
    ((s.upto t).bump Obj.linkReplays 1)
  refine ⟨_, rfl, ?_, hlog⟩
  exact (hlog.objects.num_of_le (by decide) (by decide)).trans (State.num_bump_self _ _ _)

/-- A first pepper fault is flagged and recorded, and nothing of a tile changes. -/
theorem pepper_logs {s : State} {g sh st : Nat} {f : FaultInfo} {r : FaultRec} (hpepper : f.pepper = true)
    (hcount : r.count = 1) (hnear : s.nearMarks (siteMark g sh st) = []) :
    Answers (.next ((s.setFlag Obj.healthFlags 0x80).siteFault g sh st f false r 0xFF) : Res) fun u =>
      Logged r 0xFF s u ∧ (u.num Obj.healthFlags).testBit 7 = true ∧ u.tiles = s.tiles ∧ u.mem = s.mem ∧ u.jobs = s.jobs ∧
        u.streams = s.streams ∧ u.health.rungs = s.health.rungs := by
  have hflag := State.setFlag_changes Obj.healthFlags 0x80 s
  have hset : ((s.setFlag Obj.healthFlags 0x80).num Obj.healthFlags).testBit 7 = true := by
    rw [State.testBit_setFlag _ _ _ _ (quiet_of_mod (by decide))]
    rfl
  generalize s.setFlag Obj.healthFlags 0x80 = b at hflag hset
  have hnear' : b.nearMarks (siteMark g sh st) = [] := by rw [← hnear, hflag.1]; rfl
  have hr : ({ r with count := 1 } : FaultRec) = r := by rw [← hcount]
  refine ⟨_, rfl, ?_⟩
  rw [siteFault_pepper 0xFF hpepper hnear', hr]
  have hlog := logFault_logs r 0xFF (b.marked (siteMark g sh st))
  generalize (b.marked (siteMark g sh st)).logFault r 0xFF = u at hlog
  refine ⟨hlog.logged.congr (fun k hk => ?_) (fun _ => rfl) ?_ rfl rfl, hlog.flags 7 hset, ?_⟩
  · have hne : k ≠ 0x48000a := by omega
    exact (hflag.2.num_of_le (by simpa using hne) (by omega)).symm
  · exact congrArg (·.log) hflag.health.symm
  · rw [hlog.frame, hflag.1]
    exact ⟨rfl, rfl, rfl, rfl, rfl⟩

/-- Settles O36: a report comes to `Unchecks`, then, for a core, to the discard, the mark, and either a record
(`first_of_reported`) or a queued rung (`again_of_reported`), before the tile's drawers replay. -/
theorem faultsStartTheLadder : Obligations.FaultsStartTheLadder := by
  unfold Obligations.FaultsStartTheLadder
  refine ⟨fun s t f => ⟨execFaultReport_silent, fun htile hmech hsite => ?_⟩, ?_, ?_, ?_⟩
  · have hexec : exec (.faultReport t f) s = .next ((s.upto t).corrected f) := execFaultReport_corrected ⟨htile, hsite⟩ hmech
    refine ⟨fun h => ?_, fun g x hg hx hcode hbank => ?_⟩
    · rw [hexec, corrected_elsewhere (s := s.upto t) h]
    · rw [hexec, corrected_bank (s := s.upto t) hg hx hcode hbank]
  · intro s t f g x sh st htile hctx hshelf hsite hpepper hcode hmech hlost hreset hserves d r sig old near keep hasked hst hfly
    by_cases hagain : near ≠ [] ∨ sig ∈ d.sigs
    · obtain ⟨u, hexec, hcore, hrest⟩ :=
        faultReport_again t htile hctx hshelf hsite hpepper hcode hmech hlost hreset hserves hasked hst hfly hagain
      exact ⟨u, hexec, hcore.marks, hcore.discards, hcore.others, fun hnear hsig => absurd hagain (by simp [hnear, hsig]),
        fun _ => hrest⟩
    · obtain ⟨hnear, hsig⟩ := not_or.1 hagain
      obtain ⟨u, hexec, hcore, hdr, hrest⟩ :=
        faultReport_first t htile hctx hshelf hsite hpepper hcode hmech hlost hreset hserves hasked hst hfly
          (not_not.1 hnear) hsig
      refine ⟨u, hexec, hcore.marks, hcore.discards, hcore.others, fun _ _ => ⟨hdr.trans ?_, hrest⟩,
        fun h => absurd h hagain⟩
      exact replayed_faulted _ _ _
  · intro s t f g x sh st htile hctx hshelf hsite hpepper hmech hlost hreset hserves hold
    have hnear : (s.reported t g x).nearMarks (siteMark g sh st) = [] := by
      rw [reported_near, List.filter_eq_nil_iff]
      intro m hm
      exact fun h => absurd (of_decide_eq_true h) (Nat.not_le.2 (hold m hm))
    obtain ⟨u, hu, hlog, hflag, htiles, hmem, hjobs, hstreams, hrungs⟩ :=
      pepper_logs (r := (s.upto t).recOf f (some x)) hpepper rfl hnear
    obtain ⟨hmem', hjobs', hstreams'⟩ := reported_rest t g x s
    exact ⟨u, (execFaultReport_pepper t htile hctx hshelf hsite hmech hlost hreset hserves hpepper).trans hu,
      hlog.of_reported, hflag, htiles.trans (reported_unchecks t g x s).tiles, hmem.trans hmem', hjobs.trans hjobs',
      hstreams.trans hstreams', hrungs.trans (by rw [reported_health])⟩
  · intro s t link
    obtain ⟨u, hu, hcount, hlog⟩ := linkReplay_logs s t link
    refine ⟨u, hu, hcount, hlog.logged.congr (fun k hk => ?_) (fun _ => rfl) rfl rfl rfl, ?_, ?_, hlog.frame⟩
    · exact (State.num_bump_ne _ _ _ _ (by omega : k ≠ 0x480004)).symm
    · rw [hlog.frame]
      rfl
    · rw [hlog.frame]
      rfl

end Sys2Proof.Machine

/-! PROOFS. The table of jobs, and how a job changes and ends. -/

namespace Sys2Proof.Tab

theorem mem_of_find? {α : Type} {t : Tab α} {a : Nat} {v : α} (h : t.find? a = some v) : (a, v) ∈ t := by
  induction t with
  | nil => cases h
  | cons e t ih =>
    obtain ⟨k, w⟩ := e
    rw [find?] at h
    split at h
    · cases h
    split at h
    case isTrue he =>
      obtain rfl := Option.some.inj h
      exact he ▸ List.mem_cons_self
    case isFalse => exact List.mem_cons_of_mem _ (ih h)

end Sys2Proof.Tab

namespace Sys2Proof.Machine

/-! ## The table of jobs (R311, R313) -/

/-- The objects that follow the table of jobs. -/
def jobCountKeys : List Nat := [Obj.placedJobs, Obj.queuedJobs, Obj.rtCoreEighthsUsed]

namespace State

variable (s : State)

/-- The state with another table of jobs. -/
def withJobs (l : Tab JobS) : State := { s with jobs := { s.jobs with jobs := l } }

theorem recountJobs_changes : ChangesOnly jobCountKeys s s.recountJobs :=
  (((setNum_changes _ _ _).mono (by simp [jobCountKeys])).trans ((setNum_changes _ _ _).mono (by simp [jobCountKeys]))).trans
    ((setNum_changes _ _ _).mono (by simp [jobCountKeys]))

theorem putJob_changes (id : Nat) (j : JobS) :
    ChangesOnly jobCountKeys (s.withJobs (s.jobs.jobs.put id j)) (s.putJob id j) := recountJobs_changes _

theorem delJob_changes (id : Nat) : ChangesOnly jobCountKeys (s.withJobs (s.jobs.jobs.del id)) (s.delJob id) :=
  recountJobs_changes _

@[simp] theorem putJob_jobs (id : Nat) (j : JobS) : (s.putJob id j).jobs = { s.jobs with jobs := s.jobs.jobs.put id j } := rfl

@[simp] theorem job_putJob_self (id : Nat) (j : JobS) : (s.putJob id j).job id = some j := Tab.find?_put_self _ _ _

theorem job_putJob_ne (id : Nat) (j : JobS) {i : Nat} (h : i ≠ id) : (s.putJob id j).job i = s.job i :=
  Tab.find?_put_ne _ _ _ _ h

/-- What a job is follows from the table alone. -/
theorem job_congr {s u : State} (h : u.jobs.jobs = s.jobs.jobs) (i : Nat) : u.job i = s.job i := by rw [job, h, job]

end State

theorem KeepsObjects.of_obj {l : List Nat} {s u : State} (h : u.obj = s.obj) : KeepsObjects l s u :=
  fun k _ _ => by rw [State.val, h, State.val]

/-! ## What a change of jobs reaches -/

/-- State `s` with the parts of `u` that a change of jobs can reach. -/
def State.jobsAs (s u : State) : State :=
  { s with obj := u.obj, dict := { s.dict with queues := u.dict.queues }, jobs := u.jobs }

/-- Nothing changes but jobs, these objects and the events that their changes raise. -/
structure ChangesJobs (l : List Nat) (s u : State) : Prop where
  frame : u = s.jobsAs u
  objects : KeepsObjects l s u

namespace ChangesJobs

variable {l l' : List Nat} {s t u : State}

theorem refl (l : List Nat) (s : State) : ChangesJobs l s s := ⟨rfl, .refl _ _⟩

theorem trans (h₁ : ChangesJobs l s t) (h₂ : ChangesJobs l t u) : ChangesJobs l s u := by
  refine ⟨?_, h₁.objects.trans h₂.objects⟩
  have h := h₂.frame
  rw [h₁.frame] at h
  exact h

theorem mono (h : ChangesJobs l s u) (hl : l ⊆ l') : ChangesJobs l' s u := ⟨h.frame, h.objects.mono hl⟩

theorem of_changes (h : ChangesOnly l s u) : ChangesJobs l s u := by
  refine ⟨?_, h.2⟩
  rw [h.1]
  rfl

theorem withJobs (s : State) (t : JobsState) : ChangesJobs l s { s with jobs := t } := ⟨rfl, fun _ _ _ => rfl⟩

theorem putJob (s : State) (id : Nat) (j : JobS) : ChangesJobs jobCountKeys s (s.putJob id j) :=
  (withJobs s _).trans (of_changes (s.putJob_changes id j))

variable (h : ChangesJobs l s u)
include h

theorem now : u.now = s.now := by rw [h.frame]; rfl
theorem mem : u.mem = s.mem := by rw [h.frame]; rfl
theorem tiles : u.tiles = s.tiles := by rw [h.frame]; rfl
theorem streams : u.streams = s.streams := by rw [h.frame]; rfl
theorem trace : u.trace = s.trace := by rw [h.frame]; rfl
theorem jobTotals : u.jobTotals = s.jobTotals := by rw [h.frame]; rfl
theorem mm : u.mm = s.mm := by rw [h.frame]; rfl
theorem num {k : Nat} (hk : k ∉ l) (hlo : 0x210000 ≤ k) : u.num k = s.num k := h.objects.num_of_le hk hlo

end ChangesJobs

end Sys2Proof.Machine

/-! PROOFS. Submission and completion rings: O38. -/

namespace Sys2Proof.Machine

/-! ## Objects of the rings (R292, R313) -/

theorem arrived_num (q : Req) (s : State) (k : Nat) : (Arrived q s).num k = s.num k := by rw [arrived_eq]; rfl
theorem arrived_jobs (q : Req) (s : State) : (Arrived q s).jobs = s.jobs := by rw [arrived_eq]

/-- A number that a master may write and the store does not keep: its chapter looks at it once it is stored. -/
theorem serveOwn_stored {q : Req} {k : Nat} {val : List Byte} {s : State} (hadm : Admitted q k val s)
    (hrow : (rowOf k).any (fun r => r.ty.fixed && r.acc = .rw) = true) (hd : Handler) :
    (∀ u, hd (.num (leNat val)) ((Arrived q s).setNum k (leNat val)) = .ok u → serveOwn q k val hd s = Replied q k u) ∧
    (∀ e, hd (.num (leNat val)) ((Arrived q s).setNum k (leNat val)) = .error e →
      serveOwn q k val hd s = Denied q k e (Arrived q s)) := by
  obtain ⟨r, v, hrow', hdec, hok, herr⟩ := serveOwn_admitted hadm hd
  simp only [hrow', Option.any_some, Bool.and_eq_true, decide_eq_true_eq] at hrow
  obtain ⟨hty, hacc⟩ := hrow
  obtain rfl := decodeVal_fixed hty hdec
  have happly : (Arrived q s).applyVal r k (.num (leNat val)) 0 = (Arrived q s).setNum k (leNat val) :=
    State.applyVal_parameter _ _ _ _ _ (.inl hacc)
  exact ⟨fun u hu => hok _ (by simp [State.doWrite, happly, hu, hacc]), fun e he => herr e (by simp [State.doWrite, happly, he])⟩

/-- Objects of one ring are told apart by their base keys. -/
theorem ringObj_ne {a b : Nat} (n : Nat) (h : a ≠ b) : ringObj a n ≠ ringObj b n := fun he => h (Nat.add_right_cancel he)

theorem rowOf_subTail (n : Fin 8) : (rowOf (ringObj Obj.subTail n)).any (fun r => r.ty.fixed && r.acc = .rw) = true := by
  decide +revert

theorem rowOf_cplHead (n : Fin 8) : (rowOf (ringObj Obj.cplHead n)).any (fun r => r.ty.fixed && r.acc = .rw) = true := by
  decide +revert

/-- SUB_TAIL_WRITE (R291). -/
theorem exec_subTailWrite {s : State} {q : Req} {n : Fin 8} {val : List Byte} (hadm : Admitted q (ringObj Obj.subTail n) val s) :
    (s.num (ringObj Obj.cplSlots n) ≠ 0 → exec (.subTailWrite q n val) s =
      .next (Replied q (ringObj Obj.subTail n) ((Arrived q s).setNum (ringObj Obj.subTail n) (leNat val)))) ∧
    (s.num (ringObj Obj.cplSlots n) = 0 → exec (.subTailWrite q n val) s =
      .next (Denied q (ringObj Obj.subTail n) Err.refusedInState (Arrived q s))) := by
  obtain ⟨hok, herr⟩ := serveOwn_stored hadm (rowOf_subTail n) (writeSubTail n)
  have hslots : ((Arrived q s).setNum (ringObj Obj.subTail n) (leNat val)).num (ringObj Obj.cplSlots n) =
      s.num (ringObj Obj.cplSlots n) := by
    rw [State.num_setNum_ne _ _ _ _ (ringObj_ne _ (by decide)), arrived_num]
  constructor <;> intro h <;> refine congrArg Host.Outcome.next ?_
  · exact hok _ (if_neg (hslots ▸ h))
  · exact herr _ (if_pos (hslots ▸ h))

/-- The subindices of a ring's bases and sizes name objects of its record that are none of its pointers. -/
theorem ringConfig_key {n : Fin 8} {sub : BitVec 8} (hsub : sub = 1 ∨ sub = 2 ∨ sub = 5 ∨ sub = 6) :
    (rowOf (ringObj Obj.subBase n - 1 + sub.toNat)).any (fun r => r.ty.fixed && r.acc = .rw) = true ∧
      ∀ p ∈ [Obj.subTail, Obj.subHead, Obj.cplTail, Obj.cplHead], ringObj Obj.subBase n - 1 + sub.toNat ≠ ringObj p n := by
  rcases hsub with rfl | rfl | rfl | rfl <;> decide +revert

/-- A ring's pointers return to 0. -/
def State.clearRing (n : Nat) (s : State) : State :=
  [Obj.subTail, Obj.subHead, Obj.cplTail, Obj.cplHead].foldl (fun s k => s.setNum (ringObj k n) 0) s

theorem num_clearRing_ne {s : State} {n k : Nat}
    (h : ∀ p ∈ [Obj.subTail, Obj.subHead, Obj.cplTail, Obj.cplHead], k ≠ ringObj p n) : (s.clearRing n).num k = s.num k := by
  simp only [List.mem_cons, List.not_mem_nil, or_false, forall_eq_or_imp, forall_eq] at h
  obtain ⟨ht, hh, hc, hd⟩ := h
  simp only [State.clearRing, List.foldl_cons, List.foldl_nil]
  rw [State.num_setNum_ne _ _ _ _ hd, State.num_setNum_ne _ _ _ _ hc, State.num_setNum_ne _ _ _ _ hh,
    State.num_setNum_ne _ _ _ _ ht]

theorem num_clearRing {s : State} {n p : Nat} (h : p ∈ [Obj.subTail, Obj.subHead, Obj.cplTail, Obj.cplHead]) :
    (s.clearRing n).num (ringObj p n) = 0 := by
  have hne {a b : Nat} (h : a ≠ b) : ringObj a n ≠ ringObj b n := ringObj_ne n h
  simp only [State.clearRing, List.foldl_cons, List.foldl_nil]
  simp only [List.mem_cons, List.not_mem_nil, or_false] at h
  rcases h with rfl | rfl | rfl | rfl
  · rw [State.num_setNum_ne _ _ _ _ (hne (by decide)), State.num_setNum_ne _ _ _ _ (hne (by decide)),
      State.num_setNum_ne _ _ _ _ (hne (by decide)), State.num_setNum_self]
  · rw [State.num_setNum_ne _ _ _ _ (hne (by decide)), State.num_setNum_ne _ _ _ _ (hne (by decide)), State.num_setNum_self]
  · rw [State.num_setNum_ne _ _ _ _ (hne (by decide)), State.num_setNum_self]
  · rw [State.num_setNum_self]

theorem setNum_clearRing_frame (k v n : Nat) (s : State) :
    (s.setNum k v).clearRing n = { s with obj := ((s.setNum k v).clearRing n).obj } := rfl

/-- A ring in use: descriptors to read, records that wait, or a job of it. -/
theorem writeRingConfig_eq (n : Nat) (v : Val) (s : State) :
    writeRingConfig n v s =
      if s.num (ringObj Obj.subHead n) ≠ s.num (ringObj Obj.subTail n) ∨ s.jobs.waiting.get [] n ≠ [] ∨
          ∃ e ∈ s.jobs.jobs, e.2.ring = n then .error Err.refusedInState
      else .ok (s.clearRing n) := by
  unfold writeRingConfig
  simp only [Bool.or_eq_true, decide_eq_true_eq, Bool.not_eq_true', List.isEmpty_eq_false_iff, List.any_eq_true, or_assoc]
  rfl

/-- JOB_RING_CONFIG_WRITE (R292). -/
theorem exec_jobRingConfigWrite {s : State} {q : Req} {n : Fin 8} {sub : BitVec 8} {val : List Byte}
    (hsub : sub = 1 ∨ sub = 2 ∨ sub = 5 ∨ sub = 6) {k : Nat} (hk : k = ringObj Obj.subBase n - 1 + sub.toNat)
    (hadm : Admitted q k val s) :
    let used := s.num (ringObj Obj.subHead n) ≠ s.num (ringObj Obj.subTail n) ∨ s.jobs.waiting.get [] n ≠ [] ∨
      ∃ e ∈ s.jobs.jobs, e.2.ring = n
    (used → exec (.jobRingConfigWrite q n sub val) s = .next (Denied q k Err.refusedInState (Arrived q s))) ∧
    (¬used → exec (.jobRingConfigWrite q n sub val) s =
      .next (Replied q k (((Arrived q s).setNum k (leNat val)).clearRing n))) := by
  intro used
  obtain ⟨hrow, hne⟩ := ringConfig_key (n := n) hsub
  rw [← hk] at hrow hne
  have hexec : exec (.jobRingConfigWrite q n sub val) s = .next (serveOwn q k val (writeRingConfig n) s) := by
    rw [hk]
    exact if_pos (by simpa [or_assoc] using hsub)
  obtain ⟨hok, herr⟩ := serveOwn_stored hadm hrow (writeRingConfig n)
  have hnum (p : Nat) (hp : p ∈ [Obj.subTail, Obj.subHead, Obj.cplTail, Obj.cplHead]) :
      ((Arrived q s).setNum k (leNat val)).num (ringObj p n) = s.num (ringObj p n) := by
    rw [State.num_setNum_ne _ _ _ _ (hne p hp).symm, arrived_num]
  have hstored := writeRingConfig_eq n (.num (leNat val)) ((Arrived q s).setNum k (leNat val))
  rw [hnum _ (by simp), hnum _ (by simp), State.setNum_jobs, arrived_jobs] at hstored
  constructor <;> intro h <;> rw [hexec]
  · exact congrArg _ (herr _ (hstored.trans (if_pos h)))
  · exact congrArg _ (hok _ (hstored.trans (if_neg h)))

/-! ## A record goes out (R292, R311) -/

/-- A job that is named leaves the table. -/
def State.forgetJob (job : Nat) (s : State) : State :=
  if job = 0 then s
  else (if s.num Obj.jobSelect = job then s.raiseVal Obj.jobState 0 (.num 0) else s).delJob job

theorem forgetJob_spec (job : Nat) (s : State) :
    ChangesJobs jobCountKeys s (s.forgetJob job) ∧
      (s.forgetJob job).jobs = { s.jobs with jobs := if job = 0 then s.jobs.jobs else s.jobs.jobs.del job } := by
  unfold State.forgetJob
  split
  case isTrue => exact ⟨.refl _ _, rfl⟩
  case isFalse =>
    have hraise : ChangesJobs jobCountKeys s (if s.num Obj.jobSelect = job then s.raiseVal Obj.jobState 0 (.num 0) else s) ∧
        (if s.num Obj.jobSelect = job then s.raiseVal Obj.jobState 0 (.num 0) else s).jobs = s.jobs := by
      split
      · exact ⟨.of_changes ((State.raiseVal_changes _ _ _ _).mono (List.nil_subset _)), State.raiseVal_jobs _ _ _ _⟩
      · exact ⟨.refl _ _, rfl⟩
    obtain ⟨hchanges, hjobs⟩ := hraise
    generalize (if s.num Obj.jobSelect = job then s.raiseVal Obj.jobState 0 (.num 0) else s) = a at hchanges hjobs
    exact ⟨(hchanges.trans (.withJobs a _)).trans (.of_changes (a.delJob_changes job)), by rw [← hjobs]; rfl⟩

theorem storeAt_eq (a : Nat) (l : List Byte) (s : State) :
    s.storeAt a l = { s with mem := (s.storeAt a l).mem, out := (s.storeAt a l).out } := by
  unfold State.storeAt
  split <;> rfl

/-- What is written at an address does not depend on the clock. -/
theorem storeAt_upto_mem (a t : Nat) (l : List Byte) (s : State) : ((s.upto t).storeAt a l).mem = (s.storeAt a l).mem := by
  have hplace : (s.upto t).place a = s.place a := rfl
  unfold State.storeAt
  rw [hplace]
  split <;> rfl

/-- The oldest record is in its slot, and counts. -/
def State.recordOut (n : Nat) (done : Bool) (l : List Byte) (rest : List (Nat × Bool × List Byte)) (s : State) : State :=
  let tail := s.num (ringObj Obj.cplTail n)
  let slots := s.num (ringObj Obj.cplSlots n)
  (((s.storeAt (s.num (ringObj Obj.cplBase n) + 32 * tail) l).setNum (ringObj Obj.cplTail n) ((tail + 1) % slots)).setWaiting
    n rest).bump (if done then Obj.jobsDone else Obj.jobsEnded) 1

/-- COMPLETION_RECORD_WRITE (R292, R311): once the record is out, an interrupt and an event follow. -/
theorem exec_completionRecordWrite {s : State} {t : Nat} {n : Fin 8} {job : Nat} {done : Bool} {l : List Byte}
    {rest : List (Nat × Bool × List Byte)} (hwait : s.jobs.waiting.get [] n = (job, done, l) :: rest) (hroom : s.cplRoom n = true) :
    ∃ v, exec (.completionRecordWrite t n) s =
      .next (((((s.upto t).recordOut n done l rest).signal v).raise (ringObj Obj.cplTail n) 0).forgetJob job) := by
  have hwait' : (s.upto t).jobs.waiting.get [] n = (job, done, l) :: rest := hwait
  have hroom' : (s.upto t).cplRoom n = true := hroom
  have hslots : ((s.upto t).storeAt ((s.upto t).num (ringObj Obj.cplBase n) + 32 * (s.upto t).num (ringObj Obj.cplTail n)) l).num
      (ringObj Obj.cplSlots n) = (s.upto t).num (ringObj Obj.cplSlots n) := by
    rw [storeAt_eq]
    rfl
  refine ⟨((s.upto t).recordOut n done l rest).num (ringObj Obj.jobMsixVector n), ?_⟩
  show execCompletionRecordWrite t n s = _
  unfold execCompletionRecordWrite
  simp only [hwait', hroom', hslots, Bool.not_true, Bool.false_eq_true, if_false]
  unfold State.forgetJob
  split <;> rfl

/-- The objects of rings, and the counts of jobs, that nothing after a record is out changes. -/
theorem rings_quiet (n : Fin 8) : ∀ k ∈ [ringObj Obj.cplTail n, ringObj Obj.recordsWaiting n, Obj.jobsDone, Obj.jobsEnded],
    0x210000 ≤ k ∧ k ∉ sendKeys ∧ k ∉ jobCountKeys := by
  decide +revert

/-- After a record is out memory, the rings and their counts stand, and the job that it ends is gone. -/
theorem afterRecord {s : State} (v : Nat) (n : Fin 8) (job : Nat) :
    let u := ((s.signal v).raise (ringObj Obj.cplTail n) 0).forgetJob job
    u.mem = s.mem ∧ u.tiles = s.tiles ∧ u.streams = s.streams ∧
      u.jobs = { s.jobs with jobs := if job = 0 then s.jobs.jobs else s.jobs.jobs.del job } ∧
      ∀ k ∈ [ringObj Obj.cplTail n, ringObj Obj.recordsWaiting n, Obj.jobsDone, Obj.jobsEnded], u.num k = s.num k := by
  intro u
  have hsend := State.signal_sends v s
  obtain ⟨hchanges, hjobs⟩ := forgetJob_spec job ((s.signal v).raise (ringObj Obj.cplTail n) 0)
  refine ⟨?_, ?_, ?_, ?_, fun k hk => ?_⟩
  · rw [hchanges.mem, State.raise_mem, hsend.mem]
  · rw [hchanges.tiles, State.raise_tiles, hsend.tiles]
  · rw [hchanges.streams, State.raise_streams, hsend.1]
    rfl
  · rw [hjobs, State.raise_jobs, hsend.1]
    rfl
  · obtain ⟨hlo, hkeys, hcounts⟩ := rings_quiet n k hk
    rw [hchanges.num hcounts hlo, State.num_raise _ _ _ _ fun m hm => ne_eventsDropped_of_le hlo m (Nat.lt_succ_of_lt hm),
      hsend.num hkeys (ne_eventsDropped_of_le hlo)]

theorem rings_count (n : Fin 8) : ∀ k ∈ [Obj.jobsDone, Obj.jobsEnded],
    ringObj Obj.cplTail n ≠ k ∧ ringObj Obj.recordsWaiting n ≠ k := by
  decide +revert

theorem recordOut_spec (n : Fin 8) (done : Bool) (l : List Byte) (rest : List (Nat × Bool × List Byte)) (s : State) :
    let u := s.recordOut n done l rest
    u.mem = (s.storeAt (s.num (ringObj Obj.cplBase n) + 32 * s.num (ringObj Obj.cplTail n)) l).mem ∧
      u.num (ringObj Obj.cplTail n) = (s.num (ringObj Obj.cplTail n) + 1) % s.num (ringObj Obj.cplSlots n) ∧
      u.num (ringObj Obj.recordsWaiting n) = rest.length ∧ Counted (if done then Obj.jobsDone else Obj.jobsEnded) 1 s u ∧
      u.jobs = { s.jobs with waiting := s.jobs.waiting.put n rest } ∧ u.tiles = s.tiles ∧ u.streams = s.streams := by
  intro u
  have hkey : (if done then Obj.jobsDone else Obj.jobsEnded) ∈ [Obj.jobsDone, Obj.jobsEnded] := by cases done <;> simp
  obtain ⟨htail, hwaiting⟩ := rings_count n _ hkey
  have hstore := storeAt_eq (s.num (ringObj Obj.cplBase n) + 32 * s.num (ringObj Obj.cplTail n)) l s
  have hne : ringObj Obj.cplTail n ≠ ringObj Obj.recordsWaiting n := ringObj_ne _ (by decide)
  refine ⟨rfl, ?_, ?_, ?_, ?_, ?_, ?_⟩
  · refine (State.num_bump_ne _ _ _ _ htail).trans ((State.num_setNum_ne _ _ _ _ hne).trans ?_)
    exact State.num_setNum_self _ _ _
  · exact (State.num_bump_ne _ _ _ _ hwaiting).trans (State.num_setNum_self _ _ _)
  · refine (State.num_bump_self _ _ _).trans (congrArg (fun x => min (x + 1) _) ?_)
    refine (State.num_setNum_ne _ _ _ _ hwaiting.symm).trans ((State.num_setNum_ne _ _ _ _ htail.symm).trans ?_)
    rw [hstore]
    rfl
  · have hjobs := congrArg State.jobs hstore
    exact congrArg (fun j : JobsState => { j with waiting := j.waiting.put n rest }) hjobs
  · have htiles := congrArg State.tiles hstore
    exact htiles
  · have hstreams := congrArg State.streams hstore
    exact hstreams

end Sys2Proof.Machine

/-! PROOFS. Descriptors are read, and O38. -/

namespace Sys2Proof.Machine

/-! ## One descriptor (R291, R294, R295, R301) -/

/-- The objects that reading a descriptor of ring n changes. -/
def readKeys (n : Nat) : List Nat := ringObj Obj.subHead n :: ringObj Obj.recordsWaiting n :: jobCountKeys

/-- A descriptor has been read: SubHead moves on, and beside jobs, their totals, these objects and the events that they raise
nothing changes. -/
structure ReadsOne (n v : Nat) (s u : State) : Prop where
  frame : u = { s.jobsAs u with jobTotals := u.jobTotals }
  objects : KeepsObjects (readKeys n) s u
  head : u.num (ringObj Obj.subHead n) = v

/-- SubHead has moved on. -/
abbrev State.headAt (n v : Nat) (s : State) : State := s.setNum (ringObj Obj.subHead n) v

/-- The job of a good descriptor, read from ring n, is Queued. -/
def State.addJob (n : Nat) (d : JobDesc) (l : Layout) (h : List (Nat × Byte)) (s : State) : State :=
  let order := s.jobs.next
  let s := { s with
    jobs := { s.jobs with next := order + 1 }
    jobTotals := s.jobTotals.put d.id ⟨0, Counts.zero⟩ }
  let s := s.putJob d.id (JobS.new d l n order h)
  if s.num Obj.jobSelect = d.id then s.raiseVal Obj.jobState 0 (.num 1) else s

theorem subHead_apart (n : Fin 8) : ringObj Obj.subHead n ≠ ringObj Obj.recordsWaiting n ∧ ringObj Obj.subHead n ∉ jobCountKeys ∧
    0x210000 ≤ ringObj Obj.subHead n := by
  decide +revert

/-- A refused descriptor leaves its record. -/
theorem queueCpl_reads (n : Fin 8) (v id job status detail runNs : Nat) (t : JobTotals) (s : State) :
    ReadsOne n v s ((s.headAt n v).queueCpl n id job status detail runNs t) := by
  refine ⟨rfl, ?_, ?_⟩
  · exact ((KeepsObjects.setVal List.mem_cons_self _ s).trans
      (.setVal (k := ringObj Obj.recordsWaiting n) (.tail _ (.head _)) _ _))
  · exact (State.num_setNum_ne _ _ _ _ (subHead_apart n).1).trans (State.num_setNum_self _ _ _)

theorem queueCpl_jobs (n id job status detail runNs : Nat) (t : JobTotals) (s : State) :
    (s.queueCpl n id job status detail runNs t).jobs = { s.jobs with
      waiting := s.jobs.waiting.put n
        (s.jobs.waiting.get [] n ++ [(job, decide (status = 0), s.cplRecord id status detail runNs t)]) } := rfl

/-- A new job's state raises its event while it is selected. -/
theorem addJob_spec (n : Nat) (d : JobDesc) (l : Layout) (h : List (Nat × Byte)) (s : State) :
    s.addJob n d l h = { s.jobsAs (s.addJob n d l h) with jobTotals := s.jobTotals.put d.id ⟨0, Counts.zero⟩ } ∧
      KeepsObjects jobCountKeys s (s.addJob n d l h) ∧
      (s.addJob n d l h).jobs = { s.jobs with next := s.jobs.next + 1, jobs := s.jobs.jobs.put d.id (JobS.new d l n s.jobs.next h) } := by
  have hput := ChangesJobs.putJob { s with
    jobs := { s.jobs with next := s.jobs.next + 1 }
    jobTotals := s.jobTotals.put d.id ⟨0, Counts.zero⟩ } d.id (JobS.new d l n s.jobs.next h)
  unfold State.addJob
  dsimp only
  generalize hb : State.putJob d.id _ _ = b at hput ⊢
  have hframe : b = { s.jobsAs b with jobTotals := s.jobTotals.put d.id ⟨0, Counts.zero⟩ } := by rw [← hb]; rfl
  have hjobs : b.jobs = { s.jobs with next := s.jobs.next + 1, jobs := s.jobs.jobs.put d.id (JobS.new d l n s.jobs.next h) } := by
    rw [← hb]; rfl
  split
  case isFalse => exact ⟨hframe, hput.objects, hjobs⟩
  case isTrue =>
    have hraise := State.raiseVal_changes Obj.jobState 0 (.num 1) b
    refine ⟨?_, hput.objects.trans (hraise.2.mono (List.nil_subset _)), (State.raiseVal_jobs _ _ _ _).trans hjobs⟩
    rw [hraise.1, hframe]
    rfl

theorem addJob_reads (n : Fin 8) (v : Nat) (d : JobDesc) (l : Layout) (h : List (Nat × Byte)) (s : State) :
    ReadsOne n v s ((s.headAt n v).addJob n d l h) := by
  obtain ⟨hframe, hobj, -⟩ := addJob_spec n d l h (s.headAt n v)
  obtain ⟨-, hkey, hlo⟩ := subHead_apart n
  refine ⟨?_, (KeepsObjects.setVal List.mem_cons_self _ s).trans (hobj.mono fun _ hk => .tail _ (.tail _ hk)), ?_⟩
  · conv_lhs => rw [hframe]
    rw [hframe]
    rfl
  · rw [hobj.num_of_le hkey hlo, State.num_setNum_self]

/-! ## What reading a descriptor looks at (R36, R37, R301) -/

/-- Two states in which addresses lead to the same places, and rows and tiles stand alike. -/
structure SameGround (s u : State) : Prop where
  objects : ∀ k, k < 0x500000 ∨ 0x800000 ≤ k → u.val k = s.val k
  mm : u.mm = s.mm
  health : u.health = s.health
  mem : u.mem = s.mem

namespace SameGround

variable {s u : State} (h : SameGround s u)
include h

theorem num {k : Nat} (hk : k < 0x500000 ∨ 0x800000 ≤ k) : u.num k = s.num k := congrArg Val.toNat (h.objects k hk)

theorem cxlWays : u.cxlWays = s.cxlWays := by rw [State.cxlWays, h.mm, State.cxlWays]

theorem placeCxl {o : Nat} (ho : o < 0x80000000000) : u.placeCxl o = s.placeCxl o := by
  have hG : u.cxlG = s.cxlG := by rw [State.cxlG, h.mm, State.cxlG]
  have hways : s.cxlWays ≤ 4 := by
    unfold State.cxlWays
    split
    · decide
    · split <;> decide
  have hset : o / 0x20000000000 / s.cxlWays * s.cxlWays ≤ 4 :=
    (Nat.div_mul_le_self _ _).trans (Nat.div_le_of_le_mul (by omega))
  have hsmall : (List.range s.cxlWays).foldl
        (fun m i => min m (u.num (Obj.cxlCapacity + (o / 0x20000000000 / s.cxlWays * s.cxlWays + i)))) 0x20000000000 =
      (List.range s.cxlWays).foldl
        (fun m i => min m (s.num (Obj.cxlCapacity + (o / 0x20000000000 / s.cxlWays * s.cxlWays + i)))) 0x20000000000 := by
    refine List.foldl_ext _ _ _ fun m i hi => ?_
    rw [List.mem_range] at hi
    rw [h.num (.inl (by show 0x420301 + _ < 0x500000; omega))]
  unfold State.placeCxl
  rw [h.cxlWays, hG]
  dsimp only
  rw [hsmall]

theorem placePhys (a : Nat) : u.placePhys a = s.placePhys a := by
  unfold State.placePhys
  by_cases ha : a < 0x90000000000
  · rw [h.placeCxl (by omega)]
  · simp only [ha, if_false]

theorem place (a : Nat) : u.place a = s.place a := by
  unfold State.place
  simp only [h.placePhys, h.num (k := Obj.deviceNumberInForce) (by decide)]

theorem isHost (a : Nat) : u.isHost a = s.isHost a := by rw [State.isHost, h.place, State.isHost]

theorem hostOrMem (l : List (Nat × Byte)) (a n : Nat) : u.hostOrMem l a n = s.hostOrMem l a n := by
  unfold State.hostOrMem
  simp only [h.isHost, State.byte, h.mem]

theorem rowsOk {d : LDrawer} (hd : d.tile < 0x10000) : u.rowsOk d = s.rowsOk d := by
  have hret : u.retired d.tile = s.retired d.tile :=
    (fence_congr (h.objects _ (.inl (by show 0x480801 + d.tile / 150 < 0x500000; omega)))).1
  unfold State.rowsOk State.rowRemoved State.sites
  rw [hret, h.health]

theorem segmentOk (g : LSegment) : u.segmentOk g = s.segmentOk g := by
  unfold State.segmentOk State.backingOk State.cxlSpan State.remoteSpan
  simp only [h.place, h.isHost]

theorem ckptOk (a n : Nat) : u.ckptOk a n = s.ckptOk a n := by
  unfold State.ckptOk State.cxlSpan State.remoteSpan
  simp only [h.place]

end SameGround

theorem leNat_lt (l : List Byte) : leNat l < 256 ^ l.length := by
  induction l with
  | nil => decide
  | cons b l ih =>
    have hb := b.isLt
    rw [leNat, List.length_cons, Nat.pow_succ]
    omega

theorem field_lt (l : List Byte) (off n : Nat) : field l off n < 256 ^ n :=
  (leNat_lt _).trans_le (Nat.pow_le_pow_right (by decide) (List.length_take_le _ _))

/-- A tile number of a layout record has two bytes. -/
theorem tile_layout_lt {b : List Byte} {d : LDrawer} (h : d ∈ (Layout.of b).drawers) : d.tile < 0x10000 := by
  obtain ⟨e, -, rfl⟩ := List.mem_map.1 h
  exact field_lt e.2 2 2

/-- The checks of a layout find the same in both. -/
theorem SameGround.layoutReason {s u : State} (h : SameGround s u) (d : JobDesc) (b : List Byte) :
    u.layoutReason d b = s.layoutReason d b := by
  have hrows : (Layout.of b).drawers.all u.rowsOk = (Layout.of b).drawers.all s.rowsOk :=
    Bool.eq_iff_iff.2 <| by
      simp only [List.all_eq_true]
      exact forall₂_congr fun d hd => by rw [h.rowsOk (tile_layout_lt hd)]
  have hsegs : u.segmentOk = s.segmentOk := funext h.segmentOk
  have hdev : u.device = s.device := h.num (by decide)
  unfold State.layoutReason
  simp only [hrows, hsegs, h.ckptOk, hdev]

/-- The clock and a ring's pointers are no part of that ground. -/
theorem sameGround_headAt (n : Fin 8) (v : Nat) (s : State) : SameGround s (s.headAt n v) := by
  have hkey : 0x500000 ≤ ringObj Obj.subHead n ∧ ringObj Obj.subHead n < 0x800000 := by decide +revert
  exact ⟨fun k hk => State.val_setVal_ne _ _ _ _ (by omega), rfl, rfl, rfl⟩

theorem sameGround_upto (t : Nat) (s : State) : SameGround s (s.upto t) := ⟨fun _ _ => rfl, rfl, rfl, rfl⟩

/-! ## POLL_INTERVAL (R291) -/

/-- A descriptor is refused with a record, or its job is Queued. -/
theorem takeDescriptor_eq (n : Nat) (h : List (Nat × Byte)) (s : State) :
    let head := s.num (ringObj Obj.subHead n)
    let b := s.hostOrMem h (s.num (ringObj Obj.subBase n) + 128 * head) 128
    let u := s.headAt n ((head + 1) % s.num (ringObj Obj.subSlots n))
    let d := JobDesc.of b
    let l := u.hostOrMem h d.layout d.bytes
    s.takeDescriptor n h =
      if badDescriptor b then u.queueCpl n d.id 0 Status.badDescriptor 0 0 ⟨0, Counts.zero⟩
      else if (u.job d.id).isSome then u.queueCpl n d.id 0 Status.duplicateId 0 0 ⟨0, Counts.zero⟩
      else match u.layoutReason d l with
        | some r => u.queueCpl n d.id 0 Status.layoutRefused r 0 ⟨0, Counts.zero⟩
        | none => u.addJob n d (Layout.of l) h := by
  unfold State.takeDescriptor
  dsimp only
  split
  · rfl
  split
  · rfl
  generalize State.layoutReason _ _ _ = r
  cases r <;> rfl

theorem takeDescriptor_reads (n : Fin 8) (h : List (Nat × Byte)) (s : State) :
    ReadsOne n ((s.num (ringObj Obj.subHead n) + 1) % s.num (ringObj Obj.subSlots n)) s (s.takeDescriptor n h) := by
  rw [takeDescriptor_eq]
  split
  · exact queueCpl_reads _ _ _ _ _ _ _ _ _
  split
  · exact queueCpl_reads _ _ _ _ _ _ _ _ _
  split
  · exact queueCpl_reads _ _ _ _ _ _ _ _ _
  · exact addJob_reads _ _ _ _ _ _

namespace ReadsOne

variable {n v : Nat} {s u : State} (h : ReadsOne n v s u)
include h

theorem mem : u.mem = s.mem := by rw [h.frame]; rfl
theorem tiles : u.tiles = s.tiles := by rw [h.frame]; rfl
theorem streams : u.streams = s.streams := by rw [h.frame]; rfl

end ReadsOne

/-- What a poll at t makes of the descriptor at the head of ring n. -/
theorem takeDescriptor_cases {s : State} {t : Nat} {h : List (Nat × Byte)} {n : Fin 8} {b : List Byte}
    (hb : b = (s.upto t).hostOrMem h (s.num (ringObj Obj.subBase n) + 128 * s.num (ringObj Obj.subHead n)) 128) :
    let u := (s.upto t).takeDescriptor n h
    let d := JobDesc.of b
    let l := (s.upto t).hostOrMem h d.layout d.bytes
    let refused (status r : Nat) := u.jobs.jobs = s.jobs.jobs ∧ u.jobs.waiting.get [] n = s.jobs.waiting.get [] n ++
      [(0, decide (status = 0), (s.upto t).cplRecord d.id status r 0 ⟨0, Counts.zero⟩)]
    (badDescriptor b = true → refused 0x0101 0) ∧
    (badDescriptor b = false → (s.job d.id).isSome = true → refused 0x0102 0) ∧
    (∀ r, badDescriptor b = false → s.job d.id = none → s.layoutReason d l = some r → refused 0x0103 r) ∧
    (badDescriptor b = false → s.job d.id = none → s.layoutReason d l = none →
      u.job d.id = some (JobS.new d (Layout.of l) n s.jobs.next h) ∧ u.jobs.waiting = s.jobs.waiting ∧
        u.jobTotals.get ⟨0, Counts.zero⟩ d.id = ⟨0, Counts.zero⟩ ∧ ∀ i, i ≠ d.id → u.job i = s.job i) := by
  intro u d l refused
  obtain ⟨v, hv⟩ : ∃ v, v = (s.num (ringObj Obj.subHead n) + 1) % s.num (ringObj Obj.subSlots n) := ⟨_, rfl⟩
  have hground := sameGround_headAt n v (s.upto t)
  have htake : u = if badDescriptor b then ((s.upto t).headAt n v).queueCpl n d.id 0 0x0101 0 0 ⟨0, Counts.zero⟩
      else if (s.job d.id).isSome then ((s.upto t).headAt n v).queueCpl n d.id 0 0x0102 0 0 ⟨0, Counts.zero⟩
      else match s.layoutReason d l with
        | some r => ((s.upto t).headAt n v).queueCpl n d.id 0 0x0103 r 0 ⟨0, Counts.zero⟩
        | none => ((s.upto t).headAt n v).addJob n d (Layout.of l) h := by
    have hreason : ((s.upto t).headAt n v).layoutReason d l = s.layoutReason d l :=
      (hground.layoutReason d l).trans ((sameGround_upto t s).layoutReason d l)
    have hl : ((s.upto t).headAt n v).hostOrMem h d.layout d.bytes = l := hground.hostOrMem h _ _
    have hjob : ((s.upto t).headAt n v).job d.id = s.job d.id := rfl
    have htake := takeDescriptor_eq n h (s.upto t)
    simp only [State.num_upto, ← hb, ← hv] at htake
    rw [hjob, hl, hreason] at htake
    exact htake
  have hrefused (status r : Nat) (hu : u = ((s.upto t).headAt n v).queueCpl n d.id 0 status r 0 ⟨0, Counts.zero⟩) :
      refused status r := by
    unfold refused
    rw [hu, queueCpl_jobs]
    refine ⟨rfl, ?_⟩
    rw [Tab.get, Tab.find?_put_self]
    rfl
  refine ⟨fun hbad => hrefused _ _ (htake.trans (if_pos hbad)), fun hok hold => hrefused _ _ ?_, fun r hok hnew hr => hrefused _ _ ?_,
    fun hok hnew hgood => ?_⟩
  · rw [htake, if_neg (by simp [hok]), if_pos hold]
  · rw [htake, if_neg (by simp [hok]), if_neg (by simp [hnew]), hr]
  · rw [hok, hnew, hgood] at htake
    obtain ⟨hframe, -, hjobs⟩ := addJob_spec n d (Layout.of l) h ((s.upto t).headAt n v)
    have hadd : u = ((s.upto t).headAt n v).addJob n d (Layout.of l) h := htake
    rw [hadd]
    refine ⟨?_, ?_, ?_, fun i hi => ?_⟩
    · rw [State.job, hjobs, Tab.find?_put_self]
      rfl
    · rw [hjobs]
      rfl
    · rw [hframe, Tab.get, Tab.find?_put_self]
      rfl
    · rw [State.job, hjobs, Tab.find?_put_ne _ _ _ _ hi]
      rfl

/-- A job that has nothing to report and nothing to restore. -/
def JobS.quiet (j : JobS) : Prop := (j.layout.groupSize ≤ 1 ∨ j.writing = none) ∧ j.ckptStep ≠ 4

theorem groupProgress_of_quiet {s : State} {id : Nat} (h : ∀ j, s.job id = some j → j.quiet) : s.groupProgress id = s := by
  unfold State.groupProgress
  split
  · rfl
  next j hj =>
    obtain ⟨hgroup, hstep⟩ := h j hj
    rw [if_neg ?_, if_neg hstep]
    rcases hgroup with hg | hw
    · simp [Nat.not_lt.2 hg]
    · simp [hw]

/-- No group reports, and no restore goes on, while every job is quiet. -/
theorem foldl_groupProgress {s : State} (h : ∀ e ∈ s.jobs.jobs, e.2.quiet) (l : Tab JobS) :
    l.foldl (fun u e => u.groupProgress e.1) s = s :=
  List.foldl_fixed' (fun e : Nat × JobS => groupProgress_of_quiet fun j hj => h (e.1, j) (Tab.mem_of_find? hj)) l

/-- A ring that is served is read. -/
def State.readServed (h : List (Nat × Byte)) (s : State) (n : Nat) : State :=
  if s.ringServed n then s.readRing n h 4096 else s

theorem exec_pollInterval (t : Nat) (h : List (Nat × Byte)) (s : State) :
    exec (.pollInterval t h) s = .next
      (let u := (List.range 8).foldl (State.readServed h) (s.upto t)
       u.jobs.jobs.foldl (fun u e => u.groupProgress e.1) u) := by
  have hpoll : (fun (u : State) n => if u.ringServed n then u.readRing n h 4096 else u) = State.readServed h := rfl
  show execPollInterval t h s = _
  unfold execPollInterval
  rw [hpoll]

/-- Rings that are not served are not read. -/
theorem foldl_readServed_unserved {h : List (Nat × Byte)} {s : State} {l : List Nat} (hl : ∀ n ∈ l, s.ringServed n = false) :
    l.foldl (State.readServed h) s = s := by
  induction l with
  | nil => rfl
  | cons n l ih =>
    have hn : s.readServed h n = s := if_neg (by simp [hl n List.mem_cons_self])
    rw [List.foldl_cons, hn, ih fun m hm => hl m (List.mem_cons_of_mem _ hm)]

/-- Reading a descriptor leaves the sizes and tails of every ring. -/
theorem ringKeys_apart (n m : Fin 8) : ∀ b ∈ [Obj.subSlots, Obj.cplSlots, Obj.subTail], ringObj b m ∉ readKeys n ∧
    0x210000 ≤ ringObj b m := by
  decide +revert

theorem ReadsOne.num {n : Fin 8} {v : Nat} {s u : State} (h : ReadsOne n v s u) {b : Nat}
    (hb : b ∈ [Obj.subSlots, Obj.cplSlots, Obj.subTail]) (m : Fin 8) : u.num (ringObj b m) = s.num (ringObj b m) :=
  h.objects.num_of_le (ringKeys_apart n m b hb).1 (ringKeys_apart n m b hb).2

/-- With one descriptor left to read, and room for its job or its record, a ring is read to its end. -/
theorem readRing_last {n : Fin 8} {h : List (Nat × Byte)} {s : State} (f : Nat)
    (hne : s.num (ringObj Obj.subHead n) ≠ s.num (ringObj Obj.subTail n))
    (hlast : (s.num (ringObj Obj.subHead n) + 1) % s.num (ringObj Obj.subSlots n) = s.num (ringObj Obj.subTail n))
    (hqueued : s.num Obj.queuedJobs < 1024) (hwaiting : (s.jobs.waiting.get [] n).length < 1024)
    (hhost : s.isHost (s.num (ringObj Obj.subBase n)) = false) :
    s.readRing n h (f + 2) = s.takeDescriptor n h := by
  have hread := takeDescriptor_reads n h s
  have hend : (s.takeDescriptor n h).num (ringObj Obj.subHead n) = (s.takeDescriptor n h).num (ringObj Obj.subTail n) := by
    rw [hread.head, hread.num (by simp), hlast]
  have hfull : s.cplQueueFull n = false := decide_eq_false (Nat.not_le.2 hwaiting)
  rw [State.readRing, if_neg (by simp [hne, hqueued, hhost, hfull]), State.readRing, if_pos (by simp [hend])]

/-- Where one ring alone is served, and it has one descriptor to read, a poll takes that descriptor. -/
theorem foldl_readServed_one {n : Fin 8} {h : List (Nat × Byte)} {s : State} (hserved : s.ringServed n = true)
    (hothers : ∀ m : Fin 8, m ≠ n → s.ringServed m = false) (hread : s.readRing n h 4096 = s.takeDescriptor n h) :
    (List.range 8).foldl (State.readServed h) s = s.takeDescriptor n h := by
  obtain ⟨l₁, l₂, hl⟩ := List.append_of_mem (List.mem_range.2 n.isLt)
  have hnd : (l₁ ++ n.val :: l₂).Nodup := hl ▸ List.nodup_range
  obtain ⟨-, hnd₂, hdis⟩ := List.nodup_append.1 hnd
  have hne₁ (m : Nat) (hm : m ∈ l₁) : m ≠ n := hdis m hm n List.mem_cons_self
  have hne₂ (m : Nat) (hm : m ∈ l₂) : m ≠ n := ne_of_mem_of_not_mem hm (List.nodup_cons.1 hnd₂).1
  have hlt (m : Nat) (hm : m ∈ l₁ ++ n.val :: l₂) : m < 8 := List.mem_range.1 (hl ▸ hm)
  have htake := takeDescriptor_reads n h s
  have hstill (m : Fin 8) : (s.takeDescriptor n h).ringServed m = s.ringServed m := by
    unfold State.ringServed
    rw [htake.num (by simp) m, htake.num (by simp) m]
  have hfirst : s.readServed h n = s.takeDescriptor n h := (if_pos hserved).trans hread
  rw [hl, List.foldl_append, List.foldl_cons]
  rw [foldl_readServed_unserved fun m hm => hothers ⟨m, hlt m (by simp [hm])⟩ (Fin.val_ne_iff.1 (hne₁ m hm)), hfirst]
  refine foldl_readServed_unserved fun m hm => ?_
  rw [hstill ⟨m, hlt m (by simp [hm])⟩]
  exact hothers ⟨m, hlt m (by simp [hm])⟩ (Fin.val_ne_iff.1 (hne₂ m hm))

/-- No job is other than quiet once a descriptor is read. -/
theorem takeDescriptor_quiet {n : Nat} {h : List (Nat × Byte)} {s : State} (hq : ∀ e ∈ s.jobs.jobs, e.2.quiet) :
    ∀ e ∈ (s.takeDescriptor n h).jobs.jobs, e.2.quiet := by
  rw [takeDescriptor_eq]
  split
  · exact hq
  split
  · exact hq
  split
  · exact hq
  · rw [(addJob_spec _ _ _ _ _).2.2]
    intro e he
    rcases Tab.mem_put _ _ _ _ he with rfl | he
    · exact ⟨.inr rfl, Nat.zero_ne_add_one 3⟩
    · exact hq e he

/-- What the descriptor leaves: a record that waits, or a Queued job. -/
theorem exec_pollInterval_one {s : State} {t : Nat} {h : List (Nat × Byte)} {n : Fin 8} (hserved : s.ringServed n = true)
    (hothers : ∀ m : Fin 8, m ≠ n → s.ringServed m = false) (hquiet : ∀ e ∈ s.jobs.jobs, e.2.layout.groupSize ≤ 1 ∧ e.2.ckptStep ≠ 4)
    (hne : s.num (ringObj Obj.subHead n) ≠ s.num (ringObj Obj.subTail n))
    (hlast : (s.num (ringObj Obj.subHead n) + 1) % s.num (ringObj Obj.subSlots n) = s.num (ringObj Obj.subTail n))
    (hqueued : s.num Obj.queuedJobs < 1024) (hwaiting : (s.jobs.waiting.get [] n).length < 1024)
    (hhost : s.isHost (s.num (ringObj Obj.subBase n)) = false) :
    exec (.pollInterval t h) s = .next ((s.upto t).takeDescriptor n h) := by
  have hread : (s.upto t).readRing n h (4094 + 2) = (s.upto t).takeDescriptor n h :=
    readRing_last (s := s.upto t) 4094 hne hlast hqueued hwaiting hhost
  rw [exec_pollInterval, foldl_readServed_one (s := s.upto t) hserved hothers hread]
  have hstill : ∀ e ∈ ((s.upto t).takeDescriptor n h).jobs.jobs, e.2.quiet :=
    takeDescriptor_quiet fun e he => ⟨.inl (hquiet e he).1, (hquiet e he).2⟩
  exact congrArg Host.Outcome.next (foldl_groupProgress hstill _)

/-- A table that rises without one of its keys, or as it was. -/
theorem find?_forgotten {l : Tab JobS} (job i : Nat) (h : l.sorted = true) :
    (if job = 0 then l else l.del job).find? i = if i = job ∧ job ≠ 0 then none else l.find? i := by
  by_cases hjob : job = 0
  · simp [hjob]
  · rw [if_neg hjob]
    by_cases hi : i = job
    · rw [if_pos ⟨hi, hjob⟩, hi, Tab.find?_del_self _ _ h]
    · rw [if_neg fun h => hi h.1, Tab.find?_del_ne _ _ _ hi h]

/-- Settles O38: writes of a ring's objects store or are denied as its chapter says; a record that goes out is `recordOut`,
after which its job is forgotten; and a poll is the descriptor that it takes, as `takeDescriptor_eq` has it. -/
theorem jobRingsRun : Obligations.JobRingsRun := by
  refine ⟨fun s q n val hadm => exec_subTailWrite hadm, ?_, ?_, ?_, ?_, ?_⟩
  · intro s q n val hadm
    obtain ⟨hok, -⟩ := serveOwn_stored hadm (rowOf_cplHead n) Handler.plain
    exact congrArg Host.Outcome.next (hok _ rfl)
  · intro s q n sub val hsub k used hadm
    obtain ⟨hused, hfree⟩ := exec_jobRingConfigWrite hsub rfl hadm
    obtain ⟨-, hne⟩ := ringConfig_key (n := n) hsub
    refine ⟨hused, fun h => ⟨_, hfree h, ?_⟩⟩
    refine ⟨?_, num_clearRing (by simp), num_clearRing (by simp), num_clearRing (by simp), num_clearRing (by simp),
      setNum_clearRing_frame _ _ _ _⟩
    rw [num_clearRing_ne hne, State.num_setNum_self]
  · intro s t n job done l rest hwait hroom _
    obtain ⟨v, hexec⟩ := exec_completionRecordWrite (t := t) hwait hroom
    obtain ⟨hmem, htail, hwaiting, hcount, hjobs, htiles, hstreams⟩ := recordOut_spec n done l rest (s.upto t)
    obtain ⟨hmem', htiles', hstreams', hjobs', hnum⟩ := afterRecord (s := (s.upto t).recordOut n done l rest) v n job
    rw [hjobs] at hjobs'
    refine ⟨_, hexec, ?_, ?_, ?_, ?_, ?_, fun hsorted i => ?_, ?_, ?_⟩
    · exact hmem'.trans (hmem.trans (storeAt_upto_mem _ t l s))
    · exact (hnum _ (by simp)).trans htail
    · rw [hjobs', Tab.get, Tab.find?_put_self]
      rfl
    · exact (hnum _ (by simp)).trans hwaiting
    · exact (hnum _ (by cases done <;> simp)).trans hcount
    · rw [State.job, hjobs']
      exact find?_forgotten job i hsorted
    · exact htiles'.trans htiles
    · exact hstreams'.trans hstreams
  · intro s t h hserved
    have hpoll := foldl_readServed_unserved (h := h) (s := s.upto t) (l := List.range 8) fun m hm =>
      hserved ⟨m, List.mem_range.1 hm⟩
    have hexec := exec_pollInterval t h s
    rw [hpoll] at hexec
    refine ⟨hexec, fun hq => hexec.trans (congrArg _ ?_)⟩
    exact foldl_groupProgress (s := s.upto t) (fun e he => ⟨.inl (hq e he).1, (hq e he).2⟩) _
  · intro s t h n b hserved hothers hquiet hne hlast hqueued hwaiting hhost hb
    have hread := takeDescriptor_reads n h (s.upto t)
    obtain ⟨hbad, htaken, hrefused, hgood⟩ := takeDescriptor_cases (s := s) (t := t) (h := h) hb
    refine ⟨_, exec_pollInterval_one hserved hothers hquiet hne hlast hqueued hwaiting hhost, hread.head.trans hlast,
      hread.mem, hread.tiles, hread.streams, hbad, htaken, fun hok hnew => ⟨hgood hok hnew, fun r hr => ?_⟩⟩
    exact (hrefused r hok hnew hr).2

end Sys2Proof.Machine

/-! PROOFS. What leaves the table of jobs, and the clock, as they were. -/

namespace Sys2Proof.Machine

/-- The table of jobs with its records waiting, and the clock. -/
def State.table (s : State) : JobsState × Nat := (s.jobs, s.now)

theorem ChangesOnly.table {l : List Nat} {s u : State} (h : ChangesOnly l s u) : u.table = s.table := by
  rw [h.1]
  rfl

theorem Sends.table {s u : State} (h : Sends s u) : u.table = s.table := by
  rw [h.1]
  rfl

theorem Unchecks.table {s u : State} (h : Unchecks s u) : u.table = s.table := by
  rw [h.frame]
  rfl

theorem LogsFault.table {r : FaultRec} {rung : Nat} {s u : State} (h : LogsFault r rung s u) : u.table = s.table := by
  rw [h.frame]
  rfl

namespace State
variable (s : State)

theorem jobs_of_table {s u : State} (h : u.table = s.table) : u.jobs = s.jobs := congrArg Prod.fst h
theorem now_of_table {s u : State} (h : u.table = s.table) : u.now = s.now := congrArg Prod.snd h

theorem job_of_table {s u : State} (h : u.table = s.table) (i : Nat) : u.job i = s.job i :=
  job_congr (congrArg JobsState.jobs (jobs_of_table h)) i

@[simp] theorem modTile_table (g : Nat) (f : TileS → TileS) : (s.modTile g f).table = s.table := rfl
@[simp] theorem setCtx_table (g x : Nat) (c : Context) : (s.setCtx g x c).table = s.table := rfl
@[simp] theorem modTh_table (g x : Nat) (f : Thread → Thread) : (s.modTh g x f).table = s.table := rfl
@[simp] theorem modDr_table (g x : Nat) (f : Drawer → Drawer) : (s.modDr g x f).table = s.table := rfl
@[simp] theorem poke_table (a : Nat) (l : List Byte) : (s.poke a l).table = s.table := rfl
@[simp] theorem modFeed_table (q : Nat) (f : FeedS → FeedS) : (s.modFeed q f).table = s.table := rfl
@[simp] theorem bump_table (k n : Nat) : (s.bump k n).table = s.table := rfl

/-! ## Landings and stops -/

theorem complete_table (g x seq op : Nat) (record : Bool) (k : Counts) :
    (s.complete g x seq op record k).table = s.table := by
  unfold complete
  extract_lets k s₁ s₂ i s₃
  have h₁ : s₁.table = s.table := (countDevice_changes _ _).table
  have h₂ : s₂.table = s.table := (modDr_table s₁ g x _).trans h₁
  clear_value s₂
  split
  · exact h₂
  · exact h₂

theorem land_table (g : Nat) (f : Flight) : (s.land g f).table = s.table := by
  unfold land
  extract_lets s₁
  have h₁ : s₁.table = s.table := by
    unfold s₁
    split <;> rfl
  split
  · exact h₁
  · exact (complete_table _ _ _ _ _ _ _).trans h₁

theorem landAt_table (g c : Nat) : (s.landAt g c).table = s.table := by
  unfold landAt
  extract_lets t now s₁ clashes s₂
  have h₂ : s₂.table = s.table := foldl_keeps table (fun u f => land_table u g f) now s₁
  split
  · exact h₂
  · exact h₂

theorem landBefore_table (g c n : Nat) : (s.landBefore g c n).table = s.table := by
  induction n generalizing s with
  | zero => rfl
  | succ n ih =>
    unfold landBefore
    split
    · rfl
    · split
      · exact (ih _).trans (landAt_table s g _)
      · rfl

theorem landCtx_table (g x : Nat) : (s.landCtx g x).table = s.table := landBefore_table s g _ _

theorem landAll_table (g x : Nat) : (s.landAll g x).table = s.table :=
  (foldl_keeps table (fun u f => land_table u g f) _ _).trans (landCtx_table s g x)

theorem releaseCtx_table (g x : Nat) : (s.releaseCtx g x).table = s.table := by
  simp only [releaseCtx, setCtx_table, modTile_table, landAll_table]

theorem stopCtx_table (g x : Nat) : (s.stopCtx g x).table = s.table := by
  unfold stopCtx
  extract_lets s₁ s₂ back s₃ s₄ s₅
  have h₅ : s₅.table = s.table := by
    simp only [s₅, s₄, s₃, s₂, s₁, bump_table, modDr_table, modTh_table, modTile_table, landCtx_table]
  clear_value s₅
  split
  · exact (feedRecover_unchecks s₅ g x).table.trans h₅
  · exact (checkerStops_unchecks s₅ g x).table.trans h₅

theorem askStop_table (g x : Nat) (recovery : Bool) : (s.askStop g x recovery).table = s.table := by
  unfold askStop
  extract_lets d s'
  have h' : s'.table = s.table := rfl
  split
  · rfl
  · split <;> rfl
  · exact (stopCtx_table s' g x).trans h'
  · split
    · exact (stopCtx_table s' g x).trans h'
    · exact h'
  · exact h'

theorem unpark_table (c : Nat) : (s.unpark c).table = s.table := by
  unfold unpark
  split
  · exact (setState_changes _ _ _).table.trans (setState_changes _ _ _).table
  · rfl

theorem bindCtx_table (d : LDrawer) (c : Context) (words : List (BitVec 128)) (semas : List (Nat × BitVec 32)) :
    (s.bindCtx d c words semas).table = s.table := unpark_table s (d.tile / 150)

theorem assignStopped_table (id : Nat) (d : LDrawer) (words : List (BitVec 128)) :
    (s.assignStopped id d words).table = s.table := (askStop_table _ _ _ _).trans (bindCtx_table _ _ _ _ _)

/-! ## Collectors and streams -/

theorem setColl_table (c : Nat) (q : Collector) : (s.setColl c q).table = s.table :=
  (setState_changes _ _ _).table

theorem dropSlots_table (id : Nat) : (s.dropSlots id).table = s.table := foldl_keeps table (fun u _ => setColl_table u _ _) _ s

theorem discardIn_table (m : StreamS) : (s.discardIn m).table = s.table := by
  unfold discardIn
  split
  · split <;> rfl
  · rfl

theorem streamEvent_table (k code : Nat) : (s.streamEvent k code).table = s.table := by
  unfold streamEvent
  split
  · exact (raiseVal_changes _ _ _ _).table
  · rfl

theorem dropStream_table (k : Nat) : (s.dropStream k).table = s.table := by
  unfold dropStream
  split
  · rfl
  · exact (streamEvent_table _ _ _).trans (discardIn_table _ _)

theorem closeSaved_table (j : JobS) : (s.closeSaved j).table = s.table := by
  refine foldl_keeps table (fun u e => ?_) _ s
  dsimp only
  split
  · exact streamEvent_table _ _ _
  · rfl

/-! ## Pages -/

theorem putLeaf_table (c asn page : Nat) (large : Bool) (leaf : Nat) : (s.putLeaf c asn page large leaf).table = s.table := by
  unfold putLeaf
  extract_lets t₁ t₂ t₀ s₁ s₂
  split <;> simp only [s₂, s₁, poke_table]

theorem putLeaves_table (asn page : Nat) (large : Bool) (leaf : Nat) : (s.putLeaves asn page large leaf).table = s.table :=
  foldl_keeps table (fun u c => putLeaf_table u c asn page large leaf) _ s

theorem setPinned_table (asn page : Nat) (large pin : Bool) : (s.setPinned asn page large pin).table = s.table := by
  unfold setPinned
  split
  · rfl
  · exact putLeaves_table _ _ _ _ _

theorem unpin_table (k : Nat) : (s.unpin k).table = s.table := by
  unfold unpin
  split
  · rfl
  · extract_lets mine rest m' s₁
    split
    · rfl
    · refine (foldl_keeps table (fun u p => ?_) mine s₁).trans rfl
      dsimp only
      split
      · split
        · rfl
        · exact setPinned_table _ _ _ _ _
      · rfl

theorem joinFault_table (asn page : Nat) (pin : Bool) : (s.joinFault asn page pin).table = s.table := by
  unfold joinFault
  extract_lets blocked joined m s₁
  have h₁ : s₁.table = s.table := rfl
  split
  · exact (setFlag_changes _ _ _).table.trans h₁
  · exact h₁

theorem raiseFault_table (c asn page : Nat) (pin : Bool) : (s.raiseFault c asn page pin).table = s.table := by
  unfold raiseFault
  split
  · exact joinFault_table _ _ _ _
  · rfl

theorem copyOut_table (frame backing n : Nat) : (s.copyOut frame backing n).table = s.table := by
  unfold copyOut
  split <;> rfl

theorem dropPages_table (j : JobS) (back : Bool) : (s.dropPages j back).table = s.table := by
  refine foldl_keeps table (fun u p => ?_) _ s
  obtain ⟨c, asn, large, n, page⟩ := p
  dsimp only
  refine (putLeaves_table _ _ _ _ _).trans ?_
  split
  · exact copyOut_table _ _ _ _
  · rfl

theorem mapSegment_table (j : JobS) (g : LSegment) : (s.mapSegment j g).table = s.table := by
  refine foldl_keeps table (fun u i => ?_) _ s
  extract_lets va b remote s₁ m s₂
  have h₂ : s₂.table = u.table := foldl_keeps table (fun w c => putLeaf_table w c _ _ _ _) _ u
  clear_value s₂
  split
  · split
    · exact (raiseFault_table _ _ _ _ _).trans h₂
    · exact h₂
  · exact h₂

/-! ## What a job's end takes away -/

theorem dropRungs_table (p : Rung → Bool) : (s.dropRungs p).table = s.table := (setState_changes _ _ _).table

theorem supersede_table (p : Rung → Bool) : (s.supersede p).table = s.table :=
  (foldl_keeps table (fun u (q : Rung) => (logFault_logs q.record 0xFF u).table) _ _).trans (dropRungs_table s p)

theorem freeAsn_table (j : JobS) (back : Bool) : (s.freeAsn j back).table = s.table := by
  unfold freeAsn
  split
  · rfl
  · exact dropPages_table s j back

theorem unplace_table (id : Nat) (j : JobS) : (s.unplace id j).table = s.table := by
  unfold unplace
  extract_lets s₁ s₂
  have h₁ : s₁.table = s.table := by
    refine foldl_keeps table (fun u d => ?_) _ s
    split
    · exact releaseCtx_table _ _ _
    · rfl
  have h₂ : s₂.table = s₁.table := foldl_keeps table (fun u (e : Nat × StreamS) => (dropStream_table _ _).trans (unpin_table u e.1)) _ s₁
  exact (dropSlots_table s₂ id).trans (h₂.trans h₁)

theorem freeJob_table (id : Nat) (j : JobS) (back : Bool) : (s.freeJob id j back).table = s.table :=
  (supersede_table _ _).trans ((freeAsn_table _ j back).trans ((closeSaved_table _ j).trans (unplace_table s id j)))

theorem setCapture_table (q v : Nat) : (s.setCapture q v).table = s.table := by
  unfold setCapture
  split
  · rfl
  · extract_lets s₁
    split
    · exact (raiseVal_changes _ _ _ _).table
    · rfl

theorem dropFeedStream_table (q : Nat) : (s.dropFeedStream q).table = s.table := by
  unfold dropFeedStream
  split
  · exact dropStream_table _ _
  · rfl

theorem feedEnds_table (q : Nat) : (s.feedEnds q).table = s.table := by
  unfold feedEnds
  extract_lets s₁ s₂ s₃
  have h₁ : s₁.table = s.table := (flushFeed_unchecks _ q).table.trans (unknownAll_unchecks s q).table
  have h₂ : s₂.table = s₁.table := dropFeedStream_table s₁ q
  have h₃ : s₃.table = s₂.table := modFeed_table s₂ q _
  clear_value s₃
  exact (setFeedSt_unchecks _ q 1).table.trans ((setCapture_table s₃ q 0).trans (h₃.trans (h₂.trans h₁)))

theorem checkerEnds_table (j : JobS) : (s.checkerEnds j).table = s.table :=
  foldl_keeps table (fun u q => feedEnds_table u q) _ s

theorem tellGroup_sends (id : Nat) (j : JobS) : Sends s (s.tellGroup id j) := by
  unfold tellGroup
  split
  · exact .refl s
  · dsimp only
    split
    · exact .foldl (fun u d => sendFlit_sends _ _ _ u) _ s
    · exact sendFlit_sends _ _ _ s

end State

end Sys2Proof.Machine

/-! PROOFS. How a job changes state, and how it ends. -/

namespace Sys2Proof.Machine

/-- A job's record as it enters another state (R308, R311). -/
def JobS.entering (j : JobS) (st : JobSt) (now : Nat) : JobS :=
  { j with runNs := j.runTime now, runFrom := if st = .running then some now else none, st := st }

/-- A job's record as it ends with a status (R296). -/
def JobS.ended (j : JobS) (status detail now : Nat) : JobS :=
  ({ j with status := some (status, detail), writing := none } : JobS).entering .ending now

/-! ## What putting one job comes to -/

/-- Only one job's record changes, and these objects. -/
structure PutsJob (l : List Nat) (id : Nat) (j : JobS) (s u : State) : Prop where
  frame : ChangesJobs l s u
  self : u.job id = some j
  others : ∀ i, i ≠ id → u.job i = s.job i
  waiting : u.jobs.waiting = s.jobs.waiting

namespace PutsJob

variable {l l' : List Nat} {id : Nat} {j k : JobS} {s t u : State}

theorem of_putJob (s : State) (id : Nat) (j : JobS) : PutsJob jobCountKeys id j s (s.putJob id j) :=
  ⟨.putJob s id j, s.job_putJob_self id j, fun _ h => s.job_putJob_ne id j h, rfl⟩

theorem trans (h₁ : PutsJob l id j s t) (h₂ : PutsJob l id k t u) : PutsJob l id k s u :=
  ⟨h₁.frame.trans h₂.frame, h₂.self, fun i hi => (h₂.others i hi).trans (h₁.others i hi), h₂.waiting.trans h₁.waiting⟩

theorem mono (h : PutsJob l id j s u) (hl : l ⊆ l') : PutsJob l' id j s u :=
  ⟨h.frame.mono hl, h.self, h.others, h.waiting⟩

/-- Objects that change afterwards leave the record. -/
theorem changes (h : PutsJob l id j s t) (hc : ChangesOnly l t u) : PutsJob l id j s u :=
  ⟨h.frame.trans (.of_changes hc), (State.job_of_table hc.table id).trans h.self,
    fun i hi => (State.job_of_table hc.table i).trans (h.others i hi), by rw [State.jobs_of_table hc.table, h.waiting]⟩

end PutsJob

namespace State

theorem setJobSt_puts {s : State} {id : Nat} {j : JobS} {st : JobSt} (hj : s.job id = some j) (hst : j.st ≠ st) :
    PutsJob jobCountKeys id (j.entering st s.now) s (s.setJobSt id st) := by
  unfold setJobSt
  rw [hj]
  dsimp -zeta only
  rw [if_neg hst]
  extract_lets j' s'
  split
  · exact (PutsJob.of_putJob s id _).changes ((raiseVal_changes _ _ _ _).mono (List.nil_subset _))
  · exact PutsJob.of_putJob s id _

/-- The objects that follow a job's end. -/
def endKeys : List Nat := jobCountKeys ++ [Obj.jobsEndedFarTier, Obj.healthFlags]

/-- A far-tier end counts, with its flag. -/
theorem farEnd_changes (far : Bool) (s : State) : ChangesOnly endKeys s
    (if far then (s.bump Obj.jobsEndedFarTier 1).setFlag Obj.healthFlags 0x20 else s) := by
  split
  · exact ((bump_changes _ _ _).mono (by simp [endKeys])).trans ((setFlag_changes _ _ _).mono (by simp [endKeys]))
  · exact .refl _ _

end State

/-- A job ends with a status: its record enters Ending, every other stays, and the clock stands. Where it is in no group and
has no feeds, nothing of memory or of a tile changes. -/
structure EndsJob (id : Nat) (j : JobS) (status detail : Nat) (s u : State) : Prop where
  self : u.job id = some (j.ended status detail s.now)
  others : ∀ i, i ≠ id → u.job i = s.job i
  waiting : u.jobs.waiting = s.jobs.waiting
  now : u.now = s.now
  quiet : j.layout.groupSize ≤ 1 → s.feedsOfJob j = [] → u.mem = s.mem ∧ u.tiles = s.tiles

theorem State.endJob_ends {s : State} {id status detail : Nat} {j : JobS} (hj : s.job id = some j) (hst : j.st ≠ .ending) :
    EndsJob id j status detail s (s.endJob id status detail) := by
  unfold endJob
  rw [hj]
  dsimp -zeta only
  rw [if_neg hst]
  extract_lets s₁ s₂
  have h₁ : PutsJob endKeys id { j with status := some (status, detail), writing := none } s s₁ :=
    (PutsJob.of_putJob s id _).mono (List.subset_append_left _ _)
  have h₂ : PutsJob endKeys id { j with status := some (status, detail), writing := none } s s₂ :=
    h₁.changes (farEnd_changes _ s₁)
  have h₃ : PutsJob endKeys id (j.ended status detail s.now) s (s₂.setJobSt id .ending) := by
    refine h₂.trans ?_
    rw [← h₂.frame.now]
    exact (setJobSt_puts h₂.self hst).mono (List.subset_append_left _ _)
  generalize s₂.setJobSt id .ending = s₃ at h₃ ⊢
  have htable : ((s₃.checkerEnds j).tellGroup id j).table = s₃.table :=
    (tellGroup_sends _ id j).table.trans (checkerEnds_table s₃ j)
  refine ⟨(job_of_table htable id).trans h₃.self, fun i hi => (job_of_table htable i).trans (h₃.others i hi), ?_,
    (now_of_table htable).trans h₃.frame.now, fun hsize hfeeds => ?_⟩
  · rw [jobs_of_table htable, h₃.waiting]
  · have hfeeds' : s₃.feedsOfJob j = [] := by
      have : s₃.feedsOfJob j = s.feedsOfJob j := by
        unfold feedsOfJob feedKey feed
        rw [h₃.frame.trace]
      rw [this, hfeeds]
    rw [tellGroup, if_pos hsize, checkerEnds, hfeeds']
    exact ⟨h₃.frame.mem, h₃.frame.tiles⟩

end Sys2Proof.Machine

/-! PROOFS. The end of a job: what it frees, and its record (R296, R297). -/

namespace Sys2Proof.Machine

/-- The record of a job that has been released. -/
def JobS.freed (j : JobS) : JobS :=
  { j.dropXfers with status := none, placed := [], streams := [], granules := [], saved := none, mapped := false }

namespace State

/-- An ending job is released, and its record joins its ring's queue. -/
def closeJob (id : Nat) (j : JobS) (status detail : Nat) (s : State) : State :=
  let s := s.freeJob id j (status = Status.done)
  let s := s.putJob id j.freed
  s.queueCpl j.ring id id status detail j.runNs (s.jobTotals.get ⟨0, Counts.zero⟩ id)

theorem freeAsn_faults {j : JobS} (hmap : j.mapped = true) (back : Bool) (s : State) :
    ∀ f ∈ (s.freeAsn j back).mm.faults, f.asn ≠ j.asn := by
  rw [freeAsn, if_neg (by simp [hmap])]
  intro f hf
  simpa using (List.mem_filter.mp hf).2

theorem supersede_mm (p : Rung → Bool) (s : State) : (s.supersede p).mm = s.mm := by
  refine (foldl_keeps (·.mm) (fun u (q : Rung) => ?_) _ _).trans ?_
  · rw [(logFault_logs q.record 0xFF u).frame]
    rfl
  · rw [dropRungs, updateHealth, (setState_changes _ _ _).1]

theorem cplRecord_now {s u : State} (h : u.now = s.now) (id status detail ran : Nat) (t : JobTotals) :
    u.cplRecord id status detail ran t = s.cplRecord id status detail ran t := by
  rw [cplRecord, h, cplRecord]

end State

/-- What the record of a job's end leaves. -/
structure ClosesJob (id : Nat) (j : JobS) (status detail : Nat) (s u : State) : Prop where
  waiting : u.jobs.waiting.get [] j.ring = s.jobs.waiting.get [] j.ring ++ [(id, decide (status = 0),
    s.cplRecord id status detail j.runNs (u.jobTotals.get ⟨0, Counts.zero⟩ id))]
  self : (u.job id).map (fun k => (k.st, k.placed, k.streams, k.granules)) = some (j.st, [], [], [])
  faults : j.mapped = true → ∀ f ∈ u.mm.faults, f.asn ≠ j.asn
  others : ∀ i, i ≠ id → u.job i = s.job i

theorem State.closeJob_closes (id : Nat) (j : JobS) (status detail : Nat) (s : State) :
    ClosesJob id j status detail s (s.closeJob id j status detail) := by
  unfold closeJob
  extract_lets a b
  have hfree : a.table = s.table := freeJob_table s id j _
  have hfaults (hmap : j.mapped = true) : ∀ f ∈ a.mm.faults, f.asn ≠ j.asn := by
    unfold a
    rw [freeJob, supersede_mm]
    exact freeAsn_faults hmap _ _
  have hb : PutsJob jobCountKeys id j.freed a b := .of_putJob a id _
  have hbnow : b.now = s.now := hb.frame.now.trans (now_of_table hfree)
  have hbmm : b.mm = a.mm := hb.frame.mm
  have hjobs := queueCpl_jobs j.ring id id status detail j.runNs (b.jobTotals.get ⟨0, Counts.zero⟩ id) b
  have htotals : (b.queueCpl j.ring id id status detail j.runNs (b.jobTotals.get ⟨0, Counts.zero⟩ id)).jobTotals = b.jobTotals := rfl
  have hmm : (b.queueCpl j.ring id id status detail j.runNs (b.jobTotals.get ⟨0, Counts.zero⟩ id)).mm = b.mm := rfl
  clear_value b
  generalize b.queueCpl j.ring id id status detail j.runNs (b.jobTotals.get ⟨0, Counts.zero⟩ id) = u at hjobs htotals hmm ⊢
  have hjob (i : Nat) : u.job i = b.job i := job_congr (by rw [hjobs]) i
  refine ⟨?_, ?_, fun hmap => ?_, fun i hi => ?_⟩
  · rw [htotals, hjobs, hb.waiting, jobs_of_table hfree, cplRecord_now hbnow, Tab.get, Tab.find?_put_self]
    rfl
  · rw [hjob, hb.self]
    rfl
  · rw [hmm, hbmm]
    exact hfaults hmap
  · rw [hjob, hb.others i hi, job_of_table hfree]

section
variable {s : State} {t : Nat} {id : BitVec 32} {j : JobS}

theorem execJobEnd_ending {st d : Nat} (hj : s.job id.toNat = some j) (hend : j.st = .ending) (hst : j.status = some (st, d)) :
    execJobEnd t id s =
      .next (if s.cplQueueFull j.ring then s.upto t else (s.upto t).closeJob id.toNat j st d) := by
  have hnot : (s.upto t).jobDone id.toNat j = false := by simp [State.jobDone, hend]
  have hj' : (s.upto t).job id.toNat = some j := hj
  have hfull : (s.upto t).cplQueueFull j.ring = s.cplQueueFull j.ring := rfl
  unfold execJobEnd
  extract_lets a i b
  have hb : b = a := by
    unfold b
    rw [hj']
    exact if_neg (Bool.eq_false_iff.mp hnot)
  rw [hb, hj']
  dsimp -zeta only
  rw [hst]
  dsimp -zeta only
  rw [hfull, hend]
  cases s.cplQueueFull j.ring <;> rfl

theorem execJobEnd_done (hj : s.job id.toNat = some j) (hdone : s.jobDone id.toNat j = true)
    (hroom : s.cplQueueFull j.ring = false) :
    execJobEnd t id s = .next
      (((s.upto t).endJob id.toNat 0 0).closeJob id.toNat (j.ended 0 0 (max s.now t)) 0 0) := by
  have hdone' : (s.upto t).jobDone id.toNat j = true := hdone
  have hj' : (s.upto t).job id.toNat = some j := hj
  have hst : j.st ≠ .ending := by
    intro h
    simp [State.jobDone, h] at hdone
  have hends := State.endJob_ends (status := 0) (detail := 0) hj' hst
  have hself : ((s.upto t).endJob id.toNat 0 0).job id.toNat = some (j.ended 0 0 (max s.now t)) := hends.self
  have hfull : ((s.upto t).endJob id.toNat 0 0).cplQueueFull j.ring = false := by
    rw [State.cplQueueFull, hends.waiting]
    exact hroom
  unfold execJobEnd
  extract_lets a i b
  have hb : b = (s.upto t).endJob id.toNat 0 0 := by
    unfold b
    rw [hj']
    exact if_pos hdone'
  rw [hb, hself]
  dsimp -zeta only
  generalize (s.upto t).endJob id.toNat 0 0 = e at *
  have hst' : (j.ended 0 0 (max s.now t)).st = .ending := rfl
  have hring : (j.ended 0 0 (max s.now t)).ring = j.ring := rfl
  have hstat : (j.ended 0 0 (max s.now t)).status = some (0, 0) := rfl
  rw [hstat]
  dsimp -zeta only
  rw [hst', hring, hfull]
  rfl

/-- What the end of a job with this status comes to, with its run time. -/
theorem jobEnd_answers {st d ran : Nat} (hj : s.job id.toNat = some j)
    (hdue : (j.st = .ending ∧ j.status = some (st, d) ∧ ran = j.runNs) ∨
      (s.jobDone id.toNat j = true ∧ st = 0 ∧ d = 0 ∧ ran = j.runTime (max s.now t)))
    (hroom : s.cplQueueFull j.ring = false) : Answers (exec (.jobEnd t id) s) fun u =>
      u.jobs.waiting.get [] j.ring = s.jobs.waiting.get [] j.ring ++ [(id.toNat, decide (st = 0),
        (s.upto t).cplRecord id.toNat st d ran (u.jobTotals.get ⟨0, Counts.zero⟩ id.toNat))] ∧
      (u.job id.toNat).map (fun k => (k.st, k.placed, k.streams, k.granules)) = some (.ending, [], [], []) ∧
      (j.mapped = true → ∀ f ∈ u.mm.faults, f.asn ≠ j.asn) ∧ (∀ i, i ≠ id.toNat → u.job i = s.job i) := by
  rcases hdue with ⟨hend, hst, rfl⟩ | ⟨hdone, rfl, rfl, rfl⟩
  · refine ⟨_, execJobEnd_ending hj hend hst, ?_⟩
    rw [hroom]
    obtain ⟨hwait, hself, hfaults, hothers⟩ := (s.upto t).closeJob_closes id.toNat j st d
    exact ⟨hwait, hself.trans (by rw [hend]), hfaults, hothers⟩
  · have hst : j.st ≠ .ending := by
      intro h
      simp [State.jobDone, h] at hdone
    have hj' : (s.upto t).job id.toNat = some j := hj
    have hends := State.endJob_ends (status := 0) (detail := 0) hj' hst
    refine ⟨_, execJobEnd_done hj hdone hroom, ?_⟩
    obtain ⟨hwait, hself, hfaults, hothers⟩ :=
      ((s.upto t).endJob id.toNat 0 0).closeJob_closes id.toNat (j.ended 0 0 (max s.now t)) 0 0
    refine ⟨hwait.trans ?_, hself, hfaults, fun i hi => (hothers i hi).trans (hends.others i hi)⟩
    rw [hends.waiting, State.cplRecord_now hends.now]
    rfl

end

end Sys2Proof.Machine

/-! PROOFS. A job that is cancelled (R312). -/

namespace Sys2Proof.Machine

/-- Nothing of the table changes but one job's record, which stays in its state. -/
structure KeepsState (id : Nat) (s u : State) : Prop where
  self : (u.job id).map (·.st) = (s.job id).map (·.st)
  others : ∀ i, i ≠ id → u.job i = s.job i

namespace KeepsState

variable {id : Nat} {s t u : State}

theorem of_jobs (h : u.jobs.jobs = s.jobs.jobs) : KeepsState id s u :=
  ⟨by rw [State.job_congr h], fun i _ => State.job_congr h i⟩

theorem trans (h₁ : KeepsState id s t) (h₂ : KeepsState id t u) : KeepsState id s u :=
  ⟨h₂.self.trans h₁.self, fun i hi => (h₂.others i hi).trans (h₁.others i hi)⟩

theorem of_putJob {j : JobS} (hj : s.job id = some j) (k : JobS) (hst : k.st = j.st) : KeepsState id s (s.putJob id k) :=
  ⟨by rw [State.job_putJob_self, hj, Option.map_some, Option.map_some, hst], fun _ hi => s.job_putJob_ne id k hi⟩

theorem of_table (h : u.table = s.table) : KeepsState id s u := .of_jobs (congrArg JobsState.jobs (State.jobs_of_table h))

theorem after_putJob {j k : JobS} (hj : s.job id = some j) (h : KeepsState id (s.putJob id k) u) (hst : k.st = j.st) :
    KeepsState id s u := (of_putJob hj k hst).trans h

end KeepsState

namespace State

theorem remoteAsk_table (dev addr n : Nat) (read : Bool) (data : List Byte) (who : Nat) (s : State) :
    (s.remoteAsk dev addr n read data who).table = s.table := by
  unfold remoteAsk
  split
  · rfl
  · extract_lets tag m s₁ s₂
    have h₂ : s₂.table = s.table := (sendFlit_sends _ _ _ s₁).table
    split
    · exact h₂
    · exact (sendFlit_sends _ _ _ s₂).table.trans h₂

theorem takeDone_table (who : Nat) (s : State) : (s.takeDone who).2.table = s.table := by
  unfold takeDone
  split <;> rfl

theorem moveXfer_keepsState (id : Nat) (x : Xfer) (s : State) : KeepsState id s (s.moveXfer id x) := by
  unfold moveXfer
  split
  · exact .of_jobs rfl
  next j hj =>
    extract_lets w
    split
    · split
      · exact .of_jobs rfl
      · exact .after_putJob hj (.of_table (remoteAsk_table _ _ _ _ _ _ _)) rfl
    · split
      · exact .of_jobs rfl
      next st d a hdone =>
        have ha : a.table = s.table := by
          have h := takeDone_table w s
          rw [hdone] at h
          exact h
        exact (KeepsState.of_table ha).trans (.of_putJob ((job_of_table ha id).trans hj) _ rfl)

theorem moveXfers_keepsState (id : Nat) (s : State) : KeepsState id s (s.moveXfers id) := by
  unfold moveXfers
  split
  · exact .of_jobs rfl
  next j hj =>
    clear hj
    induction j.xfers generalizing s with
    | nil => exact .of_jobs rfl
    | cons x l ih => exact (moveXfer_keepsState id x s).trans (ih _)

theorem voidSlot_keepsState (id a : Nat) (s : State) : KeepsState id s (s.voidSlot a) := by
  unfold voidSlot
  split <;> exact .of_jobs rfl

theorem unCommit_keepsState (id a : Nat) (s : State) : KeepsState id s (s.unCommit id a) := by
  unfold unCommit
  extract_lets s₁
  have h₁ : KeepsState id s s₁ := voidSlot_keepsState id a s
  clear_value s₁
  split
  · split
    next j hj => exact h₁.trans (.after_putJob hj (moveXfers_keepsState id _) rfl)
    · exact h₁
  · exact h₁.trans (.of_jobs rfl)

/-- The checkpoint that a job is writing stays uncommitted. -/
def cancelCkpt (id : Nat) (j : JobS) (s : State) : State :=
  match j.writing with
  | some n => if j.st = JobSt.checkpointing then s.unCommit id (j.desc.slotAt n) else s
  | none => s

theorem cancelCkpt_keepsState (id : Nat) (j : JobS) (s : State) : KeepsState id s (s.cancelCkpt id j) := by
  unfold cancelCkpt
  split
  · split
    · exact unCommit_keepsState _ _ _
    · exact .of_jobs rfl
  · exact .of_jobs rfl

end State

theorem writeCancelJob_of_ended {v : Val} {s : State}
    (h : s.job v.toNat = none ∨ ∃ j, s.job v.toNat = some j ∧ j.st = .ending) : writeCancelJob v s = .ok s := by
  unfold writeCancelJob
  rcases h with hj | ⟨j, hj, hst⟩
  · simp only [hj]
  · simp only [hj, if_pos hst]

theorem writeCancelJob_of_job {v : Val} {s : State} {j : JobS} (hj : s.job v.toNat = some j) (hst : j.st ≠ .ending) :
    writeCancelJob v s = .ok ((s.cancelCkpt v.toNat j).endJob v.toNat Status.cancelled 0) := by
  unfold writeCancelJob
  simp only [hj, if_neg hst]
  rfl

/-- CancelJob is written for its effect alone. -/
theorem exec_cancelJob {s u : State} {q : Req} {val : List Byte} (hadm : Admitted q Obj.cancelJob val s)
    (h : writeCancelJob (.num (leNat val)) (Arrived q s) = .ok u) :
    exec (.cancelJob q val) s = .next (Replied q Obj.cancelJob u) := by
  have hrow : (rowOf Obj.cancelJob).any (fun r => r.ty.fixed && r.acc = .wo) = true := by decide
  obtain ⟨r, v, hrow', hdec, hok, -⟩ := serveOwn_admitted hadm writeCancelJob
  simp only [hrow', Option.any_some, Bool.and_eq_true, decide_eq_true_eq] at hrow
  obtain ⟨hty, hacc⟩ := hrow
  obtain rfl := decodeVal_fixed hty hdec
  have happly : (Arrived q s).applyVal r Obj.cancelJob (.num (leNat val)) 0 = Arrived q s := by simp [State.applyVal, hacc]
  exact congrArg Host.Outcome.next (hok u (by simp [State.doWrite, happly, h, hacc]))

/-- CANCEL_JOB (R312). -/
theorem cancelJob_carries {s : State} {q : Req} {val : List Byte} {j : JobS} (hadm : Admitted q Obj.cancelJob val s)
    (hj : s.job (leNat val) = some j) (hst : j.st ≠ .ending) :
    Carries q Obj.cancelJob (exec (.cancelJob q val) s) fun u =>
      (u.job (leNat val)).map (fun k => (k.st, k.status)) = some (.ending, some (1, 0)) ∧
      (∀ i, i ≠ leNat val → u.job i = s.job i) ∧
      (j.writing = none → j.layout.groupSize ≤ 1 → s.feedsOfJob j = [] → u.mem = s.mem ∧ u.tiles = s.tiles) := by
  have harr (i : Nat) : (Arrived q s).job i = s.job i := State.job_congr (congrArg JobsState.jobs (arrived_jobs q s)) i
  have hja : (Arrived q s).job (leNat val) = some j := (harr _).trans hj
  refine ⟨_, exec_cancelJob hadm (writeCancelJob_of_job hja hst), ?_⟩
  simp only [Val.toNat]
  obtain ⟨hself, hothers⟩ := (Arrived q s).cancelCkpt_keepsState (leNat val) j
  rw [hja, Option.map_some, Option.map_eq_some_iff] at hself
  obtain ⟨k, hk, hkst⟩ := hself
  have hends := State.endJob_ends (status := Status.cancelled) (detail := 0) hk (hkst ▸ hst)
  refine ⟨by rw [hends.self]; rfl, fun i hi => (hends.others i hi).trans ((hothers i hi).trans (harr i)), ?_⟩
  intro hwriting hsize hfeeds
  have hsame : (Arrived q s).cancelCkpt (leNat val) j = Arrived q s := by rw [State.cancelCkpt, hwriting]
  rw [hsame] at hk hends
  obtain rfl := Option.some.inj (hja.symm.trans hk)
  have hfeeds' : (Arrived q s).feedsOfJob j = [] := by
    rw [arrived_eq]
    exact hfeeds
  obtain ⟨hmem, htiles⟩ := hends.quiet hsize hfeeds'
  rw [hsame, hmem, htiles, arrived_eq]
  exact ⟨rfl, rfl⟩

end Sys2Proof.Machine

/-! PROOFS. A job is placed (R303 to R305): what JOB_PLACEMENT decides. -/

namespace Sys2Proof.Machine

/-- A queued job that was never placed waits for nothing before its positions (R303). -/
structure Placeable (s : State) (id : Nat) (asn : Nat) (j : JobS) : Prop where
  job : s.job id = some j
  queued : j.st = .queued
  fresh : j.saved = none
  room : s.num Obj.placedJobs < 256
  asnFree : ∀ e ∈ s.jobs.jobs, e.2.mapped = true → e.2.asn ≠ asn
  first : s.heldBack id j = false
  ready : s.resetIn (s.placementOf j) = false

/-- What JOB_PLACEMENT does with a job that waits for nothing else: it ends it, places it, or leaves it for now. -/
def State.choosePlace (id asn : Nat) (j : JobS) (h : List (Nat × Byte)) (s : State) : Res :=
  match s.lostIn (s.placementOf j) with
  | some c => .next (s.endJob id Status.noPlacement c)
  | none => match s.placesFor id (fun d => s.rowsOk d && s.tileUp d.tile) (s.placementOf j) with
    | .error c => .next (s.endJob id Status.noPlacement c)
    | .ok ds =>
      let room := (List.range 8).all fun c => s.mibUsed c + j.desc.mib j.layout c ≤ Config.gddrPerCabinet / 0x100000
      match s.granulesFor j.layout with
      | none => .next s
      | some gr =>
        if !room || !s.rtFits ds then .next s
        else if !s.fitsAll id [] ds then .next (s.makeRoom j ds)
        else if s.streamsTaken (j.layout.streamsWith s.lost) then .next s
        else .next (s.placeJob id asn j ds gr h)

section

variable {s : State} {t : Nat} {id : BitVec 32} {asn : Byte} {h : List (Nat × Byte)} {j : JobS}

theorem execJobPlacement_eq (hp : Placeable s id.toNat asn.toNat j) :
    execJobPlacement t id asn h s = (s.upto t).choosePlace id.toNat asn.toNat j h := by
  have hasn : (s.jobs.jobs.any fun e => e.2.mapped && e.2.asn = asn.toNat) = false := by
    rw [List.any_eq_false]
    intro e he
    simpa using hp.asnFree e he
  have hwait : ¬(j.st ≠ .queued || j.saved.isSome || 256 ≤ s.num Obj.placedJobs ||
      (s.jobs.jobs.any fun e => e.2.mapped && e.2.asn = asn.toNat) || s.heldBack id.toNat j) = true := by
    have hroom : ¬256 ≤ s.num Obj.placedJobs := Nat.not_le.mpr hp.room
    simp [hp.queued, hp.fresh, hroom, hasn, hp.first]
  have hready : ¬s.resetIn (s.placementOf j) = true := by simp [hp.ready]
  have hj : (s.upto t).job id.toNat = some j := hp.job
  unfold execJobPlacement
  extract_lets a i
  rw [show a.job i = some j from hj]
  exact (if_neg hwait).trans (if_neg hready)

/-- A lost cabinet without fallback, or no place for a drawer, ends the job (R303, R305). -/
theorem choosePlace_ends {id asn c : Nat} (hc : s.lostIn (s.placementOf j) = some c ∨ (s.lostIn (s.placementOf j) = none ∧
      s.placesFor id (fun d => s.rowsOk d && s.tileUp d.tile) (s.placementOf j) = .error c)) :
    s.choosePlace id asn j h = .next (s.endJob id Status.noPlacement c) := by
  unfold State.choosePlace
  rcases hc with hlost | ⟨hlost, hplaces⟩
  · rw [hlost]
  · rw [hlost]
    dsimp -zeta only
    rw [hplaces]

/-- What a fresh placement needs is free (R303). -/
structure HasPlace (s : State) (id : Nat) (j : JobS) (ds : List LDrawer) (gr : List (Nat × Nat × Nat)) : Prop where
  kept : s.lostIn (s.placementOf j) = none
  places : s.placesFor id (fun d => s.rowsOk d && s.tileUp d.tile) (s.placementOf j) = .ok ds
  fits : s.fitsAll id [] ds = true
  granules : s.granulesFor j.layout = some gr
  streams : s.streamsTaken (j.layout.streamsWith s.lost) = false
  rt : s.rtFits ds = true
  memory : ∀ c : Cab, s.mibUsed c + j.desc.mib j.layout c ≤ Config.gddrPerCabinet / 0x100000

theorem choosePlace_places {id asn : Nat} {ds : List LDrawer} {gr : List (Nat × Nat × Nat)} (hp : HasPlace s id j ds gr) :
    s.choosePlace id asn j h = .next (s.placeJob id asn j ds gr h) := by
  have hroom : ((List.range 8).all fun c => s.mibUsed c + j.desc.mib j.layout c ≤ Config.gddrPerCabinet / 0x100000) = true := by
    rw [List.all_eq_true]
    intro c hc
    exact decide_eq_true (hp.memory ⟨c, List.mem_range.mp hc⟩)
  unfold State.choosePlace
  rw [hp.kept]
  dsimp -zeta only
  rw [hp.places]
  dsimp -zeta only
  rw [hroom, hp.granules, hp.rt, hp.fits, hp.streams]
  rfl

end

end Sys2Proof.Machine

/-! PROOFS. Landings, stops and releases, context by context. -/

namespace Sys2Proof.Machine

/-! ## What a landing writes (R135, R136) -/

/-- In tile g every thread stands, what is in flight stays so, and only these contexts change. -/
structure WritesContexts (g : Nat) (xs : List Nat) (s u : State) : Prop where
  threads : ∀ y, u.th g y = s.th g y
  flight : (u.tile g).flight = (s.tile g).flight
  contexts : ∀ y, y ∉ xs → u.ctx g y = s.ctx g y

namespace WritesContexts

variable {g : Nat} {xs ys : List Nat} {s t u : State}

theorem of_tile (h : u.tile g = s.tile g) : WritesContexts g xs s u :=
  ⟨fun y => by rw [State.th, State.ctx_congr h, State.th], by rw [h], fun y _ => State.ctx_congr h y⟩

theorem trans (h₁ : WritesContexts g xs s t) (h₂ : WritesContexts g xs t u) : WritesContexts g xs s u :=
  ⟨fun y => (h₂.threads y).trans (h₁.threads y), h₂.flight.trans h₁.flight,
    fun y hy => (h₂.contexts y hy).trans (h₁.contexts y hy)⟩

theorem mono (h : WritesContexts g xs s u) (hsub : xs ⊆ ys) : WritesContexts g ys s u :=
  ⟨h.threads, h.flight, fun y hy => h.contexts y fun hx => hy (hsub hx)⟩

/-- A context whose thread stands. -/
theorem setCtx {x : Nat} (hx : x ∈ xs) (c : Context) (hc : c.th = s.th g x) : WritesContexts g xs s (s.setCtx g x c) :=
  ⟨fun y => s.proj_setCtx g x Context.th c hc y, s.flight_setCtx g x c,
    fun _ hy => s.ctx_setCtx_ne g c fun he => hy (he ▸ hx)⟩

theorem modTile (f : TileS → TileS) (hctxs : (f (s.tile g)).ctxs = (s.tile g).ctxs)
    (hflight : (f (s.tile g)).flight = (s.tile g).flight) : WritesContexts g xs s (s.modTile g f) := by
  have hctx (y : Nat) : (s.modTile g f).ctx g y = s.ctx g y := s.ctx_modTile g f hctxs y
  exact ⟨fun y => by rw [State.th, hctx, State.th], by rw [State.tile_modTile_self, hflight], fun y _ => hctx y⟩

end WritesContexts

namespace State

variable (s : State) (g : Nat)

theorem complete_writes (x seq op : Nat) (record : Bool) (k : Counts) :
    WritesContexts g [x] s (s.complete g x seq op record k) := by
  unfold complete
  extract_lets k s₁ s₂ i s₃
  have h₁ : s₁.tile g = s.tile g := tile_congr (by rw [show s₁.tiles = _ from congrArg State.tiles (countDevice_changes _ _).1]; rfl) g
  have h₂ : WritesContexts g [x] s s₂ := (WritesContexts.of_tile h₁).trans (.setCtx (.head _) _ rfl)
  split
  · have h₃ : s₃.tile g = s₂.tile g := tile_congr rfl g
    exact (h₂.trans (.of_tile h₃)).trans (.setCtx (.head _) _ rfl)
  · exact h₂

theorem land_writes (f : Flight) : WritesContexts g [f.ctx] s (s.land g f) := by
  unfold land
  extract_lets s₁
  have h₁ : WritesContexts g [f.ctx] s s₁ := by
    unfold s₁
    split
    case h_5 => exact .modTile _ rfl rfl
    case h_8 => exact .of_tile (tile_congr rfl g)
    all_goals exact .setCtx (.head _) _ rfl
  split
  · exact h₁
  · exact h₁.trans (complete_writes _ _ _ _ _ _ _)

theorem lands_writes (l : List Flight) {xs : List Nat} (hl : ∀ f ∈ l, f.ctx ∈ xs) :
    WritesContexts g xs s (l.foldl (fun u f => u.land g f) s) := by
  induction l generalizing s with
  | nil => exact .of_tile rfl
  | cons f l ih =>
    have hf : [f.ctx] ⊆ xs := List.cons_subset.mpr ⟨hl f List.mem_cons_self, List.nil_subset _⟩
    exact ((land_writes s g f).mono hf).trans (ih _ fun f' hf' => hl f' (List.mem_cons_of_mem _ hf'))

end State

/-- Results in flight in tile g land: every thread stands, nothing new is in flight, and a context with nothing in flight
stays as it is. -/
structure Lands (g : Nat) (s u : State) : Prop where
  threads : ∀ y, u.th g y = s.th g y
  flight : (u.tile g).flight ⊆ (s.tile g).flight
  contexts : ∀ y, (∀ f ∈ (s.tile g).flight, f.ctx ≠ y) → u.ctx g y = s.ctx g y

namespace Lands

variable {g : Nat} {s t u : State}

theorem refl (s : State) : Lands g s s := ⟨fun _ => rfl, List.Subset.refl _, fun _ _ => rfl⟩

theorem trans (h₁ : Lands g s t) (h₂ : Lands g t u) : Lands g s u :=
  ⟨fun y => (h₂.threads y).trans (h₁.threads y), List.Subset.trans h₂.flight h₁.flight,
    fun y hy => (h₂.contexts y fun f hf => hy f (h₁.flight hf)).trans (h₁.contexts y hy)⟩

theorem of_tile (h : u.tile g = s.tile g) : Lands g s u :=
  ⟨fun y => by rw [State.th, State.ctx_congr h, State.th], by rw [h]; exact List.Subset.refl _, fun y _ => State.ctx_congr h y⟩

theorem of_writes {xs : List Nat} (h : WritesContexts g xs s u) (hxs : ∀ x ∈ xs, ∃ f ∈ (s.tile g).flight, f.ctx = x) :
    Lands g s u :=
  ⟨h.threads, h.flight ▸ List.Subset.refl _, fun y hy => h.contexts y fun hmem =>
    let ⟨f, hf, he⟩ := hxs y hmem
    hy f hf he⟩

/-- A change of the tile beside its contexts, with nothing new in flight. -/
theorem modTile (f : TileS → TileS) (hctxs : (f (s.tile g)).ctxs = (s.tile g).ctxs)
    (hflight : (f (s.tile g)).flight ⊆ (s.tile g).flight) : Lands g s (s.modTile g f) := by
  have hctx (y : Nat) : (s.modTile g f).ctx g y = s.ctx g y := s.ctx_modTile g f hctxs y
  exact ⟨fun y => by rw [State.th, hctx, State.th], by rw [State.tile_modTile_self]; exact hflight, fun y _ => hctx y⟩

end Lands

namespace State

variable (s : State) (g : Nat)

theorem landAt_lands (c : Nat) : Lands g s (s.landAt g c) := by
  unfold landAt
  extract_lets t now s₁ clashes s₂
  have hnow : ∀ f ∈ now, f ∈ (s.tile g).flight := fun f hf => List.mem_of_mem_filter hf
  have h₁ : Lands g s s₁ := .modTile (fun t => { t with flight := t.flight.filter fun f => f.due ≠ c || t.waits g f }) rfl
    (List.filter_subset_self _)
  have h₂ : Lands g s s₂ := by
    have hw : WritesContexts g (now.map (·.ctx)) s₁ s₂ := lands_writes s₁ g now fun f hf => List.mem_map_of_mem hf
    refine ⟨fun y => (hw.threads y).trans (h₁.threads y), hw.flight ▸ h₁.flight, fun y hy => ?_⟩
    refine (hw.contexts y fun hmem => ?_).trans (h₁.contexts y hy)
    obtain ⟨f, hf, he⟩ := List.mem_map.mp hmem
    exact hy f (hnow f hf) he
  split
  · exact h₂
  · exact h₂.trans (.of_tile (tile_bump _ _ _ _))

theorem landBefore_lands (c n : Nat) : Lands g s (s.landBefore g c n) := by
  induction n generalizing s with
  | zero => exact .refl s
  | succ n ih =>
    unfold landBefore
    split
    · exact .refl s
    · split
      · exact (landAt_lands s g _).trans (ih _)
      · exact .refl s

theorem landCtx_lands (x : Nat) : Lands g s (s.landCtx g x) := by
  unfold landCtx
  extract_lets c
  exact (landBefore_lands s g c 64).trans (.modTile _ rfl (List.Subset.refl _))

theorem landAll_lands (x : Nat) : Lands g s (s.landAll g x) := by
  unfold landAll
  extract_lets s₁ mine
  have h₁ : Lands g s s₁ := landCtx_lands s g x
  have hw : WritesContexts g (mine.map (·.ctx)) s₁ (mine.foldl (fun u f => u.land g f) s₁) :=
    lands_writes s₁ g mine fun f hf => List.mem_map_of_mem hf
  have h₂ : Lands g s₁ (mine.foldl (fun u f => u.land g f) s₁) := .of_writes hw fun y hy => by
    obtain ⟨f, hf, he⟩ := List.mem_map.mp hy
    exact ⟨f, List.mem_of_mem_filter hf, he⟩
  exact (h₁.trans h₂).trans (.modTile _ rfl (List.filter_subset_self _))

theorem landAll_flight (x : Nat) : ∀ f ∈ ((s.landAll g x).tile g).flight, f.ctx ≠ x := by
  intro f hf
  rw [landAll, tile_modTile_self] at hf
  simpa using (List.mem_filter.mp hf).2

/-! ## Releases (R163) -/

/-- A context has been released, and nothing of it is in flight. -/
def Released (s : State) (g x : Nat) : Prop := s.ctx g x = Context.none ∧ ∀ f ∈ (s.tile g).flight, f.ctx ≠ x

theorem releaseCtx_flight (x : Nat) : ((s.releaseCtx g x).tile g).flight = ((s.landAll g x).tile g).flight := by
  rw [releaseCtx, flight_setCtx, tile_modTile_self]
  rfl

theorem released_releaseCtx (x : Nat) : (s.releaseCtx g x).Released g x := by
  refine ⟨ctx_releaseCtx s g x, fun f hf => ?_⟩
  rw [releaseCtx_flight] at hf
  exact landAll_flight s g x f hf

variable {s g}

/-- What has been released stays so as another context is released. -/
theorem Released.releaseCtx {x : Nat} (h : s.Released g x) (g' x' : Nat) : (s.releaseCtx g' x').Released g x := by
  by_cases hg : g = g'
  · subst hg
    by_cases hx : x = x'
    · subst hx
      exact released_releaseCtx s g x
    · obtain ⟨hnone, hflight⟩ := h
      have hlands := landAll_lands s g x'
      refine ⟨?_, fun f hf => ?_⟩
      · rw [State.releaseCtx, ctx_setCtx_ne _ _ _ hx, ctx_modTile _ _ _ rfl, hlands.contexts x hflight, hnone]
      · rw [releaseCtx_flight] at hf
        exact hflight f (hlands.flight hf)
  · have ht : (s.releaseCtx g' x').tile g = s.tile g := tile_releaseCtx_ne s x' hg
    obtain ⟨hnone, hflight⟩ := h
    exact ⟨(ctx_congr ht x).trans hnone, by rw [ht]; exact hflight⟩

/-- With nothing in flight in its tile, a release writes no memory. -/
theorem releaseCtx_idle (h : (s.tile g).flight = []) (x : Nat) :
    (s.releaseCtx g x).mem = s.mem ∧ ((s.releaseCtx g x).tile g).flight = [] := by
  have hctx : s.landCtx g x = s.modTile g fun t => { t with acyc := max t.acyc t.acyc } := by
    unfold landCtx
    extract_lets c
    have hc : c = (s.tile g).acyc := by unfold c; rw [h]; rfl
    rw [landBefore_idle _ _ _ _ h]
    unfold modTile
    rw [hc]
  have hnone : ((s.landCtx g x).tile g).flight = [] := by rw [hctx, tile_modTile_self, h]
  refine ⟨?_, ?_⟩
  · rw [releaseCtx, landAll]
    rw [hnone]
    change (s.landCtx g x).mem = s.mem
    rw [hctx]
    rfl
  · rw [releaseCtx_flight]
    exact List.eq_nil_of_subset_nil (h ▸ (landAll_lands s g x).flight)

end State

end Sys2Proof.Machine

/-! PROOFS. Drawers assigned, and stopped until their job lets them go on (R163, R303). -/

namespace Sys2Proof.Machine

theorem TileS.ctx_setCtx_self (x : Nat) (c : Context) (t : TileS) : (t.setCtx x c).ctx x = c := by
  simp [TileS.ctx, TileS.setCtx, Tab.get, Tab.find?_put_self]

theorem TileS.ctx_setCtx_ne {x y : Nat} (c : Context) (t : TileS) (hne : y ≠ x) : (t.setCtx x c).ctx y = t.ctx y := by
  simp [TileS.ctx, TileS.setCtx, Tab.get, Tab.find?_put_ne _ _ _ _ hne]

namespace State

variable (s : State) (g x : Nat)

theorem th_congr {s u : State} {g : Nat} (h : u.tile g = s.tile g) (y : Nat) : u.th g y = s.th g y := by
  rw [th, ctx_congr h, th]

theorem th_modDr (f : Drawer → Drawer) (y : Nat) : (s.modDr g x f).th g y = s.th g y :=
  proj_setCtx s g x Context.th { s.ctx g x with dr := f (s.dr g x) } rfl y

theorem th_modTh_ne {y : Nat} (f : Thread → Thread) (hy : y ≠ x) : (s.modTh g x f).th g y = s.th g y := by
  rw [th, modTh, ctx_setCtx_ne _ _ _ hy, th]

/-- The thread of a stopped context (R209). -/
theorem stopCtx_threads : (∀ y, y ≠ x → (s.stopCtx g x).th g y = s.th g y) ∧
    ((s.stopCtx g x).th g x).st =
      if (s.th g x).st = .halted ∨ (s.th g x).st = .refused then (s.th g x).st else .stopped := by
  unfold stopCtx
  extract_lets s₁ s₂ back s₃ s₄ s₅
  have h₂ (y : Nat) : s₂.th g y = s.th g y := by
    have hctx : s₂.ctx g y = s₁.ctx g y := ctx_modTile _ _ _ rfl y
    rw [th, hctx]
    exact (landCtx_lands s g x).threads y
  have h₅ (y : Nat) : s₅.th g y = s₃.th g y := by
    rw [th_congr (tile_bump _ _ _ _) y]
    exact th_modDr s₃ g x _ y
  have hne : ∀ y, y ≠ x → s₅.th g y = s.th g y := fun y hy => by rw [h₅, ← h₂]; exact th_modTh_ne s₂ g x _ hy
  have hself : (s₅.th g x).st = if (s.th g x).st = .halted ∨ (s.th g x).st = .refused then (s.th g x).st else .stopped := by
    rw [h₅, ← h₂]
    unfold s₃
    rw [th_modTh_self]
    simp only [Bool.or_eq_true, decide_eq_true_eq]
  have htile (u : State) (h : Unchecks s₅ u) : (∀ y, y ≠ x → u.th g y = s.th g y) ∧
      (u.th g x).st = if (s.th g x).st = .halted ∨ (s.th g x).st = .refused then (s.th g x).st else .stopped := by
    have hth (y : Nat) : u.th g y = s₅.th g y := th_congr (tile_congr h.tiles g) y
    exact ⟨fun y hy => (hth y).trans (hne y hy), by rw [hth, hself]⟩
  clear_value s₅
  split
  · exact htile _ (feedRecover_unchecks s₅ g x)
  · exact htile _ (checkerStops_unchecks s₅ g x)

/-! ## A drawer that a job is given -/

/-- A context as its tile's drawer and thread states show it, with the job that it is given to. -/
def phase (s : State) (g x : Nat) : DrawerSt × Nat × ThreadSt := ((s.dr g x).st, (s.dr g x).jobId, (s.th g x).st)

theorem phase_congr {s u : State} {g : Nat} (h : u.tile g = s.tile g) (y : Nat) : u.phase g y = s.phase g y := by
  rw [phase, dr_congr h, th_congr h, phase]

variable {s g x}

theorem bindCtx_phase (d : LDrawer) (c : Context) (words : List (BitVec 128)) (semas : List (Nat × BitVec 32)) (s : State) :
    (s.bindCtx d c words semas).phase d.tile d.ctx = (c.dr.st, c.dr.jobId, c.th.st) ∧
      (∀ y, y ≠ d.ctx → (s.bindCtx d c words semas).phase d.tile y = s.phase d.tile y) ∧
      ∀ h, h ≠ d.tile → (s.bindCtx d c words semas).tile h = s.tile h := by
  have hself : (s.bindCtx d c words semas).ctx d.tile d.ctx = { c with
      th := { c.th with winBase := (gapIn (s.tile d.tile).windows d.words).getD 0, winLen := d.words }
      dr := { c.dr with r0 := d.row, c0 := d.col } } := by
    rw [ctx, bindCtx, tile_modTile_self]
    exact TileS.ctx_setCtx_self _ _ _
  have hne (y : Nat) (hy : y ≠ d.ctx) : (s.bindCtx d c words semas).ctx d.tile y = s.ctx d.tile y := by
    rw [ctx, bindCtx, tile_modTile_self]
    refine (TileS.ctx_setCtx_ne _ _ hy).trans ?_
    exact ctx_congr (tile_congr (unpark_tiles _ _) _) y
  refine ⟨by rw [phase, dr, th, hself], fun y hy => by rw [phase, dr, th, hne y hy, phase, dr, th], fun h hh => ?_⟩
  exact (tile_modTile_ne _ _ hh).trans (tile_congr (unpark_tiles _ _) h)

theorem stopCtx_phase (hb : (s.dr g x).bound = true) (hth : (s.th g x).st = .idle) :
    (s.stopCtx g x).phase g x = (.stopped, (s.dr g x).jobId, .stopped) ∧
      (∀ y, y ≠ x → (s.stopCtx g x).phase g y = s.phase g y) ∧ ∀ h, h ≠ g → (s.stopCtx g x).tile h = s.tile h := by
  obtain ⟨hthreads, hself⟩ := stopCtx_threads s g x
  have hstops := stopCtx_stops hb
  refine ⟨?_, fun y hy => ?_, hstops.others⟩
  · rw [phase, hself, dr_stopCtx, hth]
    rfl
  · rw [phase, hthreads y hy, hstops.unlisted y (by simpa using hy)]
    rfl

theorem assignStopped_phase (id : Nat) (d : LDrawer) (words : List (BitVec 128)) (s : State) :
    (s.assignStopped id d words).phase d.tile d.ctx = (.stopped, id, .stopped) ∧
      (∀ y, y ≠ d.ctx → (s.assignStopped id d words).phase d.tile y = s.phase d.tile y) ∧
      ∀ h, h ≠ d.tile → (s.assignStopped id d words).tile h = s.tile h := by
  obtain ⟨hself, hne, hothers⟩ := bindCtx_phase d (d.newContext id) words [] s
  unfold assignStopped
  generalize s.bindCtx d (d.newContext id) words [] = a at *
  simp only [phase, Prod.mk.injEq] at hself
  obtain ⟨hst, hid, hth⟩ := hself
  have hask : a.askStop d.tile d.ctx false = (a.modDr d.tile d.ctx fun e => { e with preempt := true }).stopCtx d.tile d.ctx := by
    unfold askStop
    simp only [hst]
    rfl
  rw [hask]
  have hmark (y : Nat) : (a.modDr d.tile d.ctx fun e => { e with preempt := true }).phase d.tile y = a.phase d.tile y := by
    by_cases hy : y = d.ctx
    · rw [hy, phase, th_modDr, dr_modDr_self, phase]
    · rw [phase, th_modDr, dr_modDr_ne _ _ _ hy, phase]
  have hb : ((a.modDr d.tile d.ctx fun e => { e with preempt := true }).dr d.tile d.ctx).bound = true := by
    rw [dr_modDr_self, Drawer.bound, hst]
    rfl
  have hidle : ((a.modDr d.tile d.ctx fun e => { e with preempt := true }).th d.tile d.ctx).st = .idle := by
    rw [th_modDr, hth]
    rfl
  obtain ⟨hself', hne', hothers'⟩ := stopCtx_phase hb hidle
  refine ⟨?_, fun y hy => (hne' y hy).trans ((hmark y).trans (hne y hy)),
    fun h hh => (hothers' h hh).trans ((tile_modDr_ne _ _ _ hh).trans (hothers h hh))⟩
  rw [hself', dr_modDr_self, hid]
  rfl

/-- Drawers assigned one after the other, in contexts of their own, all stand stopped; no other tile changes. -/
theorem assignAll_phase (id : Nat) (words : LDrawer → State → List (BitVec 128)) (l : List LDrawer) (s : State)
    (hl : l.Pairwise fun d e => ¬(d.tile = e.tile ∧ d.ctx = e.ctx)) :
    let u := l.foldl (fun u d => u.assignStopped id d (words d u)) s
    (∀ d ∈ l, u.phase d.tile d.ctx = (.stopped, id, .stopped)) ∧
      (∀ g x, (∀ d ∈ l, ¬(d.tile = g ∧ d.ctx = x)) → u.phase g x = s.phase g x) ∧
      ∀ h, (∀ d ∈ l, d.tile ≠ h) → u.tile h = s.tile h := by
  induction l generalizing s with
  | nil => exact ⟨List.forall_mem_nil _, fun _ _ _ => rfl, fun _ _ => rfl⟩
  | cons d l ih =>
    obtain ⟨hd, hl⟩ := List.pairwise_cons.mp hl
    obtain ⟨hself, hbeside, hothers⟩ := assignStopped_phase id d (words d s) s
    obtain ⟨hall, hrest, htiles⟩ := ih (s.assignStopped id d (words d s)) hl
    refine ⟨List.forall_mem_cons.mpr ⟨?_, hall⟩, fun g x hgx => ?_, fun h hh => ?_⟩
    · exact (hrest d.tile d.ctx fun e he hde => hd e he ⟨hde.1.symm, hde.2.symm⟩).trans hself
    · obtain ⟨hdx, hlx⟩ := List.forall_mem_cons.mp hgx
      refine (hrest g x hlx).trans ?_
      by_cases hg : g = d.tile
      · subst hg
        exact hbeside x fun hx => hdx ⟨rfl, hx.symm⟩
      · exact phase_congr (hothers g hg) x
    · obtain ⟨hdh, hlh⟩ := List.forall_mem_cons.mp hh
      exact (htiles h hlh).trans (hothers h hdh.symm)

theorem fitsAll_pairwise (id : Nat) (s : State) (taken l : List LDrawer) (h : s.fitsAll id taken l = true) :
    (∀ d ∈ taken, ∀ e ∈ l, ¬(d.tile = e.tile ∧ d.ctx = e.ctx)) ∧ l.Pairwise fun d e => ¬(d.tile = e.tile ∧ d.ctx = e.ctx) := by
  induction l generalizing taken with
  | nil => exact ⟨fun _ _ _ he => absurd he List.not_mem_nil, .nil⟩
  | cons e l ih =>
    rw [fitsAll, Bool.and_eq_true] at h
    obtain ⟨hfits, hrest⟩ := h
    obtain ⟨htaken, hl⟩ := ih _ hrest
    have he : ∀ d ∈ taken, ¬(d.tile = e.tile ∧ d.ctx = e.ctx) := by
      rintro d hd ⟨htile, hctx⟩
      simp only [fits, Bool.and_eq_true, List.all_eq_true] at hfits
      obtain ⟨⟨⟨⟨-, hall⟩, -⟩, -⟩, -⟩ := hfits
      have hmeets := (hall d (List.mem_append_right _ (List.mem_filter.mpr ⟨hd, by simpa using htile⟩))).1
      simp [LDrawer.meets, htile, hctx] at hmeets
    refine ⟨fun d hd => List.forall_mem_cons.mpr ⟨he d hd, htaken d (List.mem_append_left _ hd)⟩, List.pairwise_cons.mpr ⟨?_, hl⟩⟩
    exact htaken e (List.mem_append_right _ List.mem_cons_self)

end State

end Sys2Proof.Machine

/-! PROOFS. A job that is placed afresh (R303). -/

namespace Sys2Proof.Machine

namespace State

variable (s : State)

theorem putLeaf_tiles (c asn page : Nat) (large : Bool) (leaf : Nat) : (s.putLeaf c asn page large leaf).tiles = s.tiles := by
  have hpoke (a : Nat) (l : List Byte) (u : State) : (u.poke a l).tiles = u.tiles := rfl
  unfold putLeaf
  extract_lets t₁ t₂ t₀ s₁ s₂
  split <;> simp only [s₂, s₁, hpoke]

theorem joinFault_tiles (asn page : Nat) (pin : Bool) : (s.joinFault asn page pin).tiles = s.tiles := by
  unfold joinFault
  extract_lets blocked joined m s₁
  have h₁ : s₁.tiles = s.tiles := rfl
  split
  · rw [setFlag_tiles, h₁]
  · exact h₁

theorem raiseFault_tiles (c asn page : Nat) (pin : Bool) : (s.raiseFault c asn page pin).tiles = s.tiles := by
  unfold raiseFault
  split
  · exact joinFault_tiles _ _ _ _
  · rfl

theorem mapSegment_tiles (j : JobS) (g : LSegment) : (s.mapSegment j g).tiles = s.tiles := by
  refine foldl_keeps tiles (fun u i => ?_) _ s
  extract_lets va b remote s₁ m s₂
  have h₂ : s₂.tiles = u.tiles := foldl_keeps tiles (fun w c => putLeaf_tiles w c _ _ _ _) _ u
  clear_value s₂
  split
  · split
    · exact (raiseFault_tiles _ _ _ _ _).trans h₂
    · exact h₂
  · exact h₂

theorem bindJob_table (id : Nat) (j : JobS) : (s.bindJob id j).table = s.table :=
  foldl_keeps table (fun u d => assignStopped_table u id d _) _ s

end State

/-- A queued job's record as it is given what it needs (R303). -/
def JobS.given (j : JobS) (asn : Nat) (ds : List LDrawer) (gr : List (Nat × Nat × Nat)) (h : List (Nat × Byte))
    (streams : List Nat) (now : Nat) : JobS :=
  { j with
    asn := asn, mapped := true, placed := ds, placedAt := now, streams := streams, granules := gr,
    hostImg := j.hostImg ++ h, writing := if j.desc.resume then none else some 0, ckptAt := now }

/-- A job without RESUME that is placed afresh: its record, its drawers, and what stays. -/
theorem State.placeJob_fresh {s : State} {id asn : Nat} {j : JobS} {ds : List LDrawer} {gr : List (Nat × Nat × Nat)}
    {h : List (Nat × Byte)} (hst : j.st = .queued) (hresume : j.desc.resume = false) (hsize : j.layout.groupSize ≤ 1)
    (hstep : j.ckptStep = 0) (hfits : s.fitsAll id [] ds = true) :
    let u := s.placeJob id asn j ds gr h
    u.job id = some ((j.given asn ds gr h (j.layout.streamsWith s.lost) s.now).entering .placing s.now) ∧
      (∀ d ∈ ds, u.phase d.tile d.ctx = (.stopped, id, .stopped)) ∧
      (∀ g, (∀ d ∈ ds, d.tile ≠ g) → u.tile g = s.tile g) ∧ ∀ i, i ≠ id → u.job i = s.job i := by
  have heq : s.placeJob id asn j ds gr h =
      (let j₁ := j.given asn ds gr h (j.layout.streamsWith s.lost) s.now
       let s₁ := (s.putJob id j₁).setJobSt id .placing
       let j₂ : JobS := { j₁ with st := .placing }
       ((j.layout.segs.foldl (fun s g => s.mapSegment j₂ g) s₁).bindJob id j₂).groupProgress id) := by
    unfold placeJob
    exact if_pos (by simp [hresume])
  rw [heq]
  extract_lets j₁ s₁ j₂ u
  have hput : PutsJob jobCountKeys id j₁ s (s.putJob id j₁) := .of_putJob s id j₁
  have h₁ : PutsJob jobCountKeys id (j₁.entering .placing s.now) s s₁ := by
    have hne : j₁.st ≠ .placing := by
      rw [show j₁.st = .queued from hst]
      decide
    exact hput.trans (setJobSt_puts hput.self hne)
  have htable : ((j.layout.segs.foldl (fun s g => s.mapSegment j₂ g) s₁).bindJob id j₂).table = s₁.table :=
    (bindJob_table _ id j₂).trans (foldl_keeps table (fun u g => mapSegment_table u j₂ g) _ s₁)
  have htiles : (j.layout.segs.foldl (fun s g => s.mapSegment j₂ g) s₁).tiles = s.tiles :=
    (foldl_keeps tiles (fun u g => mapSegment_tiles u j₂ g) _ s₁).trans h₁.frame.tiles
  have hquiet : ∀ k, ((j.layout.segs.foldl (fun s g => s.mapSegment j₂ g) s₁).bindJob id j₂).job id = some k → k.quiet := by
    intro k hk
    obtain rfl := Option.some.inj (h₁.self.symm.trans ((job_of_table htable id).symm.trans hk))
    exact ⟨.inl hsize, by rw [show (j₁.entering .placing s.now).ckptStep = 0 from hstep]; decide⟩
  have hu : u = (j.layout.segs.foldl (fun s g => s.mapSegment j₂ g) s₁).bindJob id j₂ := groupProgress_of_quiet hquiet
  rw [hu]
  obtain ⟨hdrawers, -, hothers⟩ := assignAll_phase id (fun d u => u.imageWords j₂ d) ds
    (j.layout.segs.foldl (fun s g => s.mapSegment j₂ g) s₁) (fitsAll_pairwise id s [] ds hfits).2
  exact ⟨(job_of_table htable id).trans h₁.self, hdrawers, fun g hg => (hothers g hg).trans (tile_congr htiles g),
    fun i hi => (job_of_table htable i).trans (h₁.others i hi)⟩

/-- Whether entries fit does not depend on the clock. -/
theorem State.fitsAll_upto (s : State) (t id : Nat) (taken l : List LDrawer) :
    (s.upto t).fitsAll id taken l = s.fitsAll id taken l := by
  induction l generalizing taken with
  | nil => rfl
  | cons d l ih =>
    have hfits : (s.upto t).fits id taken d = s.fits id taken d := rfl
    rw [fitsAll, fitsAll, ih, hfits]

/-- JOB_PLACEMENT (R303 to R305). -/
theorem jobPlacement_holds {s : State} {t : Nat} {id : BitVec 32} {asn : Byte} {h : List (Nat × Byte)} {j : JobS}
    (hp : Placeable s id.toNat asn.toNat j) :
    (∀ c, s.lostIn (s.placementOf j) = some c ∨ (s.lostIn (s.placementOf j) = none ∧
        s.placesFor id.toNat (fun d => s.rowsOk d && s.tileUp d.tile) (s.placementOf j) = .error c) →
      Answers (exec (.jobPlacement t id asn h) s) fun u =>
        (u.job id.toNat).map (fun k => (k.st, k.status)) = some (.ending, some (0x0304, c)) ∧
        (j.layout.groupSize ≤ 1 → s.feedsOfJob j = [] → u.mem = s.mem ∧ u.tiles = s.tiles)) ∧
    (∀ ds gr, HasPlace s id.toNat j ds gr →
      exec (.jobPlacement t id asn h) s = .next ((s.upto t).placeJob id.toNat asn.toNat j ds gr h)) := by
  have hexec : exec (.jobPlacement t id asn h) s = (s.upto t).choosePlace id.toNat asn.toNat j h := execJobPlacement_eq hp
  refine ⟨fun c hc => ?_, fun ds gr hplace => ?_⟩
  · rw [hexec, choosePlace_ends (s := s.upto t) hc]
    have hends := State.endJob_ends (s := s.upto t) (status := Status.noPlacement) (detail := c) hp.job
      (by rw [hp.queued]; decide)
    exact ⟨_, rfl, by rw [hends.self]; rfl, hends.quiet⟩
  · rw [hexec]
    obtain ⟨hkept, hplaces, hfits, hgranules, hstreams, hrt, hmemory⟩ := hplace
    exact choosePlace_places (s := s.upto t) ⟨hkept, hplaces, (s.fitsAll_upto t _ _ _).trans hfits, hgranules, hstreams, hrt, hmemory⟩

end Sys2Proof.Machine

/-! PROOFS. A pre-empted job is saved, and its drawers are free (R306). -/

namespace Sys2Proof.Machine

namespace State

theorem jobPreemptions_not_mem_landKeys (g : Nat) : Obj.jobPreemptions ∉ landKeys g := by
  simp only [landKeys, tileKey, List.mem_cons, List.not_mem_nil, or_false, not_or]
  refine ⟨by decide, by decide, by decide, ?_⟩
  change ¬0x500205 = 0x302601 + 0x10000 * (g / 150) + g % 150
  omega

theorem jobPreemptions_not_mem_combineKeys (c : Nat) : Obj.jobPreemptions ∉ combineKeys c := by
  simp only [combineKeys, List.mem_cons, List.not_mem_nil, or_false, not_or]
  have h : 0x500205 ≠ 0x30f002 + 0x10000 * c ∧ 0x500205 ≠ 0x30f004 + 0x10000 * c ∧ 0x500205 ≠ 0x30f001 + 0x10000 * c := by
    omega
  exact ⟨h.1, h.2.1, h.2.2, by decide, by decide, by decide⟩

theorem releaseCtx_objects (g x : Nat) (s : State) : KeepsObjects (landKeys g) s (s.releaseCtx g x) := by
  have hput : (s.releaseCtx g x).obj = (s.landAll g x).obj := by
    unfold releaseCtx
    rfl
  exact (landAll_keepsDrawers g s x).objects.trans (.of_obj hput)

/-- A job's drawers are released one after the other. -/
def releaseAll (l : List LDrawer) (s : State) : State := l.foldl (fun u d => u.releaseCtx d.tile d.ctx) s

theorem Released.releaseAll {s : State} {g x : Nat} (h : s.Released g x) (l : List LDrawer) :
    (s.releaseAll l).Released g x := by
  induction l generalizing s with
  | nil => exact h
  | cons d l ih => exact ih (h.releaseCtx d.tile d.ctx)

theorem released_releaseAll (l : List LDrawer) (s : State) : ∀ d ∈ l, (s.releaseAll l).Released d.tile d.ctx := by
  induction l generalizing s with
  | nil => exact List.forall_mem_nil _
  | cons d l ih =>
    exact List.forall_mem_cons.mpr ⟨(released_releaseCtx s d.tile d.ctx).releaseAll l, ih (s.releaseCtx d.tile d.ctx)⟩

theorem releaseAll_table (l : List LDrawer) (s : State) : (s.releaseAll l).table = s.table := by
  unfold releaseAll
  exact foldl_keeps table (fun u (d : LDrawer) => releaseCtx_table u d.tile d.ctx) l s

theorem releaseAll_preemptions (l : List LDrawer) (s : State) :
    (s.releaseAll l).num Obj.jobPreemptions = s.num Obj.jobPreemptions := by
  have hstep (u : State) (d : LDrawer) : (u.releaseCtx d.tile d.ctx).num Obj.jobPreemptions = u.num Obj.jobPreemptions :=
    (releaseCtx_objects d.tile d.ctx u).num_of_le (jobPreemptions_not_mem_landKeys _) (by decide)
  unfold releaseAll
  exact foldl_keeps (·.num Obj.jobPreemptions) hstep l s

theorem releaseAll_mem (l : List LDrawer) (s : State) (h : ∀ d ∈ l, (s.tile d.tile).flight = []) :
    (s.releaseAll l).mem = s.mem := by
  induction l generalizing s with
  | nil => rfl
  | cons d l ih =>
    obtain ⟨hd, hl⟩ := List.forall_mem_cons.mp h
    obtain ⟨hmem, hflight⟩ := releaseCtx_idle hd d.ctx
    refine (ih (s.releaseCtx d.tile d.ctx) fun e he => ?_).trans hmem
    by_cases hde : e.tile = d.tile
    · rw [hde, hflight]
    · rw [tile_releaseCtx_ne s d.ctx hde, hl e he]

/-! ## Streams and slots of a saved job -/

/-- Nothing of the table, of a context, of memory or of the count of pre-emptions changes. -/
structure KeepsPlaces (s u : State) : Prop where
  table : u.table = s.table
  contexts : ∀ g x, u.ctx g x = s.ctx g x
  mem : u.mem = s.mem
  preemptions : u.num Obj.jobPreemptions = s.num Obj.jobPreemptions

namespace KeepsPlaces

variable {s t u : State}

theorem refl (s : State) : KeepsPlaces s s := ⟨rfl, fun _ _ => rfl, rfl, rfl⟩

theorem trans (h₁ : KeepsPlaces s t) (h₂ : KeepsPlaces t u) : KeepsPlaces s u :=
  ⟨h₂.table.trans h₁.table, fun g x => (h₂.contexts g x).trans (h₁.contexts g x), h₂.mem.trans h₁.mem,
    h₂.preemptions.trans h₁.preemptions⟩

theorem foldl {α : Type} {f : State → α → State} (hf : ∀ s a, KeepsPlaces s (f s a)) (l : List α) (s : State) :
    KeepsPlaces s (l.foldl f s) := by
  induction l generalizing s with
  | nil => exact refl s
  | cons a l ih => exact (hf s a).trans (ih _)

end KeepsPlaces

/-- The streams leave the table. -/
theorem keepsPlaces_streams (s : State) (l : Tab StreamS) : KeepsPlaces s { s with streams := l } :=
  ⟨rfl, fun _ _ => rfl, rfl, rfl⟩

theorem discardIn_keepsPlaces (m : StreamS) (s : State) : KeepsPlaces s (s.discardIn m) := by
  unfold discardIn
  split
  next t ht =>
    split
    · refine ⟨rfl, fun g x => ?_, rfl, rfl⟩
      have htile : s.tile m.tile = t := by rw [tile, Tab.get, ht]; rfl
      by_cases hg : g = m.tile
      · subst hg
        refine (ctx_modTile s m.tile (fun _ => { t with portIn := [] }) ?_ x :)
        rw [htile]
      · exact ctx_congr (tile_setTile_ne _ s hg) x
    · exact .refl s
  · exact .refl s

theorem setColl_keepsPlaces (c : Nat) (q : Collector) (s : State) : KeepsPlaces s (s.setColl c q) :=
  ⟨setColl_table s c q, fun g x => ctx_congr (tile_congr (setColl_tiles s c q) g) x, setColl_mem s c q,
    (setColl_objects s c q).num_of_le (jobPreemptions_not_mem_combineKeys c) (by decide)⟩

theorem dropSlots_keepsPlaces (id : Nat) (s : State) : KeepsPlaces s (s.dropSlots id) :=
  .foldl (fun u _ => setColl_keepsPlaces _ _ u) _ s

/-- A saved job's drawers, streams and slots leave the machine. -/
def withdraw (id : Nat) (j : JobS) (v : Saved) (s : State) : State :=
  let s := s.releaseAll j.placed
  let s := v.streams.foldl (fun s (_, m) => s.discardIn m) s
  let s := { s with streams := s.streams.filter fun e => !(v.streams.any (·.1 = e.1)) }
  s.dropSlots id

theorem withdraw_keepsPlaces (id : Nat) (j : JobS) (v : Saved) (s : State) :
    KeepsPlaces (s.releaseAll j.placed) (s.withdraw id j v) := by
  unfold withdraw
  extract_lets s₁ s₂ s₃
  have h₂ : KeepsPlaces s₁ s₂ := .foldl (fun u (e : Nat × StreamS) => discardIn_keepsPlaces e.2 u) _ s₁
  exact (h₂.trans (keepsPlaces_streams s₂ _)).trans (dropSlots_keepsPlaces id s₃)

end State

section

variable {s : State} {t : Nat} {id : BitVec 32} {j : JobS}

theorem jobPreemptSaveDone_waits (hj : s.job id.toNat = some j) (hrun : s.jobStopped id.toNat j = false) :
    exec (.jobPreemptSaveDone t id) s = .next (s.upto t) := by
  have hj' : (s.upto t).job id.toNat = some j := hj
  have hrun' : (s.upto t).jobStopped id.toNat j = false := hrun
  show execJobPreemptSaveDone t id s = _
  unfold execJobPreemptSaveDone
  extract_lets a i
  rw [show a.job i = some j from hj']
  exact if_pos (by rw [show a.jobStopped i j = false from hrun']; simp)

theorem exec_jobPreemptSaveDone (hj : s.job id.toNat = some j) (hst : j.st = .preempting) (hstop : s.jobStopped id.toNat j = true) :
    exec (.jobPreemptSaveDone t id) s =
      (let a := s.upto t
       let v := a.saveJob id.toNat j
       .next ((((a.withdraw id.toNat j v).putJob id.toNat { j with saved := some v, saveLost := false }).setJobSt id.toNat
         .queued).bump Obj.jobPreemptions 1)) := by
  have hj' : (s.upto t).job id.toNat = some j := hj
  have hstop' : (s.upto t).jobStopped id.toNat j = true := hstop
  show execJobPreemptSaveDone t id s = _
  unfold execJobPreemptSaveDone
  extract_lets a i
  rw [show a.job i = some j from hj']
  exact if_neg (by rw [show a.jobStopped i j = true from hstop', hst]; simp)

/-- JOB_PREEMPT_SAVE_DONE (R306). -/
theorem jobPreemptSaveDone_answers (hj : s.job id.toNat = some j) (hst : j.st = .preempting)
    (hstop : s.jobStopped id.toNat j = true) : Answers (exec (.jobPreemptSaveDone t id) s) fun u =>
      (u.job id.toNat).map (fun k => (k.st, k.saved)) = some (.queued, some ((s.upto t).saveJob id.toNat j)) ∧
      Counted Obj.jobPreemptions 1 s u ∧ (∀ d ∈ j.placed, u.ctx d.tile d.ctx = Context.none) ∧
      ((∀ d ∈ j.placed, (s.tile d.tile).flight = []) → u.mem = s.mem) ∧ (∀ i, i ≠ id.toNat → u.job i = s.job i) := by
  refine ⟨_, exec_jobPreemptSaveDone hj hst hstop, ?_⟩
  generalize (s.upto t).saveJob id.toNat j = v
  have hplaces := State.withdraw_keepsPlaces id.toNat j v (s.upto t)
  have htable : ((s.upto t).withdraw id.toNat j v).table = (s.upto t).table := hplaces.table.trans (State.releaseAll_table _ _)
  generalize (s.upto t).withdraw id.toNat j v = w at hplaces htable ⊢
  have hput := PutsJob.of_putJob w id.toNat { j with saved := some v, saveLost := false }
  have hset : PutsJob jobCountKeys id.toNat _ w ((w.putJob id.toNat { j with saved := some v, saveLost := false }).setJobSt
      id.toNat .queued) := hput.trans (State.setJobSt_puts hput.self (by rw [hst]; decide))
  have hjob (k i : Nat) (b : State) : (b.bump k 1).job i = b.job i := rfl
  refine ⟨?_, ?_, fun d hd => ?_, fun hidle => ?_, fun i hi => ?_⟩
  · rw [hjob, hset.self]
    rfl
  · rw [Counted, State.num_bump_self, hset.frame.num (by decide) (by decide), hplaces.preemptions,
      State.releaseAll_preemptions]
    rfl
  · have htiles (b : State) (h : b.tiles = w.tiles) : b.ctx d.tile d.ctx = w.ctx d.tile d.ctx :=
      State.ctx_congr (State.tile_congr h _) _
    refine (htiles _ hset.frame.tiles).trans ?_
    rw [hplaces.contexts]
    exact (State.released_releaseAll j.placed (s.upto t) d hd).1
  · exact hset.frame.mem.trans (hplaces.mem.trans (State.releaseAll_mem j.placed (s.upto t) hidle))
  · exact (hset.others i hi).trans (State.job_of_table htable i)

end

end Sys2Proof.Machine

/-! PROOFS. A pre-empted job is placed again (R305, R306): what leaves the jobs and their totals. -/

namespace Sys2Proof.Machine

/-- The table of jobs, and their totals. -/
def State.ledger (s : State) : JobsState × Tab JobTotals := (s.jobs, s.jobTotals)

theorem ChangesOnly.ledger {l : List Nat} {s u : State} (h : ChangesOnly l s u) : u.ledger = s.ledger := by
  rw [h.1]
  rfl

theorem Unchecks.ledger {s u : State} (h : Unchecks s u) : u.ledger = s.ledger := by
  rw [h.frame]
  rfl

namespace State

theorem jobs_of_ledger {s u : State} (h : u.ledger = s.ledger) : u.jobs = s.jobs := congrArg Prod.fst h
theorem totals_of_ledger {s u : State} (h : u.ledger = s.ledger) : u.jobTotals = s.jobTotals := congrArg Prod.snd h

variable (s : State)

@[simp] theorem modTile_ledger (g : Nat) (f : TileS → TileS) : (s.modTile g f).ledger = s.ledger := rfl
@[simp] theorem modDr_ledger (g x : Nat) (f : Drawer → Drawer) : (s.modDr g x f).ledger = s.ledger := rfl
@[simp] theorem modTh_ledger (g x : Nat) (f : Thread → Thread) : (s.modTh g x f).ledger = s.ledger := rfl
@[simp] theorem putStream_ledger (k : Nat) (m : StreamS) : (s.putStream k m).ledger = s.ledger := rfl
@[simp] theorem poke_ledger (a : Nat) (l : List Byte) : (s.poke a l).ledger = s.ledger := rfl
@[simp] theorem modFeed_ledger (q : Nat) (f : FeedS → FeedS) : (s.modFeed q f).ledger = s.ledger := rfl

/-! ## Drawers and streams go on -/

theorem goOn_ledger (g x : Nat) : (s.goOn g x).ledger = s.ledger := by
  rw [goOn, loadSet, modDr_ledger, modDr_ledger]

theorem grantBank_ledger (g x : Nat) : (s.grantBank g x).ledger = s.ledger := by
  unfold grantBank
  split
  · rw [startLoad, modTh_ledger, modTile_ledger]
  · exact modTh_ledger _ _ _ _

theorem resumeCtx_ledger (g x : Nat) : (s.resumeCtx g x).ledger = s.ledger := by
  unfold resumeCtx
  split
  · rfl
  split
  · exact modDr_ledger _ _ _ _
  · extract_lets s₁
    have h₁ : s₁.ledger = s.ledger := (goOn_ledger _ g x).trans (modDr_ledger s g x _)
    clear_value s₁
    split
    · exact (grantBank_ledger s₁ g x).trans h₁
    · exact h₁

theorem streamEvent_ledger (k code : Nat) : (s.streamEvent k code).ledger = s.ledger := by
  unfold streamEvent
  split
  · exact (raiseVal_changes _ _ _ _).ledger
  · rfl

theorem setStreamSt_ledger (k : Nat) (st : StreamSt) : (s.setStreamSt k st).ledger = s.ledger := by
  unfold setStreamSt
  split
  · rfl
  · split
    · rfl
    · exact (streamEvent_ledger _ _ _).trans (putStream_ledger _ _ _)

theorem checkDone_ledger (k : Nat) : (s.checkDone k).ledger = s.ledger := by
  unfold checkDone
  split
  · rfl
  · split
    · exact setStreamSt_ledger _ _ _
    · rfl

theorem putWrite_ledger (k : Nat) (m : StreamS) : (s.putWrite k m).ledger = s.ledger :=
  (checkDone_ledger _ k).trans (putStream_ledger _ _ _)

theorem drainIn_ledger (g n : Nat) : (s.drainIn g n).ledger = s.ledger := by
  induction n generalizing s with
  | zero => rfl
  | succ n ih =>
    unfold drainIn
    split
    · rfl
    · split
      · rfl
      split
      · rw [ih, checkDone_ledger, putStream_ledger, poke_ledger]
      split
      · rfl
      · rw [ih, putStream_ledger, modTile_ledger]

theorem fillOut_ledger (g n : Nat) : (s.fillOut g n).ledger = s.ledger := by
  induction n generalizing s with
  | zero => rfl
  | succ n ih =>
    unfold fillOut
    split
    · split
      · extract_lets left s₁ rest s₂
        have h₁ : s₁.ledger = s.ledger := modTile_ledger _ _ _
        have h₂ : s₂.ledger = s₁.ledger := by
          unfold s₂
          split
          · exact putWrite_ledger _ _ _
          · exact putStream_ledger _ _ _
        rw [ih, h₂, h₁]
      · rfl
    · rfl

theorem movePort_ledger (g : Nat) : (s.movePort g).ledger = s.ledger := (fillOut_ledger _ g 64).trans (drainIn_ledger s g 64)

theorem startStream_ledger (k : Nat) : (s.startStream k).ledger = s.ledger := by
  unfold startStream
  extract_lets s₁
  have h₁ : s₁.ledger = s.ledger := setStreamSt_ledger s k .running
  clear_value s₁
  split
  · exact h₁
  · extract_lets m s₂
    have h₂ : s₂.ledger = s₁.ledger := by
      unfold s₂
      split
      · exact putStream_ledger _ _ _
      · exact putWrite_ledger _ _ _
    exact (movePort_ledger s₂ _).trans (h₂.trans h₁)

theorem joinFault_ledger (asn page : Nat) (pin : Bool) : (s.joinFault asn page pin).ledger = s.ledger := by
  unfold joinFault
  extract_lets blocked joined m s₁
  have h₁ : s₁.ledger = s.ledger := rfl
  split
  · exact (setFlag_changes _ _ _).ledger.trans h₁
  · exact h₁

theorem raiseFault_ledger (c asn page : Nat) (pin : Bool) : (s.raiseFault c asn page pin).ledger = s.ledger := by
  unfold raiseFault
  split
  · exact joinFault_ledger _ _ _ _
  · rfl

theorem resumeStream_ledger (k : Nat) (m : StreamS) (j : JobS) : (s.resumeStream k m j).ledger = s.ledger := by
  unfold resumeStream
  split
  · rfl
  split
  · exact setStreamSt_ledger _ _ _
  split
  · extract_lets s₁
    have h₁ : s₁.ledger = s.ledger := setStreamSt_ledger s k .halted
    split
    · exact h₁
    · exact (raiseFault_ledger s₁ _ _ _ _).trans h₁
  · refine (startStream_ledger _ k).trans ?_
    split <;> rfl

theorem resumeJob_ledger (id : Nat) (j : JobS) : (s.resumeJob id j).ledger = s.ledger := by
  unfold resumeJob
  have hctx : (j.placed.foldl (fun s d => s.resumeCtx d.tile d.ctx) s).ledger = s.ledger :=
    foldl_keeps ledger (fun u (d : LDrawer) => resumeCtx_ledger u d.tile d.ctx) j.placed s
  generalize j.placed.foldl (fun s d => s.resumeCtx d.tile d.ctx) s = a at hctx ⊢
  unfold resumeStreams
  split
  · exact hctx
  next k _ => exact (foldl_keeps ledger (fun u (e : Nat × StreamS) => resumeStream_ledger u e.1 e.2 k) _ a).trans hctx

theorem feedTry_ledger (q : Nat) (atRun : Bool) : (s.feedTry q atRun).ledger = s.ledger := by
  unfold feedTry
  extract_lets f
  split
  · rfl
  split
  · rfl
  · refine (setFeedSt_unchecks _ q 2).ledger.trans ((modFeed_ledger _ _ _).trans ((streamEvent_ledger _ _ _).trans ?_))
    exact putStream_ledger _ _ _

theorem feedsTry_ledger (atRun : Bool) : (s.feedsTry atRun).ledger = s.ledger :=
  foldl_keeps ledger (fun u q => feedTry_ledger u q atRun) _ s

/-! ## What was saved stands again -/

theorem restoreDrawer_table (q : SavedDrawer) (d : LDrawer) (words : List (BitVec 128)) :
    (s.restoreDrawer q d words).table = s.table := by
  have hcells (a n : Nat) (l : List (Nat × Byte)) (u : State) : (u.setCells a n l).table = u.table := rfl
  unfold restoreDrawer
  extract_lets s₁ h c c' s₂
  have h₁ : s₁.table = s.table := by
    unfold s₁
    split
    · rfl
    · exact assignStopped_table _ _ _ _
  rw [hcells]
  exact (modTile_table s₁ _ _).trans h₁

theorem restoreStream_table (id : Nat) (j : JobS) (v : Saved) (anew : Bool) (k : Nat) (m : StreamS) :
    (s.restoreStream id j v anew k m).table = s.table := by
  unfold restoreStream
  dsimp -zeta only
  extract_lets k' recv m₁ m₂ s₁
  have h₁ : s₁.table = s.table := rfl
  split
  · exact (streamEvent_table s₁ _ _).trans h₁
  · exact h₁

theorem putSlots_table (l : List (Nat × Nat × Slot × List Entry)) : (s.putSlots l).table = s.table :=
  foldl_keeps table (fun u _ => setColl_table u _ _) _ s

theorem loadSaved_table (id : Nat) (j : JobS) (v : Saved) (anew : Bool) : (s.loadSaved id j v anew).table = s.table := by
  unfold loadSaved
  extract_lets s₁ s₂ s₃
  have h₁ : s₁.table = s.table := by
    refine foldl_keeps table (fun u d => ?_) j.placed s
    split
    · rfl
    · exact (modDr_table _ _ _ _).trans (restoreDrawer_table u _ _ _)
  have h₂ : s₂.table = s₁.table :=
    foldl_keeps table (fun u (e : Nat × StreamS) => restoreStream_table u id j v anew e.1 e.2) v.streams s₁
  exact (putSlots_table s₂ v.slots).trans (h₂.trans h₁)

theorem loadSaved_totals (id : Nat) (j : JobS) (v : Saved) (anew : Bool) :
    (s.loadSaved id j v anew).jobTotals.get ⟨0, Counts.zero⟩ id = v.totals := by
  unfold loadSaved
  extract_lets s₁ s₂ s₃
  rw [Tab.get, Tab.find?_put_self]
  rfl

end State

end Sys2Proof.Machine

/-! PROOFS. A pre-empted job is placed again (R305, R306). -/

namespace Sys2Proof.Machine

/-- A pre-empted job waits for nothing before its positions (R303). -/
structure Restorable (s : State) (id : Nat) (j : JobS) (v : Saved) : Prop where
  job : s.job id = some j
  saved : j.saved = some v
  queued : j.st = .queued
  room : s.num Obj.placedJobs < 256
  first : s.heldBack id j = false
  ready : s.resetIn (s.wanted j) = false

/-- What JOB_RESTORE does with a job that waits for nothing else. -/
def State.chooseAgain (id : Nat) (j : JobS) (v : Saved) (s : State) : Res :=
  match s.lostIn (s.wanted j) with
  | some c => .next (s.endJob id Status.noPlacement c)
  | none => match s.placesFor id s.usable (s.wanted j) with
    | .error c => .next (s.endJob id Status.noPlacement c)
    | .ok ds =>
      if !s.fitsAll id [] ds then .next (s.makeRoom j ds)
      else if s.streamsTaken (j.layout.streamsWith s.lost) then .next s
      else .next (s.placeAgain id j v ds)

section

variable {s : State} {t : Nat} {id : BitVec 32} {j : JobS} {v : Saved}

theorem exec_jobRestore (hp : Restorable s id.toNat j v) : exec (.jobRestore t id) s = (s.upto t).chooseAgain id.toNat j v := by
  have hwait : ¬(j.st ≠ .queued || 256 ≤ s.num Obj.placedJobs || s.heldBack id.toNat j) = true := by
    have hroom : ¬256 ≤ s.num Obj.placedJobs := Nat.not_le.mpr hp.room
    simp [hp.queued, hroom, hp.first]
  have hready : ¬s.resetIn (s.wanted j) = true := by simp [hp.ready]
  have hj : (s.upto t).job id.toNat = some j := hp.job
  show execJobRestore t id s = _
  unfold execJobRestore
  extract_lets a i
  rw [show a.job i = some j from hj]
  dsimp -zeta only
  rw [hp.saved]
  exact (if_neg hwait).trans (if_neg hready)

theorem chooseAgain_ends {id c : Nat} (hc : s.lostIn (s.wanted j) = some c ∨ (s.lostIn (s.wanted j) = none ∧
      s.placesFor id s.usable (s.wanted j) = .error c)) :
    s.chooseAgain id j v = .next (s.endJob id Status.noPlacement c) := by
  unfold State.chooseAgain
  rcases hc with hlost | ⟨hlost, hplaces⟩
  · rw [hlost]
  · rw [hlost]
    dsimp -zeta only
    rw [hplaces]

theorem chooseAgain_places {id : Nat} {ds : List LDrawer} (hlost : s.lostIn (s.wanted j) = none)
    (hplaces : s.placesFor id s.usable (s.wanted j) = .ok ds) (hfits : s.fitsAll id [] ds = true)
    (hstreams : s.streamsTaken (j.layout.streamsWith s.lost) = false) :
    s.chooseAgain id j v = .next (s.placeAgain id j v ds) := by
  unfold State.chooseAgain
  rw [hlost]
  dsimp -zeta only
  rw [hplaces]
  dsimp -zeta only
  rw [hfits, hstreams]
  rfl

/-- A job whose save area stands runs again at its new positions, with its totals (R306). -/
theorem State.placeAgain_runs {id : Nat} {ds : List LDrawer} (hst : j.st = .queued) (hkept : j.saveLost = false) (s : State) :
    ((s.placeAgain id j v ds).job id).map (fun k => (k.st, k.saved, k.placed)) = some (.running, none, ds) ∧
      (s.placeAgain id j v ds).jobTotals.get ⟨0, Counts.zero⟩ id = v.totals := by
  unfold placeAgain
  extract_lets j₁ s₁ _ v₁ s₂
  rw [if_neg (by simp [hkept])]
  have hput : PutsJob jobCountKeys id j₁ s (s.putJob id j₁) := .of_putJob s id j₁
  have h₁ : PutsJob jobCountKeys id (j₁.entering .placing s.now) s s₁ := by
    refine hput.trans (setJobSt_puts hput.self ?_)
    rw [show j₁.st = .queued from hst]
    decide
  have htable : (s₁.loadSaved id j₁ v₁ false).table = s₁.table := loadSaved_table s₁ id j₁ v₁ false
  have htotals : (s₁.loadSaved id j₁ v₁ false).jobTotals.get ⟨0, Counts.zero⟩ id = v.totals := loadSaved_totals s₁ id j₁ v₁ false
  have hloaded := (job_of_table htable id).trans h₁.self
  have h₂ : PutsJob jobCountKeys id _ (s₁.loadSaved id j₁ v₁ false) s₂ := setJobSt_puts hloaded (by simp [JobS.entering])
  clear_value s₂
  have hledger : ((s₂.resumeJob id j₁).feedsTry false).ledger = s₂.ledger :=
    (feedsTry_ledger _ false).trans (resumeJob_ledger s₂ id j₁)
  have hjobs : ((s₂.resumeJob id j₁).feedsTry false).jobs = s₂.jobs := jobs_of_ledger hledger
  have hsums : ((s₂.resumeJob id j₁).feedsTry false).jobTotals = s₂.jobTotals := totals_of_ledger hledger
  refine ⟨?_, ?_⟩
  · rw [job_congr (congrArg JobsState.jobs hjobs), h₂.self]
    rfl
  · rw [hsums, h₂.frame.jobTotals, htotals]

/-- JOB_RESTORE (R305, R306). -/
theorem jobRestore_holds (hp : Restorable s id.toNat j v) :
    (∀ c, s.lostIn (s.wanted j) = some c ∨
        (s.lostIn (s.wanted j) = none ∧ s.placesFor id.toNat s.usable (s.wanted j) = .error c) →
      Answers (exec (.jobRestore t id) s) fun u =>
        (u.job id.toNat).map (fun k => (k.st, k.status)) = some (.ending, some (0x0304, c))) ∧
    (∀ ds, s.lostIn (s.wanted j) = none → s.placesFor id.toNat s.usable (s.wanted j) = .ok ds → s.fitsAll id.toNat [] ds = true →
      s.streamsTaken (j.layout.streamsWith s.lost) = false →
      exec (.jobRestore t id) s = .next ((s.upto t).placeAgain id.toNat j v ds) ∧
      (j.saveLost = false → Answers (exec (.jobRestore t id) s) fun u =>
        (u.job id.toNat).map (fun k => (k.st, k.saved, k.placed)) = some (.running, none, ds) ∧
        u.jobTotals.get ⟨0, Counts.zero⟩ id.toNat = v.totals)) := by
  rw [exec_jobRestore hp]
  refine ⟨fun c hc => ?_, fun ds hlost hplaces hfits hstreams => ?_⟩
  · rw [chooseAgain_ends (s := s.upto t) hc]
    have hends := State.endJob_ends (s := s.upto t) (status := Status.noPlacement) (detail := c) hp.job
      (by rw [hp.queued]; decide)
    exact ⟨_, rfl, congrArg (Option.map fun k => (k.st, k.status)) hends.self⟩
  · have hplaced := chooseAgain_places (s := s.upto t) (v := v) hlost hplaces ((s.fitsAll_upto t _ _ _).trans hfits) hstreams
    exact ⟨hplaced, fun hkept => ⟨_, hplaced, State.placeAgain_runs hp.queued hkept _⟩⟩

end

/-! ## O39 -/

/-- Settles O39: what JOB_PLACEMENT and JOB_RESTORE decide depends on the clock in nothing, and each part of a placement, a
save, a restore and an end leaves the table of jobs to the one record that it puts. -/
theorem jobsArePlacedSavedAndEnded : Obligations.JobsArePlacedSavedAndEnded := by
  refine ⟨?_, ?_, ?_, ?_, ?_⟩
  · intro s t id asn h j hj hst hsaved hroom hasn hheld hreset usable
    obtain ⟨hends, hplaces⟩ := jobPlacement_holds (t := t) (h := h) ⟨hj, hst, hsaved, hroom, hasn, hheld, hreset⟩
    refine ⟨hends, fun ds gr hlost hplace hfits hgranules hstreams hrt hmemory => ?_⟩
    have hexec := hplaces ds gr ⟨hlost, hplace, hfits, hgranules, hstreams, hrt, hmemory⟩
    refine ⟨hexec, fun hresume hsize hstep _ => ⟨_, hexec, ?_⟩⟩
    obtain ⟨hself, hdrawers, htiles, hothers⟩ := State.placeJob_fresh (s := s.upto t) (asn := asn.toNat) (gr := gr) (h := h)
      hst hresume hsize hstep ((s.fitsAll_upto t _ _ _).trans hfits)
    refine ⟨?_, fun d hd => ?_, htiles, hothers⟩
    · rw [hself, JobS.entering, JobS.given, hresume]
      rfl
    · have hphase := hdrawers d hd
      simp only [State.phase, Prod.mk.injEq] at hphase
      exact hphase
  · intro s t id j hj hst
    exact ⟨jobPreemptSaveDone_waits hj, jobPreemptSaveDone_answers hj hst⟩
  · intro s t id j v hj hsaved hst hroom hheld hreset
    exact jobRestore_holds ⟨hj, hsaved, hst, hroom, hheld, hreset⟩
  · intro s q val hadm
    have hjobs (i : Nat) : (Arrived q s).job i = s.job i := State.job_congr (congrArg JobsState.jobs (arrived_jobs q s)) i
    refine ⟨fun h => exec_cancelJob hadm (writeCancelJob_of_ended ?_), fun j hj hst => cancelJob_carries hadm hj hst⟩
    rw [hjobs]
    exact h
  · intro s t id j st d ran hj hdue
    refine ⟨fun hfull hend => ?_, jobEnd_answers hj hdue⟩
    rcases hdue with ⟨-, hst, -⟩ | ⟨hdone, -⟩
    · exact (execJobEnd_ending hj hend hst).trans (by rw [hfull]; rfl)
    · simp [State.jobDone, hend] at hdone

end Sys2Proof.Machine

/-! PROOFS. Checkpoints: O40 fails. -/

namespace Sys2Proof.Machine

/-! ## An operand region that reaches the checkpoint's slot (R299, R308)

A checkpoint is taken once its slot's COMMIT word has been overwritten, and what it saves of a drawer is what the operand
region of its entry holds then. R301 keeps these regions within operand memory, but neither a job's type nor O40 asks for it:
where a region lies over the slot, COMMIT is in what is saved, and no longer as it stood before the command. -/

/-- The checkpoint slot of job 7, at the start of CXL memory. -/
def farSlot : Nat := 0x10000000000

/-- A drawer of tile 0 whose operand region is the first 64 bytes of that slot. -/
def farEntry : LDrawer :=
  { ctx := 0, rt := false, replica := 0, tile := 0, row := 0, col := 0, h := 2, w := 2, fallback := 0xFF, rtLevel := 0, item := 0,
    shard := 0, alt := 0xFFFF, words := 0, prog := 0, semas := 0, rtUnits := 0, omOff := farSlot - operandBase 0, omSize := 64 }

/-- Job 7, of that drawer alone, with checkpoint 0 to be written. -/
def farJob : JobS :=
  { JobS.new ⟨7, 0, false, 0, 0, farSlot, 4096, 0, []⟩ ⟨1, [], [], [], [], []⟩ 0 0 [] with
    st := .checkpointing, placed := [farEntry], writing := some 0 }

/-- The drawer has stopped, the expander of port 0 has 1 TiB, and the first byte of the slot's COMMIT word is 1. -/
def overSlot : State :=
  let s := (State.reset.modDr 0 0 fun d => { d with st := .stopped }).setNum Obj.cxlCapacity 0x10000000000
  { s with jobs := { s.jobs with jobs := [(7, farJob)] }, mem := [(farSlot + 60, 1)] }

/-- What the operand regions of a saved job's drawers held. -/
def Saved.regions (v : Saved) : List (List (Nat × Byte)) := v.drawers.map (·.om)

theorem regions_overSlot : ((overSlot.upto 0).saveJob 7 farJob).regions = [[(60, 1)]] := by decide

/-- The checkpoint saves the region with COMMIT overwritten. -/
theorem answers_overSlot : Answers (exec (.checkpointCommit 0 7 .ok) overSlot) fun u =>
    (u.jobs.ckpts.find? farSlot).map (·.saved.regions) = some [[]] :=
  ⟨_, rfl, by decide +kernel⟩

/-- Refutes O40: its clause on a checkpoint that commits bounds no entry's operand region. In `overSlot` the checkpoint
saves another content of it than stood before the command. -/
theorem not_checkpointsThrottleAndGroups : ¬ Obligations.CheckpointsThrottleAndGroups := by
  intro h
  obtain ⟨-, -, hcommit, -⟩ := h
  obtain ⟨-, -, hcommits⟩ := hcommit overSlot 0 7 farJob 0 (by decide) (.inl rfl) rfl rfl (by decide)
  obtain ⟨u, ⟨-, hckpt, -⟩, hsaved⟩ := (hcommits (by decide) rfl rfl rfl (List.forall_mem_nil _)
    ⟨0, 0, by decide⟩ (by decide)).and answers_overSlot
  obtain ⟨c, hc⟩ : ∃ c, u.jobs.ckpts.find? farSlot = some c := by
    cases hc : u.jobs.ckpts.find? farSlot with
    | none => rw [hc] at hsaved; cases hsaved
    | some c => exact ⟨c, rfl⟩
  change (u.jobs.ckpts.find? farSlot).map _ = _ at hckpt
  rw [hc] at hckpt hsaved
  simp only [Option.map_some, Option.some.injEq, Prod.mk.injEq] at hckpt hsaved
  obtain ⟨-, -, -, hsave⟩ := hckpt
  rw [hsave] at hsaved
  exact absurd (hsaved.symm.trans regions_overSlot) (by decide)

end Sys2Proof.Machine

/-! PROOFS. The fabric's queues, ports, bridges and probes: O41 fails. -/

namespace Sys2Proof.Machine

/-! ## Two fabric-in streams at one port (R220, R227)

SOPEN refuses a second fabric-in stream of a tile (FABRIC_BUSY). Nothing in a state's type does, and O41 does not ask for it.
Once the last unit of a port's stream has been delivered the stream is Done; `State.portStream` finds another that is listed
for the tile then, and `State.drainIn` goes on with that one. Where it holds a whole unit, one beat delivers both. -/

/-- A running fabric-in stream of one unit, of which these bytes have come. -/
def unitIn (ringOff : Nat) (beats : List Byte) : StreamS :=
  { openedStream .running { oneUnit 2 false false with ringOff := ringOff } with beats := beats }

/-- A stream that lacks the fourth beat of its unit. -/
def threeBeats : StreamS := unitIn 0 (List.replicate 192 0)

/-- The fabric's logic runs; behind `threeBeats` stands a fabric-in stream of the same tile that holds a whole unit of ones. -/
def sharedPort : State :=
  { State.reset with
    streams := [(0, threeBeats), (1, unitIn 0x200 (List.replicate 256 1))]
    fab := { State.reset.fab with whole := { State.reset.fab.whole with steps := [3] } } }

/-- A beat of zeros. -/
def zeroBeat : List Byte := List.replicate 64 0

theorem length_threeBeats : threeBeats.beats.length = 192 := List.length_replicate

theorem length_threeBeats_append : (threeBeats.beats ++ zeroBeat).length = 256 := by
  rw [List.length_append, length_threeBeats, zeroBeat, List.length_replicate]

/-- A byte of the ring of the stream behind `threeBeats`. -/
def nextRing : Nat := operandBase 0 + 0x200

/-- The fourth beat of `threeBeats` delivers the unit of the stream behind it as well. -/
theorem answers_sharedPort : Answers (exec (.fabricPortBeat 0 false zeroBeat) sharedPort) fun u => u.byte nextRing = 1 :=
  ⟨_, rfl, by decide +kernel⟩

/-- Refutes O41: its clause on a beat of IN does not ask the tile to have one fabric-in stream. In `sharedPort` the beat that
completes a unit stores another stream's unit too. -/
theorem not_fabricQueuesAndPorts : ¬ Obligations.FabricQueuesAndPorts := by
  intro h
  obtain ⟨-, -, -, -, -, -, -, -, hbeat, -⟩ := h
  have hport : sharedPort.portStream 0 2 = some (0, threeBeats) := rfl
  obtain ⟨u, ⟨-, hfree⟩, hnext⟩ := (hbeat sharedPort 0 zeroBeat 0 threeBeats (by decide) (by decide) (by decide) hport
    (by decide) rfl (by decide) (by decide) (by rw [length_threeBeats]; decide)
    (List.length_append ▸ length_threeBeats_append.le)).and answers_sharedPort
  obtain ⟨-, -, hdelivered⟩ := hfree (by decide)
  obtain ⟨-, hmem⟩ := hdelivered length_threeBeats_append
  have hkept : u.byte nextRing = 0 := (congrArg (Mem.read 0 · nextRing) hmem).trans (by decide +kernel)
  exact absurd (hnext.symm.trans hkept) (by decide)

end Sys2Proof.Machine

/-! PROOFS. The fabric DMA engine: O42 fails. -/

namespace Sys2Proof.Machine

/-! ## A count of beats beyond its type (R358)

`State.countBeats` stops ChannelBeats at the all-ones value of its type, and it starts from 0. Nothing in
a state's type bounds the count, and O42 does not ask for it. A Halted channel with DIR 0 delivers what has settled at every
grant; where nothing has, it counts no beat, and a count beyond the type comes down to the type's largest all the same. -/

/-- A Halted channel with a count of 2^64 beats, in a descriptor of two beats from memory; its buffer is empty. -/
def overCountedChan : DmaChan :=
  { DmaChan.new with
    st := .halted
    desc := some ⟨bufferBase 0 + 0x200000, 128, 0, 0, false, false, true, 1, 0, 2, 0⟩
    beats := 2 ^ 64 }

/-- The device with that channel as channel 0 of cabinet 0. -/
def overCounted : State := State.reset.setDma 0 overCountedChan

/-- The state in which an engine chooses the beat it grants: its channels have settled. -/
def State.settled (c : Cab) (s : State) : State := (List.range 32).foldl (fun s i => s.settleChan (32 * c + i)) s

/-- With no beat ready the channels settle, and that is all (R352). -/
theorem exec_beatGrant_none {s : State} {c : Cab} {isWrite : Bool} (h : (s.settled c).grantee c (b2n isWrite) = none)
    (l : List Byte) : exec (.beatGrant c isWrite l) s = .next (s.settled c) := by
  change execBeatGrant c isWrite l s = _
  unfold execBeatGrant
  extract_lets dir w
  have hnone : w.grantee c dir = none := h
  rw [hnone]
  rfl

/-- A read cycle of the engine in which no beat is ready brings the count down. -/
theorem answers_overCounted :
    Answers (exec (.beatGrant 0 false []) overCounted) fun u => (u.dmaCh 0).beats = 2 ^ 64 - 1 :=
  ⟨_, exec_beatGrant_none (by decide +kernel) [], by decide +kernel⟩

/-- Refutes O42: its clause on a cycle with no beat ready bounds no channel's count of beats. In `overCounted` such a cycle
changes the count of a Halted channel. -/
theorem not_dmaChannelsRun : ¬ Obligations.DmaChannelsRun := by
  intro h
  obtain ⟨-, -, -, hnothing, -⟩ := h
  obtain ⟨u, ⟨-, -, hsame⟩, hcapped⟩ := (hnothing overCounted 0 false [] rfl (by decide) (by decide)).and answers_overCounted
  rw [hsame 0] at hcapped
  exact absurd hcapped (by decide)

end Sys2Proof.Machine

/-! PROOFS. A step and what passes with nothing commanded, JTAG's instructions: O1, O5, O2, O57. -/

namespace Sys2Proof.Machine

/-- Settles O1: it is the second equation of `step`. -/
theorem stepRunsFront : Obligations.StepRunsFront := by
  intro c rest s h
  rw [step, h]

/-- Settles O5: after reset nothing is listed. -/
theorem canonicalAtReset : Obligations.CanonicalAtReset := State.reset_wf

/-! ## What passes with nothing commanded (log 3, 135) -/

/-- What edges of the fabric's networks and the words that bridges hand on can change: contents of the fabric, what has left
the device, and the free values used. -/
def EdgesOnly (s u : State) : Prop :=
  u = { s with
    fab := { s.fab with
      bridges := u.fab.bridges
      ffs := u.fab.ffs
      cells := u.fab.cells
      blocks := u.fab.blocks }
    out := u.out
    free := u.free }

namespace EdgesOnly

theorem refl (s : State) : EdgesOnly s s := rfl

theorem trans {s t u : State} (h₁ : EdgesOnly s t) (h₂ : EdgesOnly t u) : EdgesOnly s u := by
  unfold EdgesOnly at h₁ h₂ ⊢
  rw [h₂, h₁]

theorem foldl {α : Type} {f : State → α → State} (hf : ∀ s a, EdgesOnly s (f s a)) (l : List α) (s : State) :
    EdgesOnly s (l.foldl f s) := by
  induction l generalizing s with
  | nil => exact refl s
  | cons x l ih => exact (hf s x).trans (ih _)

end EdgesOnly

namespace State

variable (s : State)

theorem settleResets_edges (c n : Nat) : EdgesOnly s (settleResets c n s) := by
  induction n generalizing s with
  | zero => exact .refl s
  | succ n ih =>
    rw [settleResets]
    dsimp only
    split
    · exact .refl s
    · exact EdgesOnly.trans (t := { s with fab := { s.fab with ffs := s.ffsAfter c [] } }) rfl (ih _)

theorem clockEdge_edges (c : Nat) (nets : List Nat) : EdgesOnly s (s.clockEdge c nets) := by
  unfold clockEdge
  split
  · exact .refl s
  · extract_lets ffs cells blocks t
    have ht : EdgesOnly s t := by
      refine EdgesOnly.foldl (fun _ _ => ?_) blocks s
      rfl
    have hu : EdgesOnly t { t with fab := { t.fab with ffs := ffs, cells := cells } } := rfl
    exact (ht.trans hu).trans (settleResets_edges _ c 1024)

theorem freeEdge_edges : EdgesOnly s s.freeEdge := by
  unfold freeEdge
  split
  · exact .refl s
  · have h : EdgesOnly s s.fresh.2 := rfl
    dsimp only
    split
    · exact h.trans (clockEdge_edges _ _ _)
    · exact h

theorem drainBridges_edges : EdgesOnly s s.drainBridges := by
  refine EdgesOnly.foldl (fun t ⟨c, b⟩ => ?_) _ s
  dsimp only
  split
  · exact .refl t
  · split
    · rfl
    · exact .refl t

/-- A bridge with no word waiting hands none on. -/
theorem drainBridges_of_empty (h : s.fab.bridges.all (fun e => e.2.rx.isEmpty) = true) : s.drainBridges = s := by
  unfold drainBridges
  generalize s.fab.bridges = l at h
  induction l with
  | nil => rfl
  | cons e l ih =>
    obtain ⟨c, b⟩ := e
    rw [List.all_cons, Bool.and_eq_true, List.isEmpty_iff] at h
    obtain ⟨hb, hl⟩ := h
    rw [List.foldl_cons]
    dsimp only at hb ⊢
    rw [hb]
    exact ih hl

theorem freeEdge_of_no_frames (h : s.fab.frames = []) : s.freeEdge = s := by
  rw [freeEdge, h]
  rfl

end State

/-- Settles O2: bridges and edges change what `EdgesOnly` says, and with nothing to hand on and no frame they change
nothing. -/
theorem idleStep : Obligations.IdleStep := by
  intro s hs
  have h : EdgesOnly s s.drainBridges.freeEdge := s.drainBridges_edges.trans (State.freeEdge_edges _)
  refine ⟨s.tick, by rw [step, hs], rfl, ?_, congrArg State.fab h, fun hrx hframes => ?_⟩
  · have hu : s.tick = { s.drainBridges.freeEdge with now := s.now + 1 } := rfl
    rw [hu, h]
  · rw [State.tick, State.drainBridges_of_empty s hrx, State.freeEdge_of_no_frames s hframes]

/-! ## JTAG (R536, R537) -/

/-- Membership of an instruction code in a list of bytes, as the model asks it of numbers. -/
theorem contains_toNat (l : List Byte) (c : Byte) : (l.map BitVec.toNat).contains c.toNat = true ↔ c ∈ l := by
  simp [BitVec.toNat_inj]

theorem pinSource_eq (s : State) : s.pinSource =
    if s.jtag.ir ∈ ([0, 4, 8, 9] : List Byte) then .boundary else if s.jtag.ir = 3 then .highZ else .device := by
  have h3 : s.jtag.ir.toNat = 3 ↔ s.jtag.ir = 3 := ⟨fun h => BitVec.eq_of_toNat_eq h, fun h => by rw [h]; rfl⟩
  simp only [State.pinSource, ← contains_toNat, ← h3]
  rfl

theorem irBoundary_iff (c : Byte) : irBoundary c.toNat = true ↔ c ∈ ([0, 1, 8, 9] : List Byte) :=
  contains_toNat [0, 1, 8, 9] c

/-- The code of BYPASS itself is no exception: it is 0xFF. -/
theorem selectedIr_eq (c : Byte) : (if irKnown c.toNat then c else 0xFF) =
    if c ∈ ([0, 1, 2, 3, 4, 8, 9, 0x20] : List Byte) then c else (0xFF : Byte) := by
  have h := contains_toNat [0, 1, 2, 3, 4, 8, 9, 0x20, 0xFF] c
  change irKnown c.toNat = true ↔ _ at h
  by_cases hc : c = 0xFF
  · subst hc; rfl
  · simp only [h, List.mem_cons, hc, List.not_mem_nil, or_false]

/-- What an opcode makes of the pins, as `pinSource_eq` says it of the instruction that it selects. -/
theorem pinSource_selected (c : Byte) :
    let ir : Byte := if c ∈ ([0, 1, 2, 3, 4, 8, 9, 0x20] : List Byte) then c else 0xFF
    (if ir ∈ ([0, 4, 8, 9] : List Byte) then PinSource.boundary else if ir = 3 then .highZ else .device) =
      if c ∈ ([0, 4, 8, 9] : List Byte) then .boundary else if c = 3 then .highZ else .device := by
  revert c
  decide

/-- Settles O57: each command is one equation, with membership in lists of codes read by `contains_toNat`. -/
theorem jtagInstructions : Obligations.JtagInstructions := by
  refine ⟨fun s c => ⟨_, rfl, selectedIr_eq c, rfl, ?_⟩, fun _ => rfl, fun s b => ?_⟩
  · rw [pinSource_eq, ← pinSource_selected c, ← selectedIr_eq c]
  · change Host.Outcome.next _ = _
    simp only [irBoundary_iff]

end Sys2Proof.Machine

/-! PROOFS. The line coding: O60. -/

namespace Sys2Proof.Machine

/-! ## Precoding and scrambling (R431, R432) -/

theorem unprecode_precode (y : BitVec 2) (l : List (BitVec 2)) : unprecode y (precode y l) = l := by
  induction l generalizing y with
  | nil => rfl
  | cons g l ih => rw [precode, unprecode, ih, BitVec.sub_add_cancel]

/-- The state after the first index is what was received, whatever it was before. -/
theorem unprecode_drop (y z : BitVec 2) (l : List (BitVec 2)) : (unprecode z l).drop 1 = (unprecode y l).drop 1 := by
  cases l <;> rfl

theorem scrambleBit_scrambleBit (s : BitVec 58) (b : Bool) : scrambleBit s (scrambleBit s b) = b := by
  unfold scrambleBit
  cases b <;> cases s.getLsbD 38 <;> cases s.getLsbD 57 <;> rfl

theorem descramble_scramble (s : BitVec 58) (l : List Bool) : descramble s (scramble s l) = l := by
  induction l generalizing s with
  | nil => rfl
  | cons b l ih => rw [scramble, descramble, ih, scrambleBit_scrambleBit]

theorem shiftIn_getLsbD (s : BitVec 58) (b : Bool) (i : Nat) (hi : i < 58) :
    (shiftIn s b).getLsbD i = if i = 0 then b else s.getLsbD (i - 1) := by
  have hb : (BitVec.ofNat 58 b.toNat).getLsbD i = (decide (i = 0) && b) := by
    rw [BitVec.getLsbD_ofNat, decide_eq_true hi, Bool.true_and]
    cases b
    · simp
    · cases i <;> simp [Nat.testBit_succ]
  rw [shiftIn, BitVec.getLsbD_or, BitVec.getLsbD_shiftLeft, hb]
  cases i with
  | zero => simp
  | succ i => simp [hi]

/-- Each bit received is one more that the ends have in common. -/
theorem descramble_scramble_drop (n : Nat) (s r : BitVec 58) (l : List Bool)
    (h : ∀ i, i + n < 58 → r.getLsbD i = s.getLsbD i) : (descramble r (scramble s l)).drop n = l.drop n := by
  induction n generalizing s r l with
  | zero =>
    have hrs : r = s := BitVec.eq_of_getLsbD_eq fun i hi => h i hi
    rw [hrs, descramble_scramble]
  | succ n ih =>
    cases l with
    | nil => rfl
    | cons b l =>
      rw [scramble, descramble, List.drop_succ_cons, List.drop_succ_cons]
      refine ih _ _ l fun i hi => ?_
      rw [shiftIn_getLsbD _ _ _ (by omega), shiftIn_getLsbD _ _ _ (by omega)]
      split
      · rfl
      · exact h _ (by omega)

/-! ## Symbols over the lanes (R433) -/

/-- Of the numbers below 8m, those that leave k on division by 8 are 8i + k. -/
theorem filterMap_range_mod {α : Type} (k m : Nat) (hk : k < 8) (f : Nat → Option α) :
    (List.range (8 * m)).filterMap (fun j => if j % 8 = k then f j else none) =
      (List.range m).filterMap fun i => f (8 * i + k) := by
  induction m with
  | zero => rfl
  | succ m ih =>
    have hmod (i : Nat) : (8 * m + i) % 8 = i % 8 := by omega
    rw [Nat.mul_succ, List.range_add, List.filterMap_append, ih, List.range_succ (n := m), List.filterMap_append]
    congr 1
    simp only [List.range_succ, List.range_zero, List.filterMap_map, Function.comp_def, hmod]
    interval_cases k <;> simp [List.filterMap_cons]

theorem laneSymbols_getElem? {α : Type} (k i : Nat) (hk : k < 8) (l : List α) (hl : l.length % 8 = 0)
    (hi : 8 * i + k < l.length) : (laneSymbols k l)[i]? = l[8 * i + k]? := by
  obtain ⟨m, hm⟩ : ∃ m, l.length = 8 * m := ⟨l.length / 8, by omega⟩
  have hlane : laneSymbols k l = (List.range m).filterMap fun i => l[8 * i + k]? := by
    rw [laneSymbols, hm, filterMap_range_mod k m hk]
  have hmap : (List.range m).filterMap (fun j => l[8 * j + k]?) = (List.range m).map fun j => l.getD (8 * j + k) l[8 * i + k] := by
    rw [← List.filterMap_eq_map]
    refine List.filterMap_congr fun j hj => ?_
    have hj : 8 * j + k < l.length := by rw [List.mem_range] at hj; omega
    simp [hj]
  rw [hlane, hmap, List.getElem?_map, List.getElem?_range (by omega)]
  simp [hi]

/-- Settles O60: precoding and scrambling by induction over what is sent, the mapping and the markers over their few values,
the lanes by `laneSymbols_getElem?`. -/
theorem lineCodingIsUndone : Obligations.LineCodingIsUndone := by
  refine ⟨unprecode_precode, fun y z l => ?_, descramble_scramble, fun s r l => ?_, by decide, fun k b hk => ?_, fun l j hl hj => ?_⟩
  · rw [unprecode_drop y z, unprecode_precode]
  · exact descramble_scramble_drop 58 s r l fun i hi => by omega
  · interval_cases k <;> cases b <;> decide
  · have hdiv : 8 * (j / 8) + j % 8 = j := Nat.div_add_mod j 8
    rw [laneSymbols_getElem? _ _ (Nat.mod_lt _ (by decide)) l hl (hdiv.symm ▸ hj), hdiv]

end Sys2Proof.Machine

/-! PROOFS. What no command reaches: the queue; what every command keeps: the canonical form of device memory and of the
flash; and that every command goes on: O4, O6, O7. -/

namespace Sys2Proof.Machine

/-- From the first state to the second the queue stands, and device memory and the flash keep their canonical form. -/
structure Keeps (s t : State) : Prop where
  queue : t.pending = s.pending
  mem : Memory.wf 0 s.mem = true → Memory.wf 0 t.mem = true
  flash : Memory.wf 0xFF s.store.flash = true → Memory.wf 0xFF t.store.flash = true

/-- The outcome goes on to a state in which they stand. -/
def Goes (s : State) (o : Host.Outcome State Fault Refusal) : Prop := Answers o (Keeps s)

/-- They stand in the state that a write leads to, where it is not refused. -/
def Accepts {ε : Type} (s : State) (r : Except ε State) : Prop := ∀ u, r = .ok u → Keeps s u

/-- They stand in the state that there is, if there is one. -/
def Gives (s : State) (r : Option State) : Prop := ∀ u, r = some u → Keeps s u

/-- They stand in the state in which an operation goes on, where it does. -/
def Runs (s : State) (r : Iss) : Prop := ∀ u pc n fl, r = .go u pc n fl → Keeps s u

/-- They stand in every state that a handler of writes accepts. -/
structure Handled (f : Handler) : Prop where
  of :: keeps : ∀ {s t : State} {v : Val}, Keeps s t → Accepts s (f v t)

section

variable {s t u : State} {c : Prop} [Decidable c]

theorem Goes.next (h : Keeps s t) : Goes s (.next t) := ⟨t, rfl, h⟩

theorem Goes.ite {o p : Host.Outcome State Fault Refusal} (ho : Goes s o) (hp : Goes s p) :
    Goes s (if c then o else p) := by
  split
  · exact ho
  · exact hp

theorem Accepts.ok {ε : Type} (h : Keeps s t) : Accepts s (.ok t : Except ε State) := by rintro _ ⟨⟩; exact h
theorem Accepts.error {ε : Type} {e : ε} : Accepts s (.error e) := by rintro _ ⟨⟩

theorem Accepts.ite {ε : Type} {a b : Except ε State} (ha : Accepts s a) (hb : Accepts s b) :
    Accepts s (if c then a else b) := by
  split
  · exact ha
  · exact hb

theorem Gives.some (h : Keeps s t) : Gives s (.some t) := by rintro _ ⟨⟩; exact h
theorem Gives.none : Gives s .none := by rintro _ ⟨⟩

theorem Gives.ite {a b : Option State} (ha : Gives s a) (hb : Gives s b) : Gives s (if c then a else b) := by
  split
  · exact ha
  · exact hb

theorem Runs.go {pc : Option Nat} {n : Nat} {fl : List Flight} (h : Keeps s t) : Runs s (.go t pc n fl) := by
  rintro _ _ _ _ ⟨⟩; exact h
theorem Runs.refuse {k : Nat} : Runs s (.refuse k) := by rintro _ _ _ _ ⟨⟩
theorem Runs.block : Runs s .block := by rintro _ _ _ _ ⟨⟩

theorem Runs.ite {a b : Iss} (ha : Runs s a) (hb : Runs s b) : Runs s (if c then a else b) := by
  split
  · exact ha
  · exact hb

theorem Handled.of_some {f g : Handler} (h : ∀ {s t : State} {v : Val}, Keeps s t → Accepts s (f v t)) :
    some f = some g → Handled g := by
  rintro ⟨⟩
  exact .of h

theorem Handled.ite {f g : Handler} (hf : Handled f) (hg : Handled g) : Handled (if c then f else g) := by
  split
  · exact hf
  · exact hg

theorem Handled.some_ite {a b : Option Handler} {g : Handler} (ha : a = some g → Handled g) (hb : b = some g → Handled g) :
    (if c then a else b) = some g → Handled g := by
  split
  · exact ha
  · exact hb

end

namespace Keeps

variable {s t u : State}

theorem refl (s : State) : Keeps s s := ⟨rfl, id, id⟩

theorem trans (h : Keeps s t) (h' : Keeps t u) : Keeps s u := ⟨h'.queue.trans h.queue, h'.mem ∘ h.mem, h'.flash ∘ h.flash⟩

/-- An update of the store that leaves the flash. -/
theorem store {now free : Nat} {out : List Out} {obj : Tab Val} {dict : DictState} {own : OwnState} {rst : RstState}
    {tiles : Tab TileS} {colls : Tab Collector} {jobTotals : Tab JobTotals} {host : HostState} {streams : Tab StreamS}
    {bridges : Tab DieBridge} {mm : MmState} {health : HealthState} {jobs : JobsState} {net : NetState} {lock : LockState}
    {trace : TraceState} {fab : FabState} {dma : DmaState} {cfg : CfgState} {sec : SecState} {jtag : JtagState}
    {gone : GoneState} {queue : List PendRec} {nextSeq writePos tries : Nat} {syncs : List Nat} {copying loadCopy : Bool} {driver : Nat}
    (h : Keeps s t) :
    Keeps s ⟨t.pending, now, free, out, obj, dict, own,
      ⟨t.store.flash, queue, nextSeq, writePos, syncs, copying, loadCopy, driver, tries⟩, rst, t.mem, tiles, colls,
      jobTotals, host, streams, bridges, mm, health, jobs, net, lock, trace, fab, dma, cfg, sec, jtag, gone⟩ :=
  ⟨h.queue, h.mem, h.flash⟩

/-- An update that names neither the queue, nor memory, nor the store. -/
theorem update {now free : Nat} {out : List Out} {obj : Tab Val} {dict : DictState} {own : OwnState} {rst : RstState}
    {tiles : Tab TileS} {colls : Tab Collector} {jobTotals : Tab JobTotals} {host : HostState} {streams : Tab StreamS}
    {bridges : Tab DieBridge} {mm : MmState} {health : HealthState} {jobs : JobsState} {net : NetState} {lock : LockState}
    {trace : TraceState} {fab : FabState} {dma : DmaState} {cfg : CfgState} {sec : SecState} {jtag : JtagState}
    {gone : GoneState} (h : Keeps s t) :
    Keeps s ⟨t.pending, now, free, out, obj, dict, own, t.store, rst, t.mem, tiles, colls, jobTotals, host, streams,
      bridges, mm, health, jobs, net, lock, trace, fab, dma, cfg, sec, jtag, gone⟩ := h.store

theorem ite {c : Prop} [Decidable c] (h : Keeps s t) (h' : Keeps s u) : Keeps s (if c then t else u) := by
  split
  · exact h
  · exact h'

theorem of_fst {α : Type} {p : State × α} {a : α} (h : Keeps s p.1) (hp : p = (t, a)) : Keeps s t := by rwa [hp] at h
theorem of_snd {α : Type} {p : α × State} {a : α} (h : Keeps s p.2) (hp : p = (a, t)) : Keeps s t := by rwa [hp] at h

theorem of_thd {α β : Type} {p : α × β × State} {a : α} {b : β} (h : Keeps s p.2.2) (hp : p = (a, b, t)) : Keeps s t := by
  rwa [hp] at h

theorem foldlOn {α β : Type} (g : β → State) {f : β → α → β} {l : List α} {b : β} (h : Keeps s (g b))
    (hf : ∀ b a, Keeps s (g b) → Keeps s (g (f b a))) : Keeps s (g (l.foldl f b)) := by
  induction l generalizing b with
  | nil => exact h
  | cons a l ih => exact ih (hf b a h)

theorem foldl {α : Type} {f : State → α → State} {l : List α} (h : Keeps s t) (hf : ∀ u a, Keeps s u → Keeps s (f u a)) :
    Keeps s (l.foldl f t) := foldlOn id h hf

theorem setVal {k : ℕ} {v : Val} (h : Keeps s t) : Keeps s (State.setVal k v t) := h.update

theorem setNum {k n : ℕ} (h : Keeps s t) : Keeps s (State.setNum k n t) := h.setVal

theorem setBytes {k : ℕ} {l : List Byte} (h : Keeps s t) : Keeps s (State.setBytes k l t) := h.setVal

theorem unset {k : ℕ} (h : Keeps s t) : Keeps s (State.unset k t) := h.update

theorem bump {k n : ℕ} (h : Keeps s t) : Keeps s (State.bump k n t) := h.setNum

theorem drop1 {k : ℕ} (h : Keeps s t) : Keeps s (State.drop1 k t) := h.setNum

theorem high {k n : ℕ} (h : Keeps s t) : Keeps s (State.high k n t) := h.setNum

theorem upto {t' : ℕ} (h : Keeps s t) : Keeps s (State.upto t' t) := h.update

theorem fresh (h : Keeps s t) : Keeps s (State.fresh t).2 := h.update

theorem freshBytes {n : ℕ} (h : Keeps s t) : Keeps s (State.freshBytes n t).2 := h.update

theorem emit {o : Out} (h : Keeps s t) : Keeps s (State.emit o t) := h.update

theorem queueEvent {e : Event} {m : ℕ} (h : Keeps s t) : Keeps s (State.queueEvent e m t) := .ite h.update.bump h.update

theorem raiseVal {k bits : ℕ} {v : Val} (h : Keeps s t) : Keeps s (State.raiseVal k bits v t) :=
  .foldl h fun _ _ h => h.queueEvent

theorem raise {k bits : ℕ} (h : Keeps s t) : Keeps s (State.raise k bits t) := h.raiseVal

theorem setFlag {k bits : ℕ} (h : Keeps s t) : Keeps s (State.setFlag k bits t) := h.setNum.raise

theorem clearFlag {k w sets : ℕ} (h : Keeps s t) : Keeps s (State.clearFlag k w sets t) := .ite h.setNum h.setNum.setFlag

theorem setState {k v : ℕ} (h : Keeps s t) : Keeps s (State.setState k v t) := .ite h h.setNum.raise

theorem withMem {m : List Host.Cell} (h : Keeps s t) (hm : Memory.wf 0 t.mem = true → Memory.wf 0 m = true) :
    Keeps s { t with mem := m } := ⟨h.queue, hm ∘ h.mem, h.flash⟩

theorem withStore {x : StoreState} (h : Keeps s t)
    (hf : Memory.wf 0xFF t.store.flash = true → Memory.wf 0xFF x.flash = true) : Keeps s { t with store := x } :=
  ⟨h.queue, h.mem, hf ∘ h.flash⟩

theorem poke {a : Nat} {l : List Byte} (h : Keeps s t) : Keeps s (t.poke a l) := h.withMem (t.poke_wf a l)

theorem pokes {l : List (Nat × Byte)} (h : Keeps s t) : Keeps s (t.pokes l) := h.withMem (t.pokes_wf l)

theorem interleave {set gran : Nat} (h : Keeps s t) : Keeps s (t.interleave set gran) := by
  have hwf := t.interleave_wf set gran
  refine ⟨?_, hwf ∘ h.mem, ?_⟩ <;> unfold State.interleave <;> dsimp only <;> split
  · exact h.queue
  · exact h.queue
  · exact h.flash
  · exact h.flash

theorem unpark {c : ℕ} (h : Keeps s t) : Keeps s (State.unpark c t) := .ite h.setState.setState h

theorem signal {vector : ℕ} (h : Keeps s t) : Keeps s (State.signal vector t) :=
  .ite h.bump (.ite h.emit (.ite h h.update))

theorem storeAt {a : ℕ} {l : List Byte} (h : Keeps s t) : Keeps s (State.storeAt a l t) := by
  unfold Machine.State.storeAt
  split
  · exact h.emit
  · exact h
  · exact h
  · exact h.poke

theorem setPort {p : ℕ} {q : PeerPort} (h : Keeps s t) : Keeps s (State.setPort p q t) := h.update

theorem setTrain {p : ℕ} {q : PortTrain} (h : Keeps s t) : Keeps s (State.setTrain p q t) := h.update

theorem toPort {inp p : ℕ} {f : Flit} (h : Keeps s t) : Keeps s (State.toPort inp p f t) := .ite h.setPort h.bump.setFlag

theorem deliver {f : Flit} (h : Keeps s t) : Keeps s (State.deliver f t) := .ite h.update h

theorem leave {inp p : ℕ} {f : Flit} (h : Keeps s t) : Keeps s (State.leave inp p f t) :=
  .ite h.toPort (.ite h.bump.setFlag h.toPort)

theorem route {inp : ℕ} {f : Flit} (h : Keeps s t) : Keeps s (State.route inp f t) := by
  unfold Machine.State.route
  dsimp only
  refine .ite (.ite (.deliver (.foldl h fun _ _ h => .ite h.leave h)) (.foldl h fun _ _ h => .ite h.leave h)) ?_
  exact .ite h.deliver (.ite h.leave (.ite h.deliver h.bump.setFlag))

theorem sendFlit {vc : ℕ} {mcast : Bool} {dest : ℕ} {body : List Byte} (h : Keeps s t) :
    Keeps s (State.sendFlit vc mcast dest body t) :=
  h.route

theorem remoteAsk {dev addr n : ℕ} {read : Bool} {data : List Byte} {who : ℕ} (h : Keeps s t) :
    Keeps s (State.remoteAsk dev addr n read data who t) :=
  .ite h (.ite h.update.sendFlit h.update.sendFlit.sendFlit)

theorem takeDone {who : ℕ} (h : Keeps s t) : Keeps s (State.takeDone who t).2 := by
  unfold Machine.State.takeDone
  dsimp only
  split
  · exact h
  · exact h.update

theorem putStream {k : ℕ} {m : StreamS} (h : Keeps s t) : Keeps s (State.putStream k m t) := h.update

theorem streamEvent {k code : ℕ} (h : Keeps s t) : Keeps s (State.streamEvent k code t) := .ite h.raiseVal h

theorem setStreamSt {k : ℕ} {st : StreamSt} (h : Keeps s t) : Keeps s (State.setStreamSt k st t) := by
  unfold Machine.State.setStreamSt
  split
  · exact h
  · exact .ite h h.putStream.streamEvent

theorem discardIn {m : StreamS} (h : Keeps s t) : Keeps s (State.discardIn m t) := by
  unfold Machine.State.discardIn
  split
  · exact .ite h.update h
  · exact h

theorem dropStream {k : ℕ} (h : Keeps s t) : Keeps s (State.dropStream k t) := by
  unfold Machine.State.dropStream
  split
  · exact h
  · exact h.update.discardIn.streamEvent

theorem setLockSt {v : ℕ} (h : Keeps s t) : Keeps s (State.setLockSt v t) := h.setState

theorem sendCut {f : CutFlit} (h : Keeps s t) : Keeps s (State.sendCut f t) := h.sendFlit

theorem sendNotices (h : Keeps s t) : Keeps s (State.sendNotices t) := .foldl h fun _ _ h => h.sendCut

theorem failLock {cause : ℕ} (h : Keeps s t) : Keeps s (State.failLock cause t) := h.setNum.setLockSt.setFlag

theorem enterFrozen (h : Keeps s t) : Keeps s (State.enterFrozen t) :=
  .foldl h.setNum.setLockSt.setFlag.bump fun _ _ h => .ite h.setState h

theorem propose {f origin cause : ℕ} (h : Keeps s t) : Keeps s (State.propose f origin cause t) := by
  unfold Machine.State.propose
  dsimp only
  refine .ite h.update ?_
  refine .ite h (.ite (.ite h.setNum h) ?_)
  refine .ite h.setFlag.bump.failLock (.ite h.setNum.setNum.setNum.sendNotices ?_)
  refine .ite h.setNum.setNum.setNum.sendNotices.setLockSt.enterFrozen ?_
  exact h.setNum.setNum.setNum.sendNotices.setLockSt

theorem proposeHere {cause : ℕ} (h : Keeps s t) : Keeps s (State.proposeHere cause t) := h.propose

theorem setFeed {q : ℕ} {f : FeedS} (h : Keeps s t) : Keeps s (State.setFeed q f t) := h.update

theorem modFeed {q : ℕ} {f : FeedS → FeedS} (h : Keeps s t) : Keeps s (State.modFeed q f t) := h.setFeed

theorem setFeedSt {q v : ℕ} (h : Keeps s t) : Keeps s (State.setFeedSt q v t) :=
  .ite h (.ite h.modFeed.raiseVal h.modFeed)

theorem setCapture {q v : ℕ} (h : Keeps s t) : Keeps s (State.setCapture q v t) :=
  .ite h (.ite h.modFeed.raiseVal h.modFeed)

theorem verdictFreeze (h : Keeps s t) : Keeps s (State.verdictFreeze t) := h.bump.proposeHere

theorem takeUnknown {q : ℕ} (h : Keeps s t) : Keeps s (State.takeUnknown q t) :=
  .ite h.modFeed.bump.setFlag.verdictFreeze h.modFeed.bump.setFlag

theorem takeMissed {q : ℕ} (h : Keeps s t) : Keeps s (State.takeMissed q t) :=
  .ite h.modFeed.bump.setFlag.verdictFreeze h.modFeed.bump.setFlag

theorem dropRecord {q : ℕ} (h : Keeps s t) : Keeps s (State.dropRecord q t) := h.modFeed.bump.setFlag

theorem unknownAll {q : ℕ} (h : Keeps s t) : Keeps s (State.unknownAll q t) := .foldl h.modFeed fun _ _ h => h.takeUnknown

theorem flushFeed {q : ℕ} (h : Keeps s t) : Keeps s (State.flushFeed q t) :=
  .foldl h.modFeed fun _ _ h => .ite h.dropRecord h.dropRecord.takeUnknown

theorem checkerStops {g x : ℕ} (h : Keeps s t) : Keeps s (State.checkerStops g x t) := .foldl h fun _ _ h => h.unknownAll

theorem checkerFault {g x : ℕ} (h : Keeps s t) : Keeps s (State.checkerFault g x t) := .foldl h fun _ _ h => h.modFeed

theorem feedRecover {g x : ℕ} (h : Keeps s t) : Keeps s (State.feedRecover g x t) :=
  .foldl h fun _ _ h => h.setFeedSt.unknownAll.flushFeed

theorem dropFeedStream {q : ℕ} (h : Keeps s t) : Keeps s (State.dropFeedStream q t) := .ite h.dropStream h

theorem feedMoved {g x g' x' : ℕ} (h : Keeps s t) : Keeps s (State.feedMoved g x g' x' t) := by
  unfold Machine.State.feedMoved
  dsimp only
  refine .foldl h fun u a h => ?_
  refine .setFeedSt ?_
  split
  · exact h.modFeed.putStream
  · exact h.modFeed

theorem feedEnds {q : ℕ} (h : Keeps s t) : Keeps s (State.feedEnds q t) :=
  h.unknownAll.flushFeed.dropFeedStream.modFeed.setCapture.setFeedSt

theorem checkerEnds {j : JobS} (h : Keeps s t) : Keeps s (State.checkerEnds j t) := .foldl h fun _ _ h => h.feedEnds

theorem setTile {g : ℕ} {t' : TileS} (h : Keeps s t) : Keeps s (State.setTile g t' t) := h.update

theorem modTile {g : ℕ} {f : TileS → TileS} (h : Keeps s t) : Keeps s (State.modTile g f t) := h.setTile

theorem setCtx {g x : ℕ} {c : Machine.Context} (h : Keeps s t) : Keeps s (State.setCtx g x c t) := h.modTile

theorem modDr {g x : ℕ} {f : Drawer → Drawer} (h : Keeps s t) : Keeps s (State.modDr g x f t) := h.setCtx

theorem modTh {g x : ℕ} {f : Thread → Thread} (h : Keeps s t) : Keeps s (State.modTh g x f t) := h.setCtx

theorem modImg {g x : ℕ} {f : Image → Image} (h : Keeps s t) : Keeps s (State.modImg g x f t) := h.setCtx

theorem putCommitted {g x : ℕ} {o : ArrayOp} {b : ℕ} {acc : List (BitVec 32)} (h : Keeps s t) :
    Keeps s (State.putCommitted g x o b acc t) :=
  .ite h.modDr (.foldl h fun _ _ h => h.poke)

theorem countJob {job : ℕ} {k : Counts} (h : Keeps s t) : Keeps s (State.countJob job k t) := h.update

theorem countDevice {k : Counts} (h : Keeps s t) : Keeps s (State.countDevice k t) := .ite h.bump.bump h.bump.bump.setFlag

theorem complete {g x seq opcode : ℕ} {record : Bool} {k : Counts} (h : Keeps s t) :
    Keeps s (State.complete g x seq opcode record k t) := by
  unfold Machine.State.complete
  dsimp only
  exact .ite h.countJob.countDevice.modDr.poke.modImg h.countJob.countDevice.modDr

theorem land {g : ℕ} {f : Flight} (h : Keeps s t) : Keeps s (State.land g f t) := by
  unfold Machine.State.land
  dsimp only
  split
  · split
    · exact h.modImg
    · exact h.modImg
    · exact h.modImg
    · exact h.modImg
    · exact h.modTile
    · exact h.modImg
    · exact h.modImg
    · exact h.pokes
    · exact h.modImg
    · exact h.modImg
  · refine .complete ?_
    split
    · exact h.modImg
    · exact h.modImg
    · exact h.modImg
    · exact h.modImg
    · exact h.modTile
    · exact h.modImg
    · exact h.modImg
    · exact h.pokes
    · exact h.modImg
    · exact h.modImg

theorem landAt {g c : ℕ} (h : Keeps s t) : Keeps s (State.landAt g c t) := by
  unfold Machine.State.landAt
  dsimp only
  exact .ite (.foldl h.setTile fun _ _ h => h.land) (.bump (.foldl h.setTile fun _ _ h => h.land))

theorem landBefore {g c z : ℕ} (h : Keeps s t) : Keeps s (State.landBefore g c z t) := by
  induction z generalizing t with
  | zero => exact h
  | succ n ih =>
    rw [Machine.State.landBefore]
    split
    · exact h
    · exact .ite (ih h.landAt) h

theorem landCtx {g x : ℕ} (h : Keeps s t) : Keeps s (State.landCtx g x t) := by
  unfold Machine.State.landCtx
  dsimp only
  exact h.landBefore.modTile

theorem landAll {g x : ℕ} (h : Keeps s t) : Keeps s (State.landAll g x t) := by
  unfold Machine.State.landAll
  dsimp only
  exact .modTile (.foldl h.landCtx fun _ _ h => h.land)

theorem startLoad {g b x : ℕ} (h : Keeps s t) : Keeps s (State.startLoad g b x t) := by
  unfold Machine.State.startLoad
  dsimp only
  exact h.modTile.modTh

theorem grantBank {g x : ℕ} (h : Keeps s t) : Keeps s (State.grantBank g x t) := by
  unfold Machine.State.grantBank
  split
  · exact h.startLoad
  · exact h.modTh

theorem releaseCtx {g x : ℕ} (h : Keeps s t) : Keeps s (State.releaseCtx g x t) := h.landAll.modTile.setCtx

theorem stopCtx {g x : ℕ} (h : Keeps s t) : Keeps s (State.stopCtx g x t) := by
  unfold Machine.State.stopCtx
  dsimp only
  exact .ite h.landCtx.modTile.modTh.modDr.bump.feedRecover h.landCtx.modTile.modTh.modDr.bump.checkerStops

theorem askStop {g x : ℕ} {recovery : Bool} (h : Keeps s t) : Keeps s (State.askStop g x recovery t) := by
  unfold Machine.State.askStop
  dsimp only
  split
  · exact h
  · exact .ite h h.modDr
  · exact h.modDr.stopCtx
  · exact .ite h.modDr.stopCtx h.modDr.modDr
  · exact h.modDr

theorem loadSet {g x : ℕ} (h : Keeps s t) : Keeps s (State.loadSet g x t) := h.modDr

theorem goOn {g x : ℕ} (h : Keeps s t) : Keeps s (State.goOn g x t) := h.modDr.loadSet

theorem execDrawerRelease {g : Tile} {x : Ctx} (h : Keeps s t) : Goes s (execDrawerRelease g x t) :=
  .ite (.next h.releaseCtx) (.next h)

theorem commitPass {g x : ℕ} {o : ArrayOp} {w : PassWork} (h : Keeps s t) : Keeps s (State.commitPass g x o w t) :=
  h.modDr.bump.bump.putCommitted

theorem commitOldest {g x : ℕ} (h : Keeps s t) : Keeps s (State.commitOldest g x t) := by
  unfold Machine.State.commitOldest
  dsimp only
  split
  · exact .ite h (.landBefore (.ite h.commitPass.stopCtx h.commitPass))
  · exact h

theorem writeBlock {g x : ℕ} {o : ArrayOp} {u' b : ℕ} {sk : Machine.State × Counts} (h : Keeps s sk.1) :
    Keeps s (State.writeBlock g x o u' b sk).1 :=
  .ite h.poke.poke h.poke

theorem writeC {g x : ℕ} {o : ArrayOp} (h : Keeps s t) : Keeps s (State.writeC g x o t).1 := by
  unfold Machine.State.writeC
  dsimp only
  exact .foldlOn Prod.fst h fun _ _ h => h.writeBlock

theorem fillQueue {g x : ℕ} (h : Keeps s t) : Keeps s (State.fillQueue g x t) := by
  unfold Machine.State.fillQueue
  dsimp only
  exact h.modTile.modDr

theorem finishOp {g x : ℕ} {o : ArrayOp} (h : Keeps s t) : Keeps s (State.finishOp g x o t) := by
  unfold Machine.State.finishOp
  dsimp only
  exact .ite (.stopCtx (.modDr (.complete (.ite h.bump h)))) (.goOn (.modDr (.complete (.ite h.bump h))))

theorem execOutputWritten {g : Tile} {x : Ctx} (h : Keeps s t) : Goes s (execOutputWritten g x t) := by
  unfold Machine.execOutputWritten
  dsimp only
  split
  · exact .next h
  · refine .ite ?_ ?_
    · refine .ite (.ite (.next (.finishOp (.fillQueue (.ite h h.modDr)))) (.next (.fillQueue (.ite h h.modDr)))) ?_
      exact .ite (.next h) (.next (.finishOp (.modDr (.ite h.writeC.bump h.writeC))))
    · exact .next h

theorem execPreemptionRequest {g : Tile} {x : Ctx} (h : Keeps s t) : Goes s (execPreemptionRequest g x t) :=
  .ite (.next h) (.next h.askStop)

theorem passEnds {g x : ℕ} {o : ArrayOp} (h : Keeps s t) : Keeps s (State.passEnds g x o t) := by
  unfold Machine.State.passEnds
  dsimp only
  exact h.modDr

theorem execPassBoundary {g : Tile} {x : Ctx} {cycles : ℕ} (h : Keeps s t) : Goes s (execPassBoundary g x cycles t) := by
  unfold Machine.execPassBoundary
  dsimp only
  split
  · exact .ite (.next h) (.next (.ite h.passEnds.high h.passEnds))
  · exact .next h

theorem holdRow {g row : ℕ} (h : Keeps s t) : Keeps s (State.holdRow g row t) := .foldl h fun _ _ h => h.modDr

theorem execSteeringHold {g : Tile} {row : Fin 16} (h : Keeps s t) : Goes s (execSteeringHold g row t) := .next h.holdRow

theorem unhold {g row x : ℕ} (h : Keeps s t) : Keeps s (State.unhold g row x t) := by
  unfold Machine.State.unhold
  dsimp only
  exact .ite (.ite h.modDr.goOn (.ite h.modDr.stopCtx h.modDr.modDr)) h.modDr

theorem releaseRow {g row : ℕ} (h : Keeps s t) : Keeps s (State.releaseRow g row t) := .foldl h fun _ _ h => h.unhold

theorem underHold {g : ℕ} {reload : State → State} (h : Keeps s t) (hreload : ∀ u, Keeps s u → Keeps s (reload u)) :
    Keeps s (State.underHold g reload t) :=
  .foldl (hreload _ (.foldl h fun _ _ h => h.modDr)) fun _ _ h => h.unhold

theorem execSteeringRelease {g : Tile} {row : Fin 16} (h : Keeps s t) : Goes s (execSteeringRelease g row t) :=
  .next h.releaseRow

theorem execRampDownStep {g : Tile} {gap : RampGap} (h : Keeps s t) : Goes s (execRampDownStep g gap t) :=
  .ite (.next (.modDr (.ite h.bump h))) (.next h)

theorem execRampUpStep {g : Tile} {x : Ctx} (h : Keeps s t) : Goes s (execRampUpStep g x t) :=
  .ite (.next h.modDr) (.next h)

theorem execCapDescentStep {g : Tile} {x : Ctx} (h : Keeps s t) : Goes s (execCapDescentStep g x t) :=
  .ite (.next h.modDr) (.next h)

theorem execRealtimeRiseStep {g : Tile} {x : Ctx} (h : Keeps s t) : Goes s (execRealtimeRiseStep g x t) :=
  .ite (.next h.modDr) (.next h)

theorem execThrottleTargetArrival {g : Tile} {target : Fin 9} (h : Keeps s t) :
    Goes s (execThrottleTargetArrival g target t) :=
  .next (.ite h h.setNum)

theorem benchRun {g : ℕ} {left : List (Fin 17)} {failing : List (Fin 16 × Fin 17)} (h : Keeps s t) :
    Keeps s (State.benchRun g left failing t) := by
  unfold Machine.State.benchRun
  dsimp only
  exact h.setNum.modTile

theorem execBenchSelection {g : Tile} {selection : List (Fin 17)} {failing : List (Fin 16 × Fin 17)} (h : Keeps s t) :
    Goes s (execBenchSelection g selection failing t) :=
  .ite (.next h.setState.benchRun) (.next h)

theorem setColl {c : ℕ} {q : Collector} (h : Keeps s t) : Keeps s (State.setColl c q t) := h.update.setNum.high.setState

theorem execCollectorSlotOpen {c : Cab} {slot : Fin 256} {n : Fin 151} {len : ℕ} {dest : BitVec 48}
    {jobId : BitVec 32} (h : Keeps s t) :
    Goes s (execCollectorSlotOpen c slot n len dest jobId t) :=
  .ite (.next h.unpark.setColl) (.next h)

theorem combine {c : ℕ} {e : Entry} (h : Keeps s t) : Keeps s (State.combine c e t) := by
  unfold Machine.State.combine
  dsimp only
  split
  · exact h
  · refine .ite ?_ ?_
    · refine .countDevice ?_
      refine .countJob ?_
      refine .setColl ?_
      refine .foldl h fun u a h => ?_
      split
      · exact h
      · exact .foldl h fun _ _ h => .ite h.poke h
    · exact h.setColl

theorem takeHead {g : ℕ} (h : Keeps s t) : Keeps s (State.takeHead g t) := by
  unfold Machine.State.takeHead
  split
  · exact h
  · exact h.modTile.high

theorem headsWait {c : ℕ} {admitted : List ℕ} (h : Keeps s t) : Keeps s (State.headsWait c admitted t) := by
  unfold Machine.State.headsWait
  refine .foldl h fun u a h => ?_
  split
  · exact h
  · exact h.modTile

theorem execCollectorAdmit {cycle : CollectorCycle} (h : Keeps s t) : Goes s (execCollectorAdmit cycle t) := by
  unfold Machine.execCollectorAdmit
  dsimp only
  refine .ite (.next h) ?_
  exact .next (.bump (.bump (.foldl (.setColl (.foldl h.headsWait fun _ _ h => h.takeHead)) fun _ _ h => h.combine)))

theorem execChainCombine {c : Cab} {slot : Fin 256} {offset : BitVec 24} {residueFaults : ℕ} (h : Keeps s t) :
    Goes s (execChainCombine c slot offset residueFaults t) := by
  unfold Machine.execChainCombine
  dsimp only
  split
  · exact .next h
  · exact .next h.bump.setColl.combine

theorem crossBridge {cls : BridgeClass} {h' : ℕ × ℕ} (h : Keeps s t) : Keeps s (State.crossBridge cls h' t) := h.update

theorem cross {cls : BridgeClass} {a b : ℕ} (h : Keeps s t) : Keeps s (State.cross cls a b t) :=
  .foldl h fun _ _ h => h.crossBridge

theorem fill {c asn v : ℕ} (h : Keeps s t) : Keeps s (State.fill c asn v t) := by
  unfold Machine.State.fill
  dsimp only
  refine .ite h ?_
  split
  · exact h
  · exact h.update

theorem invalidate {asn page : ℕ} (h : Keeps s t) : Keeps s (State.invalidate asn page t) := h.update

theorem putLeaf {c asn page : ℕ} {large : Bool} {leaf : ℕ} (h : Keeps s t) :
    Keeps s (State.putLeaf c asn page large leaf t) :=
  .ite h.poke.poke.poke h.poke.poke.poke.poke

theorem putLeaves {asn page : ℕ} {large : Bool} {leaf : ℕ} (h : Keeps s t) :
    Keeps s (State.putLeaves asn page large leaf t) :=
  .foldl h fun _ _ h => h.putLeaf

theorem copyMem {src dst n : Nat} (h : Keeps s t) : Keeps s (t.copyMem src dst n) := h.withMem (t.copyMem_wf src dst n)

theorem setCells {a n : Nat} {l : List (Nat × Byte)} (h : Keeps s t) : Keeps s (t.setCells a n l) :=
  h.withMem (t.setCells_wf a n l)

theorem copyOut {frame backing n : ℕ} (h : Keeps s t) : Keeps s (State.copyOut frame backing n t) := .ite h.emit h.copyMem

theorem beginEvict {c asn page : ℕ} {large : Bool} {n : ℕ} (h : Keeps s t) :
    Keeps s (State.beginEvict c asn page large n t) :=
  h.putLeaves.invalidate

theorem endEvict {c asn page : ℕ} {large : Bool} {n : ℕ} (h : Keeps s t) :
    Keeps s (State.endEvict c asn page large n t) :=
  .bump (.update (.putLeaves (.ite h.copyOut.bump h)))

theorem makeResident {c asn page : ℕ} {large : Bool} {n : ℕ} {pinned : Bool} (h : Keeps s t) :
    Keeps s (State.makeResident c asn page large n pinned t) :=
  h.putLeaves.update.bump

theorem setPinned {asn page : ℕ} {large pin : Bool} (h : Keeps s t) : Keeps s (State.setPinned asn page large pin t) := by
  unfold Machine.State.setPinned
  split
  · exact h
  · exact h.putLeaves

theorem joinFault {asn page : ℕ} {pin : Bool} (h : Keeps s t) : Keeps s (State.joinFault asn page pin t) :=
  .ite h.update.bump.setFlag h.update.bump

theorem raiseFault {c asn page : ℕ} {pin : Bool} (h : Keeps s t) : Keeps s (State.raiseFault c asn page pin t) :=
  .ite h.joinFault h.update

theorem setStage {f : PageFault} {st : FaultStage} (h : Keeps s t) : Keeps s (State.setStage f st t) := h.update

theorem evictionsGoOn (h : Keeps s t) : Keeps s (State.evictionsGoOn t) := by
  unfold Machine.State.evictionsGoOn
  dsimp only
  refine .foldl h fun u a h => ?_
  split
  · exact .ite h h.setStage.endEvict
  · exact h

theorem findFrame {f : PageFault} (h : Keeps s t) : Keeps s (State.findFrame f t) := by
  unfold Machine.State.findFrame
  dsimp only
  split
  · exact h.update
  · split
    · exact h.setStage
    · split
      · exact h.setStage.beginEvict.evictionsGoOn
      · exact .setStage (.ite h h.setFlag)

theorem execServeFault {t' : ℕ} (h : Keeps s t) : Goes s (execServeFault t' t) := by
  unfold Machine.execServeFault
  dsimp only
  split
  · exact .next h.upto
  · refine .ite (.next h.upto) (.ite (.next h.upto.update) ?_)
    exact .ite (.next h.upto.update.setPinned) (.ite (.next h.upto.update.joinFault) (.next h.upto.findFrame))

theorem execFrameFreed {c : Cab} {asn : Byte} {large : Bool} (h : Keeps s t) : Goes s (execFrameFreed c asn large t) := by
  unfold Machine.execFrameFreed
  dsimp only
  split
  · exact .next h
  · exact .next h.findFrame

theorem recountJobs (h : Keeps s t) : Keeps s (State.recountJobs t) := h.setNum.setNum.setNum

theorem putJob {id : ℕ} {j : JobS} (h : Keeps s t) : Keeps s (State.putJob id j t) := h.update.recountJobs

theorem delJob {id : ℕ} (h : Keeps s t) : Keeps s (State.delJob id t) := h.update.recountJobs

theorem setJobSt {id : ℕ} {st : JobSt} (h : Keeps s t) : Keeps s (State.setJobSt id st t) := by
  unfold Machine.State.setJobSt
  dsimp only
  split
  · exact h
  · exact .ite h (.ite h.putJob.raiseVal h.putJob)

theorem sendGroup {dev phase job epoch rank : ℕ} (h : Keeps s t) :
    Keeps s (State.sendGroup dev phase job epoch rank t) :=
  h.sendFlit

theorem tellGroup {id : ℕ} {j : JobS} (h : Keeps s t) : Keeps s (State.tellGroup id j t) :=
  .ite h (.ite (.foldl h fun _ _ h => h.sendGroup) h.sendGroup)

theorem endJob {id status detail : ℕ} (h : Keeps s t) : Keeps s (State.endJob id status detail t) := by
  unfold Machine.State.endJob
  dsimp only
  split
  · exact h
  · exact .ite h (.tellGroup (.checkerEnds (.setJobSt (.ite h.putJob.bump.setFlag h.putJob))))

theorem setQueue {q : List PendRec} (h : Keeps s t) : Keeps s (State.setQueue q t) := h.store.setNum

theorem program {a : Nat} {l : List Byte} (h : Keeps s t) : Keeps s (t.program a l) := h.withStore (t.program_wf a l)

theorem erase {a n : Nat} (h : Keeps s t) : Keeps s (t.erase a n) := h.withStore (t.erase_wf a n)

theorem startCompaction (h : Keeps s t) : Keeps s (State.startCompaction t) := .ite h h.store.setState

theorem checkFill (h : Keeps s t) : Keeps s (State.checkFill t) := .ite h.startCompaction h

theorem queueRecord {r : PendRec} (h : Keeps s t) : Keeps s (State.queueRecord r t) := .ite h h.setQueue.checkFill

theorem persist {k : ℕ} (h : Keeps s t) : Keeps s (State.persist k t) := h.queueRecord

theorem setPersisted {k : ℕ} {v : Val} (h : Keeps s t) : Keeps s (State.setPersisted k v t) := h.setVal.persist

theorem bumpPersisted {k n : ℕ} (h : Keeps s t) : Keeps s (State.bumpPersisted k n t) := h.bump.persist

theorem setWritePos {p : ℕ} (h : Keeps s t) : Keeps s (State.setWritePos p t) := h.store.setNum

theorem appendRec {r : PendRec} (h : Keeps s t) : Keeps s (State.appendRec r t) := by
  unfold Machine.State.appendRec
  extract_lets _ t₁ t₂ _
  have h₂ : Keeps s t₂ := Keeps.setWritePos (t := t₁) h.program
  clear_value t₂
  exact .setNum (.store h₂)

theorem tornRec {r : PendRec} (h : Keeps s t) : Keeps s (State.tornRec r t) := h.freshBytes.program.setWritePos

theorem setTries {n : ℕ} (h : Keeps s t) : Keeps s (State.setTries n t) := h.store

theorem writeHead {r : PendRec} {n : ℕ} (h : Keeps s t) : Keeps s (State.writeHead r n t) := by
  induction n generalizing t with
  | zero =>
    rw [Machine.State.writeHead]
    extract_lets t₁ t₂ _
    have h₂ : Keeps s t₂ := .setQueue (t := t₁) h.appendRec.setTries
    clear_value t₂
    exact .ite h.checkFill (.checkFill (.store h₂))
  | succ n ih =>
    rw [Machine.State.writeHead]
    extract_lets t₁
    have h₁ : Keeps s t₁ := h.tornRec.setFlag.setTries
    exact .ite h.checkFill (.ite h₁.setState (ih h₁.checkFill))

theorem execRecordCommitDone {failedAttempts : Fin 4} (h : Keeps s t) :
    Goes s (execRecordCommitDone failedAttempts t) := by
  unfold Machine.execRecordCommitDone
  split
  · exact .next h
  · exact .ite (.next h) (.next h.writeHead)

theorem execStoreSynced (h : Keeps s t) : Goes s (execStoreSynced t) := by
  unfold Machine.execStoreSynced
  split
  · exact .next h.store.raiseVal
  · exact .next h

theorem copyInto {l : List PendRec} (h : Keeps s t) : Keeps s (State.copyInto l t) := .foldl h fun _ _ h => h.appendRec

theorem execCompactionComplete {eraseFailed : Bool} (h : Keeps s t) : Goes s (execCompactionComplete eraseFailed t) := by
  unfold Machine.execCompactionComplete
  extract_lets t₁ _ old new dirty done t₂ t₃ l t₄ t₅ t₆
  have hdone {u : State} (hu : Keeps s u) : Keeps s (done u) := hu.store
  have h₁ : Keeps s t₁ := h.copyInto
  have h₃ : Keeps s t₃ := h.erase.setState
  have h₄ : Keeps s t₄ := (h₃.setNum.setWritePos).copyInto
  have h₅ : Keeps s t₅ := (hdone h₄).setFlag
  have h₆ : Keeps s t₆ := h₅.setState
  have hd : Keeps s (done (t.setFlag Obj.storeFlags 2)) := hdone h.setFlag
  clear_value done t₁ t₆
  exact .ite (.next h) <| .ite (.next (.checkFill (.setState h₁.store))) <| .ite (.next h) <| .ite (.next hd.setState) <|
    .ite (.ite (.next h₆.setFlag.setState) (.next h₆.erase.setState.checkFill)) (.next h₅.setState.checkFill)

theorem loadStore (h : Keeps s t) : Keeps s (State.loadStore t) := by
  unfold Machine.State.loadStore
  extract_lets _ _ _ t₁
  have h₁ : Keeps s t₁ := .foldl h fun u e h => by
    dsimp only
    split
    · exact h.setVal
    · exact h
  clear_value t₁
  generalize t.scan 0 = p
  generalize t.scan 1 = q
  obtain ⟨q0, _, i0⟩ := p
  obtain ⟨q1, _, i1⟩ := q
  dsimp -zeta only
  extract_lets _ t₂ t₃ t₄ _ _ _ t₅ _ t₆
  have h₄ : Keeps s t₄ := .setWritePos (t := t₃) h₁.setNum.setNum.setNum
  clear_value t₄
  have h₅ : Keeps s t₅ := h₄.store
  clear_value t₅
  have h₆ : Keeps s t₆ := h₅.update
  exact h₆.setState.checkFill

theorem loseCopy (h : Keeps s t) : Keeps s (State.loseCopy t) := by
  unfold Machine.State.loseCopy
  dsimp only
  exact .ite h.fresh.copyInto (.ite h.fresh h.fresh.erase.setNum.setWritePos.copyInto)

theorem loseQueue (h : Keeps s t) : Keeps s (State.loseQueue t) := by
  unfold Machine.State.loseQueue
  extract_lets t₁ t₂ _
  have h₁ : Keeps s t₁ := by
    unfold t₁
    split
    · exact h
    · exact .ite h.tornRec h
  have h₂ : Keeps s t₂ := .ite h₁.loseCopy h₁
  clear_value t₂
  exact h₂.store

theorem logFault {f : FaultRec} {rung : ℕ} (h : Keeps s t) : Keeps s (State.logFault f rung t) := by
  unfold Machine.State.logFault
  dsimp only
  refine .ite ?_ ?_
  · refine .high ?_
    refine .bump ?_
    exact .ite h.bump.setBytes.raise.update.setFlag h.bump.setBytes.raise.update
  · exact .ite h.bump.setBytes.raise.update.setFlag h.bump.setBytes.raise.update

theorem updateHealth (h : Keeps s t) : Keeps s (State.updateHealth t) := h.setState

theorem queueRung {w : RungWork} {r : FaultRec} (h : Keeps s t) : Keeps s (State.queueRung w r t) := h.update.updateHealth

theorem dropRungs {p : Rung → Bool} (h : Keeps s t) : Keeps s (State.dropRungs p t) := h.update.updateHealth

theorem closeRungs {w : RungWork} {rung : ℕ} (h : Keeps s t) : Keeps s (State.closeRungs w rung t) :=
  .foldl h.dropRungs fun _ _ h => h.logFault

theorem supersede {p : Rung → Bool} (h : Keeps s t) : Keeps s (State.supersede p t) :=
  .foldl h.dropRungs fun _ _ h => h.logFault

theorem recoverJob {w : RungWork} {r : FaultRec} {id : ℕ} (h : Keeps s t) : Keeps s (State.recoverJob w r id t) := by
  unfold Machine.State.recoverJob
  dsimp only
  split
  · exact h.logFault
  · exact .ite h.logFault (.ite h.queueRung h.queueRung.setJobSt)

theorem setSteer {g shelf v : ℕ} (h : Keeps s t) : Keeps s (State.setSteer g shelf v t) := h.update

theorem loadSteer {g : ℕ} (h : Keeps s t) : Keeps s (State.loadSteer g t) := .foldl h fun _ _ h => h.setSteer

theorem recountRows {g : ℕ} (h : Keeps s t) : Keeps s (State.recountRows g t) := h.setNum.setNum.setNum

theorem recountMaps (h : Keeps s t) : Keeps s (State.recountMaps t) := h.setNum.setNum.setNum.setBytes

theorem recountTile {g : ℕ} (h : Keeps s t) : Keeps s (State.recountTile g t) := h.recountRows.recountMaps

theorem putCodes {g : ℕ} {l : List (ℕ × ℕ)} {code : ℕ} (h : Keeps s t) : Keeps s (State.putCodes g l code t) :=
  .setBytes (.foldl h fun _ _ h => h.setSteer)

theorem setSites {g : ℕ} {l : List (ℕ × ℕ)} {code : ℕ} (h : Keeps s t) : Keeps s (State.setSites g l code t) :=
  h.putCodes.recountTile

theorem setRetired {g : ℕ} {b : Bool} (h : Keeps s t) : Keeps s (State.setRetired g b t) :=
  h.setBytes.recountTile.setState

theorem one {x c lat : ℕ} {w : Landing} (h : Keeps s t) : Runs s (Iss.one t x c lat w) := by
  unfold Machine.Iss.one
  exact .go h

theorem freeBank {g x : ℕ} (h : Keeps s t) : Keeps s (State.freeBank g x t) := .ite h h.modTile

theorem refuseOp {g x c cause op : ℕ} (h : Keeps s t) : Keeps s (State.refuseOp g x c cause op t) :=
  h.modTile.bump.setNum.modTh.freeBank.checkerStops.endJob

theorem blockOp {g x c : ℕ} {v : BitVec 128} (h : Keeps s t) : Keeps s (State.blockOp g x c v t) := h.modTile.modTh

theorem issued {g x c : ℕ} {pc : Option ℕ} {freeze : ℕ} {fl : List Flight} (h : Keeps s t) :
    Keeps s (State.issued g x c pc freeze fl t) := by
  unfold Machine.State.issued
  dsimp only
  refine .bump ?_
  refine .ite ?_ ?_
  · refine .modTh ?_
    refine .modTile ?_
    refine .ite ?_ ?_
    · split
      · exact .ite (.modTh (.ite h.bump h)) (.ite h.bump h)
      · exact .ite h.bump h
    · refine .bump ?_
      split
      · exact .ite (.modTh (.ite h.bump h)) (.ite h.bump h)
      · exact .ite h.bump h
  · refine .modImg ?_
    refine .modTh ?_
    refine .modTile ?_
    refine .ite ?_ ?_
    · split
      · exact .ite (.modTh (.ite h.bump h)) (.ite h.bump h)
      · exact .ite h.bump h
    · refine .bump ?_
      split
      · exact .ite (.modTh (.ite h.bump h)) (.ite h.bump h)
      · exact .ite h.bump h

theorem issue {g x op : ℕ} {w : BitVec 120} {body : Machine.State → ℕ → Iss} (h : Keeps s t)
    (hbody : ∀ u a1, Keeps s u → Runs s (body u a1)) :
    Goes s (State.issue g x op w body t) := by
  unfold Machine.State.issue
  dsimp only
  refine .ite (.next h) ?_
  refine .ite (.next h.landBefore.refuseOp) (.ite (.next h) ?_)
  refine .ite (.next h.landBefore.refuseOp) (.ite (.next h.landBefore.blockOp) ?_)
  split
  · exact .next h.landBefore.refuseOp
  · exact .next h.landBefore.blockOp
  · rename_i heq
    have h' := (hbody _ _ h.landBefore) _ _ _ _ heq
    exact .next h'.modTh.issued

theorem bodyNop {z : ℕ} (h : Keeps s t) : Runs s (bodyNop t z) := .go h

theorem bodyHalt {g x z : ℕ} (h : Keeps s t) : Runs s (bodyHalt g x t z) :=
  .ite .block (.go h.modTh.freeBank.checkerStops)

theorem bodyJmp {g x v z : ℕ} (h : Keeps s t) : Runs s (bodyJmp g x v t z) := .ite (.go h) .refuse

theorem bodyBr {g x v z : ℕ} (h : Keeps s t) : Runs s (bodyBr g x v t z) := .ite .refuse (.ite .refuse (.go h))

theorem bodyLoop {g x v c : ℕ} (h : Keeps s t) : Runs s (bodyLoop g x v t c) := .ite .refuse (.go h)

theorem bodySli {x v c : ℕ} (h : Keeps s t) : Runs s (bodySli x v t c) := .go h

theorem bodySadd {g x v c : ℕ} (h : Keeps s t) : Runs s (bodySadd g x v t c) := .go h

theorem bodySshf {g x v c : ℕ} (h : Keeps s t) : Runs s (bodySshf g x v t c) := .go h

theorem bodySag {g x v c : ℕ} (h : Keeps s t) : Runs s (bodySag g x v t c) := .ite .refuse (.go h)

theorem bodySlm {g x v c : ℕ} (h : Keeps s t) : Runs s (bodySlm g x v t c) := .go h

theorem bodyScr {g x v c : ℕ} (h : Keeps s t) : Runs s (bodyScr g x v t c) := .ite .refuse (.go h)

theorem bodySmovv {g x v c : ℕ} (h : Keeps s t) : Runs s (bodySmovv g x v t c) := .go h

theorem execNop {g : Tile} {x : Ctx} {w : BitVec 120} (h : Keeps s t) : Goes s (execNop g x w t) :=
  h.issue (fun _ _ h => h.bodyNop)

theorem execHalt {g : Tile} {x : Ctx} {w : BitVec 120} (h : Keeps s t) : Goes s (execHalt g x w t) :=
  h.issue (fun _ _ h => h.bodyHalt)

theorem execJmp {g : Tile} {x : Ctx} {w : BitVec 120} (h : Keeps s t) : Goes s (execJmp g x w t) := by
  unfold Machine.execJmp
  exact h.issue (fun _ _ h => h.bodyJmp)

theorem execBr {g : Tile} {x : Ctx} {w : BitVec 120} (h : Keeps s t) : Goes s (execBr g x w t) := by
  unfold Machine.execBr
  exact h.issue (fun _ _ h => h.bodyBr)

theorem execLoop {g : Tile} {x : Ctx} {w : BitVec 120} (h : Keeps s t) : Goes s (execLoop g x w t) :=
  h.issue (fun _ _ h => h.bodyLoop)

theorem execSli {g : Tile} {x : Ctx} {w : BitVec 120} (h : Keeps s t) : Goes s (execSli g x w t) :=
  h.issue (fun _ _ h => h.bodySli)

theorem execSadd {g : Tile} {x : Ctx} {w : BitVec 120} (h : Keeps s t) : Goes s (execSadd g x w t) :=
  h.issue (fun _ _ h => h.bodySadd)

theorem execSshf {g : Tile} {x : Ctx} {w : BitVec 120} (h : Keeps s t) : Goes s (execSshf g x w t) :=
  h.issue (fun _ _ h => h.bodySshf)

theorem execSag {g : Tile} {x : Ctx} {w : BitVec 120} (h : Keeps s t) : Goes s (execSag g x w t) :=
  h.issue (fun _ _ h => h.bodySag)

theorem execSlm {g : Tile} {x : Ctx} {w : BitVec 120} (h : Keeps s t) : Goes s (execSlm g x w t) :=
  h.issue (fun _ _ h => h.bodySlm)

theorem execScr {g : Tile} {x : Ctx} {w : BitVec 120} (h : Keeps s t) : Goes s (execScr g x w t) :=
  h.issue (fun _ _ h => h.bodyScr)

theorem execYield {g : Tile} {x : Ctx} {w : BitVec 120} (h : Keeps s t) : Goes s (execYield g x w t) :=
  h.issue (fun _ _ h => h.bodyNop)

theorem execSmovv {g : Tile} {x : Ctx} {w : BitVec 120} (h : Keeps s t) : Goes s (execSmovv g x w t) :=
  h.issue (fun _ _ h => h.bodySmovv)

theorem bodyFence {g x v z : ℕ} (h : Keeps s t) : Runs s (bodyFence g x v t z) := .ite .refuse (.ite (.go h) .block)

theorem bodySemaadd {g x v c : ℕ} (h : Keeps s t) : Runs s (bodySemaadd g x v t c) := .ite (.go h) .refuse

theorem bodySemawait {g x v z : ℕ} (h : Keeps s t) : Runs s (bodySemawait g x v t z) :=
  .ite .refuse (.ite .block (.go h.modTile))

theorem execFence {g : Tile} {x : Ctx} {w : BitVec 120} (h : Keeps s t) : Goes s (execFence g x w t) := by
  unfold Machine.execFence
  exact h.issue (fun _ _ h => h.bodyFence)

theorem execSemaadd {g : Tile} {x : Ctx} {w : BitVec 120} (h : Keeps s t) : Goes s (execSemaadd g x w t) :=
  h.issue (fun _ _ h => h.bodySemaadd)

theorem execSemawait {g : Tile} {x : Ctx} {w : BitVec 120} (h : Keeps s t) : Goes s (execSemawait g x w t) := by
  unfold Machine.execSemawait
  exact h.issue (fun _ _ h => h.bodySemawait)

theorem execResultLanding {g : Tile} (h : Keeps s t) : Goes s (execResultLanding g t) := by
  unfold Machine.execResultLanding
  split
  · exact .next h
  · exact .next h.landAt.modTile

theorem execContextEviction {g : Tile} {incoming : Ctx} (h : Keeps s t) : Goes s (execContextEviction g incoming t) := by
  unfold Machine.execContextEviction
  dsimp only
  refine .ite (.next h) ?_
  split
  · exact .next h.startLoad
  · split
    · exact .next h
    · split
      · exact .next h
      · exact .next h.landCtx.modTh.startLoad

theorem execContextSwapComplete {g : Tile} {bank : Fin 4} (h : Keeps s t) :
    Goes s (execContextSwapComplete g bank t) := by
  unfold Machine.execContextSwapComplete
  dsimp only
  split
  · exact .next h
  · exact .ite (.next h) (.next h.modTile.modTh.bump)

theorem bodyMma {g x v z : ℕ} (h : Keeps s t) : Runs s (bodyMma g x v t z) := by
  unfold Machine.bodyMma
  dsimp only
  refine .ite .refuse (.ite .refuse ?_)
  refine .ite .refuse (.ite .refuse ?_)
  refine .ite .refuse (.ite .block ?_)
  refine .go ?_
  exact .ite (.loadSet (.modDr (.modDr (.ite h h.modImg)))) (.modDr (.ite h h.modImg))

theorem execMma {g : Tile} {x : Ctx} {w : BitVec 120} (h : Keeps s t) : Goes s (execMma g x w t) := by
  unfold Machine.execMma
  exact h.issue (fun _ _ h => h.bodyMma)

theorem vec {g x v c lat freeze : ℕ} {w : Landing} {k : Counts} (h : Keeps s t) :
    Runs s (Iss.vec t g x v c lat freeze w k) := by
  unfold Machine.Iss.vec
  dsimp only
  exact .go h.modImg

theorem bodyVld {g x v lost c : ℕ} (h : Keeps s t) : Runs s (bodyVld g x v lost t c) :=
  .ite .refuse (.ite .refuse h.modImg.vec)

theorem bodyVst {g x v lost c : ℕ} (h : Keeps s t) : Runs s (bodyVst g x v lost t c) :=
  .ite .refuse (.ite .refuse (.ite .block h.modImg.vec))

theorem execVld {g : Tile} {x : Ctx} {w : BitVec 120} {lostToArbitration : ℕ} (h : Keeps s t) :
    Goes s (execVld g x w lostToArbitration t) :=
  h.issue (fun _ _ h => h.bodyVld)

theorem execVst {g : Tile} {x : Ctx} {w : BitVec 120} {lostToArbitration : ℕ} (h : Keeps s t) :
    Goes s (execVst g x w lostToArbitration t) :=
  h.issue (fun _ _ h => h.bodyVst)

theorem laneOp {g x v lat : ℕ} {f : BitVec 32 → BitVec 32 → BitVec 32 → BitVec 32 × Counts} {c : ℕ} (h : Keeps s t) :
    Runs s (laneOp g x v lat f t c) :=
  h.vec

theorem execVfadd {g : Tile} {x : Ctx} {w : BitVec 120} (h : Keeps s t) : Goes s (execVfadd g x w t) :=
  h.issue (fun _ _ h => h.laneOp)

theorem execVfmul {g : Tile} {x : Ctx} {w : BitVec 120} (h : Keeps s t) : Goes s (execVfmul g x w t) :=
  h.issue (fun _ _ h => h.laneOp)

theorem execVfma {g : Tile} {x : Ctx} {w : BitVec 120} (h : Keeps s t) : Goes s (execVfma g x w t) :=
  h.issue (fun _ _ h => h.laneOp)

theorem shiftOp {g x v lat w : ℕ} {e : ℤ} {vs : List Scalar} {c : ℕ} (h : Keeps s t) :
    Runs s (shiftOp g x v lat w e vs t c) :=
  h.vec

theorem bodyVtof {g x v c : ℕ} (h : Keeps s t) : Runs s (bodyVtof g x v t c) := h.vec

theorem bodyVtox {g x v c : ℕ} (h : Keeps s t) : Runs s (bodyVtox g x v t c) := h.shiftOp

theorem bodyVmova {g x v c : ℕ} (h : Keeps s t) : Runs s (bodyVmova g x v t c) := h.shiftOp

theorem bodyVnar {g x v c : ℕ} (h : Keeps s t) : Runs s (bodyVnar g x v t c) := .ite .refuse h.shiftOp

theorem bodyVclra {g x v c : ℕ} (h : Keeps s t) : Runs s (bodyVclra g x v t c) := h.vec

theorem bodyVimac {g x v c : ℕ} (h : Keeps s t) : Runs s (bodyVimac g x v t c) := h.vec

theorem execVtof {g : Tile} {x : Ctx} {w : BitVec 120} (h : Keeps s t) : Goes s (execVtof g x w t) :=
  h.issue (fun _ _ h => h.bodyVtof)

theorem execVtox {g : Tile} {x : Ctx} {w : BitVec 120} (h : Keeps s t) : Goes s (execVtox g x w t) :=
  h.issue (fun _ _ h => h.bodyVtox)

theorem execVclra {g : Tile} {x : Ctx} {w : BitVec 120} (h : Keeps s t) : Goes s (execVclra g x w t) :=
  h.issue (fun _ _ h => h.bodyVclra)

theorem execVimac {g : Tile} {x : Ctx} {w : BitVec 120} (h : Keeps s t) : Goes s (execVimac g x w t) :=
  h.issue (fun _ _ h => h.bodyVimac)

theorem execVmova {g : Tile} {x : Ctx} {w : BitVec 120} (h : Keeps s t) : Goes s (execVmova g x w t) :=
  h.issue (fun _ _ h => h.bodyVmova)

theorem execVnar {g : Tile} {x : Ctx} {w : BitVec 120} (h : Keeps s t) : Goes s (execVnar g x w t) :=
  h.issue (fun _ _ h => h.bodyVnar)

theorem searchOp {order : FVal → FVal → Bool} {g x v c : ℕ} (h : Keeps s t) : Runs s (searchOp order g x v t c) :=
  .ite .refuse h.vec

theorem execVmax {g : Tile} {x : Ctx} {w : BitVec 120} (h : Keeps s t) : Goes s (execVmax g x w t) :=
  h.issue (fun _ _ h => h.searchOp)

theorem execVmin {g : Tile} {x : Ctx} {w : BitVec 120} (h : Keeps s t) : Goes s (execVmin g x w t) :=
  h.issue (fun _ _ h => h.searchOp)

theorem execVamax {g : Tile} {x : Ctx} {w : BitVec 120} (h : Keeps s t) : Goes s (execVamax g x w t) :=
  h.issue (fun _ _ h => h.searchOp)

theorem bodyVsrd {g x v c : ℕ} (h : Keeps s t) : Runs s (bodyVsrd g x v t c) := .ite .block h.vec

theorem execVsrd {g : Tile} {x : Ctx} {w : BitVec 120} (h : Keeps s t) : Goes s (execVsrd g x w t) :=
  h.issue (fun _ _ h => h.bodyVsrd)

theorem bodyVmask {g x v c : ℕ} (h : Keeps s t) : Runs s (bodyVmask g x v t c) := .ite .refuse h.vec

theorem execVmask {g : Tile} {x : Ctx} {w : BitVec 120} (h : Keeps s t) : Goes s (execVmask g x w t) :=
  h.issue (fun _ _ h => h.bodyVmask)

theorem streamError {k cause : ℕ} (h : Keeps s t) : Keeps s (State.streamError k cause t) := by
  unfold Machine.State.streamError
  dsimp only
  split
  · exact h
  · exact h.putStream.setStreamSt.bump.setFlag.endJob

theorem checkDone {k : ℕ} (h : Keeps s t) : Keeps s (State.checkDone k t) := by
  unfold Machine.State.checkDone
  split
  · exact h
  · exact .ite h.setStreamSt h

theorem putWrite {k : ℕ} {m : StreamS} (h : Keeps s t) : Keeps s (State.putWrite k m t) := h.putStream.checkDone

theorem drainIn {g z : ℕ} (h : Keeps s t) : Keeps s (State.drainIn g z t) := by
  induction z generalizing t with
  | zero => exact h
  | succ n ih =>
    rw [Machine.State.drainIn]
    split
    · exact h
    · refine .ite h (.ite (ih h.poke.putStream.checkDone) ?_)
      split
      · exact h
      · exact ih h.modTile.putStream

theorem fillOut {g z : ℕ} (h : Keeps s t) : Keeps s (State.fillOut g z t) := by
  induction z generalizing t with
  | zero => exact h
  | succ n ih =>
    rw [Machine.State.fillOut]
    dsimp only
    split
    · exact .ite (ih (.ite h.modTile.putWrite h.modTile.putStream)) h
    · exact h

theorem movePort {g : ℕ} (h : Keeps s t) : Keeps s (State.movePort g t) := h.drainIn.fillOut

theorem pinReach {k : ℕ} {m : StreamS} {j : JobS} (h : Keeps s t) : Keeps s (State.pinReach k m j t) :=
  .foldl h fun _ _ h => .ite h.update.setPinned h.update.raiseFault

theorem startStream {k : ℕ} (h : Keeps s t) : Keeps s (State.startStream k t) := by
  unfold Machine.State.startStream
  dsimp only
  split
  · exact h.setStreamSt
  · exact .movePort (.ite h.setStreamSt.putStream h.setStreamSt.putWrite)

theorem openStream {g x k off : ℕ} (h : Keeps s t) : Keeps s (State.openStream g x k off t) := by
  unfold Machine.State.openStream
  dsimp only
  split
  · exact h
  · split
    · exact h.putStream.streamEvent.streamError
    · exact .ite h.putStream.streamEvent.pinReach h.putStream.streamEvent.startStream

theorem bodySopen {g x v z : ℕ} (h : Keeps s t) : Runs s (bodySopen g x v t z) := by
  unfold Machine.bodySopen
  dsimp only
  refine .ite .refuse (.ite (.go h.bump) ?_)
  split
  · exact .go h.openStream
  · exact .ite (.go h.putStream) (.go h)

theorem bodySwait {g x v z : ℕ} (h : Keeps s t) : Runs s (bodySwait g x v t z) := .ite .refuse (.ite (.go h) .block)

theorem freeUnits {g k q : ℕ} (h : Keeps s t) : Keeps s (State.freeUnits g k q t) := by
  unfold Machine.State.freeUnits
  split
  · exact h
  · refine .ite ?_ ?_
    · split
      · exact h
      · exact h.putStream
    · exact h.putStream.movePort

theorem bodySfree {g x v z : ℕ} (h : Keeps s t) : Runs s (bodySfree g x v t z) :=
  .ite .refuse (.go (.freeUnits (.ite h.bump h)))

theorem closeStream {k : ℕ} (h : Keeps s t) : Keeps s (State.closeStream k t) := by
  unfold Machine.State.closeStream
  dsimp only
  split
  · exact h
  · exact h.putStream.discardIn.setStreamSt

theorem bodySclose {g x v z : ℕ} (h : Keeps s t) : Runs s (bodySclose g x v t z) := by
  unfold Machine.bodySclose
  dsimp only
  refine .ite .refuse (.ite (.go h.bump) ?_)
  split
  · exact .go h
  · exact .ite (.go h.closeStream) (.go h)

theorem execSopen {g : Tile} {x : Ctx} {w : BitVec 120} (h : Keeps s t) : Goes s (execSopen g x w t) := by
  unfold Machine.execSopen
  exact h.issue (fun _ _ h => h.bodySopen)

theorem execSwait {g : Tile} {x : Ctx} {w : BitVec 120} (h : Keeps s t) : Goes s (execSwait g x w t) := by
  unfold Machine.execSwait
  exact h.issue (fun _ _ h => h.bodySwait)

theorem execSfree {g : Tile} {x : Ctx} {w : BitVec 120} (h : Keeps s t) : Goes s (execSfree g x w t) := by
  unfold Machine.execSfree
  exact h.issue (fun _ _ h => h.bodySfree)

theorem execSclose {g : Tile} {x : Ctx} {w : BitVec 120} (h : Keeps s t) : Goes s (execSclose g x w t) := by
  unfold Machine.execSclose
  exact h.issue (fun _ _ h => h.bodySclose)

theorem execBlockCleared {g : Tile} {x : Ctx} (h : Keeps s t) : Goes s (execBlockCleared g x t) := by
  unfold Machine.execBlockCleared
  dsimp only
  split
  · exact .next h
  · exact .ite (.next h) (.ite (.next h.modTh) (.ite (.next h.modTh) (.next h)))

theorem detach {k : ℕ} (h : Keeps s t) : Keeps s (State.detach k t) := by
  unfold Machine.State.detach
  dsimp only
  split
  · exact h
  · exact .ite h h.putStream.bump

theorem stallCycle {c e : ℕ} (h : Keeps s t) : Keeps s (State.stallCycle c e t) := by
  unfold Machine.State.stallCycle
  dsimp only
  refine .foldl h fun u a h => ?_
  split
  · exact .ite h.detach h
  · refine .ite ?_ ?_
    · refine .setFlag ?_
      refine .ite ?_ ?_
      · refine .setFlag ?_
        refine .bump ?_
        exact .ite (.bump (.putStream (.ite h.detach h))) (.putStream (.ite h.detach h))
      · exact .ite (.bump (.putStream (.ite h.detach h))) (.putStream (.ite h.detach h))
    · refine .ite ?_ ?_
      · refine .setFlag ?_
        refine .bump ?_
        exact .ite (.bump (.putStream (.ite h.detach h))) (.putStream (.ite h.detach h))
      · exact .ite (.bump (.putStream (.ite h.detach h))) (.putStream (.ite h.detach h))

theorem issueUnit {k : ℕ} {m : StreamS} {pa : ℕ} (h : Keeps s t) : Keeps s (State.issueUnit k m pa t) := by
  unfold Machine.State.issueUnit
  dsimp only
  refine .high ?_
  refine .high ?_
  refine .ite ?_ ?_
  · refine .putStream ?_
    split
    · refine .cross ?_
      split
      · exact h.remoteAsk
      · exact h
    · split
      · exact h.remoteAsk
      · exact h
  · refine .putWrite ?_
    split
    · refine .cross ?_
      split
      · exact h.remoteAsk
      · exact h
    · split
      · exact h.remoteAsk
      · exact h

theorem translateUnit {k : ℕ} {m : StreamS} {j : JobS} {n : ℕ} (h : Keeps s t) :
    Keeps s (State.translateUnit k m j n t).2 := by
  unfold Machine.State.translateUnit
  dsimp only
  split
  · exact h.bump.streamError
  · split
    · exact h.putStream
    · exact h.putStream.raiseFault
  · split
    · exact h.streamError
    · exact h.fill

theorem lookAhead {k : ℕ} {j : JobS} {n : ℕ} (h : Keeps s t) : Keeps s (State.lookAhead k j n t) := by
  induction n generalizing t with
  | zero => unfold Machine.State.lookAhead; exact h
  | succ n ih =>
    unfold Machine.State.lookAhead
    cases t.stream k with
    | none => exact h
    | some m =>
      refine .ite h ?_
      have ht : Keeps s (t.translateUnit k m j m.looked).2 := h.translateUnit
      generalize t.translateUnit k m j m.looked = p at ht ⊢
      obtain ⟨_ | a, u⟩ := p
      · exact ht
      · exact ih (.putStream ht)

theorem requestUnit {k : ℕ} {m : StreamS} (h : Keeps s t) : Keeps s (State.requestUnit k m t) := by
  unfold Machine.State.requestUnit
  dsimp only
  split
  · exact h
  · split
    · exact h.lookAhead
    · refine .ite h.lookAhead ?_
      split
      · rename_i heq
        have h' := of_snd h.lookAhead.translateUnit heq
        exact h'
      · rename_i heq
        have h' := of_snd h.lookAhead.translateUnit heq
        exact .ite h' h'.issueUnit

theorem execUnitRequest {c : Cab} {engine : Fin 4} (h : Keeps s t) : Goes s (execUnitRequest c engine t) := by
  unfold Machine.execUnitRequest
  dsimp only
  refine .ite (.next h) ?_
  split
  · exact .next h.stallCycle
  · split
    · exact .next h.stallCycle.detach
    · exact .next h.stallCycle.detach.requestUnit

theorem execRateWindow {c : Cab} (h : Keeps s t) : Goes s (execRateWindow c t) := .next h.update

theorem formRecord {k : ℕ} {m : StreamS} {cause va : ℕ} (h : Keeps s t) : Keeps s (State.formRecord k m cause va t) := by
  unfold Machine.State.formRecord
  dsimp only
  exact .ite h.putStream.setStreamSt.bump (.ite h.putStream.setStreamSt.bump.setFlag h.putStream.setStreamSt)

theorem execStreamResume {c : Cab} {s' : StreamNo} (h : Keeps s t) : Goes s (execStreamResume c s' t) := by
  unfold Machine.execStreamResume
  dsimp only
  split
  · exact .next h
  · split
    · exact .next h
    · exact .ite (.next h.bump.startStream) (.ite (.next h.putStream) (.next h))

theorem execStreamPinComplete {c : Cab} {s' : StreamNo} (h : Keeps s t) : Goes s (execStreamPinComplete c s' t) := by
  unfold Machine.execStreamPinComplete
  dsimp only
  split
  · exact .next h
  · split
    · exact .next h
    · exact .ite (.next h.startStream) (.next h)

theorem unpin {k : ℕ} (h : Keeps s t) : Keeps s (State.unpin k t) := by
  unfold Machine.State.unpin
  dsimp only
  split
  · exact h
  · split
    · exact h.update
    · refine .foldl h.update fun u a h => ?_
      split
      · exact .ite h h.setPinned
      · exact h

theorem execStreamCloseComplete {c : Cab} {s' : StreamNo} (h : Keeps s t) : Goes s (execStreamCloseComplete c s' t) := by
  unfold Machine.execStreamCloseComplete
  dsimp only
  split
  · exact .next h
  · refine .ite ?_ ?_
    · split
      · exact .next h.unpin.dropStream
      · exact .next h.unpin.dropStream.openStream
    · exact .next h

theorem putFrame {far : ℕ} {b : List Byte} (h : Keeps s t) : Keeps s (State.putFrame far b t) := h.update

theorem clearFrames {p : ℕ → Bool} (h : Keeps s t) : Keeps s (State.clearFrames p t) := h.update

theorem setRegion {r : ℕ} {v : RegionS} (h : Keeps s t) : Keeps s (State.setRegion r v t) := h.update

theorem setWhole {v : RegionS} (h : Keeps s t) : Keeps s (State.setWhole v t) := h.update

theorem setRegSt {r v : ℕ} (h : Keeps s t) : Keeps s (State.setRegSt r v t) := h.setState

theorem setQueueS {c b : ℕ} {q : QueueS} (h : Keeps s t) : Keeps s (State.setQueueS c b q t) := h.update

theorem queueEdge {c b : ℕ} {write : Option (BitVec 80)} {read : Bool} {seen : ℕ} (h : Keeps s t) :
    Keeps s (State.queueEdge c b write read seen t) := by
  unfold Machine.State.queueEdge
  dsimp only
  refine .ite (.setFlag (.bump (.ite h.setQueueS.bump.setFlag h.setQueueS))) ?_
  exact .ite h.setQueueS.bump.setFlag h.setQueueS

theorem clearLogic {p : ℕ → ℕ → Bool} (h : Keeps s t) : Keeps s (State.clearLogic p t) := h.update

theorem engineSees {c b : ℕ} (h : Keeps s t) : Keeps s (State.engineSees c b t) := h.setQueueS

theorem groupPop {c q : ℕ} (h : Keeps s t) : Keeps s (State.groupPop c q t).2 := by
  unfold Machine.State.groupPop
  dsimp only
  exact .foldlOn Prod.snd h fun _ _ h => h.engineSees.queueEdge

theorem groupPush {c q : ℕ} {d : List Byte} (h : Keeps s t) : Keeps s (State.groupPush c q d t) :=
  .foldl h fun _ _ h => h.engineSees.queueEdge

theorem sendSeg {o : OutSeg} (h : Keeps s t) : Keeps s (State.sendSeg o t) := by
  unfold Machine.State.sendSeg
  dsimp only
  split
  · exact h.emit.setNum.signal
  · exact h.emit
  · exact h.emit
  · exact h.sendFlit
  · exact h.update

theorem flushHeld (h : Keeps s t) : Keeps s (State.flushHeld t) := .foldl h.update fun _ _ h => .ite h.sendSeg h.update

theorem post {l : List OutSeg} (h : Keeps s t) : Keeps s (State.post l t) := h.update.flushHeld

theorem message {id : ℕ} {tr : Transport} {isEvent : Bool} {segs : List (List Byte)} (h : Keeps s t) :
    Keeps s (State.message id tr isEvent segs t) :=
  h.post

theorem answer {m : Master} {tr : Transport} {type flags seq k : ℕ} {pay : List Byte} (h : Keeps s t) :
    Keeps s (State.answer m tr type flags seq k pay t) :=
  h.message

theorem answerErr {m : Master} {tr : Transport} {seq k code detail : ℕ} (h : Keeps s t) :
    Keeps s (State.answerErr m tr seq k code detail t) :=
  h.answer

theorem execEventDelivery {m : Master} (h : Keeps s t) : Goes s (execEventDelivery m t) := by
  unfold Machine.execEventDelivery
  dsimp only
  refine .ite (.next h) (.ite (.next h.update.message) ?_)
  split
  · exact .next h
  · exact .next h.update.message

theorem noteClient {m : Master} {tr : Transport} (h : Keeps s t) : Keeps s (State.noteClient m tr t) := by
  unfold Machine.State.noteClient
  dsimp only
  split
  · exact h.update
  · exact h

theorem request {m : Master} {tr : Transport} {t' seq k : ℕ} {f : State → State} (h : Keeps s t)
    (hf : ∀ u, Keeps s u → Keeps s (f u)) :
    Keeps s (State.request m tr t' seq k f t) := by
  unfold Machine.State.request
  dsimp only
  refine .ite h.upto ?_
  exact .ite h.upto.noteClient.answerErr (.ite h.upto.noteClient.answerErr (hf _ h.upto.noteClient))

theorem fullRequest {m : Master} {tr : Transport} {t' seq k : ℕ} {f : State → State} (h : Keeps s t)
    (hf : ∀ u, Keeps s u → Keeps s (f u)) :
    Keeps s (State.fullRequest m tr t' seq k f t) :=
  h.request (fun _ h => .ite (hf _ h) h.answerErr)

theorem applyVal {r : Row} {k : ℕ} {v : Val} {sets : ℕ} (h : Keeps s t) : Keeps s (State.applyVal r k v sets t) := by
  unfold Machine.State.applyVal
  split
  · exact h.clearFlag
  · exact h
  · exact h.setVal

theorem plain {z : Val} (h : Keeps s t) : Accepts s (Handler.plain z t) := by
  unfold Machine.Handler.plain
  exact .ok h

theorem doWrite {k : ℕ} {r : Row} {v : Val} {sets : ℕ} {h' : Handler} (h : Keeps s t)
    (hh' : ∀ a0 u, Keeps s u → Accepts s (h' a0 u)) :
    Accepts s (State.doWrite k r v sets h' t) := by
  unfold Machine.State.doWrite
  split
  · exact .error
  · rename_i heq
    have h' := (hh' _ _ h.applyVal) _ heq
    exact .ok (.ite h'.persist h')

theorem dropLinear {k code : ℕ} (h : Keeps s t) : Keeps s (State.dropLinear k code t) := h.setNum.setNum.bump

theorem noteRefusal {k : ℕ} (h : Keeps s t) : Keeps s (State.noteRefusal k t) := .ite h.bump h

theorem serveWrite {m : Master} {tr : Transport} {seq k : ℕ} {bytes : List Byte} {sets : ℕ} {h' : Handler}
    (h : Keeps s t) (hh' : ∀ a0 u, Keeps s u → Accepts s (h' a0 u)) :
    Keeps s (State.serveWrite m tr seq k bytes sets h' t) := by
  unfold Machine.State.serveWrite
  split
  · exact h.answerErr
  · split
    · exact h.noteRefusal.answerErr
    · rename_i heq
      have h' := (h.doWrite hh') _ heq
      exact h'.answer

theorem linearWrite {k : ℕ} {bytes : List Byte} {sets : ℕ} {h' : Handler} (h : Keeps s t)
    (hh' : ∀ a0 u, Keeps s u → Accepts s (h' a0 u)) :
    Keeps s (State.linearWrite k bytes sets h' t) := by
  unfold Machine.State.linearWrite
  split
  · exact h.dropLinear
  · exact h.dropLinear
  · refine .ite h.dropLinear ?_
    split
    · exact h.dropLinear
    · refine .ite h.dropLinear ?_
      split
      · exact h.noteRefusal.dropLinear
      · rename_i heq
        have h' := (h.doWrite hh') _ heq
        exact h'

theorem serveOwn {q : Req} {k : ℕ} {bytes : List Byte} {h' : Handler} (h : Keeps s t)
    (hh' : ∀ a0 u, Keeps s u → Accepts s (h' a0 u)) :
    Keeps s (serveOwn q k bytes h' t) := by
  unfold Machine.serveOwn
  dsimp only
  split
  · exact h.request (fun _ h => h.serveWrite hh')
  · exact .ite h.upto (h.upto.linearWrite hh')

theorem writeStoreSync {v : Val} (h : Keeps s t) : Accepts s (writeStoreSync v t) := .ok h.store

theorem writeForget {z : Val} (h : Keeps s t) : Accepts s (writeForget z t) := .ok h.queueRecord

theorem execStoreSync {q : Req} {val : List Byte} (h : Keeps s t) : Goes s (execStoreSync q val t) :=
  .next (h.serveOwn (fun _ _ h => h.writeStoreSync))

theorem execForgetPersisted {q : Req} {val : List Byte} (h : Keeps s t) : Goes s (execForgetPersisted q val t) :=
  .next (h.serveOwn (fun _ _ h => h.writeForget))

theorem setDma {k : ℕ} {h' : DmaChan} (h : Keeps s t) : Keeps s (State.setDma k h' t) := h.update

theorem setChanSt {k : ℕ} {st : DmaSt} (h : Keeps s t) : Keeps s (State.setChanSt k st t) :=
  .ite h (.ite h.setDma.raiseVal h.setDma)

theorem portSignal {k kind len : ℕ} (h : Keeps s t) : Keeps s (State.portSignal k kind len t) := by
  unfold Machine.State.portSignal
  split
  · exact .ite h.emit h
  · exact h

theorem chanIdle {k : ℕ} (h : Keeps s t) : Keeps s (State.chanIdle k t) := h.setDma.setChanSt

theorem countBeats {k n : ℕ} (h : Keeps s t) : Keeps s (State.countBeats k n t) := h.setDma.bump

theorem deliverBeats {k limit : ℕ} (h : Keeps s t) : Keeps s (State.deliverBeats k limit t) := by
  unfold Machine.State.deliverBeats
  dsimp only
  split
  · exact h
  · exact .countBeats (.setDma (.foldl h fun _ _ h => h.groupPush))

theorem haltChan {k i : ℕ} {fetch : Bool} {cause : ℕ} (h : Keeps s t) : Keeps s (State.haltChan k i fetch cause t) :=
  .setFlag (.bump (.setChanSt (.ite h.setDma.deliverBeats h.setDma)))

theorem relatch {k i cause : ℕ} (h : Keeps s t) : Keeps s (State.relatch k i cause t) := by
  unfold Machine.State.relatch
  dsimp only
  split
  · exact h
  · exact .ite h h.setDma

theorem beatFails {k i cause : ℕ} (h : Keeps s t) : Keeps s (State.beatFails k i cause t) := .ite h.haltChan h.relatch

theorem settleChan {k : ℕ} (h : Keeps s t) : Keeps s (State.settleChan k t) := by
  unfold Machine.State.settleChan
  refine .ite ?_ ?_
  · refine .deliverBeats ?_
    refine .foldl ?_ fun u a h => ?_
    · refine .foldl h fun u a h => ?_
      refine .ite h ?_
      split
      · rename_i heq
        have h' := of_snd h.takeDone heq
        exact h'
      · rename_i heq
        have h' := of_snd h.takeDone heq
        exact h'.setDma
      · rename_i heq
        have h' := of_snd h.takeDone heq
        exact h'.beatFails
    · dsimp only
      split
      · rename_i heq
        have h' := of_snd h.takeDone heq
        exact h'
      · rename_i heq
        have h' := of_snd h.takeDone heq
        exact .ite h'.setDma h'.setDma.beatFails
  · refine .foldl ?_ fun u a h => ?_
    · refine .foldl h fun u a h => ?_
      refine .ite h ?_
      split
      · rename_i heq
        have h' := of_snd h.takeDone heq
        exact h'
      · rename_i heq
        have h' := of_snd h.takeDone heq
        exact h'.setDma
      · rename_i heq
        have h' := of_snd h.takeDone heq
        exact h'.beatFails
    · dsimp only
      split
      · rename_i heq
        have h' := of_snd h.takeDone heq
        exact h'
      · rename_i heq
        have h' := of_snd h.takeDone heq
        exact .ite h'.setDma h'.setDma.beatFails

theorem writeChannelStart {z : Val} (h : Keeps s t) : Accepts s (writeChannelStart z t) :=
  .ite .error (.ok h.unpark.setDma.setChanSt)

theorem execChannelStart {q : Req} {val : List Byte} (h : Keeps s t) : Goes s (execChannelStart q val t) :=
  .next (h.serveOwn (fun _ _ h => h.writeChannelStart))

theorem execDescriptorFetchDone {c : Cab} {ch : Fin 32} {status : MemStatus} {hostBytes : List Byte} (h : Keeps s t) :
    Goes s (execDescriptorFetchDone c ch status hostBytes t) := by
  unfold Machine.execDescriptorFetchDone
  dsimp only
  refine .ite (.next h) ?_
  split
  · exact .ite (.next h.setDma.setChanSt) (.next h.haltChan)
  · exact .next h.haltChan

theorem newGrant {c ch dir : ℕ} (h : Keeps s t) : Keeps s (State.newGrant c ch dir t) :=
  .foldl h fun _ _ h => .ite h.update h

theorem execBurstStart {c : Cab} {ch : Fin 32} {len : BitVec 6} (h : Keeps s t) : Goes s (execBurstStart c ch len t) := by
  unfold Machine.execBurstStart
  dsimp only
  split
  · exact .next h
  · refine .ite (.next h) ?_
    refine .next ?_
    refine .portSignal ?_
    exact .ite h.newGrant.setDma (.foldl h.newGrant.setDma fun _ _ h => h.groupPop.setDma)

theorem execLateWithdrawal {c : Cab} {ch : Fin 32} (h : Keeps s t) : Goes s (execLateWithdrawal c ch t) :=
  .ite (.next h) (.next h.setDma.bump.setFlag)

theorem issueRead {k : ℕ} {d : DmaDesc} {hostBytes : List Byte} (h : Keeps s t) :
    Keeps s (State.issueRead k d hostBytes t) := by
  unfold Machine.State.issueRead
  dsimp only
  split
  · split
    · exact h.setDma.remoteAsk.setDma
    · exact h.setDma
    · exact h.setDma
  · exact h.haltChan

theorem issueWrite {k : ℕ} {d : DmaDesc} {b : DmaBeat} (h : Keeps s t) : Keeps s (State.issueWrite k d b t) := by
  unfold Machine.State.issueWrite
  dsimp only
  split
  · split
    · exact h.setDma.remoteAsk.countBeats
    · exact h.setDma.storeAt.countBeats
  · exact h.setDma.haltChan

theorem execBeatGrant {c : Cab} {isWrite : Bool} {hostBytes : List Byte} (h : Keeps s t) :
    Goes s (execBeatGrant c isWrite hostBytes t) := by
  unfold Machine.execBeatGrant
  dsimp only
  split
  · exact .next (.foldl h fun _ _ h => h.settleChan)
  · split
    · exact .next (.foldl h fun _ _ h => h.settleChan)
    · refine .ite (.next (.foldl h fun _ _ h => h.settleChan)) ?_
      refine .ite ?_ ?_
      · split
        · refine .next ?_
          split
          · split
            · exact .update (.bump (.foldl h fun _ _ h => h.settleChan))
            · exact .update (.foldl h fun _ _ h => h.settleChan)
          · exact .update (.foldl h fun _ _ h => h.settleChan)
        · refine .next ?_
          refine .issueWrite ?_
          split
          · split
            · exact .update (.bump (.foldl h fun _ _ h => h.settleChan))
            · exact .update (.foldl h fun _ _ h => h.settleChan)
          · exact .update (.foldl h fun _ _ h => h.settleChan)
      · refine .next ?_
        refine .issueRead ?_
        split
        · split
          · exact .update (.bump (.foldl h fun _ _ h => h.settleChan))
          · exact .update (.foldl h fun _ _ h => h.settleChan)
        · exact .update (.foldl h fun _ _ h => h.settleChan)

theorem descDone {k : ℕ} (h : Keeps s t) : Keeps s (State.descDone k t) := by
  unfold Machine.State.descDone
  dsimp only
  split
  · exact h.bump.portSignal
  · refine .ite (.chanIdle (.ite h.bump.portSignal.setFlag h.bump.portSignal)) ?_
    exact .setChanSt (.setDma (.ite h.bump.portSignal.setFlag h.bump.portSignal))

theorem abortDone {k : ℕ} (h : Keeps s t) : Keeps s (State.abortDone k t) := h.chanIdle.bump.setFlag

theorem execBurstEnd {c : Cab} {ch : Fin 32} (h : Keeps s t) : Goes s (execBurstEnd c ch t) := by
  unfold Machine.execBurstEnd
  dsimp only
  split
  · exact .next h.settleChan
  · refine .ite (.next h.settleChan) ?_
    refine .ite ?_ ?_
    · refine .next ?_
      refine .abortDone ?_
      refine .setDma ?_
      refine .ite (.ite h.settleChan.deliverBeats h.settleChan) ?_
      exact .portSignal (.ite h.settleChan.deliverBeats h.settleChan)
    · refine .ite ?_ ?_
      · refine .next ?_
        refine .setDma ?_
        refine .ite (.ite h.settleChan.deliverBeats h.settleChan) ?_
        exact .portSignal (.ite h.settleChan.deliverBeats h.settleChan)
      · refine .ite ?_ ?_
        · refine .next ?_
          refine .setDma ?_
          refine .setDma ?_
          refine .ite (.ite h.settleChan.deliverBeats h.settleChan) ?_
          exact .portSignal (.ite h.settleChan.deliverBeats h.settleChan)
        · refine .next ?_
          refine .descDone ?_
          refine .setDma ?_
          refine .ite (.ite h.settleChan.deliverBeats h.settleChan) ?_
          exact .portSignal (.ite h.settleChan.deliverBeats h.settleChan)

theorem execArrivalConfirmed {c : Cab} {ch : Fin 32} (h : Keeps s t) : Goes s (execArrivalConfirmed c ch t) :=
  .ite (.next h.settleChan.descDone) (.next h.settleChan)

theorem execDmaBusError {c : Cab} {ch : Fin 32} {offset : BitVec 64} {cause : BitVec 4} (h : Keeps s t) :
    Goes s (execDmaBusError c ch offset cause t) := by
  unfold Machine.execDmaBusError
  dsimp only
  split
  · exact .next h
  · exact .next (.ite h h.beatFails)

theorem resumeChan {k : ℕ} (h : Keeps s t) : Keeps s (State.resumeChan k t) := by
  unfold Machine.State.resumeChan
  dsimp only
  split
  · exact h.setChanSt
  · exact .ite h.setChanSt h.setDma.setChanSt

theorem writeChannelCommand {z : Val} (h : Keeps s t) : Accepts s (writeChannelCommand z t) := by
  unfold Machine.writeChannelCommand
  dsimp only
  split
  · exact .ite .error (.ok h.resumeChan)
  · exact .ite (.ok h.abortDone) (.ok h.setChanSt)
  · exact .ok (.abortDone (.ite h h.portSignal))
  · exact .error

theorem execResume {q : Req} (h : Keeps s t) : Goes s (execResume q t) :=
  .next (h.serveOwn (fun _ _ h => h.writeChannelCommand))

theorem execAbort {q : Req} (h : Keeps s t) : Goes s (execAbort q t) :=
  .next (h.serveOwn (fun _ _ h => h.writeChannelCommand))

theorem isolateChans {p : ℕ → ℕ → Bool} (h : Keeps s t) : Keeps s (State.isolateChans p t) := by
  unfold Machine.State.isolateChans
  dsimp only
  refine .foldl h fun u a h => ?_
  split
  · exact .ite h.haltChan h
  · exact h

theorem loseChans {c : ℕ} (h : Keeps s t) : Keeps s (State.loseChans c t) := .foldl h fun _ _ h => h.setChanSt

theorem resetChans {c : ℕ} (h : Keeps s t) : Keeps s (State.resetChans c t) := .foldl h fun _ _ h => h.setChanSt.setDma

theorem setBlock {c b : ℕ} {v : BlockS} (h : Keeps s t) : Keeps s (State.setBlock c b v t) := h.update

theorem settleResets {c z : ℕ} (h : Keeps s t) : Keeps s (State.settleResets c z t) := by
  induction z generalizing t with
  | zero => exact h
  | succ n ih => exact .ite h (ih h.update)

theorem blockEdge {c : ℕ} {nets : List ℕ} {b : ℕ} (h : Keeps s t) : Keeps s (State.blockEdge c nets b t) :=
  .ite h h.fresh.setBlock.setBlock

theorem clockEdge {c : ℕ} {nets : List ℕ} (h : Keeps s t) : Keeps s (State.clockEdge c nets t) :=
  .ite h (.settleResets (.update (.foldl h fun _ _ h => h.update)))

theorem stepNetworks (h : Keeps s t) : Keeps s (State.stepNetworks t) := .foldl h fun _ _ h => .ite h h.clockEdge

theorem freeEdge (h : Keeps s t) : Keeps s (State.freeEdge t) := .ite h (.ite h.fresh.clockEdge h.fresh)

theorem loadResets {p : ℕ → ℕ → Bool} (h : Keeps s t) : Keeps s (State.loadResets p t) := h.update

theorem feedDeadline {q : ℕ} {due : ℕ → Bool} (h : Keeps s t) : Keeps s (State.feedDeadline q due t) :=
  .foldl (.foldl h.modFeed fun _ _ h => .ite h.takeUnknown h.takeMissed) fun _ _ h => h.takeMissed

theorem deadlinesBefore {edge : ℕ} (h : Keeps s t) : Keeps s (State.deadlinesBefore edge t) :=
  .ite h (.foldl h fun _ _ h => .ite h.feedDeadline h)

theorem loadCuts {step : ℕ} (h : Keeps s t) : Keeps s (State.loadCuts step t) := by
  unfold Machine.State.loadCuts
  dsimp only
  refine .foldl h fun u a h => ?_
  split
  · exact h
  · exact .foldl h fun _ _ h => h.update

theorem noteSlack {edge : ℕ} (h : Keeps s t) : Keeps s (State.noteSlack edge t) := by
  unfold Machine.State.noteSlack
  dsimp only
  refine .foldl h.setNum fun u a h => ?_
  split
  · exact h
  · exact h.setNum

theorem takeSelects {step : ℕ} (h : Keeps s t) : Keeps s (State.takeSelects step t) :=
  .foldl h.update fun _ _ h => h.update.setNum

theorem beginStep {edge next : ℕ} (h : Keeps s t) : Keeps s (State.beginStep edge next t) :=
  .stepNetworks (.takeSelects (.update (.setNum (.ite h.loadCuts h))))

theorem enterBound {edge : ℕ} (h : Keeps s t) : Keeps s (State.enterBound edge t) :=
  .setLockSt (.foldl h.update.unset fun _ _ h => h.unset)

theorem execStepStart {edge : ℕ} (h : Keeps s t) : Goes s (execStepStart edge t) := by
  unfold Machine.execStepStart
  dsimp only
  refine .ite (.ite (.next h) (.ite (.next h.enterBound.beginStep) (.next h.beginStep))) ?_
  refine .ite (.ite (.ite (.next h.deadlinesBefore.noteSlack.beginStep) (.next h.deadlinesBefore)) (.next h)) ?_
  exact .next h

theorem frameIn {dev step edge : ℕ} {payload : List Byte} (h : Keeps s t) :
    Keeps s (State.frameIn dev step edge payload t) := by
  unfold Machine.State.frameIn
  dsimp only
  refine .ite h ?_
  split
  · exact h.bump
  · exact .ite h.update.setFlag.failLock h.update

theorem sendFrame {edge step : ℕ} {n : Neighbour} (h : Keeps s t) : Keeps s (State.sendFrame edge step n t) :=
  .ite h.frameIn (.bump (.foldl h fun _ _ h => h.sendCut))

theorem takeFreeze {f : CutFlit} {origin : ℕ} (h : Keeps s t) : Keeps s (State.takeFreeze f origin t) := .ite h.propose h

theorem takeNotice {f : CutFlit} (h : Keeps s t) : Keeps s (State.takeNotice f t) := h.takeFreeze

theorem execCutFrameReceive {edge : ℕ} {f : CutFlit} (h : Keeps s t) : Goes s (execCutFrameReceive edge f t) := by
  unfold Machine.execCutFrameReceive
  dsimp only
  refine .ite (.next h) (.ite (.next h.takeNotice) ?_)
  refine .ite (.next h.bump) (.ite (.next (.ite h.update.bump h.update)) ?_)
  exact .ite (.next h.takeFreeze.update.bump.frameIn) (.next h.takeFreeze.update.update)

theorem execFreezeNotice {f : CutFlit} (h : Keeps s t) : Goes s (execFreezeNotice f t) :=
  .ite (.next h) (.next h.takeNotice)

theorem takeMiss (h : Keeps s t) : Keeps s (State.takeMiss t) := h.bump.setNum.setFlag.proposeHere

theorem execDeadlineMiss {edge : ℕ} (h : Keeps s t) : Goes s (execDeadlineMiss edge t) :=
  .ite (.next h.takeMiss) (.next h)

theorem execDrefLost (h : Keeps s t) : Goes s (execDrefLost t) := by
  unfold Machine.execDrefLost
  dsimp only
  refine .ite (.next h) ?_
  refine .ite ?_ ?_
  · refine .next ?_
    exact .ite h.setNum.setState.setFlag.proposeHere h.setNum.setState.setFlag.proposeHere.setLockSt
  · exact .next h.setNum.setState.setFlag

theorem writeStepClock {z : Val} (h : Keeps s t) : Accepts s (writeStepClock z t) := .ite (.ok h) .error

theorem writeStepConfig {z : Val} (h : Keeps s t) : Accepts s (writeStepConfig z t) := .ite (.ok h) .error

theorem writeSnapshotAt {z : Val} (h : Keeps s t) : Accepts s (writeSnapshotAt z t) :=
  .ite .error (.ite .error (.ok h.propose))

theorem execSnapshotAt {q : Req} {val : List Byte} (h : Keeps s t) : Goes s (execSnapshotAt q val t) :=
  .next (h.serveOwn (fun _ _ h => h.writeSnapshotAt))

theorem thawBridges (h : Keeps s t) : Keeps s (State.thawBridges t) := .foldl h fun _ _ h => .ite h.setState h

theorem clearFreeze (h : Keeps s t) : Keeps s (State.clearFreeze t) := h.unset.unset.unset

theorem lockIdle (h : Keeps s t) : Keeps s (State.lockIdle t) := h.clearFreeze.setNum.thawBridges.setLockSt.update

theorem writeAbandon {z : Val} (h : Keeps s t) : Accepts s (writeAbandon z t) := .ite (.ok h.lockIdle) .error

theorem execAbandon {q : Req} (h : Keeps s t) : Goes s (execAbandon q t) :=
  .next (h.serveOwn (fun _ _ h => h.writeAbandon))

theorem eccRead {c b : ℕ} {fault : Option Bool} (h : Keeps s t) : Keeps s (State.eccRead c b fault t) := by
  unfold Machine.State.eccRead
  dsimp only
  refine .ite h ?_
  split
  · exact h
  · exact h.bump
  · exact h.freshBytes.setQueueS.bump.setFlag

theorem fabricEdge {c b : ℕ} {write : Option (BitVec 80)} {read : Bool} {fault : Option Bool} {seen : ℕ} (h : Keeps s t) :
    Keeps s (State.fabricEdge c b write read fault seen t) :=
  .ite h.queueEdge.eccRead h.queueEdge

theorem execFabricQueueWrite {c : Cab} {block : Fin 8192} {entry : BitVec 80} {edge : WriteEdge} (h : Keeps s t) :
    Goes s (execFabricQueueWrite c block entry edge t) :=
  .ite (.next h.fabricEdge) (.next h)

theorem execFabricQueueRead {c : Cab} {block : Fin 8192} {edge : ReadEdge} (h : Keeps s t) :
    Goes s (execFabricQueueRead c block edge t) :=
  .ite (.next h.fabricEdge) (.next h)

theorem execQueueReset {c : Cab} {block : Fin 8192} {phase : Fin 4} (h : Keeps s t) :
    Goes s (execQueueReset c block phase t) := by
  unfold Machine.execQueueReset
  dsimp only
  refine .ite (.next h) ?_
  split
  · exact .next h.setQueueS
  · exact .next h.setQueueS
  · exact .next (.ite h h.setQueueS)
  · exact .next (.ite h h.setQueueS)

theorem execClockLoopLockLost {c : Cab} {loop : Fin 16} (h : Keeps s t) : Goes s (execClockLoopLockLost c loop t) :=
  .ite (.next h) (.next h.setState.bump.setFlag)

theorem execClockLoopLocked {c : Cab} {loop : Fin 16} (h : Keeps s t) : Goes s (execClockLoopLocked c loop t) :=
  .ite (.next h.setState) (.next h)

theorem startLoops {c : ℕ} (h : Keeps s t) : Keeps s (State.startLoops c t) := .foldl h fun _ _ h => h.setState

theorem stopLoops {c : ℕ} (h : Keeps s t) : Keeps s (State.stopLoops c t) := .foldl h fun _ _ h => h.setState

theorem execFabricPortBeat {g : Tile} {out : Bool} {data : List Byte} (h : Keeps s t) :
    Goes s (execFabricPortBeat g out data t) := by
  unfold Machine.execFabricPortBeat
  dsimp only
  refine .ite (.next h) ?_
  refine .ite ?_ ?_
  · split
    · exact .next h
    · exact .next h.modTile.emit.movePort
  · exact .ite (.next h.unpark.modTile.movePort) (.next h)

theorem setBridge {c : ℕ} {b : BridgeS} (h : Keeps s t) : Keeps s (State.setBridge c b t) := h.update

theorem updateBridge {c : ℕ} (h : Keeps s t) : Keeps s (State.updateBridge c t) :=
  .ite h.setState (.ite (.ite h h.setState) h.setState)

theorem bridgeWord {c : ℕ} {word : List Byte} {kind uncorrectable : Bool} (h : Keeps s t) :
    Keeps s (State.bridgeWord c word kind uncorrectable t) := by
  unfold Machine.State.bridgeWord
  dsimp only
  exact .ite h (.ite h.setBridge.bump.setFlag (.ite h.setBridge.bump.setFlag h.setBridge))

theorem execTargetWordReceive {port : Cab} {word : List Byte} {kind uncorrectable : Bool} (h : Keeps s t) :
    Goes s (execTargetWordReceive port word kind uncorrectable t) :=
  .next h.bridgeWord

theorem drainBridges (h : Keeps s t) : Keeps s (State.drainBridges t) := by
  unfold Machine.State.drainBridges
  dsimp only
  refine .foldl h fun u a h => ?_
  split
  · exact h
  · exact .ite h.setBridge.emit h

theorem tick (h : Keeps s t) : Keeps s (State.tick t) := h.drainBridges.freeEdge.update

theorem writeProbeSelects {c : ℕ} {z : Val} (h : Keeps s t) : Accepts s (writeProbeSelects c z t) :=
  .ite (.ok h.update) (.ok h.update.setNum)

theorem execProbeSelectApply (h : Keeps s t) : Goes s (execProbeSelectApply t) := .next h.takeSelects

theorem setCfg {f : CfgState → CfgState} (h : Keeps s t) : Keeps s (State.setCfg f t) := h.update

theorem setLoad {l : LoadS} (h : Keeps s t) : Keeps s (State.setLoad l t) := h.setCfg

theorem setLoader {v : ℕ} (h : Keeps s t) : Keeps s (State.setLoader v t) := h.setState

theorem discardRest {l : LoadS} (h : Keeps s t) : Keeps s (State.discardRest l t) := .ite h h.update

theorem loadResult {l : LoadS} {code far mem : ℕ} (h : Keeps s t) : Keeps s (State.loadResult l code far mem t) := by
  unfold Machine.State.loadResult
  dsimp only
  refine .ite ?_ ?_
  · refine .setCfg ?_
    exact .ite h.setNum.setNum.setNum.bump.setFlag h.setNum.setNum.setNum.bump.setFlag
  · exact .ite h.setNum.setNum.setNum.bump.setFlag h.setNum.setNum.setNum.bump.setFlag

theorem beginLoad {l : LoadS} (h : Keeps s t) : Keeps s (State.beginLoad l t) := h.setLoad.setLoader.setNum.setNum.setNum

theorem nextAuto {l : LoadS} {ok : Bool} (h : Keeps s t) : Keeps s (State.nextAuto l ok t) := by
  unfold Machine.State.nextAuto
  dsimp only
  split
  · exact h
  · exact .ite (.setCfg (.ite h.setFlag h)) (.beginLoad (.setCfg (.ite h.setFlag h)))

theorem scrubEnded {l : LoadS} {ok : Bool} (h : Keeps s t) : Keeps s (State.scrubEnded l ok t) := by
  unfold Machine.State.scrubEnded
  dsimp only
  exact .ite (.setState (.setCfg (.ite h h.bump.setFlag))) (.setCfg (.ite h h.bump.setFlag))

theorem endLoad {l : LoadS} {ok : Bool} (h : Keeps s t) : Keeps s (State.endLoad l ok t) := by
  unfold Machine.State.endLoad
  dsimp only
  split
  · refine .beginLoad ?_
    refine .ite h.setCfg.setLoader.discardRest.nextAuto ?_
    exact .ite h.setCfg.setLoader.discardRest.scrubEnded h.setCfg.setLoader.discardRest
  · refine .ite h.setCfg.setLoader.discardRest.nextAuto ?_
    exact .ite h.setCfg.setLoader.discardRest.scrubEnded h.setCfg.setLoader.discardRest

theorem stopTarget {l : LoadS} (h : Keeps s t) : Keeps s (State.stopTarget l t) := by
  unfold Machine.State.stopTarget
  dsimp only
  refine .setCfg ?_
  refine .foldl ?_ fun _ _ h => h.updateBridge
  refine .ite (.setWhole (.foldl h.isolateChans.clearLogic fun _ _ h => h.setRegion)) ?_
  exact .foldl h.isolateChans.clearLogic fun _ _ h => h.setRegion

theorem failLoad {code far mem : ℕ} (h : Keeps s t) : Keeps s (State.failLoad code far mem t) := by
  unfold Machine.State.failLoad
  dsimp only
  split
  · exact h
  · refine .ite h (.ite h.loadResult.endLoad ?_)
    exact .foldl (.setLoader (.setLoad (.ite h.loadResult.stopTarget h.loadResult))) fun _ _ h => .ite h h.setRegSt

theorem setHost {f : HostState → HostState} (h : Keeps s t) : Keeps s (State.setHost f t) := h.update

theorem giveWindow {n : ℕ} (h : Keeps s t) : Keeps s (State.giveWindow n t) := by
  unfold Machine.State.giveWindow
  dsimp only
  split
  · exact h.setHost.bump
  · exact h.setHost.bump.setLoad

theorem pumpWindow (h : Keeps s t) : Keeps s (State.pumpWindow t) := by
  unfold Machine.State.pumpWindow
  dsimp only
  refine .giveWindow ?_
  refine .giveWindow ?_
  refine .ite h.setHost.bump ?_
  split
  · exact h.setHost.bump.setHost.bump
  · exact h.setHost.bump.setHost.bump.beginLoad

theorem takeTable {l : LoadS} (h : Keeps s t) : Keeps s (State.takeTable l t) :=
  .foldl h fun _ _ h => .ite h (.ite h.setNum h.setNum.setRegSt)

theorem takeIso {l : LoadS} (h : Keeps s t) : Keeps s (State.takeIso l t) := .foldl h fun _ _ h => h.setRegion

theorem takeLast {l : LoadS} {before : State} (h : Keeps s t) : Keeps s (State.takeLast l before t) :=
  .foldl h fun _ _ h => h.setRegion

theorem enterLoading {l : LoadS} (h : Keeps s t) : Keeps s (State.enterLoading l t) :=
  .setLoader (.clearFrames (.ite (.foldl h.takeLast fun _ _ h => .ite h h.stopLoops) h.takeLast))

theorem execLoadHeader {hostBytes : List (ℕ × Byte)} {memFail : Option (MemStatus × BitVec 64)} (h : Keeps s t) :
    Goes s (execLoadHeader hostBytes memFail t) := by
  unfold Machine.execLoadHeader
  dsimp only
  split
  · exact .next h.pumpWindow
  · refine .ite (.next h.pumpWindow) ?_
    split
    · exact .next h.pumpWindow.setLoad.failLoad
    · split
      · exact .next (.ite h.pumpWindow.setLoad h.pumpWindow.setLoad.failLoad)
      · refine .ite (.next h.pumpWindow.setLoad.failLoad) ?_
        split
        · exact .next h.pumpWindow.setLoad.failLoad
        · split
          · exact .next (.ite h.pumpWindow.setLoad h.pumpWindow.setLoad.failLoad)
          · refine .ite (.next h.pumpWindow.setLoad.setLoad.failLoad) ?_
            split
            · exact .next h.pumpWindow.setLoad.setLoad.failLoad
            · exact .next h.pumpWindow.setLoad.setLoad.setLoad.setNum.enterLoading

theorem packet {type reg : ℕ} {memFail : Option (MemStatus × BitVec 64)} {act : ℕ → LoadS → State → State}
    (h : Keeps s t) (hact : ∀ a0 a1 u, Keeps s u → Keeps s (act a0 a1 u)) :
    Keeps s (State.packet type reg memFail act t) := by
  unfold Machine.State.packet
  dsimp only
  split
  · exact h.pumpWindow
  · refine .ite h.pumpWindow ?_
    split
    · exact h.pumpWindow
    · exact h.pumpWindow.failLoad
    · exact .ite h.pumpWindow.failLoad (.ite h.pumpWindow (hact _ _ _ h.pumpWindow))

theorem execPacketNop (h : Keeps s t) : Goes s (execPacketNop t) := .next (h.packet (fun _ _ _ h => h.setLoad))

theorem writeReg {reg : ℕ} {bad : ℕ → Bool} {set : ℕ → LoadS → LoadS} (h : Keeps s t) :
    Keeps s (State.writeReg reg bad set t) := by
  unfold Machine.State.writeReg
  refine h.packet (fun _ _ _ h => ?_)
  split
  · exact h
  · exact h.failLoad
  · exact .ite h.failLoad h.setLoad

theorem execWriteFar (h : Keeps s t) : Goes s (execWriteFar t) := .next h.writeReg

theorem execWriteStartseq (h : Keeps s t) : Goes s (execWriteStartseq t) := .next h.writeReg

theorem execWriteStartdly (h : Keeps s t) : Goes s (execWriteStartdly t) := .next h.writeReg

theorem writeFrames {memFail : Option (MemStatus × BitVec 64)} {z : ℕ} (h : Keeps s t) :
    Keeps s (State.writeFrames memFail z t) := by
  induction z generalizing t with
  | zero => exact h
  | succ n ih =>
    rw [Machine.State.writeFrames]
    dsimp only
    split
    · exact h
    · refine .ite h ?_
      refine .ite h.failLoad (.ite h.failLoad ?_)
      split
      · exact h
      · exact h.failLoad
      · exact .ite h.failLoad (ih (.setLoad (.ite h h.putFrame.bump.bump)))

theorem execPacketFrames {memFail : Option (MemStatus × BitVec 64)} (h : Keeps s t) :
    Goes s (execPacketFrames memFail t) := by
  unfold Machine.execPacketFrames
  dsimp only
  split
  · exact .next (h.packet (fun _ _ _ h => h.setLoad))
  · refine .ite (.next ((h.packet (fun _ _ _ h => h.setLoad)).writeFrames)) ?_
    exact .next (h.packet (fun _ _ _ h => h.setLoad))

theorem actStep {l : LoadS} {code : ℕ} (h : Keeps s t) : Keeps s (State.actStep l code t) := by
  unfold Machine.State.actStep
  dsimp only
  refine .foldl ?_ fun _ _ h => h.updateBridge
  refine .ite ?_ ?_
  · refine .loadResets ?_
    refine .ite ?_ ?_
    · refine .setCfg ?_
      exact .ite (.setWhole (.foldl h fun _ _ h => h.setRegion)) (.foldl h fun _ _ h => h.setRegion)
    · exact .ite (.setWhole (.foldl h fun _ _ h => h.setRegion)) (.foldl h fun _ _ h => h.setRegion)
  · refine .ite ?_ ?_
    · refine .setCfg ?_
      exact .ite (.setWhole (.foldl h fun _ _ h => h.setRegion)) (.foldl h fun _ _ h => h.setRegion)
    · exact .ite (.setWhole (.foldl h fun _ _ h => h.setRegion)) (.foldl h fun _ _ h => h.setRegion)

theorem beginUp {l : LoadS} {k : ℕ} (h : Keeps s t) : Keeps s (State.beginUp l k t) := h.setLoad.actStep

theorem reachRunning {l : LoadS} (h : Keeps s t) : Keeps s (State.reachRunning l t) := by
  unfold Machine.State.reachRunning
  dsimp only
  refine .endLoad ?_
  refine .loadResult ?_
  refine .ite ?_ ?_
  · refine .setState ?_
    refine .setWhole ?_
    refine .ite (.setNum (.setBytes (.setBytes (.foldl h fun _ _ h => h.setRegion.setRegSt)))) ?_
    exact .setBytes (.setBytes (.foldl h fun _ _ h => h.setRegion.setRegSt))
  · exact .foldl h fun _ _ h => h.setRegion.setRegSt

theorem execPacketEnd (h : Keeps s t) : Goes s (execPacketEnd t) := by
  unfold Machine.execPacketEnd
  dsimp only
  refine .next ?_
  refine h.packet (fun _ _ _ h => ?_)
  refine .ite h.failLoad ?_
  split
  · exact h.failLoad
  · split
    · exact .ite h h.failLoad
    · refine .ite h.setLoad.setLoader.failLoad (.ite h.setLoad.setLoader.failLoad ?_)
      refine .beginUp ?_
      refine .ite ?_ ?_
      · exact .foldl (.foldl h.setLoad.setLoader.setLoader fun _ _ h => h.setRegSt) fun _ _ h => .ite h h.startLoops
      · exact .foldl h.setLoad.setLoader.setLoader fun _ _ h => h.setRegSt

theorem execStartUpStep (h : Keeps s t) : Goes s (execStartUpStep t) := by
  unfold Machine.execStartUpStep
  split
  · exact .next h
  · exact .ite (.next h) (.ite (.next h) (.ite (.next h.reachRunning) (.next h.beginUp)))

theorem execLockTimeout (h : Keeps s t) : Goes s (execLockTimeout t) := by
  unfold Machine.execLockTimeout
  split
  · exact .next h
  · exact .ite (.next h.failLoad) (.next h)

theorem execLoadIdleTimeout (h : Keeps s t) : Goes s (execLoadIdleTimeout t) := by
  unfold Machine.execLoadIdleTimeout
  split
  · exact .next h
  · exact .ite (.next h.failLoad) (.next h)

theorem writeLoadAbort {z : Val} (h : Keeps s t) : Accepts s (writeLoadAbort z t) := .ok h.failLoad

theorem execLoadAbort {q : Req} {val : List Byte} (h : Keeps s t) : Goes s (execLoadAbort q val t) :=
  .next (h.serveOwn (fun _ _ h => h.writeLoadAbort))

theorem execTargetCleared (h : Keeps s t) : Goes s (execTargetCleared t) := by
  unfold Machine.execTargetCleared
  dsimp only
  split
  · exact .next h
  · refine .ite (.next h) ?_
    refine .next ?_
    refine .endLoad ?_
    refine .ite (.setState (.foldl h.clearFrames.stopTarget fun _ _ h => .ite h h.setNum.setRegSt)) ?_
    exact .foldl h.clearFrames.stopTarget fun _ _ h => .ite h h.setRegSt

theorem writeLoadFromMemory {z : Val} (h : Keeps s t) : Accepts s (writeLoadFromMemory z t) :=
  .ite .error (.ok h.beginLoad)

theorem execLoadFromMemory {q : Req} {val : List Byte} (h : Keeps s t) : Goes s (execLoadFromMemory q val t) :=
  .next (h.serveOwn (fun _ _ h => h.writeLoadFromMemory))

theorem portBytes {width : ℕ} {b : List Byte} (h : Keeps s t) : Keeps s (State.portBytes width b t) := by
  unfold Machine.State.portBytes
  dsimp only
  split
  · exact h.setLoad
  · split
    · exact h.setCfg.beginLoad
    · exact h.setCfg

theorem portEdge {spd : BitVec 32} (h : Keeps s t) : Keeps s (State.portEdge spd t) := by
  unfold Machine.State.portEdge
  dsimp only
  exact .ite h.setCfg (.ite h.setCfg.failLoad (.ite h.setCfg.setCfg h.setCfg.setCfg.portBytes))

theorem execSlavePortData {edges : List SlaveEdge} (h : Keeps s t) : Goes s (execSlavePortData edges t) :=
  .next (.foldl h fun _ e h => by
    cases e with
    | data spd => exact .ite h.portEdge h)

theorem execSpselRise (h : Keeps s t) : Goes s (execSpselRise t) := .next (.ite h.setCfg.failLoad h.setCfg)

theorem execSpselFall (h : Keeps s t) : Goes s (execSpselFall t) := .next h.setCfg

theorem startAutoload (h : Keeps s t) : Keeps s (State.startAutoload t) :=
  .ite h (.ite h.setFlag (.ite h.setCfg h.setCfg.beginLoad))

theorem writeAutoloadStore {z : Val} (h : Keeps s t) : Accepts s (writeAutoloadStore z t) :=
  .ite .error (.ok h.erase.setCfg)

theorem execAutoloadStore {q : Req} {val : List Byte} (h : Keeps s t) : Goes s (execAutoloadStore q val t) :=
  .next (h.serveOwn (fun _ _ h => h.writeAutoloadStore))

theorem execAutoloadStoreDone (h : Keeps s t) : Goes s (execAutoloadStoreDone t) := by
  unfold Machine.execAutoloadStoreDone
  dsimp only
  split
  · exact .next h
  · refine .next ?_
    refine .setFlag ?_
    refine .setCfg ?_
    refine .program ?_
    refine .program ?_
    refine .program ?_
    split
    · exact h
    · exact h.freshBytes

theorem bar2Error (h : Keeps s t) : Keeps s (State.bar2Error t) := h.bump.setFlag

theorem execBar2Read {offset : BitVec 38} {len : ℕ} {errors : List (ℕ × MemStatus)} (h : Keeps s t) :
    Goes s (execBar2Read offset len errors t) := by
  unfold Machine.execBar2Read
  dsimp only
  exact .ite (.next h) (.ite (.next h) (.ite (.next h.emit) (.next h.bar2Error.emit)))

theorem execBar2Write {offset : BitVec 38} {data : List Byte} {errors : List (ℕ × MemStatus)} (h : Keeps s t) :
    Goes s (execBar2Write offset data errors t) :=
  .ite (.next h) (.next (.ite h (.ite h.pokes h.pokes.bar2Error)))

theorem execBar2ApertureWrite {q : Req} {val : List Byte} (h : Keeps s t) : Goes s (execBar2ApertureWrite q val t) := by
  unfold Machine.execBar2ApertureWrite
  exact .next (h.serveOwn (fun _ _ h => h.plain))

theorem flushMsix (h : Keeps s t) : Keeps s (State.flushMsix t) := .ite h (.foldl h.setHost fun _ _ h => h.emit)

theorem execMsixUnmask {vector : Fin 2048} (h : Keeps s t) : Goes s (execMsixUnmask vector t) := .next h.setHost.flushMsix

theorem execHostReadCompletion {_tag : ℕ} {status : MemStatus} {timedOut : Bool} {_data : List Byte} (h : Keeps s t) :
    Goes s (execHostReadCompletion _tag status timedOut _data t) :=
  .ite (.next h.bump.setFlag) (.ite (.next h.bump.setFlag) (.next h))

theorem leaveUp {st : ℕ} (h : Keeps s t) : Keeps s (State.leaveUp st t) := by
  unfold Machine.State.leaveUp
  dsimp only
  exact .ite h.setState.setNum.setNum.bump.setFlag h.setState.setNum.setNum

theorem execHostLinkDown (h : Keeps s t) : Goes s (execHostLinkDown t) := .ite (.next h.leaveUp) (.next h)

theorem execHotReset (h : Keeps s t) : Goes s (execHotReset t) := .ite (.next h) (.next h.leaveUp.bump.setHost)

theorem dropWindow {code : ℕ} (h : Keeps s t) : Keeps s (State.dropWindow code t) := h.setNum.setNum.bump.setFlag

theorem execWindowWrite {offset : BitVec 23} {data : List Byte} (h : Keeps s t) :
    Goes s (execWindowWrite offset data t) := by
  unfold Machine.execWindowWrite
  refine .ite (.next h) (.ite (.next h.bump.setFlag) ?_)
  exact .ite (.next h.dropWindow) (.ite (.next h.dropWindow) (.next h.setHost.pumpWindow))

theorem writeWindowRestart {z : Val} (h : Keeps s t) : Accepts s (writeWindowRestart z t) := .ite .error (.ok h.setHost)

theorem execWindowRestart {q : Req} {val : List Byte} (h : Keeps s t) : Goes s (execWindowRestart q val t) :=
  .next (h.serveOwn (fun _ _ h => h.writeWindowRestart))

theorem setChan {c k : ℕ} {q : Chan} (h : Keeps s t) : Keeps s (State.setChan c k q t) := h.update

theorem admitReq {c k : ℕ} {r : ChanReq} (h : Keeps s t) : Keeps s (State.admitReq c k r t) :=
  .ite h.setChan.bump h.setChan

theorem execChannelAdmit {c : Cab} {k : Fin 24} {offers : List ChanReq} (h : Keeps s t) :
    Goes s (execChannelAdmit c k offers t) := by
  unfold Machine.execChannelAdmit
  dsimp only
  refine .ite (.next h) ?_
  split
  · exact .next h
  · exact .next h.setChan.admitReq

theorem gddrBad {retries : ℕ} (h : Keeps s t) : Keeps s (State.gddrBad retries t) := h.bump.bump.setFlag

theorem execChannelReadServed {c : Cab} {k : Fin 24} {tag : ℕ} {outcome : ReadOutcome} (h : Keeps s t) :
    Goes s (execChannelReadServed c k tag outcome t) := by
  unfold Machine.execChannelReadServed
  dsimp only
  split
  · exact .next h
  · refine .ite (.next h) ?_
    split
    · exact .next (.ite h.setChan.bump.bump h.setChan.bump)
    · exact .next h.setChan.gddrBad
    · exact .next h.setChan.gddrBad

theorem execChannelWriteComplete {c : Cab} {k : Fin 24} {tag replays : ℕ} (h : Keeps s t) :
    Goes s (execChannelWriteComplete c k tag replays t) := by
  unfold Machine.execChannelWriteComplete
  dsimp only
  split
  · exact .next h
  · exact .ite (.next h) (.next h.setChan.bump)

theorem execBankRefresh {c : Cab} {k : Fin 24} {bank : Fin 16} (h : Keeps s t) : Goes s (execBankRefresh c k bank t) :=
  .next h.setChan

theorem setSets {c : ℕ} {v : List Byte × List Byte} (h : Keeps s t) : Keeps s (State.setSets c v t) := h.update

theorem memoryUp {c point : Nat} (h : Keeps s t) : Keeps s (t.memoryUp c point) :=
  h.setSets.withMem (Memory.wf_filter 0 _ t.mem)

theorem nextChange {l : List ℕ} (h : Keeps s t) : Keeps s (State.nextChange t l) := by
  induction l with
  | nil => exact h.update.setNum.setNum.bump.setState.setFlag
  | cons c l ih =>
    rw [Machine.State.nextChange]
    extract_lets t₁ _
    exact .ite ih (.setState (.setNum (Keeps.update (t := t₁) h.setSets)))

theorem writeOperatingPoint {z : Val} (h : Keeps s t) : Accepts s (writeOperatingPoint z t) :=
  .ite .error (.ite .error (.ok h.setState.nextChange))

theorem execOperatingPointWrite {q : Req} {val : List Byte} (h : Keeps s t) :
    Goes s (execOperatingPointWrite q val t) :=
  .next (h.serveOwn (fun _ _ h => h.writeOperatingPoint))

theorem execCabinetPointChangeDone (h : Keeps s t) : Goes s (execCabinetPointChangeDone t) := by
  unfold Machine.execCabinetPointChangeDone
  dsimp only
  split
  · exact .next h
  · exact .ite (.next h) (.next (.nextChange (.ite h.setSets.setState h)))

theorem execCxlReadResponse {port : Fin 4} {_tag : ℕ} {poison : Bool} {_data : List Byte} (h : Keeps s t) :
    Goes s (execCxlReadResponse port _tag poison _data t) :=
  .ite (.next h) (.ite (.next h.bump.setFlag) (.next h))

theorem execCxlCompletionTimeout {port : Fin 4} {_tag : ℕ} (h : Keeps s t) :
    Goes s (execCxlCompletionTimeout port _tag t) :=
  .ite (.next h) (.next h.bump.setFlag)

theorem execCxlLinkDown {port : Fin 4} (h : Keeps s t) : Goes s (execCxlLinkDown port t) :=
  .ite (.next h) (.next h.setNum.setNum.setState.setFlag)

theorem copyIn {backing frame n : ℕ} {data : List Byte} (h : Keeps s t) :
    Keeps s (State.copyIn backing frame n data t) :=
  .ite h.setCells h.copyMem

theorem execMigrationComplete {t' : ℕ} {asn : Byte} {va : BitVec 48} {c : Cab} {status : MemStatus} {data : List Byte}
    (h : Keeps s t) :
    Goes s (execMigrationComplete t' asn va c status data t) := by
  unfold Machine.execMigrationComplete
  dsimp only
  split
  · refine .ite (.next h.upto) ?_
    split
    · exact .next h.upto.update.copyIn.makeResident.bump.high
    · exact .next h.upto.update.setFlag.logFault.endJob
  · exact .next h.upto

theorem feedTry {q : ℕ} {atRun : Bool} (h : Keeps s t) : Keeps s (State.feedTry q atRun t) := by
  unfold Machine.State.feedTry
  dsimp only
  refine .ite h ?_
  split
  · exact h
  · exact h.putStream.streamEvent.modFeed.setFeedSt

theorem feedsTry {atRun : Bool} (h : Keeps s t) : Keeps s (State.feedsTry atRun t) := .foldl h fun _ _ h => h.feedTry

theorem feedOff {q st : ℕ} (h : Keeps s t) : Keeps s (State.feedOff q st t) := h.dropFeedStream.modFeed.setFeedSt

theorem writeFeedEnable {q : ℕ} {z : Val} (h : Keeps s t) : Accepts s (writeFeedEnable q z t) := by
  unfold Machine.writeFeedEnable
  refine .ite .error ?_
  exact .ite (.ok h.feedOff.setCapture) (.ite (.ok h.setFeedSt) (.ite (.ok h.unpark.setFeedSt.feedTry) (.ok h)))

theorem writeFeedConfig {k q : ℕ} {z : Val} (h : Keeps s t) : Accepts s (writeFeedConfig k q z t) := by
  unfold Machine.writeFeedConfig
  dsimp only
  refine .ite .error ?_
  exact .ite (.ok h) (.ite (.ite (.ok h.feedOff.feedTry) (.ite (.ok h) (.ok h.feedOff))) (.ok h.feedTry))

theorem telemetryWord {src : ℕ} (h : Keeps s t) : Keeps s (State.telemetryWord src t).2 := by
  unfold Machine.State.telemetryWord
  extract_lets cab lost
  cases lost
  · exact h.freshBytes
  · exact h

theorem formFeed {q step : ℕ} (h : Keeps s t) : Keeps s (State.formFeed q step t).2 := by
  unfold Machine.State.formFeed
  dsimp only
  exact .foldlOn Prod.snd h fun _ _ h => h.telemetryWord

theorem captureReach {q : ℕ} (h : Keeps s t) : Keeps s (State.captureReach q t) := .ite h.modFeed.setCapture h

theorem traceStep {q step : ℕ} (h : Keeps s t) : Keeps s (State.traceStep q step t) := by
  unfold Machine.State.traceStep
  dsimp only
  refine .ite h (.ite h.formFeed.modFeed.takeUnknown ?_)
  exact .ite h.formFeed.modFeed.dropRecord.captureReach.takeUnknown h.formFeed.modFeed.modFeed

theorem execStepEnd {edge step : ℕ} (h : Keeps s t) : Goes s (execStepEnd edge step t) := by
  unfold Machine.execStepEnd
  dsimp only
  refine .ite (.next h) ?_
  refine .ite (.next (.enterFrozen (.foldl (.foldl h.update fun _ _ h => h.sendFrame) fun _ _ h => h.traceStep))) ?_
  exact .next (.foldl (.foldl h.update fun _ _ h => h.sendFrame) fun _ _ h => h.traceStep)

theorem captureRecord {q step : ℕ} {l : List Byte} (h : Keeps s t) : Keeps s (State.captureRecord q step l t) :=
  .ite h (.ite h.captureReach h.poke.modFeed.captureReach)

theorem execTraceRecordDelivered {c : Cab} {f : Fin 16} (h : Keeps s t) : Goes s (execTraceRecordDelivered c f t) := by
  unfold Machine.execTraceRecordDelivered
  dsimp only
  split
  · refine .ite (.next h) ?_
    refine .next ?_
    refine .ite (.unknownAll (.captureRecord (.bump (.modFeed (.putStream (.foldl h fun _ _ h => h.poke)))))) ?_
    exact .captureRecord (.bump (.modFeed (.putStream (.foldl h fun _ _ h => h.poke))))
  · exact .next h

theorem execVerdictPortRead {c : Cab} {f : Fin 16} (h : Keeps s t) : Goes s (execVerdictPortRead c f t) := by
  unfold Machine.execVerdictPortRead
  dsimp only
  split
  · exact .next h
  · exact .ite (.next h) (.next h.modTile.modFeed)

theorem mark {q step code : ℕ} (h : Keeps s t) : Keeps s (State.mark q step code t) :=
  h.bump.setFlag.update.setBytes.raise

theorem capture {q step : ℕ} (h : Keeps s t) : Keeps s (State.capture q step t) := by
  unfold Machine.State.capture
  dsimp only
  exact .ite h.bump.setFlag h.bump.setFlag.modFeed.setCapture.captureReach

theorem actVerdict {q step action code : ℕ} (h : Keeps s t) : Keeps s (State.actVerdict q step action code t) := by
  unfold Machine.State.actVerdict
  dsimp only
  split
  · exact h.modFeed.bump.mark
  · exact h.modFeed.bump.capture
  · exact h.modFeed.bump.verdictFreeze
  · exact h.modFeed.bump

theorem withMiss {edge : ℕ} {act : State → State} (h : Keeps s t) (hact : ∀ u, Keeps s u → Keeps s (act u)) :
    Keeps s (State.withMiss edge act t) :=
  .ite (hact _ h.takeMiss) (hact _ h)

theorem execVerdictTaken {c : Cab} {f : Fin 16} {edge : ℕ} (h : Keeps s t) : Goes s (execVerdictTaken c f edge t) := by
  unfold Machine.execVerdictTaken
  dsimp only
  split
  · exact .next h
  · refine .ite (.next h.modFeed.deadlinesBefore.modFeed) ?_
    refine .next ?_
    refine .withMiss ?_ (fun _ h => h.actVerdict)
    split
    · exact h.modFeed.deadlinesBefore.modFeed.modFeed
    · exact h.modFeed.deadlinesBefore.modFeed

theorem execVerdictDeadline {c : Cab} {f : Fin 16} {edge : ℕ} (h : Keeps s t) :
    Goes s (execVerdictDeadline c f edge t) :=
  .ite (.next h) (.next (h.withMiss (fun _ h => h.feedDeadline)))

theorem writeCaptureArm {z : Val} (h : Keeps s t) : Accepts s (writeCaptureArm z t) :=
  .ite .error (.ite (.ok h.modFeed.setCapture) (.ok h))

theorem execCaptureArm {q : Req} {val : List Byte} (h : Keeps s t) : Goes s (execCaptureArm q val t) :=
  .next (h.serveOwn (fun _ _ h => h.writeCaptureArm))

theorem feedsRun (h : Keeps s t) : Keeps s (State.feedsRun t) := .foldl h fun _ _ h => h.modFeed

theorem writeRun {z : Val} (h : Keeps s t) : Accepts s (writeRun z t) := by
  unfold Machine.writeRun
  dsimp only
  refine .ite .error (.ite .error ?_)
  refine .ite ?_ ?_
  · refine .ok ?_
    refine .ite (.enterFrozen (.setLockSt (.update (.ite h.feedsTry.feedsRun.setState h.feedsTry.feedsRun)))) ?_
    exact .setLockSt (.update (.ite h.feedsTry.feedsRun.setState h.feedsTry.feedsRun))
  · refine .ite ?_ ?_
    · refine .ok ?_
      refine .failLock ?_
      refine .setFlag ?_
      refine .ite ?_ ?_
      · exact .setLockSt (.setNum (.update (.thawBridges (.clearFreeze (.update
          (.ite h.feedsTry.feedsRun.setState h.feedsTry.feedsRun))))))
      · exact .setLockSt (.update (.thawBridges (.clearFreeze (.update
          (.ite h.feedsTry.feedsRun.setState h.feedsTry.feedsRun)))))
    · refine .ok ?_
      refine .foldl ?_ fun _ _ h => h.propose
      refine .ite ?_ ?_
      · exact .setLockSt (.setNum (.update (.thawBridges (.clearFreeze (.update
          (.ite h.feedsTry.feedsRun.setState h.feedsTry.feedsRun))))))
      · exact .setLockSt (.update (.thawBridges (.clearFreeze (.update
          (.ite h.feedsTry.feedsRun.setState h.feedsTry.feedsRun)))))

theorem execRun {q : Req} (h : Keeps s t) : Goes s (execRun q t) := .next (h.serveOwn (fun _ _ h => h.writeRun))

theorem bindCtx {d : LDrawer} {c : Machine.Context} {words : List (BitVec 128)} {semas : List (ℕ × BitVec 32)}
    (h : Keeps s t) :
    Keeps s (State.bindCtx d c words semas t) := by
  unfold Machine.State.bindCtx
  dsimp only
  exact h.unpark.modTile

theorem askStream {k : ℕ} {m : StreamS} (h : Keeps s t) : Keeps s (State.askStream k m t) :=
  .ite h.putStream (.ite h.setStreamSt h)

theorem askJob {id : ℕ} {j : JobS} {recovery : Bool} (h : Keeps s t) : Keeps s (State.askJob id j recovery t) :=
  .foldl (.foldl h fun _ _ h => h.askStop) fun _ _ h => h.askStream

theorem resumeCtx {g x : ℕ} (h : Keeps s t) : Keeps s (State.resumeCtx g x t) :=
  .ite h (.ite h.modDr (.ite h.modDr.goOn.grantBank h.modDr.goOn))

theorem resumeTile {g : ℕ} (h : Keeps s t) : Keeps s (State.resumeTile g t) := .foldl h fun _ _ h => .ite h.resumeCtx h

theorem resumeStream {k : ℕ} {m : StreamS} {j : JobS} (h : Keeps s t) : Keeps s (State.resumeStream k m j t) := by
  unfold Machine.State.resumeStream
  dsimp only
  refine .ite h (.ite h.setStreamSt ?_)
  split
  · exact .ite h.setStreamSt h.setStreamSt.raiseFault
  · exact .startStream (.ite h.bump h)

theorem resumeStreams {id : ℕ} (h : Keeps s t) : Keeps s (State.resumeStreams id t) := by
  unfold Machine.State.resumeStreams
  dsimp only
  split
  · exact h
  · exact .foldl h fun _ _ h => h.resumeStream

theorem resumeJob {id : ℕ} {j : JobS} (h : Keeps s t) : Keeps s (State.resumeJob id j t) :=
  .resumeStreams (.foldl h fun _ _ h => h.resumeCtx)

theorem assignStopped {id : ℕ} {d : LDrawer} {words : List (BitVec 128)} (h : Keeps s t) :
    Keeps s (State.assignStopped id d words t) :=
  h.bindCtx.askStop

theorem restoreDrawer {q : SavedDrawer} {d : LDrawer} {words : List (BitVec 128)} (h : Keeps s t) :
    Keeps s (State.restoreDrawer q d words t) :=
  .setCells (.modTile (.ite h h.assignStopped))

theorem moveStreams {a b : LDrawer} {id : ℕ} (h : Keeps s t) : Keeps s (State.moveStreams a b id t) :=
  .foldl h fun _ _ h => h.putStream

theorem moveDrawer {id : ℕ} {a b : LDrawer} (h : Keeps s t) : Keeps s (State.moveDrawer id a b t) := by
  unfold Machine.State.moveDrawer
  dsimp only
  split
  · exact h.releaseCtx.restoreDrawer.moveStreams.feedMoved
  · exact h.releaseCtx.restoreDrawer.moveStreams.feedMoved.putJob

theorem dropSlots {id : ℕ} (h : Keeps s t) : Keeps s (State.dropSlots id t) := .foldl h fun _ _ h => h.setColl

theorem putSlots {l : List (ℕ × ℕ × Slot × List Entry)} (h : Keeps s t) : Keeps s (State.putSlots l t) :=
  .foldl h fun _ _ h => h.setColl

theorem moveXfer {id : ℕ} {x : Xfer} (h : Keeps s t) : Keeps s (State.moveXfer id x t) := by
  unfold Machine.State.moveXfer
  dsimp only
  split
  · exact h
  · refine .ite (.ite h h.putJob.remoteAsk) ?_
    split
    · rename_i heq
      have h' := of_snd h.takeDone heq
      exact h
    · rename_i heq
      have h' := of_snd h.takeDone heq
      exact h'.putJob

theorem moveXfers {id : ℕ} (h : Keeps s t) : Keeps s (State.moveXfers id t) := by
  unfold Machine.State.moveXfers
  split
  · exact h
  · exact .foldl h fun _ _ h => h.moveXfer

theorem voidSlot {a : ℕ} (h : Keeps s t) : Keeps s (State.voidSlot a t) := by
  unfold Machine.State.voidSlot
  dsimp only
  split
  · exact h.update
  · exact h

theorem unCommit {id a : ℕ} (h : Keeps s t) : Keeps s (State.unCommit id a t) := by
  unfold Machine.State.unCommit
  dsimp only
  split
  · split
    · exact h.voidSlot.putJob.moveXfers
    · exact h.voidSlot
  · exact h.voidSlot.poke

theorem segCells {j : JobS} {c : ℕ} {g : LSegment} (h : Keeps s t) : Keeps s (State.segCells j c g t).2 := by
  unfold Machine.State.segCells
  dsimp only
  split
  · exact h
  · refine .foldlOn Prod.snd h fun u a h => ?_
    split
    · exact h
    · split
      · exact h.freshBytes
      · exact h

theorem ckptParts {j : JobS} {v : Saved} (h : Keeps s t) : Keeps s (State.ckptParts j v t).2.2 := by
  unfold Machine.State.ckptParts
  dsimp only
  exact .foldlOn (Prod.snd ∘ Prod.snd) (.foldlOn Prod.snd
    (.foldlOn Prod.snd h fun _ _ h => h.freshBytes) fun _ _ h => h.freshBytes) fun _ _ h => h.segCells

theorem writeCkpt {id n z : ℕ} (h : Keeps s t) : Keeps s (State.writeCkpt id n z t) := by
  induction z generalizing t with
  | zero => exact h
  | succ n ih =>
    rw [Machine.State.writeCkpt]
    dsimp only
    split
    · exact h.moveXfers
    · refine .ite h.moveXfers (.ite (ih h.moveXfers.unCommit.putJob) ?_)
      refine .ite ?_ ?_
      · split
        · exact ih h.moveXfers.ckptParts.update.putJob
        · exact ih (.putJob (.foldl h.moveXfers.ckptParts.update fun _ _ h => h.setCells))
      · split
        · exact h.moveXfers.putJob.moveXfers
        · exact h.moveXfers.poke.putJob

theorem commitSlot {id a : ℕ} (h : Keeps s t) : Keeps s (State.commitSlot id a t) := by
  unfold Machine.State.commitSlot
  dsimp only
  split
  · refine .putJob ?_
    split
    · exact h.update
    · exact h
  · split
    · exact h.update
    · exact h

theorem startRung5 {id : ℕ} {r : FaultRec} (h : Keeps s t) : Keeps s (State.startRung5 id r t) := by
  unfold Machine.State.startRung5
  dsimp only
  split
  · exact h.logFault
  · refine .ite h.recoverJob ?_
    refine .recoverJob ?_
    refine .askJob ?_
    refine .putJob ?_
    refine .foldl ?_ fun _ _ h => h.feedRecover
    refine .supersede ?_
    split
    · exact .ite h.unCommit h
    · exact h

theorem gddrFault {r : FaultRec} (h : Keeps s t) : Keeps s (State.gddrFault r t) := by
  unfold Machine.State.gddrFault
  dsimp only
  split
  · split
    · exact .ite h.startRung5 h.invalidate.putLeaves.update.logFault
    · exact h.startRung5
  · exact h.startRung5

theorem askAgain {k n : ℕ} (h : Keeps s t) : Keeps s (State.askAgain k n t) := by
  unfold Machine.State.askAgain
  split
  · exact h
  · split
    · exact h
    · split
      · exact h.takeDone.remoteAsk
      · exact h
      · exact h.putStream

theorem reRequest {c : ℕ} (h : Keeps s t) : Keeps s (State.reRequest c t) := by
  unfold Machine.State.reRequest
  dsimp only
  split
  · exact h.fresh
  · exact h.fresh.askAgain

theorem gddrMech (h : Keeps s t) : Keeps s (State.gddrMech t).2 := h.fresh

theorem badUnit {k : ℕ} {m : StreamS} {n pa : ℕ} (h : Keeps s t) : Keeps s (State.badUnit k m n pa t) := by
  unfold Machine.State.badUnit
  dsimp only
  split
  · exact h.putStream.logFault.endJob
  · exact h.putStream.logFault.endJob
  · exact h.putStream.logFault.endJob
  · exact h.gddrMech.putStream.gddrFault
  · exact h.putStream.startRung5

theorem unitFails {k : ℕ} {m : StreamS} {n pa : ℕ} {st : MemStatus} (h : Keeps s t) :
    Keeps s (State.unitFails k m n pa st t) := by
  unfold Machine.State.unitFails
  dsimp only
  split
  · exact h
  · exact h.streamError
  · exact h.putStream
  · exact h.badUnit

theorem unitData {k : ℕ} {u' : OutUnit} {status : MemStatus} {data : List Byte} (h : Keeps s t) :
    Keeps s (State.unitData k u' status data t).2 := by
  unfold Machine.State.unitData
  split
  · exact h.takeDone
  · exact h
  · exact h

theorem reattach {k : ℕ} (h : Keeps s t) : Keeps s (State.reattach k t) := by
  unfold Machine.State.reattach
  dsimp only
  split
  · exact h
  · exact .ite h h.putStream.bump

theorem intoWindow {k : ℕ} {status : MemStatus} {data : List Byte} (h : Keeps s t) :
    Keeps s (State.intoWindow k status data t) := by
  unfold Machine.State.intoWindow
  split
  · exact h
  · split
    · exact h
    · split
      · rename_i heq
        have h' := of_snd h.unitData heq
        exact h
      · rename_i heq
        have h' := of_snd h.unitData heq
        exact h'.poke.putStream
      · rename_i heq
        have h' := of_snd h.unitData heq
        exact h'.unitFails

theorem fromWindow {k i : ℕ} {status : MemStatus} (h : Keeps s t) : Keeps s (State.fromWindow k i status t) := by
  unfold Machine.State.fromWindow
  dsimp only
  split
  · exact h
  · split
    · exact h
    · refine .ite h ?_
      split
      · exact h.poke.putStream.reattach.checkDone
      · exact h
      · exact h.streamError
      · exact h.startRung5

theorem deliverTo {k i : ℕ} {m : StreamS} {status : MemStatus} {data : List Byte} (h : Keeps s t) :
    Keeps s (State.deliverTo k i m status data t) := by
  unfold Machine.State.deliverTo
  dsimp only
  refine .ite h.fromWindow ?_
  split
  · exact .ite h.intoWindow.fromWindow h.intoWindow
  · exact h.intoWindow

theorem execUnitDelivered {c : Cab} {s' : StreamNo} {receiver : Fin 64} {status : MemStatus} {data : List Byte}
    (h : Keeps s t) :
    Goes s (execUnitDelivered c s' receiver status data t) := by
  unfold Machine.execUnitDelivered
  dsimp only
  split
  · exact .next h
  · refine .ite (.next h) ?_
    refine .ite ?_ ?_
    · split
      · exact .next h
      · split
        · rename_i heq
          have h' := of_snd h.unitData heq
          exact .next h
        · rename_i heq
          have h' := of_snd h.unitData heq
          exact .next h'.putStream.evictionsGoOn
    · refine .ite (.ite (.next h) (.next h.deliverTo.evictionsGoOn)) ?_
      split
      · exact .next h
      · refine .ite (.next h) ?_
        split
        · rename_i heq
          have h' := of_snd h.unitData heq
          exact .next h
        · rename_i heq
          have h' := of_snd h.unitData heq
          exact .next h'.poke.putStream.checkDone.evictionsGoOn
        · rename_i heq
          have h' := of_snd h.unitData heq
          exact .next h'.unitFails.evictionsGoOn

theorem execUnitVisible {c : Cab} {s' : StreamNo} {n : BitVec 32} {status : MemStatus} (h : Keeps s t) :
    Goes s (execUnitVisible c s' n status t) := by
  unfold Machine.execUnitVisible
  dsimp only
  split
  · exact .next h
  · split
    · exact .next h
    · refine .ite (.next h) ?_
      split
      · refine .next ?_
        split
        · exact h.takeDone
        · exact h
      · refine .next ?_
        refine .evictionsGoOn ?_
        refine .putWrite ?_
        split
        · split
          · exact h.takeDone
          · exact h
        · refine .storeAt ?_
          split
          · exact h.takeDone
          · exact h
      · refine .next ?_
        refine .evictionsGoOn ?_
        refine .unitFails ?_
        split
        · exact h.takeDone
        · exact h

theorem execStreamHaltComplete {c : Cab} {s' : StreamNo} (h : Keeps s t) : Goes s (execStreamHaltComplete c s' t) := by
  unfold Machine.execStreamHaltComplete
  dsimp only
  split
  · exact .next h
  · split
    · exact .next h
    · exact .ite (.next h) (.ite (.next h.formRecord) (.next h.formRecord.startRung5))

theorem execPassCommit {g : Tile} {x : Ctx} (h : Keeps s t) : Goes s (execPassCommit g x t) :=
  .next h.commitOldest.movePort

theorem discardPass {g x p : ℕ} (h : Keeps s t) : Keeps s (State.discardPass g x p t) :=
  .ite h (.ite h.bump.modDr.stopCtx h.bump.modDr)

theorem replay {g x : ℕ} (h : Keeps s t) : Keeps s (State.replay g x t) := .ite h.modDr h

theorem discardTile {g : ℕ} (h : Keeps s t) : Keeps s (State.discardTile g t) := by
  unfold Machine.State.discardTile
  refine .foldl h fun u a h => ?_
  split
  · exact h.discardPass
  · exact h

theorem replayTile {g : ℕ} (h : Keeps s t) : Keeps s (State.replayTile g t) := .foldl h fun _ _ h => h.replay

theorem noteMark {k t' : ℕ} (h : Keeps s t) : Keeps s (State.noteMark k t' t).2.2 := h.update

theorem keepSig {g x : ℕ} {sig : List ℕ} (h : Keeps s t) : Keeps s (State.keepSig g x sig t) := .ite h.modDr h

theorem loseDrawer {g x : ℕ} {r : FaultRec} (h : Keeps s t) : Keeps s (State.loseDrawer g x r t) := by
  unfold Machine.State.loseDrawer
  dsimp only
  split
  · exact .recoverJob (.foldl h fun _ _ h => h.askStop)
  · exact h

theorem retireTile {g : ℕ} {r : FaultRec} (h : Keeps s t) : Keeps s (State.retireTile g r t) := by
  unfold Machine.State.retireTile
  dsimp only
  refine .ite h.setRetired.persist.setFlag.setFlag.supersede.logFault ?_
  exact .foldl h.setRetired.persist.setFlag.setFlag.supersede fun _ _ h => h.loseDrawer

theorem sharedFault {g : ℕ} {f : FaultInfo} {r : FaultRec} {discard : State → State} {act : FaultRec → State → State}
    (h : Keeps s t) (hdiscard : ∀ u, Keeps s u → Keeps s (discard u)) (hact : ∀ a0 u, Keeps s u → Keeps s (act a0 u)) :
    Keeps s (State.sharedFault g f r discard act t) := by
  unfold Machine.State.sharedFault
  dsimp only
  refine .ite ((hdiscard _ (.foldl h.noteMark fun _ _ h => h.keepSig)).retireTile) ?_
  exact hact _ _ (hdiscard _ (.foldl h.noteMark fun _ _ h => h.keepSig))

theorem beginRung {g z : ℕ} (h : Keeps s t) : Keeps s (State.beginRung g z t) := by
  induction z generalizing t with
  | zero => exact h
  | succ n ih =>
    rw [Machine.State.beginRung]
    dsimp only
    split
    · exact h
    · exact .ite (ih h.closeRungs) (.foldl h fun _ _ h => .ite h.askStop h)

theorem queueTile {g : ℕ} {w : RungWork} {r : FaultRec} (h : Keeps s t) : Keeps s (State.queueTile g w r t) :=
  .ite h.queueRung.beginRung h.queueRung

theorem siteFault {g shelf site : ℕ} {f : FaultInfo} {hard : Bool} {r : FaultRec} {rung : ℕ} (h : Keeps s t) :
    Keeps s (State.siteFault g shelf site f hard r rung t) := by
  unfold Machine.State.siteFault
  dsimp only
  refine .ite ?_ ?_
  · refine .queueTile ?_
    refine .setFlag ?_
    refine .ite h.noteMark ?_
    split
    · exact h.noteMark.modDr
    · exact h.noteMark
  · refine .logFault ?_
    refine .ite h.noteMark ?_
    split
    · exact h.noteMark.modDr
    · exact h.noteMark

theorem rewriteStore {g : ℕ} (h : Keeps s t) : Keeps s (State.rewriteStore g t) := by
  unfold Machine.State.rewriteStore
  dsimp only
  refine .foldl h fun u a h => ?_
  split
  · exact h
  · split
    · exact h
    · exact h.modTile

theorem coreFault {f : FaultInfo} {g : ℕ} {x : Option ℕ} {hard : Bool} {r : FaultRec} (h : Keeps s t) :
    Keeps s (State.coreFault f g x hard r t) := by
  unfold Machine.State.coreFault
  dsimp only
  refine .replayTile ?_
  split
  · refine .siteFault ?_
    split
    · exact h.discardPass
    · exact h
  · refine .logFault ?_
    split
    · exact h.discardPass
    · exact h

theorem committedFault {f : FaultInfo} {g x : ℕ} {r : FaultRec} (h : Keeps s t) :
    Keeps s (State.committedFault f g x r t) := by
  unfold Machine.State.committedFault
  dsimp only
  refine .coreFault ?_
  refine .loseDrawer ?_
  split
  · exact h.discardPass
  · exact h

theorem jobFault {r : FaultRec} (h : Keeps s t) : Keeps s (State.jobFault r t) := by
  unfold Machine.State.jobFault
  split
  · exact h.loseDrawer
  · exact h.startRung5

theorem tileFault {f : FaultInfo} {g : ℕ} {x : Option ℕ} {r : FaultRec} (h : Keeps s t) :
    Keeps s (State.tileFault f g x r t) := by
  unfold Machine.State.tileFault
  refine .ite ?_ (.ite ?_ (.ite ?_ (.ite ?_ ?_)))
  · exact h.sharedFault (fun _ h => h.discardTile) (fun _ _ h => h.logFault)
  · refine h.sharedFault (fun _ h => ?_) (fun _ _ h => ?_)
    · split
      · exact h.discardPass
      · exact h
    · split
      · exact h.logFault
      · exact h.loseDrawer
  · refine h.sharedFault (fun _ h => h) (fun _ _ h => ?_)
    split
    · exact h.rewriteStore.logFault
    · exact h.loseDrawer
  · exact h.sharedFault (fun _ h => h) (fun _ _ h => h.fresh.bump.logFault)
  · refine h.sharedFault (fun _ h => h) (fun _ _ h => ?_)
    split
    · exact h.jobFault
    · exact h.loseDrawer

theorem deviceFault {f : FaultInfo} {r : FaultRec} (h : Keeps s t) : Keeps s (State.deviceFault f r t) := by
  unfold Machine.State.deviceFault
  dsimp only
  refine .ite (.ite h.bump.logFault h.jobFault) ?_
  refine .ite ?_ ?_
  · split
    · exact .ite h.reRequest.logFault (.ite h.logFault h.startRung5)
    · exact .ite h.logFault h.startRung5
  · exact .ite h.gddrFault (.ite h.bump.logFault (.ite h.logFault.endJob (.ite h.setFlag.logFault h.logFault)))

theorem corrected {f : FaultInfo} (h : Keeps s t) : Keeps s (State.corrected f t) := by
  unfold Machine.State.corrected
  dsimp only
  split
  · exact .ite h.bump.bump h.bump
  · exact h.bump

theorem execFaultReport {t' : ℕ} {f : FaultInfo} (h : Keeps s t) : Goes s (execFaultReport t' f t) := by
  unfold Machine.execFaultReport
  dsimp only
  refine .ite (.next h.upto) (.ite (.next h.upto.corrected) ?_)
  refine .ite ?_ ?_
  · split
    · refine .next ?_
      refine .siteFault ?_
      refine .setFlag ?_
      split
      · exact h.upto.checkerFault
      · exact h.upto
    · refine .next ?_
      refine .logFault ?_
      refine .setFlag ?_
      split
      · exact h.upto.checkerFault
      · exact h.upto
  · split
    · refine .ite ?_ ?_
      · refine .next ?_
        refine .coreFault ?_
        split
        · exact h.upto.checkerFault
        · exact h.upto
      · refine .ite ?_ ?_
        · split
          · refine .next ?_
            refine .coreFault ?_
            split
            · exact h.upto.checkerFault
            · exact h.upto
          · refine .ite ?_ ?_
            · refine .next ?_
              refine .coreFault ?_
              split
              · exact h.upto.checkerFault
              · exact h.upto
            · refine .next ?_
              refine .committedFault ?_
              split
              · exact h.upto.checkerFault
              · exact h.upto
        · refine .ite ?_ ?_
          · refine .next ?_
            refine .replayTile ?_
            refine .tileFault ?_
            split
            · exact h.upto.checkerFault
            · exact h.upto
          · refine .next ?_
            refine .deviceFault ?_
            split
            · exact h.upto.checkerFault
            · exact h.upto
    · refine .next ?_
      refine .deviceFault ?_
      split
      · exact h.upto.checkerFault
      · exact h.upto

theorem execLinkReplay {t' : ℕ} {link : Byte} (h : Keeps s t) : Goes s (execLinkReplay t' link t) :=
  .next h.upto.bump.logFault

theorem fence {g : ℕ} {l : List (ℕ × ℕ)} {code : ℕ} (h : Keeps s t) : Keeps s (State.fence g l code t) :=
  h.setSites.persist

theorem settleTile {g : ℕ} (h : Keeps s t) : Keeps s (State.settleTile g t) := h.setState

theorem benchHeld {g : ℕ} {bad : List (ℕ × ℕ)} {change : State → State} (h : Keeps s t)
    (hchange : ∀ u, Keeps s u → Keeps s (change u)) :
    Keeps s (State.benchHeld g bad change t) := by
  unfold Machine.State.benchHeld
  dsimp only
  exact ((hchange _ h.modTile.setState.setNum).settleTile).modTile

theorem execCoreFenceWithSpare {t' : ℕ} {g : Tile} {shelf : Fin 16} {site : Fin 17} {failing : List (Fin 16 × Fin 17)}
    (h : Keeps s t) :
    Goes s (execCoreFenceWithSpare t' g shelf site failing t) := by
  unfold Machine.execCoreFenceWithSpare
  dsimp only
  split
  · exact .next h.upto
  · refine .ite (.next h.upto) ?_
    exact .next (.resumeTile (.beginRung (.foldl (.foldl ((h.upto.benchHeld
      (fun _ h => h.fence)).dropRungs) fun _ _ h => .ite h.queueRung h.logFault) fun _ _ h => h.queueRung)))

theorem relay {g row : ℕ} {r : FaultRec} (h : Keeps s t) : Keeps s (State.relay g row r t).2 := by
  unfold Machine.State.relay
  refine .foldlOn Prod.snd h fun p x h => ?_
  obtain ⟨all, u⟩ := p
  dsimp -zeta only at h ⊢
  extract_lets id u₁
  have h₁ : Keeps s u₁ := h.setJobSt
  clear_value u₁
  split
  · exact h
  · split
    · exact h
    · split
      · exact h₁.loseDrawer
      · extract_lets _ u₂ u₃
        have h₂ : Keeps s u₂ := h₁.moveDrawer
        have h₃ : Keeps s u₃ := .ite h₂.resumeCtx h₂
        clear_value u₃
        exact .setJobSt h₃

theorem closeRow {w : RungWork} {all : Bool} (h : Keeps s t) : Keeps s (State.closeRow w all t) :=
  .ite h.closeRungs h.dropRungs

theorem removeRow {g shelf : ℕ} {w : RungWork} {r : FaultRec} (h : Keeps s t) :
    Keeps s (State.removeRow g shelf w r t) :=
  h.settleTile.setFlag.relay.closeRow.beginRung.resumeTile

theorem execRowRemoval {t' : ℕ} {g : Tile} {shelf : Fin 16} {site : Fin 17} (h : Keeps s t) :
    Goes s (execRowRemoval t' g shelf site t) := by
  unfold Machine.execRowRemoval
  dsimp only
  split
  · exact .next h.upto
  · refine .ite (.next h.upto) (.ite (.next h.upto.removeRow) ?_)
    exact .ite (.next h.upto) (.next (.removeRow (.persist (.ite h.upto.setSites.setSites h.upto.setSites))))

theorem execPendingSpareTest {g : Tile} {shelf : Fin 16} {site : Fin 17} {pass : Bool} (h : Keeps s t) :
    Goes s (execPendingSpareTest g shelf site pass t) := by
  unfold Machine.execPendingSpareTest
  dsimp only
  refine .ite (.next h) ?_
  exact .ite (.next (.foldl h fun _ _ h => h.askStop)) (.next ((h.benchHeld (fun _ h => h.fence)).resumeTile))

theorem recovered {id : ℕ} (h : Keeps s t) : Keeps s (State.recovered id t) := .ite h h.setJobSt

theorem rebuild {id : ℕ} {a : LDrawer} (h : Keeps s t) : Gives s (State.rebuild id a t) := by
  unfold Machine.State.rebuild
  dsimp only
  split
  · exact .none
  · split
    · exact .none
    · split
      · exact .none
      · exact .some h.landCtx.releaseCtx.restoreDrawer.moveStreams.feedMoved.putJob.update.modDr

theorem rebuildAll {id : ℕ} {z : List LDrawer} (h : Keeps s t) : Gives s (State.rebuildAll id z t) := by
  induction z generalizing t with
  | nil => exact .some h
  | cons a r ih =>
    rw [Machine.State.rebuildAll]
    split
    · exact .none
    · rename_i heq
      have h' := h.rebuild _ heq
      exact ih h'

theorem execReplicaTakeover {t' : ℕ} {jobId : BitVec 32} {shard : Byte} {replica : Fin 4} (h : Keeps s t) :
    Goes s (execReplicaTakeover t' jobId shard replica t) := by
  unfold Machine.execReplicaTakeover
  dsimp only
  split
  · refine .ite (.next h.upto) ?_
    split
    · rename_i heq
      have h' := h.upto.rebuildAll _ heq
      exact .next (.foldl h'.closeRungs.recovered fun _ _ h => .ite h.resumeCtx h)
    · exact .next h.upto.dropRungs.startRung5
  · exact .next h.upto

theorem writeReadmit {z : Val} (h : Keeps s t) : Accepts s (writeReadmit z t) :=
  .ite .error (.ite (.ok h) (.ok h.update.setNum))

theorem execReadmitTile {q : Req} {val : List Byte} (h : Keeps s t) : Goes s (execReadmitTile q val t) :=
  .next (h.serveOwn (fun _ _ h => h.writeReadmit))

theorem execReadmission {g : Tile} {failing1 failing2 : List (Fin 16 × Fin 17)} (h : Keeps s t) :
    Goes s (execReadmission g failing1 failing2 t) := by
  unfold Machine.execReadmission
  dsimp only
  refine .ite (.next h) ?_
  refine .next ?_
  refine .setNum ?_
  split
  · exact h.setState.setNum.setSites.setSites.setRetired.persist.settleTile.update
  · exact h.setState.setNum.setSites.setSites.persist.settleTile.update

theorem setWaiting {n : ℕ} {l : List (ℕ × Bool × List Byte)} (h : Keeps s t) : Keeps s (State.setWaiting n l t) :=
  h.update.setNum

theorem queueCpl {n id job status detail runNs : ℕ} {t' : JobTotals} (h : Keeps s t) :
    Keeps s (State.queueCpl n id job status detail runNs t' t) :=
  h.setWaiting

theorem execCompletionRecordWrite {t' : ℕ} {ring : Fin 8} (h : Keeps s t) :
    Goes s (execCompletionRecordWrite t' ring t) := by
  unfold Machine.execCompletionRecordWrite
  dsimp only
  split
  · exact .next h.upto
  · refine .ite (.next h.upto) (.ite (.next h.upto.storeAt.setNum.setWaiting.bump.signal.raise) ?_)
    refine .next ?_
    refine .delJob ?_
    refine .ite h.upto.storeAt.setNum.setWaiting.bump.signal.raise.raiseVal ?_
    exact h.upto.storeAt.setNum.setWaiting.bump.signal.raise

theorem writeSubTail {n : ℕ} {z : Val} (h : Keeps s t) : Accepts s (writeSubTail n z t) := .ite .error (.ok h)

theorem execSubTailWrite {q : Req} {ring : Fin 8} {val : List Byte} (h : Keeps s t) :
    Goes s (execSubTailWrite q ring val t) :=
  .next (h.serveOwn (fun _ _ h => h.writeSubTail))

theorem execCplHeadWrite {q : Req} {ring : Fin 8} {val : List Byte} (h : Keeps s t) :
    Goes s (execCplHeadWrite q ring val t) := by
  unfold Machine.execCplHeadWrite
  exact .next (h.serveOwn (fun _ _ h => h.plain))

theorem writeRingConfig {n : ℕ} {z : Val} (h : Keeps s t) : Accepts s (writeRingConfig n z t) :=
  .ite .error (.ok (.foldl h fun _ _ h => h.setNum))

theorem execJobRingConfigWrite {q : Req} {ring : Fin 8} {sub : BitVec 8} {val : List Byte} (h : Keeps s t) :
    Goes s (execJobRingConfigWrite q ring sub val t) :=
  .ite (.next (h.serveOwn (fun _ _ h => h.writeRingConfig))) (.next h)

theorem takeDescriptor {n : ℕ} {h' : List (ℕ × Byte)} (h : Keeps s t) : Keeps s (State.takeDescriptor n h' t) := by
  unfold Machine.State.takeDescriptor
  dsimp only
  refine .ite h.setNum.queueCpl (.ite h.setNum.queueCpl ?_)
  split
  · exact h.setNum.queueCpl
  · exact .ite h.setNum.update.putJob.raiseVal h.setNum.update.putJob

theorem readRing {n : ℕ} {h' : List (ℕ × Byte)} {z : ℕ} (h : Keeps s t) : Keeps s (State.readRing n h' z t) := by
  induction z generalizing t with
  | zero => exact h
  | succ n ih => exact .ite h (ih h.takeDescriptor)

theorem dropPages {j : JobS} {back : Bool} (h : Keeps s t) : Keeps s (State.dropPages j back t) :=
  .foldl h fun _ _ h => .update (.putLeaves (.invalidate (.ite h.copyOut h)))

theorem unplace {id : ℕ} {j : JobS} (h : Keeps s t) : Keeps s (State.unplace id j t) :=
  .dropSlots (.foldl (.foldl h fun _ _ h => .ite h.releaseCtx h) fun _ _ h => h.unpin.dropStream)

theorem freeAsn {j : JobS} {back : Bool} (h : Keeps s t) : Keeps s (State.freeAsn j back t) := .ite h h.dropPages.update

theorem closeSaved {j : JobS} (h : Keeps s t) : Keeps s (State.closeSaved j t) :=
  .foldl h fun _ _ h => .ite h.streamEvent h

theorem freeJob {id : ℕ} {j : JobS} {back : Bool} (h : Keeps s t) : Keeps s (State.freeJob id j back t) :=
  h.unplace.closeSaved.freeAsn.supersede

theorem execJobEnd {t' : ℕ} {jobId : BitVec 32} (h : Keeps s t) : Goes s (execJobEnd t' jobId t) := by
  unfold Machine.execJobEnd
  dsimp only
  split
  · refine .next ?_
    split
    · exact .ite h.upto.endJob h.upto
    · exact h.upto
  · split
    · refine .next ?_
      split
      · exact .ite h.upto.endJob h.upto
      · exact h.upto
    · refine .ite ?_ ?_
      · refine .next ?_
        split
        · exact .ite h.upto.endJob h.upto
        · exact h.upto
      · refine .next ?_
        refine .queueCpl ?_
        refine .putJob ?_
        refine .freeJob ?_
        split
        · exact .ite h.upto.endJob h.upto
        · exact h.upto

theorem preempt {id : ℕ} {j : JobS} (h : Keeps s t) : Keeps s (State.preempt id j t) :=
  .ite h.setJobSt.askJob (.ite h.putJob h)

theorem makeRoom {j : JobS} {ds : List LDrawer} (h : Keeps s t) : Keeps s (State.makeRoom j ds t) := by
  unfold Machine.State.makeRoom
  split
  · exact h.preempt
  · exact h

theorem mapSegment {j : JobS} {g : LSegment} (h : Keeps s t) : Keeps s (State.mapSegment j g t) := by
  unfold Machine.State.mapSegment
  dsimp only
  refine .foldl h fun u a h => ?_
  refine .ite ?_ ?_
  · split
    · exact .raiseFault (.update (.foldl h fun _ _ h => h.putLeaf))
    · exact .update (.foldl h fun _ _ h => h.putLeaf)
  · exact .update (.foldl h fun _ _ h => h.putLeaf)

theorem bindJob {id : ℕ} {j : JobS} (h : Keeps s t) : Keeps s (State.bindJob id j t) :=
  .foldl h fun _ _ h => h.assignStopped

theorem restoreStream {id : ℕ} {j : JobS} {v : Saved} {anew : Bool} {k : ℕ} {m : StreamS} (h : Keeps s t) :
    Keeps s (State.restoreStream id j v anew k m t) :=
  .ite h.putStream.streamEvent h.putStream

theorem loadSaved {id : ℕ} {j : JobS} {v : Saved} {anew : Bool} (h : Keeps s t) :
    Keeps s (State.loadSaved id j v anew t) := by
  unfold Machine.State.loadSaved
  extract_lets t₁ t₂ t₃
  have h₁ : Keeps s t₁ := .foldl h fun u d h => by
    split
    · exact h
    · exact h.restoreDrawer.modDr
  have h₂ : Keeps s t₂ := .foldl h₁ fun _ _ h => h.restoreStream
  have h₃ : Keeps s t₃ := .putSlots h₂
  clear_value t₃
  exact h₃.update

theorem loadSegment {id : ℕ} {g : LSegment} {cells : List (ℕ × Byte)} (h : Keeps s t) :
    Keeps s (State.loadSegment id g cells t) := by
  unfold Machine.State.loadSegment
  split
  · exact .foldl h fun _ _ h => h.emit
  · split
    · exact h
    · exact h.putJob
  · exact h.setCells

theorem loadSegments {id : ℕ} {j : JobS} {ck : Ckpt} (h : Keeps s t) : Keeps s (State.loadSegments id j ck t) := by
  unfold Machine.State.loadSegments
  dsimp only
  split
  · refine .foldl h.dropPages fun u a h => ?_
    split
    · exact h
    · exact h.loadSegment
  · refine .foldl ?_ fun _ _ h => .foldl h fun _ _ h => h.raiseFault
    refine .foldl h.dropPages fun u a h => ?_
    split
    · exact h
    · exact h.loadSegment

theorem finishRestore {id : ℕ} (h : Keeps s t) : Keeps s (State.finishRestore id t) := by
  unfold Machine.State.finishRestore
  dsimp only
  split
  · exact h.moveXfers
  · refine .ite h.moveXfers ?_
    refine .ite h.moveXfers.putJob.endJob (.ite h.moveXfers ?_)
    exact .feedsTry (.resumeJob (.setJobSt (.putJob (.ite h.moveXfers.setFlag.closeRungs h.moveXfers))))

theorem restoreCkpt {id : ℕ} {ck : Ckpt} (h : Keeps s t) : Keeps s (State.restoreCkpt id ck t) := by
  unfold Machine.State.restoreCkpt
  dsimp only
  split
  · exact h
  · exact h.putJob.loadSegments.loadSaved.finishRestore

theorem notePhase {id : ℕ} {j : JobS} {rank phase epoch : ℕ} (h : Keeps s t) :
    Keeps s (State.notePhase id j rank phase epoch t).2 := by
  unfold Machine.State.notePhase
  dsimp only
  split
  · exact h.update
  · exact h.update

theorem takeRelease {id epoch : ℕ} (h : Keeps s t) : Keeps s (State.takeRelease id epoch t) := by
  unfold Machine.State.takeRelease
  dsimp only
  split
  · exact h
  · split
    · exact h.putJob
    · exact .ite h.putJob.bump.high.putJob.setJobSt h.putJob.bump.high.setJobSt.resumeJob.feedsTry
    · split
      · exact h.restoreCkpt
      · exact h.endJob
    · exact h

theorem releaseGroup {u : State} {id : ℕ} {j : JobS} {r : Option ℕ × State} (h : Keeps s r.2) :
    Keeps s (State.releaseGroup u id j r) := by
  obtain ⟨_ | n, v⟩ := r
  · exact h
  · exact .takeRelease (.foldl (t := v) h fun _ _ h => h.sendGroup)

theorem reportPhase {id phase epoch : ℕ} (h : Keeps s t) : Keeps s (State.reportPhase id phase epoch t) := by
  unfold Machine.State.reportPhase
  dsimp only
  split
  · exact h
  · exact .ite h.putJob.sendGroup h.putJob.notePhase.releaseGroup

theorem groupProgress {id : ℕ} (h : Keeps s t) : Keeps s (State.groupProgress id t) := by
  unfold Machine.State.groupProgress
  split
  · exact h
  · exact .ite h.reportPhase (.ite h.finishRestore h)

theorem execPollInterval {t' : ℕ} {hostBytes : List (ℕ × Byte)} (h : Keeps s t) :
    Goes s (execPollInterval t' hostBytes t) :=
  .next (.foldl (.foldl h.upto fun _ _ h => .ite h.readRing h) fun _ _ h => h.groupProgress)

theorem execCollectiveMessage {t' : ℕ} {source : BitVec 12} {body : List Byte} (h : Keeps s t) :
    Goes s (execCollectiveMessage t' source body t) := by
  unfold Machine.execCollectiveMessage
  dsimp only
  split
  · exact .next h.upto
  · refine .ite (.next h.upto) ?_
    refine .ite (.next h.upto.endJob) (.ite (.next (.ite h.upto.takeRelease h.upto)) ?_)
    exact .ite (.next h.upto) (.next h.upto.notePhase.releaseGroup)

theorem placeJob {id asn : ℕ} {j : JobS} {ds : List LDrawer} {gr : List (ℕ × ℕ × ℕ)} {h' : List (ℕ × Byte)}
    (h : Keeps s t) :
    Keeps s (State.placeJob id asn j ds gr h' t) := by
  unfold Machine.State.placeJob
  dsimp only
  refine .ite (.groupProgress (.bindJob (.foldl h.putJob.setJobSt fun _ _ h => h.mapSegment))) ?_
  split
  · exact .endJob (.bindJob (.foldl h.putJob.setJobSt fun _ _ h => h.mapSegment))
  · refine .ite (.restoreCkpt (.bindJob (.foldl h.putJob.setJobSt fun _ _ h => h.mapSegment))) ?_
    exact .reportPhase (.bindJob (.foldl h.putJob.setJobSt fun _ _ h => h.mapSegment))

theorem execJobPlacement {t' : ℕ} {jobId : BitVec 32} {asn : Byte} {hostBytes : List (ℕ × Byte)} (h : Keeps s t) :
    Goes s (execJobPlacement t' jobId asn hostBytes t) := by
  unfold Machine.execJobPlacement
  dsimp only
  split
  · exact .next h.upto
  · refine .ite (.next h.upto) (.ite (.next h.upto) ?_)
    split
    · exact .next h.upto.endJob
    · split
      · exact .next h.upto.endJob
      · split
        · exact .next h.upto
        · refine .ite (.next h.upto) ?_
          exact .ite (.next h.upto.makeRoom) (.ite (.next h.upto) (.next h.upto.placeJob))

theorem execJobPreemptSaveDone {t' : ℕ} {jobId : BitVec 32} (h : Keeps s t) :
    Goes s (execJobPreemptSaveDone t' jobId t) := by
  unfold Machine.execJobPreemptSaveDone
  dsimp only
  split
  · exact .next h.upto
  · refine .ite (.next h.upto) ?_
    exact .next (.bump (.setJobSt (.putJob (.dropSlots (.update (.foldl
      (.foldl h.upto fun _ _ h => h.releaseCtx) fun _ _ h => h.discardIn))))))

theorem placeAgain {id : ℕ} {j : JobS} {v : Saved} {ds : List LDrawer} (h : Keeps s t) :
    Keeps s (State.placeAgain id j v ds t) := by
  unfold Machine.State.placeAgain
  dsimp only
  refine .ite ?_ ?_
  · split
    · exact h.putJob.setJobSt.endJob
    · refine .ite (.restoreCkpt (.foldl h.putJob.setJobSt.bindJob fun _ _ h => h.mapSegment)) ?_
      exact .reportPhase (.foldl h.putJob.setJobSt.bindJob fun _ _ h => h.mapSegment)
  · exact h.putJob.setJobSt.loadSaved.setJobSt.resumeJob.feedsTry

theorem execJobRestore {t' : ℕ} {jobId : BitVec 32} (h : Keeps s t) : Goes s (execJobRestore t' jobId t) := by
  unfold Machine.execJobRestore
  dsimp only
  split
  · exact .next h.upto
  · split
    · exact .next h.upto
    · refine .ite (.next h.upto) (.ite (.next h.upto) ?_)
      split
      · exact .next h.upto.endJob
      · split
        · exact .next h.upto.endJob
        · exact .ite (.next h.upto.makeRoom) (.ite (.next h.upto) (.next h.upto.placeAgain))

theorem startCkpt {id : ℕ} {j : JobS} {hold : Bool} (h : Keeps s t) : Keeps s (State.startCkpt id j hold t) :=
  h.putJob.setJobSt.askJob

theorem uptoRun {j : JobS} {ms : ℕ} (h : Keeps s t) : Keeps s (State.uptoRun j ms t) := by
  unfold Machine.State.uptoRun
  split
  · exact h.upto
  · exact h

theorem execCheckpointDue {jobId : BitVec 32} (h : Keeps s t) : Goes s (execCheckpointDue jobId t) := by
  unfold Machine.execCheckpointDue
  dsimp only
  split
  · exact .next h
  · exact .ite (.next h) (.next h.uptoRun.startCkpt)

theorem execCheckpointGapHold {jobId : BitVec 32} (h : Keeps s t) : Goes s (execCheckpointGapHold jobId t) := by
  unfold Machine.execCheckpointGapHold
  dsimp only
  split
  · exact .next h
  · exact .ite (.next h) (.ite (.next h.uptoRun.startCkpt) (.ite (.next h.putJob) (.next h)))

theorem ckptFails {id n : ℕ} {j : JobS} (h : Keeps s t) : Keeps s (State.ckptFails id n j t) := by
  unfold Machine.State.ckptFails
  dsimp only
  split
  · exact h.unCommit.endJob.putJob
  · exact h.unCommit.endJob

theorem execCheckpointCommit {t' : ℕ} {jobId : BitVec 32} {status : MemStatus} (h : Keeps s t) :
    Goes s (execCheckpointCommit t' jobId status t) := by
  unfold Machine.execCheckpointCommit
  dsimp only
  split
  · exact .next h.upto
  · split
    · exact .next h.upto
    · refine .ite (.next h.upto) (.ite (.next h.upto.groupProgress) ?_)
      split
      · split
        · exact .next h.upto.writeCkpt
        · refine .ite (.next h.upto.writeCkpt.ckptFails) (.ite (.next h.upto.writeCkpt) ?_)
          refine .ite (.next h.upto.writeCkpt.commitSlot.reportPhase) ?_
          exact .next h.upto.writeCkpt.commitSlot.putJob.takeRelease
      · exact .next h.upto.ckptFails

theorem writeCancelJob {z : Val} (h : Keeps s t) : Accepts s (writeCancelJob z t) := by
  unfold Machine.writeCancelJob
  dsimp only
  split
  · exact .ok h
  · refine .ite (.ok h) ?_
    refine .ok ?_
    refine .endJob ?_
    split
    · exact .ite h.unCommit h
    · exact h

theorem execCancelJob {q : Req} {val : List Byte} (h : Keeps s t) : Goes s (execCancelJob q val t) :=
  .next (h.serveOwn (fun _ _ h => h.writeCancelJob))

theorem feedsRecovered {old new : List LDrawer} {j : JobS} (h : Keeps s t) :
    Keeps s (State.feedsRecovered old new j t) := by
  unfold Machine.State.feedsRecovered
  refine .foldl h fun u a h => ?_
  split
  · exact h
  · split
    · exact h
    · split
      · exact h
      · exact .ite h.feedMoved h

theorem vacate {id : ℕ} {j : JobS} (h : Keeps s t) : Keeps s (State.vacate id j t) := h.unplace.putJob

theorem restoreShard {id : ℕ} {j : JobS} {ds : List LDrawer} {ck : Ckpt} (h : Keeps s t) :
    Keeps s (State.restoreShard id j ds ck t) := by
  unfold Machine.State.restoreShard
  dsimp only
  refine .ite (.restoreCkpt (.feedsRecovered (.foldl h.putJob.bindJob fun _ _ h => h.mapSegment))) ?_
  exact .reportPhase (.feedsRecovered (.foldl h.putJob.bindJob fun _ _ h => h.mapSegment))

theorem execShardRestore {t' : ℕ} {jobId : BitVec 32} {readable : Bool} (h : Keeps s t) :
    Goes s (execShardRestore t' jobId readable t) := by
  unfold Machine.execShardRestore
  dsimp only
  split
  · exact .next h.upto
  · refine .ite (.next h.upto) ?_
    refine .ite (.next h.upto.setJobSt.askJob) (.ite (.next h.upto) ?_)
    split
    · exact .next h.upto.vacate.endJob
    · exact .next h.upto.vacate.endJob
    · exact .next h.upto.vacate.endJob
    · exact .ite (.next h.upto.vacate.restoreShard) (.next h.upto)

theorem setLine {p : ℕ} {l : LineS} (h : Keeps s t) : Keeps s (State.setLine p l t) := h.update

theorem sendLane {p k : ℕ} {bits : List Bool} (h : Keeps s t) : Keeps s (State.sendLane p k bits t) := h.setLine.emit

theorem sendCodeword {p : ℕ} {data : List (BitVec 10)} (h : Keeps s t) : Keeps s (State.sendCodeword p data t) :=
  .foldl h.setLine fun _ _ h => .sendLane (.ite h.sendLane h)

theorem sendLine {p : ℕ} {b : List Byte} (h : Keeps s t) : Keeps s (State.sendLine p b t) :=
  .ite h.setLine.sendCodeword h.setLine

theorem lockLanes {p : ℕ} (h : Keeps s t) : Keeps s (State.lockLanes p t) := .foldl h fun _ _ h => h.setState

theorem setPortSt {p v : ℕ} (h : Keeps s t) : Keeps s (State.setPortSt p v t) := by
  unfold Machine.State.setPortSt
  dsimp only
  refine .ite ?_ ?_
  · exact .updateBridge (.foldl (.ite h.setState.setLine h.setState) fun _ _ h => .ite h.setState h.setState.setNum)
  · exact .foldl (.ite h.setState.setLine h.setState) fun _ _ h => .ite h.setState h.setState.setNum

theorem discardFlits {p : ℕ} (h : Keeps s t) : Keeps s (State.discardFlits p t) := .ite h.setPort h.setPort.bump.setFlag

theorem startPort {p : ℕ} (h : Keeps s t) : Keeps s (State.startPort p t) := h.setPort.setTrain.setPortSt

theorem writePortEnable {p : ℕ} {z : Val} (h : Keeps s t) : Accepts s (writePortEnable p z t) := by
  unfold Machine.writePortEnable
  dsimp only
  exact .ite (.ok (.ite h.startPort h)) (.ite (.ok h) (.ok h.discardFlits.setPortSt))

theorem execPortEnable {q : Req} {p : PortNo} {val : List Byte} (h : Keeps s t) : Goes s (execPortEnable q p val t) :=
  .next (h.serveOwn (fun _ _ h => h.writePortEnable))

theorem writePortConfig {p : ℕ} {z : Val} (h : Keeps s t) : Accepts s (writePortConfig p z t) := .ite .error (.ok h)

theorem execBringUpDone {p : PortNo} {fecField : BitVec 4} (h : Keeps s t) : Goes s (execBringUpDone p fecField t) := by
  unfold Machine.execBringUpDone
  dsimp only
  refine .ite (.next h) (.ite (.next h.lockLanes.setFlag) ?_)
  exact .next (.setPortSt (.setTrain (.foldl h.lockLanes fun _ _ h => h.fresh.fresh.setNum.setNum)))

theorem countErrors {p corrected uncorrectable : ℕ} (h : Keeps s t) :
    Keeps s (State.countErrors p corrected uncorrectable t) := by
  unfold Machine.State.countErrors
  dsimp only
  exact .bump (.foldlOn Prod.fst h.fresh.bump.bump fun _ _ h => h.fresh.bump)

theorem execQualifyWindow {p : PortNo} {corrected uncorrectable : ℕ} (h : Keeps s t) :
    Goes s (execQualifyWindow p corrected uncorrectable t) := by
  unfold Machine.execQualifyWindow
  dsimp only
  refine .ite (.next h) (.ite (.next h.countErrors.setTrain.setPortSt) ?_)
  exact .ite (.next h.countErrors.setTrain.setPortSt) (.next h.countErrors.setTrain)

theorem execLinkLoss {p : PortNo} {lanes : LaneLoss} {corrected uncorrectable : ℕ} (h : Keeps s t) :
    Goes s (execLinkLoss p lanes corrected uncorrectable t) := by
  unfold Machine.execLinkLoss
  dsimp only
  refine .ite (.next h) (.ite (.next (.foldl h.countErrors fun _ _ h => h.bump)) ?_)
  exact .next (.setPortSt (.setTrain (.setFlag (.bump (.setPortSt (.foldl h.countErrors fun _ _ h => h.bump))))))

theorem execPortDownLimit {t' : ℕ} {p : PortNo} (h : Keeps s t) : Goes s (execPortDownLimit t' p t) := by
  unfold Machine.execPortDownLimit
  dsimp only
  exact .ite (.next h) (.next h.upto.setPortSt.setFlag.setTrain.discardFlits.logFault)

theorem execEyeSweep {lane : Fin 192} {margin : BitVec 16} (h : Keeps s t) : Goes s (execEyeSweep lane margin t) :=
  .ite (.next h.setNum) (.next h)

theorem writeLaneTest {lane : ℕ} {z : Val} (h : Keeps s t) : Accepts s (writeLaneTest lane z t) :=
  .ite .error (.ok h.setNum.setPortSt)

theorem execLaneTest {q : Req} {lane : Fin 192} {val : List Byte} (h : Keeps s t) :
    Goes s (execLaneTest q lane val t) :=
  .next (h.serveOwn (fun _ _ h => h.writeLaneTest))

theorem execPrbsLock {lane : Fin 192} {wrongSymbols : ℕ} (h : Keeps s t) : Goes s (execPrbsLock lane wrongSymbols t) :=
  .ite (.next h.setNum.bump) (.next h)

theorem execLinkBlockSend {p : Fin 16} (h : Keeps s t) : Goes s (execLinkBlockSend p t) := by
  unfold Machine.execLinkBlockSend
  dsimp only
  refine .ite (.next h) ?_
  split
  · exact .next h.setPort.bump.bump.emit.sendLine
  · refine .ite (.next h.setPort.emit.sendLine) ?_
    split
    · exact .next h.setPort.emit.sendLine
    · split
      · exact .next h.setPort.emit.sendLine
      · exact .next h.setPort.bump.emit.sendLine

theorem execLinkBlockReceive {t' : ℕ} {p : Fin 16} {block : List Byte} {uncorrectable : Bool} (h : Keeps s t) :
    Goes s (execLinkBlockReceive t' p block uncorrectable t) := by
  unfold Machine.execLinkBlockReceive
  dsimp only
  refine .ite (.next h) ?_
  refine .ite (.next (.setPort (.ite h.upto.bump h.upto))) (.ite (.next h.upto.setPort) ?_)
  exact .ite (.next h.upto.setPort.bump.route) (.ite (.next h.upto.setPort) (.next h.upto.setPort))

theorem execNak {p : Fin 16} {ackSeq : BitVec 12} (h : Keeps s t) : Goes s (execNak p ackSeq t) := .next h.setPort

theorem execReplayTimeout {p : Fin 16} (h : Keeps s t) : Goes s (execReplayTimeout p t) :=
  .ite (.next h) (.next h.setPort)

theorem takeVc0 {source n : ℕ} (h : Keeps s t) : Keeps s (State.takeVc0 source n t) := h.update

theorem execRemoteRequest {source : BitVec 12} (h : Keeps s t) : Goes s (execRemoteRequest source t) := by
  unfold Machine.execRemoteRequest
  dsimp only
  split
  · exact .next h
  · refine .ite (.next h) ?_
    refine .ite ?_ ?_
    · split
      · exact .next h.takeVc0.sendFlit
      · exact .next h.takeVc0.sendFlit.sendFlit
    · refine .ite ?_ ?_
      · split
        · exact .next h
        · split
          · exact .next (.sendFlit (.foldl h.takeVc0 fun _ _ h => .ite h.poke h))
          · exact .next (.sendFlit (.foldl h.takeVc0 fun _ _ h => .ite h.poke h))
      · exact .ite (.next h) (.next h.takeVc0)

theorem finishRemote {tag : ℕ} {st : MemStatus} {data : List Byte} (h : Keeps s t) :
    Keeps s (State.finishRemote tag st data t) := by
  unfold Machine.State.finishRemote
  dsimp only
  split
  · exact h
  · exact h.update

theorem execRemoteResponse {source : BitVec 12} (h : Keeps s t) : Goes s (execRemoteResponse source t) := by
  unfold Machine.execRemoteResponse
  dsimp only
  split
  · exact .next h
  · refine .ite ?_ ?_
    · split
      · exact .next h
      · exact .next (.ite h.takeVc0.finishRemote h.takeVc0.bump)
    · refine .ite (.next (.ite h.takeVc0.finishRemote h.takeVc0.bump)) ?_
      exact .ite (.next (.ite h.takeVc0.finishRemote h.takeVc0.bump)) (.next h)

theorem execRemoteTimeout {tag : BitVec 12} (h : Keeps s t) : Goes s (execRemoteTimeout tag t) := by
  unfold Machine.execRemoteTimeout
  split
  · exact .next h
  · exact .next h.finishRemote.bump.setFlag

theorem execTargetBlockReceive {port : Cab} {block : List Byte} {uncorrectable : Bool} (h : Keeps s t) :
    Goes s (execTargetBlockReceive port block uncorrectable t) := by
  unfold Machine.execTargetBlockReceive
  dsimp only
  refine .ite (.next h) (.ite (.next (.bridgeWord (.ite h.bump h))) ?_)
  exact .ite (.next (.ite h.bump h)) (.next (.bridgeWord (.bump (.ite h.bump h))))

theorem newPass (h : Keeps s t) : Keeps s (State.newPass t) := h.setCfg

theorem execScrubFrameRead {check : FrameCheck} (h : Keeps s t) : Goes s (execScrubFrameRead check t) := by
  unfold Machine.execScrubFrameRead
  dsimp only
  refine .ite (.next h) ?_
  split
  · exact .next h.newPass.bump.setState
  · split
    · exact .next h.setNum.setCfg
    · refine .next ?_
      exact .ite h.setNum.setCfg h.setNum.setCfg.setState.bump.setFlag.setState
    · exact .next h.setNum.setCfg.bump.setFlag.setState.setCfg
    · refine .next ?_
      refine .ite h.setNum.setCfg.fresh.freshBytes.putFrame ?_
      refine .ite h.setNum.setCfg.fresh.freshBytes.putFrame.setState.bump.setFlag.setState ?_
      exact h.setNum.setCfg.fresh.freshBytes.putFrame.bump.setFlag.setState.setCfg

theorem startReload {kind cab reg image : ℕ} {only : Option ℕ} (h : Keeps s t) :
    Keeps s (State.startReload kind cab reg image only t) :=
  .ite h.setCfg.beginLoad.setNum.failLoad h.setCfg.beginLoad.setNum

theorem execScrubReload (h : Keeps s t) : Goes s (execScrubReload t) := by
  unfold Machine.execScrubReload
  dsimp only
  refine .ite (.next h) ?_
  split
  · exact .next h.setState
  · refine .ite (.next h.setCfg.bump.setCfg.setFlag.startReload) ?_
    exact .ite (.next h.setCfg.bump.setRegion.startReload) (.next h.setCfg.bump.setRegion.startReload)

theorem execScrubPauseEnd (h : Keeps s t) : Goes s (execScrubPauseEnd t) := .ite (.next h.setState) (.next h)

theorem takeScrubSettings (h : Keeps s t) : Keeps s (State.takeScrubSettings t) := by
  unfold Machine.State.takeScrubSettings
  dsimp only
  exact .ite h.setCfg.setState.setCfg (.ite h.setCfg.newPass.setState h.setCfg)

theorem writeScrubControl {z : Val} (h : Keeps s t) : Accepts s (writeScrubControl z t) := .ok h.takeScrubSettings

theorem restartScrub {via : ℕ} (h : Keeps s t) : Keeps s (State.restartScrub via t) :=
  .ite h.newPass h.newPass.setState.setState

theorem execSettingsUpset {copyB : Bool} (h : Keeps s t) : Goes s (execSettingsUpset copyB t) :=
  .ite (.next h) (.next h.setCfg.restartScrub.bump.setFlag)

theorem execScrubCriticalReset (h : Keeps s t) : Goes s (execScrubCriticalReset t) := by
  unfold Machine.execScrubCriticalReset
  dsimp only
  refine .ite (.next h) ?_
  exact .next h.setNum.setNum.setNum.persist.persist.persist.takeScrubSettings.restartScrub.bump.setFlag

theorem dropCabinet {c : Nat} {keepFeeds : Bool} (h : Keeps s t) : Keeps s (t.dropCabinet c keepFeeds) := by
  unfold Machine.State.dropCabinet
  extract_lets _ _ _ t₁
  have h₁ : Keeps s t₁ := ⟨h.queue, Memory.wf_filter 0 (fun e => !cabHolds c e.1) t.mem ∘ h.mem, h.flash⟩
  exact h₁.clearLogic.clearFrames

theorem unloadPages {l : List (ℕ × Bool × ℕ × Bool)} (h : Keeps s t) : Keeps s (State.unloadPages l t) :=
  .foldl h fun _ _ h => .ite h h.invalidate.putLeaves

theorem skipChange {c : ℕ} (h : Keeps s t) : Keeps s (State.skipChange c t) := by
  unfold Machine.State.skipChange
  dsimp only
  split
  · exact h
  · exact .ite h.nextChange h.update

theorem endRegions {c : ℕ} {st : ℕ → ℕ} (h : Keeps s t) : Keeps s (State.endRegions c st t) :=
  .foldl h fun _ _ h => h.setRegion.setRegSt

theorem loseSaved {c : ℕ} (h : Keeps s t) : Keeps s (State.loseSaved c t) := h.update

theorem takeBack {c id : ℕ} (h : Keeps s t) : Keeps s (State.takeBack c id t) := by
  unfold Machine.State.takeBack
  dsimp only
  split
  · exact h
  · exact .ite h.putJob.askJob h.startRung5

theorem endTileRungs {c : ℕ} (h : Keeps s t) : Keeps s (State.endTileRungs c t) := h.supersede

theorem loseFeed {q : ℕ} (h : Keeps s t) : Keeps s (State.loseFeed q t) :=
  .ite h h.unknownAll.flushFeed.modFeed.setCapture.setFeedSt

theorem loadLoses {c : ℕ} (h : Keeps s t) : Keeps s (State.loadLoses c t) := by
  unfold Machine.State.loadLoses
  split
  · exact h
  · exact .ite h.setLoad (.ite h.failLoad h)

theorem unqueueTiles {c : ℕ} (h : Keeps s t) : Keeps s (State.unqueueTiles c t) := h.update.setNum

theorem keepViews {c : ℕ} (h : Keeps s t) : Keeps s (State.keepViews c t) := h.update

theorem loseCabinet {c : ℕ} {rail : Bool} (h : Keeps s t) : Keeps s (State.loseCabinet c rail t) := by
  unfold Machine.State.loseCabinet
  extract_lets hit pages t₁ t₂ t₃ t₄ t₅ _ t₆ t₇ t₈ t₉ u₁ u₂ _ u₃ u₄ u₅ u₆
  have h₂ : Keeps s t₂ := .foldl h.keepViews fun _ _ h => h.loseFeed
  have h₃ : Keeps s t₃ := h₂.setState.setFlag.setState
  have h₄ : Keeps s t₄ := .ite h₃.setFlag h₃
  have h₅ : Keeps s t₅ := .ite h₄ h₄.setState
  clear_value t₅
  have h₆ : Keeps s t₆ := h₅.update
  have h₇ : Keeps s t₇ := h₆.dropCabinet.skipChange
  have h₉ : Keeps s t₉ := h₇.endRegions.loadLoses.setCfg
  have h₁₀ : Keeps s u₂ := h₉.loseChans.updateBridge.setPortSt.unqueueTiles.loseSaved
  have h₁₁ : Keeps s u₄ := .foldl (.logFault h₁₀) fun _ _ h => h.takeBack
  have h₁₂ : Keeps s u₅ := h₁₁.endTileRungs.unloadPages
  exact .ite h (.updateHealth (.ite h₁₂.proposeHere h₁₂))

theorem execCabinetLost {t' : ℕ} {c : Cab} {railFault : Bool} (h : Keeps s t) :
    Goes s (execCabinetLost t' c railFault t) :=
  .next (.ite h.upto.loseCabinet h.upto)

theorem setGroup {id : ℕ} {g : Machine.Group} (h : Keeps s t) : Keeps s (State.setGroup id g t) := h.update

theorem closeGroup {id : ℕ} (h : Keeps s t) : Keeps s (State.closeGroup id t) := h.update

theorem abortGroup {id detail : ℕ} (h : Keeps s t) : Keeps s (State.abortGroup id detail t) := by
  unfold Machine.State.abortGroup
  dsimp only
  split
  · exact h
  · exact h.closeGroup.update

theorem groupBegin {m : Master} {tr : Transport} {seq : ℕ} (h : Keeps s t) : Keeps s (State.groupBegin m tr seq t) :=
  .ite h.answerErr (.ite h.answerErr h.setGroup.update.answer)

theorem groupStage {m : Master} {tr : Transport} {seq k : ℕ} {v : List Byte} (h : Keeps s t) :
    Keeps s (State.groupStage m tr seq k v t) := by
  unfold Machine.State.groupStage
  dsimp only
  split
  · exact h.answerErr
  · exact h.answerErr
  · split
    · exact h.setGroup.answerErr
    · exact .ite h.setGroup.answer h.setGroup.answerErr

theorem groupAbort {m : Master} {tr : Transport} {seq : ℕ} (h : Keeps s t) : Keeps s (State.groupAbort m tr seq t) :=
  .ite h.answerErr (.ite h.answerErr h.closeGroup.answer)

theorem execGroupBegin {m : Master} {tr : Transport} {t' : ℕ} {seq : BitVec 16} (h : Keeps s t) :
    Goes s (execGroupBegin m tr t' seq t) :=
  .next (h.fullRequest (fun _ h => h.groupBegin))

theorem execGroupStage {m : Master} {tr : Transport} {t' : ℕ} {seq : BitVec 16} {o : ObjId} {val : List Byte}
    (h : Keeps s t) :
    Goes s (execGroupStage m tr t' seq o val t) :=
  .next (h.fullRequest (fun _ h => h.groupStage))

theorem execGroupAbort {m : Master} {tr : Transport} {t' : ℕ} {seq : BitVec 16} (h : Keeps s t) :
    Goes s (execGroupAbort m tr t' seq t) :=
  .next (h.fullRequest (fun _ h => h.groupAbort))

theorem execGroupTimeout {m : Master} (h : Keeps s t) : Goes s (execGroupTimeout m t) := by
  unfold Machine.execGroupTimeout
  split
  · exact .next h
  · exact .next h.upto.abortGroup

theorem updateOwner (h : Keeps s t) : Keeps s (State.updateOwner t) := h.setState

theorem clearHandover (h : Keeps s t) : Keeps s (State.clearHandover t) := h.update.setNum

theorem cancelUpdate (h : Keeps s t) : Keeps s (State.cancelUpdate t) := h.setNum.setState

theorem setOwner {id : ℕ} (h : Keeps s t) : Keeps s (State.setOwner id t) := by
  unfold Machine.State.setOwner
  dsimp only
  exact .ite h (.raise (.bump (.setNum (.abortGroup (.ite h.cancelUpdate h)))))

theorem renew (h : Keeps s t) : Keeps s (State.renew t) := h.update

theorem lapse (h : Keeps s t) : Keeps s (State.lapse t) := h.setOwner.setNum.clearHandover.updateOwner

theorem claim {m : Master} {tr : Transport} {seq prio : ℕ} (h : Keeps s t) : Keeps s (State.claim m tr seq prio t) := by
  unfold Machine.State.claim
  dsimp only
  split
  · exact .update (.ite h.renew h)
  · exact .ite (.answer (.setNum (.ite h.renew h))) (.updateOwner (.update (.ite h.renew h)))

theorem execClaim {m : Master} {tr : Transport} {t' : ℕ} {seq : BitVec 16} {prio : Byte} (h : Keeps s t) :
    Goes s (execClaim m tr t' seq prio t) :=
  .next (h.fullRequest (fun _ h => h.claim))

theorem execClaimWindowClose (h : Keeps s t) : Goes s (execClaimWindowClose t) := by
  unfold Machine.execClaimWindowClose
  dsimp only
  split
  · exact .next h
  · split
    · exact .next h.upto.update.updateOwner
    · exact .next (.updateOwner (.foldl (.renew (.setNum (.setOwner
        (.ite h.upto.update h.upto.update.clearHandover)))) fun _ _ h => .ite h.message h.message))

theorem execLeaseEnd (h : Keeps s t) : Goes s (execLeaseEnd t) := by
  unfold Machine.execLeaseEnd
  refine .ite (.next h) ?_
  split
  · exact .ite (.next h.upto.clearHandover.updateOwner) (.next h.upto.lapse)
  · exact .next h.upto.lapse

theorem release {m : Master} {tr : Transport} {seq : ℕ} (h : Keeps s t) : Keeps s (State.release m tr seq t) :=
  .ite h.answerErr h.lapse.answer

theorem execRelease {m : Master} {tr : Transport} {t' : ℕ} {seq : BitVec 16} (h : Keeps s t) :
    Goes s (execRelease m tr t' seq t) :=
  .next (h.fullRequest (fun _ h => h.release))

theorem handover {m : Master} {tr : Transport} {seq succ : ℕ} (h : Keeps s t) :
    Keeps s (State.handover m tr seq succ t) := by
  unfold Machine.State.handover
  dsimp only
  exact .ite h.answerErr (.ite h.answerErr h.renew.update.setNum.updateOwner.answer)

theorem execHandover {m : Master} {tr : Transport} {t' : ℕ} {seq : BitVec 16} {successor : Byte} (h : Keeps s t) :
    Goes s (execHandover m tr t' seq successor t) :=
  .next (h.fullRequest (fun _ h => h.handover))

theorem accept {m : Master} {tr : Transport} {seq : ℕ} (h : Keeps s t) : Keeps s (State.accept m tr seq t) := by
  unfold Machine.State.accept
  dsimp only
  exact .ite h.answerErr h.clearHandover.setOwner.renew.updateOwner.answer

theorem execHandoverAccept {m : Master} {tr : Transport} {t' : ℕ} {seq : BitVec 16} (h : Keeps s t) :
    Goes s (execHandoverAccept m tr t' seq t) :=
  .next (h.fullRequest (fun _ h => h.accept))

theorem rejectUpdate {code : ℕ} (h : Keeps s t) : Keeps s (State.rejectUpdate code t) := h.setNum.setState.bump.setFlag

theorem takeoverPause (h : Keeps s t) : Keeps s (State.takeoverPause t) := h.fresh.update

theorem takeOver (h : Keeps s t) : Keeps s (State.takeOver t) := h.takeoverPause.setNum.bump.setFlag.update.store

theorem activateFails (h : Keeps s t) : Keeps s (State.activateFails t) := h.update.setState.rejectUpdate

theorem activateImage {bootFailed : Bool} (h : Keeps s t) : Keeps s (State.activateImage bootFailed t) := by
  unfold Machine.State.activateImage
  dsimp only
  exact .ite h.setPersisted.setState (.ite h.setState.activateFails h.setState.update.setState.setState)

theorem activateMirrored (h : Keeps s t) : Keeps s (State.activateMirrored t) := by
  unfold Machine.State.activateMirrored
  dsimp only
  exact .ite h (.ite h.update.setNum.setState.bump h.takeOver.setPersisted.setNum.update.setState)

theorem activateRecovery (h : Keeps s t) : Keeps s (State.activateRecovery t) := h.setNum.appendRec.update

theorem writeUpdateCommand {bootFailed : Bool} {z : Val} (h : Keeps s t) :
    Accepts s (writeUpdateCommand bootFailed z t) := by
  unfold Machine.writeUpdateCommand
  dsimp only
  refine .ite (.ite (.ok h.erase.setState) .error) ?_
  refine .ite ?_ ?_
  · refine .ite ?_ ?_
    · split
      · exact .ok h.setState.setNum.setState
      · exact .ok h.setState.rejectUpdate
    · exact .error
  · exact .ite (.ite (.ok (.ite h.activateRecovery h.activateImage)) .error) (.ite (.ok h.cancelUpdate) .error)

theorem execBegin {q : Req} (h : Keeps s t) : Goes s (execBegin q t) :=
  .next (h.serveOwn (fun _ _ h => h.writeUpdateCommand))

theorem execVerify {q : Req} (h : Keeps s t) : Goes s (execVerify q t) :=
  .next (h.serveOwn (fun _ _ h => h.writeUpdateCommand))

theorem execCancel {q : Req} (h : Keeps s t) : Goes s (execCancel q t) :=
  .next (h.serveOwn (fun _ _ h => h.writeUpdateCommand))

theorem execUpdateEraseDone (h : Keeps s t) : Goes s (execUpdateEraseDone t) := .ite (.next h.setNum.setState) (.next h)

theorem programSlot {l : List Byte} {failed : Bool} (h : Keeps s t) : Accepts s (State.programSlot l failed t) := by
  unfold Machine.State.programSlot
  dsimp only
  exact .ite .error (.ite .error (.ite (.ok h.rejectUpdate) (.ok h.program.setNum)))

theorem writeUpdateChunk {failed : Bool} {z : Val} (h : Keeps s t) : Accepts s (writeUpdateChunk failed z t) :=
  h.programSlot

theorem bytesOrFree {a n : ℕ} (h : Keeps s t) : Keeps s (State.bytesOrFree a n t).2 := by
  unfold Machine.State.bytesOrFree
  dsimp only
  split
  · exact h
  · exact h.freshBytes

theorem writeUpdateFromMemory {failed : Bool} {z : Val} (h : Keeps s t) :
    Accepts s (writeUpdateFromMemory failed z t) := by
  unfold Machine.writeUpdateFromMemory
  dsimp only
  exact .ite .error (.ite .error h.bytesOrFree.bytesOrFree.programSlot)

theorem execUpdateChunk {q : Req} {val : List Byte} {programFailed : Bool} (h : Keeps s t) :
    Goes s (execUpdateChunk q val programFailed t) :=
  .next (h.serveOwn (fun _ _ h => h.writeUpdateChunk))

theorem execUpdateFromMemory {q : Req} {val : List Byte} {programFailed : Bool} (h : Keeps s t) :
    Goes s (execUpdateFromMemory q val programFailed t) := by
  unfold Machine.execUpdateFromMemory
  exact .next (h.serveOwn (fun _ _ h => h.writeUpdateFromMemory))

theorem writeKeyEnroll {z : Val} (h : Keeps s t) : Accepts s (writeKeyEnroll z t) :=
  .ite .error (.ite .error (.ok h.freshBytes.setPersisted.setFlag))

theorem writeKeyRevoke {z : Val} (h : Keeps s t) : Accepts s (writeKeyRevoke z t) :=
  .ite .error (.ok h.setPersisted.setFlag)

theorem execKeyEnroll {q : Req} {val : List Byte} (h : Keeps s t) : Goes s (execKeyEnroll q val t) :=
  .next (h.serveOwn (fun _ _ h => h.writeKeyEnroll))

theorem execKeyRevoke {q : Req} {val : List Byte} (h : Keeps s t) : Goes s (execKeyRevoke q val t) :=
  .next (h.serveOwn (fun _ _ h => h.writeKeyRevoke))

theorem writeAttestNonce {z : Val} (h : Keeps s t) : Accepts s (writeAttestNonce z t) := .ok h.setBytes.raise.bump

theorem execAttestNonce {q : Req} {val : List Byte} (h : Keeps s t) : Goes s (execAttestNonce q val t) :=
  .next (h.serveOwn (fun _ _ h => h.writeAttestNonce))

theorem setRails {l : List ℕ} (h : Keeps s t) : Keeps s (State.setRails l t) := h.update

theorem resetDevice {src : ResetSource} (h : Keeps s t) : Keeps s (t.resetDevice src) :=
  have h' : Keeps s t.loseQueue := h.loseQueue
  ⟨h'.queue, Memory.wf_filter 0 _ _ ∘ h'.mem, h'.flash⟩

theorem powerUp (h : Keeps s t) : Keeps s t.powerUp := by
  refine ⟨h.queue, fun hm => ?_, h.flash⟩
  unfold State.powerUp
  dsimp only
  split
  · exact Memory.wf_filter 0 _ _ (h.mem hm)
  · rfl

theorem dfltObjs {lo hi : ℕ} (h : Keeps s t) : Keeps s (State.dfltObjs lo hi t) := h.update

theorem uncountRows {c : ℕ} (h : Keeps s t) : Keeps s (State.uncountRows c t) := h.setNum

theorem loadReset {c : ℕ} (h : Keeps s t) : Keeps s (State.loadReset c t) := by
  unfold Machine.State.loadReset
  split
  · exact h
  · exact h.setLoad

theorem resetCabinet {c : ℕ} (h : Keeps s t) : Keeps s (State.resetCabinet c t) := by
  unfold Machine.State.resetCabinet
  dsimp only
  refine .ite h.bump ?_
  refine .updateHealth ?_
  refine .ite ?_ ?_
  · exact .proposeHere (.unloadPages (.endTileRungs (.foldl (.loseSaved (.updateBridge (.resetChans (.setCfg
      (.loadReset (.update (.endRegions (.dfltObjs (.dfltObjs (.uncountRows (.stopLoops (.setState
      (.foldl h.bump.setState.setState.unpark.setState.setState.update.dropCabinet.skipChange fun _ _ h =>
      h.setState))))))))))))) fun _ _ h => h.takeBack)))
  · exact .unloadPages (.endTileRungs (.foldl (.loseSaved (.updateBridge (.resetChans (.setCfg (.loadReset (.update
      (.endRegions (.dfltObjs (.dfltObjs (.uncountRows (.stopLoops (.setState
      (.foldl h.bump.setState.setState.unpark.setState.setState.update.dropCabinet.skipChange fun _ _ h =>
      h.setState))))))))))))) fun _ _ h => h.takeBack))

theorem assertCabinet {src : ResetSource} {c : ℕ} (h : Keeps s t) : Keeps s (State.assertCabinet src c t) :=
  .ite h.update.update h.update.resetCabinet

theorem canUp {p : CanPort} (h : Keeps s t) : Keeps s (State.canUp p t) := h.setState

theorem resetBlock {code : ℕ} (h : Keeps s t) : Keeps s (State.resetBlock code t) := by
  unfold Machine.State.resetBlock
  dsimp only
  split
  · exact .foldl h.bump fun _ _ h => h.setDma
  · exact h.bump.setColl.dfltObjs
  · exact .foldl h.bump fun _ _ h => h.modFeed
  · exact h.bump.setHost.dfltObjs
  · exact .ite h.bump.dfltObjs.newPass h.bump.dfltObjs.newPass.setState
  · exact h.bump.update.dfltObjs.dfltObjs
  · exact h.bump.setNum.canUp

theorem setHolds {l : List ℕ} (h : Keeps s t) : Keeps s (State.setHolds l t) := h.update.setNum

theorem assertBlock {code : ℕ} {hold : Bool} (h : Keeps s t) : Keeps s (State.assertBlock code hold t) :=
  .ite h.resetBlock.setHolds h.resetBlock

theorem writeSoftwareReset {z : Val} (h : Keeps s t) : Accepts s (writeSoftwareReset z t) := .ite .error (.ok h.update)

theorem assertSoft (h : Keeps s t) : Keeps s (State.assertSoft t) := by
  unfold Machine.State.assertSoft
  dsimp only
  split
  · exact h
  · split
    · exact h.update.resetDevice
    · split
      · exact h.update.assertCabinet
      · exact h.update
    · exact h.update.assertBlock
    · exact h.update

theorem writeReleaseReset {z : Val} (h : Keeps s t) : Accepts s (writeReleaseReset z t) :=
  .ok h.setHolds.flushHeld.feedsTry

theorem execPowerOn (h : Keeps s t) : Goes s (execPowerOn t) := .next h.powerUp

theorem execSupplyFault {rail : Option Cab} (h : Keeps s t) : Goes s (execSupplyFault rail t) := by
  unfold Machine.execSupplyFault
  dsimp only
  split
  · exact .next h.update.resetDevice
  · exact .next (.ite h.bumpPersisted.loseCabinet h.update.setRails)

theorem execRstIn {lowNs : ℕ} (h : Keeps s t) : Goes s (execRstIn lowNs t) := by
  unfold Machine.execRstIn
  dsimp only
  exact .ite (.next h) (.ite (.next h.resetDevice) (.next (.ite h.fresh.resetDevice h.fresh)))

theorem execPerst (h : Keeps s t) : Goes s (execPerst t) := .next h.resetDevice

theorem execThermalTrip (h : Keeps s t) : Goes s (execThermalTrip t) := .next h.update.resetDevice

theorem execPllLockLoss {dom : Fin 25} (h : Keeps s t) : Goes s (execPllLockLoss dom t) := by
  unfold Machine.execPllLockLoss
  dsimp only
  refine .ite (.next h) ?_
  split
  · exact .next h.bump.setFlag.setState.assertCabinet
  · exact .next h.bump.setFlag.resetDevice

theorem execSoftwareResetD {q : Req} {val : List Byte} (h : Keeps s t) : Goes s (execSoftwareResetD q val t) :=
  .next ((h.serveOwn (fun _ _ h => h.writeSoftwareReset)).assertSoft)

theorem execSoftwareResetC {q : Req} {val : List Byte} (h : Keeps s t) : Goes s (execSoftwareResetC q val t) :=
  .next ((h.serveOwn (fun _ _ h => h.writeSoftwareReset)).assertSoft)

theorem execSoftwareResetB {q : Req} {val : List Byte} (h : Keeps s t) : Goes s (execSoftwareResetB q val t) :=
  .next ((h.serveOwn (fun _ _ h => h.writeSoftwareReset)).assertSoft)

theorem execReleaseReset {q : Req} {val : List Byte} (h : Keeps s t) : Goes s (execReleaseReset q val t) :=
  .next (h.serveOwn (fun _ _ h => h.writeReleaseReset))

theorem fieldReset (h : Keeps s t) : Keeps s (State.fieldReset t) := by
  unfold Machine.State.fieldReset
  dsimp only
  split
  · exact h.resetDevice
  · split
    · exact h.assertCabinet
    · exact h
  · exact .ite h.assertBlock h.bump

theorem execResetCommandFrame {port : CanPort} {t' : ℕ} {id : BitVec 29} {data : List Byte} (h : Keeps s t) :
    Goes s (execResetCommandFrame port t' id data t) := by
  unfold Machine.execResetCommandFrame
  dsimp only
  exact .ite (.next h.upto) (.ite (.next h.upto.fieldReset) (.next h.upto.bump))

theorem rebootStandby (h : Keeps s t) : Keeps s (State.rebootStandby t) := by
  unfold Machine.State.rebootStandby
  dsimp only
  split
  · exact h.setState
  · exact h.update.setState

theorem failPrimary (h : Keeps s t) : Keeps s (State.failPrimary t) := by
  unfold Machine.State.failPrimary
  dsimp only
  exact .ite h.bump.resetDevice (.updateHealth (.rebootStandby (.ite h.bump.takeOver.setState h.bump.takeOver)))

theorem execWatchdogExpiry (h : Keeps s t) : Goes s (execWatchdogExpiry t) := .next (.ite h.failPrimary h)

theorem execComplexCriticalError {primary : Bool} (h : Keeps s t) : Goes s (execComplexCriticalError primary t) := by
  unfold Machine.execComplexCriticalError
  dsimp only
  refine .ite (.next h) (.ite (.next h.setFlag.failPrimary) ?_)
  refine .next ?_
  refine .updateHealth ?_
  exact .ite h.setFlag.bump.rebootStandby.rejectUpdate h.setFlag.bump.rebootStandby

theorem execStandbyMirrored (h : Keeps s t) : Goes s (execStandbyMirrored t) :=
  .next (.ite h.setState.activateMirrored.updateHealth h)

theorem execClockControllerUpset {_spine : Cab} {bothBad : Bool} (h : Keeps s t) :
    Goes s (execClockControllerUpset _spine bothBad t) :=
  .ite (.next h) (.next (.ite h.bump.setFlag.setFlag h.bump.setFlag))

theorem execSteeringParityError {g : Tile} (h : Keeps s t) : Goes s (execSteeringParityError g t) := by
  unfold Machine.execSteeringParityError
  dsimp only
  exact .ite (.next h) (.next (((h.discardTile.underHold (fun _ h => h.loadSteer.recountRows)).bump).setFlag))

theorem execFenceStoreError (h : Keeps s t) : Goes s (execFenceStoreError t) := by
  unfold Machine.execFenceStoreError
  dsimp only
  exact .ite (.next h) (.next (.setFlag (.bump (.recountMaps (.foldl h fun _ _ h => h.setVal)))))

theorem execRouteEntryParityError {_multicast : Bool} {_table : Fin 17} {_entry : BitVec 12} (h : Keeps s t) :
    Goes s (execRouteEntryParityError _multicast _table _entry t) :=
  .ite (.next h) (.next h.bump.setFlag)

theorem execActivate {q : Req} {bootFailed : Bool} (h : Keeps s t) : Goes s (execActivate q bootFailed t) :=
  .next ((h.serveOwn (fun _ _ h => h.writeUpdateCommand)).assertSoft)

theorem beginExit (h : Keeps s t) : Keeps s (State.beginExit t) := h.update.setNum.setNum

theorem execResetRelease {src : ResetSource} (h : Keeps s t) : Goes s (execResetRelease src t) := by
  unfold Machine.execResetRelease
  dsimp only
  refine .ite (.next h) ?_
  split
  · exact .ite (.next h.update.update) (.next h.update)
  · exact .next (.ite h.update h.update.beginExit)

theorem stepDone {n next : ℕ} (h : Keeps s t) : Keeps s (State.stepDone n next t) := h.update.setNum

theorem exitFailed {n : ℕ} (h : Keeps s t) : Keeps s (State.exitFailed n t) := h.setNum.setState

theorem exitClocks (h : Keeps s t) : Keeps s (State.exitClocks t) :=
  .setState (.setState (.foldl (.foldl h fun _ _ h => h.setState) fun _ _ h => h.setState))

theorem bootFrom {i : ℕ} (h : Keeps s t) : Keeps s (State.bootFrom i t) := h.update.setNum.setState

theorem exitBoot (h : Keeps s t) : Keeps s (State.exitBoot t) := by
  unfold Machine.State.exitBoot
  dsimp only
  split
  · exact .update (.ite h.bootFrom h.bootFrom.setFlag)
  · exact h.loadStore.update.exitFailed

theorem latchNode (h : Keeps s t) : Keeps s (State.latchNode t) := by
  unfold Machine.State.latchNode
  dsimp only
  exact h.setNum.setNum.canUp.canUp

theorem exitLoad {failures : List ℕ} (h : Keeps s t) : Keeps s (State.exitLoad failures t) := by
  unfold Machine.State.exitLoad
  dsimp only
  exact .foldl (.takeScrubSettings (.setRails (.foldl (.recountMaps
    (.foldl h.loadStore.update.latchNode.setNum.interleave.update fun _ _ h => h.setState)) fun _ _ h => .ite
    h.setState h.setState))) fun _ _ h => h.loseCabinet

theorem exitCxl {failures : List ℕ} (h : Keeps s t) : Keeps s (State.exitCxl failures t) := by
  unfold Machine.State.exitCxl
  dsimp only
  refine .foldl h fun u a h => ?_
  exact .ite h (.setNum (.foldl h.fresh.setNum.setNum fun _ _ h => h.setState))

theorem exitMemory {failures : List ℕ} (h : Keeps s t) : Keeps s (State.exitMemory failures t) := by
  unfold Machine.State.exitMemory
  dsimp only
  refine .ite ?_ ?_
  · exact .exitFailed (.foldl (.exitCxl (.setNum (.ite h.setNum h.setNum.setFlag))) fun _ _ h => .ite h
      (.ite h.setState.loseCabinet h.memoryUp.setState))
  · exact .stepDone (.foldl (.exitCxl (.setNum (.ite h.setNum h.setNum.setFlag))) fun _ _ h => .ite h
      (.ite h.setState.loseCabinet h.memoryUp.setState))

theorem testTile {g : ℕ} {failures : List ℕ} (h : Keeps s t) : Keeps s (State.testTile g failures t) := by
  unfold Machine.State.testTile
  dsimp only
  refine .ite h.loadSteer.recountRows.setState ?_
  refine .settleTile ?_
  refine .recountRows ?_
  refine .ite (.ite h.loadSteer.setState.setNum h.loadSteer.setState.setNum.putCodes) ?_
  refine .putCodes ?_
  exact .ite h.loadSteer.setState.setNum h.loadSteer.setState.setNum.putCodes

theorem selfTest {c : ℕ} {failures : List ℕ} (h : Keeps s t) : Keeps s (State.selfTest c failures t) := by
  unfold Machine.State.selfTest
  dsimp only
  refine .recountMaps ?_
  exact .ite (.foldl h fun _ _ h => h.testTile) (.persist (.foldl h fun _ _ h => h.testTile))

theorem keptProbes {c : ℕ} (h : Keeps s t) : Keeps s (State.keptProbes c t) := h.update

theorem exitTiles {failures : List ℕ} (h : Keeps s t) : Keeps s (State.exitTiles failures t) :=
  .foldl h fun _ _ h => .ite h h.selfTest.keptProbes.setState

theorem exitPorts (h : Keeps s t) : Keeps s (State.exitPorts t) := .stepDone (.foldl h fun _ _ h => .ite h.startPort h)

theorem exitEnd (h : Keeps s t) : Keeps s (State.exitEnd t) := by
  unfold Machine.State.exitEnd
  dsimp only
  refine .stepDone ?_
  refine .setState ?_
  split
  · split
    · exact h.setPersisted.bumpPersisted.setNum.update
    · exact h.setPersisted.bumpPersisted.setNum.bumpPersisted.update
  · split
    · exact h.setPersisted.bumpPersisted.setNum.bumpPersisted.update
    · exact h.setPersisted.bumpPersisted.setNum.bumpPersisted.bumpPersisted.update

theorem exitStep {step : ℕ} {failures : List ℕ} (h : Keeps s t) : Keeps s (State.exitStep step failures t) := by
  unfold Machine.State.exitStep
  dsimp only
  split
  · exact h.update.stepDone
  · exact .ite h.setNum.exitFailed h.setNum.stepDone
  · exact h.exitClocks.stepDone
  · exact .ite h.exitBoot h.exitLoad.stepDone
  · exact h.exitMemory
  · exact h.exitTiles.stepDone
  · exact h.exitPorts.startAutoload
  · exact .ite h h.stepDone.takeScrubSettings
  · exact h.exitEnd
  · exact h

theorem execDeviceExit {step : Fin 11} {failures : List ℕ} (h : Keeps s t) : Goes s (execDeviceExit step failures t) :=
  .ite (.next h) (.next h.exitStep)

theorem cabStep {c n : ℕ} (h : Keeps s t) : Keeps s (State.cabStep c n t) := h.update

theorem cabReady {c : ℕ} (h : Keeps s t) : Keeps s (State.cabReady c t) :=
  h.update.keptProbes.setState.feedsTry.updateHealth

theorem execCabinetExit {c : Cab} {step : Fin 6} {failures : List ℕ} (h : Keeps s t) :
    Goes s (execCabinetExit c step failures t) := by
  unfold Machine.execCabinetExit
  dsimp only
  refine .ite (.next h) ?_
  split
  · exact .next (.ite h.loseCabinet h.cabStep)
  · exact .next h.setState.setState.cabStep
  · exact .ite (.next h.memoryUp.setState.cabStep) (.next h.setState.loseCabinet)
  · exact .next h.selfTest.cabStep
  · exact .next h.cabReady

theorem execCabinetPark {c : Cab} (h : Keeps s t) : Goes s (execCabinetPark c t) :=
  .ite (.next h.setState.setState) (.next h)

theorem execCabinetWake {c : Cab} (h : Keeps s t) : Goes s (execCabinetWake c t) := .next h.unpark

theorem measure {watts : ℕ} {junctions : List ℤ} (h : Keeps s t) : Keeps s (State.measure watts junctions t) := by
  unfold Machine.State.measure
  dsimp only
  split
  · exact .foldl h.setNum.high fun _ _ h => h.setNum
  · exact .setNum (.foldl h.setNum.high fun _ _ h => h.setNum)

theorem execThrottleWindow {watts : BitVec 16} {junctions : List ℤ} (h : Keeps s t) :
    Goes s (execThrottleWindow watts junctions t) := by
  unfold Machine.execThrottleWindow
  dsimp only
  refine .ite (.next h) ?_
  refine .ite ?_ ?_
  · refine .ite (.next h.measure.update) ?_
    refine .next ?_
    refine .ite (.setFlag (.ite h.measure.update.setNum.setFlag h.measure.update.setNum)) ?_
    exact .ite h.measure.update.setNum.setFlag h.measure.update.setNum
  · exact .ite (.ite (.next h.measure.update) (.next h.measure.update.setNum)) (.next h.measure.update)

theorem sample {k : ℕ} (h : Keeps s t) : Keeps s (State.sample k t) := .ite h.fresh.setNum (.ite h.fresh.high h)

theorem noteRead {k : ℕ} (h : Keeps s t) : Keeps s (State.noteRead k t) := .ite h.update (.ite h.update h)

theorem readVal {k : ℕ} (h : Keeps s t) : Keeps s (State.readVal k t).2 := h.sample.noteRead

theorem serveRead {m : Master} {tr : Transport} {seq k : ℕ} (h : Keeps s t) : Keeps s (State.serveRead m tr seq k t) := by
  unfold Machine.State.serveRead
  dsimp only
  split
  · exact h.answerErr
  · exact h.readVal.answer

theorem groupPart {k : ℕ} (h : Keeps s t) : Keeps s (State.groupPart k t).2 := by
  unfold Machine.State.groupPart
  dsimp only
  split
  · exact h
  · exact h.readVal

theorem serveGroupRead {m : Master} {tr : Transport} {seq k : ℕ} {list : List Byte} (h : Keeps s t) :
    Keeps s (State.serveGroupRead m tr seq k list t) := by
  unfold Machine.State.serveGroupRead
  dsimp only
  refine .ite h.answerErr ?_
  exact .ite h.answerErr (.ite h.answerErr (.answer (.foldlOn Prod.snd h fun _ _ h => h.groupPart)))

theorem linearRead {off n : ℕ} (h : Keeps s t) : Keeps s (State.linearRead off n t).2 := by
  unfold Machine.State.linearRead
  dsimp only
  split
  · exact h
  · split
    · split
      · exact h
      · split
        · exact h
        · exact h
    · split
      · exact h.readVal
      · exact h

theorem execRead {m : Master} {tr : Transport} {t' : ℕ} {seq : BitVec 16} {o : ObjId} (h : Keeps s t) :
    Goes s (execRead m tr t' seq o t) :=
  .next (h.request (fun _ h => h.serveRead))

theorem execReadGroup {m : Master} {tr : Transport} {t' : ℕ} {seq : BitVec 16} {list : List Byte} (h : Keeps s t) :
    Goes s (execReadGroup m tr t' seq list t) :=
  .next (h.request (fun _ h => h.serveGroupRead))

theorem writeOapRing {z : Val} (h : Keeps s t) : Accepts s (writeOapRing z t) := .ok h.setNum.setNum.setNum.setNum

theorem writeCompactThreshold {z : Val} (h : Keeps s t) : Accepts s (writeCompactThreshold z t) := .ok h.checkFill

theorem writeStoredImage {z : Val} (h : Keeps s t) : Accepts s (writeStoredImage z t) := .ok h.setRegion

theorem writeStepCommand {z : Val} (h : Keeps s t) : Accepts s (writeStepCommand z t) := .ite h.writeRun h.writeAbandon

theorem paramHandler {k : ℕ} {v : Val} (h : Keeps s t) : Accepts s (paramHandler k v t) := by
  have all : Handled (Machine.paramHandler k) := by
    unfold Machine.paramHandler
    exact .ite (Handled.of Keeps.writeOapRing) <| .ite (Handled.of Keeps.writeOperatingPoint) <|
      .ite (Handled.of Keeps.writeCompactThreshold) <|
      .ite (.ite (Handled.of Keeps.writeSubTail) (.ite (Handled.of Keeps.writeRingConfig) (Handled.of Keeps.plain))) <|
      .ite (Handled.of Keeps.writeProbeSelects) <| .ite (Handled.of Keeps.writeStoredImage) <| .ite
        (Handled.of Keeps.writeScrubControl) <|
      .ite (Handled.of Keeps.writeStepClock) <| .ite (Handled.of Keeps.writeStepConfig) <|
      .ite (.ite (Handled.of Keeps.writeFeedEnable) (Handled.of Keeps.writeFeedConfig)) <| .ite
        (Handled.of Keeps.writeLaneTest) <|
      .ite (Handled.of Keeps.writePortEnable) <| .ite (Handled.of Keeps.writePortConfig) (Handled.of Keeps.plain)
  exact all.keeps h

theorem commandHandler {k : Nat} {f : Handler} (hf : commandHandler k = some f) : Handled f := by
  revert hf
  unfold Machine.commandHandler
  repeat' refine Handled.some_ite ?_ ?_
  · exact Handled.of_some fun h => h.writeStoreSync
  · exact Handled.of_some fun h => h.writeForget
  · exact Handled.of_some fun h => h.writeReadmit
  · exact Handled.of_some fun h => h.writeCancelJob
  · exact Handled.of_some fun h => h.writeChannelStart
  · exact Handled.of_some fun h => h.writeChannelCommand
  · exact Handled.of_some fun h => h.writeLoadFromMemory
  · exact Handled.of_some fun h => h.writeLoadAbort
  · exact Handled.of_some fun h => h.writeAutoloadStore
  · exact Handled.of_some fun h => h.writeStepCommand
  · exact Handled.of_some fun h => h.writeSnapshotAt
  · exact Handled.of_some fun h => h.writeCaptureArm
  · exact Handled.of_some fun h => h.writeWindowRestart
  · exact Handled.of_some fun h => h.writeSoftwareReset
  · exact Handled.of_some fun h => h.writeReleaseReset
  · exact Handled.of_some fun h => h.writeKeyEnroll
  · exact Handled.of_some fun h => h.writeKeyRevoke
  · exact Handled.of_some fun h => h.writeUpdateCommand
  · exact Handled.of_some fun h => h.writeUpdateChunk
  · exact Handled.of_some fun h => h.writeUpdateFromMemory
  · exact Handled.of_some fun h => h.writeAttestNonce
  · rintro ⟨⟩

theorem handlerOf {k : Nat} {v : Val} (h : Keeps s t) : Accepts s (handlerOf k v t) := by
  unfold Machine.handlerOf
  cases hc : Machine.commandHandler k with
  | none => exact h.paramHandler
  | some f => exact (commandHandler hc).keeps h

theorem afterWrite (h : Keeps s t) : Keeps s (State.afterWrite t) := h.assertSoft.flushHeld

theorem writeAny {m : Master} {tr : Transport} {seq k : ℕ} {bytes : List Byte} {sets : ℕ} (h : Keeps s t) :
    Keeps s (State.writeAny m tr seq k bytes sets t) :=
  (h.serveWrite (fun _ _ h => h.handlerOf)).afterWrite

theorem tableWrite {off : ℕ} {l : List Byte} (h : Keeps s t) : Keeps s (State.tableWrite off l t) :=
  .flushMsix (.foldl h fun _ _ h => .ite h.setHost h.setHost)

theorem bar0Write {off : ℕ} {l : List Byte} {sets : ℕ} (h : Keeps s t) : Keeps s (State.bar0Write off l sets t) := by
  unfold Machine.State.bar0Write
  dsimp only
  refine .ite (.ite h.tableWrite h) (.ite h.dropLinear ?_)
  split
  · exact h.dropLinear
  · exact h.dropLinear
  · exact .ite h.dropLinear (h.linearWrite (fun _ _ h => h.handlerOf))

theorem applyStaged {sets : ℕ} {l : List (ℕ × List Byte)} (h : Keeps s t) : Accepts s (State.applyStaged sets l t) := by
  induction l generalizing sets t with
  | nil => exact .ok h
  | cons e rest ih =>
    obtain ⟨k, b⟩ := e
    rw [Machine.State.applyStaged]
    split
    · exact .error
    · split
      · exact .error
      · split
        · exact .error
        · rename_i hu
          exact ih (h.applyVal.handlerOf _ hu)

theorem persistGroup {l : List (ℕ × List Byte)} (h : Keeps s t) : Keeps s (State.persistGroup l t) := .ite h h.queueRecord

theorem applyGroup {l : List (ℕ × List Byte)} {sets : ℕ} (h : Keeps s t) : Accepts s (State.applyGroup l sets t) := by
  unfold Machine.State.applyGroup
  split
  · exact .error
  · rename_i heq
    have h' := h.applyStaged _ heq
    exact h'.persistGroup.applyStaged

theorem groupCommit {m : Master} {tr : Transport} {seq sets : ℕ} (h : Keeps s t) :
    Keeps s (State.groupCommit m tr seq sets t) := by
  unfold Machine.State.groupCommit
  dsimp only
  split
  · exact h.answerErr
  · exact h.answerErr
  · split
    · exact h.closeGroup.answerErr
    · exact h.closeGroup.answerErr
    · split
      · exact h.closeGroup.noteRefusal.answerErr
      · rename_i heq
        have h' := h.closeGroup.applyGroup _ heq
        exact h'.answer.afterWrite

theorem serveMessage {m : Master} {tr : Transport} {h' pay : List Byte} (h : Keeps s t) :
    Keeps s (State.serveMessage m tr h' pay t) := by
  unfold Machine.State.serveMessage
  dsimp only
  split
  · exact h.request (fun _ h => h.answerErr)
  · refine .ite (.ite (h.request (fun _ h => h.serveGroupRead)) (h.request (fun _ h => h.serveRead))) ?_
    refine .ite (h.request (fun _ h => h.writeAny)) (.ite (h.fullRequest (fun _ h => h.groupBegin)) ?_)
    refine .ite (h.fullRequest (fun _ h => h.groupStage)) ?_
    refine .ite (h.fullRequest (fun _ h => h.groupCommit)) ?_
    refine .ite (h.fullRequest (fun _ h => h.groupAbort)) ?_
    refine .ite (h.fullRequest (fun _ h => h.claim)) ?_
    refine .ite (h.fullRequest (fun _ h => h.release)) ?_
    exact .ite (h.fullRequest (fun _ h => h.accept)) (h.fullRequest (fun _ h => h.handover))

theorem setPartial {m : Master} {tr : Transport} {p : Option Partial} (h : Keeps s t) :
    Keeps s (State.setPartial m tr p t) :=
  h.update

theorem discardSegment (h : Keeps s t) : Keeps s (State.discardSegment t) := h.bump

theorem dropPartial {m : Master} {tr : Transport} {code : ℕ} (h : Keeps s t) :
    Keeps s (State.dropPartial m tr code t) := by
  unfold Machine.State.dropPartial
  split
  · exact h
  · exact h.setPartial.answerErr.discardSegment

theorem takeSegment {m : Master} {tr : Transport} {p : Partial} {h' pay : List Byte} (h : Keeps s t) :
    Keeps s (State.takeSegment m tr p h' pay t) := by
  unfold Machine.State.takeSegment
  dsimp only
  exact .ite h.setPartial.dropPartial (.ite h.setPartial h.setPartial.setPartial.serveMessage)

theorem segment {m : Master} {tr : Transport} {bytes : List Byte} (h : Keeps s t) :
    Keeps s (State.segment m tr bytes t) := by
  unfold Machine.State.segment
  dsimp only
  refine .ite h.dropPartial.answerErr ?_
  split
  · exact .ite h.discardSegment (.ite (.ite h.answerErr.discardSegment h.answerErr) h.takeSegment)
  · refine .ite ?_ ?_
    · refine .ite h.dropPartial.discardSegment ?_
      refine .ite (.ite h.dropPartial.answerErr.discardSegment h.dropPartial.answerErr) ?_
      exact h.dropPartial.takeSegment
    · exact .ite h.dropPartial h.takeSegment

theorem receive {m : Master} {tr : Transport} {bytes : List Byte} (h : Keeps s t) :
    Keeps s (State.receive m tr bytes t) := by
  unfold Machine.State.receive
  dsimp only
  exact .ite h (.ite (.ite h.noteClient.answerErr h.noteClient) h.noteClient.segment)

theorem serveSlots {n : ℕ} {l : List (List Byte)} (h : Keeps s t) : Keeps s (State.serveSlots n l t) := by
  induction n generalizing l t with
  | zero => exact h
  | succ n ih =>
    unfold Machine.State.serveSlots
    refine .ite h ?_
    cases l with
    | nil => exact ih h.freshBytes.setNum.receive
    | cons b l => exact ih h.setNum.receive

theorem pollRing (h : Keeps s t) : Keeps s (State.pollRing t) := h.serveSlots

theorem execWrite {m : Master} {tr : Transport} {t' : ℕ} {seq : BitVec 16} {o : ObjId} {val : List Byte} {sets : U64}
    (h : Keeps s t) :
    Goes s (execWrite m tr t' seq o val sets t) :=
  .next ((h.request (fun _ h => h.writeAny)).pollRing)

theorem execLinearMapWrite {t' : ℕ} {offset : BitVec 27} {data : List Byte} {sets : U64} (h : Keeps s t) :
    Goes s (execLinearMapWrite t' offset data sets t) :=
  .ite (.next h.upto) (.next h.upto.bar0Write.afterWrite.pollRing)

theorem execGroupCommit {m : Master} {tr : Transport} {t' : ℕ} {seq : BitVec 16} {sets : U64} (h : Keeps s t) :
    Goes s (execGroupCommit m tr t' seq sets t) :=
  .next ((h.fullRequest (fun _ h => h.groupCommit)).pollRing)

theorem execSegmentReceive {m : Master} {tr : Transport} {t' : ℕ} {bytes : List Byte} (h : Keeps s t) :
    Goes s (execSegmentReceive m tr t' bytes t) :=
  .next h.upto.receive.pollRing

theorem execSegmentGapTimeout {m : Master} {tr : Transport} (h : Keeps s t) : Goes s (execSegmentGapTimeout m tr t) := by
  unfold Machine.execSegmentGapTimeout
  split
  · exact .next h
  · exact .next h.upto.dropPartial

theorem execCanOapFrame {port : CanPort} {t' : ℕ} {id : BitVec 29} {data : List Byte} (h : Keeps s t) :
    Goes s (execCanOapFrame port t' id data t) :=
  .ite (.next h.upto) (.next h.upto.receive.pollRing)

theorem execCanBusOff {port : CanPort} {conf : CanConfinement} (h : Keeps s t) : Goes s (execCanBusOff port conf t) := by
  unfold Machine.execCanBusOff
  dsimp only
  split
  · exact .ite (.next h.setState.flushHeld) (.next h)
  · exact .ite (.next h.setState) (.next h)
  · exact .ite (.next h.setState.setState.bump) (.next h)

theorem execReqTailWrite {q : Req} {val : List Byte} {slots : List (List Byte)} (h : Keeps s t) :
    Goes s (execReqTailWrite q val slots t) := by
  unfold Machine.execReqTailWrite
  dsimp only
  exact .next ((h.serveOwn (fun _ _ h => h.plain)).serveSlots)

theorem execRspHeadWrite {q : Req} {val : List Byte} (h : Keeps s t) : Goes s (execRspHeadWrite q val t) := by
  unfold Machine.execRspHeadWrite
  exact .next ((h.serveOwn (fun _ _ h => h.plain)).flushHeld)

theorem execOapRingConfigWrite {q : Req} {sub : BitVec 8} {val : List Byte} (h : Keeps s t) :
    Goes s (execOapRingConfigWrite q sub val t) := by
  unfold Machine.execOapRingConfigWrite
  exact .ite (.next ((h.serveOwn (fun _ _ h => h.writeOapRing)).flushHeld)) (.next h)

theorem execHostLinkUp {width : BitVec 8} {rate : BitVec 16} (h : Keeps s t) : Goes s (execHostLinkUp width rate t) :=
  .ite (.next h) (.next h.setState.setNum.setNum.flushHeld.pollRing)

theorem execBusMasterEnable {on : Bool} (h : Keeps s t) : Goes s (execBusMasterEnable on t) :=
  .next (.ite h.setHost.flushHeld.flushMsix.pollRing h.setHost)

theorem execPeerOapSegment {t' : ℕ} {dev : BitVec 12} {bytes : List Byte} (h : Keeps s t) :
    Goes s (execPeerOapSegment t' dev bytes t) := by
  unfold Machine.execPeerOapSegment
  dsimp only
  refine .ite (.next h.upto) (.ite (.next h.upto.update.flushHeld.receive.pollRing) ?_)
  exact .ite (.next h.upto) (.next (.foldl h.upto fun _ _ h => h.sendFlit))

theorem execUpdateIr {opcode : Byte} (h : Keeps s t) : Goes s (execUpdateIr opcode t) := .next h.update

theorem execTestLogicReset (h : Keeps s t) : Goes s (execTestLogicReset t) := .next h.update

theorem execBoundaryRegisterUpdate {bits : BitVec 2069} (h : Keeps s t) : Goes s (execBoundaryRegisterUpdate bits t) :=
  .next (.ite h.update h)

theorem execOapsegCapture (h : Keeps s t) : Goes s (execOapsegCapture t) := by
  unfold Machine.execOapsegCapture
  dsimp only
  refine .ite (.next h) ?_
  split
  · exact .next h.emit
  · exact .next h.update.emit

theorem execOapsegUpdate {t' : ℕ} {bytes : List Byte} (h : Keeps s t) : Goes s (execOapsegUpdate t' bytes t) :=
  .ite (.next h.upto) (.next h.upto.receive.pollRing)

theorem exec {i : Instr} (h : Keeps s t) : Goes s (exec i t) := by
  unfold Machine.exec
  split
  · exact h.execRead
  · exact h.execReadGroup
  · exact h.execWrite
  · exact h.execLinearMapWrite
  · exact h.execGroupBegin
  · exact h.execGroupStage
  · exact h.execGroupCommit
  · exact h.execGroupAbort
  · exact h.execGroupTimeout
  · exact h.execClaim
  · exact h.execClaimWindowClose
  · exact h.execLeaseEnd
  · exact h.execRelease
  · exact h.execHandover
  · exact h.execHandoverAccept
  · exact h.execSegmentReceive
  · exact h.execSegmentGapTimeout
  · exact h.execEventDelivery
  · exact h.execRecordCommitDone
  · exact h.execStoreSync
  · exact h.execStoreSynced
  · exact h.execForgetPersisted
  · exact h.execCompactionComplete
  · exact h.execCanOapFrame
  · exact h.execResetCommandFrame
  · exact h.execCanBusOff
  · exact h.execReqTailWrite
  · exact h.execRspHeadWrite
  · exact h.execOapRingConfigWrite
  · exact h.execPeerOapSegment
  · exact h.execOapsegCapture
  · exact h.execOapsegUpdate
  · exact h.execDrawerRelease
  · exact h.execPassCommit
  · exact h.execOutputWritten
  · exact h.execPreemptionRequest
  · exact h.execFaultReport
  · exact h.execSteeringHold
  · exact h.execSteeringRelease
  · exact h.execRampDownStep
  · exact h.execRampUpStep
  · exact h.execCapDescentStep
  · exact h.execRealtimeRiseStep
  · exact h.execThrottleTargetArrival
  · exact h.execBenchSelection
  · exact h.execCollectorSlotOpen
  · exact h.execCollectorAdmit
  · exact h.execChainCombine
  · exact h.execNop
  · exact h.execHalt
  · exact h.execJmp
  · exact h.execBr
  · exact h.execLoop
  · exact h.execSli
  · exact h.execSadd
  · exact h.execSshf
  · exact h.execSag
  · exact h.execSlm
  · exact h.execScr
  · exact h.execYield
  · exact h.execSmovv
  · exact h.execFence
  · exact h.execSemaadd
  · exact h.execSemawait
  · exact h.execSopen
  · exact h.execSwait
  · exact h.execSfree
  · exact h.execSclose
  · exact h.execMma
  · exact h.execVld
  · exact h.execVst
  · exact h.execVfadd
  · exact h.execVfmul
  · exact h.execVfma
  · exact h.execVtof
  · exact h.execVtox
  · exact h.execVclra
  · exact h.execVimac
  · exact h.execVmova
  · exact h.execVnar
  · exact h.execVmax
  · exact h.execVmin
  · exact h.execVamax
  · exact h.execVsrd
  · exact h.execVmask
  · exact h.execResultLanding
  · exact h.execBlockCleared
  · exact h.execContextEviction
  · exact h.execContextSwapComplete
  · exact h.execUnitRequest
  · exact h.execUnitDelivered
  · exact h.execUnitVisible
  · exact h.execRateWindow
  · exact h.execStreamHaltComplete
  · exact h.execStreamResume
  · exact h.execStreamPinComplete
  · exact h.execStreamCloseComplete
  · exact h.execChannelAdmit
  · exact h.execChannelReadServed
  · exact h.execChannelWriteComplete
  · exact h.execBankRefresh
  · exact h.execOperatingPointWrite
  · exact h.execCabinetPointChangeDone
  · exact h.execCxlReadResponse
  · exact h.execCxlCompletionTimeout
  · exact h.execCxlLinkDown
  · exact h.execServeFault
  · exact h.execMigrationComplete
  · exact h.execFrameFreed
  · exact h.execCoreFenceWithSpare
  · exact h.execRowRemoval
  · exact h.execPendingSpareTest
  · exact h.execReplicaTakeover
  · exact h.execCabinetLost
  · exact h.execShardRestore
  · exact h.execReadmitTile
  · exact h.execReadmission
  · exact h.execSubTailWrite
  · exact h.execCplHeadWrite
  · exact h.execJobRingConfigWrite
  · exact h.execPollInterval
  · exact h.execCompletionRecordWrite
  · exact h.execJobPlacement
  · exact h.execJobPreemptSaveDone
  · exact h.execJobRestore
  · exact h.execCheckpointDue
  · exact h.execCheckpointCommit
  · exact h.execCheckpointGapHold
  · exact h.execCancelJob
  · exact h.execJobEnd
  · exact h.execThrottleWindow
  · exact h.execCollectiveMessage
  · exact h.execFabricQueueWrite
  · exact h.execFabricQueueRead
  · exact h.execQueueReset
  · exact h.execClockLoopLockLost
  · exact h.execClockLoopLocked
  · exact h.execFabricPortBeat
  · exact h.execTargetWordReceive
  · exact h.execProbeSelectApply
  · exact h.execChannelStart
  · exact h.execDescriptorFetchDone
  · exact h.execBurstStart
  · exact h.execBeatGrant
  · exact h.execBurstEnd
  · exact h.execArrivalConfirmed
  · exact h.execLateWithdrawal
  · exact h.execDmaBusError
  · exact h.execResume
  · exact h.execAbort
  · exact h.execLoadFromMemory
  · exact h.execSlavePortData
  · exact h.execSpselRise
  · exact h.execLoadHeader
  · exact h.execPacketNop
  · exact h.execWriteFar
  · exact h.execWriteStartseq
  · exact h.execWriteStartdly
  · exact h.execPacketFrames
  · exact h.execPacketEnd
  · exact h.execStartUpStep
  · exact h.execLockTimeout
  · exact h.execLoadIdleTimeout
  · exact h.execLoadAbort
  · exact h.execTargetCleared
  · exact h.execAutoloadStore
  · exact h.execAutoloadStoreDone
  · exact h.execScrubFrameRead
  · exact h.execScrubReload
  · exact h.execScrubPauseEnd
  · exact h.execSettingsUpset
  · exact h.execScrubCriticalReset
  · exact h.execStepStart
  · exact h.execStepEnd
  · exact h.execCutFrameReceive
  · exact h.execDeadlineMiss
  · exact h.execFreezeNotice
  · exact h.execSnapshotAt
  · exact h.execRun
  · exact h.execAbandon
  · exact h.execDrefLost
  · exact h.execTraceRecordDelivered
  · exact h.execVerdictPortRead
  · exact h.execVerdictTaken
  · exact h.execVerdictDeadline
  · exact h.execCaptureArm
  · exact h.execPortEnable
  · exact h.execBringUpDone
  · exact h.execQualifyWindow
  · exact h.execLinkLoss
  · exact h.execPortDownLimit
  · exact h.execLaneTest
  · exact h.execEyeSweep
  · exact h.execLinkBlockReceive
  · exact h.execNak
  · exact h.execReplayTimeout
  · exact h.execRemoteRequest
  · exact h.execRemoteResponse
  · exact h.execRemoteTimeout
  · exact h.execTargetBlockReceive
  · exact h.execBar2Read
  · exact h.execBar2Write
  · exact h.execBar2ApertureWrite
  · exact h.execMsixUnmask
  · exact h.execHostReadCompletion
  · exact h.execHostLinkDown
  · exact h.execBusMasterEnable
  · exact h.execWindowWrite
  · exact h.execWindowRestart
  · exact h.execSupplyFault
  · exact h.execRstIn
  · exact h.execSoftwareResetD
  · exact h.execSoftwareResetC
  · exact h.execSoftwareResetB
  · exact h.execReleaseReset
  · exact h.execPllLockLoss
  · exact h.execClockControllerUpset
  · exact h.execSteeringParityError
  · exact h.execRouteEntryParityError
  · exact h.execComplexCriticalError
  · exact h.execResetRelease
  · exact h.execDeviceExit
  · exact h.execCabinetExit
  · exact h.execCabinetPark
  · exact h.execCabinetWake
  · exact h.execBegin
  · exact h.execUpdateEraseDone
  · exact h.execUpdateChunk
  · exact h.execUpdateFromMemory
  · exact h.execVerify
  · exact h.execActivate
  · exact h.execCancel
  · exact h.execKeyEnroll
  · exact h.execKeyRevoke
  · exact h.execAttestNonce
  · exact h.execPassBoundary
  · exact h.execLinkReplay
  · exact h.execHostLinkUp
  · exact h.execSpselFall
  · exact h.execPrbsLock
  · exact h.execLinkBlockSend
  · exact h.execUpdateIr
  · exact h.execBoundaryRegisterUpdate
  · exact h.execHotReset
  · exact h.execPowerOn
  · exact h.execPerst
  · exact h.execThermalTrip
  · exact h.execWatchdogExpiry
  · exact h.execFenceStoreError
  · exact h.execStandbyMirrored
  · exact h.execTestLogicReset


end Keeps

/-- Settles O6: every command's effect keeps the queue. -/
theorem queueUntouched : Obligations.QueueUntouched := by
  intro c s t h
  obtain ⟨u, hu, hk⟩ := (Keeps.refl s).exec (i := c)
  obtain rfl : u = t := Host.Outcome.next.inj (hu.symm.trans h)
  exact hk.queue

/-- Settles O7: every command's effect goes on. -/
theorem nothingStops : Obligations.NothingStops := by
  intro c s
  obtain ⟨t, ht, -⟩ := (Keeps.refl s).exec (i := c)
  exact ⟨t, ht, trivial⟩

theorem Keeps.canonical {s t : State} (h : Keeps s t) (hs : Canonical s) : Canonical t := ⟨h.mem hs.1, h.flash hs.2⟩

/-- Settles O4: the command in front keeps the canonical form, and so does what passes with nothing commanded. -/
theorem canonicalKept : Obligations.CanonicalKept := by
  intro s t hs h
  cases hp : s.pending with
  | nil =>
    rw [step, hp] at h
    obtain rfl := Host.Outcome.next.inj h
    exact (Keeps.refl s).tick.canonical hs
  | cons c rest =>
    obtain ⟨u, hu, hk⟩ := (Keeps.refl { s with pending := rest }).exec (i := c)
    obtain rfl : u = t := Host.Outcome.next.inj (hu.symm.trans ((stepRunsFront c rest s hp).symm.trans h))
    exact hk.canonical hs

end Sys2Proof.Machine

/-! PROOFS. The lockstep rule, cut frames and freezes: O47 and O48 fail. -/

namespace Sys2Proof.Machine

/-! ## An object listed twice (R398, R400)

At the edge E0 `State.enterBound` takes MinSlack back to its default by removing the object's entry, and a table loses the
first entry of a key alone. Nothing in a state's type lists a key once, and O47 does not ask for it. -/

/-- Step 9 has been started at edge 100 in this controller state; a step takes 4 edges, and the system has diameter 1. -/
def inStep (controller : Nat) (f : LockState → LockState) : State :=
  let s := (((State.reset.setNum Obj.stepControllerState controller).setNum Obj.currentStep 9).setNum Obj.stepPeriod 4).setNum
    Obj.systemDiameter 1
  { s with lock := f { s.lock with started := true, startEdge := 100 } }

/-- Step 9 has been evaluated while Arming; the next one is the first of Bound. -/
def lastArming : State := inStep Lock.arming fun l => { l with first := 8 }

/-- There MinSlack is listed twice, in the place its number gives it. -/
def slackTwice : State :=
  { lastArming with
    obj := lastArming.obj.filter (·.1 < Obj.minSlack) ++ [(Obj.minSlack, .num 5), (Obj.minSlack, .num 7)] ++
      lastArming.obj.filter (Obj.minSlack < ·.1) }

/-- The start of the next step uncovers the second entry. -/
theorem answers_slackTwice : Answers (exec (.stepStart 104) slackTwice) fun u => u.num Obj.minSlack = 7 :=
  ⟨_, rfl, by decide +kernel⟩

/-- Refutes O47: its clause on the first step of Bound does not ask the state to list an object once. In `slackTwice`
MinSlack reads 7 after it. -/
theorem not_stepsUnderTheLockstepRule : ¬ Obligations.StepsUnderTheLockstepRule := by
  intro h
  obtain ⟨-, -, -, hstart, -⟩ := h
  obtain ⟨-, -, -, -, hbound, -⟩ := hstart slackTwice 104 rfl
  obtain ⟨u, ⟨-, -, -, hall, -⟩, hslack⟩ := (hbound 10 (by decide +kernel) (by decide +kernel) (by decide +kernel)
    (by decide +kernel) (by decide +kernel)).and answers_slackTwice
  exact absurd (hall.symm.trans hslack) (by decide)

/-! ## A device number that stands for none (R400, R401)

A proposal with the origin 0xFFFF is one whose origin is not known: `State.propose` leaves FreezeOrigin as it is. A device
number has twelve bits, but nothing in a state's type bounds it, and O48 does not ask for it. -/

/-- Step 9 is under evaluation in Bound; its next step is due at edge 100. The device's number in force is 0xFFFF. -/
def unnumbered : State :=
  ((inStep Lock.bound fun l => { l with first := 5, e0 := some 88, evaluating := true }).setNum Obj.deviceNumberInForce
    0xFFFF).setNum Obj.freezeOrigin 5

/-- The miss leaves the origin that stood. -/
theorem answers_unnumbered : Answers (exec (.deadlineMiss 100) unnumbered) fun u => u.num Obj.freezeOrigin = 5 :=
  ⟨_, rfl, by decide +kernel⟩

/-- Refutes O48: its clause on a deadline missed bounds no device number. In `unnumbered` FreezeOrigin does not name the
device after it. -/
theorem not_cutFramesAndFreezes : ¬ Obligations.CutFramesAndFreezes := by
  intro h
  obtain ⟨-, -, -, hmiss, -⟩ := h
  obtain ⟨-, hmiss⟩ := hmiss unnumbered 100
  obtain ⟨u, ⟨-, -, -, -, -, horigin, -⟩, hkept⟩ := (hmiss (by decide +kernel) (by decide +kernel) rfl (by decide +kernel)
    (by decide +kernel)).and answers_unnumbered
  have hdevice : unnumbered.device = 0xFFFF := by decide +kernel
  rw [hdevice] at horigin
  exact absurd (horigin.symm.trans hkept) (by decide)

end Sys2Proof.Machine

/-! PROOFS. Cabinet and block resets, their exits, and parked cabinets: O54 fails. -/

namespace Sys2Proof.Machine

/-! ## Memory out of order (R245, R492)

Step 3 of a cabinet's exit takes the cells of the cabinet's memory off the list of cells, and a table is searched in the order
of its keys: a cell behind one with a larger address is not found. Nothing in a state's type orders the cells, and that clause
of O54 does not ask for it. -/

/-- Cabinet 0 waits for step 3 of its exit. A cell of its operand memory stands before one of the GDDR7 of cabinet 1. -/
def shuffledCells : State :=
  { State.reset with
    mem := [(operandBase 0, 1), (gddrBase 1, 1)]
    rst := { State.reset.rst with exitDone := 4, asserted := [], cabExit := [(0, 2)] } }

/-- The step uncovers the cell of cabinet 1. -/
theorem answers_shuffledCells :
    Answers (exec (.cabinetExit 0 3 []) shuffledCells) fun u => u.byte (gddrBase 1) = 1 :=
  ⟨_, rfl, by decide +kernel⟩

/-- Refutes O54: its clause on step 3 of a cabinet's exit does not ask memory to be in order. In `shuffledCells` a byte of
another cabinet changes. -/
theorem not_resetsOfCabinetsAndBlocks : ¬ Obligations.ResetsOfCabinetsAndBlocks := by
  intro h
  obtain ⟨-, -, -, hexit, -⟩ := h
  obtain ⟨-, hstep⟩ := hexit shuffledCells 0 3 []
  obtain ⟨-, -, -, hbringUp, -⟩ := hstep (by decide) (by decide) (by decide) (by decide) (by decide)
  obtain ⟨u, ⟨-, -, -, hothers, -⟩, huncovered⟩ := (hbringUp rfl rfl).and answers_shuffledCells
  have hread : shuffledCells.byte (gddrBase 1) = 0 := by decide +kernel
  rw [hothers (gddrBase 1) (by decide), hread] at huncovered
  exact absurd huncovered (by decide)

end Sys2Proof.Machine

/-! PROOFS. Resets of the device, and its exit from them: O53. -/

namespace Sys2Proof.Machine

/-! ## Numbers that a flag or a state leaves

The same as `State.num_setFlag_ne` and its like, with the side condition in the form that `decide` closes. -/

namespace State

variable {k k' : Nat} (n : Nat) (s : State)

theorem num_flagged (hm : k % 256 ≠ 0x12) : (s.setFlag k n).num k = s.num k ||| n :=
  num_setFlag_self _ _ _ (quiet_of_mod hm)
theorem num_flagged_ne (hne : k' ≠ k) (hm : k' % 256 ≠ 0x12) : (s.setFlag k n).num k' = s.num k' :=
  num_setFlag_ne _ _ _ _ (quiet_of_mod hm) hne
theorem num_moved (hm : k % 256 ≠ 0x12) : (s.setState k n).num k = n := num_setState_self _ _ _ (quiet_of_mod hm)
theorem num_moved_ne (hne : k' ≠ k) (hm : k' % 256 ≠ 0x12) : (s.setState k n).num k' = s.num k' :=
  num_setState_ne _ _ _ _ (quiet_of_mod hm) hne

end State

/-! ## What asserts a reset of the device (R480, R493, R497) -/

/-- A reset looks at the expanders, the checkpoints, the TAP, the queue, memory, the sources and DeviceState alone. -/
theorem ResetBy.congr {src : ResetSource} {s t u : State} (h : ResetBy src t u) (hmm : t.mm = s.mm) (hjobs : t.jobs = s.jobs)
    (hjtag : t.jtag = s.jtag) (hpending : t.pending = s.pending) (hmem : t.mem = s.mem)
    (hasserted : t.rst.asserted = s.rst.asserted) (hcauses : t.rst.causes = s.rst.causes)
    (hstate : t.num Obj.deviceState = s.num Obj.deviceState) : ResetBy src s u := by
  unfold ResetBy at h ⊢
  rwa [hmm, hjobs, hjtag, hpending, hmem, hasserted, hcauses, hstate] at h

theorem ChangesOnly.resetBy {l : List Nat} {s t u : State} {src : ResetSource} (h : ChangesOnly l s t)
    (hl : Obj.deviceState ∉ l) (hu : ResetBy src t u) : ResetBy src s u := by
  obtain ⟨ht, hk⟩ := h
  refine hu.congr ?_ ?_ ?_ ?_ ?_ ?_ ?_ (hk.num hl (ne_eventsDropped (by decide))) <;> rw [ht]

theorem powerOn_answers (s : State) : Answers (exec .powerOn s) fun u =>
    u.obj = State.reset.obj ∧ u.tiles = [] ∧ u.jobs.jobs = [] ∧ u.rst = State.reset.rst ∧ u.jtag = State.reset.jtag ∧
      u.pending = s.pending ∧ u.store.flash = s.store.flash ∧ ∀ e ∈ u.mem, inCxl e.1 = true ∧ e ∈ s.mem := by
  refine ⟨s.powerUp, rfl, rfl, rfl, rfl, rfl, rfl, rfl, rfl, fun e he => ?_⟩
  have hmem : s.powerUp.mem = if (Config.freeValue s.free).getLsbD 0 then s.mem.filter (fun e => inCxl e.1) else [] := rfl
  rw [hmem] at he
  split at he
  · exact (List.mem_filter.1 he).symm
  · cases he

theorem supplyFault_answers (s : State) : Answers (exec (.supplyFault none) s) fun u =>
    ResetBy .supply s u ∧ u.rst.faults = s.rst.faults + 1 ∧ u.rst.module = true := by
  obtain ⟨t, ht⟩ : ∃ t : State, t = { s with rst := { s.rst with faults := s.rst.faults + 1 } } := ⟨_, rfl⟩
  obtain ⟨_, hlost⟩ := t.loseQueue_loses
  refine ⟨t.resetDevice .supply, by rw [ht]; rfl, ?_, ?_, rfl⟩
  · refine (t.resetDevice_resetBy .supply).congr ?_ ?_ ?_ ?_ ?_ ?_ ?_ ?_ <;> rw [ht]
    rfl
  · change t.loseQueue.rst.faults = _
    rw [hlost.rst]
    exact congrArg (·.rst.faults) ht

theorem thermalTrip_answers (s : State) : Answers (exec .thermalTrip s) fun u =>
    ResetBy .thermal s u ∧ u.rst.trips = s.rst.trips + 1 := by
  obtain ⟨t, ht⟩ : ∃ t : State, t = { s with rst := { s.rst with trips := s.rst.trips + 1 } } := ⟨_, rfl⟩
  obtain ⟨_, hlost⟩ := t.loseQueue_loses
  refine ⟨t.resetDevice .thermal, by rw [ht]; rfl, ?_, ?_⟩
  · refine (t.resetDevice_resetBy .thermal).congr ?_ ?_ ?_ ?_ ?_ ?_ ?_ ?_ <;> rw [ht]
    rfl
  · change t.loseQueue.rst.trips = _
    rw [hlost.rst]
    exact congrArg (·.rst.trips) ht

/-- RST_IN (R480). -/
theorem rstIn_answers (s : State) (n : Nat) : (n < 100 → exec (.rstIn n) s = .next s) ∧
    (1000 ≤ n → Answers (exec (.rstIn n) s) (ResetBy .rstIn s)) ∧
    Answers (exec (.rstIn n) s) fun u => u.obj = s.obj ∨ u.obj = State.reset.obj := by
  have hreset := s.resetDevice_resetBy .rstIn
  change (_ → execRstIn n s = _) ∧ (_ → Answers (execRstIn n s) _) ∧ Answers (execRstIn n s) _
  unfold execRstIn
  refine ⟨fun h => if_pos h, fun h => ?_, ?_⟩
  · rw [if_neg (by omega), if_pos h]
    exact ⟨_, rfl, hreset⟩
  · split
    · exact ⟨s, rfl, .inl rfl⟩
    · split
      · exact ⟨_, rfl, .inr hreset.1⟩
      · dsimp only [State.fresh]
        split
        · exact ⟨_, rfl, .inr (State.resetDevice_resetBy _ .rstIn).1⟩
        · exact ⟨_, rfl, .inl rfl⟩

/-- A loss of lock of a fixed PLL counts and raises its flag before it resets anything (R500). -/
theorem pllNoted_changes (s : State) :
    ChangesOnly [Obj.pllLockLosses, Obj.clockFlags] s ((s.bump Obj.pllLockLosses 1).setFlag Obj.clockFlags 1) :=
  ((State.bump_changes _ _ _).mono (by simp)).trans ((State.setFlag_changes _ _ _).mono (by simp))

theorem pllLockLoss_device {s : State} {d : Fin 9} (hexit : 3 ≤ s.rst.exitDone) (hdom : s.pllDomain (16 + d) = true) :
    Answers (exec (.pllLockLoss ⟨16 + d, by omega⟩) s) (ResetBy (.pllDevice d) s) := by
  refine ⟨((s.bump Obj.pllLockLosses 1).setFlag Obj.clockFlags 1).resetDevice (.pllDevice d), ?_,
    (pllNoted_changes s).resetBy (by decide) (State.resetDevice_resetBy _ _)⟩
  change execPllLockLoss _ s = _
  have hwide : ¬ 16 + d.val < 16 := by omega
  simp [execPllLockLoss, Nat.not_lt.2 hexit, hdom, hwide]

/-- A primary that fails without a mirrored standby resets the device (R483). -/
theorem failPrimary_resetBy {s : State} (h : s.num Obj.standbyState ≠ 3) : ResetBy .critical s s.failPrimary := by
  have hstandby : (s.bump Obj.complexResets 1).num Obj.standbyState ≠ 3 := by rwa [State.num_bump_ne _ _ _ _ (by decide)]
  rw [State.failPrimary]
  dsimp only
  rw [if_pos hstandby]
  exact (State.bump_changes Obj.complexResets 1 s).resetBy (by decide) (State.resetDevice_resetBy _ _)

theorem watchdogExpiry_resets {s : State} (hserve : s.serving = true) (h : s.num Obj.standbyState ≠ 3) :
    Answers (exec .watchdogExpiry s) (ResetBy .critical s) :=
  ⟨_, congrArg Host.Outcome.next (if_pos hserve), failPrimary_resetBy h⟩

theorem complexCriticalError_resets {s : State} (hserve : s.serving = true) (h : s.num Obj.standbyState ≠ 3) :
    Answers (exec (.complexCriticalError true) s) (ResetBy .critical s) := by
  have hflag := State.setFlag_changes Obj.healthFlags 0x40 s
  have hstandby : (s.setFlag Obj.healthFlags 0x40).num Obj.standbyState ≠ 3 := by
    rwa [State.num_flagged_ne _ _ (by decide) (by decide)]
  refine ⟨(s.setFlag Obj.healthFlags 0x40).failPrimary, ?_, hflag.resetBy (by decide) (failPrimary_resetBy hstandby)⟩
  change execComplexCriticalError true s = _
  simp [execComplexCriticalError, hserve]

/-! ## SOFTWARE_RESET_D (R481, R482) -/

/-- An admitted write of a command object: what its chapter does, and no value is stored. -/
theorem serveOwn_command {q : Req} {k : Nat} {val : List Byte} {s : State} (hadm : Admitted q k val s)
    (hrow : (rowOf k).any (fun r => r.ty.fixed && r.acc = .wo) = true) (hd : Handler) :
    (∀ u, hd (.num (leNat val)) (Arrived q s) = .ok u → serveOwn q k val hd s = Replied q k u) ∧
    (∀ e, hd (.num (leNat val)) (Arrived q s) = .error e → serveOwn q k val hd s = Denied q k e (Arrived q s)) := by
  obtain ⟨r, v, hrow', hdec, hok, herr⟩ := serveOwn_admitted hadm hd
  simp only [hrow', Option.any_some, Bool.and_eq_true, decide_eq_true_eq] at hrow
  obtain ⟨hty, hacc⟩ := hrow
  obtain rfl := decodeVal_fixed hty hdec
  have happly : (Arrived q s).applyVal r k (.num (leNat val)) 0 = Arrived q s := by simp [State.applyVal, hacc]
  exact ⟨fun u hu => hok u (by simp [State.doWrite, happly, hu, hacc]), fun e he => herr e (by simp [State.doWrite, happly, he])⟩

/-- An answer is part of sending. -/
theorem replied_sends (q : Req) (k : Nat) (s : State) : Sends s (Replied q k s) := by
  obtain ⟨via, t⟩ := q
  cases via with
  | oap m tr seq => exact State.answer_sends m tr _ _ _ _ _ s
  | linear => exact Sends.refl s

/-- What sending leaves is all that a reset looks at. -/
theorem Sends.resetBy {s t u : State} {src : ResetSource} (h : Sends s t) (hu : ResetBy src t u) : ResetBy src s u := by
  have ht := h.1
  refine hu.congr ?_ ?_ ?_ ?_ ?_ ?_ ?_ (h.num (by decide) (ne_eventsDropped (by decide))) <;> rw [ht] <;> rfl

theorem arrived_resetBy {q : Req} {s u : State} {src : ResetSource} (hu : ResetBy src (Arrived q s) u) : ResetBy src s u := by
  refine hu.congr ?_ ?_ ?_ ?_ ?_ ?_ ?_ (arrived_num q s _) <;> rw [arrived_eq]

/-- The request for a reset that waits for its answer to go out. -/
def State.withSoft (n : Option Nat) (s : State) : State := { s with rst := { s.rst with soft := n } }

theorem withSoft_resetBy {n : Option Nat} {s u : State} {src : ResetSource} (hu : ResetBy src (s.withSoft n) u) :
    ResetBy src s u :=
  hu.congr rfl rfl rfl rfl rfl rfl rfl rfl

theorem State.assertSoft_device {n : Nat} {s : State} (hsoft : s.rst.soft = some n) (hreach : n % 4 = 1) :
    s.assertSoft = (s.withSoft none).resetDevice .software := by
  rw [assertSoft, hsoft]
  simp only [bits_reach, hreach]
  rfl

/-- An accepted write of SoftwareReset notes its value, is answered, and then takes effect (R481). -/
theorem softwareReset_accepted {q : Req} {val : List Byte} {s : State} (hadm : Admitted q Obj.softwareReset val s)
    (h : leNat val % 4 = 3 → (Arrived q s).blockIdle (bits (leNat val) 8 8) = true) :
    (serveOwn q Obj.softwareReset val writeSoftwareReset s).assertSoft =
      (Replied q Obj.softwareReset ((Arrived q s).withSoft (some (leNat val)))).assertSoft := by
  refine congrArg State.assertSoft ((serveOwn_command hadm (by decide) writeSoftwareReset).1 _ ?_)
  unfold writeSoftwareReset
  dsimp only [Val.toNat]
  rw [if_neg]
  · rfl
  · simpa [State.bits_reach] using h

theorem softwareResetD_answers {q : Req} {val : List Byte} {s : State} (hadm : Admitted q Obj.softwareReset val s)
    (hreach : leNat val % 4 = 1) : Answers (exec (.softwareResetD q val) s) (ResetBy .software s) := by
  have hsent := replied_sends q Obj.softwareReset ((Arrived q s).withSoft (some (leNat val)))
  have hsoft : (Replied q Obj.softwareReset ((Arrived q s).withSoft (some (leNat val)))).rst.soft = some (leNat val) := by
    rw [hsent.rst]
    rfl
  refine ⟨_, congrArg Host.Outcome.next (softwareReset_accepted hadm (by omega)), ?_⟩
  rw [State.assertSoft_device hsoft hreach]
  exact arrived_resetBy (withSoft_resetBy (hsent.resetBy (withSoft_resetBy (State.resetDevice_resetBy _ _))))

/-! ## RESET_RELEASE (R484, R491) -/

/-- The source is no longer asserted. -/
def State.releaseSource (src : ResetSource) (s : State) : State :=
  { s with rst := { s.rst with asserted := s.rst.asserted.filter (· ≠ src) } }

/-- A source of reach C that is released changes at most which cabinets are in their exit. -/
theorem resetRelease_cabinet {s : State} {src : ResetSource} {c : Nat} (hsrc : src ∈ s.rst.asserted)
    (hc : src.cabinet = some c) : ∃ t, exec (.resetRelease src) s =
      .next { s.releaseSource src with rst := { (s.releaseSource src).rst with cabExit := t } } := by
  change ∃ t, execResetRelease src s = _
  unfold execResetRelease
  simp only [List.contains_iff_mem.2 hsrc, hc, Bool.not_true, Bool.false_eq_true, if_false]
  split
  · exact ⟨_, rfl⟩
  · exact ⟨s.rst.cabExit, rfl⟩

/-- A wider one begins the exit, unless another stands. -/
theorem resetRelease_wide {s : State} {src : ResetSource} (hsrc : src ∈ s.rst.asserted) (hc : src.cabinet = none) :
    exec (.resetRelease src) s =
      .next (if (s.releaseSource src).inReset then s.releaseSource src else (s.releaseSource src).beginExit) := by
  change execResetRelease src s = _
  unfold execResetRelease
  simp only [List.contains_iff_mem.2 hsrc, hc, Bool.not_true, Bool.false_eq_true, if_false]
  rfl

theorem State.beginExit_begins (s : State) : s.beginExit.num Obj.startupStep = (if s.rst.module then 1 else 2) ∧
    s.beginExit.rst.exitDone = 0 ∧ s.beginExit.rst.releasedAt = s.now ∧
    s.beginExit.sec.nodeId = Config.strapNodeId.toNat ∧ s.beginExit.sec.bootSel = Config.strapBootSel.toNat ∧
    s.beginExit.num Obj.debugEnabled = b2n Config.strapDebugEn := by
  refine ⟨num_setNum_self _ _ _, rfl, rfl, rfl, rfl, ?_⟩
  exact (num_setNum_ne _ _ _ _ (by decide)).trans (num_setNum_self _ _ _)

theorem resetRelease_answers {s : State} {src : ResetSource} (hsrc : src ∈ s.rst.asserted) :
    Answers (exec (.resetRelease src) s) fun u => u.rst.asserted = s.rst.asserted.filter (· ≠ src) ∧
      u.mem = s.mem ∧ u.tiles = s.tiles ∧
      (src.cabinet = none → (∀ r ∈ s.rst.asserted, r ≠ src → r.cabinet ≠ none) →
        u.num Obj.startupStep = (if s.rst.module then 1 else 2) ∧ u.rst.exitDone = 0 ∧ u.rst.releasedAt = s.now ∧
        u.sec.nodeId = Config.strapNodeId.toNat ∧ u.sec.bootSel = Config.strapBootSel.toNat ∧
        u.num Obj.debugEnabled = b2n Config.strapDebugEn) ∧
      (src.cabinet ≠ none → u.obj = s.obj) := by
  cases hc : src.cabinet with
  | some c =>
    obtain ⟨t, ht⟩ := resetRelease_cabinet hsrc hc
    exact ⟨_, ht, rfl, rfl, rfl, (absurd · (Option.some_ne_none c)), fun _ => rfl⟩
  | none =>
    refine ⟨_, resetRelease_wide hsrc hc, ?_⟩
    have hlast (h : ∀ r ∈ s.rst.asserted, r ≠ src → r.cabinet ≠ none) : (s.releaseSource src).inReset = false := by
      simpa [State.inReset, State.releaseSource, Option.isSome_iff_ne_none] using h
    split
    case isTrue hin => exact ⟨rfl, rfl, rfl, fun _ h => absurd (hlast h) (by simp [hin]), fun h => absurd rfl h⟩
    case isFalse =>
      exact ⟨rfl, rfl, rfl, fun _ _ => (s.releaseSource src).beginExit_begins, fun h => absurd rfl h⟩

/-! ## DEVICE_EXIT (R487, R488, R490, R497) -/

theorem deviceExit_skips {s : State} {n : Fin 11} (l : List Nat)
    (h : s.inReset = true ∨ s.num Obj.deviceState ≠ 1 ∨ n.val ≠ s.nextExit) : exec (.deviceExit n l) s = .next s := by
  change execDeviceExit n l s = _
  refine if_pos ?_
  simpa [or_assoc] using h

section Exit

variable {s : State} {n : Fin 11} (hout : s.inReset = false) (hstate : s.num Obj.deviceState = 1) (hn : n.val = s.nextExit)
include hout hstate hn

theorem deviceExit_steps (l : List Nat) : exec (.deviceExit n l) s = .next (s.exitStep n l) := by
  change execDeviceExit n l s = _
  refine if_neg ?_
  simp [hout, hstate, hn]

end Exit

/-- Step 2: three failed loads of the trims stop the exit. -/
theorem exitStep_trims (s : State) (l : List Nat) : (l.length < 3 → s.exitStep 2 l =
      (s.setNum Obj.trimLoads (l.length + 1)).stepDone 2 3) ∧
    (3 ≤ l.length → s.exitStep 2 l = (s.setNum Obj.trimLoads 3).exitFailed 2) :=
  ⟨fun h => if_neg (by omega), fun h => if_pos h⟩

theorem num_stepDone_ne {k : Nat} (n next : Nat) (s : State) (hk : k ≠ Obj.startupStep) : (s.stepDone n next).num k = s.num k :=
  State.num_setNum_ne _ _ _ _ hk

theorem exitStep_clocks (s : State) (l : List Nat) : s.exitStep 3 l = s.exitClocks.stepDone 3 4 := rfl
theorem exitStep_end (s : State) (l : List Nat) : s.exitStep 10 l = s.exitEnd := rfl

/-! ### Step 3: one state after another, each of an object of its own -/

theorem ChangesOnly.foldl {α : Type} {key : α → Nat} {f : State → α → State} (hf : ∀ s a, ChangesOnly [key a] s (f s a))
    (l : List α) (s : State) : ChangesOnly (l.map key) s (l.foldl f s) := by
  induction l generalizing s with
  | nil => exact ⟨rfl, KeepsObjects.refl _ _⟩
  | cons a l ih => exact ((hf s a).mono (by simp)).trans ((ih _).mono (by simp))

/-- Each object takes the state that is written to it, where what is written looks at no object. -/
theorem num_foldl_setState {key : Nat → Nat} {v : State → Nat → Nat} (hv : ∀ s k n i, v (s.setState k n) i = v s i)
    (hkey : ∀ i j, key i = key j → i = j) {i : Nat} (hm : ∀ m, m < 256 → key i ≠ mrKey Obj.eventsDropped m) {l : List Nat}
    (hl : l.Nodup) (hi : i ∈ l)
    (s : State) : (l.foldl (fun s i => s.setState (key i) (v s i)) s).num (key i) = v s i := by
  induction l generalizing s with
  | nil => cases hi
  | cons j l ih =>
    obtain ⟨hj, hl⟩ := List.nodup_cons.1 hl
    rw [List.foldl_cons]
    rcases List.mem_cons.1 hi with rfl | hi
    · have hrest := ChangesOnly.foldl (fun s i => State.setState_changes (key i) (v s i) s) l (s.setState (key i) (v s i))
      rw [hrest.2.num (fun h => ?_) hm, State.num_setState_self _ _ _ fun m hl => hm m (by omega)]
      obtain ⟨a, ha, he⟩ := List.mem_map.1 h
      exact hj (hkey _ _ he ▸ ha)
    · rw [ih hl hi, hv]

/-- Every clock runs, but those of a cabinet in its reset. -/
def State.startClocks (s : State) : State :=
  (List.range 25).foldl (fun s d => s.setState (Obj.clockState + d) (if d < 16 && s.apart (d % 8) then 1 else 2)) s

/-- No clock's state stands at a masters' count of dropped events. -/
theorem clockState_ne (d : Fin 25) (m : Nat) (hm : m < 256) : Obj.clockState + d.val ≠ mrKey Obj.eventsDropped m := by
  have := d.isLt
  unfold Obj.clockState Obj.eventsDropped mrKey
  omega

theorem startClocks_num (s : State) (d : Fin 25) : s.startClocks.num (Obj.clockState + d) =
    if d.val < 16 ∧ s.inCReset (d.val % 8) = true then 1 else 2 := by
  refine (num_foldl_setState (key := (Obj.clockState + ·)) (fun s k n i => ?_) (fun i j h => Nat.add_left_cancel h)
    (clockState_ne d) List.nodup_range (List.mem_range.2 d.isLt) s).trans ?_
  · rw [State.apart, State.apart, State.inCReset, State.inCReset, State.setState_rst]
  · simp [State.apart]

/-- The objects that step 3 sets after the clocks. -/
def powerKeys : List Nat := (List.range 8).map (Obj.cabinetPowerState + ·) ++ [Obj.oscillatorState, Obj.hostLinkState]

theorem exitClocks_changes (s : State) : ChangesOnly powerKeys s.startClocks s.exitClocks := by
  have hpower := ChangesOnly.foldl (fun s c => State.setState_changes (Obj.cabinetPowerState + c) 1 s) (List.range 8)
    s.startClocks
  exact ((hpower.mono (by simp [powerKeys])).trans ((State.setState_changes _ _ _).mono (by simp [powerKeys]))).trans
    ((State.setState_changes _ _ _).mono (by simp [powerKeys]))

theorem exitClocks_num (s : State) : s.exitClocks.num Obj.hostLinkState = 1 ∧ s.exitClocks.num Obj.oscillatorState = 1 ∧
    ∀ d : Fin 25, s.exitClocks.num (Obj.clockState + d) = if d.val < 16 ∧ s.inCReset (d.val % 8) = true then 1 else 2 := by
  refine ⟨State.num_moved _ _ (by decide), ?_, fun d => ?_⟩
  · exact (State.num_moved_ne _ _ (by decide) (by decide)).trans (State.num_moved _ _ (by decide))
  · rw [(exitClocks_changes s).2.num (by decide +revert) (clockState_ne d), startClocks_num]

/-! ### Step 10: the counts of resets and faults, and Operational (R491, R493, R497) -/

theorem setPersisted_stores {l : List Nat} (k : Nat) (v : Val) (s : State) (hk : k ∈ l) (hq : queueKeys ⊆ l) :
    Stores l s (s.setPersisted k v) :=
  ((State.setVal_changes k v s).stores.mono (by simpa using hk)).trans ((State.queueRecord_stores _ _).mono hq)

theorem val_setPersisted_self (k : Nat) (v : Val) (s : State) (hk : k ∉ queueKeys) (hm : k % 256 ≠ 0x12) :
    (s.setPersisted k v).val k = v := by
  have h := (State.queueRecord_stores (oneRec k ((s.setVal k v).val k)) (s.setVal k v)).2 k hk (ne_eventsDropped hm)
  exact h.trans (State.val_setVal_self k v s)

theorem bumpPersisted_stores {l : List Nat} (k n : Nat) (s : State) (hk : k ∈ l) (hq : queueKeys ⊆ l) :
    Stores l s (s.bumpPersisted k n) := setPersisted_stores k _ s hk hq

theorem num_bumpPersisted_self (k n : Nat) (s : State) (hk : k ∉ queueKeys) (hm : k % 256 ≠ 0x12) :
    (s.bumpPersisted k n).num k = min (s.num k + n) (maxOf k) :=
  congrArg Val.toNat (val_setPersisted_self k _ s hk hm)

/-- The cause, the count and the time of the start-up are written. -/
def State.startWritten (s : State) : State :=
  let t := (s.setPersisted Obj.resetCause (.num (if s.rst.causes.testBit 0 then 1 else s.rst.causes))).bumpPersisted
    Obj.resetCount 1
  t.setNum Obj.startupTimeUs (min ((t.now - s.rst.releasedAt) / 1000) 0xFFFFFFFF)

/-- The trips and faults noted before the firmware served are counted. -/
def State.faultsWritten (r : RstState) (s : State) : State :=
  let s := if r.trips = 0 then s else s.bumpPersisted Obj.thermalTrips r.trips
  if r.faults = 0 then s else s.bumpPersisted Obj.supplyFaults r.faults

/-- No trip or fault is noted. -/
def State.faultsCleared (s : State) : State := { s with rst := { s.rst with trips := 0, faults := 0 } }

theorem exitEnd_eq (s : State) :
    s.exitEnd = ((s.startWritten.faultsWritten s.rst).faultsCleared.setState Obj.deviceState 2).stepDone 10 10 := rfl

theorem startWritten_nums (s : State) : Counted Obj.resetCount 1 s s.startWritten ∧
    s.startWritten.num Obj.startupTimeUs = min ((s.now - s.rst.releasedAt) / 1000) 0xFFFFFFFF ∧
    s.startWritten.num Obj.resetCause = (if s.rst.causes.testBit 0 then 1 else s.rst.causes) ∧
    s.startWritten.mem = s.mem ∧ s.startWritten.tiles = s.tiles := by
  have hcause := setPersisted_stores (l := Obj.resetCause :: queueKeys) Obj.resetCause
    (.num (if s.rst.causes.testBit 0 then 1 else s.rst.causes)) s (by simp) (by simp)
  have hself := congrArg Val.toNat (val_setPersisted_self Obj.resetCause
    (.num (if s.rst.causes.testBit 0 then 1 else s.rst.causes)) s (by decide) (by decide))
  unfold State.startWritten
  generalize s.setPersisted Obj.resetCause _ = t at hcause hself ⊢
  have hcount := bumpPersisted_stores (l := Obj.resetCount :: queueKeys) Obj.resetCount 1 t (by simp) (by simp)
  have hcounted := num_bumpPersisted_self Obj.resetCount 1 t (by decide) (by decide)
  generalize t.bumpPersisted Obj.resetCount 1 = u at hcount hcounted ⊢
  have hnow : u.now = s.now := by rw [hcount.1, hcause.1]; rfl
  refine ⟨?_, ?_, ?_, hcount.mem.trans hcause.mem, hcount.tiles.trans hcause.tiles⟩
  · rw [Counted, State.num_setNum_ne _ _ _ _ (by decide), hcounted, hcause.num (by decide) (by decide)]
  · rw [State.num_setNum_self, hnow]
  · rw [State.num_setNum_ne _ _ _ _ (by decide), hcount.num (by decide) (by decide)]
    exact hself

theorem faultsWritten_stores (r : RstState) (s : State) :
    Stores (Obj.thermalTrips :: Obj.supplyFaults :: queueKeys) s (s.faultsWritten r) := by
  have hstep (k n : Nat) (t : State) (hk : k ∈ Obj.thermalTrips :: Obj.supplyFaults :: queueKeys) :
      Stores (Obj.thermalTrips :: Obj.supplyFaults :: queueKeys) t (if n = 0 then t else t.bumpPersisted k n) := by
    split
    · exact Stores.refl _ _
    · exact bumpPersisted_stores k n t hk (by simp)
  exact (hstep _ r.trips s (by simp)).trans (hstep _ r.faults _ (by simp))

theorem exitEnd_answers (s : State) : s.exitEnd.num Obj.deviceState = 2 ∧ s.exitEnd.rst.exitDone = 10 ∧
    Counted Obj.resetCount 1 s s.exitEnd ∧
    s.exitEnd.num Obj.startupTimeUs = min ((s.now - s.rst.releasedAt) / 1000) 0xFFFFFFFF ∧
    s.exitEnd.num Obj.resetCause = (if s.rst.causes.testBit 0 then 1 else s.rst.causes) ∧ s.exitEnd.mem = s.mem ∧
    s.exitEnd.tiles = s.tiles := by
  obtain ⟨hcount, htime, hcause, hmem, htiles⟩ := startWritten_nums s
  have hfaults := faultsWritten_stores s.rst s.startWritten
  rw [exitEnd_eq]
  generalize s.startWritten = t at *
  generalize t.faultsWritten s.rst = u at *
  have hmoved := State.setState_changes Obj.deviceState 2 u.faultsCleared
  have hnum {k : Nat} (hk : k ∉ Obj.startupStep :: Obj.deviceState :: Obj.thermalTrips :: Obj.supplyFaults :: queueKeys)
      (hm : k % 256 ≠ 0x12) : ((u.faultsCleared.setState Obj.deviceState 2).stepDone 10 10).num k = t.num k := by
    simp only [List.mem_cons, not_or] at hk
    obtain ⟨hstep, hstate, hrest⟩ := hk
    refine (num_stepDone_ne _ _ _ hstep).trans ((hmoved.2.kept ⟨by simpa using hstate, hm⟩).trans ?_)
    exact hfaults.num (by simpa using hrest) hm
  refine ⟨?_, rfl, ?_, ?_, ?_, ?_, ?_⟩
  · exact (State.num_setNum_ne _ _ _ _ (by decide)).trans (State.num_moved _ _ (by decide))
  · rw [Counted, hnum (by decide) (by decide), hcount]
  · rw [hnum (by decide) (by decide), htime]
  · rw [hnum (by decide) (by decide), hcause]
  · exact hmoved.stores.mem.trans (hfaults.mem.trans hmem)
  · exact hmoved.stores.tiles.trans (hfaults.tiles.trans htiles)

theorem deviceExit_answers {s : State} {n : Fin 11} (l : List Nat) (hout : s.inReset = false)
    (hstate : s.num Obj.deviceState = 1) (hn : n.val = s.nextExit) :
    (n.val = 2 → l.length < 3 → Answers (exec (.deviceExit n l) s) fun u => u.rst.exitDone = 2 ∧ u.num Obj.startupStep = 3 ∧
      u.num Obj.trimLoads = l.length + 1 ∧ KeepsObjects [Obj.startupStep, Obj.trimLoads] s u) ∧
    (n.val = 2 → 3 ≤ l.length → Answers (exec (.deviceExit n l) s) fun u => u.num Obj.failedStep = 2 ∧
      u.num Obj.deviceState = 3 ∧ u.rst = s.rst) ∧
    (n.val = 3 → Answers (exec (.deviceExit n l) s) fun u => u.rst.exitDone = 3 ∧ u.num Obj.startupStep = 4 ∧
      u.num Obj.hostLinkState = 1 ∧ u.num Obj.oscillatorState = 1 ∧
      ∀ d : Fin 25, u.num (Obj.clockState + d) = (if d.val < 16 ∧ s.inCReset (d.val % 8) = true then 1 else 2)) ∧
    (n.val = 10 → Answers (exec (.deviceExit n l) s) fun u => u.num Obj.deviceState = 2 ∧ u.rst.exitDone = 10 ∧
      Counted Obj.resetCount 1 s u ∧ u.num Obj.startupTimeUs = min ((s.now - s.rst.releasedAt) / 1000) 0xFFFFFFFF ∧
      u.num Obj.resetCause = (if s.rst.causes.testBit 0 then 1 else s.rst.causes) ∧ u.mem = s.mem ∧ u.tiles = s.tiles) := by
  have hrun := deviceExit_steps hout hstate hn l
  have hstep {m : Nat} (h : n.val = m) : exec (.deviceExit n l) s = .next (s.exitStep m l) :=
    hrun.trans (congrArg (fun i => Host.Outcome.next (s.exitStep i l)) h)
  refine ⟨fun h hl => ⟨_, hstep h, ?_⟩, fun h hl => ⟨_, hstep h, ?_⟩,
    fun h => ⟨_, (hstep h).trans (congrArg _ (exitStep_clocks s l)), ?_⟩,
    fun h => ⟨_, (hstep h).trans (congrArg _ (exitStep_end s l)), exitEnd_answers s⟩⟩
  · rw [(exitStep_trims s l).1 hl]
    refine ⟨rfl, State.num_setNum_self _ _ _, ?_, ?_⟩
    · exact (State.num_setNum_ne _ _ _ _ (by decide)).trans (State.num_setNum_self _ _ _)
    · exact (KeepsObjects.setVal (by simp) _ s).trans (KeepsObjects.setVal (k := Obj.startupStep) (by simp) _ _)
  · rw [(exitStep_trims s l).2 hl]
    refine ⟨?_, State.num_moved _ _ (by decide), ?_⟩
    · exact (State.num_moved_ne _ _ (by decide) (by decide)).trans (State.num_setNum_self _ _ _)
    · exact State.setState_rst _ _ _
  · obtain ⟨hlink, hosc, hclocks⟩ := exitClocks_num s
    exact ⟨rfl, State.num_setNum_self _ _ _, (num_stepDone_ne _ _ _ (by decide)).trans hlink,
      (num_stepDone_ne _ _ _ (by decide)).trans hosc, fun d => (num_stepDone_ne _ _ _ (by decide +revert)).trans (hclocks d)⟩

/-- Settles O53: each source comes to `State.resetDevice` of a state that a reset cannot tell from the one before. -/
theorem resetsOfTheDevice : Obligations.ResetsOfTheDevice := by
  refine ⟨powerOn_answers, fun s => ⟨⟨_, rfl, s.resetDevice_resetBy .perst⟩, supplyFault_answers s, thermalTrip_answers s⟩,
    rstIn_answers, fun _ _ _ => softwareResetD_answers, fun s d h => ?_, fun _ _ => pllLockLoss_device,
    fun _ hserve h => ⟨watchdogExpiry_resets hserve h, complexCriticalError_resets hserve h⟩,
    fun s src => ⟨fun h => ?_, resetRelease_answers⟩,
    fun s n l => ⟨deviceExit_skips l, fun hout hstate hn => deviceExit_answers l hout hstate hn⟩⟩
  · change execPllLockLoss d s = _
    exact if_pos (by simpa using h)
  · change execResetRelease src s = _
    exact if_pos (by simpa using h)

end Sys2Proof.Machine

/-! PROOFS. BAR2, MSI-X and the host link: O52. -/

namespace Sys2Proof.Machine

/-! ## Writes of bytes here and there -/

/-- Of listed writes to different addresses, each byte stands. -/
theorem byte_pokes_of_mem {s : State} {ws : List (Nat × Byte)} (hwf : Memory.wf 0 s.mem = true)
    (hnd : (ws.map (·.1)).Nodup) {a : Nat} {b : Byte} (h : (a, b) ∈ ws) : (s.pokes ws).byte a = b := by
  induction ws generalizing s with
  | nil => cases h
  | cons w ws ih =>
    obtain ⟨hw, hnd⟩ := List.nodup_cons.1 hnd
    have hsorted := ((Memory.wf_iff 0 s.mem).1 hwf).1
    have hstep : (s.pokes (w :: ws)) = ({ s with mem := Mem.write 0 s.mem w.1 w.2 } : State).pokes ws := rfl
    have hwf' : Memory.wf 0 ({ s with mem := Mem.write 0 s.mem w.1 w.2 } : State).mem = true := Memory.wf_write 0 _ _ _ hwf
    rw [hstep]
    rcases List.mem_cons.1 h with rfl | h
    · exact (byte_pokes hwf' hw).trans (Mem.read_write_self 0 s.mem a b hsorted)
    · exact ih hwf' hnd h

/-! ## Pieces of a BAR2 request (R464) -/

/-- How many pieces a request touches. -/
def pieceCount (a n : Nat) : Nat := (a % 64 + n + 63) / 64

theorem pieceBases_eq (a n : Nat) : pieceBases a n = (List.range (pieceCount a n)).map fun i => a / 64 * 64 + 64 * i := rfl

theorem zip_pieceBases (a n : Nat) : (pieceBases a n).zip (List.range (pieceBases a n).length) =
    (List.range (pieceCount a n)).map fun i => (a / 64 * 64 + 64 * i, i) := by
  have hlen : (pieceBases a n).length = pieceCount a n := by simp [pieceBases_eq]
  rw [hlen, pieceBases_eq]
  refine List.ext_getElem (by simp) fun i _ _ => ?_
  simp

section Bar2

variable {s : State} {off : BitVec 38} {e : List (Nat × MemStatus)}

/-- Piece i of a request from an address on answers without an error. -/
abbrev GoodPiece (s : State) (e : List (Nat × MemStatus)) (a i : Nat) : Prop := s.pieceStatus e i (a / 64 * 64 + 64 * i) = .ok

theorem bar2Waits_of_changing {a n i : Nat} (hi : i < pieceCount a n) (h : s.changing (a / 64 * 64 + 64 * i) = true) :
    s.bar2Waits a n = true :=
  List.any_eq_true.2 ⟨_, List.mem_map.2 ⟨i, List.mem_range.2 hi, rfl⟩, h⟩

theorem bar2Waits_eq_false {a n : Nat} (h : ∀ i, i < pieceCount a n → s.changing (a / 64 * 64 + 64 * i) = false) :
    s.bar2Waits a n = false := by
  refine List.any_eq_false.2 fun p hp => ?_
  obtain ⟨i, hi, rfl⟩ := List.mem_map.1 hp
  simp [h i (List.mem_range.1 hi)]

theorem exec_bar2Read_waits {n : Nat} (h : s.bar2Waits (s.num Obj.bar2Aperture + off.toNat) n = true) :
    exec (.bar2Read off n e) s = .next s := by
  change execBar2Read off n e s = _
  simp [execBar2Read, h]

theorem exec_bar2Write_waits {d : List Byte} (h : s.bar2Waits (s.num Obj.bar2Aperture + off.toNat) d.length = true) :
    exec (.bar2Write off d e) s = .next s := by
  change execBar2Write off d e s = _
  simp [execBar2Write, h]

/-- An error of BAR2 counts and raises its flag. -/
theorem bar2Error_answers (s : State) : Counted Obj.bar2Errors 1 s s.bar2Error ∧
    s.bar2Error.num Obj.hostFlags = s.num Obj.hostFlags ||| 1 ∧ ChangesOnly [Obj.bar2Errors, Obj.hostFlags] s s.bar2Error := by
  refine ⟨?_, ?_, ?_⟩
  · exact (State.num_flagged_ne _ _ (by decide) (by decide)).trans (State.num_bump_self _ _ _)
  · rw [State.bar2Error, State.num_flagged _ _ (by decide), State.num_bump_ne _ _ _ _ (by decide)]
  · exact ((State.bump_changes _ _ _).mono (by simp)).trans ((State.setFlag_changes _ _ _).mono (by simp))

theorem bar2Read_answers {n : Nat} (hlink : s.num Obj.hostLinkState = 2)
    (hwait : s.bar2Waits (s.num Obj.bar2Aperture + off.toNat) n = false) :
    let a := s.num Obj.bar2Aperture + off.toNat
    let good := ∀ i, i < pieceCount a n → GoodPiece s e a i
    (good → exec (.bar2Read off n e) s = .next (s.emit (.hostData (s.read a n)))) ∧
    (¬good → Answers (exec (.bar2Read off n e) s) fun u => u.out = .completerAbort :: s.out ∧ Counted Obj.bar2Errors 1 s u ∧
      u.num Obj.hostFlags = s.num Obj.hostFlags ||| 1 ∧ ChangesOnly [Obj.bar2Errors, Obj.hostFlags] { s with out := u.out } u) := by
  intro a good
  have hrun : (good → exec (.bar2Read off n e) s = .next (s.emit (.hostData (s.read a n)))) ∧
      (¬good → exec (.bar2Read off n e) s = .next (s.bar2Error.emit .completerAbort)) := by
    have hall : ((pieceBases a n).zip (List.range (pieceBases a n).length)).all
        (fun (p, i) => s.pieceStatus e i p = .ok) = true ↔ good := by
      simp [zip_pieceBases, good, GoodPiece]
    change (_ → execBar2Read off n e s = _) ∧ (_ → execBar2Read off n e s = _)
    unfold execBar2Read
    rw [if_neg (not_not.2 hlink)]
    dsimp only
    rw [hwait, if_neg Bool.false_ne_true]
    exact ⟨fun h => if_pos (hall.2 h), fun h => if_neg (mt hall.1 h)⟩
  refine ⟨hrun.1, fun h => ⟨_, hrun.2 h, ?_⟩⟩
  obtain ⟨hcount, hflag, hchanges, hkept⟩ := bar2Error_answers s
  have hout : s.bar2Error.out = s.out := by rw [hchanges]
  refine ⟨congrArg (Out.completerAbort :: ·) hout, hcount, hflag, ?_, hkept⟩
  change ({ s.bar2Error with out := Out.completerAbort :: s.bar2Error.out } : State) = _
  rw [hchanges]
  rfl

/-- The bytes that a BAR2 write stores: those in good pieces. -/
def State.bar2Bytes (s : State) (e : List (Nat × MemStatus)) (a : Nat) (d : List Byte) : List (Nat × Byte) :=
  let ps := pieceBases a d.length
  let ok := (ps.zip (List.range ps.length)).filter fun (p, i) => s.pieceStatus e i p = .ok
  ((List.range d.length).filter fun j => ok.any fun e => e.1 = (a + j) / 64 * 64).map fun j => (a + j, d.getD j 0)

theorem mem_bar2Bytes {a : Nat} {d : List Byte} {w : Nat × Byte} : w ∈ s.bar2Bytes e a d ↔
    ∃ j, j < d.length ∧ GoodPiece s e a ((a + j) / 64 - a / 64) ∧ w = (a + j, d.getD j 0) := by
  have hpiece (j : Nat) (hj : j < d.length) :
      (∃ i, i < pieceCount a d.length ∧ GoodPiece s e a i ∧ a / 64 * 64 + 64 * i = (a + j) / 64 * 64) ↔
        GoodPiece s e a ((a + j) / 64 - a / 64) := by
    constructor
    · rintro ⟨i, -, hi, hbase⟩
      rwa [show (a + j) / 64 - a / 64 = i by omega]
    · exact fun h => ⟨_, by unfold pieceCount; omega, h, by omega⟩
  simp only [State.bar2Bytes, zip_pieceBases, List.mem_map, List.mem_filter, List.mem_range, List.any_eq_true]
  constructor
  · rintro ⟨j, ⟨hj, p, ⟨⟨i, hi, rfl⟩, hgood⟩, hbase⟩, rfl⟩
    exact ⟨j, hj, (hpiece j hj).1 ⟨i, hi, of_decide_eq_true hgood, of_decide_eq_true hbase⟩, rfl⟩
  · rintro ⟨j, hj, hgood, rfl⟩
    obtain ⟨i, hi, hok, hbase⟩ := (hpiece j hj).2 hgood
    exact ⟨j, ⟨hj, _, ⟨⟨i, hi, rfl⟩, decide_eq_true hok⟩, decide_eq_true hbase⟩, rfl⟩

theorem nodup_bar2Bytes {a : Nat} {d : List Byte} : ((s.bar2Bytes e a d).map (·.1)).Nodup := by
  rw [State.bar2Bytes, List.map_map]
  exact (List.nodup_range.filter _).map fun i j h => Nat.add_left_cancel h

/-- What a BAR2 write that does not wait comes to. -/
theorem exec_bar2Write {d : List Byte} (hlink : s.num Obj.hostLinkState = 2)
    (hwait : s.bar2Waits (s.num Obj.bar2Aperture + off.toNat) d.length = false) :
    let a := s.num Obj.bar2Aperture + off.toNat
    let good := ∀ i, i < pieceCount a d.length → GoodPiece s e a i
    (good → exec (.bar2Write off d e) s = .next (s.pokes (s.bar2Bytes e a d))) ∧
    (¬good → exec (.bar2Write off d e) s = .next (s.pokes (s.bar2Bytes e a d)).bar2Error) := by
  intro a good
  let ps := pieceBases a d.length
  have hall : ((ps.zip (List.range ps.length)).filter fun (p, i) => s.pieceStatus e i p = .ok).length = ps.length ↔ good := by
    have hlen : ps.length = (ps.zip (List.range ps.length)).length := by simp
    refine (Eq.congr_right hlen).trans (List.length_filter_eq_length_iff.trans ?_)
    rw [zip_pieceBases]
    simp [good, GoodPiece]
  change (_ → execBar2Write off d e s = _) ∧ (_ → execBar2Write off d e s = _)
  unfold execBar2Write
  rw [if_neg (not_not.2 hlink)]
  dsimp only
  rw [hwait, if_neg Bool.false_ne_true]
  exact ⟨fun h => congrArg Host.Outcome.next (if_pos (hall.2 h)), fun h => congrArg Host.Outcome.next (if_neg (mt hall.1 h))⟩

/-- The bytes in good pieces are stored, and no other byte of memory changes. -/
theorem byte_bar2Bytes {a : Nat} {d : List Byte} (hwf : Memory.wf 0 s.mem = true) :
    (∀ j, j < d.length → (s.pokes (s.bar2Bytes e a d)).byte (a + j) =
      if GoodPiece s e a ((a + j) / 64 - a / 64) then d.getD j 0 else s.byte (a + j)) ∧
    (∀ b, b < a ∨ a + d.length ≤ b → (s.pokes (s.bar2Bytes e a d)).byte b = s.byte b) := by
  have houtside {b : Nat} (h : ∀ j, j < d.length → GoodPiece s e a ((a + j) / 64 - a / 64) → b ≠ a + j) :
      (s.pokes (s.bar2Bytes e a d)).byte b = s.byte b := by
    refine byte_pokes hwf fun hb => ?_
    obtain ⟨w, hw, rfl⟩ := List.mem_map.1 hb
    obtain ⟨j, hj, hgood, rfl⟩ := mem_bar2Bytes.1 hw
    exact h j hj hgood rfl
  refine ⟨fun j hj => ?_, fun b hb => houtside fun j hj _ => by omega⟩
  split
  case isTrue hgood => exact byte_pokes_of_mem hwf nodup_bar2Bytes (mem_bar2Bytes.2 ⟨j, hj, hgood, rfl⟩)
  case isFalse hbad =>
    refine houtside fun i _ hgood he => ?_
    obtain rfl : j = i := Nat.add_left_cancel he
    exact hbad hgood

theorem bar2Write_answers {d : List Byte} (hlink : s.num Obj.hostLinkState = 2) (hwf : Memory.wf 0 s.mem = true)
    (hwait : s.bar2Waits (s.num Obj.bar2Aperture + off.toNat) d.length = false) :
    let a := s.num Obj.bar2Aperture + off.toNat
    let good := ∀ i, i < pieceCount a d.length → GoodPiece s e a i
    Answers (exec (.bar2Write off d e) s) fun u =>
      (∀ j, j < d.length → u.byte (a + j) =
        if GoodPiece s e a ((a + j) / 64 - a / 64) then d.getD j 0 else s.byte (a + j)) ∧
      (∀ b, b < a ∨ a + d.length ≤ b → u.byte b = s.byte b) ∧ (good → u = { s with mem := u.mem }) ∧
      (¬good → Counted Obj.bar2Errors 1 s u ∧ u.num Obj.hostFlags = s.num Obj.hostFlags ||| 1 ∧
        ChangesOnly [Obj.bar2Errors, Obj.hostFlags] { s with mem := u.mem } u) := by
  intro a good
  obtain ⟨hin, hout⟩ := byte_bar2Bytes (s := s) (e := e) (a := a) (d := d) hwf
  obtain ⟨hgood, hbad⟩ := exec_bar2Write (e := e) hlink hwait
  by_cases h : good
  · exact ⟨_, hgood h, hin, hout, fun _ => rfl, fun hn => absurd h hn⟩
  · obtain ⟨hcount, hflag, hchanges, hkept⟩ := bar2Error_answers (s.pokes (s.bar2Bytes e a d))
    have hmem : (s.pokes (s.bar2Bytes e a d)).bar2Error.mem = (s.pokes (s.bar2Bytes e a d)).mem := by
      rw [hchanges]
    refine ⟨_, hbad h, fun j hj => ?_, fun b hb => ?_, fun hg => absurd hg h, fun _ => ⟨hcount, hflag, ?_, hkept⟩⟩
    · exact (congrArg (Mem.read 0 · (a + j)) hmem).trans (hin j hj)
    · exact (congrArg (Mem.read 0 · b) hmem).trans (hout b hb)
    · rw [hmem]
      exact hchanges

end Bar2

/-! ## The aperture (R463) -/

theorem bar2ApertureWrite_carries {s : State} {q : Req} {val : List Byte} (hadm : Admitted q Obj.bar2Aperture val s) :
    Carries q Obj.bar2Aperture (exec (.bar2ApertureWrite q val) s) fun u => u.num Obj.bar2Aperture = leNat val ∧
      u.mem = s.mem ∧ KeepsObjects [Obj.bar2Aperture] (Arrived q s) u := by
  have hstored := (serveOwn_stored hadm (by decide) Handler.plain).1 _ rfl
  refine ⟨_, congrArg Host.Outcome.next hstored, State.num_setNum_self _ _ _, ?_, KeepsObjects.setVal (by simp) _ _⟩
  rw [State.setNum_mem, arrived_eq]

/-! ## MSI-X (R462) -/

/-- The vectors that are sent: those pending and unmasked. -/
def State.msixGo (s : State) : List Nat := s.host.pendingVec.filter fun v => s.host.unmasked.contains v

theorem foldl_emit_msix (l : List Nat) (s : State) :
    l.foldl (fun s v => s.emit (.msix v)) s = { s with out := (l.map Out.msix).reverse ++ s.out } := by
  induction l generalizing s with
  | nil => rfl
  | cons v l ih =>
    rw [List.foldl_cons, ih]
    simp [State.emit]

theorem flushMsix_eq (s : State) : s.flushMsix = if s.host.msixEnable && s.host.busMaster then
    { s with
      out := (s.msixGo.map Out.msix).reverse ++ s.out
      host := { s.host with pendingVec := s.host.pendingVec.filter fun v => !s.msixGo.contains v } }
    else s := by
  unfold State.flushMsix
  cases s.host.msixEnable && s.host.busMaster with
  | false => rfl
  | true => exact foldl_emit_msix _ _

/-- The host's driver clears the vector's mask bit. -/
def State.unmask (v : Nat) (s : State) : State :=
  s.setHost fun h =>
    { h with msixEnable := true, unmasked := if h.unmasked.contains v then h.unmasked else v :: h.unmasked }

theorem mem_unmask (v : Nat) (s : State) : v ∈ (s.unmask v).host.unmasked := by
  change v ∈ if s.host.unmasked.contains v then s.host.unmasked else v :: s.host.unmasked
  split
  case isTrue h => exact List.contains_iff_mem.1 h
  case isFalse => exact List.mem_cons_self

theorem msixUnmask_answers (s : State) (v : Fin 2048) : Answers (exec (.msixUnmask v) s) fun u =>
    v.val ∈ u.host.unmasked ∧ u.host.msixEnable = true ∧ u.obj = s.obj ∧
    (s.host.busMaster = true → s.host.pendingVec = [v.val] → u.out = .msix v :: s.out ∧ u.host.pendingVec = []) ∧
    (s.host.pendingVec = [] ∨ s.host.busMaster = false → u.out = s.out) ∧ u = { s with out := u.out, host := u.host } := by
  have hmem := mem_unmask v s
  have hpending : (s.unmask v).host.pendingVec = s.host.pendingVec := rfl
  have hrun : exec (.msixUnmask v) s = .next (s.unmask v).flushMsix := rfl
  rw [flushMsix_eq] at hrun
  cases hbus : s.host.busMaster with
  | false =>
    rw [if_neg (by simp [State.unmask, State.setHost, hbus])] at hrun
    exact ⟨_, hrun, hmem, rfl, rfl, fun h => (Bool.false_ne_true h).elim, fun _ => rfl, rfl⟩
  | true =>
    rw [if_pos (by simp [State.unmask, State.setHost, hbus])] at hrun
    refine ⟨_, hrun, hmem, rfl, rfl, fun _ hone => ?_, fun h => ?_, rfl⟩
    · have hgo : (s.unmask v).msixGo = [v.val] := by simp [State.msixGo, hpending, hone, hmem]
      simp only [hgo, hpending, hone]
      exact ⟨rfl, by simp⟩
    · have hnone : s.host.pendingVec = [] := by simpa using h
      have hgo : (s.unmask v).msixGo = [] := by simp [State.msixGo, hpending, hnone]
      simp only [hgo]
      rfl

/-! ## Completions and the link (R471, R476, R477) -/

theorem hostReadCompletion_answers (s : State) (tag : Nat) (st : MemStatus) (late : Bool) (d : List Byte) :
    Answers (exec (.hostReadCompletion tag st late d) s) fun u =>
      CountedIf late Obj.hostReadTimeouts s u ∧ CountedIf (!late && decide (st ≠ .ok)) Obj.hostUncorrectable s u ∧
      u.num Obj.hostFlags =
        (if late then s.num Obj.hostFlags ||| 2 else if st = .ok then s.num Obj.hostFlags else s.num Obj.hostFlags ||| 4) ∧
      ChangesOnly [Obj.hostReadTimeouts, Obj.hostUncorrectable, Obj.hostFlags] s u := by
  have hnoted (k b : Nat) (hk : k ∈ [Obj.hostReadTimeouts, Obj.hostUncorrectable]) :
      ChangesOnly [Obj.hostReadTimeouts, Obj.hostUncorrectable, Obj.hostFlags] s ((s.bump k 1).setFlag Obj.hostFlags b) :=
    ((State.bump_changes _ _ _).mono (by simpa using List.mem_append_left [Obj.hostFlags] hk)).trans
      ((State.setFlag_changes _ _ _).mono (by simp))
  change Answers (execHostReadCompletion tag st late d s) _
  unfold execHostReadCompletion
  cases late with
  | true =>
    refine ⟨_, if_pos rfl, ?_, ?_, ?_, hnoted _ _ (by simp)⟩
    all_goals simp (disch := decide) [CountedIf, State.num_flagged, State.num_flagged_ne, State.num_bump_ne]
  | false =>
    rw [if_neg Bool.false_ne_true]
    by_cases hst : st = .ok
    · refine ⟨s, if_neg (not_not.2 hst), ?_, ?_, ?_, rfl, KeepsObjects.refl _ _⟩
      all_goals simp [CountedIf, hst]
    · refine ⟨_, if_pos hst, ?_, ?_, ?_, hnoted _ _ (by simp)⟩
      all_goals simp (disch := decide) [CountedIf, hst, State.num_flagged, State.num_flagged_ne, State.num_bump_ne]

/-- The objects of the host link that change as it leaves Up. -/
def linkDownKeys : List Nat := [Obj.hostLinkState, Obj.hostLinkWidth, Obj.hostLinkRate, Obj.hostLinkDowns, Obj.hostFlags]

theorem leaveUp_changes (n : Nat) (s : State) : ChangesOnly linkDownKeys s (s.leaveUp n) := by
  have hoff : ChangesOnly linkDownKeys s
      (((s.setState Obj.hostLinkState n).setNum Obj.hostLinkWidth 0).setNum Obj.hostLinkRate 0) :=
    (((State.setState_changes _ _ _).mono (by simp [linkDownKeys])).trans
      ((State.setNum_changes _ _ _).mono (by simp [linkDownKeys]))).trans
      ((State.setNum_changes _ _ _).mono (by simp [linkDownKeys]))
  unfold State.leaveUp
  dsimp only
  split
  · exact (hoff.trans ((State.bump_changes _ _ _).mono (by simp [linkDownKeys]))).trans
      ((State.setFlag_changes _ _ _).mono (by simp [linkDownKeys]))
  · exact hoff

theorem leaveUp_nums (n : Nat) (s : State) : (s.leaveUp n).num Obj.hostLinkState = n ∧ (s.leaveUp n).num Obj.hostLinkWidth = 0 ∧
    (s.leaveUp n).num Obj.hostLinkRate = 0 ∧ CountedIf (decide (s.num Obj.hostLinkState = 2)) Obj.hostLinkDowns s (s.leaveUp n) ∧
    (s.num Obj.hostLinkState = 2 → (s.leaveUp n).num Obj.hostFlags = s.num Obj.hostFlags ||| 8) := by
  unfold State.leaveUp CountedIf
  by_cases h : s.num Obj.hostLinkState = 2
  all_goals simp (disch := decide) [h, State.num_flagged, State.num_flagged_ne, State.num_bump_ne, State.num_setNum_ne,
    State.num_moved, State.num_moved_ne]

theorem hostLinkDown_answers {s : State} (h : s.num Obj.hostLinkState = 2) : Answers (exec .hostLinkDown s) fun u =>
    u.num Obj.hostLinkState = 1 ∧ u.num Obj.hostLinkWidth = 0 ∧ u.num Obj.hostLinkRate = 0 ∧ Counted Obj.hostLinkDowns 1 s u ∧
    u.num Obj.hostFlags = s.num Obj.hostFlags ||| 8 ∧ ChangesOnly linkDownKeys s u := by
  obtain ⟨hstate, hwidth, hrate, hcount, hflag⟩ := leaveUp_nums 1 s
  rw [decide_eq_true h] at hcount
  exact ⟨_, if_pos h, hstate, hwidth, hrate, hcount, hflag h, leaveUp_changes 1 s⟩

theorem hotReset_answers {s : State} (h : s.num Obj.hostLinkState ≠ 0) : Answers (exec .hotReset s) fun u =>
    u.num Obj.hostLinkState = 1 ∧ Counted Obj.hotResets 1 s u ∧
    CountedIf (decide (s.num Obj.hostLinkState = 2)) Obj.hostLinkDowns s u ∧ u.num Obj.owner = s.num Obj.owner ∧ u.own = s.own ∧
    u.host = { s.host with
      busMaster := false
      msixEnable := false
      table := []
      unmasked := []
      pendingVec := [] } ∧ u.mem = s.mem ∧ u.tiles = s.tiles := by
  obtain ⟨hstate, -, -, hcount, -⟩ := leaveUp_nums 1 s
  obtain ⟨hframe, hkept⟩ := leaveUp_changes 1 s
  have hrow {k : Nat} (hk : k ≠ Obj.hotResets) : ((s.leaveUp 1).bump Obj.hotResets 1).num k = (s.leaveUp 1).num k :=
    State.num_bump_ne _ _ _ _ hk
  refine ⟨_, if_neg h, (hrow (by decide)).trans hstate, ?_, (hrow (by decide)).trans hcount, ?_, ?_, ?_, ?_, ?_⟩
  · exact (State.num_bump_self _ _ _).trans (by rw [hkept.kept (by decide)])
  · exact (hrow (by decide)).trans (hkept.kept (by decide))
  · change (s.leaveUp 1).own = _
    rw [hframe]
  · change ({ (s.leaveUp 1).host with busMaster := false, msixEnable := false, table := [], unmasked := [], pendingVec := [] } :
      HostState) = _
    rw [hframe]
  · change (s.leaveUp 1).mem = _
    rw [hframe]
  · change (s.leaveUp 1).tiles = _
    rw [hframe]

/-- With nothing held and the request ring served, a transport that comes up has nothing to do. -/
theorem flushHeld_pollRing {s : State} (hheld : s.dict.held = []) (hring : RingServed s) : s.flushHeld.pollRing = s := by
  rw [flushHeld_of_held_nil hheld, pollRing_of_ringServed hring]

theorem hostLinkUp_answers {s : State} {w : BitVec 8} {r : BitVec 16} (hheld : s.dict.held = []) (hring : RingServed s)
    (hstate : s.num Obj.hostLinkState = 1) (hw : w.toNat ∈ [4, 8, 16]) (hr : r.toNat ∈ [25, 50, 80, 160, 320, 640, 1280]) :
    Answers (exec (.hostLinkUp w r) s) fun u => u.num Obj.hostLinkState = 2 ∧ u.num Obj.hostLinkWidth = w.toNat ∧
      u.num Obj.hostLinkRate = r.toNat ∧ ChangesOnly [Obj.hostLinkState, Obj.hostLinkWidth, Obj.hostLinkRate] s u := by
  obtain ⟨t, ht⟩ : ∃ t : State, t = ((s.setState Obj.hostLinkState 2).setNum Obj.hostLinkWidth w.toNat).setNum
    Obj.hostLinkRate r.toNat := ⟨_, rfl⟩
  have hchanges : ChangesOnly [Obj.hostLinkState, Obj.hostLinkWidth, Obj.hostLinkRate] s t := by
    rw [ht]
    exact (((State.setState_changes _ _ _).mono (by simp)).trans ((State.setNum_changes _ _ _).mono (by simp))).trans
      ((State.setNum_changes _ _ _).mono (by simp))
  have hrun : exec (.hostLinkUp w r) s = .next t := by
    change execHostLinkUp w r s = _
    unfold execHostLinkUp
    rw [if_neg (by simp [hstate, hw, hr]), ← ht, flushHeld_pollRing]
    · rw [hchanges.held, hheld]
    · exact hchanges.stores.ringServed (by decide) (by decide) hring
  refine ⟨t, hrun, ?_, ?_, ?_, hchanges⟩ <;> rw [ht] <;>
    simp (disch := decide) [State.num_setNum_ne, State.num_moved]

/-- The function's bus-master bit. -/
def State.withBusMaster (b : Bool) (s : State) : State := { s with host := { s.host with busMaster := b } }

theorem busMasterEnable_answers (s : State) (b : Bool) : Answers (exec (.busMasterEnable b) s) fun u =>
    (b = false → u = { s with host := { s.host with busMaster := false } }) ∧
    (s.dict.held = [] → RingServed s → u.host.busMaster = b ∧ u.obj = s.obj ∧ u.mem = s.mem ∧ u.tiles = s.tiles) := by
  cases b with
  | false => exact ⟨s.withBusMaster false, rfl, fun _ => rfl, fun _ _ => ⟨rfl, rfl, rfl, rfl⟩⟩
  | true =>
    refine ⟨(s.withBusMaster true).flushHeld.flushMsix.pollRing, rfl, (absurd · (by decide)), fun hheld hring => ?_⟩
    have hmsix := flushMsix_eq (s.withBusMaster true)
    have hring' : RingServed (s.withBusMaster true).flushMsix := by
      rw [RingServed, hmsix]
      split <;> exact hring
    rw [flushHeld_of_held_nil (s := s.withBusMaster true) hheld, pollRing_of_ringServed hring', hmsix]
    split <;> exact ⟨rfl, rfl, rfl, rfl⟩

/-- Settles O52: BAR2 by its pieces, the link by what `State.leaveUp` changes; a transport that comes up with nothing held and
its ring served has nothing to do. -/
theorem hostRequestsAndLink : Obligations.HostRequestsAndLink := by
  refine ⟨fun s off n d e h => ⟨if_pos h, if_pos h⟩,
    fun s off n i d e hchg => ⟨fun hi => exec_bar2Read_waits (bar2Waits_of_changing hi hchg),
      fun hi => exec_bar2Write_waits (bar2Waits_of_changing hi hchg)⟩,
    fun s off n e hlink hwait => bar2Read_answers hlink (bar2Waits_eq_false hwait),
    fun s off d e hlink hwf hwait => bar2Write_answers hlink hwf (bar2Waits_eq_false hwait),
    fun _ _ _ => bar2ApertureWrite_carries, msixUnmask_answers, hostReadCompletion_answers,
    fun s => ⟨fun h => if_neg h, hostLinkDown_answers⟩, fun s w r hheld hring => ⟨fun h => ?_, hostLinkUp_answers hheld hring⟩,
    busMasterEnable_answers, fun s => ⟨fun h => if_pos h, hotReset_answers⟩⟩
  exact if_pos (by simpa [or_assoc] using h)

end Sys2Proof.Machine

/-! PROOFS. Errors in critical state: O55 fails. -/

namespace Sys2Proof.Machine

/-! ## A drawer stops while a result is on its way to memory (R158, R163, R188, R483)

Discarding the passes of a drawer that is asked to stop leaves it with none, and it stops; before a context stops, its results
in flight land, and that of a store lands in memory. O55 says that memory stands as the steering registers of a tile are
reloaded. -/

/-- A context whose drawer issues a pass and is asked to stop. -/
def askedContext : Context := { Context.none with dr := { Drawer.none with st := .issuing, preempt := true } }

/-- The firmware serves. Context 0 of tile 0 is that one, and its store to the first byte of operand memory is in flight. -/
def storeInFlight : State :=
  { State.reset with
    rst := { State.reset.rst with serve := .full, exitDone := 4 }
    tiles := [(0, { TileS.empty with ctxs := [(0, askedContext)], flight := [⟨0, 0, .mem [(operandBase 0, 1)], 0, none⟩] })] }

/-- The store lands as the registers are reloaded. -/
theorem answers_storeInFlight : Answers (exec (.steeringParityError 0) storeInFlight) fun u => u.byte (operandBase 0) = 1 :=
  ⟨_, rfl, by decide +kernel⟩

/-- Refutes O55: its clause on a tile's steering registers does not ask that no result be in flight. In `storeInFlight` memory
changes. -/
theorem not_criticalStateAnswers : ¬ Obligations.CriticalStateAnswers := by
  intro h
  obtain ⟨-, -, -, -, -, hsteering, -⟩ := h
  obtain ⟨-, hreload⟩ := hsteering storeInFlight 0 (by decide)
  obtain ⟨u, ⟨-, -, hmem, -⟩, hlanded⟩ := (hreload (by decide) (by decide)).and answers_storeInFlight
  have hkept : u.byte (operandBase 0) = 0 := congrArg (Mem.read 0 · (operandBase 0)) hmem
  exact absurd (hlanded.symm.trans hkept) (by decide)

end Sys2Proof.Machine

/-! PROOFS. Firmware update, key slots and attestation: O56. -/

namespace Sys2Proof

/-- Filtering a sorted table by its keys keeps what stands at a key that passes. -/
theorem Tab.find?_filter_key {α : Type} {p : Nat → Bool} {k : Nat} (hp : p k = true) {t : Tab α} (hs : Tab.sorted t = true) :
    Tab.find? (List.filter (fun e => p e.1) t) k = Tab.find? t k := by
  induction t with
  | nil => rfl
  | cons e t ih =>
    obtain ⟨k', w⟩ := e
    have ih := ih (Tab.sorted_tail _ _ hs)
    by_cases hk' : p k' = true
    · rw [List.filter_cons, if_pos hk', Tab.find?, Tab.find?, ih]
    · have hne : k ≠ k' := fun he => hk' (he ▸ hp)
      rw [List.filter_cons, if_neg hk', ih, Tab.find?, if_neg hne]
      split
      case isTrue hlt => exact Tab.find?_none_of_lt k' w t hs k (by omega)
      case isFalse => rfl

end Sys2Proof

namespace Sys2Proof.Machine

/-! ## Admitted writes of command objects (R46, R49) -/

/-- The same of a command object that takes bytes. -/
theorem serveOwn_block {q : Req} {k : Nat} {val : List Byte} {s : State} {r : Row} (hadm : Admitted q k val s)
    (hrow : rowOf k = some r) (hty : r.ty.fixed = false) (hacc : r.acc = .wo) (hd : Handler) :
    (∀ u, hd (.bytes val) (Arrived q s) = .ok u → serveOwn q k val hd s = Replied q k u) ∧
    (∀ e, hd (.bytes val) (Arrived q s) = .error e → serveOwn q k val hd s = Denied q k e (Arrived q s)) := by
  obtain ⟨r', v, hrow', hdec, hok, herr⟩ := serveOwn_admitted hadm hd
  obtain rfl := Option.some.inj (hrow'.symm.trans hrow)
  have hv : Val.bytes val = v := by
    rw [decodeVal, if_neg (by simp [hty])] at hdec
    split at hdec
    case isTrue => exact Option.some.inj hdec
    case isFalse => cases hdec
  subst hv
  have happly : (Arrived q s).applyVal r' k (.bytes val) 0 = Arrived q s := by simp [State.applyVal, hacc]
  exact ⟨fun u hu => hok u (by simp [State.doWrite, happly, hu, hacc]), fun e he => herr e (by simp [State.doWrite, happly, he])⟩

/-- The value of an admitted write is one that its object takes. -/
theorem Admitted.allowed {q : Req} {k : Nat} {val : List Byte} {s : State} {r : Row} (hadm : Admitted q k val s)
    (hrow : rowOf k = some r) : ∃ v, decodeVal r.ty val = some v ∧ (Arrived q s).allowed r k v = true := by
  obtain ⟨⟨r', v, hval, -⟩, -⟩ := hadm
  obtain ⟨-, hrow', hdec, hall⟩ := checkVal_ok hval
  obtain rfl := Option.some.inj (hrow'.symm.trans hrow)
  exact ⟨v, hdec, hall⟩

/-- A number whose object takes a range lies in it. -/
theorem Admitted.in_range {q : Req} {k lo hi : Nat} {val : List Byte} {s : State} {r : Row} (hadm : Admitted q k val s)
    (hrow : rowOf k = some r) (hty : r.ty.fixed = true) (hr : r.allow = .range lo hi) : leNat val ≤ hi := by
  obtain ⟨v, hdec, hall⟩ := hadm.allowed hrow
  obtain rfl := decodeVal_fixed hty hdec
  simp only [State.allowed, hr, Bool.and_eq_true, decide_eq_true_eq] at hall
  exact hall.2.2

/-- A block whose object takes one length has it. -/
theorem Admitted.has_length {q : Req} {k n : Nat} {val : List Byte} {s : State} {r : Row} (hadm : Admitted q k val s)
    (hrow : rowOf k = some r) (hty : r.ty.fixed = false) (hr : r.allow = .len n n) : val.length = n := by
  obtain ⟨v, hdec, hall⟩ := hadm.allowed hrow
  rw [decodeVal, if_neg (by simp [hty])] at hdec
  split at hdec
  case isFalse => cases hdec
  case isTrue =>
    obtain rfl := Option.some.inj hdec
    simp only [State.allowed, hr, Bool.and_eq_true, Val.toNat] at hall
    exact le_antisymm (of_decide_eq_true hall.2.2) (of_decide_eq_true hall.2.1)

section Command

variable {q : Req} {k : Nat} {val : List Byte} {s : State} {hd : Handler} {P : State → Prop} {e : Nat}

/-- A number written to a command object that its chapter carries out. -/
theorem carries_command (hadm : Admitted q k val s) (hrow : (rowOf k).any (fun r => r.ty.fixed && r.acc = .wo) = true)
    (h : ∃ u, hd (.num (leNat val)) (Arrived q s) = .ok u ∧ P u) : Carries q k (.next (serveOwn q k val hd s)) P := by
  obtain ⟨u, hu, hp⟩ := h
  exact ⟨u, congrArg Host.Outcome.next ((serveOwn_command hadm hrow hd).1 u hu), hp⟩

theorem denies_command (hadm : Admitted q k val s) (hrow : (rowOf k).any (fun r => r.ty.fixed && r.acc = .wo) = true)
    (h : hd (.num (leNat val)) (Arrived q s) = .error e) :
    (.next (serveOwn q k val hd s) : Res) = .next (Denied q k e (Arrived q s)) :=
  congrArg Host.Outcome.next ((serveOwn_command hadm hrow hd).2 e h)

/-- Bytes written to a command object that its chapter carries out. -/
theorem carries_block {r : Row} (hadm : Admitted q k val s) (hrow : rowOf k = some r) (hty : r.ty.fixed = false)
    (hacc : r.acc = .wo) (h : ∃ u, hd (.bytes val) (Arrived q s) = .ok u ∧ P u) :
    Carries q k (.next (serveOwn q k val hd s)) P := by
  obtain ⟨u, hu, hp⟩ := h
  exact ⟨u, congrArg Host.Outcome.next ((serveOwn_block hadm hrow hty hacc hd).1 u hu), hp⟩

theorem denies_block {r : Row} (hadm : Admitted q k val s) (hrow : rowOf k = some r) (hty : r.ty.fixed = false)
    (hacc : r.acc = .wo) (h : hd (.bytes val) (Arrived q s) = .error e) :
    (.next (serveOwn q k val hd s) : Res) = .next (Denied q k e (Arrived q s)) :=
  congrArg Host.Outcome.next ((serveOwn_block hadm hrow hty hacc hd).2 e h)

end Command

theorem rowOf_keyEnroll :
    rowOf Obj.keyEnroll = some ⟨0xa00101, 1, 1, 0, .octets, .wo, false, false, .bytes [], .len 96 96⟩ := rfl
theorem rowOf_keyRevoke : rowOf Obj.keyRevoke = some ⟨0xa00102, 1, 1, 0, .u8, .wo, false, false, .num 0, .range 0 7⟩ := rfl
theorem rowOf_updateChunk :
    rowOf Obj.updateChunk = some ⟨0xa02003, 1, 1, 0, .octets, .wo, false, false, .bytes [], .len 0 65536⟩ := rfl
theorem rowOf_attestNonce :
    rowOf Obj.attestNonce = some ⟨0xa03001, 1, 1, 0, .octets, .wo, false, false, .bytes [], .len 32 32⟩ := rfl

/-- A request's arrival changes the clock and the dictionary's queues alone. -/
theorem arrived_at (q : Req) (s : State) : ∃ n d, Arrived q s = { s with now := n, dict := d } := ⟨_, _, arrived_eq q s⟩

/-- A refusal asserts no reset. -/
theorem denied_rst (q : Req) (k e : Nat) (s : State) : (Denied q k e s).rst = s.rst := by
  have hnote : (s.noteRefusal k).rst = s.rst := by
    unfold State.noteRefusal
    split <;> rfl
  obtain ⟨via, t⟩ := q
  refine Eq.trans ?_ hnote
  cases via with
  | oap m tr seq => exact (State.answerErr_sends m tr seq.toNat k e 0 _).rst
  | linear => rfl

theorem replied_rst (q : Req) (k : Nat) (s : State) : (Replied q k s).rst = s.rst :=
  (replied_sends q k s).rst

/-! ## What reads the flash looks at the flash alone (R68) -/

section Flash

variable {s u : State} (h : u.store.flash = s.store.flash)
include h

theorem flashByte_congr (a : Nat) : u.flashByte a = s.flashByte a := by rw [State.flashByte, h]; rfl
theorem flashRead_congr : u.flashRead = s.flashRead := by
  funext a n
  simp only [State.flashRead, flashByte_congr h]
theorem slotHead_congr (i : Nat) : u.slotHead i = s.slotHead i := by
  rw [State.slotHead, flashRead_congr h]
  rfl
theorem slotFault_congr (i : Nat) : u.slotFault i = s.slotFault i := by
  unfold State.slotFault
  rw [flashRead_congr h]

end Flash

/-- Erased flash outside the range stands. -/
theorem flashByte_erase_out {a n b : Nat} {s : State} (hwf : Memory.wf 0xFF s.store.flash = true) (hb : b < a ∨ a + n ≤ b) :
    (s.erase a n).flashByte b = s.flashByte b := by
  have hs : Tab.sorted s.store.flash = true := by
    rw [Memory.wf, Bool.and_eq_true] at hwf
    exact hwf.1
  exact congrArg (Option.getD · 0xFF)
    (Tab.find?_filter_key (p := fun x => decide (x < a) || decide (a + n ≤ x)) (by simpa using hb) hs)

/-- A programmed byte keeps its zeros (R68). -/
theorem flashByte_program_in {a i : Nat} {l : List Byte} {s : State} (hwf : Memory.wf 0xFF s.store.flash = true)
    (hi : i < l.length) : (s.program a l).flashByte (a + i) = l.getD i 0 &&& s.flashByte (a + i) := by
  have hlen : ((l.zip (List.range l.length)).map fun x => x.1 &&& s.flashByte (a + x.2)).length = l.length := by simp
  refine (Mem.read_writes_in 0xFF _ s.store.flash a i hwf (by rw [hlen]; exact hi)).trans ?_
  simp only [List.getElem_map, List.getElem_zip, List.getElem_range, List.getD_eq_getElem?_getD, List.getElem?_eq_getElem hi,
    Option.getD_some]

theorem flashByte_program_out {a b : Nat} {l : List Byte} {s : State} (hwf : Memory.wf 0xFF s.store.flash = true)
    (hb : b < a ∨ a + l.length ≤ b) : (s.program a l).flashByte b = s.flashByte b := by
  have hlen : ((l.zip (List.range l.length)).map fun x => x.1 &&& s.flashByte (a + x.2)).length = l.length := by simp
  exact Mem.read_writes_out 0xFF _ s.store.flash a b hwf (by rw [hlen]; exact hb)

/-! ## The update commands (R507, R508) -/

/-- A rejected update: its state, its result, its count and nothing else but their events. -/
theorem rejectUpdate_spec (code : Nat) (s : State) : (s.rejectUpdate code).num Obj.updateState = 7 ∧
    (s.rejectUpdate code).num Obj.updateResult = code ∧ Counted Obj.updatesRejected 1 s (s.rejectUpdate code) ∧
    ChangesOnly [Obj.updateResult, Obj.updateState, Obj.updatesRejected, Obj.securityFlags] s (s.rejectUpdate code) := by
  have hset := State.setNum_changes Obj.updateResult code s
  have hresult := State.num_setNum_self Obj.updateResult code s
  unfold State.rejectUpdate
  generalize s.setNum Obj.updateResult code = t at hset hresult ⊢
  have hstate := State.setState_changes Obj.updateState 7 t
  refine ⟨?_, ?_, ?_, ?_⟩
  · rw [State.num_flagged_ne _ _ (by decide) (by decide), State.num_bump_ne _ _ _ _ (by decide), State.num_moved _ _ (by decide)]
  · rw [State.num_flagged_ne _ _ (by decide) (by decide), State.num_bump_ne _ _ _ _ (by decide),
      State.num_moved_ne _ _ (by decide) (by decide), hresult]
  · rw [Counted, State.num_flagged_ne _ _ (by decide) (by decide), State.num_bump_self,
      State.num_moved_ne _ _ (by decide) (by decide), hset.2.num (by decide) (ne_eventsDropped (by decide))]
  · exact (((hset.mono (by simp)).trans (hstate.mono (by simp))).trans ((State.bump_changes _ _ _).mono (by simp))).trans
      ((State.setFlag_changes _ _ _).mono (by simp))

theorem ChangesOnly.store {l : List Nat} {s u : State} (h : ChangesOnly l s u) : u.store = s.store := by rw [h.1]
theorem ChangesOnly.mem {l : List Nat} {s u : State} (h : ChangesOnly l s u) : u.mem = s.mem := by rw [h.1]
theorem ChangesOnly.rst {l : List Nat} {s u : State} (h : ChangesOnly l s u) : u.rst = s.rst := by rw [h.1]
theorem ChangesOnly.sec {l : List Nat} {s u : State} (h : ChangesOnly l s u) : u.sec = s.sec := by rw [h.1]
theorem ChangesOnly.tiles {l : List Nat} {s u : State} (h : ChangesOnly l s u) : u.tiles = s.tiles := by rw [h.1]


theorem writeUpdateCommand_begin (b : Bool) (s : State) : writeUpdateCommand b (.num 1) s =
    if s.num Obj.updateState = 0 ∨ s.num Obj.updateState = 7 then
      .ok ((s.erase (slotAddr s.targetSlot) slotSize).setState Obj.updateState 1)
    else .error Err.refusedInState := by
  simp [writeUpdateCommand, Val.toNat]

/-- The slot is verified or rejected. -/
def State.verifySlot (s : State) : State := match s.slotFault s.targetSlot with
  | none => ((s.setState Obj.updateState 3).setNum Obj.stagedVersion (imageVersion (s.slotHead s.targetSlot))).setState
      Obj.updateState 4
  | some code => (s.setState Obj.updateState 3).rejectUpdate code

theorem writeUpdateCommand_verify (b : Bool) (s : State) : writeUpdateCommand b (.num 2) s =
    if s.num Obj.updateState = 2 then .ok s.verifySlot else .error Err.refusedInState := by
  have hstore : (s.setState Obj.updateState 3).store.flash = s.store.flash := congrArg _ (State.setState_store _ _ _)
  have htarget : (s.setState Obj.updateState 3).targetSlot = s.targetSlot :=
    congrArg (1 - ·) (State.num_moved_ne _ _ (by decide) (by decide))
  simp only [writeUpdateCommand, Val.toNat, htarget, slotFault_congr hstore, slotHead_congr hstore, State.verifySlot]
  cases s.slotFault s.targetSlot <;> rfl

theorem writeUpdateCommand_activate {b : Bool} {s : State} (hserve : s.rst.serve = .full) : writeUpdateCommand b (.num 3) s =
    if s.num Obj.updateState = 4 then .ok (s.activateImage b) else .error Err.refusedInState := by
  simp [writeUpdateCommand, Val.toNat, hserve]

theorem writeUpdateCommand_cancel (b : Bool) (s : State) : writeUpdateCommand b (.num 4) s =
    if s.num Obj.updateState ∈ [1, 2, 4, 7] then .ok s.cancelUpdate else .error Err.refusedInState := by
  simp [writeUpdateCommand, Val.toNat]

theorem targetSlot_congr {s u : State} (h : u.num Obj.bootSlot = s.num Obj.bootSlot) : u.targetSlot = s.targetSlot :=
  congrArg (1 - ·) h

/-- BEGIN erases the slot. -/
theorem begin_spec (s : State) : let u := (s.erase (slotAddr s.targetSlot) slotSize).setState Obj.updateState 1
    u.num Obj.updateState = 1 ∧ u.mem = s.mem ∧ (Memory.wf 0xFF s.store.flash = true → ∀ a, u.flashByte a =
      if slotAddr s.targetSlot ≤ a ∧ a < slotAddr s.targetSlot + 0x2000000 then 0xFF else s.flashByte a) := by
  refine ⟨State.num_moved _ _ (by decide), State.setState_mem _ _ _, fun hwf a => ?_⟩
  rw [flashByte_congr (congrArg _ (State.setState_store _ _ _))]
  split
  case isTrue h => exact State.flashByte_erase _ _ _ s h.1 h.2
  case isFalse h => exact flashByte_erase_out hwf (by unfold slotSize; omega)

/-- VERIFY goes by what the slot fails. -/
theorem verifySlot_spec (s : State) : s.verifySlot.store.flash = s.store.flash ∧ s.verifySlot.mem = s.mem ∧
    match s.slotFault s.targetSlot with
    | none => s.verifySlot.num Obj.updateState = 4 ∧
        s.verifySlot.num Obj.stagedVersion = imageVersion (s.slotHead s.targetSlot)
    | some code => s.verifySlot.num Obj.updateState = 7 ∧ s.verifySlot.num Obj.updateResult = code ∧
        Counted Obj.updatesRejected 1 s s.verifySlot := by
  unfold State.verifySlot
  have hverifying := State.setState_changes Obj.updateState 3 s
  cases s.slotFault s.targetSlot with
  | none =>
    refine ⟨congrArg StoreState.flash ?_, ?_, State.num_moved _ _ (by decide), ?_⟩
    · exact (State.setState_store _ _ _).trans hverifying.store
    · exact (State.setState_mem _ _ _).trans hverifying.mem
    · rw [State.num_moved_ne _ _ (by decide) (by decide), State.num_setNum_self]
  | some code =>
    obtain ⟨hstate, hresult, hcount, hrest⟩ := rejectUpdate_spec code (s.setState Obj.updateState 3)
    refine ⟨congrArg StoreState.flash (hrest.store.trans hverifying.store), hrest.mem.trans hverifying.mem, hstate, hresult, ?_⟩
    rw [Counted, hcount, hverifying.2.num (by decide) (ne_eventsDropped (by decide))]

/-- CANCEL ends the update. -/
theorem cancelUpdate_spec (s : State) : s.cancelUpdate.num Obj.updateState = 0 ∧ s.cancelUpdate.num Obj.updateResult = 8 ∧
    s.cancelUpdate.store.flash = s.store.flash ∧ s.cancelUpdate.mem = s.mem := by
  have hall := State.cancelUpdate_changes s
  refine ⟨State.num_moved _ _ (by decide), ?_, congrArg _ hall.store, hall.mem⟩
  exact (State.num_moved_ne _ _ (by decide) (by decide)).trans (State.num_setNum_self _ _ _)

/-! ### ACTIVATE (R508) -/

/-- The standby holds another image. -/
def State.withStandby (h : List Byte) (s : State) : State := { s with sec := { s.sec with standby := h } }

/-- What a failed activation leaves. -/
theorem activateFails_spec (s : State) : s.activateFails.num Obj.updateState = 7 ∧ s.activateFails.num Obj.updateResult = 6 ∧
    s.activateFails.num Obj.standbyState = 1 ∧
    s.activateFails.sec = { s.sec with standby := s.slotHead (s.num Obj.bootSlot) } ∧
    s.activateFails.num Obj.bootSlot = s.num Obj.bootSlot ∧ s.activateFails.rst = s.rst ∧
    s.activateFails.mem = s.mem ∧ s.activateFails.tiles = s.tiles := by
  let t := s.withStandby (s.slotHead (s.num Obj.bootSlot))
  have hstandby := State.setState_changes Obj.standbyState 1 t
  have hrest : s.activateFails = (t.setState Obj.standbyState 1).rejectUpdate 6 := rfl
  obtain ⟨hstate, hresult, -, hreject⟩ := rejectUpdate_spec 6 (t.setState Obj.standbyState 1)
  rw [hrest]
  refine ⟨hstate, hresult, ?_, hreject.sec.trans hstandby.sec, ?_, hreject.rst.trans hstandby.rst, hreject.mem.trans hstandby.mem,
    hreject.tiles.trans hstandby.tiles⟩
  · rw [hreject.2.num (by decide) (ne_eventsDropped (by decide)), State.num_moved _ _ (by decide)]
  · rw [hreject.2.num (by decide) (ne_eventsDropped (by decide)), State.num_moved_ne _ _ (by decide) (by decide)]
    rfl

theorem activateImage_spec (b : Bool) (s : State) : let i := s.targetSlot
    let u := s.activateImage b
    u.rst = s.rst ∧ u.mem = s.mem ∧ u.tiles = s.tiles ∧
    if imageFormat (s.slotHead i) ≠ imageFormat s.sec.primary then
      u.num Obj.updateState = 6 ∧ u.num Obj.bootSlot = i ∧ u.sec = s.sec
    else if b = true ∨ s.slotFault i ≠ none then u.num Obj.updateState = 7 ∧ u.num Obj.updateResult = 6 ∧
      u.num Obj.standbyState = 1 ∧ u.sec = { s.sec with standby := s.slotHead (s.num Obj.bootSlot) } ∧
      u.num Obj.bootSlot = s.num Obj.bootSlot
    else u.num Obj.updateState = 5 ∧ u.num Obj.standbyState = 2 ∧ u.num Obj.bootSlot = s.num Obj.bootSlot ∧
      u.num Obj.activeComplex = s.num Obj.activeComplex ∧ u.sec = { s.sec with
        standby := s.slotHead i
        taken := false } := by
  dsimp only
  unfold State.activateImage
  dsimp only
  by_cases hformat : imageFormat (s.slotHead s.targetSlot) ≠ imageFormat s.sec.primary
  · rw [if_pos hformat, if_pos hformat]
    have hboot := setPersisted_stores (l := Obj.bootSlot :: queueKeys) Obj.bootSlot (.num s.targetSlot) s (by simp) (by simp)
    have hself := val_setPersisted_self Obj.bootSlot (.num s.targetSlot) s (by decide) (by decide)
    generalize s.setPersisted Obj.bootSlot (.num s.targetSlot) = t at hboot hself
    have hwaits := State.setState_changes Obj.updateState 6 t
    refine ⟨hwaits.rst.trans hboot.rst, hwaits.mem.trans hboot.mem, hwaits.tiles.trans hboot.tiles,
      State.num_moved _ _ (by decide), ?_, ?_⟩
    · exact (State.num_moved_ne _ _ (by decide) (by decide)).trans (congrArg Val.toNat hself)
    · rw [hwaits.sec, hboot.1]
      rfl
  · rw [if_neg hformat, if_neg hformat]
    have hchecks := State.setState_changes Obj.updateState 5 s
    have hstate : (s.setState Obj.updateState 5).num Obj.updateState = 5 := State.num_moved _ _ (by decide)
    have hflash : (s.setState Obj.updateState 5).store.flash = s.store.flash := congrArg _ hchecks.store
    rw [slotFault_congr hflash]
    have hkept {k : Nat} (hk : k ∉ [Obj.updateState]) (hm : k % 256 ≠ 0x12) :
        (s.setState Obj.updateState 5).num k = s.num k := hchecks.2.num hk (ne_eventsDropped hm)
    have hboot : (s.setState Obj.updateState 5).slotHead ((s.setState Obj.updateState 5).num Obj.bootSlot) =
        s.slotHead (s.num Obj.bootSlot) := by rw [slotHead_congr hflash, hkept (by decide) (by decide)]
    have hbootSlot : (s.setState Obj.updateState 5).num Obj.bootSlot = s.num Obj.bootSlot := hkept (by decide) (by decide)
    have hactive : (s.setState Obj.updateState 5).num Obj.activeComplex = s.num Obj.activeComplex := hkept (by decide) (by decide)
    generalize s.setState Obj.updateState 5 = t at *
    by_cases hfails : b = true ∨ s.slotFault s.targetSlot ≠ none
    · rw [if_pos (by simpa [Option.isSome_iff_ne_none] using hfails), if_pos hfails]
      obtain ⟨hrej, hresult, hstandby, hsec, hslot, hrst, hmem, htiles⟩ := activateFails_spec t
      rw [hboot, hchecks.sec] at hsec
      exact ⟨hrst.trans hchecks.rst, hmem.trans hchecks.mem, htiles.trans hchecks.tiles, hrej, hresult,
        hstandby, hsec, hslot.trans hbootSlot⟩
    · rw [if_neg (by simpa [Option.isSome_iff_ne_none] using hfails), if_neg hfails]
      let w : State := { t with sec := { t.sec with standby := s.slotHead s.targetSlot, taken := false } }
      have hboots := State.setState_changes Obj.standbyState 1 w
      have hmirrors := hboots.trans (State.setState_changes Obj.standbyState 2 _)
      have hnum {k : Nat} (hk : k ∉ [Obj.standbyState]) (hm : k % 256 ≠ 0x12) :
          ((w.setState Obj.standbyState 1).setState Obj.standbyState 2).num k = t.num k :=
        hmirrors.2.num hk (ne_eventsDropped hm)
      refine ⟨hmirrors.rst.trans hchecks.rst, hmirrors.mem.trans hchecks.mem, hmirrors.tiles.trans hchecks.tiles,
        (hnum (by decide) (by decide)).trans hstate,
        State.num_moved _ _ (by decide), (hnum (by decide) (by decide)).trans hbootSlot,
        (hnum (by decide) (by decide)).trans hactive, hmirrors.sec.trans ?_⟩
      rw [← hchecks.sec]

/-! ## Bytes programmed into the slot (R507) -/

/-- Programming at UpdateOffset, by state and fit. -/
theorem programSlot_spec (l : List Byte) (failed : Bool) (s : State) : let n := s.num Obj.updateOffset
    (s.num Obj.updateState ≠ 2 → s.programSlot l failed = .error Err.refusedInState) ∧
    (s.num Obj.updateState = 2 → 0x2000000 < n + l.length → s.programSlot l failed = .error Err.outOfRange) ∧
    (s.num Obj.updateState = 2 → n + l.length ≤ 0x2000000 → s.programSlot l failed =
      .ok (if failed then s.rejectUpdate 7
        else (s.program (slotAddr s.targetSlot + n) l).setNum Obj.updateOffset (n + l.length))) := by
  dsimp only
  refine ⟨fun h => ?_, fun h hover => ?_, fun h hfits => ?_⟩
  · rw [State.programSlot, if_pos h]
  · rw [State.programSlot, if_neg (by simp [h]), if_pos (by exact hover)]
  · rw [State.programSlot, if_neg (by simp [h]), if_neg (by unfold slotSize; omega)]
    cases failed <;> rfl

/-- What is programmed keeps its zeros, and the offset follows it. -/
theorem programmed_spec {l : List Byte} {a n : Nat} {s : State} (hwf : Memory.wf 0xFF s.store.flash = true) :
    let u := (s.program a l).setNum Obj.updateOffset n
    u.num Obj.updateOffset = n ∧ u.num Obj.updateState = s.num Obj.updateState ∧ u.mem = s.mem ∧
      (∀ i, i < l.length → u.flashByte (a + i) = l.getD i 0 &&& s.flashByte (a + i)) ∧
      ∀ b, b < a ∨ a + l.length ≤ b → u.flashByte b = s.flashByte b :=
  ⟨State.num_setNum_self _ _ _, State.num_setNum_ne _ _ _ _ (by decide), rfl, fun _ => flashByte_program_in hwf,
    fun _ => flashByte_program_out hwf⟩

/-- An address in a cabinet's GDDR or buffers that answers. -/
def State.standsIn (s : State) (a : Nat) : Prop :=
  s.access a .ok = .ok ∧ ∃ c o, s.place a = .buffer c o ∨ s.place a = .gddr c o

/-- Bytes that device memory gives are read from it. -/
theorem bytesOrFree_there {a n : Nat} {s : State} (h : ∀ i, i < n → s.standsIn (a + i)) :
    s.bytesOrFree a n = ((List.range n).map fun i => s.byte ((a + i) % 0x1000000000000), s) := by
  have hthere (i : Nat) (hi : i < n) : (decide (s.access (a + i) .ok = .ok) &&
      (match s.place (a + i) with | .host _ | .remote _ _ => false | _ => true)) = true := by
    obtain ⟨hok, c, o, hplace | hplace⟩ := h i hi <;> simp [hok, hplace]
  have hall : (List.range n).all (fun i => decide (s.access (a + i) .ok = .ok) &&
      (match s.place (a + i) with | .host _ | .remote _ _ => false | _ => true)) = true :=
    List.all_eq_true.2 fun i hi => hthere i (List.mem_range.1 hi)
  unfold State.bytesOrFree
  dsimp only
  rw [if_pos (by exact hall)]
  refine Prod.ext (List.map_congr_left fun i hi => ?_) rfl
  exact if_pos (hthere i (List.mem_range.1 hi))

/-- Consecutive bytes, the first m and the n after them. -/
theorem map_range_add {α : Type} (f : Nat → α) (m n : Nat) :
    (List.range m).map f ++ (List.range n).map (fun i => f (m + i)) = (List.range (m + n)).map f := by
  rw [List.range_add, List.map_append, List.map_map]
  rfl

/-- UpdateFromMemory with the image in device memory: its header's BODY_BYTES say how much is programmed. -/
theorem writeUpdateFromMemory_there {a n : Nat} {s : State} (hstate : s.num Obj.updateState = 2)
    (hoffset : s.num Obj.updateOffset = 0) (hn : n ≤ 5242880) (hbody : leNat (s.read (a % 2 ^ 48 + 16) 4) = n)
    (hin : ∀ i, i < 256 + n → s.standsIn (a + i)) (hwrap : ∀ i, i < 256 + n → (a + i) % 2 ^ 48 = a % 2 ^ 48 + i) :
    writeUpdateFromMemory false (.num a) s = .ok ((s.program (slotAddr s.targetSlot)
      ((List.range (256 + n)).map fun i => s.byte (a % 2 ^ 48 + i))).setNum Obj.updateOffset (256 + n)) := by
  have hbyte (i : Nat) (hi : i < 256 + n) : s.byte ((a + i) % 0x1000000000000) = s.byte (a % 2 ^ 48 + i) :=
    congrArg s.byte (hwrap i hi)
  have hhead : s.bytesOrFree a 256 = ((List.range 256).map fun i => s.byte (a % 2 ^ 48 + i), s) := by
    rw [bytesOrFree_there fun i hi => hin i (by omega)]
    exact Prod.ext (List.map_congr_left fun i hi => hbyte i (by have := List.mem_range.1 hi; omega)) rfl
  have hbodies : s.bytesOrFree (a + 256) n = ((List.range n).map fun i => s.byte (a % 2 ^ 48 + (256 + i)), s) := by
    rw [bytesOrFree_there fun i hi => (Nat.add_assoc a 256 i).symm ▸ hin (256 + i) (by omega)]
    refine Prod.ext (List.map_congr_left fun i hi => ?_) rfl
    rw [Nat.add_assoc]
    exact hbyte _ (by have := List.mem_range.1 hi; omega)
  have hfield : field ((List.range 256).map fun i => s.byte (a % 2 ^ 48 + i)) 16 4 = n := hbody
  obtain ⟨-, -, hprogram⟩ := programSlot_spec ((List.range (256 + n)).map fun i => s.byte (a % 2 ^ 48 + i)) false s
  have hlen : ((List.range (256 + n)).map fun i => s.byte (a % 2 ^ 48 + i)).length = 256 + n := by simp
  rw [hlen, hoffset, Nat.zero_add] at hprogram
  rw [writeUpdateFromMemory, if_neg (by simp [hstate])]
  simp only [Val.toNat, hhead, hfield, hbodies, hoffset, map_range_add]
  rw [if_neg (by unfold slotSize; omega)]
  exact hprogram hstate (by omega)

/-! ## Key slots (R511, R513) -/

/-- A record written to a key slot, and its flag. -/
theorem keyWritten_spec {k : Nat} (j : Nat) (hj : j ≤ 7) (hk : k = Obj.keySlot + j) (l : List Byte) (b : Nat) (s : State) :
    let u := (s.setPersisted k (.bytes l)).setFlag Obj.securityFlags b
    u.bytes k = l ∧ u.mem = s.mem ∧ u.num Obj.securityFlags = s.num Obj.securityFlags ||| b ∧
      ∀ i, i < 8 → Obj.keySlot + i ≠ k → u.bytes (Obj.keySlot + i) = s.bytes (Obj.keySlot + i) := by
  have hkey (i : Nat) (hi : i ≤ 7) : Obj.keySlot + i ∉ queueKeys ∧ (Obj.keySlot + i) % 256 ≠ 0x12 ∧
      Obj.keySlot + i ∉ [Obj.securityFlags] := by
    simp only [queueKeys, List.mem_cons, List.not_mem_nil, or_false, not_or, Obj.keySlot, Obj.pendingRecords, Obj.storeState,
      Obj.securityFlags]
    omega
  obtain ⟨hqueue, hmod, hflags⟩ := hkey j hj
  subst hk
  have hslot := setPersisted_stores (l := (Obj.keySlot + j) :: queueKeys) (Obj.keySlot + j) (.bytes l) s (by simp) (by simp)
  have hself := val_setPersisted_self (Obj.keySlot + j) (.bytes l) s hqueue hmod
  dsimp only
  generalize s.setPersisted (Obj.keySlot + j) (.bytes l) = t at hslot hself ⊢
  have hflag := State.setFlag_changes Obj.securityFlags b t
  refine ⟨?_, hflag.mem.trans hslot.mem, ?_, fun i hi hne => ?_⟩
  · exact congrArg Val.toBytes ((hflag.2 _ hflags (ne_eventsDropped hmod)).trans hself)
  · rw [State.num_flagged _ _ (by decide), hslot.num ?_ (by decide)]
    refine List.not_mem_cons_of_ne_of_not_mem ?_ (by decide)
    exact fun he => hflags (by simp [he])
  · obtain ⟨hqueue', hmod', hflags'⟩ := hkey i (by omega)
    refine congrArg Val.toBytes ((hflag.2 _ hflags' (ne_eventsDropped hmod')).trans (hslot.2 _ ?_ (ne_eventsDropped hmod')))
    exact List.not_mem_cons_of_ne_of_not_mem hne hqueue'


/-- An enrolled key's record begins with its class and its public key (R511). -/
theorem keyRecord_spec {val : List Byte} (hlen : val.length = 96) (z r : List Byte) (hz : z.length = 3) :
    (slice val 1 1 ++ z ++ slice val 4 57 ++ r).take 4 = slice val 1 1 ++ z ∧
      slice (slice val 1 1 ++ z ++ slice val 4 57 ++ r) 4 57 = slice val 4 57 := by
  have hclass : (slice val 1 1).length = 1 := by simp [slice, hlen]
  have hhead : (slice val 1 1 ++ z).length = 4 := by simp [hclass, hz]
  have hkey : (slice val 4 57).length = 57 := by simp [slice, hlen]
  rw [List.append_assoc _ (slice val 4 57) r]
  generalize slice val 1 1 ++ z = head at hhead
  generalize slice val 4 57 = key at hkey
  rw [slice, ← hhead, List.take_left, List.drop_left, ← hkey, List.take_left]
  exact ⟨rfl, rfl⟩

/-- The free bytes of a key's nonce are used up. -/
def State.usedFree (n : Nat) (s : State) : State := { s with free := s.free + n }

/-- KeyEnroll (R511), by its block and by what the slot holds. -/
theorem writeKeyEnroll_spec {val : List Byte} (s : State) : let k := Obj.keySlot + leNat (val.take 1)
    (badKeyBlock val = true → writeKeyEnroll (.bytes val) s = .error Err.outOfRange) ∧
    (badKeyBlock val = false → s.bytes k ≠ [] → writeKeyEnroll (.bytes val) s = .error Err.refusedInState) ∧
    (badKeyBlock val = false → s.bytes k = [] → ∃ r, writeKeyEnroll (.bytes val) s =
      .ok (((s.usedFree 12).setPersisted k (.bytes (slice val 1 1 ++ List.replicate 3 0 ++ slice val 4 57 ++ r))).setFlag
        Obj.securityFlags 8)) := by
  have hslot : leNat (val.take 1) = field val 0 1 := rfl
  dsimp only
  rw [hslot]
  refine ⟨fun hbad => ?_, fun hgood hfull => ?_, fun hgood hempty => ?_⟩
  · simp [writeKeyEnroll, Val.toBytes, hbad]
  · simp [writeKeyEnroll, Val.toBytes, hgood, hfull]
  · let iv := (s.freshBytes 12).1
    let ct := Config.gcmStream Config.storageKey iv (slice val 64 32)
    refine ⟨List.replicate 3 0 ++ iv ++ ct.take 32 ++ (Config.gcmTag Config.storageKey iv [] ct).take 16 ++
      List.replicate 4 0, ?_⟩
    simp only [writeKeyEnroll, Val.toBytes, hgood, hempty, List.isEmpty_nil, Bool.not_true, Bool.false_eq_true, if_false,
      List.append_assoc]
    rfl

/-- A slot that a good block names is one of the eight. -/
theorem slot_le_of_good {val : List Byte} (h : badKeyBlock val = false) : leNat (val.take 1) ≤ 7 := by
  have hslot : leNat (val.take 1) = field val 0 1 := rfl
  simp only [badKeyBlock, Bool.or_eq_false_iff, decide_eq_false_iff_not] at h
  omega

/-! ## Attestation (R514) -/

theorem fitTo_length (n : Nat) (l : List Byte) : (fitTo n l).length = n := by
  rw [fitTo, List.length_append, List.length_take, List.length_replicate]
  omega

theorem fitTo_self {n : Nat} {l : List Byte} (h : l.length = n) : fitTo n l = l := by
  subst h
  simp [fitTo]

/-- A whole first part is passed over. -/
theorem drop_append_of_length {α : Type} {m n : Nat} {l r : List α} (h : l.length = m) (hm : m ≤ n) :
    (l ++ r).drop n = r.drop (n - m) := by
  subst h
  rw [List.drop_append, List.drop_eq_nil_of_le hm, List.nil_append]

theorem report_length (nonce : List Byte) (s : State) : (s.report nonce).length = 4576 := by
  unfold State.report
  simp only [List.length_append, leBytes_length, fitTo_length, List.length_flatMap, List.map_const', List.length_range,
    List.sum_replicate, List.length_replicate, smul_eq_mul]

theorem report_magic (nonce : List Byte) (s : State) : leNat ((s.report nonce).take 4) = 0x71A3E90C := by
  unfold State.report
  simp only [List.append_assoc]
  exact (congrArg leNat (List.take_left' (leBytes_length _ _))).trans (by decide)

theorem report_nonce {nonce : List Byte} (h : nonce.length = 32) (s : State) : slice (s.report nonce) 32 32 = nonce := by
  unfold State.report
  simp only [List.append_assoc, slice]
  simp only [drop_append_of_length (leBytes_length _ _), drop_append_of_length (fitTo_length _ _), Nat.reduceLeDiff, Nat.reduceSub]
  rw [List.drop_zero, fitTo_self h]
  exact List.take_left' h

/-- The report is written. -/
def State.attested (nonce : List Byte) (s : State) : State := s.setBytes Obj.attestReport (s.report nonce)

/-- The report is written, its event raised, and it counts. -/
theorem writeAttestNonce_eq (nonce : List Byte) (s : State) : writeAttestNonce (.bytes nonce) s =
    .ok (((s.attested nonce).raise Obj.attestReport 0).bump Obj.attestationsSigned 1) := rfl

theorem attested_spec (nonce : List Byte) (s : State) :
    let u := ((s.attested nonce).raise Obj.attestReport 0).bump Obj.attestationsSigned 1
    Counted Obj.attestationsSigned 1 s u ∧ u.mem = s.mem ∧ u.bytes Obj.attestReport = s.report nonce := by
  have hset : ChangesOnly [Obj.attestReport] s (s.attested nonce) :=
    State.setVal_changes Obj.attestReport (.bytes (s.report nonce)) s
  have hself : (s.attested nonce).bytes Obj.attestReport = s.report nonce := by
    rw [State.bytes, State.attested, State.setBytes, State.val_setVal_self, Val.toBytes]
  generalize s.report nonce = r at hself ⊢
  dsimp only
  generalize s.attested nonce = t at hset hself ⊢
  have hraise : ChangesOnly [] t (t.raise Obj.attestReport 0) := State.raiseVal_changes _ _ _ _
  have hraised := hset.trans (hraise.mono (List.nil_subset _))
  generalize t.raise Obj.attestReport 0 = w at hraise hraised
  have hcount := State.bump_changes Obj.attestationsSigned 1 w
  refine ⟨(State.num_bump_self _ _ _).trans ?_, hcount.mem.trans hraised.mem, ?_⟩
  · rw [hraised.2.num (by decide) (ne_eventsDropped (by decide))]
  · rw [State.bytes, hcount.2 _ (by decide) (ne_eventsDropped (by decide)), hraise.2 _ (by decide) (ne_eventsDropped (by decide))]
    exact hself

/-! ## The statement -/

theorem State.assertSoft_none {s : State} (h : s.rst.soft = none) : s.assertSoft = s := by rw [assertSoft, h]

section Commands

variable {s : State} {q : Req} {val : List Byte}

/-- BEGIN, VERIFY, ACTIVATE and CANCEL are one command object. -/
theorem rowOf_updateCommand : (rowOf Obj.updateCommand).any (fun r => r.ty.fixed && r.acc = .wo) = true := by decide +kernel

theorem begin_settled (hadm : Admitted q Obj.updateCommand [1] s) : let st := s.num Obj.updateState
    (st ≠ 0 → st ≠ 7 → exec (.begin q) s = .next (Denied q Obj.updateCommand Err.refusedInState (Arrived q s))) ∧
    (st = 0 ∨ st = 7 → Carries q Obj.updateCommand (exec (.begin q) s) fun u => u.num Obj.updateState = 1 ∧ u.mem = s.mem ∧
      (Memory.wf 0xFF s.store.flash = true → ∀ a, u.flashByte a =
        if slotAddr s.targetSlot ≤ a ∧ a < slotAddr s.targetSlot + 0x2000000 then 0xFF else s.flashByte a)) := by
  have hdoes := writeUpdateCommand_begin false (Arrived q s)
  rw [arrived_num] at hdoes
  refine ⟨fun h0 h7 => denies_command hadm rowOf_updateCommand (hdoes.trans (if_neg (not_or.2 ⟨h0, h7⟩))),
    fun h => carries_command hadm rowOf_updateCommand ⟨_, hdoes.trans (if_pos h), ?_⟩⟩
  obtain ⟨n, d, he⟩ := arrived_at q s
  rw [he]
  exact begin_spec _

theorem eraseDone_settled (s : State) : (s.num Obj.updateState ≠ 1 → exec .updateEraseDone s = .next s) ∧
    (s.num Obj.updateState = 1 → Answers (exec .updateEraseDone s) fun u =>
      u.num Obj.updateState = 2 ∧ u.num Obj.updateOffset = 0 ∧
      ChangesOnly [Obj.updateState, Obj.updateOffset] s u) := by
  refine ⟨fun h => if_neg h, fun h => ⟨_, if_pos h, State.num_moved _ _ (by decide), ?_, ?_⟩⟩
  · exact (State.num_moved_ne _ _ (by decide) (by decide)).trans (State.num_setNum_self _ _ _)
  · exact ((State.setNum_changes _ _ _).mono (by simp)).trans ((State.setState_changes _ _ _).mono (by simp))

theorem updateChunk_settled (b : Bool) (hadm : Admitted q Obj.updateChunk val s) : let n := s.num Obj.updateOffset
    (s.num Obj.updateState ≠ 2 → exec (.updateChunk q val b) s =
      .next (Denied q Obj.updateChunk Err.refusedInState (Arrived q s))) ∧
    (s.num Obj.updateState = 2 → 0x2000000 < n + val.length →
      exec (.updateChunk q val b) s = .next (Denied q Obj.updateChunk Err.outOfRange (Arrived q s))) ∧
    (s.num Obj.updateState = 2 → n + val.length ≤ 0x2000000 → b = true →
      Carries q Obj.updateChunk (exec (.updateChunk q val b) s) fun u => u.num Obj.updateState = 7 ∧
        u.num Obj.updateResult = 7 ∧ Counted Obj.updatesRejected 1 s u ∧ u.store.flash = s.store.flash) ∧
    (s.num Obj.updateState = 2 → n + val.length ≤ 0x2000000 → b = false → Memory.wf 0xFF s.store.flash = true →
      Carries q Obj.updateChunk (exec (.updateChunk q val b) s) fun u => u.num Obj.updateOffset = n + val.length ∧
        u.num Obj.updateState = 2 ∧ (∀ i, i < val.length → u.flashByte (slotAddr s.targetSlot + n + i) =
          val.getD i 0 &&& s.flashByte (slotAddr s.targetSlot + n + i)) ∧
        (∀ a, a < slotAddr s.targetSlot + n ∨ slotAddr s.targetSlot + n + val.length ≤ a → u.flashByte a = s.flashByte a)) := by
  obtain ⟨t, d, he⟩ := arrived_at q s
  have hdoes := programSlot_spec val b (Arrived q s)
  simp only [arrived_num] at hdoes
  obtain ⟨hstate, hover, hfits⟩ := hdoes
  refine ⟨fun h => denies_block hadm rowOf_updateChunk rfl rfl (hstate h),
    fun h hl => denies_block hadm rowOf_updateChunk rfl rfl (hover h hl), fun h hl hb => ?_, fun h hl hb hwf => ?_⟩
  · refine carries_block hadm rowOf_updateChunk rfl rfl ⟨_, hfits h hl, ?_⟩
    rw [if_pos hb, he]
    obtain ⟨hrej, hresult, hcount, hrest⟩ := rejectUpdate_spec 7 ({ s with now := t, dict := d } : State)
    exact ⟨hrej, hresult, hcount, congrArg StoreState.flash hrest.store⟩
  · refine carries_block hadm rowOf_updateChunk rfl rfl ⟨_, hfits h hl, ?_⟩
    rw [if_neg (by simp [hb]), he]
    obtain ⟨hoffset, hkept, -, hin, hout⟩ := programmed_spec (s := { s with now := t, dict := d }) (l := val)
      (a := slotAddr s.targetSlot + s.num Obj.updateOffset) (n := s.num Obj.updateOffset + val.length) hwf
    exact ⟨hoffset, hkept.trans h, hin, hout⟩

theorem updateFromMemory_settled (n : Nat) (hadm : Admitted q Obj.updateFromMemory val s) : let a := leNat val
    (s.num Obj.updateState ≠ 2 → exec (.updateFromMemory q val false) s =
      .next (Denied q Obj.updateFromMemory Err.refusedInState (Arrived q s))) ∧
    (s.num Obj.updateState = 2 → s.num Obj.updateOffset = 0 → n ≤ 5242880 → leNat (s.read (a % 2 ^ 48 + 16) 4) = n →
      (∀ i, i < 256 + n → s.access (a + i) .ok = .ok ∧
        (∃ c o, s.place (a + i) = .buffer c o ∨ s.place (a + i) = .gddr c o) ∧ (a + i) % 2 ^ 48 = a % 2 ^ 48 + i) →
      Memory.wf 0xFF s.store.flash = true →
      Carries q Obj.updateFromMemory (exec (.updateFromMemory q val false) s) fun u =>
        u.num Obj.updateOffset = 256 + n ∧ u.mem = s.mem ∧ ∀ i, i < 256 + n → u.flashByte (slotAddr s.targetSlot + i) =
          s.byte (a % 2 ^ 48 + i) &&& s.flashByte (slotAddr s.targetSlot + i)) := by
  have hrow : (rowOf Obj.updateFromMemory).any (fun r => r.ty.fixed && r.acc = .wo) = true := by decide +kernel
  obtain ⟨t, d, he⟩ := arrived_at q s
  refine ⟨fun h => denies_command hadm hrow (if_pos (by rwa [arrived_num])), fun hstate hoffset hn hbody hin hwf => ?_⟩
  have hdoes := writeUpdateFromMemory_there (s := { s with now := t, dict := d }) hstate hoffset hn hbody
    (fun i hi => ⟨(hin i hi).1, (hin i hi).2.1⟩) fun i hi => (hin i hi).2.2
  rw [← he] at hdoes
  refine carries_command hadm hrow ⟨_, hdoes, ?_⟩
  rw [he]
  obtain ⟨hend, -, hmem, hbytes, -⟩ := programmed_spec (s := { s with now := t, dict := d })
    (l := (List.range (256 + n)).map fun i => s.byte (leNat val % 2 ^ 48 + i)) (a := slotAddr s.targetSlot) (n := 256 + n) hwf
  refine ⟨hend, hmem, fun i hi => (hbytes i (by simpa using hi)).trans ?_⟩
  rw [List.getD_eq_getElem _ _ (by simpa using hi), List.getElem_map, List.getElem_range]
  rfl

theorem verify_settled (hadm : Admitted q Obj.updateCommand [2] s) :
    (s.num Obj.updateState ≠ 2 → exec (.verify q) s = .next (Denied q Obj.updateCommand Err.refusedInState (Arrived q s))) ∧
    (s.num Obj.updateState = 2 → Carries q Obj.updateCommand (exec (.verify q) s) fun u =>
      u.store.flash = s.store.flash ∧ u.mem = s.mem ∧
      match s.slotFault s.targetSlot with
      | none => u.num Obj.updateState = 4 ∧ u.num Obj.stagedVersion = imageVersion (s.slotHead s.targetSlot)
      | some code => u.num Obj.updateState = 7 ∧ u.num Obj.updateResult = code ∧ Counted Obj.updatesRejected 1 s u) := by
  have hdoes := writeUpdateCommand_verify false (Arrived q s)
  rw [arrived_num] at hdoes
  refine ⟨fun h => denies_command hadm rowOf_updateCommand (hdoes.trans (if_neg h)),
    fun h => carries_command hadm rowOf_updateCommand ⟨_, hdoes.trans (if_pos h), ?_⟩⟩
  obtain ⟨n, d, he⟩ := arrived_at q s
  rw [he]
  exact verifySlot_spec { s with now := n, dict := d }

theorem activate_settled (b : Bool) (hadm : Admitted q Obj.updateCommand [3] s) (hsoft : s.rst.soft = none)
    (hserve : s.rst.serve = .full) : let i := s.targetSlot
    (s.num Obj.updateState ≠ 4 → exec (.activate q b) s = .next (Denied q Obj.updateCommand Err.refusedInState (Arrived q s))) ∧
    (s.num Obj.updateState = 4 → Carries q Obj.updateCommand (exec (.activate q b) s) fun u =>
      u.mem = s.mem ∧ u.tiles = s.tiles ∧
      if imageFormat (s.slotHead i) ≠ imageFormat s.sec.primary then u.num Obj.updateState = 6 ∧ u.num Obj.bootSlot = i ∧ u.sec = s.sec
      else if b = true ∨ s.slotFault i ≠ none then u.num Obj.updateState = 7 ∧ u.num Obj.updateResult = 6 ∧ u.num Obj.standbyState = 1 ∧
        u.sec = { s.sec with standby := s.slotHead (s.num Obj.bootSlot) } ∧ u.num Obj.bootSlot = s.num Obj.bootSlot
      else u.num Obj.updateState = 5 ∧ u.num Obj.standbyState = 2 ∧ u.num Obj.bootSlot = s.num Obj.bootSlot ∧
        u.num Obj.activeComplex = s.num Obj.activeComplex ∧ u.sec = { s.sec with
          standby := s.slotHead i
          taken := false }) := by
  have hserve' : (Arrived q s).rst.serve = .full := by rw [arrived_eq]; exact hserve
  have hsoft' : (Arrived q s).rst.soft = none := by rw [arrived_eq]; exact hsoft
  have hdoes := writeUpdateCommand_activate (b := b) hserve'
  obtain ⟨hok, herr⟩ := serveOwn_command hadm rowOf_updateCommand (writeUpdateCommand b)
  have hspec := activateImage_spec b (Arrived q s)
  rw [arrived_num] at hdoes
  refine ⟨fun h => congrArg Host.Outcome.next ?_, fun h =>
    ⟨(Arrived q s).activateImage b, congrArg Host.Outcome.next ?_, ?_⟩⟩
  · refine (congrArg State.assertSoft (herr _ (hdoes.trans (if_neg h)))).trans (State.assertSoft_none ?_)
    rw [denied_rst, hsoft']
  · refine (congrArg State.assertSoft (hok _ (hdoes.trans (if_pos h)))).trans (State.assertSoft_none ?_)
    rw [replied_rst, hspec.1, hsoft']
  · obtain ⟨n, d, he⟩ := arrived_at q s
    rw [he] at hspec ⊢
    exact hspec.2

theorem cancel_settled (hadm : Admitted q Obj.updateCommand [4] s) :
    (s.num Obj.updateState ∉ [1, 2, 4, 7] → exec (.cancel q) s =
      .next (Denied q Obj.updateCommand Err.refusedInState (Arrived q s))) ∧
    (s.num Obj.updateState ∈ [1, 2, 4, 7] → Carries q Obj.updateCommand (exec (.cancel q) s) fun u => u.num Obj.updateState = 0 ∧
      u.num Obj.updateResult = 8 ∧ u.store.flash = s.store.flash ∧ u.mem = s.mem) := by
  have hdoes := writeUpdateCommand_cancel false (Arrived q s)
  rw [arrived_num] at hdoes
  refine ⟨fun h => denies_command hadm rowOf_updateCommand (hdoes.trans (if_neg h)),
    fun h => carries_command hadm rowOf_updateCommand ⟨_, hdoes.trans (if_pos h), ?_⟩⟩
  obtain ⟨n, d, he⟩ := arrived_at q s
  rw [he]
  exact cancelUpdate_spec { s with now := n, dict := d }

theorem keyEnroll_settled (hadm : Admitted q Obj.keyEnroll val s) : let k := Obj.keySlot + leNat (val.take 1)
    (badKeyBlock val = true → exec (.keyEnroll q val) s = .next (Denied q Obj.keyEnroll Err.outOfRange (Arrived q s))) ∧
    (badKeyBlock val = false → s.bytes k ≠ [] → exec (.keyEnroll q val) s =
      .next (Denied q Obj.keyEnroll Err.refusedInState (Arrived q s))) ∧
    (badKeyBlock val = false → s.bytes k = [] → Carries q Obj.keyEnroll (exec (.keyEnroll q val) s) fun u =>
      (u.bytes k).take 4 = slice val 1 1 ++ List.replicate 3 0 ∧ slice (u.bytes k) 4 57 = slice val 4 57 ∧ u.mem = s.mem ∧
      u.num Obj.securityFlags = s.num Obj.securityFlags ||| 8 ∧ (∀ j, j < 8 → Obj.keySlot + j ≠ k →
        u.bytes (Obj.keySlot + j) = s.bytes (Obj.keySlot + j))) := by
  obtain ⟨n, d, he⟩ := arrived_at q s
  obtain ⟨hbad, hfull, henroll⟩ := writeKeyEnroll_spec (val := val) (Arrived q s)
  have hbytes (k : Nat) : (Arrived q s).bytes k = s.bytes k := by rw [he]; rfl
  simp only [hbytes] at hfull henroll
  refine ⟨fun h => denies_block hadm rowOf_keyEnroll rfl rfl (hbad h),
    fun h hs => denies_block hadm rowOf_keyEnroll rfl rfl (hfull h hs), fun h hs => ?_⟩
  obtain ⟨r, hr⟩ := henroll h hs
  refine carries_block hadm rowOf_keyEnroll rfl rfl ⟨_, hr, ?_⟩
  obtain ⟨hself, hmem, hflags, hothers⟩ := keyWritten_spec _ (slot_le_of_good h) rfl
    (slice val 1 1 ++ List.replicate 3 0 ++ slice val 4 57 ++ r) 8 ((Arrived q s).usedFree 12)
  obtain ⟨hhead, hkey⟩ := keyRecord_spec (hadm.has_length rowOf_keyEnroll rfl rfl) (List.replicate 3 0) r rfl
  rw [hself]
  refine ⟨hhead, hkey, ?_⟩
  rw [he] at hmem hflags hothers ⊢
  exact ⟨hmem, hflags, hothers⟩

theorem keyRevoke_settled (hadm : Admitted q Obj.keyRevoke val s) :
    (s.slotInUse (leNat val) = true → exec (.keyRevoke q val) s =
      .next (Denied q Obj.keyRevoke Err.refusedInState (Arrived q s))) ∧
    (s.slotInUse (leNat val) = false → Carries q Obj.keyRevoke (exec (.keyRevoke q val) s) fun u =>
      u.bytes (Obj.keySlot + leNat val) = [] ∧ u.num Obj.securityFlags = s.num Obj.securityFlags ||| 0x10 ∧ u.mem = s.mem) := by
  have hrow : (rowOf Obj.keyRevoke).any (fun r => r.ty.fixed && r.acc = .wo) = true := by decide +kernel
  obtain ⟨n, d, he⟩ := arrived_at q s
  have huse : (Arrived q s).slotInUse (leNat val) = s.slotInUse (leNat val) := by rw [he]; rfl
  refine ⟨fun h => denies_command hadm hrow (if_pos (huse.trans h)), fun h => ?_⟩
  refine carries_command hadm hrow ⟨_, if_neg (by simp [Val.toNat, huse, h]), ?_⟩
  rw [he]
  obtain ⟨hself, hmem, hflags, -⟩ := keyWritten_spec (leNat val) (hadm.in_range rowOf_keyRevoke rfl rfl) rfl [] 0x10
    ({ s with now := n, dict := d } : State)
  exact ⟨hself, hflags, hmem⟩

theorem attestNonce_settled (hadm : Admitted q Obj.attestNonce val s) :
    Carries q Obj.attestNonce (exec (.attestNonce q val) s) fun u => Counted Obj.attestationsSigned 1 s u ∧ u.mem = s.mem ∧
      (u.bytes Obj.attestReport).length = 4576 ∧ leNat ((u.bytes Obj.attestReport).take 4) = 0x71A3E90C ∧
      slice (u.bytes Obj.attestReport) 32 32 = val := by
  obtain ⟨n, d, he⟩ := arrived_at q s
  refine carries_block hadm rowOf_attestNonce rfl rfl ⟨_, writeAttestNonce_eq _ _, ?_⟩
  rw [he]
  obtain ⟨hcount, hmem, hreport⟩ := attested_spec val ({ s with now := n, dict := d } : State)
  rw [hreport]
  exact ⟨hcount, hmem, report_length _ _, report_magic _ _, report_nonce (hadm.has_length rowOf_attestNonce rfl rfl) _⟩

end Commands

/-- Settles O56: each command's handler, in the state that its write arrives in. -/
theorem securityServices : Obligations.SecurityServices :=
  ⟨fun _ _ => begin_settled, eraseDone_settled, fun _ _ _ b => updateChunk_settled b, fun _ _ _ n => updateFromMemory_settled n,
    fun _ _ => verify_settled, fun _ _ b => activate_settled b, fun _ _ => cancel_settled, fun _ _ _ => keyEnroll_settled,
    fun _ _ _ => keyRevoke_settled, fun _ _ _ => attestNonce_settled⟩

end Sys2Proof.Machine

/-! PROOFS. Ports, their training and their tests: O50. -/

namespace Sys2Proof.Machine

/-! ## The lanes of a port (R430) -/

theorem portLanes_nodup : ∀ p : PortNo, (portLanes p).Nodup := by decide

theorem portLanes_lt : ∀ p : PortNo, ∀ l ∈ portLanes p, l < 192 := by decide

theorem lanePort_lt : ∀ l : Fin 192, lanePort l < 24 := by decide +kernel

theorem mem_portLanes : ∀ l : Fin 192, l.val ∈ portLanes (lanePort l) := by decide +kernel

/-- The lane in each place is one of the port's own. -/
theorem getD_mem_portLanes (p : PortNo) {k : Nat} (hk : k < 8) : (portLanes p).getD k 0 ∈ portLanes p := by
  have hlen : k < (portLanes p).length := by simpa [portLanes] using hk
  rw [List.getD_eq_getElem _ _ hlen]
  exact List.getElem_mem hlen

/-- No object of another range is one of the lanes' in this one. -/
theorem not_mem_lanes {b k : Nat} (p : PortNo) (h : k < b ∨ b + 192 ≤ k) : k ∉ (portLanes p).map (b + ·) := by
  intro hk
  obtain ⟨l, hl, rfl⟩ := List.mem_map.1 hk
  have := portLanes_lt p l hl
  omega

/-! ## What a port's work can reach -/

/-- State `s` with the parts of `u` that training and testing reach. -/
def State.trainedAs (s u : State) : State :=
  { s with
    free := u.free
    obj := u.obj
    dict := { s.dict with queues := u.dict.queues }
    net := { s.net with train := u.net.train, lines := u.net.lines } }

/-- What a port's work comes to: these objects and their events change, the free values that are used up, and what is noted of
the port's training and of its line coding. -/
def Trains (l : List Nat) (s u : State) : Prop := u = s.trainedAs u ∧ KeepsObjects l s u

theorem ChangesOnly.trains {l : List Nat} {s u : State} (h : ChangesOnly l s u) : Trains l s u := by
  obtain ⟨hu, hk⟩ := h
  refine ⟨?_, hk⟩
  rw [hu]
  rfl

theorem ChangesOnly.net {l : List Nat} {s u : State} (h : ChangesOnly l s u) : u.net = s.net := by rw [h.1]

namespace Trains

variable {l l' : List Nat} {s t u : State}

theorem refl (l : List Nat) (s : State) : Trains l s s := ⟨rfl, KeepsObjects.refl _ _⟩

theorem trans (h₁ : Trains l s t) (h₂ : Trains l t u) : Trains l s u := by
  obtain ⟨ht, hk₁⟩ := h₁
  obtain ⟨hu, hk₂⟩ := h₂
  refine ⟨hu.trans ?_, hk₁.trans hk₂⟩
  rw [ht]
  rfl

theorem mono (h : Trains l s u) (hl : l ⊆ l') : Trains l' s u := ⟨h.1, h.2.mono hl⟩

theorem mem (h : Trains l s u) : u.mem = s.mem := by rw [h.1]; rfl
theorem tiles (h : Trains l s u) : u.tiles = s.tiles := by rw [h.1]; rfl
theorem now (h : Trains l s u) : u.now = s.now := by rw [h.1]; rfl
theorem health (h : Trains l s u) : u.health = s.health := by rw [h.1]; rfl
theorem port (h : Trains l s u) (r : Nat) : u.port r = s.port r := by rw [h.1]; rfl

theorem num (h : Trains l s u) {k : Nat} (hk : k ∉ l) (hlo : 0x210000 ≤ k) : u.num k = s.num k := h.2.num_of_le hk hlo

end Trains

theorem setTrain_trains (l : List Nat) (p : Nat) (q : PortTrain) (s : State) : Trains l s (s.setTrain p q) :=
  ⟨rfl, fun _ _ _ => rfl⟩
theorem setLine_trains (l : List Nat) (p : Nat) (q : LineS) (s : State) : Trains l s (s.setLine p q) := ⟨rfl, fun _ _ _ => rfl⟩
theorem fresh_trains (l : List Nat) (s : State) : Trains l s s.fresh.2 := ⟨rfl, fun _ _ _ => rfl⟩

@[simp] theorem train_setTrain (p : Nat) (q : PortTrain) (s : State) : (s.setTrain p q).train p = q := by
  simp [State.train, State.setTrain, Tab.get, Tab.find?_put_self]

theorem train_congr {s u : State} (h : u.net.train = s.net.train) (p : Nat) : u.train p = s.train p := by
  rw [State.train, h]
  rfl

/-! ## A port changes state (R430, R437, R439) -/

/-- The lane states and margins that a port's state settles. -/
def laneKeys (L : List Nat) : List Nat := L.map (Obj.laneState + ·) ++ L.map (Obj.eyeMargin + ·)

/-- The objects that follow a port's state: its own, its target bridge's and its lanes'. -/
def portKeys (p : Nat) : List Nat := [Obj.portState + p, Obj.targetBridgeState + (p - 16)] ++ laneKeys (portLanes p)

/-- The state of a lane whose port is in state v. -/
def State.laneFor (s : State) (v l : Nat) : Nat := if v = Port.test && s.num (Obj.laneTest + l) ≠ 0 then 5 else laneOf v

/-- A lane follows its port. -/
def State.laneFollows (v : Nat) (s : State) (l : Nat) : State :=
  let s := s.setState (Obj.laneState + l) (s.laneFor v l)
  if v = Port.up then s else s.setNum (Obj.eyeMargin + l) 0

theorem laneFollows_changes (v l : Nat) (s : State) :
    ChangesOnly [Obj.laneState + l, Obj.eyeMargin + l] s (s.laneFollows v l) := by
  have hstate := (State.setState_changes (Obj.laneState + l) (s.laneFor v l) s).mono
    (l' := [Obj.laneState + l, Obj.eyeMargin + l]) (by simp)
  unfold State.laneFollows
  dsimp only
  split
  · exact hstate
  · exact hstate.trans ((State.setNum_changes _ _ _).mono (by simp))

theorem laneFollows_num (v l : Nat) (s : State) : (s.laneFollows v l).num (Obj.laneState + l) = s.laneFor v l ∧
    (v ≠ Port.up → (s.laneFollows v l).num (Obj.eyeMargin + l) = 0) := by
  have hself : (s.setState (Obj.laneState + l) (s.laneFor v l)).num (Obj.laneState + l) = s.laneFor v l :=
    State.num_setState_self _ _ _ (State.quiet_of_ge _ (Nat.le_add_right_of_le (by decide)))
  have hne : Obj.laneState + l ≠ Obj.eyeMargin + l := by simp [Obj.laneState, Obj.eyeMargin]
  unfold State.laneFollows
  dsimp only
  split
  case isTrue h => exact ⟨hself, fun hup => absurd h hup⟩
  case isFalse => exact ⟨(State.num_setNum_ne _ _ _ _ hne).trans hself, fun _ => State.num_setNum_self _ _ _⟩
/-- The lane objects of one lane are none of other lanes'. -/
theorem not_mem_laneKeys {a : Nat} {L : List Nat} (ha : a ∉ L) (hlt : a < 192) (hL : ∀ l ∈ L, l < 192) :
    Obj.laneState + a ∉ laneKeys L ∧ Obj.eyeMargin + a ∉ laneKeys L := by
  simp only [laneKeys, List.mem_append, List.mem_map, not_or, not_exists, not_and, Obj.laneState, Obj.eyeMargin]
  refine ⟨⟨fun l hl he => ha ?_, fun l hl => ?_⟩, fun l hl => ?_, fun l hl he => ha ?_⟩
  · obtain rfl : l = a := by omega
    exact hl
  · have := hL l hl
    omega
  · have := hL l hl
    omega
  · obtain rfl : l = a := by omega
    exact hl

theorem laneKeys_cons (a : Nat) (L : List Nat) : laneKeys L ⊆ laneKeys (a :: L) :=
  List.append_subset.2 ⟨List.subset_append_of_subset_left _ (List.map_subset _ (List.subset_cons_self _ _)),
    List.subset_append_of_subset_right _ (List.map_subset _ (List.subset_cons_self _ _))⟩

/-- One lane after another follows, each by its own test. -/
theorem lanesFollow_spec {v : Nat} {L : List Nat} (hnodup : L.Nodup) (hL : ∀ l ∈ L, l < 192) (s : State) :
    let u := L.foldl (State.laneFollows v) s
    ChangesOnly (laneKeys L) s u ∧ ∀ l ∈ L, u.num (Obj.laneState + l) = s.laneFor v l ∧
      (v ≠ Port.up → u.num (Obj.eyeMargin + l) = 0) := by
  induction L generalizing s with
  | nil => exact ⟨ChangesOnly.refl _ _, fun l hl => absurd hl List.not_mem_nil⟩
  | cons a L ih =>
    obtain ⟨ha, hnodup⟩ := List.nodup_cons.1 hnodup
    have hlt := hL a List.mem_cons_self
    have hL' : ∀ l ∈ L, l < 192 := fun l hl => hL l (List.mem_cons_of_mem _ hl)
    have hone := laneFollows_changes v a s
    obtain ⟨hstate, hmargin⟩ := laneFollows_num v a s
    obtain ⟨hrest, hvals⟩ := ih hnodup hL' (s.laneFollows v a)
    obtain ⟨hs, he⟩ := not_mem_laneKeys ha hlt hL'
    refine ⟨(hone.mono (by simp [laneKeys])).trans (hrest.mono (laneKeys_cons a L)), fun l hl => ?_⟩
    rcases List.mem_cons.1 hl with rfl | hl
    · exact ⟨(hrest.2.num_of_le hs (Nat.le_add_right_of_le (by decide))).trans hstate,
        fun hv => (hrest.2.num_of_le he (Nat.le_add_right_of_le (by decide))).trans (hmargin hv)⟩
    · have htest : (s.laneFollows v a).num (Obj.laneTest + l) = s.num (Obj.laneTest + l) := by
        have := hL' l hl
        refine hone.2.num_of_le ?_ (Nat.le_add_right_of_le (by decide))
        simp only [List.mem_cons, List.not_mem_nil, or_false, not_or, Obj.laneTest, Obj.laneState, Obj.eyeMargin]
        omega
      obtain ⟨hl', hm'⟩ := hvals l hl
      exact ⟨hl'.trans (by rw [State.laneFor, htest]; rfl), hm'⟩

theorem updateBridge_changes (c : Nat) (s : State) : ChangesOnly [Obj.targetBridgeState + c] s (s.updateBridge c) := by
  unfold State.updateBridge
  dsimp only
  split
  · exact State.setState_changes _ _ _
  · split
    · split
      · exact ChangesOnly.refl _ _
      · exact State.setState_changes _ _ _
    · exact State.setState_changes _ _ _

/-- A port's state, its lanes and its bridge, the line coding aside. -/
def State.portFollows (p : PortNo) (v : Nat) (s : State) : State :=
  let s := (portLanes p).foldl (State.laneFollows v) s
  if 16 ≤ p.val then s.updateBridge (p - 16) else s

theorem not_mem_portKeys {p : PortNo} {k : Nat} (hstate : k ≠ Obj.portState + p) (hbridge : k < 0x604001 ∨ 0x604009 ≤ k)
    (hlane : k < 0x800001 ∨ 0x8000c1 ≤ k) (hmargin : k < 0x800601 ∨ 0x8006c1 ≤ k) : k ∉ portKeys p := by
  have := p.isLt
  simp only [portKeys, laneKeys, List.mem_append, List.mem_cons, List.not_mem_nil, or_false, not_or]
  refine ⟨⟨hstate, ?_⟩, not_mem_lanes p hlane, not_mem_lanes p hmargin⟩
  simp only [Obj.targetBridgeState]
  omega

/-- Objects after the ports' states are none that follow one. -/
theorem not_mem_portKeys_of_ge {p : PortNo} {k : Nat} (h : 0x804019 ≤ k) : k ∉ portKeys p := by
  have := p.isLt
  have hne : k ≠ 0x804001 + p.val := by omega
  exact not_mem_portKeys hne (.inr (by omega)) (.inr (by omega)) (.inr (by omega))

/-- Another port's state is none of them. -/
theorem portState_not_mem {p r : PortNo} (h : r ≠ p) : Obj.portState + r.val ∉ portKeys p := by
  have hne : r.val ≠ p.val := fun he => h (Fin.ext he)
  have hle : 0x804001 ≤ Obj.portState + r.val := Nat.le_add_right _ _
  exact not_mem_portKeys (fun he => hne (Nat.add_left_cancel he)) (.inr (by omega)) (.inr (by omega)) (.inr (by omega))

/-- What a port's state brings with it. -/
structure Turns (p : PortNo) (v : Nat) (s u : State) : Prop where
  trains : Trains (portKeys p) s u
  state : u.portSt p = v
  lanes : ∀ l ∈ portLanes p, u.num (Obj.laneState + l) = s.laneFor v l
  margins : v ≠ Port.up → ∀ l ∈ portLanes p, u.num (Obj.eyeMargin + l) = 0
  train : u.net.train = s.net.train
  net : v ≠ Port.bringUp → u.net = s.net

/-- The state itself, before lanes and bridge. -/
def State.portMoves (p : PortNo) (v : Nat) (s : State) : State :=
  if v = Port.bringUp then (s.setState (Obj.portState + p) v).setLine p LineS.fresh else s.setState (Obj.portState + p) v

theorem setPortSt_eq (p : PortNo) (v : Nat) (s : State) : s.setPortSt p v = (s.portMoves p v).portFollows p v := rfl

theorem portMoves_spec (p : PortNo) (v : Nat) (s : State) : Trains [Obj.portState + p] s (s.portMoves p v) ∧
    (s.portMoves p v).num (Obj.portState + p) = v ∧ (s.portMoves p v).net.train = s.net.train ∧
    (v ≠ Port.bringUp → (s.portMoves p v).net = s.net) := by
  have hset := State.setState_changes (Obj.portState + p) v s
  have hself : (s.setState (Obj.portState + p) v).num (Obj.portState + p) = v :=
    State.num_setState_self _ _ _ (State.quiet_of_ge _ (Nat.le_add_right_of_le (by decide)))
  unfold State.portMoves
  split
  case isTrue h =>
    refine ⟨hset.trains.trans (setLine_trains _ _ _ _), hself, ?_, fun hv => absurd h hv⟩
    exact (congrArg NetState.train hset.net :)
  case isFalse => exact ⟨hset.trains, hself, congrArg _ hset.net, fun _ => hset.net⟩

/-- What follows is the lanes', and the bridge's on a port that has one. -/
theorem portFollows_spec (p : PortNo) (v : Nat) (s : State) :
    ChangesOnly ((Obj.targetBridgeState + (p - 16)) :: laneKeys (portLanes p)) s (s.portFollows p v) ∧
    ∀ l ∈ portLanes p, (s.portFollows p v).num (Obj.laneState + l) = s.laneFor v l ∧
      (v ≠ Port.up → (s.portFollows p v).num (Obj.eyeMargin + l) = 0) := by
  obtain ⟨hlanes, hvals⟩ := lanesFollow_spec (v := v) (portLanes_nodup p) (portLanes_lt p) s
  unfold State.portFollows
  dsimp only
  generalize (portLanes p).foldl (State.laneFollows v) s = t at hlanes hvals
  split
  case isFalse => exact ⟨hlanes.mono (List.subset_cons_self _ _), hvals⟩
  case isTrue =>
    have hbridge := updateBridge_changes (p - 16) t
    have hkept {b : Nat} (hb : 0x800000 ≤ b) (l : Nat) : (t.updateBridge (p - 16)).num (b + l) = t.num (b + l) := by
      have := p.isLt
      refine hbridge.2.num_of_le ?_ (by omega)
      simp only [List.mem_cons, List.not_mem_nil, or_false, Obj.targetBridgeState]
      omega
    refine ⟨(hlanes.mono (List.subset_cons_self _ _)).trans (hbridge.mono (by simp)), fun l hl => ?_⟩
    obtain ⟨hstate, hmargin⟩ := hvals l hl
    exact ⟨(hkept (by decide) l).trans hstate, fun hv => (hkept (by decide) l).trans (hmargin hv)⟩

theorem setPortSt_turns (p : PortNo) (v : Nat) (s : State) : Turns p v s (s.setPortSt p v) := by
  rw [setPortSt_eq]
  obtain ⟨hmoves, hself, htrain, hnet⟩ := portMoves_spec p v s
  obtain ⟨hfollows, hvals⟩ := portFollows_spec p v (s.portMoves p v)
  generalize s.portMoves p v = t at *
  have hfor (l : Nat) (hl : l ∈ portLanes p) : t.laneFor v l = s.laneFor v l := by
    have := portLanes_lt p l hl
    have hne : Obj.laneTest + l ∉ [Obj.portState + p.val] := by
      simp only [List.mem_cons, List.not_mem_nil, or_false, Obj.laneTest, Obj.portState]
      omega
    rw [State.laneFor, hmoves.num hne (Nat.le_add_right_of_le (by decide))]
    rfl
  have hstate : Obj.portState + p.val ∉ (Obj.targetBridgeState + (p - 16)) :: laneKeys (portLanes p) := by
    have := p.isLt
    have hle : 0x804001 ≤ Obj.portState + p.val := Nat.le_add_right _ _
    have hne : Obj.portState + p.val ≠ 0x604001 + (p.val - 16) := by omega
    simp only [List.mem_cons, laneKeys, List.mem_append, not_or]
    exact ⟨hne, not_mem_lanes p (.inr (show 0x800001 + 192 ≤ _ by omega)),
      not_mem_lanes p (.inr (show 0x800601 + 192 ≤ _ by omega))⟩
  exact {
    trains := (hmoves.mono (by simp [portKeys])).trans (hfollows.trains.mono (by simp [portKeys]))
    state := (hfollows.2.num_of_le hstate (Nat.le_add_right_of_le (by decide))).trans hself
    lanes := fun l hl => (hvals l hl).1.trans (hfor l hl)
    margins := fun hv l hl => (hvals l hl).2 hv
    train := (congrArg NetState.train hfollows.net).trans htrain
    net := fun hv => hfollows.net.trans (hnet hv) }

theorem laneFor_of_ne {v : Nat} (h : v ≠ Port.test) (s : State) (l : Nat) : s.laneFor v l = laneOf v := by
  simp [State.laneFor, h]

theorem port_setPort_ne {p r : Nat} (h : r ≠ p) (q : PeerPort) (s : State) : (s.setPort p q).port r = s.port r := by
  simp [State.port, State.setPort, Tab.get, Tab.find?_put_ne _ _ _ _ h]

/-! ## Flits are discarded (R453, R454) -/

/-- A link layer without the flits that wait in it. -/
def PeerPort.emptied (q : PeerPort) : PeerPort := { q with queue := [], retry := [], resend := [] }

/-- The flits waiting in a link layer and in its retry buffer. -/
def PeerPort.waiting (q : PeerPort) : Nat := q.queue.length + q.retry.length

theorem discardFlits_spec (p : Nat) (s : State) :
    ChangesOnly [Obj.routeDiscards, Obj.linkFlags] (s.setPort p (s.port p).emptied) (s.discardFlits p) ∧
    ((s.port p).waiting ≠ 0 → Counted Obj.routeDiscards (s.port p).waiting s (s.discardFlits p)) ∧
    ∀ i, (s.num Obj.linkFlags).testBit i = true → ((s.discardFlits p).num Obj.linkFlags).testBit i = true := by
  have hdiscard : s.discardFlits p = if (s.port p).waiting = 0 then s.setPort p (s.port p).emptied else
      ((s.setPort p (s.port p).emptied).bump Obj.routeDiscards (s.port p).waiting).setFlag Obj.linkFlags 8 := rfl
  rw [hdiscard]
  split
  case isTrue h => exact ⟨ChangesOnly.refl _ _, fun hne => absurd h hne, fun i hi => hi⟩
  case isFalse h =>
    refine ⟨((State.bump_changes _ _ _).mono (by simp)).trans ((State.setFlag_changes _ _ _).mono (by simp)), fun _ => ?_,
      fun i hi => ?_⟩
    · rw [Counted, State.num_flagged_ne _ _ (by decide) (by decide), State.num_bump_self]
      rfl
    · rw [State.testBit_setFlag _ _ _ _ (quiet_of_mod (by decide)), State.num_bump_ne _ _ _ _ (by decide)]
      simp only [Bool.or_eq_true]
      exact .inr hi

theorem discardFlits_port (p : Nat) (s : State) : (s.discardFlits p).port p = (s.port p).emptied ∧
    ∀ r, r ≠ p → (s.discardFlits p).port r = s.port r := by
  obtain ⟨hchanges, -⟩ := discardFlits_spec p s
  have hport (r : Nat) : (s.discardFlits p).port r = (s.setPort p (s.port p).emptied).port r := by
    rw [State.port, hchanges.net]
    rfl
  exact ⟨(hport p).trans (State.port_setPort _ _ _), fun r hr => (hport r).trans (port_setPort_ne hr _ _)⟩

/-! ## PORT_ENABLE (R437, R454) -/

theorem rowOf_portEnable (p : PortNo) : rowOf (Obj.portEnable + p) =
    some ⟨0x804101, 24, 1, 0, .bool, .rwp, true, false, .num 0, .any⟩ := by
  revert p
  decide +kernel

/-- A record queued for the store touches no port, no memory and no object beyond the dictionary's own. -/
theorem persist_beyond (k : Nat) (s : State) : (s.persist k).net = s.net ∧ (s.persist k).mem = s.mem ∧
    ∀ j, 0x210000 ≤ j → (s.persist k).num j = s.num j := by
  have h := State.queueRecord_stores (oneRec k (s.val k)) s
  refine ⟨by rw [State.persist, h.1]; rfl, h.mem, fun j hj => h.2.num_of_le ?_ hj⟩
  simp only [queueKeys, List.mem_cons, List.not_mem_nil, or_false, not_or, Obj.pendingRecords, Obj.storeState]
  omega

/-- The state in which PORT_ENABLE acts: the value stands. -/
def State.enabling (q : Req) (p : PortNo) (n : Nat) (s : State) : State := (Arrived q s).setNum (Obj.portEnable + p) n

theorem enabling_keeps (q : Req) (p : PortNo) (n : Nat) (s : State) : (s.enabling q p n).net = s.net ∧
    (s.enabling q p n).mem = s.mem ∧ (s.enabling q p n).rst = s.rst ∧ (s.enabling q p n).num (Obj.portEnable + p) = n ∧
    ∀ k, k ≠ Obj.portEnable + p → (s.enabling q p n).num k = s.num k := by
  unfold State.enabling
  obtain ⟨t, d, he⟩ := arrived_at q s
  rw [he]
  exact ⟨rfl, rfl, rfl, State.num_setNum_self _ _ _, fun k hk => State.num_setNum_ne _ _ _ _ hk⟩

theorem portState_ne_portEnable (p r : PortNo) : Obj.portState + r.val ≠ Obj.portEnable + p.val := by
  have := r.isLt
  simp only [Obj.portState, Obj.portEnable, ne_eq]
  omega

section PortEnable

variable {s : State} {q : Req} {p : PortNo} {val : List Byte}

theorem carries_portEnable (hadm : Admitted q (Obj.portEnable + p) val s) {P : State → Prop}
    (h : ∃ u, writePortEnable p (.num (leNat val)) (s.enabling q p (leNat val)) = .ok u ∧ P (u.persist (Obj.portEnable + p))) :
    Carries q (Obj.portEnable + p) (exec (.portEnable q p val) s) P := by
  obtain ⟨u, hu, hp⟩ := h
  obtain ⟨hok, -⟩ := serveOwn_kept hadm (rowOf_portEnable p) rfl rfl rfl (writePortEnable p)
  exact ⟨_, congrArg Host.Outcome.next (hok u hu), hp⟩

theorem writePortEnable_eq (p n : Nat) (s : State) : writePortEnable p (.num n) s =
    if n = 1 then .ok (if s.portSt p = Port.disabled && 8 ≤ s.rst.exitDone then s.startPort p else s)
    else if s.portSt p = Port.lost || s.portSt p = Port.test then .ok s
    else .ok ((s.discardFlits p).setPortSt p Port.disabled) := rfl

/-- A port turns to a state with no test in it and the write is recorded. -/
theorem turned_recorded (p : PortNo) {v : Nat} (htest : v ≠ Port.test) (hup : v ≠ Port.up) (w : State) :
    let u := (w.setPortSt p v).persist (Obj.portEnable + p)
    u.portSt p = v ∧ (∀ l ∈ portLanes p, u.num (Obj.laneState + l) = laneOf v ∧ u.num (Obj.eyeMargin + l) = 0) ∧
      u.num (Obj.portEnable + p) = w.num (Obj.portEnable + p) ∧ u.port p = w.port p ∧
      (∀ r : PortNo, r ≠ p → u.portSt r = w.portSt r ∧ u.port r = w.port r) ∧ u.mem = w.mem := by
  have hlo {b : Nat} (hb : 0x210000 ≤ b) (l : Nat) : 0x210000 ≤ b + l := Nat.le_add_right_of_le hb
  have hturns := setPortSt_turns p v w
  obtain ⟨hnet, hmem, hnum⟩ := persist_beyond (Obj.portEnable + p) (w.setPortSt p v)
  have hport (r : Nat) : ((w.setPortSt p v).persist (Obj.portEnable + p)).port r = w.port r := by
    rw [State.port, hnet]
    exact hturns.trains.port r
  refine ⟨(hnum _ (hlo (by decide) _)).trans hturns.state, fun l hl => ⟨?_, ?_⟩, ?_, hport p, fun r hr => ⟨?_, hport r⟩,
    hmem.trans hturns.trains.mem⟩
  · exact ((hnum _ (hlo (by decide) _)).trans (hturns.lanes l hl)).trans (laneFor_of_ne htest _ _)
  · exact (hnum _ (hlo (by decide) _)).trans (hturns.margins hup l hl)
  · rw [hnum _ (hlo (by decide) _),
      hturns.trains.num (not_mem_portKeys_of_ge (Nat.le_add_right_of_le (by decide))) (hlo (by decide) _)]
  · exact (hnum _ (hlo (by decide) _)).trans (hturns.trains.num (portState_not_mem hr) (hlo (by decide) _))

theorem portEnable_starts (hadm : Admitted q (Obj.portEnable + p) val s) (hval : leNat val = 1)
    (hst : s.portSt p = Port.disabled) (hexit : 8 ≤ s.rst.exitDone) :
    Carries q (Obj.portEnable + p) (exec (.portEnable q p val) s) fun u => u.portSt p = Port.bringUp ∧ u.port p = PeerPort.fresh ∧
      (∀ l ∈ portLanes p, u.num (Obj.laneState + l) = 1 ∧ u.num (Obj.eyeMargin + l) = 0) ∧ u.num (Obj.portEnable + p) = 1 ∧
      (∀ r : PortNo, r ≠ p → u.portSt r = s.portSt r ∧ u.port r = s.port r) ∧ u.mem = s.mem := by
  obtain ⟨hnet, hmem, hrst, hself, hkept⟩ := enabling_keeps q p (leNat val) s
  have hst' : (s.enabling q p (leNat val)).portSt p = Port.disabled := (hkept _ (portState_ne_portEnable p p)).trans hst
  have hport (r : Nat) : (s.enabling q p (leNat val)).port r = s.port r := by rw [State.port, hnet]; rfl
  let w := ((s.enabling q p (leNat val)).setPort p PeerPort.fresh).setTrain p ⟨false, (s.enabling q p (leNat val)).now, 0⟩
  obtain ⟨hstate, hlanes, henable, hown, hothers, hwmem⟩ := turned_recorded p (v := Port.bringUp) (by decide) (by decide) w
  refine carries_portEnable hadm ⟨w.setPortSt p Port.bringUp, ?_, hstate, hown.trans (State.port_setPort _ _ _), hlanes,
    henable.trans (hself.trans hval), fun r hr => ?_, hwmem.trans hmem⟩
  · rw [writePortEnable_eq, if_pos hval, if_pos (by simp [hst', hrst, hexit])]
    rfl
  · obtain ⟨hr₁, hr₂⟩ := hothers r hr
    exact ⟨hr₁.trans (hkept _ (portState_ne_portEnable p r)),
      hr₂.trans ((port_setPort_ne (fun he => hr (Fin.ext he)) _ _).trans (hport r))⟩

theorem portEnable_stands (hadm : Admitted q (Obj.portEnable + p) val s) (hval : leNat val = 1)
    (hst : ¬(s.portSt p = Port.disabled ∧ 8 ≤ s.rst.exitDone)) :
    Carries q (Obj.portEnable + p) (exec (.portEnable q p val) s) fun u =>
      u.portSt p = s.portSt p ∧ u.net = s.net ∧ u.mem = s.mem := by
  obtain ⟨hnet, hmem, hrst, -, hkept⟩ := enabling_keeps q p (leNat val) s
  have hst' : (s.enabling q p (leNat val)).portSt p = s.portSt p := hkept _ (portState_ne_portEnable p p)
  obtain ⟨hpnet, hpmem, hpnum⟩ := persist_beyond (Obj.portEnable + p) (s.enabling q p (leNat val))
  refine carries_portEnable hadm ⟨s.enabling q p (leNat val), ?_, ?_, hpnet.trans hnet, hpmem.trans hmem⟩
  · rw [writePortEnable_eq, if_pos hval, if_neg (by rw [hst', hrst]; simpa using hst)]
  · exact (hpnum _ (Nat.le_add_right_of_le (by decide))).trans hst'

theorem portEnable_stops (hadm : Admitted q (Obj.portEnable + p) val s) (hval : leNat val ≠ 1) (hlost : s.portSt p ≠ Port.lost)
    (htest : s.portSt p ≠ Port.test) :
    Carries q (Obj.portEnable + p) (exec (.portEnable q p val) s) fun u => u.portSt p = Port.disabled ∧ (u.port p).queue = [] ∧
      (u.port p).retry = [] ∧ u.num (Obj.portEnable + p) = 0 ∧ (∀ l ∈ portLanes p, u.num (Obj.laneState + l) = 0) ∧
      (∀ r : PortNo, r ≠ p → u.portSt r = s.portSt r ∧ u.port r = s.port r) ∧ u.mem = s.mem := by
  have hzero : leNat val = 0 := by
    obtain ⟨v, hdec, hall⟩ := hadm.allowed (rowOf_portEnable p)
    obtain rfl := decodeVal_fixed rfl hdec
    have hle : leNat val ≤ 1 := of_decide_eq_true (Bool.and_eq_true_iff.1 hall).1
    omega
  obtain ⟨hnet, hmem, hrst, hself, hkept⟩ := enabling_keeps q p (leNat val) s
  have hst' : (s.enabling q p (leNat val)).portSt p = s.portSt p := hkept _ (portState_ne_portEnable p p)
  have hport (r : Nat) : (s.enabling q p (leNat val)).port r = s.port r := by rw [State.port, hnet]; rfl
  have hdoes := writePortEnable_eq p (leNat val) (s.enabling q p (leNat val))
  rw [if_neg hval, if_neg (by rw [hst']; simp [hlost, htest])] at hdoes
  refine carries_portEnable hadm ⟨_, hdoes, ?_⟩
  generalize s.enabling q p (leNat val) = t at *
  obtain ⟨hdiscard, -⟩ := discardFlits_spec p t
  obtain ⟨hempty, hports⟩ := discardFlits_port p t
  have hdnum (r : PortNo) (b : Nat) (hb : b ≤ 0x804101) (hlo : 0x210000 ≤ b) :
      (t.discardFlits p).num (b + r) = t.num (b + r) := by
    have := r.isLt
    refine hdiscard.2.num_of_le ?_ (Nat.le_add_right_of_le hlo)
    simp only [List.mem_cons, List.not_mem_nil, or_false, not_or, Obj.routeDiscards, Obj.linkFlags]
    omega
  obtain ⟨hstate, hlanes, henable, hown, hothers, hwmem⟩ :=
    turned_recorded p (v := Port.disabled) (by decide) (by decide) (t.discardFlits p)
  refine ⟨hstate, ?_, ?_, ?_, fun l hl => (hlanes l hl).1, fun r hr => ?_, ?_⟩
  · rw [hown, hempty]
    rfl
  · rw [hown, hempty]
    rfl
  · exact henable.trans ((hdnum p _ (by decide) (by decide)).trans (hself.trans hzero))
  · obtain ⟨hr₁, hr₂⟩ := hothers r hr
    exact ⟨hr₁.trans ((hdnum r _ (by decide) (by decide)).trans (hkept _ (portState_ne_portEnable p r))),
      hr₂.trans ((hports r fun he => hr (Fin.ext he)).trans (hport r))⟩
  · exact hwmem.trans (hdiscard.mem.trans hmem)

end PortEnable

/-! ## BRING_UP_DONE (R437) -/

theorem Trains.foldl {α : Type} {l : List Nat} {f : State → α → State} {L : List α} (hf : ∀ a ∈ L, ∀ s, Trains l s (f s a))
    (s : State) : Trains l s (L.foldl f s) := by
  induction L generalizing s with
  | nil => exact Trains.refl _ _
  | cons a L ih =>
    exact (hf a List.mem_cons_self s).trans (ih (fun b hb => hf b (List.mem_cons_of_mem _ hb)) _)

theorem lockLanes_changes (p : Nat) (s : State) : ChangesOnly ((portLanes p).map (Obj.laneState + ·)) s (s.lockLanes p) :=
  ChangesOnly.foldl (fun s l => State.setState_changes (Obj.laneState + l) 2 s) _ s

theorem lockLanes_num (p : PortNo) (s : State) {l : Nat} (hl : l ∈ portLanes p) :
    (s.lockLanes p).num (Obj.laneState + l) = 2 :=
  num_foldl_setState (key := (Obj.laneState + ·)) (v := fun _ _ => 2) (fun _ _ _ _ => rfl) (fun _ _ h => Nat.add_left_cancel h)
    (ne_eventsDropped_of_le (Nat.le_add_right_of_le (by decide))) (portLanes_nodup p) hl s

/-- What a lane's receiver adapted to is noted. -/
def State.adaptLane (s : State) (l : Nat) : State :=
  (s.fresh.2.fresh.2.setNum (Obj.ctlePeaking + l) (s.fresh.1.toNat % 256)).setNum (Obj.dfeTaps + l) s.fresh.2.fresh.1.toNat

/-- The objects of what the lanes adapted to. -/
def adaptKeys (p : Nat) : List Nat := (portLanes p).map (Obj.ctlePeaking + ·) ++ (portLanes p).map (Obj.dfeTaps + ·)

theorem adaptLane_trains {p l : Nat} (hl : l ∈ portLanes p) (s : State) : Trains (adaptKeys p) s (s.adaptLane l) := by
  have hctle : Obj.ctlePeaking + l ∈ adaptKeys p := List.mem_append_left _ (List.mem_map_of_mem hl)
  have hdfe : Obj.dfeTaps + l ∈ adaptKeys p := List.mem_append_right _ (List.mem_map_of_mem hl)
  exact (((fresh_trains _ s).trans (fresh_trains _ _)).trans ((State.setNum_changes _ _ _).trains.mono (by simpa using hctle))).trans
    ((State.setNum_changes _ _ _).trains.mono (by simpa using hdfe))

/-- The port's lanes have locked and adapted. -/
def State.adapted (p : Nat) (s : State) : State := (portLanes p).foldl State.adaptLane (s.lockLanes p)

theorem adapted_trains (p : Nat) (s : State) :
    Trains ((portLanes p).map (Obj.laneState + ·) ++ adaptKeys p) s (s.adapted p) :=
  ((lockLanes_changes p s).trains.mono (List.subset_append_left _ _)).trans
    ((Trains.foldl (fun _ hl => adaptLane_trains hl) _).mono (List.subset_append_right _ _))

theorem exec_bringUpDone (p : PortNo) (fec : BitVec 4) (s : State) : exec (.bringUpDone p fec) s =
    if s.portSt p ≠ Port.bringUp then .next s
    else if fec.toNat ≠ s.num (Obj.portFec + p) then .next ((s.lockLanes p).setFlag Obj.linkFlags 0x10)
    else .next (((s.adapted p).setTrain p { (s.adapted p).train p with failedWindows := 0 }).setPortSt p Port.qualifying) := rfl

theorem bringUpDone_settled (s : State) (p : PortNo) (fec : BitVec 4) :
    (s.portSt p ≠ Port.bringUp → exec (.bringUpDone p fec) s = .next s) ∧
    (s.portSt p = Port.bringUp → fec.toNat ≠ s.num (Obj.portFec + p) → Answers (exec (.bringUpDone p fec) s) fun u =>
      u.num Obj.linkFlags = s.num Obj.linkFlags ||| 0x10 ∧ (∀ l ∈ portLanes p, u.num (Obj.laneState + l) = 2) ∧
      ChangesOnly (Obj.linkFlags :: (portLanes p).map (Obj.laneState + ·)) s u) ∧
    (s.portSt p = Port.bringUp → fec.toNat = s.num (Obj.portFec + p) → Answers (exec (.bringUpDone p fec) s) fun u =>
      u.portSt p = Port.qualifying ∧ (u.train p).failedWindows = 0 ∧ u.port p = s.port p ∧
      (∀ l ∈ portLanes p, u.num (Obj.laneState + l) = 3) ∧ u.mem = s.mem ∧ ∀ r : PortNo, r ≠ p → u.portSt r = s.portSt r) := by
  have hdoes := exec_bringUpDone p fec s
  refine ⟨fun hst => hdoes.trans (if_pos hst), fun hst hfec => ?_, fun hst hfec => ?_⟩
  · rw [if_neg (not_not.2 hst), if_pos hfec] at hdoes
    have hlock := lockLanes_changes p s
    have hflag := State.setFlag_changes Obj.linkFlags 0x10 (s.lockLanes p)
    refine ⟨_, hdoes, ?_, fun l hl => ?_, (hlock.mono (List.subset_cons_self _ _)).trans (hflag.mono (by simp))⟩
    · rw [State.num_flagged _ _ (by decide),
        hlock.2.num_of_le (not_mem_lanes p (.inr (show 0x800001 + 192 ≤ 0x808205 by decide))) (by decide)]
    · have := portLanes_lt p l hl
      have hne : Obj.laneState + l ∉ [Obj.linkFlags] := by
        simp only [List.mem_cons, List.not_mem_nil, or_false, Obj.laneState, Obj.linkFlags]
        omega
      exact (hflag.2.num_of_le hne (Nat.le_add_right_of_le (by decide))).trans (lockLanes_num p s hl)
  · rw [if_neg (not_not.2 hst), if_neg (not_not.2 hfec)] at hdoes
    have hadapt := adapted_trains p s
    generalize s.adapted p = t at hdoes hadapt
    have hturns := setPortSt_turns p Port.qualifying (t.setTrain p { t.train p with failedWindows := 0 })
    refine ⟨_, hdoes, hturns.state, ?_, (hturns.trains.port p).trans (hadapt.port p),
      fun l hl => (hturns.lanes l hl).trans (laneFor_of_ne (by decide) _ _), hturns.trains.mem.trans hadapt.mem, fun r hr => ?_⟩
    · rw [train_congr hturns.train, train_setTrain]
    · have hle : 0x804001 ≤ Obj.portState + r.val := Nat.le_add_right _ _
      refine (hturns.trains.num (portState_not_mem hr) (by omega)).trans (hadapt.num (k := Obj.portState + r) ?_ (by omega))
      simp only [List.mem_append, adaptKeys, not_or]
      exact ⟨not_mem_lanes p (.inr (show 0x800001 + 192 ≤ _ by omega)), not_mem_lanes p (.inr (show 0x800701 + 192 ≤ _ by omega)),
        not_mem_lanes p (.inr (show 0x800801 + 192 ≤ _ by omega))⟩

/-! ## The errors of a window (R433) -/

/-- Corrected symbols fall on a lane. -/
def State.shareSymbols (x : State × Nat) (l : Nat) : State × Nat :=
  (x.1.fresh.2.bump (Obj.correctedSymbols + l) (x.1.fresh.1.toNat % (x.2 + 1)), x.2 - x.1.fresh.1.toNat % (x.2 + 1))

/-- The objects that count a window's errors. -/
def errorKeys (p : Nat) : List Nat :=
  [Obj.codewordsCorrected + p, Obj.codewordsUncorrectable + p] ++ (portLanes p).map (Obj.correctedSymbols + ·)

/-- What counting comes to: these objects change, and the free values that are used up. -/
def CountsUp (l : List Nat) (s u : State) : Prop := u = { s with obj := u.obj, free := u.free } ∧ KeepsObjects l s u

theorem CountsUp.trans {l : List Nat} {s t u : State} (h₁ : CountsUp l s t) (h₂ : CountsUp l t u) : CountsUp l s u := by
  obtain ⟨ht, hk₁⟩ := h₁
  obtain ⟨hu, hk₂⟩ := h₂
  refine ⟨hu.trans ?_, hk₁.trans hk₂⟩
  rw [ht]

theorem CountsUp.trains {l : List Nat} {s u : State} (h : CountsUp l s u) : Trains l s u := by
  refine ⟨?_, h.2⟩
  rw [h.1]
  rfl

theorem CountsUp.net {l : List Nat} {s u : State} (h : CountsUp l s u) : u.net = s.net := by rw [h.1]

theorem bump_counts {l : List Nat} {k : Nat} (hk : k ∈ l) (n : Nat) (s : State) : CountsUp l s (s.bump k n) :=
  ⟨rfl, KeepsObjects.setVal hk _ s⟩

theorem shareSymbols_counts {p : Nat} {L : List Nat} (hL : L ⊆ portLanes p) (x : State × Nat) :
    CountsUp ((portLanes p).map (Obj.correctedSymbols + ·)) x.1 (L.foldl State.shareSymbols x).1 := by
  induction L generalizing x with
  | nil => exact ⟨rfl, KeepsObjects.refl _ _⟩
  | cons l L ih =>
    obtain ⟨hl, hL⟩ := List.cons_subset.1 hL
    have hfresh : CountsUp ((portLanes p).map (Obj.correctedSymbols + ·)) x.1 x.1.fresh.2 := ⟨rfl, fun _ _ _ => rfl⟩
    exact (hfresh.trans (bump_counts (List.mem_map_of_mem hl) _ _)).trans (ih hL (State.shareSymbols x l))

/-- The codewords are counted, before the symbols. -/
def State.countCodewords (p c n : Nat) (s : State) : State :=
  let lo := ceilDiv c (if s.num (Obj.portFec + p) = 1 then 6 else 15)
  (s.fresh.2.bump (Obj.codewordsCorrected + p) (lo + s.fresh.1.toNat % (max lo (min c 4096) - lo + 1))).bump
    (Obj.codewordsUncorrectable + p) n

theorem countErrors_eq (p c n : Nat) (s : State) : s.countErrors p c n =
    (((portLanes p).take 7).foldl State.shareSymbols (s.countCodewords p c n, c)).1.bump
      (Obj.correctedSymbols + (portLanes p).getD 7 0)
      (((portLanes p).take 7).foldl State.shareSymbols (s.countCodewords p c n, c)).2 := by
  unfold State.countErrors
  delta State.shareSymbols
  dsimp only [State.countCodewords]

theorem countErrors_spec (p : PortNo) (c n : Nat) (s : State) : CountsUp (errorKeys p) s (s.countErrors p c n) ∧
    Counted (Obj.codewordsUncorrectable + p) n s (s.countErrors p c n) := by
  have hlt := p.isLt
  have hcodes : CountsUp [Obj.codewordsCorrected + p.val, Obj.codewordsUncorrectable + p.val] s (s.countCodewords p c n) :=
    CountsUp.trans (t := s.fresh.2) ⟨rfl, fun _ _ _ => rfl⟩ ((bump_counts (by simp) _ _).trans (bump_counts (by simp) _ _))
  have hcount : Counted (Obj.codewordsUncorrectable + p) n s (s.countCodewords p c n) := by
    have hne : Obj.codewordsUncorrectable + p.val ≠ Obj.codewordsCorrected + p.val := by
      simp [Obj.codewordsUncorrectable, Obj.codewordsCorrected]
    refine (State.num_bump_self _ _ _).trans ?_
    rw [State.num_bump_ne _ _ _ _ hne]
    rfl
  have hsymbols := (shareSymbols_counts (List.take_subset 7 (portLanes p)) (s.countCodewords p c n, c)).trans
    (bump_counts (List.mem_map_of_mem (getD_mem_portLanes p (k := 7) (by decide))) (n :=
      (((portLanes p).take 7).foldl State.shareSymbols (s.countCodewords p c n, c)).2) _)
  rw [countErrors_eq]
  refine ⟨CountsUp.trans ⟨hcodes.1, hcodes.2.mono (List.subset_append_left _ _)⟩
    ⟨hsymbols.1, hsymbols.2.mono (List.subset_append_right _ _)⟩, ?_⟩
  have hout : Obj.codewordsUncorrectable + p.val ∉ (portLanes p).map (Obj.correctedSymbols + ·) :=
    not_mem_lanes p (.inr (show 0x800a01 + 192 ≤ 0x804601 + p.val by omega))
  exact (hsymbols.2.num_of_le hout (Nat.le_add_right_of_le (by decide))).trans hcount

/-- A number that counts no error is kept. -/
theorem countErrors_num (p : PortNo) (c n : Nat) (s : State) {k : Nat} (hk : k < 0x800a01 ∨ 0x800ac1 ≤ k)
    (hk' : k < 0x804501 ∨ 0x804619 ≤ k) (hlo : 0x210000 ≤ k) : (s.countErrors p c n).num k = s.num k := by
  have := p.isLt
  refine (countErrors_spec p c n s).1.2.num_of_le ?_ hlo
  simp only [errorKeys, List.mem_append, List.mem_cons, List.not_mem_nil, or_false, not_or]
  refine ⟨?_, not_mem_lanes p hk⟩
  simp only [Obj.codewordsCorrected, Obj.codewordsUncorrectable]
  omega

/-! ## QUALIFY_WINDOW and LINK_LOSS (R438) -/

/-- A port's state changes after what its training notes. -/
def State.trainThen (p : Nat) (t : PortTrain) (v : Nat) (s : State) : State := (s.setTrain p t).setPortSt p v

theorem trainThen_turns (p : PortNo) (t : PortTrain) (v : Nat) (s : State) : Trains (portKeys p) s (s.trainThen p t v) ∧
    (s.trainThen p t v).portSt p = v ∧ (s.trainThen p t v).train p = t ∧
    (∀ l ∈ portLanes p, v ≠ Port.test → (s.trainThen p t v).num (Obj.laneState + l) = laneOf v) := by
  have hturns := setPortSt_turns p v (s.setTrain p t)
  refine ⟨(setTrain_trains _ _ _ _).trans hturns.trains, hturns.state, ?_, fun l hl hv =>
    (hturns.lanes l hl).trans (laneFor_of_ne hv _ _)⟩
  exact (train_congr hturns.train p).trans (train_setTrain _ _ _)

theorem exec_qualifyWindow {p : PortNo} {s : State} (c n : Nat) (hst : s.portSt p = Port.qualifying) :
    let w := s.countErrors p c n
    exec (.qualifyWindow p c n) s = .next (if n = 0 && c ≤ w.num Obj.linkUpMaxCorrected then
        w.trainThen p { w.train p with kept := false, failedWindows := 0 } Port.up
      else if (w.train p).failedWindows + 1 = 256 then w.trainThen p { w.train p with failedWindows := 0 } Port.bringUp
      else w.setTrain p { w.train p with failedWindows := (w.train p).failedWindows + 1 }) := by
  show execQualifyWindow p c n s = _
  rw [execQualifyWindow, if_neg (not_not.2 hst)]
  dsimp only
  split
  · rfl
  · split <;> rfl

theorem qualifyWindow_settled (s : State) (p : PortNo) (c n : Nat) (hst : s.portSt p = Port.qualifying) :
    let good := n = 0 ∧ c ≤ s.num Obj.linkUpMaxCorrected
    Answers (exec (.qualifyWindow p c n) s) fun u => Counted (Obj.codewordsUncorrectable + p) n s u ∧ u.port p = s.port p ∧
      u.mem = s.mem ∧ (good → u.portSt p = Port.up ∧ (∀ l ∈ portLanes p, u.num (Obj.laneState + l) = 4)) ∧
      (¬good → (s.train p).failedWindows = 255 → u.portSt p = Port.bringUp ∧ (u.train p).failedWindows = 0) ∧
      (¬good → (s.train p).failedWindows ≠ 255 → u.portSt p = Port.qualifying ∧
        (u.train p).failedWindows = (s.train p).failedWindows + 1) := by
  obtain ⟨hcounts, hcount⟩ := countErrors_spec p c n s
  have hlimit : (s.countErrors p c n).num Obj.linkUpMaxCorrected = s.num Obj.linkUpMaxCorrected :=
    countErrors_num p c n s (.inr (by decide)) (.inr (by decide)) (by decide)
  have hstate : (s.countErrors p c n).portSt p = Port.qualifying := by
    have hlt := p.isLt
    have hle : 0x804001 + p.val < 0x804501 := by omega
    exact (countErrors_num p c n s (.inr (show 0x800ac1 ≤ 0x804001 + p.val by omega)) (.inl hle) (by
      show 0x210000 ≤ 0x804001 + p.val
      omega)).trans hst
  have htrain : (s.countErrors p c n).train p = s.train p := train_congr (congrArg _ hcounts.net) p
  have hport : (s.countErrors p c n).port p = s.port p := hcounts.trains.port p
  have hmem : (s.countErrors p c n).mem = s.mem := hcounts.trains.mem
  have hdoes := exec_qualifyWindow c n hst
  dsimp only at hdoes ⊢
  rw [hlimit, htrain] at hdoes
  refine ⟨_, hdoes, ?_⟩
  generalize s.countErrors p c n = w at *
  have hkept {t : PortTrain} {v : Nat} : Counted (Obj.codewordsUncorrectable + p) n s (w.trainThen p t v) :=
    ((trainThen_turns p t v w).1.num (not_mem_portKeys_of_ge (Nat.le_add_right_of_le (by decide)))
      (Nat.le_add_right_of_le (by decide))).trans hcount
  by_cases hgood : n = 0 ∧ c ≤ s.num Obj.linkUpMaxCorrected
  · rw [if_pos (by simpa using hgood)]
    obtain ⟨htrains, hup, -, hlanes⟩ := trainThen_turns p { s.train p with kept := false, failedWindows := 0 } Port.up w
    exact ⟨hkept, (htrains.port p).trans hport, htrains.mem.trans hmem, fun _ => ⟨hup, fun l hl => hlanes l hl (by decide)⟩,
      fun h => absurd hgood h, fun h => absurd hgood h⟩
  · rw [if_neg (by simpa using hgood)]
    by_cases hlast : (s.train p).failedWindows = 255
    · rw [if_pos (by omega)]
      obtain ⟨htrains, hdown, hnote, -⟩ := trainThen_turns p { s.train p with failedWindows := 0 } Port.bringUp w
      exact ⟨hkept, (htrains.port p).trans hport, htrains.mem.trans hmem, fun h => absurd h hgood,
        fun _ _ => ⟨hdown, by rw [hnote]⟩, fun _ h => absurd hlast h⟩
    · rw [if_neg (by omega)]
      exact ⟨hcount, hport, hmem, fun h => absurd h hgood, fun _ h => absurd h hlast,
        fun _ _ => ⟨hstate, congrArg PortTrain.failedWindows (train_setTrain _ _ _)⟩⟩

/-- Without its repetitions, a list of any kind has none. -/
theorem eraseDups_nodup {α : Type} [BEq α] [LawfulBEq α] (l : List α) : l.eraseDups.Nodup := by
  match l with
  | [] => exact List.nodup_nil
  | a :: l =>
    rw [List.eraseDups_cons, List.nodup_cons]
    refine ⟨fun h => ?_, eraseDups_nodup _⟩
    simp [List.mem_eraseDups] at h
termination_by l.length
decreasing_by exact Nat.lt_succ_of_le (List.length_filter_le _ _)

/-- The count of a lane's lost clock. -/
def cdrKey (p : Nat) (k : Fin 8) : Nat := Obj.cdrLockLosses + (portLanes p).getD k 0

theorem cdrKey_inj (p : PortNo) : ∀ a b : Fin 8, cdrKey p a = cdrKey p b → a = b := by
  revert p
  decide +kernel

theorem cdrKey_lt (p : PortNo) (k : Fin 8) : 0x800901 ≤ cdrKey p k ∧ cdrKey p k < 0x8009c1 := by
  have := portLanes_lt p _ (getD_mem_portLanes p k.isLt)
  simp only [cdrKey, Obj.cdrLockLosses]
  omega

/-- Each lane that lost its clock counts. -/
def State.countCdr (p : Nat) (L : List (Fin 8)) (s : State) : State := L.foldl (fun s k => s.bump (cdrKey p k) 1) s

theorem countCdr_changes (p : Nat) (L : List (Fin 8)) (s : State) : ChangesOnly (L.map (cdrKey p)) s (s.countCdr p L) :=
  ChangesOnly.foldl (fun s k => State.bump_changes (cdrKey p k) 1 s) L s

theorem countCdr_num (p : PortNo) {L : List (Fin 8)} (hL : L.Nodup) (k : Fin 8) (s : State) :
    CountedIf (decide (k ∈ L)) (cdrKey p k) s (s.countCdr p L) := by
  induction L generalizing s with
  | nil => rfl
  | cons a L ih =>
    obtain ⟨ha, hL⟩ := List.nodup_cons.1 hL
    have hrest : (s.countCdr p (a :: L)).num (cdrKey p k) = _ := ih hL (s.bump (cdrKey p a) 1)
    by_cases hk : k = a
    · subst hk
      rw [CountedIf, hrest, decide_eq_false ha, decide_eq_true List.mem_cons_self, State.num_bump_self]
      rfl
    · have hne : cdrKey p k ≠ cdrKey p a := fun he => hk (cdrKey_inj p k a he)
      have hmem : (k ∈ a :: L) = (k ∈ L) := by simp [hk]
      simp only [CountedIf, hrest, State.num_bump_ne _ _ _ _ hne, hmem]

/-- A loss (R438): the port goes through Retraining to BringUp with its link layer kept. -/
def State.retrain (p : Nat) (s : State) : State :=
  let s := ((s.setPortSt p Port.retraining).bump (Obj.retrains + p) 1).setFlag Obj.linkFlags 1
  s.trainThen p ⟨true, s.now, 0⟩ Port.bringUp

theorem exec_linkLoss {p : PortNo} {s : State} (l : List (Fin 8)) (m : Bool) (c n : Nat) (hst : s.portSt p = Port.up) :
    let w := (s.countErrors p c n).countCdr p l.eraseDups
    exec (.linkLoss p ⟨l, m⟩ c n) s =
      .next (if l.isEmpty && !m && n < w.num Obj.linkDownUncorrectable then w else w.retrain p) := by
  show execLinkLoss p ⟨l, m⟩ c n s = _
  rw [execLinkLoss, if_neg (not_not.2 hst)]
  dsimp only
  split
  case isTrue h => exact congrArg _ (if_pos h).symm
  case isFalse h => exact congrArg _ (if_neg h).symm

/-- What a retraining leaves. -/
theorem retrain_spec (p : PortNo) (s : State) :
    Trains (portKeys p ++ [Obj.retrains + p.val, Obj.linkFlags]) s (s.retrain p) ∧ (s.retrain p).portSt p = Port.bringUp ∧
      Counted (Obj.retrains + p) 1 s (s.retrain p) ∧ (s.retrain p).num Obj.linkFlags = s.num Obj.linkFlags ||| 1 ∧
      ((s.retrain p).train p).kept = true := by
  have hretrains : Obj.retrains + p.val ∉ portKeys p := not_mem_portKeys_of_ge (Nat.le_add_right_of_le (by decide))
  have hflags : Obj.linkFlags ∉ portKeys p := not_mem_portKeys_of_ge (by decide)
  have hne : Obj.retrains + p.val ≠ Obj.linkFlags := by
    have := p.isLt
    simp only [Obj.retrains, Obj.linkFlags]
    omega
  have hfirst := (setPortSt_turns p Port.retraining s).trains
  unfold State.retrain
  dsimp only
  generalize s.setPortSt p Port.retraining = t at hfirst
  have hbump := (State.bump_changes (Obj.retrains + p) 1 t).trains
  have hbumped : (t.bump (Obj.retrains + p) 1).num (Obj.retrains + p) = _ := State.num_bump_self _ _ _
  have hkeptFlags := State.num_bump_ne (Obj.retrains + p) Obj.linkFlags 1 t hne.symm
  generalize t.bump (Obj.retrains + p) 1 = t₁ at *
  have hflag := (State.setFlag_changes Obj.linkFlags 1 t₁).trains
  have hflagged := State.num_flagged (n := 1) (s := t₁) (k := Obj.linkFlags) (by decide)
  generalize t₁.setFlag Obj.linkFlags 1 = t₂ at *
  obtain ⟨hsecond, hstate, hnote, -⟩ := trainThen_turns p ⟨true, t₂.now, 0⟩ Port.bringUp t₂
  refine ⟨?_, hstate, ?_, ?_, by rw [hnote]⟩
  · exact (((hfirst.mono (by simp)).trans (hbump.mono (by simp))).trans (hflag.mono (by simp))).trans (hsecond.mono (by simp))
  · rw [Counted, hsecond.num hretrains (Nat.le_add_right_of_le (by decide)),
      hflag.num (by simpa using hne) (Nat.le_add_right_of_le (by decide)), hbumped,
      hfirst.num hretrains (Nat.le_add_right_of_le (by decide))]
  · rw [hsecond.num hflags (by decide), hflagged, hkeptFlags, hfirst.num hflags (by decide)]

theorem linkLoss_settled (s : State) (p : PortNo) (l : List (Fin 8)) (m : Bool) (c n : Nat) :
    (s.portSt p ≠ Port.up → exec (.linkLoss p ⟨l, m⟩ c n) s = .next s) ∧
    (s.portSt p = Port.up → Answers (exec (.linkLoss p ⟨l, m⟩ c n) s) fun u =>
      (∀ k : Fin 8, CountedIf (decide (k ∈ l)) (Obj.cdrLockLosses + (portLanes p).getD k 0) s u) ∧
      Counted (Obj.codewordsUncorrectable + p) n s u ∧ u.port p = s.port p ∧ u.mem = s.mem ∧
      (if l = [] ∧ m = false ∧ n < s.num Obj.linkDownUncorrectable then
        u.portSt p = Port.up ∧ u.num (Obj.retrains + p) = s.num (Obj.retrains + p)
       else u.portSt p = Port.bringUp ∧ Counted (Obj.retrains + p) 1 s u ∧ u.num Obj.linkFlags = s.num Obj.linkFlags ||| 1 ∧
        (u.train p).kept = true)) := by
  refine ⟨fun hst => if_pos hst, fun hst => ?_⟩
  have hlt := p.isLt
  obtain ⟨hcounts, hcount⟩ := countErrors_spec p c n s
  have herr {k : Nat} := countErrors_num (k := k) p c n s
  have hdoes := exec_linkLoss l m c n hst
  dsimp only at hdoes
  generalize s.countErrors p c n = e at *
  have hcdr := countCdr_changes p l.eraseDups e
  have hcdrs (k : Fin 8) := countCdr_num p (eraseDups_nodup l) k e
  have hout {k : Nat} (hk : 0x8009c1 ≤ k) : (e.countCdr p l.eraseDups).num k = e.num k := by
    refine hcdr.2.num_of_le (fun h => ?_) (by omega)
    obtain ⟨a, -, rfl⟩ := List.mem_map.1 h
    have := (cdrKey_lt p a).2
    omega
  generalize e.countCdr p l.eraseDups = w at *
  have hw {k : Nat} (hk : 0x800ac1 ≤ k) (hk' : k < 0x804501 ∨ 0x804619 ≤ k) : w.num k = s.num k :=
    (hout (by omega)).trans (herr (.inr hk) hk' (by omega))
  have hcdrw (k : Fin 8) : CountedIf (decide (k ∈ l)) (cdrKey p k) s w := by
    obtain ⟨hlo, hhi⟩ := cdrKey_lt p k
    have hsame : e.num (cdrKey p k) = s.num (cdrKey p k) := herr (.inl (by omega)) (.inl (by omega)) (by omega)
    simpa only [CountedIf, List.mem_eraseDups, hsame] using hcdrs k
  have huncw : Counted (Obj.codewordsUncorrectable + p) n s w :=
    (hout (show 0x8009c1 ≤ 0x804601 + p.val by omega)).trans hcount
  have hportw : w.port p = s.port p := (hcdr.trains.port p).trans (hcounts.trains.port p)
  have hmemw : w.mem = s.mem := hcdr.mem.trans hcounts.trains.mem
  have hflagsw : w.num Obj.linkFlags = s.num Obj.linkFlags := hw (by decide) (.inr (by decide))
  have hretrainsw : w.num (Obj.retrains + p) = s.num (Obj.retrains + p) :=
    hw (show 0x800ac1 ≤ 0x804901 + p.val by omega) (.inr (show 0x804619 ≤ 0x804901 + p.val by omega))
  have hstw : w.portSt p = Port.up :=
    (hw (show 0x800ac1 ≤ 0x804001 + p.val by omega) (.inl (show 0x804001 + p.val < 0x804501 by omega))).trans hst
  rw [hw (k := Obj.linkDownUncorrectable) (by decide) (.inr (by decide))] at hdoes
  by_cases hkeep : l = [] ∧ m = false ∧ n < s.num Obj.linkDownUncorrectable
  · rw [if_pos (by simpa [and_assoc] using hkeep)] at hdoes
    refine ⟨_, hdoes, hcdrw, huncw, hportw, hmemw, ?_⟩
    rw [if_pos hkeep]
    exact ⟨hstw, hretrainsw⟩
  · rw [if_neg (by simpa [and_assoc] using hkeep)] at hdoes
    obtain ⟨htrains, hstate, hretrains, hflags, hnote⟩ := retrain_spec p w
    have hkept {k : Nat} (hk : k ∉ portKeys p) (hk' : k < 0x804901) (hlo : 0x210000 ≤ k) : (w.retrain p).num k = w.num k := by
      refine htrains.num ?_ hlo
      simp only [List.mem_append, List.mem_cons, List.not_mem_nil, or_false, not_or, Obj.retrains, Obj.linkFlags]
      exact ⟨hk, by omega, by omega⟩
    refine ⟨_, hdoes, fun k => ?_, ?_, (htrains.port p).trans hportw, htrains.mem.trans hmemw, ?_⟩
    · obtain ⟨hlo, hhi⟩ := cdrKey_lt p k
      have hne : cdrKey p k ≠ 0x804001 + p.val := by omega
      exact (hkept (not_mem_portKeys hne (.inr (by omega)) (.inr (by omega)) (.inr (by omega))) (by omega) (by omega)).trans (hcdrw k)
    · have hlt' : Obj.codewordsUncorrectable + p.val < 0x804901 := by
        simp only [Obj.codewordsUncorrectable]
        omega
      exact (hkept (not_mem_portKeys_of_ge (Nat.le_add_right_of_le (by decide))) hlt' (Nat.le_add_right_of_le (by decide))).trans huncw
    · rw [if_neg hkeep]
      exact ⟨hstate, by rw [Counted, hretrains, hretrainsw], by rw [hflags, hflagsw], hnote⟩

/-! ## PORT_DOWN_LIMIT (R437, R453) -/

/-- The port has failed: its state, its flag and its training, and no flit waits. -/
def State.portFails (p : Nat) (s : State) : State :=
  let s := (s.setPortSt p Port.failed).setFlag Obj.linkFlags 2
  (s.setTrain p ⟨false, s.now, 0⟩).discardFlits p

/-- Nothing changes but these objects, their events, and the ports' own state. -/
def PortWork (l : List Nat) (s u : State) : Prop :=
  u = { s with
    free := u.free
    obj := u.obj
    dict := { s.dict with queues := u.dict.queues }
    net := u.net } ∧ KeepsObjects l s u

theorem PortWork.trans {l : List Nat} {s t u : State} (h₁ : PortWork l s t) (h₂ : PortWork l t u) : PortWork l s u := by
  obtain ⟨ht, hk₁⟩ := h₁
  obtain ⟨hu, hk₂⟩ := h₂
  refine ⟨hu.trans ?_, hk₁.trans hk₂⟩
  rw [ht]

theorem PortWork.mono {l l' : List Nat} {s u : State} (h : PortWork l s u) (hl : l ⊆ l') : PortWork l' s u := ⟨h.1, h.2.mono hl⟩

theorem Trains.work {l : List Nat} {s u : State} (h : Trains l s u) : PortWork l s u := by
  refine ⟨?_, h.2⟩
  rw [h.1]
  rfl

/-- The objects that a port's failure changes. -/
def failKeys (p : Nat) : List Nat := portKeys p ++ [Obj.routeDiscards, Obj.linkFlags]

theorem portFails_spec (p : PortNo) (s : State) : PortWork (failKeys p) s (s.portFails p) ∧
    (s.portFails p).portSt p = Port.failed ∧ ((s.portFails p).num Obj.linkFlags).testBit 1 = true ∧
    (s.portFails p).port p = (s.port p).emptied ∧
    ((s.port p).waiting ≠ 0 → Counted Obj.routeDiscards (s.port p).waiting s (s.portFails p)) := by
  have hturns := setPortSt_turns p Port.failed s
  unfold State.portFails
  dsimp only
  generalize s.setPortSt p Port.failed = t at hturns
  have hflag := State.setFlag_changes Obj.linkFlags 2 t
  have hbit : ((t.setFlag Obj.linkFlags 2).num Obj.linkFlags).testBit 1 = true := by
    rw [State.testBit_setFlag _ _ _ _ (quiet_of_mod (by decide))]
    rfl
  generalize t.setFlag Obj.linkFlags 2 = w at hflag hbit
  have hport : (w.setTrain p ⟨false, w.now, 0⟩).port p = s.port p := (hflag.trains.port p).trans (hturns.trains.port p)
  have hnums (k : Nat) : (w.setTrain p ⟨false, w.now, 0⟩).num k = w.num k := rfl
  have hnote := setTrain_trains [] p ⟨false, w.now, 0⟩ w
  generalize w.setTrain p ⟨false, w.now, 0⟩ = v at *
  obtain ⟨hdiscard, hcount, hbits⟩ := discardFlits_spec p v
  obtain ⟨hempty, -⟩ := discardFlits_port p v
  rw [hport] at hcount hempty
  have hset : PortWork [Obj.routeDiscards, Obj.linkFlags] v (v.setPort p (v.port p).emptied) := ⟨rfl, fun _ _ _ => rfl⟩
  have hlt : Obj.portState + p.val ∉ [Obj.routeDiscards, Obj.linkFlags] ∧ Obj.portState + p.val ∉ [Obj.linkFlags] := by
    have := p.isLt
    simp only [List.mem_cons, List.not_mem_nil, or_false, not_or, Obj.portState, Obj.routeDiscards, Obj.linkFlags]
    omega
  have hstate : (v.discardFlits p).portSt p = Port.failed :=
    calc (v.discardFlits p).num (Obj.portState + p)
      _ = v.num (Obj.portState + p) := hdiscard.2.num_of_le hlt.1 (Nat.le_add_right_of_le (by decide))
      _ = w.num (Obj.portState + p) := hnums _
      _ = t.num (Obj.portState + p) := hflag.2.num_of_le hlt.2 (Nat.le_add_right_of_le (by decide))
      _ = Port.failed := hturns.state
  refine ⟨?_, hstate, hbits 1 ((hnums _).symm ▸ hbit), hempty, fun h => ?_⟩
  · have hfirst := (hturns.trains.work.mono (l' := failKeys p) (List.subset_append_left _ _)).trans
      (hflag.trains.work.mono (by simp [failKeys]))
    exact hfirst.trans ((hnote.work.mono (List.nil_subset _)).trans
      ((hset.trans hdiscard.trains.work).mono (List.subset_append_right _ _)))
  · rw [Counted, hcount h, hnums, hflag.2.num_of_le (by decide) (by decide),
      hturns.trains.num (not_mem_portKeys_of_ge (by decide)) (by decide)]

/-- The instant at which a port has not been Up for its limit. -/
def State.downLimit (s : State) (t : Nat) (p : Nat) : Nat := max t ((s.train p).downAt + 1000000 * s.num Obj.portDownLimitMs)

theorem exec_portDownLimit {p : PortNo} {s : State} (t : Nat) (hst : s.portSt p = Port.bringUp ∨ s.portSt p = Port.qualifying) :
    let w := (s.upto (s.downLimit t p)).portFails p
    exec (.portDownLimit t p) s = .next (w.logFault { FaultRec.device w.now 0x0C 7 with syn := p.val } 0xFF) := by
  show execPortDownLimit t p s = _
  rw [execPortDownLimit, if_neg (by rcases hst with h | h <;> simp [h])]
  rfl

theorem portDownLimit_settled (s : State) (t : Nat) (p : PortNo)
    (hst : s.portSt p = Port.bringUp ∨ s.portSt p = Port.qualifying) :
    let at' := max s.now (max t ((s.train p).downAt + 1000000 * s.num Obj.portDownLimitMs))
    Answers (exec (.portDownLimit t p) s) fun u => u.portSt p = Port.failed ∧ (u.num Obj.linkFlags).testBit 1 = true ∧
      (u.port p).queue = [] ∧ (u.port p).retry = [] ∧ u.now = at' ∧
      Logged { FaultRec.device at' 0x0C 7 with syn := p.val } 0xFF s u ∧ u.mem = s.mem ∧ u.tiles = s.tiles ∧
      ((s.port p).queue.length + (s.port p).retry.length ≠ 0 →
        Counted Obj.routeDiscards ((s.port p).queue.length + (s.port p).retry.length) s u) := by
  have hdoes := exec_portDownLimit t hst
  obtain ⟨hwork, hfailed, hflag, hempty, hcount⟩ := portFails_spec p (s.upto (s.downLimit t p))
  dsimp only at hdoes ⊢
  generalize (s.upto (s.downLimit t p)).portFails p = w at *
  obtain ⟨hframe, hkeys⟩ := hwork
  have hnow : w.now = max s.now (max t ((s.train p).downAt + 1000000 * s.num Obj.portDownLimitMs)) := by rw [hframe]; rfl
  have hfaults : w.num Obj.faultsRecorded = s.num Obj.faultsRecorded := by
    refine hkeys.num_of_le ?_ (by decide)
    have hne : (0x480002 : Nat) ≠ 0x804001 + p.val := by omega
    rw [failKeys, List.mem_append, not_or]
    exact ⟨not_mem_portKeys hne (.inl (by decide)) (.inl (by decide)) (.inl (by decide)), by decide⟩
  have hlog := logFault_logs { FaultRec.device w.now 0x0C 7 with syn := p.val } 0xFF w
  generalize w.logFault { FaultRec.device w.now 0x0C 7 with syn := p.val } 0xFF = u at hdoes hlog
  obtain ⟨hufr, hukeys, ⟨hentry, hcounted, -⟩, -⟩ := hlog
  have hkept {k : Nat} (hk : k ∉ logKeys 0xFF) (hlo : 0x210000 ≤ k) : u.num k = w.num k := hukeys.num_of_le hk hlo
  have huport (r : Nat) : u.port r = w.port r := by rw [hufr]; rfl
  have hst' : Obj.portState + p.val ∉ logKeys 0xFF := by
    simp only [logKeys, List.mem_cons, List.not_mem_nil, or_false, not_or, Obj.portState, Obj.faultsRecorded, Obj.lastFault,
      Obj.healthFlags, Obj.rungCounts, Obj.rungTimeMax]
    omega
  refine ⟨u, hdoes, ?_, ?_, ?_, ?_, ?_, ⟨?_, ?_, fun h => absurd h (by decide)⟩, ?_, ?_, fun h => ?_⟩
  · exact (hkept hst' (Nat.le_add_right_of_le (by decide))).trans hfailed
  · rw [hkept (by decide) (by decide), hflag]
  · rw [huport, hempty]
    rfl
  · rw [huport, hempty]
    rfl
  · rw [hufr]
    exact hnow
  · rw [hentry, hfaults, ← hnow]
    have hlog : w.health.log = s.health.log := by rw [hframe]; rfl
    rw [hlog]
  · rw [Counted, hcounted, hfaults]
  · rw [hufr]
    exact (by rw [hframe]; rfl : w.mem = s.mem)
  · rw [hufr]
    exact (by rw [hframe]; rfl : w.tiles = s.tiles)
  · rw [Counted, hkept (by decide) (by decide)]
    exact hcount h

/-! ## Tests and eyes (R439, R440) -/

theorem rowOf_laneTest (lane : Fin 192) : (rowOf (Obj.laneTest + lane)).any (fun r => r.ty.fixed && r.acc = .rw) = true := by
  revert lane
  decide +kernel

/-- What a test leaves of the port's state. -/
def State.testedState (s : State) (p : Nat) : Nat :=
  if (portLanes p).any fun l => s.num (Obj.laneTest + l) ≠ 0 then Port.test else Port.disabled

theorem writeLaneTest_eq (lane n : Nat) (s : State) : writeLaneTest lane (.num n) s =
    if !(s.portSt (lanePort lane) = Port.disabled || s.portSt (lanePort lane) = Port.test) ||
      s.num (Obj.portEnable + lanePort lane) = 1 then .error Err.refusedInState
    else .ok ((s.setNum (Obj.prbsLocked + lane) 0).setPortSt (lanePort lane)
      ((s.setNum (Obj.prbsLocked + lane) 0).testedState (lanePort lane))) := rfl

section LaneTest

variable {s : State} {q : Req} {lane : Fin 192} {val : List Byte}

/-- A port of a lane under test, as a port's number. -/
def testPort (lane : Fin 192) : PortNo := ⟨lanePort lane, lanePort_lt lane⟩

/-- The state in which a test's value stands and its checker starts anew. -/
def State.testing (q : Req) (lane : Fin 192) (n : Nat) (s : State) : State :=
  ((Arrived q s).setNum (Obj.laneTest + lane) n).setNum (Obj.prbsLocked + lane) 0

theorem testing_num (q : Req) (lane : Fin 192) (n k : Nat) (s : State) : (s.testing q lane n).num k =
    if k = Obj.prbsLocked + lane then 0 else if k = Obj.laneTest + lane then n else s.num k := by
  unfold State.testing
  split
  case isTrue h => rw [h, State.num_setNum_self]
  case isFalse h =>
    rw [State.num_setNum_ne _ _ _ _ h]
    split
    case isTrue h' => rw [h', State.num_setNum_self]
    case isFalse h' => rw [State.num_setNum_ne _ _ _ _ h', arrived_num]

/-- The port is in Test while a lane of it is tested. -/
theorem testing_state (q : Req) (lane : Fin 192) (n : Nat) (s : State) :
    (s.testing q lane n).testedState (lanePort lane) =
      if n ≠ 0 ∨ ∃ l ∈ portLanes (lanePort lane), l ≠ lane ∧ s.num (Obj.laneTest + l) ≠ 0 then Port.test else Port.disabled := by
  have hnum {l : Nat} (hl : l ∈ portLanes (lanePort lane)) : (s.testing q lane n).num (Obj.laneTest + l) =
      if l = lane then n else s.num (Obj.laneTest + l) := by
    have := portLanes_lt (testPort lane) l hl
    have hne : Obj.laneTest + l ≠ Obj.prbsLocked + lane := by
      simp only [Obj.laneTest, Obj.prbsLocked]
      omega
    rw [testing_num, if_neg hne]
    simp only [Nat.add_left_cancel_iff]
  unfold State.testedState
  refine if_congr ?_ rfl rfl
  rw [List.any_eq_true]
  constructor
  · rintro ⟨l, hl, hne⟩
    rw [hnum hl] at hne
    by_cases he : l = lane
    · exact .inl (by simpa [he] using hne)
    · exact .inr ⟨l, hl, he, by simpa [he] using hne⟩
  · rintro (hn | ⟨l, hl, he, hne⟩)
    · exact ⟨lane, mem_portLanes lane, by simpa [hnum (mem_portLanes lane)] using hn⟩
    · exact ⟨l, hl, by simpa [hnum hl, he] using hne⟩

theorem laneTest_settled (hadm : Admitted q (Obj.laneTest + lane) val s) : let p := lanePort lane
    (¬(s.portSt p = Port.disabled ∨ s.portSt p = Port.test) ∨ s.num (Obj.portEnable + p) = 1 →
      exec (.laneTest q lane val) s = .next (Denied q (Obj.laneTest + lane) Err.refusedInState (Arrived q s))) ∧
    (s.portSt p = Port.disabled ∨ s.portSt p = Port.test → s.num (Obj.portEnable + p) ≠ 1 →
      Carries q (Obj.laneTest + lane) (exec (.laneTest q lane val) s) fun u => u.num (Obj.prbsLocked + lane) = 0 ∧
        u.num (Obj.laneTest + lane) = leNat val ∧ u.mem = s.mem ∧ u.net = s.net ∧
        u.portSt p = (if leNat val ≠ 0 ∨ ∃ l ∈ portLanes p, l ≠ lane ∧ s.num (Obj.laneTest + l) ≠ 0 then Port.test else Port.disabled) ∧
        (leNat val ≠ 0 → u.num (Obj.laneState + lane) = 5)) := by
  have hlt := lanePort_lt lane
  have hlane := lane.isLt
  obtain ⟨hok, herr⟩ := serveOwn_stored hadm (rowOf_laneTest lane) (writeLaneTest lane)
  have hdoes := writeLaneTest_eq lane (leNat val) ((Arrived q s).setNum (Obj.laneTest + lane) (leNat val))
  have hport : ((Arrived q s).setNum (Obj.laneTest + lane) (leNat val)).portSt (lanePort lane) = s.portSt (lanePort lane) := by
    refine (State.num_setNum_ne _ _ _ _ ?_).trans (arrived_num q s _)
    simp only [Obj.portState, Obj.laneTest]
    omega
  have henable : ((Arrived q s).setNum (Obj.laneTest + lane) (leNat val)).num (Obj.portEnable + lanePort lane) =
      s.num (Obj.portEnable + lanePort lane) := by
    refine (State.num_setNum_ne _ _ _ _ ?_).trans (arrived_num q s _)
    simp only [Obj.portEnable, Obj.laneTest]
    omega
  rw [hport, henable] at hdoes
  refine ⟨fun h => ?_, fun hst hen => ?_⟩
  · rw [if_pos (by simpa using h)] at hdoes
    exact congrArg Host.Outcome.next (herr _ hdoes)
  · rw [if_neg (by simpa [hen, or_iff_not_imp_left] using hst)] at hdoes
    refine ⟨_, congrArg Host.Outcome.next (hok _ hdoes), ?_⟩
    have htested := testing_state q lane (leNat val) s
    have hturns := setPortSt_turns (testPort lane) ((s.testing q lane (leNat val)).testedState (lanePort lane))
      (s.testing q lane (leNat val))
    have hnet : (s.testing q lane (leNat val)).net = s.net := by
      rw [State.testing, arrived_eq]
      rfl
    have hmem : (s.testing q lane (leNat val)).mem = s.mem := by
      rw [State.testing, arrived_eq]
      rfl
    have hlocked := testing_num q lane (leNat val) (Obj.prbsLocked + lane) s
    have hvalue := testing_num q lane (leNat val) (Obj.laneTest + lane) s
    rw [if_pos rfl] at hlocked
    rw [if_neg (by simp [Obj.laneTest, Obj.prbsLocked]), if_pos rfl] at hvalue
    have hlo {b : Nat} (hb : 0x800301 ≤ b) (hb' : b ≤ 0x800501) :
        b + lane.val ∉ portKeys (testPort lane) ∧ 0x210000 ≤ b + lane.val := by
      have hne : b + lane.val ≠ 0x804001 + (testPort lane).val := by omega
      exact ⟨not_mem_portKeys hne (.inr (by omega)) (.inr (by omega)) (.inl (by omega)), by omega⟩
    obtain ⟨hlockedKey, hlockedLo⟩ := hlo (b := Obj.prbsLocked) (by decide) (by decide)
    obtain ⟨hvalueKey, hvalueLo⟩ := hlo (b := Obj.laneTest) (by decide) (by decide)
    have hv : (s.testing q lane (leNat val)).testedState (lanePort lane) ≠ Port.bringUp := by
      rw [htested]
      split <;> decide
    refine ⟨(hturns.trains.num hlockedKey hlockedLo).trans hlocked, (hturns.trains.num hvalueKey hvalueLo).trans hvalue,
      hturns.trains.mem.trans hmem, (hturns.net hv).trans hnet, hturns.state.trans htested, fun hn => ?_⟩
    refine (hturns.lanes lane (mem_portLanes lane)).trans ?_
    have hcond : leNat val ≠ 0 ∨ ∃ l ∈ portLanes (lanePort lane), l ≠ lane ∧ s.num (Obj.laneTest + l) ≠ 0 := .inl hn
    rw [State.laneFor, htested, if_pos hcond, hvalue, if_pos (by simp [hn])]

end LaneTest

theorem eyeSweep_settled (s : State) (lane : Fin 192) (m : BitVec 16) :
    exec (.eyeSweep lane m) s =
      .next (if s.portSt (lanePort lane) = Port.up then s.setNum (Obj.eyeMargin + lane) m.toNat else s) := by
  show execEyeSweep lane m s = _
  unfold execEyeSweep
  split <;> rfl

theorem prbsLock_settled (s : State) (lane : Fin 192) (n : Nat) : let v := s.num (Obj.laneTest + lane)
    (s.portSt (lanePort lane) = Port.test → v % 4 ≠ 3 → v / 4 % 4 ≠ 0 → Answers (exec (.prbsLock lane n) s) fun u =>
      u.num (Obj.prbsLocked + lane) = 1 ∧ Counted (Obj.prbsErrors + lane) n s u ∧
      ChangesOnly [Obj.prbsLocked + lane, Obj.prbsErrors + lane] s u) ∧
    (s.portSt (lanePort lane) ≠ Port.test ∨ v % 4 = 3 ∨ v / 4 % 4 = 0 → exec (.prbsLock lane n) s = .next s) := by
  have hmod : bits (s.num (Obj.laneTest + lane)) 0 2 = s.num (Obj.laneTest + lane) % 4 := by simp [bits]
  have hdiv : bits (s.num (Obj.laneTest + lane)) 2 2 = s.num (Obj.laneTest + lane) / 4 % 4 := rfl
  dsimp only
  rw [← hmod, ← hdiv]
  refine ⟨fun hst hmode hcheck => ⟨_, if_pos (by simp [hst, hmode, hcheck]), ?_, ?_, ?_⟩, fun h => if_neg ?_⟩
  · exact (State.num_bump_ne _ _ _ _ (by simp [Obj.prbsLocked, Obj.prbsErrors])).trans (State.num_setNum_self _ _ _)
  · rw [Counted, State.num_bump_self, State.num_setNum_ne _ _ _ _ (by simp [Obj.prbsLocked, Obj.prbsErrors])]
  · exact ((State.setNum_changes _ _ _).mono (by simp)).trans ((State.bump_changes _ _ _).mono (by simp))
  · rcases h with h | h | h <;> simp [h]

/-- Settles O50: each command's rule, port by port and lane by lane. -/
theorem portsTrainAndTest : Obligations.PortsTrainAndTest :=
  ⟨fun _ _ _ _ hadm => ⟨portEnable_starts hadm, portEnable_stands hadm, portEnable_stops hadm⟩, bringUpDone_settled,
    qualifyWindow_settled, linkLoss_settled, portDownLimit_settled, fun _ _ _ _ => laneTest_settled, eyeSweep_settled,
    prbsLock_settled⟩

end Sys2Proof.Machine

/-! PROOFS. The sources of a load: O44. -/

namespace Sys2Proof.Machine

/-! ## The slave ports (R369) -/

/-- The port is no longer selected. -/
def State.portOff (s : State) : State :=
  { s with cfg := { s.cfg with port := { s.cfg.port with
    selected := false
    bits := []
    buf := []
    excess := 0 } } }

/-- The port's load has not come to its end. -/
def State.portUnfinished (s : State) : Bool := match s.portLoad with
  | some l => !l.allIn && (s.loaderSt = Loader.header || s.loaderSt = Loader.clearing || s.loaderSt = Loader.writing)
  | none => false

theorem exec_spselRise (s : State) :
    exec .spselRise s = .next (if s.portUnfinished then s.portOff.failLoad LoadEnd.truncated 0 0 else s.portOff) := rfl

theorem portLoad_some {s : State} {l : LoadS} (hl : s.cfg.load = some l) (hsrc : l.src = 1 ∨ l.src = 2) : s.portLoad = some l := by
  rw [State.portLoad, hl]
  exact if_pos (by simpa using hsrc)

theorem spselRise_settled (s : State) :
    ((∀ l, s.cfg.load = some l → l.src = 1 ∨ l.src = 2 → l.allIn = true ∨ (s.loaderSt ≠ 1 ∧ s.loaderSt ≠ 2 ∧ s.loaderSt ≠ 3)) →
      exec .spselRise s = .next s.portOff) ∧
    (∀ l, s.cfg.load = some l → l.src = 1 ∨ l.src = 2 → l.allIn = false → s.loaderSt = 1 ∨ s.loaderSt = 2 ∨ s.loaderSt = 3 →
      exec .spselRise s = .next (s.portOff.failLoad 11 0 0)) := by
  refine ⟨fun h => ?_, fun l hl hsrc hin hst => ?_⟩
  · have hdone : s.portUnfinished = false := by
      unfold State.portUnfinished State.portLoad
      cases hl : s.cfg.load with
      | none => rfl
      | some l =>
        by_cases hsrc : l.src = 1 ∨ l.src = 2
        · simp only [Bool.or_eq_true, decide_eq_true_eq, if_pos hsrc]
          rcases h l hl hsrc with hin | ⟨h1, h2, h3⟩
          · simp [hin]
          · simp [h1, h2, h3]
        · simp [hsrc]
    rw [exec_spselRise, hdone]
    rfl
  · have hopen : s.portUnfinished = true := by
      rw [State.portUnfinished, portLoad_some hl hsrc]
      rcases hst with h | h | h <;> simp [hin, h]
    rw [exec_spselRise, hopen]
    rfl

/-- The port samples an edge. -/
def State.samples (s : State) : Bool :=
  s.cfg.port.selected && s.num Obj.slavePortsEnabled = 1 && s.num Obj.deviceState ≠ 1 && !s.blockHeld 0x20

/-- One edge, taken where the port samples. -/
def State.edgeStep (s : State) (e : SlaveEdge) : State := match e with
  | .data d => if s.samples then s.portEdge d else s

theorem exec_slavePortData (l : List SlaveEdge) (s : State) : exec (.slavePortData l) s = .next (l.foldl State.edgeStep s) := rfl

theorem exec_slavePortData_one {s : State} (d : BitVec 32) (hsel : s.cfg.port.selected = true)
    (hen : s.num Obj.slavePortsEnabled = 1) (hst : s.num Obj.deviceState ≠ 1) (hheld : s.blockHeld 0x20 = false) :
    exec (.slavePortData [.data d]) s = .next (s.portEdge d) := by
  refine (exec_slavePortData _ s).trans (congrArg Host.Outcome.next (if_pos ?_))
  simp [State.samples, hsel, hen, hst, hheld]

theorem slavePortData_ignored (s : State) (l : List SlaveEdge) (h : s.cfg.port.selected = false ∨
    s.num Obj.slavePortsEnabled ≠ 1 ∨ s.num Obj.deviceState = 1 ∨ s.blockHeld 0x20 = true) :
    exec (.slavePortData l) s = .next s := by
  have hoff : s.samples = false := by
    rcases h with h | h | h | h <;> simp [State.samples, h]
  rw [exec_slavePortData]
  congr 1
  induction l with
  | nil => rfl
  | cons e l ih =>
    have hstep : s.edgeStep e = s := by
      cases e
      rw [State.edgeStep, hoff]
      rfl
    rw [List.foldl_cons, hstep, ih]

/-- The port with the bits left over from a sample. -/
def State.portBits (b : List Bool) (s : State) : State :=
  { s with cfg := { s.cfg with port := { s.cfg.port with
    excess := 0
    bits := b } } }

/-- What an edge does while the loader takes the port's bytes. -/
theorem portEdge_taken {s : State} (d : BitVec 32) (hbusy : s.spBusy = false) :
    let p := splitBits 8 (s.cfg.port.bits ++ edgeBits (s.num Obj.slavePortWidth) d)
    s.portEdge d = if p.1.isEmpty then s.portBits p.2 else (s.portBits p.2).portBytes (s.num Obj.slavePortWidth) p.1 := by
  unfold State.portEdge
  simp only [hbusy, Bool.false_and, Bool.false_eq_true, if_false]
  rfl

/-- Bytes join the load that the port brings. -/
theorem portEdge_load {s : State} {l : LoadS} (d : BitVec 32) (hbusy : s.spBusy = false) (hl : s.cfg.load = some l)
    (hsrc : l.src = 1 ∨ l.src = 2) :
    let p := splitBits 8 (s.cfg.port.bits ++ edgeBits (s.num Obj.slavePortWidth) d)
    s.portEdge d = { s with cfg := { s.cfg with
      load := some { l with raw := l.raw ++ p.1 }
      port := { s.cfg.port with
        excess := 0
        bits := p.2 } } } := by
  dsimp only
  rw [portEdge_taken d hbusy]
  generalize splitBits 8 (s.cfg.port.bits ++ edgeBits (s.num Obj.slavePortWidth) d) = p
  have hload : (s.portBits p.2).portLoad = some l := portLoad_some hl hsrc
  split
  case isTrue h =>
    rw [List.isEmpty_iff.1 h, List.append_nil, State.portBits, ← hl]
  case isFalse =>
    rw [State.portBytes, hload]
    rfl

theorem slavePortData_busy_free (s : State) (d : BitVec 32) (hsel : s.cfg.port.selected = true)
    (hen : s.num Obj.slavePortsEnabled = 1) (hst : s.num Obj.deviceState ≠ 1) (hheld : s.blockHeld 0x20 = false)
    (hbusy : s.spBusy = false) :
    let p := splitBits 8 (s.cfg.port.bits ++ edgeBits (s.num Obj.slavePortWidth) d)
    (s.cfg.load = none → p.1 = [] → exec (.slavePortData [.data d]) s = .next { s with cfg := { s.cfg with
      port := { s.cfg.port with
        excess := 0
        bits := p.2 } } }) ∧
    (∀ l, s.cfg.load = some l → l.src = 1 ∨ l.src = 2 → exec (.slavePortData [.data d]) s = .next { s with cfg := { s.cfg with
      load := some { l with raw := l.raw ++ p.1 }
      port := { s.cfg.port with
        excess := 0
        bits := p.2 } } }) := by
  have hone := exec_slavePortData_one d hsel hen hst hheld
  refine ⟨fun _ hp => ?_, fun l hl hsrc => ?_⟩
  · rw [hone, portEdge_taken d hbusy, if_pos (by rw [hp]; rfl)]
    rfl
  · rw [hone, portEdge_load d hbusy hl hsrc]

theorem spBusy_of_none {s : State} (h : s.cfg.load = none) : s.spBusy = false := by rw [State.spBusy, h]

theorem spBusy_of_writing {s : State} {l : LoadS} (hl : s.cfg.load = some l) (hsrc : l.src = 1) (hst : s.loaderSt = 3) :
    s.spBusy = false := by
  rw [State.spBusy, hl]
  simp [hsrc, hst]

theorem slavePortData_bit (s : State) (d : BitVec 32) (hsel : s.cfg.port.selected = true)
    (hen : s.num Obj.slavePortsEnabled = 1) (hst : s.num Obj.deviceState ≠ 1) (hheld : s.blockHeld 0x20 = false)
    (hwidth : s.num Obj.slavePortWidth = 1) :
    (s.cfg.load = none → s.cfg.port.bits.length < 7 → exec (.slavePortData [.data d]) s = .next { s with cfg := { s.cfg with
      port := { s.cfg.port with
        excess := 0
        bits := s.cfg.port.bits ++ [d.getLsbD 0] } } }) ∧
    (∀ l, s.cfg.load = some l → l.src = 1 → s.loaderSt = 3 → s.cfg.port.bits.length = 7 →
      exec (.slavePortData [.data d]) s = .next { s with cfg := { s.cfg with
        load := some { l with raw := l.raw ++ [bitsByte (s.cfg.port.bits ++ [d.getLsbD 0])] }
        port := { s.cfg.port with
          excess := 0
          bits := [] } } }) := by
  have hbits : edgeBits (s.num Obj.slavePortWidth) d = [d.getLsbD 0] := by rw [hwidth]; rfl
  refine ⟨fun hl hlen => ?_, fun l hl hsrc hstate hlen => ?_⟩
  · have hsplit : splitBits 8 (s.cfg.port.bits ++ [d.getLsbD 0]) = ([], s.cfg.port.bits ++ [d.getLsbD 0]) := by
      rw [splitBits, if_pos (by rw [List.length_append]; simp; omega)]
    have h := (slavePortData_busy_free s d hsel hen hst hheld (spBusy_of_none hl)).1 hl
    rw [hbits, hsplit] at h
    exact h rfl
  · have hbyte : (s.cfg.port.bits ++ [d.getLsbD 0]).length = 8 := by rw [List.length_append, hlen]; rfl
    have hsplit : splitBits 8 (s.cfg.port.bits ++ [d.getLsbD 0]) = ([bitsByte (s.cfg.port.bits ++ [d.getLsbD 0])], []) := by
      rw [splitBits, if_neg (by omega), List.drop_of_length_le hbyte.le, List.take_of_length_le hbyte.le]
      rfl
    have h := (slavePortData_busy_free s d hsel hen hst hheld (spBusy_of_writing hl hsrc hstate)).2 l hl (.inl hsrc)
    rw [hbits, hsplit] at h
    exact h

/-! ## The configuration window (R472–R474) -/

/-- What WINDOW_WRITE does, by what stands in its way. -/
theorem exec_windowWrite (off : BitVec 23) (d : List Byte) (s : State) : exec (.windowWrite off d) s =
    if s.num Obj.hostLinkState ≠ 2 || s.rst.serve = .none then .next s
    else if off.toNat % 4 ≠ 0 || d.length % 4 ≠ 0 then .next ((s.bump Obj.windowWritesDropped 1).setFlag Obj.hostFlags 0x10)
    else if s.num Obj.owner ≠ 1 then .next (s.dropWindow Err.notOwner)
    else if !s.windowFree || s.blockHeld 0x20 then .next (s.dropWindow Err.refusedInState)
    else .next (s.setHost fun h => { h with window := h.window ++ d }).pumpWindow := rfl

/-- A dropped write: its code, its count, and neither the window nor the loader touched. -/
theorem dropWindow_spec (code : Nat) (s : State) : (s.dropWindow code).num Obj.lastErrorCode = code ∧
    Counted Obj.windowWritesDropped 1 s (s.dropWindow code) ∧ (s.dropWindow code).host = s.host ∧
    (s.dropWindow code).cfg = s.cfg := by
  unfold State.dropWindow
  refine ⟨?_, ?_, State.setFlag_host _ _ _, State.setFlag_cfg _ _ _⟩
  · rw [State.num_flagged_ne _ _ (by decide) (by decide), State.num_bump_ne _ _ _ _ (by decide),
      State.num_setNum_ne _ _ _ _ (by decide), State.num_setNum_self]
  · rw [Counted, State.num_flagged_ne _ _ (by decide) (by decide), State.num_bump_self, State.num_setNum_ne _ _ _ _ (by decide),
      State.num_setNum_ne _ _ _ _ (by decide)]

/-- Window bytes go to the load in hand. -/
theorem giveWindow_load {s : State} {l : LoadS} (n : Nat) (hl : s.cfg.load = some l) :
    (s.giveWindow n).cfg.load = some { l with raw := l.raw ++ s.host.window.take n } ∧
      (s.giveWindow n).host.window = s.host.window.drop n ∧ (s.giveWindow n).fab = s.fab ∧ (s.giveWindow n).mem = s.mem := by
  have hgive : s.giveWindow n = ((s.setHost fun h => { h with window := h.window.drop n }).bump Obj.windowBytesTaken
      (s.host.window.take n).length).setLoad { l with raw := l.raw ++ s.host.window.take n } := by
    rw [State.giveWindow]
    rw [show ((s.setHost fun h => { h with window := h.window.drop n }).bump Obj.windowBytesTaken
      (s.host.window.take n).length).cfg.load = some l from hl]
  rw [hgive]
  exact ⟨rfl, rfl, rfl, rfl⟩

/-- With a load of the window in hand and nothing to discard, the loader takes what it wants, twice. -/
theorem pumpWindow_load {s : State} {l : LoadS} (hl : s.cfg.load = some l) (hdiscard : s.host.discard = 0) :
    ∃ w : State, w.cfg = s.cfg ∧ w.host = s.host ∧ w.fab = s.fab ∧ w.mem = s.mem ∧ w.loaderSt = s.loaderSt ∧
      s.pumpWindow = (w.giveWindow w.windowWants).giveWindow (w.giveWindow w.windowWants).windowWants := by
  let w := (s.setHost fun h => { h with
    window := h.window.drop (min h.discard h.window.length)
    discard := h.discard - min h.discard h.window.length }).bump Obj.windowBytesTaken (min s.host.discard s.host.window.length)
  refine ⟨w, rfl, ?_, rfl, rfl, State.num_bump_ne _ _ _ _ (by decide), ?_⟩
  · have hhost : w.host = { s.host with
      window := s.host.window.drop (min s.host.discard s.host.window.length)
      discard := s.host.discard - min s.host.discard s.host.window.length } := rfl
    rw [hhost, hdiscard, Nat.zero_min, List.drop_zero, Nat.sub_zero, ← hdiscard]
  · have hsome : w.cfg.load.isSome = true := by
      rw [show w.cfg.load = some l from hl]
      rfl
    unfold State.pumpWindow
    dsimp only
    rw [if_pos (by simp only [Bool.or_eq_true]; exact .inl hsome)]
    rfl

theorem windowWrite_header {s : State} {off : BitVec 23} {d : List Byte} {l : LoadS} (hwrite : exec (.windowWrite off d) s =
      .next (s.setHost fun h => { h with window := h.window ++ d }).pumpWindow)
    (hl : s.cfg.load = some l) (hsrc : l.src = 3) (hfailed : l.failed = false) (hdiscard : s.host.discard = 0)
    (hwindow : s.host.window = []) (hst : s.loaderSt = 1) (hfits : l.raw.length + d.length ≤ 96) (hd : d ≠ []) :
    Answers (exec (.windowWrite off d) s) fun u =>
      u.cfg.load = some { l with raw := l.raw ++ d } ∧ u.host.window = [] ∧ u.fab = s.fab ∧ u.mem = s.mem := by
  have hpos := List.length_pos_iff.2 hd
  obtain ⟨w, hcfg, hhost, hfab, hmem, hstate, hpump⟩ :=
    pumpWindow_load (s := s.setHost fun h => { h with window := h.window ++ d }) hl hdiscard
  have hlw : w.cfg.load = some l := by rw [hcfg]; exact hl
  have hww : w.host.window = d := by
    rw [hhost]
    exact (congrArg (· ++ d) hwindow).trans (List.nil_append d)
  have hstw : w.loaderSt = 1 := hstate.trans hst
  have hwants : w.windowWants = 96 - l.raw.length := by
    have hshort : l.raw.length < 96 := by omega
    simp [State.windowWants, hlw, hsrc, hfailed, hstw, hshort]
  rw [hpump, hwants] at hwrite
  obtain ⟨hload, hleft, hfab₁, hmem₁⟩ := giveWindow_load (96 - l.raw.length) hlw
  rw [hww, List.take_of_length_le (by omega)] at hload
  rw [hww, List.drop_of_length_le (by omega)] at hleft
  obtain ⟨hload₂, hleft₂, hfab₂, hmem₂⟩ := giveWindow_load (w.giveWindow (96 - l.raw.length)).windowWants hload
  rw [hleft, List.take_nil, List.append_nil] at hload₂
  rw [hleft, List.drop_nil] at hleft₂
  exact ⟨_, hwrite, hload₂, hleft₂, hfab₂.trans (hfab₁.trans hfab), hmem₂.trans (hmem₁.trans hmem)⟩

theorem windowWrite_dropped (s : State) (off : BitVec 23) (d : List Byte) (hlink : s.num Obj.hostLinkState = 2)
    (hserve : s.rst.serve ≠ .none) :
    (off.toNat % 4 ≠ 0 ∨ d.length % 4 ≠ 0 → Answers (exec (.windowWrite off d) s) fun u => Counted Obj.windowWritesDropped 1 s u ∧
      u.num Obj.hostFlags = s.num Obj.hostFlags ||| 0x10 ∧ ChangesOnly [Obj.windowWritesDropped, Obj.hostFlags] s u) ∧
    (off.toNat % 4 = 0 → d.length % 4 = 0 →
      (s.num Obj.owner ≠ 1 → Answers (exec (.windowWrite off d) s) fun u => u.num Obj.lastErrorCode = Err.notOwner ∧
        Counted Obj.windowWritesDropped 1 s u ∧ u.host = s.host ∧ u.cfg = s.cfg) ∧
      (s.num Obj.owner = 1 → s.windowFree = false ∨ s.blockHeld 0x20 = true → Answers (exec (.windowWrite off d) s) fun u =>
        u.num Obj.lastErrorCode = Err.refusedInState ∧ Counted Obj.windowWritesDropped 1 s u ∧ u.host = s.host ∧ u.cfg = s.cfg) ∧
      (∀ l, s.num Obj.owner = 1 → s.blockHeld 0x20 = false → s.cfg.load = some l → l.src = 3 → l.failed = false → s.host.discard = 0 →
        s.host.window = [] → s.loaderSt = 1 → l.raw.length + d.length ≤ 96 → d ≠ [] → Answers (exec (.windowWrite off d) s) fun u =>
          u.cfg.load = some { l with raw := l.raw ++ d } ∧ u.host.window = [] ∧ u.fab = s.fab ∧ u.mem = s.mem)) := by
  have hdoes := exec_windowWrite off d s
  rw [if_neg (by simp [hlink, hserve])] at hdoes
  refine ⟨fun hmis => ?_, fun hoff hlen => ?_⟩
  · rw [if_pos (by simpa using hmis)] at hdoes
    refine ⟨_, hdoes, ?_, ?_, ?_⟩
    · rw [Counted, State.num_flagged_ne _ _ (by decide) (by decide), State.num_bump_self]
    · rw [State.num_flagged _ _ (by decide), State.num_bump_ne _ _ _ _ (by decide)]
    · exact ((State.bump_changes _ _ _).mono (by simp)).trans ((State.setFlag_changes _ _ _).mono (by simp))
  · rw [if_neg (by simp [hoff, hlen])] at hdoes
    refine ⟨fun hown => ?_, fun hown hbusy => ?_, fun l hown hheld hl hsrc hfailed hdiscard hwindow hst hfits hd => ?_⟩
    · rw [if_pos hown] at hdoes
      exact ⟨_, hdoes, dropWindow_spec _ s⟩
    · rw [if_neg (not_not.2 hown), if_pos (by simpa using hbusy)] at hdoes
      exact ⟨_, hdoes, dropWindow_spec _ s⟩
    · have hfree : s.windowFree = true := by
        rw [State.windowFree, hl]
        exact decide_eq_true hsrc
      rw [if_neg (not_not.2 hown), if_neg (by simp [hfree, hheld])] at hdoes
      exact windowWrite_header hdoes hl hsrc hfailed hdiscard hwindow hst hfits hd

theorem windowWrite_taken (s : State) (off : BitVec 23) (d : List Byte) (hlink : s.num Obj.hostLinkState = 2)
    (hserve : s.rst.serve ≠ .none) (hoff : off.toNat % 4 = 0) (hlen : d.length % 4 = 0) (hown : s.num Obj.owner = 1)
    (hfree : s.windowFree = true) (hheld : s.blockHeld 0x20 = false) : exec (.windowWrite off d) s =
      .next ({ s with host := { s.host with window := s.host.window ++ d } }.pumpWindow) := by
  rw [exec_windowWrite, if_neg (by simp [hlink, hserve]), if_neg (by simp [hoff, hlen]), if_neg (not_not.2 hown),
    if_neg (by simp [hfree, hheld])]
  rfl

section Requests

variable {s : State} {q : Req} {val : List Byte}

theorem windowRestart_settled (hadm : Admitted q Obj.windowRestart val s) :
    ((∃ l, s.cfg.load = some l ∧ l.src = 3) → exec (.windowRestart q val) s =
      .next (Denied q Obj.windowRestart Err.refusedInState (Arrived q s))) ∧
    ((∀ l, s.cfg.load = some l → l.src ≠ 3) → exec (.windowRestart q val) s = .next (Replied q Obj.windowRestart
      { Arrived q s with host := { s.host with
        window := []
        discard := 0 } })) := by
  have hrow : (rowOf Obj.windowRestart).any (fun r => r.ty.fixed && r.acc = .wo) = true := by decide +kernel
  have hload : (Arrived q s).cfg.load = s.cfg.load := by rw [arrived_eq]
  have hhost : (Arrived q s).host = s.host := by rw [arrived_eq]
  obtain ⟨hok, herr⟩ := serveOwn_command hadm hrow writeWindowRestart
  refine ⟨fun ⟨l, hl, hsrc⟩ => congrArg Host.Outcome.next (herr _ (if_pos ?_)), fun h => congrArg Host.Outcome.next (hok _ ?_)⟩
  · rw [State.windowServed, hload, hl]
    exact decide_eq_true hsrc
  · have hserved : (Arrived q s).windowServed = false := by
      rw [State.windowServed, hload]
      cases hl : s.cfg.load with
      | none => rfl
      | some l => exact decide_eq_false (h l hl)
    rw [writeWindowRestart, hserved, ← hhost]
    rfl

/-! ## The autoload store (R371) -/

theorem writeAutoloadStore_eq (n : Nat) (s : State) : writeAutoloadStore (.num n) s =
    if s.cfg.storing.isSome then .error Err.refusedInState
    else .ok ((s.erase (autoSlot (n - 1)) 0x1800000).setCfg fun c =>
      { c with storing := some (n - 1, s.num Obj.autoloadSource, s.num Obj.autoloadLength) }) := rfl

theorem autoloadStore_settled (hadm : Admitted q Obj.autoloadStore val s) :
    (s.cfg.storing ≠ none → exec (.autoloadStore q val) s = .next (Denied q Obj.autoloadStore Err.refusedInState (Arrived q s))) ∧
    (s.cfg.storing = none → Carries q Obj.autoloadStore (exec (.autoloadStore q val) s) fun u =>
      u.cfg.storing = some (leNat val - 1, s.num Obj.autoloadSource, s.num Obj.autoloadLength) ∧ u.mem = s.mem ∧ u.obj = (Arrived q s).obj ∧
      (Memory.wf 0xFF s.store.flash = true → ∀ a, u.flashByte a =
        if autoSlot (leNat val - 1) ≤ a ∧ a < autoSlot (leNat val - 1) + 0x1800000 then 0xFF else s.flashByte a)) := by
  have hrow : (rowOf Obj.autoloadStore).any (fun r => r.ty.fixed && r.acc = .wo) = true := by decide +kernel
  have hdoes := writeAutoloadStore_eq (leNat val) (Arrived q s)
  have hstoring : (Arrived q s).cfg.storing = s.cfg.storing := by rw [arrived_eq]
  simp only [hstoring, arrived_num] at hdoes
  refine ⟨fun h => denies_command hadm hrow (hdoes.trans (if_pos (Option.isSome_iff_ne_none.2 h))), fun h => ?_⟩
  rw [if_neg (by simp [h])] at hdoes
  refine carries_command hadm hrow ⟨_, hdoes, rfl, ?_, rfl, fun hwf a => ?_⟩
  · exact (by rw [arrived_eq] : (Arrived q s).mem = s.mem)
  · have hflash : (Arrived q s).store.flash = s.store.flash := by rw [arrived_eq]
    rw [← flashByte_congr hflash]
    rw [← hflash] at hwf
    split
    case isTrue hin => exact State.flashByte_erase _ _ _ _ hin.1 hin.2
    case isFalse hout => exact flashByte_erase_out hwf (by omega)

end Requests

/-- Erased flash reads what is programmed to it. -/
theorem flashRead_program {a off n : Nat} {l : List Byte} {s : State} (hwf : Memory.wf 0xFF s.store.flash = true)
    (herased : ∀ j, j < l.length → s.flashByte (a + j) = 0xFF) (hn : off + n ≤ l.length) :
    (s.program a l).flashRead (a + off) n = slice l off n := by
  refine List.ext_getElem (by simp [State.flashRead, slice]; omega) fun i hi hi' => ?_
  have hin : i < n := by simpa [State.flashRead] using hi
  simp only [State.flashRead, List.getElem_map, List.getElem_range, slice, List.getElem_take, List.getElem_drop, Nat.add_assoc]
  exact State.flashByte_program a (off + i) l s hwf herased (by omega)

/-- What stands before a range that is programmed is read as it was. -/
theorem flashRead_program_out {a b n : Nat} {l : List Byte} {s : State} (hwf : Memory.wf 0xFF s.store.flash = true)
    (h : b + n ≤ a ∨ a + l.length ≤ b) : (s.program a l).flashRead b n = s.flashRead b n :=
  List.map_congr_left fun i hi => by
    have := List.mem_range.1 hi
    exact flashByte_program_out hwf (by omega)

/-- The header of a slot before its commit word. -/
def autoHead (n : Nat) (b : List Byte) : List Byte :=
  leBytes 4 0x4B19D2A6 ++ leBytes 4 n ++ leBytes 4 (crc32c b) ++ List.replicate 48 0

theorem autoHead_length (n : Nat) (b : List Byte) : (autoHead n b).length = 60 := by
  simp [autoHead, leBytes_length]

/-- The slot takes its bytes, its header and its commit word. -/
def State.storeAuto (i n : Nat) (b : List Byte) (s : State) : State :=
  ((s.program (autoSlot i + 64) b).program (autoSlot i) (autoHead n b)).program (autoSlot i + 60) (leBytes 4 recCommit)

/-- What the slot then reads. -/
theorem storeAuto_spec {i n : Nat} {b : List Byte} {s : State} (hb : b.length = n) (hn : n ≤ 0x1800000 - 64)
    (hwf : Memory.wf 0xFF s.store.flash = true)
    (herased : ∀ a, autoSlot i ≤ a → a < autoSlot i + 0x1800000 → s.flashByte a = 0xFF) :
    (∀ j (hj : j < b.length), (s.storeAuto i n b).flashByte (autoSlot i + 64 + j) = b[j]) ∧
    leNat ((s.storeAuto i n b).flashRead (autoSlot i) 4) = 0x4B19D2A6 ∧
    leNat ((s.storeAuto i n b).flashRead (autoSlot i + 60) 4) = 0xC3A50F96 := by
  have hwf₁ := State.program_wf (autoSlot i + 64) b s hwf
  have hwf₂ := State.program_wf (autoSlot i) (autoHead n b) _ hwf₁
  have hlen := autoHead_length n b
  have hcommit : (leBytes 4 recCommit).length = 4 := leBytes_length _ _
  have herased₁ (a : Nat) (ha : autoSlot i ≤ a) (ha' : a < autoSlot i + 64) : (s.program (autoSlot i + 64) b).flashByte a = 0xFF :=
    (flashByte_program_out hwf (.inl ha')).trans (herased a ha (by omega))
  have herased₂ (j : Nat) (hj : j < (leBytes 4 recCommit).length) :
      ((s.program (autoSlot i + 64) b).program (autoSlot i) (autoHead n b)).flashByte (autoSlot i + 60 + j) = 0xFF :=
    (flashByte_program_out hwf₁ (.inr (by omega))).trans (herased₁ _ (by omega) (by omega))
  refine ⟨fun j hj => ?_, ?_, ?_⟩
  · refine (flashByte_program_out hwf₂ (.inr (by omega))).trans ((flashByte_program_out hwf₁ (.inr (by omega))).trans ?_)
    exact State.flashByte_program _ _ _ _ hwf (fun j hj => herased _ (by omega) (by omega)) hj
  · refine (congrArg leNat ((flashRead_program_out hwf₂ (.inl (by omega))).trans (flashRead_program (off := 0) hwf₁
      (fun j hj => herased₁ _ (by omega) (by omega)) (by omega)))).trans ?_
    rw [slice, List.drop_zero, autoHead, List.append_assoc, List.append_assoc, List.take_left' (leBytes_length _ _)]
    decide
  · refine (congrArg leNat (flashRead_program (off := 0) hwf₂ herased₂ (by omega))).trans ?_
    decide

theorem exec_autoloadStoreDone {s : State} {i a n : Nat} (hstoring : s.cfg.storing = some (i, a, n)) :
    exec .autoloadStoreDone s = .next ((((s.bytesOrFree a n).2.storeAuto i n (s.bytesOrFree a n).1).setCfg fun c =>
      { c with storing := none }).setFlag Obj.configFlags 8) := by
  show execAutoloadStoreDone s = _
  rw [execAutoloadStoreDone, hstoring]
  rfl

theorem autoloadStoreDone_settled (s : State) (i a n : Nat) (hstoring : s.cfg.storing = some (i, a, n))
    (hn : n ≤ 0x1800000 - 64) (hwf : Memory.wf 0xFF s.store.flash = true)
    (hin : ∀ j, j < n → s.access (a + j) .ok = .ok ∧ ∃ c o, s.place (a + j) = .buffer c o ∨ s.place (a + j) = .gddr c o)
    (herased : ∀ b, autoSlot i ≤ b → b < autoSlot i + 0x1800000 → s.flashByte b = 0xFF) :
    Answers (exec .autoloadStoreDone s) fun u =>
      u.cfg.storing = none ∧ u.num Obj.configFlags = s.num Obj.configFlags ||| 8 ∧ u.mem = s.mem ∧
      (∀ j, j < n → u.flashByte (autoSlot i + 64 + j) = s.byte ((a + j) % 2 ^ 48)) ∧ leNat (u.flashRead (autoSlot i) 4) = 0x4B19D2A6 ∧
      leNat (u.flashRead (autoSlot i + 60) 4) = 0xC3A50F96 := by
  have hdoes := exec_autoloadStoreDone hstoring
  rw [bytesOrFree_there hin] at hdoes
  obtain ⟨hbytes, hhead, hcommit⟩ := storeAuto_spec (n := n) (b := (List.range n).map fun j => s.byte ((a + j) % 0x1000000000000))
    (by simp) hn hwf herased
  have hmem : (s.storeAuto i n ((List.range n).map fun j => s.byte ((a + j) % 0x1000000000000))).mem = s.mem := rfl
  have hnum : (s.storeAuto i n ((List.range n).map fun j => s.byte ((a + j) % 0x1000000000000))).num Obj.configFlags =
      s.num Obj.configFlags := rfl
  dsimp only at hdoes
  generalize s.storeAuto i n ((List.range n).map fun j => s.byte ((a + j) % 0x1000000000000)) = t at *
  have hflag := State.setFlag_changes Obj.configFlags 8 (t.setCfg fun c => { c with storing := none })
  have hflash : ((t.setCfg fun c => { c with storing := none }).setFlag Obj.configFlags 8).store.flash = t.store.flash :=
    congrArg StoreState.flash hflag.store
  refine ⟨_, hdoes, ?_, ?_, hflag.mem.trans hmem, fun j hj => ?_, ?_, ?_⟩
  · rw [hflag.1]
    rfl
  · rw [State.num_flagged _ _ (by decide)]
    exact congrArg (· ||| 8) hnum
  · rw [flashByte_congr hflash, hbytes j (by simpa using hj), List.getElem_map, List.getElem_range]
    rfl
  · rw [flashRead_congr hflash, hhead]
  · rw [flashRead_congr hflash, hcommit]

/-- Settles O44, source by source. -/
theorem loadSourcesBringBytes : Obligations.LoadSourcesBringBytes :=
  ⟨fun _ => rfl, spselRise_settled, slavePortData_ignored, fun _ _ _ => ⟨_, rfl, rfl⟩, slavePortData_busy_free, slavePortData_bit,
    fun _ _ _ h => if_pos (by simpa using h), windowWrite_taken, windowWrite_dropped, fun _ _ _ => windowRestart_settled,
    fun _ _ _ => autoloadStore_settled, autoloadStoreDone_settled⟩

end Sys2Proof.Machine

/-! PROOFS. The link layer and remote access: O51. -/

namespace Sys2Proof.Machine

/-! ## What a block and a header read as (R441, R449) -/

theorem leNat_leBytes_mod (n v : Nat) : leNat (leBytes n v) = v % 256 ^ n := by
  induction n generalizing v with
  | zero => simp [leBytes, leNat, Nat.mod_one]
  | succ n ih =>
    rw [leBytes, leNat, ih, Nat.pow_succ, Nat.mul_comm (256 ^ n), Nat.mod_mul, BitVec.toNat_ofNat]

/-- The bytes of a block before its check. -/
def blockHead (seq : Nat) (f : Flit) (isIdle resync : Bool) (creditVc credit : Nat) (ack : Option Nat) (nak : Bool) : List Byte :=
  leBytes 2 (seq + 4096 * f.vc + 16384 * b2n f.mcast + 32768 * b2n resync) ++ leBytes 2 (f.dest % 4096) ++
    leBytes 2 (f.source % 4096 + 4096 * b2n isIdle) ++ leBytes 1 (f.ttl % 128) ++ leBytes 1 (creditVc + 4 * credit) ++
    leBytes 2 (ack.getD 0 + 4096 * b2n ack.isSome + 8192 * b2n nak) ++ leBytes 2 0 ++ f.body

/-- An idle block carries no flit. -/
def idleFlit : Flit := ⟨0, false, 0, 0, 0, List.replicate 256 0⟩

section Block

variable (seq : Nat) (f : Flit) (i r : Bool) (cvc credit : Nat) (ack : Option Nat) (nak : Bool)

/-- A block is its head and its check. -/
def blockOf : List Byte :=
  blockHead seq f i r cvc credit ack nak ++ leBytes 4 (crc32c (blockHead seq f i r cvc credit ack nak))

theorem linkBlock_some : linkBlock seq (some f) r cvc credit ack nak = blockOf seq f false r cvc credit ack nak := rfl

theorem linkBlock_none : linkBlock seq none r cvc credit ack nak = blockOf seq idleFlit true r cvc credit ack nak := rfl

theorem field_blockOf_seq : field (blockOf seq f i r cvc credit ack nak) 0 2 =
    (seq + 4096 * f.vc + 16384 * b2n f.mcast + 32768 * b2n r) % 65536 := by
  simp only [blockOf, blockHead, List.append_assoc, field, slice]
  rw [List.drop_zero, List.take_left' (leBytes_length _ _), leNat_leBytes_mod]
  rfl

theorem field_blockOf_dest : field (blockOf seq f i r cvc credit ack nak) 2 2 = f.dest % 4096 := by
  simp only [blockOf, blockHead, List.append_assoc, field, slice, drop_append_of_length (leBytes_length _ _), Nat.reduceLeDiff,
    Nat.reduceSub]
  rw [List.drop_zero, List.take_left' (leBytes_length _ _), leNat_leBytes_mod]
  omega

theorem field_blockOf_source : field (blockOf seq f i r cvc credit ack nak) 4 2 = f.source % 4096 + 4096 * b2n i := by
  simp only [blockOf, blockHead, List.append_assoc, field, slice, drop_append_of_length (leBytes_length _ _), Nat.reduceLeDiff,
    Nat.reduceSub]
  rw [List.drop_zero, List.take_left' (leBytes_length _ _), leNat_leBytes_mod]
  have hi : b2n i ≤ 1 := by cases i <;> decide
  omega

theorem field_blockOf_ttl : field (blockOf seq f i r cvc credit ack nak) 6 1 = f.ttl % 128 := by
  simp only [blockOf, blockHead, List.append_assoc, field, slice, drop_append_of_length (leBytes_length _ _), Nat.reduceLeDiff,
    Nat.reduceSub]
  rw [List.drop_zero, List.take_left' (leBytes_length _ _), leNat_leBytes_mod]
  omega

theorem field_blockOf_credit : field (blockOf seq f i r cvc credit ack nak) 7 1 = (cvc + 4 * credit) % 256 := by
  simp only [blockOf, blockHead, List.append_assoc, field, slice, drop_append_of_length (leBytes_length _ _), Nat.reduceLeDiff,
    Nat.reduceSub]
  rw [List.drop_zero, List.take_left' (leBytes_length _ _), leNat_leBytes_mod]
  rfl

theorem field_blockOf_ack : field (blockOf seq f i r cvc credit ack nak) 8 2 =
    (ack.getD 0 + 4096 * b2n ack.isSome + 8192 * b2n nak) % 65536 := by
  simp only [blockOf, blockHead, List.append_assoc, field, slice, drop_append_of_length (leBytes_length _ _), Nat.reduceLeDiff,
    Nat.reduceSub]
  rw [List.drop_zero, List.take_left' (leBytes_length _ _), leNat_leBytes_mod]
  rfl

theorem slice_blockOf_body (hbody : f.body.length = 256) : slice (blockOf seq f i r cvc credit ack nak) 12 256 = f.body := by
  simp only [blockOf, blockHead, List.append_assoc, slice, drop_append_of_length (leBytes_length _ _), Nat.reduceLeDiff,
    Nat.reduceSub]
  rw [List.drop_zero, List.take_left' hbody]

theorem blockHead_length (hbody : f.body.length = 256) : (blockHead seq f i r cvc credit ack nak).length = 268 := by
  simp only [blockHead, List.length_append, leBytes_length, hbody]

/-- The check of a block as its sender forms it is good. -/
theorem crc_blockOf (hbody : f.body.length = 256) : crc32c ((blockOf seq f i r cvc credit ack nak).take 268) =
    field (blockOf seq f i r cvc credit ack nak) 268 4 := by
  have hlen := blockHead_length seq f i r cvc credit ack nak hbody
  have hcrc : crc32c (blockHead seq f i r cvc credit ack nak) < 256 ^ 4 := BitVec.isLt _
  rw [blockOf, List.take_left' hlen, field, slice, List.drop_left' hlen, List.take_of_length_le (leBytes_length _ _).le,
    leNat_leBytes _ _ hcrc]

end Block

section Header

variable (op len tag st a : Nat)

theorem field_vc0Header_op : field (vc0Header op len tag st a) 0 1 = op % 256 := by
  simp only [vc0Header, List.append_assoc, field, slice]
  rw [List.drop_zero, List.take_left' (leBytes_length _ _), leNat_leBytes_mod]
  rfl

theorem field_vc0Header_len : field (vc0Header op len tag st a) 1 1 = len % 256 := by
  simp only [vc0Header, List.append_assoc, field, slice, drop_append_of_length (leBytes_length _ _), Nat.reduceLeDiff, Nat.reduceSub]
  rw [List.drop_zero, List.take_left' (leBytes_length _ _), leNat_leBytes_mod]
  rfl

theorem field_vc0Header_tag : field (vc0Header op len tag st a) 2 2 = tag % 65536 := by
  simp only [vc0Header, List.append_assoc, field, slice, drop_append_of_length (leBytes_length _ _), Nat.reduceLeDiff, Nat.reduceSub]
  rw [List.drop_zero, List.take_left' (leBytes_length _ _), leNat_leBytes_mod]
  rfl

theorem field_vc0Header_addr (ha : a < 2 ^ 48) : field (vc0Header op len tag st a) 8 8 % 2 ^ 48 = a := by
  simp only [vc0Header, List.append_assoc, field, slice, drop_append_of_length (leBytes_length _ _), Nat.reduceLeDiff, Nat.reduceSub]
  rw [List.drop_zero, List.take_of_length_le (leBytes_length _ _).le, leNat_leBytes_mod]
  omega

end Header

/-! ## LINK_BLOCK_RECEIVE (R441–R443) -/

theorem linkBlockReceive_bad (s : State) (t : Nat) (p : Fin 16) (l : List Byte) (b : Bool) (hst : s.portSt p = Port.up)
    (hbad : b = true ∨ crc32c (l.take 268) ≠ field l 268 4) : Answers (exec (.linkBlockReceive t p l b) s) fun u =>
      CountedIf (!b) (Obj.flitCrcErrors + p) s u ∧ u.port p = (s.port p).reject ∧ u.net.inbox = s.net.inbox ∧
      u = { s with
        now := max s.now t
        obj := u.obj
        net := u.net } ∧ KeepsObjects [Obj.flitCrcErrors + p] s u := by
  have hdoes : exec (.linkBlockReceive t p l b) s = .next
      ((if (decide (crc32c (l.take 268) ≠ field l 268 4) && !b) = true then (s.upto t).bump (Obj.flitCrcErrors + p) 1
        else s.upto t).setPort p (s.port p).reject) := by
    show execLinkBlockReceive t p l b s = _
    rw [execLinkBlockReceive, if_neg (not_not.2 hst)]
    dsimp only
    rw [if_pos (by simpa using hbad)]
    rfl
  cases b with
  | true =>
    rw [Bool.not_true, Bool.and_false, if_neg (by decide)] at hdoes
    exact ⟨_, hdoes, rfl, State.port_setPort _ _ _, rfl, rfl, fun _ _ _ => rfl⟩
  | false =>
    rw [Bool.not_false, Bool.and_true, if_pos (by simpa using hbad)] at hdoes
    exact ⟨_, hdoes, State.num_bump_self _ _ _, State.port_setPort _ _ _, rfl, rfl,
      KeepsObjects.setVal List.mem_cons_self _ s⟩

section Receive

variable {s : State} (t : Nat) {p : Fin 16} {f : Flit} {seq cvc credit : Nat}

/-- The port as a block's credits leave it. -/
def PeerPort.credited (q : PeerPort) (cvc credit : Nat) : PeerPort :=
  { q with credits := setAt q.credits cvc (q.credits.getD cvc 0 + credit), rxSync := false }

/-- The port as an accepted flit of channel 0 leaves it. -/
def PeerPort.accepted (q : PeerPort) (seq : Nat) : PeerPort :=
  { q with
    rxNext := (seq + 1) % 4096
    rxFresh := false
    nakSent := false
    nakDue := false
    give := setAt q.give 0 (q.give.getD 0 0 + 1) }

/-- What a good block with a flit of channel 0, and neither acknowledgement nor NAK, does. -/
theorem exec_linkBlockReceive (hst : s.portSt p = Port.up) (hvc : f.vc = 0) (hmc : f.mcast = false) (hdest : f.dest < 4096)
    (hsrc : f.source < 4096) (httl : f.ttl < 128) (hbody : f.body.length = 256) (hseq : seq < 4096) (hcvc : cvc < 4)
    (hcredit : credit < 64) (hfresh : (s.port p).rxFresh = false) :
    let q := (s.port p).credited cvc credit
    exec (.linkBlockReceive t p (linkBlock seq (some f) false cvc credit none false) false) s = .next
      (if seq = q.rxNext then (((s.upto t).setPort p (q.accepted seq)).bump (Obj.flitsReceived + p) 1).route p f
       else if seqDist seq q.rxNext ≤ 2048 then (s.upto t).setPort p q
       else (s.upto t).setPort p q.reject) := by
  have hw : field (linkBlock seq (some f) false cvc credit none false) 0 2 = seq := by
    rw [linkBlock_some, field_blockOf_seq, hvc, hmc]
    simp only [b2n, Bool.false_eq_true, if_false]
    omega
  have hack : field (linkBlock seq (some f) false cvc credit none false) 8 2 = 0 := by
    rw [linkBlock_some, field_blockOf_ack]
    rfl
  have hcred : field (linkBlock seq (some f) false cvc credit none false) 7 1 = cvc + 4 * credit := by
    rw [linkBlock_some, field_blockOf_credit]
    omega
  have hsource : field (linkBlock seq (some f) false cvc credit none false) 4 2 = f.source := by
    rw [linkBlock_some, field_blockOf_source]
    simp only [b2n, Bool.false_eq_true, if_false]
    omega
  have hto : field (linkBlock seq (some f) false cvc credit none false) 2 2 = f.dest := by
    rw [linkBlock_some, field_blockOf_dest]
    omega
  have hlife : field (linkBlock seq (some f) false cvc credit none false) 6 1 = f.ttl := by
    rw [linkBlock_some, field_blockOf_ttl]
    omega
  have hslice : slice (linkBlock seq (some f) false cvc credit none false) 12 256 = f.body := by
    rw [linkBlock_some, slice_blockOf_body _ _ _ _ _ _ _ _ hbody]
  have hcrc : crc32c ((linkBlock seq (some f) false cvc credit none false).take 268) =
      field (linkBlock seq (some f) false cvc credit none false) 268 4 := by
    rw [linkBlock_some, crc_blockOf _ _ _ _ _ _ _ _ hbody]
  generalize linkBlock seq (some f) false cvc credit none false = block at *
  have hflit : (⟨0, false, f.dest, f.source, f.ttl, f.body⟩ : Flit) = f := by rw [← hvc, ← hmc]
  have hvcs : bits seq 12 2 = 0 := by
    rw [bits, Nat.div_eq_of_lt (by omega), Nat.zero_mod]
  have hsync : seq.testBit 15 = false := Nat.testBit_lt_two_pow (by omega)
  have hmulti : seq.testBit 14 = false := Nat.testBit_lt_two_pow (by omega)
  have hidle : f.source.testBit 12 = false := Nat.testBit_lt_two_pow (by omega)
  have hport : (s.upto t).port p = s.port p := rfl
  show execLinkBlockReceive t p block false s = _
  rw [execLinkBlockReceive, if_neg (not_not.2 hst)]
  dsimp only
  rw [if_neg (by simp [hcrc])]
  simp only [hw, hack, hcred, hsource, hto, hlife, hslice, hvcs, hsync, hmulti, hidle, hport, hfresh, Nat.zero_testBit,
    Nat.mod_eq_of_lt hseq, Nat.mod_eq_of_lt hdest, Nat.mod_eq_of_lt hsrc, Nat.mod_eq_of_lt httl,
    show (cvc + 4 * credit) % 4 = cvc by omega, show (cvc + 4 * credit) / 4 = credit by omega, Bool.false_eq_true, if_false,
    Bool.false_and, Bool.or_self, hflit]
  have hcredited : (s.port p).credited cvc credit = { s.port p with
      credits := setAt (s.port p).credits cvc ((s.port p).credits.getD cvc 0 + credit)
      rxSync := false
      rxFresh := false } := by simp [PeerPort.credited, hfresh]
  rw [hcredited]
  split
  · rfl
  · split <;> rfl

theorem linkBlockReceive_good (hst : s.portSt p = Port.up) (hvc : f.vc = 0) (hmc : f.mcast = false) (hdest : f.dest = s.device)
    (hsrc : f.source < 4096) (httl : f.ttl < 128) (hbody : f.body.length = 256) (hseq : seq < 4096) (hcvc : cvc < 4)
    (hcredit : credit < 64) (hfresh : (s.port p).rxFresh = false) (hdev : s.device < 4096) :
    let block := linkBlock seq (some f) false cvc credit none false
    let q := s.port p
    (seq = q.rxNext → Answers (exec (.linkBlockReceive t p block false) s) fun u =>
      u.net.inbox = s.net.inbox ++ [(f.source, f.body)] ∧ Counted (Obj.flitsReceived + p) 1 s u ∧ u.port p = { q with
        credits := setAt q.credits cvc (q.credits.getD cvc 0 + credit)
        rxSync := false
        rxNext := (seq + 1) % 4096
        nakSent := false
        nakDue := false
        give := setAt q.give 0 (q.give.getD 0 0 + 1) } ∧ KeepsObjects [Obj.flitsReceived + p] s u ∧ u.mem = s.mem) ∧
    (seq ≠ q.rxNext → Answers (exec (.linkBlockReceive t p block false) s) fun u => u.net.inbox = s.net.inbox ∧ u.obj = s.obj ∧
      (u.port p).rxNext = q.rxNext ∧ (u.port p).nakDue = (q.nakDue || (!q.nakSent && decide (2048 < seqDist seq q.rxNext)))) := by
  have hdoes := exec_linkBlockReceive t hst hvc hmc (hdest ▸ hdev) hsrc httl hbody hseq hcvc hcredit hfresh
  dsimp only at hdoes ⊢
  refine ⟨fun h => ?_, fun h => ?_⟩
  · rw [if_pos (by exact h)] at hdoes
    let w := ((s.upto t).setPort p (((s.port p).credited cvc credit).accepted seq)).bump (Obj.flitsReceived + p) 1
    have hdev' : w.device = s.device := State.num_bump_ne _ _ _ _ (by
      have := p.isLt
      simp only [Obj.deviceNumberInForce, Obj.flitsReceived, ne_eq]
      omega)
    have hroute : w.route p f = { w with net := { w.net with inbox := w.net.inbox ++ [(f.source, f.body)] } } := by
      rw [State.route, if_neg (by simp [hmc]), if_pos (by rw [hdev', hdest]), State.deliver, if_pos hvc]
    have hport : w.port p = ((s.port p).credited cvc credit).accepted seq := State.port_setPort _ _ (s.upto t)
    refine ⟨_, hdoes.trans (congrArg _ hroute), rfl, State.num_bump_self _ _ (s.upto t), hport.trans ?_,
      KeepsObjects.setVal List.mem_cons_self _ s, rfl⟩
    simp [PeerPort.accepted, PeerPort.credited, hfresh]
  · rw [if_neg (by exact h)] at hdoes
    split at hdoes
    case isTrue hnear =>
      refine ⟨_, hdoes, rfl, rfl, by rw [State.port_setPort]; rfl, ?_⟩
      have hdec : decide (2048 < seqDist seq (s.port p).rxNext) = false := decide_eq_false (Nat.not_lt.2 hnear)
      rw [State.port_setPort, hdec, Bool.and_false, Bool.or_false]
      rfl
    case isFalse hfar =>
      have hdec : decide (2048 < seqDist seq (s.port p).rxNext) = true := decide_eq_true (Nat.lt_of_not_le hfar)
      refine ⟨_, hdoes, rfl, rfl, ?_, ?_⟩ <;> rw [State.port_setPort, PeerPort.reject] <;>
        cases hsent : ((s.port p).credited cvc credit).nakSent
      · rfl
      · rfl
      · have hsent' : (s.port p).nakSent = false := hsent
        simp [hdec, hsent']
      · have hsent' : (s.port p).nakSent = true := hsent
        rw [hsent', Bool.not_true, Bool.false_and, Bool.or_false]
        rfl

end Receive

/-! ## What sending a block does to its lanes (R430–R434) -/

/-- Only symbols go out, and the port's line coding goes on. -/
def SendsSymbols (s u : State) : Prop :=
  u = { s with
    out := u.out
    net := { s.net with lines := u.net.lines } } ∧
    ∃ o, u.out = o ++ s.out ∧ ∀ x ∈ o, ∃ k y, x = Out.symbols k y

theorem SendsSymbols.refl (s : State) : SendsSymbols s s := ⟨rfl, [], rfl, fun _ h => absurd h List.not_mem_nil⟩

theorem SendsSymbols.trans {s t u : State} (h₁ : SendsSymbols s t) (h₂ : SendsSymbols t u) : SendsSymbols s u := by
  obtain ⟨ht, o, ho, hsym⟩ := h₁
  obtain ⟨hu, o', ho', hsym'⟩ := h₂
  refine ⟨hu.trans ?_, o' ++ o, by rw [ho', ho, List.append_assoc], fun x hx => (List.mem_append.1 hx).elim (hsym' x) (hsym x)⟩
  rw [ht]

theorem SendsSymbols.foldl {α : Type} {f : State → α → State} (hf : ∀ s a, SendsSymbols s (f s a)) (L : List α) (s : State) :
    SendsSymbols s (L.foldl f s) := by
  induction L generalizing s with
  | nil => exact SendsSymbols.refl s
  | cons a L ih => exact (hf s a).trans (ih _)

theorem setLine_sends (p : Nat) (l : LineS) (s : State) : SendsSymbols s (s.setLine p l) :=
  ⟨rfl, [], rfl, fun _ h => absurd h List.not_mem_nil⟩

theorem sendLane_sends (p k : Nat) (b : List Bool) (s : State) : SendsSymbols s (s.sendLane p k b) :=
  ⟨rfl, [_], rfl, fun _ h => ⟨_, _, List.mem_singleton.1 h⟩⟩

theorem sendCodeword_sends (p : Nat) (d : List (BitVec 10)) (s : State) : SendsSymbols s (s.sendCodeword p d) := by
  unfold State.sendCodeword
  refine (setLine_sends p _ s).trans (SendsSymbols.foldl (fun t k => ?_) _ _)
  dsimp only
  split
  · exact (sendLane_sends _ _ _ t).trans (sendLane_sends _ _ _ _)
  · exact sendLane_sends _ _ _ t

theorem sendLine_sends (p : Nat) (b : List Byte) (s : State) : SendsSymbols s (s.sendLine p b) := by
  unfold State.sendLine
  dsimp only
  split
  · exact (setLine_sends _ _ s).trans (sendCodeword_sends _ _ _)
  · exact setLine_sends _ _ s

/-! ## LINK_BLOCK_SEND (R441–R443) -/

/-- The channel whose credits the next block returns. -/
def PeerPort.creditVc (q : PeerPort) : Nat := ((List.range 4).find? fun v => q.give.getD v 0 ≠ 0).getD 0

/-- The acknowledgement of the next block. -/
def PeerPort.ackNow (q : PeerPort) : Option Nat := if q.rxFresh then none else some ((q.rxNext + 4095) % 4096)

/-- The port once a block has taken its credits and its NAK. -/
def PeerPort.blockSent (q : PeerPort) : PeerPort :=
  { q with
    give := setAt q.give q.creditVc (q.give.getD q.creditVc 0 - min (q.give.getD q.creditVc 0) 63)
    nakDue := q.nakDue && !(q.nakDue && q.ackNow.isSome)
    sinceVc2 := min (q.sinceVc2 + 1) 16 }

/-- The block that carries a flit or none. -/
def PeerPort.blockWith (q : PeerPort) (seq : Nat) (f : Option Flit) : List Byte :=
  linkBlock seq f q.txFresh q.creditVc (min (q.give.getD q.creditVc 0) 63) q.ackNow (q.nakDue && q.ackNow.isSome)

/-- The port once a waiting flit has gone out on a channel. -/
def PeerPort.flitSent (q : PeerPort) (vc : Nat) (e : Nat × Flit) : PeerPort :=
  let n := q.blockSent
  { n with
    queue := dropFirst e n.queue
    retry := n.retry ++ [(q.txSeq, e.2)]
    txSeq := (q.txSeq + 1) % 4096
    credits := setAt n.credits vc (n.credits.getD vc 0 - 1)
    turn := setAt n.turn vc e.1
    lastData := if vc = 0 || vc = 3 then vc else n.lastData
    sinceVc2 := if vc = 2 then 0 else n.sinceVc2 }

/-- A block goes out. -/
def State.outBlock (p : Nat) (b : List Byte) (s : State) : State := (s.emit (.block p b)).sendLine p b

theorem outBlock_spec (p : Nat) (b : List Byte) (s : State) :
    s.outBlock p b = { s with
      out := (s.outBlock p b).out
      net := { s.net with lines := (s.outBlock p b).net.lines } } ∧
    ∃ o, (s.outBlock p b).out = o ++ Out.block p b :: s.out ∧ ∀ x ∈ o, ∃ k y, x = Out.symbols k y :=
  sendLine_sends p b (s.emit (.block p b))

theorem outBlock_port (p r : Nat) (b : List Byte) (s : State) : (s.outBlock p b).port r = s.port r := by
  rw [(outBlock_spec p b s).1]
  rfl

section Send

variable {s : State} {p : Fin 16}

theorem exec_linkBlockSend (hst : s.portSt p = Port.up) : let q := s.port p
    (∀ n r, q.resend = n :: r → exec (.linkBlockSend p) s = .next ((((s.setPort p { q.blockSent with resend := r }).bump
      (Obj.flitReplays + p) 1).bump (Obj.flitsSent + p) 1).outBlock p (q.blockWith n ((q.retry.find? fun e => e.1 = n).map (·.2))))) ∧
    (q.resend = [] → 512 ≤ q.retry.length ∨ q.channel = none → exec (.linkBlockSend p) s = .next
      ((s.setPort p q.blockSent).outBlock p (q.blockWith q.txSeq none))) ∧
    (∀ vc e, q.resend = [] → q.retry.length < 512 → q.channel = some vc → q.pick vc = some e → exec (.linkBlockSend p) s = .next
      (((s.setPort p (q.flitSent vc e)).bump (Obj.flitsSent + p) 1).outBlock p (q.blockWith q.txSeq (some e.2)))) := by
  have hdoes : exec (.linkBlockSend p) s = execLinkBlockSend p s := rfl
  rw [execLinkBlockSend, if_neg (not_not.2 hst)] at hdoes
  refine ⟨fun n r h => hdoes.trans ?_, fun h hidle => hdoes.trans ?_, fun vc e h hroom hch hpick => hdoes.trans ?_⟩
  · dsimp only
    rw [h]
    rfl
  · dsimp only
    split
    case h_1 n r h' => exact absurd (h.symm.trans h') (List.cons_ne_nil n r).symm
    case h_2 =>
      by_cases hfull : 512 ≤ (s.port p).retry.length
      · rw [if_pos hfull]
        rfl
      · rw [if_neg hfull, hidle.resolve_left hfull]
        rfl
  · dsimp only
    split
    case h_1 n r h' => exact absurd (h.symm.trans h') (List.cons_ne_nil n r).symm
    case h_2 =>
      rw [if_neg (Nat.not_le.2 hroom), hch]
      dsimp only
      rw [hpick]
      rfl

theorem seq_blockWith (q : PeerPort) (seq : Nat) (f : Option Flit) : field (q.blockWith seq f) 0 2 % 4096 = seq % 4096 := by
  cases f with
  | none => rw [PeerPort.blockWith, linkBlock_none, field_blockOf_seq]; omega
  | some f => rw [PeerPort.blockWith, linkBlock_some, field_blockOf_seq]; omega

/-- One flit that waits on a channel with a credit is the next to go. -/
theorem channel_single {q : PeerPort} {inp : Nat} {f : Flit} (hq : q.queue = [(inp, f)]) (hvc : f.vc < 4)
    (hcredit : 0 < q.credits.getD f.vc 0) : q.channel = some f.vc := by
  have hwaits (vc : Nat) : (q.queue.any fun e => e.2.vc = vc) = decide (f.vc = vc) := by simp [hq]
  unfold PeerPort.channel
  simp only [hwaits]
  obtain h | h | h | h : f.vc = 0 ∨ f.vc = 1 ∨ f.vc = 2 ∨ f.vc = 3 := by omega
  all_goals rw [h] at hcredit
  · by_cases hlast : q.lastData = 3 <;> simp [h, hcredit, hlast, -List.getD_eq_getElem?_getD]
  · simp [h, hcredit, -List.getD_eq_getElem?_getD]
  · simp [h, hcredit, -List.getD_eq_getElem?_getD]
  · by_cases hlast : q.lastData = 3 <;> simp [h, hcredit, hlast, -List.getD_eq_getElem?_getD]

/-- The inputs' turn comes to the one that holds a flit. -/
theorem pick_single {q : PeerPort} {inp : Nat} {f : Flit} (hq : q.queue = [(inp, f)]) (hinp : inp < 17) :
    q.pick f.vc = some (inp, f) := by
  have hmem : inp ∈ (List.range 17).map fun i => (q.turn.getD f.vc 16 + 1 + i) % 17 := by
    refine List.mem_map.2 ⟨(inp + 17 * 17 - (q.turn.getD f.vc 16 + 1) % 17) % 17, List.mem_range.2 (Nat.mod_lt _ (by decide)), ?_⟩
    omega
  unfold PeerPort.pick
  dsimp only
  rw [hq]
  generalize (List.range 17).map (fun i => (q.turn.getD f.vc 16 + 1 + i) % 17) = order at hmem
  induction order with
  | nil => cases hmem
  | cons i order ih =>
    by_cases hi : inp = i
    · simp [hi]
    · have hrest := ih ((List.mem_cons.1 hmem).resolve_left hi)
      rw [List.findSome?_cons]
      simpa [hi] using hrest

theorem linkBlockSend_settled (s : State) (p : Fin 16) (hst : s.portSt p = Port.up) : let q := s.port p
    (∀ inp f, q.resend = [] → q.queue = [(inp, f)] → inp < 17 → f.vc < 4 → 0 < q.credits.getD f.vc 0 → q.retry.length < 512 →
      Answers (exec (.linkBlockSend p) s) fun u => Counted (Obj.flitsSent + p) 1 s u ∧ (u.port p).queue = [] ∧
        (u.port p).retry = q.retry ++ [(q.txSeq, f)] ∧ (u.port p).txSeq = (q.txSeq + 1) % 4096 ∧
        (u.port p).credits = setAt q.credits f.vc (q.credits.getD f.vc 0 - 1) ∧
        (∃ b o, u.out = o ++ .block p b :: s.out ∧ (∀ x ∈ o, ∃ k y, x = .symbols k y) ∧ field b 0 2 % 4096 = q.txSeq % 4096 ∧
          (f.body.length = 256 → slice b 12 256 = f.body)) ∧
        KeepsObjects [Obj.flitsSent + p] s u ∧ u.mem = s.mem) ∧
    (∀ n r, q.resend = n :: r → Answers (exec (.linkBlockSend p) s) fun u => Counted (Obj.flitReplays + p) 1 s u ∧
      Counted (Obj.flitsSent + p) 1 s u ∧ (u.port p).resend = r ∧ (u.port p).queue = q.queue ∧ (u.port p).retry = q.retry ∧
      (u.port p).txSeq = q.txSeq ∧ KeepsObjects [Obj.flitReplays + p, Obj.flitsSent + p] s u) ∧
    (q.resend = [] → q.queue = [] → Answers (exec (.linkBlockSend p) s) fun u => u.obj = s.obj ∧ (u.port p).retry = q.retry ∧
      (u.port p).txSeq = q.txSeq ∧ ∃ b o, u.out = o ++ .block p b :: s.out ∧ (∀ x ∈ o, ∃ k y, x = .symbols k y) ∧
        (field b 4 2).testBit 12 = true) := by
  obtain ⟨hresend, hidle, hflit⟩ := exec_linkBlockSend hst
  refine ⟨fun inp f hre hq hinp hvc hcredit hroom => ?_, fun n r hre => ?_, fun hre hq => ?_⟩
  · have hdoes := hflit f.vc (inp, f) hre hroom (channel_single hq hvc hcredit) (pick_single hq hinp)
    let w := (s.setPort p ((s.port p).flitSent f.vc (inp, f))).bump (Obj.flitsSent + p) 1
    obtain ⟨hframe, o, hout, hsym⟩ := outBlock_spec p ((s.port p).blockWith (s.port p).txSeq (some f)) w
    have hport : (w.outBlock p ((s.port p).blockWith (s.port p).txSeq (some f))).port p = (s.port p).flitSent f.vc (inp, f) :=
      (outBlock_port p p _ w).trans (State.port_setPort _ _ _)
    have hobj : (w.outBlock p ((s.port p).blockWith (s.port p).txSeq (some f))).obj = w.obj := by rw [hframe]
    have hmem : (w.outBlock p ((s.port p).blockWith (s.port p).txSeq (some f))).mem = s.mem := by rw [hframe]; rfl
    have hqueue : ((s.port p).flitSent f.vc (inp, f)).queue = [] := by
      show dropFirst (inp, f) (s.port p).queue = []
      rw [hq]
      exact if_pos rfl
    refine ⟨_, hdoes, ?_, by rw [hport, hqueue], by rw [hport]; rfl, by rw [hport]; rfl, by rw [hport]; rfl,
      ⟨_, o, hout, hsym, seq_blockWith _ _ _, fun hbody => slice_blockOf_body _ _ _ _ _ _ _ _ hbody⟩, ?_, hmem⟩
    · exact (State.num_congr hobj _).trans (State.num_bump_self _ _ _)
    · exact (KeepsObjects.setVal List.mem_cons_self _ s).trans (KeepsObjects.of_obj hobj)
  · have hdoes := hresend n r hre
    generalize (s.port p).blockWith n (((s.port p).retry.find? fun e => e.1 = n).map (·.2)) = b at hdoes
    let w := ((s.setPort p { (s.port p).blockSent with resend := r }).bump (Obj.flitReplays + p) 1).bump (Obj.flitsSent + p) 1
    have hobj : (w.outBlock p b).obj = w.obj := by rw [(outBlock_spec p b w).1]
    have hport : (w.outBlock p b).port p = { (s.port p).blockSent with resend := r } :=
      (outBlock_port p p _ w).trans (State.port_setPort _ _ _)
    have hne : Obj.flitReplays + p.val ≠ Obj.flitsSent + p.val := by simp [Obj.flitReplays, Obj.flitsSent]
    refine ⟨_, hdoes, ?_, ?_, by rw [hport], by rw [hport]; rfl, by rw [hport]; rfl, by rw [hport]; rfl, ?_⟩
    · refine (State.num_congr hobj _).trans ((State.num_bump_ne _ _ _ _ hne).trans ?_)
      exact State.num_bump_self _ _ _
    · refine (State.num_congr hobj _).trans ((State.num_bump_self _ _ _).trans ?_)
      rw [State.num_bump_ne _ _ _ _ hne.symm]
      rfl
    · exact ((KeepsObjects.setVal (by simp) _ s).trans (KeepsObjects.setVal (by simp) _ _)).trans (KeepsObjects.of_obj hobj)
  · have hchannel : (s.port p).channel = none := by simp [PeerPort.channel, hq]
    have hdoes := hidle hre (.inr hchannel)
    obtain ⟨hframe, o, hout, hsym⟩ := outBlock_spec p ((s.port p).blockWith (s.port p).txSeq none) (s.setPort p (s.port p).blockSent)
    have hport := (outBlock_port p p ((s.port p).blockWith (s.port p).txSeq none) (s.setPort p (s.port p).blockSent)).trans
      (State.port_setPort _ _ _)
    refine ⟨_, hdoes, by rw [hframe]; rfl, by rw [hport]; rfl, by rw [hport]; rfl, _, o, hout, hsym, ?_⟩
    rw [PeerPort.blockWith, linkBlock_none, field_blockOf_source]
    decide

end Send

/-! ## NAK and REPLAY_TIMEOUT (R442) -/

theorem acked_miss {q : PeerPort} {n : Nat} (h : q.retry.all (·.1 ≠ n) = true) : (q.acked n).retry = q.retry := by
  have hmine : q.retry.any (·.1 = n) = false := by
    rw [List.any_eq_false]
    intro e he
    simpa using List.all_eq_true.1 h e he
  simp only [PeerPort.acked, hmine, Bool.false_and, Bool.not_false, List.filter_true]

theorem acked_first {q : PeerPort} {a : Nat × Flit} {r : List (Nat × Flit)} (hq : q.retry = a :: r) (ha : a.1 < 4096)
    (hr : ∀ e ∈ r, e.1 ≠ a.1 ∧ e.1 < 4096) : (q.acked a.1).retry = r := by
  have hself : seqDist a.1 a.1 = 0 := by
    rw [seqDist]
    omega
  have hcovers (x : Nat) (hx : x < 4096) (hne : x ≠ a.1) : ¬ seqDist a.1 x ≤ seqDist a.1 a.1 := by
    rw [hself, seqDist]
    omega
  have hmine : (a :: r).any (·.1 = a.1) = true := by simp
  simp only [PeerPort.acked, hq, hmine, List.head?_cons, Option.map_some, Option.getD_some, Bool.true_and]
  rw [List.filter_cons, if_neg (by simp), List.filter_eq_self]
  intro e he
  obtain ⟨hne, hlt⟩ := hr e he
  simpa using hcovers e.1 hlt hne

theorem nak_settled (s : State) (p : Fin 16) (n : BitVec 12) : let q := s.port p
    Answers (exec (.nak p n) s) fun u => (u.port p).resend = (u.port p).retry.map (·.1) ∧ u = { s with net := u.net } ∧
      (q.retry.all (·.1 ≠ n.toNat) = true → (u.port p).retry = q.retry) ∧
      (∀ a r, q.retry = a :: r → a.1 = n.toNat → a.1 < 4096 → (∀ e ∈ r, e.1 ≠ a.1 ∧ e.1 < 4096) → (u.port p).retry = r) := by
  have hport : (s.setPort p ((s.port p).acked n.toNat).resendAll).port p = ((s.port p).acked n.toNat).resendAll :=
    State.port_setPort _ _ _
  refine ⟨_, rfl, by rw [hport]; rfl, rfl, fun h => ?_, fun a r hq ha hlt hr => ?_⟩
  · rw [hport]
    exact acked_miss h
  · rw [hport, ← ha]
    exact acked_first hq hlt hr

theorem replayTimeout_settled (s : State) (p : Fin 16) : exec (.replayTimeout p) s =
    .next (if (s.port p).retry = [] then s else s.setPort p { s.port p with resend := (s.port p).retry.map (·.1) }) := by
  show execReplayTimeout p s = _
  rw [execReplayTimeout]
  dsimp only
  by_cases h : (s.port p).retry = []
  · rw [if_pos h, if_pos (by rw [h]; rfl)]
  · rw [if_neg h, if_neg (by simpa using h)]
    rfl

/-! ## Remote requests (R40, R449) -/

/-- A message that stands first from its source, and what stands behind it. -/
theorem vc0From_cons {s : State} {src : Nat} {h : List Byte} {rest : List (Nat × List Byte)} (hin : s.net.inbox = (src, h) :: rest) :
    ∃ d, s.vc0From src = (some h, d) ∧ (∀ x r, rest = (src, x) :: r → d = some x) := by
  have hfilter : s.net.inbox.filter (·.1 = src) = (src, h) :: rest.filter (·.1 = src) := by rw [hin]; simp
  unfold State.vc0From
  rw [hfilter]
  cases hr : rest.filter (·.1 = src) with
  | nil =>
    refine ⟨none, rfl, fun x r he => ?_⟩
    rw [he] at hr
    simp at hr
  | cons b l =>
    refine ⟨some b.2, rfl, fun x r he => ?_⟩
    rw [he] at hr
    simp only [List.filter_cons, decide_true, if_true, List.cons.injEq] at hr
    rw [← hr.1]

theorem vc0From_none {s : State} {src : Nat} (h : ∀ e ∈ s.net.inbox, e.1 ≠ src) : s.vc0From src = (none, none) := by
  have hfilter : s.net.inbox.filter (·.1 = src) = [] := List.filter_eq_nil_iff.2 fun e he => by simpa using h e he
  rw [State.vc0From, hfilter]

theorem dropFrom_zero (src : Nat) (l : List (Nat × List Byte)) : dropFrom src 0 l = l := by
  cases l <;> rfl

theorem dropFrom_cons (src n : Nat) (h : List Byte) (l : List (Nat × List Byte)) :
    dropFrom src (n + 1) ((src, h) :: l) = dropFrom src n l := by
  rw [dropFrom, if_pos rfl]

/-- A port with one more flit waiting. -/
def PeerPort.joined (q : PeerPort) (l : List (Nat × Flit)) : PeerPort := { q with queue := q.queue ++ l }

/-- The flit that carries a message of this device. -/
def State.flitTo (s : State) (dest : Nat) (b : List Byte) : Nat × Flit :=
  (16, ⟨0, false, dest, s.device, 127, b ++ List.replicate (256 - b.length) 0⟩)

/-- A message to another device waits at the port that its route names. -/
theorem sendFlit_joins {s : State} {dest p : Nat} (hdest : dest ≠ s.device) (hroute : s.routeEntry 16 dest = (p, 0))
    (hup : s.num (Obj.portState + p) = 3) (b : List Byte) :
    s.sendFlit 0 false dest b = s.setPort p ((s.port p).joined [s.flitTo dest b]) := by
  unfold State.sendFlit State.route
  dsimp only
  rw [if_neg (by decide), if_neg hdest, hroute]
  dsimp only
  rw [if_pos rfl, State.leave, if_pos rfl, State.toPort]
  dsimp only
  rw [if_pos (by simp [hup])]
  rfl

/-- A request as it is looked at. -/
theorem exec_remoteRequest {s : State} {src : BitVec 12} {op len tag a : Nat} {rest : List (Nat × List Byte)} (ha : a < 2 ^ 48)
    (hop : op = 1 ∨ op = 2) (hin : s.net.inbox = (src.toNat, vc0Header op len tag 0 a) :: rest) :
    (s.changing a = true → exec (.remoteRequest src) s = .next s) ∧
    (len < 4 → tag < 4096 → s.changing a = false → (∀ i, i < len + 1 → s.peerAccess (a + 64 * i) = .ok) →
      (op = 1 → exec (.remoteRequest src) s = .next (((s.takeVc0 src.toNat 1).sendFlit 0 false src.toNat (vc0Header 3 len tag 0 0)).sendFlit
        0 false src.toNat ((s.takeVc0 src.toNat 1).read a (64 * (len + 1))))) ∧
      (∀ d r, op = 2 → rest = (src.toNat, d) :: r → exec (.remoteRequest src) s = .next (((List.range (len + 1)).foldl
        (fun s i => s.poke (a + 64 * i) (slice d (64 * i) 64)) (s.takeVc0 src.toNat 2)).sendFlit 0 false src.toNat
          (vc0Header 4 len tag 0 0)))) := by
  obtain ⟨d?, hfrom, hsecond⟩ := vc0From_cons hin
  have hdoes : exec (.remoteRequest src) s = execRemoteRequest src s := rfl
  rw [execRemoteRequest] at hdoes
  dsimp only at hdoes
  rw [hfrom] at hdoes
  have hop' : field (vc0Header op len tag 0 a) 0 1 % 16 = op := by
    rw [field_vc0Header_op]
    omega
  simp only [field_vc0Header_addr _ _ _ _ _ ha, hop'] at hdoes
  refine ⟨fun hchg => hdoes.trans (if_pos (by simpa [hchg] using hop)), fun hlen htag hchg hok => ?_⟩
  have hn : 64 * (field (vc0Header op len tag 0 a) 1 1 % 4 + 1) = 64 * (len + 1) := by
    rw [field_vc0Header_len]
    omega
  have ht : field (vc0Header op len tag 0 a) 2 2 % 4096 = tag := by
    rw [field_vc0Header_tag]
    omega
  have hpieces : 64 * (len + 1) / 64 = len + 1 := by omega
  have hbad : ((List.range (len + 1)).map fun i => s.peerAccess (a + 64 * i)).find? (· ≠ .ok) = none := by
    rw [List.find?_eq_none]
    intro e he
    obtain ⟨i, hi, rfl⟩ := List.mem_map.1 he
    simp [hok i (List.mem_range.1 hi)]
  rw [hchg] at hdoes
  simp only [hn, ht, hpieces, hbad, Bool.false_and, Bool.false_eq_true, if_false, Nat.add_sub_cancel] at hdoes
  refine ⟨fun h1 => ?_, fun d r h2 hrest => ?_⟩
  · rw [if_pos h1] at hdoes
    exact hdoes
  · rw [if_neg (by omega), if_pos h2, hsecond d r hrest] at hdoes
    refine hdoes.trans (congrArg (fun t => Host.Outcome.next (State.sendFlit 0 false src.toNat (vc0Header 4 len tag 0 0) t)) ?_)
    refine List.foldl_ext _ _ _ fun t i hi => if_pos ?_
    rw [List.getD_eq_getElem?_getD, List.getElem?_map, List.getElem?_range (List.mem_range.1 hi)]
    exact hok i (List.mem_range.1 hi)

/-- What the pieces of a remote WRITE leave in memory. -/
structure PiecesStored (a n : Nat) (d : List Byte) (s u : State) : Prop where
  wf : Memory.wf 0 u.mem = true
  stored : ∀ i, i < 64 * n → u.byte (a + i) = d.getD i 0
  others : ∀ b, b < a ∨ a + 64 * n ≤ b → u.byte b = s.byte b
  frame : u = { s with mem := u.mem }

theorem pokes_pieces {s : State} (a n : Nat) {d : List Byte} (hwf : Memory.wf 0 s.mem = true) (hd : 64 * n ≤ d.length) :
    PiecesStored a n d s ((List.range n).foldl (fun s i => s.poke (a + 64 * i) (slice d (64 * i) 64)) s) := by
  induction n with
  | zero => exact ⟨hwf, fun i hi => absurd hi (by omega), fun _ _ => rfl, rfl⟩
  | succ n ih =>
    obtain ⟨hw, hin, hout, hframe⟩ := ih (by omega)
    rw [List.range_succ, List.foldl_append, List.foldl_cons, List.foldl_nil]
    generalize (List.range n).foldl (fun s i => s.poke (a + 64 * i) (slice d (64 * i) 64)) s = t at hw hin hout hframe ⊢
    have hlen : (slice d (64 * n) 64).length = 64 := by
      rw [slice, List.length_take, List.length_drop]
      omega
    have hbyte (b : Nat) (hb : b < a + 64 * n ∨ a + 64 * n + 64 ≤ b) :
        (t.poke (a + 64 * n) (slice d (64 * n) 64)).byte b = t.byte b :=
      Mem.read_writes_out 0 _ t.mem _ b hw (by rw [hlen]; exact hb)
    refine ⟨Memory.wf_writes 0 _ _ _ hw, fun i hi => ?_, fun b hb => ?_, by rw [hframe]; rfl⟩
    · by_cases hlast : i < 64 * n
      · rw [hbyte _ (by omega), hin i hlast]
      · obtain ⟨j, rfl⟩ := Nat.exists_eq_add_of_le (Nat.le_of_not_lt hlast)
        have hj : j < 64 := by omega
        rw [← Nat.add_assoc, State.byte_poke t _ j _ hw (by rw [hlen]; exact hj), slice]
        simp only [List.getD_eq_getElem?_getD, List.getElem?_take, hj, if_true, List.getElem?_drop]
    · rw [hbyte b (by omega), hout b (by omega)]

theorem remoteRequest_settled (s : State) (src tag : BitVec 12) (len a : Nat) (d : List Byte) (p : Nat) (rest : List (Nat × List Byte))
    (hdest : src.toNat ≠ s.device) (hlen : len < 4) (ha : a < 2 ^ 48) (hchg : s.changing a = false)
    (hok : ∀ i, i < len + 1 → s.peerAccess (a + 64 * i) = .ok) (hroute : s.routeEntry 16 src.toNat = (p, 0))
    (hup : s.num (Obj.portState + p) = 3) (hd : d.length = 256) (hwf : Memory.wf 0 s.mem = true) :
    (s.net.inbox = (src.toNat, vc0Header 1 len tag.toNat 0 a) :: rest → Answers (exec (.remoteRequest src) s) fun u =>
      u.net.inbox = rest ∧ u.mem = s.mem ∧ u.obj = s.obj ∧ (u.port p).queue =
        (s.port p).queue ++ [s.flitTo src.toNat (vc0Header 3 len tag.toNat 0 0), s.flitTo src.toNat (s.read a (64 * (len + 1)))]) ∧
    (s.net.inbox = (src.toNat, vc0Header 2 len tag.toNat 0 a) :: (src.toNat, d) :: rest → Answers (exec (.remoteRequest src) s) fun u =>
      u.net.inbox = rest ∧ u.obj = s.obj ∧ (∀ i, i < 64 * (len + 1) → u.byte (a + i) = d.getD i 0) ∧
      (∀ b, b < a ∨ a + 64 * (len + 1) ≤ b → u.byte b = s.byte b) ∧
      (u.port p).queue = (s.port p).queue ++ [s.flitTo src.toNat (vc0Header 4 len tag.toNat 0 0)]) := by
  have htag : tag.toNat < 4096 := tag.isLt
  refine ⟨fun hin => ?_, fun hin => ?_⟩
  · have hdoes := ((exec_remoteRequest ha (.inl rfl) hin).2 hlen htag hchg hok).1 rfl
    have hinbox : (s.takeVc0 src.toNat 1).net.inbox = rest := by
      show dropFrom _ _ s.net.inbox = rest
      rw [hin, dropFrom_cons, dropFrom_zero]
    rw [sendFlit_joins (s := s.takeVc0 src.toNat 1) hdest hroute hup,
      sendFlit_joins (s := State.setPort p _ (s.takeVc0 src.toNat 1)) hdest hroute hup] at hdoes
    refine ⟨_, hdoes, hinbox, rfl, rfl, ?_⟩
    rw [State.port_setPort, PeerPort.joined, State.port_setPort, PeerPort.joined]
    exact List.append_assoc _ _ _
  · have hdoes := ((exec_remoteRequest ha (.inr rfl) hin).2 hlen htag hchg hok).2 d rest rfl rfl
    have hinbox : (s.takeVc0 src.toNat 2).net.inbox = rest := by
      show dropFrom _ _ s.net.inbox = rest
      rw [hin, dropFrom_cons, dropFrom_cons, dropFrom_zero]
    have hpieces := pokes_pieces (s := s.takeVc0 src.toNat 2) a (len + 1) (d := d) hwf (by omega)
    generalize (List.range (len + 1)).foldl (fun s i => s.poke (a + 64 * i) (slice d (64 * i) 64)) (s.takeVc0 src.toNat 2) = t
      at hdoes hpieces
    obtain ⟨-, hin', hout, hframe⟩ := hpieces
    have hjoin : t.sendFlit 0 false src.toNat (vc0Header 4 len tag.toNat 0 0) =
        t.setPort p ((t.port p).joined [t.flitTo src.toNat (vc0Header 4 len tag.toNat 0 0)]) :=
      sendFlit_joins (by rw [hframe]; exact hdest) (by rw [hframe]; exact hroute) (by rw [hframe]; exact hup) _
    refine ⟨_, hdoes.trans (congrArg _ hjoin), ?_, ?_, hin', hout, ?_⟩
    · show t.net.inbox = rest
      rw [hframe]
      exact hinbox
    · show t.obj = s.obj
      rw [hframe]
      rfl
    · rw [State.port_setPort, PeerPort.joined, hframe]
      rfl

/-! ## What comes back, and what does not (R449) -/

theorem exec_remoteResponse {s : State} {src tag : BitVec 12} {len : Nat} {d : List Byte} {rest : List (Nat × List Byte)}
    (hlen : len < 4) (hin : s.net.inbox = (src.toNat, vc0Header 3 len tag.toNat 0 0) :: (src.toNat, d) :: rest) :
    exec (.remoteResponse src) s = .next
      (if (match s.net.reqs.find? tag.toNat with | some r => decide (r.dev = src.toNat) | none => false) = true
        then (s.takeVc0 src.toNat 2).finishRemote tag.toNat .ok (d.take (64 * (len + 1)))
        else (s.takeVc0 src.toNat 2).bump Obj.lateResponses 1) := by
  obtain ⟨d?, hfrom, hsecond⟩ := vc0From_cons hin
  have hdoes : exec (.remoteResponse src) s = execRemoteResponse src s := rfl
  rw [execRemoteResponse] at hdoes
  dsimp only at hdoes
  have ht : tag.toNat % 65536 % 4096 = tag.toNat := by
    have := tag.isLt
    omega
  rw [hfrom, hsecond d rest rfl] at hdoes
  dsimp only at hdoes
  simp only [field_vc0Header_op, field_vc0Header_len, field_vc0Header_tag, ht, show len % 256 % 4 = len by omega] at hdoes
  exact hdoes

theorem remoteResponse_settled (s : State) (src tag : BitVec 12) (len : Nat) (d : List Byte) (rest : List (Nat × List Byte))
    (hlen : len < 4) (hin : s.net.inbox = (src.toNat, vc0Header 3 len tag.toNat 0 0) :: (src.toNat, d) :: rest) :
    (∀ r, s.net.reqs.find? tag.toNat = some r → r.dev = src.toNat → Answers (exec (.remoteResponse src) s) fun u =>
      u.net.done.find? r.who = some (.ok, d.take (64 * (len + 1))) ∧ u.net.inbox = rest ∧ u.obj = s.obj ∧ u.mem = s.mem ∧
      (Tab.sorted s.net.reqs = true → u.net.reqs.find? tag.toNat = none)) ∧
    ((∀ r, s.net.reqs.find? tag.toNat = some r → r.dev ≠ src.toNat) → Answers (exec (.remoteResponse src) s) fun u =>
      Counted Obj.lateResponses 1 s u ∧ u.net.inbox = rest ∧ u.net.reqs = s.net.reqs ∧ u.net.done = s.net.done ∧ u.mem = s.mem) := by
  have hdoes := exec_remoteResponse hlen hin
  have hinbox : (s.takeVc0 src.toNat 2).net.inbox = rest := by
    show dropFrom _ _ s.net.inbox = rest
    rw [hin, dropFrom_cons, dropFrom_cons, dropFrom_zero]
  refine ⟨fun r hr hmine => ?_, fun hnot => ?_⟩
  · rw [hr, if_pos (decide_eq_true hmine)] at hdoes
    have hr' : (s.takeVc0 src.toNat 2).net.reqs.find? tag.toNat = some r := hr
    rw [State.finishRemote, hr'] at hdoes
    exact ⟨_, hdoes, Tab.find?_put_self _ _ _, hinbox, rfl, rfl, fun hs => Tab.find?_del_self _ _ hs⟩
  · rw [if_neg] at hdoes
    · exact ⟨_, hdoes, State.num_bump_self _ _ _, hinbox, rfl, rfl, rfl⟩
    · cases hr : s.net.reqs.find? tag.toNat with
      | none => exact Bool.false_ne_true
      | some r => simpa using hnot r hr

theorem remoteTimeout_settled (s : State) (tag : BitVec 12) :
    (s.net.reqs.find? tag.toNat = none → exec (.remoteTimeout tag) s = .next s) ∧
    (∀ r, s.net.reqs.find? tag.toNat = some r → Answers (exec (.remoteTimeout tag) s) fun u =>
      u.net.done.find? r.who = some (.uncorrectable, []) ∧ Counted Obj.remoteTimeouts 1 s u ∧
      u.num Obj.linkFlags = s.num Obj.linkFlags ||| 0x20 ∧ u.mem = s.mem) := by
  have hdoes : exec (.remoteTimeout tag) s = execRemoteTimeout tag s := rfl
  rw [execRemoteTimeout] at hdoes
  refine ⟨fun hnone => ?_, fun r hr => ?_⟩
  · rw [hnone] at hdoes
    exact hdoes
  · rw [hr] at hdoes
    have hfin : s.finishRemote tag.toNat .uncorrectable [] = { s with net := { s.net with
        reqs := s.net.reqs.del tag.toNat
        done := s.net.done.put r.who (.uncorrectable, []) } } := by rw [State.finishRemote, hr]
    rw [hfin] at hdoes
    obtain ⟨hcount, hflag, hchanges⟩ := counted_and_flagged (k := Obj.remoteTimeouts) (f := Obj.linkFlags) 1 0x20
      { s with net := { s.net with
          reqs := s.net.reqs.del tag.toNat
          done := s.net.done.put r.who (.uncorrectable, []) } } (by decide) (by decide) (by decide)
    exact ⟨_, hdoes, (congrArg (fun n : NetState => n.done.find? r.who) hchanges.net).trans (Tab.find?_put_self _ _ _), hcount, hflag, hchanges.mem⟩

/-! ## TARGET_BLOCK_RECEIVE (R452) -/

/-- Logic runs alike where regions, health and resets stand alike. -/
theorem stepAt_congr {s u : State} (hfab : u.fab = s.fab) (hrst : u.rst = s.rst) {c : Nat}
    (hlost : u.num (Obj.cabinetHealth + c) = s.num (Obj.cabinetHealth + c)) (hmap : ∀ i, i < 8 → u.num (mapKey (8 * c + i)) =
      s.num (mapKey (8 * c + i))) (p code : Nat) : u.stepAt c p code = s.stepAt c p code := by
  have hregion : u.regionAt c p = s.regionAt c p := by
    unfold State.regionAt
    refine List.find?_congr fun r hr => ?_
    obtain ⟨i, hi, rfl⟩ := List.mem_map.1 hr
    unfold State.regDefined State.regFirst State.regLast
    rw [hmap i (List.mem_range.1 hi)]
  unfold State.stepAt State.lost State.inCReset State.region
  rw [hregion, hfab, hrst, hlost]

theorem stepAt_bump {k : Nat} (h : 0x800000 ≤ k) (s : State) (c : Cab) (p code : Nat) :
    (s.bump k 1).stepAt c p code = s.stepAt c p code := by
  have hc := c.isLt
  have hlost : Obj.cabinetHealth + c.val ≠ k := by
    unfold Obj.cabinetHealth
    omega
  have hmap (i : Nat) (hi : i < 8) : (s.bump k 1).num (mapKey (8 * c.val + i)) = s.num (mapKey (8 * c.val + i)) := by
    refine State.num_bump_ne _ _ _ _ ?_
    unfold mapKey Obj.regionMap
    omega
  exact stepAt_congr (s := s) (u := s.bump k 1) rfl rfl (State.num_bump_ne _ _ _ _ hlost) hmap p code

theorem setBridge_bridge (c : Nat) (b : BridgeS) (s : State) : (s.setBridge c b).bridge c = b := by
  show ((s.fab.bridges.put c b).find? c).getD _ = b
  rw [Tab.find?_put_self]
  rfl

theorem ChangesOnly.fab {l : List Nat} {s u : State} (h : ChangesOnly l s u) : u.fab = s.fab := by rw [h.1]

/-- A bad block is lost at the bridge, with one count and one flag. -/
theorem bridgeWord_lost {w : State} {c : Cab} (hs : w.num (Obj.targetBridgeState + c) = 1)
    (hst : w.stepAt c bridgePos 3 = true) : let u := w.bridgeWord c [] false true
    Counted Obj.targetRxErrors 1 w u ∧ u.num Obj.fabricFlags = w.num Obj.fabricFlags ||| 0x20 ∧ (u.bridge c).gap = true ∧
      (u.bridge c).rx = (w.bridge c).rx ∧ u.num (Obj.flitCrcErrors + 16 + c) = w.num (Obj.flitCrcErrors + 16 + c) := by
  have hword : w.bridgeWord c [] false true =
      ((w.setBridge c { w.bridge c with gap := true }).bump Obj.targetRxErrors 1).setFlag Obj.fabricFlags 0x20 := by
    unfold State.bridgeWord
    dsimp only
    rw [hs, hst, if_neg (by decide), if_pos rfl]
  obtain ⟨hcount, hflag, hchanges⟩ := counted_and_flagged (k := Obj.targetRxErrors) (f := Obj.fabricFlags) 1 0x20
    (w.setBridge c { w.bridge c with gap := true }) (by decide) (by decide) (by decide)
  have hbridge : (w.bridgeWord c [] false true).bridge c = { w.bridge c with gap := true } := by
    rw [hword]
    refine Eq.trans ?_ (setBridge_bridge c { w.bridge c with gap := true } w)
    exact congrArg (fun t : FabState => t.bridges.get BridgeS.new c.val) hchanges.fab
  dsimp only
  refine ⟨hword ▸ hcount, hword ▸ hflag, by rw [hbridge], by rw [hbridge], ?_⟩
  rw [hword]
  have hc := c.isLt
  have hnot : Obj.flitCrcErrors + 16 + c.val ∉ [Obj.targetRxErrors, Obj.fabricFlags] := by
    simp only [List.mem_cons, List.not_mem_nil, or_false, not_or]
    unfold Obj.flitCrcErrors Obj.targetRxErrors Obj.fabricFlags
    omega
  exact hchanges.2.num_of_le hnot (by unfold Obj.flitCrcErrors; omega)

theorem targetBlockReceive_settled (s : State) (c : Cab) (l : List Byte) (b : Bool) :
    (s.portSt (16 + c) ≠ Port.up → exec (.targetBlockReceive c l b) s = .next s) ∧
    (s.portSt (16 + c) = Port.up → b = false → crc16 (l.take 66) = field l 66 2 →
      s.num (Obj.targetBridgeState + c) = 1 → s.stepAt c bridgePos 3 = true → (s.bridge c).rx.length < 256 →
      exec (.targetBlockReceive c l b) s = .next (if (field l 0 1).testBit 1 then s else
        (s.bump (Obj.flitsReceived + 16 + c.val) 1).setBridge c ⟨(s.bridge c).rx ++ [((field l 0 1).testBit 0, (s.bridge c).gap, slice l 2 64)], false⟩)) ∧
    (s.portSt (16 + c) = Port.up → b = true ∨ crc16 (l.take 66) ≠ field l 66 2 → s.num (Obj.targetBridgeState + c) = 1 →
      s.stepAt c bridgePos 3 = true → Answers (exec (.targetBlockReceive c l b) s) fun u =>
        CountedIf (!b) (Obj.flitCrcErrors + 16 + c) s u ∧ Counted Obj.targetRxErrors 1 s u ∧
        u.num Obj.fabricFlags = s.num Obj.fabricFlags ||| 0x20 ∧ (u.bridge c).gap = true ∧ (u.bridge c).rx = (s.bridge c).rx) := by
  have hc : c.val < 8 := c.isLt
  have hdoes : exec (.targetBlockReceive c l b) s = execTargetBlockReceive c l b s := rfl
  rw [execTargetBlockReceive] at hdoes
  refine ⟨fun hdown => hdoes.trans (if_pos hdown), fun hup hb hcrc hstate hstep hroom => ?_, fun hup hbad hstate hstep => ?_⟩
  · rw [if_neg (not_not.2 hup)] at hdoes
    dsimp only at hdoes
    simp only [hb, hcrc, ne_eq, not_true_eq_false, decide_false, Bool.false_and, Bool.or_false, Bool.false_eq_true, if_false] at hdoes
    rw [hb, hdoes]
    split
    · rfl
    · have hstate' : (s.bump (Obj.flitsReceived + 16 + c.val) 1).num (Obj.targetBridgeState + c) = 1 :=
        (State.num_bump_ne _ _ _ _ (by unfold Obj.flitsReceived Obj.targetBridgeState; omega)).trans hstate
      have hstep' : (s.bump (Obj.flitsReceived + 16 + c.val) 1).stepAt c bridgePos 3 = true :=
        (stepAt_bump (by unfold Obj.flitsReceived; omega) _ _ _ _).trans hstep
      unfold State.bridgeWord
      dsimp only
      rw [hstate', hstep', if_neg (by decide), if_neg (by decide), if_neg]
      · rfl
      · exact Nat.not_le.2 hroom
  · rw [if_neg (not_not.2 hup)] at hdoes
    dsimp only at hdoes
    rw [if_pos (by simpa using hbad)] at hdoes
    cases b with
    | true =>
      rw [Bool.not_true, Bool.and_false, if_neg (by decide)] at hdoes
      obtain ⟨hcount, hflag, hgap, hrx, hsame⟩ := bridgeWord_lost hstate hstep
      exact ⟨_, hdoes, hsame, hcount, hflag, hgap, hrx⟩
    | false =>
      rw [Bool.not_false, Bool.and_true, if_pos (by simpa using hbad)] at hdoes
      have hne {k : Nat} (hk : k < 0x800000) : (s.bump (Obj.flitCrcErrors + 16 + c.val) 1).num k = s.num k :=
        State.num_bump_ne _ _ _ _ (by unfold Obj.flitCrcErrors; omega)
      obtain ⟨hcount, hflag, hgap, hrx, hsame⟩ := bridgeWord_lost
        (w := s.bump (Obj.flitCrcErrors + 16 + c.val) 1) (c := c)
        ((hne (by unfold Obj.targetBridgeState; omega)).trans hstate)
        ((stepAt_bump (by unfold Obj.flitCrcErrors; omega) _ _ _ _).trans hstep)
      refine ⟨_, hdoes, hsame.trans (State.num_bump_self _ _ _), ?_, ?_, hgap, hrx⟩
      · rw [Counted, hcount, hne (by decide)]
      · rw [hflag, hne (by decide)]

/-- Settles O51: a clause for each command; the blocks of the sender are read back byte by byte. -/
theorem linkLayerAndRemoteAccess : Obligations.LinkLayerAndRemoteAccess := by
  unfold Obligations.LinkLayerAndRemoteAccess
  refine ⟨fun s t p l b h => ⟨if_pos h, if_pos h⟩, linkBlockReceive_bad, ?_, linkBlockSend_settled, nak_settled,
    replayTimeout_settled, fun s src h => ⟨?_, ?_⟩, ?_, ?_, ?_, remoteTimeout_settled, targetBlockReceive_settled⟩
  · intro s t p f seq cvc credit hst hvc hmc hdest hsrc httl hbody hseq hcvc hcredit hfresh hdev
    exact linkBlockReceive_good t hst hvc hmc hdest hsrc httl hbody hseq hcvc hcredit hfresh hdev
  · show execRemoteRequest src s = .next s
    rw [execRemoteRequest, vc0From_none h]
  · show execRemoteResponse src s = .next s
    rw [execRemoteResponse, vc0From_none h]
  · intro s src tag len a op rest ha hchg hop hin
    exact (exec_remoteRequest ha hop hin).1 hchg
  · intro s src tag len a d p rest hdest hlen ha hchg hok hroute hup hd hwf _
    exact remoteRequest_settled s src tag len a d p rest hdest hlen ha hchg hok hroute hup hd hwf
  · intro s src tag len d rest hlen _ hin
    exact remoteResponse_settled s src tag len d rest hlen hin

end Sys2Proof.Machine

/-! PROOFS. Trace records, verdicts and captures: O49. -/

namespace Sys2Proof.Machine

/-! ## Feeds -/

theorem feed_congr {s u : State} (h : u.trace = s.trace) (q : Nat) : u.feed q = s.feed q := by
  unfold State.feed
  rw [h]

theorem feed_modFeed (q : Nat) (f : FeedS → FeedS) (s : State) : (s.modFeed q f).feed q = f (s.feed q) := State.feed_setFeed _ _ _

theorem setFeed_setFeed (q : Nat) (f g : FeedS) (s : State) : (s.setFeed q f).setFeed q g = s.setFeed q g := by
  unfold State.setFeed
  rw [Tab.put_put]

theorem modFeed_modFeed (q : Nat) (f g : FeedS → FeedS) (s : State) : (s.modFeed q f).modFeed q g = s.modFeed q (g ∘ f) := by
  unfold State.modFeed
  rw [State.feed_setFeed, setFeed_setFeed]
  rfl

theorem ChangesOnly.trace {l : List Nat} {s u : State} (h : ChangesOnly l s u) : u.trace = s.trace := by rw [h.1]

theorem ChangesOnly.lock {l : List Nat} {s u : State} (h : ChangesOnly l s u) : u.lock = s.lock := by rw [h.1]

theorem Sends.trace {s u : State} (h : Sends s u) : u.trace = s.trace := by rw [h.1]; rfl

/-- An object of a feed's record is none of the device's. -/
theorem feedObj_ne {k k' q : Nat} (h : k' < 0x718000) (hk : 0x718000 ≤ k) : feedObj k q ≠ k' := by
  unfold feedObj
  omega

theorem feedObj_mod {k q : Nat} (hk : k % 256 ≠ 0x12) : feedObj k q % 256 ≠ 0x12 := by
  unfold feedObj
  omega

/-! ## Steps that take UNKNOWN or MISSED, with the policy to go on (R421, R422, R424) -/

/-- A step's verdict is made up: a count, and a flag. -/
def State.missTaken (k b q : Nat) (f : FeedS → FeedS) (s : State) : State :=
  ((s.modFeed q f).bump k 1).setFlag Obj.traceFlags b

/-- The keys of what is made up and of its flag. -/
def State.keepsPolicy (k : Nat) : Prop := k < 0x718000 ∧ k % 256 ≠ 0x12 ∧ k ≠ Obj.traceFlags

theorem missTaken_spec {k : Nat} (hk : State.keepsPolicy k) (b q : Nat) (f : FeedS → FeedS) (s : State) :
    (s.missTaken k b q f).feed q = f (s.feed q) ∧ Counted k 1 s (s.missTaken k b q f) ∧
      (s.missTaken k b q f).num Obj.traceFlags = s.num Obj.traceFlags ||| b ∧
      ChangesOnly [k, Obj.traceFlags] { s with trace := (s.missTaken k b q f).trace } (s.missTaken k b q f) := by
  obtain ⟨-, hmod, hne⟩ := hk
  obtain ⟨hcount, hflag, hchanges⟩ := counted_and_flagged 1 b (s.modFeed q f) hne hmod (by decide : Obj.traceFlags % 256 ≠ 0x12)
  have htrace : (s.missTaken k b q f).trace = (s.modFeed q f).trace := hchanges.trace
  refine ⟨(feed_congr htrace q).trans (feed_modFeed _ _ _), hcount, hflag, ?_⟩
  rw [htrace]
  exact hchanges

theorem policy_kept {k : Nat} (hk : State.keepsPolicy k) (b q : Nat) (f : FeedS → FeedS) (s : State) :
    (s.missTaken k b q f).num (feedObj Obj.missPolicy q) = s.num (feedObj Obj.missPolicy q) :=
  (missTaken_spec hk b q f s).2.2.2.2.num (k := feedObj Obj.missPolicy q)
    (by simp [feedObj_ne hk.1 (show 0x718000 ≤ Obj.missPolicy by decide),
      feedObj_ne (show Obj.traceFlags < 0x718000 by decide) (show 0x718000 ≤ Obj.missPolicy by decide)])
    (ne_eventsDropped (feedObj_mod (by decide)))

/-- A feed with one more step UNKNOWN. -/
def FeedS.moreUnknown (f : FeedS) : FeedS := { f with unknown := sat32 (f.unknown + 1) }

/-- A feed with one more step MISSED. -/
def FeedS.moreMissed (f : FeedS) : FeedS := { f with misses := sat32 (f.misses + 1) }

theorem keepsPolicy_unknown : State.keepsPolicy Obj.unknownVerdicts := ⟨by decide, by decide, by decide⟩

theorem keepsPolicy_missed : State.keepsPolicy Obj.verdictMisses := ⟨by decide, by decide, by decide⟩

theorem takeUnknown_eq {s : State} {q : Nat} (h : s.num (feedObj Obj.missPolicy q) = 0) :
    s.takeUnknown q = s.missTaken Obj.unknownVerdicts 2 q FeedS.moreUnknown := by
  have hp := (policy_kept keepsPolicy_unknown 2 q FeedS.moreUnknown s).trans h
  have hraw : s.takeUnknown q = if (s.missTaken Obj.unknownVerdicts 2 q FeedS.moreUnknown).num (feedObj Obj.missPolicy q) = 1
      then (s.missTaken Obj.unknownVerdicts 2 q FeedS.moreUnknown).verdictFreeze
      else s.missTaken Obj.unknownVerdicts 2 q FeedS.moreUnknown := rfl
  rw [hraw, if_neg (by omega)]

theorem takeMissed_eq {s : State} {q : Nat} (h : s.num (feedObj Obj.missPolicy q) = 0) :
    s.takeMissed q = s.missTaken Obj.verdictMisses 1 q FeedS.moreMissed := by
  have hp := (policy_kept keepsPolicy_missed 1 q FeedS.moreMissed s).trans h
  have hraw : s.takeMissed q = if (s.missTaken Obj.verdictMisses 1 q FeedS.moreMissed).num (feedObj Obj.missPolicy q) = 1
      then (s.missTaken Obj.verdictMisses 1 q FeedS.moreMissed).verdictFreeze
      else s.missTaken Obj.verdictMisses 1 q FeedS.moreMissed := rfl
  rw [hraw, if_neg (by omega)]

/-- Steps of a feed have taken UNKNOWN: counts, and the flag where there was one. -/
structure TookUnknown (q : Nat) (some? : Bool) (s u : State) : Prop where
  undecided : (u.feed q).undecided = (s.feed q).undecided
  queue : (u.feed q).queue = (s.feed q).queue
  flags : u.num Obj.traceFlags = s.num Obj.traceFlags ||| (if some? then 2 else 0)
  changes : ChangesOnly [Obj.unknownVerdicts, Obj.traceFlags] { s with trace := u.trace } u

theorem takeUnknown_took {q : Nat} (l : List Nat) {s : State} (h : s.num (feedObj Obj.missPolicy q) = 0) :
    TookUnknown q (!l.isEmpty) s (l.foldl (fun s _ => s.takeUnknown q) s) := by
  induction l generalizing s with
  | nil => exact ⟨rfl, rfl, by simp, ChangesOnly.refl _ _⟩
  | cons a l ih =>
    obtain ⟨hfeed, -, hflag, hchanges⟩ := missTaken_spec keepsPolicy_unknown 2 q FeedS.moreUnknown s
    have hp := (policy_kept keepsPolicy_unknown 2 q FeedS.moreUnknown s).trans h
    rw [List.foldl_cons, takeUnknown_eq h]
    obtain ⟨hu, hq, hf, hc⟩ := ih hp
    refine ⟨by rw [hu, hfeed]; rfl, by rw [hq, hfeed]; rfl, ?_, ?_⟩
    · rw [hf, hflag, Nat.or_assoc]
      exact congrArg (s.num Obj.traceFlags ||| ·) (by cases l <;> simp)
    · obtain ⟨hc₁, hk₁⟩ := hchanges
      obtain ⟨hc₂, hk₂⟩ := hc
      refine ⟨hc₂.trans ?_, fun k hk hm => (hk₂ k hk hm).trans (hk₁ k hk hm)⟩
      rw [hc₁]

/-! ## TRACE_RECORD_DELIVERED (R415, R416) -/

/-- What records stored slot by slot leave in memory. -/
structure SlotsStored (at? : Nat → Nat) (n : Nat) (l : List Byte) (s u : State) : Prop where
  wf : Memory.wf 0 u.mem = true
  stored : ∀ i j, i < n → j < 256 → u.byte (at? i + j) = l.getD (256 * i + j) 0
  others : ∀ a, (∀ i, i < n → a < at? i ∨ at? i + 256 ≤ a) → u.byte a = s.byte a
  frame : u = { s with mem := u.mem }

/-- Bytes go to slots that do not meet. -/
theorem pokes_slots {s : State} (at? : Nat → Nat) (n : Nat) {l : List Byte} (hwf : Memory.wf 0 s.mem = true)
    (hl : 256 * n ≤ l.length) (hapart : ∀ i j, i < j → j < n → at? i + 256 ≤ at? j ∨ at? j + 256 ≤ at? i) :
    SlotsStored at? n l s ((List.range n).foldl (fun s i => s.poke (at? i) (slice l (256 * i) 256)) s) := by
  induction n with
  | zero => exact ⟨hwf, fun i j hi => absurd hi (by omega), fun _ _ => rfl, rfl⟩
  | succ n ih =>
    obtain ⟨hw, hin, hout, hframe⟩ := ih (by omega) fun i j hij hj => hapart i j hij (by omega)
    rw [List.range_succ, List.foldl_append, List.foldl_cons, List.foldl_nil]
    generalize (List.range n).foldl (fun s i => s.poke (at? i) (slice l (256 * i) 256)) s = t at hw hin hout hframe ⊢
    have hlen : (slice l (256 * n) 256).length = 256 := by
      rw [slice, List.length_take, List.length_drop]
      omega
    have hbyte (b : Nat) (hb : b < at? n ∨ at? n + 256 ≤ b) : (t.poke (at? n) (slice l (256 * n) 256)).byte b = t.byte b :=
      Mem.read_writes_out 0 _ t.mem _ b hw (by rw [hlen]; exact hb)
    refine ⟨Memory.wf_writes 0 _ _ _ hw, fun i j hi hj => ?_, fun a ha => ?_, by rw [hframe]; rfl⟩
    · by_cases hlast : i < n
      · rw [hbyte _ (by have := hapart i n hlast (by omega); omega), hin i j hlast hj]
      · obtain rfl : i = n := by omega
        rw [State.byte_poke t _ j _ hw (by rw [hlen]; exact hj), slice]
        simp only [List.getD_eq_getElem?_getD, List.getElem?_take, hj, if_true, List.getElem?_drop]
    · rw [hbyte a (ha n (by omega)), hout a fun i hi => ha i (by omega)]

/-- Slots of one ring that are counted one after the other do not meet while they are no more than the ring's. -/
theorem slots_apart (d : StreamDesc) (g k : Nat) {n : Nat} (hn : n ≤ d.ring) (i j : Nat) (hij : i < j) (hj : j < n) :
    d.slot g (k + i) + 256 ≤ d.slot g (k + j) ∨ d.slot g (k + j) + 256 ≤ d.slot g (k + i) := by
  have hne : (k + i) % d.ring ≠ (k + j) % d.ring := fun h =>
    absurd (Nat.ModEq.eq_of_lt_of_lt (Nat.ModEq.add_left_cancel' k h) (by omega) (by omega)) (by omega)
  unfold StreamDesc.slot
  omega

/-- A record as it goes to the ring: its seventh byte tells of a gap. -/
def FeedS.marked (f : FeedS) (l : List Byte) : List Byte := l.set 7 (l.getD 7 0 ||| (if f.gap then 1 else 0))

/-- The feed once its oldest record is delivered. -/
def FeedS.after (step : Nat) (b : Bool) (rest : List (Nat × Bool × List Byte)) (f : FeedS) : FeedS :=
  { f with
    queue := rest
    gap := false
    undecided := if b then f.undecided else f.undecided ++ [(step, false)] }

/-- No step waits for a verdict where none did and the record's own is decided. -/
theorem isEmpty_undecided_after (step : Nat) (b : Bool) (rest : List (Nat × Bool × List Byte)) (f : FeedS) :
    (f.after step b rest).undecided.isEmpty = (b && f.undecided.isEmpty) := by
  cases b with
  | true => rfl
  | false => simp [FeedS.after]

theorem isEmpty_range_length {α : Type} (l : List α) : (List.range l.length).isEmpty = l.isEmpty := by
  cases l with
  | nil => rfl
  | cons a l => simp

/-- The stream once n slots more are filled. -/
def StreamS.fill (m : StreamS) (n : Nat) : StreamS := { m with delivered := m.delivered + n, issued := m.issued + n }

/-- The bytes of a record in n slots. -/
def State.slotted (s : State) (m : StreamS) (n : Nat) (l : List Byte) : State :=
  (List.range n).foldl (fun s i => s.poke (m.desc.slot m.tile (m.delivered + i)) (slice l (256 * i) 256)) s

/-- A record delivered. -/
def State.recorded (s : State) (q step : Nat) (b : Bool) (l : List Byte) (rest : List (Nat × Bool × List Byte)) (m : StreamS) : State :=
  let t := s.slotted m (l.length / 256) ((s.feed q).marked l)
  ((t.putStream (t.feedKey q) (m.fill (l.length / 256))).modFeed q (FeedS.after step b rest)).bump Obj.recordsDelivered 1

theorem slotted_frame (s : State) (m : StreamS) (n : Nat) (l : List Byte) :
    s.slotted m n l = { s with mem := (s.slotted m n l).mem } := by
  unfold State.slotted
  generalize List.range n = L
  induction L generalizing s with
  | nil => rfl
  | cons i L ih =>
    rw [List.foldl_cons]
    exact (ih _).trans rfl

theorem FeedS.marked_length (f : FeedS) (l : List Byte) : (f.marked l).length = l.length := List.length_set

section Record

variable {s : State} {c : Cab} {f : Fin 16} {step : Nat} {b : Bool} {l : List Byte} {rest : List (Nat × Bool × List Byte)} {m : StreamS}

/-- A record goes, or waits. -/
theorem exec_traceRecordDelivered (hq : (s.feed (16 * c.val + f.val)).queue = (step, b, l) :: rest)
    (hm : s.stream (s.feedKey (16 * c.val + f.val)) = some m) : let q := 16 * c.val + f.val
    ((s.feed q).st ≠ 2 ∨ m.desc.dir ≠ 4 ∨ m.desc.ring < m.delivered - m.freed + l.length / 256 ∨ s.lost c = true ∨
        (∃ i < l.length / 256, s.lockedAt (m.desc.slot m.tile (m.delivered + i)) 256 = true) →
      exec (.traceRecordDelivered c f) s = .next s) ∧
    ((s.feed q).st = 2 → m.desc.dir = 4 → m.delivered - m.freed + l.length / 256 ≤ m.desc.ring → s.lost c = false →
      (∀ i < l.length / 256, s.lockedAt (m.desc.slot m.tile (m.delivered + i)) 256 = false) →
      s.num (feedObj Obj.captureBase q) = 0 → exec (.traceRecordDelivered c f) s = .next
        (if s.checkerDown m.tile m.ctx then (s.recorded q step b l rest m).unknownAll q else s.recorded q step b l rest m)) := by
  have hdoes : exec (.traceRecordDelivered c f) s = execTraceRecordDelivered c f s := rfl
  unfold execTraceRecordDelivered at hdoes
  dsimp only at hdoes ⊢
  rw [hq, hm] at hdoes
  dsimp only at hdoes
  refine ⟨fun h => hdoes.trans (if_pos ?_), fun hst hdir hroom hlost hlocks hbase => ?_⟩
  · simp only [ne_eq, decide_not, Bool.or_eq_true, Bool.not_eq_eq_eq_not, Bool.not_true, decide_eq_false_iff_not, decide_eq_true_eq,
      List.any_eq_true, List.mem_range]
    tauto
  · have hwaits : (decide ((s.feed (16 * c.val + f.val)).st ≠ 2) || decide (m.desc.dir ≠ 4) ||
        decide (m.desc.ring < m.delivered - m.freed + l.length / 256) || s.lost c ||
        (List.range (l.length / 256)).any fun i => s.lockedAt (m.desc.slot m.tile (m.delivered + i)) 256) = false := by
      have hany : ((List.range (l.length / 256)).any fun i => s.lockedAt (m.desc.slot m.tile (m.delivered + i)) 256) = false := by
        rw [List.any_eq_false]
        intro i hi
        rw [hlocks i (List.mem_range.1 hi)]
        exact Bool.false_ne_true
      rw [hany, hlost]
      simp [hst, hdir, Nat.not_lt.2 hroom]
    have hbase' : (s.recorded (16 * c.val + f.val) step b l rest m).num (feedObj Obj.captureBase (16 * c.val + f.val)) = 0 := by
      refine Eq.trans (State.num_bump_ne _ _ _ _ (feedObj_ne (by decide) (by decide))) (Eq.trans (State.num_congr ?_ _) hbase)
      show (s.slotted m _ _).obj = s.obj
      rw [slotted_frame]
    have hcapture : (s.recorded (16 * c.val + f.val) step b l rest m).captureRecord (16 * c.val + f.val) step
        ((s.feed (16 * c.val + f.val)).marked l) = s.recorded (16 * c.val + f.val) step b l rest m := if_pos hbase'
    have hth : (s.recorded (16 * c.val + f.val) step b l rest m).checkerDown m.tile m.ctx = s.checkerDown m.tile m.ctx := by
      have htiles : (s.recorded (16 * c.val + f.val) step b l rest m).tiles = s.tiles := by
        show (s.slotted m _ _).tiles = s.tiles
        rw [slotted_frame]
      unfold State.checkerDown State.th State.ctx State.tile
      rw [htiles]
    rw [hwaits, if_neg Bool.false_ne_true] at hdoes
    rw [← hth, ← hcapture]
    exact hdoes

end Record

/-- What a record delivered leaves. -/
theorem recorded_spec (s : State) (q step : Nat) (b : Bool) (l : List Byte) (rest : List (Nat × Bool × List Byte)) (m : StreamS) :
    let u := s.recorded q step b l rest m
    u.stream (s.feedKey q) = some (m.fill (l.length / 256)) ∧ u.feed q = (s.feed q).after step b rest ∧
      Counted Obj.recordsDelivered 1 s u ∧ KeepsObjects [Obj.recordsDelivered] s u ∧ u.tiles = s.tiles ∧
      u.mem = (s.slotted m (l.length / 256) ((s.feed q).marked l)).mem := by
  have hframe := slotted_frame s m (l.length / 256) ((s.feed q).marked l)
  have hobj : (s.slotted m (l.length / 256) ((s.feed q).marked l)).obj = s.obj := by rw [hframe]
  have htrace : (s.slotted m (l.length / 256) ((s.feed q).marked l)).trace = s.trace := by rw [hframe]
  have htiles : (s.slotted m (l.length / 256) ((s.feed q).marked l)).tiles = s.tiles := by rw [hframe]
  have hkey : (s.slotted m (l.length / 256) ((s.feed q).marked l)).feedKey q = s.feedKey q := congrArg FeedS.key (feed_congr htrace q)
  generalize ht : s.slotted m (l.length / 256) ((s.feed q).marked l) = t at hobj htrace htiles hkey
  have hu : s.recorded q step b l rest m =
      ((t.putStream (s.feedKey q) (m.fill (l.length / 256))).modFeed q (FeedS.after step b rest)).bump Obj.recordsDelivered 1 := by
    unfold State.recorded
    dsimp only
    rw [ht, hkey]
  dsimp only
  rw [hu]
  refine ⟨State.stream_putStream _ _ t, ?_, ?_, ?_, htiles, rfl⟩
  · exact (feed_modFeed q _ (t.putStream _ _)).trans (congrArg _ (feed_congr htrace q))
  · refine (State.num_bump_self _ _ _).trans ?_
    exact congrArg (fun n => min (n + 1) (maxOf Obj.recordsDelivered)) (State.num_congr hobj Obj.recordsDelivered)
  · exact (KeepsObjects.of_obj (s := s) (u := State.modFeed q _ (t.putStream _ _)) hobj).trans
      (KeepsObjects.setVal List.mem_cons_self _ _)

theorem traceRecordDelivered_settled (s : State) (c : Cab) (f : Fin 16) (step : Nat) (b : Bool) (l : List Byte)
    (rest : List (Nat × Bool × List Byte)) (m : StreamS) : let q := 16 * c.val + f.val
    (s.feed q).queue = (step, b, l) :: rest → s.stream (s.feedKey q) = some m →
    ((s.feed q).st ≠ 2 ∨ m.desc.dir ≠ 4 ∨ m.desc.ring < m.delivered - m.freed + l.length / 256 ∨ s.lost c = true ∨
        (∃ i < l.length / 256, s.lockedAt (m.desc.slot m.tile (m.delivered + i)) 256 = true) →
      exec (.traceRecordDelivered c f) s = .next s) ∧
    ((s.feed q).st = 2 → m.desc.dir = 4 → m.delivered - m.freed + l.length / 256 ≤ m.desc.ring → s.lost c = false →
      (∀ i < l.length / 256, s.lockedAt (m.desc.slot m.tile (m.delivered + i)) 256 = false) →
      s.num (feedObj Obj.captureBase q) = 0 → s.checkerDown m.tile m.ctx = true → s.num (feedObj Obj.missPolicy q) = 0 →
      Answers (exec (.traceRecordDelivered c f) s) fun u => (u.feed q).undecided = [] ∧ (u.feed q).queue = rest ∧
        Counted Obj.recordsDelivered 1 s u ∧ (u.num Obj.traceFlags).testBit 1 =
          ((s.num Obj.traceFlags).testBit 1 || !(b && (s.feed q).undecided.isEmpty))) ∧
    ((s.feed q).st = 2 → m.desc.dir = 4 → m.delivered - m.freed + l.length / 256 ≤ m.desc.ring → s.lost c = false →
      (∀ i < l.length / 256, s.lockedAt (m.desc.slot m.tile (m.delivered + i)) 256 = false) → s.checkerDown m.tile m.ctx = false →
      s.num (feedObj Obj.captureBase q) = 0 → l.length % 256 = 0 → 8 ≤ l.length → Memory.wf 0 s.mem = true →
      Answers (exec (.traceRecordDelivered c f) s) fun u =>
        let w := (s.feed q).marked l
        (∀ i j, i < l.length / 256 → j < 256 → u.byte (m.desc.slot m.tile (m.delivered + i) + j) = w.getD (256 * i + j) 0) ∧
        (∀ a, (∀ i, i < l.length / 256 → a < m.desc.slot m.tile (m.delivered + i) ∨ m.desc.slot m.tile (m.delivered + i) + 256 ≤ a) →
          u.byte a = s.byte a) ∧
        u.stream (s.feedKey q) = some (m.fill (l.length / 256)) ∧ u.feed q = (s.feed q).after step b rest ∧
        Counted Obj.recordsDelivered 1 s u ∧ KeepsObjects [Obj.recordsDelivered] s u ∧ u.tiles = s.tiles) := by
  intro q hq hm
  obtain ⟨hwaits, hgoes⟩ := exec_traceRecordDelivered hq hm
  obtain ⟨hstream, hfeed, hcount, hkeeps, htiles, hmem⟩ := recorded_spec s q step b l rest m
  refine ⟨hwaits, fun hst hdir hroom hlost hlocks hbase hdown hpolicy => ?_,
    fun hst hdir hroom hlost hlocks hdown hbase _ _ hwf => ?_⟩
  · have hdoes := hgoes hst hdir hroom hlost hlocks hbase
    rw [if_pos hdown] at hdoes
    refine ⟨_, hdoes, ?_⟩
    change Counted _ 1 s (s.recorded q step b l rest m) at hcount
    show (((s.recorded q step b l rest m).unknownAll q).feed q).undecided = [] ∧ _
    generalize s.recorded q step b l rest m = t at hfeed hcount hkeeps ⊢
    have hpolicy' : (t.modFeed q fun f => { f with undecided := [] }).num (feedObj Obj.missPolicy q) = 0 :=
      (hkeeps.num (by simpa using feedObj_ne (by decide) (by decide)) (ne_eventsDropped (feedObj_mod (by decide)))).trans hpolicy
    obtain ⟨hundecided, hqueue, hflags, hchanges⟩ := takeUnknown_took (List.range (t.feed q).undecided.length) hpolicy'
    have hflag : t.num Obj.traceFlags = s.num Obj.traceFlags := hkeeps.num (by decide) (ne_eventsDropped (by decide))
    refine ⟨hundecided.trans (by rw [feed_modFeed]), hqueue.trans (by rw [feed_modFeed, hfeed]; rfl), ?_, ?_⟩
    · exact (hchanges.2.num (by decide) (ne_eventsDropped (by decide))).trans hcount
    · refine (congrArg (Nat.testBit · 1) (hflags.trans (congrArg (· ||| _) hflag))).trans ?_
      rw [Nat.testBit_or]
      rw [hfeed, isEmpty_range_length, isEmpty_undecided_after]
      exact congrArg ((s.num Obj.traceFlags).testBit 1 || ·) (by cases b && (s.feed q).undecided.isEmpty <;> rfl)
  · have hdoes := hgoes hst hdir hroom hlost hlocks hbase
    rw [if_neg (by simp [hdown])] at hdoes
    have hslots := pokes_slots (s := s) (fun i => m.desc.slot m.tile (m.delivered + i)) (l.length / 256) (l := (s.feed q).marked l)
      hwf (by rw [FeedS.marked_length]; omega) (slots_apart m.desc m.tile m.delivered (by omega))
    refine ⟨_, hdoes, fun i j hi hj => ?_, fun a ha => ?_, hstream, hfeed, hcount, hkeeps, htiles⟩
    · exact (congrArg (fun l => Mem.read 0 l _) hmem).trans (hslots.stored i j hi hj)
    · exact (congrArg (fun l => Mem.read 0 l _) hmem).trans (hslots.others a ha)

/-! ## VERDICT_PORT_READ (R419) -/

theorem verdictPortRead_settled (s : State) (c : Cab) (f : Fin 16) (g x : Nat) : let q := 16 * c.val + f.val
    let k := s.num (feedObj Obj.verdictSemaphore q)
    (s.feed q).place = some (g, x) → (s.feed q).st = 2 → s.lost c = false →
    ((s.tile g).sema.get 0 k = 0 → exec (.verdictPortRead c f) s = .next s) ∧
    ((s.tile g).sema.get 0 k ≠ 0 → (s.img g x).semaSet.getLsbD k = true → Answers (exec (.verdictPortRead c f) s) fun u =>
      (u.tile g).sema.get 0 k = (s.tile g).sema.get 0 k - 1 ∧ u.feed q = { s.feed q with
        posted := (s.feed q).posted + 1
        verdicts := (s.feed q).verdicts ++
          [s.read (operandBase g + s.num (feedObj Obj.verdictArea q) + 16 * ((s.feed q).posted % 16)) 16] } ∧
      u = { s with
        tiles := u.tiles
        trace := u.trace } ∧ (∀ h, h ≠ g → u.tile h = s.tile h)) := by
  intro q k hplace hst hlost
  have hdoes : exec (.verdictPortRead c f) s = execVerdictPortRead c f s := rfl
  unfold execVerdictPortRead at hdoes
  dsimp only at hdoes
  rw [hplace] at hdoes
  dsimp only at hdoes
  refine ⟨fun hnone => hdoes.trans (if_pos ?_), fun hsome hset => ?_⟩
  · rw [show (s.tile g).sema.get 0 (s.num (feedObj Obj.verdictSemaphore (16 * c.val + f.val))) = 0 from hnone]
    simp
  · have hset' : (s.img g x).semaSet.getLsbD (s.num (feedObj Obj.verdictSemaphore (16 * c.val + f.val))) = true := hset
    have hsome' : (s.tile g).sema.get 0 (s.num (feedObj Obj.verdictSemaphore (16 * c.val + f.val))) ≠ 0 := hsome
    have hst' : (s.feed (16 * c.val + f.val)).st = 2 := hst
    rw [hset', hst', hlost, decide_eq_false hsome', if_neg (by simp)] at hdoes
    refine ⟨_, hdoes, ?_, feed_modFeed _ _ _, rfl, fun h hne => ?_⟩
    · have htile (t : TileS) : (s.setTile g t).tile g = t := State.tile_setTile _ _ _
      refine (congrArg (fun t : TileS => t.sema.get 0 k) (htile _)).trans ?_
      show ((Tab.put _ k _).find? k).getD 0 = _
      rw [Tab.find?_put_self]
      rfl
    · show ((s.tiles.put g _).find? h).getD _ = _
      rw [Tab.find?_put_ne _ _ _ _ hne]
      rfl

/-! ## A freeze proposed (R401) -/

/-- The objects that a freeze proposed can change. -/
def freezeKeys : List Nat :=
  sendKeys ++ [Obj.freezeAt, Obj.freezeOrigin, Obj.freezeCause, Obj.stepControllerState, Obj.lockstepFlags, Obj.freezesPassed,
    Obj.failCause, Obj.frozenStep, Obj.freezesCompleted] ++ (List.range 8).map (Obj.targetBridgeState + ·)

/-- A freeze proposed reaches neither feeds, memory nor tiles. -/
structure Proposes (s u : State) : Prop where
  trace : u.trace = s.trace
  mem : u.mem = s.mem
  tiles : u.tiles = s.tiles
  objects : KeepsObjects freezeKeys s u

theorem Proposes.refl (s : State) : Proposes s s := ⟨rfl, rfl, rfl, KeepsObjects.refl _ _⟩

theorem Proposes.trans {s t u : State} (h₁ : Proposes s t) (h₂ : Proposes t u) : Proposes s u :=
  ⟨h₂.trace.trans h₁.trace, h₂.mem.trans h₁.mem, h₂.tiles.trans h₁.tiles, h₁.objects.trans h₂.objects⟩

theorem Sends.proposes {s u : State} (h : Sends s u) : Proposes s u :=
  ⟨h.trace, h.mem, h.tiles, h.2.mono fun k hk => by simp [freezeKeys, hk]⟩

theorem ChangesOnly.proposes {l : List Nat} {s u : State} (h : ChangesOnly l s u) (hl : l ⊆ freezeKeys) : Proposes s u :=
  ⟨h.trace, h.mem, h.tiles, h.2.mono hl⟩

theorem setNum_proposes {k : Nat} (hk : k ∈ freezeKeys) (v : Nat) (s : State) : Proposes s (s.setNum k v) :=
  (State.setNum_changes k v s).proposes fun _ h => List.mem_singleton.1 h ▸ hk

theorem bump_proposes {k : Nat} (hk : k ∈ freezeKeys) (n : Nat) (s : State) : Proposes s (s.bump k n) :=
  (State.bump_changes k n s).proposes fun _ h => List.mem_singleton.1 h ▸ hk

theorem setFlag_proposes {k : Nat} (hk : k ∈ freezeKeys) (b : Nat) (s : State) : Proposes s (s.setFlag k b) :=
  (State.setFlag_changes k b s).proposes fun _ h => List.mem_singleton.1 h ▸ hk

theorem setState_proposes {k : Nat} (hk : k ∈ freezeKeys) (v : Nat) (s : State) : Proposes s (s.setState k v) :=
  (State.setState_changes k v s).proposes fun _ h => List.mem_singleton.1 h ▸ hk

theorem sendNotices_sends (s : State) : Sends s s.sendNotices :=
  Sends.foldl (fun t _ => State.sendFlit_sends _ _ _ t) _ s

/-- The bridges of stepped cabinets take their frozen state. -/
theorem freezeBridges_proposes (L : List Nat) (hL : ∀ c ∈ L, Obj.targetBridgeState + c ∈ freezeKeys) (s : State) :
    Proposes s (L.foldl (fun s c =>
      if s.steppedCab c && s.num (Obj.targetBridgeState + c) = 1 then s.setState (Obj.targetBridgeState + c) 2 else s) s) := by
  induction L generalizing s with
  | nil => exact Proposes.refl _
  | cons c L ih =>
    rw [List.foldl_cons]
    refine Proposes.trans ?_ (ih (fun k hk => hL k (List.mem_cons_of_mem _ hk)) _)
    split
    · exact setState_proposes (hL c List.mem_cons_self) _ s
    · exact Proposes.refl s

theorem enterFrozen_proposes (s : State) : Proposes s s.enterFrozen := by
  have hset : Proposes s ((((s.setNum Obj.frozenStep (s.num Obj.freezeAt)).setLockSt Lock.frozen).setFlag Obj.lockstepFlags 2).bump
      Obj.freezesCompleted 1) :=
    (((setNum_proposes (by decide) _ s).trans (setState_proposes (by decide) _ _)).trans
      (setFlag_proposes (by decide) _ _)).trans (bump_proposes (by decide) _ _)
  exact hset.trans (freezeBridges_proposes _ (fun c hc => List.mem_append_right _ (List.mem_map.2 ⟨c, hc, rfl⟩)) _)

/-- A freeze step taken, and told to the neighbours. -/
def State.takeStep (s : State) (f origin cause : Nat) : State :=
  (((s.setNum Obj.freezeAt f).setNum Obj.freezeOrigin origin).setNum Obj.freezeCause cause).sendNotices

theorem takeStep_proposes (s : State) (f origin cause : Nat) : Proposes s (s.takeStep f origin cause) :=
  (((setNum_proposes (by decide) _ s).trans (setNum_proposes (by decide) _ _)).trans (setNum_proposes (by decide) _ _)).trans
    (sendNotices_sends _).proposes

theorem takeStep_num (s : State) (f origin cause : Nat) {k : Nat} (hk : k ∉ sendKeys ∧ k % 256 ≠ 0x12) :
    (s.takeStep f origin cause).num k =
      if k = Obj.freezeCause then cause else if k = Obj.freezeOrigin then origin else if k = Obj.freezeAt then f else s.num k := by
  refine (Sends.kept (sendNotices_sends _) hk).trans ?_
  split
  case isTrue h => exact h ▸ State.num_setNum_self _ _ _
  case isFalse h₃ =>
    rw [State.num_setNum_ne _ _ _ _ h₃]
    split
    case isTrue h => exact h ▸ State.num_setNum_self _ _ _
    case isFalse h₂ =>
      rw [State.num_setNum_ne _ _ _ _ h₂]
      split
      case isTrue h => exact h ▸ State.num_setNum_self _ _ _
      case isFalse h₁ => exact State.num_setNum_ne _ _ _ _ h₁

theorem takeStep_lock (s : State) (f origin cause : Nat) : (s.takeStep f origin cause).lock = s.lock := by
  unfold State.takeStep
  rw [(sendNotices_sends _).1]
  rfl

/-- The last branch of `State.propose`. -/
def State.joinFreeze (s : State) (f : Nat) : State :=
  if s.lockSt = Lock.stalled then s
  else if (s.setLockSt Lock.freezing).lock.started && (s.setLockSt Lock.freezing).num Obj.currentStep = f &&
      !(s.setLockSt Lock.freezing).lock.evaluating then (s.setLockSt Lock.freezing).enterFrozen
  else s.setLockSt Lock.freezing

theorem propose_eq (f origin cause : Nat) (s : State) : s.propose f origin cause =
    if s.lockSt = Lock.idle then { s with lock := { s.lock with held := s.lock.held ++ [(f, origin, cause)] } }
    else if s.lockSt = Lock.failed then s
    else if s.num Obj.freezeAt ≠ noStep && s.num Obj.freezeAt ≤ f then
      if s.num Obj.freezeAt = f && s.num Obj.freezeOrigin = 0xFFFF then s.setNum Obj.freezeOrigin origin else s
    else if f < s.lastStarted then ((s.setFlag Obj.lockstepFlags 8).bump Obj.freezesPassed 1).failLock 1
    else (s.takeStep f (if origin = 0xFFFF then s.num Obj.freezeOrigin else origin) cause).joinFreeze f := rfl

theorem joinFreeze_proposes (s : State) (f : Nat) : Proposes s (s.joinFreeze f) := by
  unfold State.joinFreeze
  split
  · exact Proposes.refl s
  split
  · exact (setState_proposes (by decide) _ s).trans (enterFrozen_proposes _)
  · exact setState_proposes (by decide) _ s

theorem propose_proposes (f origin cause : Nat) (s : State) : Proposes s (s.propose f origin cause) := by
  rw [propose_eq]
  split
  · exact ⟨rfl, rfl, rfl, fun _ _ _ => rfl⟩
  split
  · exact Proposes.refl s
  split
  · split
    · exact setNum_proposes (by decide) _ s
    · exact Proposes.refl s
  split
  · exact (((setFlag_proposes (by decide) _ s).trans (bump_proposes (by decide) _ _)).trans (setNum_proposes (by decide) _ _)).trans
      ((setState_proposes (by decide) _ _).trans (setFlag_proposes (by decide) _ _))
  · exact (takeStep_proposes _ _ _ _).trans (joinFreeze_proposes _ _)

/-- A first freeze, of a step still to come, is in force at once. -/
theorem propose_freezes {f origin cause : Nat} {s : State} (hst : s.lockSt = Lock.elastic) (hnone : s.num Obj.freezeAt = noStep)
    (hahead : s.lastStarted < f) :
    (s.propose f origin cause).lockSt = Lock.freezing ∧ (s.propose f origin cause).num Obj.freezeAt = f ∧
      (s.propose f origin cause).num Obj.freezeCause = cause := by
  rw [propose_eq, if_neg (by rw [hst]; decide), if_neg (by rw [hst]; decide), if_neg (by simp [hnone]), if_neg (by omega)]
  generalize (if origin = 0xFFFF then s.num Obj.freezeOrigin else origin) = o
  have hat : (s.takeStep f o cause).num Obj.freezeAt = f := takeStep_num s f o cause (by decide)
  have hcause : (s.takeStep f o cause).num Obj.freezeCause = cause := takeStep_num s f o cause (by decide)
  have hlock : (s.takeStep f o cause).lockSt = Lock.elastic := (takeStep_num s f o cause (by decide)).trans hst
  have hstep : (s.takeStep f o cause).num Obj.currentStep = s.num Obj.currentStep := takeStep_num s f o cause (by decide)
  have hstarted : (s.takeStep f o cause).lock.started = s.lock.started := by rw [takeStep_lock]
  generalize s.takeStep f o cause = t at hat hcause hlock hstep hstarted
  have hmoved : ChangesOnly [Obj.stepControllerState] t (t.setLockSt Lock.freezing) := State.setState_changes _ _ t
  have hkept {k : Nat} (hk : k ∉ [Obj.stepControllerState] ∧ 0x210000 ≤ k) : (t.setLockSt Lock.freezing).num k = t.num k :=
    hmoved.2.num_of_le hk.1 hk.2
  rw [State.joinFreeze, if_neg (by rw [hlock]; decide), if_neg]
  · exact ⟨State.num_setState_self _ _ _ (quiet_of_mod (by decide)), (hkept (by decide)).trans hat, (hkept (by decide)).trans hcause⟩
  · rw [hkept (by decide), hstep, hmoved.lock, hstarted]
    intro h
    simp only [Bool.and_eq_true, decide_eq_true_eq] at h
    obtain ⟨⟨hs, hc⟩, -⟩ := h
    rw [State.lastStarted, if_pos hs] at hahead
    omega

/-! ## What a verdict does (R424–R426) -/

/-- What a feed holds of verdicts. -/
def FeedS.verdictView (f : FeedS) : List (List Byte) × List (Nat × Bool) × Nat × Nat := (f.verdicts, f.undecided, f.late, f.onTime)

/-- An action of a verdict: what the feed holds of verdicts stands, and so do memory and tiles. -/
structure Acts (q : Nat) (l : List Nat) (s u : State) : Prop where
  view : (u.feed q).verdictView = (s.feed q).verdictView
  mem : u.mem = s.mem
  tiles : u.tiles = s.tiles
  objects : KeepsObjects l s u

theorem Acts.trans {q : Nat} {l l' : List Nat} {s t u : State} (h₁ : Acts q l s t) (h₂ : Acts q l' t u) (hl : l' ⊆ l) : Acts q l s u :=
  ⟨h₂.view.trans h₁.view, h₂.mem.trans h₁.mem, h₂.tiles.trans h₁.tiles, h₁.objects.trans (h₂.objects.mono hl)⟩

theorem Acts.num {q : Nat} {l : List Nat} {s u : State} (h : Acts q l s u) {k : Nat} (hk : k ∉ l ∧ 0x210000 ≤ k) :
    u.num k = s.num k := h.objects.num_of_le hk.1 hk.2

theorem ChangesOnly.acts {l : List Nat} {s u : State} (h : ChangesOnly l s u) (q : Nat) : Acts q l s u :=
  ⟨congrArg FeedS.verdictView (feed_congr h.trace q), h.mem, h.tiles, h.2⟩

theorem Proposes.acts {s u : State} (h : Proposes s u) (q : Nat) : Acts q freezeKeys s u :=
  ⟨congrArg FeedS.verdictView (feed_congr h.trace q), h.mem, h.tiles, h.objects⟩

theorem modFeed_acts (q : Nat) {f : FeedS → FeedS} (hf : ∀ g, (f g).verdictView = g.verdictView) (s : State) :
    Acts q [] s (s.modFeed q f) := ⟨by rw [feed_modFeed, hf], rfl, rfl, KeepsObjects.refl _ _⟩

theorem setCapture_acts (q v : Nat) (s : State) : Acts q [] s (s.setCapture q v) := by
  have hset := modFeed_acts q (f := fun f => { f with capSt := v }) (fun _ => rfl) s
  unfold State.setCapture
  split
  · exact (ChangesOnly.refl [] s).acts q
  · dsimp only
    split
    · exact hset.trans ((State.raiseVal_changes _ _ _ _).acts q) (List.nil_subset _)
    · exact hset

theorem captureReach_acts (q : Nat) (s : State) : Acts q [] s (s.captureReach q) := by
  unfold State.captureReach
  dsimp only
  split
  · exact Acts.trans (t := s.modFeed q fun f => { f with
        capFirst := f.capEnd + 1 - s.num (feedObj Obj.captureSteps q)
        capLast := f.capEnd }) (modFeed_acts q (by exact fun _ => rfl) s) (setCapture_acts q 3 _) (List.nil_subset _)
  · exact (ChangesOnly.refl [] s).acts q

theorem mark_spec (q step code : Nat) (s : State) : let u := s.mark q step code
    let seq := ((s.trace.marks.head?.map (·.1)).getD 0 + 1) % 2 ^ 32
    Acts q [Obj.marks, Obj.traceFlags, Obj.lastMark] s u ∧ Counted Obj.marks 1 s u ∧
      u.num Obj.traceFlags = s.num Obj.traceFlags ||| 8 ∧ u.trace.marks.map (·.1) = seq :: (s.trace.marks.take 1023).map (·.1) ∧
      u.bytes Obj.lastMark = leBytes 6 step ++ leBytes 1 (q % 16 + 16 * (q / 16)) ++ leBytes 1 0 ++ leBytes 4 code ++ leBytes 4 seq := by
  obtain ⟨hcount, hflag, hchanges⟩ := counted_and_flagged (k := Obj.marks) (f := Obj.traceFlags) 1 8 s (by decide) (by decide)
    (by decide)
  intro u seq
  let a := (s.bump Obj.marks 1).setFlag Obj.traceFlags 8
  have htrace : a.trace = s.trace := hchanges.trace
  let l := leBytes 6 step ++ leBytes 1 (q % 16 + 16 * (q / 16)) ++ leBytes 1 0 ++ leBytes 4 code ++ leBytes 4 seq
  let b := ({ a with trace := { a.trace with marks := (seq, l) :: a.trace.marks.take 1023 } } : State).setBytes Obj.lastMark l
  have hu : u = b.raise Obj.lastMark 0 := by
    show s.mark q step code = _
    unfold State.mark
    dsimp only
    rw [show (State.setFlag Obj.traceFlags 8 (State.bump Obj.marks 1 s)).trace = s.trace from htrace]
    show _ = State.raise Obj.lastMark 0 (State.setBytes Obj.lastMark l { a with trace := { a.trace with marks := _ :: a.trace.marks.take 1023 } })
    rw [htrace]
  have hraise : ChangesOnly [] b u := hu ▸ State.raiseVal_changes _ _ _ b
  have hb : KeepsObjects [Obj.lastMark] a b := KeepsObjects.setVal List.mem_cons_self _ _
  have hall : KeepsObjects [Obj.marks, Obj.traceFlags, Obj.lastMark] s u :=
    ((hchanges.2.mono (by simp)).trans (hb.mono (by simp))).trans (hraise.2.mono (List.nil_subset _))
  have hau {k : Nat} (hk : k ∉ [Obj.lastMark] ∧ 0x210000 ≤ k) : u.num k = a.num k :=
    (hraise.2.num_of_le List.not_mem_nil hk.2).trans (hb.num_of_le hk.1 hk.2)
  refine ⟨⟨?_, hraise.mem.trans hchanges.mem, hraise.tiles.trans hchanges.tiles, hall⟩, (hau (by decide)).trans hcount,
    (hau (by decide)).trans hflag, ?_, ?_⟩
  · have hfeed : b.feed q = a.feed q := rfl
    rw [feed_congr hraise.trace, hfeed, feed_congr htrace]
  · rw [hraise.trace]
    show seq :: (a.trace.marks.take 1023).map (·.1) = _
    rw [htrace]
  · show (u.val Obj.lastMark).toBytes = l
    rw [hraise.2 Obj.lastMark List.not_mem_nil (ne_eventsDropped (by decide))]
    exact congrArg Val.toBytes (State.val_setVal_self _ _ _)

theorem capture_spec (q step : Nat) (s : State) : let u := s.capture q step
    Acts q [Obj.captures, Obj.traceFlags] s u ∧ Counted Obj.captures 1 s u ∧
      u.num Obj.traceFlags = s.num Obj.traceFlags ||| 0x10 ∧ ((s.feed q).capSt ≠ 1 → (u.feed q).capSt = (s.feed q).capSt) := by
  obtain ⟨hcount, hflag, hchanges⟩ := counted_and_flagged (k := Obj.captures) (f := Obj.traceFlags) 1 0x10 s (by decide) (by decide)
    (by decide)
  have hfeed : ((s.bump Obj.captures 1).setFlag Obj.traceFlags 0x10).feed q = s.feed q := feed_congr hchanges.trace q
  unfold State.capture
  dsimp only
  rw [hfeed]
  generalize (s.bump Obj.captures 1).setFlag Obj.traceFlags 0x10 = a at hcount hflag hchanges hfeed
  split
  case isTrue h => exact ⟨hchanges.acts q, hcount, hflag, fun _ => congrArg FeedS.capSt hfeed⟩
  case isFalse h =>
    generalize max (step + a.num (feedObj Obj.capturePost q)) _ = e
    have hend : Acts q [] a (a.modFeed q fun f => { f with capEnd := e }) := modFeed_acts q (by exact fun _ => rfl) a
    have hmore := (hend.trans (setCapture_acts q 2 _) (List.nil_subset _)).trans (captureReach_acts q _) (List.nil_subset _)
    exact ⟨(hchanges.acts q).trans hmore (List.nil_subset _), (hmore.num (by decide)).trans hcount,
      (hmore.num (by decide)).trans hflag, fun hne => absurd hne h⟩

theorem verdictFreeze_spec (q : Nat) (s : State) : let u := s.verdictFreeze
    Acts q (Obj.verdictFreezes :: freezeKeys) s u ∧ Counted Obj.verdictFreezes 1 s u ∧
      (s.lockSt = Lock.elastic → s.num Obj.freezeAt = noStep → 0 < s.num Obj.systemDiameter → u.lockSt = Lock.freezing ∧
        u.num Obj.freezeAt = s.lastStarted + s.num Obj.systemDiameter ∧ u.num Obj.freezeCause = 3) := by
  have hbump := State.bump_changes Obj.verdictFreezes 1 s
  have hcount : Counted Obj.verdictFreezes 1 s (s.bump Obj.verdictFreezes 1) := State.num_bump_self _ _ _
  have hkept {k : Nat} (hk : k ≠ Obj.verdictFreezes) : (s.bump Obj.verdictFreezes 1).num k = s.num k := State.num_bump_ne _ _ _ _ hk
  have hlast : (s.bump Obj.verdictFreezes 1).lastStarted = s.lastStarted := by
    unfold State.lastStarted
    rw [hkept (by decide), hkept (by decide)]
    rfl
  have hlock : (s.bump Obj.verdictFreezes 1).lockSt = s.lockSt := hkept (by decide)
  have hat : (s.bump Obj.verdictFreezes 1).num Obj.freezeAt = s.num Obj.freezeAt := hkept (by decide)
  have hD : (s.bump Obj.verdictFreezes 1).num Obj.systemDiameter = s.num Obj.systemDiameter := hkept (by decide)
  unfold State.verdictFreeze State.proposeHere
  generalize s.bump Obj.verdictFreezes 1 = t at hbump hcount hlast hlock hat hD
  rw [hlast, hD]
  have hprop := propose_proposes (s.lastStarted + s.num Obj.systemDiameter) t.device 3 t
  refine ⟨⟨(hprop.acts q).view.trans (hbump.acts q).view, hprop.mem.trans hbump.mem, hprop.tiles.trans hbump.tiles,
    (hbump.2.mono (by simp)).trans (hprop.objects.mono (List.subset_cons_self _ _))⟩,
    (hprop.objects.num_of_le (by decide) (by decide)).trans hcount, fun hst hnone hpos => ?_⟩
  exact propose_freezes (hlock.trans hst) (hat.trans hnone) (by omega)

/-! ## VERDICT_TAKEN (R420, R424) -/

/-- The feed once a verdict is taken off its port and its step is decided. -/
def FeedS.decided (f : FeedS) (rest : List (List Byte)) (left : List (Nat × Bool)) : FeedS := { f with verdicts := rest, undecided := left }

/-- A verdict acts where logic is not bound to an edge. -/
theorem withMiss_unbound {s : State} (h : s.lockSt ≠ Lock.bound) (edge : Nat) (act : State → State) : s.withMiss edge act = act s := by
  have hmiss : s.missAt edge = false := by
    unfold State.missAt
    rw [decide_eq_false h]
    rfl
  unfold State.withMiss
  dsimp only
  rw [hmiss]
  exact if_neg Bool.false_ne_true

theorem exec_verdictTaken {s : State} {c : Cab} {f : Fin 16} (edge : Nat) {l : List Byte} {rest : List (List Byte)} {q : Nat}
    (hq : 16 * c.val + f.val = q) (hv : (s.feed q).verdicts = l :: rest) (hst : s.lockSt ≠ Lock.bound) :
    let bad := bits (field l 6 1) 2 6 ≠ 0 ∨ field l 7 1 ≠ 0 ∨ field l 12 4 ≠ 0
    let known := ∃ p ∈ (s.feed q).undecided, p.1 = field l 0 6
    (bad ∨ ¬known → exec (.verdictTaken c f edge) s = .next (s.setFeed q { s.feed q with
      verdicts := rest
      late := sat32 ((s.feed q).late + 1) })) ∧
    (¬bad → known → exec (.verdictTaken c f edge) s = .next ((s.setFeed q ((s.feed q).decided rest
      ((s.feed q).undecided.filter fun p => p.1 ≠ field l 0 6))).actVerdict q (field l 0 6) (field l 6 1 % 4) (field l 8 4))) := by
  intro bad known
  have hdoes : exec (.verdictTaken c f edge) s = execVerdictTaken c f edge s := rfl
  unfold execVerdictTaken at hdoes
  dsimp only at hdoes
  rw [hq, hv] at hdoes
  dsimp only at hdoes
  have hnot : (s.modFeed q fun f => { f with verdicts := rest }).deadlinesBefore edge = s.modFeed q fun f => { f with verdicts := rest } :=
    if_pos hst
  rw [hnot, feed_modFeed, modFeed_modFeed, modFeed_modFeed] at hdoes
  have hbad : (decide (bits (field l 6 1) 2 6 ≠ 0) || decide (field l 7 1 ≠ 0) || decide (field l 12 4 ≠ 0) ||
      !((s.feed q).undecided.any fun p => decide (p.1 = field l 0 6))) = true ↔ bad ∨ ¬known := by
    have hknown : ((s.feed q).undecided.any fun p => decide (p.1 = field l 0 6)) = true ↔ known := by
      simp only [List.any_eq_true, decide_eq_true_eq, known]
    simp only [Bool.or_eq_true, decide_eq_true_eq, Bool.not_eq_true', ← Bool.not_eq_true, hknown, bad, or_assoc]
  refine ⟨fun h => hdoes.trans (if_pos (hbad.2 h)), fun hgood hk => ?_⟩
  rw [if_neg (hbad.not.2 fun h => h.elim hgood fun h => h hk), if_neg (by exact hst)] at hdoes
  dsimp only at hdoes
  rw [withMiss_unbound (by exact hst)] at hdoes
  exact hdoes

/-- The state before a verdict's own action: counted, on time. -/
def State.onTime (s : State) (q : Nat) : State :=
  (s.modFeed q fun f => { f with onTime := min (f.onTime + 1) 0xFFFFFFFFFFFFFFFF }).bump Obj.verdictsOnTime 1

theorem onTime_feed (s : State) (q : Nat) :
    (s.onTime q).feed q = { s.feed q with onTime := min ((s.feed q).onTime + 1) 0xFFFFFFFFFFFFFFFF } :=
  feed_modFeed q (fun f => { f with onTime := min (f.onTime + 1) 0xFFFFFFFFFFFFFFFF }) s

theorem onTime_num (s : State) (q : Nat) {k : Nat} (h : k ≠ Obj.verdictsOnTime) : (s.onTime q).num k = s.num k :=
  State.num_bump_ne _ _ _ _ h

theorem actVerdict_eq (s : State) (q step action code : Nat) : s.actVerdict q step action code =
    if action = 1 then (s.onTime q).mark q step code else if action = 2 then (s.onTime q).capture q step
    else if action = 3 then (s.onTime q).verdictFreeze else s.onTime q := by
  unfold State.actVerdict
  change (match action with
    | 1 => (s.onTime q).mark q step code
    | 2 => (s.onTime q).capture q step
    | 3 => (s.onTime q).verdictFreeze
    | _ => s.onTime q) = _
  split
  · rfl
  · rfl
  · rfl
  case h_4 h₁ h₂ h₃ => rw [if_neg h₁, if_neg h₂, if_neg h₃]

/-- The objects that no action of a verdict counts late or on time in. -/
theorem actVerdict_acts (s : State) (q step action code : Nat) :
    Acts q (Obj.marks :: Obj.traceFlags :: Obj.lastMark :: Obj.captures :: Obj.verdictFreezes :: freezeKeys) (s.onTime q)
      (s.actVerdict q step action code) := by
  rw [actVerdict_eq]
  split
  · obtain ⟨h, -⟩ := mark_spec q step code (s.onTime q)
    exact ⟨h.view, h.mem, h.tiles, h.objects.mono (by intro k hk; simp only [List.mem_cons, List.not_mem_nil, or_false] at hk ⊢; tauto)⟩
  split
  · obtain ⟨h, -⟩ := capture_spec q step (s.onTime q)
    exact ⟨h.view, h.mem, h.tiles, h.objects.mono (by intro k hk; simp only [List.mem_cons, List.not_mem_nil, or_false] at hk ⊢; tauto)⟩
  split
  · obtain ⟨h, -⟩ := verdictFreeze_spec q (s.onTime q)
    exact ⟨h.view, h.mem, h.tiles, h.objects.mono (by intro k hk; simp only [List.mem_cons] at hk ⊢; tauto)⟩
  · exact (ChangesOnly.refl _ _).acts q

theorem verdictTaken_settled (s : State) (c : Cab) (f : Fin 16) (edge : Nat) : let q := 16 * c.val + f.val
    ((s.feed q).verdicts = [] → exec (.verdictTaken c f edge) s = .next s) ∧
    (∀ l rest, (s.feed q).verdicts = l :: rest → s.lockSt ≠ Lock.bound →
      let bad := bits (field l 6 1) 2 6 ≠ 0 ∨ field l 7 1 ≠ 0 ∨ field l 12 4 ≠ 0
      let known := ∃ p ∈ (s.feed q).undecided, p.1 = field l 0 6
      let left := (s.feed q).undecided.filter fun p => p.1 ≠ field l 0 6
      (bad ∨ ¬known → exec (.verdictTaken c f edge) s = .next (s.setFeed q { s.feed q with
        verdicts := rest
        late := sat32 ((s.feed q).late + 1) })) ∧
      (¬bad → known → Answers (exec (.verdictTaken c f edge) s) fun u =>
        (u.feed q).verdicts = rest ∧ (u.feed q).undecided = left ∧ (u.feed q).late = (s.feed q).late ∧
        (u.feed q).onTime = min ((s.feed q).onTime + 1) 0xFFFFFFFFFFFFFFFF ∧ Counted Obj.verdictsOnTime 1 s u ∧
        u.mem = s.mem ∧ u.tiles = s.tiles ∧
        (field l 6 1 % 4 = 0 → KeepsObjects [Obj.verdictsOnTime] s u ∧ u.trace.marks = s.trace.marks) ∧
        (field l 6 1 % 4 = 1 → Counted Obj.marks 1 s u ∧ u.num Obj.traceFlags = s.num Obj.traceFlags ||| 8 ∧
          u.trace.marks.map (·.1) = (((s.trace.marks.head?.map (·.1)).getD 0 + 1) % 2 ^ 32) :: (s.trace.marks.take 1023).map (·.1) ∧
          u.bytes Obj.lastMark = leBytes 6 (field l 0 6) ++ leBytes 1 (f.val + 16 * c.val) ++ leBytes 1 0 ++ leBytes 4 (field l 8 4) ++
            leBytes 4 (((s.trace.marks.head?.map (·.1)).getD 0 + 1) % 2 ^ 32)) ∧
        (field l 6 1 % 4 = 2 → Counted Obj.captures 1 s u ∧ u.num Obj.traceFlags = s.num Obj.traceFlags ||| 0x10 ∧
          ((s.feed q).capSt ≠ 1 → (u.feed q).capSt = (s.feed q).capSt)) ∧
        (field l 6 1 % 4 = 3 → Counted Obj.verdictFreezes 1 s u ∧ (s.lockSt = Lock.elastic → s.num Obj.freezeAt = noStep →
          0 < s.num Obj.systemDiameter → s.lastStarted + s.num Obj.systemDiameter ≠ noStep → u.lockSt = Lock.freezing ∧
          u.num Obj.freezeAt = s.lastStarted + s.num Obj.systemDiameter ∧ u.num Obj.freezeCause = 3)))) := by
  intro q
  refine ⟨fun hnone => ?_, fun l rest hv hst => ?_⟩
  · show execVerdictTaken c f edge s = .next s
    unfold execVerdictTaken
    dsimp only
    rw [show (s.feed (16 * c.val + f.val)).verdicts = [] from hnone]
  obtain ⟨hlate, htaken⟩ := exec_verdictTaken edge rfl hv hst
  intro bad known left
  refine ⟨hlate, fun hbad hknown => ⟨_, htaken hbad hknown, ?_⟩⟩
  let t := s.setFeed q ((s.feed q).decided rest left)
  show _ ∧ _ ∧ _ ∧ _ ∧ Counted _ 1 s (t.actVerdict q (field l 0 6) (field l 6 1 % 4) (field l 8 4)) ∧ _
  have hacts := actVerdict_acts t q (field l 0 6) (field l 6 1 % 4) (field l 8 4)
  have hview := hacts.view
  have htfeed : t.feed q = (s.feed q).decided rest left := State.feed_setFeed _ _ _
  rw [onTime_feed, htfeed] at hview
  simp only [FeedS.verdictView, Prod.mk.injEq] at hview
  obtain ⟨hverdicts, hundecided, hlates, hon⟩ := hview
  have hcount : Counted Obj.verdictsOnTime 1 s (t.onTime q) := State.num_bump_self _ _ _
  refine ⟨hverdicts, hundecided, hlates, hon, (hacts.num (by decide)).trans hcount, hacts.mem, hacts.tiles, ?_, ?_, ?_, ?_⟩ <;>
    intro haction <;> rw [haction, actVerdict_eq]
  · exact ⟨KeepsObjects.setVal List.mem_cons_self _ s, rfl⟩
  · obtain ⟨-, hmarks, hflags, hlist, hlast⟩ := mark_spec q (field l 0 6) (field l 8 4) (t.onTime q)
    have hq : leBytes 1 (q % 16 + 16 * (q / 16)) = leBytes 1 (f.val + 16 * c.val) :=
      congrArg (leBytes 1) (by have := f.isLt; show (16 * c.val + f.val) % 16 + 16 * ((16 * c.val + f.val) / 16) = _; omega)
    rw [if_pos rfl]
    refine ⟨hmarks.trans ?_, hflags.trans ?_, hlist, hlast.trans (by rw [hq]; rfl)⟩ <;> rw [onTime_num _ _ (by decide)] <;> rfl
  · obtain ⟨-, hcaptures, hflags, hcap⟩ := capture_spec q (field l 0 6) (t.onTime q)
    rw [if_neg (by decide), if_pos rfl]
    have hsame : ((t.onTime q).feed q).capSt = (s.feed q).capSt := by rw [onTime_feed, htfeed]; rfl
    refine ⟨hcaptures.trans ?_, hflags.trans ?_, fun hne => (hcap (hsame.trans_ne hne)).trans hsame⟩ <;>
      rw [onTime_num _ _ (by decide)] <;> rfl
  · obtain ⟨-, hfreezes, hforce⟩ := verdictFreeze_spec q (t.onTime q)
    rw [if_neg (by decide), if_neg (by decide), if_pos rfl]
    have hnum {k : Nat} (h : k ≠ Obj.verdictsOnTime) : (t.onTime q).num k = s.num k := onTime_num t q h
    have hlast : (t.onTime q).lastStarted = s.lastStarted := by
      unfold State.lastStarted
      rw [hnum (by decide), hnum (by decide)]
      rfl
    refine ⟨hfreezes.trans (by rw [hnum (by decide)]), fun he hn hD _ => ?_⟩
    rw [hnum (by decide), hnum (by decide), hlast] at hforce
    exact hforce ((hnum (by decide)).trans he) hn hD

/-! ## VERDICT_DEADLINE (R421, R424) -/

theorem mem_enabledFeeds {s : State} {q : Nat} : q ∈ s.enabledFeeds ↔ q < 128 ∧ s.num (feedObj Obj.feedEnable q) = 1 := by
  simp [State.enabledFeeds]

/-- One step of a feed past its edge, with no record waiting and the policy to go on. -/
theorem feedDeadline_single {s : State} {q step e edge : Nat} {b : Bool} (hu : (s.feed q).undecided = [(step, b)])
    (hq : (s.feed q).queue = []) (he : s.assigned (step + s.num (feedObj Obj.verdictLatency q)) = some e) (hpast : e ≤ edge)
    (hpolicy : s.num (feedObj Obj.missPolicy q) = 0) :
    s.feedDeadline q (fun e => decide (e ≤ edge)) =
      (s.setFeed q { s.feed q with undecided := [] }).missTaken (if b then Obj.unknownVerdicts else Obj.verdictMisses)
        (if b then 2 else 1) q (if b then FeedS.moreUnknown else FeedS.moreMissed) := by
  have hpolicy' : (s.setFeed q { s.feed q with undecided := [] }).num (feedObj Obj.missPolicy q) = 0 := hpolicy
  unfold State.feedDeadline State.modFeed
  simp only [hu, hq, List.filter_cons, List.filter_nil, List.map_nil, he, hpast, decide_true, if_true, Bool.not_true,
    Bool.false_eq_true, if_false, List.foldl_cons, List.foldl_nil]
  cases b with
  | true => exact takeUnknown_eq hpolicy'
  | false => exact takeMissed_eq hpolicy'

theorem verdictDeadline_settled (s : State) (c : Cab) (f : Fin 16) (edge : Nat) : let q := 16 * c.val + f.val
    (s.lockSt ≠ Lock.bound ∨ s.num (feedObj Obj.feedEnable q) ≠ 1 → exec (.verdictDeadline c f edge) s = .next s) ∧
    (∀ step b e, s.lockSt = Lock.bound → s.num (feedObj Obj.feedEnable q) = 1 → (s.feed q).undecided = [(step, b)] → (s.feed q).queue = [] →
      s.assigned (step + s.num (feedObj Obj.verdictLatency q)) = some e → e ≤ edge → s.missAt edge = false →
      s.num (feedObj Obj.missPolicy q) = 0 → Answers (exec (.verdictDeadline c f edge) s) fun u =>
        u.feed q = { s.feed q with
          undecided := []
          misses := if b then (s.feed q).misses else sat32 ((s.feed q).misses + 1)
          unknown := if b then sat32 ((s.feed q).unknown + 1) else (s.feed q).unknown } ∧
        CountedIf (!b) Obj.verdictMisses s u ∧ CountedIf b Obj.unknownVerdicts s u ∧
        u.num Obj.traceFlags = s.num Obj.traceFlags ||| (if b then 2 else 1) ∧ u.lock = s.lock ∧
        ChangesOnly [Obj.verdictMisses, Obj.unknownVerdicts, Obj.traceFlags] { s with trace := u.trace } u) := by
  intro q
  have hlt : q < 128 := by
    have := c.isLt
    have := f.isLt
    show 16 * c.val + f.val < 128
    omega
  have hdoes : exec (.verdictDeadline c f edge) s = if (decide (s.lockSt ≠ Lock.bound) || !s.enabledFeeds.contains q) = true then
      .next s else .next (s.withMiss edge fun s => s.feedDeadline q fun e => decide (e ≤ edge)) := rfl
  refine ⟨fun h => hdoes.trans (if_pos ?_), fun step b e hst hen hu hq he hpast hmiss hpolicy => ?_⟩
  · rw [Bool.or_eq_true, decide_eq_true_eq, Bool.not_eq_true', ← Bool.not_eq_true, List.contains_iff_mem, mem_enabledFeeds]
    exact h.imp_right fun h hin => h hin.2
  · rw [if_neg] at hdoes
    · have hact : (s.withMiss edge fun s => s.feedDeadline q fun e => decide (e ≤ edge)) =
          s.feedDeadline q fun e => decide (e ≤ edge) := by
        unfold State.withMiss
        dsimp only
        rw [hmiss]
        exact if_neg Bool.false_ne_true
      rw [hact, feedDeadline_single hu hq he hpast hpolicy] at hdoes
      refine ⟨_, hdoes, ?_⟩
      have hset : (s.setFeed q { s.feed q with undecided := [] }).feed q = { s.feed q with undecided := [] } := State.feed_setFeed _ _ _
      cases b with
      | true =>
        obtain ⟨hfeed, hcount, hflag, hchanges⟩ := missTaken_spec keepsPolicy_unknown 2 q FeedS.moreUnknown
          (s.setFeed q { s.feed q with undecided := [] })
        rw [hset] at hfeed
        exact ⟨hfeed, hchanges.2.num_of_le (by decide) (by decide), hcount, hflag, hchanges.lock, hchanges.mono (by simp)⟩
      | false =>
        obtain ⟨hfeed, hcount, hflag, hchanges⟩ := missTaken_spec keepsPolicy_missed 1 q FeedS.moreMissed
          (s.setFeed q { s.feed q with undecided := [] })
        rw [hset] at hfeed
        exact ⟨hfeed, hcount, hchanges.2.num_of_le (by decide) (by decide), hflag, hchanges.lock, hchanges.mono (by simp)⟩
    · rw [Bool.or_eq_true, decide_eq_true_eq, Bool.not_eq_true', ← Bool.not_eq_true, List.contains_iff_mem, mem_enabledFeeds]
      exact fun h => h.elim (fun h => h hst) fun h => h ⟨hlt, hen⟩

/-! ## CAPTURE_ARM (R426) -/

/-- A capture ring that changes its state. -/
theorem setCapture_changes {q v : Nat} {s : State} (h : (s.feed q).capSt ≠ v) :
    (s.setCapture q v).feed q = { s.feed q with capSt := v } ∧
      ChangesOnly [] { s with trace := (s.setCapture q v).trace } (s.setCapture q v) := by
  have hset : (s.modFeed q fun f => { f with capSt := v }).feed q = { s.feed q with capSt := v } := feed_modFeed _ _ _
  unfold State.setCapture
  rw [if_neg h]
  dsimp only
  split
  · have hraise := State.raiseVal_changes Obj.captureState 0 (.num v) (s.modFeed q fun f => { f with capSt := v })
    refine ⟨(feed_congr hraise.trace q).trans hset, ?_⟩
    rw [hraise.trace]
    exact hraise
  · exact ⟨hset, rfl, KeepsObjects.refl _ _⟩

theorem captureArm_settled (s : State) (q : Req) (val : List Byte) (hadm : Admitted q Obj.captureArm val s) : let n := leNat val
    (s.blockHeld (0x18 + n / 16) = true ∨ s.inCReset (n / 16) = true → exec (.captureArm q val) s =
      .next (Denied q Obj.captureArm Err.refusedInState (Arrived q s))) ∧
    (s.blockHeld (0x18 + n / 16) = false → s.inCReset (n / 16) = false → s.num (feedObj Obj.captureBase n) ≠ 0 →
      (s.feed n).capSt = 0 ∨ (s.feed n).capSt = 3 → Carries q Obj.captureArm (exec (.captureArm q val) s) fun u =>
        u.feed n = { s.feed n with
          capNewest := none
          capSt := 1 } ∧ u.mem = s.mem ∧ u.lock = s.lock ∧ KeepsObjects [] (Arrived q s) u) ∧
    (s.blockHeld (0x18 + n / 16) = false → s.inCReset (n / 16) = false →
      s.num (feedObj Obj.captureBase n) = 0 ∨ ((s.feed n).capSt ≠ 0 ∧ (s.feed n).capSt ≠ 3) →
      exec (.captureArm q val) s = .next (Replied q Obj.captureArm (Arrived q s))) := by
  intro n
  have hcommand : (rowOf Obj.captureArm).any (fun r => r.ty.fixed && r.acc = .wo) = true := rfl
  have hwrite (t : State) : writeCaptureArm (.num n) t = if (t.blockHeld (0x18 + n / 16) || t.inCReset (n / 16)) = true then
      .error Err.refusedInState
    else if (decide (t.num (feedObj Obj.captureBase n) ≠ 0) && (decide ((t.feed n).capSt = 0) || decide ((t.feed n).capSt = 3))) = true
      then .ok ((t.modFeed n fun f => { f with capNewest := none }).setCapture n 1) else .ok t := rfl
  obtain ⟨now', dict', hat⟩ := arrived_at q s
  have hheld : (Arrived q s).blockHeld (0x18 + n / 16) = s.blockHeld (0x18 + n / 16) := by rw [hat]; rfl
  have hreset : (Arrived q s).inCReset (n / 16) = s.inCReset (n / 16) := by rw [hat]; rfl
  have hbase : (Arrived q s).num (feedObj Obj.captureBase n) = s.num (feedObj Obj.captureBase n) := arrived_num _ _ _
  have hfeed : (Arrived q s).feed n = s.feed n := feed_congr (by rw [hat]) n
  have hdoes := hwrite (Arrived q s)
  rw [hheld, hreset, hbase, hfeed] at hdoes
  refine ⟨fun h => denies_command hadm hcommand (hdoes.trans (if_pos (by simpa using h))), fun hh hr hb hcap => ?_,
    fun hh hr hnot => ?_⟩
  · rw [hh, hr, if_neg (by decide), if_pos (by simpa [hb] using hcap)] at hdoes
    refine carries_command hadm hcommand ⟨_, hdoes, ?_⟩
    have hmod : ((Arrived q s).modFeed n fun f => { f with capNewest := none }).feed n = { s.feed n with capNewest := none } := by
      rw [feed_modFeed, hfeed]
    have hne : (((Arrived q s).modFeed n fun f => { f with capNewest := none }).feed n).capSt ≠ 1 := by
      rw [hmod]
      rcases hcap with h | h <;> simp [h]
    obtain ⟨hset, hchanges⟩ := setCapture_changes hne
    rw [hmod] at hset
    exact ⟨hset, hchanges.mem.trans (by rw [hat]; rfl), hchanges.lock.trans (by rw [hat]; rfl), hchanges.2⟩
  · rw [hh, hr, if_neg (by decide), if_neg] at hdoes
    · exact congrArg Host.Outcome.next ((serveOwn_command hadm hcommand _).1 _ hdoes)
    · simp only [Bool.and_eq_true, Bool.or_eq_true, decide_eq_true_eq]
      tauto

/-- Settles O49: a clause for each command, each by the lemma that says what its command does. -/
theorem recordsVerdictsAndCaptures : Obligations.RecordsVerdictsAndCaptures := by
  unfold Obligations.RecordsVerdictsAndCaptures
  exact ⟨traceRecordDelivered_settled, verdictPortRead_settled, verdictTaken_settled, verdictDeadline_settled, captureArm_settled⟩

end Sys2Proof.Machine
